-- ==== Sys2Proof/Word.lean ====
section
/-! DEFINITION. The plain words of the module: bytes, 64-bit register words and the little-endian and big-endian
readings of byte strings (R13: bytes are stored least significant first unless a table says otherwise). -/

namespace Sys2Proof

/-- One byte. -/
abbrev Byte := BitVec 8

/-- One 32-bit lane of a vector register (R170). -/
abbrev Lane := BitVec 32

/-- One 64-bit register word (R12). -/
abbrev Word := BitVec 64

end Sys2Proof
end

