-- ==== Sys2Proof/Wire.lean ====
section
/-! DEFINITION. What commands carry: the structures of blocks, packets, frames, records and reports that the
manual's layouts define, and the emissions by which the module answers. -/

namespace Sys2Proof

/-- A stamp: a Tally count and its fraction in units of 2⁻³² tick, as one number of 2⁻³² ticks (R59, R283). -/
abbrev Stamp := Nat

/-- What one bench region reports at a beat boundary (R46 to R48, R30): edges swallowed, cycles planned for the beat,
least margin of its tell-tales, and its bench activity as power in W. -/
structure BeatReport where
  region : Fin 39
  swallowed : Nat
  planned : Nat
  margin : Nat
  activity : Nat
deriving DecidableEq, Repr

/-- What the sequencer of a physical bench did in a beat (R181): bundles issued, and cycles stalled. -/
structure BenchBeat where
  bench : Fin 792
  issued : Nat
  stalled : Nat
deriving DecidableEq, Repr

/-- The data of a MARKER block (R285). -/
structure Marker where
  tDep : Stamp
  root : Nat
  hops : Nat
  flags : Nat
  sender : Nat
  port : Nat
deriving DecidableEq, Repr

/-- The payload of a TIME service packet (R58). -/
structure TimePkt where
  op : Nat
  flags : Nat
  root : Nat
  sender : Nat
  token : Nat
  rate : Nat
  tally : Nat
  ptpS : Nat
  ptpNs : Nat
deriving DecidableEq, Repr

/-- The flash store a write unit is for (R34). -/
inductive FlashStore where
  | firmware | keyStore | spill
deriving DecidableEq, Repr

/-! ### The Working Plan, read from its image (06_working_plan.md) -/

/-- One stage of a power profile (R433). `bench` holds the sixteen BENCH_W values. -/
structure PowerStage where
  position : Nat
  fork : Nat
  variant : Nat
  nonBench : Nat
  bench : List Nat
deriving DecidableEq, Repr

/-- The POWER_PROFILE section of one operating point (R433). -/
structure PowerProfile where
  point : Nat
  idle : Nat
  up : List PowerStage
  step : List PowerStage
  down : List PowerStage
deriving DecidableEq, Repr

/-- One CONTEXTS entry (R164). -/
structure PlanCtx where
  ctx : Nat
  provEn : Bool
  strictReq : Bool
  winIndep : Bool
  intake : Bool
  rotation : Bool
  spareExt : Nat
  backfill : Nat
  seed : Nat
deriving DecidableEq, Repr

/-- One BENCH_ALLOC entry (R164). -/
structure BenchAlloc where
  home : Nat
  used : Bool
  guest : Nat
  guestValid : Bool
deriving DecidableEq, Repr

/-- One module entry of the arrangement descriptor (R154). -/
structure ModuleEntry where
  number : Nat
  role : Nat
  forwardOnly : Bool
deriving DecidableEq, Repr

/-- One port-map entry of the arrangement descriptor (R154). -/
structure PortMap where
  partner : Nat
  partnerPort : Nat
  bundle : Nat
  use : Nat
deriving DecidableEq, Repr
/-! ### Intake (09_intake_and_streams.md) -/

/-- One entry of the INTAKE section (R253). -/
structure IntakeEntry where
  ctx : Nat
  tsInput : Bool
  respTag : Bool
  ring : Bool
  chainSpan : Nat
  carryMax : Nat
  windowTicks : Nat
  releaseTicks : Nat
  slots : Nat
  carrySlots : Nat
  maxRequest : Nat
  resultLength : Nat
  frameSpacing : Nat
  perFrame : Nat
  blockLog2 : Nat
  entries : Nat
  stash : Nat
  portMask : Nat
  buffers : Nat
  salt : List Nat
  indexRegion : List Nat
  stateRegion : Nat
  bench : Nat
  bufAddr : Nat
  respAddr : Nat
  ringBase : Nat
  ringLog2 : Nat
  ringEntryLog2 : Nat
  ringReadMax : Nat
  ringPeriod : Nat
deriving DecidableEq, Repr

/-- A KERF_STREAM record (R435): context, stream number, width in bits, STEP_SOURCE, USE, dropout threshold and factor, and the id
of the tensor that counts for it. -/
structure KerfStream where
  ctx : Nat
  stream : Nat
  width : Nat
  source : Nat
  use : Nat
  threshold : Nat
  factor : Nat
  counter : Nat
deriving DecidableEq, Repr


/-! ### Weights (08_weights.md) -/

/-- The bank that a sweep reads (R230, R231). -/
inductive SweepKind where
  | active | landing | closing
deriving DecidableEq, Repr


/-! ### Haul links (10_haul_links.md) -/

/-- An uncorrectable codeword of a lane (R267): the physical lane, and the codeword's number on it, by which the blocks that one
codeword poisons name the same one. -/
structure Codeword where
  lane : Nat
  number : Nat
deriving DecidableEq, Repr

/-- A block as it arrives: its 256 bytes, and the codewords that hold one of its stripes and were uncorrectable (R267, R269). -/
structure WireBlock where
  bytes : List Byte
  uncorr : List Codeword
deriving DecidableEq, Repr

/-- A link block: the header fields of R270 and the LEN data bytes in use. -/
structure LinkBlock where
  type : Nat
  seq : Nat
  ack : Nat
  freed0 : Nat
  freed1 : Nat
  data : List Byte
deriving DecidableEq, Repr

/-- The data of a LANE block (R286). -/
structure LaneMsg where
  kind : Nat
  logical : Nat
  src : Nat
  dst : Nat
  opId : Nat
deriving DecidableEq, Repr

/-- Offsets 0x00 to 0x1F of a TRAIN block (R281). -/
structure Announce where
  version : Nat
  kind : Nat
  partnerType : Nat
  port : Nat
  module : Nat
  rxLanes : Nat
  serial : Nat
  replayBlocks : Nat
  credits0 : Nat
  credits1 : Nat
  alignPs : Nat
  markerTicks : Nat
  seen : Bool
deriving DecidableEq, Repr

/-! ### The fabric (11_scheduled_fabric.md) -/

/-- A service packet: header of R320 and payload bytes. -/
structure SvcPkt where
  kind : Nat
  dest : Nat
  source : Nat
  hops : Nat
  express : Bool
  seq : Nat
  payload : List Byte
deriving DecidableEq, Repr

/-- The payload of a HOLD or REPLAY notice (R320): `arg` is QUANTA or the context mask, `code` the hold cause or the
Step-fatal error code. -/
structure Notice where
  plan : Nat
  point : Nat
  step : Nat
  requester : Nat
  arg : Nat
  code : Nat
  attempt : Nat
  origin : Nat
deriving DecidableEq, Repr

/-- The payload of a ROUTE_DOWN notice (R320). -/
structure RouteDown where
  plan : Nat
  lossAt : Nat
  step : Nat
  route : Nat
  port : Nat
  cause : Nat
deriving DecidableEq, Repr

/-- The transfer header and payload of a SCHED block (R297). -/
structure SchedData where
  route : Nat
  step16 : Nat
  index : Nat
  last : Bool
  void : Bool
  path : Nat
  attempt : Nat
  payload : List Byte
deriving DecidableEq, Repr

/-- Types of schedule entries (R299). -/
inductive EntryType where
  | unused | send | recv | fwd | detour
deriving DecidableEq, Repr

/-- A schedule entry (R299). -/
structure SchedEntry where
  type : EntryType
  ctx : Nat
  forkEn : Bool
  fork : Nat
  variants : Nat
  route : Nat
  length : Nat
  slot : Bool
  tick : Nat
  counter : Nat
  bench : Nat
  d1 : Option (Nat × Nat)
  d2 : Option (Nat × Nat)
  peer : Nat
deriving DecidableEq, Repr

/-- A route entry (R301): forward on FWD entry `entry` of out port `port`, or deliver to RECV entry `entry` of in
port `port`. -/
structure RouteEntry where
  route : Nat
  deliver : Bool
  port : Nat
  entry : Nat
  source : Nat
deriving DecidableEq, Repr

/-- The HAUL_SCHEDULE section of a role (R298): `entries` keyed 32,768 × port + entry. -/
structure HaulSchedule where
  holdParent : Nat
  holdChildren : List Nat
  replayGap : Nat
  budgets : List Nat
  entries : List (Nat × SchedEntry)
  routes : List RouteEntry
deriving DecidableEq, Repr
/-! ### Benches, forks, memory and weights of a plan (06_working_plan.md, 04, 07, 08) -/

/-- What the SEC-DED code says of a read of bench store or bundle memory: the byte addresses of the words with one bit in error,
which it corrects, and of those with two (R88, R175). -/
structure Ecc where
  corr : List Nat
  uncorr : List Nat
deriving DecidableEq, Repr

/-- Every word reads without error. -/
def Ecc.clean : Ecc := ⟨[], []⟩

/-- What the codes say of what a command reads, all by local address: bursts corrected with the device of the most symbols and bursts
uncorrectable, as the stacks report them (R206), and words of bench stores likewise (R88); and the bursts of the DDR tier with errors,
each with the device of the most symbols and how many of its 80 symbols are wrong (R207). -/
structure MemEcc where
  corr : List (Nat × Nat)
  uncorr : List Nat
  symbols : List (Nat × Nat × Nat)
deriving DecidableEq, Repr

/-- The program of one logical bench: operation table entries (R174), step entry of each point, resident pages and
preloads by 128-byte unit (R175, R159), the pages that it brings in by BREF, by the 128-byte unit of bench store in which they
stand then (R175), and the address at which the guest's first backfill unit begins (R117, R201). -/
structure BenchProgram where
  bench : Nat
  table : List (Nat × Nat)
  entries : List (Nat × Nat)
  pages : List (Nat × List Byte)
  preloads : List (Nat × List Byte)
  more : List (Nat × List Byte)
  guest : Option Nat
deriving DecidableEq, Repr

/-- A move of a context's replay prologue (R316, R319): bytes of one of its regions of kind 8, and where they belong, in the store of a
logical bench or in local memory. -/
structure Restore where
  ctx : Nat
  source : Nat
  bench : Option Nat
  dest : Nat
  length : Nat
deriving DecidableEq, Repr

/-- A crossing of a mesh route (R42, R43): the region that writes it, the region that reads it, and the nominal entry tick of the
first flit, as a position in the step of the sending context. -/
structure Crossing where
  writer : Nat
  reader : Nat
  entry : Nat
deriving DecidableEq, Repr

/-- A mesh route of an operating point (R152, R171, R173, R43): its sending logical bench and number there, its receiving logical
bench with the number bound there and the completion counter that rises, its length in bytes, its crossings in order, and the fork
and variants whose programs use it, none for the common schedule (R113). -/
structure MeshRoute where
  point : Nat
  source : Nat
  id : Nat
  dest : Nat
  bind : Nat
  counter : Nat
  length : Nat
  crossings : List Crossing
  fork : Option Nat
  variants : Nat
deriving DecidableEq, Repr

/-- A fork point (R109, R111, R113, R115, R117): positions in ticks, ends E_v of the variants in order, the modules that take part,
and the relays on its longest path. -/
structure ForkPoint where
  number : Nat
  ctx : Nat
  variants : Nat
  f : Nat
  d : Nat
  k : Nat
  j : Nat
  ends : List Nat
  deciderModule : Nat
  deciderBench : Nat
  modules : Nat
  relays : Nat
deriving DecidableEq, Repr

/-- A capacity group (R101, R104; R435 CAPACITY): its slots C, ranks k, overflow policy, consumer index, the tensor of its router
values, and its dispatch shards. -/
structure CapGroup where
  number : Nat
  ctx : Nat
  capacity : Nat
  ranks : Nat
  policy : Nat
  consumer : Nat
  router : Nat
  shards : Nat
deriving DecidableEq, Repr

/-- A region entry (R190). -/
structure MemRegion where
  ctx : Nat
  kind : Nat
  base : Nat
  length : Nat
deriving DecidableEq, Repr

/-- A script entry (R192): kind 1 stream read, 2 stream write, 3 tier copy; `fork` is none outside fork regions. -/
structure ScriptEntry where
  ctrl : Nat
  kind : Nat
  ctx : Nat
  variants : Nat
  fork : Option Nat
  beat : Nat
  beats : Nat
  addr : Nat
  units : Nat
  bench : Nat
  baddr : Nat
  addr2 : Nat
deriving DecidableEq, Repr

/-- A gather window descriptor (R197): `positions` are the data positions it reserves on each pseudo-channel or subchannel. -/
structure GatherDesc where
  ctrl : Nat
  write : Bool
  ctx : Nat
  id : Nat
  bench : Nat
  region : Nat
  n : Nat
  record : Nat
  start : Nat
  length : Nat
  variants : Nat
  fork : Option Nat
  positions : Nat
deriving DecidableEq, Repr

/-- The MEMORY section of the role (R189). -/
structure MemoryPlan where
  regions : List MemRegion
  windows : List GatherDesc
  entries : List ScriptEntry
deriving DecidableEq, Repr

/-- A tensor entry of a binding block: image parts and, for a block-sparse tensor, the bitmap digest (R214). -/
structure TensorBind where
  form : Nat
  offset : Nat
  valueLen : Nat
  scaleLen : Nat
  bitmapLen : Nat
  digest : List Byte
deriving DecidableEq, Repr

/-- An extent of this role (R214): image bytes and where they lie in bank 0 and in the paired landing. -/
structure Extent where
  imageOffset : Nat
  length : Nat
  base : Nat
  landing : Option Nat
deriving DecidableEq, Repr

/-- The binding block of one context (R214): `pairs` holds the regions paired for SWAP, as the BASE of each and their LENGTH (R225,
R226), and `digest` is SHA-512 of the block. -/
structure Binding where
  ctx : Nat
  swap : Bool
  writable : Bool
  imageLength : Nat
  recheckHbm : Nat
  recheckDdr : Nat
  tensors : List TensorBind
  extents : List Extent
  pairs : List (Nat × Nat × Nat)
  digest : List Byte
deriving DecidableEq, Repr

/-! ### Bundles (06_working_plan.md R168 to R173) -/

/-- The bundle that carries an operation: the physical bench that issues it, its bundle address, and what the code of bundle
memory says of its fetch (R168, R175). -/
structure Issue where
  bench : Fin 792
  pc : Fin 4096
  fetch : Ecc
deriving DecidableEq, Repr

/-- The matrix slot (R169). -/
structure MatSlot where
  desc : Fin 256
  a : Fin 16384
  b : Fin 16384
  acc : Fin 64
deriving DecidableEq, Repr

/-- The vector slot (R170). -/
structure VecSlot where
  dst : Fin 64
  s1 : Fin 64
  s2 : Fin 64
  s3 : Fin 64
  fmt : Fin 16
  rm : Fin 4
  pred : Fin 16
  imm : Fin 65536
deriving DecidableEq, Repr

/-- The gather/move slot (R171). -/
structure MovSlot where
  addr : Fin 16384
  vreg : Fin 64
  addr2 : Fin 16384
  id : Fin 256
deriving DecidableEq, Repr

/-- The haul slot (R172). -/
structure HaulSlot where
  port : Fin 16
  entry : Fin 32768
  addr : Fin 16384
deriving DecidableEq, Repr

/-- The control slot (R173). -/
structure CtlSlot where
  arg : Fin 4096
  target : Fin 4096
  imm : Fin 67108864
deriving DecidableEq, Repr

/-- Where a tile's data lie in bench store, which neither bundle nor operation table says: bytes from a row of A to the
next, from a column of B to the next and from a row of results to the next; the scale byte of the grain at hand, from A_SCALE
and from B_SCALE, and the bytes to that of the next row or column; and of the scales of a scaled result likewise. -/
structure TileLayout where
  aRow : Nat
  bCol : Nat
  outRow : Nat
  scaleA : Nat
  scaleARow : Nat
  scaleB : Nat
  scaleBCol : Nat
  scaleOut : Nat
  scaleOutStep : Nat
deriving DecidableEq, Repr

/-- Which logical elements an operation that consumes random bits writes (R130): the coordinate n of its first element, the steps
from a row and from a column of them to the next, the value of the INT32 tensor that its stream names as COUNTER, and the batch of
intake that it computes, counted from the first window that opens in its step (R247). A vector operation's lanes are four rows of
32. -/
structure Coords where
  base : Nat
  row : Nat
  col : Nat
  counter : Nat
  window : Int
deriving DecidableEq, Repr

/-- A reduction descriptor (R125; R435 REDUCTION): its id and context, OP, PATH (2 integer) and PAIR, N, STRIDE and BASE. -/
structure Reduction where
  id : Nat
  ctx : Nat
  op : Nat
  path : Nat
  pair : Bool
  n : Nat
  stride : Int
  base : Nat
deriving DecidableEq, Repr

/-- What the tag path takes beside the bytes of TAGR (R141, R142), all of it fixed by the program and the step: the batch counter of the
batch, of an intake context the index of the window whose pass hands the result over, and its slot (log entry 17); of any other
RESULT_KIND, the global batch index of the batch, and its sample bytes in logical order, as spans of local memory. -/
structure TagInput where
  slot : Fin 65536
  kind : Fin 3
  counter : Nat
  batch : Nat
  samples : List (Nat × Nat)
deriving DecidableEq, Repr


/-- What MESH_ROUTES gives for data that come from an I/O region (R152, R193): at an operating point, the latency in ticks from the
region to a logical bench. -/
structure RouteLatency where
  point : Nat
  region : Nat
  bench : Nat
  ticks : Nat
deriving DecidableEq, Repr

/-- What the plan's programs give for a gather window, by its index (R173, R256): the completion counter that it raises, and for a
window of the Stream Context Table engine the batch that it serves, counted from the first window of intake that opens in the step
of its START. -/
structure WindowUse where
  index : Nat
  counter : Option Nat
  batch : Option Int
deriving DecidableEq, Repr

/-! ### The whole plan of this module -/

/-- A Working Plan as this module reads it: header, arrangement entry and role sections. -/
structure Plan where
  id : Nat
  root : List Byte
  level : Nat
  opPoints : Nat
  stepLen : Nat
  q : Nat
  lead : Nat
  drainSteps : Nat
  mask : Nat
  ramp : Nat
  role : Nat
  modules : List ModuleEntry
  forwardOnly : Bool
  ports : List PortMap
  ctxs : List PlanCtx
  alloc : List BenchAlloc
  profiles : List PowerProfile
  sched : HaulSchedule
  shape : Nat
  sealTicks : Nat
  intake : List IntakeEntry
  kerf : List KerfStream
  reductions : List Reduction
  programs : List BenchProgram
  restores : List Restore
  routes : List MeshRoute
  forks : List ForkPoint
  groups : List CapGroup
  memory : MemoryPlan
  tagEngines : Nat
  bindings : List Binding
  latencies : List RouteLatency
  uses : List WindowUse
deriving DecidableEq, Repr

/-- Bytes of bench store that the home, or the guest, of a logical bench has there (R164, R165). -/
structure StoreRange where
  bench : Nat
  guest : Bool
  first : Nat
  length : Nat
deriving DecidableEq, Repr

/-- What a variant of a fork reduces and draws: the ids of its reduction descriptors and the numbers of its Kerf streams (R114). -/
structure VariantUse where
  fork : Nat
  variant : Nat
  reductions : List Nat
  streams : List Nat
deriving DecidableEq, Repr

/-- A pass over the weights of a context with SWAP (R225): the batches that it serves, and the nominal positions in the step between
which it reads. -/
structure WeightPass where
  ctx : Nat
  batches : Nat
  first : Nat
  last : Nat
deriving DecidableEq, Repr

/-- Bytes that a step of a context reads and later overwrites (R319), in the store of a logical bench or in local memory. -/
structure StepRead where
  ctx : Nat
  bench : Option Nat
  addr : Nat
  length : Nat
deriving DecidableEq, Repr

/-- The nominal arrival of the blocks of a route at an in port (R300, R304): the tick at which the first arrives, six to a tick, and for a
route that ends here the tick at which HGET binds its receive address. -/
structure RouteArrival where
  port : Nat
  route : Nat
  tick : Nat
  bound : Nat
deriving DecidableEq, Repr

/-- The transfer of a RECV entry over its primary path (R300): the nominal departure of its first block in the sender's step, and the
latest nominal tick at which its last block leaves the last module of the path for this port. -/
structure PlannedTransfer where
  port : Nat
  entry : Nat
  sent : Nat
  leaves : Nat
deriving DecidableEq, Repr

/-- What plan verification finds in the sections without a layout beside what the module loads from them: the tensor that holds the
result of an intake context (R141); the parts, as first logical element and count, in which a reduction is split over steps (R129);
the ranges of bench store (R165); the variants' descriptors and keys (R114); the passes over weights, and the contexts of which a
weight copy stays in bench store from one to the next (R225); the nominal ticks after the close of a window at which the last of
its response cells and tags is complete (R259); of each mesh route the latency that the plan gives it and that of the longest positions
of its regions (R139); what each step reads and later overwrites (R319); of each reduction the module and the bench of every node, leaves
first (R127); the capacity groups that requests feed (R135); and the nominal arrivals and transfers of the haul schedule (R300, R304). -/
structure PlanFacts where
  results : List (Nat × Nat)
  splits : List (Nat × List (Nat × Nat))
  stores : List StoreRange
  uses : List VariantUse
  passes : List WeightPass
  copies : List Nat
  responses : List (Nat × Nat)
  padding : List (Nat × Nat)
  reads : List StepRead
  nodes : List (Nat × List (Option (Nat × Nat)))
  fed : List Nat
  arrivals : List RouteArrival
  transfers : List PlannedTransfer
deriving DecidableEq, Repr

/-- What the sections without a layout read as (R152): bench programs with their preloads, the replay prologues among them, mesh
routes with the latencies from I/O regions, the fork table, the dispatch shards of capacity groups, by group, the use of gather
windows, and what the checks find in them. -/
structure PlanReading where
  programs : List BenchProgram
  restores : List Restore
  routes : List MeshRoute
  forks : List ForkPoint
  shards : List (Nat × Nat)
  facts : PlanFacts
  latencies : List RouteLatency
  uses : List WindowUse
deriving DecidableEq, Repr

/-- A plan that holds nothing. -/
def Plan.empty : Plan :=
  { id := 0, root := [], level := 0, opPoints := 0, stepLen := 0, q := 0, lead := 0, drainSteps := 0, mask := 0, ramp := 0, role := 0
    modules := [], forwardOnly := false, ports := [], ctxs := [], alloc := [], profiles := [], sched := ⟨0xFFFF, [], 0, [], [], []⟩
    shape := 0, sealTicks := 0, intake := [], kerf := [], reductions := [], programs := [], restores := [], routes := [], forks := [], groups := []
    memory := ⟨[], [], []⟩, tagEngines := 0, bindings := [], latencies := [], uses := [] }

/-! ### Discovery and two-phase control (12_topology.md, 14_forester_and_control.md) -/

/-- The payload of a DISCOVERY packet (R338). `path` and `ret` hold 32 numbers each. -/
structure DiscPkt where
  op : Nat
  len : Nat
  pos : Nat
  token : Nat
  epoch : Nat
  path : List Nat
  ret : List Nat
  body : List Byte
deriving DecidableEq, Repr

/-- The payload of a CONTROL packet (R375). -/
structure ControlPkt where
  op : Nat
  kind : Nat
  module : Nat
  id : Nat
  plan : Nat
  at_ : Nat
  point : Nat
  reason : Nat
deriving DecidableEq, Repr


/-! ### Twin pairs (13_twin_pairs.md) -/

/-- What the descriptor of a shipped cell reads as (R253, R357), whose layout the manual does not give: status, ingress Tally
and sixteenth, PTP seconds and nanoseconds, carries, and WEIGHT_CHECK_EPOCH. -/
structure CellReading where
  status : Nat
  tally : Nat
  sixteenth : Nat
  ptpS : Nat
  ptpNs : Nat
  carries : Nat
  epoch : Nat
deriving DecidableEq, Repr


/-! ### The Forester (15_faults_security_observation.md, 14_forester_and_control.md) -/

/-- How a firmware image checks (R393): its signature chain and bytes verify, and its security version (0 when unreadable). -/
structure ImageCheck where
  verifies : Bool
  svn : Nat
deriving DecidableEq, Repr

/-- What the action that a register write triggers finds outside the registers: the energy of the hold-up store (R36), whether the
twin's checks fail (R159), and the nominal arrivals of a forwarding load's routes (R343, R344). -/
structure ActionInput where
  mj : Nat
  twinFault : Bool
  arrivals : List RouteArrival
deriving DecidableEq, Repr


/-- The operations of owner commands (R396). -/
inductive OwnerOp where
  | enroll | revoke | anchorSet | anchorClear
deriving DecidableEq, Repr

/-- The fields of an owner command (R396), as read from its 1,056 bytes: `reserved` is bytes 0x018 to 0x01F. -/
structure OwnerCmd where
  target : Nat
  signer : Nat
  role : Nat
  serial : Nat
  seq : Nat
  reserved : Nat
  key : Nat
  sig : List Byte
deriving DecidableEq, Repr

/-- The fields of an OWNER_CLAIM (R399). -/
structure OwnerClaim where
  code : List Byte
  key0 : Nat
  anchor : Nat
  sig : List Byte
deriving DecidableEq, Repr

/-- What FCP RESET names (R346, R377). -/
inductive ResetDomain where
  | module
  | forester
  | dieCore
  | haulPlane
  | port (p : Fin 16)
  | context (c : Fin 16)
deriving DecidableEq, Repr

/-- An FCP request (R377, R399). Requests that name a module carry its number; memory is named by a global address. What the
medium of the addressed module adds is `inp`, `ecc` and `check`. -/
inductive FcpReq where
  | hello
  | csrRead (module offset count : Nat)
  | csrWrite (module : Nat) (pairs : List (Nat × Nat)) (inp : ActionInput)
  | memRead (addr length : Nat) (ecc : MemEcc)
  | memWrite (addr : Nat) (bytes : List Byte)
  | shardPut (ctx entry shard : Nat) (bytes : List Byte)
  | export_
  | discSend (op token epoch : Nat) (path : List Nat) (body : List Byte)
  | reset (domain : ResetDomain)
  | certs
  | quote (challenge : List Byte)
  | ownerCmd (op : OwnerOp) (c : OwnerCmd)
  | ownerClaim (c : OwnerClaim)
  | fwPut (image offset : Nat) (bytes : List Byte)
  | fwActivate (image length : Nat) (check : ImageCheck)
  | answer (status : Nat) (fields : List Nat) (bytes : List Byte)
  | acknowledge (count : Nat)
deriving DecidableEq, Repr

/-! ### What the module sends and answers -/

/-- The physical lanes on which a block leaves: striped, with stripe i on the i-th lane of a list and during a rotation step one
logical lane's stripe on a further lane too (R265, R288), or whole on each of some lanes (R281). -/
inductive OnLanes where
  | striped (lanes : List Nat) (copy : Option (Nat × Nat))
  | whole (lanes : List Nat)
deriving DecidableEq, Repr

/-- The lane operation that the marks of a physical lane show (R265): none, the lane took over a failed one (R286), a rotation step sends
a logical lane on it and on another (R288), or it carries a calibration pattern (R288). -/
inductive MarkOp where
  | none
  | swapped
  | copied
  | pattern
deriving DecidableEq, Repr

/-- What the marks of a physical lane carry (R265): its number, the logical lane on it, 15 when unassigned, and the lane operation. -/
structure LaneMark where
  lane : Nat
  logical : Nat
  op : MarkOp
deriving DecidableEq, Repr

/-- What one command makes the module send or answer, beyond its state. -/
inductive Emission where
  /-- A link block departs on a haul port, on these lanes (R265, R269). -/
  | block (port : Nat) (on : OnLanes) (b : LinkBlock)
  /-- From now on the lane marks of a port carry this, each lane's once in 32 of its codewords (R265). -/
  | marks (port : Nat) (l : List LaneMark)
  /-- A port's transmitters go dark or light (R280). -/
  | dark (port : Nat)
  /-- Busy status of the flash controller to a requester (R35). -/
  | busy (store : FlashStore)
  /-- A service packet for this module is handed to the local owner of its KIND (R321). -/
  | deliver (pkt : SvcPkt)
  /-- Busy status to the producer of a service packet that finds the local injection queue full (R323). -/
  | refusedPkt (kind dest : Nat)
  /-- A service access completes with a status of R377, and the bytes read (R196). -/
  | service (status : Nat) (bytes : List Byte)
  /-- An Ethernet frame starts on an ingest port (R238, R241, R259). -/
  | frame (port : Nat) (bytes : List Byte)
  /-- A PTP event message of this module departs on an ingest port, as a frame (R243, R244). -/
  | ptp (port : Nat) (bytes : List Byte)
  /-- A register access completes, in error or with the value read (R367). -/
  | register (ok : Bool) (value : Nat)
  /-- An FCP connection is accepted as a session, or refused (R376). -/
  | connection (accepted : Bool) (session : Nat)
  /-- An FCP response: session, OP of the request, REQ_ID, status, and its body as numbers and bytes, behind its 16-byte header (R377). -/
  | fcp (session op reqId status : Nat) (fields : List Nat) (bytes head : List Byte)
  /-- An EXPORT stream carries an item (R377): 0 a tag of a context, 1 a seal, 2 a bad-epoch declaration of a context with its
  first and last epoch, 3 a Ring Recorder record with its SEQ, 4 a quarantine notice of a context with its payload (R233); behind the
  header of its message. -/
  | exported (session sort ctx first last : Nat) (bytes head : List Byte)
deriving DecidableEq, Repr

end Sys2Proof
end

