-- ==== Sys2Proof/Syntax.lean ====
section
/-! DEFINITION. The commands of the module: one constructor per row of spec/opcode_table.json, in the table's order,
with the operands of the row: what the writer of a register writes, what a packet, frame or block carries, and what
the row's physical event brings (a sampled voltage, a region, a port, whether a check on the medium passed). -/

namespace Sys2Proof

/-- A command to the module (spec/opcode_table.json). -/
inductive Instr where
    /-- STANDBY_START (R26): Input rises above 18 V and the standby section (PWR block, reference oscillator, hold-
  up charger) starts on its own converter. -/
  | standbyStart (mv : Nat)
    /-- PRECHARGE (R27): Input power applied: the input stage precharges the bulk store and the hold-up store within
  the inrush and slew limits. -/
  | precharge
    /-- PRECHARGE_DONE (R27): Precharge ends and PWR_STATUS.PRECHARGE_DONE is set. -/
  | prechargeDone
    /-- FORESTER_DOMAIN_START (R27): Once precharge has ended, the input is at or above 44.0 V and the oscillator
  has settled, the module starts conversion to the Forester domain. -/
  | foresterDomainStart (mv holdupMj : Nat) (oscillatorSettled : Bool)
    /-- PRECHARGE_TIMEOUT (R413): Precharge is not complete within 250 ms, so the input stage opens. -/
  | prechargeTimeout
    /-- PRECHARGE_RETRY (R413): After 1 s the module retries precharge, at most 3 times, and then stays open until
  input power is removed and reapplied. -/
  | prechargeRetry
    /-- LOW_BAND_ENTRY (R21): The filtered input falls below 44.0 V and the band becomes Low, with a Notice
  recorded. -/
  | lowBandEntry (mv : Nat)
    /-- WRITE_INHIBIT_ENTRY (R21): The input falls below 42.0 V and write-inhibit is set by the band. -/
  | writeInhibitEntry (mv : Nat)
    /-- WRITE_INHIBIT_EXIT (R21): The input has been above 43.0 V for 1.0 ms without a break and band write-inhibit
  clears. -/
  | writeInhibitExit (mv : Nat)
    /-- SAG_TIMEOUT (R21): The input has stayed below 40.0 V for 200 µs and orderly shutdown starts. -/
  | sagTimeout
    /-- OVER_VOLTAGE_TIMEOUT (R21): The input has been above 60.0 V for 50 µs and orderly shutdown starts. -/
  | overVoltageTimeout (mv : Nat)
    /-- FORESTER_POWER_OFF (R37): Once every admitted write unit has committed and every closed seal is signed, the
  Forester domain powers off apart from its standby section. -/
  | foresterPowerOff
    /-- AUTO_RESTART (R37): With AUTO_RESTART set, the input has been Normal for 100 ms after power-off and the
  module restarts from module reset. -/
  | autoRestart
    /-- CURRENT_THROTTLE_ASSERT (R23): The input current reaches 68 A (or the lowered coolant threshold) and the
  current throttle makes the bench regions stretch. -/
  | currentThrottleAssert (current : Nat)
    /-- CURRENT_THROTTLE_RELEASE (R23): The input current falls below 66 A and the throttle releases. -/
  | currentThrottleRelease (current : Nat)
    /-- COOLANT_LEAVE_LIMITS (R428): A 10 ms coolant sample lies outside the limits: the throttle threshold is
  lowered, PWR_EVENT.COOLANT is set and a Fault is recorded. -/
  | coolantLeaveLimits (temp flow current : Nat)
    /-- COOLANT_SHUTDOWN_TIMEOUT (R20): The coolant has been outside its limits for 2 s and orderly shutdown starts.
  -/
  | coolantShutdownTimeout
    /-- COOLANT_REENTRY (R428): The re-entry condition has held for 10 s without a break and the throttle threshold
  returns to 68 A. -/
  | coolantReentry (temp flow : Nat)
    /-- COOLANT_START_TIMEOUT (R413): The coolant is not within limits 60 s after Forester boot: a Fault is recorded
  and the die stays unpowered. -/
  | coolantStartTimeout (temp flow : Nat)
    /-- FILL_LIMIT_EXPIRY (R31): A fill that no hold or replay span covers outlasts PWR_FILL.LIMIT and a taper
  starts. -/
  | fillLimitExpiry
    /-- TAPER_STEP (R32): A taper step of EFF_STEP ticks expires and ballast duty falls one step; the taper ends
  after the 32nd step. -/
  | taperStep
    /-- HOLDUP_SWITCH_CLOSE (R34): The Forester domain's feed falls below 38.0 V, or shutdown opens the input stage,
  and the hold-up store is connected to the domain. -/
  | holdupSwitchClose
    /-- WRITE_UNIT_REQUEST (R34): A requester asks for a write unit; the flash controller samples inhibit and
  HOLDUP_OK once and then admits or refuses the unit. -/
  | writeUnitRequest (store : FlashStore)
    /-- WRITE_UNIT_COMMIT (R34): An admitted write unit reaches its commit. -/
  | writeUnitCommit
    /-- HOLDUP_TEST_PERIODIC (R36): The 60 s hold-up test runs; a result below 1.2 J clears HOLDUP_OK and records a
  Fault. -/
  | holdupTestPeriodic (mj : Nat)
    /-- PWR_HOLDUP_TEST (R38): Writing PWR_HOLDUP.TEST runs a hold-up test now, unless a write unit is running. -/
  | pwrHoldupTest (mj : Nat)
    /-- CLEAR_EXTREMES (R38): Writing PWR_CTRL.CLEAR_EXTREMES resets the voltage and current extremes to the present
  values. -/
  | clearExtremes
    /-- PWR_SHUTDOWN (R37): Writing PWR_CTRL.SHUTDOWN starts orderly shutdown. -/
  | pwrShutdown
    /-- PWR_NV_INHIBIT (R35): Writing PWR_CTRL.NV_INHIBIT sets or clears firmware write-inhibit; inhibit clears only
  when both the bit and the band allow. -/
  | pwrNvInhibit (inhibit : Bool)
    /-- LATE_ENTRY (R44): A sequencer stalls at a crossing because its flit is absent or the crossing is full, and
  resumes when the flit arrives or a slot frees. -/
  | lateEntry (reader writer : Fin 39) (cycles : Nat)
    /-- DROOP_STRETCH_START (R45): A region's droop detector trips and the stretcher starts swallowing clock edges.
  -/
  | droopStretchStart (region : Fin 39)
    /-- DROOP_STRETCH_END (R45): The droop detector has been clear for 16 cycles and stretching for droop ends. -/
  | droopStretchEnd (region : Fin 39)
    /-- BEAT_BOUNDARY (R46): The Tally reaches a multiple of 16: every region ends its beat, reports its margin and
  starts the next beat's planned cycles. -/
  | beatBoundary (reports : List BeatReport) (benches : List BenchBeat) (ecc : MemEcc) (prefetch : List Nat)
    (volts amps : Option Nat)
    /-- TT_CRIT_TIMEOUT (R48): The margin has been below CRIT for 1 ms without a break and a Contained error 0x20 is
  raised for the region. -/
  | ttCritTimeout (region : Fin 39)
    /-- FCHG_ARM (R51): Writing CLK_FCHG_CTRL.ARM arms a synchronised change or a region stop for CLK_FCHG_AT,
  subject to its conditions. -/
  | fchgArm
    /-- FCHG_DISARM (R61): Writing CLK_FCHG_CTRL.DISARM returns an Armed frequency change to Idle. -/
  | fchgDisarm
    /-- REGION_STOP (R50): At the armed count, the region stops its clock at a beat boundary and relocks its PLL to
  the target point. -/
  | regionStop
    /-- REGION_RESTART (R50): The relock completes and the region restarts at a beat boundary. -/
  | regionRestart
    /-- STANDBY_LOOPS_LOCKED (R51): The standby loops of the bench-region PLLs complete their lock to the new ratio.
  -/
  | standbyLoopsLocked
    /-- SYNC_CHANGE_SWITCH (R51): At the named step boundary, every bench region switches to its standby loop, and
  the following beat carries no bench work. -/
  | syncChangeSwitch
    /-- PLL_LOCK_LOST (R61): A region PLL loses lock and CLK_EVENT.LOCK_LOST is set. -/
  | pllLockLost (region : Fin 39)
    /-- REGION_LOCK_TIMEOUT (R410): A region PLL has not locked 1 ms after its group reached regulation; it is
  relocked, up to 3 times, and then recorded as a Fault. -/
  | regionLockTimeout (region : Fin 39)
    /-- STEP_BOUNDARY (R52): A step ends and the next begins: the step index advances and the sequencers fetch the
  step entry. -/
  | stepBoundary
    /-- MARKER_RECEIVED (R54): A valid Tally marker arrives on the upstream port: the follower aligns with one step
  correction or corrects its rate. -/
  | markerReceived (port : Fin 16) (blk : WireBlock) (arrival : Stamp)
    /-- HOLDOVER_ENTRY (R56): No valid marker has arrived for LOSS_US: the Tally enters holdover and a Notice is
  recorded. -/
  | holdoverEntry
    /-- ALIGN_NOW (R54): Writing TAL_CTRL.ALIGN_NOW aligns at the next marker; the write is refused while a plan is
  active. -/
  | alignNow
    /-- TIME_MAP_SEND (R58): Every 100 ms a root with PTP_FOLLOW sends a TIME MAP packet to each routed module. -/
  | timeMapSend
    /-- TIME_MAP_RECEIVED (R58): A received MAP is stored in TAL_MAP_TALLY, TAL_MAP_S and TAL_MAP_NS. -/
  | timeMapReceived (pkt : TimePkt)
    /-- TIME_QUERY_RECEIVED (R58): A QUERY is answered with an ANSWER carrying a capture, within 100 µs. -/
  | timeQueryReceived (source : Nat) (pkt : TimePkt)
    /-- TAL_CAPTURE (R62): Writing TAL_CAPTURE copies the Tally count and the module PTP time in the same tick. -/
  | talCapture
    /-- MGR (R169): Matrix op: clears the tile's accumulators and accumulates one grain from A and B. -/
  | mgr (i : Issue) (m : MatSlot) (l : TileLayout) (present : Fin 33) (ecc : Ecc)
    /-- MGB (R95): Matrix op: accumulates the strip's next two present blocks. -/
  | mgb (i : Issue) (m : MatSlot) (l : TileLayout) (axis : Nat) (ecc : Ecc)
    /-- MPA (R169): Matrix op: adds exact partials into the accumulators. -/
  | mpa (i : Issue) (m : MatSlot) (l : TileLayout) (half : Fin 2) (ecc : Ecc)
    /-- MCV (R75): Matrix op: converts the accumulators to grain results and writes them. -/
  | mcv (i : Issue) (m : MatSlot) (l : TileLayout) (half : Fin 2) (k : Coords) (ecc : Ecc)
    /-- MXP (R73): Matrix op: writes the accumulators as exact partials. -/
  | mxp (i : Issue) (m : MatSlot) (l : TileLayout) (half : Fin 2)
    /-- VFMA (R170): Vector fused multiply-add over pair registers. -/
  | vfma (i : Issue) (v : VecSlot)
    /-- VADD (R170): Vector FP32 add. -/
  | vadd (i : Issue) (v : VecSlot)
    /-- VSUB (R170): Vector FP32 subtract. -/
  | vsub (i : Issue) (v : VecSlot)
    /-- VMUL (R170): Vector FP32 multiply. -/
  | vmul (i : Issue) (v : VecSlot)
    /-- VCMP (R170): Vector compare that writes a predicate register. -/
  | vcmp (i : Issue) (v : VecSlot)
    /-- VSEL (R170): Vector select. -/
  | vsel (i : Issue) (v : VecSlot)
    /-- VMIN (R80): Vector minimum. -/
  | vmin (i : Issue) (v : VecSlot)
    /-- VMAX (R80): Vector maximum. -/
  | vmax (i : Issue) (v : VecSlot)
    /-- IADD (R170): Wrapping INT32 add. -/
  | iadd (i : Issue) (v : VecSlot)
    /-- ISUB (R170): Wrapping INT32 subtract. -/
  | isub (i : Issue) (v : VecSlot)
    /-- ISHF (R170): INT32 shift by a per-lane amount. -/
  | ishf (i : Issue) (v : VecSlot)
    /-- IAND (R170): INT32 and. -/
  | iand (i : Issue) (v : VecSlot)
    /-- IOR (R170): INT32 or. -/
  | ior (i : Issue) (v : VecSlot)
    /-- IXOR (R170): INT32 xor. -/
  | ixor (i : Issue) (v : VecSlot)
    /-- VCVT (R170): Conversion to FMT under the named rounding mode. -/
  | vcvt (i : Issue) (v : VecSlot) (k : Coords)
    /-- VCVB (R70): Block-scaled conversion that writes the scales. -/
  | vcvb (i : Issue) (v : VecSlot) (scaleOff : Nat) (k : Coords)
    /-- VRCP (R80): Correctly rounded reciprocal. -/
  | vrcp (i : Issue) (v : VecSlot)
    /-- VSQRT (R80): Correctly rounded square root. -/
  | vsqrt (i : Issue) (v : VecSlot)
    /-- VRSQ (R80): Correctly rounded reciprocal square root. -/
  | vrsq (i : Issue) (v : VecSlot)
    /-- VDIV (R80): Correctly rounded divide. -/
  | vdiv (i : Issue) (v : VecSlot)
    /-- VEX2 (R82): Bit-defined exp2. -/
  | vex2 (i : Issue) (v : VecSlot)
    /-- VLG2 (R83): Bit-defined log2. -/
  | vlg2 (i : Issue) (v : VecSlot)
    /-- VTLV (R86): One oblivious-tree level. -/
  | vtlv (i : Issue) (v : VecSlot) (head : Nat) (tree : Fin 65536) (level : Fin 12) (ecc : Ecc)
    /-- VTLF (R86): Oblivious-tree leaf read. -/
  | vtlf (i : Issue) (v : VecSlot) (head : Nat) (tree : Fin 65536) (ecc : Ecc)
    /-- VRED (R125): Within-grain leaf of a reduction. -/
  | vred (i : Issue) (v : VecSlot) (first : Nat)
    /-- VKRF (R131): Kerf values for the coordinates in S1. -/
  | vkrf (i : Issue) (v : VecSlot) (k : Coords)
    /-- VLD (R171): Loads 512 bytes of bench store into a vector register. -/
  | vld (i : Issue) (m : MovSlot) (ecc : Ecc)
    /-- VST (R171): Stores a vector register to bench store. -/
  | vst (i : Issue) (m : MovSlot)
    /-- COPY (R171): Copies units within bench store. -/
  | copy (i : Issue) (m : MovSlot) (ecc : Ecc)
    /-- MSND (R171): Hands a buffer to a mesh route. -/
  | msnd (i : Issue) (m : MovSlot) (ecc : Ecc)
    /-- MRCV (R171): Binds a receive buffer of a mesh route. -/
  | mrcv (i : Issue) (m : MovSlot)
    /-- GWIN (R199): Opens a gather window of the memory script. -/
  | gwin (i : Issue) (m : MovSlot)
    /-- ZFILL (R171): Writes +0 over units of bench store. -/
  | zfill (i : Issue) (m : MovSlot)
    /-- BREF (R175): Refills a bundle page from bench store; the page is busy for 136 cycles. -/
  | bref (i : Issue) (m : MovSlot) (ecc : Ecc)
    /-- BREF_DONE (R175): A bundle page refill completes and the page leaves busy. -/
  | brefDone (bench : Fin 792) (page : Fin 16)
    /-- HPUT (R172): Hands a payload to a haul schedule entry. -/
  | hput (i : Issue) (h : HaulSlot) (overflow : Nat) (ecc : Ecc)
    /-- HGET (R172): Binds the receive buffer of a haul schedule entry. -/
  | hget (i : Issue) (h : HaulSlot)
    /-- HVOD (R107): Sends the void header of a capacity slot. -/
  | hvod (i : Issue) (h : HaulSlot) (group : Fin 4096) (slot : Fin 65536)
    /-- BEAT (R173): Ends the beat's work. -/
  | beat (i : Issue) (c : CtlSlot)
    /-- STEP (R173): Ends the step's work and waits for the step boundary. -/
  | step (i : Issue) (c : CtlSlot)
    /-- JUMP (R173): Continues at TARGET. -/
  | jump (i : Issue) (c : CtlSlot)
    /-- LSET (R173): Sets a loop counter. -/
  | lset (i : Issue) (c : CtlSlot)
    /-- LOOP (R173): Decrements a loop counter and branches. -/
  | loop (i : Issue) (c : CtlSlot)
    /-- CSET (R173): Sets a completion counter. -/
  | cset (i : Issue) (c : CtlSlot)
    /-- WAITC (R173): Waits until a completion counter reaches IMM. -/
  | waitc (i : Issue) (c : CtlSlot)
    /-- FDEC (R111): Fork-decide: forms the decision word and hands it to the FRK block. -/
  | fdec (i : Issue) (c : CtlSlot)
    /-- FORK (R173): Ends the beat and continues at the stub of the latched variant at K. -/
  | fork (i : Issue) (c : CtlSlot)
    /-- BKFL (R117): Ends the beat and runs guest backfill units from E_v until J. -/
  | bkfl (i : Issue) (c : CtlSlot)
    /-- TAGR (R141): Hands result bytes to the tag path. -/
  | tagr (i : Issue) (c : CtlSlot) (t : TagInput) (ecc : Ecc)
    /-- BENCH_SCRUB (R88): A background scrub reads and corrects a bench-store word in a cycle free of planned
  access. -/
  | benchScrub (bench : Fin 792) (ecc : Ecc)
    /-- FORK_DECISION_SEND (R111): A copy of a fork decision message departs at its planned tick. -/
  | forkDecisionSend (port : Fin 16) (entry : Fin 32768) (fork : Fin 4096)
    /-- FORK_DECISION_RECEIVED (R112): A fork decision copy arrives: the first valid copy latches the variant, and
  later copies are compared. -/
  | forkDecisionReceived (header : Nat)
    /-- FORK_DEADLINE_CHECK (R119): At D the participant checks that it holds a decision, and otherwise requests a
  hold or fails the step. -/
  | forkDeadlineCheck (fork : Fin 4096)
    /-- FORK_COMMIT (R113): At K the sequencers, haul schedule and scripts leave the common schedule for the latched
  variant. -/
  | forkCommit (fork : Fin 4096)
    /-- FORK_VARIANT_END (R113): At E_v the variant ends and backfill or idle runs. -/
  | forkVariantEnd (fork : Fin 4096)
    /-- FORK_REJOIN (R113): At J every participant returns to the common schedule. -/
  | forkRejoin (fork : Fin 4096)
    /-- GEN_MODE_ARM (R133): Writing GEN_MODE_NEXT.ARM arms a mode change for GEN_MODE_AT, or refuses it. -/
  | genModeArm
    /-- GEN_MODE_DISARM (R148): Writing GEN_MODE_NEXT.DISARM returns an Armed mode change to Idle. -/
  | genModeDisarm
    /-- MODE_CHANGE_EFFECT (R133): The armed mode change takes effect at its step boundary, or at GEN_MODE_AT with
  no plan active. -/
  | modeChangeEffect
    /-- SEAL_SIGNED (R146): The seal unit finishes signing a closed span's seal, within 2 ms of its close. -/
  | sealSigned
    /-- SEAL_CLOSE_NOW (R143): Writing GEN_SEAL_CTRL.CLOSE_NOW closes the context's open span at the end of the
  current batch. -/
  | sealCloseNow
    /-- PLN_VERIFY (R156): Writing PLN_CTRL.VERIFY starts verification of the staged image. -/
  | plnVerify
    /-- VERIFY_COMPLETE (R156): Verification finishes and the stage becomes Verified or Failed with its code. -/
  | verifyComplete (reading : PlanReading) (verdict : Fin 15) (sect offset : Nat)
    /-- PLN_DISCARD (R158): Writing PLN_CTRL.DISCARD empties the stage unless an activation is armed. -/
  | plnDiscard
    /-- PLN_ARM (R159): Writing PLN_CTRL.ARM arms activation at PLN_ACT_AT, or refuses it with a code. -/
  | plnArm (twinFault : Bool)
    /-- PLN_DISARM (R180): Writing PLN_CTRL.DISARM returns an armed activation or stop to its prior state before
  Loading. -/
  | plnDisarm
    /-- LOAD_PHASE_START (R159): At the later of arming and PLN_STOP_END, the load phase writes preloads, tables and
  scripts from the stage. -/
  | loadPhaseStart
    /-- ACTIVATION (R159): At A, step 0 of every context begins and the compiled ramp starts. -/
  | activation
    /-- ACTIVATION_FAILED (R160): The load phase is not complete at A − 16: ACT becomes Failed and the benches stay
  idle. -/
  | activationFailed
    /-- PLN_STOP_ARM (R161): Writing PLN_CTRL.STOP_ARM arms a plan stop at PLN_STOP_AT, or refuses it. -/
  | plnStopArm
    /-- DRAIN_END (R161): After DRAIN_STEPS steps, seal spans close and the compiled ramp-down starts. -/
  | drainEnd
    /-- RAMP_DOWN_END (R161): The ramp-down reaches its last stage; no plan is active and PLN_STOP_END is set. -/
  | rampDownEnd
    /-- PLN_ABORT (R162): Writing PLN_CTRL.ABORT stops all bench work at the next beat boundary and starts a taper,
  with no drain. -/
  | plnAbort
    /-- PLN_CTX_RESTART (R167): Writing PLN_CTRL.CTX_RESTART arms a restart of context CTX at PLN_ACT_AT. -/
  | plnCtxRestart
    /-- CONTEXT_RESUME (R167): A restarted context resumes at its first own step boundary at or after the count,
  with its compiled ramp. -/
  | contextResume (ctx : Fin 16)
    /-- CONTEXT_RESET (R167): A context stops at the next beat boundary, tapers, closes its seal span and answers
  its pending requests with SHUTDOWN. -/
  | contextReset (ctx : Fin 16)
    /-- GATHER_WINDOW_COMPLETE (R199): A window's records and status are in place and its completion counter rises.
  -/
  | gatherWindowComplete (index : Nat) (counter : Fin 64) (ecc : MemEcc)
    /-- GATHER_EARLY_END (R201): In Relaxed mode, a read window whose accesses are done ends at the next beat
  boundary, counting one choice. -/
  | gatherEarlyEnd (index : Nat) (ecc : MemEcc)
    /-- SERVICE_ACCESS (R196): A service read or write over Olico uses free data positions; writes to running
  regions are refused. -/
  | serviceAccess (write : Bool) (addr length : Nat) (data : List Byte) (ecc : MemEcc)
    /-- REFRESH_DUE (R203): A refresh falls due and is served in a maintenance position. -/
  | refreshDue (ddr : Bool) (unit : Fin 20)
    /-- MEMORY_TEMP_READOUT (R204): The 1 ms temperature readout of a stack or channel applies the warning and limit
  rules and sets the adaptive refresh interval. -/
  | memoryTempReadout (ddr : Bool) (unit : Fin 20) (celsius : Fin 256)
    /-- TEMP_LIMIT_TIMEOUT (R204): A stack or channel has been at its limit for 1 ms: Module-fatal error and orderly
  shutdown. -/
  | tempLimitTimeout (ddr : Bool) (unit : Fin 20)
    /-- PATROL_SCRUB_READ (R209): A maintenance position reads the next burst for scrub and handles any error it
  finds. -/
  | patrolScrubRead (unit : Fin 21) (ecc : MemEcc)
    /-- MEMORY_TRAINING_DONE (R411): Training, repair and the zero write of a stack or channel finish and TRAINED is
  set, or fail after 3 attempts. -/
  | memoryTrainingDone (ddr : Bool) (unit : Fin 20) (attempts : Nat) (passed : Bool)
    /-- PLAN_STAGE_WRITE_DONE (R411): The plan-stage zero write ends and the plan stage accepts service accesses. -/
  | planStageWriteDone
    /-- WGT_LOAD_START (R220): Writing WGT_LOAD_CTRL.START begins a load, checking its descriptor, target and
  binding. -/
  | wgtLoadStart
    /-- WGT_LOAD_ABORT (R223): Writing WGT_LOAD_CTRL.ABORT fails the running load with code 0x09. -/
  | wgtLoadAbort
    /-- X3_START (R224): Writing WGT_LOAD_CTRL.X3_START starts together the loads of the contexts in X3_MASK. -/
  | x3Start
    /-- SHARD_ATTEMPT_DONE (R222): A shard attempt finishes its copy and hash and passes or fails as corrupt; a re-
  fetch follows a failure. -/
  | shardAttemptDone (ctx : Fin 16) (shard : Nat)
    /-- SHARD_ATTEMPT_TIMEOUT (R222): A shard has not fully arrived within TIMEOUT_MS and the attempt fails as
  missing. -/
  | shardAttemptTimeout (ctx : Fin 16) (shard : Nat)
    /-- SWAP_ARM (R227): Writing WGT_SWAP_CTRL.ARM arms a swap at batch β, or refuses it. -/
  | swapArm
    /-- SWAP_DISARM (R227): Writing WGT_SWAP_CTRL.DISARM returns an armed swap to Ready before the pass of β. -/
  | swapDisarm
    /-- SWAP_EFFECT (R229): At the start of the pass of β: BANK inverts, the epoch rises, the landing empties and
  the closing sweep begins. -/
  | swapEffect (ctx : Fin 16)
    /-- SWEEP_SHARD_CHECKED (R231): A re-check sweep finishes hashing a shard and compares it with its expected
  digest. -/
  | sweepShardChecked (ctx : Fin 16) (sweep : SweepKind)
    /-- SWEEP_OVERRUN (R231): A sweep has not closed within RECHECK_S: BEHIND is set and a Notice is recorded. -/
  | sweepOverrun (ctx : Fin 16) (sweep : SweepKind)
    /-- QUARANTINE_NOTICE_RECEIVED (R233): A quarantine notice for the running plan quarantines the context from the
  later of FROM_BATCH and the next batch. -/
  | quarantineNoticeReceived (payload : List Byte)
    /-- SHARD_REPAIR_DONE (R234): A repair re-fetch of a weight shard completes, or its last attempt fails and the
  context is quarantined. -/
  | shardRepairDone (ctx : Fin 16) (shard : Nat) (arrived : Bool)
    /-- INTAKE_FRAME_RECEIVED (R240): An ingest frame is received whole, stamped, checked and either passed to
  admission or dropped and counted. -/
  | intakeFrameReceived (port : Fin 2) (frame : List Byte) (fcsOk : Bool) (tally : Nat) (sixteenth : Fin 16)
    /-- INGEST_LINK_UP (R425): An ingest port's link comes up. -/
  | ingestLinkUp (port : Fin 2)
    /-- INGEST_LINK_DOWN (R425): An ingest port loses signal, LINK_UP clears and frames partly received are dropped.
  -/
  | ingestLinkDown (port : Fin 2)
    /-- PTP_SYNC_RECEIVED (R245): A Sync (or its Follow_Up) updates the offset; the port may lock, and the time may
  be trimmed or stepped. -/
  | ptpSyncReceived (port : Fin 2) (bytes : List Byte) (sixteenth : Fin 16)
    /-- PTP_ANNOUNCE_RECEIVED (R243): An Announce feeds best master selection for the port. -/
  | ptpAnnounceReceived (port : Fin 2) (bytes : List Byte)
    /-- PTP_DELAY_RESP_RECEIVED (R243): A Delay_Resp updates the end-to-end path delay. -/
  | ptpDelayRespReceived (port : Fin 2) (bytes : List Byte)
    /-- PTP_PDELAY_REQ_RECEIVED (R244): A Pdelay_Req is answered with a one-step Pdelay_Resp. -/
  | ptpPdelayReqReceived (port : Fin 2) (bytes : List Byte) (turnaround : Int)
    /-- PTP_PDELAY_RESP_RECEIVED (R243): A Pdelay_Resp updates the peer link delay. -/
  | ptpPdelayRespReceived (port : Fin 2) (bytes : List Byte) (sixteenth : Fin 16)
    /-- PTP_DELAY_REQ_SEND (R244): At its log interval the port sends a one-step Delay_Req or Pdelay_Req. -/
  | ptpDelayReqSend (port : Fin 2) (sixteenth : Fin 16)
    /-- PTP_ANNOUNCE_TIMEOUT (R245): An Announce receipt timeout loses the port's lock; with no port locked the time
  enters holdover. -/
  | ptpAnnounceTimeout (port : Fin 2)
    /-- INTAKE_WINDOW_CLOSE (R248): At C_w the window's candidate set is sealed, admitted in admission order,
  carried or refused, and the next window opens. -/
  | intakeWindowClose (ctx : Fin 16)
    /-- INTAKE_BEAT_RING_READ (R252): At an intake beat the die reads PRODUCER and takes the ring's new entries,
  checking for overrun. -/
  | intakeBeatRingRead (ctx : Fin 16)
    /-- ITK_RING_RESET (R261): Writing ITK_RING.RESET clears FAULT and resumes reading at PRODUCER. -/
  | itkRingReset (ctx : Fin 16)
    /-- TIMED_RELEASE (R259): At C_w + L + H the window's first response frame starts, and ring responses are
  written. -/
  | timedRelease (ctx : Fin 16)
    /-- RESPONSE_FRAME_SEND (R259): A further response frame of the window starts FRAME_SPACING after the previous
  one. -/
  | responseFrameSend (ctx : Fin 16) (port : Fin 2)
    /-- SIGNAL_PRESENT (R280): Optical signal appears on at least 8 lanes and the port leaves Dark for Signal. -/
  | signalPresent (port : Fin 16) (lanes : List (Fin 9))
    /-- SIGNAL_LOCK (R280): Clock recovery, equalisation and FEC lock finish on at least 8 lanes and the port enters
  Lock. -/
  | signalLock (port : Fin 16) (lanes : List (Fin 9))
    /-- LANE_MARK_LOCK (R280): Lane marks are read on every locked lane within the skew limit and the port enters
  Exchange. -/
  | laneMarkLock (port : Fin 16) (skewPs : Nat)
    /-- TRAIN_STATE_TIMEOUT (R280): A training state overruns its limit and the port enters Backoff with a code. -/
  | trainStateTimeout (port : Fin 16)
    /-- BACKOFF_EXPIRY (R280): The Backoff wait expires and the port returns to Dark. -/
  | backoffExpiry (port : Fin 16)
    /-- ANNOUNCE_RECEIVED (R281): A TRAIN ANNOUNCE block assigns logical lanes, is checked, and ends Exchange;
  received while Up it takes the link down. -/
  | announceReceived (port : Fin 16) (blk : WireBlock)
    /-- ECHO_REQ_SEND (R283): Every 128 ns in Echo an ECHO_REQ is sent with its departure stamp. -/
  | echoReqSend (port : Fin 16) (depart : Stamp)
    /-- ECHO_REQ_RECEIVED (R283): An ECHO_REQ is answered with an ECHO_RESP carrying the arrival and departure
  stamps. -/
  | echoReqReceived (port : Fin 16) (blk : WireBlock) (arrival depart : Stamp)
    /-- ECHO_RESP_RECEIVED (R283): An ECHO_RESP yields one loop-delay sample; after 64 the loop delay is set and the
  port comes Up. -/
  | echoRespReceived (port : Fin 16) (blk : WireBlock) (arrival : Stamp)
    /-- SCHED_BLOCK_RECEIVED (R303): A SCHED block passes its link checks and is forwarded or delivered by its route
  and counted for completion. -/
  | schedBlockReceived (port : Fin 16) (blk : WireBlock)
    /-- SVC_BLOCK_RECEIVED (R321): A service block on VC0 or VC1 is delivered locally or forwarded by DEST under
  virtual cut-through. -/
  | svcBlockReceived (port : Fin 16) (blk : WireBlock)
    /-- FILL_RECEIVED (R274): A FILL block's NEXT field may reveal a lost block and raise a NAK. -/
  | fillReceived (port : Fin 16) (blk : WireBlock)
    /-- ACK_RECEIVED (R275): A valid ACK value advances the acknowledged point and frees replay buffer, or is a
  protocol error. -/
  | ackReceived (port : Fin 16) (blk : WireBlock)
    /-- NAK_RECEIVED (R276): A NAK applies its ACK and starts a replay from A + 1 unless it is a duplicate. -/
  | nakReceived (port : Fin 16) (blk : WireBlock)
    /-- ACK_DUE (R275): 128 ns have passed without a valid ACK sent and a standalone ACK block is sent. -/
  | ackDue (port : Fin 16)
    /-- NAK_TIMER_EXPIRY (R276): The NAK timer expires without block E accepted and the NAK is sent again. -/
  | nakTimerExpiry (port : Fin 16)
    /-- REPLAY_TIMER_EXPIRY (R277): The replay timer expires, a replay from A + 1 starts and the timer length
  doubles. -/
  | replayTimerExpiry (port : Fin 16)
    /-- MARKER_DUE (R285): After a multiple of MARKER_TICKS a MARKER block is sent with its departure stamp. -/
  | markerDue (port : Fin 16) (depart : Stamp)
    /-- LANE_FAIL (R286): A lane's lock has been lost for LANE_FAIL_NS: it is marked Failed and SWAP_REQ is sent. -/
  | laneFail (port : Fin 16) (lane : Fin 9)
    /-- SWAP_REQ_RESEND (R286): An unanswered SWAP_REQ is sent again every 256 ns. -/
  | swapReqResend (port : Fin 16)
    /-- SWAP_REQ_RECEIVED (R286): The transmitter moves the logical lane onto the spare at its next codeword
  boundary and answers SWAP_DONE. -/
  | swapReqReceived (port : Fin 16) (blk : WireBlock)
    /-- SWAP_DONE_RECEIVED (R286): A SWAP_DONE lane block answers the swap request. -/
  | swapDoneReceived (port : Fin 16) (blk : WireBlock)
    /-- SWAP_REMAP (R286): The receiver remaps the logical lane at the first lane mark that carries it on the spare.
  -/
  | swapRemap (port : Fin 16)
    /-- SWAP_TIMEOUT (R286): A swap not completed within 10 µs is abandoned. -/
  | swapTimeout (port : Fin 16)
    /-- LANE_DEGRADE (R287): A lane's corrected symbols in 1 ms exceed DEG_SYM and it is exchanged out and
  calibrated, or kept with a Notice. -/
  | laneDegrade (port : Fin 16) (lane : Fin 9) (symbols : Nat)
    /-- ROTATION_TIMER (R288): Every ROT_MS the receiver starts a rotation step by sending ROT_START. -/
  | rotationTimer (port : Fin 16)
    /-- ROT_START_RECEIVED (R288): The transmitter sends the lane on both physical lanes and answers ROT_READY. -/
  | rotStartReceived (port : Fin 16) (blk : WireBlock)
    /-- ROT_READY_RECEIVED (R288): The receiver checks the spare's lane marks, switches at a lane-mark boundary and
  sends ROT_DONE. -/
  | rotReadyReceived (port : Fin 16) (blk : WireBlock) (marksAgree : Bool)
    /-- ROT_DONE_RECEIVED (R288): The transmitter stops the old lane and sends a calibration pattern on it. -/
  | rotDoneReceived (port : Fin 16) (blk : WireBlock)
    /-- CALIBRATION_END (R288): After at most CAL_MS the lane's shadow coefficients are tested and the lane becomes
  the spare or Failed. -/
  | calibrationEnd (port : Fin 16) (symbols : Nat)
    /-- FAILED_LANE_RETEST (R289): Every 1 s a Failed lane is relocked and tested, and becomes the spare if it
  passes. -/
  | failedLaneRetest (port : Fin 16) (lane : Fin 9) (symbols : Nat)
    /-- LINK_DOWN_TIMEOUT (R290): Symbol lock has been lost, or A has not advanced, for LINK_DOWN_US and the link
  goes down. -/
  | linkDownTimeout (port : Fin 16)
    /-- HAUL_PORT_RESET (R293): Writing HAUL_PORT_CTRL.RESET takes the port down and retrains it, resetting its
  state registers. -/
  | haulPortReset (port : Fin 16)
    /-- HAUL_RETRAIN (R294): Writing HAUL_PORT_CTRL.RETRAIN takes the link down with cause 5 and retrains. -/
  | haulRetrain (port : Fin 16)
    /-- FORCE_ROT (R294): Writing HAUL_PORT_CTRL.FORCE_ROT starts the next rotation step now. -/
  | forceRot (port : Fin 16)
    /-- HAUL_PORT_ENABLE (R280): Writing HAUL_PORT_CTRL.ENABLE disables the port with dark transmitters, or re-
  enables it. -/
  | haulPortEnable (port : Fin 16) (enable : Bool)
    /-- SEND_DEPARTURE (R302): At a SEND entry's tick, its blocks depart in index order on its first unbroken path.
  -/
  | sendDeparture (port : Fin 16) (entry : Fin 32768)
    /-- FORWARD_DEPARTURE (R303): A held forwarded block departs under its FWD entry at the later of its planned
  time and its arrival. -/
  | forwardDeparture (port : Fin 16) (entry : Fin 32768)
    /-- DETOUR_DEPARTURE (R310): DETOUR or resend blocks depart in block times left free by SEND and FWD entries. -/
  | detourDeparture (port : Fin 16) (entry : Fin 32768)
    /-- RECV_DEADLINE_CHECK (R308): At a RECV deadline, an incomplete entry raises a hold request or, after
  MAX_HOLDS, the error transfer lost. -/
  | recvDeadlineCheck (port : Fin 16) (entry : Fin 32768)
    /-- REPEATED_DEADLINE_CHECK (R313): A failed check is repeated within the hold and may raise a further request.
  -/
  | repeatedDeadlineCheck (port : Fin 16) (entry : Fin 32768)
    /-- PORT_DETOUR_FAST (R309): Symbol lock has been lost for FAST_US while Up and the port is detoured. -/
  | portDetourFast (port : Fin 16)
    /-- ROUTE_DOWN_RECEIVED (R310): A ROUTE_DOWN notice breaks the named route and triggers resends. -/
  | routeDownReceived (n : RouteDown)
    /-- HOLD_NOTICE_RECEIVED (R312): A HOLD notice is latched and relayed to the other tree neighbours, or raises
  hold missed if its point has passed. -/
  | holdNoticeReceived (source : Fin 65536) (n : Notice)
    /-- HOLD_POINT (R312): At point P every module of the job takes one hold of the largest latched n. -/
  | holdPoint (slot : Fin 8)
    /-- HOLD_END (R314): The hold reaches P + n × Q and positions resume, or a queued hold point follows. -/
  | holdEnd (slot : Fin 8)
    /-- REPLAY_NOTICE_RECEIVED (R316): A REPLAY notice is latched, combined and relayed, and timed releases of the
  mask are withheld. -/
  | replayNoticeReceived (source : Fin 65536) (n : Notice)
    /-- ABANDON_POINT (R316): At P the contexts of the mask stop and clear their bitmaps, the others freeze, and the
  replay gap begins. -/
  | abandonPoint (slot : Fin 8)
    /-- REPLAY_GAP_END (R316): The replay gap ends and the contexts of the mask re-run their step from position 0,
  or a REPAIR hold is requested. -/
  | replayGapEnd (slot : Fin 8) (ready : Bool)
    /-- REPLAY_REJOIN (R316): The re-run reaches Π and every context continues from its position at P. -/
  | replayRejoin (slot : Fin 8)
    /-- SERVICE_INJECTION (R323): A local producer offers a service packet, which is queued, throttled or refused.
  -/
  | serviceInjection (kind : Fin 256) (dest : Fin 65536) (express : Bool) (payload : List Byte)
    /-- THROTTLE_SAMPLE (R323): Every 1 µs the waiting service blocks are sampled and local injection is throttled
  or released. -/
  | throttleSample
    /-- TELEMETRY_PERIOD (R324): Each PERIOD_MS a TELEMETRY packet is sent to SCH_TELEM.DEST. -/
  | telemetryPeriod
    /-- TELEM_NOW (R327): Writing SCH_CTRL.TELEM_NOW closes the telemetry period and sends its packet. -/
  | telemNow
    /-- CLEAR_FWD (R326): Writing SCH_CTRL.CLEAR_FWD removes the forwarding tables of a plan that is not active. -/
  | clearFwd
    /-- RESTORE_ARM (R309): Writing SCH_CTRL.RESTORE_ARM arms the return of detoured ports at SCH_RESTORE_AT. -/
  | restoreArm
    /-- PORT_RESTORE (R309): At SCH_RESTORE_AT the detoured ports that are matched return to service. -/
  | portRestore
    /-- PROBE_RECEIVED (R339): A DISCOVERY PROBE is answered with a REPORT within 100 µs. -/
  | probeReceived (port : Fin 16) (d : DiscPkt)
    /-- ASSIGN_RECEIVED (R341): An ASSIGN is accepted or refused by epoch, number and plan state, answered with
  ASSIGN_ACK and followed by NEIGHBOUR packets. -/
  | assignReceived (port : Fin 16) (d : DiscPkt)
    /-- ROUTES_RECEIVED (R340): A ROUTES packet writes port rings and service routes, and makes the module Ready
  once every route is written. -/
  | routesReceived (port : Fin 16) (d : DiscPkt)
    /-- NEIGHBOUR_RECEIVED (R340): A NEIGHBOUR packet sets the port's learned partner. -/
  | neighbourReceived (port : Fin 16) (d : DiscPkt)
    /-- LEASE_WRITE (R343): A write to TOP_LEASE makes a lease valid, refuses it, or is ignored while its plan runs.
  -/
  | leaseWrite (lease : Fin 8) (plan : Bool) (value : Nat)
    /-- LEASE_ENABLE (R349): Writing TOP_LEASE_CTRL.EN switches lease control, or is ignored while a plan or load is
  active. -/
  | leaseEnable (en : Bool)
    /-- FWD_LOAD (R344): Writing TOP_FWD_CTRL.LOAD verifies a forwarding load into slot k. -/
  | fwdLoad (slot : Fin 8) (arrivals : List RouteArrival)
    /-- FWD_ARM (R344): Writing TOP_FWD_CTRL.ARM arms a verified forwarding load for TOP_FWD_AT. -/
  | fwdArm (slot : Fin 8)
    /-- FWD_UNLOAD_ARM (R344): Writing TOP_FWD_CTRL.UNLOAD_ARM arms the unload of slot k. -/
  | fwdUnloadArm (slot : Fin 8)
    /-- FWD_DISARM (R349): Writing TOP_FWD_CTRL.DISARM returns an armed load or unload to its prior state. -/
  | fwdDisarm (slot : Fin 8)
    /-- FWD_LOAD_EFFECT (R344): At TOP_FWD_AT the forwarding load becomes Active or is unloaded. -/
  | fwdLoadEffect (slot : Fin 7)
    /-- TWIN_SET_RECEIVED (R357): A SET item block arrives; once complete, the secondary writes the cells into its
  request buffers. -/
  | twinSetReceived (port : Fin 16) (blk : WireBlock) (count : Nat) (cells : List CellReading)
    /-- TWIN_INDEX_RECEIVED (R354): An INDEX item block arrives at the standby and is staged. -/
  | twinIndexReceived (port : Fin 16) (blk : WireBlock) (count : Nat)
    /-- TWIN_STATE_RECEIVED (R354): A STATE item block arrives at the standby and is staged. -/
  | twinStateReceived (port : Fin 16) (blk : WireBlock) (count : Nat)
    /-- TWIN_TAGS_RECEIVED (R357): A TAGS item block from the partner arrives for comparison. -/
  | twinTagsReceived (port : Fin 16) (blk : WireBlock) (count : Nat)
    /-- TWIN_ACK_RECEIVED (R355): An ACK from the standby protects its window and updates TWN_APPLIED. -/
  | twinAckReceived (port : Fin 16) (blk : WireBlock)
    /-- REPLICA_SET_SHIP (R357): At C_w + 128 the primary ships window w's SET to the secondary. -/
  | replicaSetShip (ctx : Fin 16)
    /-- REPLICA_COMPARE (R358): At C_w + COMPARE_TICKS the modules compare tags: release, hold, divergence or skip.
  -/
  | replicaCompare (ctx : Fin 16)
    /-- TWN_TAKEOVER (R356): Writing TWN_CTRL.TAKEOVER starts a takeover on the secondary, and is ignored on the
  primary. -/
  | twnTakeover
    /-- TWN_SOLO (R359): Writing TWN_CTRL.SOLO declares the partner lost. -/
  | twnSolo
    /-- TAKEOVER_EFFECT (R356): At the first window boundary after TAKEOVER_LEAD, the standby applies whole
  shipments, opens intake and becomes active. -/
  | takeoverEffect (ctx : Fin 16)
    /-- PARTNER_LOST (R359): Expected items fall LOST_WINDOWS behind, or every twin port is down, and the module
  goes Solo or takes over. -/
  | partnerLost
    /-- OLICO_FLIT_RETRY (R364): A flit that fails its CRC is retried from the retry buffer. -/
  | olicoFlitRetry
    /-- OLICO_LANE_FAIL (R364): Lanes of one direction fail: the link narrows to 16 lanes or goes Down. -/
  | olicoLaneFail (tx : Bool) (lanes : List (Fin 32))
    /-- OLICO_NO_PROGRESS (R364): Retry has made no progress for 1 ms and the link goes Down and retrains. -/
  | olicoNoProgress
    /-- OLICO_RETRAIN_DONE (R364): Olico retraining completes and the link is Up. -/
  | olicoRetrainDone (badTx badRx : List (Fin 32))
    /-- CSR_ACCESS_ERROR (R367): A register access to a hole, misaligned or not 64 bits wide is ignored or errored
  and counted in BAD_CSR. -/
  | csrAccessError (offset width : Nat)
    /-- REGISTER_WRITE (R368): A write to a register without a row of its own acts field by field by class and
  running state. -/
  | registerWrite (offset : Nat) (value : Word) (inp : ActionInput)
    /-- CHANGE_NEXT_WRITE (R371): A write to OLC_CHANGE_NEXT sets a fresh CHANGE_ID and KIND for the next arming. -/
  | changeNextWrite (value : Nat)
    /-- OLC_ARM (R370): Writing OLC_CTRL.ARM arms a spare extension for OLC_CHANGE_AT. -/
  | olcArm
    /-- OLC_DISARM (R380): Writing OLC_CTRL.DISARM returns an armed KIND 7 change to Idle before its deadline. -/
  | olcDisarm
    /-- ARM_DEADLINE (R372): A two-phase change reaches its arm deadline; later armings are refused with a split. -/
  | armDeadline (change : Nat)
    /-- VOTE_COUNT (R372): At the vote count the root counts the ARMED packets and raises a split if any are
  missing. -/
  | voteCount (change : Nat)
    /-- ARMED_RECEIVED (R372): The root receives and counts an ARMED control packet. -/
  | armedReceived (pkt : ControlPkt)
    /-- REFUSED_RECEIVED (R375): The root receives a REFUSED control packet. -/
  | refusedReceived (pkt : ControlPkt)
    /-- SPLIT_RECEIVED (R373): A SPLIT is latched and relayed; the change is disarmed with a hold at P, or rolled
  back. -/
  | splitReceived (source : Fin 65536) (pkt : ControlPkt)
    /-- SPARE_EXTENSION_EFFECT (R370): At the context's step boundary at or after OLC_CHANGE_AT, EXTENDED is set and
  steps of S + X begin. -/
  | spareExtensionEffect (ctx : Fin 16)
    /-- CHANGE_FAILED_AT_EFFECT (R374): A module cannot apply an armed change at its effect count and rolls back, or
  replays with an epoch split. -/
  | changeFailedAtEffect (kind : Fin 16) (ctx : Fin 16)
    /-- FCP_HANDSHAKE (R376): A TLS 1.3 FCP connection is accepted or refused under the trust anchors and the
  session limit. -/
  | fcpHandshake (profile : Bool) (anchor : Option (Fin 4))
    /-- HELLO (R377): FCP HELLO returns serial, module number and role. -/
  | hello (session : Fin 8) (reqId : Nat)
    /-- CSR_READ (R377): FCP CSR_READ returns up to 512 registers. -/
  | csrRead (session : Fin 8) (reqId module offset count : Nat)
    /-- CSR_WRITE (R377): FCP CSR_WRITE performs up to 512 register writes in order. -/
  | csrWrite (session : Fin 8) (reqId module : Nat) (pairs : List (Nat × Nat)) (inp : ActionInput)
    /-- MEM_READ (R377): FCP MEM_READ reads memory at a global address. -/
  | memRead (session : Fin 8) (reqId addr length : Nat) (ecc : MemEcc)
    /-- MEM_WRITE (R377): FCP MEM_WRITE writes memory at a global address by service access. -/
  | memWrite (session : Fin 8) (reqId addr : Nat) (bytes : List Byte)
    /-- SHARD_PUT (R377): FCP SHARD_PUT writes shard bytes into Forester memory and sets the shard's READY bit when
  complete. -/
  | shardPut (session : Fin 8) (reqId ctx entry shard : Nat) (bytes : List Byte)
    /-- EXPORT (R377): FCP EXPORT opens a stream of tags, seals, declarations and records, held until acknowledged.
  -/
  | export_ (session : Fin 8) (reqId : Nat)
    /-- DISC_SEND (R377): FCP DISC_SEND sends a DISCOVERY packet from this module and returns the answer. -/
  | discSend (session : Fin 8) (reqId op token epoch : Nat) (path : List Nat) (body : List Byte)
    /-- FCP_RESET (R377): FCP RESET resets a named reset domain, port or context. -/
  | fcpReset (session : Fin 8) (reqId : Nat) (domain : ResetDomain)
    /-- FCP_SERVICE_PACKET (R378): An FCP service packet from another module is handled as an Operator request. -/
  | fcpServicePacket (source : Fin 65536) (reqId : Nat) (req : FcpReq)
    /-- CERTS (R399): FCP CERTS returns the identity and attestation certificate chains. -/
  | certs (session : Fin 8) (reqId : Nat)
    /-- QUOTE (R398): FCP QUOTE returns a signed 1,536-byte quote over the challenge. -/
  | quote (session : Fin 8) (reqId : Nat) (challenge : List Byte)
    /-- ENROLL (R396): Owner command ENROLL writes a key into a slot at its current epoch, or is refused. -/
  | enroll (session : Fin 8) (reqId : Nat) (c : OwnerCmd)
    /-- REVOKE (R397): Owner command REVOKE burns a revocation fuse of a slot and writes a journal record, or is
  refused. -/
  | revoke (session : Fin 8) (reqId : Nat) (c : OwnerCmd)
    /-- ANCHOR_SET (R396): Owner command ANCHOR_SET installs an FCP trust anchor with its role. -/
  | anchorSet (session : Fin 8) (reqId : Nat) (c : OwnerCmd)
    /-- ANCHOR_CLEAR (R396): Owner command ANCHOR_CLEAR removes an anchor and ends the sessions that depend on it.
  -/
  | anchorClear (session : Fin 8) (reqId : Nat) (c : OwnerCmd)
    /-- OWNER_CLAIM (R395): OWNER_CLAIM verifies the claim code and signature, burns OWNED, and records the slot-0
  key and anchor. -/
  | ownerClaim (session : Fin 8) (reqId : Nat) (c : OwnerClaim)
    /-- FW_PUT (R394): FCP FW_PUT writes part of the inactive firmware image as write units. -/
  | fwPut (session : Fin 8) (reqId image offset : Nat) (bytes : List Byte)
    /-- FW_ACTIVATE (R394): FCP FW_ACTIVATE names the inactive image as NEXT_IMAGE if it verifies now. -/
  | fwActivate (session : Fin 8) (reqId image length : Nat) (check : ImageCheck)
    /-- COMMIT_SVN (R394): Writing SEC_CTRL.COMMIT_SVN raises the ROLLBACK fuse counter to the running image's SVN.
  -/
  | commitSvn
    /-- SECURE_BOOT (R393): The boot ROM verifies and starts the selected or the other Forester image, or enters
  recovery. -/
  | secureBoot (a b : ImageCheck)
    /-- FLT_ACK (R386): Writing FLT_CTRL.ACK with the primary's SEQ promotes the head of the queue; a stale ACK is
  counted. -/
  | fltAck (seq : Fin 65536)
    /-- FLT_RELEASE (R384): Writing FLT_CTRL.RELEASE lets a held die core leave reset. -/
  | fltRelease
    /-- RRC_SPILL_TIMER (R392): Every SPILL_S seconds a spill record of the changed entries is written. -/
  | rrcSpillTimer
    /-- RRC_SPILL_NOW (R406): Writing RRC_CTRL.SPILL_NOW starts a spill. -/
  | rrcSpillNow
    /-- RRC_RELEASE (R391): Writing RRC_CTRL.RELEASE frees spilled, unchanged Critical entries. -/
  | rrcRelease
    /-- TRACE_ARM (R401): Writing OBS_TRACE_CTRL.ARM arms capture for OBS_TRACE_START. -/
  | traceArm
    /-- TRACE_START (R401): At OBS_TRACE_START, trace capture begins. -/
  | traceStart
    /-- TRACE_STOP (R401): At OBS_TRACE_STOP, trace capture ends. -/
  | traceStop
    /-- STOP_NOW (R401): Writing OBS_TRACE_CTRL.STOP_NOW ends trace capture. -/
  | stopNow
    /-- SNAP_ARM (R402): Writing OBS_SNAP_CTRL.ARM arms a counter snapshot for OBS_SNAP_AT. -/
  | snapArm
    /-- SNAP_NOW (R402): Writing OBS_SNAP_CTRL.NOW snapshots all counters at once. -/
  | snapNow
    /-- SNAPSHOT (R402): At OBS_SNAP_AT all 6,144 counters are copied in one tick. -/
  | snapshot
    /-- DIE_POWER_START (R410): After Forester boot, with the coolant within limits, rail group 1 starts its ramp.
  -/
  | diePowerStart (temp flow : Nat)
    /-- RAIL_GROUP_REGULATION (R410): A rail group reaches regulation, locks its PLLs and runs its actions, and the
  next group starts. -/
  | railGroupRegulation
    /-- RAIL_TIMEOUT (R413): A rail does not reach regulation within 200 ms: Module-fatal 0x44 and shutdown. -/
  | railTimeout
    /-- FOREMAN_RUNNING (R363): A foreman's firmware load finishes, is measured and runs. -/
  | foremanRunning (foreman : Fin 6) (digest : List Byte) (measures : Bool)
    /-- FOREMAN_TIMEOUT (R413): A foreman is not Running within 500 ms: Module-fatal 0x41. -/
  | foremanTimeout (foreman : Fin 6)
    /-- MODULE_RESET (R346): Module reset stops everything and loses memory; start-up runs from stage 1. -/
  | moduleReset
    /-- FORESTER_RESET (R346): A Forester reset restarts the Forester and FCP while the die and haul plane run on.
  -/
  | foresterReset
    /-- DIE_CORE_RESET (R346): A die core reset places memory in self refresh, hands tags over, stops plans and
  clears SEND and RECV entries. -/
  | dieCoreReset
    /-- DIE_CORE_RESET_END (R205): A die core reset ends: memory leaves self refresh, foremen load and interrupted
  training resumes. -/
  | dieCoreResetEnd
    /-- HAUL_PLANE_RESET (R346): A haul-plane reset takes every port down and clears leases and forwarding loads
  together with the die core. -/
  | haulPlaneReset
    /-- SAG_BAND_ENTRY (R21): The filtered input falls below 40.0 V: the band becomes Sag and the 200 µs sag count
  starts. A rise back above 40.0 V before the count expires abandons it. -/
  | sagBandEntry (mv : Nat)
    /-- NORMAL_BAND_ENTRY (R37): The input rises into the Normal band: PWR_STATUS.BAND returns to 0 and the 100 ms
  restart count of AUTO_RESTART starts. -/
  | normalBandEntry (mv : Nat)
    /-- INPUT_POWER_LOSS (R26): Input power is removed, for example at extraction: the standby section, the PWR
  block and the reference oscillator stop. -/
  | inputPowerLoss
    /-- LANE_LOCK_LOST (R290): A haul receive lane loses lock: symbol lock and LOCK_LOST change, and the
  LANE_FAIL_NS, FAST_US and LINK_DOWN_US counts start. During training the port goes to Backoff. -/
  | laneLockLost (port : Fin 16) (lane : Fin 9)
    /-- LANE_LOCK_REGAINED (R290): A lane relocks before LINK_DOWN_US: symbol lock returns, the link-down count
  stops and the port resumes with replay recovering lost blocks. -/
  | laneLockRegained (port : Fin 16) (lane : Fin 9)
    /-- MESH_TRANSFER_COMPLETE (R173): A mesh route transfer reaches its receive buffer bound by MRCV and the
  bench's completion counter rises. -/
  | meshTransferComplete (bench : Fin 792) (route : Fin 256)
    /-- LINK_REPLAY_END (R277): The last block of a link replay departs: the replay timer restarts and new sequenced
  blocks may be sent again. -/
  | linkReplayEnd (port : Fin 16)
    /-- REPLICA_SET_CHECK (R358): At C_w + SEAL_TICKS the Replica secondary checks that it holds window w's SET, and
  otherwise raises a one-quantum MISS hold. -/
  | replicaSetCheck (ctx : Fin 16)
    /-- EXPORT_ACKNOWLEDGED (R377): An FCP export client acknowledges stored tags, seals or records, and the
  Forester frees them from its 16 GiB export store. -/
  | exportAcknowledged (session : Fin 8) (count : Nat)
    /-- MANAGEMENT_PORT_LINK_UP (R426): The management port gains optical signal and link, and once its address is
  held FCP accepts sessions (start-up stage 3). -/
  | managementPortLinkUp (address : Bool)
    /-- FOREMAN_FAULTED (R384): A running foreman faults: OLC_FOREMAN.STATE reads Faulted and Module-fatal error
  0x41 is raised. -/
  | foremanFaulted (foreman : Fin 6)
    /-- DIE_RAIL_OUT_OF_REGULATION (R384): A die rail leaves regulation during operation, raising Module-fatal error
  0x44 followed by orderly shutdown. -/
  | dieRailOutOfRegulation
    /-- TALLY_PARITY_ERROR (R384): A parity error in the Tally counter or tick distribution raises Module-fatal
  error 0x43, and the haul plane resets with the die core. -/
  | tallyParityError
    /-- CSR_SPINE_UNCORRECTABLE (R384): An uncorrectable error in the CSR spine or a fuse read raises Module-fatal
  error 0x42. -/
  | csrSpineUncorrectable (source : Fin 24)
deriving DecidableEq, Repr

end Sys2Proof
end

