-- ==== Sys2Proof/Decode.lean ====
section
/-! DEFINITION. Reading a command from the bits of the opcode table. The table gives no row any bits: commands come to
the module as packets, register writes and events, not as words. -/

namespace Sys2Proof

/-- The command that a word of the opcode table spells. No row of the table has bits, so no word spells one. -/
def decodeTableWord (_nbits _w : Nat) : Option Instr := none

end Sys2Proof
end

