-- ==== Sys2Proof/Machine/Bytes.lean ====
section
/-! DEFINITION. Byte strings and numbers: fields are stored least significant byte first in registers, memory and
plans, and sent most significant byte first in frames, packets and link blocks (00_scope.md R13). -/

namespace Sys2Proof.Machine

open Sys2Proof

/-- The `n` bytes of `v`, least significant first. -/
def leBytes : Nat → Nat → List Byte
  | 0, _ => []
  | n + 1, v => BitVec.ofNat 8 v :: leBytes n (v / 256)

/-- The `n` bytes of `v`, most significant first. -/
def beBytes (n v : Nat) : List Byte := (leBytes n v).reverse

/-- The number of a byte string stored least significant byte first. -/
def leNat : List Byte → Nat
  | [] => 0
  | b :: t => b.toNat + 256 * leNat t

/-- The number of a byte string sent most significant byte first. -/
def beNat (l : List Byte) : Nat := leNat l.reverse

/-- `n` bytes of `l` from offset `o`. -/
def slice (o n : Nat) (l : List Byte) : List Byte := (l.drop o).take n

/-- The little-endian number of `n` bytes of `l` from offset `o`. -/
def leAt (o n : Nat) (l : List Byte) : Nat := leNat (slice o n l)

/-- The big-endian number of `n` bytes of `l` from offset `o`. -/
def beAt (o n : Nat) (l : List Byte) : Nat := beNat (slice o n l)

/-- `n` zero bytes. -/
def zeros (n : Nat) : List Byte := List.replicate n 0

/-- Bits [hi:lo] of `v`. -/
def bits (hi lo v : Nat) : Nat := v / 2 ^ lo % 2 ^ (hi + 1 - lo)

/-- Bit `i` of `v`. -/
def bit (i v : Nat) : Bool := v / 2 ^ i % 2 == 1

/-- A truth value as a one-bit field. -/
def flag (b : Bool) : Nat := if b then 1 else 0

/-- The least multiple of `m` at or above `x`. -/
def roundUp (m x : Nat) : Nat := (x + m - 1) / m * m

/-- Ceiling of a quotient. -/
def ceilDiv (a b : Nat) : Nat := (a + b - 1) / b

/-- A signed number as a two's complement field of `w` bits. -/
def toField (w : Nat) (x : Int) : Nat := (x % (2 ^ w : Int)).toNat

/-- The signed number of a two's complement field of `w` bits. -/
def ofField (w v : Nat) : Int := if v < 2 ^ (w - 1) then v else (v : Int) - 2 ^ w

end Sys2Proof.Machine
end

