-- ==== Sys2Proof/Machine/Blocks.lean ====
section
/-! DEFINITION. Link blocks and what they carry, between their fields and their bytes (10_haul_links.md R269 to R271,
R281, R283, R285, R286; 11_scheduled_fabric.md R297, R320). All sent most significant byte first. -/

namespace Sys2Proof

open Sys2Proof.Machine

/-! ## CRC-32C -/

/-- Eight shifts of the reflected Castagnoli polynomial 0x1EDC_6F41. -/
def crcShift : Nat → Nat → Nat
  | 0, c => c
  | n + 1, c => crcShift n (if c % 2 = 1 then (c / 2) ^^^ 0x82F63B78 else c / 2)

/-- The CRC register after the bytes of `l`. -/
def crcFold (c : Nat) : List Byte → Nat
  | [] => c
  | b :: t => crcFold (crcShift 8 (c ^^^ b.toNat)) t

/-- CRC-32C: initial value and final exclusive-or 0xFFFF_FFFF (R269). -/
def crc32c (l : List Byte) : Nat := crcFold 0xFFFFFFFF l ^^^ 0xFFFFFFFF

/-! ## Blocks -/

/-- The 64-bit header (R270). -/
def LinkBlock.header (b : LinkBlock) : Nat :=
  b.type % 16 * 2 ^ 60 + b.seq % 65536 * 2 ^ 44 + b.ack % 65536 * 2 ^ 28 + b.freed0 % 1024 * 2 ^ 18
    + b.freed1 % 1024 * 2 ^ 8 + b.data.length % 256

/-- The 252 bytes the CRC covers: header, and data filled with zeros. -/
def LinkBlock.body (b : LinkBlock) : List Byte :=
  beBytes 8 b.header ++ (b.data ++ zeros (244 - b.data.length))

/-- The 256 bytes of a block (R269). -/
def LinkBlock.encode (b : LinkBlock) : List Byte := b.body ++ beBytes 4 (crc32c b.body)

/-- Stripe `i` of a block (R265). -/
def LinkBlock.stripe (b : LinkBlock) (i : Nat) : List Byte := slice (32 * i) 32 b.encode

/-- The block that 256 bytes spell, if its CRC holds and its LEN is at most 244 (R269, R270). One whose CRC holds and whose LEN is 245 to
255 spells none, and is discarded as one whose CRC fails (DESIGN CHOICE, log entry 143). -/
def LinkBlock.decode (l : List Byte) : Option LinkBlock :=
  if l.length = 256 ∧ beAt 252 4 l = crc32c (l.take 252) then
    let h := beAt 0 8 l
    if h % 256 ≤ 244 then
      some { type := bits 63 60 h, seq := bits 59 44 h, ack := bits 43 28 h, freed0 := bits 27 18 h
             freed1 := bits 17 8 h, data := slice 8 (h % 256) l }
    else none
  else none

/-- Types that carry sequenced blocks (R271). -/
def LinkBlock.sequenced (b : LinkBlock) : Bool := b.type == 1 || b.type == 2 || b.type == 3

/-- Types whose ACK and FREED fields are valid (R271). -/
def LinkBlock.acks (b : LinkBlock) : Bool := 1 ≤ b.type && b.type ≤ 8 && b.type != 7

/-! ## Data of the block types -/

/-- A stamp's 12 bytes: Tally count and fraction (R283). -/
def stampBytes (t : Stamp) : List Byte := beBytes 12 t

/-- The 20 data bytes of a marker (R285). -/
def Marker.encode (m : Marker) : List Byte :=
  stampBytes m.tDep ++ beBytes 2 m.root ++ beBytes 1 m.hops ++ beBytes 1 m.flags ++ beBytes 2 m.sender
    ++ beBytes 1 m.port ++ zeros 1

/-- The marker that data bytes spell; reserved bits give none (R285, R14; log entry 111). -/
def Marker.decode (l : List Byte) : Option Marker :=
  if l.length = 20 ∧ beAt 15 1 l < 16 ∧ beAt 19 1 l = 0 then
    some { tDep := beAt 0 12 l, root := beAt 12 2 l, hops := beAt 14 1 l, flags := beAt 15 1 l, sender := beAt 16 2 l
           port := beAt 18 1 l }
  else none

/-- The six data bytes of a LANE block (R286). -/
def LaneMsg.encode (m : LaneMsg) : List Byte :=
  beBytes 1 m.kind ++ beBytes 1 m.logical ++ beBytes 1 m.src ++ beBytes 1 m.dst ++ beBytes 2 m.opId

/-- The lane message that data bytes spell; a reserved KIND gives none (R286, R14). -/
def LaneMsg.decode (l : List Byte) : Option LaneMsg :=
  let k := beAt 0 1 l
  if l.length = 6 ∧ 1 ≤ k ∧ k ≤ 5 then
    some { kind := k, logical := beAt 1 1 l, src := beAt 2 1 l, dst := beAt 3 1 l, opId := beAt 4 2 l }
  else none

/-- Offsets 0x00 to 0x1F of a TRAIN block (R281). -/
def Announce.encode (a : Announce) : List Byte :=
  beBytes 1 a.version ++ beBytes 1 a.kind ++ beBytes 1 a.partnerType ++ beBytes 1 a.port ++ beBytes 2 a.module
    ++ beBytes 2 a.rxLanes ++ beBytes 8 a.serial ++ beBytes 2 a.replayBlocks ++ beBytes 2 a.credits0
    ++ beBytes 2 a.credits1 ++ beBytes 2 a.alignPs ++ beBytes 2 a.markerTicks ++ beBytes 1 (flag a.seen) ++ zeros 5

/-- The common part of a TRAIN block's data (R281); none when its LEN does not match its KIND (R283) or reserved bits are set
(R14; log entry 111). -/
def Announce.decode (l : List Byte) : Option Announce :=
  let k := beAt 1 1 l
  if ((k = 0 ∧ l.length = 32) ∨ (k = 1 ∧ l.length = 48) ∨ (k = 2 ∧ l.length = 72)) ∧ beAt 26 1 l ≤ 1 ∧ beAt 27 5 l = 0
      ∧ (k = 0 ∨ beAt 33 3 l = 0) then
    some { version := beAt 0 1 l, kind := k, partnerType := beAt 2 1 l, port := beAt 3 1 l, module := beAt 4 2 l
           rxLanes := beAt 6 2 l, serial := beAt 8 8 l, replayBlocks := beAt 16 2 l, credits0 := beAt 18 2 l
           credits1 := beAt 20 2 l, alignPs := beAt 22 2 l, markerTicks := beAt 24 2 l, seen := bit 0 (beAt 26 1 l) }
  else none

/-- The data of a SCHED block: transfer header and payload (R297). -/
def SchedData.encode (d : SchedData) : List Byte :=
  beBytes 2 d.route ++ beBytes 2 d.step16 ++ beBytes 2 d.index
    ++ beBytes 1 (flag d.last + 2 * flag d.void + 4 * (d.path % 4) + 16 * (d.attempt % 4)) ++ zeros 1 ++ d.payload

/-- The transfer header and payload of a SCHED block's data (R297). -/
def SchedData.decode (l : List Byte) : SchedData :=
  let f := beAt 6 1 l
  { route := beAt 0 2 l, step16 := beAt 2 2 l, index := beAt 4 2 l, last := bit 0 f, void := bit 1 f
    path := bits 3 2 f, attempt := bits 5 4 f, payload := l.drop 8 }

/-- The number of blocks of a service packet: 16 header bytes and the payload over 244-byte blocks (R320). -/
def SvcPkt.blocks (p : SvcPkt) : Nat := ceilDiv (16 + p.payload.length) 244

/-- The bytes of a service packet (R320). -/
def SvcPkt.encode (p : SvcPkt) : List Byte :=
  beBytes 1 p.kind ++ beBytes 1 p.blocks ++ beBytes 2 p.dest ++ beBytes 2 p.source ++ beBytes 1 p.hops
    ++ beBytes 1 (flag p.express) ++ beBytes 4 p.seq ++ beBytes 2 p.payload.length ++ zeros 2 ++ p.payload

/-- The service packet that the data of its blocks spell (R320). -/
def SvcPkt.decode (l : List Byte) : SvcPkt :=
  { kind := beAt 0 1 l, dest := beAt 2 2 l, source := beAt 4 2 l, hops := beAt 6 1 l, express := bit 0 (beAt 7 1 l)
    seq := beAt 8 4 l, payload := slice 16 (beAt 12 2 l) l }

/-- The data of each block of a byte string, 244 bytes a block, with fuel for the 16 blocks of a packet. -/
def cut244 : Nat → List Byte → List (List Byte)
  | 0, _ => []
  | n + 1, l => if l.length ≤ 244 then [l] else l.take 244 :: cut244 n (l.drop 244)

/-- The data of the blocks that carry a service packet (R320). -/
def SvcPkt.blockData (p : SvcPkt) : List (List Byte) := cut244 16 p.encode

/-- The payload of a HOLD or REPLAY notice (R320). -/
def Notice.encode (n : Notice) : List Byte :=
  leBytes 8 n.plan ++ beBytes 8 n.point ++ beBytes 8 n.step ++ beBytes 2 n.requester ++ beBytes 2 n.arg
    ++ beBytes 1 n.code ++ beBytes 1 n.attempt ++ zeros 2 ++ beBytes 8 n.origin

/-- The HOLD or REPLAY notice that a payload spells (R320). -/
def Notice.decode (l : List Byte) : Notice :=
  { plan := leAt 0 8 l, point := beAt 8 8 l, step := beAt 16 8 l, requester := beAt 24 2 l, arg := beAt 26 2 l
    code := beAt 28 1 l, attempt := beAt 29 1 l, origin := beAt 32 8 l }

/-- The payload of a ROUTE_DOWN notice (R320). -/
def RouteDown.encode (r : RouteDown) : List Byte :=
  leBytes 8 r.plan ++ beBytes 8 r.lossAt ++ beBytes 8 r.step ++ beBytes 2 r.route ++ beBytes 1 r.port
    ++ beBytes 1 r.cause ++ zeros 12

/-- The ROUTE_DOWN notice that a payload spells (R320). -/
def RouteDown.decode (l : List Byte) : RouteDown :=
  { plan := leAt 0 8 l, lossAt := beAt 8 8 l, step := beAt 16 8 l, route := beAt 24 2 l, port := beAt 26 1 l
    cause := beAt 27 1 l }

/-- The bytes of a payload that the layout of its KIND marks zero or reserved are zero (R320, R58, R233, R370, R375, R14; log entry 111).
OP of a TIME packet and the fields of a DISCOVERY packet are looked at where those packets are taken. -/
def payloadOk (kind : Nat) (l : List Byte) : Bool :=
  if kind = 1 then beAt 29 3 l == 0
  else if kind = 2 then beAt 30 2 l == 0
  else if kind = 3 then beAt 28 12 l == 0
  else if kind = 5 then beAt 12 4 l == 0 && beAt 48 16 l == 0 && 1 ≤ beAt 9 1 l && beAt 9 1 l ≤ 2
  else if kind = 7 then beAt 1 1 l < 16 && beAt 6 2 l == 0 && beAt 34 14 l == 0
  else if kind = 8 then 1 ≤ beAt 0 1 l && beAt 0 1 l ≤ 3 && 1 ≤ beAt 1 1 l && beAt 1 1 l ≤ 10 && beAt 33 7 l == 0
  else true

/-- The payload of a TIME packet (R58). -/
def TimePkt.encode (t : TimePkt) : List Byte :=
  beBytes 1 t.op ++ beBytes 1 t.flags ++ beBytes 2 t.root ++ beBytes 2 t.sender ++ zeros 2 ++ beBytes 4 t.token
    ++ beBytes 4 t.rate ++ beBytes 8 t.tally ++ beBytes 6 t.ptpS ++ beBytes 4 t.ptpNs ++ zeros 14

end Sys2Proof
end

