-- ==== Sys2Proof/Config.lean ====
section
/-! DEFINITION. What the manual leaves open: constants with no body, applied to the operands they depend on or to
State.fresh, the model's counter of free values. Nothing can evaluate them, so a claim holds for every value. -/

namespace Sys2Proof.Config

open Sys2Proof

/-- The sixteenth of a stamp: the position within the tick at which an event falls (R59). -/
opaque sixteenth : Nat → Nat

/-- The part of a tick, in 2⁻³² tick, at which a MARKER leaves that waited for a replay (R272, R285; log entry 145), at a draw. -/
opaque instant : Nat → Nat

/-- The proportional-integral servo of the Tally (R54), whose gains the manual does not give: of a draw, the offset in
2⁻³² tick and the last trim, the trim it asks for. -/
opaque tallyServo : Nat → Int → Int → Int

/-- The servo of the module PTP time (R245), which the manual does not give: of a draw, the offset in 2⁻¹⁶ ns and the last
trim, the trim it asks for. -/
opaque ptpServo : Nat → Int → Int → Int

/-- Whether an offset exactly half way between two ticks rounds up (R54). -/
opaque tieUp : Nat → Bool

/-- The 8-bit event number of a trace record of a group (R401). -/
opaque traceEvent : Nat → Nat → Nat

/-- The 29 bits of event data of a trace record (R401). -/
opaque traceData : Nat → Nat → Nat

/-- The module number of the hold root of the plan with these PLAN_ID bytes, where it is another module (R370). -/
opaque holdRoot : Nat → Nat

/-- Which of its two operands a lane of VSEL takes (R80), whose condition the manual does not give: of the lane of S3 and IMM. -/
opaque selects : Nat → Nat → Bool

/-- What an operation of a bundle leaves in a place that it writes where its encoding, or one of a table that it names, is one that
the manual reserves or does not list: of a draw and the place's number among those that the operation writes. -/
opaque reserved : Nat → Nat → Nat

/-- The leaf, with its low part, of a sum on the exact path over FP32 lanes (R125) whose elements, or whose sum, the accumulator
of R71 cannot hold: of the lanes present. -/
opaque exactLeaf : List Nat → Nat × Nat

/-- The 64 bytes of a request cell's descriptor (R253), whose layout the manual does not give: of the logical request
index, status, ingress Tally and sixteenth, PTP seconds and nanoseconds, carries, and WEIGHT_CHECK_EPOCH (R357). -/
opaque descriptor : List Nat → List Byte

/-- BOOT_NONCE, random, drawn at module reset (R145): of a draw, its two register words. -/
opaque bootNonce : Nat → Nat → Nat

/-- The identity and attestation certificate chains that CERTS returns (R398, R399), fixed at manufacture. -/
opaque certChains : List Byte

/-- Lines of Forester memory that the Olico cache serves (R365): of a draw and the number of lines read. -/
opaque cacheHits : Nat → Nat → Nat

/-- Whether a refresh management command of a stack, or of DDR channel `u` − 20, is due in a beat (R182, R183, R203), at a fixed rate that
the manual does not give: of `u` and the beat's number. -/
opaque managementDue : Nat → Nat → Bool

/-- Whether a recalibration of a stack, or of DDR channel `u` − 20, is due in a beat (R191, R203), for which the manual gives no
rate: of `u` and the beat's number. -/
opaque recalibrationDue : Nat → Nat → Bool

/-- The signature of the device attestation key over a byte string (R145, R398). -/
opaque attest : List Byte → List Byte

end Sys2Proof.Config
end

