-- ==== Sys2Proof/Machine/State.lean ====
section
/-! DEFINITION. The state of the module as plain data: every register field of the manual's register tables
(State.csr, keyed field by field), the memories, and for each block of the die the state its rules name beyond its
registers. Reset values are in State.reset at the end. -/

namespace Sys2Proof.Machine

open Sys2Proof

/-! ## Registers -/

/-- Access codes of register fields (00_scope.md R15). -/
inductive Access where
  | ro | rw | w1c | wo
deriving DecidableEq, Repr

/-- Field classes (14_forester_and_control.md R368). -/
inductive FieldClass where
  | live | static | staged
deriving DecidableEq, Repr

/-- The blocks that hold registers, each with its CSR base and reset domain (R367). -/
inductive Block where
  | pwr | clk | tal | bch | frk | gen | pln | hbm | dtr | wgt | itk | sct | ptp | haul | sch | top | twn | olc | flt
  | rrc | sec | obs
deriving DecidableEq, Repr

/-- One register field: its CSR offset, lowest bit, width, stride of its array (0 for a single register), Reset
column, access and class. -/
structure Field where
  addr : Nat
  lo : Nat
  width : Nat
  stride : Nat
  reset : Nat
  access : Access
  cls : FieldClass
deriving DecidableEq, Repr

/-- One row of a register table: a register or an array of one or two indexes, `words` 64-bit words long, with its
fields. -/
structure RegRow where
  addr : Nat
  strideA : Nat
  countA : Nat
  strideB : Nat
  countB : Nat
  words : Nat
  block : Block
  fields : List Field
deriving DecidableEq, Repr

/-- A sparse table: keys strictly rising, no entry equal to the table's default. -/
abbrev Tab (α : Type) := List (Nat × α)

/-! ## Faults, Ring Recorder, security and observation (15_faults_security_observation.md) -/

/-- Error classes in order of severity (R381). -/
inductive ErrClass where
  | corrected | contained | stepFatal | moduleFatal
deriving DecidableEq, Repr

/-- An error record before packing into its 256 bits (R385). -/
structure ErrRec where
  stamp : Nat
  sixteenth : Nat
  field : Nat
  cls : ErrClass
  source : Nat
  code : Nat
  context : Nat
  unit : Nat
  info : Nat
  step : Nat
  repeats : Nat
  seq : Nat
deriving DecidableEq, Repr

/-- The errors detected in the tick at count `at_`, in the order of R388, with the primary, queue, SEQ and FLT_OVERFLOW counts
that they are placed on. -/
structure TickErrs where
  at_ : Nat
  primary : Option ErrRec
  queue : List ErrRec
  seq : Nat
  contained : Nat
  step : Nat
  repeats : Nat
  errs : List ErrRec
deriving DecidableEq, Repr

/-- The FLT block: primary record, secondary queue with its head first, the last SEQ given, and what R383 counts:
the times at which each bench raised 0x01 to 0x03 or stopped by fault. -/
structure Flt where
  primary : Option ErrRec
  queue : List ErrRec
  seq : Nat
  arrived : Option TickErrs
  benchErrs : List (Nat × Nat)
  benchStops : List (Nat × Nat)
deriving DecidableEq, Repr

/-- One entry of the Ring Recorder (R390). `hist` has eight counts. Each of the stamps `first`, `last` and `largestAt` has beside
its Tally count its field and sixteenth (R59), for which the bytes of R390 have no room. -/
structure RrcEntry where
  source : Nat
  code : Nat
  unit : Nat
  context : Nat
  severity : Nat
  spilled : Bool
  saturated : Bool
  count : Nat
  first : Nat
  last : Nat
  largest : Nat
  smallest : Nat
  largestAt : Nat
  firstIn : Nat × Nat
  lastIn : Nat × Nat
  largestIn : Nat × Nat
  hist : List Nat
deriving DecidableEq, Repr

/-- One spill record of the flash area (R392). -/
structure SpillRec where
  seq : Nat
  gap : Bool
  final : Bool
  bootNonce : Nat
  tally : Nat
  drops : List Nat
  entries : List (Nat × RrcEntry)
deriving DecidableEq, Repr

/-- The Ring Recorder: its 1,024 entries by index, and whether the next record is the first since module reset. -/
structure Rrc where
  entries : Tab RrcEntry
  firstRecord : Bool
deriving DecidableEq, Repr

/-- One 16-byte trace record (R401). -/
structure TraceRec where
  tally : Nat
  sixteenth : Nat
  field : Nat
  source : Nat
  event : Nat
  unit : Nat
  context : Nat
  data : Nat
deriving DecidableEq, Repr

/-- Observation: the trace buffer by record index, the tick and the per-field number of records already written in
it, the count of the armed capture, and the count of the armed snapshot (R401, R402). -/
structure Obs where
  trace : Tab TraceRec
  traceTick : Nat
  traceCount : List Nat
  traceAt : Nat
  snapAt : Option Nat
  snapIn : Nat × Nat
deriving DecidableEq, Repr

/-- One key slot of the key store (R397): the modulus enrolled, the epoch stored with it, whether it is valid, and
the revocation fuses burnt. -/
structure KeySlot where
  modulus : Option Nat
  epoch : Nat
  valid : Bool
  fuses : Nat
deriving DecidableEq, Repr

/-- One FCP trust anchor (R395, R396). -/
structure Anchor where
  modulus : Nat
  auditor : Bool
deriving DecidableEq, Repr

/-- One Forester firmware image of the boot flash (R393, R394): its bytes and its length. -/
structure Image where
  bytes : Tab Byte
  length : Nat
deriving DecidableEq, Repr

/-- What no reset and no supply loss clears: fuses, key store, boot flash, Ring Recorder spill area. -/
structure Nv where
  images : List Image
  nextImage : Nat
  rollback : Nat
  owned : Bool
  claimDigest : List Byte
  serial : Nat
  keys : List KeySlot
  anchors : List (Option Anchor)
  ownerSeq : Nat
  spill : List SpillRec
deriving DecidableEq, Repr

/-! ## Power (01_module_envelope.md, 16_bring_up.md, 17_characteristics.md) -/

/-- The input stage (R27, R413). -/
inductive InputStage where
  | off | precharging | closed
deriving DecidableEq, Repr

/-- Progress of orderly shutdown (R37): none; steps 1 and 2 done and the taper running; ports stopped, die rails down
and the input stage open; Forester domain off apart from its standby section. -/
inductive Shutdown where
  | none | tapering | holdUp | off
deriving DecidableEq, Repr

/-- What a write unit writes when it commits (R34): nothing this model names in a store, a spill record, the erase of the oldest
spill block, a block of a firmware image, or the key-store record of a revoked slot (R397). -/
inductive UnitJob where
  | other (store : FlashStore)
  | spill (r : SpillRec)
  | eraseSpill
  | firmware (image offset : Nat) (bytes : List Byte)
  | journal (slot : Nat)
deriving DecidableEq, Repr

/-- The fill of one bench region (R30): its shortfall in W, the nominal time at which it began, which stands still in a
hold and in a replay span (R33), and whether it has outlasted PWR_FILL.LIMIT and gone over to a taper (R31). -/
structure FillRun where
  region : Nat
  watts : Nat
  since : Nat
  tapered : Bool
deriving DecidableEq, Repr

/-- A taper that runs (R31): the steps left of it, the load in W it started from, and the count at which its present step
expires. -/
structure TaperRun where
  left : Nat
  start : Nat
  at_ : Nat
deriving DecidableEq, Repr

/-- The PWR block and the input side beyond the PWR registers. -/
structure Pwr where
  /-- The standby section runs (R26). -/
  standby : Bool
  stage : InputStage
  /-- 0 before precharge first fails, then one more than the retries taken (R413). -/
  retries : Nat
  /-- The Forester domain is powered (R27, R37). -/
  forester : Bool
  /-- The hold-up switch connects the hold-up store (R34). -/
  holdupSwitch : Bool
  /-- Write-inhibit set by the band (R21). -/
  bandInhibit : Bool
  /-- The 200 µs sag count runs (R21). -/
  sagCount : Bool
  /-- The input has been in the Normal band without a break since its last entry (R37). -/
  normalCount : Bool
  shutdown : Shutdown
  /-- Threshold of the current throttle in force, 10 mA units (R23, R428). -/
  throttleAt : Nat
  /-- Coolant temperature and flow within the limits of R428. -/
  coolantOk : Bool
  /-- The tapers that run, oldest first (R31). -/
  tapers : List TaperRun
  /-- Contexts whose taper of R433 (context reset) counts their BENCH_W as zero until restart. -/
  stoppedPower : List Nat
  /-- Contexts in their ramp-up after a restart, with the nominal time at which it began (R167, R433). -/
  ramps : Tab Nat
  /-- The level in W that a taper had reached when the work of a context, or of the plan (key 16), resumed in it: its
  ramp begins from there (R32). -/
  floors : Tab Nat
  /-- The level that the old point's profile had at the end of its step, held for the beat after a synchronised switch
  (R433). -/
  switchStage : Option PowerStage
  /-- The fork and variant that contexts in a replay span stood in as it began (R33, R316). -/
  heldForks : Tab (Nat × Nat)
  /-- The fork and variant in which a context's last step ended, where J is the step's end (R110, R433). -/
  endForks : Tab (Nat × Nat)
  /-- Bench regions under fill (R30). -/
  fill : List FillRun
  /-- The share in W of each bench region in the profile in force in the beat that runs (R30). -/
  shares : List Nat
  /-- Write units requested, oldest first: the first was admitted at its start and runs, the others have not started (R34). -/
  units : List UnitJob
  /-- Input power is gone, and the Forester domain runs on the hold-up store (R26, R34). -/
  inputGone : Bool
  /-- Rail groups of R410 up, 0 to 4, and the group whose ramp runs. -/
  railsUp : Nat
  railRamp : Bool
  /-- The die conversion runs (R410). -/
  dieOn : Bool
  /-- The die core is in reset (R346, R410). -/
  dieReset : Bool
  /-- Input energy since module reset, in ticks at 0.1 W (R38). -/
  energy : Nat
deriving DecidableEq, Repr

/-! ## Clock regions, Tally and PTP time (02_clocks_and_tally.md, 09_intake_and_streams.md) -/

/-- Clock state beyond the CLK registers. -/
structure Clk where
  /-- Flits that have entered each crossing, by 64 × writer + reader, in the present tick (R43). -/
  entered : Tab Nat
  /-- Regions whose droop detector has tripped (R45). -/
  droop : List Nat
  /-- The current throttle stretches the bench regions (R23, R45). -/
  throttle : Bool
  /-- Late-entry cycles charged to each region in the present beat (R44). -/
  late : Tab Nat
  /-- Regions that have raised their hold request in the present step, with the quanta asked (R47). -/
  slipAsked : Tab Nat
  /-- Slips of the present step reported to a field's foreman: field and region (R47). -/
  slipReports : List (Nat × Nat)
  /-- Regions whose stretcher was active at some time in the present beat (R45). -/
  stretchSeen : List Nat
  /-- Flits of the mesh transfers of the present step (R42, R43), by 256 × physical bench + route: how many have entered each
  crossing of the route, and last how many have left the last one. -/
  flits : Tab (List Nat)
  /-- Crossings, as 64 × writer + reader, at which a sequencer stalls (R44). -/
  stalled : List Nat
  /-- The standby loops of the bench-region PLLs are locked to the armed ratio (R51). -/
  standbyLocked : Bool
  /-- The count at which the armed frequency change takes effect, its target point and region, as armed (R50, R51). -/
  fchgAt : Nat
  fchgPoint : Nat
  fchgRegion : Nat
  fchgStop : Bool
  /-- The present beat follows a synchronised switch and carries no bench work (R51, R433). -/
  switchBeat : Bool
  /-- Relocks tried for each region during bring-up, and the regions that never locked (R410, R413). -/
  relocks : Tab Nat
  neverLocked : List Nat
deriving DecidableEq, Repr

/-- Tally state beyond the TAL registers. -/
structure Tal where
  /-- The Tally runs: its PLL has locked (R410). -/
  running : Bool
  /-- Count of the last valid upstream marker (R56). -/
  lastMarker : Nat
  /-- Count at which the trim last changed (R54). -/
  trimAt : Nat
  /-- ALIGN_NOW waits for the next marker (R54). -/
  alignNow : Bool
  /-- Module number of the Tally root and hops from it, as the last valid marker gave them (R285). -/
  root : Nat
  hops : Nat
  /-- ROOT_PTP_LOCKED of the last valid marker (R285). -/
  rootPtp : Bool
deriving DecidableEq, Repr

/-- The module PTP time as it ran until it changed at a Tally count (R237): the time then, its advance per tick, and whether it was
in holdover. -/
structure PtpPast where
  until_ : Nat
  time : Nat
  rate : Nat
  holdover : Bool
deriving DecidableEq, Repr

/-- PTP state beyond its registers: the module PTP time in units of 1/(19·2⁴⁰) ns, in which one tick of TCLK is
160·(2⁴⁰ + TRIM) units; it runs once group 2 is up (R410); and its recent changes, newest first, from which a frame's stamp reads
the time as it was at its count (R237). -/
structure PtpClock where
  time : Nat
  running : Bool
  past : List PtpPast
deriving DecidableEq, Repr

/-! ## Provenance (05_reproducibility.md) -/

/-- What a seal notes of the start or the end of a batch (R145): GEN_CHOICE_COUNT, whether STRICT is in force, and the module PTP
time in its units. -/
structure Mark where
  choices : Nat
  strict : Bool
  ptp : Nat
deriving DecidableEq, Repr

/-- An open seal span (R143): first and last batch and their number, the counts at its start and at the end of its last batch, its
tags in order, the choice count at its start, the choice count and the PTP time at the end of its last batch, the epochs among its
tags, whether STRICT held throughout, and the weight root its passes read. -/
structure SealSpan where
  first : Nat
  last : Nat
  batches : Nat
  openAt : Nat
  closeAt : Nat
  tags : List (List Byte)
  choices : Nat
  choicesEnd : Nat
  ptpEnd : Nat
  epochFirst : Nat
  epochLast : Nat
  strict : Bool
  root : List Byte
deriving DecidableEq, Repr

/-- What the Forester holds for export, oldest first (R366, R377): a tag, a signed seal, a bad-epoch declaration with
context, shard, first and last epoch (R232), and a quarantine notice received (R233). -/
inductive ExportItem where
  | tag (ctx : Nat) (bytes : List Byte)
  | sealed (bytes : List Byte)
  | declaration (ctx shard first last : Nat)
  | notice (payload : List Byte)
  | record (seq : Nat) (bytes : List Byte)
deriving DecidableEq, Repr

/-- A spare bench standing in (R139, R163). -/
structure Subst where
  logical : Nat
  source : Nat
  spare : Nat
  cross : Bool
deriving DecidableEq, Repr

/-- The GEN block and the seal unit beyond the GEN registers. -/
structure Gen where
  spans : Tab SealSpan
  /-- SEAL_SEQ of the next seal and digest of the last one by context (R145): they last until module reset. -/
  seqs : Tab Nat
  digests : Tab (List Byte)
  /-- The batches at whose end a context's span is to close: CLOSE_NOW, swap, mode change (R143). -/
  closing : Tab (List Nat)
  /-- The last batch done of each context. -/
  done : Tab Nat
  /-- Tags of the current step of each context that has no intake, not yet released. -/
  stepTags : Tab (List (List Byte))
  /-- What waits on the die for the Forester, oldest first (R146, R232, R233, R366): tags, signed seals, declarations and notices; and the
  step, with its hold ticks, at which tag backpressure last asked for a hold. -/
  dieItems : List ExportItem
  holdStep : Option (Nat × Nat)
  /-- Bytes 0x000 to 0x1FF of seals waiting to be signed, oldest first. -/
  unsigned : List (List Byte)
  /-- The count at which the mode in force took effect (R133). -/
  modeFrom : Option Nat
  /-- The armed mode change: its count and mode, and whether it was armed with no plan active (R133). -/
  modeAt : Nat
  modeStrict : Bool
  modeNoPlan : Bool
  /-- Spares standing in, benches failed, and failed benches that wait for a substitution (R139, R140, R383). -/
  subst : List Subst
  failed : List Nat
  toReplace : List Nat
  /-- Contexts that a cross-region substitution stops at their next step boundary (R140). -/
  retime : List Nat
deriving DecidableEq, Repr

/-! ## Intake and streams (09_intake_and_streams.md) -/

/-- A request received and not yet released (R237 to R240): its record with padded payload, its ingress stamp, where it
came from, and how often it was carried. -/
structure Request where
  id : Nat
  key : Nat
  op : Nat
  length : Nat
  record : List Byte
  tally : Nat
  sixteenth : Nat
  ptpS : Nat
  ptpNs : Nat
  port : Nat
  frameSeq : Nat
  pos : Nat
  carries : Nat
  malformed : Bool
  holdover : Bool
deriving DecidableEq, Repr

/-- An admitted slot (R249, R256): its request and STATUS, STATE_SEQ as read, whether it read empty state, the state block it owns,
whether it writes state, whether its entry is new, the block it reads where that is another, the tag formed and the epoch in force.
-/
structure SlotRec where
  req : Request
  status : Nat
  stateSeq : Nat
  newState : Bool
  block : Option Nat
  writes : Bool
  empty : Bool
  readFrom : Option Nat
  resolved : Bool
  tag : Option (List Byte)
  epoch : Nat
deriving DecidableEq, Repr

/-- A sealed window (R248 to R250, R259): opening and closing counts, the nominal time of its close (holds left out), the weight
root its pass reads, the WEIGHT_CHECK_EPOCH of its batch, slots, refusals with their STATUS, response frames sent on each ingest
port, whether its release has begun and quarantine; whether its stream state has been read and written and, on a standby, its index
write windows have begun; for twins whether its SET was shipped, its TAGS sent and compared, its failed checks with the count of the
next one, and the partner's TAGS. -/
structure WindowRec where
  index : Nat
  openAt : Nat
  closeAt : Nat
  opened : Mark
  closed : Mark
  closeNominal : Nat
  root : List Byte
  epoch : Nat
  slots : List SlotRec
  refusals : List (Request × Nat)
  frames : List Nat
  released : Bool
  quarantined : Bool
  setShipped : Bool
  tagsSent : Bool
  compared : Bool
  checks : Nat
  recheck : Option Nat
  theirs : Option (List Byte)
  stateRead : Bool
  stateWritten : Bool
  indexed : Bool
deriving DecidableEq, Repr

/-- Intake of one context (R247 to R252): the open window, its opening count and the one before, requests stamped and not yet
candidates, requests carried, windows sealed and not fully released, keys admitted with their window, whether intake has closed and
the step boundary at which it closes, the nominal time of the open window's start, and whether the context only stands by for its
twin. -/
structure IntakeRun where
  window : Nat
  openAt : Nat
  mark : Mark
  prevOpen : Nat
  open_ : Bool
  closed : Bool
  closeFrom : Option Nat
  arrivals : List Request
  carried : List Request
  windows : List WindowRec
  pins : List (Nat × Nat)
  openNominal : Nat
  standby : Bool
deriving DecidableEq, Repr

/-- One index entry of the Stream Context Table (R254). -/
structure IndexEntry where
  key : Nat
  created : Nat
deriving DecidableEq, Repr

/-- What the partition of a context would be without the batch that its index windows resolved last, but for the clears of
STATE_LOST (R256): the batch's window, the addresses of what it changes, the buckets and stash images that those clears write, the
stash, and the number of valid entries. -/
structure BeforeBatch where
  window : Nat
  touched : List Nat
  clears : Tab (List Byte)
  stash : Tab IndexEntry
  valid : Nat
deriving DecidableEq, Repr

/-- Intake and the Stream Context Table beyond their registers: runs and stashes by context, own frame counters, addresses
of the buckets in the index cache (R258), buckets read by the index windows of the batch in resolution with their bytes
(none where unreadable), buckets and stash images changed by it and not yet written, by local address, what undoes a
batch that is quarantined before they are (R256), and what the windows of the batch in hand give to ship at the end of the last of them,
INDEX under twice the context and STATE one above (R354). -/
structure Itk where
  runs : Tab IntakeRun
  frameSeq : List Nat
  stash : Tab (Tab IndexEntry)
  cache : List Nat
  buckets : Tab (Option (List Byte))
  dirty : Tab (List Byte)
  before : Tab BeforeBatch
  shipping : Tab (List (Nat × List Byte))
deriving DecidableEq, Repr

/-- A foreign master heard on an ingest port (R243): its clock, its data set as a number, the lower the better, its Announce interval
as log₂ in eighths of a second, and the counts of its last Announce and of the one before. -/
structure Foreign where
  clock : Nat
  quality : Nat
  interval : Nat
  last : Nat
  before : Option Nat
deriving DecidableEq, Repr

/-- One ingest port's PTP clock beyond its registers (R243 to R245): consecutive Syncs within LOCK_NS, the foreign masters heard and
whether one is selected, the sequence of delay requests, when the last one left, its stamp and sequence, a Sync awaiting its
Follow_Up, a peer's answer awaiting its Follow_Up, the last Sync times, and the selected master's last Announce. -/
structure PtpPort where
  good : Nat
  masters : List Foreign
  chosen : Bool
  seq : Nat
  sentAt : Option Nat
  reqAt : Option (Nat × Int)
  twoStep : Option (Nat × Int × Int)
  peer : Option (Nat × Int × Int)
  lastSync : Option (Int × Int)
  announced : Nat × Nat
deriving DecidableEq, Repr

/-- A PTP clock as a haul-plane reset leaves it. -/
def PtpPort.reset : PtpPort :=
  { good := 0, masters := [], chosen := false, seq := 0, sentAt := none, reqAt := none, twoStep := none, peer := none
    lastSync := none, announced := (0, 0) }

/-! ## Twin pairs (13_twin_pairs.md) -/

/-- An item arriving from the partner (R351): kind, context, window, its number of blocks, those that have arrived by index,
and for a SET what its descriptors read as. -/
structure TwinItem where
  kind : Nat
  ctx : Nat
  window : Nat
  count : Nat
  blocks : Tab (List Byte)
  cells : List CellReading
deriving DecidableEq, Repr

/-- An item sent to the partner. -/
structure ShippedItem where
  kind : Nat
  ctx : Nat
  window : Nat
  payload : List Byte
deriving DecidableEq, Repr

/-- The TWN block beyond its registers: items arriving and complete, items sent that may still be lost, one more than the last
window of which an item of a kind arrived, under 16 times the kind more than the context, and by context one more than the last
window whose SET was held whole, the window from which it is the active one after a takeover, the last window acknowledged, the next
window whose INDEX and STATE the standby applies and the windows whose state write windows have ended; the count of a takeover, and
whether the partner is lost. -/
structure Twn where
  items : List TwinItem
  shipped : List ShippedItem
  seen : Tab Nat
  lastSet : Tab Nat
  takenFrom : Tab Nat
  acked : Tab Nat
  nextIndex : Tab Nat
  nextState : Tab Nat
  due : Tab Nat
  takeoverAt : Option Nat
  lost : Bool
deriving DecidableEq, Repr

/-- A request that waits for the answer of another module (R377, R378): the module for a request by service packet, none for a
DISCOVERY packet; the REQ_ID or TOKEN it waits for, and the session, its REQ_ID and the OP to answer. -/
structure Awaited where
  module : Option Nat
  key : Nat
  session : Nat
  reqId : Nat
  op : Nat
deriving DecidableEq, Repr

/-- The Forester's own stores (R362, R366, R376, R377, R393): whether its firmware, or its recovery, runs; whether the management
port has link and an address; FCP sessions by number with whether they are an Auditor's and their anchor (4: none), those that
export, what is held for export; answers awaited; bytes of each shard put, keyed 64 × shard + 4 × context + source entry; and
the digest of the foreman firmware loaded. -/
structure Forester where
  booted : Bool
  mgmtUp : Bool
  address : Bool
  sessions : Tab (Bool × Nat)
  exporting : Tab Nat
  exports : List ExportItem
  awaited : List Awaited
  puts : Tab Nat
  foreman : List Byte
deriving DecidableEq, Repr

/-- A Forester before its boot. -/
def Forester.reset : Forester :=
  { booted := false, mgmtUp := false, address := false, sessions := [], exporting := [], exports := [], awaited := [], puts := []
    foreman := [] }

/-! ## Working Plan (06_working_plan.md) -/

/-- One context of the active plan as it runs (R166, R167): its own step index and start, the hold ticks taken in its
step, whether it issues work, whether its steps last S + X, the drain steps left once its intake has closed, and the
replay attempt of its step. -/
structure CtxRun where
  step : Nat
  start : Nat
  mark : Mark
  holds : Nat
  running : Bool
  extended : Bool
  drain : Option Nat
  attempt : Nat
deriving DecidableEq, Repr

/-- The PLN block beyond its registers. -/
structure Pln where
  active : Option Plan
  staged : Option Plan
  /-- An activation is armed, and its count as armed; its load phase has begun; the last activation failed. -/
  armed : Bool
  actAt : Nat
  loading : Bool
  failed : Bool
  /-- A stop of the active plan is armed, its count as armed, and the drain has begun. -/
  stopArmed : Bool
  stopAt : Nat
  draining : Bool
  /-- Context restarts armed, with their counts. -/
  restarts : Tab Nat
  ctxs : Tab CtxRun
  /-- Nominal time at which the ramp-down began (R161, R433). -/
  rampDown : Option Nat
  /-- An abort waits for the next beat boundary (R162), or for the point of a split (R374); and contexts whose reset waits
  for the next beat boundary (R167). -/
  aborting : Bool
  abortAt : Option Nat
  resetting : List Nat
deriving DecidableEq, Repr

/-! ## Benches (03_bench_arithmetic.md, 06_working_plan.md) -/

/-- One grain in an accumulator: on the exact path its 96 bits and flags (R71, R72), on the ordered path its FP32 pair
(R74, R76); absent while no element has entered it. -/
structure Grain where
  present : Bool
  bits : Nat
  nan : Bool
  pinf : Bool
  ninf : Bool
  hi : Nat
  lo : Nat
deriving DecidableEq, Repr

/-- What a sequencer that is not issuing waits for (R173): nothing, a beat or a step boundary, K of a fork with its TARGET,
a completion counter with the value it must reach, or a crossing whose flit is absent or that is full (R44). -/
inductive Waiting where
  | no
  | beat
  | step
  | fork (n target : Nat)
  | counter (i n : Nat)
  | crossing (key : Nat)
deriving DecidableEq, Repr

/-- A backfill span that a bench runs (R117): the nominal time at which its whole units end, the completion counter with its value on which
the home program waits, none in a span of a fork, and the address at which the home program goes on. -/
structure Span where
  until_ : Nat
  counter : Option (Nat × Nat)
  back : Nat
deriving DecidableEq, Repr

/-- What a place of a bench held before an operation wrote it: a lane of a vector register by 128 × register + lane, a predicate
register, a grain by 2 × accumulator + half, or a byte of the store by its local address. -/
inductive Prior where
  | lane (k v : Nat)
  | pred (p v : Nat)
  | grain (k : Nat) (g : Grain)
  | byte (a : Nat) (v : Byte)
deriving DecidableEq, Repr

/-- The results of an operation that has issued (R168): the cycle from which on a bundle that issues sees them, and what the places
that it wrote held before, the place written last first. -/
structure Flight where
  due : Nat
  prior : List Prior
deriving DecidableEq, Repr

/-- A bench beyond its registers and its store (03_bench_arithmetic.md, 06_working_plan.md R168 to R175). -/
structure Bench where
  /-- Vector registers, by 128 × register + lane (R168, R170). -/
  vregs : Tab Nat
  /-- Predicate registers; one without an entry has every bit set (R168, R170). -/
  preds : Tab Nat
  /-- Grains of the 512 accumulators, by 2 × accumulator + half (R93). -/
  grains : Tab Grain
  /-- The next block of each pass over a strip, by 64 × DESC + ACC (R95). -/
  pass : Tab Nat
  /-- Loop counters (R173). -/
  loops : Tab Nat
  /-- Completion counters (R173). -/
  counters : Tab Nat
  /-- The operation table (R174). -/
  table : Tab Nat
  /-- Bundle memory, by byte address (R168, R175). -/
  code : Tab Byte
  /-- The count at which the refill of each page under refill is complete (R175). -/
  refills : Tab Nat
  /-- The buffers bound by MRCV, by mesh route (R171). -/
  bound : Tab Nat
  /-- The data handed over by MSND, by mesh route (R171). -/
  handed : Tab (List Byte)
  /-- The spans of the store in which a void slot was received (R108). -/
  voids : List (Nat × Nat)
  /-- The address of the next bundle (R168). -/
  next : Nat
  /-- The slots of the bundle at BCH_SEQ_STATUS.PC that have not issued, 0 the matrix to 4 the control slot (R168). -/
  slots : List Nat
  /-- The cycle of the bundle that issued last, counted from where its sequencer last went on (R168). -/
  cycle : Nat
  /-- The results of operations that later bundles may not see yet, the operation that issued last first (R168). -/
  flights : List Flight
  /-- Nominal position at which the beat ends whose work its sequencer issues (R46). -/
  beatEnd : Nat
  /-- The beat boundaries that the sequencer is behind, since the work of their beats had not been done (R47). -/
  behind : Nat
  /-- What the sequencer waits for (R173). -/
  wait : Waiting
  /-- The fork of a BKFL with its TARGET and the address at which J continues (R117). -/
  backfill : Option (Nat × Nat × Nat)
  /-- Where the guest's next unit begins (R117). -/
  guestAt : Option Nat
  /-- The backfill span that runs (R117). -/
  span : Option Span
deriving DecidableEq, Repr

/-- A bench before a plan loads it. -/
def Bench.reset : Bench :=
  { vregs := [], preds := [], grains := [], pass := [], loops := [], counters := [], table := [], code := [], refills := [], bound := []
    handed := [], voids := [], next := 0, slots := [], cycle := 0, flights := []
    beatEnd := 0, behind := 0, wait := .no, backfill := none, guestAt := none, span := none }

/-- The sequencer of a bench goes on at a bundle address. -/
def Bench.goTo (x : Bench) (a : Nat) : Bench := { x with next := a % 4096, slots := [] }

/-! ## Forks (04_sparsity_and_forks.md) -/

/-- A fork in its context's present step (R112, R119): the decision word held, holds requested, the hold ticks that the step had
taken at the last failed check, whether it has committed and ended, and the copies sent. -/
structure ForkRun where
  word : Option Nat
  holds : Nat
  recheck : Option Nat
  committed : Bool
  ended : Bool
  sent : Nat
deriving DecidableEq, Repr

/-- The FRK block beyond its registers: forks of the present step, capacity slots filled and overflowed in it by group, and in the
last complete step (R120), and contexts that have recorded an invalid nibble in it (R97). -/
structure Frk where
  forks : Tab ForkRun
  filled : Tab Nat
  overflow : Tab Nat
  lastFilled : Tab Nat
  lastOverflow : Tab Nat
  metaErr : List Nat
deriving DecidableEq, Repr

/-! ## Memory controllers (07_memory_tiers.md) -/

/-- A gather window bound by GWIN (R199): list address in bench store, beats it is late, the list and the records of a write window as
read in beat START, whether its accesses have run, what they give to bench store (bytes by their offset from the records' address),
whether they have ended early, the ticks of the steps that have ended since its START, and for a window of the Stream Context Table
engine the batch that it serves. What such a window has to ship once it ends (R354) stands in `out` by window. -/
structure Gather where
  addr : Nat
  late : Nat
  list : Option (List Nat)
  records : List Byte
  moved : Bool
  out : List (Nat × List Byte)
  early : Bool
  shift : Nat
  batch : Option Nat
deriving DecidableEq, Repr

/-- Data on their way between an I/O region and a bench or another I/O region, through the asynchronous queue between them (R42 to R44,
R193). -/
structure Delivery where
  /-- The context whose plan moves them, and whether their time stands still with its positions. -/
  ctx : Nat
  held : Bool
  /-- The regions that write and read the queue. -/
  writer : Nat
  reader : Nat
  /-- Their flits of 512 bits, and the nominal ticks over which these enter. -/
  flits : Nat
  span : Nat
  /-- Nominal ticks gone since the first of these. -/
  ticks : Nat
  /-- Flits that have entered, and of them those that entered in each of the last ticks and have not been released, newest first. -/
  into : Nat
  inside : List Nat
  /-- Ticks of the route still to go once every flit has been released. -/
  after : Nat
  /-- The physical bench at the bench's end of the route, where it has one. -/
  bench : Option Nat
  /-- The local address that the bytes go to; none where the passage of the flits alone counts. -/
  addr : Nat
  bytes : List Byte
  /-- The completion counter of the bench that rises with them, and the SEND entry whose payload is in the port's hands with them. -/
  counter : Option Nat
  send : Option Nat
deriving DecidableEq, Repr

/-- What a service access does (R196, R222): a read, a write of bytes, or the copy of a context's shard to an address. -/
inductive JobKind where
  | read
  | write (data : List Byte)
  | copy (dst ctx shard : Nat) (repair : Bool)
deriving DecidableEq, Repr

/-- A service access that takes the positions that scripts and windows leave free, beat by beat (R196): its address and length, what
the codes say of its reads, the bytes done, those read, whether a burst was lost, and the requester with its REQ_ID where it came over
FCP. -/
structure ServiceJob where
  kind : JobKind
  addr : Nat
  length : Nat
  ecc : MemEcc
  done : Nat
  got : List Byte
  lost : Bool
  asks : Option (Nat × Nat)
deriving DecidableEq, Repr

/-- The memory controllers beyond their registers (07_memory_tiers.md). -/
structure Scr where
  /-- Gather windows, by 256 × bench + ID (R199). -/
  windows : Tab Gather
  /-- The windows that have started in the present step (R199). -/
  started : List Nat
  /-- The list addresses of windows bound ahead for the next step (R199). -/
  ahead : Tab Nat
  /-- The list addresses of windows bound ahead that have started in this step (R199). -/
  usedAhead : Tab Nat
  /-- Script entries read early whose own beats have not come (R202). -/
  prefetched : List Nat
  /-- Script entries read early whose own beats run (R202). -/
  reading : List Nat
  /-- The bursts of those entries that are not read yet (R202). -/
  unread : List (Nat × Nat)
  /-- The bursts of those entries that have been discarded since (R202). -/
  discarded : List (Nat × Nat)
  /-- Data on their way between I/O regions and benches (R42, R193), the oldest first. -/
  queue : List Delivery
  /-- Entries whose controller stood still at their first beat, with the beats they are late (R50). -/
  missed : Tab Nat
  /-- Service accesses under way (R196). -/
  jobs : List ServiceJob
  /-- The data positions taken in this beat (R191, R196). -/
  served : Tab Nat
  /-- The maintenance positions taken in this beat (R191, R203). -/
  upkeep : Tab Nat
  /-- The refreshes that wait for a maintenance position, by stack or 20 + channel (R203). -/
  refreshes : List Nat
  /-- The refresh management commands that wait for one, and the recalibrations (R203). -/
  managements : List Nat
  recalibrations : List Nat
  /-- Corrected bursts that wait to be written back (R207). -/
  writeBacks : List Nat
  /-- What the codes say of the reads of this beat whose commands carry no codes of their own (R88, R206). -/
  ecc : MemEcc
  /-- Units at or above TEMP_WARN, by stack or 32 + channel (R204). -/
  warned : List Nat
  /-- The scrub passes (R88, R209): units of a pass read, and the count at which it began, by controller 0 to 20 and by 32 + bench. -/
  scrub : Tab (Nat × Nat)
  /-- Whether the plan stage accepts service accesses (R411). -/
  stageReady : Bool
deriving DecidableEq, Repr

/-! ## Weights (08_weights.md) -/

/-- What a load bound to a bank (R219 to R222): its root and image length, sources as KIND, BASE and READY, expected
digests by shard, and the digest of the binding block. -/
structure Bound where
  root : List Byte
  length : Nat
  sources : List (Nat × Nat × Nat)
  digests : Tab (List Byte)
  binding : List Byte
deriving DecidableEq, Repr

/-- A load in progress (R220, R222): target, what it binds, the attempt of each shard under way with the count at which it began,
the shards that arrived, and the count at which the load began. -/
structure Load where
  target : Nat
  bound : Bound
  attempts : Tab (Nat × Nat)
  done : List Nat
  began : Nat
deriving DecidableEq, Repr

/-- A sweep of a bank (R231): the shards left, the epoch in force when it began, the counts at which it and the hash of its next
shard began, and whether it has been noted as behind. -/
structure Sweep where
  left : List Nat
  epoch : Nat
  began : Nat
  shardAt : Nat
  behind : Bool
deriving DecidableEq, Repr

/-- The weights of one context beyond its registers: what the active bank, the landing and the old bank are bound to, the
load in progress, the sweeps, whether the epoch rises at the next batch boundary, the batch of an armed swap, shards under
repair with their attempts, the first and the last epoch of the old bank, and whether the landing was loaded after the last
quarantine. -/
structure WgtCtx where
  active : Option Bound
  landing : Option Bound
  old : Option Bound
  load : Option Load
  sweep : Option Sweep
  landSweep : Option Sweep
  closing : Option Sweep
  rise : Bool
  swapAt : Nat
  repairs : Tab (Nat × Nat)
  oldSince : Nat
  oldEpoch : Nat
  landFresh : Bool
deriving DecidableEq, Repr

/-- A context without weights. -/
def WgtCtx.reset : WgtCtx :=
  { active := none, landing := none, old := none, load := none, sweep := none, landSweep := none, closing := none
    rise := false, swapAt := 0, repairs := [], oldSince := 0, oldEpoch := 0
    landFresh := false }

/-- What an undone swap puts back (R374): the weights of the context, its STATE and its quarantine before it. -/
structure BeforeSwap where
  weights : WgtCtx
  state : Nat
  quarantine : Option Nat
deriving DecidableEq, Repr

/-- The WGT block beyond its registers: contexts quarantined, with the first batch quarantined (R232, R233), each context's weights,
the first epoch of the weights in each active bank, the runs of epochs confirmed or declared bad above one that is neither (R232), and
what stood before the last swap of each context (R374). -/
structure Wgt where
  quarantine : Tab Nat
  ctxs : Tab WgtCtx
  since : Tab Nat
  settled : Tab (List (Nat × Nat))
  before : Tab BeforeSwap
deriving DecidableEq, Repr


/-! ## Haul ports (10_haul_links.md) -/

/-- A lane exchange in progress on the receive side: logical lane, the physical lane it leaves and the one it goes to,
and whether the switch is a rotation step and whether the copy is known to run (R286, R288). -/
structure LaneOp where
  logical : Nat
  src : Nat
  dst : Nat
  ready : Bool
deriving DecidableEq, Repr

/-- Counts from which a port's times run (10_haul_links.md R275 to R290): its training state was entered, A advanced or a block
became the first one unacknowledged, the replay timer was started, a valid ACK was sent, a NAK was sent, the failure swap began, its
last SWAP_REQ left, a rotation step began, a calibration began, the last ECHO_REQ left; the multiple of MARKER_TICKS last served, and
the last test of each Failed lane. -/
structure PortTimers where
  state : Nat
  advance : Nat
  replay : Nat
  ack : Nat
  nak : Nat
  swap : Nat
  swapReq : Nat
  rot : Nat
  calib : Nat
  echo : Nat
  marker : Nat
  retest : Tab Nat
deriving DecidableEq, Repr

/-- One haul port beyond its registers. -/
structure HaulPort where
  /-- Consecutive training failures (R280). -/
  fails : Nat
  timers : PortTimers
  /-- Physical lanes locked in the receive direction, and those whose lock is lost now with the count at which it was. -/
  lanes : List Nat
  lost : Tab Nat
  /-- Count at which symbol lock was lost (R290, R310). -/
  lostAt : Nat
  /-- Alignment span offered, ps (R282). -/
  alignOffer : Nat
  /-- Consecutive valid ANNOUNCE blocks received, whether SEEN has been sent and received, and the partner's last ANNOUNCE (R281). -/
  announces : Nat
  seenSent : Bool
  seenGot : Bool
  partner : Option Announce
  /-- ECHO_REQ blocks sent and loop-delay samples taken, in 2⁻³² tick (R283). -/
  echoSent : Nat
  samples : List Int
  /-- Unacknowledged blocks, oldest first, and whether a replay is sending them (R273, R276). -/
  buffer : List LinkBlock
  replaying : Bool
  /-- A NAK has been sent and block E has not been accepted since (R276). -/
  nakOpen : Bool
  /-- ACK and count of the last NAK acted on (R276). -/
  nakActed : Option (Nat × Nat)
  /-- Doublings of the replay timer (R277). -/
  doubling : Nat
  /-- FREED values last accepted from the partner, and the buffers freed here, modulo 1,024 (R279). -/
  freedIn0 : Nat
  freedIn1 : Nat
  freedOut0 : Nat
  freedOut1 : Nat
  /-- Service blocks of an incomplete packet for this module received on each virtual channel, and blocks still to come of one that is
  discarded (R320, R322). -/
  rx0 : List (List Byte)
  rx1 : List (List Byte)
  skip0 : Nat
  skip1 : Nat
  /-- Data of SCHED blocks whose departure waits for a replay or the window, and a MARKER and the ACK of a duplicate that wait for a
  replay (R272, R274). -/
  waitSched : List (List Byte)
  waitMarker : Bool
  waitAck : Bool
  /-- The last uncorrectable codeword counted on each lane (R267). -/
  badWords : Tab Nat
  /-- The receiver's operation counter, the partner's last one seen since the link came up, the failure swap and the rotation step in
  progress (R286, R288). -/
  opId : Nat
  opSeen : Option Nat
  swap : Option LaneOp
  rot : Option LaneOp
  /-- The transmit-side copy of a rotation, and the lane that sends a calibration pattern. -/
  copyTx : Option LaneOp
  /-- The SWAP_DONE sent for a failure swap, with the counts of its first and its last copies (R286). -/
  done : Option (LaneMsg × Nat × Nat)
  patternTx : Option Nat
  /-- The lane in calibration, and the lane last rotated. -/
  calib : Option Nat
  lastRot : Nat
  /-- The virtual channel that the last service packet took (R322). -/
  lastVc : Nat
deriving DecidableEq, Repr

/-- A port's times before any has begun. -/
def PortTimers.reset : PortTimers :=
  { state := 0, advance := 0, replay := 0, ack := 0, nak := 0, swap := 0, swapReq := 0, rot := 0, calib := 0, echo := 0, marker := 0, retest := [] }

/-- A port as a haul-plane reset leaves it. -/
def HaulPort.reset : HaulPort :=
  { fails := 0, timers := PortTimers.reset, lanes := [], lost := [], lostAt := 0, alignOffer := 0, announces := 0, seenSent := false, seenGot := false, partner := none
    echoSent := 0, samples := [], buffer := [], replaying := false, nakOpen := false, nakActed := none, doubling := 0
    freedIn0 := 0, freedIn1 := 0, freedOut0 := 0, freedOut1 := 0, rx0 := [], rx1 := [], skip0 := 0, skip1 := 0, waitSched := [], waitMarker := false, waitAck := false, badWords := []
    opId := 0, opSeen := none, done := none, swap := none, rot := none, copyTx := none, patternTx := none, calib := none, lastRot := 8, lastVc := 1 }

/-! ## The fabric (11_scheduled_fabric.md) -/

/-- A hold in progress (R314): it began at `start` and ends at `stop`. -/
structure HoldRun where
  start : Nat
  stop : Nat
  quanta : Nat
  cause : Nat
deriving DecidableEq, Repr

/-- Requests latched for one hold point: the largest n and its cause (R312). -/
structure HoldPoint where
  point : Nat
  quanta : Nat
  cause : Nat
deriving DecidableEq, Repr

/-- A replay notice latched (R316). -/
structure ReplayNotice where
  point : Nat
  mask : Nat
  attempt : Nat
  step : Nat
  code : Nat
deriving DecidableEq, Repr

/-- Phase of a replay span: its gap, or the re-run (R316). -/
inductive ReplayPhase where
  | gap | rerun
deriving DecidableEq, Repr

/-- A replay span in progress (R316): the count at which it began, mask, attempt, the nominal position at its start up
to which the step re-runs, the count at which its gap ends, its phase, the count at which the re-run began, and the ticks
of holds taken during the re-run. -/
structure ReplayRun where
  start : Nat
  mask : Nat
  attempt : Nat
  target : Nat
  gapEnd : Nat
  phase : ReplayPhase
  rerunStart : Nat
  holds : Nat
deriving DecidableEq, Repr

/-- One job of this module: the hold tree, tables and step count of a plan, kept by the haul plane for the active
plan and for each forwarding load (R311, R326, R345). -/
structure Job where
  /-- Bytes 0 to 7 of the PLAN_ID. -/
  plan : Nat
  q : Nat
  lead : Nat
  stepLen : Nat
  sched : HaulSchedule
  /-- Modules named in the arrangement descriptor. -/
  modules : Nat
  step : Nat
  stepStart : Nat
  /-- Hold ticks taken in the present step. -/
  stepHolds : Nat
  /-- Hold ticks taken since activation. -/
  holds : Nat
  points : List HoldPoint
  hold : Option HoldRun
  /-- The count at which the last hold ended (R312). -/
  holdEnd : Nat
  notice : Option ReplayNotice
  replay : Option ReplayRun
  attempt : Nat
  /-- Keys of the FWD entries that have begun departing in the present step (R314). -/
  begun : List Nat
deriving DecidableEq, Repr

/-- Reception state of a RECV entry in the current step (R305): the bits set, the address bound by HGET, failed
checks, and whether the entry is complete. -/
structure RecvState where
  got : List Nat
  bound : Option Nat
  done : Bool
  fails : Nat
  recheck : Option Nat
deriving DecidableEq, Repr

/-- State of a SEND entry in the current step: payload address handed over by HPUT, or the void header of HVOD, or the fork decision
message that it carries (R106, R111); whether its departure waits for the payload; whether the payload has crossed from the bench to
the port (R42); whether it began departing; the path in use; whether its blocks wait for free block times of a detour or a resend;
and whether no path was open (R302, R310). -/
structure SendState where
  payload : Option Nat
  void : Option (List Byte)
  decision : Option (List Byte)
  late : Bool
  crossed : Bool
  sent : Bool
  path : Nat
  resend : Bool
  noPath : Bool
deriving DecidableEq, Repr

/-- A scheduled block of the job in `slot` held in a port's receive buffer (R303, R304), and whether it has waited for the share of its
lease (R343). -/
structure HeldBlock where
  port : Nat
  slot : Nat
  data : SchedData
  waited : Bool
deriving DecidableEq, Repr

/-- A block of a SEND entry of a context that waits on an out port for the share of its lease (R343). -/
structure LeasedBlock where
  port : Nat
  ctx : Nat
  data : List Byte
deriving DecidableEq, Repr

/-- A service packet waiting at an out port: its channel, whether it is in transit, the in port and channel whose buffers hold it (R279),
its blocks in all, the data of those that wait, those that have still to come, and whether its first block has departed (R322). -/
structure WaitingPkt where
  port : Nat
  vc : Nat
  transit : Bool
  src : Option (Nat × Nat)
  express : Bool
  blocks : Nat
  data : List (List Byte)
  left : Nat
  begun : Bool
deriving DecidableEq, Repr

/-- Telemetry of one port in the present period (R324). -/
structure PortTelem where
  maxDepth : List Nat
  throttled : List Nat
  depthHist : List (List Nat)
  misses : Nat
  completed : Nat
  minSlack : Int
  detoured : Nat
  holds : Nat
  slackHist : List Nat
deriving DecidableEq, Repr

/-- The SCH block beyond its registers. `jobs` is keyed by forwarding slot 0 to 6, and 7 for the active plan. -/
structure Sch where
  jobs : Tab Job
  recv : Tab RecvState
  sends : Tab SendState
  held : List HeldBlock
  /-- Routes named broken by ROUTE_DOWN notices (R310), and ports that carry no traffic of the active plan for their partner (R337). -/
  broken : List Nat
  barred : List Nat
  waiting : List WaitingPkt
  throttled : Bool
  /-- Tally count of the last local injection at each port while throttled (R323). -/
  lastInject : Tab Nat
  packetSeq : Nat
  telem : Tab PortTelem
  telemFrom : Nat
  /-- Contexts whose timed releases are withheld (R317). -/
  withheld : List Nat
  /-- Service drops: TIME packets discarded for a reserved OP (R58), which no register counts. -/
  drops : Nat
  /-- RESTORE_ARM is armed for this count (R309). -/
  restoreAt : Option Nat
  /-- Scheduled blocks departed in the tick `shareTick`, one entry 8 × port + lease each (R343). -/
  shareTick : Nat
  shareUsed : List Nat
  leased : List LeasedBlock
deriving DecidableEq, Repr
/-! ## Topology and two-phase changes (12_topology.md, 14_forester_and_control.md) -/

/-- A forwarding load in its slot (R344): the plan's items, the count armed, and once unloaded the job as it ran. -/
structure FwdLoad where
  plan : Plan
  armedAt : Nat
  job : Option Job
deriving DecidableEq, Repr

/-- The TOP block beyond its registers: forwarding loads by slot and those last unloaded from it (R344, R374), RETURN of the
last accepted ASSIGN and the port it came in on (R340), and the service routes written so far. -/
structure Top where
  loads : Tab FwdLoad
  unloaded : Tab FwdLoad
  mgrRet : List Nat
  mgrPort : Nat
  routesDone : List Nat
deriving DecidableEq, Repr

/-- A two-phase change bound here (R370 to R374): the identity of R371, the plan it names and that plan's hold tree, T
and the count shown, the state of OLC_CHANGE, the votes and refusals counted at the root, the point of a split latched
and its reason, what undoing it restores, and whether it has been undone. -/
structure Change where
  id : Nat
  kind : Nat
  ctx : Nat
  plan : Nat
  root : Nat
  neighbours : List Nat
  participants : Nat
  lead : Nat
  at_ : Nat
  effect : Nat
  state : Nat
  reason : Nat
  votes : Nat
  refusals : Nat
  point : Nat
  old : Nat
  counted : Bool
  undone : Bool
deriving DecidableEq, Repr

/-- The OLC block beyond its registers: changes newest first, contexts whose
spare extension is armed with its count (KIND 7), lanes failed in each direction (R364), and the kind and context of the changes that have
taken effect in the present tick (R369). -/
structure Olc where
  changes : List Change
  extArmed : Tab Nat
  applied : List (Nat × Nat)
  failedTx : List Nat
  failedRx : List Nat
deriving DecidableEq, Repr


/-! ## The state -/

/-- The module. -/
structure State where
  /-- Every register field, keyed by `Field.key`; an unlisted field holds its Reset column. -/
  csr : Tab Nat
  /-- Values written to Staged fields of running blocks and not yet in effect (R368). -/
  staged : Tab Nat
  /-- Local memory by byte address (R184): HBM, DDR tier, bench stores and Forester memory. -/
  mem : List Host.Cell
  pwr : Pwr
  clk : Clk
  tal : Tal
  ptp : PtpClock
  /-- The sixteen haul ports, P0 first. -/
  haul : List HaulPort
  sch : Sch
  pln : Pln
  top : Top
  olc : Olc
  gen : Gen
  wgt : Wgt
  /-- Benches by physical index. -/
  bench : Tab Bench
  frk : Frk
  scr : Scr
  itk : Itk
  /-- The PTP clocks of the two ingest ports. -/
  clocks : List PtpPort
  twn : Twn
  fst : Forester
  flt : Flt
  rrc : Rrc
  obs : Obs
  nv : Nv
  /-- The sticky bits that the module has set in the present tick, by their keys: a write of 1 in that tick does not clear them (R369). -/
  fired : List Nat
  /-- What the module has sent and answered, newest first. -/
  sent : List Emission
  /-- The model's own counter of free values drawn: no part of the module. -/
  fresh : Nat
  /-- Commands waiting, first in first out. -/
  pending : List Instr
deriving DecidableEq, Repr

/-- Why the machine stops with a fault. -/
inductive Fault where
  /-- A bench operation addresses bytes past the end of its 2 MiB bench store (R168 gives no such address). Raised by
  the bench operations that move more than one unit. Safe: the model stops where the manual gives nothing. -/
  | benchStoreEnd
deriving DecidableEq, Repr

/-- Why a command is refused. -/
inductive Refusal where
  /-- The command has no meaning in this model. Safe. -/
  | notModelled (mnemonic : String)
deriving DecidableEq, Repr

/-- What a command or a step answers. -/
abbrev Res := Host.Outcome State Fault Refusal

/-- The module right after module reset, before its standby section starts (R16, R26): every register field at its
Reset column (log entry 1 for the HW fields), memory without contents, nothing queued. -/
def State.reset : State where
  csr := []
  staged := []
  mem := []
  pwr := { standby := false, stage := .off, retries := 0, forester := false, holdupSwitch := false
           bandInhibit := false, sagCount := false, normalCount := false, shutdown := .none, throttleAt := 6800
           coolantOk := false, tapers := [], stoppedPower := [], ramps := [], floors := []
           switchStage := none, heldForks := [], endForks := [], fill := [], shares := [], inputGone := false, units := [], railsUp := 0, railRamp := false, dieOn := false, dieReset := true, energy := 0 }
  clk := { entered := [], droop := [], throttle := false, late := [], slipAsked := [], standbyLocked := false, fchgAt := 0
           fchgPoint := 0, fchgRegion := 0, fchgStop := false, switchBeat := false, relocks := [], neverLocked := []
           slipReports := [], stretchSeen := [], flits := [], stalled := [] }
  tal := { running := false, lastMarker := 0, trimAt := 0, alignNow := false, root := 0xFFFF, hops := 0xFF, rootPtp := false }
  ptp := { time := 0, running := false, past := [] }
  haul := List.replicate 16 HaulPort.reset
  sch := { jobs := [], recv := [], sends := [], held := [], broken := [], barred := [], waiting := [], throttled := false
           lastInject := [], packetSeq := 0, telem := [], telemFrom := 0, withheld := [], drops := 0, restoreAt := none
           shareTick := 0, shareUsed := [], leased := [] }
  pln := { active := none, staged := none, armed := false, actAt := 0, loading := false, failed := false
           stopArmed := false, stopAt := 0, draining := false, restarts := [], ctxs := [], rampDown := none
           aborting := false, abortAt := none, resetting := [] }
  top := { loads := [], unloaded := [], mgrRet := [], mgrPort := 0, routesDone := [] }
  olc := { changes := [], extArmed := [], applied := [], failedTx := [], failedRx := [] }
  gen := { spans := [], seqs := [], digests := [], closing := [], done := [], stepTags := [], dieItems := []
           holdStep := none, unsigned := [], modeFrom := none, modeAt := 0, modeStrict := true, modeNoPlan := false, subst := []
           failed := [], toReplace := [], retime := [] }
  wgt := { quarantine := [], ctxs := [], since := [], settled := [], before := [] }
  bench := []
  frk := { forks := [], filled := [], overflow := [], lastFilled := [], lastOverflow := [], metaErr := [] }
  scr := { windows := [], started := [], ahead := [], usedAhead := [], prefetched := [], reading := [], unread := [], discarded := [], queue := [], missed := []
           jobs := [], served := [], upkeep := [], refreshes := [], managements := [], recalibrations := [], writeBacks := [], ecc := ⟨[], [], []⟩, warned := [], scrub := []
           stageReady := false }
  itk := { runs := [], frameSeq := [0, 0], stash := [], cache := [], buckets := [], dirty := [], before := [], shipping := [] }
  clocks := List.replicate 2 PtpPort.reset
  twn := { items := [], shipped := [], seen := [], lastSet := [], takenFrom := [], acked := [], nextIndex := [], nextState := [], due := [], takeoverAt := none, lost := false }
  fst := Forester.reset
  flt := { primary := none, queue := [], seq := 0, arrived := none, benchErrs := [], benchStops := [] }
  rrc := { entries := [], firstRecord := true }
  obs := { trace := [], traceTick := 0, traceCount := [], traceAt := 0, snapAt := none, snapIn := (0, 0) }
  nv := { images := [⟨[], 0⟩, ⟨[], 0⟩], nextImage := 0, rollback := 0, owned := false
          claimDigest := [], serial := 0, keys := List.replicate 4 ⟨none, 0, false, 0⟩
          anchors := List.replicate 4 none, ownerSeq := 0, spill := [] }
  fired := []
  sent := []
  fresh := 0
  pending := []

end Sys2Proof.Machine
end

