-- ==== Sys2Proof/Machine/Regs.lean ====
section
/-! DEFINITION. The register tables of the manual, field by field: every field's CSR offset, bits, stride of its
array, Reset column, access code (R15) and field class (R368), and the list of registers by block (R367).
A field whose Reset column reads HW carries the value of log entry 1. -/

namespace Sys2Proof.Machine.R

open Sys2Proof.Machine


-- PWR_STATUS (01_module_envelope.md R38)
def PWR_STATUS_OV : Field := ⟨0x100000, 9, 1, 0, 0, .ro, .live⟩
def PWR_STATUS_PRECHARGE_DONE : Field := ⟨0x100000, 8, 1, 0, 0, .ro, .live⟩
def PWR_STATUS_THROTTLE : Field := ⟨0x100000, 7, 1, 0, 0, .ro, .live⟩
def PWR_STATUS_TAPER : Field := ⟨0x100000, 6, 1, 0, 0, .ro, .live⟩
def PWR_STATUS_FILL : Field := ⟨0x100000, 5, 1, 0, 0, .ro, .live⟩
def PWR_STATUS_HOLDUP_OK : Field := ⟨0x100000, 4, 1, 0, 0, .ro, .live⟩
def PWR_STATUS_NV_INHIBIT : Field := ⟨0x100000, 3, 1, 0, 0, .ro, .live⟩
def PWR_STATUS_BAND : Field := ⟨0x100000, 0, 3, 0, 0, .ro, .live⟩

-- PWR_VIN (01_module_envelope.md R38)
def PWR_VIN_MAX : Field := ⟨0x100008, 32, 16, 0, 0, .ro, .live⟩
def PWR_VIN_MIN : Field := ⟨0x100008, 16, 16, 0, 0, .ro, .live⟩
def PWR_VIN_NOW : Field := ⟨0x100008, 0, 16, 0, 0, .ro, .live⟩

-- PWR_IIN (01_module_envelope.md R38)
def PWR_IIN_SLEW_MAX : Field := ⟨0x100010, 48, 16, 0, 0, .ro, .live⟩
def PWR_IIN_PIN : Field := ⟨0x100010, 32, 16, 0, 0, .ro, .live⟩
def PWR_IIN_PEAK : Field := ⟨0x100010, 16, 16, 0, 0, .ro, .live⟩
def PWR_IIN_NOW : Field := ⟨0x100010, 0, 16, 0, 0, .ro, .live⟩

-- PWR_ENERGY (01_module_envelope.md R38)
def PWR_ENERGY_MJ : Field := ⟨0x100018, 0, 64, 0, 0, .ro, .live⟩

-- PWR_CTRL (01_module_envelope.md R38)
def PWR_CTRL_CLEAR_EXTREMES : Field := ⟨0x100020, 3, 1, 0, 0, .wo, .live⟩
def PWR_CTRL_SHUTDOWN : Field := ⟨0x100020, 2, 1, 0, 0, .wo, .live⟩
def PWR_CTRL_NV_INHIBIT : Field := ⟨0x100020, 1, 1, 0, 0, .rw, .live⟩
def PWR_CTRL_AUTO_RESTART : Field := ⟨0x100020, 0, 1, 0, 1, .rw, .live⟩

-- PWR_RAMP_BUDGET (01_module_envelope.md R38)
def PWR_RAMP_BUDGET_W_PER_MS : Field := ⟨0x100028, 0, 11, 0, 1800, .rw, .static⟩

-- PWR_TAPER (01_module_envelope.md R38)
def PWR_TAPER_EFF_STEP : Field := ⟨0x100030, 16, 16, 0, 3712, .ro, .live⟩
def PWR_TAPER_STEP_TICKS : Field := ⟨0x100030, 0, 16, 0, 3712, .rw, .staged⟩

-- PWR_FILL (01_module_envelope.md R38)
def PWR_FILL_LIMIT : Field := ⟨0x100038, 0, 16, 0, 4096, .rw, .staged⟩

-- PWR_EVENT (01_module_envelope.md R38)
def PWR_EVENT_COOLANT : Field := ⟨0x100040, 7, 1, 0, 0, .w1c, .live⟩
def PWR_EVENT_HOLDUP_FAULT : Field := ⟨0x100040, 6, 1, 0, 0, .w1c, .live⟩
def PWR_EVENT_WRITE_REFUSED : Field := ⟨0x100040, 5, 1, 0, 0, .w1c, .live⟩
def PWR_EVENT_TAPER_SEEN : Field := ⟨0x100040, 4, 1, 0, 0, .w1c, .live⟩
def PWR_EVENT_THROTTLE_SEEN : Field := ⟨0x100040, 3, 1, 0, 0, .w1c, .live⟩
def PWR_EVENT_SHUTDOWN_OV : Field := ⟨0x100040, 2, 1, 0, 0, .w1c, .live⟩
def PWR_EVENT_SHUTDOWN_SAG : Field := ⟨0x100040, 1, 1, 0, 0, .w1c, .live⟩
def PWR_EVENT_INHIBIT_SEEN : Field := ⟨0x100040, 0, 1, 0, 0, .w1c, .live⟩

-- PWR_COUNT (01_module_envelope.md R38)
def PWR_COUNT_THROTTLE : Field := ⟨0x100048, 48, 16, 0, 0, .ro, .live⟩
def PWR_COUNT_TAPER : Field := ⟨0x100048, 32, 16, 0, 0, .ro, .live⟩
def PWR_COUNT_REFUSED : Field := ⟨0x100048, 16, 16, 0, 0, .ro, .live⟩
def PWR_COUNT_INHIBIT : Field := ⟨0x100048, 0, 16, 0, 0, .ro, .live⟩

-- PWR_HOLDUP (01_module_envelope.md R38)
def PWR_HOLDUP_TEST : Field := ⟨0x100050, 16, 1, 0, 0, .wo, .live⟩
def PWR_HOLDUP_MJ : Field := ⟨0x100050, 0, 16, 0, 0, .ro, .live⟩

-- PWR_PLAN_LEVEL (01_module_envelope.md R38)
def PWR_PLAN_LEVEL_W : Field := ⟨0x100058, 0, 16, 0, 0, .ro, .live⟩

-- CLK_RGN_STATUS (02_clocks_and_tally.md R61)
def CLK_RGN_STATUS_DEFICIT : Field := ⟨0x200000, 24, 16, 0x8, 0, .ro, .live⟩
def CLK_RGN_STATUS_STRETCH_BEAT : Field := ⟨0x200000, 16, 8, 0x8, 0, .ro, .live⟩
def CLK_RGN_STATUS_TT_MARGIN : Field := ⟨0x200000, 8, 8, 0x8, 0, .ro, .live⟩
def CLK_RGN_STATUS_STOPPED : Field := ⟨0x200000, 7, 1, 0x8, 0, .ro, .live⟩
def CLK_RGN_STATUS_TT_CRIT : Field := ⟨0x200000, 6, 1, 0x8, 0, .ro, .live⟩
def CLK_RGN_STATUS_TT_WARN : Field := ⟨0x200000, 5, 1, 0x8, 0, .ro, .live⟩
def CLK_RGN_STATUS_SLIP : Field := ⟨0x200000, 4, 1, 0x8, 0, .ro, .live⟩
def CLK_RGN_STATUS_STRETCHING : Field := ⟨0x200000, 3, 1, 0x8, 0, .ro, .live⟩
def CLK_RGN_STATUS_OP_POINT : Field := ⟨0x200000, 1, 2, 0x8, 0, .ro, .live⟩
def CLK_RGN_STATUS_LOCK : Field := ⟨0x200000, 0, 1, 0x8, 0, .ro, .live⟩

-- CLK_RGN_COUNT (02_clocks_and_tally.md R61)
def CLK_RGN_COUNT_STRETCHED : Field := ⟨0x200200, 32, 32, 0x8, 0, .ro, .live⟩
def CLK_RGN_COUNT_SLIPS : Field := ⟨0x200200, 16, 16, 0x8, 0, .ro, .live⟩
def CLK_RGN_COUNT_LATE : Field := ⟨0x200200, 0, 16, 0x8, 0, .ro, .live⟩

-- CLK_FCHG_CTRL (02_clocks_and_tally.md R61)
def CLK_FCHG_CTRL_REGION : Field := ⟨0x200600, 10, 6, 0, 0, .rw, .staged⟩
def CLK_FCHG_CTRL_OP_POINT : Field := ⟨0x200600, 8, 2, 0, 0, .rw, .staged⟩
def CLK_FCHG_CTRL_STATE : Field := ⟨0x200600, 4, 2, 0, 0, .ro, .live⟩
def CLK_FCHG_CTRL_KIND : Field := ⟨0x200600, 3, 1, 0, 0, .rw, .static⟩
def CLK_FCHG_CTRL_ARM : Field := ⟨0x200600, 1, 1, 0, 0, .wo, .live⟩
def CLK_FCHG_CTRL_DISARM : Field := ⟨0x200600, 0, 1, 0, 0, .wo, .live⟩

-- CLK_FCHG_AT (02_clocks_and_tally.md R61)
def CLK_FCHG_AT_AT : Field := ⟨0x200608, 0, 64, 0, 0, .rw, .staged⟩

-- CLK_TT_THRESH (02_clocks_and_tally.md R61)
def CLK_TT_THRESH_WARN : Field := ⟨0x200610, 8, 8, 0, 24, .rw, .live⟩
def CLK_TT_THRESH_CRIT : Field := ⟨0x200610, 0, 8, 0, 10, .rw, .live⟩

-- CLK_HOLD_REQ (02_clocks_and_tally.md R61)
def CLK_HOLD_REQ_QUANTA : Field := ⟨0x200618, 32, 16, 0, 0, .ro, .live⟩
def CLK_HOLD_REQ_COUNT : Field := ⟨0x200618, 0, 32, 0, 0, .ro, .live⟩

-- CLK_EVENT (02_clocks_and_tally.md R61)
def CLK_EVENT_FCHG_REFUSED : Field := ⟨0x200620, 5, 1, 0, 0, .w1c, .live⟩
def CLK_EVENT_LOCK_LOST : Field := ⟨0x200620, 4, 1, 0, 0, .w1c, .live⟩
def CLK_EVENT_LATE_ENTRY : Field := ⟨0x200620, 3, 1, 0, 0, .w1c, .live⟩
def CLK_EVENT_TT_CRIT : Field := ⟨0x200620, 2, 1, 0, 0, .w1c, .live⟩
def CLK_EVENT_TT_WARN : Field := ⟨0x200620, 1, 1, 0, 0, .w1c, .live⟩
def CLK_EVENT_SLIP : Field := ⟨0x200620, 0, 1, 0, 0, .w1c, .live⟩

-- TAL_NOW (02_clocks_and_tally.md R62)
def TAL_NOW_TICKS : Field := ⟨0x300000, 0, 64, 0, 0, .ro, .live⟩

-- TAL_FRAC (02_clocks_and_tally.md R62)
def TAL_FRAC_PHASE : Field := ⟨0x300008, 0, 32, 0, 0, .ro, .live⟩

-- TAL_STEP (02_clocks_and_tally.md R62)
def TAL_STEP_INDEX : Field := ⟨0x300010, 0, 64, 0, 0, .ro, .live⟩

-- TAL_STEP_POS (02_clocks_and_tally.md R62)
def TAL_STEP_POS_LEN : Field := ⟨0x300018, 32, 21, 0, 0, .ro, .static⟩
def TAL_STEP_POS_POS : Field := ⟨0x300018, 0, 21, 0, 0, .ro, .live⟩

-- TAL_STATUS (02_clocks_and_tally.md R62)
def TAL_STATUS_UPSTREAM : Field := ⟨0x300020, 12, 4, 0, 0, .ro, .live⟩
def TAL_STATUS_PTP_LOCKED : Field := ⟨0x300020, 11, 1, 0, 0, .ro, .live⟩
def TAL_STATUS_DIVERGED : Field := ⟨0x300020, 10, 1, 0, 0, .ro, .live⟩
def TAL_STATUS_HOLDOVER : Field := ⟨0x300020, 9, 1, 0, 0, .ro, .live⟩
def TAL_STATUS_ALIGNED : Field := ⟨0x300020, 8, 1, 0, 0, .ro, .live⟩
def TAL_STATUS_ROLE : Field := ⟨0x300020, 6, 2, 0, 2, .ro, .live⟩

-- TAL_OFFSET (02_clocks_and_tally.md R62)
def TAL_OFFSET_OFFSET : Field := ⟨0x300028, 0, 32, 0, 0, .ro, .live⟩

-- TAL_RATE (02_clocks_and_tally.md R62)
def TAL_RATE_TRIM : Field := ⟨0x300030, 0, 32, 0, 0, .ro, .live⟩

-- TAL_CTRL (02_clocks_and_tally.md R62)
def TAL_CTRL_ALIGN_NOW : Field := ⟨0x300038, 32, 1, 0, 0, .wo, .live⟩
def TAL_CTRL_LOSS_US : Field := ⟨0x300038, 16, 16, 0, 100, .rw, .live⟩
def TAL_CTRL_SLEW_PPM : Field := ⟨0x300038, 8, 8, 0, 50, .rw, .live⟩
def TAL_CTRL_PTP_FOLLOW : Field := ⟨0x300038, 2, 1, 0, 0, .rw, .static⟩
def TAL_CTRL_ROLE : Field := ⟨0x300038, 0, 2, 0, 2, .rw, .static⟩

-- TAL_ALIGN_LOG (02_clocks_and_tally.md R62)
def TAL_ALIGN_LOG_STEP : Field := ⟨0x300040, 0, 64, 0, 0, .ro, .live⟩

-- TAL_ALIGN_AT (02_clocks_and_tally.md R62)
def TAL_ALIGN_AT_AT : Field := ⟨0x300048, 0, 64, 0, 0, .ro, .live⟩

-- TAL_HOLDS (02_clocks_and_tally.md R62)
def TAL_HOLDS_TICKS : Field := ⟨0x300050, 32, 32, 0, 0, .ro, .live⟩
def TAL_HOLDS_COUNT : Field := ⟨0x300050, 0, 32, 0, 0, .ro, .live⟩

-- TAL_CAPTURE (02_clocks_and_tally.md R62)
def TAL_CAPTURE_CAPTURE : Field := ⟨0x300058, 0, 1, 0, 0, .wo, .live⟩

-- TAL_CAPTURE_VAL (02_clocks_and_tally.md R62)
def TAL_CAPTURE_VAL_TICKS : Field := ⟨0x300060, 0, 64, 0, 0, .ro, .live⟩

-- TAL_MAP_TALLY (02_clocks_and_tally.md R62)
def TAL_MAP_TALLY_TICKS : Field := ⟨0x300068, 0, 64, 0, 0, .ro, .live⟩

-- TAL_MAP_S (02_clocks_and_tally.md R62)
def TAL_MAP_S_ROOT : Field := ⟨0x300070, 48, 16, 0, 65535, .ro, .live⟩
def TAL_MAP_S_SECONDS : Field := ⟨0x300070, 0, 48, 0, 0, .ro, .live⟩

-- TAL_MAP_NS (02_clocks_and_tally.md R62)
def TAL_MAP_NS_FLAGS : Field := ⟨0x300078, 32, 8, 0, 0, .ro, .live⟩
def TAL_MAP_NS_NS : Field := ⟨0x300078, 0, 30, 0, 0, .ro, .live⟩

-- BCH_ID (03_bench_arithmetic.md R89)
def BCH_ID_FN_TABLE : Field := ⟨0x400000, 40, 8, 0x1000, 1, .ro, .static⟩
def BCH_ID_LOGICAL : Field := ⟨0x400000, 30, 10, 0x1000, 1023, .ro, .live⟩
def BCH_ID_SPARE : Field := ⟨0x400000, 19, 1, 0x1000, 0, .ro, .static⟩
def BCH_ID_FIELD : Field := ⟨0x400000, 16, 3, 0x1000, 0, .ro, .static⟩
def BCH_ID_REGION : Field := ⟨0x400000, 10, 6, 0x1000, 0, .ro, .static⟩
def BCH_ID_PHYS : Field := ⟨0x400000, 0, 10, 0x1000, 0, .ro, .static⟩

-- BCH_NUM_MODE (03_bench_arithmetic.md R89)
def BCH_NUM_MODE_TREE_USED : Field := ⟨0x400008, 18, 1, 0x1000, 0, .ro, .static⟩
def BCH_NUM_MODE_PAIR_USED : Field := ⟨0x400008, 17, 1, 0x1000, 0, .ro, .static⟩
def BCH_NUM_MODE_SR_USED : Field := ⟨0x400008, 16, 1, 0x1000, 0, .ro, .static⟩
def BCH_NUM_MODE_LEVEL : Field := ⟨0x400008, 8, 8, 0x1000, 0, .ro, .static⟩

-- BCH_NUM_EVENT (03_bench_arithmetic.md R89)
def BCH_NUM_EVENT_ECC_UNCORR : Field := ⟨0x400010, 5, 1, 0x1000, 0, .w1c, .live⟩
def BCH_NUM_EVENT_ECC_CORR : Field := ⟨0x400010, 4, 1, 0x1000, 0, .w1c, .live⟩
def BCH_NUM_EVENT_INT_SAT : Field := ⟨0x400010, 3, 1, 0x1000, 0, .w1c, .live⟩
def BCH_NUM_EVENT_NAN_DROP : Field := ⟨0x400010, 2, 1, 0x1000, 0, .w1c, .live⟩
def BCH_NUM_EVENT_FP_SAT : Field := ⟨0x400010, 1, 1, 0x1000, 0, .w1c, .live⟩
def BCH_NUM_EVENT_NAN_OUT : Field := ⟨0x400010, 0, 1, 0x1000, 0, .w1c, .live⟩

-- BCH_NUM_COUNT (03_bench_arithmetic.md R89)
def BCH_NUM_COUNT_NAN_DROP : Field := ⟨0x400018, 48, 16, 0x1000, 0, .ro, .live⟩
def BCH_NUM_COUNT_INT_SAT : Field := ⟨0x400018, 32, 16, 0x1000, 0, .ro, .live⟩
def BCH_NUM_COUNT_FP_SAT : Field := ⟨0x400018, 16, 16, 0x1000, 0, .ro, .live⟩
def BCH_NUM_COUNT_NAN_OUT : Field := ⟨0x400018, 0, 16, 0x1000, 0, .ro, .live⟩

-- BCH_SR_COUNT (03_bench_arithmetic.md R89)
def BCH_SR_COUNT_COUNT : Field := ⟨0x400020, 0, 64, 0x1000, 0, .ro, .live⟩

-- BCH_ECC_COUNT (03_bench_arithmetic.md R89)
def BCH_ECC_COUNT_UNCORR : Field := ⟨0x400028, 16, 16, 0x1000, 0, .ro, .live⟩
def BCH_ECC_COUNT_CORR : Field := ⟨0x400028, 0, 16, 0x1000, 0, .ro, .live⟩

-- BCH_ECC_ADDR (03_bench_arithmetic.md R89)
def BCH_ECC_ADDR_UNCORR : Field := ⟨0x400030, 21, 1, 0x1000, 0, .ro, .live⟩
def BCH_ECC_ADDR_ADDR : Field := ⟨0x400030, 0, 21, 0x1000, 0, .ro, .live⟩

-- BCH_SCRUB (03_bench_arithmetic.md R89)
def BCH_SCRUB_PASSES : Field := ⟨0x400038, 32, 32, 0x1000, 0, .ro, .live⟩
def BCH_SCRUB_LAST_PASS : Field := ⟨0x400038, 0, 32, 0x1000, 0, .ro, .live⟩

-- FRK_CTRL (04_sparsity_and_forks.md R120)
def FRK_CTRL_WATCH_GROUP : Field := ⟨0x800000, 16, 12, 0, 0, .rw, .live⟩
def FRK_CTRL_MAX_HOLDS : Field := ⟨0x800000, 0, 8, 0, 8, .rw, .static⟩

-- FRK_STATUS (04_sparsity_and_forks.md R120)
def FRK_STATUS_FORKS : Field := ⟨0x800008, 32, 13, 0, 0, .ro, .static⟩
def FRK_STATUS_GROUPS : Field := ⟨0x800008, 16, 13, 0, 0, .ro, .static⟩
def FRK_STATUS_PENDING : Field := ⟨0x800008, 0, 1, 0, 0, .ro, .live⟩

-- FRK_COUNT (04_sparsity_and_forks.md R120)
def FRK_COUNT_LATE : Field := ⟨0x800010, 48, 16, 0, 0, .ro, .live⟩
def FRK_COUNT_HOLDS : Field := ⟨0x800010, 32, 16, 0, 0, .ro, .live⟩
def FRK_COUNT_CLAMPED : Field := ⟨0x800010, 16, 16, 0, 0, .ro, .live⟩
def FRK_COUNT_STALE : Field := ⟨0x800010, 0, 16, 0, 0, .ro, .live⟩

-- FRK_EVENT (04_sparsity_and_forks.md R120)
def FRK_EVENT_NOT_ARMED : Field := ⟨0x800018, 6, 1, 0, 0, .w1c, .live⟩
def FRK_EVENT_META_ERR : Field := ⟨0x800018, 5, 1, 0, 0, .w1c, .live⟩
def FRK_EVENT_STALE : Field := ⟨0x800018, 4, 1, 0, 0, .w1c, .live⟩
def FRK_EVENT_CLAMPED : Field := ⟨0x800018, 3, 1, 0, 0, .w1c, .live⟩
def FRK_EVENT_DISAGREE : Field := ⟨0x800018, 2, 1, 0, 0, .w1c, .live⟩
def FRK_EVENT_LOST : Field := ⟨0x800018, 1, 1, 0, 0, .w1c, .live⟩
def FRK_EVENT_LATE : Field := ⟨0x800018, 0, 1, 0, 0, .w1c, .live⟩

-- FRK_VARIANT_COUNT (04_sparsity_and_forks.md R120)
def FRK_VARIANT_COUNT_COUNT : Field := ⟨0x800040, 0, 64, 0x8, 0, .ro, .live⟩

-- FRK_CAP_FILLED (04_sparsity_and_forks.md R120)
def FRK_CAP_FILLED_COUNT : Field := ⟨0x800080, 0, 64, 0, 0, .ro, .live⟩

-- FRK_CAP_VOID (04_sparsity_and_forks.md R120)
def FRK_CAP_VOID_COUNT : Field := ⟨0x800088, 0, 64, 0, 0, .ro, .live⟩

-- FRK_CAP_OVERFLOW (04_sparsity_and_forks.md R120)
def FRK_CAP_OVERFLOW_COUNT : Field := ⟨0x800090, 0, 64, 0, 0, .ro, .live⟩

-- FRK_CAP_WATCH (04_sparsity_and_forks.md R120)
def FRK_CAP_WATCH_OVERFLOW : Field := ⟨0x800098, 34, 17, 0, 0, .ro, .live⟩
def FRK_CAP_WATCH_FILLED : Field := ⟨0x800098, 17, 17, 0, 0, .ro, .live⟩
def FRK_CAP_WATCH_CAPACITY : Field := ⟨0x800098, 0, 17, 0, 0, .ro, .static⟩

-- FRK_SPARSE (04_sparsity_and_forks.md R120)
def FRK_SPARSE_META_ERR : Field := ⟨0x8000a0, 0, 32, 0, 0, .ro, .live⟩

-- FRK_GATE_COUNT (04_sparsity_and_forks.md R120)
def FRK_GATE_COUNT_COUNT : Field := ⟨0x8000a8, 0, 64, 0, 0, .ro, .live⟩

-- FRK_TABLE (04_sparsity_and_forks.md R120)
def FRK_TABLE_NVAR_M1 : Field := ⟨0x810000, 125, 3, 0x10, 0, .ro, .static⟩
def FRK_TABLE_DECIDER_LOCAL : Field := ⟨0x810000, 124, 1, 0x10, 0, .ro, .static⟩
def FRK_TABLE_CONTEXT : Field := ⟨0x810000, 120, 4, 0x10, 0, .ro, .static⟩
def FRK_TABLE_F : Field := ⟨0x810000, 100, 20, 0x10, 0, .ro, .static⟩
def FRK_TABLE_D : Field := ⟨0x810000, 80, 20, 0x10, 0, .ro, .static⟩
def FRK_TABLE_K : Field := ⟨0x810000, 60, 20, 0x10, 0, .ro, .static⟩
def FRK_TABLE_J : Field := ⟨0x810000, 40, 20, 0x10, 0, .ro, .static⟩
def FRK_TABLE_DECIDER_BENCH : Field := ⟨0x810000, 30, 10, 0x10, 0, .ro, .static⟩
def FRK_TABLE_DECIDER_MODULE : Field := ⟨0x810000, 14, 16, 0x10, 0, .ro, .static⟩
def FRK_TABLE_VALID : Field := ⟨0x810000, 0, 1, 0x10, 0, .ro, .static⟩

-- FRK_FORK_STATUS (04_sparsity_and_forks.md R120)
def FRK_FORK_STATUS_DECISION : Field := ⟨0x820000, 32, 32, 0x8, 0, .ro, .live⟩
def FRK_FORK_STATUS_ARRIVAL : Field := ⟨0x820000, 12, 20, 0x8, 0, .ro, .live⟩
def FRK_FORK_STATUS_VARIANT : Field := ⟨0x820000, 9, 3, 0x8, 0, .ro, .live⟩
def FRK_FORK_STATUS_LATE : Field := ⟨0x820000, 8, 1, 0x8, 0, .ro, .live⟩
def FRK_FORK_STATUS_HOLDS : Field := ⟨0x820000, 0, 8, 0x8, 0, .ro, .live⟩

-- GEN_ID (05_reproducibility.md R148)
def GEN_ID_SEAL_VER : Field := ⟨0x0, 24, 8, 0, 1, .ro, .static⟩
def GEN_ID_TAG_VER : Field := ⟨0x0, 16, 8, 0, 1, .ro, .static⟩
def GEN_ID_STEPPING : Field := ⟨0x0, 8, 8, 0, 176, .ro, .static⟩
def GEN_ID_KERF_VER : Field := ⟨0x0, 0, 8, 0, 1, .ro, .static⟩

-- GEN_MODE (05_reproducibility.md R148)
def GEN_MODE_EN_PREFETCH : Field := ⟨0x8, 7, 1, 0, 1, .rw, .staged⟩
def GEN_MODE_EN_GATHER : Field := ⟨0x8, 6, 1, 0, 1, .rw, .staged⟩
def GEN_MODE_EN_REFRESH : Field := ⟨0x8, 5, 1, 0, 1, .rw, .staged⟩
def GEN_MODE_EN_ADMIT : Field := ⟨0x8, 4, 1, 0, 1, .rw, .staged⟩
def GEN_MODE_STRICT : Field := ⟨0x8, 0, 1, 0, 1, .ro, .live⟩

-- GEN_MODE_NEXT (05_reproducibility.md R148)
def GEN_MODE_NEXT_STATE : Field := ⟨0x10, 6, 2, 0, 0, .ro, .live⟩
def GEN_MODE_NEXT_DISARM : Field := ⟨0x10, 2, 1, 0, 0, .wo, .live⟩
def GEN_MODE_NEXT_ARM : Field := ⟨0x10, 1, 1, 0, 0, .wo, .live⟩
def GEN_MODE_NEXT_STRICT : Field := ⟨0x10, 0, 1, 0, 1, .rw, .staged⟩

-- GEN_MODE_AT (05_reproducibility.md R148)
def GEN_MODE_AT_AT : Field := ⟨0x18, 0, 64, 0, 0, .rw, .staged⟩

-- GEN_CHOICE_COUNT (05_reproducibility.md R148)
def GEN_CHOICE_COUNT_COUNT : Field := ⟨0x20, 0, 64, 0, 0, .ro, .live⟩

-- GEN_CHOICE_KIND (05_reproducibility.md R148)
def GEN_CHOICE_KIND_PREFETCH : Field := ⟨0x28, 48, 16, 0, 0, .ro, .live⟩
def GEN_CHOICE_KIND_GATHER : Field := ⟨0x28, 32, 16, 0, 0, .ro, .live⟩
def GEN_CHOICE_KIND_REFRESH : Field := ⟨0x28, 16, 16, 0, 0, .ro, .live⟩
def GEN_CHOICE_KIND_ADMIT : Field := ⟨0x28, 0, 16, 0, 0, .ro, .live⟩

-- GEN_PROV (05_reproducibility.md R148)
def GEN_PROV_WIN_INDEP : Field := ⟨0x30, 32, 16, 0, 0, .ro, .static⟩
def GEN_PROV_STRICT_REQ : Field := ⟨0x30, 16, 16, 0, 0, .ro, .static⟩
def GEN_PROV_EN : Field := ⟨0x30, 0, 16, 0, 0, .ro, .static⟩

-- GEN_SEAL_CFG (05_reproducibility.md R148)
def GEN_SEAL_CFG_TICKS : Field := ⟨0x38, 32, 21, 0, 1187500, .rw, .static⟩
def GEN_SEAL_CFG_BATCHES : Field := ⟨0x38, 0, 11, 0, 1024, .rw, .static⟩

-- GEN_SEAL_CTRL (05_reproducibility.md R148)
def GEN_SEAL_CTRL_CLOSE_NOW : Field := ⟨0x40, 4, 1, 0, 0, .wo, .live⟩
def GEN_SEAL_CTRL_CONTEXT : Field := ⟨0x40, 0, 4, 0, 0, .rw, .live⟩

-- GEN_TAG_QUEUE (05_reproducibility.md R148)
def GEN_TAG_QUEUE_HOLDS : Field := ⟨0x48, 32, 32, 0, 0, .ro, .live⟩
def GEN_TAG_QUEUE_DEPTH : Field := ⟨0x48, 0, 17, 0, 0, .ro, .live⟩

-- GEN_EVENT (05_reproducibility.md R148)
def GEN_EVENT_SUBST : Field := ⟨0x50, 4, 1, 0, 0, .w1c, .live⟩
def GEN_EVENT_RETIME : Field := ⟨0x50, 3, 1, 0, 0, .w1c, .live⟩
def GEN_EVENT_TAG_HOLD : Field := ⟨0x50, 2, 1, 0, 0, .w1c, .live⟩
def GEN_EVENT_SEAL_PARTIAL : Field := ⟨0x50, 1, 1, 0, 0, .w1c, .live⟩
def GEN_EVENT_MODE_REFUSED : Field := ⟨0x50, 0, 1, 0, 0, .w1c, .live⟩

-- GEN_SPARE (05_reproducibility.md R148)
def GEN_SPARE_TOTAL : Field := ⟨0x58, 32, 32, 0, 0, .ro, .live⟩
def GEN_SPARE_EXT_TICKS : Field := ⟨0x58, 16, 9, 0, 0, .ro, .live⟩
def GEN_SPARE_ACTIVE : Field := ⟨0x58, 0, 5, 0, 0, .ro, .live⟩

-- GEN_SEAL_STATUS (05_reproducibility.md R148)
def GEN_SEAL_STATUS_SEQ : Field := ⟨0x100, 32, 32, 0x8, 0, .ro, .live⟩
def GEN_SEAL_STATUS_BATCHES : Field := ⟨0x100, 21, 11, 0x8, 0, .ro, .live⟩
def GEN_SEAL_STATUS_TAGS : Field := ⟨0x100, 0, 19, 0x8, 0, .ro, .live⟩

-- PLN_STATUS (06_working_plan.md R180)
def PLN_STATUS_CONTEXTS : Field := ⟨0x1b00000, 16, 16, 0, 0, .ro, .static⟩
def PLN_STATUS_ACT : Field := ⟨0x1b00000, 8, 3, 0, 0, .ro, .live⟩
def PLN_STATUS_STAGE : Field := ⟨0x1b00000, 0, 3, 0, 0, .ro, .live⟩

-- PLN_CTRL (06_working_plan.md R180)
def PLN_CTRL_CTX : Field := ⟨0x1b00008, 8, 4, 0, 0, .rw, .live⟩
def PLN_CTRL_CTX_RESTART : Field := ⟨0x1b00008, 7, 1, 0, 0, .wo, .live⟩
def PLN_CTRL_ABORT : Field := ⟨0x1b00008, 6, 1, 0, 0, .wo, .live⟩
def PLN_CTRL_STOP_ARM : Field := ⟨0x1b00008, 5, 1, 0, 0, .wo, .live⟩
def PLN_CTRL_DISARM : Field := ⟨0x1b00008, 4, 1, 0, 0, .wo, .live⟩
def PLN_CTRL_ARM : Field := ⟨0x1b00008, 3, 1, 0, 0, .wo, .live⟩
def PLN_CTRL_DISCARD : Field := ⟨0x1b00008, 2, 1, 0, 0, .wo, .live⟩
def PLN_CTRL_VERIFY : Field := ⟨0x1b00008, 1, 1, 0, 0, .wo, .live⟩

-- PLN_ACT_AT (06_working_plan.md R180)
def PLN_ACT_AT_AT : Field := ⟨0x1b00010, 0, 64, 0, 0, .rw, .staged⟩

-- PLN_STOP_AT (06_working_plan.md R180)
def PLN_STOP_AT_AT : Field := ⟨0x1b00018, 0, 64, 0, 0, .rw, .staged⟩

-- PLN_STOP_END (06_working_plan.md R180)
def PLN_STOP_END_AT : Field := ⟨0x1b00020, 0, 64, 0, 0, .ro, .live⟩

-- PLN_VERIFY (06_working_plan.md R180)
def PLN_VERIFY_OFFSET : Field := ⟨0x1b00028, 16, 32, 0, 0, .ro, .live⟩
def PLN_VERIFY_SECTION : Field := ⟨0x1b00028, 8, 8, 0, 0, .ro, .live⟩
def PLN_VERIFY_CODE : Field := ⟨0x1b00028, 0, 8, 0, 0, .ro, .live⟩

-- PLN_CFG (06_working_plan.md R180)
def PLN_CFG_LEVEL : Field := ⟨0x1b00030, 56, 8, 0, 0, .ro, .static⟩
def PLN_CFG_OP_POINTS : Field := ⟨0x1b00030, 52, 4, 0, 0, .ro, .static⟩
def PLN_CFG_HOLD_LEAD : Field := ⟨0x1b00030, 32, 16, 0, 0, .ro, .static⟩
def PLN_CFG_HOLD_QUANTUM : Field := ⟨0x1b00030, 8, 13, 0, 0, .ro, .static⟩

-- PLN_ROLE (06_working_plan.md R180)
def PLN_ROLE_FORWARD_ONLY : Field := ⟨0x1b00038, 28, 1, 0, 0, .ro, .static⟩
def PLN_ROLE_ROLE : Field := ⟨0x1b00038, 16, 12, 0, 0, .ro, .static⟩
def PLN_ROLE_MODULES : Field := ⟨0x1b00038, 0, 13, 0, 0, .ro, .static⟩

-- PLN_ACTIVE_ID (06_working_plan.md R180)
def PLN_ACTIVE_ID_ID : Field := ⟨0x1b00040, 0, 64, 0, 0, .ro, .static⟩

-- PLN_STAGED_ID (06_working_plan.md R180)
def PLN_STAGED_ID_ID : Field := ⟨0x1b00048, 0, 64, 0, 0, .ro, .live⟩

-- PLN_ROOT (06_working_plan.md R180)
def PLN_ROOT_ROOT : Field := ⟨0x1b00080, 0, 64, 0x8, 0, .ro, .static⟩

-- PLN_CTX_CFG (06_working_plan.md R180)
def PLN_CTX_CFG_BENCHES : Field := ⟨0x1b00100, 40, 10, 0x8, 0, .ro, .static⟩
def PLN_CTX_CFG_UNIT : Field := ⟨0x1b00100, 28, 12, 0x8, 0, .ro, .static⟩
def PLN_CTX_CFG_SPARE_EXT : Field := ⟨0x1b00100, 8, 9, 0x8, 0, .ro, .static⟩
def PLN_CTX_CFG_EXTENDED : Field := ⟨0x1b00100, 7, 1, 0x8, 0, .rw, .staged⟩
def PLN_CTX_CFG_RUNNING : Field := ⟨0x1b00100, 6, 1, 0x8, 0, .ro, .live⟩
def PLN_CTX_CFG_DEFINED : Field := ⟨0x1b00100, 5, 1, 0x8, 0, .ro, .static⟩
def PLN_CTX_CFG_FLAGS : Field := ⟨0x1b00100, 0, 5, 0x8, 0, .ro, .static⟩

-- PLN_CTX_STEP (06_working_plan.md R180)
def PLN_CTX_STEP_INDEX : Field := ⟨0x1b00180, 21, 43, 0x8, 0, .ro, .live⟩
def PLN_CTX_STEP_POS : Field := ⟨0x1b00180, 0, 21, 0x8, 0, .ro, .live⟩

-- PLN_SUBST (06_working_plan.md R180)
def PLN_SUBST_CROSS : Field := ⟨0x1b00200, 40, 1, 0x8, 0, .ro, .live⟩
def PLN_SUBST_LOGICAL : Field := ⟨0x1b00200, 30, 10, 0x8, 0, .ro, .live⟩
def PLN_SUBST_FROM : Field := ⟨0x1b00200, 20, 10, 0x8, 0, .ro, .live⟩
def PLN_SUBST_TO : Field := ⟨0x1b00200, 10, 10, 0x8, 0, .ro, .live⟩
def PLN_SUBST_VALID : Field := ⟨0x1b00200, 0, 1, 0x8, 0, .ro, .live⟩

-- PLN_EVENT (06_working_plan.md R180)
def PLN_EVENT_ACT_FAILED : Field := ⟨0x1b00300, 3, 1, 0, 0, .w1c, .live⟩
def PLN_EVENT_ABORTED : Field := ⟨0x1b00300, 2, 1, 0, 0, .w1c, .live⟩
def PLN_EVENT_VERIFY_FAILED : Field := ⟨0x1b00300, 1, 1, 0, 0, .w1c, .live⟩
def PLN_EVENT_REFUSED : Field := ⟨0x1b00300, 0, 1, 0, 0, .w1c, .live⟩

-- BCH_SEQ_STATUS (06_working_plan.md R181)
def BCH_SEQ_STATUS_VARIANT : Field := ⟨0x400100, 36, 3, 0x1000, 0, .ro, .live⟩
def BCH_SEQ_STATUS_CTX : Field := ⟨0x400100, 32, 4, 0x1000, 0, .ro, .live⟩
def BCH_SEQ_STATUS_STATE : Field := ⟨0x400100, 28, 3, 0x1000, 0, .ro, .live⟩
def BCH_SEQ_STATUS_PAGE_BUSY : Field := ⟨0x400100, 12, 16, 0x1000, 0, .ro, .live⟩
def BCH_SEQ_STATUS_PC : Field := ⟨0x400100, 0, 12, 0x1000, 0, .ro, .live⟩

-- BCH_SEQ_ENTRY (06_working_plan.md R181)
def BCH_SEQ_ENTRY_VALID : Field := ⟨0x400108, 12, 1, 0x8, 0, .ro, .static⟩
def BCH_SEQ_ENTRY_ENTRY : Field := ⟨0x400108, 0, 12, 0x8, 0, .ro, .static⟩

-- BCH_SEQ_COUNT (06_working_plan.md R181)
def BCH_SEQ_COUNT_REFILLS : Field := ⟨0x400128, 32, 32, 0x1000, 0, .ro, .live⟩
def BCH_SEQ_COUNT_STALLS : Field := ⟨0x400128, 0, 32, 0x1000, 0, .ro, .live⟩

-- BCH_SEQ_BEAT (06_working_plan.md R181)
def BCH_SEQ_BEAT_STALLED : Field := ⟨0x400130, 8, 8, 0x1000, 0, .ro, .live⟩
def BCH_SEQ_BEAT_ISSUED : Field := ⟨0x400130, 0, 8, 0x1000, 0, .ro, .live⟩

-- BCH_SEQ_FAULT (06_working_plan.md R181)
def BCH_SEQ_FAULT_PC : Field := ⟨0x400138, 8, 12, 0x1000, 0, .ro, .live⟩
def BCH_SEQ_FAULT_CODE : Field := ⟨0x400138, 0, 8, 0x1000, 0, .ro, .live⟩

-- HBM_CFG (07_memory_tiers.md R210)
def HBM_CFG_TEMP_LIMIT : Field := ⟨0x900000, 16, 8, 0, 100, .rw, .live⟩
def HBM_CFG_TEMP_WARN : Field := ⟨0x900000, 8, 8, 0, 90, .rw, .live⟩
def HBM_CFG_SCRUB_EN : Field := ⟨0x900000, 1, 1, 0, 1, .rw, .live⟩
def HBM_CFG_ADAPT : Field := ⟨0x900000, 0, 1, 0, 0, .ro, .live⟩

-- HBM_STACK (07_memory_tiers.md R210)
def HBM_STACK_TEMP : Field := ⟨0x900100, 32, 8, 0x8, 0, .ro, .live⟩
def HBM_STACK_TEMP_MAX : Field := ⟨0x900100, 24, 8, 0x8, 0, .ro, .live⟩
def HBM_STACK_REFI_X : Field := ⟨0x900100, 22, 2, 0x8, 0, .ro, .live⟩
def HBM_STACK_OVER_LIMIT : Field := ⟨0x900100, 3, 1, 0x8, 0, .ro, .live⟩
def HBM_STACK_SELF_REFRESH : Field := ⟨0x900100, 2, 1, 0x8, 0, .ro, .live⟩
def HBM_STACK_TRAINED : Field := ⟨0x900100, 1, 1, 0x8, 0, .ro, .live⟩
def HBM_STACK_PRESENT : Field := ⟨0x900100, 0, 1, 0x8, 1, .ro, .static⟩

-- HBM_ECC (07_memory_tiers.md R210)
def HBM_ECC_SCRUB_UNCORR : Field := ⟨0x900200, 48, 16, 0x8, 0, .ro, .live⟩
def HBM_ECC_UNCORR : Field := ⟨0x900200, 32, 16, 0x8, 0, .ro, .live⟩
def HBM_ECC_CORR : Field := ⟨0x900200, 0, 32, 0x8, 0, .ro, .live⟩

-- HBM_ECC_ADDR (07_memory_tiers.md R210)
def HBM_ECC_ADDR_SCRUB : Field := ⟨0x900300, 49, 1, 0, 0, .ro, .live⟩
def HBM_ECC_ADDR_VALID : Field := ⟨0x900300, 48, 1, 0, 0, .ro, .live⟩
def HBM_ECC_ADDR_ADDR : Field := ⟨0x900300, 0, 48, 0, 0, .ro, .live⟩

-- HBM_SCRUB (07_memory_tiers.md R210)
def HBM_SCRUB_PASSES : Field := ⟨0x900308, 32, 32, 0, 0, .ro, .live⟩
def HBM_SCRUB_LAST_PASS : Field := ⟨0x900308, 0, 32, 0, 0, .ro, .live⟩

-- HBM_GATHER (07_memory_tiers.md R210)
def HBM_GATHER_LATE_BIND : Field := ⟨0x900310, 48, 16, 0, 0, .ro, .live⟩
def HBM_GATHER_REFUSED : Field := ⟨0x900310, 32, 16, 0, 0, .ro, .live⟩
def HBM_GATHER_WINDOWS : Field := ⟨0x900310, 0, 32, 0, 0, .ro, .live⟩

-- HBM_SERVICE (07_memory_tiers.md R210)
def HBM_SERVICE_REFUSED : Field := ⟨0x900318, 48, 16, 0, 0, .ro, .live⟩
def HBM_SERVICE_BYTES : Field := ⟨0x900318, 0, 48, 0, 0, .ro, .live⟩

-- HBM_EVENT (07_memory_tiers.md R210)
def HBM_EVENT_TEMP_LIMIT : Field := ⟨0x900320, 6, 1, 0, 0, .w1c, .live⟩
def HBM_EVENT_TEMP_WARN : Field := ⟨0x900320, 5, 1, 0, 0, .w1c, .live⟩
def HBM_EVENT_LATE_BIND : Field := ⟨0x900320, 4, 1, 0, 0, .w1c, .live⟩
def HBM_EVENT_REFUSED : Field := ⟨0x900320, 3, 1, 0, 0, .w1c, .live⟩
def HBM_EVENT_SCRUB_UNCORR : Field := ⟨0x900320, 2, 1, 0, 0, .w1c, .live⟩
def HBM_EVENT_UNCORR : Field := ⟨0x900320, 1, 1, 0, 0, .w1c, .live⟩
def HBM_EVENT_CORR : Field := ⟨0x900320, 0, 1, 0, 0, .w1c, .live⟩

-- DTR_CFG (07_memory_tiers.md R211)
def DTR_CFG_TEMP_WARN : Field := ⟨0xa00000, 24, 8, 0, 85, .rw, .live⟩
def DTR_CFG_TEMP_LIMIT : Field := ⟨0xa00000, 16, 8, 0, 95, .rw, .live⟩
def DTR_CFG_AHEAD : Field := ⟨0xa00000, 8, 8, 0, 64, .rw, .live⟩
def DTR_CFG_SCRUB_EN : Field := ⟨0xa00000, 1, 1, 0, 1, .rw, .live⟩
def DTR_CFG_PREFETCH : Field := ⟨0xa00000, 0, 1, 0, 0, .ro, .live⟩

-- DTR_CHAN (07_memory_tiers.md R211)
def DTR_CHAN_TEMP : Field := ⟨0xa00100, 32, 8, 0x8, 0, .ro, .live⟩
def DTR_CHAN_TEMP_MAX : Field := ⟨0xa00100, 24, 8, 0x8, 0, .ro, .live⟩
def DTR_CHAN_OVER_LIMIT : Field := ⟨0xa00100, 3, 1, 0x8, 0, .ro, .live⟩
def DTR_CHAN_SELF_REFRESH : Field := ⟨0xa00100, 2, 1, 0x8, 0, .ro, .live⟩
def DTR_CHAN_TRAINED : Field := ⟨0xa00100, 1, 1, 0x8, 0, .ro, .live⟩
def DTR_CHAN_PRESENT : Field := ⟨0xa00100, 0, 1, 0x8, 1, .ro, .static⟩

-- DTR_ECC (07_memory_tiers.md R211)
def DTR_ECC_SCRUB_UNCORR : Field := ⟨0xa00200, 48, 16, 0x8, 0, .ro, .live⟩
def DTR_ECC_UNCORR : Field := ⟨0xa00200, 32, 16, 0x8, 0, .ro, .live⟩
def DTR_ECC_CORR : Field := ⟨0xa00200, 0, 32, 0x8, 0, .ro, .live⟩

-- DTR_ECC_ADDR (07_memory_tiers.md R211)
def DTR_ECC_ADDR_DEVICE : Field := ⟨0xa00300, 51, 4, 0, 0, .ro, .live⟩
def DTR_ECC_ADDR_UNCORR : Field := ⟨0xa00300, 50, 1, 0, 0, .ro, .live⟩
def DTR_ECC_ADDR_SCRUB : Field := ⟨0xa00300, 49, 1, 0, 0, .ro, .live⟩
def DTR_ECC_ADDR_VALID : Field := ⟨0xa00300, 48, 1, 0, 0, .ro, .live⟩
def DTR_ECC_ADDR_ADDR : Field := ⟨0xa00300, 0, 48, 0, 0, .ro, .live⟩

-- DTR_SCRUB (07_memory_tiers.md R211)
def DTR_SCRUB_PASSES : Field := ⟨0xa00308, 32, 32, 0, 0, .ro, .live⟩
def DTR_SCRUB_LAST_PASS : Field := ⟨0xa00308, 0, 32, 0, 0, .ro, .live⟩

-- DTR_PREFETCH (07_memory_tiers.md R211)
def DTR_PREFETCH_DISCARDED : Field := ⟨0xa00310, 32, 32, 0, 0, .ro, .live⟩
def DTR_PREFETCH_ENTRIES : Field := ⟨0xa00310, 0, 32, 0, 0, .ro, .live⟩

-- DTR_SERVICE (07_memory_tiers.md R211)
def DTR_SERVICE_REFUSED : Field := ⟨0xa00318, 48, 16, 0, 0, .ro, .live⟩
def DTR_SERVICE_BYTES : Field := ⟨0xa00318, 0, 48, 0, 0, .ro, .live⟩

-- DTR_EVENT (07_memory_tiers.md R211)
def DTR_EVENT_TEMP_LIMIT : Field := ⟨0xa00320, 6, 1, 0, 0, .w1c, .live⟩
def DTR_EVENT_TEMP_WARN : Field := ⟨0xa00320, 5, 1, 0, 0, .w1c, .live⟩
def DTR_EVENT_LATE_BIND : Field := ⟨0xa00320, 4, 1, 0, 0, .w1c, .live⟩
def DTR_EVENT_REFUSED : Field := ⟨0xa00320, 3, 1, 0, 0, .w1c, .live⟩
def DTR_EVENT_SCRUB_UNCORR : Field := ⟨0xa00320, 2, 1, 0, 0, .w1c, .live⟩
def DTR_EVENT_UNCORR : Field := ⟨0xa00320, 1, 1, 0, 0, .w1c, .live⟩
def DTR_EVENT_CORR : Field := ⟨0xa00320, 0, 1, 0, 0, .w1c, .live⟩

-- WGT_CFG (08_weights.md R235)
def WGT_CFG_RECHECK_S : Field := ⟨0xb00000, 32, 16, 0, 900, .rw, .staged⟩
def WGT_CFG_TIMEOUT_MS : Field := ⟨0xb00000, 16, 16, 0, 500, .rw, .live⟩
def WGT_CFG_RETRIES : Field := ⟨0xb00000, 8, 2, 0, 3, .rw, .live⟩
def WGT_CFG_TAG_ENGINES : Field := ⟨0xb00000, 0, 5, 0, 0, .ro, .static⟩

-- WGT_LOAD_CTRL (08_weights.md R235)
def WGT_LOAD_CTRL_X3_MASK : Field := ⟨0xb00008, 8, 16, 0, 0, .rw, .live⟩
def WGT_LOAD_CTRL_CONTEXT : Field := ⟨0xb00008, 4, 4, 0, 0, .rw, .live⟩
def WGT_LOAD_CTRL_X3_START : Field := ⟨0xb00008, 2, 1, 0, 0, .wo, .live⟩
def WGT_LOAD_CTRL_ABORT : Field := ⟨0xb00008, 1, 1, 0, 0, .wo, .live⟩
def WGT_LOAD_CTRL_START : Field := ⟨0xb00008, 0, 1, 0, 0, .wo, .live⟩

-- WGT_SWAP_CTRL (08_weights.md R235)
def WGT_SWAP_CTRL_CONTEXT : Field := ⟨0xb00010, 4, 4, 0, 0, .rw, .live⟩
def WGT_SWAP_CTRL_DISARM : Field := ⟨0xb00010, 1, 1, 0, 0, .wo, .live⟩
def WGT_SWAP_CTRL_ARM : Field := ⟨0xb00010, 0, 1, 0, 0, .wo, .live⟩

-- WGT_ENGINE_BYTES (08_weights.md R235)
def WGT_ENGINE_BYTES_BYTES : Field := ⟨0xb00018, 0, 64, 0, 0, .ro, .live⟩

-- WGT_COUNT (08_weights.md R235)
def WGT_COUNT_REFETCH : Field := ⟨0xb00020, 48, 16, 0, 0, .ro, .live⟩
def WGT_COUNT_CORRUPT : Field := ⟨0xb00020, 32, 16, 0, 0, .ro, .live⟩
def WGT_COUNT_MISSING : Field := ⟨0xb00020, 16, 16, 0, 0, .ro, .live⟩
def WGT_COUNT_REPAIR : Field := ⟨0xb00020, 8, 8, 0, 0, .ro, .live⟩
def WGT_COUNT_REPAIR_FAIL : Field := ⟨0xb00020, 0, 8, 0, 0, .ro, .live⟩

-- WGT_LAST_FAIL (08_weights.md R235)
def WGT_LAST_FAIL_CODE : Field := ⟨0xb00028, 56, 8, 0, 0, .ro, .live⟩
def WGT_LAST_FAIL_SOURCE : Field := ⟨0xb00028, 54, 2, 0, 0, .ro, .live⟩
def WGT_LAST_FAIL_CONTEXT : Field := ⟨0xb00028, 48, 4, 0, 0, .ro, .live⟩
def WGT_LAST_FAIL_SHARD : Field := ⟨0xb00028, 0, 48, 0, 0, .ro, .live⟩

-- WGT_EVENT (08_weights.md R235)
def WGT_EVENT_SWAP_DROPPED : Field := ⟨0xb00030, 7, 1, 0, 0, .w1c, .live⟩
def WGT_EVENT_REPAIR : Field := ⟨0xb00030, 6, 1, 0, 0, .w1c, .live⟩
def WGT_EVENT_BEHIND : Field := ⟨0xb00030, 5, 1, 0, 0, .w1c, .live⟩
def WGT_EVENT_BAD_EPOCH : Field := ⟨0xb00030, 4, 1, 0, 0, .w1c, .live⟩
def WGT_EVENT_QUARANTINE : Field := ⟨0xb00030, 3, 1, 0, 0, .w1c, .live⟩
def WGT_EVENT_SWAP_REFUSED : Field := ⟨0xb00030, 2, 1, 0, 0, .w1c, .live⟩
def WGT_EVENT_REFETCH : Field := ⟨0xb00030, 1, 1, 0, 0, .w1c, .live⟩
def WGT_EVENT_LOAD_FAILED : Field := ⟨0xb00030, 0, 1, 0, 0, .w1c, .live⟩

-- WGT_DESC (08_weights.md R235)
def WGT_DESC_ADDR : Field := ⟨0xb00100, 0, 48, 0x8, 0, .rw, .live⟩

-- WGT_CTX (08_weights.md R235)
def WGT_CTX_CODE : Field := ⟨0xb00180, 56, 8, 0x8, 0, .ro, .live⟩
def WGT_CTX_LANDING : Field := ⟨0xb00180, 24, 4, 0x8, 0, .ro, .live⟩
def WGT_CTX_STATE : Field := ⟨0xb00180, 20, 4, 0x8, 0, .ro, .live⟩
def WGT_CTX_CLOSING : Field := ⟨0xb00180, 19, 1, 0x8, 0, .ro, .live⟩
def WGT_CTX_SWAP_ARMED : Field := ⟨0xb00180, 18, 1, 0x8, 0, .ro, .live⟩
def WGT_CTX_BANK : Field := ⟨0xb00180, 17, 1, 0x8, 0, .ro, .live⟩
def WGT_CTX_SWAP : Field := ⟨0xb00180, 16, 1, 0x8, 0, .ro, .static⟩
def WGT_CTX_WRITABLE : Field := ⟨0xb00180, 15, 1, 0x8, 0, .ro, .static⟩
def WGT_CTX_BEHIND : Field := ⟨0xb00180, 14, 1, 0x8, 0, .ro, .live⟩

-- WGT_PROG (08_weights.md R235)
def WGT_PROG_DONE : Field := ⟨0xb00200, 32, 32, 0x8, 0, .ro, .live⟩
def WGT_PROG_HELD : Field := ⟨0xb00200, 0, 32, 0x8, 0, .ro, .live⟩

-- WGT_SWAP_BATCH (08_weights.md R235)
def WGT_SWAP_BATCH_BATCH : Field := ⟨0xb00280, 0, 64, 0x8, 0, .rw, .staged⟩

-- WGT_EPOCH (08_weights.md R235)
def WGT_EPOCH_EPOCH : Field := ⟨0xb00300, 0, 64, 0x8, 0, .ro, .live⟩

-- WGT_CONFIRMED (08_weights.md R235)
def WGT_CONFIRMED_EPOCH : Field := ⟨0xb00380, 0, 64, 0x8, 0, .ro, .live⟩

-- WGT_BAD (08_weights.md R235)
def WGT_BAD_LAST : Field := ⟨0xb00400, 32, 32, 0x8, 0, .ro, .live⟩
def WGT_BAD_FIRST : Field := ⟨0xb00400, 0, 32, 0x8, 0, .ro, .live⟩

-- WGT_SWEEP (08_weights.md R235)
def WGT_SWEEP_SWEEPS : Field := ⟨0xb00480, 32, 32, 0x8, 0, .ro, .live⟩
def WGT_SWEEP_LAST_MS : Field := ⟨0xb00480, 0, 32, 0x8, 0, .ro, .live⟩

-- WGT_ROOT_ACTIVE (08_weights.md R235)
def WGT_ROOT_ACTIVE_ROOT : Field := ⟨0xb01000, 0, 64, 0x8, 0, .ro, .live⟩

-- WGT_ROOT_LANDING (08_weights.md R235)
def WGT_ROOT_LANDING_ROOT : Field := ⟨0xb01400, 0, 64, 0x8, 0, .ro, .live⟩

-- ITK_CFG (09_intake_and_streams.md R261)
def ITK_CFG_CONTEXTS : Field := ⟨0xc00000, 16, 16, 0, 0, .ro, .static⟩
def ITK_CFG_SEAL_TICKS : Field := ⟨0xc00000, 0, 16, 0, 0, .ro, .static⟩

-- ITK_EVENT (09_intake_and_streams.md R261)
def ITK_EVENT_RESP_RING_FULL : Field := ⟨0xc00008, 6, 1, 0, 0, .w1c, .live⟩
def ITK_EVENT_RING_FAULT : Field := ⟨0xc00008, 5, 1, 0, 0, .w1c, .live⟩
def ITK_EVENT_REFUSED : Field := ⟨0xc00008, 4, 1, 0, 0, .w1c, .live⟩
def ITK_EVENT_CLOSED_DROP : Field := ⟨0xc00008, 3, 1, 0, 0, .w1c, .live⟩
def ITK_EVENT_PAUSE_SEEN : Field := ⟨0xc00008, 2, 1, 0, 0, .w1c, .live⟩
def ITK_EVENT_HDR_DROP : Field := ⟨0xc00008, 1, 1, 0, 0, .w1c, .live⟩
def ITK_EVENT_FCS_DROP : Field := ⟨0xc00008, 0, 1, 0, 0, .w1c, .live⟩

-- ITK_PORT (09_intake_and_streams.md R261)
def ITK_PORT_LINK_UP : Field := ⟨0xc00010, 49, 1, 0x8, 0, .ro, .live⟩
def ITK_PORT_TAG_EN : Field := ⟨0xc00010, 48, 1, 0x8, 0, .rw, .static⟩
def ITK_PORT_PEER_MAC : Field := ⟨0xc00010, 0, 48, 0x8, 0, .rw, .static⟩

-- ITK_PORT_MAC (09_intake_and_streams.md R261)
def ITK_PORT_MAC_TAG : Field := ⟨0xc00020, 48, 16, 0x8, 0, .rw, .static⟩
def ITK_PORT_MAC_MAC : Field := ⟨0xc00020, 0, 48, 0x8, 0, .rw, .static⟩

-- ITK_PORT_COUNT (09_intake_and_streams.md R261)
def ITK_PORT_COUNT_FRAMES : Field := ⟨0xc00030, 32, 32, 0x8, 0, .ro, .live⟩
def ITK_PORT_COUNT_FCS_DROP : Field := ⟨0xc00030, 16, 16, 0x8, 0, .ro, .live⟩
def ITK_PORT_COUNT_HDR_DROP : Field := ⟨0xc00030, 0, 16, 0x8, 0, .ro, .live⟩

-- ITK_PORT_DROP (09_intake_and_streams.md R261)
def ITK_PORT_DROP_CLOSED : Field := ⟨0xc00040, 48, 16, 0x8, 0, .ro, .live⟩
def ITK_PORT_DROP_PEER : Field := ⟨0xc00040, 32, 16, 0x8, 0, .ro, .live⟩
def ITK_PORT_DROP_PAUSE : Field := ⟨0xc00040, 16, 16, 0x8, 0, .ro, .live⟩
def ITK_PORT_DROP_OTHER : Field := ⟨0xc00040, 0, 16, 0x8, 0, .ro, .live⟩

-- ITK_WINDOW_TICKS (09_intake_and_streams.md R261)
def ITK_WINDOW_TICKS_PER_STEP : Field := ⟨0xc00100, 32, 16, 0x8, 0, .ro, .static⟩
def ITK_WINDOW_TICKS_TICKS : Field := ⟨0xc00100, 0, 15, 0x8, 0, .ro, .static⟩

-- ITK_RELEASE (09_intake_and_streams.md R261)
def ITK_RELEASE_FRAME_SPACING : Field := ⟨0xc00180, 48, 16, 0x8, 0, .ro, .static⟩
def ITK_RELEASE_CHAIN_SPAN : Field := ⟨0xc00180, 44, 4, 0x8, 0, .ro, .static⟩
def ITK_RELEASE_CARRY_MAX : Field := ⟨0xc00180, 40, 4, 0x8, 0, .ro, .static⟩
def ITK_RELEASE_RECORDS_PER_FRAME : Field := ⟨0xc00180, 32, 8, 0x8, 0, .ro, .static⟩
def ITK_RELEASE_TICKS : Field := ⟨0xc00180, 0, 32, 0x8, 0, .ro, .static⟩

-- ITK_CTX_STATUS (09_intake_and_streams.md R261)
def ITK_CTX_STATUS_WINDOW : Field := ⟨0xc00200, 24, 40, 0x8, 0, .ro, .live⟩
def ITK_CTX_STATUS_CARRIED : Field := ⟨0xc00200, 13, 11, 0x8, 0, .ro, .live⟩
def ITK_CTX_STATUS_ADMITTED : Field := ⟨0xc00200, 4, 9, 0x8, 0, .ro, .live⟩
def ITK_CTX_STATUS_CLOSED : Field := ⟨0xc00200, 1, 1, 0x8, 0, .ro, .live⟩
def ITK_CTX_STATUS_OPEN : Field := ⟨0xc00200, 0, 1, 0x8, 0, .ro, .live⟩

-- ITK_CTX_COUNT (09_intake_and_streams.md R261)
def ITK_CTX_COUNT_ADMITTED : Field := ⟨0xc00280, 32, 32, 0x8, 0, .ro, .live⟩
def ITK_CTX_COUNT_CARRIED : Field := ⟨0xc00280, 16, 16, 0x8, 0, .ro, .live⟩
def ITK_CTX_COUNT_MALFORMED : Field := ⟨0xc00280, 0, 16, 0x8, 0, .ro, .live⟩

-- ITK_CTX_REFUSE (09_intake_and_streams.md R261)
def ITK_CTX_REFUSE_CARRY : Field := ⟨0xc00300, 48, 16, 0x8, 0, .ro, .live⟩
def ITK_CTX_REFUSE_FULL : Field := ⟨0xc00300, 32, 16, 0x8, 0, .ro, .live⟩
def ITK_CTX_REFUSE_CLOSED : Field := ⟨0xc00300, 16, 16, 0x8, 0, .ro, .live⟩
def ITK_CTX_REFUSE_DROPPED : Field := ⟨0xc00300, 0, 16, 0x8, 0, .ro, .live⟩

-- ITK_RING (09_intake_and_streams.md R261)
def ITK_RING_CONSUMER : Field := ⟨0xc00380, 32, 32, 0x8, 0, .ro, .live⟩
def ITK_RING_FAULT : Field := ⟨0xc00380, 1, 1, 0x8, 0, .ro, .live⟩
def ITK_RING_RESET : Field := ⟨0xc00380, 0, 1, 0x8, 0, .wo, .live⟩

-- ITK_RESP_RING (09_intake_and_streams.md R261)
def ITK_RESP_RING_PRODUCER : Field := ⟨0xc00400, 32, 32, 0x8, 0, .ro, .live⟩
def ITK_RESP_RING_DROPPED : Field := ⟨0xc00400, 16, 16, 0x8, 0, .ro, .live⟩

-- SCT_CACHE (09_intake_and_streams.md R262)
def SCT_CACHE_HITS : Field := ⟨0xd00000, 32, 32, 0, 0, .ro, .live⟩
def SCT_CACHE_MISSES : Field := ⟨0xd00000, 0, 32, 0, 0, .ro, .live⟩

-- SCT_EVENT (09_intake_and_streams.md R262)
def SCT_EVENT_STATE_LOST : Field := ⟨0xd00008, 3, 1, 0, 0, .w1c, .live⟩
def SCT_EVENT_REFUSED_TABLE : Field := ⟨0xd00008, 2, 1, 0, 0, .w1c, .live⟩
def SCT_EVENT_STASH_FULL : Field := ⟨0xd00008, 1, 1, 0, 0, .w1c, .live⟩
def SCT_EVENT_EVICT : Field := ⟨0xd00008, 0, 1, 0, 0, .w1c, .live⟩

-- SCT_LAST_LOST (09_intake_and_streams.md R262)
def SCT_LAST_LOST_CONTEXT : Field := ⟨0xd00010, 60, 4, 0, 0, .ro, .live⟩
def SCT_LAST_LOST_WHAT : Field := ⟨0xd00010, 49, 3, 0, 0, .ro, .live⟩
def SCT_LAST_LOST_VALID : Field := ⟨0xd00010, 48, 1, 0, 0, .ro, .live⟩
def SCT_LAST_LOST_ADDR : Field := ⟨0xd00010, 0, 48, 0, 0, .ro, .live⟩

-- SCT_PART (09_intake_and_streams.md R262)
def SCT_PART_STASH : Field := ⟨0xd00100, 32, 8, 0x8, 0, .ro, .static⟩
def SCT_PART_BLOCK_LOG2 : Field := ⟨0xd00100, 28, 4, 0x8, 0, .ro, .static⟩
def SCT_PART_ENTRIES : Field := ⟨0xd00100, 0, 21, 0x8, 0, .ro, .static⟩

-- SCT_OCC (09_intake_and_streams.md R262)
def SCT_OCC_STASHED : Field := ⟨0xd00180, 21, 7, 0x8, 0, .ro, .live⟩
def SCT_OCC_VALID : Field := ⟨0xd00180, 0, 21, 0x8, 0, .ro, .live⟩

-- SCT_COUNT (09_intake_and_streams.md R262)
def SCT_COUNT_INSERTS : Field := ⟨0xd00200, 40, 24, 0x8, 0, .ro, .live⟩
def SCT_COUNT_EVICTIONS : Field := ⟨0xd00200, 16, 24, 0x8, 0, .ro, .live⟩
def SCT_COUNT_REFUSED_TABLE : Field := ⟨0xd00200, 0, 16, 0x8, 0, .ro, .live⟩

-- SCT_MOVES (09_intake_and_streams.md R262)
def SCT_MOVES_STASH_IN : Field := ⟨0xd00280, 32, 32, 0x8, 0, .ro, .live⟩
def SCT_MOVES_STASH_OUT : Field := ⟨0xd00280, 16, 16, 0x8, 0, .ro, .live⟩
def SCT_MOVES_STATE_LOST : Field := ⟨0xd00280, 0, 16, 0x8, 0, .ro, .live⟩

-- PTP_CFG (09_intake_and_streams.md R263)
def PTP_CFG_STEP_NS : Field := ⟨0xe00000, 48, 16, 0, 1000, .rw, .live⟩
def PTP_CFG_LOCK_NS : Field := ⟨0xe00000, 32, 16, 0, 100, .rw, .live⟩
def PTP_CFG_LOG_DELAY : Field := ⟨0xe00000, 24, 8, 0, 252, .rw, .static⟩
def PTP_CFG_DOMAIN : Field := ⟨0xe00000, 16, 8, 0, 0, .rw, .static⟩
def PTP_CFG_PRIMARY : Field := ⟨0xe00000, 2, 1, 0, 0, .rw, .live⟩
def PTP_CFG_TRANSPORT : Field := ⟨0xe00000, 1, 1, 0, 0, .rw, .static⟩
def PTP_CFG_DELAY : Field := ⟨0xe00000, 0, 1, 0, 0, .rw, .static⟩

-- PTP_IP (09_intake_and_streams.md R263)
def PTP_IP_ADDR : Field := ⟨0xe00008, 0, 32, 0x8, 0, .rw, .static⟩

-- PTP_PORT (09_intake_and_streams.md R263)
def PTP_PORT_LOCKED : Field := ⟨0xe00018, 8, 1, 0x8, 0, .ro, .live⟩
def PTP_PORT_STATE : Field := ⟨0xe00018, 0, 4, 0x8, 1, .ro, .live⟩

-- PTP_MASTER (09_intake_and_streams.md R263)
def PTP_MASTER_CLOCK_ID : Field := ⟨0xe00028, 0, 64, 0x8, 0, .ro, .live⟩

-- PTP_OFFSET (09_intake_and_streams.md R263)
def PTP_OFFSET_OFFSET : Field := ⟨0xe00038, 0, 64, 0x8, 0, .ro, .live⟩

-- PTP_DELAY (09_intake_and_streams.md R263)
def PTP_DELAY_DELAY : Field := ⟨0xe00048, 0, 64, 0x8, 0, .ro, .live⟩

-- PTP_LAT (09_intake_and_streams.md R263)
def PTP_LAT_TX_PS : Field := ⟨0xe00058, 32, 32, 0x8, 0, .rw, .static⟩
def PTP_LAT_RX_PS : Field := ⟨0xe00058, 0, 32, 0x8, 0, .rw, .static⟩

-- PTP_ASYM (09_intake_and_streams.md R263)
def PTP_ASYM_ASYM : Field := ⟨0xe00068, 0, 64, 0x8, 0, .rw, .static⟩

-- PTP_STATUS (09_intake_and_streams.md R263)
def PTP_STATUS_STEPS : Field := ⟨0xe00078, 32, 32, 0, 0, .ro, .live⟩
def PTP_STATUS_HOLDOVER : Field := ⟨0xe00078, 2, 1, 0, 1, .ro, .live⟩
def PTP_STATUS_LOCKED : Field := ⟨0xe00078, 1, 1, 0, 0, .ro, .live⟩
def PTP_STATUS_SOURCE : Field := ⟨0xe00078, 0, 1, 0, 0, .ro, .live⟩

-- PTP_RATE (09_intake_and_streams.md R263)
def PTP_RATE_TRIM : Field := ⟨0xe00080, 0, 32, 0, 0, .ro, .live⟩

-- PTP_CAPTURE_S (09_intake_and_streams.md R263)
def PTP_CAPTURE_S_SECONDS : Field := ⟨0xe00088, 0, 48, 0, 0, .ro, .live⟩

-- PTP_CAPTURE_NS (09_intake_and_streams.md R263)
def PTP_CAPTURE_NS_NS : Field := ⟨0xe00090, 0, 30, 0, 0, .ro, .live⟩

-- PTP_COUNT (09_intake_and_streams.md R263)
def PTP_COUNT_SYNC : Field := ⟨0xe00098, 48, 16, 0x8, 0, .ro, .live⟩
def PTP_COUNT_ANNOUNCE : Field := ⟨0xe00098, 32, 16, 0x8, 0, .ro, .live⟩
def PTP_COUNT_DELAY_TX : Field := ⟨0xe00098, 16, 16, 0x8, 0, .ro, .live⟩
def PTP_COUNT_DISCARDED : Field := ⟨0xe00098, 0, 16, 0x8, 0, .ro, .live⟩

-- HAUL_PORT_CTRL (10_haul_links.md R294)
def HAUL_PORT_CTRL_LOOPBACK_OK : Field := ⟨0x1000000, 7, 1, 0x10000, 0, .rw, .static⟩
def HAUL_PORT_CTRL_ROT_EN : Field := ⟨0x1000000, 6, 1, 0x10000, 1, .rw, .live⟩
def HAUL_PORT_CTRL_FORCE_ROT : Field := ⟨0x1000000, 5, 1, 0x10000, 0, .wo, .live⟩
def HAUL_PORT_CTRL_RETRAIN : Field := ⟨0x1000000, 4, 1, 0x10000, 0, .wo, .live⟩
def HAUL_PORT_CTRL_RESET : Field := ⟨0x1000000, 3, 1, 0x10000, 0, .wo, .live⟩
def HAUL_PORT_CTRL_ENABLE : Field := ⟨0x1000000, 0, 1, 0x10000, 1, .rw, .live⟩

-- HAUL_PORT_STATUS (10_haul_links.md R294)
def HAUL_PORT_STATUS_DOWN_CAUSE : Field := ⟨0x1000008, 32, 8, 0x10000, 0, .ro, .live⟩
def HAUL_PORT_STATUS_TRAIN_CODE : Field := ⟨0x1000008, 28, 4, 0x10000, 0, .ro, .live⟩
def HAUL_PORT_STATUS_SPARE_OK : Field := ⟨0x1000008, 15, 1, 0x10000, 0, .ro, .live⟩
def HAUL_PORT_STATUS_LOCK_LOST : Field := ⟨0x1000008, 14, 1, 0x10000, 0, .ro, .live⟩
def HAUL_PORT_STATUS_ROTATING : Field := ⟨0x1000008, 13, 1, 0x10000, 0, .ro, .live⟩
def HAUL_PORT_STATUS_SWAPPING : Field := ⟨0x1000008, 12, 1, 0x10000, 0, .ro, .live⟩
def HAUL_PORT_STATUS_PARTNER_TYPE : Field := ⟨0x1000008, 10, 2, 0x10000, 0, .ro, .live⟩
def HAUL_PORT_STATUS_STATE : Field := ⟨0x1000008, 0, 4, 0x10000, 1, .ro, .live⟩

-- HAUL_CFG (10_haul_links.md R294)
def HAUL_CFG_LINK_DOWN_US : Field := ⟨0x1000010, 50, 14, 0x10000, 100, .rw, .live⟩
def HAUL_CFG_MARKER_TICKS : Field := ⟨0x1000010, 38, 12, 0x10000, 128, .rw, .static⟩
def HAUL_CFG_REPLAY_MARGIN_NS : Field := ⟨0x1000010, 26, 12, 0x10000, 512, .rw, .live⟩
def HAUL_CFG_LANE_FAIL_NS : Field := ⟨0x1000010, 16, 10, 0x10000, 256, .rw, .live⟩

-- HAUL_LANE_CFG (10_haul_links.md R294)
def HAUL_LANE_CFG_DEG_SYM : Field := ⟨0x1000018, 48, 16, 0x10000, 1024, .rw, .live⟩
def HAUL_LANE_CFG_CAL_MS : Field := ⟨0x1000018, 40, 8, 0x10000, 5, .rw, .live⟩
def HAUL_LANE_CFG_ROT_MS : Field := ⟨0x1000018, 28, 12, 0x10000, 100, .rw, .live⟩
def HAUL_LANE_CFG_RETRY_MS : Field := ⟨0x1000018, 16, 12, 0x10000, 10, .rw, .live⟩

-- HAUL_LANE_MAP (10_haul_links.md R294)
def HAUL_LANE_MAP_FAILED : Field := ⟨0x1000020, 36, 9, 0x10000, 0, .ro, .live⟩
def HAUL_LANE_MAP_SPARE : Field := ⟨0x1000020, 32, 4, 0x10000, 15, .ro, .live⟩
def HAUL_LANE_MAP_LOGICAL : Field := ⟨0x1000020, 0, 32, 0x10000, 0, .ro, .live⟩

-- HAUL_LANE_MAP_TX (10_haul_links.md R294)
def HAUL_LANE_MAP_TX_FAILED : Field := ⟨0x1000028, 36, 9, 0x10000, 0, .ro, .live⟩
def HAUL_LANE_MAP_TX_SPARE : Field := ⟨0x1000028, 32, 4, 0x10000, 15, .ro, .live⟩
def HAUL_LANE_MAP_TX_LOGICAL : Field := ⟨0x1000028, 0, 32, 0x10000, 0, .ro, .live⟩

-- HAUL_PARTNER (10_haul_links.md R294)
def HAUL_PARTNER_REPLAY_BLOCKS : Field := ⟨0x1000030, 32, 16, 0x10000, 0, .ro, .live⟩
def HAUL_PARTNER_VERSION : Field := ⟨0x1000030, 24, 8, 0x10000, 0, .ro, .live⟩
def HAUL_PARTNER_TYPE : Field := ⟨0x1000030, 20, 2, 0x10000, 0, .ro, .live⟩
def HAUL_PARTNER_PORT : Field := ⟨0x1000030, 16, 4, 0x10000, 0, .ro, .live⟩
def HAUL_PARTNER_MODULE : Field := ⟨0x1000030, 0, 16, 0x10000, 65535, .ro, .live⟩

-- HAUL_PARTNER_SERIAL (10_haul_links.md R294)
def HAUL_PARTNER_SERIAL_SERIAL : Field := ⟨0x1000038, 0, 64, 0x10000, 0, .ro, .live⟩

-- HAUL_LOOP_DELAY (10_haul_links.md R294)
def HAUL_LOOP_DELAY_ALIGN_PS : Field := ⟨0x1000040, 48, 16, 0x10000, 0, .ro, .live⟩
def HAUL_LOOP_DELAY_LOOP : Field := ⟨0x1000040, 0, 32, 0x10000, 0, .ro, .live⟩

-- HAUL_LAT (10_haul_links.md R294)
def HAUL_LAT_TX_PS : Field := ⟨0x1000048, 32, 32, 0x10000, 0, .rw, .static⟩
def HAUL_LAT_RX_PS : Field := ⟨0x1000048, 0, 32, 0x10000, 0, .rw, .static⟩

-- HAUL_SEQ (10_haul_links.md R294)
def HAUL_SEQ_NEXT_TX : Field := ⟨0x1000050, 48, 16, 0x10000, 0, .ro, .live⟩
def HAUL_SEQ_ACKED : Field := ⟨0x1000050, 32, 16, 0x10000, 65535, .ro, .live⟩
def HAUL_SEQ_EXPECTED : Field := ⟨0x1000050, 16, 16, 0x10000, 0, .ro, .live⟩
def HAUL_SEQ_OUTSTANDING : Field := ⟨0x1000050, 0, 16, 0x10000, 0, .ro, .live⟩

-- HAUL_CREDIT (10_haul_links.md R294)
def HAUL_CREDIT_PARTNER1 : Field := ⟨0x1000058, 42, 10, 0x10000, 0, .ro, .live⟩
def HAUL_CREDIT_PARTNER0 : Field := ⟨0x1000058, 32, 10, 0x10000, 0, .ro, .live⟩
def HAUL_CREDIT_AVAIL1 : Field := ⟨0x1000058, 16, 10, 0x10000, 0, .ro, .live⟩
def HAUL_CREDIT_AVAIL0 : Field := ⟨0x1000058, 0, 10, 0x10000, 0, .ro, .live⟩

-- HAUL_REPLAY_COUNT (10_haul_links.md R294)
def HAUL_REPLAY_COUNT_BLOCKS : Field := ⟨0x1000060, 32, 32, 0x10000, 0, .ro, .live⟩
def HAUL_REPLAY_COUNT_NAK_RX : Field := ⟨0x1000060, 16, 16, 0x10000, 0, .ro, .live⟩
def HAUL_REPLAY_COUNT_TIMEOUTS : Field := ⟨0x1000060, 0, 16, 0x10000, 0, .ro, .live⟩

-- HAUL_ERR_COUNT (10_haul_links.md R294)
def HAUL_ERR_COUNT_CRC_FAIL : Field := ⟨0x1000068, 48, 16, 0x10000, 0, .ro, .live⟩
def HAUL_ERR_COUNT_FEC_UNCORR : Field := ⟨0x1000068, 32, 16, 0x10000, 0, .ro, .live⟩
def HAUL_ERR_COUNT_DUP : Field := ⟨0x1000068, 16, 16, 0x10000, 0, .ro, .live⟩
def HAUL_ERR_COUNT_GAP : Field := ⟨0x1000068, 0, 16, 0x10000, 0, .ro, .live⟩

-- HAUL_LINK_COUNT (10_haul_links.md R294)
def HAUL_LINK_COUNT_UPS : Field := ⟨0x1000070, 48, 16, 0x10000, 0, .ro, .live⟩
def HAUL_LINK_COUNT_TRAIN_FAILS : Field := ⟨0x1000070, 32, 16, 0x10000, 0, .ro, .live⟩
def HAUL_LINK_COUNT_DOWNS : Field := ⟨0x1000070, 16, 16, 0x10000, 0, .ro, .live⟩
def HAUL_LINK_COUNT_RSVD_DROP : Field := ⟨0x1000070, 0, 16, 0x10000, 0, .ro, .live⟩

-- HAUL_LANE_COUNT (10_haul_links.md R294)
def HAUL_LANE_COUNT_SWAPS : Field := ⟨0x1000078, 48, 16, 0x10000, 0, .ro, .live⟩
def HAUL_LANE_COUNT_ROTATIONS : Field := ⟨0x1000078, 32, 16, 0x10000, 0, .ro, .live⟩
def HAUL_LANE_COUNT_LANE_FAILS : Field := ⟨0x1000078, 16, 16, 0x10000, 0, .ro, .live⟩
def HAUL_LANE_COUNT_CAL_FAILS : Field := ⟨0x1000078, 0, 16, 0x10000, 0, .ro, .live⟩

-- HAUL_MARKER_COUNT (10_haul_links.md R294)
def HAUL_MARKER_COUNT_RX : Field := ⟨0x1000080, 32, 32, 0x10000, 0, .ro, .live⟩
def HAUL_MARKER_COUNT_TX : Field := ⟨0x1000080, 0, 32, 0x10000, 0, .ro, .live⟩

-- HAUL_EVENT (10_haul_links.md R294)
def HAUL_EVENT_CAL_FAIL : Field := ⟨0x1000088, 9, 1, 0x10000, 0, .w1c, .live⟩
def HAUL_EVENT_DEGRADED : Field := ⟨0x1000088, 8, 1, 0x10000, 0, .w1c, .live⟩
def HAUL_EVENT_NO_SPARE : Field := ⟨0x1000088, 7, 1, 0x10000, 0, .w1c, .live⟩
def HAUL_EVENT_RSVD_DROP : Field := ⟨0x1000088, 6, 1, 0x10000, 0, .w1c, .live⟩
def HAUL_EVENT_REPLAY_TIMEOUT : Field := ⟨0x1000088, 5, 1, 0x10000, 0, .w1c, .live⟩
def HAUL_EVENT_CRC_FAIL : Field := ⟨0x1000088, 4, 1, 0x10000, 0, .w1c, .live⟩
def HAUL_EVENT_SWAP : Field := ⟨0x1000088, 3, 1, 0x10000, 0, .w1c, .live⟩
def HAUL_EVENT_LANE_FAIL : Field := ⟨0x1000088, 2, 1, 0x10000, 0, .w1c, .live⟩
def HAUL_EVENT_TRAIN_FAIL : Field := ⟨0x1000088, 1, 1, 0x10000, 0, .w1c, .live⟩
def HAUL_EVENT_DOWN : Field := ⟨0x1000088, 0, 1, 0x10000, 0, .w1c, .live⟩

-- HAUL_LOST (10_haul_links.md R294)
def HAUL_LOST_AT_DOWN : Field := ⟨0x1000090, 32, 32, 0x10000, 0, .ro, .live⟩

-- HAUL_LANE_STAT (10_haul_links.md R294)
def HAUL_LANE_STAT_CORR_SYM : Field := ⟨0x1000100, 32, 32, 0x8, 0, .ro, .live⟩
def HAUL_LANE_STAT_UNCORR : Field := ⟨0x1000100, 16, 16, 0x8, 0, .ro, .live⟩
def HAUL_LANE_STAT_LOCK_LOSSES : Field := ⟨0x1000100, 8, 8, 0x8, 0, .ro, .live⟩
def HAUL_LANE_STAT_STATE : Field := ⟨0x1000100, 0, 3, 0x8, 5, .ro, .live⟩

-- SCH_CFG (11_scheduled_fabric.md R327)
def SCH_CFG_MAX_HOLDS : Field := ⟨0x1200000, 32, 8, 0, 16, .rw, .static⟩
def SCH_CFG_MAX_REPLAYS : Field := ⟨0x1200000, 24, 4, 0, 3, .rw, .static⟩
def SCH_CFG_FAST_US : Field := ⟨0x1200000, 0, 16, 0, 4, .rw, .live⟩

-- SCH_CTRL (11_scheduled_fabric.md R327)
def SCH_CTRL_CLEAR_FWD : Field := ⟨0x1200008, 2, 1, 0, 0, .wo, .live⟩
def SCH_CTRL_RESTORE_ARM : Field := ⟨0x1200008, 1, 1, 0, 0, .wo, .live⟩
def SCH_CTRL_TELEM_NOW : Field := ⟨0x1200008, 0, 1, 0, 0, .wo, .live⟩

-- SCH_RESTORE_AT (11_scheduled_fabric.md R327)
def SCH_RESTORE_AT_AT : Field := ⟨0x1200010, 0, 64, 0, 0, .rw, .staged⟩

-- SCH_STATUS (11_scheduled_fabric.md R327)
def SCH_STATUS_STEP : Field := ⟨0x1200018, 32, 32, 0, 0, .ro, .live⟩
def SCH_STATUS_ATTEMPT : Field := ⟨0x1200018, 30, 2, 0, 0, .ro, .live⟩
def SCH_STATUS_REPLAYING : Field := ⟨0x1200018, 29, 1, 0, 0, .ro, .live⟩
def SCH_STATUS_HOLDING : Field := ⟨0x1200018, 28, 1, 0, 0, .ro, .live⟩
def SCH_STATUS_DETOURED : Field := ⟨0x1200018, 0, 16, 0, 0, .ro, .live⟩

-- SCH_HOLD_NEXT (11_scheduled_fabric.md R327)
def SCH_HOLD_NEXT_POINT : Field := ⟨0x1200020, 0, 64, 0, 0, .ro, .live⟩

-- SCH_HOLD_NEXT_Q (11_scheduled_fabric.md R327)
def SCH_HOLD_NEXT_Q_CAUSE : Field := ⟨0x1200028, 16, 8, 0, 0, .ro, .live⟩
def SCH_HOLD_NEXT_Q_QUANTA : Field := ⟨0x1200028, 0, 16, 0, 0, .ro, .live⟩

-- SCH_HOLD_COUNT (11_scheduled_fabric.md R327)
def SCH_HOLD_COUNT_MISS : Field := ⟨0x1200030, 48, 16, 0, 0, .ro, .live⟩
def SCH_HOLD_COUNT_SLIP : Field := ⟨0x1200030, 32, 16, 0, 0, .ro, .live⟩
def SCH_HOLD_COUNT_FORK : Field := ⟨0x1200030, 16, 16, 0, 0, .ro, .live⟩
def SCH_HOLD_COUNT_OTHER : Field := ⟨0x1200030, 0, 16, 0, 0, .ro, .live⟩

-- SCH_NOTICE_COUNT (11_scheduled_fabric.md R327)
def SCH_NOTICE_COUNT_SENT : Field := ⟨0x1200038, 48, 16, 0, 0, .ro, .live⟩
def SCH_NOTICE_COUNT_RELAYED : Field := ⟨0x1200038, 32, 16, 0, 0, .ro, .live⟩
def SCH_NOTICE_COUNT_LATE : Field := ⟨0x1200038, 16, 16, 0, 0, .ro, .live⟩
def SCH_NOTICE_COUNT_FOREIGN : Field := ⟨0x1200038, 0, 16, 0, 0, .ro, .live⟩

-- SCH_REPLAY (11_scheduled_fabric.md R327)
def SCH_REPLAY_STARTED : Field := ⟨0x1200040, 32, 32, 0, 0, .ro, .live⟩
def SCH_REPLAY_EXHAUSTED : Field := ⟨0x1200040, 16, 16, 0, 0, .ro, .live⟩
def SCH_REPLAY_LAST_MASK : Field := ⟨0x1200040, 0, 16, 0, 0, .ro, .live⟩

-- SCH_XFER_COUNT (11_scheduled_fabric.md R327)
def SCH_XFER_COUNT_COMPLETED : Field := ⟨0x1200048, 32, 32, 0, 0, .ro, .live⟩
def SCH_XFER_COUNT_DUP : Field := ⟨0x1200048, 16, 16, 0, 0, .ro, .live⟩
def SCH_XFER_COUNT_STALE : Field := ⟨0x1200048, 0, 16, 0, 0, .ro, .live⟩

-- SCH_XFER_ERR (11_scheduled_fabric.md R327)
def SCH_XFER_ERR_LAST_EARLY : Field := ⟨0x1200050, 48, 16, 0, 0, .ro, .live⟩
def SCH_XFER_ERR_NO_ROUTE : Field := ⟨0x1200050, 32, 16, 0, 0, .ro, .live⟩
def SCH_XFER_ERR_OVERRUN : Field := ⟨0x1200050, 16, 16, 0, 0, .ro, .live⟩
def SCH_XFER_ERR_MALFORMED : Field := ⟨0x1200050, 0, 16, 0, 0, .ro, .live⟩

-- SCH_DETOUR (11_scheduled_fabric.md R327)
def SCH_DETOUR_DETOURED : Field := ⟨0x1200058, 48, 16, 0, 0, .ro, .live⟩
def SCH_DETOUR_RESENT : Field := ⟨0x1200058, 32, 16, 0, 0, .ro, .live⟩
def SCH_DETOUR_NO_PATH : Field := ⟨0x1200058, 16, 16, 0, 0, .ro, .live⟩
def SCH_DETOUR_DOWN_TX : Field := ⟨0x1200058, 8, 8, 0, 0, .ro, .live⟩
def SCH_DETOUR_DOWN_RX : Field := ⟨0x1200058, 0, 8, 0, 0, .ro, .live⟩

-- SCH_SVC_CFG (11_scheduled_fabric.md R327)
def SCH_SVC_CFG_GAP_NS : Field := ⟨0x1200060, 48, 16, 0, 1000, .rw, .live⟩
def SCH_SVC_CFG_THROTTLE_HI : Field := ⟨0x1200060, 32, 16, 0, 192, .rw, .live⟩
def SCH_SVC_CFG_THROTTLE_LO : Field := ⟨0x1200060, 16, 16, 0, 64, .rw, .live⟩
def SCH_SVC_CFG_HOP_LIMIT : Field := ⟨0x1200060, 0, 8, 0, 16, .rw, .live⟩

-- SCH_SVC_COUNT (11_scheduled_fabric.md R327)
def SCH_SVC_COUNT_THROTTLES : Field := ⟨0x1200068, 48, 16, 0, 0, .ro, .live⟩
def SCH_SVC_COUNT_REFUSED : Field := ⟨0x1200068, 32, 16, 0, 0, .ro, .live⟩
def SCH_SVC_COUNT_NO_ROUTE : Field := ⟨0x1200068, 16, 16, 0, 0, .ro, .live⟩
def SCH_SVC_COUNT_HOP_DROP : Field := ⟨0x1200068, 0, 16, 0, 0, .ro, .live⟩

-- SCH_TELEM (11_scheduled_fabric.md R327)
def SCH_TELEM_DEST : Field := ⟨0x1200070, 16, 16, 0, 65535, .rw, .live⟩
def SCH_TELEM_PERIOD_MS : Field := ⟨0x1200070, 2, 14, 0, 100, .rw, .live⟩
def SCH_TELEM_EN : Field := ⟨0x1200070, 0, 1, 0, 0, .rw, .live⟩

-- SCH_EVENT (11_scheduled_fabric.md R327)
def SCH_EVENT_THROTTLE : Field := ⟨0x1200078, 7, 1, 0, 0, .w1c, .live⟩
def SCH_EVENT_NO_PATH : Field := ⟨0x1200078, 6, 1, 0, 0, .w1c, .live⟩
def SCH_EVENT_OVERRUN : Field := ⟨0x1200078, 5, 1, 0, 0, .w1c, .live⟩
def SCH_EVENT_REPLAY_EXHAUSTED : Field := ⟨0x1200078, 4, 1, 0, 0, .w1c, .live⟩
def SCH_EVENT_HOLD_MISSED : Field := ⟨0x1200078, 3, 1, 0, 0, .w1c, .live⟩
def SCH_EVENT_DETOUR : Field := ⟨0x1200078, 2, 1, 0, 0, .w1c, .live⟩
def SCH_EVENT_REPLAY : Field := ⟨0x1200078, 1, 1, 0, 0, .w1c, .live⟩
def SCH_EVENT_HOLD : Field := ⟨0x1200078, 0, 1, 0, 0, .w1c, .live⟩

-- SCH_PORT (11_scheduled_fabric.md R327)
def SCH_PORT_BUF_PEAK : Field := ⟨0x1200100, 48, 16, 0x8, 0, .ro, .live⟩
def SCH_PORT_RING : Field := ⟨0x1200100, 36, 4, 0x8, 0, .rw, .live⟩
def SCH_PORT_DATELINE : Field := ⟨0x1200100, 35, 1, 0x8, 0, .rw, .live⟩
def SCH_PORT_DETOUR_CAUSE : Field := ⟨0x1200100, 32, 3, 0x8, 0, .ro, .live⟩
def SCH_PORT_DETOURED : Field := ⟨0x1200100, 31, 1, 0x8, 0, .ro, .live⟩
def SCH_PORT_ENTRIES : Field := ⟨0x1200100, 0, 16, 0x8, 0, .ro, .static⟩

-- SCH_SVC_ROUTE (11_scheduled_fabric.md R327)
def SCH_SVC_ROUTE_VALID : Field := ⟨0x1210000, 4, 1, 0x8, 0, .rw, .live⟩
def SCH_SVC_ROUTE_PORT : Field := ⟨0x1210000, 0, 4, 0x8, 0, .rw, .live⟩

-- TOP_MODULE (12_topology.md R349)
def TOP_MODULE_ASSIGNED : Field := ⟨0x1400000, 16, 1, 0, 0, .ro, .live⟩
def TOP_MODULE_NUMBER : Field := ⟨0x1400000, 0, 16, 0, 65535, .ro, .live⟩

-- TOP_SERIAL (12_topology.md R349)
def TOP_SERIAL_SERIAL : Field := ⟨0x1400008, 0, 64, 0, 0, .ro, .static⟩

-- TOP_DISC (12_topology.md R349)
def TOP_DISC_EPOCH : Field := ⟨0x1400010, 32, 32, 0, 0, .ro, .live⟩
def TOP_DISC_PATH_LEN : Field := ⟨0x1400010, 8, 6, 0, 0, .ro, .live⟩
def TOP_DISC_STATE : Field := ⟨0x1400010, 0, 2, 0, 0, .ro, .live⟩

-- TOP_LEASE_CTRL (12_topology.md R349)
def TOP_LEASE_CTRL_EN : Field := ⟨0x1400018, 0, 1, 0, 0, .rw, .static⟩

-- TOP_COUNT (12_topology.md R349)
def TOP_COUNT_LEASE_WAIT : Field := ⟨0x1400020, 48, 16, 0, 0, .ro, .live⟩
def TOP_COUNT_DISC_FWD : Field := ⟨0x1400020, 32, 16, 0, 0, .ro, .live⟩
def TOP_COUNT_DISC_DROP : Field := ⟨0x1400020, 16, 16, 0, 0, .ro, .live⟩
def TOP_COUNT_ASSIGN_REFUSED : Field := ⟨0x1400020, 0, 16, 0, 0, .ro, .live⟩

-- TOP_EVENT (12_topology.md R349)
def TOP_EVENT_FWD_FAILED : Field := ⟨0x1400028, 7, 1, 0, 0, .w1c, .live⟩
def TOP_EVENT_LEASE_IGNORED : Field := ⟨0x1400028, 6, 1, 0, 0, .w1c, .live⟩
def TOP_EVENT_LEASE_REFUSED : Field := ⟨0x1400028, 5, 1, 0, 0, .w1c, .live⟩
def TOP_EVENT_MISMATCH : Field := ⟨0x1400028, 4, 1, 0, 0, .w1c, .live⟩
def TOP_EVENT_PARTNER_CHANGED : Field := ⟨0x1400028, 3, 1, 0, 0, .w1c, .live⟩
def TOP_EVENT_NEW_LINK : Field := ⟨0x1400028, 2, 1, 0, 0, .w1c, .live⟩
def TOP_EVENT_ASSIGN_REFUSED : Field := ⟨0x1400028, 1, 1, 0, 0, .w1c, .live⟩
def TOP_EVENT_ASSIGNED : Field := ⟨0x1400028, 0, 1, 0, 0, .w1c, .live⟩

-- TOP_MGR_PATH (12_topology.md R349)
def TOP_MGR_PATH_PORTS : Field := ⟨0x1400040, 0, 64, 0x8, 0, .ro, .live⟩

-- TOP_PORT (12_topology.md R349)
def TOP_PORT_EXPECT : Field := ⟨0x1400100, 48, 16, 0x8, 65535, .rw, .live⟩
def TOP_PORT_PARTNER_PORT : Field := ⟨0x1400100, 32, 8, 0x8, 0, .ro, .live⟩
def TOP_PORT_PARTNER : Field := ⟨0x1400100, 16, 16, 0x8, 65535, .ro, .live⟩
def TOP_PORT_MISMATCH : Field := ⟨0x1400100, 8, 1, 0x8, 0, .ro, .live⟩
def TOP_PORT_USE : Field := ⟨0x1400100, 4, 3, 0x8, 0, .ro, .static⟩
def TOP_PORT_BUNDLE : Field := ⟨0x1400100, 0, 4, 0x8, 0, .ro, .static⟩

-- TOP_LEASE (12_topology.md R349)
def TOP_LEASE_ROUTE_BASE : Field := ⟨0x1400200, 48, 16, 0x10, 0, .rw, .static⟩
def TOP_LEASE_ROUTE_COUNT : Field := ⟨0x1400200, 32, 16, 0x10, 0, .rw, .static⟩
def TOP_LEASE_PORTS : Field := ⟨0x1400200, 16, 16, 0x10, 0, .rw, .static⟩
def TOP_LEASE_BUF : Field := ⟨0x1400200, 5, 11, 0x10, 0, .rw, .static⟩
def TOP_LEASE_SHARE : Field := ⟨0x1400200, 2, 3, 0x10, 0, .rw, .static⟩
def TOP_LEASE_VALID : Field := ⟨0x1400200, 0, 1, 0x10, 0, .rw, .static⟩

-- TOP_LEASE_PLAN (12_topology.md R349)
def TOP_LEASE_PLAN_PLAN : Field := ⟨0x1400208, 0, 64, 0x10, 0, .rw, .static⟩

-- TOP_FWD_CTRL (12_topology.md R349)
def TOP_FWD_CTRL_SLOT : Field := ⟨0x1400300, 8, 3, 0, 0, .rw, .live⟩
def TOP_FWD_CTRL_UNLOAD_ARM : Field := ⟨0x1400300, 3, 1, 0, 0, .wo, .live⟩
def TOP_FWD_CTRL_DISARM : Field := ⟨0x1400300, 2, 1, 0, 0, .wo, .live⟩
def TOP_FWD_CTRL_ARM : Field := ⟨0x1400300, 1, 1, 0, 0, .wo, .live⟩
def TOP_FWD_CTRL_LOAD : Field := ⟨0x1400300, 0, 1, 0, 0, .wo, .live⟩

-- TOP_FWD_SRC (12_topology.md R349)
def TOP_FWD_SRC_ADDR : Field := ⟨0x1400308, 0, 48, 0, 0, .rw, .live⟩

-- TOP_FWD_AT (12_topology.md R349)
def TOP_FWD_AT_AT : Field := ⟨0x1400310, 0, 64, 0, 0, .rw, .staged⟩

-- TOP_FWD_STATUS (12_topology.md R349)
def TOP_FWD_STATUS_CODE : Field := ⟨0x1400320, 56, 8, 0x8, 0, .ro, .live⟩
def TOP_FWD_STATUS_LEASE : Field := ⟨0x1400320, 48, 3, 0x8, 0, .ro, .live⟩
def TOP_FWD_STATUS_STATE : Field := ⟨0x1400320, 32, 3, 0x8, 0, .ro, .live⟩
def TOP_FWD_STATUS_PLAN : Field := ⟨0x1400320, 0, 32, 0x8, 0, .ro, .live⟩

-- TWN_CFG (13_twin_pairs.md R361)
def TWN_CFG_TAKEOVER_LEAD : Field := ⟨0x1500000, 32, 32, 0, 16384, .rw, .live⟩
def TWN_CFG_MAX_HOLDS : Field := ⟨0x1500000, 24, 8, 0, 4, .rw, .static⟩
def TWN_CFG_LOST_WINDOWS : Field := ⟨0x1500000, 16, 8, 0, 4, .rw, .live⟩
def TWN_CFG_AUTO_TAKEOVER : Field := ⟨0x1500000, 2, 1, 0, 0, .rw, .live⟩
def TWN_CFG_ROLE : Field := ⟨0x1500000, 0, 1, 0, 0, .rw, .static⟩

-- TWN_CTRL (13_twin_pairs.md R361)
def TWN_CTRL_TAKEOVER : Field := ⟨0x1500008, 1, 1, 0, 0, .wo, .live⟩
def TWN_CTRL_SOLO : Field := ⟨0x1500008, 0, 1, 0, 0, .wo, .live⟩

-- TWN_STATUS (13_twin_pairs.md R361)
def TWN_STATUS_PARTNER : Field := ⟨0x1500010, 48, 16, 0, 65535, .ro, .live⟩
def TWN_STATUS_PORTS : Field := ⟨0x1500010, 32, 16, 0, 0, .ro, .live⟩
def TWN_STATUS_STATE : Field := ⟨0x1500010, 2, 2, 0, 0, .ro, .live⟩
def TWN_STATUS_ROLE_NOW : Field := ⟨0x1500010, 1, 1, 0, 0, .ro, .live⟩

-- TWN_COUNT (13_twin_pairs.md R361)
def TWN_COUNT_BATCHES : Field := ⟨0x1500020, 32, 32, 0, 0, .ro, .live⟩
def TWN_COUNT_HOLDS : Field := ⟨0x1500020, 16, 16, 0, 0, .ro, .live⟩
def TWN_COUNT_DIVERGE : Field := ⟨0x1500020, 0, 16, 0, 0, .ro, .live⟩

-- TWN_DROP (13_twin_pairs.md R361)
def TWN_DROP_STANDBY_DROP : Field := ⟨0x1500028, 32, 32, 0, 0, .ro, .live⟩
def TWN_DROP_SKIPPED : Field := ⟨0x1500028, 16, 16, 0, 0, .ro, .live⟩
def TWN_DROP_LATE_ITEMS : Field := ⟨0x1500028, 0, 16, 0, 0, .ro, .live⟩

-- TWN_EVENT (13_twin_pairs.md R361)
def TWN_EVENT_TAKEOVER : Field := ⟨0x1500030, 4, 1, 0, 0, .w1c, .live⟩
def TWN_EVENT_LOST : Field := ⟨0x1500030, 3, 1, 0, 0, .w1c, .live⟩
def TWN_EVENT_DIVERGE : Field := ⟨0x1500030, 2, 1, 0, 0, .w1c, .live⟩
def TWN_EVENT_HOLD : Field := ⟨0x1500030, 1, 1, 0, 0, .w1c, .live⟩
def TWN_EVENT_PORT_DOWN : Field := ⟨0x1500030, 0, 1, 0, 0, .w1c, .live⟩

-- TWN_DIVERGE (13_twin_pairs.md R361)
def TWN_DIVERGE_WINDOW : Field := ⟨0x1500038, 24, 40, 0, 0, .ro, .live⟩
def TWN_DIVERGE_SLOT : Field := ⟨0x1500038, 16, 8, 0, 0, .ro, .live⟩
def TWN_DIVERGE_CONTEXT : Field := ⟨0x1500038, 4, 4, 0, 0, .ro, .live⟩
def TWN_DIVERGE_VALID : Field := ⟨0x1500038, 0, 1, 0, 0, .ro, .live⟩

-- TWN_CTX (13_twin_pairs.md R361)
def TWN_CTX_COMPARE_TICKS : Field := ⟨0x1500100, 48, 16, 0x8, 0, .rw, .static⟩
def TWN_CTX_LAG : Field := ⟨0x1500100, 40, 4, 0x8, 1, .rw, .static⟩
def TWN_CTX_GATE : Field := ⟨0x1500100, 3, 1, 0x8, 0, .rw, .static⟩
def TWN_CTX_MODE : Field := ⟨0x1500100, 0, 2, 0x8, 0, .rw, .static⟩

-- TWN_STAGE (13_twin_pairs.md R361)
def TWN_STAGE_MIB : Field := ⟨0x1500180, 48, 16, 0x8, 0, .rw, .static⟩
def TWN_STAGE_ADDR : Field := ⟨0x1500180, 0, 48, 0x8, 0, .rw, .static⟩

-- TWN_APPLIED (13_twin_pairs.md R361)
def TWN_APPLIED_WINDOW : Field := ⟨0x1500200, 0, 64, 0x8, 0, .ro, .live⟩

-- OLC_STATUS (14_forester_and_control.md R380)
def OLC_STATUS_LANES_OK : Field := ⟨0x1600000, 16, 32, 0, 0, .ro, .live⟩
def OLC_STATUS_WIDTH : Field := ⟨0x1600000, 4, 1, 0, 0, .ro, .live⟩
def OLC_STATUS_STATE : Field := ⟨0x1600000, 0, 4, 0, 0, .ro, .live⟩

-- OLC_ERR (14_forester_and_control.md R380)
def OLC_ERR_RETRIES : Field := ⟨0x1600008, 32, 32, 0, 0, .ro, .live⟩
def OLC_ERR_DOWNS : Field := ⟨0x1600008, 24, 8, 0, 0, .ro, .live⟩
def OLC_ERR_LANE_FAILS : Field := ⟨0x1600008, 16, 8, 0, 0, .ro, .live⟩
def OLC_ERR_BAD_CSR : Field := ⟨0x1600008, 8, 8, 0, 0, .ro, .live⟩
def OLC_ERR_LOST : Field := ⟨0x1600008, 0, 8, 0, 0, .ro, .live⟩

-- OLC_CACHE (14_forester_and_control.md R380)
def OLC_CACHE_HITS : Field := ⟨0x1600010, 32, 32, 0, 0, .ro, .live⟩
def OLC_CACHE_MISSES : Field := ⟨0x1600010, 0, 32, 0, 0, .ro, .live⟩

-- OLC_IGNORED (14_forester_and_control.md R380)
def OLC_IGNORED_COUNT : Field := ⟨0x1600018, 32, 32, 0, 0, .ro, .live⟩
def OLC_IGNORED_OFFSET : Field := ⟨0x1600018, 0, 25, 0, 0, .ro, .live⟩

-- OLC_2PC (14_forester_and_control.md R380)
def OLC_2PC_LEAD_TICKS : Field := ⟨0x1600020, 32, 32, 0, 8192, .rw, .static⟩
def OLC_2PC_VOTE_TICKS : Field := ⟨0x1600020, 16, 16, 0, 2048, .rw, .static⟩

-- OLC_CHANGE_NEXT (14_forester_and_control.md R380)
def OLC_CHANGE_NEXT_FRESH : Field := ⟨0x1600028, 40, 1, 0, 0, .ro, .live⟩
def OLC_CHANGE_NEXT_CONTEXT : Field := ⟨0x1600028, 36, 4, 0, 0, .rw, .live⟩
def OLC_CHANGE_NEXT_KIND : Field := ⟨0x1600028, 32, 4, 0, 0, .rw, .live⟩
def OLC_CHANGE_NEXT_ID : Field := ⟨0x1600028, 0, 32, 0, 0, .rw, .live⟩

-- OLC_CHANGE_AT (14_forester_and_control.md R380)
def OLC_CHANGE_AT_AT : Field := ⟨0x1600030, 0, 64, 0, 0, .rw, .staged⟩

-- OLC_CTRL (14_forester_and_control.md R380)
def OLC_CTRL_DISARM : Field := ⟨0x1600038, 1, 1, 0, 0, .wo, .live⟩
def OLC_CTRL_ARM : Field := ⟨0x1600038, 0, 1, 0, 0, .wo, .live⟩

-- OLC_SPLIT (14_forester_and_control.md R380)
def OLC_SPLIT_RAISED : Field := ⟨0x1600040, 48, 16, 0, 0, .ro, .live⟩
def OLC_SPLIT_LATCHED : Field := ⟨0x1600040, 32, 16, 0, 0, .ro, .live⟩
def OLC_SPLIT_HOLDS : Field := ⟨0x1600040, 16, 16, 0, 0, .ro, .live⟩
def OLC_SPLIT_AFTER_EFFECT : Field := ⟨0x1600040, 0, 16, 0, 0, .ro, .live⟩

-- OLC_EVENT (14_forester_and_control.md R380)
def OLC_EVENT_ARM_REFUSED : Field := ⟨0x1600048, 5, 1, 0, 0, .w1c, .live⟩
def OLC_EVENT_SPLIT : Field := ⟨0x1600048, 4, 1, 0, 0, .w1c, .live⟩
def OLC_EVENT_IGNORED : Field := ⟨0x1600048, 3, 1, 0, 0, .w1c, .live⟩
def OLC_EVENT_BAD_CSR : Field := ⟨0x1600048, 2, 1, 0, 0, .w1c, .live⟩
def OLC_EVENT_DEGRADED : Field := ⟨0x1600048, 1, 1, 0, 0, .w1c, .live⟩
def OLC_EVENT_DOWN : Field := ⟨0x1600048, 0, 1, 0, 0, .w1c, .live⟩

-- OLC_FOREMAN (14_forester_and_control.md R380)
def OLC_FOREMAN_BEATS : Field := ⟨0x1600080, 32, 32, 0x8, 0, .ro, .live⟩
def OLC_FOREMAN_STATE : Field := ⟨0x1600080, 0, 2, 0x8, 0, .ro, .live⟩

-- OLC_CHANGE (14_forester_and_control.md R380)
def OLC_CHANGE_ID : Field := ⟨0x1600100, 96, 32, 0x10, 0, .ro, .live⟩
def OLC_CHANGE_KIND : Field := ⟨0x1600100, 92, 4, 0x10, 0, .ro, .live⟩
def OLC_CHANGE_STATE : Field := ⟨0x1600100, 88, 4, 0x10, 0, .ro, .live⟩
def OLC_CHANGE_REASON : Field := ⟨0x1600100, 85, 3, 0x10, 0, .ro, .live⟩
def OLC_CHANGE_VOTES : Field := ⟨0x1600100, 72, 13, 0x10, 0, .ro, .live⟩
def OLC_CHANGE_AT : Field := ⟨0x1600100, 0, 64, 0x10, 0, .ro, .live⟩

-- FLT_STATUS (15_faults_security_observation.md R405)
def FLT_STATUS_DEPTH : Field := ⟨0x1700000, 4, 4, 0, 0, .ro, .live⟩
def FLT_STATUS_DIE_HELD : Field := ⟨0x1700000, 3, 1, 0, 0, .ro, .live⟩
def FLT_STATUS_CLASS : Field := ⟨0x1700000, 1, 2, 0, 0, .ro, .live⟩
def FLT_STATUS_PRIMARY : Field := ⟨0x1700000, 0, 1, 0, 0, .ro, .live⟩

-- FLT_PRIMARY (15_faults_security_observation.md R405)
def FLT_PRIMARY_RECORD : Field := ⟨0x1700008, 0, 64, 0x8, 0, .ro, .live⟩

-- FLT_CTRL (15_faults_security_observation.md R405)
def FLT_CTRL_RELEASE : Field := ⟨0x1700028, 17, 1, 0, 0, .wo, .live⟩
def FLT_CTRL_ACK : Field := ⟨0x1700028, 16, 1, 0, 0, .wo, .live⟩
def FLT_CTRL_ACK_SEQ : Field := ⟨0x1700028, 0, 16, 0, 0, .rw, .live⟩

-- FLT_CFG (15_faults_security_observation.md R405)
def FLT_CFG_BENCH_MS : Field := ⟨0x1700030, 0, 16, 0, 1000, .rw, .live⟩

-- FLT_COUNT (15_faults_security_observation.md R405)
def FLT_COUNT_CORRECTED : Field := ⟨0x1700038, 32, 32, 0, 0, .ro, .live⟩
def FLT_COUNT_CONTAINED : Field := ⟨0x1700038, 16, 16, 0, 0, .ro, .live⟩
def FLT_COUNT_STEP_FATAL : Field := ⟨0x1700038, 4, 12, 0, 0, .ro, .live⟩
def FLT_COUNT_STALE_ACK : Field := ⟨0x1700038, 0, 4, 0, 0, .ro, .live⟩

-- FLT_OVERFLOW (15_faults_security_observation.md R405)
def FLT_OVERFLOW_MODULE_FATAL : Field := ⟨0x1700040, 48, 16, 0, 0, .ro, .live⟩
def FLT_OVERFLOW_STEP : Field := ⟨0x1700040, 32, 16, 0, 0, .ro, .live⟩
def FLT_OVERFLOW_CONTAINED : Field := ⟨0x1700040, 16, 16, 0, 0, .ro, .live⟩
def FLT_OVERFLOW_REPEATS : Field := ⟨0x1700040, 0, 16, 0, 0, .ro, .live⟩

-- FLT_QUEUE (15_faults_security_observation.md R405)
def FLT_QUEUE_RECORD : Field := ⟨0x1700100, 0, 64, 0x8, 0, .ro, .live⟩

-- RRC_CFG (15_faults_security_observation.md R406)
def RRC_CFG_HIGH : Field := ⟨0x1800000, 16, 11, 0, 768, .rw, .live⟩
def RRC_CFG_SPILL_S : Field := ⟨0x1800000, 0, 16, 0, 60, .rw, .live⟩

-- RRC_STATUS (15_faults_security_observation.md R406)
def RRC_STATUS_SPILL_SEQ : Field := ⟨0x1800008, 32, 32, 0, 0, .ro, .live⟩
def RRC_STATUS_WAITING : Field := ⟨0x1800008, 12, 1, 0, 0, .ro, .live⟩
def RRC_STATUS_USED : Field := ⟨0x1800008, 0, 11, 0, 0, .ro, .live⟩

-- RRC_DROP (15_faults_security_observation.md R406)
def RRC_DROP_CRITICAL : Field := ⟨0x1800010, 48, 16, 0, 0, .ro, .live⟩
def RRC_DROP_FAULT : Field := ⟨0x1800010, 32, 16, 0, 0, .ro, .live⟩
def RRC_DROP_NOTICE : Field := ⟨0x1800010, 16, 16, 0, 0, .ro, .live⟩
def RRC_DROP_INFO : Field := ⟨0x1800010, 0, 16, 0, 0, .ro, .live⟩

-- RRC_OVERWRITE (15_faults_security_observation.md R406)
def RRC_OVERWRITE_SPILLED : Field := ⟨0x1800018, 48, 16, 0, 0, .ro, .live⟩
def RRC_OVERWRITE_FAULT : Field := ⟨0x1800018, 32, 16, 0, 0, .ro, .live⟩
def RRC_OVERWRITE_NOTICE : Field := ⟨0x1800018, 16, 16, 0, 0, .ro, .live⟩
def RRC_OVERWRITE_INFO : Field := ⟨0x1800018, 0, 16, 0, 0, .ro, .live⟩

-- RRC_CTRL (15_faults_security_observation.md R406)
def RRC_CTRL_RELEASE : Field := ⟨0x1800020, 1, 1, 0, 0, .wo, .live⟩
def RRC_CTRL_SPILL_NOW : Field := ⟨0x1800020, 0, 1, 0, 0, .wo, .live⟩

-- RRC_ENTRY (15_faults_security_observation.md R406)
def RRC_ENTRY_BYTES : Field := ⟨0x1810000, 0, 64, 0x8, 0, .ro, .live⟩

-- SEC_STATUS (15_faults_security_observation.md R407)
def SEC_STATUS_FW_SVN : Field := ⟨0x1900000, 32, 32, 0, 0, .ro, .static⟩
def SEC_STATUS_ROLLBACK : Field := ⟨0x1900000, 26, 6, 0, 0, .ro, .static⟩
def SEC_STATUS_NEXT_IMAGE : Field := ⟨0x1900000, 5, 1, 0, 0, .ro, .static⟩
def SEC_STATUS_IMAGE : Field := ⟨0x1900000, 4, 1, 0, 0, .ro, .static⟩
def SEC_STATUS_FALLBACK : Field := ⟨0x1900000, 3, 1, 0, 0, .ro, .static⟩
def SEC_STATUS_RECOVERY : Field := ⟨0x1900000, 2, 1, 0, 0, .ro, .static⟩
def SEC_STATUS_SCAN_FUSED : Field := ⟨0x1900000, 1, 1, 0, 1, .ro, .static⟩
def SEC_STATUS_OWNED : Field := ⟨0x1900000, 0, 1, 0, 0, .ro, .static⟩

-- SEC_OWNER_SEQ (15_faults_security_observation.md R407)
def SEC_OWNER_SEQ_SEQ : Field := ⟨0x1900008, 0, 64, 0, 0, .ro, .static⟩

-- SEC_CTRL (15_faults_security_observation.md R407)
def SEC_CTRL_COMMIT_SVN : Field := ⟨0x1900010, 0, 1, 0, 0, .wo, .live⟩

-- SEC_COUNT (15_faults_security_observation.md R407)
def SEC_COUNT_TLS_FAIL : Field := ⟨0x1900018, 48, 16, 0, 0, .ro, .static⟩
def SEC_COUNT_CMD_REFUSED : Field := ⟨0x1900018, 32, 16, 0, 0, .ro, .static⟩
def SEC_COUNT_PLAN_SIG_FAIL : Field := ⟨0x1900018, 16, 16, 0, 0, .ro, .static⟩
def SEC_COUNT_IMAGE_FAIL : Field := ⟨0x1900018, 0, 16, 0, 0, .ro, .static⟩

-- SEC_BOOT_NONCE (15_faults_security_observation.md R407)
def SEC_BOOT_NONCE_NONCE : Field := ⟨0x1900020, 0, 64, 0x8, 0, .ro, .static⟩

-- SEC_KEY (15_faults_security_observation.md R407)
def SEC_KEY_EPOCH : Field := ⟨0x1900100, 5, 4, 0x8, 0, .ro, .static⟩
def SEC_KEY_VALID : Field := ⟨0x1900100, 0, 1, 0x8, 0, .ro, .static⟩

-- SEC_KEY_FP (15_faults_security_observation.md R407)
def SEC_KEY_FP_FP : Field := ⟨0x1900200, 0, 64, 0x8, 0, .ro, .static⟩

-- SEC_ANCHOR (15_faults_security_observation.md R407)
def SEC_ANCHOR_ROLE : Field := ⟨0x1900300, 1, 1, 0x8, 0, .ro, .static⟩
def SEC_ANCHOR_VALID : Field := ⟨0x1900300, 0, 1, 0x8, 0, .ro, .static⟩

-- OBS_TRACE_CFG (15_faults_security_observation.md R408)
def OBS_TRACE_CFG_MODE : Field := ⟨0x1a00000, 24, 1, 0, 0, .rw, .static⟩
def OBS_TRACE_CFG_SOURCES : Field := ⟨0x1a00000, 16, 8, 0, 0, .rw, .static⟩
def OBS_TRACE_CFG_CONTEXTS : Field := ⟨0x1a00000, 0, 16, 0, 65535, .rw, .static⟩

-- OBS_TRACE_START (15_faults_security_observation.md R408)
def OBS_TRACE_START_AT : Field := ⟨0x1a00008, 0, 64, 0, 0, .rw, .staged⟩

-- OBS_TRACE_STOP (15_faults_security_observation.md R408)
def OBS_TRACE_STOP_AT : Field := ⟨0x1a00010, 0, 64, 0, 0, .rw, .live⟩

-- OBS_TRACE_CTRL (15_faults_security_observation.md R408)
def OBS_TRACE_CTRL_STOP_NOW : Field := ⟨0x1a00018, 1, 1, 0, 0, .wo, .live⟩
def OBS_TRACE_CTRL_ARM : Field := ⟨0x1a00018, 0, 1, 0, 0, .wo, .live⟩

-- OBS_TRACE_STATUS (15_faults_security_observation.md R408)
def OBS_TRACE_STATUS_DROPPED : Field := ⟨0x1a00020, 32, 32, 0, 0, .ro, .live⟩
def OBS_TRACE_STATUS_STATE : Field := ⟨0x1a00020, 30, 2, 0, 0, .ro, .live⟩
def OBS_TRACE_STATUS_WRAPPED : Field := ⟨0x1a00020, 29, 1, 0, 0, .ro, .live⟩
def OBS_TRACE_STATUS_NEXT : Field := ⟨0x1a00020, 0, 20, 0, 0, .ro, .live⟩

-- OBS_TRACE_PAGE (15_faults_security_observation.md R408)
def OBS_TRACE_PAGE_PAGE : Field := ⟨0x1a00028, 0, 8, 0, 0, .rw, .live⟩

-- OBS_SNAP_AT (15_faults_security_observation.md R408)
def OBS_SNAP_AT_AT : Field := ⟨0x1a00030, 0, 64, 0, 0, .rw, .staged⟩

-- OBS_SNAP_CTRL (15_faults_security_observation.md R408)
def OBS_SNAP_CTRL_NOW : Field := ⟨0x1a00038, 1, 1, 0, 0, .wo, .live⟩
def OBS_SNAP_CTRL_ARM : Field := ⟨0x1a00038, 0, 1, 0, 0, .wo, .live⟩

-- OBS_SNAP_TAKEN (15_faults_security_observation.md R408)
def OBS_SNAP_TAKEN_AT : Field := ⟨0x1a00040, 0, 64, 0, 0, .ro, .live⟩

-- OBS_TRACE_WIN (15_faults_security_observation.md R408)
def OBS_TRACE_WIN_DATA : Field := ⟨0x1a80000, 0, 64, 0x8, 0, .ro, .live⟩

-- OBS_CNT (15_faults_security_observation.md R408)
def OBS_CNT_COUNT : Field := ⟨0x1a10000, 0, 64, 0x8, 0, .ro, .live⟩

-- OBS_SNAP_CNT (15_faults_security_observation.md R408)
def OBS_SNAP_CNT_COUNT : Field := ⟨0x1a20000, 0, 64, 0x8, 0, .ro, .live⟩


/-- The registers of block PWR. -/
def rowsPWR : List RegRow := [
  ⟨0x100000, 0x0, 1, 0x0, 1, 1, .pwr, [PWR_STATUS_OV, PWR_STATUS_PRECHARGE_DONE, PWR_STATUS_THROTTLE, PWR_STATUS_TAPER, PWR_STATUS_FILL, PWR_STATUS_HOLDUP_OK, PWR_STATUS_NV_INHIBIT, PWR_STATUS_BAND]⟩,
  ⟨0x100008, 0x0, 1, 0x0, 1, 1, .pwr, [PWR_VIN_MAX, PWR_VIN_MIN, PWR_VIN_NOW]⟩,
  ⟨0x100010, 0x0, 1, 0x0, 1, 1, .pwr, [PWR_IIN_SLEW_MAX, PWR_IIN_PIN, PWR_IIN_PEAK, PWR_IIN_NOW]⟩,
  ⟨0x100018, 0x0, 1, 0x0, 1, 1, .pwr, [PWR_ENERGY_MJ]⟩,
  ⟨0x100020, 0x0, 1, 0x0, 1, 1, .pwr, [PWR_CTRL_CLEAR_EXTREMES, PWR_CTRL_SHUTDOWN, PWR_CTRL_NV_INHIBIT, PWR_CTRL_AUTO_RESTART]⟩,
  ⟨0x100028, 0x0, 1, 0x0, 1, 1, .pwr, [PWR_RAMP_BUDGET_W_PER_MS]⟩,
  ⟨0x100030, 0x0, 1, 0x0, 1, 1, .pwr, [PWR_TAPER_EFF_STEP, PWR_TAPER_STEP_TICKS]⟩,
  ⟨0x100038, 0x0, 1, 0x0, 1, 1, .pwr, [PWR_FILL_LIMIT]⟩,
  ⟨0x100040, 0x0, 1, 0x0, 1, 1, .pwr, [PWR_EVENT_COOLANT, PWR_EVENT_HOLDUP_FAULT, PWR_EVENT_WRITE_REFUSED, PWR_EVENT_TAPER_SEEN, PWR_EVENT_THROTTLE_SEEN, PWR_EVENT_SHUTDOWN_OV, PWR_EVENT_SHUTDOWN_SAG, PWR_EVENT_INHIBIT_SEEN]⟩,
  ⟨0x100048, 0x0, 1, 0x0, 1, 1, .pwr, [PWR_COUNT_THROTTLE, PWR_COUNT_TAPER, PWR_COUNT_REFUSED, PWR_COUNT_INHIBIT]⟩,
  ⟨0x100050, 0x0, 1, 0x0, 1, 1, .pwr, [PWR_HOLDUP_TEST, PWR_HOLDUP_MJ]⟩,
  ⟨0x100058, 0x0, 1, 0x0, 1, 1, .pwr, [PWR_PLAN_LEVEL_W]⟩]

/-- The registers of block CLK. -/
def rowsCLK : List RegRow := [
  ⟨0x200000, 0x8, 39, 0x0, 1, 1, .clk, [CLK_RGN_STATUS_DEFICIT, CLK_RGN_STATUS_STRETCH_BEAT, CLK_RGN_STATUS_TT_MARGIN, CLK_RGN_STATUS_STOPPED, CLK_RGN_STATUS_TT_CRIT, CLK_RGN_STATUS_TT_WARN, CLK_RGN_STATUS_SLIP, CLK_RGN_STATUS_STRETCHING, CLK_RGN_STATUS_OP_POINT, CLK_RGN_STATUS_LOCK]⟩,
  ⟨0x200200, 0x8, 39, 0x0, 1, 1, .clk, [CLK_RGN_COUNT_STRETCHED, CLK_RGN_COUNT_SLIPS, CLK_RGN_COUNT_LATE]⟩,
  ⟨0x200600, 0x0, 1, 0x0, 1, 1, .clk, [CLK_FCHG_CTRL_REGION, CLK_FCHG_CTRL_OP_POINT, CLK_FCHG_CTRL_STATE, CLK_FCHG_CTRL_KIND, CLK_FCHG_CTRL_ARM, CLK_FCHG_CTRL_DISARM]⟩,
  ⟨0x200608, 0x0, 1, 0x0, 1, 1, .clk, [CLK_FCHG_AT_AT]⟩,
  ⟨0x200610, 0x0, 1, 0x0, 1, 1, .clk, [CLK_TT_THRESH_WARN, CLK_TT_THRESH_CRIT]⟩,
  ⟨0x200618, 0x0, 1, 0x0, 1, 1, .clk, [CLK_HOLD_REQ_QUANTA, CLK_HOLD_REQ_COUNT]⟩,
  ⟨0x200620, 0x0, 1, 0x0, 1, 1, .clk, [CLK_EVENT_FCHG_REFUSED, CLK_EVENT_LOCK_LOST, CLK_EVENT_LATE_ENTRY, CLK_EVENT_TT_CRIT, CLK_EVENT_TT_WARN, CLK_EVENT_SLIP]⟩]

/-- The registers of block TAL. -/
def rowsTAL : List RegRow := [
  ⟨0x300000, 0x0, 1, 0x0, 1, 1, .tal, [TAL_NOW_TICKS]⟩,
  ⟨0x300008, 0x0, 1, 0x0, 1, 1, .tal, [TAL_FRAC_PHASE]⟩,
  ⟨0x300010, 0x0, 1, 0x0, 1, 1, .tal, [TAL_STEP_INDEX]⟩,
  ⟨0x300018, 0x0, 1, 0x0, 1, 1, .tal, [TAL_STEP_POS_LEN, TAL_STEP_POS_POS]⟩,
  ⟨0x300020, 0x0, 1, 0x0, 1, 1, .tal, [TAL_STATUS_UPSTREAM, TAL_STATUS_PTP_LOCKED, TAL_STATUS_DIVERGED, TAL_STATUS_HOLDOVER, TAL_STATUS_ALIGNED, TAL_STATUS_ROLE]⟩,
  ⟨0x300028, 0x0, 1, 0x0, 1, 1, .tal, [TAL_OFFSET_OFFSET]⟩,
  ⟨0x300030, 0x0, 1, 0x0, 1, 1, .tal, [TAL_RATE_TRIM]⟩,
  ⟨0x300038, 0x0, 1, 0x0, 1, 1, .tal, [TAL_CTRL_ALIGN_NOW, TAL_CTRL_LOSS_US, TAL_CTRL_SLEW_PPM, TAL_CTRL_PTP_FOLLOW, TAL_CTRL_ROLE]⟩,
  ⟨0x300040, 0x0, 1, 0x0, 1, 1, .tal, [TAL_ALIGN_LOG_STEP]⟩,
  ⟨0x300048, 0x0, 1, 0x0, 1, 1, .tal, [TAL_ALIGN_AT_AT]⟩,
  ⟨0x300050, 0x0, 1, 0x0, 1, 1, .tal, [TAL_HOLDS_TICKS, TAL_HOLDS_COUNT]⟩,
  ⟨0x300058, 0x0, 1, 0x0, 1, 1, .tal, [TAL_CAPTURE_CAPTURE]⟩,
  ⟨0x300060, 0x0, 1, 0x0, 1, 1, .tal, [TAL_CAPTURE_VAL_TICKS]⟩,
  ⟨0x300068, 0x0, 1, 0x0, 1, 1, .tal, [TAL_MAP_TALLY_TICKS]⟩,
  ⟨0x300070, 0x0, 1, 0x0, 1, 1, .tal, [TAL_MAP_S_ROOT, TAL_MAP_S_SECONDS]⟩,
  ⟨0x300078, 0x0, 1, 0x0, 1, 1, .tal, [TAL_MAP_NS_FLAGS, TAL_MAP_NS_NS]⟩]

/-- The registers of block BCH. -/
def rowsBCH : List RegRow := [
  ⟨0x400000, 0x1000, 792, 0x0, 1, 1, .bch, [BCH_ID_FN_TABLE, BCH_ID_LOGICAL, BCH_ID_SPARE, BCH_ID_FIELD, BCH_ID_REGION, BCH_ID_PHYS]⟩,
  ⟨0x400008, 0x1000, 792, 0x0, 1, 1, .bch, [BCH_NUM_MODE_TREE_USED, BCH_NUM_MODE_PAIR_USED, BCH_NUM_MODE_SR_USED, BCH_NUM_MODE_LEVEL]⟩,
  ⟨0x400010, 0x1000, 792, 0x0, 1, 1, .bch, [BCH_NUM_EVENT_ECC_UNCORR, BCH_NUM_EVENT_ECC_CORR, BCH_NUM_EVENT_INT_SAT, BCH_NUM_EVENT_NAN_DROP, BCH_NUM_EVENT_FP_SAT, BCH_NUM_EVENT_NAN_OUT]⟩,
  ⟨0x400018, 0x1000, 792, 0x0, 1, 1, .bch, [BCH_NUM_COUNT_NAN_DROP, BCH_NUM_COUNT_INT_SAT, BCH_NUM_COUNT_FP_SAT, BCH_NUM_COUNT_NAN_OUT]⟩,
  ⟨0x400020, 0x1000, 792, 0x0, 1, 1, .bch, [BCH_SR_COUNT_COUNT]⟩,
  ⟨0x400028, 0x1000, 792, 0x0, 1, 1, .bch, [BCH_ECC_COUNT_UNCORR, BCH_ECC_COUNT_CORR]⟩,
  ⟨0x400030, 0x1000, 792, 0x0, 1, 1, .bch, [BCH_ECC_ADDR_UNCORR, BCH_ECC_ADDR_ADDR]⟩,
  ⟨0x400038, 0x1000, 792, 0x0, 1, 1, .bch, [BCH_SCRUB_PASSES, BCH_SCRUB_LAST_PASS]⟩,
  ⟨0x400100, 0x1000, 792, 0x0, 1, 1, .bch, [BCH_SEQ_STATUS_VARIANT, BCH_SEQ_STATUS_CTX, BCH_SEQ_STATUS_STATE, BCH_SEQ_STATUS_PAGE_BUSY, BCH_SEQ_STATUS_PC]⟩,
  ⟨0x400108, 0x1000, 792, 0x8, 4, 1, .bch, [BCH_SEQ_ENTRY_VALID, BCH_SEQ_ENTRY_ENTRY]⟩,
  ⟨0x400128, 0x1000, 792, 0x0, 1, 1, .bch, [BCH_SEQ_COUNT_REFILLS, BCH_SEQ_COUNT_STALLS]⟩,
  ⟨0x400130, 0x1000, 792, 0x0, 1, 1, .bch, [BCH_SEQ_BEAT_STALLED, BCH_SEQ_BEAT_ISSUED]⟩,
  ⟨0x400138, 0x1000, 792, 0x0, 1, 1, .bch, [BCH_SEQ_FAULT_PC, BCH_SEQ_FAULT_CODE]⟩]

/-- The registers of block FRK. -/
def rowsFRK : List RegRow := [
  ⟨0x800000, 0x0, 1, 0x0, 1, 1, .frk, [FRK_CTRL_WATCH_GROUP, FRK_CTRL_MAX_HOLDS]⟩,
  ⟨0x800008, 0x0, 1, 0x0, 1, 1, .frk, [FRK_STATUS_FORKS, FRK_STATUS_GROUPS, FRK_STATUS_PENDING]⟩,
  ⟨0x800010, 0x0, 1, 0x0, 1, 1, .frk, [FRK_COUNT_LATE, FRK_COUNT_HOLDS, FRK_COUNT_CLAMPED, FRK_COUNT_STALE]⟩,
  ⟨0x800018, 0x0, 1, 0x0, 1, 1, .frk, [FRK_EVENT_NOT_ARMED, FRK_EVENT_META_ERR, FRK_EVENT_STALE, FRK_EVENT_CLAMPED, FRK_EVENT_DISAGREE, FRK_EVENT_LOST, FRK_EVENT_LATE]⟩,
  ⟨0x800040, 0x8, 8, 0x0, 1, 1, .frk, [FRK_VARIANT_COUNT_COUNT]⟩,
  ⟨0x800080, 0x0, 1, 0x0, 1, 1, .frk, [FRK_CAP_FILLED_COUNT]⟩,
  ⟨0x800088, 0x0, 1, 0x0, 1, 1, .frk, [FRK_CAP_VOID_COUNT]⟩,
  ⟨0x800090, 0x0, 1, 0x0, 1, 1, .frk, [FRK_CAP_OVERFLOW_COUNT]⟩,
  ⟨0x800098, 0x0, 1, 0x0, 1, 1, .frk, [FRK_CAP_WATCH_OVERFLOW, FRK_CAP_WATCH_FILLED, FRK_CAP_WATCH_CAPACITY]⟩,
  ⟨0x8000a0, 0x0, 1, 0x0, 1, 1, .frk, [FRK_SPARSE_META_ERR]⟩,
  ⟨0x8000a8, 0x0, 1, 0x0, 1, 1, .frk, [FRK_GATE_COUNT_COUNT]⟩,
  ⟨0x810000, 0x10, 4096, 0x0, 1, 2, .frk, [FRK_TABLE_NVAR_M1, FRK_TABLE_DECIDER_LOCAL, FRK_TABLE_CONTEXT, FRK_TABLE_F, FRK_TABLE_D, FRK_TABLE_K, FRK_TABLE_J, FRK_TABLE_DECIDER_BENCH, FRK_TABLE_DECIDER_MODULE, FRK_TABLE_VALID]⟩,
  ⟨0x820000, 0x8, 4096, 0x0, 1, 1, .frk, [FRK_FORK_STATUS_DECISION, FRK_FORK_STATUS_ARRIVAL, FRK_FORK_STATUS_VARIANT, FRK_FORK_STATUS_LATE, FRK_FORK_STATUS_HOLDS]⟩]

/-- The registers of block GEN. -/
def rowsGEN : List RegRow := [
  ⟨0x0, 0x0, 1, 0x0, 1, 1, .gen, [GEN_ID_SEAL_VER, GEN_ID_TAG_VER, GEN_ID_STEPPING, GEN_ID_KERF_VER]⟩,
  ⟨0x8, 0x0, 1, 0x0, 1, 1, .gen, [GEN_MODE_EN_PREFETCH, GEN_MODE_EN_GATHER, GEN_MODE_EN_REFRESH, GEN_MODE_EN_ADMIT, GEN_MODE_STRICT]⟩,
  ⟨0x10, 0x0, 1, 0x0, 1, 1, .gen, [GEN_MODE_NEXT_STATE, GEN_MODE_NEXT_DISARM, GEN_MODE_NEXT_ARM, GEN_MODE_NEXT_STRICT]⟩,
  ⟨0x18, 0x0, 1, 0x0, 1, 1, .gen, [GEN_MODE_AT_AT]⟩,
  ⟨0x20, 0x0, 1, 0x0, 1, 1, .gen, [GEN_CHOICE_COUNT_COUNT]⟩,
  ⟨0x28, 0x0, 1, 0x0, 1, 1, .gen, [GEN_CHOICE_KIND_PREFETCH, GEN_CHOICE_KIND_GATHER, GEN_CHOICE_KIND_REFRESH, GEN_CHOICE_KIND_ADMIT]⟩,
  ⟨0x30, 0x0, 1, 0x0, 1, 1, .gen, [GEN_PROV_WIN_INDEP, GEN_PROV_STRICT_REQ, GEN_PROV_EN]⟩,
  ⟨0x38, 0x0, 1, 0x0, 1, 1, .gen, [GEN_SEAL_CFG_TICKS, GEN_SEAL_CFG_BATCHES]⟩,
  ⟨0x40, 0x0, 1, 0x0, 1, 1, .gen, [GEN_SEAL_CTRL_CLOSE_NOW, GEN_SEAL_CTRL_CONTEXT]⟩,
  ⟨0x48, 0x0, 1, 0x0, 1, 1, .gen, [GEN_TAG_QUEUE_HOLDS, GEN_TAG_QUEUE_DEPTH]⟩,
  ⟨0x50, 0x0, 1, 0x0, 1, 1, .gen, [GEN_EVENT_SUBST, GEN_EVENT_RETIME, GEN_EVENT_TAG_HOLD, GEN_EVENT_SEAL_PARTIAL, GEN_EVENT_MODE_REFUSED]⟩,
  ⟨0x58, 0x0, 1, 0x0, 1, 1, .gen, [GEN_SPARE_TOTAL, GEN_SPARE_EXT_TICKS, GEN_SPARE_ACTIVE]⟩,
  ⟨0x100, 0x8, 16, 0x0, 1, 1, .gen, [GEN_SEAL_STATUS_SEQ, GEN_SEAL_STATUS_BATCHES, GEN_SEAL_STATUS_TAGS]⟩]

/-- The registers of block PLN. -/
def rowsPLN : List RegRow := [
  ⟨0x1b00000, 0x0, 1, 0x0, 1, 1, .pln, [PLN_STATUS_CONTEXTS, PLN_STATUS_ACT, PLN_STATUS_STAGE]⟩,
  ⟨0x1b00008, 0x0, 1, 0x0, 1, 1, .pln, [PLN_CTRL_CTX, PLN_CTRL_CTX_RESTART, PLN_CTRL_ABORT, PLN_CTRL_STOP_ARM, PLN_CTRL_DISARM, PLN_CTRL_ARM, PLN_CTRL_DISCARD, PLN_CTRL_VERIFY]⟩,
  ⟨0x1b00010, 0x0, 1, 0x0, 1, 1, .pln, [PLN_ACT_AT_AT]⟩,
  ⟨0x1b00018, 0x0, 1, 0x0, 1, 1, .pln, [PLN_STOP_AT_AT]⟩,
  ⟨0x1b00020, 0x0, 1, 0x0, 1, 1, .pln, [PLN_STOP_END_AT]⟩,
  ⟨0x1b00028, 0x0, 1, 0x0, 1, 1, .pln, [PLN_VERIFY_OFFSET, PLN_VERIFY_SECTION, PLN_VERIFY_CODE]⟩,
  ⟨0x1b00030, 0x0, 1, 0x0, 1, 1, .pln, [PLN_CFG_LEVEL, PLN_CFG_OP_POINTS, PLN_CFG_HOLD_LEAD, PLN_CFG_HOLD_QUANTUM]⟩,
  ⟨0x1b00038, 0x0, 1, 0x0, 1, 1, .pln, [PLN_ROLE_FORWARD_ONLY, PLN_ROLE_ROLE, PLN_ROLE_MODULES]⟩,
  ⟨0x1b00040, 0x0, 1, 0x0, 1, 1, .pln, [PLN_ACTIVE_ID_ID]⟩,
  ⟨0x1b00048, 0x0, 1, 0x0, 1, 1, .pln, [PLN_STAGED_ID_ID]⟩,
  ⟨0x1b00080, 0x8, 8, 0x0, 1, 1, .pln, [PLN_ROOT_ROOT]⟩,
  ⟨0x1b00100, 0x8, 16, 0x0, 1, 1, .pln, [PLN_CTX_CFG_BENCHES, PLN_CTX_CFG_UNIT, PLN_CTX_CFG_SPARE_EXT, PLN_CTX_CFG_EXTENDED, PLN_CTX_CFG_RUNNING, PLN_CTX_CFG_DEFINED, PLN_CTX_CFG_FLAGS]⟩,
  ⟨0x1b00180, 0x8, 16, 0x0, 1, 1, .pln, [PLN_CTX_STEP_INDEX, PLN_CTX_STEP_POS]⟩,
  ⟨0x1b00200, 0x8, 24, 0x0, 1, 1, .pln, [PLN_SUBST_CROSS, PLN_SUBST_LOGICAL, PLN_SUBST_FROM, PLN_SUBST_TO, PLN_SUBST_VALID]⟩,
  ⟨0x1b00300, 0x0, 1, 0x0, 1, 1, .pln, [PLN_EVENT_ACT_FAILED, PLN_EVENT_ABORTED, PLN_EVENT_VERIFY_FAILED, PLN_EVENT_REFUSED]⟩]

/-- The registers of block HBM. -/
def rowsHBM : List RegRow := [
  ⟨0x900000, 0x0, 1, 0x0, 1, 1, .hbm, [HBM_CFG_TEMP_LIMIT, HBM_CFG_TEMP_WARN, HBM_CFG_SCRUB_EN, HBM_CFG_ADAPT]⟩,
  ⟨0x900100, 0x8, 20, 0x0, 1, 1, .hbm, [HBM_STACK_TEMP, HBM_STACK_TEMP_MAX, HBM_STACK_REFI_X, HBM_STACK_OVER_LIMIT, HBM_STACK_SELF_REFRESH, HBM_STACK_TRAINED, HBM_STACK_PRESENT]⟩,
  ⟨0x900200, 0x8, 20, 0x0, 1, 1, .hbm, [HBM_ECC_SCRUB_UNCORR, HBM_ECC_UNCORR, HBM_ECC_CORR]⟩,
  ⟨0x900300, 0x0, 1, 0x0, 1, 1, .hbm, [HBM_ECC_ADDR_SCRUB, HBM_ECC_ADDR_VALID, HBM_ECC_ADDR_ADDR]⟩,
  ⟨0x900308, 0x0, 1, 0x0, 1, 1, .hbm, [HBM_SCRUB_PASSES, HBM_SCRUB_LAST_PASS]⟩,
  ⟨0x900310, 0x0, 1, 0x0, 1, 1, .hbm, [HBM_GATHER_LATE_BIND, HBM_GATHER_REFUSED, HBM_GATHER_WINDOWS]⟩,
  ⟨0x900318, 0x0, 1, 0x0, 1, 1, .hbm, [HBM_SERVICE_REFUSED, HBM_SERVICE_BYTES]⟩,
  ⟨0x900320, 0x0, 1, 0x0, 1, 1, .hbm, [HBM_EVENT_TEMP_LIMIT, HBM_EVENT_TEMP_WARN, HBM_EVENT_LATE_BIND, HBM_EVENT_REFUSED, HBM_EVENT_SCRUB_UNCORR, HBM_EVENT_UNCORR, HBM_EVENT_CORR]⟩]

/-- The registers of block DTR. -/
def rowsDTR : List RegRow := [
  ⟨0xa00000, 0x0, 1, 0x0, 1, 1, .dtr, [DTR_CFG_TEMP_WARN, DTR_CFG_TEMP_LIMIT, DTR_CFG_AHEAD, DTR_CFG_SCRUB_EN, DTR_CFG_PREFETCH]⟩,
  ⟨0xa00100, 0x8, 16, 0x0, 1, 1, .dtr, [DTR_CHAN_TEMP, DTR_CHAN_TEMP_MAX, DTR_CHAN_OVER_LIMIT, DTR_CHAN_SELF_REFRESH, DTR_CHAN_TRAINED, DTR_CHAN_PRESENT]⟩,
  ⟨0xa00200, 0x8, 16, 0x0, 1, 1, .dtr, [DTR_ECC_SCRUB_UNCORR, DTR_ECC_UNCORR, DTR_ECC_CORR]⟩,
  ⟨0xa00300, 0x0, 1, 0x0, 1, 1, .dtr, [DTR_ECC_ADDR_DEVICE, DTR_ECC_ADDR_UNCORR, DTR_ECC_ADDR_SCRUB, DTR_ECC_ADDR_VALID, DTR_ECC_ADDR_ADDR]⟩,
  ⟨0xa00308, 0x0, 1, 0x0, 1, 1, .dtr, [DTR_SCRUB_PASSES, DTR_SCRUB_LAST_PASS]⟩,
  ⟨0xa00310, 0x0, 1, 0x0, 1, 1, .dtr, [DTR_PREFETCH_DISCARDED, DTR_PREFETCH_ENTRIES]⟩,
  ⟨0xa00318, 0x0, 1, 0x0, 1, 1, .dtr, [DTR_SERVICE_REFUSED, DTR_SERVICE_BYTES]⟩,
  ⟨0xa00320, 0x0, 1, 0x0, 1, 1, .dtr, [DTR_EVENT_TEMP_LIMIT, DTR_EVENT_TEMP_WARN, DTR_EVENT_LATE_BIND, DTR_EVENT_REFUSED, DTR_EVENT_SCRUB_UNCORR, DTR_EVENT_UNCORR, DTR_EVENT_CORR]⟩]

/-- The registers of block WGT. -/
def rowsWGT : List RegRow := [
  ⟨0xb00000, 0x0, 1, 0x0, 1, 1, .wgt, [WGT_CFG_RECHECK_S, WGT_CFG_TIMEOUT_MS, WGT_CFG_RETRIES, WGT_CFG_TAG_ENGINES]⟩,
  ⟨0xb00008, 0x0, 1, 0x0, 1, 1, .wgt, [WGT_LOAD_CTRL_X3_MASK, WGT_LOAD_CTRL_CONTEXT, WGT_LOAD_CTRL_X3_START, WGT_LOAD_CTRL_ABORT, WGT_LOAD_CTRL_START]⟩,
  ⟨0xb00010, 0x0, 1, 0x0, 1, 1, .wgt, [WGT_SWAP_CTRL_CONTEXT, WGT_SWAP_CTRL_DISARM, WGT_SWAP_CTRL_ARM]⟩,
  ⟨0xb00018, 0x0, 1, 0x0, 1, 1, .wgt, [WGT_ENGINE_BYTES_BYTES]⟩,
  ⟨0xb00020, 0x0, 1, 0x0, 1, 1, .wgt, [WGT_COUNT_REFETCH, WGT_COUNT_CORRUPT, WGT_COUNT_MISSING, WGT_COUNT_REPAIR, WGT_COUNT_REPAIR_FAIL]⟩,
  ⟨0xb00028, 0x0, 1, 0x0, 1, 1, .wgt, [WGT_LAST_FAIL_CODE, WGT_LAST_FAIL_SOURCE, WGT_LAST_FAIL_CONTEXT, WGT_LAST_FAIL_SHARD]⟩,
  ⟨0xb00030, 0x0, 1, 0x0, 1, 1, .wgt, [WGT_EVENT_SWAP_DROPPED, WGT_EVENT_REPAIR, WGT_EVENT_BEHIND, WGT_EVENT_BAD_EPOCH, WGT_EVENT_QUARANTINE, WGT_EVENT_SWAP_REFUSED, WGT_EVENT_REFETCH, WGT_EVENT_LOAD_FAILED]⟩,
  ⟨0xb00100, 0x8, 16, 0x0, 1, 1, .wgt, [WGT_DESC_ADDR]⟩,
  ⟨0xb00180, 0x8, 16, 0x0, 1, 1, .wgt, [WGT_CTX_CODE, WGT_CTX_LANDING, WGT_CTX_STATE, WGT_CTX_CLOSING, WGT_CTX_SWAP_ARMED, WGT_CTX_BANK, WGT_CTX_SWAP, WGT_CTX_WRITABLE, WGT_CTX_BEHIND]⟩,
  ⟨0xb00200, 0x8, 16, 0x0, 1, 1, .wgt, [WGT_PROG_DONE, WGT_PROG_HELD]⟩,
  ⟨0xb00280, 0x8, 16, 0x0, 1, 1, .wgt, [WGT_SWAP_BATCH_BATCH]⟩,
  ⟨0xb00300, 0x8, 16, 0x0, 1, 1, .wgt, [WGT_EPOCH_EPOCH]⟩,
  ⟨0xb00380, 0x8, 16, 0x0, 1, 1, .wgt, [WGT_CONFIRMED_EPOCH]⟩,
  ⟨0xb00400, 0x8, 16, 0x0, 1, 1, .wgt, [WGT_BAD_LAST, WGT_BAD_FIRST]⟩,
  ⟨0xb00480, 0x8, 16, 0x0, 1, 1, .wgt, [WGT_SWEEP_SWEEPS, WGT_SWEEP_LAST_MS]⟩,
  ⟨0xb01000, 0x40, 16, 0x8, 8, 1, .wgt, [WGT_ROOT_ACTIVE_ROOT]⟩,
  ⟨0xb01400, 0x40, 16, 0x8, 8, 1, .wgt, [WGT_ROOT_LANDING_ROOT]⟩]

/-- The registers of block ITK. -/
def rowsITK : List RegRow := [
  ⟨0xc00000, 0x0, 1, 0x0, 1, 1, .itk, [ITK_CFG_CONTEXTS, ITK_CFG_SEAL_TICKS]⟩,
  ⟨0xc00008, 0x0, 1, 0x0, 1, 1, .itk, [ITK_EVENT_RESP_RING_FULL, ITK_EVENT_RING_FAULT, ITK_EVENT_REFUSED, ITK_EVENT_CLOSED_DROP, ITK_EVENT_PAUSE_SEEN, ITK_EVENT_HDR_DROP, ITK_EVENT_FCS_DROP]⟩,
  ⟨0xc00010, 0x8, 2, 0x0, 1, 1, .itk, [ITK_PORT_LINK_UP, ITK_PORT_TAG_EN, ITK_PORT_PEER_MAC]⟩,
  ⟨0xc00020, 0x8, 2, 0x0, 1, 1, .itk, [ITK_PORT_MAC_TAG, ITK_PORT_MAC_MAC]⟩,
  ⟨0xc00030, 0x8, 2, 0x0, 1, 1, .itk, [ITK_PORT_COUNT_FRAMES, ITK_PORT_COUNT_FCS_DROP, ITK_PORT_COUNT_HDR_DROP]⟩,
  ⟨0xc00040, 0x8, 2, 0x0, 1, 1, .itk, [ITK_PORT_DROP_CLOSED, ITK_PORT_DROP_PEER, ITK_PORT_DROP_PAUSE, ITK_PORT_DROP_OTHER]⟩,
  ⟨0xc00100, 0x8, 16, 0x0, 1, 1, .itk, [ITK_WINDOW_TICKS_PER_STEP, ITK_WINDOW_TICKS_TICKS]⟩,
  ⟨0xc00180, 0x8, 16, 0x0, 1, 1, .itk, [ITK_RELEASE_FRAME_SPACING, ITK_RELEASE_CHAIN_SPAN, ITK_RELEASE_CARRY_MAX, ITK_RELEASE_RECORDS_PER_FRAME, ITK_RELEASE_TICKS]⟩,
  ⟨0xc00200, 0x8, 16, 0x0, 1, 1, .itk, [ITK_CTX_STATUS_WINDOW, ITK_CTX_STATUS_CARRIED, ITK_CTX_STATUS_ADMITTED, ITK_CTX_STATUS_CLOSED, ITK_CTX_STATUS_OPEN]⟩,
  ⟨0xc00280, 0x8, 16, 0x0, 1, 1, .itk, [ITK_CTX_COUNT_ADMITTED, ITK_CTX_COUNT_CARRIED, ITK_CTX_COUNT_MALFORMED]⟩,
  ⟨0xc00300, 0x8, 16, 0x0, 1, 1, .itk, [ITK_CTX_REFUSE_CARRY, ITK_CTX_REFUSE_FULL, ITK_CTX_REFUSE_CLOSED, ITK_CTX_REFUSE_DROPPED]⟩,
  ⟨0xc00380, 0x8, 16, 0x0, 1, 1, .itk, [ITK_RING_CONSUMER, ITK_RING_FAULT, ITK_RING_RESET]⟩,
  ⟨0xc00400, 0x8, 16, 0x0, 1, 1, .itk, [ITK_RESP_RING_PRODUCER, ITK_RESP_RING_DROPPED]⟩]

/-- The registers of block SCT. -/
def rowsSCT : List RegRow := [
  ⟨0xd00000, 0x0, 1, 0x0, 1, 1, .sct, [SCT_CACHE_HITS, SCT_CACHE_MISSES]⟩,
  ⟨0xd00008, 0x0, 1, 0x0, 1, 1, .sct, [SCT_EVENT_STATE_LOST, SCT_EVENT_REFUSED_TABLE, SCT_EVENT_STASH_FULL, SCT_EVENT_EVICT]⟩,
  ⟨0xd00010, 0x0, 1, 0x0, 1, 1, .sct, [SCT_LAST_LOST_CONTEXT, SCT_LAST_LOST_WHAT, SCT_LAST_LOST_VALID, SCT_LAST_LOST_ADDR]⟩,
  ⟨0xd00100, 0x8, 16, 0x0, 1, 1, .sct, [SCT_PART_STASH, SCT_PART_BLOCK_LOG2, SCT_PART_ENTRIES]⟩,
  ⟨0xd00180, 0x8, 16, 0x0, 1, 1, .sct, [SCT_OCC_STASHED, SCT_OCC_VALID]⟩,
  ⟨0xd00200, 0x8, 16, 0x0, 1, 1, .sct, [SCT_COUNT_INSERTS, SCT_COUNT_EVICTIONS, SCT_COUNT_REFUSED_TABLE]⟩,
  ⟨0xd00280, 0x8, 16, 0x0, 1, 1, .sct, [SCT_MOVES_STASH_IN, SCT_MOVES_STASH_OUT, SCT_MOVES_STATE_LOST]⟩]

/-- The registers of block PTP. -/
def rowsPTP : List RegRow := [
  ⟨0xe00000, 0x0, 1, 0x0, 1, 1, .ptp, [PTP_CFG_STEP_NS, PTP_CFG_LOCK_NS, PTP_CFG_LOG_DELAY, PTP_CFG_DOMAIN, PTP_CFG_PRIMARY, PTP_CFG_TRANSPORT, PTP_CFG_DELAY]⟩,
  ⟨0xe00008, 0x8, 2, 0x0, 1, 1, .ptp, [PTP_IP_ADDR]⟩,
  ⟨0xe00018, 0x8, 2, 0x0, 1, 1, .ptp, [PTP_PORT_LOCKED, PTP_PORT_STATE]⟩,
  ⟨0xe00028, 0x8, 2, 0x0, 1, 1, .ptp, [PTP_MASTER_CLOCK_ID]⟩,
  ⟨0xe00038, 0x8, 2, 0x0, 1, 1, .ptp, [PTP_OFFSET_OFFSET]⟩,
  ⟨0xe00048, 0x8, 2, 0x0, 1, 1, .ptp, [PTP_DELAY_DELAY]⟩,
  ⟨0xe00058, 0x8, 2, 0x0, 1, 1, .ptp, [PTP_LAT_TX_PS, PTP_LAT_RX_PS]⟩,
  ⟨0xe00068, 0x8, 2, 0x0, 1, 1, .ptp, [PTP_ASYM_ASYM]⟩,
  ⟨0xe00078, 0x0, 1, 0x0, 1, 1, .ptp, [PTP_STATUS_STEPS, PTP_STATUS_HOLDOVER, PTP_STATUS_LOCKED, PTP_STATUS_SOURCE]⟩,
  ⟨0xe00080, 0x0, 1, 0x0, 1, 1, .ptp, [PTP_RATE_TRIM]⟩,
  ⟨0xe00088, 0x0, 1, 0x0, 1, 1, .ptp, [PTP_CAPTURE_S_SECONDS]⟩,
  ⟨0xe00090, 0x0, 1, 0x0, 1, 1, .ptp, [PTP_CAPTURE_NS_NS]⟩,
  ⟨0xe00098, 0x8, 2, 0x0, 1, 1, .ptp, [PTP_COUNT_SYNC, PTP_COUNT_ANNOUNCE, PTP_COUNT_DELAY_TX, PTP_COUNT_DISCARDED]⟩]

/-- The registers of block HAUL. -/
def rowsHAUL : List RegRow := [
  ⟨0x1000000, 0x10000, 16, 0x0, 1, 1, .haul, [HAUL_PORT_CTRL_LOOPBACK_OK, HAUL_PORT_CTRL_ROT_EN, HAUL_PORT_CTRL_FORCE_ROT, HAUL_PORT_CTRL_RETRAIN, HAUL_PORT_CTRL_RESET, HAUL_PORT_CTRL_ENABLE]⟩,
  ⟨0x1000008, 0x10000, 16, 0x0, 1, 1, .haul, [HAUL_PORT_STATUS_DOWN_CAUSE, HAUL_PORT_STATUS_TRAIN_CODE, HAUL_PORT_STATUS_SPARE_OK, HAUL_PORT_STATUS_LOCK_LOST, HAUL_PORT_STATUS_ROTATING, HAUL_PORT_STATUS_SWAPPING, HAUL_PORT_STATUS_PARTNER_TYPE, HAUL_PORT_STATUS_STATE]⟩,
  ⟨0x1000010, 0x10000, 16, 0x0, 1, 1, .haul, [HAUL_CFG_LINK_DOWN_US, HAUL_CFG_MARKER_TICKS, HAUL_CFG_REPLAY_MARGIN_NS, HAUL_CFG_LANE_FAIL_NS]⟩,
  ⟨0x1000018, 0x10000, 16, 0x0, 1, 1, .haul, [HAUL_LANE_CFG_DEG_SYM, HAUL_LANE_CFG_CAL_MS, HAUL_LANE_CFG_ROT_MS, HAUL_LANE_CFG_RETRY_MS]⟩,
  ⟨0x1000020, 0x10000, 16, 0x0, 1, 1, .haul, [HAUL_LANE_MAP_FAILED, HAUL_LANE_MAP_SPARE, HAUL_LANE_MAP_LOGICAL]⟩,
  ⟨0x1000028, 0x10000, 16, 0x0, 1, 1, .haul, [HAUL_LANE_MAP_TX_FAILED, HAUL_LANE_MAP_TX_SPARE, HAUL_LANE_MAP_TX_LOGICAL]⟩,
  ⟨0x1000030, 0x10000, 16, 0x0, 1, 1, .haul, [HAUL_PARTNER_REPLAY_BLOCKS, HAUL_PARTNER_VERSION, HAUL_PARTNER_TYPE, HAUL_PARTNER_PORT, HAUL_PARTNER_MODULE]⟩,
  ⟨0x1000038, 0x10000, 16, 0x0, 1, 1, .haul, [HAUL_PARTNER_SERIAL_SERIAL]⟩,
  ⟨0x1000040, 0x10000, 16, 0x0, 1, 1, .haul, [HAUL_LOOP_DELAY_ALIGN_PS, HAUL_LOOP_DELAY_LOOP]⟩,
  ⟨0x1000048, 0x10000, 16, 0x0, 1, 1, .haul, [HAUL_LAT_TX_PS, HAUL_LAT_RX_PS]⟩,
  ⟨0x1000050, 0x10000, 16, 0x0, 1, 1, .haul, [HAUL_SEQ_NEXT_TX, HAUL_SEQ_ACKED, HAUL_SEQ_EXPECTED, HAUL_SEQ_OUTSTANDING]⟩,
  ⟨0x1000058, 0x10000, 16, 0x0, 1, 1, .haul, [HAUL_CREDIT_PARTNER1, HAUL_CREDIT_PARTNER0, HAUL_CREDIT_AVAIL1, HAUL_CREDIT_AVAIL0]⟩,
  ⟨0x1000060, 0x10000, 16, 0x0, 1, 1, .haul, [HAUL_REPLAY_COUNT_BLOCKS, HAUL_REPLAY_COUNT_NAK_RX, HAUL_REPLAY_COUNT_TIMEOUTS]⟩,
  ⟨0x1000068, 0x10000, 16, 0x0, 1, 1, .haul, [HAUL_ERR_COUNT_CRC_FAIL, HAUL_ERR_COUNT_FEC_UNCORR, HAUL_ERR_COUNT_DUP, HAUL_ERR_COUNT_GAP]⟩,
  ⟨0x1000070, 0x10000, 16, 0x0, 1, 1, .haul, [HAUL_LINK_COUNT_UPS, HAUL_LINK_COUNT_TRAIN_FAILS, HAUL_LINK_COUNT_DOWNS, HAUL_LINK_COUNT_RSVD_DROP]⟩,
  ⟨0x1000078, 0x10000, 16, 0x0, 1, 1, .haul, [HAUL_LANE_COUNT_SWAPS, HAUL_LANE_COUNT_ROTATIONS, HAUL_LANE_COUNT_LANE_FAILS, HAUL_LANE_COUNT_CAL_FAILS]⟩,
  ⟨0x1000080, 0x10000, 16, 0x0, 1, 1, .haul, [HAUL_MARKER_COUNT_RX, HAUL_MARKER_COUNT_TX]⟩,
  ⟨0x1000088, 0x10000, 16, 0x0, 1, 1, .haul, [HAUL_EVENT_CAL_FAIL, HAUL_EVENT_DEGRADED, HAUL_EVENT_NO_SPARE, HAUL_EVENT_RSVD_DROP, HAUL_EVENT_REPLAY_TIMEOUT, HAUL_EVENT_CRC_FAIL, HAUL_EVENT_SWAP, HAUL_EVENT_LANE_FAIL, HAUL_EVENT_TRAIN_FAIL, HAUL_EVENT_DOWN]⟩,
  ⟨0x1000090, 0x10000, 16, 0x0, 1, 1, .haul, [HAUL_LOST_AT_DOWN]⟩,
  ⟨0x1000100, 0x10000, 16, 0x8, 9, 1, .haul, [HAUL_LANE_STAT_CORR_SYM, HAUL_LANE_STAT_UNCORR, HAUL_LANE_STAT_LOCK_LOSSES, HAUL_LANE_STAT_STATE]⟩]

/-- The registers of block SCH. -/
def rowsSCH : List RegRow := [
  ⟨0x1200000, 0x0, 1, 0x0, 1, 1, .sch, [SCH_CFG_MAX_HOLDS, SCH_CFG_MAX_REPLAYS, SCH_CFG_FAST_US]⟩,
  ⟨0x1200008, 0x0, 1, 0x0, 1, 1, .sch, [SCH_CTRL_CLEAR_FWD, SCH_CTRL_RESTORE_ARM, SCH_CTRL_TELEM_NOW]⟩,
  ⟨0x1200010, 0x0, 1, 0x0, 1, 1, .sch, [SCH_RESTORE_AT_AT]⟩,
  ⟨0x1200018, 0x0, 1, 0x0, 1, 1, .sch, [SCH_STATUS_STEP, SCH_STATUS_ATTEMPT, SCH_STATUS_REPLAYING, SCH_STATUS_HOLDING, SCH_STATUS_DETOURED]⟩,
  ⟨0x1200020, 0x0, 1, 0x0, 1, 1, .sch, [SCH_HOLD_NEXT_POINT]⟩,
  ⟨0x1200028, 0x0, 1, 0x0, 1, 1, .sch, [SCH_HOLD_NEXT_Q_CAUSE, SCH_HOLD_NEXT_Q_QUANTA]⟩,
  ⟨0x1200030, 0x0, 1, 0x0, 1, 1, .sch, [SCH_HOLD_COUNT_MISS, SCH_HOLD_COUNT_SLIP, SCH_HOLD_COUNT_FORK, SCH_HOLD_COUNT_OTHER]⟩,
  ⟨0x1200038, 0x0, 1, 0x0, 1, 1, .sch, [SCH_NOTICE_COUNT_SENT, SCH_NOTICE_COUNT_RELAYED, SCH_NOTICE_COUNT_LATE, SCH_NOTICE_COUNT_FOREIGN]⟩,
  ⟨0x1200040, 0x0, 1, 0x0, 1, 1, .sch, [SCH_REPLAY_STARTED, SCH_REPLAY_EXHAUSTED, SCH_REPLAY_LAST_MASK]⟩,
  ⟨0x1200048, 0x0, 1, 0x0, 1, 1, .sch, [SCH_XFER_COUNT_COMPLETED, SCH_XFER_COUNT_DUP, SCH_XFER_COUNT_STALE]⟩,
  ⟨0x1200050, 0x0, 1, 0x0, 1, 1, .sch, [SCH_XFER_ERR_LAST_EARLY, SCH_XFER_ERR_NO_ROUTE, SCH_XFER_ERR_OVERRUN, SCH_XFER_ERR_MALFORMED]⟩,
  ⟨0x1200058, 0x0, 1, 0x0, 1, 1, .sch, [SCH_DETOUR_DETOURED, SCH_DETOUR_RESENT, SCH_DETOUR_NO_PATH, SCH_DETOUR_DOWN_TX, SCH_DETOUR_DOWN_RX]⟩,
  ⟨0x1200060, 0x0, 1, 0x0, 1, 1, .sch, [SCH_SVC_CFG_GAP_NS, SCH_SVC_CFG_THROTTLE_HI, SCH_SVC_CFG_THROTTLE_LO, SCH_SVC_CFG_HOP_LIMIT]⟩,
  ⟨0x1200068, 0x0, 1, 0x0, 1, 1, .sch, [SCH_SVC_COUNT_THROTTLES, SCH_SVC_COUNT_REFUSED, SCH_SVC_COUNT_NO_ROUTE, SCH_SVC_COUNT_HOP_DROP]⟩,
  ⟨0x1200070, 0x0, 1, 0x0, 1, 1, .sch, [SCH_TELEM_DEST, SCH_TELEM_PERIOD_MS, SCH_TELEM_EN]⟩,
  ⟨0x1200078, 0x0, 1, 0x0, 1, 1, .sch, [SCH_EVENT_THROTTLE, SCH_EVENT_NO_PATH, SCH_EVENT_OVERRUN, SCH_EVENT_REPLAY_EXHAUSTED, SCH_EVENT_HOLD_MISSED, SCH_EVENT_DETOUR, SCH_EVENT_REPLAY, SCH_EVENT_HOLD]⟩,
  ⟨0x1200100, 0x8, 16, 0x0, 1, 1, .sch, [SCH_PORT_BUF_PEAK, SCH_PORT_RING, SCH_PORT_DATELINE, SCH_PORT_DETOUR_CAUSE, SCH_PORT_DETOURED, SCH_PORT_ENTRIES]⟩,
  ⟨0x1210000, 0x8, 4096, 0x0, 1, 1, .sch, [SCH_SVC_ROUTE_VALID, SCH_SVC_ROUTE_PORT]⟩]

/-- The registers of block TOP. -/
def rowsTOP : List RegRow := [
  ⟨0x1400000, 0x0, 1, 0x0, 1, 1, .top, [TOP_MODULE_ASSIGNED, TOP_MODULE_NUMBER]⟩,
  ⟨0x1400008, 0x0, 1, 0x0, 1, 1, .top, [TOP_SERIAL_SERIAL]⟩,
  ⟨0x1400010, 0x0, 1, 0x0, 1, 1, .top, [TOP_DISC_EPOCH, TOP_DISC_PATH_LEN, TOP_DISC_STATE]⟩,
  ⟨0x1400018, 0x0, 1, 0x0, 1, 1, .top, [TOP_LEASE_CTRL_EN]⟩,
  ⟨0x1400020, 0x0, 1, 0x0, 1, 1, .top, [TOP_COUNT_LEASE_WAIT, TOP_COUNT_DISC_FWD, TOP_COUNT_DISC_DROP, TOP_COUNT_ASSIGN_REFUSED]⟩,
  ⟨0x1400028, 0x0, 1, 0x0, 1, 1, .top, [TOP_EVENT_FWD_FAILED, TOP_EVENT_LEASE_IGNORED, TOP_EVENT_LEASE_REFUSED, TOP_EVENT_MISMATCH, TOP_EVENT_PARTNER_CHANGED, TOP_EVENT_NEW_LINK, TOP_EVENT_ASSIGN_REFUSED, TOP_EVENT_ASSIGNED]⟩,
  ⟨0x1400040, 0x8, 4, 0x0, 1, 1, .top, [TOP_MGR_PATH_PORTS]⟩,
  ⟨0x1400100, 0x8, 16, 0x0, 1, 1, .top, [TOP_PORT_EXPECT, TOP_PORT_PARTNER_PORT, TOP_PORT_PARTNER, TOP_PORT_MISMATCH, TOP_PORT_USE, TOP_PORT_BUNDLE]⟩,
  ⟨0x1400200, 0x10, 8, 0x0, 1, 1, .top, [TOP_LEASE_ROUTE_BASE, TOP_LEASE_ROUTE_COUNT, TOP_LEASE_PORTS, TOP_LEASE_BUF, TOP_LEASE_SHARE, TOP_LEASE_VALID]⟩,
  ⟨0x1400208, 0x10, 8, 0x0, 1, 1, .top, [TOP_LEASE_PLAN_PLAN]⟩,
  ⟨0x1400300, 0x0, 1, 0x0, 1, 1, .top, [TOP_FWD_CTRL_SLOT, TOP_FWD_CTRL_UNLOAD_ARM, TOP_FWD_CTRL_DISARM, TOP_FWD_CTRL_ARM, TOP_FWD_CTRL_LOAD]⟩,
  ⟨0x1400308, 0x0, 1, 0x0, 1, 1, .top, [TOP_FWD_SRC_ADDR]⟩,
  ⟨0x1400310, 0x0, 1, 0x0, 1, 1, .top, [TOP_FWD_AT_AT]⟩,
  ⟨0x1400320, 0x8, 7, 0x0, 1, 1, .top, [TOP_FWD_STATUS_CODE, TOP_FWD_STATUS_LEASE, TOP_FWD_STATUS_STATE, TOP_FWD_STATUS_PLAN]⟩]

/-- The registers of block TWN. -/
def rowsTWN : List RegRow := [
  ⟨0x1500000, 0x0, 1, 0x0, 1, 1, .twn, [TWN_CFG_TAKEOVER_LEAD, TWN_CFG_MAX_HOLDS, TWN_CFG_LOST_WINDOWS, TWN_CFG_AUTO_TAKEOVER, TWN_CFG_ROLE]⟩,
  ⟨0x1500008, 0x0, 1, 0x0, 1, 1, .twn, [TWN_CTRL_TAKEOVER, TWN_CTRL_SOLO]⟩,
  ⟨0x1500010, 0x0, 1, 0x0, 1, 1, .twn, [TWN_STATUS_PARTNER, TWN_STATUS_PORTS, TWN_STATUS_STATE, TWN_STATUS_ROLE_NOW]⟩,
  ⟨0x1500020, 0x0, 1, 0x0, 1, 1, .twn, [TWN_COUNT_BATCHES, TWN_COUNT_HOLDS, TWN_COUNT_DIVERGE]⟩,
  ⟨0x1500028, 0x0, 1, 0x0, 1, 1, .twn, [TWN_DROP_STANDBY_DROP, TWN_DROP_SKIPPED, TWN_DROP_LATE_ITEMS]⟩,
  ⟨0x1500030, 0x0, 1, 0x0, 1, 1, .twn, [TWN_EVENT_TAKEOVER, TWN_EVENT_LOST, TWN_EVENT_DIVERGE, TWN_EVENT_HOLD, TWN_EVENT_PORT_DOWN]⟩,
  ⟨0x1500038, 0x0, 1, 0x0, 1, 1, .twn, [TWN_DIVERGE_WINDOW, TWN_DIVERGE_SLOT, TWN_DIVERGE_CONTEXT, TWN_DIVERGE_VALID]⟩,
  ⟨0x1500100, 0x8, 16, 0x0, 1, 1, .twn, [TWN_CTX_COMPARE_TICKS, TWN_CTX_LAG, TWN_CTX_GATE, TWN_CTX_MODE]⟩,
  ⟨0x1500180, 0x8, 16, 0x0, 1, 1, .twn, [TWN_STAGE_MIB, TWN_STAGE_ADDR]⟩,
  ⟨0x1500200, 0x8, 16, 0x0, 1, 1, .twn, [TWN_APPLIED_WINDOW]⟩]

/-- The registers of block OLC. -/
def rowsOLC : List RegRow := [
  ⟨0x1600000, 0x0, 1, 0x0, 1, 1, .olc, [OLC_STATUS_LANES_OK, OLC_STATUS_WIDTH, OLC_STATUS_STATE]⟩,
  ⟨0x1600008, 0x0, 1, 0x0, 1, 1, .olc, [OLC_ERR_RETRIES, OLC_ERR_DOWNS, OLC_ERR_LANE_FAILS, OLC_ERR_BAD_CSR, OLC_ERR_LOST]⟩,
  ⟨0x1600010, 0x0, 1, 0x0, 1, 1, .olc, [OLC_CACHE_HITS, OLC_CACHE_MISSES]⟩,
  ⟨0x1600018, 0x0, 1, 0x0, 1, 1, .olc, [OLC_IGNORED_COUNT, OLC_IGNORED_OFFSET]⟩,
  ⟨0x1600020, 0x0, 1, 0x0, 1, 1, .olc, [OLC_2PC_LEAD_TICKS, OLC_2PC_VOTE_TICKS]⟩,
  ⟨0x1600028, 0x0, 1, 0x0, 1, 1, .olc, [OLC_CHANGE_NEXT_FRESH, OLC_CHANGE_NEXT_CONTEXT, OLC_CHANGE_NEXT_KIND, OLC_CHANGE_NEXT_ID]⟩,
  ⟨0x1600030, 0x0, 1, 0x0, 1, 1, .olc, [OLC_CHANGE_AT_AT]⟩,
  ⟨0x1600038, 0x0, 1, 0x0, 1, 1, .olc, [OLC_CTRL_DISARM, OLC_CTRL_ARM]⟩,
  ⟨0x1600040, 0x0, 1, 0x0, 1, 1, .olc, [OLC_SPLIT_RAISED, OLC_SPLIT_LATCHED, OLC_SPLIT_HOLDS, OLC_SPLIT_AFTER_EFFECT]⟩,
  ⟨0x1600048, 0x0, 1, 0x0, 1, 1, .olc, [OLC_EVENT_ARM_REFUSED, OLC_EVENT_SPLIT, OLC_EVENT_IGNORED, OLC_EVENT_BAD_CSR, OLC_EVENT_DEGRADED, OLC_EVENT_DOWN]⟩,
  ⟨0x1600080, 0x8, 6, 0x0, 1, 1, .olc, [OLC_FOREMAN_BEATS, OLC_FOREMAN_STATE]⟩,
  ⟨0x1600100, 0x10, 8, 0x0, 1, 2, .olc, [OLC_CHANGE_ID, OLC_CHANGE_KIND, OLC_CHANGE_STATE, OLC_CHANGE_REASON, OLC_CHANGE_VOTES, OLC_CHANGE_AT]⟩]

/-- The registers of block FLT. -/
def rowsFLT : List RegRow := [
  ⟨0x1700000, 0x0, 1, 0x0, 1, 1, .flt, [FLT_STATUS_DEPTH, FLT_STATUS_DIE_HELD, FLT_STATUS_CLASS, FLT_STATUS_PRIMARY]⟩,
  ⟨0x1700008, 0x8, 4, 0x0, 1, 1, .flt, [FLT_PRIMARY_RECORD]⟩,
  ⟨0x1700028, 0x0, 1, 0x0, 1, 1, .flt, [FLT_CTRL_RELEASE, FLT_CTRL_ACK, FLT_CTRL_ACK_SEQ]⟩,
  ⟨0x1700030, 0x0, 1, 0x0, 1, 1, .flt, [FLT_CFG_BENCH_MS]⟩,
  ⟨0x1700038, 0x0, 1, 0x0, 1, 1, .flt, [FLT_COUNT_CORRECTED, FLT_COUNT_CONTAINED, FLT_COUNT_STEP_FATAL, FLT_COUNT_STALE_ACK]⟩,
  ⟨0x1700040, 0x0, 1, 0x0, 1, 1, .flt, [FLT_OVERFLOW_MODULE_FATAL, FLT_OVERFLOW_STEP, FLT_OVERFLOW_CONTAINED, FLT_OVERFLOW_REPEATS]⟩,
  ⟨0x1700100, 0x20, 8, 0x8, 4, 1, .flt, [FLT_QUEUE_RECORD]⟩]

/-- The registers of block RRC. -/
def rowsRRC : List RegRow := [
  ⟨0x1800000, 0x0, 1, 0x0, 1, 1, .rrc, [RRC_CFG_HIGH, RRC_CFG_SPILL_S]⟩,
  ⟨0x1800008, 0x0, 1, 0x0, 1, 1, .rrc, [RRC_STATUS_SPILL_SEQ, RRC_STATUS_WAITING, RRC_STATUS_USED]⟩,
  ⟨0x1800010, 0x0, 1, 0x0, 1, 1, .rrc, [RRC_DROP_CRITICAL, RRC_DROP_FAULT, RRC_DROP_NOTICE, RRC_DROP_INFO]⟩,
  ⟨0x1800018, 0x0, 1, 0x0, 1, 1, .rrc, [RRC_OVERWRITE_SPILLED, RRC_OVERWRITE_FAULT, RRC_OVERWRITE_NOTICE, RRC_OVERWRITE_INFO]⟩,
  ⟨0x1800020, 0x0, 1, 0x0, 1, 1, .rrc, [RRC_CTRL_RELEASE, RRC_CTRL_SPILL_NOW]⟩,
  ⟨0x1810000, 0x40, 1024, 0x8, 8, 1, .rrc, [RRC_ENTRY_BYTES]⟩]

/-- The registers of block SEC. -/
def rowsSEC : List RegRow := [
  ⟨0x1900000, 0x0, 1, 0x0, 1, 1, .sec, [SEC_STATUS_FW_SVN, SEC_STATUS_ROLLBACK, SEC_STATUS_NEXT_IMAGE, SEC_STATUS_IMAGE, SEC_STATUS_FALLBACK, SEC_STATUS_RECOVERY, SEC_STATUS_SCAN_FUSED, SEC_STATUS_OWNED]⟩,
  ⟨0x1900008, 0x0, 1, 0x0, 1, 1, .sec, [SEC_OWNER_SEQ_SEQ]⟩,
  ⟨0x1900010, 0x0, 1, 0x0, 1, 1, .sec, [SEC_CTRL_COMMIT_SVN]⟩,
  ⟨0x1900018, 0x0, 1, 0x0, 1, 1, .sec, [SEC_COUNT_TLS_FAIL, SEC_COUNT_CMD_REFUSED, SEC_COUNT_PLAN_SIG_FAIL, SEC_COUNT_IMAGE_FAIL]⟩,
  ⟨0x1900020, 0x8, 2, 0x0, 1, 1, .sec, [SEC_BOOT_NONCE_NONCE]⟩,
  ⟨0x1900100, 0x8, 4, 0x0, 1, 1, .sec, [SEC_KEY_EPOCH, SEC_KEY_VALID]⟩,
  ⟨0x1900200, 0x40, 4, 0x8, 8, 1, .sec, [SEC_KEY_FP_FP]⟩,
  ⟨0x1900300, 0x8, 4, 0x0, 1, 1, .sec, [SEC_ANCHOR_ROLE, SEC_ANCHOR_VALID]⟩]

/-- The registers of block OBS. -/
def rowsOBS : List RegRow := [
  ⟨0x1a00000, 0x0, 1, 0x0, 1, 1, .obs, [OBS_TRACE_CFG_MODE, OBS_TRACE_CFG_SOURCES, OBS_TRACE_CFG_CONTEXTS]⟩,
  ⟨0x1a00008, 0x0, 1, 0x0, 1, 1, .obs, [OBS_TRACE_START_AT]⟩,
  ⟨0x1a00010, 0x0, 1, 0x0, 1, 1, .obs, [OBS_TRACE_STOP_AT]⟩,
  ⟨0x1a00018, 0x0, 1, 0x0, 1, 1, .obs, [OBS_TRACE_CTRL_STOP_NOW, OBS_TRACE_CTRL_ARM]⟩,
  ⟨0x1a00020, 0x0, 1, 0x0, 1, 1, .obs, [OBS_TRACE_STATUS_DROPPED, OBS_TRACE_STATUS_STATE, OBS_TRACE_STATUS_WRAPPED, OBS_TRACE_STATUS_NEXT]⟩,
  ⟨0x1a00028, 0x0, 1, 0x0, 1, 1, .obs, [OBS_TRACE_PAGE_PAGE]⟩,
  ⟨0x1a00030, 0x0, 1, 0x0, 1, 1, .obs, [OBS_SNAP_AT_AT]⟩,
  ⟨0x1a00038, 0x0, 1, 0x0, 1, 1, .obs, [OBS_SNAP_CTRL_NOW, OBS_SNAP_CTRL_ARM]⟩,
  ⟨0x1a00040, 0x0, 1, 0x0, 1, 1, .obs, [OBS_SNAP_TAKEN_AT]⟩,
  ⟨0x1a80000, 0x8, 8192, 0x0, 1, 1, .obs, [OBS_TRACE_WIN_DATA]⟩,
  ⟨0x1a10000, 0x8, 6144, 0x0, 1, 1, .obs, [OBS_CNT_COUNT]⟩,
  ⟨0x1a20000, 0x8, 6144, 0x0, 1, 1, .obs, [OBS_SNAP_CNT_COUNT]⟩]

/-- Every register of the module. -/
def rows : List RegRow :=
  rowsPWR ++
  rowsCLK ++
  rowsTAL ++
  rowsBCH ++
  rowsFRK ++
  rowsGEN ++
  rowsPLN ++
  rowsHBM ++
  rowsDTR ++
  rowsWGT ++
  rowsITK ++
  rowsSCT ++
  rowsPTP ++
  rowsHAUL ++
  rowsSCH ++
  rowsTOP ++
  rowsTWN ++
  rowsOLC ++
  rowsFLT ++
  rowsRRC ++
  rowsSEC ++
  rowsOBS

end Sys2Proof.Machine.R
end

