-- ==== Sys2Proof/Machine/Tab.lean ====
section
/-! DEFINITION. Sparse tables: the one representation of register fields, memory bytes and numbered entries. A table
lists the keys whose value differs from a default, keys strictly rising, so equal contents are equal lists. -/

namespace Sys2Proof.Machine

variable {α : Type}

/-- The value at key `k`, `d` where the table lists none. -/
def Tab.get (d : α) (k : Nat) : Tab α → α
  | [] => d
  | (a, v) :: t => if a = k then v else Tab.get d k t

/-- Place `v` at key `k`, keeping rising order. -/
def Tab.ins (k : Nat) (v : α) : Tab α → Tab α
  | [] => [(k, v)]
  | (a, w) :: t => if k < a then (k, v) :: (a, w) :: t else if a = k then (k, v) :: t else (a, w) :: Tab.ins k v t

/-- Remove key `k`. -/
def Tab.del (k : Nat) (t : Tab α) : Tab α := t.filter fun e => e.1 != k

/-- Write `v` at key `k` of a table with default `d`: writing the default removes the entry. -/
def Tab.put [DecidableEq α] (d : α) (k : Nat) (v : α) (t : Tab α) : Tab α :=
  if v = d then Tab.del k t else Tab.ins k v t

/-- The entry at key `k`, if the table lists one. -/
def Tab.find? (k : Nat) (t : Tab α) : Option α := (List.find? (fun e => e.1 == k) t).map Prod.snd

/-- Keys strictly rising. -/
def Tab.sorted : Tab α → Bool
  | [] => true
  | [_] => true
  | (a, _) :: (b, w) :: t => a < b && Tab.sorted ((b, w) :: t)

/-- Canonical form: keys strictly rising and no listed value equal to the default `d`. -/
def Tab.canon [DecidableEq α] (d : α) (t : Tab α) : Bool := Tab.sorted t && t.all fun e => e.2 != d

/-- Add `x` to a set of numbers kept without repeats. -/
def addOnce (x : Nat) (l : List Nat) : List Nat := if x ∈ l then l else l ++ [x]

/-- Remove `x` from a set of numbers. -/
def dropOne (x : Nat) (l : List Nat) : List Nat := l.filter (· != x)

end Sys2Proof.Machine
end

