-- ==== Sys2Proof/Machine/Ops.lean ====
section
/-! DEFINITION. The named operations over registers, memory and the record of what was sent. Every read and write of
a register field goes through these. -/

namespace Sys2Proof.Machine

open Sys2Proof

/-! ## Register fields -/

/-- The key of element `i` of a field. -/
def Field.key (f : Field) (i : Nat) : Nat := (f.addr + i * f.stride) * 128 + f.lo

/-- The largest value a field holds. -/
def Field.max (f : Field) : Nat := 2 ^ f.width - 1

/-- The offset from the register's base at which `off` falls in a row of a register table: the register's own base and its
64-bit word; none outside the row. -/
def RegRow.find (r : RegRow) (off : Nat) : Option (Nat × Nat) :=
  if off < r.addr then none
  else
    let d := off - r.addr
    let a := if r.strideA = 0 then 0 else d / r.strideA
    let da := d - a * r.strideA
    let b := if r.strideB = 0 then 0 else da / r.strideB
    let db := da - b * r.strideB
    if a < r.countA ∧ b < r.countB ∧ db < 8 * r.words ∧ db % 8 = 0 then some (off - db, db / 8) else none

/-- The register at `off` is the one that holds a field, or an element of its array: it lies in the same row of a register table,
a multiple of the stride on. -/
def Field.owns (f : Field) (off : Nat) : Bool :=
  if f.stride = 0 then off == f.addr
  else decide (f.addr ≤ off) && (off - f.addr) % f.stride == 0
    && R.rows.any fun r => (r.find f.addr).isSome && (r.find off).isSome

/-- The value in effect of element `i` of a field. -/
def State.rdAt (s : State) (f : Field) (i : Nat) : Nat := Tab.get f.reset (f.key i) s.csr

/-- The value in effect of a single field. -/
def State.rd (s : State) (f : Field) : Nat := s.rdAt f 0

/-- Whether a one-bit field is set. -/
def State.on (s : State) (f : Field) : Bool := s.rd f == 1

/-- Whether a one-bit field of an array is set. -/
def State.onAt (s : State) (f : Field) (i : Nat) : Bool := s.rdAt f i == 1

/-- A key that is kept once. -/
def keepKey (k : Nat) (l : List Nat) : List Nat := if l.contains k then l else k :: l

/-- Set element `i` of a field: the bits that fit its width. A sticky bit is noted as set in this tick (R369). -/
def State.wrAt (s : State) (f : Field) (i v : Nat) : State :=
  { s with csr := Tab.put f.reset (f.key i) (v % 2 ^ f.width) s.csr
           fired := if f.access = .w1c ∧ v % 2 ^ f.width ≠ 0 then keepKey (f.key i) s.fired else s.fired }

/-- Clear sticky bits of element `i` of a field by a write of 1 to them: none that the module sets in the same tick (R15, R369). -/
def State.clearBits (s : State) (f : Field) (i x : Nat) : State :=
  if s.fired.contains (f.key i) then s
  else { s with csr := Tab.put f.reset (f.key i) (s.rdAt f i - (s.rdAt f i &&& x)) s.csr }

/-- Set a single field. -/
def State.wr (s : State) (f : Field) (v : Nat) : State := s.wrAt f 0 v

/-- Add to a saturating count. -/
def State.addAt (s : State) (f : Field) (i n : Nat) : State := s.wrAt f i (min (s.rdAt f i + n) f.max)

/-- Add 1 to a saturating count. -/
def State.inc (s : State) (f : Field) : State := s.addAt f 0 1

/-- Add 1 to element `i` of a saturating count. -/
def State.incAt (s : State) (f : Field) (i : Nat) : State := s.addAt f i 1

/-- The value last written to a Staged field, in effect or not: what a read returns and an arming uses (R368). -/
def State.lastAt (s : State) (f : Field) (i : Nat) : Nat :=
  match Tab.find? (f.key i) s.staged with
  | some v => v
  | none => s.rdAt f i

/-- The value last written to a single Staged field. -/
def State.last (s : State) (f : Field) : Nat := s.lastAt f 0

/-- Return a field to its Reset column. -/
def State.clearAt (s : State) (f : Field) (i : Nat) : State := s.wrAt f i f.reset

/-- The Tally count. -/
def State.now (s : State) : Nat := s.rd R.TAL_NOW_TICKS

/-! ## Free values and what is sent -/

/-- Take the next free value. -/
def State.drawn (s : State) : State := { s with fresh := s.fresh + 1 }

/-- Record what the module sends or answers. -/
def State.emit (s : State) (e : Emission) : State := { s with sent := e :: s.sent }

/-! ## Local memory -/

/-- The byte at a local address: what was last written there, 0 where nothing has been (log entry 2). -/
def State.byte (s : State) (a : Nat) : Byte := Tab.get 0 a s.mem

/-- Write one byte of local memory. -/
def State.setByte (s : State) (a : Nat) (b : Byte) : State := { s with mem := Tab.put 0 a b s.mem }

/-- `n` bytes of local memory from address `a`. -/
def State.bytes (s : State) (a : Nat) : Nat → List Byte
  | 0 => []
  | n + 1 => s.byte a :: s.bytes (a + 1) n

/-- Write bytes to local memory from address `a`. -/
def State.setBytes (s : State) (a : Nat) : List Byte → State
  | [] => s
  | b :: t => (s.setByte a b).setBytes (a + 1) t

/-- A little-endian number of `n` bytes of local memory. -/
def State.le (s : State) (a n : Nat) : Nat := leNat (s.bytes a n)

/-! ## Modes of the module -/

/-- A plan is active: from its activation to the end of its ramp-down (R159 to R161). -/
def State.planActive (s : State) : Bool := s.pln.active.isSome

/-- A plan is armed, loading or active: the running condition of most blocks (R368). -/
def State.planRunning (s : State) : Bool :=
  let act := s.rd R.PLN_STATUS_ACT
  act == 1 || act == 2 || act == 3 || act == 4 || act == 5

/-- The module's own number, 0xFFFF before one is assigned. -/
def State.number (s : State) : Nat :=
  if s.on R.TOP_MODULE_ASSIGNED then s.rd R.TOP_MODULE_NUMBER else 0xFFFF

/-- Haul port `p` is Up (R280). -/
def State.portUp (s : State) (p : Nat) : Bool := s.rdAt R.HAUL_PORT_STATUS_STATE p == 6

/-- Write-inhibit is set, by the band or by firmware (R35). -/
def State.inhibited (s : State) : Bool := s.on R.PWR_STATUS_NV_INHIBIT

/-- The flash controller admits write units (R34, R36). -/
def State.writesAdmitted (s : State) : Bool := !s.inhibited && s.on R.PWR_STATUS_HOLDUP_OK

/-- The current throttle or a tapering shutdown leaves the module computing: the Forester domain is powered and no
shutdown has started. -/
def State.serving (s : State) : Bool := s.pwr.forester && s.pwr.shutdown == .none

/-- Ticks of a time in µs: 118.75 ticks each, rounded down. -/
def usTicks (us : Nat) : Nat := us * 11875 / 100

/-- Ticks of a time in ms: 118,750 ticks each. -/
def msTicks (ms : Nat) : Nat := ms * 118750

/-- Ticks of a time in ns: 19 ticks in 160 ns, rounded up. -/
def nsTicks (ns : Nat) : Nat := ceilDiv (ns * 19) 160

/-! ## Weights -/

/-- The weights of context `c` beyond their registers. -/
def State.wctx (s : State) (c : Nat) : WgtCtx := match Tab.find? c s.wgt.ctxs with | some w => w | none => WgtCtx.reset

/-- Set the weights of context `c`. -/
def State.setWctx (s : State) (c : Nat) (w : WgtCtx) : State :=
  { s with wgt := { s.wgt with ctxs := Tab.put WgtCtx.reset c w s.wgt.ctxs } }

/-- Write 64 bytes into eight registers. -/
def State.setRoot (s : State) (f : Field) (c : Nat) (bytes : List Byte) : State :=
  (List.range 8).foldl (fun s i => s.wrAt f (8 * c + i) (leAt (8 * i) 8 bytes)) s

end Sys2Proof.Machine
end

