-- ==== Sys2Proof/Machine/Record.lean ====
section
/-! DEFINITION. The Ring Recorder, its spills and the trace buffer (15_faults_security_observation.md R389 to R392,
R401, R434): what "records a Notice" and "records a Fault" do. -/

namespace Sys2Proof.Machine

open Sys2Proof

/-- The field of a clock region, for error records (R40). -/
def regionField (r : Nat) : Nat :=
  if r < 24 then r / 4
  else match r with
    | 26 => 1 | 27 => 2 | 28 => 2 | 29 => 3 | 30 => 3 | 31 => 4 | 32 => 5 | 33 => 5 | 34 => 1 | 36 => 5 | 37 => 4 | 38 => 1
    | _ => 0

/-- The host field of an occurrence, by its source and unit (R40, R385): 6 on the carrier or in the Forester, 7 where they name no
place of the die. -/
def occField (source unit : Nat) : Nat :=
  match source with
  | 1 | 18 | 19 | 23 => 6
  | 2 => regionField unit
  | 3 | 16 => regionField 38
  | 4 => unit / 132
  | 6 => regionField (24 + unit / 2)
  | 7 => regionField 34
  | 9 | 11 => regionField 37
  | 12 => if unit < 8 then regionField 35 else regionField 36
  | _ => 7

/-! ## Trace -/

/-- One trace record of event group `group` in field `field` (R401): dropped and counted past 8 records of one field
in one tick; in mode Stop capture ends when the buffer is full, in mode Wrap the oldest record is overwritten. Groups 2 and 7 name no
context, and OBS_TRACE_CFG.CONTEXTS leaves none of their events out (log entry 64). -/
def State.trace (s : State) (group field source unit ctx : Nat) : State :=
  if s.rd R.OBS_TRACE_STATUS_STATE = 2 ∧ bit group (s.rd R.OBS_TRACE_CFG_SOURCES) ∧
      (group = 2 ∨ group = 7 ∨ bit ctx (s.rd R.OBS_TRACE_CFG_CONTEXTS)) then
    let counts := if s.obs.traceTick = s.now then s.obs.traceCount else []
    if counts.count field ≥ 8 then s.inc R.OBS_TRACE_STATUS_DROPPED
    else
      let next := s.rd R.OBS_TRACE_STATUS_NEXT
      let r : TraceRec := ⟨s.now, Config.sixteenth s.fresh % 16, field, source, Config.traceEvent group s.fresh, unit, ctx,
        Config.traceData group s.fresh⟩
      let s := { s with obs := { s.obs with trace := Tab.ins next r s.obs.trace
                                            traceTick := s.now, traceCount := field :: counts } }
      let s := (s.wr R.OBS_TRACE_STATUS_NEXT ((next + 1) % 2 ^ 20)).drawn
      if next + 1 = 2 ^ 20 then
        if s.on R.OBS_TRACE_CFG_MODE then s.wr R.OBS_TRACE_STATUS_STATE 3 else s.wr R.OBS_TRACE_STATUS_WRAPPED 1
      else s
  else s

/-! ## Counters -/

/-- Add `n` to free-running counter `i` (R402). -/
def State.count (s : State) (i n : Nat) : State :=
  s.wrAt R.OBS_CNT_COUNT i (s.rdAt R.OBS_CNT_COUNT i + n)

/-- An HBM address (R184). -/
def isHbm (a : Nat) : Bool := decide (a < 0x00F000000000)

/-- How many of the numbers from `lo` up to `hi` leave rest `r` modulo `m`. -/
def countIn (lo hi m r : Nat) : Nat := (hi + m - 1 - r) / m - (lo + m - 1 - r) / m

/-- Count the bursts of HBM stack `st` among those numbered `lo` up to `hi`, by pseudo-channel (R185, R402). -/
def State.countStack (s : State) (write : Bool) (lo hi st : Nat) : State :=
  let first := st * 0x60000000
  (List.range 64).foldl (fun s p =>
    s.count (3168 + 128 * st + 2 * p + flag write) (countIn (max lo first) (max lo (min hi (first + 0x60000000))) 64 p)) s

/-- Count the bursts of an access of `n` bytes from `a`: of HBM by stack and pseudo-channel, of the DDR tier by channel and
subchannel (R185, R186, R402). -/
def State.countBursts (s : State) (write : Bool) (a n : Nat) : State :=
  if n = 0 then s
  else if isHbm a then
    let first := a / 0xC00000000
    let last := (a + n - 1) / 0xC00000000
    (List.range (last + 1 - first)).foldl (fun s k => s.countStack write (a / 32) (ceilDiv (a + n) 32) (first + k)) s
  else if 0x020000000000 ≤ a ∧ a < 0x040000000000 then
    let d := a - 0x020000000000
    (List.range 32).foldl (fun s r =>
      s.count (5728 + 4 * (r / 2) + 2 * (r % 2) + flag write) (countIn (d / 64) (ceilDiv (d + n) 64) 32 r)) s
  else s

/-- Write bytes to local memory and count their bursts. -/
def State.putMem (s : State) (a : Nat) (l : List Byte) : State := (s.countBursts true a l.length).setBytes a l

/-! ## Spills -/

/-- Cut a list into pieces of at most 62 entries, with fuel for the 17 pieces a full store gives. -/
def pieces62 : Nat → List (Nat × RrcEntry) → List (List (Nat × RrcEntry))
  | 0, _ => []
  | n + 1, l => if l.length ≤ 62 then [l] else l.take 62 :: pieces62 n (l.drop 62)

/-- The 64 bytes of a Ring Recorder entry (R390). -/
def RrcEntry.encode (e : RrcEntry) : List Byte :=
  leBytes 1 e.source ++ leBytes 1 e.code ++ leBytes 2 e.unit ++ leBytes 1 e.context ++ leBytes 1 e.severity
    ++ leBytes 1 (flag e.spilled + 2 * flag e.saturated) ++ zeros 1 ++ leBytes 4 e.count ++ zeros 4 ++ leBytes 8 e.first
    ++ leBytes 8 e.last ++ leBytes 4 e.largest ++ leBytes 4 e.smallest ++ leBytes 8 e.largestAt
    ++ (e.hist.map fun h => leBytes 2 h).flatten

/-- The bytes of a spill record (R392): its header, of which the manual gives the fields and not their places, so that they stand in its
order at the widths of their registers (DESIGN CHOICE, log entry 157), and its entries. -/
def SpillRec.encode (r : SpillRec) : List Byte :=
  let head := leBytes 4 0x52524353 ++ leBytes 4 (flag r.gap + 2 * flag r.final) ++ leBytes 16 r.bootNonce ++ leBytes 4 r.seq ++ leBytes 8 r.tally
    ++ (r.drops.map fun d => leBytes 4 d).flatten ++ leBytes 4 r.entries.length
  head ++ zeros (64 - head.length) ++ (r.entries.map fun (e : Nat × RrcEntry) => e.2.encode).flatten

/-- Spill records that are requested and not yet committed. -/
def State.spillsWaiting (s : State) : Nat := (s.pwr.units.filter fun u => match u with | .spill _ => true | _ => false).length

/-- The spill records of one spill (R392): every entry changed since its own last committed spill, at most 62 in each
record, at least one record. The first record after module reset carries GAP when the area holds a committed record
and the last one is not FINAL. A record begun after the taper of an orderly shutdown is FINAL, one that waited on
write-inhibit too (log entry 161). -/
def State.spillRecords (s : State) (final : Bool) : List SpillRec :=
  let changed := s.rrc.entries.filter fun e => !e.2.spilled
  let inFlight := s.spillsWaiting
  let base := s.rd R.RRC_STATUS_SPILL_SEQ + inFlight + 1
  let gap := s.rrc.firstRecord && inFlight == 0 && (match s.nv.spill.getLast? with | some r => !r.final | none => false)
  let nonce := s.rdAt R.SEC_BOOT_NONCE_NONCE 0 + 2 ^ 64 * s.rdAt R.SEC_BOOT_NONCE_NONCE 1
  let drops := [s.rd R.RRC_DROP_INFO, s.rd R.RRC_DROP_NOTICE, s.rd R.RRC_DROP_FAULT, s.rd R.RRC_DROP_CRITICAL]
  (pieces62 17 changed).zipIdx.map fun p =>
    { seq := base + p.2, gap := gap && p.2 == 0, final := final || s.pwr.shutdown == .holdUp, bootNonce := nonce, tally := s.now, drops := drops
      entries := p.1 }

/-- The write units of one spill record: when the next block of the area is full, the oldest block is erased first, as
its own write unit (R392). `held` counts the records the area holds before it. -/
def spillUnits (held : Nat) (r : SpillRec) : List UnitJob :=
  if held ≥ 4096 ∧ held % 16 = 0 then [.eraseSpill, .spill r] else [.spill r]

/-- Count a refused write unit (R35). -/
def State.writeRefused (s : State) : State := (s.inc R.PWR_COUNT_REFUSED).wr R.PWR_EVENT_WRITE_REFUSED 1

/-- A write unit is refused at its start (R35): counted, and its requester gets busy status; a spill waits. -/
def State.refuseUnit (s : State) (u : UnitJob) : State :=
  let s := s.writeRefused
  match u with
  | .other store => s.emit (.busy store)
  | .firmware .. => s.emit (.busy .firmware)
  | .journal _ => s.emit (.busy .keyStore)
  | .spill _ => s.wr R.RRC_STATUS_WAITING 1
  | .eraseSpill => s.wr R.RRC_STATUS_WAITING 1

/-- Write units wait for their turn. -/
def State.queueUnits (s : State) (l : List UnitJob) : State := { s with pwr := { s.pwr with units := s.pwr.units ++ l } }

/-- Write units are requested in order (R34, R35). A unit starts once none runs: the write-inhibit state and HOLDUP_OK, sampled
then, admit or refuse it, and the units after an admitted one start when it commits. -/
def State.requestUnits (s : State) (l : List UnitJob) : State :=
  if s.pwr.units = [] ∧ !s.writesAdmitted then l.foldl State.refuseUnit s
  else s.queueUnits l

/-- Start a spill (R392): its write units are requested and admitted, or it waits on write-inhibit (R35). -/
def State.startSpill (s : State) (final : Bool) : State :=
  if s.writesAdmitted then
    let recs := s.spillRecords final
    let units := (recs.zipIdx.map fun p => spillUnits (s.nv.spill.length + s.spillsWaiting + p.2) p.1).flatten
    (s.wr R.RRC_STATUS_WAITING 0).queueUnits units
  else s.writeRefused.wr R.RRC_STATUS_WAITING 1

/-- A spill that waits starts once inhibit has cleared (R35, R392). -/
def State.resumeSpill (s : State) : State :=
  if s.on R.RRC_STATUS_WAITING ∧ s.writesAdmitted then s.startSpill false else s

/-! ## Occurrences -/

/-- The histogram bucket of a value (R390). -/
def histBucket (v : Nat) : Nat :=
  if v = 0 then 0 else if v ≤ 3 then 1 else if v ≤ 15 then 2 else if v ≤ 63 then 3
  else if v ≤ 255 then 4 else if v ≤ 1023 then 5 else if v ≤ 4095 then 6 else 7

/-- Add 1 to count `i` of a list of saturating 16-bit counts. -/
def bumpHist (i : Nat) (l : List Nat) : List Nat := l.set i (min (l.getD i 0 + 1) 65535)

/-- Add one occurrence of `value` at count `now`, in the field and sixteenth `place`, to an entry (R390, R391, R59). -/
def RrcEntry.add (e : RrcEntry) (now : Nat) (place : Nat × Nat) (severity value : Nat) : RrcEntry :=
  let count := min (e.count + 1) (2 ^ 32 - 1)
  let hist := bumpHist (histBucket value) e.hist
  { e with severity := Nat.max e.severity severity, spilled := false, count := count, last := now, lastIn := place
           largest := Nat.max e.largest value, largestAt := if e.largest < value then now else e.largestAt
           largestIn := if e.largest < value then place else e.largestIn
           smallest := Nat.min e.smallest value, hist := hist
           saturated := e.saturated || count == 2 ^ 32 - 1 || hist.any (· == 65535) }

/-- A new entry holding its first occurrence. -/
def RrcEntry.fresh (source code unit ctx now : Nat) (place : Nat × Nat) (severity value : Nat) : RrcEntry :=
  { source := source, code := code, unit := unit, context := ctx, severity := severity, spilled := false
    saturated := false, count := 1, first := now, last := now, largest := value, smallest := value, largestAt := now
    firstIn := place, lastIn := place, largestIn := place
    hist := bumpHist (histBucket value) (List.replicate 8 0) }

/-- The entry that R391 gives up for a new occurrence when no entry is free: the Spilled entry of severity below 3
with the oldest LAST, else the entry of severity strictly below the new one with the lowest severity and then the
oldest LAST. -/
def victim (entries : Tab RrcEntry) (severity : Nat) : Option (Nat × RrcEntry) :=
  let older (a b : Nat × RrcEntry) : Bool := b.2.last < a.2.last
  let lower (a b : Nat × RrcEntry) : Bool :=
    b.2.severity < a.2.severity || (b.2.severity == a.2.severity && b.2.last < a.2.last)
  let pick (lt : Nat × RrcEntry → Nat × RrcEntry → Bool) (l : List (Nat × RrcEntry)) : Option (Nat × RrcEntry) :=
    l.foldl (fun acc e => match acc with | none => some e | some a => if lt a e then some e else some a) none
  match pick older (entries.filter fun e => e.2.spilled && e.2.severity < 3) with
  | some e => some e
  | none => pick lower (entries.filter fun e => e.2.severity < severity)

/-- Count an entry lost to overwrite (R391). -/
def State.overwritten (s : State) (e : RrcEntry) : State :=
  if e.spilled then s.inc R.RRC_OVERWRITE_SPILLED
  else if e.severity ≥ 2 then s.inc R.RRC_OVERWRITE_FAULT
  else if e.severity = 1 then s.inc R.RRC_OVERWRITE_NOTICE
  else s.inc R.RRC_OVERWRITE_INFO

/-- Count a dropped occurrence under its severity (R391). -/
def State.dropped (s : State) (severity : Nat) : State :=
  match severity with
  | 0 => s.inc R.RRC_DROP_INFO
  | 1 => s.inc R.RRC_DROP_NOTICE
  | 2 => s.inc R.RRC_DROP_FAULT
  | _ => s.inc R.RRC_DROP_CRITICAL

/-- Place `e` at index `i` of the store. -/
def State.setEntry (s : State) (i : Nat) (e : RrcEntry) : State :=
  { s with rrc := { s.rrc with entries := Tab.ins i e s.rrc.entries } }

/-- The store's count of entries in use, and the spill that reaching HIGH starts (R392). -/
def State.entryTaken (s : State) : State :=
  let used := s.rrc.entries.length
  let s := s.wr R.RRC_STATUS_USED used
  if used = s.rd R.RRC_CFG_HIGH then s.startSpill false else s

/-- One occurrence in a host field (R389, R391), stamped with the count, the field and the sixteenth of the free values (R59). -/
def State.occurIn (s : State) (field source code unit ctx severity value : Nat) : State :=
  let place := (field, Config.sixteenth s.fresh % 16)
  let s := (if severity ≥ 2 then s.trace 6 field source unit ctx else s).drawn
  let same (e : Nat × RrcEntry) : Bool :=
    e.2.source == source && e.2.code == code && e.2.unit == unit && e.2.context == ctx
  let new := RrcEntry.fresh source code unit ctx s.now place severity value
  match List.find? same s.rrc.entries with
  | some (i, e) => s.setEntry i (e.add s.now place severity value)
  | none =>
    match (List.range 1024).find? fun i => (Tab.find? i s.rrc.entries).isNone with
    | some i => (s.setEntry i new).entryTaken
    | none =>
      match victim s.rrc.entries severity with
      | some (i, e) => (s.overwritten e).setEntry i new
      | none => s.dropped severity

/-- One occurrence in the field that its source and unit give. -/
def State.occur (s : State) (source code unit ctx severity value : Nat) : State :=
  s.occurIn (occField source unit) source code unit ctx severity value

/-- Record a Notice (R389). -/
def State.notice (s : State) (source code unit ctx value : Nat) : State := s.occur source code unit ctx 1 value

/-- A start-up stage leaves by an exit of R413 that R434 does not list by itself: a Notice of the Forester, with the stage as its
unit. With a plan active the module has left start-up. -/
def State.startExit (s : State) (stage : Nat) : State := if s.planActive then s else s.notice 23 0x80 stage 0 0

/-- Record a Fault (R389). -/
def State.fault (s : State) (source code unit ctx value : Nat) : State := s.occur source code unit ctx 2 value

/-- Record a Critical occurrence (R389). -/
def State.critical (s : State) (source code unit ctx value : Nat) : State := s.occur source code unit ctx 3 value

end Sys2Proof.Machine
end

