-- ==== Sys2Proof/Machine/Faults.lean ====
section
/-! DEFINITION. Error records and the FLT queue (15_faults_security_observation.md R381 to R388): one operation by
which every rule raises an error. The automatic actions of Step-fatal and Module-fatal errors stand in
Machine/Replay.lean and Machine/Stop.lean. -/

namespace Sys2Proof.Machine

open Sys2Proof

/-- The place of a class in the order of severity (R381). -/
def ErrClass.rank : ErrClass → Nat
  | .corrected => 0
  | .contained => 1
  | .stepFatal => 2
  | .moduleFatal => 3

/-- What a rule names when it raises an error: class, raising block, code, field, context, unit and INFO. -/
structure Err where
  cls : ErrClass
  source : Nat
  code : Nat
  field : Nat
  ctx : Nat
  unit : Nat
  info : Nat
deriving DecidableEq, Repr

/-- Bits of an error record (R385). -/
def ErrRec.pack (r : ErrRec) : Nat :=
  r.stamp % 2 ^ 64 * 2 ^ 192 + r.sixteenth % 16 * 2 ^ 188 + r.field % 8 * 2 ^ 185 + r.cls.rank * 2 ^ 183
    + r.source % 64 * 2 ^ 177 + r.code % 256 * 2 ^ 169 + r.context % 16 * 2 ^ 165 + r.unit % 1024 * 2 ^ 155
    + r.info % 2 ^ 64 * 2 ^ 64 + r.step % 2 ^ 32 * 2 ^ 32 + r.repeats % 65536 * 65536 + r.seq % 65536

/-- Two errors are identical when SOURCE, CODE, UNIT and CONTEXT are equal (R387). -/
def ErrRec.identical (a b : ErrRec) : Bool :=
  a.source == b.source && a.code == b.code && a.unit == b.unit && a.context == b.context

/-- One further error merged into a record (R387). -/
def ErrRec.merged (r : ErrRec) : ErrRec := { r with repeats := min (r.repeats + 1) 65535 }

/-- Insert a record after every queued record of equal or higher class (R386). -/
def insertByClass (r : ErrRec) : List ErrRec → List ErrRec
  | [] => [r]
  | a :: t => if a.cls.rank < r.cls.rank then r :: a :: t else a :: insertByClass r t

/-- The lowest class rank in a queue. -/
def lowestClass (q : List ErrRec) : Nat := q.foldl (fun m r => min m r.cls.rank) 3

/-- Remove the newest queued record of class rank `k`: the last of that class, queued records of one class standing in
order of arrival. -/
def dropNewest (k : Nat) (q : List ErrRec) : List ErrRec :=
  let rec go : List ErrRec → List ErrRec
    | [] => []
    | a :: t => if a.cls.rank = k then t else a :: go t
  (go q.reverse).reverse

/-- Count a record that does not stay, under its class (R386). -/
def State.overflowed (s : State) (k : Nat) : State :=
  match k with
  | 1 => s.inc R.FLT_OVERFLOW_CONTAINED
  | 2 => s.inc R.FLT_OVERFLOW_STEP
  | _ => s

/-- The FLT status fields follow the queue (R405). -/
def State.fltStatus (s : State) : State :=
  let s := s.wr R.FLT_STATUS_DEPTH s.flt.queue.length
  match s.flt.primary with
  | some p => (s.wr R.FLT_STATUS_PRIMARY 1).wr R.FLT_STATUS_CLASS p.cls.rank
  | none => (s.wr R.FLT_STATUS_PRIMARY 0).wr R.FLT_STATUS_CLASS 0

/-- Set primary and queue. -/
def State.setFlt (s : State) (p : Option ErrRec) (q : List ErrRec) : State :=
  { s with flt := { s.flt with primary := p, queue := q } }.fltStatus

/-- Place a new record (R386). -/
def State.placeRecord (s : State) (r : ErrRec) : State :=
  let q := s.flt.queue
  match s.flt.primary with
  | none => s.setFlt (some r) q
  | some p =>
    if p.cls.rank < r.cls.rank then
      if q.length ≥ 8 then
        let k := lowestClass q
        (s.overflowed k).setFlt (some r) (p :: dropNewest k q)
      else s.setFlt (some r) (p :: q)
    else if q.length < 8 then s.setFlt (some p) (insertByClass r q)
    else
      let k := lowestClass q
      if k < r.cls.rank then (s.overflowed k).setFlt (some p) (insertByClass r (dropNewest k q))
      else s.overflowed r.cls.rank

/-- Merge an error identical to a record held, or place its record (R386, R387). -/
def State.placeOrMerge (s : State) (r : ErrRec) : State :=
  let isPrimary := match s.flt.primary with | some p => p.identical r | none => false
  if isPrimary then
    ({ s with flt := { s.flt with primary := s.flt.primary.map ErrRec.merged } }).inc R.FLT_OVERFLOW_REPEATS
  else if s.flt.queue.any (·.identical r) then
    ({ s with flt := { s.flt with queue := s.flt.queue.map fun a => if ErrRec.identical a r then ErrRec.merged a else a } }).inc
      R.FLT_OVERFLOW_REPEATS
  else
    let seq := (s.flt.seq + 1) % 65536
    ({ s with flt := { s.flt with seq := seq } }).placeRecord { r with seq := seq }

/-! ## Errors of one tick -/

/-- The place of two errors of one tick: class, highest first, then FIELD, then SOURCE (R388), the lower number first (log
entry 112). -/
def ErrRec.before (a b : ErrRec) : Bool :=
  b.cls.rank < a.cls.rank || (a.cls.rank == b.cls.rank &&
    (a.field < b.field || (a.field == b.field && a.source < b.source)))

/-- Insert an error among those of its tick, behind those it does not precede. -/
def insertErr (r : ErrRec) : List ErrRec → List ErrRec
  | [] => [r]
  | a :: t => if r.before a then r :: a :: t else a :: insertErr r t

/-- The queue as errors of the present tick find it. -/
def State.fltBase (s : State) : TickErrs :=
  { at_ := s.now, primary := s.flt.primary, queue := s.flt.queue, seq := s.flt.seq, contained := s.rd R.FLT_OVERFLOW_CONTAINED
    step := s.rd R.FLT_OVERFLOW_STEP, repeats := s.rd R.FLT_OVERFLOW_REPEATS, errs := [] }

/-- The errors of the present tick so far. With the Tally at rest there is no tick to share. -/
def State.fltTick (s : State) : TickErrs :=
  match s.flt.arrived with
  | some t => if t.at_ = s.now ∧ s.tal.running then t else s.fltBase
  | none => s.fltBase

/-- The queue as the errors of a tick found it. -/
def State.toBase (s : State) (t : TickErrs) : State :=
  let s := ((s.wr R.FLT_OVERFLOW_CONTAINED t.contained).wr R.FLT_OVERFLOW_STEP t.step).wr R.FLT_OVERFLOW_REPEATS t.repeats
  { s with flt := { s.flt with primary := t.primary, queue := t.queue, seq := t.seq } }.fltStatus

/-- Place the errors of a tick, in their order, on what that tick found (R388). -/
def State.placeTick (s : State) (t : TickErrs) : State :=
  t.errs.foldl State.placeOrMerge ({ s with flt := { s.flt with arrived := some t } }.toBase t)

/-- Queue the record of an error detected now (R386 to R388): placed on what is there, or, behind other errors of its tick, with
them anew in the order of R388. -/
def State.queueRecord (s : State) (r : ErrRec) : State :=
  let t := s.fltTick
  if t.errs = [] then { s with flt := { s.flt with arrived := some { t with errs := [r] } } }.placeOrMerge r
  else s.placeTick { t with errs := insertErr r t.errs }

/-- The count of a class (R405); Module-fatal errors count in FLT_OVERFLOW.MODULE_FATAL. -/
def State.countError (s : State) (c : ErrClass) : State :=
  match c with
  | .corrected => s.inc R.FLT_COUNT_CORRECTED
  | .contained => s.inc R.FLT_COUNT_CONTAINED
  | .stepFatal => s.inc R.FLT_COUNT_STEP_FATAL
  | .moduleFatal => s.inc R.FLT_OVERFLOW_MODULE_FATAL

/-- The record of an error detected now (R385). -/
def State.errRec (s : State) (e : Err) : ErrRec :=
  { stamp := s.now, sixteenth := Config.sixteenth s.fresh % 16, field := e.field, cls := e.cls, source := e.source
    code := e.code, context := e.ctx, unit := e.unit, info := e.info, step := s.rd R.TAL_STEP_INDEX % 2 ^ 32
    repeats := 0, seq := 0 }

/-- Raise an error: count it, record its occurrence, and queue its record unless it is Corrected (R381, R385, R389). -/
def State.raiseErr (s : State) (e : Err) : State :=
  let s := s.countError e.cls
  match e.cls with
  | .corrected => s.occurIn e.field e.source e.code e.unit e.ctx 0 0
  | .moduleFatal => (s.queueRecord (s.errRec e)).occurIn e.field e.source e.code e.unit e.ctx 3 0
  | _ => (s.queueRecord (s.errRec e)).occurIn e.field e.source e.code e.unit e.ctx 2 0

/-- Raise a Contained error with no more action than its rule states. -/
def State.contained (s : State) (source code field ctx unit info : Nat) : State :=
  s.raiseErr ⟨.contained, source, code, field, ctx, unit, info⟩

/-- Raise a Corrected error. -/
def State.corrected (s : State) (source code field ctx unit info : Nat) : State :=
  s.raiseErr ⟨.corrected, source, code, field, ctx, unit, info⟩

/-- The oldest record becomes primary again after an acknowledgement: the head of the queue (R386). -/
def State.promote (s : State) : State :=
  match s.flt.queue with
  | [] => s.setFlt none []
  | r :: t => s.setFlt (some r) t

end Sys2Proof.Machine
end

