-- ==== Sys2Proof/Machine/Link.lean ====
section
/-! DEFINITION. The link layer of a haul port: sequences, credits, replay, and what going down does to the port
(10_haul_links.md R269 to R279, R290, R291). -/

namespace Sys2Proof.Machine

open Sys2Proof

/-- Haul port `p`. -/
def State.port (s : State) (p : Nat) : HaulPort := s.haul.getD p HaulPort.reset

/-- Set haul port `p`. -/
def State.setPort (s : State) (p : Nat) (h : HaulPort) : State := { s with haul := s.haul.set p h }

/-- The field of a port held for virtual channel `vc`. -/
def availField (vc : Nat) : Field := if vc = 0 then R.HAUL_CREDIT_AVAIL0 else R.HAUL_CREDIT_AVAIL1

/-- The training state of a port (R280): 0 Disabled, 1 Dark, 2 Signal, 3 Lock, 4 Exchange, 5 Echo, 6 Up, 7 Backoff. -/
def State.train (s : State) (p : Nat) : Nat := s.rdAt R.HAUL_PORT_STATUS_STATE p

/-- Change the times of a port. -/
def State.onTimers (s : State) (p : Nat) (f : PortTimers → PortTimers) : State :=
  s.setPort p { s.port p with timers := f (s.port p).timers }

/-! ## Sending -/

/-- The clock region of a haul port stands still (R40, R50): the port neither sends nor receives until it restarts (DEDUCED, log entry
133). -/
def State.portStill (s : State) (p : Nat) : Bool := s.onAt R.CLK_RGN_STATUS_STOPPED (35 + p / 8)

/-- The physical lane that carries logical lane `l` of a map (R294). -/
def laneOf (map l : Nat) : Nat := map / 16 ^ l % 16

/-- A map with logical lane `l` on physical lane `x`. -/
def setLane (map l x : Nat) : Nat := map - laneOf map l * 16 ^ l + x * 16 ^ l

/-- The lanes on which a block leaves (R265, R281): an ANNOUNCE whole on every lane locked here, any other block striped. -/
def State.lanesFor (s : State) (p : Nat) (b : LinkBlock) : OnLanes :=
  if b.type = 7 ∧ beAt 1 1 b.data = 0 then .whole (s.port p).lanes
  else .striped ((List.range 8).map (laneOf (s.rdAt R.HAUL_LANE_MAP_TX_LOGICAL p))) ((s.port p).copyTx.map fun r => (r.logical, r.dst))

/-- A block leaves on a port. -/
def State.putBlock (s : State) (p : Nat) (b : LinkBlock) : State := if s.portStill p then s else s.emit (.block p (s.lanesFor p b) b)

/-- What the marks of physical lane `x` carry (R265). -/
def State.laneMark (s : State) (p x : Nat) : LaneMark :=
  let h := s.port p
  let mapped := (List.range 8).find? fun l => laneOf (s.rdAt R.HAUL_LANE_MAP_TX_LOGICAL p) l = x
  let logical := match mapped, h.copyTx with
    | some l, _ => l
    | none, some r => if r.dst = x then r.logical else 15
    | none, none => 15
  let copied : Bool := match h.copyTx with | some r => r.src == x || r.dst == x | none => false
  let swapped : Bool := match h.done with | some d => d.1.dst == x | none => false
  { lane := x, logical := if h.partner.isNone then 15 else logical
    op := if copied then .copied else if swapped then .swapped else if h.patternTx = some x then .pattern else .none }

/-- The lane marks of a port carry its present assignment from now on (R265, R281). -/
def State.showMarks (s : State) (p : Nat) : State := s.emit (.marks p ((List.range 9).map (s.laneMark p)))

/-- Move to a training state. A port that is lit again or has lost its partner marks its lanes unassigned (R265). -/
def State.setTrain (s : State) (p n : Nat) : State :=
  let s := ((s.onTimers p fun t => { t with state := s.now }).wrAt R.HAUL_PORT_STATUS_STATE p n).trace 7 (occField 12 p) 12 p 0
  if n = 1 ∨ n = 7 then s.showMarks p else s

/-- Picoseconds in 2⁻³² tick: a tick is 160,000/19 ps. -/
def psStamp (ps : Nat) : Nat := ps * 19 * 2 ^ 32 / 160000

/-- The departure stamp of a block at the medium boundary: its serialiser instant plus HAUL_LAT.TX_PS (R283). -/
def State.leaves (s : State) (p : Nat) (depart : Stamp) : Stamp := depart + psStamp (s.rdAt R.HAUL_LAT_TX_PS p)

/-- The arrival stamp of a block at the medium boundary: its assembly instant less the alignment span and HAUL_LAT.RX_PS (R283). -/
def State.arrives (s : State) (p : Nat) (arrival : Stamp) : Stamp :=
  arrival - (psStamp (s.rdAt R.HAUL_LOOP_DELAY_ALIGN_PS p) + psStamp (s.rdAt R.HAUL_LAT_RX_PS p))

/-- Send a block that takes no sequence number: its SEQ field is NEXT, which is 0 until the link comes up (R270, R273). -/
def State.sendPlain (s : State) (p type : Nat) (data : List Byte) : State :=
  let h := s.port p
  let valid := type != 0 && type != 7
  let b : LinkBlock :=
    { type := type, seq := if s.portUp p then s.rdAt R.HAUL_SEQ_NEXT_TX p else 0
      ack := if valid then (s.rdAt R.HAUL_SEQ_EXPECTED p + 65535) % 65536 else 0
      freed0 := if valid then h.freedOut0 else 0, freed1 := if valid then h.freedOut1 else 0, data := data }
  let s := if valid then s.onTimers p fun t => { t with ack := s.now, nak := if type = 5 then s.now else t.nak } else s
  s.putBlock p b

/-- A new sequenced block may depart: the link is Up, no replay runs and the window has room (R272, R273). -/
def State.mayDepart (s : State) (p : Nat) : Bool :=
  s.portUp p && !(s.port p).replaying && s.rdAt R.HAUL_SEQ_OUTSTANDING p < 8192

/-- Send a new sequenced block: it takes the next number and stays in the replay buffer (R273). -/
def State.sendSeq (s : State) (p type : Nat) (data : List Byte) : State :=
  let h := s.port p
  let n := s.rdAt R.HAUL_SEQ_NEXT_TX p
  let b : LinkBlock :=
    { type := type, seq := n, ack := (s.rdAt R.HAUL_SEQ_EXPECTED p + 65535) % 65536, freed0 := h.freedOut0
      freed1 := h.freedOut1, data := data }
  let t := { h.timers with ack := s.now, advance := if h.buffer.isEmpty then s.now else h.timers.advance
                           replay := if h.buffer.isEmpty then s.now else h.timers.replay }
  let s := (s.setPort p { h with buffer := h.buffer ++ [b], timers := t }).putBlock p b
  let s := (s.wrAt R.HAUL_SEQ_NEXT_TX p (n + 1)).wrAt R.HAUL_SEQ_OUTSTANDING p (s.rdAt R.HAUL_SEQ_OUTSTANDING p + 1)
  s.count (5792 + 16 * p + (if type = 1 then 0 else 2)) 1

/-- Send SCHED blocks of a port, those waiting first, as far as the link allows (R272): the rest wait. -/
def State.sendSched (s : State) (p : Nat) : List (List Byte) → State
  | [] => s.setPort p { s.port p with waitSched := [] }
  | d :: t => if s.mayDepart p then (s.sendSeq p 1 d).sendSched p t
              else s.setPort p { s.port p with waitSched := d :: t }

/-! ## Service packets at a port (R321, R322) -/

/-- A packet may be taken: its channel holds credits for all its blocks, of which the last 2 of channel 0 serve single-block EXPRESS
packets alone (R322), and while local injection is throttled a local non-EXPRESS packet waits for the gap (R323). -/
def State.creditsFor (s : State) (w : WaitingPkt) : Bool :=
  let need := w.blocks + (if w.vc = 0 ∧ !(w.express && w.blocks == 1) then 2 else 0)
  let gapOk := match Tab.find? w.port s.sch.lastInject with
    | some t => t + nsTicks (s.rd R.SCH_SVC_CFG_GAP_NS) ≤ s.now
    | none => true
  need ≤ s.rdAt (availField w.vc) w.port && (!s.sch.throttled || w.transit || w.express || gapOk)

/-- The order in which a port takes packets: EXPRESS, then transit, then local (R322). -/
def WaitingPkt.rank (w : WaitingPkt) : Nat := if w.express then 0 else if w.transit then 1 else 2

/-- Of the packets that `f` selects the first on the channel that was not served last, or else the first (R322). -/
def pickPkt (lastVc : Nat) (f : WaitingPkt → Bool) (l : List WaitingPkt) : Option WaitingPkt :=
  match l.find? fun w => f w && w.vc != lastVc with
  | some w => some w
  | none => l.find? f

/-- The packet of which port `p` sends a block next (R322): one that has begun and has a block here, for its blocks follow one another on
their channel; else one of the lowest rank that holds credits, the channels in turn. Packets of one rank and one channel go first in
first out. -/
def State.nextPkt (s : State) (p : Nat) : Option WaitingPkt :=
  let mine := s.sch.waiting.filter (·.port = p)
  let begun := mine.filter WaitingPkt.begun
  let ready := mine.filter fun w => !(begun.any fun u => u.vc == w.vc) && s.creditsFor w
    && (mine.find? fun v => v.rank = w.rank && v.vc = w.vc) == some w
  let last := (s.port p).lastVc
  match pickPkt last (fun w => w.data != []) begun with
  | some w => some w
  | none => match pickPkt last (fun w => w.rank == 0) ready with
    | some w => some w
    | none => match pickPkt last (fun w => w.rank == 1) ready with
      | some w => some w
      | none => pickPkt last (fun w => w.rank == 2) ready

/-- A service buffer of channel `vc` is freed here (R279). -/
def State.freeBuffers (s : State) (p vc n : Nat) : State :=
  let h := s.port p
  if vc = 0 then s.setPort p { h with freedOut0 := (h.freedOut0 + n) % 1024 }
  else s.setPort p { h with freedOut1 := (h.freedOut1 + n) % 1024 }

/-- The next block of a waiting packet departs on its channel for one credit, and its buffer is free (R279, R322). -/
def State.sendPktBlock (s : State) (w : WaitingPkt) : State :=
  match w.data with
  | [] => s
  | d :: rest =>
    let inject := if w.begun || w.transit || w.express then s.sch.lastInject else Tab.ins w.port s.now s.sch.lastInject
    let waiting := if rest = [] ∧ w.left = 0 then s.sch.waiting.erase w else s.sch.waiting.replace w { w with data := rest, begun := true }
    let s := { s with sch := { s.sch with waiting := waiting, lastInject := inject } }
    let s := s.setPort w.port { s.port w.port with lastVc := w.vc }
    let s := (s.sendSeq w.port (2 + w.vc) d).wrAt (availField w.vc) w.port (s.rdAt (availField w.vc) w.port - 1)
    match w.src with
    | some (q, vc) => s.freeBuffers q vc 1
    | none => s

/-- Send blocks of waiting service packets on port `p` while one may go, with fuel. -/
def State.pump : Nat → Nat → State → State
  | 0, _, s => s
  | n + 1, p, s =>
    if s.mayDepart p then
      match s.nextPkt p with
      | none => s
      | some w => State.pump n p (s.sendPktBlock w)
    else s

/-- Service blocks that wait at the ports. -/
def State.svcBlocks (s : State) : Nat := (s.sch.waiting.map fun w => w.data.length).sum

/-- What a port may send after a replay ends, A advances or credits return (R272). -/
def State.flush (s : State) (p : Nat) : State :=
  let s := s.sendSched p (s.port p).waitSched
  State.pump s.svcBlocks p s

/-! ## Acknowledgement, replay -/

/-- Replay every unacknowledged block in order (R276): the blocks go out again with present ACK and FREED values. -/
def State.startReplay (s : State) (p : Nat) : State :=
  let h := s.port p
  let ack := (s.rdAt R.HAUL_SEQ_EXPECTED p + 65535) % 65536
  let again := h.buffer.map fun b => { b with ack := ack, freed0 := h.freedOut0, freed1 := h.freedOut1 }
  let s := s.setPort p { h with replaying := !h.buffer.isEmpty }
  let s := again.foldl (fun s b => s.putBlock p b) s
  (s.addAt R.HAUL_REPLAY_COUNT_BLOCKS p again.length).count (5792 + 16 * p + 5) again.length

/-- A valid ACK value passes the check of R275. -/
def State.ackOk (s : State) (p a : Nat) : Bool :=
  let acked := s.rdAt R.HAUL_SEQ_ACKED p
  (a + 65536 - acked) % 65536 ≤ (s.rdAt R.HAUL_SEQ_NEXT_TX p + 65536 + 65535 - acked) % 65536

/-- Apply an ACK value that passed its check: A becomes `a` and the blocks up to it are freed (R275). -/
def State.applyAck (s : State) (p a : Nat) : State :=
  let acked := s.rdAt R.HAUL_SEQ_ACKED p
  let n := (a + 65536 - acked) % 65536
  let h := s.port p
  if n = 0 then s
  else
    let s := s.setPort p { h with buffer := h.buffer.drop n, doubling := 0, timers := { h.timers with advance := s.now, replay := s.now } }
    let s := (s.wrAt R.HAUL_SEQ_ACKED p a).wrAt R.HAUL_SEQ_OUTSTANDING p (h.buffer.drop n).length
    s

/-- Convert FREED values to returned credits (R279). -/
def State.applyFreed (s : State) (p f0 f1 : Nat) : State :=
  let h := s.port p
  let s := s.setPort p { h with freedIn0 := f0, freedIn1 := f1 }
  (s.wrAt R.HAUL_CREDIT_AVAIL0 p (s.rdAt R.HAUL_CREDIT_AVAIL0 p + (f0 + 1024 - h.freedIn0) % 1024)).wrAt
    R.HAUL_CREDIT_AVAIL1 p (s.rdAt R.HAUL_CREDIT_AVAIL1 p + (f1 + 1024 - h.freedIn1) % 1024)

/-- Send a NAK unless one is open (R276). -/
def State.raiseNak (s : State) (p : Nat) : State :=
  let h := s.port p
  if h.nakOpen then s else (s.setPort p { h with nakOpen := true }).sendPlain p 5 []

/-- The loop delay plus REPLAY_MARGIN_NS, in ticks rounded up (R276). -/
def State.nakSpan (s : State) (p : Nat) : Nat :=
  ceilDiv (s.rdAt R.HAUL_LOOP_DELAY_LOOP p) 65536 + nsTicks (s.rdAt R.HAUL_CFG_REPLAY_MARGIN_NS p)

/-! ## Going down -/

/-- What going down on a port leaves of a waiting packet (R291): one received through it goes, but where its first block has departed, its
others follow without data, so that the next module finds its LENGTH wrong and discards it (DESIGN CHOICE, log entry 155); one that has
begun to depart on the port itself goes as well. -/
def WaitingPkt.afterDown (p : Nat) (w : WaitingPkt) : Option WaitingPkt :=
  let through : Bool := match w.src with | some (q, _) => q == p | none => false
  if w.port = p ∧ w.begun then none
  else if through then
    (if w.begun then some { w with src := none, data := List.replicate (w.data.length + w.left) [], left := 0 } else none)
  else some w

/-- The blocks of a packet that has begun to depart on a port that goes down are discarded: those here free their buffers, and those to
come are passed over (R291). -/
def State.cutOff (s : State) (p : Nat) (w : WaitingPkt) : State :=
  match w.src with
  | some (q, vc) =>
    if w.port = p ∧ w.begun ∧ q ≠ p then
      let s := s.freeBuffers q vc w.data.length
      s.setPort q (if vc = 0 then { s.port q with skip0 := w.left } else { s.port q with skip1 := w.left })
    else s
  | none => s

/-- The port part of going down (R291): the replay buffer and credits go, partly received packets are discarded, and
the port enters Backoff, or Disabled when its ENABLE is clear. The packets received through it that still wait here go too: their blocks
have not been delivered. -/
def State.portDown (s : State) (p cause : Nat) : State :=
  let h := s.port p
  let s := (s.addAt R.HAUL_LOST_AT_DOWN p h.buffer.length).incAt R.HAUL_LINK_COUNT_DOWNS p
  let s := (s.wrAt R.HAUL_EVENT_DOWN p 1).wrAt R.HAUL_PORT_STATUS_DOWN_CAUSE p cause
  let s := s.setPort p { HaulPort.reset with fails := h.fails, opId := h.opId, lastRot := h.lastRot }
  let s := s.sch.waiting.foldl (fun s w => s.cutOff p w) s
  let s := { s with sch := { s.sch with waiting := s.sch.waiting.filterMap (WaitingPkt.afterDown p) } }
  let s := (s.wrAt R.HAUL_SEQ_OUTSTANDING p 0).wrAt R.HAUL_CREDIT_AVAIL0 p 0
  let s := ((s.wrAt R.HAUL_CREDIT_AVAIL1 p 0).wrAt R.HAUL_PORT_STATUS_LOCK_LOST p 0).wrAt R.HAUL_PORT_STATUS_SWAPPING p 0
  let s := s.wrAt R.HAUL_PORT_STATUS_ROTATING p 0
  s.setTrain p (if s.onAt R.HAUL_PORT_CTRL_ENABLE p then 7 else 0)

end Sys2Proof.Machine
end

