-- ==== Sys2Proof/Machine/Service.lean ====
section
/-! DEFINITION. Sending service packets from this module (11_scheduled_fabric.md R320 to R323) and the notices of holds
and replays (R311, R312, R316): the operations by which every rule raises a hold request or a Step-fatal error. -/

namespace Sys2Proof.Machine

open Sys2Proof

/-! ## Service packets -/

/-- A packet of this module with the next PACKET_SEQ (R320). -/
def State.newPkt (s : State) (kind dest : Nat) (express : Bool) (payload : List Byte) : SvcPkt :=
  { kind := kind, dest := dest, source := s.number, hops := s.rd R.SCH_SVC_CFG_HOP_LIMIT, express := express
    seq := s.sch.packetSeq, payload := payload }

/-- Blocks waiting in the local injection queue (R323). -/
def State.localBlocks (s : State) : Nat :=
  ((s.sch.waiting.filter fun w => !w.transit).map fun w => w.data.length).sum

/-- Queue a packet at an out port and send what may go (R321, R322). -/
def State.queuePkt (s : State) (w : WaitingPkt) : State :=
  let s := { s with sch := { s.sch with waiting := s.sch.waiting ++ [w] } }
  State.pump s.svcBlocks w.port s

/-- Offer a local packet to out port `p`: refused with a busy status when the injection queue of 512 blocks is full
(R323); it starts on channel 0, and moves to channel 1 on the date line of its ring (R321), but for a DISCOVERY packet (R338). -/
def State.injectAt (s : State) (p : Nat) (pkt : SvcPkt) : State :=
  if s.localBlocks + pkt.blocks > 512 then (s.inc R.SCH_SVC_COUNT_REFUSED).emit (.refusedPkt pkt.kind pkt.dest)
  else s.queuePkt { port := p, vc := if pkt.kind ≠ 6 ∧ s.onAt R.SCH_PORT_DATELINE p then 1 else 0, transit := false, src := none
                    express := pkt.express, blocks := pkt.blocks, data := pkt.blockData, left := 0, begun := false }

/-- The plan that a service packet names (R320, R324, R233, R375): its traffic is that plan's. -/
def trafficOf (kind : Nat) (payload : List Byte) : Option Nat :=
  if (1 ≤ kind ∧ kind ≤ 5) then some (leAt 0 8 payload) else if kind = 8 then some (leAt 8 8 payload) else none

/-- A mismatched port carries no service traffic of the active plan (R337). -/
def State.mismatched (s : State) (p kind : Nat) (payload : List Byte) : Bool :=
  s.sch.barred.contains p && (match s.pln.active, trafficOf kind payload with | some x, some n => x.id % 2 ^ 64 == n | _, _ => false)

/-- The service route to a module is valid, and its port may carry a packet (R321, R337). -/
def State.routeTo (s : State) (kind dest : Nat) (payload : List Byte) : Option Nat :=
  let p := s.rdAt R.SCH_SVC_ROUTE_PORT dest
  if dest < 4096 ∧ s.onAt R.SCH_SVC_ROUTE_VALID dest ∧ !s.mismatched p kind payload then some p else none

/-- The partner of a port differs from the descriptor of a plan (R337): a learned partner other than its map names, or a Yard port whose
partner is not a Yard. -/
def State.portMismatch (s : State) (plan : Plan) (p : Nat) : Bool :=
  match plan.ports[p]? with
  | none => false
  | some m =>
    let partner := s.rdAt R.TOP_PORT_PARTNER p
    m.use != 0 && ((partner != 0xFFFF && (partner != m.partner || s.rdAt R.TOP_PORT_PARTNER_PORT p != m.partnerPort))
      || (m.use == 1 && s.rdAt R.HAUL_PARTNER_TYPE p != 1))

/-- TOP_PORT.MISMATCH (R337, R348, R349): the port is barred for the active plan, or its learned partner differs from EXPECT. -/
def State.showMismatch (s : State) (p : Nat) : State :=
  let expect := s.rdAt R.TOP_PORT_EXPECT p
  let differs := s.sch.barred.contains p
    || (expect != 0xFFFF && s.rdAt R.TOP_PORT_PARTNER p != 0xFFFF && s.rdAt R.TOP_PORT_PARTNER p != expect)
  let s := if differs && !s.onAt R.TOP_PORT_MISMATCH p then s.wr R.TOP_EVENT_MISMATCH 1 else s
  s.wrAt R.TOP_PORT_MISMATCH p (flag differs)

/-- The ports that are barred for the active plan, shown (R337). -/
def State.bar (s : State) (l : List Nat) : State :=
  (List.range 16).foldl State.showMismatch { s with sch := { s.sch with barred := l } }

/-- Send a service packet to a module (R321): delivered here when it is this module, discarded and counted without a
valid route. -/
def State.sendService (s : State) (kind dest : Nat) (express : Bool) (payload : List Byte) : State :=
  let pkt := s.newPkt kind dest express payload
  let s := { s with sch := { s.sch with packetSeq := (s.sch.packetSeq + 1) % 2 ^ 32 } }
  if dest = s.number then s.emit (.deliver pkt)
  else match s.routeTo kind dest payload with
    | some p => s.injectAt p pkt
    | none => s.inc R.SCH_SVC_COUNT_NO_ROUTE

/-- Send a service packet to the partner of one link: DEST 0xFFFF (R320). -/
def State.sendPartner (s : State) (p kind : Nat) (express : Bool) (payload : List Byte) : State :=
  let pkt := s.newPkt kind 0xFFFF express payload
  ({ s with sch := { s.sch with packetSeq := (s.sch.packetSeq + 1) % 2 ^ 32 } }).injectAt p pkt

/-- Send one payload to each of several modules, in order. -/
def State.sendAll (s : State) (kind : Nat) (express : Bool) (payload : List Byte) : List Nat → State
  | [] => s
  | m :: t => (s.sendService kind m express payload).sendAll kind express payload t

/-! ## Jobs -/

/-- The job in slot `k`: 0 to 6 forwarding loads, 7 the active plan. -/
def State.job? (s : State) (k : Nat) : Option Job := Tab.find? k s.sch.jobs

/-- Set the job in slot `k`. -/
def State.setJob (s : State) (k : Nat) (j : Job) : State :=
  { s with sch := { s.sch with jobs := Tab.ins k j s.sch.jobs } }

/-- The neighbours of this module in a job's hold tree (R298, R312). -/
def Job.neighbours (j : Job) : List Nat :=
  (if j.sched.holdParent = 0xFFFF then [] else [j.sched.holdParent]) ++ j.sched.holdChildren

/-- The point that a request raised at count `c` names (R311). -/
def Job.pointAt (j : Job) (c : Nat) : Nat := roundUp 16 (c + j.lead)

/-- The count at which a check that failed at count `c` and raised a hold of `n` quanta is repeated (R313). -/
def Job.recheckAt (j : Job) (c n : Nat) : Nat := max (j.pointAt c) (j.pointAt c + n * j.q - j.lead)

/-- The active plan's hold quantum, in ticks. -/
def State.quantum (s : State) : Nat := match s.job? 7 with | some j => j.q | none => 128

/-- The next latched point of the active plan's job and its length show in SCH_HOLD_NEXT (R327). -/
def State.showPoints (s : State) : State :=
  match s.job? 7 with
  | none => ((s.wr R.SCH_HOLD_NEXT_POINT 0).wr R.SCH_HOLD_NEXT_Q_QUANTA 0).wr R.SCH_HOLD_NEXT_Q_CAUSE 0
  | some j =>
    let earliest := j.points.foldl (fun (a : Option HoldPoint) p =>
      match a with | none => some p | some b => if p.point < b.point then some p else some b) none
    match earliest, j.notice with
    | some p, some r =>
      if p.point ≤ r.point then
        ((s.wr R.SCH_HOLD_NEXT_POINT p.point).wr R.SCH_HOLD_NEXT_Q_QUANTA p.quanta).wr R.SCH_HOLD_NEXT_Q_CAUSE p.cause
      else ((s.wr R.SCH_HOLD_NEXT_POINT r.point).wr R.SCH_HOLD_NEXT_Q_QUANTA 0).wr R.SCH_HOLD_NEXT_Q_CAUSE 0
    | some p, none =>
      ((s.wr R.SCH_HOLD_NEXT_POINT p.point).wr R.SCH_HOLD_NEXT_Q_QUANTA p.quanta).wr R.SCH_HOLD_NEXT_Q_CAUSE p.cause
    | none, some r =>
      ((s.wr R.SCH_HOLD_NEXT_POINT r.point).wr R.SCH_HOLD_NEXT_Q_QUANTA 0).wr R.SCH_HOLD_NEXT_Q_CAUSE 0
    | none, none => ((s.wr R.SCH_HOLD_NEXT_POINT 0).wr R.SCH_HOLD_NEXT_Q_QUANTA 0).wr R.SCH_HOLD_NEXT_Q_CAUSE 0

/-- The state of the active plan's job shows in SCH_STATUS (R327). -/
def State.showJob (s : State) : State :=
  match s.job? 7 with
  | none => s
  | some j =>
    let s := (s.wr R.SCH_STATUS_STEP (j.step % 2 ^ 32)).wr R.SCH_STATUS_ATTEMPT (j.attempt % 4)
    ((s.wr R.SCH_STATUS_REPLAYING (flag j.replay.isSome)).wr R.SCH_STATUS_HOLDING (flag j.hold.isSome)).showPoints

/-! ## Holds -/

/-- Latch a request for a point: the largest n stands, with its cause (R312). -/
def latchPoint (point quanta cause : Nat) (l : List HoldPoint) : List HoldPoint :=
  if l.any (·.point = point) then
    l.map fun h => if h.point = point ∧ h.quanta < quanta then ⟨point, quanta, cause⟩ else h
  else l ++ [⟨point, quanta, cause⟩]

/-- Latch a hold request in the job of slot `k`. -/
def State.latchHold (s : State) (k point quanta cause : Nat) : State :=
  match s.job? k with
  | none => s
  | some j => (s.setJob k { j with points := latchPoint point quanta cause j.points }).showPoints

/-- Raise a hold request at a named point: latch it and send HOLD notices to the hold parent and children (R312). -/
def State.holdAt (s : State) (k point quanta cause : Nat) : State :=
  match s.job? k with
  | none => s
  | some j =>
    let n : Notice := { plan := j.plan, point := point, step := j.step, requester := s.number, arg := quanta
                        code := cause, attempt := 0, origin := s.now }
    ((s.latchHold k point quanta cause).inc R.SCH_NOTICE_COUNT_SENT).sendAll 1 true n.encode j.neighbours

/-- Raise a hold request of `quanta` quanta for the active plan (R311): nothing when no plan is active. -/
def State.holdRequest (s : State) (quanta cause : Nat) : State :=
  match s.job? 7 with
  | none => s
  | some j => if s.planActive then s.holdAt 7 (j.pointAt s.now) quanta cause else s

/-! ## Answers over FCP (14_forester_and_control.md R377, R378) -/

/-- The 16-byte header of an FCP message with a body of `n` bytes (R377). -/
def fcpHead (op reqId status n : Nat) : List Byte := beBytes 4 (16 + n) ++ beBytes 2 op ++ beBytes 2 status ++ beBytes 8 reqId

/-- The body of an FCP message: its numbers as 8 bytes each, most significant first, and its bytes. R377 names the items of a body and not
their widths (DESIGN CHOICE, log entry 156). -/
def fcpBody (fields : List Nat) (bytes : List Byte) : List Byte := (fields.map (beBytes 8)).flatten ++ bytes

/-- The header of the response to a request: bit 15 of its OP is set (R377). -/
def answerHead (op reqId status : Nat) (fields : List Nat) (bytes : List Byte) : List Byte :=
  fcpHead (op + 0x8000) reqId status (fcpBody fields bytes).length

/-- A response on a session (R377). -/
def fcpAnswer (session op reqId status : Nat) (fields : List Nat) (bytes : List Byte) : Emission :=
  .fcp session op reqId status fields bytes (answerHead op reqId status fields bytes)

/-- A byte string in pieces of at most `n` bytes, one where it is empty. -/
def piecesOf (n : Nat) (l : List Byte) : List (List Byte) :=
  (List.range (max 1 (ceilDiv l.length n))).map fun i => (l.drop (n * i)).take n

/-- Carry a message to another module: KIND 0x09, of at most 3,888 bytes each, its header included (R378). -/
def State.sendFcp (s : State) (m op reqId status : Nat) (fields : List Nat) (bytes : List Byte) : State :=
  (piecesOf 3872 (fcpBody fields bytes)).foldl (fun s b => s.sendService 9 m false (fcpHead op reqId status b.length ++ b)) s

/-- Answer a request (R377): on its session, or to the module that sent it (R378). -/
def State.answerAll (s : State) (who op reqId status : Nat) (fields : List Nat) (bytes : List Byte) : State :=
  if who < 8 then s.emit (fcpAnswer who op reqId status fields bytes)
  else s.sendFcp (who - 8) (op + 0x8000) reqId status fields bytes

/-! ## Step replay -/

/-- The contexts of a mask. -/
def maskList (mask : Nat) : List Nat := (List.range 16).filter fun c => bit c mask

/-- Combine a replay notice with the one latched: for one step and attempt the earliest point and the union of the
masks stand (R316). -/
def combineReplay (n : ReplayNotice) (old : Option ReplayNotice) : ReplayNotice :=
  match old with
  | none => n
  | some o =>
    if o.attempt = n.attempt ∧ o.step = n.step then
      { o with point := min o.point n.point, mask := o.mask ||| n.mask }
    else n

/-- Latch a replay notice in the job of slot `k`: timed releases of its contexts are withheld from now on (R317). -/
def State.latchReplay (s : State) (k : Nat) (n : ReplayNotice) : State :=
  match s.job? k with
  | none => s
  | some j =>
    let s := s.setJob k { j with notice := some (combineReplay n j.notice) }
    let s := if k = 7 then
        { s with sch := { s.sch with withheld := (maskList n.mask).foldl (fun l c => addOnce c l) s.sch.withheld } }
      else s
    s.showPoints

/-- The contexts that a job runs on this module: those of the active plan, or all that a forwarding load's plan names. -/
def State.jobMask (s : State) (k : Nat) : Nat :=
  if k = 7 then (match s.pln.active with | some p => p.mask | none => 0)
  else match Tab.find? k s.top.loads with | some l => l.plan.mask | none => 0

/-- Ask for the replay of the current step of the contexts of `mask` in the job of slot `k` (R316, R345): latch and send
REPLAY notices. -/
def State.replayFor (s : State) (k mask code : Nat) : State :=
  match s.job? k with
  | none => s
  | some j =>
    let r : ReplayNotice := ⟨j.pointAt s.now, mask, j.attempt + 1, j.step, code⟩
    let n : Notice := { plan := j.plan, point := r.point, step := j.step, requester := s.number, arg := mask
                        code := code, attempt := r.attempt, origin := s.now }
    ((s.latchReplay k r).inc R.SCH_NOTICE_COUNT_SENT).sendAll 2 true n.encode j.neighbours

/-- A notice is latched at or after its point: the Step-fatal error "hold missed" (R312, R315). -/
def State.holdMissed (s : State) (k : Nat) : State :=
  let s := (s.inc R.SCH_NOTICE_COUNT_LATE).wr R.SCH_EVENT_HOLD_MISSED 1
  let mask := s.jobMask k
  let s := s.raiseErr ⟨.stepFatal, 13, 0x08, 7, (maskList mask).headD 0, 0, k⟩
  s.replayFor k mask 0x08

/-- Ask for the replay of the current step of contexts of the active plan. -/
def State.replayRequest (s : State) (mask code : Nat) : State :=
  if s.planActive then s.replayFor 7 mask code else s

/-- Raise a Step-fatal error for the contexts of `mask`: record it and replay their step (R381, R316). -/
def State.stepFatal (s : State) (source code field unit info mask : Nat) : State :=
  let ctx := (maskList mask).headD 0
  (s.raiseErr ⟨.stepFatal, source, code, field, ctx, unit, info⟩).replayRequest mask code

end Sys2Proof.Machine
end

