-- ==== Sys2Proof/Machine/Position.lean ====
section
/-! DEFINITION. Positions in a step (02_clocks_and_tally.md R52; 11_scheduled_fabric.md R311 to R316): a nominal position
pauses in a hold, and in a replay span runs again from 0 for the contexts of the mask. -/

namespace Sys2Proof.Machine

open Sys2Proof

/-- The earliest point of a job that has been reached. -/
def Job.duePoint (j : Job) (now : Nat) : Option HoldPoint :=
  (j.points.filter fun p => decide (p.point ≤ now)).foldl (fun (a : Option HoldPoint) p =>
    match a with | none => some p | some b => if p.point < b.point then some p else some b) none

/-- An abandon point stands at the same count: the replay span begins first, and the hold follows its gap (R325). -/
def Job.abandonsAt (j : Job) (point : Nat) : Bool :=
  (match j.notice with | some n => n.point == point | none => false)
    || (match j.replay with | some r => r.phase == .gap && r.start == point | none => false)

/-- The count at which the hold of a point begins: at the point, at the end of the hold that it falls inside (R312), or after the gap of
the replay span that began there (R325). -/
def Job.startOf (j : Job) (p : HoldPoint) : Nat :=
  let a := max p.point j.holdEnd
  match j.replay with | some r => if p.point ≤ r.start then max a r.rerunStart else a | none => a

/-- The count from which positions stand still for a hold: that of the hold in progress, or of one whose point has been reached, which
precedes every action planned there (R312). -/
def Job.holdFrom (j : Job) (now : Nat) : Option Nat :=
  match j.hold with
  | some h => some h.start
  | none => match j.duePoint now with
    | some p => if j.abandonsAt p.point then none else some (j.startOf p)
    | none => none

/-- The nominal position, at count `now`, of a step that began at `start` and has taken `holds` hold ticks, of a context
in `mask` terms of the job's replay span. -/
def Job.position (j : Job) (now start holds ctx : Nat) : Nat :=
  let held (t : Nat) : Nat := match j.holdFrom now with | some a => min t a | none => t
  match j.replay with
  | none => held now - start - holds
  | some r =>
    if r.phase = .rerun ∧ bit ctx r.mask then min (held now - r.rerunStart - r.holds) (r.start - start - holds)
    else r.start - start - holds

/-- Positions of a context stand still: a hold runs, or a replay span that the context does not re-run. -/
def Job.paused (j : Job) (now ctx : Nat) : Bool :=
  (j.holdFrom now).isSome || (match j.replay with | none => false | some r => !(r.phase == .rerun && bit ctx r.mask))

/-- Tally counts less every hold tick of the job since activation: the time that windows and releases follow (R247,
R259). It stands still in a hold and in a replay span. -/
def Job.nominalTime (j : Job) (now : Nat) : Nat :=
  let t := match j.replay with | some r => r.start | none => now
  let t := match j.holdFrom now with | some a => min t a | none => t
  t - j.holds

/-- Nominal time of the active plan. -/
def State.nominalTime (s : State) : Nat := match s.job? 7 with | some j => j.nominalTime s.now | none => s.now

/-- The Tally count of a nominal time at or after the last hold (R161). -/
def State.tallyOf (s : State) (t : Nat) : Nat := match s.job? 7 with | some j => t + j.holds | none => t

/-- Nominal time stands still: a hold or a replay span. -/
def State.timePaused (s : State) : Bool := match s.job? 7 with | some j => (j.holdFrom s.now).isSome || j.replay.isSome | none => false

/-- The nominal time `t` has come; with time standing still it must have passed (R314). -/
def State.timeDue (s : State) (t : Nat) : Bool := if s.timePaused then t < s.nominalTime else t ≤ s.nominalTime

/-- The nominal position of the base step of the active plan (R52). -/
def State.nominal (s : State) : Nat :=
  match s.job? 7 with
  | none => 0
  | some j => j.position s.now j.stepStart j.stepHolds 16

/-- The run of context `c` of the active plan. -/
def State.ctx? (s : State) (c : Nat) : Option CtxRun := Tab.find? c s.pln.ctxs

/-- Set the run of context `c`. -/
def State.setCtx (s : State) (c : Nat) (r : CtxRun) : State :=
  { s with pln := { s.pln with ctxs := Tab.ins c r s.pln.ctxs } }

/-- Context `c` issues work. -/
def State.ctxRunning (s : State) (c : Nat) : Bool := match s.ctx? c with | some r => r.running | none => false

/-- The nominal position of context `c` in its own step (R166). -/
def State.ctxPos (s : State) (c : Nat) : Nat :=
  match s.job? 7, s.ctx? c with
  | some j, some r => j.position s.now r.start r.holds c
  | _, _ => 0

/-- Positions of context `c` stand still. -/
def State.ctxPaused (s : State) (c : Nat) : Bool := match s.job? 7 with | some j => j.paused s.now c | none => true

/-- The moment of nominal position `t` of context `c` has come: reached, and with positions paused passed (R312, R314). -/
def State.due (s : State) (c t : Nat) : Bool :=
  if s.ctxPaused c then t < s.ctxPos c else t ≤ s.ctxPos c

/-- The moment of position `t` has come in the haul plane's own count of a job (R326, R345). -/
def Job.due (j : Job) (now ctx t : Nat) : Bool :=
  let p := j.position now j.stepStart j.stepHolds ctx
  decide (j.stepStart ≤ now) && (if j.paused now ctx then decide (t < p) else decide (t ≤ p))

/-- Ticks of the hold in progress. -/
def Job.holdRun (j : Job) : Nat := match j.hold with | some h => h.stop - h.start | none => 0

/-- The count at which the present attempt of a context's step began, and the hold ticks that it has taken, those of a hold in progress
included (R52, R119, R316). -/
def State.attemptSpan (s : State) (c : Nat) : Nat × Nat :=
  match s.job? 7, s.ctx? c with
  | some j, some r =>
    match j.replay with
    | some x => if x.phase = .rerun ∧ bit c x.mask then (x.rerunStart, x.holds + j.holdRun) else (r.start, r.holds + j.holdRun)
    | none => (r.start, r.holds + j.holdRun)
  | _, _ => (0, 0)

/-- The contexts that the active plan defines. -/
def State.planCtxs (s : State) : List PlanCtx := match s.pln.active with | some p => p.ctxs | none => []

/-- The entry of context `c` in the active plan. -/
def State.planCtx? (s : State) (c : Nat) : Option PlanCtx := s.planCtxs.find? fun x => x.ctx == c

/-- The length of a step of context `c`: S, or S + X with its spare extension in force (R140, R166). -/
def State.stepLen (s : State) (c : Nat) : Nat :=
  match s.pln.active, s.planCtx? c, s.ctx? c with
  | some p, some x, some r => p.stepLen + (if r.extended then x.spareExt else 0)
  | some p, _, _ => p.stepLen
  | none, _, _ => 0

/-- A fork point of the active plan (R109). -/
def State.fork? (s : State) (n : Nat) : Option ForkPoint :=
  match s.pln.active with | some p => p.forks.find? fun f => f.number == n | none => none

/-- A fork in its context's present step, before anything has happened to it. -/
def ForkRun.start : ForkRun := { word := none, holds := 0, recheck := none, committed := false, ended := false, sent := 0 }

/-- A fork in its context's present step. -/
def State.forkRun (s : State) (n : Nat) : ForkRun := match Tab.find? n s.frk.forks with | some r => r | none => ForkRun.start

/-- The variant that a decision word takes: variant 0 for a value out of range (R112, R113). -/
def variantOf (f : ForkPoint) (word : Nat) : Nat := if word % 8 < f.variants then word % 8 else 0

/-- LEAD_TICKS is long enough for the votes and the notice (R372). -/
def State.leadOk (s : State) (p : Plan) : Bool :=
  decide (s.rd R.OLC_2PC_VOTE_TICKS + p.lead + 16 ≤ s.rd R.OLC_2PC_LEAD_TICKS)

/-- ACT shows an armed or failed activation, and otherwise the state of the active plan (R159, R160, R180; log entry 99). -/
def State.showAct (s : State) : State :=
  let p := s.pln
  s.wr R.PLN_STATUS_ACT
    (if p.loading then 2 else if p.armed then 1 else if p.failed then 6
     else if p.active.isSome then (if p.draining then 5 else if p.stopArmed then 4 else 3) else 0)

/-- PTP_LOCKED: a root that follows PTP, and its PTP clocks are locked (R62). -/
def State.showPtpLocked (s : State) : State :=
  s.wr R.TAL_STATUS_PTP_LOCKED
    (flag (s.rd R.TAL_STATUS_ROLE == 1 && s.on R.TAL_CTRL_PTP_FOLLOW && s.on R.PTP_STATUS_LOCKED))

/-- SCH_PORT.ENTRIES counts the entries of the job in slot 7 on each port (R327). -/
def State.showEntries (s : State) : State :=
  let l := match s.job? 7 with | some j => j.sched.entries.map Prod.fst | none => []
  (List.range 16).foldl (fun s p => s.wrAt R.SCH_PORT_ENTRIES p (l.filter fun k => k / 32768 == p).length) s

/-- Show the spares standing in (R148, R180). -/
def State.showSubst (s : State) : State :=
  let l := s.gen.subst.take 24
  let s := (List.range 24).foldl (fun s i =>
    match l[i]? with
    | none => s.wrAt R.PLN_SUBST_VALID i 0
    | some x =>
      let s := ((s.wrAt R.PLN_SUBST_CROSS i (flag x.cross)).wrAt R.PLN_SUBST_LOGICAL i x.logical).wrAt R.PLN_SUBST_FROM i x.source
      (s.wrAt R.PLN_SUBST_TO i x.spare).wrAt R.PLN_SUBST_VALID i 1) s
  s.wr R.GEN_SPARE_ACTIVE l.length

/-- What the load phase of an activation has put into the benches, the spares and the tables of the haul plane goes again (R159, R160). -/
def State.unload (s : State) : State :=
  if s.pln.loading then
    { s with bench := [], gen := { s.gen with subst := [] }, pln := { s.pln with loading := false }
             sch := { s.sch with jobs := Tab.del 7 s.sch.jobs } }.showEntries.showSubst
  else s

end Sys2Proof.Machine
end

