-- ==== Sys2Proof/Machine/Energy.lean ====
section
/-! DEFINITION. Power profile, fill and taper (01_module_envelope.md R28 to R33, R433) and the input bands (R21): the
operations that the power rows and every stop of bench work share. -/

namespace Sys2Proof.Machine

open Sys2Proof

/-! ## The profile in force -/

/-- The stage in force at a position: the last of the list at or before it (R433). -/
def stageAt (l : List PowerStage) (pos : Nat) : Option PowerStage :=
  (l.filter fun g => g.position ≤ pos).getLast?

/-- The bench regions in which a plan uses benches (R163). -/
def usedRegions (p : Plan) : List Nat :=
  (List.range 24).filter fun r => ((p.alloc.drop (32 * r)).take 32).any fun a => a.used

/-- The operating point in force for a plan: that of its bench regions, which move together (R51); of region 0 where it uses
none. -/
def State.pointFor (s : State) (p : Plan) : Nat := s.rdAt R.CLK_RGN_STATUS_OP_POINT ((usedRegions p).headD 0)

/-- The operating point in force: that of the active plan's bench regions. -/
def State.point (s : State) : Nat :=
  match s.pln.active with
  | some p => s.pointFor p
  | none => s.rdAt R.CLK_RGN_STATUS_OP_POINT 0

/-- The profile of the active plan for the point in force (R433). -/
def State.profile (s : State) : Option PowerProfile :=
  match s.pln.active with
  | none => none
  | some p => p.profiles.find? fun f => f.point = s.point

/-- The nominal ticks since the activation count (R433). -/
def State.elapsed (s : State) : Nat := match s.job? 7 with | some j => j.step * j.stepLen + s.nominal | none => 0

/-- The position of the last stage of a list. -/
def lastPosition (l : List PowerStage) : Nat := match l.getLast? with | some g => g.position | none => 0

/-- The fork region that context `c` is in, between K and J, and the variant it took (R113). -/
def State.forkNow (s : State) (c : Nat) : Option (Nat × Nat) :=
  match s.pln.active with
  | none => none
  | some p =>
    match p.forks.find? fun f =>
        f.ctx == c && (s.forkRun f.number).committed && decide (f.k ≤ s.ctxPos c) && decide (s.ctxPos c < f.j) with
    | some f => (s.forkRun f.number).word.map fun w => (f.number, variantOf f w)
    | none => none

/-- The fork region in which context `c` holds its power: in a replay span that of the position at which it paused (R33, R316). -/
def State.forkHeld (s : State) (c : Nat) : Option (Nat × Nat) :=
  match s.job? 7 with
  | some j => match j.replay with
    | some r => if bit c r.mask then Tab.find? c s.pwr.heldForks else s.forkNow c
    | none => s.forkNow c
  | none => s.forkNow c

/-- The stage of a step profile at a position: between K and J the stages of the variant taken replace the common ones
(R433). -/
def stepStage (l : List PowerStage) (pos : Nat) (fork : Option (Nat × Nat)) : Option PowerStage :=
  let common := stageAt (l.filter fun g => g.fork = 0xFFFF) pos
  match fork with
  | none => common
  | some (n, v) =>
    match stageAt (l.filter fun g => g.fork = n ∧ g.variant = v) pos with
    | some g => some g
    | none => common

/-- The stage of a plan that runs, `elapsed` ticks after its activation and at a position of its step (R433): of the ramp-up before the
position of its last stage, at which the ramp-up ends as the ramp-down does (DESIGN CHOICE, log entry 147), and else of the step. -/
def planStage (f : PowerProfile) (elapsed pos : Nat) (fork : Option (Nat × Nat)) : Option PowerStage :=
  if elapsed < lastPosition f.up then stageAt f.up elapsed else stepStage f.step pos fork

/-- The stage that a context's last step ended in (R433). -/
def State.stepEndStage (s : State) (f : PowerProfile) (c : Nat) : Option PowerStage :=
  stepStage f.step (s.stepLen 16) (Tab.find? c s.pwr.endForks)

/-- The stage that the profile gives context `c` at the present position (R433): the old point's last one in the beat after
a synchronised switch, of the ramp-down once it has begun, and before its first stage the one that the step ended in (DESIGN CHOICE,
log entry 147), and else of the ramp-up or the step. -/
def State.stageFor (s : State) (c : Nat) : Option PowerStage :=
  match s.profile with
  | none => none
  | some f =>
    match s.pwr.switchStage, s.pln.rampDown with
    | some g, _ => some g
    | none, some t =>
      match stageAt f.down (s.nominalTime - t) with
      | some g => some g
      | none => s.stepEndStage f c
    | none, none => planStage f s.elapsed s.nominal (s.forkHeld c)

/-- Bench power in W of context `c` in a stage: a context stopped by its reset counts as zero (R433), and a restarted one
follows the ramp-up of its own share, from the level a taper had reached (R167, R32). -/
def State.wattsOf (s : State) (c : Nat) (g : PowerStage) : Nat :=
  if c ∈ s.pwr.stoppedPower then 0
  else match Tab.find? c s.pwr.ramps, s.profile with
    | some t, some f =>
      if s.nominalTime - t < lastPosition f.up then
        max (Tab.get 0 c s.pwr.floors) (match stageAt f.up (s.nominalTime - t) with | some u => u.bench.getD c 0 | none => 0)
      else g.bench.getD c 0
    | _, _ => g.bench.getD c 0

/-- Bench power in W of every context under the stage that `stage` gives it. -/
def State.wattsUnder (s : State) (stage : Nat → Option PowerStage) : Nat :=
  ((List.range 16).map fun c => match stage c with | some g => s.wattsOf c g | none => 0).sum

/-- The position that a replay's re-run has reached (R316, R33); none outside a re-run. -/
def State.rerunPos (s : State) : Option Nat :=
  match s.job? 7 with
  | none => none
  | some j =>
    match j.replay with
    | none => none
    | some r =>
      if r.phase = .rerun then
        ((List.range 16).find? fun c => bit c r.mask).map fun c => j.position s.now j.stepStart j.stepHolds c
      else none

/-- The stage in force for context `c`: in a re-run the larger of the level held at the paused position and the profile at the
position being re-run (R33). -/
def State.stageNow (s : State) (c : Nat) : Option PowerStage :=
  match s.rerunPos, s.profile with
  | some pos, some f =>
    let again (c : Nat) : Option PowerStage := planStage f (s.elapsed - s.nominal + pos) pos (s.forkNow c)
    if s.wattsUnder s.stageFor < s.wattsUnder again then again c else s.stageFor c
  | _, _ => s.stageFor c

/-- Context `c`'s bench power in W in the profile in force (R433). -/
def State.ctxWatts (s : State) (c : Nat) : Nat := match s.stageNow c with | some g => s.wattsOf c g | none => 0

/-- The shortfalls in W that no ballast covers any longer: those of the fills that have tapered away (R31). -/
def State.uncovered (s : State) : Nat := ((s.pwr.fill.filter FillRun.tapered).map FillRun.watts).sum

/-- Bench power in effect now, bench work and fill together (R31): a plan that resumes within a taper does not start below
the level the taper had reached (R32). -/
def State.benchPower (s : State) : Nat :=
  let w := s.wattsUnder s.stageNow - s.uncovered
  match s.profile with
  | some f => if s.elapsed < lastPosition f.up then max (Tab.get 0 16 s.pwr.floors) w else w
  | none => 0

/-- Modelled power of everything but bench work (R433); of the lowest context in a fork region where one is, and IDLE_W before the first
stage of a list (DESIGN CHOICE, log entry 147). -/
def State.nonBenchWatts (s : State) : Nat :=
  let c := match (List.range 16).find? fun c => (s.forkHeld c).isSome with | some c => c | none => 16
  match s.stageNow c, s.profile with
  | some g, _ => g.nonBench
  | none, some f => f.idle
  | none, none => 0

/-- The used home benches of context `c` in a bench region, or in all of them (R164, R433). -/
def usedBenches (p : Plan) (c : Nat) (region : Option Nat) : Nat :=
  (p.alloc.zipIdx.filter fun (x : BenchAlloc × Nat) => x.1.used && x.1.home == c &&
    (match region with | some r => x.2 / 32 == r | none => true)).length

/-- The share in W of a bench region in the profile in force (R30, R433; rounded down, log entry 103). -/
def State.regionShare (s : State) (r : Nat) : Nat :=
  match s.pln.active with
  | none => 0
  | some p => ((List.range 16).map fun c => s.ctxWatts c * usedBenches p c (some r) / usedBenches p c none).sum

/-- Show the level of the current stage in PWR_PLAN_LEVEL (R38). -/
def State.showLevel (s : State) : State := s.wr R.PWR_PLAN_LEVEL_W (s.nonBenchWatts + s.benchPower)

/-! ## Taper -/

/-- The smallest taper step that holds a 1,450 W taper of 32 steps within `w` W per ms (R32). -/
def smallestTaperStep (w : Nat) : Nat := ceilDiv (1450 * 118750) (32 * w)

/-- EFF_STEP follows STEP_TICKS and the ramp budget (R32). -/
def State.refreshTaper (s : State) : State :=
  s.wr R.PWR_TAPER_EFF_STEP (max (s.rd R.PWR_TAPER_STEP_TICKS) (smallestTaperStep (s.rd R.PWR_RAMP_BUDGET_W_PER_MS)))

/-- A taper starts from `w` W and lowers ballast duty in 32 equal steps of EFF_STEP ticks (R31). Every occurrence of R31 starts one,
and one that has begun runs to its end (R32), so tapers may run side by side: DEDUCED, log entry 6. -/
def State.startTaper (s : State) (w : Nat) : State :=
  let s := { s with pwr := { s.pwr with tapers := s.pwr.tapers ++ [(⟨32, w, s.now + s.rd R.PWR_TAPER_EFF_STEP⟩ : TaperRun)] } }
  ((s.wr R.PWR_STATUS_TAPER 1).wr R.PWR_EVENT_TAPER_SEEN 1).inc R.PWR_COUNT_TAPER

/-- Ballast power in W of the tapers at their present steps. -/
def State.taperWatts (s : State) : Nat := (s.pwr.tapers.map fun x => x.start * x.left / 32).sum

/-- The present step of a taper has expired; without a Tally the environment says so (log entry 4). -/
def State.taperDue (s : State) (x : TaperRun) : Bool := !s.tal.running || decide (x.at_ ≤ s.now)

/-- Every taper whose step has expired goes on to its next one, and ends after its 32nd (R31, R32). -/
def State.stepTapers (s : State) : State :=
  let next (x : TaperRun) : TaperRun :=
    if s.taperDue x then { x with left := x.left - 1, at_ := x.at_ + s.rd R.PWR_TAPER_EFF_STEP } else x
  { s with pwr := { s.pwr with tapers := (s.pwr.tapers.map next).filter fun x => x.left != 0 } }

/-- Work of context `c`, or of the plan for 16, resumes: its ramp begins from the level that a running taper has reached (R32). -/
def State.rampFloor (s : State) (c : Nat) : State :=
  { s with pwr := { s.pwr with floors := Tab.put 0 c (if s.on R.PWR_STATUS_TAPER then s.taperWatts else 0) s.pwr.floors } }

/-! ## Fill -/

/-- PWR_STATUS.FILL: some bench region is under fill (R30, R38). -/
def State.showFill (s : State) : State := s.wr R.PWR_STATUS_FILL (flag (s.pwr.fill.any fun x => !x.tapered))

/-- The shares of the beat that begins, against which its activity will be compared (R30). -/
def State.noteShares (s : State) : State := { s with pwr := { s.pwr with shares := (List.range 24).map s.regionShare } }

/-- Bench work stops for good, and no region is under fill any longer. -/
def State.endFill (s : State) : State := { s with pwr := { s.pwr with fill := [] } }.showFill

/-- A region's activity of the beat that ends, in W, against its share of the profile in that beat (R30): the ballast makes up a
shortfall from the next beat onward, and its end ends the fill. -/
def State.fillRegion (s : State) (r activity : Nat) : State :=
  let d := s.pwr.shares.getD r 0 - activity
  let rest := s.pwr.fill.filter fun x => x.region != r
  if 24 ≤ r then s
  else if d = 0 then { s with pwr := { s.pwr with fill := rest } }
  else
    let x : FillRun := match s.pwr.fill.find? fun x => x.region == r with
      | some x => { x with watts := d }
      | none => ⟨r, d, s.nominalTime, false⟩
    { s with pwr := { s.pwr with fill := rest ++ [x] } }

/-- A fill that has outlasted PWR_FILL.LIMIT beside the holds and replay spans that covered it (R31, R33). -/
def State.fillOver (s : State) (x : FillRun) : Bool :=
  !x.tapered && decide (x.since + s.rd R.PWR_FILL_LIMIT < s.nominalTime)

/-! ## Input -/

/-- A filtered input sample moves NOW, MIN and MAX (R38). -/
def State.sampleInput (s : State) (mv : Nat) : State :=
  let s := s.wr R.PWR_VIN_NOW mv
  let s := if mv < s.rd R.PWR_VIN_MIN then s.wr R.PWR_VIN_MIN mv else s
  if s.rd R.PWR_VIN_MAX < mv then s.wr R.PWR_VIN_MAX mv else s

/-- The mean input current of a 100 µs window moves NOW, PEAK, SLEW_MAX and PIN (R38). -/
def State.sampleCurrent (s : State) (current : Nat) : State :=
  let old := s.rd R.PWR_IIN_NOW
  let s := s.wr R.PWR_IIN_SLEW_MAX (max (s.rd R.PWR_IIN_SLEW_MAX) (if old ≤ current then current - old else old - current))
  let s := (s.wr R.PWR_IIN_NOW current).wr R.PWR_IIN_PEAK (max (s.rd R.PWR_IIN_PEAK) current)
  s.wr R.PWR_IIN_PIN (s.rd R.PWR_VIN_NOW * current / 10000)

/-- The band of an input voltage entered from Normal (R21). -/
def bandOf (mv : Nat) : Nat :=
  if mv > 60000 then 4 else if mv < 40000 then 3 else if mv < 42000 then 2 else if mv < 44000 then 1 else 0

/-- The band that the last input sample and what is set by it give (R21): PWR_STATUS.BAND of a module that no shutdown holds. -/
def State.inputBand (s : State) : Nat :=
  if s.on R.PWR_STATUS_OV then 4
  else if s.rd R.PWR_VIN_NOW < 40000 then 3
  else if s.pwr.bandInhibit then 2
  else if s.rd R.PWR_VIN_NOW < 44000 then 1 else 0

/-- PWR_STATUS.BAND reads 5 while shutdown runs, and the band otherwise (R38). -/
def State.setBand (s : State) (b : Nat) : State :=
  if s.pwr.shutdown = .tapering ∨ s.pwr.shutdown = .holdUp then s.wr R.PWR_STATUS_BAND 5 else s.wr R.PWR_STATUS_BAND b

/-- The input enters the Low band: a Notice, while the Ring Recorder is powered (R21, R434). -/
def State.enterLow (s : State) (mv : Nat) : State :=
  let s := s.setBand 1
  if s.pwr.forester then s.notice 1 0x80 0 0 mv else s

/-- Write-inhibit is the band's or firmware's (R35); once it clears, a waiting spill starts (R392). -/
def State.refreshInhibit (s : State) : State :=
  let i := s.pwr.bandInhibit || s.on R.PWR_CTRL_NV_INHIBIT
  (s.wr R.PWR_STATUS_NV_INHIBIT (flag i)).resumeSpill

/-- The hold-up store was measured (R36): below 1,200 mJ HOLDUP_OK clears and a Fault is recorded. -/
def State.holdupTested (s : State) (mj : Nat) : State :=
  let s := s.wr R.PWR_HOLDUP_MJ mj
  if mj < 1200 then
    ((s.wr R.PWR_STATUS_HOLDUP_OK 0).wr R.PWR_EVENT_HOLDUP_FAULT 1).fault 1 0x81 0 0 mj
  else (s.wr R.PWR_STATUS_HOLDUP_OK 1).resumeSpill

end Sys2Proof.Machine
end

