-- ==== Sys2Proof/Machine/Crypto.lean ====
section
/-! DEFINITION. The digests and signatures that the manual names by standard: SHA-512, the Merkle tree of R144 and R216,
and the verification of RSASSA-PSS with SHA-512 and a salt of 64 bytes (R153). The manual names the schemes only; their
definitions are those of the public standards (FIPS 180-4, RFC 8017; log entry 15, PRESUMED). -/

namespace Sys2Proof.Crypto

open Sys2Proof Sys2Proof.Machine

/-! ## SHA-512 -/

/-- The eight 64-bit words of a 512-bit numeral, most significant first. -/
def octet (n : Nat) : List Word := (List.range 8).map fun i => BitVec.ofNat 64 (n >>> (448 - 64 * i))

/-- The constants of the 80 rounds, eight to a numeral. -/
def roundTable : List Nat :=
  [0x428a2f98d728ae227137449123ef65cdb5c0fbcfec4d3b2fe9b5dba58189dbbc3956c25bf348b53859f111f1b605d019923f82a4af194f9bab1c5ed5da6d8118,
   0xd807aa98a303024212835b0145706fbe243185be4ee4b28c550c7dc3d5ffb4e272be5d74f27b896f80deb1fe3b1696b19bdc06a725c71235c19bf174cf692694,
   0xe49b69c19ef14ad2efbe4786384f25e30fc19dc68b8cd5b5240ca1cc77ac9c652de92c6f592b02754a7484aa6ea6e4835cb0a9dcbd41fbd476f988da831153b5,
   0x983e5152ee66dfaba831c66d2db43210b00327c898fb213fbf597fc7beef0ee4c6e00bf33da88fc2d5a79147930aa72506ca6351e003826f142929670a0e6e70,
   0x27b70a8546d22ffc2e1b21385c26c9264d2c6dfc5ac42aed53380d139d95b3df650a73548baf63de766a0abb3c77b2a881c2c92e47edaee692722c851482353b,
   0xa2bfe8a14cf10364a81a664bbc423001c24b8b70d0f89791c76c51a30654be30d192e819d6ef5218d69906245565a910f40e35855771202a106aa07032bbd1b8,
   0x19a4c116b8d2d0c81e376c085141ab532748774cdf8eeb9934b0bcb5e19b48a8391c0cb3c5c95a634ed8aa4ae3418acb5b9cca4f7763e373682e6ff3d6b2b8a3,
   0x748f82ee5defb2fc78a5636f43172f6084c87814a1f0ab728cc702081a6439ec90befffa23631e28a4506cebde82bde9bef9a3f7b2c67915c67178f2e372532b,
   0xca273eceea26619cd186b8c721c0c207eada7dd6cde0eb1ef57d4f7fee6ed17806f067aa72176fba0a637dc5a2c898a6113f9804bef90dae1b710b35131c471b,
   0x28db77f523047d8432caab7b40c724933c9ebe0a15c9bebc431d67c49c100d4c4cc5d4becb3e42b6597f299cfc657e2a5fcb6fab3ad6faec6c44198c4a475817]

/-- The hash value before the first block. -/
def startValue : Nat :=
  0x6a09e667f3bcc908bb67ae8584caa73b3c6ef372fe94f82ba54ff53a5f1d36f1510e527fade682d19b05688c2b3e6c1f1f83d9abfb41bd6b5be0cd19137e2179

/-- The sum modulo 2 of the rotations of a word to the right by the amounts of a list, on top of `y`. -/
def spun (amounts : List Nat) (y x : Word) : Word := amounts.foldl (fun z k => z ^^^ x.rotateRight k) y

/-- The word that follows 16 words of the message schedule. -/
def nextWord (w : List Word) : Word :=
  let old := w.getD 1 0
  let late := w.getD 14 0
  w.getD 0 0 + w.getD 9 0 + spun [1, 8] (old >>> 7) old + spun [19, 61] (late >>> 6) late

/-- What a round works on: the last four words of each of the two chains, newest first, and the next 16 words of the schedule. -/
structure Chains where
  front : List Word
  rear : List Word
  ahead : List Word
deriving DecidableEq, Repr

/-- One round: both chains gain a word, and the schedule moves on. -/
def turn (c : Chains) (k : Word) : Chains :=
  let (p, q, r) := (c.front.getD 0 0, c.front.getD 1 0, c.front.getD 2 0)
  let (u, v, x) := (c.rear.getD 0 0, c.rear.getD 1 0, c.rear.getD 2 0)
  let gain := k + c.ahead.getD 0 0 + c.rear.getD 3 0 + spun [14, 18, 41] 0 u + (x ^^^ (u &&& (v ^^^ x)))
  let lead := gain + spun [28, 34, 39] 0 p + ((p &&& q) ||| (r &&& (p ||| q)))
  { front := lead :: c.front.take 3, rear := (gain + c.front.getD 3 0) :: c.rear.take 3
    ahead := c.ahead.drop 1 ++ [nextWord c.ahead] }

/-- A block of 16 words goes into the hash value `h`. -/
def absorb (h block : List Word) : List Word :=
  let c := (roundTable.flatMap octet).foldl turn ⟨h.take 4, h.drop 4, block⟩
  h.zipWith (· + ·) (c.front ++ c.rear)

/-- Cut a list of words or bytes into `n` pieces of `k`. -/
def cut {α : Type} (k : Nat) : Nat → List α → List (List α)
  | 0, _ => []
  | n + 1, l => l.take k :: cut k n (l.drop k)

/-- The padded message: a one bit, zeros, and the length in bits. -/
def pad (m : List Byte) : List Byte :=
  let z := (239 - m.length % 128) % 128
  m ++ 0x80 :: (zeros z ++ beBytes 16 (8 * m.length))

/-- SHA-512 of a byte string: 64 bytes. -/
def sha512 (m : List Byte) : List Byte :=
  let padded := pad m
  let digest := (cut 128 (padded.length / 128) padded).foldl
    (fun h b => absorb h ((cut 8 16 b).map fun x => BitVec.ofNat 64 (beNat x))) (octet startValue)
  digest.flatMap fun x => beBytes 8 x.toNat

/-! ## Merkle trees -/

/-- The leaf of a Merkle tree over tags or shards: SHA-512(0x00 ‖ x) (R144). -/
def leaf (x : List Byte) : List Byte := sha512 (0x00 :: x)

/-- One level up: SHA-512(0x01 ‖ L ‖ R), a last node without a partner unchanged (R144). -/
def levelUp : List (List Byte) → List (List Byte)
  | l :: r :: t => sha512 (0x01 :: (l ++ r)) :: levelUp t
  | l => l

/-- The root over leaves, with fuel for the levels. -/
def climb : Nat → List (List Byte) → List Byte
  | 0, l => l.headD []
  | n + 1, l => if l.length ≤ 1 then l.headD [] else climb n (levelUp l)

/-- The Merkle root over a list of leaves (R144). -/
def merkle (leaves : List (List Byte)) : List Byte := climb leaves.length leaves

/-! ## RSASSA-PSS -/

/-- Modular power by the binary digits of the exponent, with fuel. -/
def powMod (m : Nat) : Nat → Nat → Nat → Nat
  | 0, _, _ => 1 % m
  | n + 1, b, e =>
    if e = 0 then 1 % m
    else
      let r := powMod m n (b * b % m) (e / 2)
      if e % 2 = 1 then r * b % m else r

/-- MGF1 with SHA-512: `n` blocks of mask. -/
def mgf1 (seed : List Byte) (n : Nat) : List Byte :=
  ((List.range n).map fun i => sha512 (seed ++ beBytes 4 i)).flatten

/-- The public exponent of RSA keys. -/
def publicExponent : Nat := 65537

/-- Verification of an RSASSA-PSS signature with SHA-512 and a 64-byte salt under an RSA-4096 modulus. -/
def pssVerify (modulus : Nat) (msg sig : List Byte) : Bool :=
  let s := beNat sig
  if sig.length ≠ 512 ∨ modulus ≤ s then false
  else
    let em := beBytes 512 (powMod modulus 18 s publicExponent)
    let h := slice 447 64 em
    let masked := em.take 447
    let mask := (mgf1 h 7).take 447
    let db := masked.zipWith (· ^^^ ·) mask
    let db := match db with | [] => [] | b :: t => (b &&& 0x7f) :: t
    let salt := db.drop 383
    let padded := db.take 382 == zeros 382 && db.getD 382 0 == 0x01
    let m' := zeros 8 ++ sha512 msg ++ salt
    em.getD 511 0 == 0xbc && (em.getD 0 0).toNat < 128 && padded && sha512 m' == h

end Sys2Proof.Crypto
end

