-- ==== Sys2Proof/Machine/Time.lean ====
section
/-! DEFINITION. The Tally and the module PTP time as counts (02_clocks_and_tally.md R52 to R58;
09_intake_and_streams.md R245): one tick, the offset of a marker, the correction of the Tally. -/

namespace Sys2Proof.Machine

open Sys2Proof

/-- Units of the module PTP time in one ns. -/
def ptpUnit : Nat := 19 * 2 ^ 40

/-- Module PTP seconds. -/
def State.ptpSec (s : State) : Nat := s.ptp.time / (1000000000 * ptpUnit) % 2 ^ 48

/-- Module PTP nanoseconds. -/
def State.ptpNs (s : State) : Nat := s.ptp.time / ptpUnit % 1000000000

/-- The advance of the module PTP time in one tick: 160/19 ns under its trim (R245). -/
def State.ptpAdvance (s : State) : Nat := if s.ptp.running then (160 * (2 ^ 40 + ofField 32 (s.rd R.PTP_RATE_TRIM))).toNat else 0

/-- Note the module PTP time as it ran before a change at the present count; a stamp reaches back at most 128 ticks (R237). -/
def State.keepPtp (s : State) : State :=
  let now : PtpPast := { until_ := s.now, time := s.ptp.time, rate := s.ptpAdvance, holdover := s.on R.PTP_STATUS_HOLDOVER }
  { s with ptp := { s.ptp with past := now :: s.ptp.past.filter fun x => decide (s.now < x.until_ + 256) } }

/-- The module PTP time at an earlier count, its advance per tick and whether it was in holdover then (R237). -/
def State.ptpThen (s : State) (t : Nat) : Nat × Nat × Bool :=
  match (s.ptp.past.filter fun x => decide (t < x.until_)).getLast? with
  | some x => (x.time - (x.until_ - t) * x.rate, x.rate, x.holdover)
  | none => (s.ptp.time - (s.now - t) * s.ptpAdvance, s.ptpAdvance, s.on R.PTP_STATUS_HOLDOVER)

/-- The intake region stands still (R40, R50): its ports neither send nor receive until it restarts (DEDUCED, log entry 133). -/
def State.intakeStill (s : State) : Bool := s.onAt R.CLK_RGN_STATUS_STOPPED 37

/-- Set the Tally count. -/
def State.setNow (s : State) (t : Nat) : State := s.wr R.TAL_NOW_TICKS t

/-- The input energy of one tick at the power last measured (R38): a tick at 0.1 W is 16/(19 × 10⁶) mJ. -/
def State.takeEnergy (s : State) : State :=
  let e := s.pwr.energy + s.rd R.PWR_IIN_PIN
  { s with pwr := { s.pwr with energy := e } }.wr R.PWR_ENERGY_MJ (e * 16 / 19000000)

/-- One TCLK tick: the Tally counts, the module PTP time advances by 160/19 ns under its trim, and the position in the
step counts on, holds included (R52, R314). -/
def State.tick (s : State) : State :=
  if s.tal.running then
    let s := (s.setNow (s.now + 1)).takeEnergy
    let s := if s.ptp.running then { s with ptp := { s.ptp with time := s.ptp.time + s.ptpAdvance } } else s
    let s := if s.planActive then s.wr R.TAL_STEP_POS_POS (s.rd R.TAL_STEP_POS_POS + 1) else s
    s.pln.ctxs.foldl (fun s (e : Nat × CtxRun) => s.wrAt R.PLN_CTX_STEP_POS e.1 (s.rdAt R.PLN_CTX_STEP_POS e.1 + 1)) s
  else s

/-- The estimated offset of a marker, in 2⁻³² tick: the partner's Tally at departure plus half the loop delay, less
the own Tally at arrival (R53, R54). -/
def State.markerOffset (s : State) (p : Nat) (tDep arrival : Stamp) : Int :=
  (tDep : Int) + (s.rdAt R.HAUL_LOOP_DELAY_LOOP p * 2 ^ 15 : Nat) - (arrival : Int)

/-- An offset in 2⁻³² tick rounded to the nearest tick; which way an exact half goes is open (R54). -/
def State.roundTicks (s : State) (off : Int) : Int :=
  let fl := off / 2 ^ 32
  let rem := off % 2 ^ 32
  if rem < 2 ^ 31 then fl else if 2 ^ 31 < rem then fl + 1 else if Config.tieUp s.fresh then fl + 1 else fl

/-- A PTP clock's counts move with a step of the Tally. -/
def PtpPort.move (step : Nat → Nat) (c : PtpPort) : PtpPort :=
  { c with announced := (step c.announced.1, c.announced.2), sentAt := c.sentAt.map step
           masters := c.masters.map fun (f : Foreign) => { f with last := step f.last, before := f.before.map step } }

/-- A port's counts move with a step of the Tally. -/
def HaulPort.move (step : Nat → Nat) (h : HaulPort) : HaulPort :=
  let t := h.timers
  { h with lost := h.lost.map fun (e : Nat × Nat) => (e.1, step e.2), lostAt := step h.lostAt
           nakActed := h.nakActed.map fun x => (x.1, step x.2), done := h.done.map fun x => (x.1, step x.2.1, step x.2.2)
           timers := { t with state := step t.state, advance := step t.advance, replay := step t.replay, ack := step t.ack
                              nak := step t.nak, swap := step t.swap, swapReq := step t.swapReq, rot := step t.rot
                              calib := step t.calib, echo := step t.echo
                              retest := t.retest.map fun (e : Nat × Nat) => (e.1, step e.2) } }

/-- Counts that measure time from a past count of the Tally move with its step: the last trim, the last marker, the taper step, the
times of the haul ports, the changes of the PTP time and the times of each PTP clock. -/
def State.moveCounts (s : State) (step : Int) : State :=
  let move (t : Nat) : Nat := ((t : Int) + step).toNat
  { s with tal := { s.tal with trimAt := move s.tal.trimAt, lastMarker := move s.tal.lastMarker }
           pwr := { s.pwr with tapers := s.pwr.tapers.map fun (x : TaperRun) => { x with at_ := move x.at_ } }
           haul := s.haul.map (HaulPort.move move)
           ptp := { s.ptp with past := s.ptp.past.map fun (x : PtpPast) => { x with until_ := move x.until_ } }
           clocks := s.clocks.map (PtpPort.move move) }

/-- Alignment: one step correction of the Tally, the remainder in TAL_FRAC, and the log (R54). A negative remainder is stored
modulo 2³², and the count stays the rounded one (log entry 105). -/
def State.align (s : State) (off : Int) : State :=
  let step := s.roundTicks off
  let s := s.drawn.moveCounts step
  let s := s.setNow ((s.now : Int) + step).toNat
  let s := s.wr R.TAL_FRAC_PHASE (toField 32 (off - step * 2 ^ 32))
  let s := (s.wr R.TAL_ALIGN_LOG_STEP (toField 64 step)).wr R.TAL_ALIGN_AT_AT s.now
  let s := (s.wr R.TAL_STATUS_ALIGNED 1).wr R.TAL_STATUS_DIVERGED 0
  { s with tal := { s.tal with alignNow := false } }

/-- A trim of `ppm` in units of 2⁻⁴⁰. -/
def trimOf (ppm : Nat) : Nat := ppm * 2 ^ 40 / 1000000

/-- The Tally's own correction by rate: what the servo asks for, within SLEW_PPM per ms of the last trim and within
±100 ppm (R54). -/
def State.correctRate (s : State) (off : Int) : State :=
  let last := ofField 32 (s.rd R.TAL_RATE_TRIM)
  let slew : Int := (s.rd R.TAL_CTRL_SLEW_PPM * (s.now - s.tal.trimAt) * 2 ^ 40 / (1000000 * 118750) : Nat)
  let want := Config.tallyServo s.fresh off last
  let lim : Int := trimOf 100
  let t := max (-lim) (min lim (max (last - slew) (min (last + slew) want)))
  let s := { s.drawn with tal := { s.tal with trimAt := s.now } }
  s.wr R.TAL_RATE_TRIM (toField 32 t)

/-- The Contained error "Tally not aligned or diverged": DIVERGED is set and the last rate stays (R57). -/
def State.diverge (s : State) : State :=
  (s.wr R.TAL_STATUS_DIVERGED 1).contained 3 0x21 1 0 (s.rd R.TAL_STATUS_UPSTREAM) 0

/-- A valid marker on the upstream port of a follower (R54, R56, R57). TAL_OFFSET takes the offset rounded down to 1/256 tick,
modulo 2³² where it does not fit (log entry 105). -/
def State.takeMarker (s : State) (off : Int) : State :=
  let s := s.wr R.TAL_OFFSET_OFFSET (toField 32 (off / 2 ^ 24))
  let held := s.on R.TAL_STATUS_HOLDOVER
  let s := s.wr R.TAL_STATUS_HOLDOVER 0
  let mustAlign := !s.on R.TAL_STATUS_ALIGNED || s.on R.TAL_STATUS_DIVERGED || s.tal.alignNow
  if mustAlign ∧ !s.planActive then s.align off
  else if !s.on R.TAL_STATUS_ALIGNED then s.diverge
  else if s.on R.TAL_STATUS_DIVERGED then s
  else if held ∧ s.planActive ∧ (2048 * 2 ^ 32 < off ∨ off < -(2048 * 2 ^ 32)) then s.diverge
  else s.correctRate off

/-- The Tally root follows PTP and is locked, as this module knows it: the root's own state, or what its marker passed on (R58, R285). -/
def State.rootPtpLocked (s : State) : Bool := if s.rd R.TAL_STATUS_ROLE = 1 then s.on R.TAL_STATUS_PTP_LOCKED else s.tal.rootPtp

/-- The flags of a TIME packet (R58). -/
def State.timeFlags (s : State) : Nat :=
  flag s.rootPtpLocked + 2 * flag (s.on R.TAL_STATUS_HOLDOVER) + 4 * flag (s.on R.TAL_STATUS_DIVERGED)
    + 8 * flag (s.on R.PTP_STATUS_HOLDOVER)

/-- The module number of the Tally root as this module knows it (R58, R285). -/
def State.tallyRoot (s : State) : Nat := if s.rd R.TAL_STATUS_ROLE = 1 then s.number else s.tal.root

/-- A TIME packet with a capture taken now (R58). -/
def State.timePkt (s : State) (op token : Nat) : TimePkt :=
  { op := op, flags := s.timeFlags, root := s.tallyRoot, sender := s.number, token := token, rate := s.rd R.TAL_RATE_TRIM
    tally := s.now, ptpS := s.ptpSec, ptpNs := s.ptpNs }

end Sys2Proof.Machine
end

