-- ==== Sys2Proof/Machine/Topo.lean ====
section
/-! DEFINITION. Discovery packets (12_topology.md R338 to R340): their bytes, how this module sends and answers them, and
its REPORT. -/

namespace Sys2Proof

open Sys2Proof.Machine

/-- The first 32 numbers of a list as bytes, filled with zeros. -/
def bytes32 (l : List Nat) : List Byte := ((l ++ List.replicate 32 0).take 32).map (BitVec.ofNat 8)

/-- The payload of a DISCOVERY packet (R338). -/
def DiscPkt.encode (d : DiscPkt) : List Byte :=
  beBytes 1 d.op ++ beBytes 1 d.len ++ beBytes 1 d.pos ++ zeros 1 ++ beBytes 4 d.token ++ beBytes 4 d.epoch ++ zeros 4
    ++ bytes32 d.path ++ bytes32 d.ret ++ d.body

/-- The fields of an ASSIGN body hold none of the reserved values (R328, R339, R14): MODULE is a module number, with bits [15:12] zero. -/
def assignBodyOk (l : List Byte) : Bool :=
  beAt 0 2 l < 4096 && beAt 3 1 l == 0 && bits 3 2 (beAt 2 1 l) == 0 && bits 1 0 (beAt 2 1 l) != 3

/-- No reserved number (R328): a module number, a Yard number, or 0xFFFF. -/
def numberOk (n : Nat) : Bool := n < 4096 || (0x8000 ≤ n && n < 0x8400) || n == 0xFFFF

/-- The reserved bytes of a DISCOVERY body are zero, its MODULE is no reserved number, and an ASSIGN names a role of TAL_CTRL.ROLE (R328,
R339). -/
def discBodyOk (op : Nat) (l : List Byte) : Bool :=
  if op = 2 then numberOk (beAt 8 2 l)
  else if op = 3 then assignBodyOk l
  else if op = 4 then beAt 3 1 l == 0 && beAt 2 1 l ≤ 3 && numberOk (beAt 0 2 l)
  else if op = 6 then beAt 3 1 l == 0 && numberOk (beAt 0 2 l)
  else true

/-- The DISCOVERY packet that a payload spells; reserved fields give none (R338, R14; log entry 111). -/
def DiscPkt.decode (l : List Byte) : Option DiscPkt :=
  let op := beAt 0 1 l
  let len := beAt 1 1 l
  let pos := beAt 2 1 l
  if 80 ≤ l.length ∧ 1 ≤ op ∧ op ≤ 6 ∧ len ≤ 32 ∧ pos ≤ len ∧ (op = 6 → len = 0) ∧ beAt 3 1 l = 0 ∧ beAt 12 4 l = 0
      ∧ discBodyOk op (l.drop 80) then
    some { op := op, len := len, pos := pos, token := beAt 4 4 l, epoch := beAt 8 4 l
           path := (slice 16 32 l).map (·.toNat), ret := (slice 48 32 l).map (·.toNat), body := l.drop 80 }
  else none

/-- The modules of a job: its participants (R370). -/
def Plan.count (p : Plan) : Nat := p.modules.length

/-- Bytes 0 to 7 of the PLAN_ID. -/
def Plan.id8 (p : Plan) : Nat := p.id % 2 ^ 64

/-- A CONTROL packet names one of the changes (R370); one of a reserved KIND is discarded and counted at its port (R14). -/
def ControlPkt.kindOk (pkt : ControlPkt) : Bool := 1 ≤ pkt.kind && pkt.kind ≤ 10

/-- The payload of a CONTROL packet (R375). -/
def ControlPkt.encode (c : ControlPkt) : List Byte :=
  beBytes 1 c.op ++ beBytes 1 c.kind ++ beBytes 2 c.module ++ beBytes 4 c.id ++ leBytes 8 c.plan ++ beBytes 8 c.at_
    ++ beBytes 8 c.point ++ beBytes 1 c.reason ++ zeros 7

end Sys2Proof

namespace Sys2Proof.Machine

open Sys2Proof

/-- A plan or a forwarding load is active on this module (R339, R341). -/
def State.fwdActive (s : State) : Bool :=
  (List.range 7).any fun k => s.rdAt R.TOP_FWD_STATUS_STATE k == 3 || s.rdAt R.TOP_FWD_STATUS_STATE k == 4

/-- The ports that are Up. -/
def State.upPorts (s : State) : List Nat := (List.range 16).filter fun p => s.portUp p

/-- The serial number of the module, fixed in fuses. -/
def State.serial (s : State) : Nat := s.nv.serial

/-- One port record of a REPORT (R339). -/
def State.portRecord (s : State) (p : Nat) : List Byte :=
  beBytes 1 (s.rdAt R.HAUL_PORT_STATUS_STATE p) ++ beBytes 1 (s.rdAt R.HAUL_PARTNER_TYPE p)
    ++ beBytes 1 (s.rdAt R.HAUL_PARTNER_PORT p) ++ beBytes 1 (s.rdAt R.HAUL_PORT_STATUS_SPARE_OK p)
    ++ beBytes 2 (s.rdAt R.TOP_PORT_PARTNER p) ++ beBytes 2 (ceilDiv (s.rdAt R.HAUL_LOOP_DELAY_LOOP p) 65536)
    ++ beBytes 8 (s.rdAt R.HAUL_PARTNER_SERIAL_SERIAL p)

/-- The body of a REPORT (R339). -/
def State.reportBody (s : State) : List Byte :=
  beBytes 8 s.serial ++ beBytes 2 s.number ++ beBytes 1 (s.rd R.TOP_DISC_STATE)
    ++ beBytes 1 (flag s.planActive + 2 * flag (!s.top.loads.isEmpty)) ++ beBytes 4 (s.rd R.TOP_DISC_EPOCH)
    ++ ((List.range 16).map fun p => s.portRecord p).flatten

/-- A DISCOVERY packet for this module goes to its TOP block (R321, R338); a REPORT or ASSIGN_ACK with the TOKEN of a DISC_SEND is
that request's answer (R377). -/
def State.discHere (s : State) (pkt : SvcPkt) (d : DiscPkt) : State :=
  let s := s.emit (.deliver pkt)
  let waits (a : Awaited) : Bool := a.module == none && a.key == d.token && (d.op == 2 || d.op == 4)
  match s.fst.awaited.find? waits with
  | none => s
  | some a =>
    let s : State := { s with fst := { s.fst with awaited := s.fst.awaited.erase a } }
    s.answerAll a.session a.op a.reqId 0 [d.op, d.token, d.epoch] d.body

/-- The in port that this module records for a packet of its own Forester, and the way to that Forester at the end of an answer: the first
number that is no port (DEDUCED, log entry 13). -/
def foresterPort : Nat := 16

/-- Send a DISCOVERY packet from this module along `path` (R338): its first hop leaves on the path's first port, and a
packet whose next port is not Up is discarded and counted; an empty path ends at the local Forester. -/
def State.sendDisc (s : State) (op token epoch : Nat) (path : List Nat) (body : List Byte) : State :=
  let d : DiscPkt := ⟨op, path.length, min 1 path.length, token, epoch, path, [foresterPort], body⟩
  match path with
  | [] => s.discHere (s.newPkt 6 s.number false d.encode) d
  | p :: _ => if s.portUp p then s.sendPartner p 6 false d.encode else s.inc R.TOP_COUNT_DISC_DROP

/-- Send an answer (R338): its PATH is the RETURN of the packet it answers in reverse order, and it leaves on the port that packet came in
on (DEDUCED, log entry 13). With no hops it is for the local Forester. -/
def State.sendAnswer (s : State) (op token epoch : Nat) (back : Nat × List Nat) (body : List Byte) : State :=
  let d : DiscPkt := ⟨op, back.2.length, 0, token, epoch, back.2, [], body⟩
  if back.2 = [] then s.discHere (s.newPkt 6 s.number false d.encode) d
  else if s.portUp back.1 then s.sendPartner back.1 6 false d.encode
  else s.inc R.TOP_COUNT_DISC_DROP

/-- An unsolicited REPORT along the manager path, from a module in state Ready (R340). -/
def State.unsolicitedReport (s : State) : State :=
  if s.rd R.TOP_DISC_STATE = 2 then
    s.sendAnswer 2 0 (s.rd R.TOP_DISC_EPOCH) (s.top.mgrPort, s.top.mgrRet.reverse) s.reportBody
  else s

/-- NEIGHBOUR on one port (R339, R340). -/
def State.sendNeighbour (s : State) (p : Nat) : State :=
  let d : DiscPkt := ⟨6, 0, 0, 0, s.rd R.TOP_DISC_EPOCH, [], [],
    beBytes 2 s.number ++ beBytes 1 p ++ zeros 1 ++ beBytes 8 s.serial⟩
  s.sendPartner p 6 false d.encode

/-- A twin port follows its link (R349, R359). -/
def State.showTwinPort (s : State) (p : Nat) (up : Bool) : State :=
  if s.rdAt R.TOP_PORT_USE p = 4 then
    let m := s.rd R.TWN_STATUS_PORTS
    if up then s.wr R.TWN_STATUS_PORTS (m ||| 2 ^ p)
    else (s.wr R.TWN_STATUS_PORTS (if bit p m then m - 2 ^ p else m)).wr R.TWN_EVENT_PORT_DOWN 1
  else s

/-- What the module does when a port comes Up (R340): NEIGHBOUR once it has a number, and in state Ready the event and
an unsolicited REPORT. -/
def State.portCameUp (s : State) (p : Nat) : State :=
  let s := s.showTwinPort p true
  let s := if s.on R.TOP_MODULE_ASSIGNED then s.sendNeighbour p else s
  if s.rd R.TOP_DISC_STATE = 2 then (s.wr R.TOP_EVENT_NEW_LINK 1).unsolicitedReport else s

end Sys2Proof.Machine
end

