-- ==== Sys2Proof/Machine/TwinLink.lean ====
section
/-! DEFINITION. The twin ports as links of a twin pair (13_twin_pairs.md R351, R360): items cut into blocks, striped over the
ports, and sent again when a port goes down. -/

namespace Sys2Proof.Machine

open Sys2Proof

/-- The bytes of an item in pieces of 236, with fuel for 65,536 blocks; an empty item is one empty piece (R351, R354). -/
def cut236 : Nat → List Byte → List (List Byte)
  | 0, _ => []
  | n + 1, l => if l.length ≤ 236 then [l] else l.take 236 :: cut236 n (l.drop 236)

/-- The Up twin ports, ascending. -/
def State.twinPorts (s : State) : List Nat := s.upPorts.filter fun p => s.rdAt R.TOP_PORT_USE p == 4

/-- The twin header (R351). -/
def twinHeader (kind ctx index window : Nat) : List Byte :=
  beBytes 1 kind ++ beBytes 1 ctx ++ beBytes 2 index ++ beBytes 4 (window % 2 ^ 32)

/-- The block of a twin port belongs to an item. -/
def ofItem (x : ShippedItem) (data : List Byte) : Bool :=
  beAt 0 1 data == x.kind && beAt 1 1 data == x.ctx && beAt 4 4 data == x.window % 2 ^ 32

/-- Data of the scheduled blocks of port `p` that its partner has not acknowledged, or that wait to depart. -/
def State.unsent (s : State) (p : Nat) : List (List Byte) :=
  ((s.port p).buffer.filter fun b => b.type == 1).map LinkBlock.data ++ (s.port p).waitSched

/-- Send an item over the Up twin ports in ascending order, block by block (R351). -/
def State.stripe (s : State) (x : ShippedItem) : State :=
  match s.twinPorts with
  | [] => s
  | ports =>
    (cut236 65536 x.payload).zipIdx.foldl (fun s d =>
      let p := ports.getD (d.2 % ports.length) 0
      s.sendSched p ((s.port p).waitSched ++ [twinHeader x.kind x.ctx d.2 x.window ++ d.1])) s

/-- Ship an item; it is kept while a block of it may still be lost with its port (R351, R360). -/
def State.shipItem (s : State) (kind ctx window : Nat) (payload : List Byte) : State :=
  let x : ShippedItem := ⟨kind, ctx, window, payload⟩
  let flying (y : ShippedItem) : Bool := s.twinPorts.any fun p => (s.unsent p).any (ofItem y)
  let keep := s.twn.shipped.filter flying
  { s with twn := { s.twn with shipped := keep ++ [x] } }.stripe x

/-- A twin port has gone down with these blocks: each item that lost one is sent whole on the remaining ports (R360). -/
def State.reship (s : State) (lost : List (List Byte)) : State :=
  (s.twn.shipped.filter fun x => lost.any (ofItem x)).foldl State.stripe s

end Sys2Proof.Machine
end

