-- ==== Sys2Proof/Machine/Detour.lean ====
section
/-! DEFINITION. Detours and broken routes (11_scheduled_fabric.md R302, R309, R310), and what a link that goes down does
to the fabric (10_haul_links.md R291). -/

namespace Sys2Proof.Machine

open Sys2Proof

/-- The schedule entry under a key 32,768 × port + entry. -/
def Job.entry? (j : Job) (key : Nat) : Option SchedEntry := (List.find? (fun e => e.1 == key) j.sched.entries).map Prod.snd

/-- The reception and sending states of the entries. -/
def State.sendState (s : State) (key : Nat) : SendState :=
  match Tab.find? key s.sch.sends with
  | some x => x
  | none => { payload := none, void := none, decision := none, late := false, crossed := false, sent := false, path := 0
              resend := false, noPath := false }

/-- Set the state of a SEND entry. -/
def State.setSend (s : State) (key : Nat) (x : SendState) : State :=
  { s with sch := { s.sch with sends := Tab.ins key x s.sch.sends } }

/-- The first port, the key and the route of path 0, 1 or 2 of a SEND entry (R299, R301). -/
def Job.path? (j : Job) (key : Nat) (e : SchedEntry) (path : Nat) : Option (Nat × Nat × Nat) :=
  let via (d : Option (Nat × Nat)) : Option (Nat × Nat × Nat) := match d with
    | none => none
    | some (p, n) => (j.entry? (32768 * p + n)).map fun x => (p, 32768 * p + n, x.route)
  match path with
  | 0 => some (key / 32768, key, e.route)
  | 1 => via e.d1
  | _ => via e.d2

/-- A path is broken when its first port is detoured or a ROUTE_DOWN notice named its route (R310). -/
def State.pathBroken (s : State) (x : Nat × Nat × Nat) : Bool :=
  s.onAt R.SCH_PORT_DETOURED x.1 || s.sch.broken.contains x.2.2

/-- The first path of a SEND entry whose route is not broken (R310). -/
def State.openPath (s : State) (j : Job) (key : Nat) (e : SchedEntry) : Option Nat :=
  [0, 1, 2].find? fun k => match j.path? key e k with
    | none => false
    | some x => !s.pathBroken x

/-- An entry with no unbroken path is not sent and counts as NO_PATH (R310). -/
def State.noPath (s : State) : State := (s.inc R.SCH_DETOUR_NO_PATH).wr R.SCH_EVENT_NO_PATH 1

/-- Add to the telemetry of a port in the present period (R324). -/
def State.onTelem (s : State) (p : Nat) (f : PortTelem → PortTelem) : State :=
  let zero : PortTelem :=
    { maxDepth := [0, 0], throttled := [0, 0], depthHist := [List.replicate 8 0, List.replicate 8 0], misses := 0
      completed := 0, minSlack := 2 ^ 31 - 1, detoured := 0, holds := 0, slackHist := List.replicate 8 0 }
  let t := match Tab.find? p s.sch.telem with | some t => t | none => zero
  { s with sch := { s.sch with telem := Tab.ins p (f t) s.sch.telem } }

/-- Resend a SEND entry whose path in use has broken: whole, on its first unbroken path, in block times left free
(R310). One left without a path counts once. -/
def State.resendEntry (s : State) (j : Job) (key : Nat) (e : SchedEntry) : State :=
  let x := s.sendState key
  let brokenNow : Bool := match j.path? key e x.path with | none => true | some y => s.pathBroken y
  if e.type = .send ∧ x.sent ∧ !x.noPath ∧ brokenNow then
    match s.openPath j key e with
    | none => (s.setSend key { x with resend := false, noPath := true }).noPath
    | some k =>
      ((s.setSend key { x with path := k, resend := true }).inc R.SCH_DETOUR_RESENT).onTelem (key / 32768)
        fun t => { t with detoured := min (t.detoured + 1) 65535 }
  else s

/-- Resend every entry of the active plan that began departing in the current step on a path now broken. -/
def State.resendBroken (s : State) : State :=
  match s.job? 7 with
  | none => s
  | some j => j.sched.entries.foldl (fun s e => s.resendEntry j e.1 e.2) s

/-- Send ROUTE_DOWN for each route of a job that this module forwards on a port (R310). -/
def State.routesDown (s : State) (j : Job) (p cause lossAt : Nat) : List RouteEntry → State
  | [] => s
  | r :: t =>
    let s := if !r.deliver && r.port == p then
        let n : RouteDown := { plan := j.plan, lossAt := lossAt, step := j.step, route := r.route, port := p, cause := cause }
        (s.inc R.SCH_DETOUR_DOWN_TX).sendService 3 r.source true n.encode
      else s
    s.routesDown j p cause lossAt t

/-- Blocks held for forwarding on a port are discarded and counted as NO_PATH (R310). -/
def State.dropForwards (s : State) (p : Nat) : State :=
  let onPort (b : HeldBlock) : Bool := match s.job? b.slot with
    | none => false
    | some j => j.sched.routes.any fun r => r.route == b.data.route && !r.deliver && r.port == p
  let gone := s.sch.held.filter onPort
  let s := { s with sch := { s.sch with held := s.sch.held.filter fun b => !onPort b } }
  if gone = [] then s else (s.addAt R.SCH_DETOUR_NO_PATH 0 gone.length).wr R.SCH_EVENT_NO_PATH 1

/-- A port is detoured for the active plan and every forwarding load (R309, R310). -/
def State.detourPort (s : State) (p cause lossAt : Nat) : State :=
  if s.onAt R.SCH_PORT_DETOURED p ∨ s.sch.jobs = [] then s
  else
    let s := ((s.wrAt R.SCH_PORT_DETOURED p 1).wrAt R.SCH_PORT_DETOUR_CAUSE p cause).wr R.SCH_EVENT_DETOUR 1
    let s := s.wr R.SCH_STATUS_DETOURED (s.rd R.SCH_STATUS_DETOURED ||| 2 ^ p)
    let s := s.dropForwards p
    let s := s.sch.jobs.foldl (fun s e => s.routesDown e.2 p cause lossAt e.2.sched.routes) s
    s.resendBroken

/-- A port returns to service (R309). -/
def State.restorePort (s : State) (p : Nat) : State :=
  let m := s.rd R.SCH_STATUS_DETOURED
  let s := (s.wrAt R.SCH_PORT_DETOURED p 0).wrAt R.SCH_PORT_DETOUR_CAUSE p 0
  s.wr R.SCH_STATUS_DETOURED (if bit p m then m - 2 ^ p else m)

/-- A link that is Up goes down (R290, R291): the port's own part, the twin ports, the fabric's detours, and an
unsolicited REPORT (R340). -/
def State.linkDown (s : State) (p cause : Nat) : State :=
  if s.portUp p then
    let lossAt := if s.onAt R.HAUL_PORT_STATUS_LOCK_LOST p then (s.port p).lostAt else s.now
    let lost := if s.rdAt R.TOP_PORT_USE p = 4 then s.unsent p else []
    ((((s.portDown p cause).showTwinPort p false).reship lost).detourPort p 1 lossAt).unsolicitedReport
  else s

end Sys2Proof.Machine
end

