-- ==== Sys2Proof/Machine/TwoPhase.lean ====
section
/-! DEFINITION. Two-phase changes (14_forester_and_control.md R370 to R375): the arming of a change in a job, epoch
splits, and what withdrawing or undoing a change of each KIND does. -/

namespace Sys2Proof.Machine

open Sys2Proof

/-! ## The changes shown -/

/-- Show entry `i` of the recent changes (R380). -/
def State.showChange (s : State) (i : Nat) (c : Change) : State :=
  let s := ((s.wrAt R.OLC_CHANGE_ID i c.id).wrAt R.OLC_CHANGE_KIND i c.kind).wrAt R.OLC_CHANGE_STATE i c.state
  ((s.wrAt R.OLC_CHANGE_REASON i c.reason).wrAt R.OLC_CHANGE_VOTES i c.votes).wrAt R.OLC_CHANGE_AT i c.at_

/-- Set the recent changes: the eight newest show in OLC_CHANGE, and older ones are kept while they are armed. -/
def State.setChanges (s : State) (l : List Change) : State :=
  let l := l.take 8 ++ (l.drop 8).filter fun c => c.state == 1
  let s := { s with olc := { s.olc with changes := l } }
  (l.take 8).zipIdx.foldl (fun s e => s.showChange e.2 e.1) s

/-- Change every recorded change that `p` selects. -/
def State.onChanges (s : State) (p : Change → Bool) (f : Change → Change) : State :=
  s.setChanges (s.olc.changes.map fun c => if p c then f c else c)

/-- The change of a CHANGE_ID recorded here. -/
def State.change? (s : State) (id : Nat) : Option Change := s.olc.changes.find? fun c => c.id == id

/-! ## Withdrawing a change -/

/-- Disarm a change before its effect: the owning block shows its refused or split state (R373). -/
def State.withdraw (s : State) (kind ctx : Nat) : State :=
  match kind with
  | 1 => ({ s.unload with pln := { s.unload.pln with armed := false } }.wr R.PLN_EVENT_REFUSED 1).showAct
  | 2 => ({ s with pln := { s.pln with stopArmed := false } }.wr R.PLN_EVENT_REFUSED 1).showAct
  | 3 => { s with pln := { s.pln with restarts := Tab.del ctx s.pln.restarts } }.wr R.PLN_EVENT_REFUSED 1
  | 4 => s.wr R.GEN_MODE_NEXT_STATE 3
  | 5 => (s.wr R.CLK_FCHG_CTRL_STATE 3).wr R.CLK_EVENT_FCHG_REFUSED 1
  | 6 => (s.wrAt R.WGT_CTX_SWAP_ARMED ctx 0).wr R.WGT_EVENT_SWAP_REFUSED 1
  | 7 => { s with olc := { s.olc with extArmed := Tab.del ctx s.olc.extArmed } }
  | 8 => { s with sch := { s.sch with restoreAt := none } }
  | 9 => s.wrAt R.TOP_FWD_STATUS_STATE ctx 1
  | 10 => s.wrAt R.TOP_FWD_STATUS_STATE ctx 3
  | _ => s

/-- The operating point of every bench region. -/
def State.setPoints (s : State) (v : Nat) : Nat → State
  | 0 => s
  | n + 1 => (s.setPoints v n).wrAt R.CLK_RGN_STATUS_OP_POINT n v

/-- The 64 bytes of the root of a bank. -/
def rootOfBound (b : Option Bound) : List Byte := match b with | some x => x.root | none => []

/-- A swap is undone (R374): the old bank is the active one again, with what it was bound to, its sweeps and its quarantine, and the
landing is Ready. -/
def State.undoSwap (s : State) (c : Nat) : State :=
  match Tab.find? c s.wgt.before with
  | none => s
  | some x =>
    let w := s.wctx c
    let q := match x.quarantine with | some n => Tab.ins c n s.wgt.quarantine | none => Tab.del c s.wgt.quarantine
    let s := { s with wgt := { s.wgt with quarantine := q, before := Tab.del c s.wgt.before, since := Tab.put 0 c w.oldSince s.wgt.since } }
    let s := ((s.setWctx c x.weights).wrAt R.WGT_CTX_BANK c (1 - s.rdAt R.WGT_CTX_BANK c)).wrAt R.WGT_EPOCH_EPOCH c (s.rdAt R.WGT_EPOCH_EPOCH c - 1)
    let s := ((s.wrAt R.WGT_CTX_STATE c x.state).wrAt R.WGT_CTX_LANDING c 3).wrAt R.WGT_CTX_CLOSING c 0
    (s.setRoot R.WGT_ROOT_ACTIVE_ROOT c (rootOfBound x.weights.active)).setRoot R.WGT_ROOT_LANDING_ROOT c (rootOfBound x.weights.landing)

/-- In STRICT mode every stack refreshes at the fixed interval (R134, R203). -/
def State.fixedRefresh (s : State) : State :=
  if s.on R.GEN_MODE_STRICT then ((List.range 20).foldl (fun s u => s.wrAt R.HBM_STACK_REFI_X u 0) s).wr R.HBM_CFG_ADAPT 0 else s

/-- Undo a change after its effect (R374): `old` is what stood before. -/
def State.undo (s : State) (kind ctx old : Nat) : State :=
  match kind with
  | 2 => ({ s with pln := { s.pln with draining := false, stopArmed := false
                                       ctxs := s.pln.ctxs.map fun (e : Nat × CtxRun) => (e.1, { e.2 with drain := none }) } }).showAct
  | 3 => match s.ctx? ctx with
    | some r => (s.setCtx ctx { r with running := false }).wrAt R.PLN_CTX_CFG_RUNNING ctx 0
    | none => s
  | 4 => (s.wr R.GEN_MODE_STRICT old).fixedRefresh
  | 5 => s.setPoints old 24
  | 6 => s.undoSwap ctx
  | 7 => match s.ctx? ctx with
    | some r => (s.setCtx ctx { r with extended := false }).wrAt R.PLN_CTX_CFG_EXTENDED ctx 0
    | none => s
  | 8 => (maskList old).foldl (fun s p => s.detourPort p 1 s.now) s
  | 9 => { s with sch := { s.sch with jobs := Tab.del ctx s.sch.jobs } }.wrAt R.TOP_FWD_STATUS_STATE ctx 1
  | 10 => match Tab.find? ctx s.top.unloaded with
    | some l =>
      let jobs := match l.job with | some j => Tab.ins ctx j s.sch.jobs | none => s.sch.jobs
      let s := { s with top := { s.top with loads := Tab.ins ctx l s.top.loads, unloaded := Tab.del ctx s.top.unloaded }
                        sch := { s.sch with jobs := jobs } }
      (s.wrAt R.TOP_FWD_STATUS_STATE ctx 3).wrAt R.TOP_FWD_STATUS_PLAN ctx (l.plan.id8 % 2 ^ 32)
    | none => s
  | _ => s

/-- At the abandon point of the job in slot `k` every change of it split after its effect is undone (R374): for the active plan KINDs 2
to 8, for a forwarding load its own. -/
def State.undoSplit (s : State) (k : Nat) : State :=
  let due (c : Change) : Bool := c.state == 5 && !c.undone &&
    (if c.kind = 9 ∨ c.kind = 10 then c.ctx == k else k == 7 && c.kind != 1)
  let s := (s.olc.changes.filter due).foldl (fun s c => s.undo c.kind c.ctx c.old) s
  s.onChanges due fun c => { c with undone := true }

/-! ## Splits -/

/-- The CONTROL packet of a change (R375). -/
def State.controlPkt (s : State) (op : Nat) (c : Change) : ControlPkt :=
  { op := op, kind := c.kind, module := s.number, id := c.id, plan := c.plan, at_ := c.at_, point := c.point
    reason := c.reason }

/-- The slot of the job with a PLAN_ID, the active plan's first. -/
def State.slotOf (s : State) (plan : Nat) : Option Nat :=
  match s.job? 7 with
  | some j => if j.plan = plan then some 7 else (List.find? (fun e => e.2.plan == plan) s.sch.jobs).map Prod.fst
  | none => (List.find? (fun e => e.2.plan == plan) s.sch.jobs).map Prod.fst

/-- A split of the change has been latched on this module. -/
def Change.isSplit (c : Change) : Bool := c.state == 4 || c.state == 5 || (c.state == 3 && c.point != 0)

/-- The job of a plan takes one quantum at P of a split (R373): an earlier P stands in place of one latched before, and at a P that has
passed the hold is missed (R312). -/
def State.splitHold (s : State) (k p : Nat) (before : Option Nat) : State :=
  match s.job? k with
  | none => s
  | some j =>
    let s := match before with
      | some q => s.setJob k { j with points := j.points.filter fun h => !(h.point == q && h.cause == 0) }
      | none => s
    if p ≤ s.now then s.holdMissed k else s.latchHold k p 1 0

/-- The state of the change after a split is latched on this module (R373, R374): before its effect it is disarmed, and its job
takes one quantum at P where its plan is active here; after it, KIND 1 stops at P as by ABORT and the other
KINDs replay; an unloaded forwarding load is back at once, so that the notices of that replay find its job (log entry 115). A change that
was refused here stays shown as refused (R372). -/
def State.latchSplit (s : State) (c : Change) (point reason : Nat) : State :=
  let first := !c.isSplit
  let p := if first then point else min c.point point
  let s := s.wr R.OLC_EVENT_SPLIT 1
  if c.state = 2 ∨ c.state = 5 then
    let s := s.onChanges (·.id == c.id) fun x => { x with state := 5, reason := if first then reason else x.reason, point := p }
    let s := if first then s.inc R.OLC_SPLIT_AFTER_EFFECT else s
    if c.undone then s
    else if c.kind = 1 then { s with pln := { s.pln with abortAt := some p } }
    else if c.kind = 10 ∧ first then
      (s.undo 10 c.ctx c.old).onChanges (·.id == c.id) fun x => { x with undone := true }
    else s
  else
    let s := if c.state = 1 then s.withdraw c.kind c.ctx else s
    let s := s.onChanges (·.id == c.id) fun x =>
      { x with state := if c.state = 3 then 3 else 4, reason := if first then reason else x.reason, point := p }
    match s.slotOf c.plan with
    | some k => s.splitHold k p (if first then none else some c.point)
    | none => s

/-- Raise an epoch split for a change (R372): REFUSED to the root for reasons 1 and 2, which a root that is this module counts, then SPLIT
through the tree. -/
def State.raiseSplit (s : State) (c : Change) (reason : Nat) : State :=
  let p := roundUp 16 (s.now + c.lead)
  let s := if reason = 1 ∨ reason = 2 then
      (if c.root = s.number then s.onChanges (·.id == c.id) fun x => { x with refusals := x.refusals + 1 }
       else s.sendService 8 c.root false (s.controlPkt 2 { c with reason := reason }).encode)
    else s
  let pkt := s.controlPkt 3 { c with reason := reason, point := p }
  (((s.inc R.OLC_SPLIT_RAISED).trace 2 (occField 16 c.kind) 16 c.kind 0).sendAll 8 true pkt.encode c.neighbours).latchSplit c p reason

/-! ## Arming -/

/-- The plan that a change names (R370): the staged one for KIND 1, the forwarding-loaded one for KINDs 9 and 10, and
the active one otherwise. -/
def State.changePlan (s : State) (kind ctx : Nat) : Option Plan :=
  if kind = 1 then s.pln.staged
  else if kind = 9 ∨ kind = 10 then (Tab.find? ctx s.top.loads).map FwdLoad.plan
  else s.pln.active

/-- The hold root of a plan: this module where it has no hold parent (R298, R370). How another module knows the root's
number is open (log entry 14). -/
def State.rootOf (s : State) (p : Plan) : Nat :=
  if p.sched.holdParent = 0xFFFF then s.number else Config.holdRoot p.id8

/-- The change that an arming binds (R371). `effect` is T, and `shown` the AT of its packets. -/
def State.newChange (s : State) (p : Plan) (kind ctx shown effect : Nat) : Change :=
  { id := s.rd R.OLC_CHANGE_NEXT_ID, kind := kind, ctx := ctx, plan := p.id8, root := s.rootOf p
    neighbours := (if p.sched.holdParent = 0xFFFF then [] else [p.sched.holdParent]) ++ p.sched.holdChildren
    participants := p.count, lead := p.lead, at_ := shown, effect := effect, state := 1, reason := 0, votes := 0, refusals := 0, point := 0
    old := 0, counted := false, undone := false }

/-- Arm a two-phase change (R371, R372). In a job of one module, or with no plan that it names, it is the owning block's
alone. Otherwise it binds a fresh OLC_CHANGE_NEXT of its KIND, is refused by a missing one, and enters Armed with an
ARMED packet to the root, or Refused with an epoch split. -/
def State.armChange (s : State) (kind ctx shown effect : Nat) (ok : Bool) (accept refuse : State → State) : State :=
  match s.changePlan kind ctx with
  | none => if ok then accept s else refuse s
  | some p =>
    if p.count ≤ 1 then (if ok then accept s else refuse s)
    else if !(s.on R.OLC_CHANGE_NEXT_FRESH && s.rd R.OLC_CHANGE_NEXT_KIND == kind) then
      (refuse s).wr R.OLC_EVENT_ARM_REFUSED 1
    else
      let c := s.newChange p kind ctx shown effect
      let s := s.wr R.OLC_CHANGE_NEXT_FRESH 0
      let late := decide (effect < s.now + s.rd R.OLC_2PC_LEAD_TICKS)
      if ok && s.leadOk p && !late then
        let own := if c.root = s.number then 1 else 0
        let early := s.olc.changes.find? fun x => x.id == c.id && x.state == 0
        let votes := own + (match early with | some x => x.votes | none => 0)
        let rest := s.olc.changes.filter fun x => !(x.id == c.id && x.state == 0)
        let s := (accept s).setChanges ({ c with votes := votes } :: rest)
        if own = 1 then s else s.sendService 8 c.root false (s.controlPkt 1 c).encode
      else
        let c := { c with state := 3 }
        ((refuse s).setChanges (c :: s.olc.changes)).raiseSplit c (if late then 1 else 2)

/-- A change armed here is disarmed by firmware: its record empties (R61, R180, R349, R380). -/
def State.dropChange (s : State) (kind ctx : Nat) : State :=
  s.onChanges (fun c => c.state == 1 && c.kind == kind && c.ctx == ctx) fun c => { c with state := 0 }

/-- A change of a KIND takes effect in this tick, and a DISARM in the same tick loses to it (R369). -/
def State.tookEffect (s : State) (kind ctx : Nat) : State := { s with olc := { s.olc with applied := (kind, ctx) :: s.olc.applied } }

/-- A change takes effect here; `old` is what it replaced (R372, R374). -/
def State.changeApplied (s : State) (kind ctx old : Nat) : State :=
  (s.tookEffect kind ctx).onChanges (fun c => c.state == 1 && c.kind == kind && c.ctx == ctx) fun c => { c with state := 2, old := old }

/-- The change of a KIND armed here in a job of more than one module. -/
def State.armedChange? (s : State) (kind ctx : Nat) : Option Change :=
  s.olc.changes.find? fun c => c.state == 1 && c.kind == kind && c.ctx == ctx

/-- The current step of the plan of a forwarding load in slot `k` is replayed (R374); before its job has begun here, the REPLAY notice
for the plan's first step goes to its hold tree all the same. -/
def State.replayLoad (s : State) (k : Nat) (c : Change) : State :=
  match s.job? k with
  | some _ => s.replayFor k (s.jobMask k) 0x0C
  | none =>
    let n : Notice := { plan := c.plan, point := roundUp 16 (s.now + c.lead), step := 0, requester := s.number, arg := s.jobMask k
                        code := 0x0C, attempt := 1, origin := s.now }
    (s.inc R.SCH_NOTICE_COUNT_SENT).sendAll 2 true n.encode c.neighbours

/-- A change that cannot be applied at its effect count (R374): in a job of more than one module an epoch split with
reason 4 and, but for KIND 1, a Step-fatal "epoch split" with every context in the mask; for KINDs 9 and 10 in the plan of the
forwarding load. Here there is nothing to undo. -/
def State.cannotApply (s : State) (c : Change) : State :=
  let s := s.onChanges (·.id == c.id) fun x => { x with state := 5, reason := 4, undone := true }
  let s := (s.inc R.OLC_SPLIT_AFTER_EFFECT).raiseSplit { c with state := 5, reason := 4, undone := true, point := roundUp 16 (s.now + c.lead) } 4
  if c.kind = 1 then s
  else if c.kind = 9 ∨ c.kind = 10 then (s.raiseErr ⟨.stepFatal, 16, 0x0C, occField 16 0, 0, c.kind, c.id⟩).replayLoad c.ctx c
  else
    let mask := match s.pln.active with | some p => p.mask | none => 0
    if mask = 0 then s else s.stepFatal 16 0x0C (occField 16 0) c.kind c.id mask

end Sys2Proof.Machine
end

