-- ==== Sys2Proof/Machine/Prov.lean ====
section
/-! DEFINITION. Provenance: modes, tags, seal spans and seals, and their hand-off to the Forester
(05_reproducibility.md R133, R141 to R146). -/

namespace Sys2Proof.Machine

open Sys2Proof

/-! ## Hand-off -/

/-- The Olico link is Up (R364). -/
def State.olicoUp (s : State) : Bool := s.rd R.OLC_STATUS_STATE == 2

/-- The Olico link goes Down and retrains (R364). -/
def State.olicoDown (s : State) : State := ((s.wr R.OLC_STATUS_STATE 1).inc R.OLC_ERR_DOWNS).wr R.OLC_EVENT_DOWN 1

/-- Bytes that an item takes in the Forester's store. -/
def ExportItem.size : ExportItem → Nat
  | .tag _ b => b.length
  | .sealed b => b.length
  | .declaration _ _ _ _ => 32
  | .notice b => b.length
  | .record _ b => b.length

/-- Bytes held for export (R366). -/
def State.exportBytes (s : State) : Nat := (s.fst.exports.map ExportItem.size).sum

/-- The Forester takes an item: it runs (R346), the link is Up and its 16 GiB store has room (R366). -/
def State.takes (s : State) (n : Nat) : Bool := s.fst.booted && s.olicoUp && s.exportBytes + n ≤ 16 * 2 ^ 30

/-- The context of a tag, and none for what is no tag. -/
def ExportItem.tagOf : ExportItem → Option Nat
  | .tag c _ => some c
  | .sealed _ | .declaration .. | .notice _ | .record .. => none

/-- Tags that the die holds and the Forester has not taken (R146): those of batches done, of steps under way and of window slots. -/
def State.tagsHeld (s : State) : Nat :=
  (s.gen.dieItems.filterMap ExportItem.tagOf).length + (s.gen.stepTags.map fun (e : Nat × List (List Byte)) => e.2.length).sum
    + (s.itk.runs.map fun (e : Nat × IntakeRun) =>
        (e.2.windows.map fun (w : WindowRec) => if w.released then 0 else (w.slots.filter fun x => x.tag.isSome).length).sum).sum

/-- What an EXPORT stream carries of an item (R377): its sort, context, first and last number, and bytes; of a declaration its epochs, with
its shard as the bytes (log entry 114). -/
def ExportItem.parts : ExportItem → Nat × Nat × Nat × Nat × List Byte
  | .tag c b => (0, c, 0, 0, b)
  | .sealed b => (1, 0, 0, 0, b)
  | .declaration c shard f l => (2, c, f, l, leBytes 8 shard)
  | .record seq b => (3, 0, seq, seq, b)
  | .notice b => (4, beAt 8 1 b, beAt 24 8 b, beAt 32 8 b, b)

/-- An item goes out on the EXPORT stream that request `reqId` of a requester opened (R377): on its session, or to the module that asked
(R378). -/
def State.exportTo (s : State) (who reqId : Nat) (x : ExportItem) : State :=
  let (sort, c, f, l, b) := x.parts
  if who < 8 then s.emit (.exported who sort c f l b (answerHead 0x40 reqId 0 [sort, c, f, l] b))
  else s.sendFcp (who - 8) 0x8040 reqId 0 [sort, c, f, l] b

/-- An item goes out on every EXPORT stream. -/
def State.streamAll (s : State) (x : ExportItem) : State :=
  s.fst.exporting.foldl (fun s (e : Nat × Nat) => s.exportTo e.1 e.2 x) s

/-- Add an item to the Forester's store. -/
def State.exported (s : State) (x : ExportItem) : State :=
  { s with fst := { s.fst with exports := s.fst.exports ++ [x] } }.streamAll x

/-- A spill record commits: it joins the area, its entries that have not changed since are Spilled (R392), and it goes out on the EXPORT
streams (R377). -/
def State.spillCommitted (s : State) (r : SpillRec) : State :=
  let entries := s.rrc.entries.map fun e => if e ∈ r.entries then (e.1, { e.2 with spilled := true }) else e
  { s.streamAll (.record r.seq r.encode) with
    rrc := { s.rrc with entries := entries, firstRecord := false }
    nv := { s.nv with spill := s.nv.spill ++ [r] } }.wr R.RRC_STATUS_SPILL_SEQ r.seq

/-- What waits on the die goes to the Forester in order while it takes it, in whole lines (R146, R366, R402; log entry 162). -/
def State.drainItems (s : State) : List ExportItem → State
  | [] => { s with gen := { s.gen with dieItems := [] } }
  | x :: rest =>
    if s.takes x.size then ((s.count 6101 (ceilDiv x.size 128)).exported x).drainItems rest
    else { s with gen := { s.gen with dieItems := x :: rest } }

/-- Hand items over to the Forester behind those that wait (R146, R232, R233, R366). -/
def State.handItems (s : State) (l : List ExportItem) : State := s.drainItems (s.gen.dieItems ++ l)

/-- Hand tags of a context over to the Forester (R146). -/
def State.handTags (s : State) (ctx : Nat) (tags : List (List Byte)) : State := s.handItems (tags.map (.tag ctx))

/-! ## Tags -/

/-- The 64 bytes of a root in eight registers (R212, R216). -/
def State.root64 (s : State) (f : Field) (c : Nat) : List Byte :=
  ((List.range 8).map fun i => leBytes 8 (s.rdAt f (8 * c + i))).flatten

/-- The preimage of a tag (R142). -/
structure Preimage where
  ctx : Nat
  level : Nat
  kind : Nat
  length : Nat
  kerfStep : Nat
  programRoot : List Byte
  weightRoot : List Byte
  inputDigest : List Byte
  seed : Nat
  requestId : Nat
  epoch : Nat
  stateSeq : Nat
deriving DecidableEq, Repr

/-- The first `n` bytes of a list, filled with zeros. -/
def fit (n : Nat) (l : List Byte) : List Byte := l.take n ++ zeros (n - l.length)

/-- The 256 bytes of a preimage (R142). -/
def Preimage.encode (p : Preimage) : List Byte :=
  beBytes 2 1 ++ beBytes 1 p.ctx ++ beBytes 1 p.level ++ beBytes 2 p.kind ++ zeros 2 ++ beBytes 4 p.length
    ++ beBytes 4 p.kerfStep ++ fit 64 p.programRoot ++ fit 64 p.weightRoot ++ fit 64 p.inputDigest ++ beBytes 8 p.seed
    ++ beBytes 8 p.requestId ++ beBytes 8 p.epoch ++ beBytes 8 p.stateSeq ++ zeros 16

/-- A tag: the first 32 bytes of SHA-512 over preimage and result bytes (R141). -/
def tagOf (p : Preimage) (result : List Byte) : List Byte := (Crypto.sha512 (p.encode ++ result)).take 32

/-- KERF_STEP carries the batch counter when a stream of the context has STEP_SOURCE 1 (R142). -/
def State.kerfStep (s : State) (c counter : Nat) : Nat :=
  match s.pln.active with
  | some p => if p.kerf.any fun k => k.ctx == c && k.source == 1 then counter % 2 ^ 32 else 0
  | none => 0

/-- What every preimage of a context shares. -/
def State.preimage (s : State) (c : Nat) (root : List Byte) (length : Nat) : Preimage :=
  let p := s.pln.active
  { ctx := c, level := match p with | some p => p.level | none => 0, kind := 0, length := length, kerfStep := 0
    programRoot := match p with | some p => p.root | none => [], weightRoot := root
    inputDigest := [], seed := match s.planCtx? c with | some x => x.seed | none => 0, requestId := 0
    epoch := s.rdAt R.WGT_EPOCH_EPOCH c, stateSeq := 0 }

/-- Consumed bytes of a request: its record with padded payload, then the ingress PTP time for a context that consumes
it (R239). -/
def Request.consumed (r : Request) (tsInput : Bool) : List Byte :=
  r.record ++ (if tsInput then beBytes 6 r.ptpS ++ beBytes 4 r.ptpNs else [])

/-- The tag of a scoring response (R141, R142). -/
def State.scoreTag (s : State) (e : IntakeEntry) (w : WindowRec) (x : SlotRec) (result : List Byte) : List Byte :=
  let base := s.preimage e.ctx w.root result.length
  tagOf { base with kerfStep := s.kerfStep e.ctx w.index, inputDigest := Crypto.sha512 (x.req.consumed e.tsInput)
                    requestId := x.req.id, epoch := x.epoch, stateSeq := x.stateSeq } result

/-- Spans of local memory, one after another. -/
def State.spanBytes (s : State) (l : List (Nat × Nat)) : List Byte := (l.map fun x => s.bytes x.1 x.2).flatten

/-- The tag of a step result of a context without intake (R141, R142): kind, batch counter, global batch index and sample bytes are
what the program gives the tag path. -/
def State.stepTag (s : State) (c : Nat) (t : TagInput) (result : List Byte) : List Byte :=
  let base := s.preimage c (s.root64 R.WGT_ROOT_ACTIVE_ROOT c) result.length
  tagOf { base with kind := t.kind, kerfStep := s.kerfStep c t.counter
                    inputDigest := Crypto.sha512 (s.spanBytes t.samples), requestId := t.batch } result

/-- The tags that the sealed windows of the steps under way are still to form (R146): of every slot with a result and no tag, in a context
with provenance. -/
def State.tagsDue (s : State) : Nat :=
  (s.itk.runs.map fun (e : Nat × IntakeRun) =>
    if bit e.1 (s.rd R.GEN_PROV_EN) then
      (e.2.windows.map fun (w : WindowRec) =>
        if w.released || w.quarantined then 0 else (w.slots.filter fun x => x.status == 0 && x.tag.isNone).length).sum
    else 0).sum

/-- The Forester takes tags, or the die's space of 65,536 has room for `n` more (R146). -/
def State.tagFits (s : State) (n : Nat) : Bool := s.takes 32 || decide (s.tagsHeld + n ≤ 65536)

/-- Tag backpressure (R146): the tags of the step, and `n` more that are to be formed now, would exceed the die's space, and the module
asks for a hold of the step, and again once one has been taken and they still do. -/
def State.tagRoom (s : State) (n : Nat) : State :=
  let k := (s.rd R.TAL_STEP_INDEX, s.rd R.TAL_HOLDS_TICKS)
  if s.tagFits (s.tagsDue + n) ∨ s.gen.holdStep = some k ∨ !s.planActive ∨ s.timePaused then s
  else
    let s := { s with gen := { s.gen with holdStep := some k } }
    ((s.inc R.GEN_TAG_QUEUE_HOLDS).wr R.GEN_EVENT_TAG_HOLD 1).holdRequest 1 4

/-! ## Spans and seals -/

/-- The module PTP time in its units at an earlier count (R237). -/
def State.ptpAt (s : State) (t : Nat) : Nat := (s.ptpThen t).1

/-- The present moment, as a seal notes it. -/
def State.mark (s : State) : Mark := ⟨s.rd R.GEN_CHOICE_COUNT_COUNT, s.on R.GEN_MODE_STRICT, s.ptpAt s.now⟩

/-- The end of a batch at count `t`, which is now or just past, as a seal notes it: in the mode before a change at this count. -/
def State.endMark (s : State) (t : Nat) : Mark :=
  { s.mark with strict := s.on R.GEN_MODE_STRICT != (s.gen.modeFrom == some s.now), ptp := s.ptpAt t }

/-- Batches that begin at the present count begin in the mode that now takes effect (R143, R145). -/
def State.remark (s : State) : State :=
  let strict (m : Mark) : Mark := { m with strict := s.on R.GEN_MODE_STRICT }
  let ctxs := s.pln.ctxs.map fun (e : Nat × CtxRun) => if e.2.start = s.now then (e.1, { e.2 with mark := strict e.2.mark }) else e
  let runs := s.itk.runs.map fun (e : Nat × IntakeRun) => if e.2.openAt = s.now then (e.1, { e.2 with mark := strict e.2.mark }) else e
  { s with pln := { s.pln with ctxs := ctxs }, itk := { s.itk with runs := runs }, gen := { s.gen with modeFrom := some s.now } }

/-- Bytes 0x000 to 0x1FF of a seal (R145). A span ends with its last batch, whatever closes it (R37, R143; log entry 146). -/
def State.sealBody (s : State) (c : Nat) (sp : SealSpan) (partialSpan : Bool) : List Byte :=
  let seq := Tab.get 0 c s.gen.seqs
  let prev := Tab.find? c s.gen.digests
  let ptp := sp.ptpEnd
  let root := match s.pln.active with | some p => p.root | none => []
  beBytes 4 0x5345414C ++ beBytes 2 1 ++ beBytes 1 c
    ++ beBytes 1 (flag sp.strict + 2 * flag partialSpan + 4 * flag prev.isNone)
    ++ beBytes 8 s.nv.serial ++ beBytes 2 s.number ++ zeros 6
    ++ leBytes 8 (s.rdAt R.SEC_BOOT_NONCE_NONCE 0) ++ leBytes 8 (s.rdAt R.SEC_BOOT_NONCE_NONCE 1)
    ++ beBytes 8 seq ++ beBytes 8 sp.first ++ beBytes 8 sp.last ++ beBytes 4 (min sp.tags.length (2 ^ 32 - 1))
    ++ beBytes 4 (min (sp.choicesEnd - sp.choices) (2 ^ 32 - 1)) ++ beBytes 8 sp.openAt ++ beBytes 8 sp.closeAt
    ++ beBytes 6 (ptp / (1000000000 * ptpUnit)) ++ beBytes 4 (ptp / ptpUnit % 1000000000) ++ zeros 6
    ++ fit 64 (Crypto.merkle (sp.tags.map Crypto.leaf)) ++ fit 64 (prev.getD []) ++ fit 64 root
    ++ fit 64 sp.root ++ beBytes 8 sp.epochFirst ++ beBytes 8 sp.epochLast ++ zeros 136

/-- A whole seal: body and signature (R145). -/
def sealBytes (body : List Byte) : List Byte := body ++ fit 512 (Config.attest body)

/-- Close the open span of a context: its seal goes to the seal unit to be signed (R143, R145). A span without a tag
is none (R143). -/
def State.closeSpan (s : State) (c : Nat) (partialSpan : Bool) : State :=
  match Tab.find? c s.gen.spans with
  | none => s
  | some sp =>
    let body := s.sealBody c sp partialSpan
    let seq := Tab.get 0 c s.gen.seqs + 1
    let g := { s.gen with spans := Tab.del c s.gen.spans, unsigned := s.gen.unsigned ++ [body]
                          seqs := Tab.put 0 c seq s.gen.seqs, digests := Tab.ins c (Crypto.sha512 (sealBytes body)) s.gen.digests }
    let s := ({ s with gen := g }.wrAt R.GEN_SEAL_STATUS_SEQ c seq).wrAt R.GEN_SEAL_STATUS_BATCHES c 0
    let s := s.wrAt R.GEN_SEAL_STATUS_TAGS c 0
    if partialSpan then s.wr R.GEN_EVENT_SEAL_PARTIAL 1 else s

/-- Close every open span with PARTIAL (R37, R161, R162). -/
def State.closeSpans (s : State) : State :=
  (List.range 16).foldl (fun s c => s.closeSpan c true) s

/-- The batches at whose end a context's span is to close. -/
def State.closings (s : State) (c : Nat) : List Nat := match Tab.find? c s.gen.closing with | some l => l | none => []

/-- The span of a context closes at the end of batch `target`: at once, as it stood at the end of its last batch, when that batch is done
(R143). -/
def State.markSpan (s : State) (c target : Nat) : State :=
  let late : Bool := match Tab.find? c s.gen.done with | some d => decide (target ≤ d) | none => false
  if late then s.closeSpan c true
  else { s with gen := { s.gen with closing := Tab.ins c (addOnce target (s.closings c)) s.gen.closing } }

/-- A batch is done: its tags go to the Forester, and the span opens, counts on or closes (R143, R146). -/
def State.batchDone (s : State) (c index openAt closeAt : Nat) (opened closed : Mark) (root : List Byte) (tags : List (List Byte))
    (epochs : List Nat) : State :=
  let s := s.handTags c tags
  let s := { s with gen := { s.gen with done := Tab.ins c index s.gen.done } }
  let strict := opened.strict && closed.strict
  let span : Option SealSpan := match Tab.find? c s.gen.spans with
    | some sp => some sp
    | none => if tags = [] then none else
      some { first := index, last := index, batches := 0, openAt := openAt, closeAt := closeAt, tags := [], choices := opened.choices
             choicesEnd := opened.choices, ptpEnd := closed.ptp, epochFirst := epochs.headD 0, epochLast := epochs.headD 0, strict := strict, root := root }
  let due := (s.closings c).any fun t => decide (t ≤ index)
  let s := { s with gen := { s.gen with closing := Tab.put [] c ((s.closings c).filter fun t => index < t) s.gen.closing } }
  match span with
  | none => s
  | some sp =>
    let sp := { sp with last := index, closeAt := closeAt, choicesEnd := closed.choices, ptpEnd := closed.ptp, batches := sp.batches + 1, tags := sp.tags ++ tags
                        epochFirst := epochs.foldl min sp.epochFirst, epochLast := epochs.foldl max sp.epochLast
                        strict := sp.strict && strict }
    let s := { s with gen := { s.gen with spans := Tab.ins c sp s.gen.spans } }
    let s := (s.wrAt R.GEN_SEAL_STATUS_BATCHES c sp.batches).wrAt R.GEN_SEAL_STATUS_TAGS c (min sp.tags.length (2 ^ 19 - 1))
    if due then s.closeSpan c true
    else if s.rd R.GEN_SEAL_CFG_BATCHES ≤ sp.batches ∨ sp.openAt + s.rd R.GEN_SEAL_CFG_TICKS ≤ closeAt then
      s.closeSpan c false
    else s

/-- The batch of a context now in progress: of an intake context the latest window sealed and not released, or else the
open one; of any other its step (R143; log entry 17). -/
def State.currentBatch (s : State) (c : Nat) : Nat :=
  match Tab.find? c s.itk.runs with
  | some r => (match (r.windows.filter fun w => !w.released).getLast? with | some w => w.index | none => r.window)
  | none => match s.ctx? c with | some r => r.step | none => 0

/-- The seals not yet signed are none (R37). -/
def State.sealsSigned (s : State) : Bool := s.gen.unsigned.isEmpty

/-! ## Modes -/

/-- A Relaxed choice is taken and counted (R134). -/
def State.choice (s : State) (f : Field) : State :=
  (s.wr R.GEN_CHOICE_COUNT_COUNT (s.rd R.GEN_CHOICE_COUNT_COUNT + 1)).inc f

/-- A choice of a kind is allowed: Relaxed mode, and its enable (R134). -/
def State.mayChoose (s : State) (en : Field) : Bool := !s.on R.GEN_MODE_STRICT && s.on en

/-- A context of the active plan requires STRICT (R133). -/
def State.strictReq (s : State) : Bool := s.planCtxs.any (·.strictReq)

/-- Refuse a mode change (R133). -/
def State.refuseMode (s : State) : State := (s.wr R.GEN_MODE_NEXT_STATE 2).wr R.GEN_EVENT_MODE_REFUSED 1

/-- Arm the mode change as written (R133). -/
def State.armMode (s : State) : State :=
  { s with gen := { s.gen with modeAt := s.last R.GEN_MODE_AT_AT, modeStrict := s.last R.GEN_MODE_NEXT_STRICT == 1
                               modeNoPlan := !s.planActive } }.wr R.GEN_MODE_NEXT_STATE 1

/-- GEN_MODE_NEXT.ARM (R133). -/
def execGenModeArm (s : State) : Res :=
  let at_ := s.last R.GEN_MODE_AT_AT
  let ok := (s.planActive || (at_ % 16 == 0 && decide (s.now < at_))) && !(s.last R.GEN_MODE_NEXT_STRICT == 0 && s.strictReq)
  .next (s.armChange 4 0 at_ at_ ok State.armMode State.refuseMode)

/-- The base step begins now (R52). -/
def State.atStepStart (s : State) : Bool :=
  match s.job? 7 with | some j => s.planActive && s.now == j.stepStart | none => false

/-- Mark every context's open span to close with the last batch before a mode change (R143). -/
def State.modeSpans (s : State) : State :=
  (List.range 16).foldl (fun s c => match Tab.find? c s.itk.runs, s.ctx? c with
    | some r, _ => if r.window = 0 then s else s.markSpan c (r.window - 1)
    | none, some r => if r.step = 0 then s else s.markSpan c (r.step - 1)
    | none, none => s) s

/-- The count of the armed mode change has come (R133): the first step boundary at or after it, or with no plan active the count itself. -/
def State.modeReady (s : State) : Bool :=
  if s.planActive then s.atStepStart && decide (s.gen.modeAt ≤ s.now) else decide (s.gen.modeAt ≤ s.now)

/-- GEN_MODE_NEXT.DISARM returns an Armed change to Idle (R148). It loses to the change's effect in the same tick (R369). -/
def execGenModeDisarm (s : State) : Res :=
  let armed : Bool := s.rd R.GEN_MODE_NEXT_STATE == 1
  if (armed ∧ s.modeReady) ∨ s.olc.applied.contains (4, 0) then .next (s.wr R.GEN_EVENT_MODE_REFUSED 1)
  else if armed then .next ((s.dropChange 4 0).wr R.GEN_MODE_NEXT_STATE 0) else .next s

/-- The armed mode change takes effect: at the first step boundary at or after its count, or with no plan active at the
count itself; a change to Relaxed under a STRICT plan is refused (R133). The open spans close with the last batch before
the change (R143). -/
def execModeChangeEffect (s : State) : Res :=
  if s.rd R.GEN_MODE_NEXT_STATE = 1 ∧ s.modeReady then
    if !s.gen.modeStrict && s.strictReq then
      match s.armedChange? 4 0 with
      | some c => .next (s.refuseMode.cannotApply c)
      | none => .next s.refuseMode
    else
      let old := s.rd R.GEN_MODE_STRICT
      let s := (s.wr R.GEN_MODE_NEXT_STATE 0).changeApplied 4 0 old
      if old = flag s.gen.modeStrict then .next s
      else
        .next ((s.modeSpans.wr R.GEN_MODE_STRICT (flag s.gen.modeStrict)).fixedRefresh.remark)
  else .next s

/-- The seal unit signs the oldest closed span's seal (R145), which follows the tags handed over before it, and waits with them where the
Forester does not take it (R146, R366). Once the die is off the unit, which lies in the Forester domain, gives it to the Forester itself,
whose store must have room (R37, R366). -/
def execSealSigned (s : State) : Res :=
  match s.gen.unsigned with
  | [] => .next s
  | b :: t =>
    let item : ExportItem := .sealed (sealBytes b)
    if !s.pwr.dieOn ∧ !(s.exportBytes + item.size ≤ 16 * 2 ^ 30) then .next s
    else
      let s := { s with gen := { s.gen with unsigned := t } }
      .next (if s.pwr.dieOn then s.handItems [item] else s.exported item)

/-- GEN_SEAL_CTRL.CLOSE_NOW closes the context's span at the end of its current batch, which may be its first (R143, R148). -/
def execSealCloseNow (s : State) : Res :=
  let c := s.rd R.GEN_SEAL_CTRL_CONTEXT
  if (Tab.find? c s.gen.spans).isSome ∨ s.ctxRunning c then .next (s.markSpan c (s.currentBatch c)) else .next s

end Sys2Proof.Machine
end

