-- ==== Sys2Proof/Machine/PtpWire.lean ====
section
/-! DEFINITION. PTP messages on the wire, most significant byte first (00_scope.md R13). Their layout is that of IEEE 1588-2019,
which 09_intake_and_streams.md R243 names; the manual does not repeat it (PRESUMED, log entry 110). -/

namespace Sys2Proof.Machine

open Sys2Proof

/-- The PTP multicast address of a transport, for messages of peer delay or others (R236, R243; the addresses are IEEE 1588's, log
entry 18). -/
def ptpAddress (udp peer : Bool) : Nat :=
  if udp then (if peer then 0x01005E00006B else 0x01005E000181) else (if peer then 0x0180C200000E else 0x011B19000000)

/-- A PTP message: type, domain, two-step flag, correctionField in 2⁻¹⁶ ns, clock and port of its sender, sequence number,
logMessageInterval, and the bytes behind its header. -/
structure PtpMsg where
  type : Nat
  domain : Nat
  twoStep : Bool
  corr : Int
  sender : List Byte
  seq : Nat
  interval : Int
  body : List Byte
deriving DecidableEq, Repr

/-- Length of a message of a type: header of 34 bytes, and body; 0 for a type that is not one of the clock's. -/
def ptpLength (type : Nat) : Nat :=
  if type = 0 ∨ type = 1 ∨ type = 8 then 44
  else if type = 2 ∨ type = 3 ∨ type = 9 ∨ type = 10 then 54
  else if type = 11 then 64
  else 0

/-- The message that bytes spell; none for another version, a type that is not supported, or a length that is not the type's. -/
def PtpMsg.decode (b : List Byte) : Option PtpMsg :=
  let type := beAt 0 1 b % 16
  let n := ptpLength type
  if n = 0 ∨ beAt 1 1 b % 16 ≠ 2 ∨ beAt 2 2 b < n ∨ b.length < n then none
  else some ⟨type, beAt 4 1 b, bit 1 (beAt 6 1 b), ofField 64 (beAt 8 8 b), slice 20 10 b, beAt 30 2 b, ofField 8 (beAt 33 1 b),
    slice 34 (n - 34) b⟩

/-- controlField of a type. -/
def ptpControl (type : Nat) : Nat := if type = 0 then 0 else if type = 1 then 1 else if type = 8 then 2 else if type = 9 then 3 else 5

/-- The bytes of a message. -/
def PtpMsg.encode (m : PtpMsg) : List Byte :=
  beBytes 1 m.type ++ beBytes 1 2 ++ beBytes 2 (34 + m.body.length) ++ beBytes 1 m.domain ++ zeros 1 ++ beBytes 1 (2 * flag m.twoStep) ++ zeros 1
    ++ beBytes 8 (toField 64 m.corr) ++ zeros 4 ++ m.sender ++ beBytes 2 m.seq ++ beBytes 1 (ptpControl m.type) ++ beBytes 1 (toField 8 m.interval) ++ m.body

/-- The message's interval is one that the profile accepts (R243): Sync and its Follow_Up, Delay_Resp and Pdelay_Req from −7 to 0,
Announce from −3 to 3. A Pdelay_Req may say none, as 0x7F (PRESUMED, log entry 110). -/
def PtpMsg.intervalOk (m : PtpMsg) : Bool :=
  if m.type = 0 ∨ m.type = 8 ∨ m.type = 9 then decide (-7 ≤ m.interval ∧ m.interval ≤ 0)
  else if m.type = 2 then decide ((-7 ≤ m.interval ∧ m.interval ≤ 0) ∨ m.interval = 127)
  else if m.type = 11 then decide (-3 ≤ m.interval ∧ m.interval ≤ 3)
  else true

/-! ## The frame check sequence -/

/-- Eight shifts of the reflected polynomial of IEEE 802.3. -/
def fcsShift : Nat → Nat → Nat
  | 0, c => c
  | n + 1, c => fcsShift n (if c % 2 = 1 then (c / 2) ^^^ 0xEDB88320 else c / 2)

/-- The FCS register after the bytes of a frame. -/
def fcsFold (c : Nat) : List Byte → Nat
  | [] => c
  | b :: t => fcsFold (fcsShift 8 (c ^^^ b.toNat)) t

/-- The frame check sequence of an Ethernet frame, as its four bytes leave (R238, R244): that of IEEE 802.3, which the manual names
and does not repeat (PRESUMED, log entry 18). -/
def fcsOf (l : List Byte) : List Byte := leBytes 4 (fcsFold 0xFFFFFFFF l ^^^ 0xFFFFFFFF)

/-- A frame with its frame check sequence. -/
def withFcs (l : List Byte) : List Byte := l ++ fcsOf l

/-- The frame check sequence at the end of a frame holds. -/
def fcsHolds (l : List Byte) : Bool := decide (4 ≤ l.length) && l.drop (l.length - 4) == fcsOf (l.take (l.length - 4))

/-- The ones' complement sum of an IPv4 header's words. -/
def headerSum (l : List Byte) : Nat :=
  let n := ((List.range (l.length / 2)).map fun i => beAt (2 * i) 2 l).sum
  let n := n / 65536 + n % 65536
  65535 - (n / 65536 + n % 65536)

/-- An IPv4 packet with a UDP datagram (R243, R244): its UDP checksum is zero. -/
def udpPacket (source dest port : Nat) (l : List Byte) : List Byte :=
  let head (sum : Nat) : List Byte := beBytes 2 0x4500 ++ beBytes 2 (28 + l.length) ++ zeros 4 ++ beBytes 2 0x0111 ++ beBytes 2 sum
    ++ beBytes 4 source ++ beBytes 4 dest
  head (headerSum (head 0)) ++ beBytes 2 port ++ beBytes 2 port ++ beBytes 2 (8 + l.length) ++ zeros 2 ++ l

/-- A time stamp of ten bytes, in 2⁻¹⁶ ns. -/
def ptpStampOf (b : List Byte) : Int := ((beAt 0 6 b * 1000000000 + beAt 6 4 b) * 65536 : Nat)

/-- The ten bytes of a time in 2⁻¹⁶ ns, which keep its whole nanoseconds. -/
def ptpStampBytes (t : Int) : List Byte :=
  let ns := (t / 65536).toNat
  beBytes 6 (ns / 1000000000) ++ beBytes 4 (ns % 1000000000)

/-- The data set of an Announce in the order of the default algorithm, the lower the better: priority1, class, accuracy, variance,
priority2, grandmaster identity and steps removed. -/
def PtpMsg.quality (m : PtpMsg) : Nat :=
  let b := m.body
  ((beAt 13 5 b * 256 + beAt 18 1 b) * 2 ^ 64 + beAt 19 8 b) * 65536 + beAt 27 2 b

/-- stepsRemoved of an Announce. -/
def PtpMsg.steps (m : PtpMsg) : Nat := beAt 27 2 m.body

/-- The clock identity of a message's sender. -/
def PtpMsg.clock (m : PtpMsg) : Nat := beAt 0 8 m.sender

end Sys2Proof.Machine
end

