-- ==== Sys2Proof/Machine/Space.lean ====
section
/-! DEFINITION. The local address space and the benches in it (07_memory_tiers.md R184; 06_working_plan.md R163;
03_bench_arithmetic.md R63). -/

namespace Sys2Proof.Machine

open Sys2Proof

/-- The regions of the local address space (R184). -/
inductive Range where
  | hbm | ddr | stage | bench | forester | csr | hole
deriving DecidableEq, Repr

/-- The range that a local address lies in (R184, R158). -/
def rangeOf (a : Nat) : Range :=
  if a < 0x00F000000000 then .hbm
  else if 0x020000000000 ≤ a ∧ a < 0x03FE00000000 then .ddr
  else if 0x03FE00000000 ≤ a ∧ a < 0x040000000000 then .stage
  else if 0x080000000000 ≤ a ∧ a < 0x080000000000 + 792 * 0x200000 then .bench
  else if 0x0C0000000000 ≤ a ∧ a < 0x0C0800000000 then .forester
  else if 0x0F0000000000 ≤ a ∧ a < 0x0F0002000000 then .csr
  else .hole

/-- The bench store of a physical bench (R184). -/
def benchBase (b : Nat) : Nat := 0x080000000000 + b * 0x200000

/-- The physical bench on which a logical bench runs without substitution (R163). -/
def plainBench (l : Nat) : Nat := 33 * (l / 32) + l % 32

/-- The physical bench that serves a logical index: its own, or the spare that stands in (R163, R139). -/
def State.physical (s : State) (l : Nat) : Nat :=
  match s.gen.subst.find? fun x => x.logical == l with
  | some x => x.spare
  | none => plainBench l

/-- The logical index that a physical bench serves, if any. -/
def State.logical? (s : State) (b : Nat) : Option Nat :=
  match s.gen.subst.find? fun x => x.spare == b with
  | some x => some x.logical
  | none =>
    if b % 33 < 32 ∧ !(s.gen.subst.any fun x => x.source == b) then some (32 * (b / 33) + b % 33) else none

/-- The bench region of a physical bench (R63). -/
def benchRegion (b : Nat) : Nat := b / 33

/-- The field of a physical bench (R63). -/
def benchField (b : Nat) : Nat := b / 132

/-- The allocation of a logical bench in the active plan (R164). -/
def State.alloc? (s : State) (l : Nat) : Option BenchAlloc :=
  match s.pln.active with | some p => p.alloc[l]? | none => none

/-- The home context of a physical bench in the active plan, 0 where it has none. -/
def State.homeOf (s : State) (b : Nat) : Nat :=
  match s.logical? b with
  | some l => (match s.alloc? l with | some a => a.home | none => 0)
  | none => 0

/-- The clock region of a bench is stopped (R50). -/
def State.regionStopped (s : State) (b : Nat) : Bool := s.onAt R.CLK_RGN_STATUS_STOPPED (benchRegion b)

/-- Bytes in a bench store (R64). -/
def storeSize : Nat := 0x200000

/-- The local address of a logical bench's store at a 128-byte unit. -/
def State.cellAddr (s : State) (l unit : Nat) : Nat := benchBase (s.physical l) + 128 * unit

/-- The HBM PHY region that serves a local address, or the DDR tier region (R40, R184). -/
def memRegion (a : Nat) : Nat := if a < 0x00F000000000 then 24 + a / 0xC00000000 / 2 else 34

/-- The memories of the plan's regions, scripts and windows lie in an I/O region (R40). -/
def memoryUses (m : MemoryPlan) (r : Nat) : Bool :=
  let ctrl (c : Nat) : Nat := if c < 20 then 24 + c / 2 else 34
  (m.regions.any fun x => decide (memRegion x.base ≤ r) && decide (r ≤ memRegion (x.base + x.length - 1)))
    || (m.entries.any fun x => ctrl x.ctrl == r) || (m.windows.any fun x => ctrl x.ctrl == r)

/-- A region has work in the active plan (R50): used benches, memories, ports in use, intake; the Tally's region always. -/
def State.regionUsed (s : State) (r : Nat) : Bool :=
  match s.pln.active with
  | none => false
  | some p =>
    if r < 24 then
      (List.range 768).any fun l => benchRegion (s.physical l) == r &&
        (match s.alloc? l with | some a => a.used | none => false)
    else if r < 35 then memoryUses p.memory r
    else if r < 37 then p.ports.zipIdx.any fun (x : PortMap × Nat) => x.1.use != 0 && x.2 / 8 + 35 == r
    else if r = 37 then p.intake != []
    else true

/-! ## Data on their way to memory (R42, R195) -/

/-- Data that go to memory meet `n` bytes from `a`. -/
def Delivery.meets (d : Delivery) (a n : Nat) : Bool := decide (24 ≤ d.reader) && decide (d.addr < a + n) && decide (a < d.addr + d.bytes.length)

/-- Data on their way to memory that `p` selects land at once. -/
def State.landBy (s : State) (p : Delivery → Bool) : State :=
  let landed := s.scr.queue.filter p
  let s := { s with scr := { s.scr with queue := s.scr.queue.map fun d => if p d then { d with bytes := [] } else d } }
  landed.foldl (fun s d => s.setBytes d.addr d.bytes) s

/-- Data that go to memory and are still on their way land where `n` bytes from `a` meet them: the controllers forward them to what comes
later in their order (R195). -/
def State.land (s : State) (a n : Nat) : State := s.landBy fun d => d.meets a n

/-- Data that the controllers have taken for a context land whatever becomes of its work: a crossing drops no flit (R44). -/
def State.landCtx (s : State) (c : Nat) : State := s.landBy fun d => decide (24 ≤ d.reader) && d.ctx == c

/-- Such data of every context. -/
def State.landAll (s : State) : State := s.landBy fun d => decide (24 ≤ d.reader)

end Sys2Proof.Machine
end

