-- ==== Sys2Proof/Machine/Intake.lean ====
section
/-! DEFINITION. Request intake and timed release (09_intake_and_streams.md R236 to R252, R259, R261). -/

namespace Sys2Proof.Machine

open Sys2Proof

/-! ## Contexts -/

/-- The INTAKE entry of a context of the active plan (R253). -/
def State.intake? (s : State) (c : Nat) : Option IntakeEntry :=
  match s.pln.active with | some p => p.intake.find? fun e => e.ctx == c | none => none

/-- The intake run of a context. -/
def State.run? (s : State) (c : Nat) : Option IntakeRun := Tab.find? c s.itk.runs

/-- Show the intake state of a context (R261). -/
def State.showRun (s : State) (c : Nat) (r : IntakeRun) : State :=
  let admitted := match r.windows.getLast? with | some w => w.slots.length | none => s.rdAt R.ITK_CTX_STATUS_ADMITTED c
  let s := (s.wrAt R.ITK_CTX_STATUS_WINDOW c r.window).wrAt R.ITK_CTX_STATUS_CARRIED c r.carried.length
  let s := (s.wrAt R.ITK_CTX_STATUS_ADMITTED c admitted).wrAt R.ITK_CTX_STATUS_CLOSED c (flag (r.closed || r.closeFrom.isSome))
  s.wrAt R.ITK_CTX_STATUS_OPEN c (flag r.open_)

/-- Set the intake run of a context. -/
def State.setRun (s : State) (c : Nat) (r : IntakeRun) : State :=
  { s with itk := { s.itk with runs := Tab.ins c r s.itk.runs } }.showRun c r

/-- M, the windows of a step (R247). -/
def State.perStep (s : State) (e : IntakeEntry) : Nat :=
  match s.pln.active with | some p => p.stepLen / e.windowTicks | none => 1

/-- The length of the open window: W, and X more for the last window of an extended step (R247). -/
def State.windowLen (s : State) (e : IntakeEntry) (w : Nat) : Nat :=
  let ext := match s.ctx? e.ctx, s.planCtx? e.ctx with
    | some r, some x => if r.extended then x.spareExt else 0
    | _, _ => 0
  e.windowTicks + (if (w + 1) % s.perStep e = 0 then ext else 0)

/-- Batches of a context from a first one on are quarantined (R232). -/
def State.quarantinedAt (s : State) (c w : Nat) : Bool :=
  match Tab.find? c s.wgt.quarantine with | some b => decide (b ≤ w) | none => false

/-! ## Requests -/

/-- Cut a request record from the front of a list; none where a field is reserved or the record overruns (R239, R240). A LENGTH above
1,952, which no record may have, discards the whole frame and makes no malformed record (DEDUCED, log entry 136). -/
def parseRecord (l : List Byte) : Option (Nat × Nat × Nat × Nat × List Byte × List Byte) :=
  let op := beAt 24 1 l
  let len := beAt 26 2 l
  let whole := 32 + roundUp 8 len
  if whole ≤ l.length ∧ 32 ≤ l.length ∧ 1 ≤ op ∧ op ≤ 4 ∧ beAt 25 1 l = 0 ∧ len ≤ 1952 ∧ beAt 28 4 l = 0 ∧
      slice (32 + len) (roundUp 8 len - len) l = zeros (roundUp 8 len - len) then
    some (beAt 0 8 l, beAt 8 16 l, op, len, l.take whole, l.drop whole)
  else none

/-- The `n` records of a frame. -/
def parseRecords : Nat → List Byte → Option (List (Nat × Nat × Nat × Nat × List Byte))
  | 0, _ => some []
  | n + 1, l =>
    match parseRecord l with
    | none => none
    | some (id, key, op, len, bytes, rest) => (parseRecords n rest).map fun t => (id, key, op, len, bytes) :: t

/-- The requests of records with one stamp, whose two parts are those of one instant: the module PTP time and its holdover are the
ones in force at the stamp's count (R237, R246). -/
def State.requests (s : State) (e : IntakeEntry) (port frameSeq tally sixteenth : Nat)
    (recs : List (Nat × Nat × Nat × Nat × List Byte)) : List Request :=
  let (base, rate, holdover) := s.ptpThen tally
  let ptp := base + sixteenth * rate / 16
  recs.zipIdx.map fun x =>
    { id := x.1.1, key := x.1.2.1, op := x.1.2.2.1, length := x.1.2.2.2.1, record := x.1.2.2.2.2, tally := tally
      sixteenth := sixteenth, ptpS := ptp / (1000000000 * ptpUnit) % 2 ^ 48, ptpNs := ptp / ptpUnit % 1000000000
      port := port, frameSeq := frameSeq, pos := x.2, carries := 0, malformed := decide (e.maxRequest < x.1.2.2.2.1)
      holdover := holdover }

/-- Add requests to a context's arrivals, unless it only stands by for its twin (R354, R357). -/
def State.arrive (s : State) (c : Nat) (reqs : List Request) : State :=
  match s.run? c with
  | none => s
  | some r =>
    if r.standby then s.addAt R.TWN_DROP_STANDBY_DROP 0 reqs.length
    else s.setRun c { r with arrivals := r.arrivals ++ reqs }

/-! ## Responses -/

/-- What a response says beyond its request (R241). -/
structure Reply where
  status : Nat
  tagged : Bool
  newState : Bool
  escOverflow : Bool
  slot : Nat
  window : Nat
  stateSeq : Nat
  epoch : Nat
  tag : List Byte
  result : List Byte
deriving DecidableEq, Repr

/-- A response record (R241). -/
def State.replyBytes (s : State) (q : Request) (a : Reply) : List Byte :=
  let flags := flag a.tagged + 2 * flag a.newState + 4 * flag a.escOverflow + 8 * flag (s.on R.GEN_MODE_STRICT)
    + 16 * flag q.holdover
  beBytes 8 q.id ++ beBytes 1 a.status ++ beBytes 1 flags ++ beBytes 2 a.result.length ++ beBytes 2 a.slot
    ++ beBytes 2 q.carries ++ beBytes 8 a.window ++ beBytes 8 a.stateSeq ++ beBytes 8 a.epoch ++ beBytes 6 q.ptpS
    ++ beBytes 4 q.ptpNs ++ zeros 6 ++ beBytes 8 q.tally ++ fit 32 (if a.tagged then a.tag else []) ++ a.result

/-- A refusal's reply, with the epoch in force for the batch (R241). -/
def refusal (status window epoch : Nat) : Reply :=
  { status := status, tagged := false, newState := false, escOverflow := false, slot := 0xFFFF, window := window
    stateSeq := 0, epoch := epoch, tag := [], result := [] }

/-- The response cell of slot `i` of window `w` in bench store (R253). -/
def State.respCell (s : State) (e : IntakeEntry) (w i : Nat) : Nat :=
  s.cellAddr (e.bench + i % 8) e.respAddr + w % e.buffers * 65536 + i / 8 * 2048

/-- The request cell of slot `i` of window `w` in bench store (R253). -/
def State.reqCell (s : State) (e : IntakeEntry) (w i : Nat) : Nat :=
  s.cellAddr (e.bench + i % 8) e.bufAddr + w % e.buffers * 65536 + i / 8 * 2048

/-- The reply of an admitted slot, with the result its bench left in the response cell (R241, R253); in a quarantined batch every response
has the quarantine status (R232, R242). -/
def State.slotReply (s : State) (e : IntakeEntry) (w : WindowRec) (i : Nat) (x : SlotRec) : Reply :=
  let status := if w.quarantined then 1 else x.status
  let cell := s.respCell e w.index i
  let ok := status == 0
  { status := status, tagged := ok && e.respTag && x.tag.isSome, newState := x.newState && decide (status ≤ 1)
    escOverflow := ok && bit 2 (s.byte (cell + 9)).toNat, slot := i, window := w.index, stateSeq := x.stateSeq
    epoch := x.epoch, tag := x.tag.getD [], result := if ok then s.bytes (cell + 0x60) e.resultLength else [] }

/-- An intake frame of KIND 2 on a port before its FCS (R238, R241). -/
def State.responseFrame (s : State) (port c : Nat) (recs : List (List Byte)) : List Byte :=
  let tag := if s.onAt R.ITK_PORT_TAG_EN port then beBytes 2 0x8100 ++ beBytes 2 (s.rdAt R.ITK_PORT_MAC_TAG port) else []
  beBytes 6 (s.rdAt R.ITK_PORT_PEER_MAC port) ++ beBytes 6 (s.rdAt R.ITK_PORT_MAC_MAC port) ++ tag ++ beBytes 2 0x88B5
    ++ beBytes 1 1 ++ beBytes 1 2 ++ beBytes 1 c ++ beBytes 1 recs.length
    ++ beBytes 4 (s.itk.frameSeq.getD port 0) ++ zeros 8 ++ recs.flatten

/-- A frame leaves on an ingest port, with its FCS (R238). -/
def State.putFrame (s : State) (port : Nat) (f : List Byte) : State := if s.intakeStill then s else s.emit (.frame port (withFcs f))

/-- Send one response frame, which takes the port's next FRAME_SEQ (R241). -/
def State.sendFrame (s : State) (port c : Nat) (recs : List (List Byte)) : State :=
  let seq := (s.itk.frameSeq.getD port 0 + 1) % 2 ^ 32
  let f := s.responseFrame port c recs
  (({ s with itk := { s.itk with frameSeq := s.itk.frameSeq.set port seq } }).count (6098 + port) 1).putFrame port f

/-- An access of the die to Forester memory is lost while the link is Down (R366). -/
def State.olicoLost (s : State) : State := s.inc R.OLC_ERR_LOST

/-- The die reads `n` lines of Forester memory (R365): which of them the Olico cache serves is free, since the manual gives no
contents of the cache. -/
def State.dieReads (s : State) (n : Nat) : State :=
  let hits := Config.cacheHits s.fresh n % (n + 1)
  (((s.addAt R.OLC_CACHE_HITS 0 hits).addAt R.OLC_CACHE_MISSES 0 (n - hits)).count 6100 (n - hits)).drawn

/-- Write one response into the response ring, or drop it (R252, R366). -/
def State.ringReply (s : State) (e : IntakeEntry) (bytes : List Byte) : State :=
  if !s.olicoUp then s.olicoLost
  else
    let c := e.ctx
    let prod := s.rdAt R.ITK_RESP_RING_PRODUCER c
    let cons := s.le (e.ringBase + 0xC0) 4
    if (prod + 2 ^ 32 - cons) % 2 ^ 32 = 2 ^ e.ringLog2 then
      (s.incAt R.ITK_RESP_RING_DROPPED c).wr R.ITK_EVENT_RESP_RING_FULL 1
    else
      let size := 2 ^ e.ringEntryLog2
      let at_ := e.ringBase + 4096 + 2 ^ e.ringLog2 * size + prod % 2 ^ e.ringLog2 * size
      let s := (s.setBytes at_ bytes).wrAt R.ITK_RESP_RING_PRODUCER c ((prod + 1) % 2 ^ 32)
      let s := s.count 6101 (ceilDiv bytes.length 128 + 1)
      s.setBytes (e.ringBase + 0x80) (leBytes 4 ((prod + 1) % 2 ^ 32))

/-- Answer one request at once through the way it came; through a port each answer has a frame of its own (DESIGN CHOICE, log entry 152). -/
def State.answerNow (s : State) (e : IntakeEntry) (q : Request) (a : Reply) : State :=
  let b := s.replyBytes q a
  if q.port = 2 then s.ringReply e b else s.sendFrame q.port e.ctx [b]

/-! ## Admission -/

/-- Admission order (R249): stamp, port, FRAME_SEQ as an unsigned difference, position. -/
def Request.before (a b : Request) : Bool :=
  let d := (b.frameSeq + 2 ^ 32 - a.frameSeq) % 2 ^ 32
  if a.tally ≠ b.tally then a.tally < b.tally
  else if a.sixteenth ≠ b.sixteenth then a.sixteenth < b.sixteenth
  else if a.port ≠ b.port then a.port < b.port
  else if d ≠ 0 then d < 2 ^ 31
  else a.pos < b.pos

/-- Insert in admission order, behind its equals. -/
def insertRequest (q : Request) : List Request → List Request
  | [] => [q]
  | a :: t => if q.before a then q :: a :: t else a :: insertRequest q t

/-- Candidates in admission order. -/
def admissionOrder (l : List Request) : List Request := l.foldl (fun acc q => insertRequest q acc) []

/-- What admission leaves: slots and candidates to carry, both in admission order, keys pinned, and how many were
opportunistic. -/
structure Admission where
  slots : List Request
  rest : List Request
  pins : List (Nat × Nat)
  early : Nat
deriving DecidableEq, Repr

/-- Admit one candidate of window `w` or leave it (R249). A malformed record is held back by no pin and pins nothing. -/
def Admission.take (w openAt slots span : Nat) (a : Admission) (q : Request) : Admission :=
  let pinned := !q.malformed && a.pins.any fun p => p.1 == q.key && decide (w < p.2 + span)
  if a.slots.length < slots ∧ !pinned then
    { a with slots := a.slots ++ [q], pins := if q.malformed then a.pins else (q.key, w) :: a.pins
             early := a.early + (if openAt ≤ q.tally then 1 else 0) }
  else { a with rest := a.rest ++ [q] }

/-- Refusals and carries of the candidates left over (R250, R251): with `last` all are refused as closed. -/
def sortCarries (e : IntakeEntry) (last : Bool) (l : List Request) : List (Request × Nat) × List Request :=
  l.foldl (fun acc q =>
    if last then (acc.1 ++ [(q, 6)], acc.2)
    else if q.carries ≥ e.carryMax then (acc.1 ++ [(q, 3)], acc.2)
    else if acc.2.length ≥ e.carrySlots then (acc.1 ++ [(q, 4)], acc.2)
    else (acc.1, acc.2 ++ [{ q with carries := q.carries + 1 }])) ([], [])

/-- A context admits requests stamped in the open window itself (R135, R248). -/
def State.opportunistic (s : State) (c : Nat) : Bool :=
  s.mayChoose R.GEN_MODE_EN_ADMIT && (match s.planCtx? c with | some x => x.winIndep | none => false)

/-- Write the admitted records into the request buffers (R253): descriptor, record, zeros to the end of the cell. -/
def State.writeCells (s : State) (e : IntakeEntry) (w : WindowRec) : State :=
  w.slots.zipIdx.foldl (fun s x =>
    let q := x.1.req
    let d := fit 64 (Config.descriptor [256 * w.index + x.2, x.1.status, q.tally, q.sixteenth, q.ptpS, q.ptpNs, q.carries,
      x.1.epoch])
    s.setBytes (s.reqCell e w.index x.2) (fit 2048 (d ++ q.record))) s

/-- The slot of an admitted request. -/
def freshSlot (epoch : Nat) (q : Request) : SlotRec :=
  { req := q, status := if q.malformed then 2 else 0, stateSeq := 0, newState := true, block := none, writes := false
    empty := false, readFrom := none, resolved := false, tag := none, epoch := epoch }

/-- A sealed window with these slots. -/
def sealedWindow (r : IntakeRun) (now nominal : Nat) (mark : Mark) (root : List Byte) (slots : List SlotRec) (refusals : List (Request × Nat))
    (epoch : Nat) (quarantined : Bool) : WindowRec :=
  { index := r.window, openAt := r.openAt, closeAt := now, opened := r.mark, closed := mark, closeNominal := nominal, root := root, epoch := epoch, slots := slots, refusals := refusals
    frames := [0, 0], released := false, quarantined := quarantined, setShipped := false, tagsSent := false
    compared := false, checks := 0, recheck := none, theirs := none
    stateRead := false, stateWritten := false, indexed := false }

/-- Count refusals by their status (R261). -/
def State.countRefusals (s : State) (c : Nat) (l : List (Request × Nat)) : State :=
  let n (k : Nat) : Nat := (l.filter fun x => x.2 == k).length
  let s := ((s.addAt R.ITK_CTX_REFUSE_CARRY c (n 3)).addAt R.ITK_CTX_REFUSE_FULL c (n 4)).addAt R.ITK_CTX_REFUSE_CLOSED c (n 6)
  let s := s.addAt R.ITK_CTX_REFUSE_DROPPED c (l.length - 256)
  if l = [] then s else s.wr R.ITK_EVENT_REFUSED 1

/-- At C_w, the count of the window's end by the plan, the window's set is sealed, admitted, carried or refused, and the next window
opens (R247 to R251). The last window before a close at a step boundary refuses what it does not admit, and no window opens after
it. -/
def State.closeWindow (s : State) (e : IntakeEntry) (r : IntakeRun) : State :=
  let c := e.ctx
  let w := r.window
  let a := s.pln.actAt
  let ends := r.openNominal + s.windowLen e w
  let at_ := s.tallyOf ends
  let taken (q : Request) : Bool := decide (a ≤ q.tally) &&
    ((decide (r.prevOpen ≤ q.tally) && decide (q.tally < r.openAt)) ||
      (s.opportunistic c && decide (r.openAt ≤ q.tally) && decide (q.tally < at_)))
  let new := r.arrivals.filter taken
  let adm := (admissionOrder (r.carried ++ new)).foldl (Admission.take w r.openAt e.slots e.chainSpan)
    ⟨[], [], r.pins.filter fun p => decide (w < p.2 + e.chainSpan + 8), 0⟩
  let last := match r.closeFrom with | some x => decide (x ≤ r.openAt) | none => false
  let (refused, carried) := sortCarries e last adm.rest
  let epoch := s.rdAt R.WGT_EPOCH_EPOCH c
  let slots := adm.slots.map (freshSlot epoch)
  let win := sealedWindow r at_ ends (s.endMark at_) (s.root64 R.WGT_ROOT_ACTIVE_ROOT c) slots (refused.take 256) epoch (s.quarantinedAt c w)
  let s := (s.countRefusals c refused).addAt R.ITK_CTX_COUNT_ADMITTED c slots.length
  let s := ((s.count (6048 + 3 * c) 1).count (6049 + 3 * c) slots.length).trace 5 (occField 9 c) 9 c c
  let s := (s.addAt R.ITK_CTX_COUNT_CARRIED c carried.length).addAt R.ITK_CTX_COUNT_MALFORMED c
    (adm.slots.filter Request.malformed).length
  let s := (List.range adm.early).foldl (fun s _ => s.choice R.GEN_CHOICE_KIND_ADMIT) s
  let win := { win with closed := s.endMark at_ }
  let s := s.writeCells e win
  s.setRun c { r with window := w + 1, prevOpen := r.openAt, openAt := at_, mark := s.mark, openNominal := ends
                      open_ := !last, closed := r.closed || last, arrivals := r.arrivals.filter fun q => !taken q && decide (r.openAt ≤ q.tally)
                      carried := carried, pins := adm.pins, windows := r.windows ++ [win] }

/-! ## Closing -/

/-- Intake of a context closes at once (R37, R167, R251): every request received and not yet released is answered with
SHUTDOWN. -/
def State.closeIntake (s : State) (c : Nat) : State :=
  match s.intake? c, s.run? c with
  | some e, some r =>
    if r.closed && r.windows.isEmpty && r.arrivals.isEmpty && r.carried.isEmpty then s
    else
      let s := r.windows.foldl (fun s w =>
        if w.released then s
        else w.slots.zipIdx.foldl (fun s x =>
          s.answerNow e x.1.req { refusal 9 w.index x.1.epoch with slot := x.2, stateSeq := x.1.stateSeq }) s) s
      let late := r.windows.filter fun w => !w.released
      let rest := (late.map fun w => w.refusals.map fun x => (x.1, w.index, w.epoch)).flatten
        ++ (r.carried ++ r.arrivals).map fun q => (q, r.window, s.rdAt R.WGT_EPOCH_EPOCH c)
      let s := rest.foldl (fun s q => s.answerNow e q.1 (refusal 9 q.2.1 q.2.2)) s
      let n := (late.map fun w => w.slots.length).sum + rest.length
      let s := s.addAt R.ITK_CTX_REFUSE_CLOSED c n
      s.setRun c { r with open_ := false, closed := true, arrivals := [], carried := []
                          windows := r.windows.filter WindowRec.released }
  | _, _ => s

/-- Intake of every context closes at once. -/
def State.closeIntakes (s : State) : State := (List.range 16).foldl State.closeIntake s

/-- Intake of a context closes at its step boundary `x` (R251): the window that opens there is the last. -/
def State.closeIntakeAt (s : State) (c x : Nat) : State :=
  match s.run? c with
  | some r => s.setRun c { r with closeFrom := some x }
  | none => s

/-! ## Rows -/

/-- Count a frame dropped because intake is closed or no plan is active (R240). -/
def State.closedDrop (s : State) (n : Nat) : State := (s.incAt R.ITK_PORT_DROP_CLOSED n).wr R.ITK_EVENT_CLOSED_DROP 1

/-- Discard a whole request frame (R240). -/
def State.headerDrop (s : State) (n : Nat) : State := (s.incAt R.ITK_PORT_COUNT_HDR_DROP n).wr R.ITK_EVENT_HDR_DROP 1

/-- The body of an intake frame after its EtherType, with the context's run open (R238 to R240). -/
def State.takeFrame (s : State) (n : Nat) (l : List Byte) (tally sixteenth : Nat) : State :=
  let c := beAt 2 1 l
  if !s.planActive then s.closedDrop n
  else match s.intake? c with
  | none => s.headerDrop n
  | some e =>
    let k := beAt 3 1 l
    match (if beAt 0 1 l = 1 ∧ beAt 1 1 l = 1 ∧ bit n e.portMask ∧ k ≠ 0 ∧ beAt 8 8 l = 0 ∧ 16 ≤ l.length then
        parseRecords k (l.drop 16) else none) with
    | none => s.headerDrop n
    | some recs =>
      match s.run? c with
      | none => s.closedDrop n
      | some r =>
        let after := match r.closeFrom with | some x => decide (x ≤ tally) | none => false
        if r.closed || after then s.closedDrop n
        else ((s.incAt R.ITK_PORT_COUNT_FRAMES n).count (6096 + n) 1).arrive c (s.requests e n (beAt 4 4 l) tally sixteenth recs)

/-- A PTP multicast address of the transport in force (R236). -/
def State.ptpMulticast (s : State) (a : Nat) : Bool :=
  let udp := s.on R.PTP_CFG_TRANSPORT
  a == ptpAddress udp false || a == ptpAddress udp true

/-- An IPv4 packet carries PTP (R236): UDP to port 319 or 320. -/
def ptpOverUdp (l : List Byte) : Bool :=
  let head := 4 * (beAt 0 1 l % 16)
  let port := beAt (head + 2) 2 l
  beAt 0 1 l / 16 == 4 && beAt 9 1 l == 17 && (port == 319 || port == 320)

/-- The ingress stamp at the medium boundary of a frame captured at a sixteenth of a tick (R237, R244), to a sixteenth, which is
10,000/19 ps. -/
def State.ingressStamp (s : State) (n tally sixteenth : Nat) : Nat × Nat :=
  let t := ((16 * tally + sixteenth) * 10000 - 19 * s.rdAt R.PTP_LAT_RX_PS n) / 10000
  (t / 16, t % 16)

/-- An ingest frame is received (R236 to R240): its bytes from the destination address to the FCS, whether the port received it
without a fault of its own (a frame cut short, or one with symbols that FEC could not correct, fails its FCS), and the capture of its
start. What a PTP frame does is the effect of the PTP rows. -/
def execIntakeFrameReceived (port : Fin 2) (frame : List Byte) (fcsOk : Bool) (tally : Nat) (sixteenth : Fin 16)
    (s : State) : Res :=
  let n := port.val
  let len := frame.length
  let tagged := beAt 12 2 frame = 0x8100
  let type := if tagged then beAt 16 2 frame else beAt 12 2 frame
  let body := (frame.take (len - 4)).drop (if tagged then 18 else 14)
  let dest := beAt 0 6 frame
  if s.intakeStill then .next s
  else if len < 64 ∨ 9216 < len then .next (s.incAt R.ITK_PORT_DROP_OTHER n)
  else if !fcsOk ∨ !fcsHolds frame then .next ((s.incAt R.ITK_PORT_COUNT_FCS_DROP n).wr R.ITK_EVENT_FCS_DROP 1)
  else if type = 0x8808 then .next ((s.incAt R.ITK_PORT_DROP_PAUSE n).wr R.ITK_EVENT_PAUSE_SEEN 1)
  else if dest ≠ s.rdAt R.ITK_PORT_MAC_MAC n ∧ !s.ptpMulticast dest then .next (s.incAt R.ITK_PORT_DROP_OTHER n)
  else if type = 0x88F7 ∨ (type = 0x0800 ∧ ptpOverUdp body) then .next s
  else if type ≠ 0x88B5 then .next (s.incAt R.ITK_PORT_DROP_OTHER n)
  else if beAt 6 6 frame ≠ s.rdAt R.ITK_PORT_PEER_MAC n then .next (s.incAt R.ITK_PORT_DROP_PEER n)
  else
    let stamp := s.ingressStamp n tally sixteenth
    .next (s.takeFrame n body stamp.1 stamp.2)

/-- An ingest port's link comes up (R425). -/
def execIngestLinkUp (port : Fin 2) (s : State) : Res :=
  if s.pwr.railsUp = 4 then
    let s := s.wrAt R.ITK_PORT_LINK_UP port 1
    .next (if s.rdAt R.PTP_PORT_STATE port = 1 then s.wrAt R.PTP_PORT_STATE port 4 else s)
  else .next s

/-- An ingest port loses signal (R425): LINK_UP clears. A frame partly received comes as a frame that fails its FCS. -/
def execIngestLinkDown (port : Fin 2) (s : State) : Res := .next (s.wrAt R.ITK_PORT_LINK_UP port 0)

/-- Take the ring entries from CONSUMER on (R252): each carries the stamp of the intake beat's first tick. An entry that holds no
record as R239 has it is passed over, and no count shows it (DESIGN CHOICE, log entry 137). -/
def State.ringTake (s : State) (e : IntakeEntry) (cons : Nat) : Nat → State
  | 0 => s
  | n + 1 =>
    let size := 2 ^ e.ringEntryLog2
    let i := (cons + n) % 2 ^ 32
    let s := s.ringTake e cons n
    match parseRecord (s.bytes (e.ringBase + 4096 + i % 2 ^ e.ringLog2 * size) size) with
    | none => s
    | some (id, key, op, len, bytes, _) =>
      s.arrive e.ctx (s.requests e 2 i s.now 0 [(id, key, op, len, bytes)])

/-- At an intake beat the die reads PRODUCER and takes the new entries (R252): an overrun faults the ring; with the link
Down it sees none (R366); intake closed, or closed from a count that has come, reads nothing (R167, R251). A ring's first CONSUMER and
RESP_PRODUCER under a plan are those that the registers hold (DESIGN CHOICE, log entry 152). -/
def execIntakeBeatRingRead (ctx : Fin 16) (s : State) : Res :=
  match s.intake? ctx, s.run? ctx with
  | some e, some r =>
    let shut : Bool := match r.closeFrom with | some x => decide (x ≤ s.now) | none => false
    if e.ring ∧ !r.closed ∧ !shut ∧ !s.onAt R.ITK_RING_FAULT ctx ∧ !s.ctxPaused ctx ∧
        s.ctxPos ctx % (16 * e.ringPeriod) = 0 then
      if !s.olicoUp then .next s.olicoLost
      else
        let s := s.dieReads 1
        let prod := s.le e.ringBase 4
        let cons := s.rdAt R.ITK_RING_CONSUMER ctx
        let n := (prod + 2 ^ 32 - cons) % 2 ^ 32
        if 2 ^ e.ringLog2 < n then
          .next (((s.wrAt R.ITK_RING_FAULT ctx 1).wr R.ITK_EVENT_RING_FAULT 1).contained 9 0x25 0 ctx 0 0)
        else
          let k := min n e.ringReadMax
          let s := (s.ringTake e cons k).dieReads (ceilDiv (k * 2 ^ e.ringEntryLog2) 128)
          .next ((s.wrAt R.ITK_RING_CONSUMER ctx ((cons + k) % 2 ^ 32)).setBytes (e.ringBase + 0x40)
            (leBytes 4 ((cons + k) % 2 ^ 32)))
    else .next s
  | _, _ => .next s

/-- ITK_RING.RESET clears FAULT and resumes reading at PRODUCER (R252, R261). With the Olico link Down the die cannot read PRODUCER, and
the ring resumes at the CONSUMER it holds (DESIGN CHOICE, log entry 138). -/
def execItkRingReset (ctx : Fin 16) (s : State) : Res :=
  match s.intake? ctx with
  | some e =>
    let prod := if s.olicoUp then s.le e.ringBase 4 else s.rdAt R.ITK_RING_CONSUMER ctx
    let s := if s.olicoUp then s.dieReads 1 else s.olicoLost
    .next ((s.wrAt R.ITK_RING_FAULT ctx 0).wrAt R.ITK_RING_CONSUMER ctx prod)
  | none => .next (s.wrAt R.ITK_RING_FAULT ctx 0)

/-! ### Release -/

/-- The tags of a window's results: those formed, and at release those of results whose bytes the tag path has not been
handed (R141, R146). -/
def State.formTags (s : State) (e : IntakeEntry) (w : WindowRec) : WindowRec :=
  let prov := bit e.ctx (s.rd R.GEN_PROV_EN)
  { w with slots := w.slots.zipIdx.map fun x =>
      if prov ∧ x.1.status = 0 ∧ !w.quarantined ∧ x.1.tag.isNone then
        { x.1 with tag := some (s.scoreTag e w x.1 (s.bytes (s.respCell e w.index x.2 + 0x60) e.resultLength)) }
      else x.1 }

/-- The records of a window for one way out: slots in order, then refusals (R259). -/
def State.windowRecords (s : State) (e : IntakeEntry) (w : WindowRec) (port : Nat) : List (List Byte) :=
  let slots := (w.slots.zipIdx.filter fun x => x.1.req.port == port).map fun x =>
    s.replyBytes x.1.req (s.slotReply e w x.2 x.1)
  slots ++ (w.refusals.filter fun x => x.1.port == port).map fun x => s.replyBytes x.1 (refusal x.2 w.index w.epoch)

/-- The records of response frame `f`. -/
def frameOf (e : IntakeEntry) (f : Nat) (l : List (List Byte)) : List (List Byte) := (l.drop (f * e.perFrame)).take e.perFrame

/-- All frames of a window have left. -/
def State.allSent (s : State) (e : IntakeEntry) (w : WindowRec) : Bool :=
  [0, 1].all fun p => frameOf e (w.frames.getD p 0) (s.windowRecords e w p) == []

/-- This module sends nothing for a context: the secondary of a Replica pair (R358) and a Mirror standby (R354). -/
def State.silent (s : State) (c : Nat) : Bool :=
  s.rdAt R.TWN_CTX_MODE c != 0 && s.on R.TWN_STATUS_ROLE_NOW && s.rd R.TWN_STATUS_STATE != 3

/-- A context's batches write stream state (R256). -/
def State.writesState (s : State) (c : Nat) : Bool :=
  match s.pln.active with
  | some p => p.memory.windows.any fun d => d.ctx == c && d.write && (match p.memory.regions[d.region]? with | some r => r.kind == 2 | none => false)
  | none => false

/-- Nothing is left to do for a window: it is released, its frames are sent, and its state is written. -/
def State.windowDone (s : State) (e : IntakeEntry) (w : WindowRec) : Bool :=
  w.released && (s.silent e.ctx || s.allSent e w) && (w.stateWritten || !s.writesState e.ctx)

/-- Put a window back among those not finished, or drop it once nothing is left to do. -/
def State.putWindow (s : State) (e : IntakeEntry) (r : IntakeRun) (w : WindowRec) : State :=
  if s.windowDone e w then s.setRun e.ctx { r with windows := r.windows.filter fun x => x.index != w.index }
  else s.setRun e.ctx { r with windows := r.windows.map fun x => if x.index = w.index then w else x }

/-- All blocks of an item have arrived (R351). -/
def itemWhole (x : TwinItem) : Bool := decide (x.count ≤ x.blocks.length)

/-- An item of a takeover is of a shipment received whole (R356): INDEX with its STATE, and STATE whose INDEX is whole too or applied. -/
def State.shipmentWhole (s : State) (x : TwinItem) : Bool :=
  let whole (kind : Nat) : Bool := s.twn.items.any fun y => y.kind == kind && y.ctx == x.ctx && y.window == x.window && itemWhole y
  itemWhole x && (match x.kind with
    | 2 => whole 3
    | 3 => whole 2 || decide (x.window < Tab.get 0 x.ctx s.twn.nextIndex)
    | _ => true)

/-- A takeover starts (R356): shipments incomplete now are discarded. -/
def State.startTakeover (s : State) : State :=
  if s.twn.takeoverAt.isSome then s
  else
    let late := (s.twn.items.filter fun x => !s.shipmentWhole x).length
    let t := { s.twn with items := s.twn.items.filter s.shipmentWhole, takeoverAt := some (s.now + s.rd R.TWN_CFG_TAKEOVER_LEAD) }
    { s with twn := t }.addAt R.TWN_DROP_LATE_ITEMS 0 late

/-- The partner is lost (R359): the primary goes on alone; a secondary with AUTO_TAKEOVER starts a takeover. -/
def State.partnerLost (s : State) : State :=
  if s.twn.lost ∨ s.rd R.TWN_STATUS_STATE ≠ 1 then s
  else
    let s := ({ s with twn := { s.twn with lost := true } }.wr R.TWN_STATUS_STATE 2).wr R.TWN_EVENT_LOST 1
    if s.on R.TWN_STATUS_ROLE_NOW && s.on R.TWN_CFG_AUTO_TAKEOVER then s.startTakeover else s

/-- A twin check of a window fails (R355, R358): one quantum with cause MISS, repeated by R313; with the last of MAX_HOLDS failed checks the
partner is lost, and no hold is requested. -/
def State.twinCheckFailed (s : State) (e : IntakeEntry) (r : IntakeRun) (w : WindowRec) : State :=
  let again := match s.job? 7 with | some j => j.recheckAt s.now 1 | none => s.now
  let w := { w with checks := w.checks + 1, recheck := some again }
  let s := s.setRun e.ctx { r with windows := r.windows.map fun x => if x.index = w.index then w else x }
  if s.rd R.TWN_CFG_MAX_HOLDS ≤ w.checks then s.partnerLost
  else ((s.inc R.TWN_COUNT_HOLDS).wr R.TWN_EVENT_HOLD 1).holdRequest 1 1

/-- The release of a gated Mirror window waits for its ACK while the pair holds (R355). -/
def State.gateShut (s : State) (c w : Nat) : Bool :=
  s.rdAt R.TWN_CTX_MODE c == 1 && s.onAt R.TWN_CTX_GATE c && s.rd R.TWN_STATUS_STATE == 1 && !s.on R.TWN_STATUS_ROLE_NOW
    && (match Tab.find? c s.twn.acked with | some a => decide (a < w) | none => true)

/-- The release of a Replica window waits for its comparison while the pair holds (R358). -/
def State.compareWaits (s : State) (c : Nat) (w : WindowRec) : Bool :=
  s.rdAt R.TWN_CTX_MODE c == 2 && s.rd R.TWN_STATUS_STATE == 1 && !w.compared && !w.quarantined

end Sys2Proof.Machine
end

