-- ==== Sys2Proof/Machine/Span.lean ====
section
/-! DEFINITION. The sequencer of a bench goes on and waits, its completion counters, and backfill spans (06_working_plan.md R164, R173;
04_sparsity_and_forks.md R117; 07_memory_tiers.md R201). -/

namespace Sys2Proof.Machine

open Sys2Proof

/-- The state of physical bench `b`. -/
def State.benchOf (s : State) (b : Nat) : Bench := match Tab.find? b s.bench with | some x => x | none => Bench.reset

/-- Set the state of physical bench `b`. -/
def State.setBench (s : State) (b : Nat) (x : Bench) : State := { s with bench := Tab.ins b x s.bench }

/-- The nominal position of the next beat boundary of the context at home on a bench. -/
def State.nextBeat (s : State) (b : Nat) : Nat := (s.ctxPos (s.homeOf b) / 16 + 1) * 16

/-- Completion counter `i` of physical bench `b` (R173). -/
def State.counter (s : State) (b i : Nat) : Nat := Tab.get 0 i (s.benchOf b).counters

/-- Set a completion counter. -/
def State.setCounter (s : State) (b i v : Nat) : State :=
  s.setBench b { s.benchOf b with counters := Tab.put 0 i v (s.benchOf b).counters }

/-- Cycles in a beat at an operating point (R12). -/
def beatCycles (point : Nat) : Nat := 256 - 32 * point

/-- The sequencer of a bench goes on from what it waited for. Past a boundary a beat of `c` cycles has gone by for the results of the
operations before it; a stall has outlasted them (R168; DESIGN CHOICE, log entry 5). -/
def Bench.goesOn (x : Bench) (c : Nat) : Bench :=
  let stalled : Bool := match x.wait with | .counter _ _ => true | .crossing _ => true | _ => false
  { x with wait := .no, cycle := 0
           flights := if stalled then [] else x.flights.map fun f => { f with due := f.due - c } }

/-- The sequencer of a bench issues again, its guest's bundles within a backfill span; one stopped by fault stays so (R173, R181). -/
def State.resume (s : State) (b : Nat) : State :=
  if s.rdAt R.BCH_SEQ_STATUS_STATE b = 5 then s
  else (s.setBench b ((s.benchOf b).goesOn (beatCycles (s.rdAt R.CLK_RGN_STATUS_OP_POINT (b / 33))))).wrAt R.BCH_SEQ_STATUS_STATE b
    (if (s.benchOf b).span.isSome then 4 else 1)

/-- A backfill span of `l` beats begins on a bench that has a guest (R117, R164): ⌊l ÷ U⌋ units run, from where the last one
stopped, and from `target` where none has; without an address, and where no unit fits, the bench idles. -/
def State.spanStarts (s : State) (b l : Nat) (target : Option Nat) (counter : Option (Nat × Nat)) (back : Nat) : State :=
  let x := s.benchOf b
  match (match s.logical? b with | some l => s.alloc? l | none => none), (match x.guestAt with | some a => some a | none => target) with
  | some a, some at_ =>
    let u := match s.planCtx? a.guest with | some g => g.backfill | none => 0
    if a.guestValid && decide (0 < u) && decide (u ≤ l) && s.ctxRunning a.guest then
      let s := s.setBench b { x.goTo at_ with span := some ⟨s.nominalTime + 16 * (l / u * u), counter, back⟩ }
      (s.wrAt R.BCH_SEQ_STATUS_CTX b a.guest).resume b
    else s
  | _, _ => s

/-- The guest's units of a span end: the guest goes on from here in a later span, and the home program waits as before (R117). -/
def State.spanEnds (s : State) (b : Nat) : State :=
  let x := s.benchOf b
  match x.span with
  | none => s
  | some y =>
    let wait : Waiting := match y.counter with | some (i, n) => .counter i n | none => .no
    let s := s.setBench b { x.goTo y.back with span := none, guestAt := some x.next, wait := wait }
    let s := s.wrAt R.BCH_SEQ_STATUS_CTX b (s.homeOf b)
    if s.rdAt R.BCH_SEQ_STATUS_STATE b = 5 then s
    else s.wrAt R.BCH_SEQ_STATUS_STATE b (if !s.ctxRunning (s.homeOf b) then 0 else if y.counter.isSome then 3 else 2)

/-- At a beat boundary a span whose last whole unit has passed ends, and the bench idles (R117). -/
def State.spanBeat (s : State) (b : Nat) : State :=
  match (s.benchOf b).span with
  | none => s
  | some y => if s.timeDue y.until_ then s.spanEnds b else s

/-- A completion counter rises by 1 as a receive binding completes, and a WAITC that it satisfies ends (R173, R305); a backfill
span in that wait ends with it (R201). -/
def State.bumpCounter (s : State) (b i : Nat) : State :=
  let n := s.counter b i + 1
  let s := s.setCounter b i n
  let s := match (s.benchOf b).span with
    | some y => if y.counter.any (fun (c : Nat × Nat) => c.1 == i && decide (c.2 ≤ n)) then s.spanEnds b else s
    | none => s
  match (s.benchOf b).wait with
  | .counter j m => if j = i ∧ m ≤ n ∧ s.rdAt R.BCH_SEQ_STATUS_STATE b = 3 then s.resume b else s
  | _ => s

end Sys2Proof.Machine
end

