-- ==== Sys2Proof/Machine/Stop.lean ====
section
/-! DEFINITION. How work stops: stretching and the current throttle (02_clocks_and_tally.md R45, R23), context reset, abort,
the end of a plan (06_working_plan.md R161, R162, R167), the reset domains (12_topology.md R346), Module-fatal errors
(15_faults_security_observation.md R384) and orderly shutdown (01_module_envelope.md R37). -/

namespace Sys2Proof.Machine

open Sys2Proof

/-! ## Stretching and throttle -/

/-- STRETCHING follows the three causes of R45. -/
def State.showStretch (s : State) (r : Nat) : State :=
  let on := s.clk.droop.contains r || (s.clk.throttle && r < 24) || s.onAt R.CLK_RGN_STATUS_TT_CRIT r
  let s := { s with clk := { s.clk with stretchSeen := if on then addOnce r s.clk.stretchSeen else s.clk.stretchSeen } }
  s.wrAt R.CLK_RGN_STATUS_STRETCHING r (flag on)

/-- Show the stretching of the bench regions. -/
def State.showStretches (s : State) : Nat → State
  | 0 => s
  | n + 1 => (s.showStretches n).showStretch n

/-- The current throttle is asserted (R23): stretching starts at the next beat boundary (R45). -/
def State.assertThrottle (s : State) : State :=
  ((s.wr R.PWR_STATUS_THROTTLE 1).wr R.PWR_EVENT_THROTTLE_SEEN 1).inc R.PWR_COUNT_THROTTLE

/-- The throttle releases, and with it the stretching it caused (R45). -/
def State.releaseThrottle (s : State) : State :=
  ({ s with clk := { s.clk with throttle := false } }.wr R.PWR_STATUS_THROTTLE 0).showStretches 24

/-- A hold request raised by the clocks, shown in CLK_HOLD_REQ (R47, R50, R61); one that is raised again for more quanta counts
once. -/
def State.clockHold (s : State) (quanta : Nat) (again : Bool) : State :=
  ((if again then s else s.inc R.CLK_HOLD_REQ_COUNT).wr R.CLK_HOLD_REQ_QUANTA quanta).holdRequest quanta 2

/-- A coolant sample (0.1 °C, mL/min) lies outside 15 °C to 40 °C or 3.0 to 6.0 L/min (R20). -/
def coolantOut (temp flow : Nat) : Bool := temp < 150 || 400 < temp || flow < 3000 || 6000 < flow

/-- A hold or replay span runs, which covers a fill (R33). -/
def State.covered (s : State) : Bool := s.timePaused

/-! ## Registers of a domain -/

/-- Return to its Reset column every register field whose CSR offset `p` selects, and discard what is pending for it. So
GEN_SEAL_STATUS.SEQ reads 0 from a die core reset until the next seal closes, though the series of R146 goes on (R148): DEDUCED, log
entry 117. -/
def State.resetRegs (s : State) (p : Nat → Bool) : State :=
  { s with csr := s.csr.filter fun (e : Nat × Nat) => !p (e.1 / 128)
           staged := s.staged.filter fun (e : Nat × Nat) => !p (e.1 / 128) }

/-- Discard pending values of Staged fields (R368). -/
def State.dropStaged (s : State) (p : Nat → Bool) : State :=
  { s with staged := s.staged.filter fun (e : Nat × Nat) => !p (e.1 / 128) }

/-- Return fields, all elements of their arrays, to their Reset column. -/
def State.clearFields (s : State) (l : List Field) : State :=
  { s with csr := s.csr.filter fun (e : Nat × Nat) => !(l.any fun f => e.1 % 128 == f.lo && f.owns (e.1 / 128)) }

/-! ## The end of a plan -/

/-- Registers that show the active plan (R180, R62, R148, R261). -/
def planFields : List Field :=
  [R.PLN_STATUS_CONTEXTS, R.PLN_CFG_LEVEL, R.PLN_CFG_OP_POINTS, R.PLN_CFG_HOLD_LEAD, R.PLN_CFG_HOLD_QUANTUM,
   R.PLN_ROLE_FORWARD_ONLY, R.PLN_ROLE_ROLE, R.PLN_ROLE_MODULES, R.PLN_ACTIVE_ID_ID, R.TAL_STEP_INDEX, R.TAL_STEP_POS_LEN,
   R.TAL_STEP_POS_POS, R.PWR_PLAN_LEVEL_W, R.GEN_PROV_EN, R.GEN_PROV_STRICT_REQ, R.GEN_PROV_WIN_INDEP, R.ITK_CFG_CONTEXTS,
   R.ITK_CFG_SEAL_TICKS, R.FRK_STATUS_FORKS, R.FRK_STATUS_GROUPS, R.FRK_STATUS_PENDING, R.WGT_CFG_TAG_ENGINES]

/-- The forwarding part of a schedule, which outlives the plan (R326). -/
def forwarding (h : HaulSchedule) : HaulSchedule :=
  { h with entries := h.entries.filter fun (e : Nat × SchedEntry) => e.2.type == .fwd || e.2.type == .detour }

/-- SEND and RECV entries and their states are cleared; the haul plane keeps forwarding for the job (R326). -/
def State.ownEntriesGone (s : State) : State :=
  let keep := s.sch.held.filter fun b => b.slot != 7 ||
    (match s.job? 7 with
      | some j => j.sched.routes.any fun r => r.route == b.data.route && !r.deliver
      | none => false)
  let s := { s with sch := { s.sch with recv := [], sends := [], withheld := [], leased := [], held := keep } }
  match s.job? 7 with
  | none => s
  | some j => (s.setJob 7 { j with sched := forwarding j.sched }).showEntries

/-- Swaps armed when their plan ends are discarded (R228). -/
def State.dropSwaps (s : State) : State :=
  (List.range 16).foldl (fun s c =>
    if s.onAt R.WGT_CTX_SWAP_ARMED c then
      (((s.wrAt R.WGT_CTX_SWAP_ARMED c 0).wrAt R.WGT_CTX_CLOSING c 0).wr R.WGT_EVENT_SWAP_DROPPED 1).dropChange 6 c
    else s) s

/-- The binding in use for a context (R220): of the active plan, or with none active of the staged plan once verified. -/
def State.binding? (s : State) (c : Nat) : Option Binding :=
  let of (p : Option Plan) : Option Binding := match p with | some p => p.bindings.find? fun b => b.ctx == c | none => none
  if s.planActive then of s.pln.active else if s.rd R.PLN_STATUS_STAGE = 2 then of s.pln.staged else none

/-- A load of context `c` fails (R223). -/
def State.loadFailed (s : State) (c code source shard : Nat) : State :=
  let s := ((s.wr R.WGT_LAST_FAIL_CODE code).wr R.WGT_LAST_FAIL_SOURCE source).wr R.WGT_LAST_FAIL_CONTEXT c
  let s := (s.wr R.WGT_LAST_FAIL_SHARD (if code = 6 ∨ code = 7 then shard else 0)).wrAt R.WGT_CTX_CODE c code
  (s.wr R.WGT_EVENT_LOAD_FAILED 1).fault 8 0x80 0 c code

/-- The flags of each context's binding in use show in WGT_CTX (R235). -/
def State.showBindings (s : State) : State :=
  (List.range 16).foldl (fun s c =>
    let (swap, writable) := match s.binding? c with | some b => (b.swap, b.writable) | none => (false, false)
    (s.wrAt R.WGT_CTX_SWAP c (flag swap)).wrAt R.WGT_CTX_WRITABLE c (flag writable)) s

/-- The copies of a context's shards for a load or a repair that `p` selects are over. -/
def State.dropCopies (s : State) (c : Nat) (repair : Bool) (p : Nat → Bool) : State :=
  { s with scr := { s.scr with jobs := s.scr.jobs.filter fun j =>
    match j.kind with | .copy _ x i r => !(x == c && r == repair && p i) | _ => true } }

/-- Weights once no plan is active (R220): Active returns to Loaded, Quarantined to Empty; sweeps, closing ones included,
end with the reserve they read through, and what a closing sweep has not read stays unconfirmed (DEDUCED, log entry 134). -/
def State.restWeights (s : State) : State :=
  (List.range 16).foldl (fun s c =>
    let w := s.wctx c
    let st := s.rdAt R.WGT_CTX_STATE c
    let w := { w with sweep := none, landSweep := none, closing := none, repairs := [], rise := false
                      active := if st = 4 then none else w.active }
    let s := ((s.setWctx c w).wrAt R.WGT_CTX_CLOSING c 0).dropCopies c true fun _ => true
    if st = 3 then s.wrAt R.WGT_CTX_STATE c 2 else if st = 4 then s.wrAt R.WGT_CTX_STATE c 0 else s) s

/-- No plan is active from here on: its contexts, programs, forks and intake are gone, and the registers that show it
return to their Reset column. The stash of a Stream Context Table goes with them, and the next activation begins with an empty one:
its image in memory stays as it is (DESIGN CHOICE, log entry 135). The index cache is emptied (DESIGN CHOICE, log entry 152). -/
def State.planGone (s : State) : State :=
  let s := (s.landAll.dropSwaps.restWeights).ownEntriesGone
  let p := { s.pln with active := none, stopArmed := false, draining := false, restarts := [], ctxs := [], rampDown := none
                        aborting := false, abortAt := none, resetting := [] }
  let s := { s with pln := p, itk := { State.reset.itk with frameSeq := s.itk.frameSeq }
                    twn := State.reset.twn, bench := [], frk := State.reset.frk
                    scr := { s.scr with windows := [], started := [], ahead := [], usedAhead := [], prefetched := [], reading := []
                                        unread := [], discarded := [], queue := [], missed := [] }
                    clk := { s.clk with flits := [], stalled := [] }
                    wgt := { s.wgt with quarantine := [], before := [] }
                    gen := { s.gen with closing := [], done := [], stepTags := [], retime := [], toReplace := [], subst := [] }
                    pwr := { s.pwr with stoppedPower := [], ramps := [], floors := [], switchStage := none, heldForks := [], endForks := [], fill := []
                                        shares := [] } }
  let s := (s.clearFields planFields).clearFields [R.PLN_ROOT_ROOT, R.PLN_CTX_CFG_BENCHES, R.PLN_CTX_CFG_UNIT,
    R.PLN_CTX_CFG_SPARE_EXT, R.PLN_CTX_CFG_RUNNING, R.PLN_CTX_CFG_DEFINED, R.PLN_CTX_CFG_FLAGS, R.PLN_CTX_STEP_INDEX,
    R.PLN_CTX_STEP_POS, R.PLN_SUBST_VALID, R.PLN_SUBST_TO, R.PLN_SUBST_FROM, R.PLN_SUBST_LOGICAL, R.PLN_SUBST_CROSS,
    R.FRK_TABLE_VALID, R.FRK_TABLE_NVAR_M1, R.FRK_TABLE_DECIDER_LOCAL, R.FRK_TABLE_CONTEXT, R.FRK_TABLE_F, R.FRK_TABLE_D,
    R.FRK_TABLE_K, R.FRK_TABLE_J, R.FRK_TABLE_DECIDER_BENCH, R.FRK_TABLE_DECIDER_MODULE, R.TOP_PORT_USE, R.TOP_PORT_BUNDLE]
  let s := s.clearFields [R.BCH_ID_LOGICAL, R.BCH_NUM_MODE_LEVEL, R.BCH_NUM_MODE_SR_USED, R.BCH_NUM_MODE_PAIR_USED,
    R.BCH_NUM_MODE_TREE_USED, R.BCH_SEQ_ENTRY_VALID, R.BCH_SEQ_ENTRY_ENTRY, R.BCH_SEQ_STATUS_STATE,
    R.GEN_SPARE_ACTIVE, R.PWR_STATUS_FILL, R.SCT_OCC_STASHED, R.ITK_CTX_STATUS_CARRIED, R.ITK_CTX_STATUS_OPEN, R.ITK_WINDOW_TICKS_TICKS, R.ITK_WINDOW_TICKS_PER_STEP, R.ITK_RELEASE_TICKS,
    R.ITK_RELEASE_RECORDS_PER_FRAME, R.ITK_RELEASE_CARRY_MAX, R.ITK_RELEASE_CHAIN_SPAN, R.ITK_RELEASE_FRAME_SPACING, R.TWN_STATUS_PORTS]
  (s.bar []).showBindings.showAct

/-- The detours of a plan end with it (R309), but that of a port that is down stays for the forwarding loads. -/
def State.detoursGone (s : State) : State :=
  (List.range 16).foldl (fun s p => if s.portUp p ∨ s.top.loads = [] then s.restorePort p else s) s

/-- Every sequencer stops: spans of backfill end, and a bench that has not stopped by fault is idle (R162, R181). -/
def State.idleBenches (s : State) : State :=
  let s := (s.bench.map Prod.fst).foldl State.spanEnds s
  (List.range 792).foldl (fun s b => if s.rdAt R.BCH_SEQ_STATUS_STATE b = 5 then s else s.wrAt R.BCH_SEQ_STATUS_STATE b 0) s

/-- All bench work of the active plan stops for good: the sequencers stop, the taper starts and every open span closes with PARTIAL
(R162). Work that has stopped already has no power in effect to taper (R31). -/
def State.stopWork (s : State) : State :=
  let w := s.benchPower
  (if w = 0 then s.endFill else s.endFill.startTaper w).idleBenches.closeSpans

/-- PLN_CTRL.ABORT takes effect at a beat boundary (R162). -/
def State.planAbort (s : State) : State :=
  if s.planActive then (s.stopWork.planGone).detoursGone.wr R.PLN_EVENT_ABORTED 1 else s

/-- The physical benches in use whose home is context `c`. -/
def State.benchesOf (s : State) (c : Nat) : List Nat :=
  ((List.range 768).filter fun l => match s.alloc? l with | some a => a.used && a.home == c | none => false).map s.physical

/-- The sequencers of a context stop (R167): its units on benches of other contexts end, and on its own benches a guest's span
runs on. -/
def State.stopBenches (s : State) (c : Nat) : State :=
  let guest := (s.bench.filter fun (e : Nat × Bench) => e.2.span.isSome && s.rdAt R.BCH_SEQ_STATUS_CTX e.1 == c).map Prod.fst
  let s := guest.foldl State.spanEnds s
  (s.benchesOf c).foldl (fun s b =>
    if s.rdAt R.BCH_SEQ_STATUS_STATE b = 5 ∨ (s.benchOf b).span.isSome then s else s.wrAt R.BCH_SEQ_STATUS_STATE b 0) s

/-- A context whose work has stopped counts in no power profile any more. -/
def State.powerStops (s : State) (c : Nat) : State :=
  { s with pwr := { s.pwr with stoppedPower := addOnce c s.pwr.stoppedPower, ramps := Tab.del c s.pwr.ramps } }

/-- The marks at which spans of a context were to close are dropped. -/
def State.forgetClosing (s : State) (c : Nat) : State := { s with gen := { s.gen with closing := Tab.del c s.gen.closing } }

/-- A context reset at a beat boundary (R167). Index changes that are resolved and not yet written stay, and the index windows write
them once the context runs again (DESIGN CHOICE, log entry 152). -/
def State.contextReset (s : State) (c : Nat) : State :=
  match s.ctx? c with
  | none => s
  | some r =>
    let watts := s.ctxWatts c
    let s := (s.setCtx c { r with running := false, drain := none }).wrAt R.PLN_CTX_CFG_RUNNING c 0
    let s := if watts = 0 then s else s.startTaper watts
    let s := (s.powerStops c).stopBenches c
    ((s.closeSpan c true).forgetClosing c).closeIntake c

/-! ## Reset domains -/

/-- Offsets that a die core reset returns to their Reset column (R367, R346, R404): OBS, GEN but its choice counts, BCH, FRK, HBM,
DTR, WGT but the epochs, ITK but port identity and links, SCT, TWN and PLN but the staged plan. -/
def dieOffset (off : Nat) : Bool :=
  (0x1A00000 ≤ off && off < 0x1B00000) || (off < 0x100000 && !(off == R.GEN_CHOICE_COUNT_COUNT.addr || off == R.GEN_CHOICE_KIND_ADMIT.addr))
    || (0x400000 ≤ off && off < 0x718000)
    || (0x800000 ≤ off && off < 0xE00000
      && !(off / 0x100000 == 12 && R.ITK_PORT_TAG_EN.addr ≤ off && off < R.ITK_PORT_MAC_MAC.addr + 0x10)
      && !(R.WGT_EPOCH_EPOCH.addr ≤ off && off < R.WGT_BAD_LAST.addr + 16 * R.WGT_BAD_LAST.stride))
    || (0x1500000 ≤ off && off < 0x1600000)
    || (0x1B00000 ≤ off && off < 0x1C00000 && off != R.PLN_STATUS_STAGE.addr && off != R.PLN_STAGED_ID_ID.addr)

/-- A field reads as it did in `old`. -/
def State.keepField (s old : State) (f : Field) (i : Nat) : State := s.wrAt f i (old.rdAt f i)

/-- What a memory has trained to and measures outlasts the reset of its registers (R205, R210, R211), and so does the bank
that each context's weights lie in (R226); before the reset the controllers place every stack and channel in self
refresh. -/
def State.keepMemories (s old : State) : State :=
  let s := (List.range 20).foldl (fun s i =>
    (((s.keepField old R.HBM_STACK_TEMP i).keepField old R.HBM_STACK_TRAINED i).wrAt R.HBM_STACK_TEMP_MAX i (old.rdAt R.HBM_STACK_TEMP i)).wrAt
      R.HBM_STACK_SELF_REFRESH i (old.rdAt R.HBM_STACK_PRESENT i)) s
  let s := (List.range 16).foldl (fun s i =>
    (((s.keepField old R.DTR_CHAN_TEMP i).keepField old R.DTR_CHAN_TRAINED i).wrAt R.DTR_CHAN_TEMP_MAX i (old.rdAt R.DTR_CHAN_TEMP i)).wrAt
      R.DTR_CHAN_SELF_REFRESH i (old.rdAt R.DTR_CHAN_PRESENT i)) s
  (List.range 16).foldl (fun s c => s.keepField old R.WGT_CTX_BANK c) s

/-- The tags that the die holds of batches not done join their spans and go to the Forester (R146): those of the windows and of the step
of each context, but for the failed attempt of a replay (R138). -/
def State.handHeld (s : State) : State :=
  (List.range 16).foldl (fun s c =>
    if s.sch.withheld.contains c then s
    else match s.run? c, s.ctx? c with
      | some r, _ => (r.windows.filter fun w => !w.released && !w.quarantined).foldl (fun s w =>
          let held := w.slots.filter fun x => x.tag.isSome
          if held = [] then s
          else s.batchDone c w.index w.openAt s.now w.opened s.mark w.root (held.filterMap SlotRec.tag) (held.map SlotRec.epoch)) s
      | none, some r =>
        let tags := match Tab.find? c s.gen.stepTags with | some l => l | none => []
        if tags = [] ∨ s.quarantinedAt c r.step then s
        else s.batchDone c r.step r.start s.now r.mark s.mark (s.root64 R.WGT_ROOT_ACTIVE_ROOT c) tags (tags.map fun _ => s.rdAt R.WGT_EPOCH_EPOCH c)
      | none, none => s) s

/-- The contexts with tags on the die: of batches done, of the step under way, or of window slots (R146). -/
def State.tagHolders (s : State) : List Nat :=
  s.gen.dieItems.filterMap ExportItem.tagOf ++ (s.gen.stepTags.filter fun (e : Nat × List (List Byte)) => e.2 != []).map Prod.fst
    ++ (s.itk.runs.filter fun (e : Nat × IntakeRun) => e.2.windows.any fun w => !w.released && w.slots.any fun x => x.tag.isSome).map Prod.fst

/-- A die core reset (R346, R205, R146, R162, R326): tags on the die are handed over, or lost with the Olico link Down, and the
spans they belong to stay unsealed; the other spans close with PARTIAL, the taper starts, no plan is active, and the registers of
the domain return to their Reset column. The staged plan keeps its verification state. -/
def State.dieCoreReset (s : State) : State :=
  let s := if s.olicoUp then
      let s := s.handHeld
      s.gen.dieItems.foldl State.exported s
    else s
  let lost := if s.olicoUp then [] else s.tagHolders
  let seals := if s.olicoUp then [] else s.gen.dieItems.filter fun x => match x with | .sealed _ => true | _ => false
  let s := { s with gen := { s.gen with spans := s.gen.spans.filter (fun (e : Nat × SealSpan) => !lost.contains e.1)
                                        dieItems := [] } }
  let cut := (s.wgt.ctxs.filter fun (e : Nat × WgtCtx) => e.2.load.isSome).map Prod.fst
  let dropped := (List.range 16).any fun c => s.onAt R.WGT_CTX_SWAP_ARMED c
  let wasActive := s.planActive
  let s := if wasActive then s.stopWork else s.closeSpans
  let stage := s.rd R.PLN_STATUS_STAGE
  let s := s.planGone
  let s := { s with pln := { State.reset.pln with staged := s.pln.staged }, wgt := { State.reset.wgt with since := s.wgt.since, settled := s.wgt.settled }
                    scr := { State.reset.scr with stageReady := s.scr.stageReady, jobs := s.scr.jobs.filter fun j => match j.kind with | .copy .. => false | _ => true }
                    gen := { State.reset.gen with seqs := s.gen.seqs, digests := s.gen.digests, unsigned := s.gen.unsigned, dieItems := seals
                                                  failed := s.gen.failed }
                    obs := State.reset.obs, pwr := { s.pwr with dieReset := true } }
  let s := ((s.resetRegs dieOffset).keepMemories s).clearFields [R.OLC_FOREMAN_STATE, R.OLC_FOREMAN_BEATS]
  let s := (s.wr R.PLN_STATUS_STAGE stage).showAct.showBindings
  let s := cut.foldl (fun s c => s.loadFailed c 9 0 0) (if dropped then s.wr R.WGT_EVENT_SWAP_DROPPED 1 else s)
  if wasActive then s.wr R.PLN_EVENT_ABORTED 1 else s

/-- A haul port loses its transmitters and state in a reset of its domain. -/
def State.portStopped (s : State) (p : Nat) : State :=
  let s := if s.portUp p then s.portDown p 5 else s
  (s.setPort p HaulPort.reset).emit (.dark p)

/-- Offsets that a haul-plane reset returns to their Reset column: CLK, TAL but the running count, PTP, HAUL, SCH, and
TOP but the number and epoch (R346, R341). -/
def haulOffset (off : Nat) : Bool :=
  (0x200000 ≤ off && off < 0x400000 && off != R.TAL_NOW_TICKS.addr) || (0xE00000 ≤ off && off < 0xF00000)
    || (0x1000000 ≤ off && off < 0x1100000) || (0x1200000 ≤ off && off < 0x1300000)
    || (0x1400000 ≤ off && off < 0x1500000 && off != R.TOP_MODULE_NUMBER.addr && off != R.TOP_DISC_EPOCH.addr)

/-- The actions of group 2 on the haul plane (R410): region PLLs lock, every enabled port enters Dark, and PTP time
starts, in holdover; nothing before that group is up. -/
def State.haulPlaneUp (s : State) : State :=
  if s.pwr.railsUp < 2 then s
  else
    let s := (List.range 16).foldl (fun s p =>
      if s.onAt R.HAUL_PORT_CTRL_ENABLE p ∧ !s.clk.neverLocked.contains (35 + p / 8) then s.setTrain p 1 else s) s
    let s := { s with ptp := { time := 0, running := true, past := [] } }
    s.wr R.PTP_STATUS_HOLDOVER 1

/-- Region PLLs that a rail group brings up lock at OP0 (R410). -/
def State.lockRegions (s : State) (l : List Nat) : State :=
  l.foldl (fun s r => if s.clk.neverLocked.contains r then s else s.wrAt R.CLK_RGN_STATUS_LOCK r 1) s

/-- A haul-plane reset (R346, R414): every port, CLK, TAL, PTP, SCH and TOP but number and epoch, leases and forwarding
loads, and with them the die core; then the group-2 actions of R410 run again. A module with a number is Assigned (R341). -/
def State.haulPlaneReset (s : State) : State :=
  let s := s.dieCoreReset
  let locked := (List.range 39).filter fun r => s.onAt R.CLK_RGN_STATUS_LOCK r
  let s := (List.range 16).foldl State.portStopped s
  let epoch := s.rd R.TOP_DISC_EPOCH
  let s := { s with clk := { State.reset.clk with neverLocked := s.clk.neverLocked }, sch := State.reset.sch, top := State.reset.top
                    haul := State.reset.haul, clocks := State.reset.clocks
                    tal := { State.reset.tal with running := s.tal.running } }
  let s := ((s.resetRegs haulOffset).wr R.TOP_DISC_EPOCH epoch).wr R.TOP_DISC_PATH_LEN 0
  (s.wr R.TOP_DISC_STATE (s.rd R.TOP_MODULE_ASSIGNED)).lockRegions locked |>.haulPlaneUp

/-! ## Orderly shutdown -/

/-- The die and its memories lose power (R37): only the Forester domain's state stays. -/
def State.dieOff (s : State) : State :=
  let z := State.reset
  let s := (List.range 16).foldl State.portStopped s
  let s := s.resetRegs fun off => !((0x100000 ≤ off && off < 0x200000) || (0x1600000 ≤ off && off < 0x1B00000))
  { s with clk := z.clk, tal := z.tal, ptp := z.ptp, haul := z.haul, sch := z.sch, pln := z.pln, top := z.top, wgt := z.wgt
           itk := z.itk, clocks := z.clocks, twn := z.twn, bench := z.bench, frk := z.frk, scr := z.scr
           gen := { z.gen with unsigned := s.gen.unsigned }
           mem := s.mem.filter fun (e : Host.Cell) => 0x0C0000000000 ≤ e.1 && e.1 < 0x0F0000000000
           pwr := { s.pwr with dieOn := false, railsUp := 0, railRamp := false, dieReset := true } }

/-- Steps 3 and 4 of orderly shutdown, once the taper has ended (R37): ports stop, die rails go down, the input stage
opens; the final spill starts (R392). -/
def State.taperEnded (s : State) : State :=
  if s.pwr.shutdown = .tapering then
    let s := s.startSpill true
    let s := s.dieOff
    let s := (s.wr R.OLC_STATUS_STATE 0).wr R.PWR_STATUS_PRECHARGE_DONE 0
    { s with pwr := { s.pwr with shutdown := .holdUp, stage := .off, holdupSwitch := true } }
  else s

/-- Input power is gone with the hold-up switch closed (R26, R34): the die loses its power, and the Forester domain runs on the
hold-up store until its write units have committed and its seals are signed. -/
def State.onHoldup (s : State) : State :=
  let s := if s.pwr.dieOn then s.dieOff else s
  let s := ((s.wr R.OLC_STATUS_STATE 0).wr R.PWR_STATUS_PRECHARGE_DONE 0).wr R.PWR_VIN_NOW 0
  let s := (s.wr R.PWR_STATUS_TAPER 0).wr R.PWR_STATUS_BAND 5
  { s with pwr := { s.pwr with shutdown := .holdUp, stage := .off, inputGone := true, tapers := [], fill := [], shares := []
                               normalCount := false, sagCount := false } }

/-- Every bench of the plan stops, and every context with it (R37). -/
def State.stopContexts (s : State) : State :=
  s.pln.ctxs.foldl (fun s (e : Nat × CtxRun) =>
    (((s.setCtx e.1 { e.2 with running := false }).wrAt R.PLN_CTX_CFG_RUNNING e.1 0).powerStops e.1).stopBenches e.1) s

/-- Orderly shutdown (R37): intake closes and is answered with SHUTDOWN, every open span closes with PARTIAL, the taper
starts; once begun it cannot be cancelled. Those spans end with the last batch released, and so do their TALLY_CLOSE and PTP_CLOSE
(DEDUCED, log entry 146). It runs from whatever stage of bring-up has been reached (R416): before the Forester domain
runs there is only the input stage to open. With the die off there is no bench power to taper and the later steps follow at once:
DESIGN CHOICE, log entry 126. -/
def State.orderlyShutdown (s : State) : State :=
  if s.pwr.shutdown ≠ .none then s
  else if !s.pwr.forester then
    { s with pwr := { s.pwr with shutdown := .off, stage := .off } }.wr R.PWR_STATUS_PRECHARGE_DONE 0
  else
    let s := s.closeIntakes.closeSpans
    let w := s.benchPower
    let s := ({ s with pwr := { s.pwr with shutdown := .tapering } }.wr R.PWR_STATUS_BAND 5).stopContexts
    if s.pwr.dieOn then s.endFill.startTaper w else s.taperEnded

/-- The Forester domain powers off apart from its standby section (R37): what it held is lost. -/
def State.foresterOff (s : State) : State :=
  let z := State.reset
  let s := s.resetRegs fun off => 0x1600000 ≤ off && off < 0x1B00000
  let s := s.wr R.PWR_STATUS_BAND s.inputBand
  { s with fst := z.fst, olc := z.olc, flt := z.flt, rrc := z.rrc, obs := z.obs, gen := z.gen, mem := []
           pwr := { s.pwr with forester := false, holdupSwitch := false, shutdown := .off, units := [] } }

/-- The SEC registers show the fuses and the key store (R407). -/
def State.showSecurity (s : State) : State :=
  let s := ((s.wr R.SEC_STATUS_ROLLBACK s.nv.rollback).wr R.SEC_STATUS_NEXT_IMAGE s.nv.nextImage).wr R.SEC_STATUS_OWNED (flag s.nv.owned)
  let s := s.wr R.SEC_OWNER_SEQ_SEQ s.nv.ownerSeq
  let s := s.nv.keys.zipIdx.foldl (fun s k => (s.wrAt R.SEC_KEY_EPOCH k.2 k.1.fuses).wrAt R.SEC_KEY_VALID k.2 (flag k.1.valid)) s
  s.nv.anchors.zipIdx.foldl (fun s a =>
    match a.1 with
    | some x => (s.wrAt R.SEC_ANCHOR_VALID a.2 1).wrAt R.SEC_ANCHOR_ROLE a.2 (flag x.auditor)
    | none => (s.wrAt R.SEC_ANCHOR_VALID a.2 0).wrAt R.SEC_ANCHOR_ROLE a.2 0) s

/-- BOOT_NONCE is drawn at module reset (R145); it is a free value. -/
def State.drawNonce (s : State) : State :=
  ((s.wrAt R.SEC_BOOT_NONCE_NONCE 0 (Config.bootNonce s.fresh 0)).wrAt R.SEC_BOOT_NONCE_NONCE 1 (Config.bootNonce s.fresh 1)).drawn

/-- Module reset (R16, R346): everything starts at its Reset column but the non-volatile stores; the input stays as it is
and the standby section runs on, and with it the cause of the last shutdown (R38). -/
def State.moduleReset (s : State) : State :=
  let z := State.reset
  let v := s.rd R.PWR_VIN_NOW
  let r := { z with nv := s.nv, sent := s.sent, fresh := s.fresh, pending := s.pending
                    pwr := { z.pwr with standby := s.pwr.standby, normalCount := s.pwr.normalCount, bandInhibit := s.pwr.bandInhibit } }
  let r := ((r.wr R.PWR_VIN_NOW v).wr R.PWR_VIN_MIN v).wr R.PWR_VIN_MAX v
  let r := (r.wr R.PWR_STATUS_OV (s.rd R.PWR_STATUS_OV)).wr R.PWR_EVENT_SHUTDOWN_OV (s.rd R.PWR_EVENT_SHUTDOWN_OV)
  let r := r.wr R.PWR_EVENT_SHUTDOWN_SAG (s.rd R.PWR_EVENT_SHUTDOWN_SAG)
  let r := r.wr R.PWR_STATUS_BAND r.inputBand
  (r.wr R.PWR_STATUS_NV_INHIBIT (flag s.pwr.bandInhibit)).showSecurity.drawNonce

/-- Input power is removed (R26): everything but the non-volatile stores is lost. -/
def State.powerLost (s : State) : State :=
  ({ State.reset with nv := s.nv, sent := s.sent, fresh := s.fresh, pending := s.pending }).showSecurity.drawNonce

/-- A write unit commits (R34). -/
def State.commitUnit (s : State) (u : UnitJob) : State :=
  match u with
  | .other _ => s
  | .spill r => s.spillCommitted r
  | .eraseSpill => { s with nv := { s.nv with spill := s.nv.spill.drop 16 } }
  | .firmware i off bytes =>
    let img := s.nv.images.getD i ⟨[], 0⟩
    let put := bytes.zipIdx.foldl (fun (t : Tab Byte) b => Tab.ins (off + b.2) b.1 t) img.bytes
    { s with nv := { s.nv with images := s.nv.images.set i { img with bytes := put } } }
  | .journal k =>
    { s with nv := { s.nv with keys := s.nv.keys.zipIdx.map fun p => if p.2 = k then { p.1 with epoch := p.1.fuses } else p.1 } }

/-! ## Module-fatal errors -/

/-- The REPLAY notice with code 0x0D for the current step, naming every context of the plan active in `old`, goes to its hold tree
(R384). -/
def State.fatalNotice (s old : State) : State :=
  match old.pln.active, old.job? 7 with
  | some p, some j =>
    let n : Notice := { plan := j.plan, point := j.pointAt s.now, step := j.step, requester := s.number, arg := p.mask
                        code := 0x0D, attempt := j.attempt + 1, origin := s.now }
    (s.inc R.SCH_NOTICE_COUNT_SENT).sendAll 2 true n.encode j.neighbours
  | _, _ => s

/-- Raise a Module-fatal error (R384): the plan stops and the taper starts as the die core is reset, peers are told, the die core
is held in reset, the haul plane is reset for a cause in its domain, and codes 0x40 and 0x44 bring orderly shutdown. -/
def State.moduleFatal (s : State) (source code field unit : Nat) : State :=
  let s := s.raiseErr ⟨.moduleFatal, source, code, field, 0, unit, 0⟩
  let s := (s.dieCoreReset.fatalNotice s).wr R.FLT_STATUS_DIE_HELD 1
  let s := if code = 0x43 ∨ (code = 0x42 ∧ (source = 2 ∨ source = 3 ∨ source = 13 ∨ source = 14)) then s.haulPlaneReset else s
  if code = 0x40 ∨ code = 0x44 then s.orderlyShutdown else s

end Sys2Proof.Machine
end

