-- ==== Sys2Proof/Machine/Store.lean ====
section
/-! DEFINITION. Benches (03_bench_arithmetic.md R63, R88, R89; 06_working_plan.md R168, R173; 15_faults_security_observation.md
R383): the state of a bench, its store and its counters, and the errors it raises. -/

namespace Sys2Proof.Machine

open Sys2Proof

/-- A late entry of the region of a physical bench, whose stall of `cycles` adds to the region's deficit (R44, R47). -/
def State.lateBench (s : State) (b cycles : Nat) : State :=
  let r := benchRegion b
  let s := { s with clk := { s.clk with late := Tab.put 0 r (Tab.get 0 r s.clk.late + cycles) s.clk.late } }
  (s.incAt R.CLK_RGN_COUNT_LATE r).wr R.CLK_EVENT_LATE_ENTRY 1

/-- A bench fails (R383): its sequencer stops by fault, Contained 0x28 is recorded, and it waits for a substitution. -/
def State.benchFails (s : State) (b : Nat) : State :=
  if b ∈ s.gen.failed then s
  else
    let s := { s with gen := { s.gen with failed := addOnce b s.gen.failed, toReplace := addOnce b s.gen.toReplace } }
    (s.wrAt R.BCH_SEQ_STATUS_STATE b 5).contained 4 0x28 (benchField b) (s.homeOf b) b 0

/-- Whether a bench is named in a list with a time less than FLT_CFG.BENCH_MS ago. -/
def State.twice (s : State) (b : Nat) (l : List (Nat × Nat)) : Bool :=
  l.any fun e => e.1 == b && decide (s.now ≤ e.2 + msTicks (s.rd R.FLT_CFG_BENCH_MS))

/-- A bench raises code 0x01, 0x02 or 0x03 (R383): the second within BENCH_MS fails it. -/
def State.noteBenchErr (s : State) (b : Nat) : State :=
  let again := s.twice b s.flt.benchErrs
  let s := { s with flt := { s.flt with benchErrs := (b, s.now) :: s.flt.benchErrs.filter (·.1 != b) } }
  if again then s.benchFails b else s

/-- A bench's sequencer stops by fault at a bundle with a code of BCH_SEQ_FAULT (R181, R383): the second within BENCH_MS
fails it. -/
def State.seqFault (s : State) (b code pc : Nat) : State :=
  let again := s.twice b s.flt.benchStops
  let s := { s with flt := { s.flt with benchStops := (b, s.now) :: s.flt.benchStops.filter (·.1 != b) } }
  let s := (s.wrAt R.BCH_SEQ_FAULT_CODE b code).wrAt R.BCH_SEQ_FAULT_PC b pc
  let s := s.wrAt R.BCH_SEQ_STATUS_STATE b 5
  if again then s.benchFails b else s

/-- A Step-fatal error raised by a bench for its home context. -/
def State.benchFatal (s : State) (b code info : Nat) : State :=
  (s.stepFatal 4 code (benchField b) b info (2 ^ s.homeOf b)).noteBenchErr b

/-- A word of bench store is found with one bit in error, and corrected (R88, R89). -/
def State.storeCorrected (s : State) (b a : Nat) : State :=
  let s := (s.incAt R.BCH_ECC_COUNT_CORR b).wrAt R.BCH_NUM_EVENT_ECC_CORR b 1
  let s := (s.wrAt R.BCH_ECC_ADDR_UNCORR b 0).wrAt R.BCH_ECC_ADDR_ADDR b (a / 8 * 8)
  s.corrected 4 0x60 (benchField b) (s.homeOf b) b (a / 8 * 8)

/-- A word of bench store is found with two bits in error (R88, R89). -/
def State.storeUncorrectable (s : State) (b a : Nat) : State :=
  let s := (s.incAt R.BCH_ECC_COUNT_UNCORR b).wrAt R.BCH_NUM_EVENT_ECC_UNCORR b 1
  let s := (s.wrAt R.BCH_ECC_ADDR_UNCORR b 1).wrAt R.BCH_ECC_ADDR_ADDR b (a / 8 * 8)
  s.benchFatal b 0x01 (benchBase b + a / 8 * 8)

/-- What a read of bench store does beside giving its bytes: each word that its code corrects and each that it cannot is
recorded; where one cannot, nothing else of the operation happens (R88, R138). -/
def State.readStore (s : State) (b : Nat) (ecc : Ecc) : State × Bool :=
  (ecc.uncorr.foldl (fun s a => s.storeUncorrectable b a) (ecc.corr.foldl (fun s a => s.storeCorrected b a) s), ecc.uncorr.isEmpty)

/-- One unit of scrub pass `key`, of `n` units read in ascending order (R88, R209; log entry 113): with the state, which unit it is, and
the length in ticks of the pass that it completes. -/
def State.scrubNext (s : State) (key n : Nat) : State × Nat × Option Nat :=
  let (k, from_) := match Tab.find? key s.scr.scrub with | some x => x | none => (0, s.now)
  if k + 1 < n then ({ s with scr := { s.scr with scrub := Tab.ins key (k + 1, from_) s.scr.scrub } }, k, none)
  else ({ s with scr := { s.scr with scrub := Tab.del key s.scr.scrub } }, k, some (s.now - from_))

end Sys2Proof.Machine
end

