-- ==== Sys2Proof/Machine/Forks.lean ====
section
/-! DEFINITION. Forks (04_sparsity_and_forks.md R106, R107, R109 to R113, R119, R120): the decision held, its latching, the
checks at D and K, and the return at J. -/

namespace Sys2Proof.Machine

open Sys2Proof

/-- Set a fork's run. -/
def State.setFork (s : State) (n : Nat) (r : ForkRun) : State :=
  { s with frk := { s.frk with forks := Tab.ins n r s.frk.forks } }

/-- At least one fork lies between its F and its K (R120). -/
def State.showPending (s : State) : State :=
  let forks := match s.pln.active with | some p => p.forks | none => []
  s.wr R.FRK_STATUS_PENDING (flag (forks.any fun f =>
    s.ctxRunning f.ctx && decide (f.f ≤ s.ctxPos f.ctx) && decide (s.ctxPos f.ctx < f.k)))

/-- The context of a fork is between its K and its J (R113). -/
def State.inRegion (s : State) (f : ForkPoint) : Bool := decide (f.k ≤ s.ctxPos f.ctx) && decide (s.ctxPos f.ctx < f.j)

/-- A fork has its variant in force: it has committed, between K and J (R113). -/
def State.variantRuns (s : State) (f : ForkPoint) : Bool := (s.forkRun f.number).committed && s.inRegion f

/-- An entry of context `c` acts: one of a fork region between K and J under the latched variant, and one of the common schedule
outside every fork region (R113, R192, R299). -/
def State.variantActive (s : State) (c : Nat) (fork : Option Nat) (variants : Nat) : Bool :=
  match fork with
  | none =>
    let forks := match s.pln.active with | some p => p.forks | none => []
    !(forks.any fun f => f.ctx == c && s.inRegion f)
  | some n =>
    match s.fork? n, (s.forkRun n).word with
    | some f, some w => s.variantRuns f && bit (variantOf f w) variants
    | _, _ => false

/-- Latch a decision word on its first valid copy (R112): the arrival tick, the word and the variant show in
FRK_FORK_STATUS. -/
def State.latchDecision (s : State) (f : ForkPoint) (word : Nat) : State :=
  let n := f.number
  let s := (s.setFork n { s.forkRun n with word := some word }).trace 1 7 5 n f.ctx
  let s := (s.wrAt R.FRK_FORK_STATUS_DECISION n word).wrAt R.FRK_FORK_STATUS_ARRIVAL n (s.ctxPos f.ctx)
  let s := s.wrAt R.FRK_FORK_STATUS_VARIANT n (variantOf f word)
  let s := (s.benchesOf f.ctx).foldl (fun s b => s.wrAt R.BCH_SEQ_STATUS_VARIANT b (variantOf f word)) s
  if word % 8 < f.variants then s else (s.inc R.FRK_COUNT_CLAMPED).wr R.FRK_EVENT_CLAMPED 1

/-- A header or decision message is discarded (R107, R119). -/
def State.staleHeader (s : State) : State := (s.inc R.FRK_COUNT_STALE).wr R.FRK_EVENT_STALE 1

/-- A 16-byte slot header without its CRC (R106). -/
def slotHeader (kind group slot step token : Nat) : List Byte :=
  beBytes 12 (kind % 16 * 2 ^ 92 + group % 4096 * 2 ^ 80 + slot % 65536 * 2 ^ 64 + step % 2 ^ 32 * 2 ^ 32 + token % 2 ^ 32)

/-- A whole slot header, most significant byte first (R106). -/
def slotBytes (kind group slot step token : Nat) : List Byte :=
  slotHeader kind group slot step token ++ beBytes 4 (crc32c (slotHeader kind group slot step token))

/-- The CRC of a received slot header holds (R106). -/
def headerOk (h : List Byte) : Bool := h.length == 16 && beAt 12 4 h == crc32c (h.take 12)

/-- Bits [31:0] of the step index of a context (R106). -/
def State.step32 (s : State) (c : Nat) : Nat := match s.ctx? c with | some r => r.step % 2 ^ 32 | none => 0

/-- A copy of a decision arrives (R112, R119): the first valid one is latched, a later one that differs is a
disagreement, and an invalid one is discarded and counted. -/
def execForkDecisionReceived (header : Nat) (s : State) : Res :=
  let h := beBytes 16 header
  let word := beAt 8 4 h
  match (if headerOk h ∧ beAt 0 1 h / 16 = 3 then s.fork? (beAt 0 2 h % 4096) else none) with
  | none => .next s.staleHeader
  | some f =>
    if s.ctxRunning f.ctx ∧ beAt 4 4 h = s.step32 f.ctx then
      match (s.forkRun f.number).word with
      | none => .next (s.latchDecision f word)
      | some w =>
        if w = word then .next s
        else .next ((s.wr R.FRK_EVENT_DISAGREE 1).stepFatal 5 0x06 7 f.number word (2 ^ f.ctx))
    else .next s.staleHeader

/-- A fork check is due: at D, and after a failed check at the moved D, which lies as many ticks behind as the step has taken hold ticks,
holds included (R119, R313). -/
def State.forkDue (s : State) (f : ForkPoint) : Bool :=
  s.ctxRunning f.ctx && (match (s.forkRun f.number).recheck with
    | some h =>
      let (began, held) := s.attemptSpan f.ctx
      decide (h < held) && decide (began + f.d + held ≤ s.now)
    | none => s.due f.ctx f.d)

/-- At D, and at a moved D, the participant checks that it holds a decision (R119). -/
def execForkDeadlineCheck (fork : Fin 4096) (s : State) : Res :=
  let n := fork.val
  match s.fork? n with
  | none => .next s
  | some f =>
    let r := s.forkRun n
    if s.forkDue f ∧ !r.committed then
      if r.word.isSome then
        .next (if r.holds = 0 then (s.wrAt R.FRK_FORK_STATUS_LATE n 0).wrAt R.FRK_FORK_STATUS_HOLDS n 0 else s)
      else
        let s := ((s.inc R.FRK_COUNT_LATE).wr R.FRK_EVENT_LATE 1).wrAt R.FRK_FORK_STATUS_LATE n 1
        if s.rd R.FRK_CTRL_MAX_HOLDS ≤ r.holds then
          .next ((s.wr R.FRK_EVENT_LOST 1).stepFatal 5 0x05 7 n 0 (2 ^ f.ctx))
        else
          let s := s.setFork n { r with holds := r.holds + 1, recheck := some (s.attemptSpan f.ctx).2 }
          let s := (s.inc R.FRK_COUNT_HOLDS).wrAt R.FRK_FORK_STATUS_HOLDS n (r.holds + 1)
          .next (s.holdRequest 1 3)
    else .next s

/-- At K a bench that waits in FORK continues at the stub of the variant (R173). -/
def State.forkTaken (s : State) (b n v : Nat) : State :=
  match (s.benchOf b).wait with
  | .fork k target =>
    if k = n then (s.setBench b { (s.benchOf b).goTo (target + 8 * v) with beatEnd := s.nextBeat b }).resume b else s
  | _ => s

/-- At E_v a bench that a BKFL has readied runs its guest's units until J, or idles (R117, R164, R173). -/
def State.backfillStarts (s : State) (f : ForkPoint) (e b : Nat) : State :=
  match (s.benchOf b).backfill with
  | some (k, target, back) => if k = f.number then s.spanStarts b ((f.j - e) / 16) (some target) none back else s
  | none => s

/-- At J a bench in backfill returns to its home schedule at the address that BKFL gave (R113, R173). -/
def State.backfillEnds (s : State) (b n : Nat) : State :=
  match (s.benchOf b).backfill with
  | some (k, _, back) =>
    if k = n then
      let s := s.spanEnds b
      (s.setBench b { (s.benchOf b).goTo back with backfill := none, beatEnd := s.nextBeat b }).resume b
    else s
  | none => s

/-- The variant of a fork can be taken: its K has come, and it has not committed. -/
def State.commitDue (s : State) (f : ForkPoint) : Bool :=
  s.ctxRunning f.ctx && s.due f.ctx f.k && decide (s.ctxPos f.ctx < f.j) && !(s.forkRun f.number).committed

/-- At K the variant of the decision word held takes effect on sequencers, haul schedule and scripts (R113). -/
def State.commitFork (s : State) (f : ForkPoint) (w : Nat) : State :=
  let n := f.number
  let v := variantOf f w
  let s := (s.setFork n { s.forkRun n with committed := true, ended := false }).trace 1 7 5 n f.ctx
  let s := (s.benchesOf f.ctx).foldl (fun s b => s.forkTaken b n v) s
  (s.wrAt R.FRK_VARIANT_COUNT_COUNT v (s.rdAt R.FRK_VARIANT_COUNT_COUNT v + 1)).showPending

/-- At E_v the variant ends: backfill or idle runs until J (R113, R117). -/
def State.endVariant (s : State) (f : ForkPoint) : State :=
  match (s.forkRun f.number).word with
  | none => s
  | some w =>
    let e := f.ends.getD (variantOf f w) f.j
    if (s.forkRun f.number).committed ∧ !(s.forkRun f.number).ended ∧ s.due f.ctx e then
      let s := s.setFork f.number { s.forkRun f.number with ended := true }
      (s.benchesOf f.ctx).foldl (fun s b => s.backfillStarts f e b) s
    else s

/-- At J every participant returns to the common schedule (R113): benches in backfill issue again. -/
def State.rejoinFork (s : State) (f : ForkPoint) : State :=
  if (s.forkRun f.number).committed ∧ s.due f.ctx f.j then
    let s := s.setFork f.number { s.forkRun f.number with committed := false, ended := true }
    (s.benchesOf f.ctx).foldl (fun s b => s.backfillEnds b f.number) s
  else s

/-- A beat boundary takes the variants, ends and rejoins whose positions it is, in the same beat boundary on sequencers, haul schedule and
memory scripts (R113): whether their own commands come before it or after, they take effect once. -/
def State.forksBeat (s : State) : State :=
  let forks := match s.pln.active with | some p => p.forks | none => []
  forks.foldl (fun s f =>
    let s := (s.endVariant f).rejoinFork f
    match (s.forkRun f.number).word with
    | some w => if s.commitDue f then s.commitFork f w else s
    | none => s) s

/-- At K the variant takes effect on sequencers, haul schedule and scripts; without a decision it is a Step-fatal error,
"variant not armed" (R113, R119). -/
def execForkCommit (fork : Fin 4096) (s : State) : Res :=
  let n := fork.val
  match s.fork? n with
  | none => .next s
  | some f =>
    if s.commitDue f then
      match (s.forkRun n).word with
      | none =>
        let s := (s.benchesOf f.ctx).foldl (fun s b => s.seqFault b 3 (s.rdAt R.BCH_SEQ_STATUS_PC b)) s
        .next ((s.wr R.FRK_EVENT_NOT_ARMED 1).stepFatal 5 0x04 7 n 0 (2 ^ f.ctx))
      | some w => .next (s.commitFork f w)
    else .next s

/-- At E_v the variant ends: backfill or idle runs until J (R113, R117). -/
def execForkVariantEnd (fork : Fin 4096) (s : State) : Res :=
  match s.fork? fork.val with | some f => .next (s.endVariant f) | none => .next s

/-- At J every participant returns to the common schedule (R113): benches in backfill issue again. -/
def execForkRejoin (fork : Fin 4096) (s : State) : Res :=
  match s.fork? fork.val with | some f => .next (s.rejoinFork f) | none => .next s

end Sys2Proof.Machine
end

