-- ==== Sys2Proof/Machine/Mesh.lean ====
section
/-! DEFINITION. Mesh transfers, data from I/O regions, and the crossings between clock regions (02_clocks_and_tally.md R42 to R44; 06_working_plan.md
R171): flits enter a crossing at their nominal entry tick, are released to the reader L ticks later, and fill it to its depth. -/

namespace Sys2Proof

open Machine

/-- A mesochronous retimer joins two bench regions of one field; every other crossing is an asynchronous queue (R42). -/
def Crossing.retimer (x : Crossing) : Bool := decide (x.writer < 24) && decide (x.reader < 24) && x.writer / 4 == x.reader / 4

/-- The release latency L in ticks (R42). -/
def Crossing.latency (x : Crossing) : Nat := if x.retimer then 2 else 4

/-- The depth in flits of 512 bits (R42). -/
def Crossing.depth (x : Crossing) : Nat := if x.retimer then 32 else 64

/-- The key of a crossing among those at which a sequencer stalls. -/
def Crossing.key (x : Crossing) : Nat := 64 * x.writer + x.reader

/-- The flits of 512 bits of a route's buffer. -/
def MeshRoute.flits (r : MeshRoute) : Nat := ceilDiv r.length 64

/-- The counts of a route before any flit has moved. -/
def MeshRoute.start (r : MeshRoute) : List Nat := if r.crossings = [] then [r.flits] else List.replicate (r.crossings.length + 1) 0

end Sys2Proof

namespace Sys2Proof.Machine

open Sys2Proof

/-- The mesh routes of the active plan at the operating point in force (R152). -/
def State.meshRoutes (s : State) : List MeshRoute :=
  match s.pln.active with
  | some p => p.routes.filter fun r => r.point == s.pointFor p
  | none => []

/-- Mesh route `id` of the logical bench that physical bench `b` serves. -/
def State.meshRoute? (s : State) (b id : Nat) : Option MeshRoute :=
  match s.logical? b with
  | some l => List.find? (fun (r : MeshRoute) => r.source == l && r.id == id) s.meshRoutes
  | none => none

/-- Flits that a region writes into one crossing in a tick at its operating point (R43, R49). -/
def State.regionRate (s : State) (writer : Nat) : Nat := 8 - s.rdAt R.CLK_RGN_STATUS_OP_POINT writer

/-- Flits that a crossing carries in a tick. -/
def State.flitRate (s : State) (x : Crossing) : Nat := s.regionRate x.writer

/-- Of `n` flits, those whose turn comes at or before position `pos` when the first is at `at_` and `rate` follow in a tick. -/
def flitsBy (n rate at_ pos : Nat) : Nat := if pos < at_ then 0 else min n ((pos - at_ + 1) * rate)

/-- The flits that a crossing holds: of every route under way through it, those that have entered it and not left it. -/
def State.occupancy (s : State) (x : Crossing) : Nat :=
  (s.clk.flits.map fun (e : Nat × List Nat) =>
    match s.meshRoute? (e.1 / 256) (e.1 % 256) with
    | none => 0
    | some r => (r.crossings.zipIdx.map fun (y : Crossing × Nat) =>
        if y.1.key = x.key then e.2.getD y.2 0 - e.2.getD (y.2 + 1) 0 else 0).sum).sum

/-- Every flit of a transfer has left its last crossing: the whole buffer has reached the receiving bench. -/
def State.meshArrived (s : State) (b id : Nat) (r : MeshRoute) : Bool :=
  match Tab.find? (256 * b + id) s.clk.flits with
  | some l => decide (r.flits ≤ l.getD r.crossings.length 0)
  | none => false

/-- A crossing stalls one of its sides (R44). -/
def State.stallKey (s : State) (key : Nat) : State := { s with clk := { s.clk with stalled := addOnce key s.clk.stalled } }

/-- A sequencer stalls at a crossing: its writer's where the crossing is full, its reader's where the flit is absent (R44). -/
def State.stallAt (s : State) (key b : Nat) : State :=
  let s := s.stallKey key
  if s.rdAt R.BCH_SEQ_STATUS_STATE b = 1 ∨ s.rdAt R.BCH_SEQ_STATUS_STATE b = 4 then
    (s.setBench b { s.benchOf b with wait := .crossing key }).wrAt R.BCH_SEQ_STATUS_STATE b 3
  else s

/-- Of `want` flits, those that enter a crossing now: for which it has room, and which its cycles of this tick still carry (R43). -/
def State.entering (s : State) (key writer room want : Nat) : Nat :=
  min want (min room (s.regionRate writer - Tab.get 0 key s.clk.entered))

/-- `n` flits have entered a crossing in this tick. -/
def State.noteEntered (s : State) (key n : Nat) : State :=
  { s with clk := { s.clk with entered := Tab.put 0 key (Tab.get 0 key s.clk.entered + n) s.clk.entered } }

/-- One tick of crossing `i` of a transfer, `x` (R43, R44): the flits whose nominal entry has come, that have been released
to this crossing's writer and for which it has room, enter it, with those of its other routes at most one in a cycle of FCLK; where it is
full the writer stalls. -/
def State.enterCrossing (s : State) (k : Nat) (r : MeshRoute) (pos : Nat) (x : Crossing) (i : Nat) : State :=
  let l := match Tab.find? k s.clk.flits with | some l => l | none => r.start
  let have_ := l.getD i 0
  let released := match r.crossings[i - 1]? with
    | some y => if i = 0 then r.flits else min (l.getD (i - 1) 0) (flitsBy r.flits (s.flitRate y) (y.entry + y.latency) pos)
    | none => r.flits
  let want := min released (flitsBy r.flits (s.flitRate x) x.entry pos) - have_
  let room := x.depth - s.occupancy x
  let got := s.entering x.key x.writer room want
  let s := { s with clk := { s.clk with flits := Tab.ins k (l.set i (have_ + got)) s.clk.flits } }.noteEntered x.key got
  if room < want ∧ i = 0 then s.stallAt x.key (k / 256) else s

/-- One tick of the last crossing of a transfer (R43): the flits released by now leave it. -/
def State.leaveCrossing (s : State) (k : Nat) (r : MeshRoute) (pos : Nat) (x : Crossing) (i : Nat) : State :=
  let l := match Tab.find? k s.clk.flits with | some l => l | none => r.start
  let due := flitsBy r.flits (s.flitRate x) (x.entry + x.latency) pos
  { s with clk := { s.clk with flits := Tab.ins k (l.set (i + 1) (max (l.getD (i + 1) 0) (min (l.getD i 0) due))) s.clk.flits } }

/-- The key of a route's transfer, and the nominal position of the context that sends it. -/
def State.meshKey (s : State) (r : MeshRoute) : Nat := 256 * s.physical r.source + r.id

/-- The nominal position of the context whose program sends on a route. -/
def State.meshPos (s : State) (r : MeshRoute) : Nat := s.ctxPos (s.homeOf (s.physical r.source))

/-- A flit of a route is due at the reader of its last crossing and absent, whether MSND has handed the buffer over or is late
(R44). -/
def State.meshAbsent (s : State) (r : MeshRoute) : Option Crossing :=
  let c := s.homeOf (s.physical r.source)
  match r.crossings.zipIdx.getLast? with
  | none => none
  | some (x, i) =>
    let l := match Tab.find? (s.meshKey r) s.clk.flits with | some l => l | none => []
    let due := flitsBy r.flits (s.flitRate x) (x.entry + x.latency) (s.meshPos r)
    if s.ctxRunning c && s.variantActive c r.fork r.variants && decide (l.getD i 0 < due) then some x else none

/-- One tick of a route: flits leave its last crossing, then enter each from the last to the first; where one is due and absent the
reader stalls. -/
def State.moveFlits (s : State) (r : MeshRoute) : State :=
  let k := s.meshKey r
  let pos := s.meshPos r
  let l := r.crossings.zipIdx
  let s := match s.meshAbsent r with | some x => s.stallAt x.key (s.physical r.dest) | none => s
  match Tab.find? k s.clk.flits with
  | none => s
  | some _ =>
    let s := match l.getLast? with | some (x, i) => s.leaveCrossing k r pos x i | none => s
    l.reverse.foldl (fun s (e : Crossing × Nat) => s.enterCrossing k r pos e.1 e.2) s

/-- One tick of the mesh. -/
def State.tickMesh (s : State) : State := s.meshRoutes.foldl State.moveFlits { s with clk := { s.clk with entered := [] } }

/-! ## The queues of I/O regions (R42, R193) -/

/-- The MEMORY section of the active plan (R189). -/
def State.memPlan (s : State) : MemoryPlan :=
  match s.pln.active with | some p => p.memory | none => ⟨[], [], []⟩

/-- The clock region of a memory controller (R40). -/
def ctrlRegion (ctrl : Nat) : Nat := if ctrl < 20 then 24 + ctrl / 2 else 34

/-- The route latency that MESH_ROUTES gives from an I/O region to a logical bench at the point in force (R152, R193). -/
def State.routeLatency (s : State) (region l : Nat) : Nat :=
  match s.pln.active with
  | none => 0
  | some p => match p.latencies.find? fun x => x.point == s.pointFor p && x.region == region && x.bench == l with
    | some x => x.ticks
    | none => 0

/-- L of an asynchronous queue (R42). -/
def queueLatency : Nat := 4

/-- The depth of an asynchronous queue in flits (R42). -/
def queueDepth : Nat := 64

/-- The key of the queue that data pass. -/
def Delivery.key (d : Delivery) : Nat := 64 * d.writer + d.reader

/-- The flits that a queue of an I/O region holds. -/
def State.queued (s : State) (key : Nat) : Nat := ((s.scr.queue.filter fun d => d.key == key).map fun d => d.inside.sum).sum

/-- Every flit has entered the queue and been released. -/
def Delivery.released (d : Delivery) : Bool := decide (d.flits ≤ d.into) && d.inside.sum == 0

/-- The flits whose nominal entry has come (R43). -/
def Delivery.wanted (d : Delivery) : Nat := (if d.span = 0 then d.flits else min d.flits (d.flits * d.ticks / d.span)) - d.into

/-- The flits of data whose nominal entry has come enter the queue as far as it has room and cycles (R43); where it is full the side that
writes it stalls (R44). A region that stands still writes nothing (R50). -/
def State.fill (s : State) (d : Delivery) : State × Delivery :=
  if s.onAt R.CLK_RGN_STATUS_STOPPED d.writer then (s, { d with inside := 0 :: d.inside })
  else
    let room := queueDepth - s.queued d.key
    let got := s.entering d.key d.writer room d.wanted
    let s := s.noteEntered d.key got
    let full : Bool := decide (room < d.wanted)
    let s := match full, (if d.writer < 24 then d.bench else none) with
      | true, some b => s.stallAt d.key b
      | true, none => s.stallKey d.key
      | false, _ => s
    (s, { d with into := d.into + got, inside := got :: d.inside })

/-- Data begin to pass a queue: those that come at once enter it in this tick. What memory is to take behind others for the same place
lands behind them (R195). -/
def State.enqueue (s : State) (d : Delivery) : State :=
  let s := if d.reader < 24 then s else s.land d.addr d.bytes.length
  let (s, d) := if d.span = 0 then s.fill d else (s, d)
  { s with scr := { s.scr with queue := s.scr.queue ++ [d] } }

/-- Data leave their queue: the bytes are in place, the completion counter that waits for them rises (R43, R173), and the port has the
payload that it waits for (R302). -/
def State.deliver (s : State) (d : Delivery) : State :=
  let s := s.setBytes d.addr d.bytes
  let s := match d.bench, d.counter with | some b, some i => s.bumpCounter b i | _, _ => s
  match d.send with
  | none => s
  | some k => match Tab.find? k s.sch.sends with
    | some x => { s with sch := { s.sch with sends := Tab.ins k { x with crossed := true } s.sch.sends } }
    | none => s

/-- Ticks from nominal beat START of a stream read over `n` beats to the release of its data (R193). -/
def State.readTicks (s : State) (e : ScriptEntry) : Nat := 16 * e.beats + queueLatency + s.routeLatency (ctrlRegion e.ctrl) e.bench

/-- The crossings, as 64 × writer + reader, at which data are due from an I/O region or at one and absent, each with the bench that reads
them, if one does (R44): data late in their queue, and those of stream reads whose controller stood still (R50). -/
def State.ioAbsent (s : State) : List (Nat × Option Nat) :=
  (s.scr.queue.filter fun d => decide (d.span + queueLatency ≤ d.ticks) && !d.released).map
      (fun d => (d.key, if d.reader < 24 then d.bench else none)) ++
    s.scr.missed.filterMap fun (x : Nat × Nat) =>
      match s.memPlan.entries[x.1]? with
      | some e => if e.kind = 1 ∧ s.readTicks e ≤ 16 * x.2 then
          some (64 * ctrlRegion e.ctrl + benchRegion (s.physical e.bench), some (s.physical e.bench)) else none
      | none => none

/-- Data stand still with the positions of their context. -/
def State.dataHeld (s : State) (d : Delivery) : Bool := d.held && s.ctxPaused d.ctx

/-- A tick of data in a queue: the flits that entered 4 ticks before are released, unless their reader stands still (R50), and released
data go on along their route. -/
def State.ageData (s : State) (d : Delivery) : Delivery :=
  if s.dataHeld d then d
  else
    let d := { d with ticks := d.ticks + 1 }
    if d.released then { d with after := d.after - 1 }
    else if s.onAt R.CLK_RGN_STATUS_STOPPED d.reader then d
    else { d with inside := d.inside.take (queueLatency - 1) }

/-- Further flits of the data with an index enter their queue. -/
def State.enter (s : State) (i : Nat) : State :=
  match s.scr.queue[i]? with
  | none => s
  | some d =>
    if s.dataHeld d || d.released then s
    else
      let (s, d) := s.fill d
      { s with scr := { s.scr with queue := s.scr.queue.set i d } }

/-- One tick of the queues of I/O regions (R43); at a release whose data are absent the reader stalls (R44). -/
def State.tickQueues (s : State) : State :=
  let s := { s with scr := { s.scr with queue := s.scr.queue.map s.ageData } }
  let s := (List.range s.scr.queue.length).foldl State.enter s
  let done (d : Delivery) : Bool := d.released && d.after == 0
  let l := s.scr.queue
  let s := { s with scr := { s.scr with queue := l.filter fun d => !done d } }
  let s := (l.filter done).foldl State.deliver s
  s.ioAbsent.foldl (fun s x => match x.2 with | some b => s.stallAt x.1 b | none => s.stallKey x.1) s

/-- The cause of a stall at a crossing has gone: the crossing has room, and no due flit is absent there (R44). -/
def State.crossingFree (s : State) (key : Nat) : Bool :=
  s.ioAbsent.all (fun x => x.1 != key) && decide (s.queued key < queueDepth) && s.meshRoutes.all fun r =>
    (r.crossings.all fun x => x.key != key || decide (s.occupancy x < x.depth)) &&
      (match s.meshAbsent r with | some x => x.key != key | none => true)

/-- The sequencers that stall at a crossing go on (R44). -/
def State.resumeAt (s : State) (key : Nat) : State :=
  s.bench.foldl (fun s (e : Nat × Bench) =>
    if e.2.wait = .crossing key ∧ s.rdAt R.BCH_SEQ_STATUS_STATE e.1 = 3 then s.resume e.1 else s) s

end Sys2Proof.Machine
end

