-- ==== Sys2Proof/Machine/Positions.lean ====
section
/-! DEFINITION. Positions of a beat (07_memory_tiers.md R191 to R194, R197): how many a pseudo-channel or subchannel has, and how
many script entries and windows use. -/

namespace Sys2Proof

/-- Bursts that are read corrected, each with a device (R206, R207): those that a stack reports so, and in the DDR tier those with at
most the 8 symbol errors that RS(80, 64) corrects. -/
def MemEcc.fixed (e : MemEcc) : List (Nat × Nat) :=
  e.corr ++ (e.symbols.filter fun x => 1 ≤ x.2.2 && decide (x.2.2 ≤ 8)).map fun x => (x.1, x.2.1)

/-- Bursts whose read is uncorrectable (R206, R207). -/
def MemEcc.lost (e : MemEcc) : List Nat := e.uncorr ++ (e.symbols.filter fun x => decide (8 < x.2.2)).map Prod.fst

end Sys2Proof

namespace Sys2Proof.Machine

open Sys2Proof

/-- Data positions of a beat on a pseudo-channel of HBM or a subchannel of the DDR tier; the rest of the beat is for maintenance
(R191). -/
def dataPositions (ddr : Bool) : Nat := if ddr then 50 else 132

/-- Maintenance positions of a beat (R191). -/
def maintenancePositions (ddr : Bool) : Nat := if ddr then 3 else 2

/-- Pseudo-channels and subchannels, numbered 64 × stack + pseudo-channel, and 1,280 + 2 × channel + subchannel (R185, R186). -/
def channels : Nat := 1312

/-- A pseudo-channel or subchannel is one of the DDR tier. -/
def channelDdr (ch : Nat) : Bool := 1280 ≤ ch

/-- Where a burst lies: its pseudo-channel or subchannel, its place within the page, bank, SID and row, and the first byte of the
address within it. A subchannel has no SID. -/
structure BurstPlace where
  channel : Nat
  byte : Nat
  burst : Nat
  bank : Nat
  sid : Nat
  row : Nat
deriving DecidableEq, Repr

/-- The place that an address of a tier decodes to (R185, R186); none for an address of no tier. -/
def burstPlace (a : Nat) : Option BurstPlace :=
  if isHbm a then
    let o := a % 0xC00000000
    some ⟨64 * (a / 0xC00000000) + bits 10 5 o, bits 4 0 o, bits 15 11 o, bits 19 16 o, bits 21 20 o, o / 2 ^ 22⟩
  else if 0x020000000000 ≤ a ∧ a < 0x040000000000 then
    let d := a - 0x020000000000
    some ⟨1280 + 2 * bits 10 7 d + bits 6 6 d, bits 5 0 d, bits 16 11 d, bits 21 17 d, 0, d / 2 ^ 22⟩
  else none

/-- Bursts of `n` bytes from `a` that fall on a channel (R185, R186): 32-byte bursts rotate over the 64 pseudo-channels of a stack,
64-byte bursts over the 32 subchannels of the tier. -/
def burstsOn (a n ch : Nat) : Nat :=
  if n = 0 ∨ (burstPlace a).isNone then 0
  else if channelDdr ch then
    if isHbm a then 0 else countIn ((a - 0x020000000000) / 64) (ceilDiv (a - 0x020000000000 + n) 64) 32 (ch - 1280)
  else if isHbm a then
    let lo := max a (ch / 64 * 0xC00000000)
    let hi := min (a + n) ((ch / 64 + 1) * 0xC00000000)
    if lo < hi then countIn (lo / 32) (ceilDiv hi 32) 64 (ch % 64) else 0
  else 0

/-- The pseudo-channel or subchannel of an address; for an address of no tier, none that exists. -/
def channelAt (a : Nat) : Nat := match burstPlace a with | some x => x.channel | none => channels

/-- The channels of stack `u`, or of DDR channel `u` − 20 (R182, R183). -/
def unitChannels (u : Nat) : List Nat := if u < 20 then (List.range 64).map (64 * u + ·) else [1280 + 2 * (u - 20), 1281 + 2 * (u - 20)]

/-- The bytes of a script entry that move in beat `k` of its span: its bursts in address order, spread evenly over its beats (log
entry 24). -/
def entryPart (e : ScriptEntry) (k : Nat) : Nat × Nat :=
  let from_ := e.units * k / e.beats
  (128 * from_, 128 * (e.units * (k + 1) / e.beats - from_))

/-- Positions that a script entry uses on a channel in a beat of the step (R192, R194); a tier copy uses both controllers'. -/
def entryPositions (e : ScriptEntry) (beat ch : Nat) : Nat :=
  if e.beat ≤ beat ∧ beat < e.beat + e.beats then
    let (o, n) := entryPart e (beat - e.beat)
    burstsOn (e.addr + o) n ch + (if e.kind = 3 then burstsOn (e.addr2 + o) n ch else 0)
  else 0

/-- Positions that a window holds on a channel in a beat of the step: those of its descriptor on every channel of its region's
stacks or of the tier (R197). -/
def windowPositions (m : MemoryPlan) (d : GatherDesc) (beat ch : Nat) : Nat :=
  match m.regions[d.region]? with
  | none => 0
  | some r =>
    let covers : Bool := if channelDdr ch then !isHbm r.base
      else isHbm r.base && decide (r.base / 0xC00000000 ≤ ch / 64) && decide (ch / 64 ≤ (r.base + r.length - 1) / 0xC00000000)
    if decide (d.start ≤ beat) && decide (beat < d.start + d.length) && covers then d.positions else 0

/-- Positions that the entries and windows which `acts` and `opens` choose use on a channel in a beat. -/
def memUse (m : MemoryPlan) (acts : ScriptEntry → Bool) (opens : GatherDesc → Bool) (beat ch : Nat) : Nat :=
  ((m.entries.filter acts).map fun e => entryPositions e beat ch).sum
    + ((m.windows.filter opens).map fun d => windowPositions m d beat ch).sum

end Sys2Proof.Machine
end

