-- ==== Sys2Proof/Machine/Banks.lean ====
section
/-! DEFINITION. Banks of weights, their shards, epochs and quarantine (08_weights.md R212 to R214, R225 to R234): what the
memory controllers, loads, swaps and sweeps share. -/

namespace Sys2Proof.Machine

open Sys2Proof

/-- Bytes of a whole shard (R213). -/
def shardSize : Nat := 2 ^ 26

/-- Shards of an image of `n` bytes (R213). -/
def shardCount (n : Nat) : Nat := ceilDiv n shardSize

/-- Length of shard `i`. -/
def shardLen (image i : Nat) : Nat := min shardSize (image - i * shardSize)

/-- The shards that a binding's extents place on this module, ascending (R214). -/
def heldShards (b : Binding) : List Nat :=
  (List.range (shardCount b.imageLength)).filter fun i =>
    b.extents.any fun e => decide (e.imageOffset ≤ i * shardSize) && decide (i * shardSize < e.imageOffset + e.length)

/-- The local address of image byte `o` in bank `k` (R214, R225). -/
def bankByte (b : Binding) (k o : Nat) : Option Nat :=
  match b.extents.find? fun e => decide (e.imageOffset ≤ o) && decide (o < e.imageOffset + e.length) with
  | none => none
  | some e => if k = 0 then some (e.base + (o - e.imageOffset)) else e.landing.map fun l => l + (o - e.imageOffset)

/-- The active bank of a context (R225, R226): a context without SWAP has bank 0 only. -/
def State.bankOf (s : State) (b : Binding) : Nat := if b.swap then s.rdAt R.WGT_CTX_BANK b.ctx else 0

/-- The translation of a script or window address of a context (R226): with BANK 1, addresses of a paired region go to the
same offset of its partner, both ways. -/
def State.bankAddr (s : State) (c a : Nat) : Nat :=
  match s.binding? c with
  | none => a
  | some b =>
    let hit (base len : Nat) : Bool := decide (base ≤ a) && decide (a < base + len)
    if s.bankOf b = 0 then a
    else match b.pairs.find? fun (p : Nat × Nat × Nat) => hit p.1 p.2.2 || hit p.2.1 p.2.2 with
    | none => a
    | some p => if hit p.1 p.2.2 then p.2.1 + (a - p.1) else p.1 + (a - p.2.1)

/-- The bytes of shard `i` in bank `k`. -/
def State.shardBytes (s : State) (b : Binding) (k i : Nat) : List Byte :=
  match bankByte b k (i * shardSize) with
  | some a => s.bytes a (shardLen b.imageLength i)
  | none => []

/-- The shard of a context's image, and its bank, that a local address lies in. -/
def State.shardAt (s : State) (c a : Nat) : Option (Nat × Nat) :=
  match s.binding? c with
  | none => none
  | some b =>
    let hit (base len : Nat) : Bool := decide (base ≤ a) && decide (a < base + len)
    match b.extents.find? fun e => hit e.base e.length with
    | some e => some ((e.imageOffset + (a - e.base)) / shardSize, 0)
    | none =>
      match b.extents.find? fun e => (match e.landing with | some l => hit l e.length | none => false) with
      | some e => some ((e.imageOffset + (a - e.landing.getD 0)) / shardSize, 1)
      | none => none

/-! ## Epochs -/

/-- The first batch of a context whose pass has not begun (R229, R232): the open window, or the next step. -/
def State.nextBatch (s : State) (c : Nat) : Nat :=
  match s.run? c with
  | some r => r.window
  | none => match s.ctx? c with | some r => r.step + 1 | none => 0

/-- The last epoch up to which, from `e` on, runs of epochs leave none out, with fuel. -/
def reachedBy : Nat → Nat → List (Nat × Nat) → Nat
  | 0, e, _ => e
  | n + 1, e, l => match l.find? fun x => decide (x.1 ≤ e + 1) && decide (e < x.2) with
    | some x => reachedBy n x.2 l
    | none => e

/-- The runs of epochs of a context, above WGT_CONFIRMED, that are confirmed or declared bad. -/
def State.settledRuns (s : State) (c : Nat) : List (Nat × Nat) := match Tab.find? c s.wgt.settled with | some l => l | none => []

/-- Epochs `first` to `last` are confirmed or declared bad: WGT_CONFIRMED is the highest epoch up to which every one is (R232). -/
def State.epochsSettled (s : State) (c first last : Nat) : State :=
  if last < first then s
  else
    let l := (first, last) :: s.settledRuns c
    let top := reachedBy l.length (s.rdAt R.WGT_CONFIRMED_EPOCH c) l
    { s with wgt := { s.wgt with settled := Tab.put [] c (l.filter fun x => decide (top < x.2)) s.wgt.settled } }.wrAt R.WGT_CONFIRMED_EPOCH c top

/-- Runs of epochs without those of one run. -/
def withoutRun (l : List (Nat × Nat)) (x : Nat × Nat) : List (Nat × Nat) :=
  (l.map fun y => [(y.1, min y.2 (x.1 - 1)), (max y.1 (x.2 + 1), y.2)].filter fun z => decide (z.1 ≤ z.2)).flatten

/-- The runs of unconfirmed epochs of a context from `first` to `last`, ascending (R232). -/
def State.unconfirmed (s : State) (c first last : Nat) : List (Nat × Nat) :=
  let first := max first (s.rdAt R.WGT_CONFIRMED_EPOCH c + 1)
  (s.settledRuns c).foldl withoutRun (if last < first then [] else [(first, last)])

/-- The unconfirmed epochs of a context from `first` to `last` are declared bad, run by run: WGT_BAD, the event, and a declaration that
passes to the Forester with the tags (R146, R232). -/
def State.declareBad (s : State) (c shard first last : Nat) : State :=
  (s.unconfirmed c first last).foldl (fun s x =>
    let s := ((s.wrAt R.WGT_BAD_FIRST c x.1).wrAt R.WGT_BAD_LAST c x.2).wr R.WGT_EVENT_BAD_EPOCH 1
    (s.epochsSettled c x.1 x.2).handItems [.declaration c shard x.1 x.2]) s

/-- A sweep that begins now in epoch `e` (R231). -/
def State.newSweep (s : State) (b : Binding) (e : Nat) : Sweep := ⟨heldShards b, e, s.now, s.now, false⟩

/-- At a batch boundary the epoch rises after a good sweep (R232). -/
def State.epochBoundary (s : State) (c : Nat) : State :=
  let w := s.wctx c
  if w.rise then (s.setWctx c { w with rise := false }).wrAt R.WGT_EPOCH_EPOCH c (s.rdAt R.WGT_EPOCH_EPOCH c + 1) else s

/-! ## Quarantine -/

/-- The index changes of a batch that is quarantined after its slots were resolved are undone, but for the clears of STATE_LOST, as far as
no index write of it has been performed (R256). -/
def State.undoBatch (s : State) (c batch : Nat) : State :=
  match Tab.find? c s.itk.before with
  | none => s
  | some x =>
    if x.window < batch then s
    else
      let waits (a : Nat) : Bool := (Tab.find? a s.itk.dirty).isSome
      let mine (a : Nat) : Bool := x.touched.contains a || x.clears.any fun (e : Nat × List Byte) => e.1 == a
      let kept := s.itk.dirty.filter fun (e : Nat × List Byte) => !mine e.1
      let dirty := (x.clears.filter fun (e : Nat × List Byte) => waits e.1).foldl (fun t (e : Nat × List Byte) => Tab.ins e.1 e.2 t) kept
      let whole := x.touched.all waits
      let s := { s with itk := { s.itk with dirty := dirty, before := Tab.del c s.itk.before
                                            stash := if whole then Tab.ins c x.stash s.itk.stash else s.itk.stash } }
      if whole then (s.wrAt R.SCT_OCC_STASHED c x.stash.length).wrAt R.SCT_OCC_VALID c x.valid else s

/-- The windows of a context from `batch` on that have not been released are quarantined as well (R232, R234), and what the last of them
has changed in the index and not yet written is undone (R256). -/
def State.quarantineSealed (s : State) (c batch : Nat) : State :=
  match s.run? c with
  | none => s
  | some r => (s.setRun c { r with windows := r.windows.map fun w =>
      if batch ≤ w.index ∧ !w.released then { w with quarantined := true } else w }).undoBatch c batch

/-- A context is quarantined from a batch on (R232): its open seal span closes as if by CLOSE_NOW. -/
def State.quarantineCtx (s : State) (c batch : Nat) : State :=
  if (Tab.find? c s.wgt.quarantine).isSome then s
  else
    let s := { s with wgt := { s.wgt with quarantine := Tab.ins c batch s.wgt.quarantine } }
    let s := (s.setWctx c { s.wctx c with landFresh := false }).quarantineSealed c batch
    let s := (s.wrAt R.WGT_CTX_STATE c 4).wr R.WGT_EVENT_QUARANTINE 1
    if (Tab.find? c s.gen.spans).isSome then s.markSpan c (s.currentBatch c) else s

/-- The payload of a quarantine notice (R233). -/
def quarantineNotice (plan ctx cause detector shard first last batch : Nat) : List Byte :=
  leBytes 8 plan ++ beBytes 1 ctx ++ beBytes 1 cause ++ beBytes 2 detector ++ zeros 4 ++ beBytes 8 shard ++ beBytes 8 first
    ++ beBytes 8 last ++ beBytes 8 batch ++ zeros 16

/-- Send a quarantine notice to every other module of the job (R233). -/
def State.sendQuarantine (s : State) (c cause shard first last batch : Nat) : State :=
  match s.pln.active with
  | none => s
  | some p =>
    let dests := (p.modules.map ModuleEntry.number).filter (· != s.number)
    s.sendAll 5 true (quarantineNotice p.id8 c cause s.number shard first last batch) dests

/-- A sweep finds a mismatch in the active bank (R232): every unconfirmed epoch up to the one in force is declared bad, and the context is
quarantined here and on every module of the job. -/
def State.activeMismatch (s : State) (c shard : Nat) : State :=
  let bad := s.unconfirmed c 1 (s.rdAt R.WGT_EPOCH_EPOCH c)
  let batch := s.nextBatch c
  let s := s.declareBad c shard 1 (s.rdAt R.WGT_EPOCH_EPOCH c)
  if (Tab.find? c s.wgt.quarantine).isSome then s
  else (s.quarantineCtx c batch).sendQuarantine c 1 shard ((bad.map Prod.fst).headD 0) ((bad.map Prod.snd).getLastD 0) batch

/-- The closing sweep has ended, and the sweep of the active bank that waited for it begins (R230, R231). -/
def WgtCtx.closed (w : WgtCtx) (now : Nat) : WgtCtx :=
  { w with closing := none, old := none, sweep := w.sweep.map fun x => { x with began := now, shardAt := now } }

/-- A closing sweep finds a mismatch in the old bank (R232): its unconfirmed epochs are declared bad, nothing is quarantined,
and the bank is free. -/
def State.closingMismatch (s : State) (c shard : Nat) : State :=
  let w := s.wctx c
  let s := (s.setWctx c (w.closed s.now)).wrAt R.WGT_CTX_CLOSING c 0
  s.declareBad c shard w.oldSince w.oldEpoch

/-! ## Repair -/

/-- The first batch of the step that fails (R234): the oldest window that has not been released, or the step (DEDUCED, log entry 134). -/
def State.failingBatch (s : State) (c : Nat) : Nat :=
  match (match s.run? c with | some r => r.windows.find? fun (w : WindowRec) => !w.released | none => none) with
  | some w => w.index
  | none => s.nextBatch c - 1

/-- A repair fails (R234): the context is quarantined from the step that failed, here and on every module of the job. -/
def State.repairFailed (s : State) (c shard : Nat) : State :=
  let w := s.wctx c
  let s := (s.setWctx c { w with repairs := Tab.del shard w.repairs }).inc R.WGT_COUNT_REPAIR_FAIL
  let batch := s.failingBatch c
  (s.quarantineCtx c batch).sendQuarantine c 2 shard 0 0 batch

/-- The repair of a shard of the active bank begins (R234): at once without success where its load named no source, and
otherwise with one hold request for the step. -/
def State.startRepair (s : State) (c shard : Nat) : State :=
  let w := s.wctx c
  match w.active with
  | none => s
  | some b =>
    if b.sources = [] then s.repairFailed c shard
    else if (Tab.find? shard w.repairs).isSome then s
    else (s.setWctx c { w with repairs := Tab.ins shard (0, s.now) w.repairs }).holdRequest 1 5

/-! ## Landings -/

/-- A landing returns to Empty with a code (R208, R231), and a load of it is over. -/
def State.emptyLanding (s : State) (c code : Nat) : State :=
  let w := s.wctx c
  let load := match w.load with | some l => if l.target = 1 then none else some l | none => none
  let s := if load.isNone then s.dropCopies c false fun _ => true else s
  let s := s.setWctx c { w with landing := none, landSweep := none, load := load }
  let s := (s.wrAt R.WGT_CTX_LANDING c 0).setRoot R.WGT_ROOT_LANDING_ROOT c []
  if code = 0 then s else s.wrAt R.WGT_CTX_CODE c code

end Sys2Proof.Machine
end

