-- ==== Sys2Proof/Machine/Twin.lean ====
section
/-! DEFINITION. Items of a twin pair (13_twin_pairs.md R351, R354 to R358): what they hold. -/

namespace Sys2Proof.Machine

open Sys2Proof

/-- The pair holds: paired, and no partner lost (R352, R359). -/
def State.paired (s : State) : Bool := s.rd R.TWN_STATUS_STATE == 1

/-- This module is the active one of a Mirror context that ships (R354). -/
def State.mirrors (s : State) (c : Nat) : Bool :=
  s.paired && s.rdAt R.TWN_CTX_MODE c == 1 && !s.on R.TWN_STATUS_ROLE_NOW

/-- The request cells that a window's SET reads. -/
def State.setSpans (s : State) (e : IntakeEntry) (w : WindowRec) : List (Nat × Nat) :=
  w.slots.zipIdx.map fun x => (s.reqCell e w.index x.2, 64 + roundUp 8 x.1.req.record.length)

/-- The SET of a window (R351, R357): the admitted cells in slot order. -/
def State.setItem (s : State) (e : IntakeEntry) (w : WindowRec) : List Byte :=
  s.spanBytes (s.setSpans e w)

/-- The STATUS of a slot of a window: QUARANTINED in a quarantined batch (R232, R242). -/
def WindowRec.statusOf (w : WindowRec) (x : SlotRec) : Nat := if w.quarantined then 1 else x.status

/-- The TAGS of a window (R351): a status byte for each of the SLOTS, then the tag of each slot with status OK. -/
def tagsItem (e : IntakeEntry) (w : WindowRec) : List Byte :=
  let status := (w.slots.map fun x => (BitVec.ofNat 8 (w.statusOf x) : Byte)) ++ zeros (e.slots - w.slots.length)
  let tags := (w.slots.filter fun x => w.statusOf x == 0).map fun x => fit 32 (x.tag.getD [])
  status ++ tags.flatten

/-- A Replica context of a pair that holds. -/
def State.replicates (s : State) (c : Nat) : Bool := s.paired && s.rdAt R.TWN_CTX_MODE c == 2

/-- Each module of a Replica pair sends a window's TAGS once its last tag is formed (R357). -/
def State.shipTags (s : State) (e : IntakeEntry) (w : WindowRec) : State × WindowRec :=
  let formed := w.slots.all fun x => w.statusOf x != 0 || x.tag.isSome || !bit e.ctx (s.rd R.GEN_PROV_EN)
  if s.replicates e.ctx && formed && !w.tagsSent then
    (s.shipItem 4 e.ctx w.index (tagsItem e w), { w with tagsSent := true })
  else (s, w)

/-! ## Sizes, times and the staging area -/

/-- The bytes of the largest INDEX item of a window, one entry for each of the SLOTS (R352, R355). -/
def largestIndex (e : IntakeEntry) : Nat := e.slots * (8 + 64)

/-- The bytes of the largest STATE item of a window, one block for each of the SLOTS (R352, R355). -/
def largestState (e : IntakeEntry) : Nat := e.slots * (8 + 2 ^ e.blockLog2)

/-- The staging area of a context: its address, of which bits [15:0] are ignored, and its length (R352, R361). -/
def State.stageArea (s : State) (c : Nat) : Nat × Nat :=
  (s.rdAt R.TWN_STAGE_ADDR c, s.rdAt R.TWN_STAGE_MIB c * 2 ^ 20)

/-- Where an arriving item of a window lies in the staging area, and its room there (R354): the area is a ring of as many shipments of the
largest size as it holds, each the INDEX item before the STATE item (DESIGN CHOICE, log entry 158). -/
def State.stagePlace (s : State) (e : IntakeEntry) (kind w : Nat) : Nat × Nat :=
  let z := largestIndex e + largestState e
  let (base, len) := s.stageArea e.ctx
  let at_ := base + w % max 1 (len / max 1 z) * z
  if kind = 2 then (at_, largestIndex e) else (at_ + largestIndex e, largestState e)

/-- Units of 1/(125 × 2^17) tick, in which a block time of 19/125 tick and half of a loop delay are whole (R265, R294). -/
def fineTicks (t : Int) : Int := t * (125 * 2 ^ 17)

/-- The time in fine units after which the last block of an item of `n` bytes, striped over ports, has arrived at their measured loop
delays (R351, R355): a block time of 1.28 ns for each block, and half of the loop delay. -/
def State.travel (s : State) (ports : List Nat) (n : Nat) : Nat :=
  let blocks := max 1 (ceilDiv n 236)
  (ports.zipIdx.map fun (x : Nat × Nat) =>
    let mine := (blocks + ports.length - 1 - x.2) / ports.length
    if mine = 0 then 0 else mine * 19 * 2 ^ 17 + 125 * s.rdAt R.HAUL_LOOP_DELAY_LOOP x.1).foldl max 0

/-- An item of `n` bytes that leaves at `leaves` arrives by `deadline` with a margin of 16 ticks (R355, R357). -/
def State.itemMeets (s : State) (ports : List Nat) (n : Nat) (leaves deadline : Int) : Bool :=
  decide (fineTicks (leaves + 16) + (s.travel ports n : Nat) ≤ fineTicks deadline)

/-- The write windows of a context of a plan over its regions of a kind: the batch that each serves, by its window of the step, and the
start and the end of the window in ticks from the C_w of that batch (R256, R355). Where the plan names no batch it is the last one sealed
before the window's start. -/
def writeWindows (p : Plan) (e : IntakeEntry) (kind : Nat) : List (Int × Int × Int) :=
  p.memory.windows.zipIdx.filterMap fun (x : GatherDesc × Nat) =>
    let d := x.1
    let on : Bool := match p.memory.regions[d.region]? with | some r => r.kind == kind | none => false
    if d.ctx = e.ctx ∧ d.write ∧ on then
      let k : Int := match (p.uses.find? fun u => u.index == x.2).bind WindowUse.batch with
        | some k => k
        | none => (16 * d.start : Int) / max 1 e.windowTicks - 1
      let c := (k + 1) * e.windowTicks
      some (k, 16 * d.start - c, 16 * (d.start + d.length) - c)
    else none

/-- The timing checks of a Mirror context (R355): each item of batch w arrives before the first write window of batch w + LAG that uses it,
and under GATE the ACK of w, at the end of that batch's state write windows, arrives by C_w + L − 16. -/
def State.mirrorInTime (s : State) (p : Plan) (e : IntakeEntry) (ports : List Nat) : Bool :=
  let per := max 1 (p.stepLen / max 1 e.windowTicks)
  let lag := max 1 (s.rdAt R.TWN_CTX_LAG e.ctx)
  let of (kind j : Nat) : List (Int × Int × Int) := (writeWindows p e kind).filter fun x => x.1 % (per : Int) == ((j % per : Nat) : Int)
  let shift : Int := lag * e.windowTicks
  let item (kind n j : Nat) : Bool :=
    (of kind j).all fun a => (of kind (j + lag)).all fun b => s.itemMeets ports n a.2.2 (shift + b.2.1)
  (List.range per).all fun j =>
    item 3 (largestIndex e) j && item 2 (largestState e) j &&
      (!s.onAt R.TWN_CTX_GATE e.ctx || (of 2 (j + lag)).all fun b => s.itemMeets ports 8 (shift + b.2.2) e.releaseTicks)

/-- The timing checks of a Replica context (R357): the largest SET, SLOTS cells of 2 KiB from C_w + 128, arrives by C_w + SEAL_TICKS
− 16, and COMPARE_TICKS + 16 is at most L. -/
def State.replicaInTime (s : State) (p : Plan) (e : IntakeEntry) (ports : List Nat) : Bool :=
  s.itemMeets ports (e.slots * 2048) 128 p.sealTicks && decide (s.rdAt R.TWN_CTX_COMPARE_TICKS e.ctx + 16 ≤ e.releaseTicks)

end Sys2Proof.Machine
end

