-- ==== Sys2Proof/Machine/Sct.lean ====
section
/-! DEFINITION. The Stream Context Table (09_intake_and_streams.md R254 to R258): partitions, the resolution of a window's
slots, and what its index and state windows move. -/

namespace Sys2Proof.Machine

open Sys2Proof

/-! ## Geometry -/

/-- The base of a region of the active plan's MEMORY section. -/
def State.regionBase (s : State) (i : Nat) : Nat :=
  match s.pln.active with | some p => (match p.memory.regions[i]? with | some r => r.base | none => 0) | none => 0

/-- The sub-table of probe `p` (R254): at its region's BASE behind those of lower probes in the same region. -/
def State.subTable (s : State) (e : IntakeEntry) (p : Nat) : Nat :=
  let r := e.indexRegion.getD p 0
  s.regionBase r + ((e.indexRegion.take p).filter (· == r)).length * (e.entries * 16)

/-- The bucket index of a key for probe `p` (R254). -/
def bucketOf (e : IntakeEntry) (p key : Nat) : Nat :=
  ((key / 2 ^ (32 * p) % 2 ^ 32) ^^^ (e.salt.getD p 0)) % (e.entries / 16)

/-- The local address of a key's bucket for probe `p`. -/
def State.bucketAddr (s : State) (e : IntakeEntry) (p key : Nat) : Nat := s.subTable e p + 256 * bucketOf e p key

/-- The image of stash entry `t` (R254). -/
def State.stashAddr (s : State) (e : IntakeEntry) (t : Nat) : Nat :=
  let r := e.indexRegion.getD 0 0
  s.regionBase r + (e.indexRegion.filter (· == r)).length * (e.entries * 16) + 64 * t

/-- The state block of entry `x` of bucket `b` in sub-table `p` (R255). -/
def blockOf (e : IntakeEntry) (p b x : Nat) : Nat := p * e.entries / 4 + 4 * b + x

/-- The local address of state block `j` (R255). -/
def State.blockAddr (s : State) (e : IntakeEntry) (j : Nat) : Nat := s.regionBase e.stateRegion + j * 2 ^ e.blockLog2

/-- An index entry's 64 bytes (R254). -/
def entryBytes (x : Option IndexEntry) : List Byte :=
  match x with
  | none => zeros 64
  | some x => leBytes 16 x.key ++ leBytes 8 x.created ++ leBytes 4 1 ++ zeros 36

/-- The valid index entry that 64 bytes hold (R254). -/
def entryOf (l : List Byte) : Option IndexEntry :=
  if bit 0 (leAt 24 4 l) then some ⟨leAt 0 16 l, leAt 16 8 l⟩ else none

/-! ## The batch in resolution -/

/-- The bytes of a bucket that were last changed: those not written yet, those that the batch read, or those of memory. -/
def State.bucketBytes (s : State) (a : Nat) : List Byte :=
  match Tab.find? a s.itk.dirty, Tab.find? a s.itk.buckets with
  | some d, _ => d
  | none, some (some b) => b
  | _, _ => s.bytes a 256

/-- The bucket at a local address as the batch sees it: none where its read was unreadable. -/
def State.bucketNow (s : State) (a : Nat) : Option (List Byte) :=
  if Tab.find? a s.itk.buckets = some none then none else some (s.bucketBytes a)

/-- Change one entry of a bucket. -/
def State.setBucketEntry (s : State) (a x : Nat) (v : Option IndexEntry) : State :=
  let b := s.bucketBytes a
  { s with itk := { s.itk with dirty := Tab.ins a (b.take (64 * x) ++ entryBytes v ++ b.drop (64 * x + 64)) s.itk.dirty } }

/-- The stash of a context. -/
def State.stash (s : State) (c : Nat) : Tab IndexEntry := match Tab.find? c s.itk.stash with | some t => t | none => []

/-- Change stash entry `t`, written through to its image (R254). -/
def State.setStash (s : State) (e : IntakeEntry) (t : Nat) (v : Option IndexEntry) : State :=
  let tab := match v with | some x => Tab.ins t x (s.stash e.ctx) | none => Tab.del t (s.stash e.ctx)
  let s := { s with itk := { s.itk with stash := Tab.ins e.ctx tab s.itk.stash
                                        dirty := Tab.ins (s.stashAddr e t) (entryBytes v) s.itk.dirty } }
  s.wrAt R.SCT_OCC_STASHED e.ctx tab.length

/-- The 16 candidate places of a key in (probe, entry) order: probe, bucket, its address and the entry's number. -/
def State.places (s : State) (e : IntakeEntry) (key : Nat) : List (Nat × Nat × Nat × Nat) :=
  ((List.range 4).map fun p => (List.range 4).map fun x => (p, bucketOf e p key, s.bucketAddr e p key, x)).flatten

/-- The entry at a candidate place. -/
def State.entryAt (s : State) (pl : Nat × Nat × Nat × Nat) : Option IndexEntry :=
  match s.bucketNow pl.2.2.1 with | some b => entryOf (slice (64 * pl.2.2.2) 64 b) | none => none

/-- Record the read that gave a STATE_LOST (R256, R262). -/
def State.stateLost (s : State) (c what addr : Nat) : State :=
  let s := ((s.wr R.SCT_LAST_LOST_VALID 1).wr R.SCT_LAST_LOST_CONTEXT c).wr R.SCT_LAST_LOST_WHAT what
  ((s.wr R.SCT_LAST_LOST_ADDR addr).wr R.SCT_EVENT_STATE_LOST 1).incAt R.SCT_MOVES_STATE_LOST c

/-- Change what undoes the batch that a context resolved last (R256). -/
def State.onBefore (s : State) (c : Nat) (f : BeforeBatch → BeforeBatch) : State :=
  match Tab.find? c s.itk.before with
  | none => s
  | some x => { s with itk := { s.itk with before := Tab.ins c (f x) s.itk.before } }

/-- The valid entries of a bucket. -/
def validEntries (b : List Byte) : Nat := ((List.range 4).filter fun x => (entryOf (slice (64 * x) 64 b)).isSome).length

/-- An unreadable bucket is cleared at the index write, and its entries are valid no longer (R256). -/
def State.bucketLost (s : State) (e : IntakeEntry) (a : Nat) : State :=
  let n := validEntries (s.bucketBytes a)
  let old (x : BeforeBatch) : Nat := match Tab.find? a x.clears with | some b => validEntries b | none => validEntries (s.bytes a 256)
  let s := s.onBefore e.ctx fun x => { x with clears := Tab.ins a (zeros 256) x.clears, valid := x.valid - old x }
  { s with itk := { s.itk with dirty := Tab.ins a (zeros 256) s.itk.dirty } }.wrAt R.SCT_OCC_VALID e.ctx
    (s.rdAt R.SCT_OCC_VALID e.ctx - n)

/-- The outcome of a slot's resolution. -/
def SlotRec.at_ (x : SlotRec) (block : Option Nat) (writes : Bool) : SlotRec :=
  { x with resolved := true, block := block, writes := writes }

/-- A new entry for a key (R256, R257): the lowest free candidate, the lowest free stash entry, or the eviction of the
unpinned candidate with the lowest CREATE_INDEX, the first in (probe, entry) order among equals (DESIGN CHOICE, log entry 152); none where
every candidate is pinned. -/
def State.insertKey (s : State) (e : IntakeEntry) (r : IntakeRun) (w index key : Nat) : State × Option Nat :=
  let c := e.ctx
  let new : IndexEntry := ⟨key, index⟩
  let places := s.places e key
  match places.find? fun pl => (s.entryAt pl).isNone with
  | some pl =>
    (((s.setBucketEntry pl.2.2.1 pl.2.2.2 (some new)).incAt R.SCT_COUNT_INSERTS c).addAt R.SCT_OCC_VALID c 1,
      some (blockOf e pl.1 pl.2.1 pl.2.2.2))
  | none =>
    match (List.range e.stash).find? fun t => (Tab.find? t (s.stash c)).isNone with
    | some t =>
      (((s.setStash e t (some new)).incAt R.SCT_COUNT_INSERTS c).incAt R.SCT_MOVES_STASH_IN c, some (e.entries + t))
    | none =>
      let s := s.wr R.SCT_EVENT_STASH_FULL 1
      let pinned (k : Nat) : Bool := r.pins.any fun p => p.1 == k && decide (p.2 ≤ w) && decide (w < p.2 + e.chainSpan)
      let free := places.filter fun pl => match s.entryAt pl with | some x => !pinned x.key | none => false
      let created (pl : Nat × Nat × Nat × Nat) : Nat := match s.entryAt pl with | some x => x.created | none => 0
      match free with
      | [] => (((s.incAt R.SCT_COUNT_REFUSED_TABLE c).wr R.SCT_EVENT_REFUSED_TABLE 1).wr R.ITK_EVENT_REFUSED 1, none)
      | a :: t =>
        let pl := t.foldl (fun b x => if created x < created b then x else b) a
        let s := (s.setBucketEntry pl.2.2.1 pl.2.2.2 (some new)).incAt R.SCT_COUNT_INSERTS c
        ((s.incAt R.SCT_COUNT_EVICTIONS c).wr R.SCT_EVENT_EVICT 1, some (blockOf e pl.1 pl.2.1 pl.2.2.2))

/-- Resolve one slot (R256). -/
def State.resolveSlot (s : State) (e : IntakeEntry) (r : IntakeRun) (w : WindowRec) (i : Nat) (x : SlotRec) :
    State × SlotRec :=
  let c := e.ctx
  let key := x.req.key
  let op := x.req.op
  if x.status ≠ 0 then (s, x.at_ none false)
  else
    match (List.range 4).filter fun p => (s.bucketNow (s.bucketAddr e p key)).isNone with
    | p :: t =>
      let s := (p :: t).foldl (fun s q => s.bucketLost e (s.bucketAddr e q key)) s
      (s.stateLost c p (s.bucketAddr e p key), { x.at_ none false with status := 8 })
    | [] =>
      let places := s.places e key
      let found := places.find? fun pl => match s.entryAt pl with | some y => y.key == key | none => false
      let inStash := (List.range e.stash).find? fun t => match Tab.find? t (s.stash c) with | some y => y.key == key | none => false
      if op = 4 then
        if w.quarantined then (s, x.at_ none false)
        else
          let s := match found, inStash with
            | some pl, _ => (s.setBucketEntry pl.2.2.1 pl.2.2.2 none).wrAt R.SCT_OCC_VALID c (s.rdAt R.SCT_OCC_VALID c - 1)
            | none, some t => s.setStash e t none
            | none, none => s
          (s, { x.at_ none false with status := 7 })
      else
        let writes := (op == 1 || op == 3) && !w.quarantined
        match found, inStash with
        | some pl, _ => (s, x.at_ (some (blockOf e pl.1 pl.2.1 pl.2.2.2)) writes)
        | none, some t =>
          match (if writes then places.find? fun pl => (s.entryAt pl).isNone else none) with
          | none => (s, x.at_ (some (e.entries + t)) writes)
          | some pl =>
            let s := (s.setBucketEntry pl.2.2.1 pl.2.2.2 (Tab.find? t (s.stash c))).setStash e t none
            ((s.incAt R.SCT_MOVES_STASH_OUT c).addAt R.SCT_OCC_VALID c 1,
              { x.at_ (some (blockOf e pl.1 pl.2.1 pl.2.2.2)) writes with readFrom := some (e.entries + t) })
        | none, none =>
          if op = 2 ∨ !writes then (s, x.at_ none false)
          else
            match s.insertKey e r w.index (256 * w.index + i) key with
            | (s, some j) => (s, { x.at_ (some j) true with readFrom := none, empty := true })
            | (s, none) => (s, { x.at_ none false with status := 5 })

/-- Resolve the slots of a window in ascending order. -/
def State.resolveSlots (s : State) (e : IntakeEntry) (r : IntakeRun) (w : WindowRec) :
    List (SlotRec × Nat) → State × List SlotRec
  | [] => (s, [])
  | (x, i) :: t =>
    let (s, x) := s.resolveSlot e r w i x
    let (s, rest) := s.resolveSlots e r w t
    (s, x :: rest)

/-! ## Windows of the engine -/

/-- Replace a window of a run. -/
def State.setWindow (s : State) (c : Nat) (r : IntakeRun) (w : WindowRec) : State :=
  s.setRun c { r with windows := r.windows.map fun x => if x.index = w.index then w else x }

/-- Some slot of the window is not resolved. -/
def unresolved (w : WindowRec) : Bool := w.slots.any fun x => !x.resolved

/-- The slots of the window are resolved and its state has not been read. -/
def unread (w : WindowRec) : Bool := !w.stateRead && w.slots.all SlotRec.resolved

/-- The state of the window has been read and not been written. -/
def unwritten (w : WindowRec) : Bool := w.stateRead && !w.stateWritten

/-- The window of intake whose batch an engine's window serves (R256): the one that the plan names, and where it names none the oldest
in need of it. -/
def servedBy (r : IntakeRun) (batch : Option Nat) (needs : WindowRec → Bool) : Option WindowRec :=
  r.windows.find? fun w => needs w && (match batch with | some n => w.index == n | none => true)

/-- Insert an address in the index cache, while it has room (R258): 65,536 entries, four to a bucket. -/
def State.cacheBucket (s : State) (a : Nat) : State :=
  if a ∈ s.itk.cache then s.inc R.SCT_CACHE_HITS
  else
    let s := s.inc R.SCT_CACHE_MISSES
    if s.itk.cache.length < 16384 then { s with itk := { s.itk with cache := a :: s.itk.cache } } else s

/-- One bucket is read for a batch: from the cache, or from memory where an uncorrectable burst loses it (R256, R258). -/
def State.readBucket (s : State) (bad : Nat → Nat → Bool) (a : Nat) : State :=
  let v := if !s.itk.cache.contains a && bad a 256 then none else some (s.bytes a 256)
  ({ s with itk := { s.itk with buckets := Tab.ins a v s.itk.buckets } }).cacheBucket a

/-- The buckets read for a batch are held no longer. -/
def State.dropBuckets (s : State) (l : List Nat) : State :=
  { s with itk := { s.itk with buckets := s.itk.buckets.filter fun (x : Nat × Option (List Byte)) => !l.contains x.1 } }

/-- The buckets of probe `p` of the keys that a window admitted. -/
def State.probedBuckets (s : State) (e : IntakeEntry) (w : WindowRec) (p : Nat) : List Nat :=
  ((w.slots.filter fun x => x.status == 0).map fun x => s.bucketAddr e p x.req.key).eraseDups

/-- The buckets that the index read window of probe `p` asks memory for: those that the cache does not supply (R256, R258). -/
def State.indexReads (s : State) (e : IntakeEntry) (batch : Option Nat) (p : Nat) : List Nat :=
  match s.run? e.ctx with
  | none => []
  | some r =>
    match servedBy r batch unresolved with
    | none => []
    | some w => (s.probedBuckets e w p).filter fun a => !s.itk.cache.contains a

/-- The index read window of probe `p` reads each admitted key's bucket at its START (R195, R256), `bad` telling the unreadable
bursts. -/
def State.indexRead (s : State) (e : IntakeEntry) (batch : Option Nat) (p : Nat) (bad : Nat → Nat → Bool) : State :=
  match s.run? e.ctx with
  | none => s
  | some r =>
    match servedBy r batch unresolved with
    | none => s
    | some w => (s.probedBuckets e w p).foldl (fun s a => s.readBucket bad a) s

/-- The index read windows of a batch are done, and every slot is resolved (R256). -/
def State.indexResolve (s : State) (e : IntakeEntry) (batch : Option Nat) : State :=
  match s.run? e.ctx with
  | none => s
  | some r =>
    match servedBy r batch unresolved with
    | none => s
    | some w =>
      let before : BeforeBatch := ⟨w.index, [], [], s.stash e.ctx, s.rdAt R.SCT_OCC_VALID e.ctx⟩
      let old := s.itk.dirty
      let s := { s with itk := { s.itk with before := Tab.ins e.ctx before s.itk.before } }
      let (s, slots) := s.resolveSlots e r w w.slots.zipIdx
      let s := s.onBefore e.ctx fun x =>
        { x with touched := (s.itk.dirty.filter fun (y : Nat × List Byte) => Tab.find? y.1 old != some y.2).map Prod.fst }
      match s.run? e.ctx with
      | none => s
      | some r => (s.setWindow e.ctx r { w with slots := slots }).dropBuckets (((List.range 4).map (s.probedBuckets e w)).flatten)

/-- The part of an INDEX item (R351) that a write window of an index region gives: the position of every entry changed and not yet written
there, bucket entries by their block number and stash entries behind them, and its 64 bytes. -/
def State.indexItem (s : State) (e : IntakeEntry) (r : MemRegion) : List Byte :=
  let bucket (a : Nat) (b : List Byte) : List Byte :=
    match (List.range 4).find? fun p => decide (s.subTable e p ≤ a) && decide (a < s.subTable e p + e.entries * 16) with
    | some p =>
      let n := (a - s.subTable e p) / 256
      let changed := (List.range 4).filter fun x => slice (64 * x) 64 b != s.bytes (a + 64 * x) 64
      (changed.map fun x => beBytes 8 (blockOf e p n x) ++ slice (64 * x) 64 b).flatten
    | none => beBytes 8 (e.entries + (a - s.stashAddr e 0) / 64) ++ b
  let mine := s.itk.dirty.filter fun (x : Nat × List Byte) => decide (r.base ≤ x.1) && decide (x.1 < r.base + r.length)
  (mine.map fun (x : Nat × List Byte) => bucket x.1 x.2).flatten

/-- One entry of an INDEX item on the standby: its place in a sub-table, or in the stash and its image (R254, R354). -/
def State.applyEntry (s : State) (e : IntakeEntry) (pos : Nat) (l : List Byte) : State :=
  if pos < e.entries then
    let a := s.subTable e (pos / (e.entries / 4)) + 64 * (pos % (e.entries / 4))
    let old := flag (entryOf (s.bytes a 64)).isSome
    let n := s.rdAt R.SCT_OCC_VALID e.ctx + flag (entryOf l).isSome - old
    (s.putMem a l).wrAt R.SCT_OCC_VALID e.ctx n
  else
    let t := pos - e.entries
    let tab := match entryOf l with | some x => Tab.ins t x (s.stash e.ctx) | none => Tab.del t (s.stash e.ctx)
    let s := { s with itk := { s.itk with stash := Tab.ins e.ctx tab s.itk.stash } }
    (s.putMem (s.stashAddr e t) l).wrAt R.SCT_OCC_STASHED e.ctx tab.length

/-- The entries of an INDEX item, with fuel. -/
def State.applyIndex (s : State) (e : IntakeEntry) : Nat → List Byte → State
  | 0, _ => s
  | n + 1, l => if l.length < 72 then s else (s.applyEntry e (beAt 0 8 l) (slice 8 64 l)).applyIndex e n (l.drop 72)

/-- The blocks of a STATE item, with fuel. -/
def State.applyState (s : State) (e : IntakeEntry) : Nat → List Byte → State
  | 0, _ => s
  | n + 1, l =>
    let size := 2 ^ e.blockLog2
    if l.length < 8 + size then s
    else (s.putMem (s.blockAddr e (beAt 0 8 l)) (slice 8 size l)).applyState e n (l.drop (8 + size))

/-- The last window whose shipment the standby applies in its batch `v` (R354), one more; in a takeover every one received
whole (R356). -/
def State.applyBound (s : State) (c v : Nat) : Nat :=
  if s.twn.takeoverAt.isSome then 2 ^ 64 else v + 1 - s.rdAt R.TWN_CTX_LAG c

/-- The complete item of a kind, context and window. -/
def State.wholeItem (s : State) (kind c w : Nat) : Option TwinItem :=
  s.twn.items.find? fun x => x.kind == kind && x.ctx == c && x.window == w && itemWhole x

/-- Drop the item of a kind, context and window. -/
def State.dropItem (s : State) (kind c w : Nat) : State :=
  { s with twn := { s.twn with items := s.twn.items.filter fun x => !(x.kind == kind && x.ctx == c && x.window == w) } }

/-- The bytes of an item. -/
def itemBytes (x : TwinItem) : List Byte := (x.blocks.map fun (b : Nat × List Byte) => b.2).flatten

/-- Where the staging area holds an item and its length, none for an item longer than its room there (R352, R354). -/
def State.stagedAt (s : State) (e : IntakeEntry) (x : TwinItem) : Option (Nat × Nat) :=
  let (at_, room) := s.stagePlace e x.kind x.window
  let n := (itemBytes x).length
  if n ≤ room then some (at_, n) else none

/-- The bytes of an item as the engine reads them: from the staging area, where it has room for the item (R354). -/
def State.stagedBytes (s : State) (e : IntakeEntry) (x : TwinItem) : List Byte :=
  match s.stagedAt e x with | some y => s.bytes y.1 y.2 | none => itemBytes x

/-- The next item of a kind to be applied, from window `w` on: that of `w`, and in a takeover the first received whole (R354, R356). -/
def State.nextItem (s : State) (kind c w : Nat) : Option TwinItem :=
  if s.twn.takeoverAt.isNone then s.wholeItem kind c w
  else
    let l := s.twn.items.filter fun x => x.kind == kind && x.ctx == c && decide (w ≤ x.window) && itemWhole x
    match l with
    | [] => none
    | a :: t => some (t.foldl (fun b x => if x.window < b.window then x else b) a)

/-- The items of a kind that are applied in order from window `w` on, below a bound, with fuel. -/
def State.dueItems (s : State) (kind c bound : Nat) : Nat → Nat → List TwinItem
  | 0, _ => []
  | n + 1, w => match s.nextItem kind c w with
    | none => []
    | some x => if x.window < bound then x :: s.dueItems kind c bound n (x.window + 1) else []

/-- INDEX items are applied in order (R354, R356). -/
def State.applyIndexes (s : State) (e : IntakeEntry) : List TwinItem → State
  | [] => s
  | x :: t =>
    let s := (s.applyIndex e 65536 (s.stagedBytes e x)).dropItem 2 e.ctx x.window
    { s with twn := { s.twn with nextIndex := Tab.put 0 e.ctx (x.window + 1) s.twn.nextIndex } }.applyIndexes e t

/-- STATE items are applied in order (R354, R356). -/
def State.applyStates (s : State) (e : IntakeEntry) : List TwinItem → State
  | [] => s
  | x :: t =>
    let s := (s.applyState e 65536 (s.stagedBytes e x)).dropItem 3 e.ctx x.window
    { s with twn := { s.twn with nextState := Tab.put 0 e.ctx (x.window + 1) s.twn.nextState } }.applyStates e t

/-- The shipments of windows are applied: TWN_APPLIED takes each and the standby sends ACK (R354). -/
def State.itemsApplied (s : State) (e : IntakeEntry) (l : List Nat) : State :=
  l.foldl (fun s w =>
    let s := (s.wrAt R.TWN_APPLIED_WINDOW e.ctx w).inc R.TWN_COUNT_BATCHES
    if s.paired then s.shipItem 5 e.ctx w (beBytes 8 w) else s) s

/-- Batch `w` of a context applies what its Mirror partner ships (R354): while the context stands by, and after a takeover in the batches
before the window from which it is the active one (R356). -/
def State.appliesItems (s : State) (c w : Nat) : Bool :=
  s.rdAt R.TWN_CTX_MODE c == 1 &&
    (match s.run? c with | some r => r.standby || decide (w < Tab.get 0 c s.twn.takenFrom) | none => false)

/-- The index write windows of a window of intake have not all ended. -/
def unindexed (w : WindowRec) : Bool := w.slots.all SlotRec.resolved && !w.indexed

/-- The INDEX items that the index write windows of a batch apply (R354, R356). -/
def State.dueIndexes (s : State) (e : IntakeEntry) (batch : Option Nat) : List TwinItem :=
  match s.run? e.ctx with
  | none => []
  | some r =>
    match servedBy r batch unindexed with
    | none => []
    | some w =>
      if s.appliesItems e.ctx w.index then s.dueItems 2 e.ctx (s.applyBound e.ctx w.index) 64 (Tab.get 0 e.ctx s.twn.nextIndex) else []

/-- The STATE items that the state write windows of a batch apply, each once its INDEX has been (R354, R356). -/
def State.dueStates (s : State) (e : IntakeEntry) (batch : Option Nat) : List TwinItem :=
  match s.run? e.ctx with
  | none => []
  | some r =>
    match servedBy r batch unwritten with
    | none => []
    | some w =>
      if s.appliesItems e.ctx w.index then
        s.dueItems 3 e.ctx (min (s.applyBound e.ctx w.index) (Tab.get 0 e.ctx s.twn.nextIndex)) 64 (Tab.get 0 e.ctx s.twn.nextState)
      else []

/-- What an index write window of the active module's batch gives to ship (R354): the batch's window, with the entries that it is about to
write. -/
def State.indexShip (s : State) (e : IntakeEntry) (batch : Option Nat) (r : MemRegion) : List (Nat × List Byte) :=
  match (if s.mirrors e.ctx then s.run? e.ctx else none) with
  | none => []
  | some run =>
    match servedBy run batch unindexed with
    | none => []
    | some w => [(w.index, s.indexItem e r)]

/-- Write what the batch changed in an index region, and drop it from what waits. -/
def State.indexWrite (s : State) (r : MemRegion) : State :=
  let mine (x : Nat × List Byte) : Bool := decide (r.base ≤ x.1) && decide (x.1 < r.base + r.length)
  let s := (s.itk.dirty.filter mine).foldl (fun s (x : Nat × List Byte) => s.putMem x.1 x.2) s
  { s with itk := { s.itk with dirty := s.itk.dirty.filter fun x => !mine x } }

/-- The header of a state block (R255). -/
def blockHeader (key seq last : Nat) : List Byte := leBytes 16 key ++ leBytes 8 seq ++ leBytes 8 last ++ zeros 32

/-- The block that a slot reads (R255): none where it reads empty state. -/
def SlotRec.reads (x : SlotRec) : Option Nat :=
  if x.status ≠ 0 ∨ x.empty ∨ x.req.op = 3 then none else (match x.readFrom with | some j => some j | none => x.block)

/-- The blocks that the state read windows of a batch ask memory for. -/
def State.stateReads (s : State) (e : IntakeEntry) (batch : Option Nat) : List Nat :=
  match s.run? e.ctx with
  | none => []
  | some r =>
    match servedBy r batch unread with
    | none => []
    | some w => w.slots.filterMap fun x => x.reads.map (s.blockAddr e)

/-- The clear of a lost entry, in what undoes the batch: of the entry that the key held before it (R256). -/
def State.clearBefore (s : State) (e : IntakeEntry) (key : Nat) (x : BeforeBatch) : BeforeBatch :=
  let bucket (a : Nat) : List Byte := match Tab.find? a x.clears with | some b => b | none => s.bytes a 256
  let held (pl : Nat × Nat × Nat × Nat) : Bool := match entryOf (slice (64 * pl.2.2.2) 64 (bucket pl.2.2.1)) with | some y => y.key == key | none => false
  match (s.places e key).find? held with
  | some pl =>
    let b := bucket pl.2.2.1
    { x with clears := Tab.ins pl.2.2.1 (b.take (64 * pl.2.2.2) ++ entryBytes none ++ b.drop (64 * pl.2.2.2 + 64)) x.clears, valid := x.valid - 1 }
  | none => match List.find? (fun (y : Nat × IndexEntry) => y.2.key == key) x.stash with
    | some y => { x with clears := Tab.ins (s.stashAddr e y.1) (entryBytes none) x.clears, stash := Tab.del y.1 x.stash }
    | none => x

/-- The entry that a slot's key holds is cleared, since its state block is lost (R256). -/
def State.entryLost (s : State) (e : IntakeEntry) (x : SlotRec) : State :=
  let key := x.req.key
  let mine (y : Option IndexEntry) : Bool := match y with | some y => y.key == key | none => false
  let s := s.onBefore e.ctx (s.clearBefore e key)
  match (s.places e key).find? fun pl => mine (s.entryAt pl) with
  | some pl => (s.setBucketEntry pl.2.2.1 pl.2.2.2 none).wrAt R.SCT_OCC_VALID e.ctx (s.rdAt R.SCT_OCC_VALID e.ctx - 1)
  | none => match (List.range e.stash).find? fun t => mine (Tab.find? t (s.stash e.ctx)) with
    | some t => s.setStash e t none
    | none => s

/-- What a slot reads of its state (R255, R256): with the state its record for the window's buffer and the slot after it. An
unreadable block gives STATE_LOST and its entry is cleared. -/
def State.slotState (s : State) (e : IntakeEntry) (bad : Nat → Nat → Bool) (x : SlotRec) : State × List Byte × SlotRec :=
  let size := 2 ^ e.blockLog2
  match x.reads with
  | none => (s, zeros size, x)
  | some j =>
    let a := s.blockAddr e j
    if bad a size then ((s.stateLost e.ctx 4 a).entryLost e x, zeros size, { x with status := 8, writes := false })
    else
      let b := s.bytes a size
      if leAt 0 16 b = x.req.key then (s, b, { x with stateSeq := leAt 16 8 b, newState := false }) else (s, zeros size, x)

/-- The slots of a window read their state in ascending order. -/
def State.slotStates (s : State) (e : IntakeEntry) (bad : Nat → Nat → Bool) :
    List (SlotRec × Nat) → State × List (Nat × List Byte) × List SlotRec
  | [] => (s, [], [])
  | (x, i) :: t =>
    let (s, b, x) := s.slotState e bad x
    let (s, out, rest) := s.slotStates e bad t
    (s, (i * 2 ^ e.blockLog2, b) :: out, x :: rest)

/-- The state read windows of a batch read at their START (R195, R255, R256): each slot that reads stored state gets its block in its
record, zeros elsewhere. With the state, the records by their place in the window's buffer. -/
def State.stateRead (s : State) (e : IntakeEntry) (batch : Option Nat) (bad : Nat → Nat → Bool) : State × List (Nat × List Byte) :=
  match s.run? e.ctx with
  | none => (s, [])
  | some r =>
    match servedBy r batch unread with
    | none => (s, [])
    | some w =>
      let (s, out, slots) := s.slotStates e bad w.slots.zipIdx
      match s.run? e.ctx with
      | none => (s, out)
      | some r => (s.setWindow e.ctx r { w with slots := slots, stateRead := true }, out)

/-- The bytes of a STATE item (R351). -/
def State.stateItem (s : State) (e : IntakeEntry) (w : WindowRec) : List Byte :=
  ((w.slots.filter fun x => x.writes && x.status == 0).map fun x =>
    match x.block with
    | some j => beBytes 8 j ++ s.bytes (s.blockAddr e j) (2 ^ e.blockLog2)
    | none => []).flatten

/-- A slot of a window writes its record at `at_` behind a header with STATE_SEQ one greater (R255). -/
def State.writeBlock (s : State) (e : IntakeEntry) (w : WindowRec) (x : SlotRec) (i at_ : Nat) : State :=
  match (if x.writes ∧ x.status = 0 ∧ !w.quarantined then x.block else none) with
  | none => s
  | some j =>
    s.putMem (s.blockAddr e j) (blockHeader x.req.key (x.stateSeq + 1) (256 * w.index + i) ++ s.bytes (at_ + 64) (2 ^ e.blockLog2 - 64))

/-- The state write windows of a batch write at their START (R195, R255, R256): each slot with STATUS OK under SCORE or RESTART; a batch
quarantined writes none. Through them a standby applies the STATE items that `bad` does not tell unreadable. What is to ship at their end
(R354): the window with its STATE item, and the windows applied. -/
def State.stateWrite (s : State) (e : IntakeEntry) (batch : Option Nat) (buf : Nat) (bad : Nat → Nat → Bool) :
    State × List (Nat × List Byte) :=
  match s.run? e.ctx with
  | none => (s, [])
  | some r =>
    match servedBy r batch unwritten with
    | none => (s, [])
    | some w =>
      let due := (s.dueStates e batch).takeWhile fun x => match s.stagedAt e x with | some y => !bad y.1 y.2 | none => true
      let s := w.slots.zipIdx.foldl (fun s x => s.writeBlock e w x.1 x.2 (buf + x.2 * 2 ^ e.blockLog2)) s
      let item := if s.mirrors e.ctx then s.stateItem e w else []
      let s := s.applyStates e due
      let out := (w.index, item) :: due.map fun x => (x.window, [])
      match s.run? e.ctx with
      | none => (s, out)
      | some r => (s.putWindow e r { w with stateWritten := true }, out)

/-- The state write windows of a batch have ended (R354): the active module ships the STATE item, and the standby acknowledges what it
applied. -/
def State.stateDone (s : State) (e : IntakeEntry) : List (Nat × List Byte) → State
  | [] => s
  | (w, item) :: t =>
    let s := if s.mirrors e.ctx then (s.shipItem 3 e.ctx w item).inc R.TWN_COUNT_BATCHES else s
    let s := (s.itemsApplied e (t.map Prod.fst))
    { s with twn := { s.twn with due := Tab.put 0 e.ctx (w + 1) s.twn.due } }

/-- The index write windows of a batch have ended (R354): the active module ships the INDEX item. -/
def State.indexDone (s : State) (e : IntakeEntry) (l : List (Nat × List Byte)) : State :=
  match l.getLast? with
  | none => s
  | some (w, _) =>
    let mine := (l.filter fun x => x.1 == w).map Prod.snd
    let s := if s.mirrors e.ctx then s.shipItem 2 e.ctx w mine.flatten else s
    match s.run? e.ctx with
    | none => s
    | some r => s.setRun e.ctx { r with windows := r.windows.map fun x => if x.index = w then { x with indexed := true } else x }

end Sys2Proof.Machine
end

