-- ==== Sys2Proof/Machine/Memory.lean ====
section
/-! DEFINITION. The memory controllers (07_memory_tiers.md R185 to R208): which controller serves an address, what an
error does, scripts, gather windows and service accesses. -/

namespace Sys2Proof.Machine

open Sys2Proof

/-! ## Addresses and regions -/

/-- The stack or the channel that holds an address (R185, R186). -/
def memUnit (a : Nat) : Nat := if isHbm a then a / 0xC00000000 else (a - 0x020000000000) / 128 % 16

/-- The block that raises errors of an address: HBM or DTR (R385). -/
def memSource (a : Nat) : Nat := if isHbm a then 6 else 7

/-- The field of the controller that serves an address (R40). -/
def ctrlField (ctrl : Nat) : Nat := if ctrl < 20 then regionField (24 + ctrl / 2) else regionField 34

/-- The field of the memory that holds a local address. -/
def memField (a : Nat) : Nat := if isHbm a then regionField (24 + memUnit a / 2) else regionField 34

/-- The region of the active plan that holds an address (R190). -/
def State.regionAt (s : State) (a : Nat) : Option MemRegion :=
  s.memPlan.regions.find? fun r => decide (r.base ≤ a) && decide (a < r.base + r.length)

/-- `n` bytes from `a` lie in one region of context `c` (R165). -/
def State.ownRegion (s : State) (c a n : Nat) : Bool :=
  s.memPlan.regions.any fun r => r.ctx == c && decide (r.base ≤ a) && decide (a + n ≤ r.base + r.length)

/-- An access outside its context's regions is not performed (R165, R198). -/
def State.outsideRegions (s : State) (c a : Nat) : State :=
  s.contained (memSource a) 0x22 (memField a) c (memUnit a) a

/-- The bursts of a list that lie in `n` bytes from `a`. -/
def burstsIn (l : List Nat) (a n : Nat) : List Nat := l.filter fun b => decide (a ≤ b) && decide (b < a + n)

/-! ## Errors -/

/-- A read is corrected (R206, R207); in the DDR tier the burst waits to be written back corrected. -/
def State.memCorrected (s : State) (scrub : Bool) (e : Nat × Nat) : State :=
  let a := e.1
  let u := memUnit a
  let ctx := match s.regionAt a with | some r => r.ctx | none => 0
  if isHbm a then
    ((s.incAt R.HBM_ECC_CORR u).wr R.HBM_EVENT_CORR 1).corrected 6 0x62 (memField a) ctx u a
  else
    let s := ((s.incAt R.DTR_ECC_CORR u).wr R.DTR_EVENT_CORR 1).wr R.DTR_ECC_ADDR_DEVICE e.2
    let s := ((s.wr R.DTR_ECC_ADDR_UNCORR 0).wr R.DTR_ECC_ADDR_SCRUB (flag scrub)).wr R.DTR_ECC_ADDR_VALID 1
    let s := { s with scr := { s.scr with writeBacks := s.scr.writeBacks ++ [a / 64 * 64] } }
    (s.wr R.DTR_ECC_ADDR_ADDR (a / 64 * 64)).corrected 7 0x63 (memField a) ctx u a

/-- The record of an uncorrectable burst (R208, R210, R211). -/
def State.recordUncorr (s : State) (scrub : Bool) (a : Nat) : State :=
  let u := memUnit a
  if isHbm a then
    let s := if scrub then (s.incAt R.HBM_ECC_SCRUB_UNCORR u).wr R.HBM_EVENT_SCRUB_UNCORR 1
      else (s.incAt R.HBM_ECC_UNCORR u).wr R.HBM_EVENT_UNCORR 1
    ((s.wr R.HBM_ECC_ADDR_SCRUB (flag scrub)).wr R.HBM_ECC_ADDR_VALID 1).wr R.HBM_ECC_ADDR_ADDR (a / 32 * 32)
  else
    let s := if scrub then (s.incAt R.DTR_ECC_SCRUB_UNCORR u).wr R.DTR_EVENT_SCRUB_UNCORR 1
      else (s.incAt R.DTR_ECC_UNCORR u).wr R.DTR_EVENT_UNCORR 1
    let s := ((s.wr R.DTR_ECC_ADDR_UNCORR 1).wr R.DTR_ECC_ADDR_SCRUB (flag scrub)).wr R.DTR_ECC_ADDR_VALID 1
    s.wr R.DTR_ECC_ADDR_ADDR (a / 64 * 64)

/-- A script or window read of context `c` finds an uncorrectable burst (R208). -/
def State.uncorrRead (s : State) (c a : Nat) : State :=
  let s := s.recordUncorr false a
  match s.regionAt a with
  | none => s.notice (memSource a) 0x82 (memUnit a) 0 0
  | some r =>
    if r.kind = 2 ∨ r.kind = 3 then s.contained (memSource a) 0x26 (memField a) c (memUnit a) a
    else if r.kind = 4 ∨ r.kind = 8 then s.stepFatal (memSource a) 0x09 (memField a) (memUnit a) a (2 ^ c)
    else
      let s := s.stepFatal (memSource a) 0x0A (memField a) (memUnit a) a (2 ^ c)
      match s.shardAt c a with
      | some (i, _) => s.startRepair c i
      | none => s

/-- An uncorrectable burst in the inactive bank of a context with SWAP (R208). -/
def State.uncorrInactive (s : State) (c a : Nat) : State :=
  let w := s.wctx c
  if w.closing.isSome then (s.contained (memSource a) 0x2A (memField a) c (memUnit a) a).closingMismatch c (match s.shardAt c a with | some (i, _) => i | none => 0)
  else if s.rdAt R.WGT_CTX_LANDING c = 0 then s.notice (memSource a) 0x83 (memUnit a) c 0
  else (s.contained (memSource a) 0x2A (memField a) c (memUnit a) a).emptyLanding c 6

/-- Scrub finds an uncorrectable burst (R208). -/
def State.uncorrScrub (s : State) (a : Nat) : State :=
  let s := s.recordUncorr true a
  match s.regionAt a with
  | none => s.notice (memSource a) 0x82 (memUnit a) 0 0
  | some r =>
    if r.kind = 2 ∨ r.kind = 3 then s.contained (memSource a) 0x26 (memField a) r.ctx (memUnit a) a
    else
      let inactive : Bool := match s.binding? r.ctx, s.shardAt r.ctx a with
        | some b, some (_, k) => b.swap && k != s.rdAt R.WGT_CTX_BANK r.ctx
        | _, _ => false
      if inactive then s.uncorrInactive r.ctx a else s.contained (memSource a) 0x2A (memField a) r.ctx (memUnit a) a

/-- A service read finds an uncorrectable burst (R208). -/
def State.uncorrService (s : State) (a : Nat) : State :=
  let s := s.recordUncorr false a
  match s.regionAt a with
  | none => s.notice (memSource a) 0x82 (memUnit a) 0 0
  | some _ => s

/-- A sweep of a bank finds an uncorrectable burst (R208): in an inactive bank as the table has it, in the active bank as its row for any
other region of a context (DEDUCED, log entry 131). -/
def State.uncorrSweep (s : State) (c a : Nat) (inactive : Bool) : State :=
  let s := s.recordUncorr false a
  if inactive then s.uncorrInactive c a else s.contained (memSource a) 0x2A (memField a) c (memUnit a) a

/-- A read of `n` bytes from `a` counts its bursts and every one of them that is corrected. -/
def State.correctedIn (s : State) (e : MemEcc) (a n : Nat) : State :=
  let s := s.countBursts false a n
  (e.fixed.filter fun x => decide (a ≤ x.1) && decide (x.1 < a + n)).foldl (fun s x => s.memCorrected false x) s

/-- A read of `n` bytes from `a` by a script or window of context `c`: what its errors do, and whether its data are good
(R138, R208). What its controller has taken for these bytes before reads as taken (R195). -/
def State.memRead (s : State) (e : MemEcc) (c a n : Nat) : State × Bool :=
  let s := (s.land a n).correctedIn e a n
  let bad := burstsIn e.lost a n
  (bad.foldl (fun s b => s.uncorrRead c b) s, bad.isEmpty)

/-! ## Prefetch -/

/-- The address of a script entry as its controller sees it. -/
def State.entryAddr (s : State) (e : ScriptEntry) : Nat := s.bankAddr e.ctx e.addr

/-- The prefetched bursts, with their entries, that `n` bytes from `a` touch and no write has touched yet (R202); those not read yet
are not among them. -/
def State.prefetchHit (s : State) (a n : Nat) : List (Nat × Nat) :=
  (s.scr.prefetched.map fun i =>
    match s.memPlan.entries[i]? with
    | none => []
    | some e =>
      let b := s.entryAddr e
      let lo := max a b
      let hi := min (a + n) (b + 128 * e.units)
      ((List.range (if lo < hi then ceilDiv hi 64 - lo / 64 else 0)).map fun k => (i, lo / 64 + k)).filter fun x =>
        !s.scr.discarded.contains x && !s.scr.unread.contains x).flatten

/-- A write of `n` bytes from `a` discards the prefetched bursts it touches; they are read again in the entry's own positions (R202). -/
def State.writeDiscards (s : State) (a n : Nat) : State :=
  if isHbm a then s
  else
    let hit := s.prefetchHit a n
    { s with scr := { s.scr with discarded := hit ++ s.scr.discarded } }.addAt R.DTR_PREFETCH_DISCARDED 0 hit.length

/-- A write of local memory by a script or window takes its place in the order of its controller (R195, R202). -/
def State.memTaken (s : State) (a n : Nat) : State := (s.writeDiscards a n).countBursts true a n

/-- A write of local memory by a window, whose records its controller holds. -/
def State.memWrite (s : State) (a : Nat) (l : List Byte) : State := ((s.memTaken a l.length).land a l.length).setBytes a l

/-- Bytes of the prefetch buffer: 4 MiB (R202). -/
def prefetchBuffer : Nat := 4194304

/-- Bytes of the entries read early, those whose own beats run among them. -/
def State.prefetchedBytes (s : State) : Nat :=
  ((s.scr.prefetched ++ s.scr.reading).map fun i => match s.memPlan.entries[i]? with | some e => 128 * e.units | none => 0).sum

/-- The bursts of a script entry, with the entry. -/
def State.entryBursts (s : State) (e : ScriptEntry) (i : Nat) : List (Nat × Nat) :=
  (List.range (2 * e.units)).map fun k => (i, s.entryAddr e / 64 + k)

/-- In Relaxed mode with EN_PREFETCH, the tier controller begins to read the data of stream-read entry `i` early (R202): within
AHEAD beats of the entry's own, into the prefetch buffer, once, and as one choice. -/
def State.prefetch (s : State) (i : Nat) : State :=
  match s.memPlan.entries[i]? with
  | none => s
  | some e =>
    let now := s.ctxPos e.ctx / 16
    if s.mayChoose R.GEN_MODE_EN_PREFETCH && e.ctrl == 20 && e.kind == 1 && s.ctxRunning e.ctx && !s.ctxPaused e.ctx
        && decide (now < e.beat) && decide (e.beat ≤ now + s.rd R.DTR_CFG_AHEAD) && !(s.scr.prefetched ++ s.scr.reading).contains i
        && decide (s.prefetchedBytes + 128 * e.units ≤ prefetchBuffer) then
      let s := { s with scr := { s.scr with prefetched := i :: s.scr.prefetched, unread := s.scr.unread ++ s.entryBursts e i } }
      (s.inc R.DTR_PREFETCH_ENTRIES).choice R.GEN_CHOICE_KIND_PREFETCH
    else s

/-- Entry `i` begins to run in its own beats: what has been read early comes from the prefetch buffer, and only the rest takes its
positions (R202). -/
def State.prefetchRuns (s : State) (i : Nat) : State :=
  if s.scr.prefetched.contains i then
    { s with scr := { s.scr with prefetched := dropOne i s.scr.prefetched, reading := i :: s.scr.reading } }
  else s

/-- The own beats of an entry that was read early are over, in this step or as those of the step before, and it has left the prefetch
buffer. -/
def State.prefetchOver (s : State) (i : Nat) : State :=
  match s.memPlan.entries[i]? with
  | none => s
  | some e =>
    let pos := s.ctxPos e.ctx / 16
    let end_ := e.beat + e.beats
    if end_ ≤ pos ∨ (pos < e.beat ∧ end_ ≤ pos + s.stepLen e.ctx / 16) then
      { s with scr := { s.scr with reading := dropOne i s.scr.reading, unread := s.scr.unread.filter fun x => x.1 != i
                                   discarded := s.scr.discarded.filter fun x => x.1 != i } }
    else s

/-! ## Positions (R194, R196) -/

/-- Positions of entry `i` in a beat on a channel: those of its bursts, or where it was read early of those among them that were not read
or were discarded (R194, R202). -/
def State.entryHeld (s : State) (e : ScriptEntry) (i beat ch : Nat) : Nat :=
  if (s.scr.prefetched ++ s.scr.reading).contains i then
    if e.beat ≤ beat ∧ beat < e.beat + e.beats then
      let (o, n) := entryPart e (beat - e.beat)
      let a := s.entryAddr e + o
      (((s.scr.discarded ++ s.scr.unread).filter fun x => x.1 == i && decide (a ≤ 64 * x.2) && decide (64 * x.2 < a + n)).map fun x =>
        burstsOn (64 * x.2) 64 ch).sum
    else 0
  else entryPositions e beat ch

/-- Positions that scripts and open windows of the active plan hold on a channel in the present beat (R193, R194, R196, R201): those of
this step, and those that reach into it from the step before. -/
def State.held (s : State) (ch : Nat) : Nat :=
  let m := s.memPlan
  let runs (c : Nat) : Bool := s.ctxRunning c && !s.ctxPaused c
  ((m.entries.zipIdx.filter fun x => runs x.1.ctx && s.variantActive x.1.ctx x.1.fork x.1.variants).map fun x =>
      s.entryHeld x.1 x.2 (s.ctxPos x.1.ctx / 16) ch + s.entryHeld x.1 x.2 ((s.ctxPos x.1.ctx + s.stepLen x.1.ctx) / 16) ch).sum
    + ((m.windows.filter fun d => runs d.ctx && s.variantActive d.ctx d.fork d.variants).map fun d =>
      match Tab.find? (256 * d.bench + d.id) s.scr.windows with
      | some g => if g.early then 0 else windowPositions m d ((s.ctxPos d.ctx + g.shift) / 16 - g.late) ch
      | none => windowPositions m d (s.ctxPos d.ctx / 16) ch).sum

/-- The controller of an address runs: its region has not stopped (R50), and the die core is not in reset (R205, R346). -/
def State.controllerRuns (s : State) (a : Nat) : Bool :=
  rangeOf a == .bench || rangeOf a == .forester || (!s.onAt R.CLK_RGN_STATUS_STOPPED (memRegion a) && !s.pwr.dieReset)

/-- The present beat has data positions left for a service access of `n` bytes from `a`, and its controller runs (R50, R196). -/
def State.positionsFree (s : State) (a n : Nat) : Bool :=
  s.controllerRuns a && (!s.planActive || (List.range channels).all fun ch =>
    burstsOn a n ch == 0 || decide (s.held ch + Tab.get 0 ch s.scr.served + burstsOn a n ch ≤ dataPositions (channelDdr ch)))

/-- A service access takes its positions of the present beat, while a plan is active. -/
def State.takePositions (s : State) (a n : Nat) : State :=
  if !s.planActive then s
  else
    let served := (List.range channels).foldl (fun t ch => Tab.put 0 ch (Tab.get 0 ch t + burstsOn a n ch) t) s.scr.served
    { s with scr := { s.scr with served := served } }

/-- The bursts of entries read early take the positions that the present beat leaves free (R202). -/
def State.prefetchBeat (s : State) : State :=
  s.scr.unread.foldl (fun s x =>
    if s.scr.prefetched.contains x.1 && s.positionsFree (64 * x.2) 64 then
      let s := s.takePositions (64 * x.2) 64
      { s with scr := { s.scr with unread := s.scr.unread.filter (· != x) } }
    else s) s

/-! ## Maintenance positions (R191, R203, R207, R209) -/

/-- The clock region of a channel's controller (R40). -/
def channelRegion (ch : Nat) : Nat := if channelDdr ch then 34 else 24 + ch / 128

/-- A channel has a maintenance position left in the present beat, and its controller runs (R50, R191). -/
def State.upkeepFree (s : State) (ch : Nat) : Bool :=
  !s.onAt R.CLK_RGN_STATUS_STOPPED (channelRegion ch) && decide (Tab.get 0 ch s.scr.upkeep < maintenancePositions (channelDdr ch))

/-- Take a maintenance position of the present beat. -/
def State.takeUpkeep (s : State) (ch : Nat) : State :=
  { s with scr := { s.scr with upkeep := Tab.put 0 ch (Tab.get 0 ch s.scr.upkeep + 1) s.scr.upkeep } }

/-- An upkeep command of stack `u`, or of DDR channel `u` − 20, takes a maintenance position on each of its channels, where all of them have
one left (R203). -/
def State.upkeepTaken (s : State) (u : Nat) : Option State :=
  if (unitChannels u).all s.upkeepFree then some ((unitChannels u).foldl State.takeUpkeep s) else none

/-- A refresh takes its maintenance positions, or waits for the next beat (R203). -/
def State.serveRefresh (s : State) (u : Nat) : State :=
  (s.upkeepTaken u).getD { s with scr := { s.scr with refreshes := s.scr.refreshes ++ [u] } }

/-- A refresh management command takes its maintenance positions, or waits (R182, R183, R203). -/
def State.serveManagement (s : State) (u : Nat) : State :=
  (s.upkeepTaken u).getD { s with scr := { s.scr with managements := s.scr.managements ++ [u] } }

/-- A recalibration takes its maintenance positions, or waits (R191, R203). -/
def State.serveRecalibration (s : State) (u : Nat) : State :=
  (s.upkeepTaken u).getD { s with scr := { s.scr with recalibrations := s.scr.recalibrations ++ [u] } }

/-- The stacks, and the DDR channels as 20 + channel, that are trained and not in self refresh. -/
def State.awakeUnits (s : State) : List Nat :=
  ((List.range 20).filter fun u => s.onAt R.HBM_STACK_TRAINED u && !s.onAt R.HBM_STACK_SELF_REFRESH u)
    ++ ((List.range 16).filter fun u => s.onAt R.DTR_CHAN_TRAINED u && !s.onAt R.DTR_CHAN_SELF_REFRESH u).map (20 + ·)

/-- The units whose refresh management command, or recalibration, waits or falls due in the beat that begins. -/
def State.upkeepDue (s : State) (waiting : List Nat) (due : Nat → Nat → Bool) : List Nat :=
  waiting ++ s.awakeUnits.filter fun u => due u (s.now / 16)

/-- A corrected burst of the DDR tier is written back in a free maintenance or data position, or waits (R207). -/
def State.writeBack (s : State) (a : Nat) : State :=
  if s.upkeepFree (channelAt a) then (s.takeUpkeep (channelAt a)).countBursts true a 64
  else if s.positionsFree a 64 then (s.takePositions a 64).countBursts true a 64
  else { s with scr := { s.scr with writeBacks := s.scr.writeBacks ++ [a] } }

/-- A beat begins: every position is free again, and its maintenance positions serve what waits and what falls due, in their order of
precedence: refreshes, refresh management, recalibration, and then corrected bursts (R191, R203, R207). How often the second and third fall
due is free (log entry 153). -/
def State.upkeepBeat (s : State) (ecc : MemEcc) : State :=
  let s := { s with scr := { s.scr with served := [], upkeep := [], ecc := ecc } }
  let due := s.scr.refreshes
  let s := due.foldl State.serveRefresh { s with scr := { s.scr with refreshes := [] } }
  let due := s.upkeepDue s.scr.managements Config.managementDue
  let s := due.foldl State.serveManagement { s with scr := { s.scr with managements := [] } }
  let due := s.upkeepDue s.scr.recalibrations Config.recalibrationDue
  let s := due.foldl State.serveRecalibration { s with scr := { s.scr with recalibrations := [] } }
  let back := s.scr.writeBacks
  back.foldl State.writeBack { s with scr := { s.scr with writeBacks := [] } }

/-! ## Bench store read by the controllers -/

/-- A controller reads `n` bytes of bench store from local address `a`: what the words' codes do, and whether its data are good
(R88). -/
def State.storeRead (s : State) (e : MemEcc) (a n : Nat) : State × Bool :=
  let b := (a - benchBase 0) / storeSize
  let corr := (e.fixed.map Prod.fst).filter fun x => decide (a ≤ x) && decide (x < a + n)
  s.readStore b ⟨corr.map (· - benchBase b), (burstsIn e.lost a n).map (· - benchBase b)⟩

/-- Parts of local memory are read for context `c` under the codes of the beat (R88, R206): the state after it, and whether all of them are
good. -/
def State.readSpans (s : State) (c : Nat) (l : List (Nat × Nat)) : State × Bool :=
  l.foldl (fun (x : State × Bool) y =>
    let (s, ok) := x
    let z := if rangeOf y.1 = .bench then s.storeRead s.scr.ecc y.1 y.2 else s.memRead s.scr.ecc c y.1 y.2
    (z.1, ok && z.2)) (s, true)

/-! ## Scripts -/

/-- Data of a script entry begin to pass the queue between two regions over the beats of the entry, `late` beats late (R43, R193). -/
def State.carry (s : State) (e : ScriptEntry) (late writer reader after : Nat) (bench : Option Nat) (addr : Nat) (l : List Byte) : State :=
  s.enqueue { ctx := e.ctx, held := true, writer := writer, reader := reader, flits := ceilDiv l.length 64, span := 16 * e.beats
              ticks := 16 * late, into := 0, inside := [], after := after, bench := bench, addr := addr, bytes := l, counter := none, send := none }

/-- A script entry acts in its nominal beats, `late` beats late (R192, R193, R195; its bytes are taken whole at its first beat: log entry
24). Its data pass the queue from their region to the one that takes them, and are there at 16 × (b + n) + 4 plus the route latency. -/
def State.runEntry (s : State) (ecc : MemEcc) (late : Nat) (e : ScriptEntry) : State :=
  let n := 128 * e.units
  let a := s.entryAddr e
  let b := s.bankAddr e.ctx e.addr2
  let way := s.routeLatency (ctrlRegion e.ctrl) e.bench
  let p := s.physical e.bench
  let cell := s.cellAddr e.bench e.baddr
  if !s.ownRegion e.ctx a n then s.outsideRegions e.ctx a
  else if e.kind = 1 then
    match s.memRead ecc e.ctx a n with
    | (s, true) => s.carry e late (ctrlRegion e.ctrl) (benchRegion p) way (some p) cell (s.bytes a n)
    | (s, false) => s
  else if e.kind = 2 then
    match s.storeRead ecc cell n with
    | (s, true) => (s.memTaken a n).carry e late (benchRegion p) (ctrlRegion e.ctrl) way (some p) a (s.bytes cell n)
    | (s, false) => s
  else if !s.ownRegion e.ctx b n then s.outsideRegions e.ctx b
  else
    match s.memRead ecc e.ctx a n with
    | (s, true) => (s.memTaken b n).carry e late (ctrlRegion e.ctrl) (memRegion b) 0 none b (s.bytes a n)
    | (s, false) => s

/-- The present nominal beat of a context begins now, and its work goes on: it runs, and no hold, replay span or point
pauses it (R193, R312). -/
def State.beatRuns (s : State) (c : Nat) : Bool :=
  s.ctxRunning c && !s.ctxPaused c && s.ctxPos c % 16 == 0

/-- The clock of a controller that an entry uses is stopped (R50). -/
def State.entryStopped (s : State) (e : ScriptEntry) : Bool :=
  s.onAt R.CLK_RGN_STATUS_STOPPED (ctrlRegion e.ctrl) || (e.kind == 3 && s.onAt R.CLK_RGN_STATUS_STOPPED (memRegion e.addr2))

/-- Entries whose first beat begins now act in their order (R195); where a controller stands still they wait for it (R50). -/
def State.runScripts (s : State) (ecc : MemEcc) : List (ScriptEntry × Nat) → State
  | [] => s
  | (e, i) :: t =>
    let s := if s.beatRuns e.ctx && s.ctxPos e.ctx == 16 * e.beat && s.variantActive e.ctx e.fork e.variants then
        if s.entryStopped e then { s with scr := { s.scr with missed := Tab.ins i 0 s.scr.missed } }
        else (s.runEntry ecc 0 e).prefetchRuns i
      else s
    s.runScripts ecc t

/-- An entry that waits for its controller is a beat later, and acts once the controller runs (R44, R50). -/
def State.runMissed (s : State) (ecc : MemEcc) (x : Nat × Nat) : State :=
  match s.memPlan.entries[x.1]? with
  | none => s
  | some e =>
    if !s.beatRuns e.ctx then s
    else if s.entryStopped e then { s with scr := { s.scr with missed := Tab.ins x.1 (x.2 + 1) s.scr.missed } }
    else
      let s := (s.runEntry ecc (x.2 + 1) e).prefetchRuns x.1
      { s with scr := { s.scr with missed := Tab.del x.1 s.scr.missed } }

/-- The scripts in a beat: what waits for a controller, then the entries of the beat. -/
def State.scriptBeat (s : State) (ecc : MemEcc) : State :=
  let s := s.scr.reading.foldl State.prefetchOver s
  (s.scr.missed.foldl (fun s x => s.runMissed ecc x) s).runScripts ecc s.memPlan.entries.zipIdx

/-! ## Gather windows -/

/-- The key of a window in the windows bound. -/
def windowKey (d : GatherDesc) : Nat := 256 * d.bench + d.id

/-- Set or drop the binding of a window. -/
def State.setGather (s : State) (d : GatherDesc) (g : Option Gather) : State :=
  { s with scr := { s.scr with windows := match g with
    | some g => Tab.ins (windowKey d) g s.scr.windows
    | none => Tab.del (windowKey d) s.scr.windows } }

/-- The region entry of a window. -/
def State.windowRegion (s : State) (d : GatherDesc) : MemRegion := s.memPlan.regions.getD d.region ⟨16, 0, 0, 0⟩

/-- The address in bench store of a window's records: behind its list, rounded up to 128 bytes (R198). -/
def State.recordsAt (s : State) (d : GatherDesc) (g : Gather) : Nat :=
  benchBase (s.physical d.bench) + roundUp 128 (128 * g.addr + 8 * d.n)

/-- A window that the Stream Context Table engine runs itself (R256). -/
def State.engineWindow (s : State) (d : GatherDesc) : Bool :=
  let k := (s.windowRegion d).kind
  (k == 2 || k == 3) && (s.intake? d.ctx).isSome

/-- The state reads of a window of requests, as the engine lists them (R198, R256). -/
def State.engineList (s : State) (d : GatherDesc) (batch : Option Nat) : List Nat :=
  match s.intake? d.ctx, s.run? d.ctx with
  | some e, some r =>
    let w := servedBy r batch (if d.write then unwritten else unread)
    let slots := match w with | some w => w.slots | none => []
    (List.range d.n).map fun i => match slots[i]? with
      | none => 0
      | some x =>
        let j := if d.write then (if x.writes && x.status == 0 then x.block else none) else x.reads
        match j with | some j => 2 ^ 63 + s.blockAddr e j | none => 0
  | _, _ => []

/-- The engine's lists go to bench store before beat START (R256). -/
def State.writeEngineList (s : State) (d : GatherDesc) (g : Gather) : State :=
  if s.engineWindow d && (s.windowRegion d).kind == 2 then
    s.setBytes (benchBase (s.physical d.bench) + 128 * g.addr) (((s.engineList d g.batch).map (leBytes 8)).flatten)
  else s

/-- A list entry that a window does not serve (R198): it is counted, and is a Contained error. -/
def State.refuseEntry (s : State) (d : GatherDesc) (a : Nat) : State :=
  let s := if d.ctrl < 20 then (s.inc R.HBM_GATHER_REFUSED).wr R.HBM_EVENT_REFUSED 1 else s.wr R.DTR_EVENT_REFUSED 1
  let u := if d.ctrl < 20 then d.ctrl else 0
  s.contained (if d.ctrl < 20 then 6 else 7) 0x22 (ctrlField d.ctrl) d.ctx u a

/-- The place in memory that a list entry names: none where VALID is clear, refused outside REGION or off its size (R198). Bits [62:48],
which R198 gives as zero, are not looked at: DESIGN CHOICE, log entry 132. -/
def State.listPlace (s : State) (d : GatherDesc) (x : Nat) : Option (Option Nat) :=
  let a := x % 2 ^ 48
  let r := s.windowRegion d
  if !bit 63 x then none
  else if r.base ≤ a ∧ a + 2 ^ d.record ≤ r.base + r.length ∧ a % 2 ^ d.record = 0 then some (some (s.bankAddr d.ctx a))
  else some none

/-- What the accesses of a window give: the state after them, its bytes for bench store by their offset from the records' address,
and the number of list entries refused and valid. -/
structure Gathered where
  state : State
  out : List (Nat × List Byte)
  refused : Nat
  valid : Nat

/-- The accesses of a read window (R198): a record that cannot be read is not given. -/
def State.gatherRecords (s : State) (ecc : MemEcc) (d : GatherDesc) : List (Nat × Nat) → Gathered
  | [] => ⟨s, [], 0, 0⟩
  | (x, i) :: t =>
    let z := 2 ^ d.record
    let g : Gathered := match s.listPlace d x with
      | none => ⟨s, [(i * z, zeros z)], 0, 0⟩
      | some none => ⟨s.refuseEntry d (x % 2 ^ 48), [(i * z, zeros z)], 1, 1⟩
      | some (some a) =>
        match s.memRead ecc d.ctx a z with
        | (s, true) => ⟨s, [(i * z, s.bytes a z)], 0, 1⟩
        | (s, false) => ⟨s, [], 0, 1⟩
    let h := g.state.gatherRecords ecc d t
    ⟨h.state, g.out ++ h.out, g.refused + h.refused, g.valid + h.valid⟩

/-- The accesses of a write window, in list order (R198). -/
def State.scatterRecords (s : State) (d : GatherDesc) (records : List Byte) : List (Nat × Nat) → Gathered
  | [] => ⟨s, [], 0, 0⟩
  | (x, i) :: t =>
    let z := 2 ^ d.record
    let g : Gathered := match s.listPlace d x with
      | none => ⟨s, [], 0, 0⟩
      | some none => ⟨s.refuseEntry d (x % 2 ^ 48), [], 1, 1⟩
      | some (some a) => ⟨s.memWrite a (slice (i * z) z records), [], 0, 1⟩
    let h := g.state.scatterRecords d records t
    ⟨h.state, [], g.refused + h.refused, g.valid + h.valid⟩

/-- The accesses of a window over its list, with the status word behind its records (R198). -/
def State.windowAccess (s : State) (ecc : MemEcc) (d : GatherDesc) (list : List Nat) (records : List Byte) : Gathered :=
  let g := if d.write then s.scatterRecords d records list.zipIdx else s.gatherRecords ecc d list.zipIdx
  { g with out := g.out ++ [(d.n * 2 ^ d.record, leBytes 8 (g.refused % 65536 + g.valid % 65536 * 65536))] }

/-- The read of a write window's records from bench store, and whether it succeeded; a read window has none. -/
def State.recordsRead (s : State) (ecc : MemEcc) (d : GatherDesc) (g : Gather) : State × Bool :=
  if d.write then s.storeRead ecc (s.recordsAt d g) (d.n * 2 ^ d.record) else (s, true)

/-- The sub-table that an index read window serves: the four windows of a batch take the probes in order (R256). -/
def State.probeOf (s : State) (index : Nat) (d : GatherDesc) : Nat :=
  ((s.memPlan.windows.take index).filter fun x => x.ctx == d.ctx && !x.write && (s.windowRegion x).kind == 3).length % 4

/-- A window of the Stream Context Table engine reads or writes in the order of its controller (R195, R256). With the
state, what its end places or ships. -/
def State.engineStart (s : State) (ecc : MemEcc) (index : Nat) (d : GatherDesc) (g : Gather) (e : IntakeEntry) :
    State × List (Nat × List Byte) :=
  let bad (a n : Nat) : Bool := !(burstsIn ecc.lost a n).isEmpty
  let r := s.windowRegion d
  let look (s : State) (n a : Nat) : State := (s.memRead ecc d.ctx a n).1
  if r.kind = 3 then
    if d.write then
      let due := s.dueIndexes e g.batch
      let s := (due.filterMap (s.stagedAt e)).foldl (fun s y => look s y.2 y.1) s
      let good := due.takeWhile fun x => match s.stagedAt e x with | some y => !bad y.1 y.2 | none => true
      let out := s.indexShip e g.batch r
      ((s.applyIndexes e good).indexWrite r, out)
    else
      let p := s.probeOf index d
      (((s.indexReads e g.batch p).foldl (fun s a => look s 256 a) s).indexRead e g.batch p bad, [])
  else if d.write then
    (((s.dueStates e g.batch).filterMap (s.stagedAt e)).foldl (fun s y => look s y.2 y.1) s).stateWrite e g.batch (s.recordsAt d g) bad
  else ((s.stateReads e g.batch).foldl (fun s a => look s (2 ^ e.blockLog2) a) s).stateRead e g.batch bad

/-- What the accesses of a window move, and what they give (R195, R198, R256). -/
def State.windowMoves (s : State) (ecc : MemEcc) (index : Nat) (d : GatherDesc) (g : Gather) (list : List Nat) (records : List Byte) :
    State × List (Nat × List Byte) :=
  match (if s.engineWindow d then s.intake? d.ctx else none) with
  | some e => s.engineStart ecc index d g e
  | none =>
    let h := s.windowAccess ecc d list records
    (h.state, h.out)

/-- What the active plan says of a window beyond its descriptor. -/
def State.windowUse? (s : State) (index : Nat) : Option WindowUse :=
  match s.pln.active with
  | some p => p.uses.find? fun x => x.index == index
  | none => none

/-- The batch of intake that an engine's window serves, where the plan names it (R256): one before the first window is none at all. -/
def State.windowBatch (s : State) (index : Nat) (d : GatherDesc) : Option Nat :=
  match s.windowUse? index, s.intake? d.ctx, s.ctx? d.ctx with
  | some u, some e, some r => u.batch.map fun k =>
    let n : Int := (r.step * s.perStep e : Nat) + k
    if n < 0 then 2 ^ 64 else n.toNat
  | _, _, _ => none

/-- What a window moves between its bench and its controller passes their queue (R42): `n` bytes over a number of ticks. -/
def State.passWindow (s : State) (d : GatherDesc) (g : Gather) (back : Bool) (n span : Nat) : State :=
  let p := s.physical d.bench
  let (w, r) := if back then (ctrlRegion d.ctrl, benchRegion p) else (benchRegion p, ctrlRegion d.ctrl)
  s.enqueue { ctx := d.ctx, held := true, writer := w, reader := r, flits := ceilDiv n 64, span := span, ticks := 0, into := 0, inside := []
              after := if back then s.routeLatency (ctrlRegion d.ctrl) d.bench else 0, bench := some p, addr := s.recordsAt d g, bytes := []
              counter := none, send := none }

/-- What a window moves has passed its queue. -/
def State.windowPassed (s : State) (d : GatherDesc) (g : Gather) : Bool :=
  s.scr.queue.all fun x => !(x.bytes == [] && x.reader == benchRegion (s.physical d.bench) && x.addr == s.recordsAt d g)

/-- In beat START the controller reads the list, and a write window's records (R199). A window belongs to its region's context; one that
does not is an access outside its context's regions, and is not performed (R165). -/
def State.startWindow (s : State) (ecc : MemEcc) (index : Nat) (d : GatherDesc) (g : Gather) : State :=
  let g := { g with batch := s.windowBatch index d }
  let s := { s with scr := { s.scr with started := addOnce (windowKey d) s.scr.started } }
  let s := (s.writeEngineList d g).trace 4 (ctrlField d.ctrl) (if d.ctrl < 20 then 6 else 7) d.id d.ctx
  let base := benchBase (s.physical d.bench) + 128 * g.addr
  let z := if d.write then d.n * 2 ^ d.record else 0
  if (s.windowRegion d).ctx ≠ d.ctx then s.outsideRegions d.ctx (s.windowRegion d).base
  else
    match s.storeRead ecc base (8 * d.n) with
    | (s, false) => s
    | (s, true) =>
      match s.recordsRead ecc d g with
      | (s, false) => s
      | (s, true) =>
        let list := (List.range d.n).map fun i => s.le (base + 8 * i) 8
        let g := { g with list := some list, records := s.bytes (s.recordsAt d g) z }
        (s.setGather d (some g)).passWindow d g false (8 * d.n + z) 16

/-- In the beat after START the accesses of a window run, in the order of its controller, which is that of START: before whatever starts in
this beat (R195, R199; the first of the beats that R199 gives them: log entry 24). -/
def State.moveWindow (s : State) (ecc : MemEcc) (index : Nat) (d : GatherDesc) : State :=
  match Tab.find? (windowKey d) s.scr.windows with
  | none => s
  | some g =>
    match g.list with
    | none => s
    | some list =>
      if s.beatRuns d.ctx && !g.moved && !s.onAt R.CLK_RGN_STATUS_STOPPED (ctrlRegion d.ctrl)
          && s.ctxPos d.ctx + g.shift == 16 * (d.start + g.late + 1) then
        let (s, out) := s.windowMoves ecc index d g list g.records
        let g := { g with moved := true, out := out }
        let s := s.setGather d (some g)
        if d.write ∨ (s.engineWindow d ∧ (s.windowRegion d).kind = 3) then s
        else s.passWindow d g true (d.n * 2 ^ d.record + 8) (16 * (d.length - 1))
      else s

/-- The accesses of the windows that started in the beat before. -/
def State.moveWindows (s : State) (ecc : MemEcc) : State :=
  s.memPlan.windows.zipIdx.foldl (fun s (x : GatherDesc × Nat) => s.moveWindow ecc x.2 x.1) s

/-- A window bound with its list at a unit of bench store, and so many beats late. -/
def Gather.bound (addr late : Nat) : Gather :=
  { addr := addr, late := late, list := none, records := [], moved := false, out := [], early := false, shift := 0, batch := none }

/-- The binding with which a window starts in its beat START (R199): that of its GWIN, in this step or ahead of it; a window of index
buckets needs no buffer and no GWIN. -/
def State.gatherFor (s : State) (d : GatherDesc) : Option Gather :=
  match Tab.find? (windowKey d) s.scr.windows, Tab.find? (windowKey d) s.scr.ahead with
  | some g, _ => some g
  | none, some a => some (Gather.bound a 0)
  | none, none => if s.engineWindow d && (s.windowRegion d).kind == 3 then some (Gather.bound 0 0) else none

/-- A window that starts uses up the binding made ahead of its step, if there is one. -/
def State.takeAhead (s : State) (key : Nat) : State :=
  match Tab.find? key s.scr.ahead with
  | none => s
  | some a => { s with scr := { s.scr with ahead := Tab.del key s.scr.ahead, usedAhead := Tab.ins key a s.scr.usedAhead } }

/-- A window in a beat: one whose START this is starts, and a beat in which its controller stands still moves it by a beat (R50,
R199). -/
def State.windowBeat (s : State) (ecc : MemEcc) (index : Nat) (d : GatherDesc) (g : Gather) : State :=
  let starts : Bool := g.list.isNone && s.ctxPos d.ctx == 16 * (d.start + g.late)
  if s.onAt R.CLK_RGN_STATUS_STOPPED (ctrlRegion d.ctrl) then
    if starts || (g.list.isSome && !g.early) then s.setGather d (some { g with late := g.late + 1 }) else s
  else if starts then
    (s.takeAhead (windowKey d)).startWindow ecc index d g
  else s

/-- The windows in the order of their controllers (R195, R199). -/
def State.startWindows (s : State) (ecc : MemEcc) : List (GatherDesc × Nat) → State
  | [] => s
  | (d, i) :: t =>
    let s := match s.gatherFor d with
      | some g => if s.beatRuns d.ctx && (g.list.isSome || s.variantActive d.ctx d.fork d.variants) then s.windowBeat ecc i d g else s
      | none => s
    s.startWindows ecc t

/-- The records and the status word of a window fall into place in bench store (R198). -/
def State.windowData (s : State) (d : GatherDesc) (g : Gather) : State :=
  g.out.foldl (fun s x => s.setBytes (s.recordsAt d g + x.1) x.2) s

/-- A write window of the engine is the last of its batch over regions of its kind (R354): no other that serves the batch ends after it; the
windows for which the plan names no batch serve the batches of a step in equal numbers, in their order. -/
def State.closesBatch (s : State) (index : Nat) (d : GatherDesc) (e : IntakeEntry) : Bool :=
  let kind := (s.windowRegion d).kind
  let own := s.memPlan.windows.zipIdx.filter fun (x : GatherDesc × Nat) => x.1.ctx == d.ctx && x.1.write && (s.windowRegion x.1).kind == kind
  let batch (i : Nat) : Option Int := (s.windowUse? i).bind WindowUse.batch
  match batch index with
  | some k => own.all fun x =>
      batch x.2 != some k || decide (x.1.start + x.1.length < d.start + d.length)
        || (x.1.start + x.1.length == d.start + d.length && decide (x.2 ≤ index))
  | none =>
    let l := own.filter fun x => (batch x.2).isNone
    let per := max 1 (l.length / max 1 (s.perStep e))
    (l.filter fun x => decide (x.2 ≤ index)).length % per == 0

/-- A write window of the engine ends: what the windows of its batch give is gathered, and with the last of them it is done with. -/
def State.gatherShip (s : State) (e : IntakeEntry) (key : Nat) (last : Bool) (out : List (Nat × List Byte))
    (f : State → List (Nat × List Byte) → State) : State :=
  let l := Tab.get [] key s.itk.shipping ++ out
  if last then f { s with itk := { s.itk with shipping := Tab.del key s.itk.shipping } } l
  else { s with itk := { s.itk with shipping := Tab.ins key l s.itk.shipping } }

/-- The end of a window of the Stream Context Table engine (R256, R354): the slots of a batch are resolved with its last index read
window, state read falls into place, and with the last write window of a batch its items are shipped. -/
def State.engineEnd (s : State) (index : Nat) (d : GatherDesc) (g : Gather) (e : IntakeEntry) : State :=
  if (s.windowRegion d).kind = 3 then
    if d.write then s.gatherShip e (2 * e.ctx) (s.closesBatch index d e) g.out fun s l => s.indexDone e l
    else if s.probeOf index d = 3 then s.indexResolve e g.batch
    else s
  else if d.write then s.gatherShip e (2 * e.ctx + 1) (s.closesBatch index d e) g.out fun s l => s.stateDone e l
  else if g.early then s else s.windowData d g

/-- What the end of a window moves: records and status fall into place where they have not before. -/
def State.endWindow (s : State) (index : Nat) (d : GatherDesc) (g : Gather) : State :=
  match (if s.engineWindow d then s.intake? d.ctx else none) with
  | some e => s.engineEnd index d g e
  | none => if g.early then s else s.windowData d g

/-- The records and the status word of a read window that ends early reach bench store 4 ticks and the route latency later (R201). -/
def State.earlyData (s : State) (d : GatherDesc) (g : Gather) : State :=
  let p := s.physical d.bench
  g.out.foldl (fun s x => s.enqueue { ctx := d.ctx, held := true, writer := ctrlRegion d.ctrl, reader := benchRegion p, flits := 0, span := 0
                                      ticks := 0, into := 0, inside := []
                                      after := queueLatency + s.routeLatency (ctrlRegion d.ctrl) d.bench
                                      bench := some p, addr := s.recordsAt d g + x.1, bytes := x.2, counter := none, send := none }) s

/-- Nominal ticks from the start of the present step to the release of a window's records and the rise of its counter: 16 × (START + W) +
4 plus the route latency, by as many beats later as the window is late, less the ticks of the steps that have ended since (R199). -/
def State.windowEnd (s : State) (d : GatherDesc) (g : Gather) : Nat :=
  16 * (d.start + g.late + d.length) + queueLatency + s.routeLatency (ctrlRegion d.ctrl) d.bench - g.shift

/-- The completion counter that a window raises, where the plan names it (R173). -/
def State.windowCounter (s : State) (index : Nat) : Option Nat :=
  (s.windowUse? index).bind WindowUse.counter

end Sys2Proof.Machine
end

