-- ==== Sys2Proof/Machine/Jobs.lean ====
section
/-! DEFINITION. Service accesses (07_memory_tiers.md R187, R196, R208, R210, R211, R222): reads and writes over Olico, and the copies of
weight work, in the data positions that scripts and windows leave free, beat by beat. -/

namespace Sys2Proof.Machine

open Sys2Proof

/-- A service write touches a region of a running context that is no landing (R196). -/
def State.writeBarred (s : State) (a n : Nat) : Bool :=
  s.memPlan.regions.any fun r => s.ctxRunning r.ctx && r.kind != 1 && decide (r.base < a + n) && decide (a < r.base + r.length)

/-- Every channel of the DDR tier is trained (R411). -/
def State.tierTrained (s : State) : Bool :=
  (List.range 16).all fun c => !s.onAt R.DTR_CHAN_PRESENT c || s.onAt R.DTR_CHAN_TRAINED c

/-- The status of a service access of `n` bytes at `a` (R187, R377, R411): 4 for a hole, for CSR space and, beyond
Forester memory, with the link Down, 3 for a tier that is not trained. -/
def State.serviceStatus (s : State) (a n : Nat) : Nat :=
  let r := rangeOf a
  if n = 0 ∨ rangeOf (a + n - 1) ≠ r ∨ r = .hole ∨ r = .csr ∨ (r ≠ .forester ∧ !s.olicoUp) then 4
  else if r = .stage then (if s.scr.stageReady then 0 else 3)
  else if r = .ddr then (if s.tierTrained then 0 else 3)
  else 0

/-- Count the bytes of a service access (R210, R211). -/
def State.serviceBytes (s : State) (a n : Nat) : State :=
  match rangeOf a with
  | .hbm => s.wr R.HBM_SERVICE_BYTES (s.rd R.HBM_SERVICE_BYTES + n)
  | .ddr | .stage => s.wr R.DTR_SERVICE_BYTES (s.rd R.DTR_SERVICE_BYTES + n)
  | _ => s

/-- Refuse and count a service write (R196). -/
def State.serviceRefused (s : State) (a : Nat) : State :=
  if isHbm a then (s.inc R.HBM_SERVICE_REFUSED).wr R.HBM_EVENT_REFUSED 1
  else (s.inc R.DTR_SERVICE_REFUSED).wr R.DTR_EVENT_REFUSED 1

/-- Answer a service access with its status and bytes: over FCP to its requester, or on Olico. -/
def State.answerAccess (s : State) (write : Bool) (asks : Option (Nat × Nat)) (st : Nat) (l : List Byte) : State :=
  match asks with
  | none => s.emit (.service st l)
  | some (who, reqId) => s.answerAll who (if write then 0x21 else 0x20) reqId st [] l

/-- A service access is a write of bytes that came with it. -/
def JobKind.writes : JobKind → Bool
  | .write _ => true
  | _ => false

/-- Bytes of the next part of an access: up to the end of its 128-byte unit. -/
def ServiceJob.part (j : ServiceJob) : Nat := min (j.length - j.done) (128 - (j.addr + j.done) % 128)

/-- The present beat has the positions for the next part of an access: of the write of a copy as well (R196, R222). -/
def State.partFree (s : State) (j : ServiceJob) : Bool :=
  let a := j.addr + j.done
  s.positionsFree a j.part && (match j.kind with
    | .copy dst _ _ _ => (s.takePositions a j.part).positionsFree (dst + j.done) j.part
    | _ => true)

/-- A service read of `n` bytes from `a` under what its codes say (R88, R206, R208): the state after it, and whether its data are
good. -/
def State.readService (s : State) (ecc : MemEcc) (a n : Nat) : State × Bool :=
  if rangeOf a = .bench then s.storeRead ecc a n
  else
    let s := ((s.takePositions a n).serviceBytes a n).correctedIn ecc a n
    ((burstsIn ecc.lost a n).foldl (fun s b => s.uncorrService b) s, (burstsIn ecc.lost a n).isEmpty)

/-- A service write of bytes at `a`. -/
def State.writeService (s : State) (a : Nat) (l : List Byte) : State :=
  (((s.takePositions a l.length).serviceBytes a l.length).countBursts true a l.length).setBytes a l

/-- The lines that `n` bytes read at `a` bring over Olico: none but those of Forester memory (R364, R402; log entry 162). -/
def State.countLines (s : State) (a n : Nat) : State := if rangeOf a = .forester then s.count 6100 (ceilDiv n 128) else s

/-- The next part of an access. -/
def State.jobPart (s : State) (j : ServiceJob) : State × ServiceJob :=
  let a := j.addr + j.done
  let n := j.part
  let next := { j with done := j.done + n }
  match j.kind with
  | .write data => (s.writeService a (slice j.done n data), next)
  | .read =>
    let (s, ok) := s.readService j.ecc a n
    (s, { next with got := j.got ++ s.bytes a n, lost := j.lost || !ok })
  | .copy dst _ _ _ =>
    let (s, ok) := (s.countLines a n).readService j.ecc a n
    (if ok then s.writeService (dst + j.done) (s.bytes a n) else s, { next with lost := j.lost || !ok })

/-- Parts of an access while the beat has positions for them, with fuel. -/
def State.runJob : Nat → State → ServiceJob → State × ServiceJob
  | 0, s, j => (s, j)
  | n + 1, s, j =>
    if j.done < j.length ∧ s.partFree j then
      let (s, j) := s.jobPart j
      State.runJob n s j
    else (s, j)

/-- An access after a beat: answered where it is done, and otherwise under way; data with an uncorrectable burst are not given (R138). A
copy done waits for the attempt that it belongs to. -/
def State.jobDone (s : State) (j : ServiceJob) : State :=
  let keep : State := { s with scr := { s.scr with jobs := s.scr.jobs ++ [j] } }
  if j.done < j.length then keep
  else match j.kind with
    | .copy _ _ _ _ => keep
    | .write data => (s.count 6100 (ceilDiv data.length 128)).answerAccess true j.asks 0 []
    | .read => (s.count 6101 (ceilDiv j.length 128)).answerAccess false j.asks (if j.lost then 4 else 0) (if j.lost then [] else j.got)

/-- Serve an access in the present beat (R196). -/
def State.serveJob (s : State) (j : ServiceJob) : State :=
  let (s, j) := State.runJob (j.length / 128 + 2) s j
  s.jobDone j

/-- The accesses under way go on in a new beat, the oldest first. -/
def State.serveJobs (s : State) : State :=
  let l := s.scr.jobs
  l.foldl State.serveJob { s with scr := { s.scr with jobs := [] } }

/-- A service access comes (R187, R196): one in error or into a region of a running context is answered at once; any other is served in
the positions left of this beat, behind those that wait for later ones. -/
def State.access (s : State) (kind : JobKind) (a n : Nat) (ecc : MemEcc) (asks : Option (Nat × Nat)) : State :=
  let st := s.serviceStatus a n
  if st ≠ 0 then s.answerAccess kind.writes asks st []
  else if kind.writes ∧ s.writeBarred a n then (s.serviceRefused a).answerAccess true asks 4 []
  else { s with scr := { s.scr with jobs := s.scr.jobs ++ [ServiceJob.mk kind a n ecc 0 [] false asks] } }.serveJobs

/-- The copy of a context's shard for a load or a repair, if one is under way or done (R222, R234). -/
def State.copyOf (s : State) (c shard : Nat) (repair : Bool) : Option ServiceJob :=
  s.scr.jobs.find? fun j => match j.kind with | .copy _ x i r => x == c && i == shard && r == repair | _ => false

/-- The copy of `n` bytes at `src` to `dst` begins, unless it is under way: it takes the positions that are free (R196, R222). -/
def State.startCopy (s : State) (c shard : Nat) (repair : Bool) (src dst n : Nat) : State :=
  if (s.copyOf c shard repair).isSome then s
  else { s with scr := { s.scr with jobs := s.scr.jobs ++ [ServiceJob.mk (.copy dst c shard repair) src n s.scr.ecc 0 [] false none] } }.serveJobs

/-- The copy of a shard has come whole: a burst that was lost never comes (R138, R208; log entry 134). -/
def State.copied (s : State) (c shard : Nat) (repair : Bool) : Bool :=
  match s.copyOf c shard repair with | some j => decide (j.length ≤ j.done) && !j.lost | none => false

end Sys2Proof.Machine
end

