-- ==== Sys2Proof/Machine/Load.lean ====
section
/-! DEFINITION. What a plan puts into a bench, and spares that stand in (06_working_plan.md R159, R163, R174, R175, R181;
05_reproducibility.md R139, R140). -/

namespace Sys2Proof.Machine

open Sys2Proof

/-! ## Loading a bench -/

/-- The program of a logical bench in a plan. -/
def programOf (p : Plan) (l : Nat) : Option BenchProgram := p.programs.find? fun x => x.bench == l

/-- Bundle memory as the resident pages leave it: page `p` holds byte addresses 8,192p onward (R168, R175). -/
def codeOf (pages : List (Nat × List Byte)) : Tab Byte :=
  pages.foldl (fun t (e : Nat × List Byte) =>
    e.2.zipIdx.foldl (fun t (x : Byte × Nat) => Tab.put 0 (8192 * e.1 + x.2) x.1 t) t) []

/-- Write a program's preloads into the store of physical bench `b`. -/
def State.preload (s : State) (b : Nat) (x : BenchProgram) : State :=
  x.preloads.foldl (fun s (e : Nat × List Byte) => s.setBytes (benchBase b + 128 * e.1) e.2) s

/-- Some entry of a program's operation table satisfies `p`. -/
def tableAny (x : BenchProgram) (p : Nat → Bool) : Bool := x.table.any fun (e : Nat × Nat) => p e.2

/-- Some bundle of some pages holds in its vector slot an opcode and a rounding mode that `p` accepts (R168, R170). -/
def vectorAny (pages : List (Nat × List Byte)) (p : Nat → Nat → Bool) : Bool :=
  pages.any fun (e : Nat × List Byte) => (List.range (e.2.length / 32)).any fun k =>
    p (leNat (slice (32 * k + 25) 1 e.2)) (bits 27 26 (leNat (slice (32 * k + 18) 4 e.2)))

/-- Every page of a program: the resident ones and those that it brings in (R175). -/
def allPages (x : BenchProgram) : List (Nat × List Byte) := x.pages ++ x.more

/-- The program holds tree operations (R86, R89). -/
def usesTrees (x : BenchProgram) : Bool := vectorAny (allPages x) fun op _ => op == 0x40 || op == 0x41

/-- The program rounds stochastically: an operation table entry, or a VCVT or VCVB of one of its pages, names SR (R77, R89, R170). -/
def usesSr (x : BenchProgram) : Bool :=
  tableAny x (fun d => bits 241 240 d == 1) || vectorAny (allPages x) fun op rm => (op == 0x30 || op == 0x31) && rm == 1

/-- The program uses the FP32-pair option: an operation table entry, or the reduction that one names in its home context (R76, R89,
R125). -/
def usesPairs (p : Plan) (home : Nat) (x : BenchProgram) : Bool :=
  tableAny x fun d => bit 239 d || p.reductions.any fun r => r.id == bits 235 224 d && r.ctx == home && r.pair

/-- Physical bench `b` is loaded for logical bench `l` of a plan (R159): preloads, operation table and pages. -/
def State.loadBench (s : State) (p : Plan) (l b : Nat) : State :=
  match programOf p l with
  | none => s
  | some x =>
    (s.preload b x).setBench b { Bench.reset with table := x.table.foldl (fun t (e : Nat × Nat) => Tab.put 0 e.1 e.2 t) []
                                                  code := codeOf x.pages }

/-- What BCH_ID, BCH_NUM_MODE and BCH_SEQ_ENTRY show of a physical bench that serves logical bench `l` of the active plan (R89, R181). -/
def State.showBench (s : State) (p : Plan) (l b : Nat) : State :=
  let s := s.wrAt R.BCH_ID_LOGICAL b l
  match programOf p l with
  | none => s
  | some x =>
    let s := x.entries.foldl (fun s (e : Nat × Nat) =>
      (s.wrAt R.BCH_SEQ_ENTRY_ENTRY (512 * b + e.1) e.2).wrAt R.BCH_SEQ_ENTRY_VALID (512 * b + e.1) 1) s
    let s := s.wrAt R.BCH_NUM_MODE_SR_USED b (flag (usesSr x))
    let s := s.wrAt R.BCH_NUM_MODE_TREE_USED b (flag (usesTrees x))
    s.wrAt R.BCH_NUM_MODE_PAIR_USED b (flag (usesPairs p (match p.alloc[l]? with | some a => a.home | none => 0) x))

/-- A physical bench serves no logical bench any longer (R89). -/
def State.hideBench (s : State) (b : Nat) : State :=
  let s := (s.wrAt R.BCH_ID_LOGICAL b 1023).wrAt R.BCH_NUM_MODE_SR_USED b 0
  (s.wrAt R.BCH_NUM_MODE_TREE_USED b 0).wrAt R.BCH_NUM_MODE_PAIR_USED b 0

/-- The benches of a plan show it from its activation on, and every bench its numerics level (R89, R123, R181). -/
def State.showBenches (s : State) (p : Plan) : State :=
  let used := (List.range 768).filter fun l => match p.alloc[l]? with | some a => a.used | none => false
  let s := used.foldl (fun s l => s.showBench p l (s.physical l)) s
  (List.range 792).foldl (fun s b => s.wrAt R.BCH_NUM_MODE_LEVEL b p.level) s

/-! ## Spares -/

/-- The spare extension in force for the context in GEN_SEAL_CTRL.CONTEXT shows in GEN_SPARE (R148). -/
def State.showExt (s : State) : State :=
  let c := s.rd R.GEN_SEAL_CTRL_CONTEXT
  let x := match s.planCtx? c, s.ctx? c with
    | some p, some r => if r.extended then p.spareExt else 0
    | _, _ => 0
  s.wr R.GEN_SPARE_EXT_TICKS x

/-- The spare of a bench region is free: neither failed nor standing in, and its region's PLL has locked (R412). -/
def State.spareFree (s : State) (r : Nat) : Bool :=
  let b := 33 * r + 32
  !s.gen.failed.contains b && !(s.gen.subst.any fun x => x.spare == b) && !s.clk.neverLocked.contains r

/-- The spare for a failed bench (R139, R140): of its own region first, else of another region of its field. -/
def State.spareFor (s : State) (b : Nat) : Option (Nat × Bool) :=
  let r := benchRegion b
  if s.spareFree r then some (33 * r + 32, false)
  else match (List.range 4).find? fun q => s.spareFree (4 * benchField b + q) with
    | some q => some (33 * (4 * benchField b + q) + 32, true)
    | none => none

/-- Substitute for a failed bench (R139, R140): a spare takes its logical index and is loaded with its preloads; without a
free spare in the field, Contained 0x24. -/
def State.substitute (s : State) (b : Nat) : State :=
  let s := { s with gen := { s.gen with toReplace := dropOne b s.gen.toReplace } }
  match s.logical? b, s.pln.active with
  | some l, some p =>
    match s.spareFor b with
    | none => s.contained 0 0x24 (benchField b) (s.homeOf b) b 0
    | some (t, cross) =>
      let c := s.homeOf b
      let rest := s.gen.subst.filter fun x => x.logical != l
      let s := { s with gen := { s.gen with subst := rest ++ [Subst.mk l b t cross]
                                            retime := if cross then addOnce c s.gen.retime else s.gen.retime } }
      let s := (((s.hideBench b).loadBench p l t).showBench p l t).showSubst
      let s := (s.inc R.GEN_SPARE_TOTAL).wr R.GEN_EVENT_SUBST 1
      if cross then s.wr R.GEN_EVENT_RETIME 1 else s
  | _, _ => s

/-- Substitute for every bench that waits for it. -/
def State.substituteAll (s : State) : State := s.gen.toReplace.foldl State.substitute s

/-! ## Sequencers -/

/-- The sequencers of a context fetch the step entry of the point in force; the beat that ended has gone by for the results of the
operations before it (R168). -/
def State.fetchEntries (s : State) (c : Nat) : State :=
  (s.benchesOf c).foldl (fun s b =>
    if s.rdAt R.BCH_SEQ_STATUS_STATE b = 5 then s
    else
      let entry := s.rdAt R.BCH_SEQ_ENTRY_ENTRY (512 * b + s.rdAt R.CLK_RGN_STATUS_OP_POINT (benchRegion b))
      let s := s.spanEnds b
      let x := (s.benchOf b).goesOn (beatCycles (s.rdAt R.CLK_RGN_STATUS_OP_POINT (benchRegion b)))
      let s := s.setBench b { x.goTo entry with wait := .no, backfill := none, beatEnd := (s.ctxPos c / 16 + 1) * 16, behind := 0 }
      (s.wrAt R.BCH_SEQ_STATUS_STATE b 1).wrAt R.BCH_SEQ_STATUS_CTX b c) s

/-- In the first beat after a synchronised switch the sequencers of a context hold its step entry for the next beat boundary
(R51). -/
def State.holdEntries (s : State) (c : Nat) : State :=
  (s.benchesOf c).foldl (fun s b =>
    if s.rdAt R.BCH_SEQ_STATUS_STATE b = 5 then s
    else (s.setBench b { s.benchOf b with wait := .beat }).wrAt R.BCH_SEQ_STATUS_STATE b 2) s

/-! ## The end of a stop -/

/-- Ticks of the hold that the active plan takes now; those of a hold within a replay span join the span. -/
def State.holdRun (s : State) : Nat := match s.job? 7 with | some j => if j.replay.isSome then 0 else j.holdRun | none => 0

/-- The count at which the drain of a context is to end (R161): DRAIN_STEPS steps from its first boundary at or after the
stop count, with the hold in progress. -/
def State.drainEndOf (s : State) (p : Plan) (c : Nat) : Nat :=
  match s.ctx? c with
  | none => 0
  | some r =>
    let len := s.stepLen c
    let from_ := r.start + r.holds + s.holdRun
    let e := from_ + len
    match r.drain with
    | some d => from_ + d * len
    | none => e + roundUp len (s.pln.stopAt - e) + p.drainSteps * len

/-- PLN_STOP_END gives the count at which the ramp-down is expected to end (R161, R180). -/
def State.showStopEnd (s : State) : State :=
  match s.pln.active with
  | none => s
  | some p =>
    if s.pln.stopArmed || s.pln.draining then
      let last := match s.pln.rampDown with
        | some t => s.tallyOf t + s.holdRun
        | none => (p.ctxs.map fun x => if s.ctxRunning x.ctx then s.drainEndOf p x.ctx else s.now).foldl max s.now
      let down := match s.profile with | some f => lastPosition f.down | none => 0
      s.wr R.PLN_STOP_END_AT (last + down)
    else s

/-- From the stop count the active plan drains (R161). -/
def State.stopEffect (s : State) : State :=
  if s.pln.stopArmed ∧ !s.pln.draining ∧ s.pln.stopAt ≤ s.now then
    ((({ s with pln := { s.pln with draining := true } }).showAct).changeApplied 2 0 0).showStopEnd
  else s

end Sys2Proof.Machine
end

