-- ==== Sys2Proof/Machine/Boundary.lean ====
section
/-! DEFINITION. Beat and step boundaries (02_clocks_and_tally.md R45 to R48, R51, R52; 01_module_envelope.md R30;
14_forester_and_control.md R368), and the close of an intake window. At one count, hold and replay points and swaps come first, then STEP_BOUNDARY, then
BEAT_BOUNDARY (log entry 25). -/

namespace Sys2Proof.Machine

open Sys2Proof

/-! ## Beats -/

/-- N of the ratio N/1 to the root of an I/O region's PLL (R39, R40). -/
def pllRatio (r : Nat) : Nat := if r < 34 then 320 else if r = 34 then 128 else if r < 38 then 4250 else 2560

/-- Periods of a region's clock in a beat: 16 ticks are 64 ÷ 19 periods of the root (R39). The rate of R39 counts as the clock
frequency of an I/O region: DEDUCED, log entry 28. -/
def State.beatPeriods (s : State) (r : Nat) : Nat :=
  if r < 24 then beatCycles (s.rdAt R.CLK_RGN_STATUS_OP_POINT r) else pllRatio r * 64 / 19

/-- The edges that a region's stretcher swallowed in a beat: none unless it was active, and at most one in four periods of the
region's clock (R45). -/
def State.swallowed (s : State) (r n : Nat) : Nat :=
  if s.clk.stretchSeen.contains r then min n (s.beatPeriods r / 4) else 0

/-- What a bench region reports of its beat beside its tell-tales (R46, R47): its stretched cycles and its deficit. The slip is
reported to the field's foreman, and the step's one hold request follows the largest deficit reached: asked at its first slip, and
again for more quanta where the deficit has grown (log entry 28). -/
def State.beatSlip (s : State) (x : BeatReport) : State :=
  let r := x.region.val
  let swallowed := s.swallowed r x.swallowed
  let stretched := swallowed + Tab.get 0 r s.clk.late
  let s := if r < 24 then s.trace 0 (regionField r) 2 r (s.homeOf (33 * r)) else s
  let s := { s with clk := { s.clk with late := Tab.put 0 r 0 s.clk.late } }
  let s := (s.wrAt R.CLK_RGN_STATUS_STRETCH_BEAT r (min stretched 255)).addAt R.CLK_RGN_COUNT_STRETCHED r swallowed
  if 24 ≤ r then s
  else
    let c := beatCycles (s.rdAt R.CLK_RGN_STATUS_OP_POINT r)
    let d := min (s.rdAt R.CLK_RGN_STATUS_DEFICIT r + x.planned + stretched - c) 65535
    let s := (s.wrAt R.CLK_RGN_STATUS_DEFICIT r d).wrAt R.CLK_RGN_STATUS_SLIP r (flag (d != 0))
    if d = 0 then s
    else
      let s := (s.incAt R.CLK_RGN_COUNT_SLIPS r).wr R.CLK_EVENT_SLIP 1
      let s := { s with clk := { s.clk with slipReports := s.clk.slipReports ++ [(regionField r, r)] } }
      let n := ceilDiv (16 * d) (c * s.quantum)
      let asked := Tab.get 0 r s.clk.slipAsked
      if s.planActive && decide (asked < n) && !s.timePaused then
        { s with clk := { s.clk with slipAsked := Tab.ins r n s.clk.slipAsked } }.clockHold n (asked != 0)
      else s

/-- What a region's tell-tales report of its beat (R48). -/
def State.beatMargin (s : State) (x : BeatReport) : State :=
  let r := x.region.val
  let warn := decide (x.margin < s.rd R.CLK_TT_THRESH_WARN)
  let crit := decide (x.margin < s.rd R.CLK_TT_THRESH_CRIT)
  let was := s.onAt R.CLK_RGN_STATUS_TT_CRIT r
  let s := (s.wrAt R.CLK_RGN_STATUS_TT_MARGIN r (min x.margin 255)).wrAt R.CLK_RGN_STATUS_TT_WARN r (flag warn)
  let s := if warn then (s.wr R.CLK_EVENT_TT_WARN 1).notice 2 0x80 r 0 x.margin else s
  let s := s.wrAt R.CLK_RGN_STATUS_TT_CRIT r (flag crit)
  let s := if crit && !was then (s.wr R.CLK_EVENT_TT_CRIT 1).fault 2 0x81 r 0 x.margin else s
  s.showStretch r

/-- Fill (R30): each bench region's activity against its share of the profile. -/
def State.beatFill (s : State) (l : List BeatReport) : State :=
  (l.foldl (fun s x => s.fillRegion x.region.val x.activity) s).showFill

/-- What a bench's sequencer did in the beat (R181): the cycles in which it stalled are late cycles of its region, of which the
longest of its benches counts (R44, R47, R168). -/
def State.beatBench (s : State) (x : BenchBeat) : State :=
  let b := x.bench.val
  let r := benchRegion b
  let s := { s with clk := { s.clk with late := Tab.put 0 r (max (Tab.get 0 r s.clk.late) x.stalled) s.clk.late } }
  let s := (s.wrAt R.BCH_SEQ_BEAT_ISSUED b (min x.issued 248)).wrAt R.BCH_SEQ_BEAT_STALLED b (min x.stalled 255)
  let s := s.addAt R.BCH_SEQ_COUNT_STALLS b x.stalled
  (s.count (4 * b) x.issued).count (4 * b + 1) x.stalled

/-- A beat boundary finds a sequencer still at the work of the beat that ends, issuing or stalled at a crossing: it is one boundary
more behind (R47). -/
def State.fallsBehind (s : State) (b : Nat) : State :=
  let x := s.benchOf b
  let st := s.rdAt R.BCH_SEQ_STATUS_STATE b
  let stalled : Bool := match x.wait with | .crossing _ => st == 3 | _ => false
  if (st == 1 || stalled) && !s.ctxPaused (s.homeOf b) && decide (x.beatEnd < s.nextBeat b) then
    s.setBench b { x with beatEnd := x.beatEnd + 16, behind := x.behind + 1 }
  else s

/-- Every sequencer that waits for a beat boundary goes on, but in the beat after a synchronised switch (R173, R51) and where its
positions stand still, since a hold has no new beat work (R314); one still at its work falls behind (R47); and a beat of every
backfill span has passed (R117). -/
def State.resumeBeats (s : State) : State :=
  if s.clk.switchBeat then s
  else
    let s := s.bench.foldl (fun s (e : Nat × Bench) => s.spanBeat e.1) s
    s.bench.foldl (fun s (e : Nat × Bench) =>
      if s.rdAt R.BCH_SEQ_STATUS_STATE e.1 = 2 ∧ (s.benchOf e.1).wait = .beat ∧ !s.ctxPaused (s.homeOf e.1) then
        (s.setBench e.1 { s.benchOf e.1 with beatEnd := s.nextBeat e.1 }).resume e.1
      else s.fallsBehind e.1) s

/-- Beats of a gather window that has ended early, from now to the tick at which its counter rises (R199, R201). -/
def State.earlyBeats (s : State) (d : GatherDesc) : Nat :=
  match Tab.find? (windowKey d) s.scr.windows with
  | some g => if g.early then d.start + d.length + g.late - (s.ctxPos d.ctx + g.shift) / 16 else 0
  | none => 0

/-- The address at which the guest's first unit begins on a physical bench (R117). -/
def State.guestStart (s : State) (b : Nat) : Option Nat :=
  match s.pln.active, s.logical? b with
  | some p, some l => (programOf p l).bind BenchProgram.guest
  | _, _ => none

/-- A bench that waits in WAITC on the counter of a window that has ended early begins a backfill span, in Relaxed mode (R117, R164,
R201). -/
def State.gatherSpan (s : State) (b : Nat) : State :=
  let x := s.benchOf b
  match x.wait with
  | .counter i n =>
    if s.rdAt R.BCH_SEQ_STATUS_STATE b = 3 ∧ x.span = none then
      let left := (s.memPlan.windows.zipIdx.filter fun d => s.physical d.1.bench == b && d.1.ctx == s.homeOf b
        && s.windowCounter d.2 == some i).map fun d => s.earlyBeats d.1
      s.spanStarts b (left.foldl max 0) (s.guestStart b) (some (i, n)) x.next
    else s
  | _ => s

/-- Backfill spans in gather windows begin at a beat boundary. -/
def State.gatherSpans (s : State) : State := s.bench.foldl (fun s (e : Nat × Bench) => s.gatherSpan e.1) s

/-- The beat after a synchronised switch is over (R51, R433). -/
def State.endSwitchBeat (s : State) : State :=
  if s.clk.switchBeat && !s.atStepStart then
    { s with clk := { s.clk with switchBeat := false }, pwr := { s.pwr with switchStage := none } }.wr R.CLK_FCHG_CTRL_STATE 0
  else s

/-- What waits for a beat boundary: the stretching of the current throttle (R45), an abort (R162, R374) and context resets (R167). -/
def State.beatPending (s : State) : State :=
  let s := if s.on R.PWR_STATUS_THROTTLE && !s.clk.throttle then
      { s with clk := { s.clk with throttle := true } }.showStretches 24
    else s
  let split : Bool := match s.pln.abortAt with | some p => decide (p ≤ s.now) | none => false
  let s := if s.pln.aborting || split then s.planAbort else s
  let due := s.pln.resetting
  let s := due.foldl State.contextReset s
  { s with pln := { s.pln with resetting := [], aborting := false, abortAt := if split then none else s.pln.abortAt } }

/-- Running foremen serve the beat (R380). -/
def State.foremanBeats (s : State) : State :=
  (List.range 6).foldl (fun s f => if s.rdAt R.OLC_FOREMAN_STATE f = 2 then s.incAt R.OLC_FOREMAN_BEATS f else s) s

/-- A filtered input sample that falls within a beat, and the mean input current of a 100 µs window that ends in it (R38):
samples that leave the band come as rows of their own. -/
def State.inputSamples (s : State) (volts amps : Option Nat) : State :=
  let s := match volts with | some mv => s.sampleInput mv | none => s
  match amps with | some x => s.sampleCurrent x | none => s

/-- The Tally reaches a multiple of 16 (R46): the input is sampled, regions report, forks whose K, E_v or J has come
take effect, and so does what waits for a beat boundary, and the memory
controllers start the entries and windows of the beat. -/
def execBeatBoundary (reports : List BeatReport) (benches : List BenchBeat) (ecc : MemEcc) (prefetch : List Nat)
    (volts amps : Option Nat) (s : State) : Res :=
  if s.tal.running ∧ s.now % 16 = 0 then
    let s := (s.inputSamples volts amps).endSwitchBeat
    let s := reports.foldl (fun s x => (s.beatSlip x).beatMargin x) (benches.foldl State.beatBench s)
    let s := { s with clk := { s.clk with stretchSeen := (List.range 39).filter (s.onAt R.CLK_RGN_STATUS_STRETCHING) } }
    let s := s.forksBeat.resumeBeats.beatFill reports
    let s := (s.beatPending).gatherSpans.foremanBeats.stopEffect.tagRoom 0
    let s := ((s.upkeepBeat ecc).moveWindows ecc).scriptBeat ecc
    let s := (s.startWindows ecc s.memPlan.windows.zipIdx).serveJobs
    let s := (prefetch.foldl State.prefetch s).prefetchBeat
    .next s.showPending.showLevel.noteShares
  else .next s

/-! ## Steps -/

/-- The context whose own boundary puts the Staged field with a key into effect (R368). -/
def stagedCtx (key : Nat) : Option Nat :=
  let of (f : Field) : Option Nat :=
    if key % 128 = f.lo ∧ f.addr ≤ key / 128 ∧ key / 128 < f.addr + 16 * f.stride then some ((key / 128 - f.addr) / f.stride) else none
  match of R.PLN_CTX_CFG_EXTENDED with
  | some c => some c
  | none => of R.WGT_SWAP_BATCH_BATCH

/-- A pending value takes effect; keys are those of the register fields. -/
def State.applyStaged (s : State) (f : Field) (i v : Nat) : State :=
  { s.wrAt f i v with staged := Tab.del (f.key i) s.staged }

/-- Every Staged field with its reset value, to put pending values into effect by key. -/
def stagedReset (key : Nat) : Nat :=
  if key = R.PWR_TAPER_STEP_TICKS.key 0 then R.PWR_TAPER_STEP_TICKS.reset
  else if key = R.PWR_FILL_LIMIT.key 0 then R.PWR_FILL_LIMIT.reset
  else if key = R.WGT_CFG_RECHECK_S.key 0 then R.WGT_CFG_RECHECK_S.reset
  else if key = R.GEN_MODE_EN_PREFETCH.key 0 then R.GEN_MODE_EN_PREFETCH.reset
  else if key = R.GEN_MODE_EN_GATHER.key 0 then R.GEN_MODE_EN_GATHER.reset
  else if key = R.GEN_MODE_EN_REFRESH.key 0 then R.GEN_MODE_EN_REFRESH.reset
  else if key = R.GEN_MODE_EN_ADMIT.key 0 then R.GEN_MODE_EN_ADMIT.reset
  else if key = R.GEN_MODE_NEXT_STRICT.key 0 then R.GEN_MODE_NEXT_STRICT.reset
  else 0

/-- Pending values whose key `p` selects take effect (R368). -/
def State.takeStaged (s : State) (p : Nat → Bool) : State :=
  let due := s.staged.filter fun (e : Nat × Nat) => p e.1
  let csr := due.foldl (fun t (e : Nat × Nat) => Tab.put (stagedReset e.1) e.1 e.2 t) s.csr
  { s with csr := csr, staged := s.staged.filter fun (e : Nat × Nat) => !p e.1 }.refreshTaper

/-- The entries, forks, groups and mesh transfers of a context start afresh with an attempt of its step (R43, R113, R305). -/
def State.freshStep (s : State) (c : Nat) : State :=
  let ofCtx (k : Nat) : Bool := match s.job? 7 with
    | some j => (match j.entry? k with | some e => e.ctx == c | none => true)
    | none => true
  let forks := match s.pln.active with | some p => p.forks | none => []
  let groups := match s.pln.active with | some p => p.groups | none => []
  let forkOf (n : Nat) : Bool := forks.any fun f => f.number == n && f.ctx == c
  let groupOf (n : Nat) : Bool := groups.any fun g => g.number == n && g.ctx == c
  { s with
    sch := { s.sch with recv := s.sch.recv.filter fun (e : Nat × RecvState) => !ofCtx e.1
                        leased := s.sch.leased.filter fun b => b.ctx != c
                        sends := s.sch.sends.filter fun (e : Nat × SendState) => !ofCtx e.1 }
    frk := { s.frk with forks := s.frk.forks.filter fun (e : Nat × ForkRun) => !forkOf e.1
                        filled := s.frk.filled.filter fun (e : Nat × Nat) => !groupOf e.1
                        overflow := s.frk.overflow.filter fun (e : Nat × Nat) => !groupOf e.1
                        metaErr := dropOne c s.frk.metaErr }
    clk := { s.clk with flits := s.clk.flits.filter fun (e : Nat × List Nat) => s.homeOf (e.1 / 256) != c } }

/-- A step of a context has ended: the counts of its groups are those of the last complete step (R120). -/
def State.keepCounts (s : State) (c : Nat) : State :=
  let groups := match s.pln.active with | some p => p.groups | none => []
  let lastOf (last now : Tab Nat) : Tab Nat :=
    groups.foldl (fun t g => if g.ctx = c then Tab.put 0 g.number (Tab.get 0 g.number now) t else t) last
  { s with frk := { s.frk with lastFilled := lastOf s.frk.lastFilled s.frk.filled
                               lastOverflow := lastOf s.frk.lastOverflow s.frk.overflow } }

/-- The key of a window of context `c` in the active plan. -/
def State.windowKeyOf (s : State) (c k : Nat) : Bool := s.memPlan.windows.any fun d => windowKey d == k && d.ctx == c

/-- The windows of a context at the end of its step (R199): one that has started runs on into the next, and the others go with their
bindings. -/
def State.windowsOver (s : State) (c : Nat) : State :=
  let mine := s.windowKeyOf c
  let open_ (e : Nat × Gather) : Bool := !mine e.1 || e.2.list.isSome
  { s with scr := { s.scr with windows := (s.scr.windows.filter open_).map fun (e : Nat × Gather) =>
                                 if mine e.1 then (e.1, { e.2 with shift := e.2.shift + s.stepLen c }) else e
                               started := s.scr.started.filter fun k => !mine k
                               usedAhead := s.scr.usedAhead.filter fun (e : Nat × Nat) => !mine e.1 } }

/-- The windows and the data under way of a context whose attempt is abandoned (R316): windows of the attempt go, and bindings made
ahead of the step stand again, which its re-run does not repeat. -/
def State.windowsAbandoned (s : State) (c : Nat) : State :=
  let s := s.landCtx c
  let mine := s.windowKeyOf c
  let used := s.scr.usedAhead.filter fun (e : Nat × Nat) => mine e.1
  let kept := s.scr.ahead.filter fun (e : Nat × Nat) => !(mine e.1 && s.scr.started.contains e.1)
  let entryOf (i : Nat) : Bool := match s.memPlan.entries[i]? with | some e => e.ctx == c | none => false
  { s with scr := { s.scr with windows := s.scr.windows.filter fun (e : Nat × Gather) => !mine e.1 || e.2.shift != 0
                               started := s.scr.started.filter fun k => !mine k
                               ahead := used.foldl (fun t (e : Nat × Nat) => Tab.ins e.1 e.2 t) kept
                               usedAhead := s.scr.usedAhead.filter fun (e : Nat × Nat) => !mine e.1
                               queue := s.scr.queue.filter fun d => d.ctx != c
                               missed := s.scr.missed.filter fun (e : Nat × Nat) => !entryOf e.1
                               prefetched := s.scr.prefetched.filter fun i => !entryOf i
                               reading := s.scr.reading.filter fun i => !entryOf i
                               unread := s.scr.unread.filter fun x => !entryOf x.1
                               discarded := s.scr.discarded.filter fun x => !entryOf x.1 } }

/-- The batch of a context without intake is its step, done at the step's end (R141, R143); a failed attempt hands over no tag
and counts in no span (R138). -/
def State.stepBatch (s : State) (c : Nat) (r : CtxRun) : State :=
  if (s.run? c).isSome || s.pwr.shutdown != .none then s
  else if s.sch.withheld.contains c then { s with gen := { s.gen with stepTags := Tab.del c s.gen.stepTags } }.epochBoundary c
  else
    let tags := match Tab.find? c s.gen.stepTags with | some t => t | none => []
    let tags := if s.quarantinedAt c r.step then [] else tags
    let s := { s with gen := { s.gen with stepTags := Tab.del c s.gen.stepTags } }
    let s := s.batchDone c r.step r.start s.now r.mark (s.endMark s.now) (s.root64 R.WGT_ROOT_ACTIVE_ROOT c) tags
      (tags.map fun _ => s.rdAt R.WGT_EPOCH_EPOCH c)
    s.epochBoundary c

/-- What a stop does at a context's step boundary (R161, R251): from its first one at or after the count intake closes, and
DRAIN_STEPS steps later its work ends. -/
def State.stepDrain (s : State) (c : Nat) : State :=
  match s.ctx? c, s.pln.active with
  | some r, some p =>
    if s.pln.draining && r.running then
      match r.drain with
      | none =>
        let s := s.closeIntakeAt c r.start
        if p.drainSteps = 0 then ((s.setCtx c { r with drain := some 0, running := false }).wrAt R.PLN_CTX_CFG_RUNNING c 0).stopBenches c
        else s.setCtx c { r with drain := some p.drainSteps }
      | some d =>
        if d ≤ 1 then ((s.setCtx c { r with drain := some 0, running := false }).wrAt R.PLN_CTX_CFG_RUNNING c 0).stopBenches c
        else s.setCtx c { r with drain := some (d - 1) }
    else s
  | _, _ => s

/-- The fork and variant in which a step of context `c` ends: one whose J is the step's end (R110, R433). -/
def State.noteEnd (s : State) (c : Nat) : State :=
  let forks := match s.pln.active with | some p => p.forks | none => []
  let ended := match forks.find? fun f => f.ctx == c && (s.forkRun f.number).committed && decide (s.stepLen c ≤ f.j) with
    | some f => (s.forkRun f.number).word.map fun w => (f.number, variantOf f w)
    | none => none
  { s with pwr := { s.pwr with endForks := match ended with | some v => Tab.ins c v s.pwr.endForks | none => Tab.del c s.pwr.endForks } }

/-- A step of context `c` ends and the next begins (R52, R166, R168). -/
def State.ctxBoundary (s : State) (c : Nat) : State :=
  match s.ctx? c with
  | none => s
  | some r =>
    let s := if r.running then s.stepBatch c r else s
    let s := ((((if r.running then s.keepCounts c else s).noteEnd c)).freshStep c).windowsOver c
    let start := r.start + s.stepLen c + r.holds
    let s := s.setCtx c { r with step := r.step + 1, start := start, mark := s.mark, holds := 0, attempt := 0 }
    let s := (s.wrAt R.PLN_CTX_STEP_INDEX c (r.step + 1)).wrAt R.PLN_CTX_STEP_POS c (s.now - start)
    let s := s.takeStaged fun k => stagedCtx k == some c
    let s := s.stepDrain c
    let s := if s.gen.retime.contains c then
        match s.ctx? c with
        | some r => ((s.setCtx c { r with running := false }).wrAt R.PLN_CTX_CFG_RUNNING c 0).stopBenches c
        | none => s
      else s
    if s.ctxRunning c then s.fetchEntries c else s

/-- A context's own step ends now. -/
def State.ctxAtEnd (s : State) (c : Nat) : Bool :=
  (s.ctx? c).isSome && !s.ctxPaused c && decide (s.stepLen c ≤ s.ctxPos c)

/-- A job's base step ends now. -/
def Job.atEnd (j : Job) (now : Nat) : Bool :=
  !j.paused now 16 && decide (j.stepLen ≤ j.position now j.stepStart j.stepHolds 16)

/-- The next base step of a job: it begins S ticks and the holds taken after the one before (R52). -/
def Job.nextStep (j : Job) : Job :=
  { j with step := j.step + 1, stepStart := j.stepStart + j.stepLen + j.stepHolds, stepHolds := 0, attempt := 0, begun := [] }

/-- A shard of the context's weights is under repair (R234). -/
def State.repairing (s : State) : Bool := s.wgt.ctxs.any fun (e : Nat × WgtCtx) => !e.2.repairs.isEmpty

/-- The base step of the active plan ends (R52, R368): the index advances, pending values of Staged fields take effect,
spares are substituted, and while a repair runs one hold is asked for the step (R234). -/
def State.baseBoundary (s : State) (j : Job) : State :=
  let s := s.setJob 7 j.nextStep
  let s := (s.wr R.TAL_STEP_INDEX (j.step + 1)).wr R.TAL_STEP_POS_POS (s.now - j.nextStep.stepStart)
  let s := { s with clk := { s.clk with slipAsked := [], slipReports := [] } }
  let s := s.takeStaged fun k => (stagedCtx k).isNone
  let s := s.substituteAll.showJob
  if s.repairing then s.holdRequest 1 5 else s

/-- A step ends and the next begins (R52): of the active plan, of each context whose own step ends now, and of the jobs
this module forwards for, among them that of a plan stopped by a die core reset (R326). -/
def execStepBoundary (s : State) : Res :=
  let s := s.stopEffect
  let ctxs := (s.pln.ctxs.map Prod.fst).filter fun c => s.ctxAtEnd c
  let base : Bool := match s.job? 7 with | some j => s.planActive && j.atEnd s.now | none => false
  let s := ctxs.foldl State.ctxBoundary s
  let s := match s.job? 7 with
    | some j => if base then s.baseBoundary j else s
    | none => s
  let s := (List.range 8).foldl (fun s k => match s.job? k with
    | some j => if (k ≠ 7 ∨ !s.planActive) ∧ j.atEnd s.now then s.setJob k j.nextStep else s
    | none => s) s
  .next s.showStopEnd

/-! ## Windows -/

/-- At C_w the window closes, and the batch boundary may raise the epoch (R247, R248, R232). -/
def execIntakeWindowClose (ctx : Fin 16) (s : State) : Res :=
  match s.intake? ctx, s.run? ctx with
  | some e, some r =>
    if r.open_ ∧ !r.standby ∧ s.timeDue (r.openNominal + s.windowLen e r.window) then
      .next ((s.epochBoundary ctx).closeWindow e r)
    else if r.open_ ∧ r.standby ∧ s.timeDue (r.openNominal + s.windowLen e r.window) then
      let s := s.epochBoundary ctx
      let ends := r.openNominal + s.windowLen e r.window
      let at_ := s.tallyOf ends
      let win := sealedWindow r at_ ends (s.endMark at_) (s.root64 R.WGT_ROOT_ACTIVE_ROOT ctx) [] [] (s.rdAt R.WGT_EPOCH_EPOCH ctx) (s.quarantinedAt ctx r.window)
      .next (s.setRun ctx { r with window := r.window + 1, prevOpen := r.openAt, openAt := at_, mark := s.mark, openNominal := ends
                                   windows := r.windows ++ [win] })
    else .next s
  | _, _ => .next s

end Sys2Proof.Machine
end

