-- ==== Sys2Proof/Machine/Bringup.lean ====
section
/-! DEFINITION. Start-up and the reset domains (16_bring_up.md R409 to R416; 12_topology.md R346; 15_faults_security_observation.md
R393, R397, R403). -/

namespace Sys2Proof.Machine

open Sys2Proof

/-! ## Forester boot -/

/-- A slot whose fuses exceed its stored epoch lost its journal record and counts as empty (R397). -/
def KeySlot.booted (k : KeySlot) : KeySlot := if k.epoch < k.fuses then { k with modulus := none, valid := false } else k

/-- The boot ROM accepts an image: it verifies, and its SVN is at least ROLLBACK (R393, R394). -/
def State.boots (s : State) (c : ImageCheck) : Bool := c.verifies && decide (s.nv.rollback ≤ c.svn)

/-- An image fails at boot (R393, R434). -/
def State.imageFailed (s : State) (i : Nat) (c : ImageCheck) : State := (s.inc R.SEC_COUNT_IMAGE_FAIL).critical 19 0x81 i 0 c.svn

/-- The Forester runs image `i` (R393, R407). -/
def State.runs (s : State) (i : Nat) (c : ImageCheck) (fallback : Bool) : State :=
  let s := { s with fst := { s.fst with booted := true } }
  let s := ((s.wr R.SEC_STATUS_IMAGE i).wr R.SEC_STATUS_FW_SVN c.svn).wr R.SEC_STATUS_FALLBACK (flag fallback)
  let s := s.wr R.SEC_STATUS_RECOVERY 0
  s.drainItems s.gen.dieItems

/-- The Forester enters recovery (R393). -/
def State.recovery (s : State) : State :=
  { s with fst := { s.fst with booted := true } }.wr R.SEC_STATUS_RECOVERY 1

/-- The boot ROM tries the image of NEXT_IMAGE and then the other one (R393). `a` and `b` say how images A and B check. Production
firmware does not start on a die whose scan fuse is intact (R403). -/
def execSecureBoot (a b : ImageCheck) (s : State) : Res :=
  if !s.pwr.forester ∨ s.fst.booted ∨ !s.on R.SEC_STATUS_SCAN_FUSED then .next s
  else
    let s : State := { s with nv := { s.nv with keys := s.nv.keys.map KeySlot.booted } }.showSecurity
    let first := s.nv.nextImage % 2
    let (x, y) := if first = 0 then (a, b) else (b, a)
    if s.boots x then .next (s.runs first x false)
    else
      let s : State := s.imageFailed first x
      if s.boots y then .next (s.runs (1 - first) y true)
      else .next ((s.imageFailed (1 - first) y).recovery)

/-- SEC_CTRL.COMMIT_SVN raises ROLLBACK to the running image's SVN, of its 63 steps; busy under write-inhibit (R394, R407). -/
def execCommitSvn (s : State) : Res :=
  if s.writesAdmitted then
    .next { s with nv := { s.nv with rollback := max s.nv.rollback (min (s.rd R.SEC_STATUS_FW_SVN) 63) } }.showSecurity
  else .next (s.writeRefused.emit (.busy .keyStore))

/-- The management port has signal and link (R426); FCP accepts sessions once it holds an address. -/
def execManagementPortLinkUp (address : Bool) (s : State) : Res :=
  if s.pwr.forester then .next { s with fst := { s.fst with mgmtUp := true, address := address } } else .next s

/-- A Forester reset (R346, R414): firmware and FCP restart, and what is held for export stays. -/
def State.foresterReset (s : State) : State :=
  let s := if s.olicoUp then s.olicoDown else s
  { s with fst := { Forester.reset with exports := s.fst.exports, foreman := s.fst.foreman, puts := s.fst.puts } }

/-- A Forester reset (R346). -/
def execForesterReset (s : State) : Res := if s.pwr.forester then .next s.foresterReset else .next s

/-! ## Die power -/

/-- Rail group 1 starts its ramp (R409, R410, R413): the Forester runs a verified image, and the coolant is within its limits. -/
def execDiePowerStart (temp flow : Nat) (s : State) : Res :=
  if s.serving ∧ s.fst.booted ∧ !s.on R.SEC_STATUS_RECOVERY ∧ !s.pwr.dieOn ∧ !coolantOut temp flow then
    .next { s with pwr := { s.pwr with dieOn := true, railsUp := 0, railRamp := true, dieReset := true, coolantOk := true } }
  else .next s

/-- A die core reset ends (R205, R363, R410, R411): the memories leave self refresh, the Forester loads the foremen, and training
of what is not trained goes on. -/
def State.dieResetEnd (s : State) : State :=
  let s := { s with pwr := { s.pwr with dieReset := false } }
  let s := (List.range 20).foldl (fun s i => s.wrAt R.HBM_STACK_SELF_REFRESH i 0) s
  let s := (List.range 16).foldl (fun s i => s.wrAt R.DTR_CHAN_SELF_REFRESH i 0) s
  (List.range 6).foldl (fun s f => s.wrAt R.OLC_FOREMAN_STATE f 1) s

/-- The regions of the four rail groups (R410). -/
def groupRegions : Nat → List Nat
  | 1 => [38]
  | 2 => [35, 36, 37]
  | 3 => [24, 25, 26, 27, 28, 29, 30, 31, 32, 33, 34]
  | _ => List.range 24

/-- The actions of a rail group whose rails are in regulation (R410). -/
def State.groupUp (s : State) (g : Nat) : State :=
  let s : State := { s with pwr := { s.pwr with railsUp := g, railRamp := decide (g < 4) } }.lockRegions (groupRegions g)
  match g with
  | 1 => { s with tal := { s.tal with running := true } }.wr R.OLC_STATUS_STATE 1
  | 2 => s.haulPlaneUp
  | 4 => if s.on R.FLT_STATUS_DIE_HELD then s else s.dieResetEnd
  | _ => s

/-- A rail group is in regulation, its PLLs lock but those that never will, its actions run, and the next group starts (R410).
Group 1 ends the sequence when region 38 did not lock (R413). -/
def execRailGroupRegulation (s : State) : Res :=
  if s.pwr.dieOn ∧ s.pwr.railRamp then
    let g := s.pwr.railsUp + 1
    if g = 1 ∧ s.clk.neverLocked.contains 38 then .next { s with pwr := { s.pwr with railRamp := false } }
    else .next (s.groupUp g)
  else .next s

/-- A rail does not reach regulation within 200 ms (R413): Module-fatal error 0x44. -/
def execRailTimeout (s : State) : Res := if s.pwr.railRamp then .next (s.moduleFatal 1 0x44 7 0) else .next s

/-- A foreman's firmware is loaded and measured (R363, R393, R398): it runs, or a mismatch is Module-fatal error 0x45. -/
def execForemanRunning (foreman : Fin 6) (digest : List Byte) (measures : Bool) (s : State) : Res :=
  if s.rdAt R.OLC_FOREMAN_STATE foreman = 1 then
    if measures then .next ({ s with fst := { s.fst with foreman := digest } }.wrAt R.OLC_FOREMAN_STATE foreman 2)
    else .next (s.moduleFatal 22 0x45 foreman foreman)
  else .next s

/-- A foreman is not Running within 500 ms (R413): Module-fatal error 0x41. -/
def execForemanTimeout (foreman : Fin 6) (s : State) : Res :=
  if s.rdAt R.OLC_FOREMAN_STATE foreman = 1 then .next (s.moduleFatal 22 0x41 foreman foreman) else .next s

/-! ## Resets -/

/-- Every transmitter goes dark. -/
def State.allDark (s : State) : State := (List.range 16).foldl (fun s p => s.emit (.dark p)) s

/-- Module reset (R346, R414). -/
def execModuleReset (s : State) : Res := .next (if s.pwr.shutdown = .none then s.allDark.moduleReset else s)

/-- A die core reset (R346). -/
def execDieCoreReset (s : State) : Res := if s.pwr.dieOn then .next s.dieCoreReset else .next s

/-- A die core reset ends (R205, R410), unless the core is held after a Module-fatal error (R384). -/
def execDieCoreResetEnd (s : State) : Res :=
  if s.pwr.dieOn ∧ s.pwr.railsUp = 4 ∧ s.pwr.dieReset ∧ !s.on R.FLT_STATUS_DIE_HELD then .next s.dieResetEnd else .next s

/-- A haul-plane reset (R346). -/
def execHaulPlaneReset (s : State) : Res := if s.pwr.dieOn then .next s.haulPlaneReset else .next s

end Sys2Proof.Machine
end

