-- ==== Sys2Proof/Machine/Receive.lean ====
section
/-! DEFINITION. Reception of link blocks (10_haul_links.md R267 to R279): the checks, the acknowledgement each header
carries, and the place of a sequenced block. -/

namespace Sys2Proof.Machine

open Sys2Proof

/-- Count uncorrectable codewords on their lanes, each once, however many blocks it poisons (R267). -/
def State.countUncorr (s : State) (p : Nat) : List Codeword → State
  | [] => s
  | w :: t =>
    let h := s.port p
    if Tab.find? w.lane h.badWords = some w.number then s.countUncorr p t
    else
      let s := s.setPort p { h with badWords := Tab.ins w.lane w.number h.badWords }
      let s := (s.incAt R.HAUL_ERR_COUNT_FEC_UNCORR p).incAt R.HAUL_LANE_STAT_UNCORR (8192 * p + w.lane)
      (s.count (5792 + 16 * p + 7) 1).countUncorr p t

/-- Discard a block that failed its checks (R269). -/
def State.checkFailed (s : State) (p : Nat) : State :=
  (s.incAt R.HAUL_ERR_COUNT_CRC_FAIL p).wrAt R.HAUL_EVENT_CRC_FAIL p 1

/-- Discard a block with a reserved encoding (R14, R271, R283). -/
def State.reservedDrop (s : State) (p : Nat) : State :=
  (s.incAt R.HAUL_LINK_COUNT_RSVD_DROP p).wrAt R.HAUL_EVENT_RSVD_DROP p 1

/-- The link checks of an arriving block: a poisoned block is discarded even when its CRC holds, a block whose CRC
fails is discarded whole, a reserved TYPE is discarded and counted (R267, R269, R271). A poisoned block counts in CRC_FAIL whatever its
CRC, since it is discarded as one whose CRC fails (DEDUCED, log entry 144). A port that stands still takes none (R50). -/
def State.checkBlock (s : State) (p : Nat) (w : WireBlock) : State × Option LinkBlock :=
  if s.portStill p then (s, none) else
  let s := s.countUncorr p w.uncorr
  match LinkBlock.decode w.bytes with
  | none => (s.checkFailed p, none)
  | some b =>
    if w.uncorr ≠ [] then (s.checkFailed p, none)
    else if 9 ≤ b.type then (s.reservedDrop p, none)
    else (s, some b)

/-- Apply the ACK and FREED fields of a valid header (R275, R279); none when the ACK is a protocol error. -/
def State.takeHeader (s : State) (p : Nat) (b : LinkBlock) : Option State :=
  if b.acks then
    if s.ackOk p b.ack then some ((s.applyAck p b.ack).applyFreed p b.freed0 b.freed1) else none
  else some s

/-- A duplicate is answered with an ACK, behind a replay in progress (R272, R274). -/
def State.answerDup (s : State) (p : Nat) : State :=
  if (s.port p).replaying then s.setPort p { s.port p with waitAck := true } else s.sendPlain p 4 []

/-- Place a sequenced block (R274): in order it is delivered; ahead it is discarded with a NAK; behind it is discarded
with an ACK; anything else is a protocol error. An unsequenced block's NEXT may raise the NAK. -/
def State.takeSeq (s : State) (p : Nat) (b : LinkBlock) : State × Option LinkBlock :=
  let e := s.rdAt R.HAUL_SEQ_EXPECTED p
  let d := (b.seq + 65536 - e) % 65536
  let w := s.rdAt R.HAUL_PARTNER_REPLAY_BLOCKS p
  if b.sequenced then
    if d = 0 then
      let s := (s.setPort p { s.port p with nakOpen := false }).wrAt R.HAUL_SEQ_EXPECTED p (e + 1)
      (s.count (5792 + 16 * p + (if b.type = 1 then 1 else 3)) 1, some b)
    else if d < w then ((s.incAt R.HAUL_ERR_COUNT_GAP p).raiseNak p, none)
    else if 65536 ≤ d + w then ((s.incAt R.HAUL_ERR_COUNT_DUP p).answerDup p, none)
    else (s.linkDown p 3, none)
  else if 1 ≤ d ∧ d < w then (s.raiseNak p, some b)
  else (s, some b)

/-- Receive a block while the link is Up (R268): its checks, its header and its place in the sequence, and what may leave by its ACK and
FREED fields. After a NAK nothing new leaves ahead of the replay it asks for (R276). -/
def State.accept (s : State) (p : Nat) (w : WireBlock) : State × Option LinkBlock :=
  if s.portUp p then
    match s.checkBlock p w with
    | (s, none) => (s, none)
    | (s, some b) =>
      match s.takeHeader p b with
      | none => (s.linkDown p 3, none)
      | some s =>
        let (s, taken) := s.takeSeq p b
        (if b.type = 5 then s else s.flush p, taken)
  else (s, none)

end Sys2Proof.Machine
end

