-- ==== Sys2Proof/Machine/Train.lean ====
section
/-! DEFINITION. The training rows of a haul port (10_haul_links.md R280 to R284, R290 to R294). -/

namespace Sys2Proof.Machine

open Sys2Proof

/-- Training fails: Backoff with its code (R280), an exit of start-up stage 9 (R413). -/
def State.trainFail (s : State) (p code : Nat) : State :=
  let h := s.port p
  let s := s.setPort p { HaulPort.reset with fails := h.fails + 1, opId := h.opId, lastRot := h.lastRot }
  let s := (s.setTrain p 7).wrAt R.HAUL_PORT_STATUS_TRAIN_CODE p code
  ((s.incAt R.HAUL_LINK_COUNT_TRAIN_FAILS p).wrAt R.HAUL_EVENT_TRAIN_FAIL p 1).startExit 9

/-- The code that a state gives when it overruns its limit or loses signal or lock (R280, R283). -/
def trainCode (st : Nat) : Nat :=
  if st = 2 then 1 else if st = 3 then 2 else if st = 4 then 3 else 7

/-- A mask of lanes. -/
def laneMask (l : List Nat) : Nat := (l.map fun x => 2 ^ x).sum

/-- The lanes of a mask, lowest first. -/
def maskLanes (m : Nat) : List Nat := (List.range 9).filter fun x => bit x m

/-- The LOGICAL field of a lane map: four bits for each of the eight lowest lanes of a list (R281, R294). -/
def logicalMap (l : List Nat) : Nat := ((l.take 8).zipIdx.map fun e => e.1 * 16 ^ e.2).sum

/-- This end's ANNOUNCE fields (R281). -/
def State.announce (s : State) (p kind : Nat) : Announce :=
  { version := 1, kind := kind, partnerType := 0, port := p, module := s.number, rxLanes := laneMask (s.port p).lanes
    serial := s.nv.serial, replayBlocks := 8192, credits0 := 256, credits1 := 256, alignPs := (s.port p).alignOffer
    markerTicks := s.rdAt R.HAUL_CFG_MARKER_TICKS p, seen := 16 ≤ (s.port p).announces }

/-- Send an ANNOUNCE; one with SEEN set is noted (R281). A port in Exchange sends one as it enters, one for each it takes, and one in each
tick of TCLK. -/
def State.sendAnnounce (s : State) (p : Nat) : State :=
  let a := s.announce p 0
  let s := s.sendPlain p 7 a.encode
  if a.seen then s.setPort p { s.port p with seenSent := true } else s

/-- Optical signal on at least 8 lanes: Dark to Signal (R280). -/
def execSignalPresent (port : Fin 16) (lanes : List (Fin 9)) (s : State) : Res :=
  if s.train port = 1 ∧ 8 ≤ lanes.eraseDups.length then .next (s.setTrain port 2) else .next s

/-- Clock recovery, equalisation and FEC lock on at least 8 lanes: Signal to Lock (R280). -/
def execSignalLock (port : Fin 16) (lanes : List (Fin 9)) (s : State) : Res :=
  if s.train port = 2 ∧ 8 ≤ lanes.eraseDups.length then
    let l := (List.range 9).filter fun x => lanes.any fun y => y.val = x
    .next ((s.setPort port { s.port port with lanes := l }).setTrain port 3)
  else .next s

/-- Lane marks read on every locked lane with skew at most 60 ns: Lock to Exchange, offering that skew plus 2,000 ps of
alignment span (R280, R282). -/
def execLaneMarkLock (port : Fin 16) (skewPs : Nat) (s : State) : Res :=
  if s.train port = 3 ∧ skewPs ≤ 60000 then
    let s := s.setPort port { s.port port with alignOffer := skewPs + 2000, announces := 0, seenSent := false
                                               seenGot := false, partner := none }
    .next ((s.setTrain port 4).sendAnnounce port)
  else .next s

/-- The limit of a training state in ticks (R280). -/
def trainLimit (st : Nat) : Nat := if st = 2 then msTicks 20 else msTicks 1

/-- A training state overruns its limit: Backoff with its code (R280, R283). -/
def execTrainStateTimeout (port : Fin 16) (s : State) : Res :=
  if 2 ≤ s.train port ∧ s.train port ≤ 5 ∧ (s.port port).timers.state + trainLimit (s.train port) ≤ s.now then .next (s.trainFail port (trainCode (s.train port))) else .next s

/-- The Backoff wait: RETRY_MS, doubled at each consecutive failure up to 1,280 ms (R280). -/
def State.backoffTicks (s : State) (p : Nat) : Nat :=
  msTicks (min (s.rdAt R.HAUL_LANE_CFG_RETRY_MS p * 2 ^ ((s.port p).fails - 1)) 1280)

/-- The Backoff wait expires: Dark (R280). -/
def execBackoffExpiry (port : Fin 16) (s : State) : Res :=
  if s.train port = 7 ∧ (s.port port).timers.state + s.backoffTicks port ≤ s.now then .next (s.setTrain port 1) else .next s

/-- The code with which an ANNOUNCE fails the checks of R281, if it does. -/
def State.announceFault (s : State) (p : Nat) (a : Announce) : Option Nat :=
  if a.version ≠ 1 then some 4
  else if !(1024 ≤ a.replayBlocks && a.replayBlocks ≤ 8192 && 1 ≤ a.credits0 && a.credits0 ≤ 512 && 1 ≤ a.credits1
      && a.credits1 ≤ 512 && a.alignPs ≤ 62000 && 16 ≤ a.markerTicks && a.markerTicks ≤ 2048 && a.markerTicks % 16 == 0
      && a.partnerType ≤ 1) then some 5
  else if a.serial = s.nv.serial ∧ a.port = p ∧ !s.onAt R.HAUL_PORT_CTRL_LOOPBACK_OK p then some 8
  else none

/-- The transmit lanes assigned on the partner's first ANNOUNCE: logical lanes on the eight lowest lanes the partner
locked, the ninth as spare; the receive lanes likewise on those locked here (R281). A lane in use again is Failed no more. -/
def State.assignLanes (s : State) (p : Nat) (a : Announce) : State :=
  let tx := maskLanes a.rxLanes
  let rx := (s.port p).lanes
  let s := (s.wrAt R.HAUL_LANE_MAP_TX_LOGICAL p (logicalMap tx)).wrAt R.HAUL_LANE_MAP_TX_SPARE p (tx.getD 8 15)
  let s := (s.wrAt R.HAUL_LANE_MAP_LOGICAL p (logicalMap rx)).wrAt R.HAUL_LANE_MAP_SPARE p (rx.getD 8 15)
  let still (f : Field) (l : List Nat) : Nat := laneMask ((maskLanes (s.rdAt f p)).filter fun x => !l.contains x)
  ((s.wrAt R.HAUL_LANE_MAP_FAILED p (still R.HAUL_LANE_MAP_FAILED rx)).wrAt R.HAUL_LANE_MAP_TX_FAILED p
    (still R.HAUL_LANE_MAP_TX_FAILED tx)).showMarks p

/-- Exchange ends (R281, R282): the partner's identity and the larger alignment span are kept, and Echo begins. -/
def State.enterEcho (s : State) (p : Nat) (a : Announce) : State :=
  let s := ((s.wrAt R.HAUL_PARTNER_REPLAY_BLOCKS p a.replayBlocks).wrAt R.HAUL_PARTNER_VERSION p a.version).wrAt
    R.HAUL_PARTNER_TYPE p a.partnerType
  let s := ((s.wrAt R.HAUL_PARTNER_PORT p a.port).wrAt R.HAUL_PARTNER_MODULE p a.module).wrAt
    R.HAUL_PARTNER_SERIAL_SERIAL p a.serial
  let s := s.wrAt R.HAUL_PORT_STATUS_PARTNER_TYPE p a.partnerType
  let s := s.wrAt R.HAUL_LOOP_DELAY_ALIGN_PS p (max a.alignPs (s.port p).alignOffer)
  let s := s.setPort p { s.port p with echoSent := 0, samples := [] }
  s.setTrain p 5

/-- Exchange ends once an ANNOUNCE with SEEN has been received and one has been sent (R281). -/
def State.exchangeEnd (s : State) (p : Nat) : State :=
  let h := s.port p
  match h.partner with
  | some a => if s.train p = 4 ∧ h.seenGot ∧ h.seenSent then s.enterEcho p a else s
  | none => s

/-- An ANNOUNCE in Exchange (R281). -/
def State.exchange (s : State) (p : Nat) (a : Announce) : State :=
  match s.announceFault p a with
  | some code => s.trainFail p code
  | none =>
    let h := s.port p
    let first := h.partner.isNone
    let s := s.setPort p { h with partner := some a, announces := h.announces + 1, seenGot := h.seenGot || a.seen }
    let s := if first then s.assignLanes p a else s
    (s.sendAnnounce p).exchangeEnd p

/-- A TRAIN ANNOUNCE arrives (R281); received while Up it takes the link down with cause 4 (R290). -/
def execAnnounceReceived (port : Fin 16) (blk : WireBlock) (s : State) : Res :=
  if s.train port = 4 ∨ s.train port = 6 then
    match s.checkBlock port blk with
    | (s, none) => .next (s.setPort port { s.port port with announces := 0 })
    | (s, some b) =>
      if b.type ≠ 7 then .next s
      else match Announce.decode b.data with
        | none => .next ((s.setPort port { s.port port with announces := 0 }).reservedDrop port)
        | some a =>
          if s.train port = 6 then .next (s.linkDown port 4)
          else if a.kind = 0 then .next (s.exchange port a) else .next s
  else .next s

/-- In Echo an ECHO_REQ is sent every 128 ns with its departure stamp (R283). -/
def execEchoReqSend (port : Fin 16) (depart : Stamp) (s : State) : Res :=
  let h := s.port port
  let n := h.echoSent
  if s.train port = 5 ∧ n < 64 ∧ (n = 0 ∨ h.timers.echo + nsTicks 128 ≤ s.now) then
    let data := (s.announce port 1).encode ++ beBytes 1 n ++ zeros 3 ++ stampBytes (s.leaves port depart)
    .next ((s.setPort port { h with echoSent := n + 1, timers := { h.timers with echo := s.now } }).sendPlain port 7 data)
  else .next s

/-- An ECHO_REQ is answered with an ECHO_RESP carrying its arrival and the departure of the answer (R283). -/
def execEchoReqReceived (port : Fin 16) (blk : WireBlock) (arrival depart : Stamp) (s : State) : Res :=
  if s.train port = 5 ∨ s.train port = 6 then
    match s.checkBlock port blk with
    | (s, none) => .next s
    | (s, some b) =>
      if b.type ≠ 7 then .next s
      else match Announce.decode b.data with
        | none => .next (s.reservedDrop port)
        | some a =>
          if s.train port = 6 then .next (s.linkDown port 4)
          else if a.kind = 1 then
            let data := (s.announce port 2).encode ++ slice 32 16 b.data ++ stampBytes (s.arrives port arrival)
              ++ stampBytes (s.leaves port depart)
            .next (s.sendPlain port 7 data)
          else .next s
  else .next s

/-- Insert into an ascending list. -/
def insertInt (x : Int) : List Int → List Int
  | [] => [x]
  | a :: t => if x ≤ a then x :: a :: t else a :: insertInt x t

/-- Sort samples in ascending order. -/
def sortInts (l : List Int) : List Int := l.foldr insertInt []

/-- The loop delay of 64 samples in 2⁻³² tick: the mean of those left without the 8 highest and 8 lowest (R283). -/
def loopOf (l : List Int) : Int := (((sortInts l).drop 8).take 48).sum / 48

/-- The receive state of each lane on coming Up: active, spare, still Failed or dark (R294). -/
def State.showLanes (s : State) (p : Nat) (lanes : List Nat) : Nat → State
  | 0 => s
  | n + 1 =>
    let st := if n ∈ lanes.take 8 then 0 else if lanes[8]? = some n then 1
      else if bit n (s.rdAt R.HAUL_LANE_MAP_FAILED p) then 3 else 5
    (s.showLanes p lanes n).wrAt R.HAUL_LANE_STAT_STATE (8192 * p + n) st

/-- The port comes Up: sequences and credits start afresh, markers start, and Up is reported (R273, R279, R284). -/
def State.linkUp (s : State) (p : Nat) (a : Announce) (loop : Nat) : State :=
  let h := s.port p
  let t := { PortTimers.reset with ack := s.now, rot := s.now, marker := s.now / s.rdAt R.HAUL_CFG_MARKER_TICKS p }
  let s := s.setPort p { HaulPort.reset with timers := t, lanes := h.lanes, partner := some a, opId := h.opId, lastRot := h.lastRot }
  let s := (((s.wrAt R.HAUL_SEQ_NEXT_TX p 0).wrAt R.HAUL_SEQ_ACKED p 0xFFFF).wrAt R.HAUL_SEQ_EXPECTED p 0).wrAt
    R.HAUL_SEQ_OUTSTANDING p 0
  let s := (s.wrAt R.HAUL_CREDIT_PARTNER0 p a.credits0).wrAt R.HAUL_CREDIT_PARTNER1 p a.credits1
  let s := (s.wrAt R.HAUL_CREDIT_AVAIL0 p a.credits0).wrAt R.HAUL_CREDIT_AVAIL1 p a.credits1
  let s := (s.wrAt R.HAUL_LOOP_DELAY_LOOP p loop).showLanes p h.lanes 9
  let s := (s.setTrain p 6).incAt R.HAUL_LINK_COUNT_UPS p
  let s := s.wrAt R.HAUL_PORT_STATUS_LOCK_LOST p 0
  let s := if h.lanes.length = 9 then s.wrAt R.HAUL_PORT_STATUS_SPARE_OK p 1
    else ((s.wrAt R.HAUL_PORT_STATUS_SPARE_OK p 0).wrAt R.HAUL_EVENT_NO_SPARE p 1).notice 12 0x80 p 0 h.lanes.length
  (s.portCameUp p).flush p

/-- An ECHO_RESP yields one loop-delay sample; after 64 the loop delay is set and the port comes Up, or training fails
with code 6 above 950 ticks (R283). -/
def execEchoRespReceived (port : Fin 16) (blk : WireBlock) (arrival : Stamp) (s : State) : Res :=
  if s.train port = 5 ∨ s.train port = 6 then
    match s.checkBlock port blk with
    | (s, none) => .next s
    | (s, some b) =>
      if b.type ≠ 7 then .next s
      else match Announce.decode b.data with
        | none => .next (s.reservedDrop port)
        | some a =>
          if s.train port = 6 then .next (s.linkDown port 4)
          else if a.kind = 2 then
            let t1 := beAt 36 12 b.data
            let t2 := beAt 48 12 b.data
            let t3 := beAt 60 12 b.data
            let h := s.port port
            let samples := h.samples ++ [((s.arrives port arrival : Int) - t1) - ((t3 : Int) - t2)]
            let s := s.setPort port { h with samples := samples }
            if samples.length < 64 then .next s
            else
              let loop := loopOf samples
              match h.partner with
              | none => .next s
              | some partner =>
                if 950 * 2 ^ 32 < loop then .next (s.trainFail port 6)
                else .next (s.linkUp port partner (loop / 2 ^ 16).toNat)
          else .next s
  else .next s

/-- Symbol lock has been lost, or A has not advanced, for LINK_DOWN_US: the link goes down (R290). -/
def execLinkDownTimeout (port : Fin 16) (s : State) : Res :=
  if s.portUp port then
    let h := s.port port
    let t := usTicks (s.rdAt R.HAUL_CFG_LINK_DOWN_US port)
    if s.onAt R.HAUL_PORT_STATUS_LOCK_LOST port ∧ h.lostAt + t ≤ s.now then .next (s.linkDown port 1)
    else if 0 < s.rdAt R.HAUL_SEQ_OUTSTANDING port ∧ h.timers.advance + t ≤ s.now then .next (s.linkDown port 2)
    else .next s
  else .next s

/-- The registers a port reset returns to their reset values (R293). -/
def State.resetPortRegs (s : State) (p : Nat) : State :=
  let fields := [R.HAUL_PORT_STATUS_DOWN_CAUSE, R.HAUL_PORT_STATUS_TRAIN_CODE, R.HAUL_PORT_STATUS_SPARE_OK,
    R.HAUL_PORT_STATUS_LOCK_LOST, R.HAUL_PORT_STATUS_ROTATING, R.HAUL_PORT_STATUS_SWAPPING,
    R.HAUL_PORT_STATUS_PARTNER_TYPE, R.HAUL_PORT_STATUS_STATE, R.HAUL_LANE_MAP_FAILED, R.HAUL_LANE_MAP_SPARE,
    R.HAUL_LANE_MAP_LOGICAL, R.HAUL_LANE_MAP_TX_FAILED, R.HAUL_LANE_MAP_TX_SPARE, R.HAUL_LANE_MAP_TX_LOGICAL,
    R.HAUL_PARTNER_REPLAY_BLOCKS, R.HAUL_PARTNER_VERSION, R.HAUL_PARTNER_TYPE, R.HAUL_PARTNER_PORT,
    R.HAUL_PARTNER_MODULE, R.HAUL_PARTNER_SERIAL_SERIAL, R.HAUL_LOOP_DELAY_ALIGN_PS, R.HAUL_LOOP_DELAY_LOOP,
    R.HAUL_SEQ_NEXT_TX, R.HAUL_SEQ_ACKED, R.HAUL_SEQ_EXPECTED, R.HAUL_SEQ_OUTSTANDING, R.HAUL_CREDIT_PARTNER1,
    R.HAUL_CREDIT_PARTNER0, R.HAUL_CREDIT_AVAIL1, R.HAUL_CREDIT_AVAIL0]
  fields.foldl (fun s f => s.clearAt f p) s

/-- HAUL_PORT_CTRL.RESET: the port goes down if it is Up and retrains, with its state registers reset (R293). -/
def execHaulPortReset (port : Fin 16) (s : State) : Res :=
  let s := if s.portUp port then s.linkDown port 5 else s
  let s := (s.setPort port HaulPort.reset).resetPortRegs port
  .next (if s.onAt R.HAUL_PORT_CTRL_ENABLE port then s.showMarks port else s.setTrain port 0)

/-- HAUL_PORT_CTRL.RETRAIN takes the link down with cause 5 and retrains (R290, R294). -/
def execHaulRetrain (port : Fin 16) (s : State) : Res :=
  if s.portUp port then .next (s.linkDown port 5)
  else if s.train port = 0 then .next s
  else .next ((s.setPort port { HaulPort.reset with fails := (s.port port).fails }).setTrain port 1)

/-- HAUL_PORT_CTRL.ENABLE: clear makes the port Disabled with dark transmitters, set returns it to Dark (R280, R290). -/
def execHaulPortEnable (port : Fin 16) (enable : Bool) (s : State) : Res :=
  let s := s.wrAt R.HAUL_PORT_CTRL_ENABLE port (flag enable)
  if enable then .next (if s.train port = 0 ∧ 2 ≤ s.pwr.railsUp then s.setTrain port 1 else s)
  else
    let s := if s.portUp port then s.linkDown port 5 else s
    .next (((s.setPort port HaulPort.reset).setTrain port 0).emit (.dark port))

end Sys2Proof.Machine
end

