-- ==== Sys2Proof/Machine/Lane.lean ====
section
/-! DEFINITION. The link and lane rows of a port that is Up (10_haul_links.md R274 to R278, R285 to R292). -/

namespace Sys2Proof.Machine

open Sys2Proof

/-! ## Blocks, acknowledgement and replay -/

/-- A FILL arrives: its NEXT field may reveal a lost block (R274). -/
def execFillReceived (port : Fin 16) (blk : WireBlock) (s : State) : Res :=
  match s.accept port blk with
  | (s, _) => .next s

/-- A standalone acknowledgement arrives: it advances A and frees replay buffer, or is a protocol error (R275, R290). -/
def execAckReceived (port : Fin 16) (blk : WireBlock) (s : State) : Res :=
  match s.accept port blk with
  | (s, _) => .next s

/-- A NAK arrives: its ACK is applied and, unless it is a duplicate, a replay starts from A + 1 (R276, R292). -/
def execNakReceived (port : Fin 16) (blk : WireBlock) (s : State) : Res :=
  match s.accept port blk with
  | (s, none) => .next s
  | (s, some b) =>
    if b.type = 5 then
      let dup := match (s.port port).nakActed with
        | some (a, t) => a == b.ack && decide (s.now ≤ t + s.nakSpan port)
        | none => false
      if dup then .next (s.flush port)
      else
        let s := s.setPort port { s.port port with nakActed := some (b.ack, s.now) }
        let s := (s.incAt R.HAUL_REPLAY_COUNT_NAK_RX port).startReplay port
        .next (if (s.port port).replaying then s else s.flush port)
    else .next s

/-- 128 ns have passed since a valid ACK was sent. -/
def State.ackDue (s : State) (p : Nat) : Bool := decide ((s.port p).timers.ack + nsTicks 128 ≤ s.now)

/-- 128 ns have passed without a valid ACK sent: a standalone ACK block is sent (R275), behind a replay in progress (R272). -/
def execAckDue (port : Fin 16) (s : State) : Res :=
  if s.portUp port ∧ s.ackDue port then .next (s.answerDup port) else .next s

/-- The NAK timer expires without block E accepted: the NAK is sent again (R276). -/
def execNakTimerExpiry (port : Fin 16) (s : State) : Res :=
  if s.portUp port ∧ (s.port port).nakOpen ∧ (s.port port).timers.nak + s.nakSpan port ≤ s.now then .next (s.sendPlain port 5 []) else .next s

/-- The replay timer expires: a replay from A + 1 starts and the timer length doubles, up to 16 times (R277). -/
def execReplayTimerExpiry (port : Fin 16) (s : State) : Res :=
  if s.portUp port ∧ 0 < s.rdAt R.HAUL_SEQ_OUTSTANDING port ∧ !(s.port port).replaying ∧
      (s.port port).timers.replay + s.nakSpan port * 2 ^ (s.port port).doubling ≤ s.now then
    let h := s.port port
    let s := s.setPort port { h with doubling := min (h.doubling + 1) 4 }
    let s := (s.incAt R.HAUL_REPLAY_COUNT_TIMEOUTS port).wrAt R.HAUL_EVENT_REPLAY_TIMEOUT port 1
    .next (s.startReplay port)
  else .next s

/-- The flags and hops of a marker sent here (R285). -/
def State.marker (s : State) (p : Nat) (depart : Stamp) : Marker :=
  let aligned := s.rd R.TAL_STATUS_ROLE = 1 ∨ s.on R.TAL_STATUS_ALIGNED
  { tDep := depart, root := s.tallyRoot
    hops := if s.rd R.TAL_STATUS_ROLE = 1 then 0 else if aligned then s.tal.hops else 0xFF
    flags := flag (decide aligned) + 2 * flag (s.on R.TAL_STATUS_HOLDOVER) + 4 * flag (s.on R.TAL_STATUS_DIVERGED)
      + 8 * flag s.rootPtpLocked
    sender := s.number, port := p }

/-- Send a MARKER whose first stripe leaves the serialiser at an instant (R285). -/
def State.sendMarker (s : State) (p : Nat) (depart : Stamp) : State :=
  let s := s.setPort p { s.port p with waitMarker := false }
  (s.sendPlain p 6 (s.marker p (s.leaves p depart)).encode).incAt R.HAUL_MARKER_COUNT_TX p

/-- After a multiple of MARKER_TICKS a MARKER is sent with its departure stamp (R285); it waits while a replay runs (R272, R292). -/
def execMarkerDue (port : Fin 16) (depart : Stamp) (s : State) : Res :=
  let h := s.port port
  let k := s.now / s.rdAt R.HAUL_CFG_MARKER_TICKS port
  if s.portUp port ∧ h.timers.marker ≠ k then
    let s := s.onTimers port fun t => { t with marker := k }
    .next (if h.replaying then s.setPort port { s.port port with waitMarker := true } else s.sendMarker port depart)
  else .next s

/-- What leaves as a replay ends, in the order of R272: SCHED blocks that are due, a MARKER that waited, whose instant of departure
within the tick is free, an ACK that is due, and service blocks. -/
def State.afterReplay (s : State) (p : Nat) : State :=
  let s := s.sendSched p (s.port p).waitSched
  let s := if (s.port p).waitMarker then s.drawn.sendMarker p (s.now * 2 ^ 32 + Config.instant s.fresh % 2 ^ 32) else s
  let h := s.port p
  let s := if h.waitAck || s.ackDue p then (s.setPort p { h with waitAck := false }).sendPlain p 4 [] else s
  s.flush p

/-- The last block of a replay departs, with a valid ACK in it (R275): new sequenced blocks may be sent again (R272, R277). -/
def execLinkReplayEnd (port : Fin 16) (s : State) : Res :=
  let h := s.port port
  if h.replaying then
    .next ((s.setPort port { h with replaying := false, timers := { h.timers with replay := s.now, ack := s.now } }).afterReplay port)
  else .next s

/-! ## Lanes -/

/-- The logical lane that physical lane `x` of the receive direction carries. -/
def State.logicalOf (s : State) (p x : Nat) : Option Nat :=
  (List.range 8).find? fun l => laneOf (s.rdAt R.HAUL_LANE_MAP_LOGICAL p) l = x

/-- The receive state of a physical lane (R294): 0 Active, 1 Spare, 2 Calibrating, 3 Failed, 4 Overlap, 5 Dark. -/
def State.setLaneState (s : State) (p x st : Nat) : State := s.wrAt R.HAUL_LANE_STAT_STATE (8192 * p + x) st

/-- The spare of the receive direction, if there is one. -/
def State.spare (s : State) (p : Nat) : Option Nat :=
  let x := s.rdAt R.HAUL_LANE_MAP_SPARE p
  if x ≤ 8 then some x else none

/-- Set the spare of the receive direction. -/
def State.setSpare (s : State) (p : Nat) (x : Option Nat) : State :=
  match x with
  | some x => ((s.wrAt R.HAUL_LANE_MAP_SPARE p x).wrAt R.HAUL_PORT_STATUS_SPARE_OK p 1).setLaneState p x 1
  | none => (s.wrAt R.HAUL_LANE_MAP_SPARE p 15).wrAt R.HAUL_PORT_STATUS_SPARE_OK p 0

/-- The port runs without a spare from here on (R294). -/
def State.noSpare (s : State) (p : Nat) : State := (s.setSpare p none).wrAt R.HAUL_EVENT_NO_SPARE p 1

/-- Mark a lane of the receive direction Failed and count it, unless it is marked already (R286, R294). -/
def State.laneFailed (s : State) (p x : Nat) : State :=
  let m := s.rdAt R.HAUL_LANE_MAP_FAILED p
  if bit x m then s else
  let s := (s.wrAt R.HAUL_LANE_MAP_FAILED p (m ||| 2 ^ x)).onTimers p fun t => { t with retest := Tab.ins x s.now t.retest }
  ((s.setLaneState p x 3).incAt R.HAUL_LANE_COUNT_LANE_FAILS p).wrAt R.HAUL_EVENT_LANE_FAIL p 1

/-- Send `n` copies of a lane message (R286). -/
def State.sendLane (s : State) (p : Nat) (m : LaneMsg) : Nat → State
  | 0 => s
  | n + 1 => (s.sendPlain p 8 m.encode).sendLane p m n

/-- Symbol lock holds while every logical lane is locked (R290). -/
def State.symbolLock (s : State) (p : Nat) : Bool :=
  (List.range 8).all fun l => (Tab.find? (laneOf (s.rdAt R.HAUL_LANE_MAP_LOGICAL p) l) (s.port p).lost).isNone

/-- Show symbol lock in LOCK_LOST, with the count at which it was lost. -/
def State.showLock (s : State) (p : Nat) : State :=
  let gone := !s.symbolLock p
  let s := if gone && !s.onAt R.HAUL_PORT_STATUS_LOCK_LOST p then s.setPort p { s.port p with lostAt := s.now } else s
  s.wrAt R.HAUL_PORT_STATUS_LOCK_LOST p (flag gone)

/-- A receive lane loses lock (R290); in training the port goes to Backoff with the code of its state (R280). -/
def execLaneLockLost (port : Fin 16) (lane : Fin 9) (s : State) : Res :=
  if s.portUp port then
    let h := s.port port
    let s := s.setPort port { h with lost := if (Tab.find? lane h.lost).isSome then h.lost else Tab.ins lane s.now h.lost }
    .next ((s.incAt R.HAUL_LANE_STAT_LOCK_LOSSES (8192 * port.val + lane.val)).showLock port)
  else if 2 ≤ s.train port ∧ s.train port ≤ 5 then .next (s.trainFail port (trainCode (s.train port)))
  else .next s

/-- A lane relocks: symbol lock returns and the link-down count stops; replay recovers lost blocks (R290). -/
def execLaneLockRegained (port : Fin 16) (lane : Fin 9) (s : State) : Res :=
  if s.portUp port then
    let h := s.port port
    .next ((s.setPort port { h with lost := Tab.del lane h.lost }).showLock port)
  else .next s

/-- Start the failure swap of logical lane `l` from `x` onto spare `y`: four copies of SWAP_REQ (R286). -/
def State.startSwap (s : State) (p l x y : Nat) : State :=
  let h := s.port p
  let op := (h.opId + 1) % 65536
  let s := s.setPort p { h with opId := op, swap := some ⟨l, x, y, false⟩, timers := { h.timers with swap := s.now, swapReq := s.now } }
  (s.wrAt R.HAUL_PORT_STATUS_SWAPPING p 1).sendLane p ⟨1, l, x, y, op⟩ 4

/-- Abandon a rotation or calibration: a lane in calibration returns as the spare (R292). -/
def State.abandonRot (s : State) (p : Nat) : State :=
  let h := s.port p
  let s := s.wrAt R.HAUL_PORT_STATUS_ROTATING p 0
  match h.calib, h.rot with
  | some c, _ => (s.setPort p { h with calib := none, rot := none }).setSpare p (some c)
  | none, some r => (s.setPort p { h with rot := none }).setSpare p (some r.dst)
  | none, none => s

/-- Move logical lane `l` to physical lane `y` in the receive map. -/
def State.remap (s : State) (p l y : Nat) : State :=
  (s.wrAt R.HAUL_LANE_MAP_LOGICAL p (setLane (s.rdAt R.HAUL_LANE_MAP_LOGICAL p) l y)).setLaneState p y 0

/-- A lane's lock has been lost for LANE_FAIL_NS (R286), with the coincidences of R292: a rotation's old lane switches to its new one at
once, and ROT_DONE has the partner send on that one alone; a failing spare leaves the port without one; another lane abandons the rotation
or calibration and takes its lane as spare; without a spare the lane is Failed and its logical lane stays where it is (log entry 49). -/
def execLaneFail (port : Fin 16) (lane : Fin 9) (s : State) : Res :=
  let p := port.val
  let x := lane.val
  let h := s.port p
  let due : Bool := match Tab.find? x h.lost with
    | some t => decide (t + nsTicks (s.rdAt R.HAUL_CFG_LANE_FAIL_NS p) ≤ s.now)
    | none => false
  if s.portUp p ∧ due then
    match h.rot with
    | some r =>
      if r.src = x then
        let s := ((s.setPort p { h with rot := none }).remap p r.logical r.dst).laneFailed p x
        let s := ((s.noSpare p).wrAt R.HAUL_PORT_STATUS_ROTATING p 0).sendLane p ⟨5, r.logical, r.src, r.dst, h.opId⟩ 1
        .next (s.showLock p)
      else if r.dst = x then
        let s := (s.setPort p { h with rot := none }).laneFailed p x
        .next ((s.noSpare p).wrAt R.HAUL_PORT_STATUS_ROTATING p 0)
      else
        let s := (s.abandonRot p).laneFailed p x
        match s.logicalOf p x with
        | some l => .next (s.startSwap p l x r.dst)
        | none => .next s
    | none =>
      let s := if h.calib.isSome then s.abandonRot p else s
      match s.logicalOf p x, (if h.swap.isSome then none else s.spare p) with
      | some l, some y => .next ((s.laneFailed p x).startSwap p l x y)
      | some _, none => .next (s.laneFailed p x)
      | none, some y => .next (if y = x then (s.laneFailed p x).noSpare p else s.laneFailed p x)
      | none, none => .next (s.laneFailed p x)
  else .next s

/-- An unanswered SWAP_REQ is sent again (R286). -/
def execSwapReqResend (port : Fin 16) (s : State) : Res :=
  let h := s.port port
  match h.swap with
  | some o =>
    if o.ready ∨ s.now < h.timers.swapReq + nsTicks 256 then .next s
    else .next ((s.onTimers port fun t => { t with swapReq := s.now }).sendLane port ⟨1, o.logical, o.src, o.dst, h.opId⟩ 1)
  | none => .next s

/-- The lane message of an accepted LANE block; a reserved KIND is discarded and counted (R14). -/
def State.laneMsg (s : State) (p : Nat) (w : WireBlock) : State × Option LaneMsg :=
  match s.accept p w with
  | (s, none) => (s, none)
  | (s, some b) =>
    if b.type = 8 then
      match LaneMsg.decode b.data with
      | none => (s.reservedDrop p, none)
      | some m => (s, some m)
    else (s, none)

/-- A message of the partner's receiver is new: its OP_ID is ahead of the last one seen, or none has been seen since the link came up
(R286). -/
def freshOp (seen : Option Nat) (op : Nat) : Bool :=
  match seen with
  | none => true
  | some seen =>
    let d := (op + 65536 - seen) % 65536
    1 ≤ d && d < 32768

/-- The transmitter moves the logical lane onto the spare and answers SWAP_DONE, whose copies go on every 256 ns (R286). -/
def execSwapReqReceived (port : Fin 16) (blk : WireBlock) (s : State) : Res :=
  match s.laneMsg port blk with
  | (s, none) => .next s
  | (s, some m) =>
    let h := s.port port
    if m.kind = 1 ∧ freshOp h.opSeen m.opId then
      let answer : LaneMsg := ⟨2, m.logical, m.src, m.dst, m.opId⟩
      let pattern := if h.patternTx = some m.dst then none else h.patternTx
      let s := s.setPort port { h with opSeen := some m.opId, copyTx := none, patternTx := pattern, done := some (answer, s.now, s.now) }
      let s := s.wrAt R.HAUL_LANE_MAP_TX_LOGICAL port (setLane (s.rdAt R.HAUL_LANE_MAP_TX_LOGICAL port) m.logical m.dst)
      let s := (s.wrAt R.HAUL_LANE_MAP_TX_FAILED port (s.rdAt R.HAUL_LANE_MAP_TX_FAILED port ||| 2 ^ m.src)).wrAt
        R.HAUL_LANE_MAP_TX_SPARE port 15
      .next ((s.showMarks port).sendLane port answer 4)
    else .next s

/-- A SWAP_DONE answers the swap request (R286). -/
def execSwapDoneReceived (port : Fin 16) (blk : WireBlock) (s : State) : Res :=
  match s.laneMsg port blk with
  | (s, none) => .next s
  | (s, some m) =>
    let h := s.port port
    if m.kind = 2 ∧ m.opId = h.opId then
      .next (s.setPort port { h with swap := h.swap.map fun o => { o with ready := true } })
    else .next s

/-- The switch of a rotation step at a lane-mark boundary (R288): the logical lane moves to the spare, ROT_DONE is sent and the old lane
is calibrated. -/
def State.switchRot (s : State) (p : Nat) (r : LaneOp) : State :=
  let h := s.port p
  let s := s.setPort p { h with rot := none, calib := some r.src, timers := { h.timers with calib := s.now } }
  let s := ((s.remap p r.logical r.dst).setSpare p none).setLaneState p r.src 2
  (s.sendLane p ⟨5, r.logical, r.src, r.dst, h.opId⟩ 1).showLock p

/-- The receiver remaps the logical lane at the first lane mark that carries it on the spare (R286, R266). The same mark ends the wait of
a rotation step whose ROT_READY came before it (R288; log entry 142). -/
def execSwapRemap (port : Fin 16) (s : State) : Res :=
  let h := s.port port
  match h.swap, h.rot with
  | none, none => .next s
  | none, some r => .next (if r.ready then s.switchRot port r else s)
  | some o, _ =>
    let s := ((s.setPort port { h with swap := none }).remap port o.logical o.dst).noSpare port
    let s := ((s.wrAt R.HAUL_PORT_STATUS_SWAPPING port 0).incAt R.HAUL_LANE_COUNT_SWAPS port).trace 7 (occField 12 port) 12 port 0
    .next ((s.wrAt R.HAUL_EVENT_SWAP port 1).showLock port)

/-- A swap not completed within 10 µs is abandoned (R286). -/
def execSwapTimeout (port : Fin 16) (s : State) : Res :=
  let h := s.port port
  if h.swap.isSome ∧ h.timers.swap + nsTicks 10000 ≤ s.now then
    .next ((s.setPort port { h with swap := none }).wrAt R.HAUL_PORT_STATUS_SWAPPING port 0)
  else .next s

/-! ## Rotation and calibration -/

/-- The receiver starts a rotation step of physical lane `x` onto spare `y` (R288). -/
def State.startRot (s : State) (p l x y : Nat) : State :=
  let h := s.port p
  let op := (h.opId + 1) % 65536
  let s := s.setPort p { h with opId := op, rot := some ⟨l, x, y, false⟩, lastRot := x }
  ((s.wrAt R.HAUL_PORT_STATUS_ROTATING p 1).setLaneState p y 4).sendLane p ⟨3, l, x, y, op⟩ 1

/-- No lane operation is in progress on the receive side. -/
def HaulPort.idle (h : HaulPort) : Bool := h.rot.isNone && h.swap.isNone && h.calib.isNone

/-- The lane that the next rotation step relieves: physical lanes in ascending order after the last one, Failed lanes
and the spare skipped (R288). -/
def State.nextRot (s : State) (p : Nat) : Option Nat :=
  let last := (s.port p).lastRot
  ((List.range 9).map fun i => (last + 1 + i) % 9).find? fun x =>
    (s.logicalOf p x).isSome && !bit x (s.rdAt R.HAUL_LANE_MAP_FAILED p)

/-- Start the next rotation step, if the port is Up with a spare and no lane operation runs (R288). -/
def State.rotate (s : State) (p : Nat) : State :=
  if s.portUp p ∧ (s.port p).idle then
    match s.spare p, s.nextRot p with
    | some y, some x => match s.logicalOf p x with
      | some l => (s.startRot p l x y).onTimers p fun t => { t with rot := s.now }
      | none => s
    | _, _ => s
  else s

/-- A lane's corrected symbols in 1 ms exceed DEG_SYM: it is exchanged out and calibrated, or kept with a Notice when
no spare is available (R287). -/
def execLaneDegrade (port : Fin 16) (lane : Fin 9) (symbols : Nat) (s : State) : Res :=
  if s.portUp port then
    let s := s.addAt R.HAUL_LANE_STAT_CORR_SYM (8192 * port.val + lane.val) symbols
    let s := s.count (5792 + 16 * port.val + 6) symbols
    if s.rdAt R.HAUL_LANE_CFG_DEG_SYM port < symbols then
      let s := s.wrAt R.HAUL_EVENT_DEGRADED port 1
      match s.spare port, s.logicalOf port lane with
      | some y, some l => if (s.port port).idle then .next (s.startRot port l lane y)
                          else .next (s.notice 12 0x81 port 0 lane)
      | _, _ => .next (s.notice 12 0x81 port 0 lane)
    else .next s
  else .next s

/-- Every ROT_MS the receiver starts a rotation step (R288). -/
def execRotationTimer (port : Fin 16) (s : State) : Res :=
  if s.onAt R.HAUL_PORT_CTRL_ROT_EN port ∧ (s.port port).timers.rot + msTicks (s.rdAt R.HAUL_LANE_CFG_ROT_MS port) ≤ s.now then
    .next (s.rotate port) else .next s

/-- HAUL_PORT_CTRL.FORCE_ROT starts the next rotation step now (R294). -/
def execForceRot (port : Fin 16) (s : State) : Res := .next (s.rotate port)

/-- The transmitter sends the lane on both physical lanes and answers ROT_READY (R288). -/
def execRotStartReceived (port : Fin 16) (blk : WireBlock) (s : State) : Res :=
  match s.laneMsg port blk with
  | (s, none) => .next s
  | (s, some m) =>
    let h := s.port port
    if m.kind = 3 ∧ freshOp h.opSeen m.opId then
      let pattern := if h.patternTx = some m.dst then none else h.patternTx
      let copy : LaneOp := ⟨m.logical, m.src, m.dst, true⟩
      let s := s.setPort port { h with opSeen := some m.opId, copyTx := some copy, patternTx := pattern, done := none }
      .next ((s.showMarks port).sendLane port ⟨4, m.logical, m.src, m.dst, m.opId⟩ 1)
    else .next s

/-- ROT_READY: the receiver switches where the spare's lane marks agree by then, and otherwise at the first one that does (R288). -/
def execRotReadyReceived (port : Fin 16) (blk : WireBlock) (marksAgree : Bool) (s : State) : Res :=
  match s.laneMsg port blk with
  | (s, none) => .next s
  | (s, some m) =>
    let h := s.port port
    match h.rot with
    | none => .next s
    | some r =>
      if m.kind = 4 ∧ m.opId = h.opId then
        if marksAgree then .next (s.switchRot port r)
        else .next (s.setPort port { h with rot := some { r with ready := true } })
      else .next s

/-- The transmitter stops the old lane and sends a calibration pattern on it (R288). -/
def execRotDoneReceived (port : Fin 16) (blk : WireBlock) (s : State) : Res :=
  match s.laneMsg port blk with
  | (s, none) => .next s
  | (s, some m) =>
    let h := s.port port
    if m.kind = 5 ∧ h.opSeen = some m.opId ∧ h.copyTx.isSome then
      let s := s.setPort port { h with copyTx := none, patternTx := some m.src }
      let s := s.wrAt R.HAUL_LANE_MAP_TX_LOGICAL port (setLane (s.rdAt R.HAUL_LANE_MAP_TX_LOGICAL port) m.logical m.dst)
      .next ((s.wrAt R.HAUL_LANE_MAP_TX_SPARE port m.src).showMarks port)
    else .next s

/-- A tested lane with `symbols` corrected symbols in 1 ms passes (R288). -/
def State.lanePasses (s : State) (p symbols : Nat) : Bool := symbols ≤ s.rdAt R.HAUL_LANE_CFG_DEG_SYM p / 4

/-- Calibration ends: the lane becomes the spare or is Failed (R288). Its test takes 1 ms behind an adaptation of at most CAL_MS; a
lane that is not done by then has not passed (DEDUCED, log entry 141). -/
def execCalibrationEnd (port : Fin 16) (symbols : Nat) (s : State) : Res :=
  let h := s.port port
  let inTime : Bool := decide (s.now ≤ h.timers.calib + msTicks (s.rdAt R.HAUL_LANE_CFG_CAL_MS port + 1))
  match h.calib with
  | none => .next s
  | some x =>
    if s.now < h.timers.calib + msTicks 1 then .next s else
    let s := (s.setPort port { h with calib := none }).wrAt R.HAUL_PORT_STATUS_ROTATING port 0
    let s := (s.incAt R.HAUL_LANE_COUNT_ROTATIONS port).trace 7 (occField 12 port) 12 port 0
    if inTime && s.lanePasses port symbols then .next (s.setSpare port (some x))
    else
      let s := ((s.laneFailed port x).noSpare port).incAt R.HAUL_LANE_COUNT_CAL_FAILS port
      .next (s.wrAt R.HAUL_EVENT_CAL_FAIL port 1)

/-- Every second a Failed lane is relocked and tested; one that passes becomes the spare (R289), or goes on as the lane it is where it still
carries a logical lane, its swap having been abandoned. -/
def execFailedLaneRetest (port : Fin 16) (lane : Fin 9) (symbols : Nat) (s : State) : Res :=
  let m := s.rdAt R.HAUL_LANE_MAP_FAILED port
  let last := Tab.get 0 lane (s.port port).timers.retest
  if s.portUp port ∧ bit lane m ∧ last + msTicks 1000 ≤ s.now then
    let s := s.onTimers port fun t => { t with retest := Tab.ins lane s.now t.retest }
    if !s.lanePasses port symbols then .next s
    else
    let s := s.wrAt R.HAUL_LANE_MAP_FAILED port (m - 2 ^ lane.val)
    let h := s.port port
    let s := s.setPort port { h with lost := Tab.del lane h.lost }
    .next (if (s.logicalOf port lane).isSome then (s.setLaneState port lane 0).showLock port else s.setSpare port (some lane))
  else .next s

/-! ## What leaves in a tick with no command -/

/-- The copies of SWAP_DONE go on every 256 ns, for the 10 µs in which the swap must complete (R286; DEDUCED, log entry 140). -/
def State.repeatDone (s : State) (p : Nat) : State :=
  let h := s.port p
  match h.done with
  | none => s
  | some (m, first, last) =>
    if first + nsTicks 10000 ≤ s.now then (s.setPort p { h with done := none }).showMarks p
    else if last + nsTicks 256 ≤ s.now then (s.setPort p { h with done := some (m, first, s.now) }).sendLane p m 1
    else s

/-- What a port sends in a tick of TCLK unasked: an ANNOUNCE in Exchange (R281), the copies of SWAP_DONE, and FILL in the block times with
nothing to send (R272), of which one stands for those of the tick (DESIGN CHOICE, log entry 139). -/
def State.tickLink (s : State) (p : Nat) : State :=
  let s := if s.train p = 4 then (s.sendAnnounce p).exchangeEnd p else s.repeatDone p
  if (s.train p = 5 ∨ s.train p = 6) ∧ !(s.port p).replaying then s.sendPlain p 0 [] else s

/-- What the haul ports send in a tick of TCLK unasked. -/
def State.tickLinks (s : State) : State := (List.range 16).foldl State.tickLink s

end Sys2Proof.Machine
end

