-- ==== Sys2Proof/Machine/Access.lean ====
section
/-! DEFINITION. Where a register access lands and which blocks run (14_forester_and_control.md R367, R368;
15_faults_security_observation.md R404). -/

namespace Sys2Proof.Machine

open Sys2Proof

/-- A forwarding load is Armed, Active or Unload armed (R368). -/
def State.fwdBusy (s : State) : Bool :=
  (List.range 7).any fun k => 2 ≤ s.rdAt R.TOP_FWD_STATUS_STATE k && s.rdAt R.TOP_FWD_STATUS_STATE k ≤ 4

/-- The block that holds the register at `off` is running (R368, R404). -/
def State.running (s : State) (b : Block) (off : Nat) : Bool :=
  match b with
  | .pln | .bch | .frk | .gen | .hbm | .dtr | .wgt | .itk | .sct | .twn | .clk | .tal | .pwr => s.planRunning
  | .sch | .top => s.planRunning || s.fwdBusy
  | .ptp => s.planRunning || s.onAt R.ITK_PORT_LINK_UP 0 || s.onAt R.ITK_PORT_LINK_UP 1
  | .haul => s.portUp (off / 0x10000 % 16)
  | .olc => s.rd R.OLC_STATUS_STATE == 2
  | .flt | .rrc => false
  | .sec => true
  | .obs => s.rd R.OBS_TRACE_STATUS_STATE == 1 || s.rd R.OBS_TRACE_STATUS_STATE == 2

/-- The register at an offset: its row, its base and the word. -/
def regAt (off : Nat) : Option (RegRow × Nat × Nat) :=
  R.rows.findSome? fun r => match r.find off with | some (base, w) => some (r, base, w) | none => none

/-- The element of an array that a field of the register at `base` is. -/
def Field.elem (f : Field) (base : Nat) : Nat := if f.stride = 0 then 0 else (base - f.addr) / f.stride

/-- A write to Static fields of a running block is ignored where it would change them: counted, its offset kept, and a Notice
recorded (R368, R434). -/
def State.ignoreWrite (s : State) (off : Nat) : State :=
  (((s.inc R.OLC_IGNORED_COUNT).wr R.OLC_IGNORED_OFFSET off).wr R.OLC_EVENT_IGNORED 1).notice 16 0x80 0 0 off

/-- An access to a hole, or one that is misaligned or not 64 bits wide (R367). -/
def State.badCsr (s : State) : State := (s.inc R.OLC_ERR_BAD_CSR).wr R.OLC_EVENT_BAD_CSR 1

/-- The Tally takes a role (R53): an Isolated Tally runs without trim. -/
def State.setRole (s : State) (role : Nat) : State :=
  let s := (s.wr R.TAL_CTRL_ROLE role).wr R.TAL_STATUS_ROLE role
  (if role = 2 then s.wr R.TAL_RATE_TRIM 0 else s).showPtpLocked

end Sys2Proof.Machine
end

