-- ==== Sys2Proof/Machine/Lease.lean ====
section
/-! DEFINITION. Slot leases (12_topology.md R343): which lease binds a job on a port, the share of a tick, and the checks of
a lease and of a plan against its lease. -/

namespace Sys2Proof.Machine

open Sys2Proof

/-- The number of blocks of an entry's transfer (R297). -/
def blockCount (e : SchedEntry) : Nat := ceilDiv e.length 236

/-- The lease that binds a job on a port, if leases rule (R343). -/
def State.leaseOf (s : State) (j : Job) (p : Nat) : Option Nat :=
  if s.on R.TOP_LEASE_CTRL_EN then
    (List.range 8).find? fun n => s.onAt R.TOP_LEASE_VALID n && s.rdAt R.TOP_LEASE_PLAN_PLAN n == j.plan
      && bit p (s.rdAt R.TOP_LEASE_PORTS n)
  else none

/-- Blocks that a job may send on a port in one tick (R300, R343). -/
def State.rateOf (s : State) (j : Job) (p : Nat) : Nat :=
  match s.leaseOf j p with | some n => max 1 (s.rdAt R.TOP_LEASE_SHARE n) | none => 6

/-- A lease has sent its share of this tick on a port (R343). -/
def State.shareSpent (s : State) (j : Job) (p : Nat) : Bool :=
  match s.leaseOf j p with
  | none => false
  | some n =>
    let used := if s.sch.shareTick = s.now then s.sch.shareUsed.count (8 * p + n) else 0
    decide (s.rdAt R.TOP_LEASE_SHARE n ≤ used)

/-- Count a departure against the share of its lease. -/
def State.useShare (s : State) (j : Job) (p : Nat) : State :=
  match s.leaseOf j p with
  | none => s
  | some n =>
    let used := if s.sch.shareTick = s.now then s.sch.shareUsed else []
    { s with sch := { s.sch with shareTick := s.now, shareUsed := (8 * p + n) :: used } }

/-! ## Checks -/

/-- A lease's own terms lie within the ranges of R343 and R349. -/
def State.termsOk (s : State) (n : Nat) : Bool :=
  let share := s.rdAt R.TOP_LEASE_SHARE n
  1 ≤ share && share ≤ 6 && s.rdAt R.TOP_LEASE_BUF n ≤ 1792
    && decide (s.rdAt R.TOP_LEASE_ROUTE_BASE n + s.rdAt R.TOP_LEASE_ROUTE_COUNT n ≤ 65536)

/-- Two route ranges overlap. -/
def rangesMeet (a n b m : Nat) : Bool := decide (a < b + m) && decide (b < a + n)

/-- Lease `n` beside the valid leases `others` keeps the sums of R343: SHARE and BUF on each port, and routes apart. -/
def State.sumsOk (s : State) (n : Nat) (others : List Nat) : Bool :=
  let ports := (List.range 16).filter fun p => bit p (s.rdAt R.TOP_LEASE_PORTS n)
  let sum (f : Field) (p : Nat) : Nat :=
    s.rdAt f n + ((others.filter fun m => bit p (s.rdAt R.TOP_LEASE_PORTS m)).map fun m => s.rdAt f m).sum
  s.termsOk n && (ports.all fun p => decide (sum R.TOP_LEASE_SHARE p ≤ 6) && decide (sum R.TOP_LEASE_BUF p ≤ 1792))
    && !(others.any fun m => rangesMeet (s.rdAt R.TOP_LEASE_ROUTE_BASE n) (s.rdAt R.TOP_LEASE_ROUTE_COUNT n)
      (s.rdAt R.TOP_LEASE_ROUTE_BASE m) (s.rdAt R.TOP_LEASE_ROUTE_COUNT m))

/-- The other valid leases. -/
def State.validLeases (s : State) (n : Nat) : List Nat := (List.range 8).filter fun m => m != n && s.onAt R.TOP_LEASE_VALID m

/-- The valid lease that names a plan. -/
def State.planLease (s : State) (plan : Nat) : Option Nat :=
  (List.range 8).find? fun n => s.onAt R.TOP_LEASE_VALID n && s.rdAt R.TOP_LEASE_PLAN_PLAN n == plan

/-- Blocks of an entry planned for tick `t` under a share (R300, R343). -/
def plannedAt (share t : Nat) (e : SchedEntry) : Nat :=
  if t < e.tick then 0 else min share (blockCount e - (t - e.tick) * share)

/-- The SEND and FWD entries of a schedule on a port keep within a share at every tick; their sum is largest where an entry
begins. -/
def shareKept (h : HaulSchedule) (p share : Nat) : Bool :=
  let l := (h.entries.filter fun (e : Nat × SchedEntry) => e.1 / 32768 == p && (e.2.type == .send || e.2.type == .fwd)).map Prod.snd
  l.all fun e => decide ((l.map (plannedAt share e.tick)).sum ≤ share)

/-- The largest sum of `w` over entries that may act together: those of the common schedule, and of each fork those of the variant with
most (R113). -/
def mostTogether (w : SchedEntry → Nat) (l : List SchedEntry) : Nat :=
  let ofFork (n : Nat) : Nat :=
    ((List.range 8).map fun v => ((l.filter fun e => e.forkEn && e.fork == n && bit v e.variants).map w).sum).foldl max 0
  ((l.filter fun e => !e.forkEn).map w).sum + (((l.filter SchedEntry.forkEn).map SchedEntry.fork).eraseDups.map ofFork).sum

/-- Blocks of a transfer of `n` that have passed before nominal tick `t`, `rate` to a tick from tick `first` on. -/
def passedBefore (rate n first t : Nat) : Nat := min n ((t - first) * rate)

/-- Blocks of a route that the scheduled buffer of its in port holds at nominal tick `t` (R303, R304): from their arrival to their departure
under the FWD entry, or to the binding of the receive address. -/
def heldAt (rate : Nat) (a : RouteArrival) (r : RouteEntry) (t : Nat) (e : SchedEntry) : Nat :=
  let n := blockCount e
  let arrived := passedBefore rate n a.tick (t + 1)
  if r.deliver then (if t < a.bound then arrived else 0) else arrived - passedBefore rate n e.tick t

/-- Planned occupancy of the scheduled buffer of port `q` at nominal tick `t`. -/
def plannedHeld (h : HaulSchedule) (arrivals : List RouteArrival) (rate q t : Nat) : Nat :=
  let at_ := (arrivals.filter fun a => a.port == q).filterMap fun a => (h.routes.find? fun r => r.route == a.route).bind fun r =>
    (h.entries.find? fun (e : Nat × SchedEntry) => e.1 == 32768 * r.port + r.entry).map fun e => (a, r, e.2)
  mostTogether (fun e => ((at_.filter fun x => x.2.2 == e).map fun x => heldAt rate x.1 x.2.1 t e).sum) ((at_.map fun x => x.2.2).eraseDups)

/-- At every tick of a step the planned occupancy of every port keeps to the most that `limit` gives it (R304, R343). -/
def buffersKept (p : Plan) (arrivals : List RouteArrival) (rate limit : Nat → Nat) : Bool :=
  (arrivals.map RouteArrival.port).eraseDups.all fun q =>
    (List.range p.stepLen).all fun t => decide (plannedHeld p.sched arrivals (rate q) q t ≤ limit q)

/-- Check 0x0B of the scheduled buffers (R304): 1,792 blocks of each port, or BUF of the lease that binds the plan there (R343). -/
def State.buffersOk (s : State) (p : Plan) (arrivals : List RouteArrival) : Bool :=
  let lease (q : Nat) : Option Nat :=
    if s.on R.TOP_LEASE_CTRL_EN then (s.planLease p.id8).filter fun n => bit q (s.rdAt R.TOP_LEASE_PORTS n) else none
  buffersKept p arrivals (fun q => match lease q with | some n => s.rdAt R.TOP_LEASE_SHARE n | none => 6)
    (fun q => match lease q with | some n => s.rdAt R.TOP_LEASE_BUF n | none => 1792)

/-- The code that the leases give a plan (R343), 0 for none. -/
def State.leaseCode (s : State) (p : Plan) : Nat :=
  if !s.on R.TOP_LEASE_CTRL_EN then 0
  else match s.planLease p.id8 with
    | none => 0x0D
    | some n =>
      let base := s.rdAt R.TOP_LEASE_ROUTE_BASE n
      let inside (r : Nat) : Bool := decide (base ≤ r) && decide (r < base + s.rdAt R.TOP_LEASE_ROUTE_COUNT n)
      let share := s.rdAt R.TOP_LEASE_SHARE n
      if ((List.range 16).any fun q => bit q (s.rdAt R.TOP_LEASE_PORTS n) && !shareKept p.sched q share) then 0x0B
      else if (p.sched.routes.any fun r => !inside r.route) ∨ p.sched.entries.any fun (e : Nat × SchedEntry) => e.2.type != .unused && !inside e.2.route then 0x0D
      else 0

end Sys2Proof.Machine
end

