-- ==== Sys2Proof/Machine/Clock.lean ====
section
/-! DEFINITION. The clock and Tally rows (02_clocks_and_tally.md R44 to R62), but for the beat and step boundaries of
Machine/Boundary.lean. -/

namespace Sys2Proof.Machine

open Sys2Proof

/-! ## Crossings and stretching -/

/-- A stall at a crossing ends, since its flit has arrived or a slot is free: a late entry, counted in both regions and charged to
their beats as stretched cycles, and the sequencer goes on (R44). -/
def execLateEntry (reader writer : Fin 39) (cycles : Nat) (s : State) : Res :=
  let key := 64 * writer.val + reader.val
  if key ∈ s.clk.stalled ∧ s.crossingFree key then
    let charge (r : Nat) (t : Tab Nat) : Tab Nat := Tab.put 0 r (Tab.get 0 r t + cycles) t
    let s := (s.incAt R.CLK_RGN_COUNT_LATE reader).incAt R.CLK_RGN_COUNT_LATE writer
    let s := { s with clk := { s.clk with late := charge writer (charge reader s.clk.late), stalled := dropOne key s.clk.stalled } }
    .next ((s.wr R.CLK_EVENT_LATE_ENTRY 1).resumeAt key)
  else .next s

/-- The region's droop detector trips: the stretcher swallows edges (R45). -/
def execDroopStretchStart (region : Fin 39) (s : State) : Res :=
  let s := { s with clk := { s.clk with droop := addOnce region s.clk.droop } }
  .next (s.showStretch region)

/-- The detector has been clear for 16 cycles: stretching for droop ends (R45). -/
def execDroopStretchEnd (region : Fin 39) (s : State) : Res :=
  let s := { s with clk := { s.clk with droop := dropOne region s.clk.droop } }
  .next (s.showStretch region)

/-- The margin has been below CRIT for 1 ms: Contained error 0x20 for the region (R48). -/
def execTtCritTimeout (region : Fin 39) (s : State) : Res :=
  if s.onAt R.CLK_RGN_STATUS_TT_CRIT region then
    .next (s.contained 2 0x20 (regionField region) 0 region 0)
  else .next s

/-! ## Frequency changes -/

/-- The longest region stop in ticks (R50). -/
def stopTicks : Nat := 3563

/-- `len` nominal ticks from position `from_` of the steps of context `c` fall within the stop that begins at count `at_` (R50): in
whichever step of those that it reaches into, or from the one before. -/
def State.inStop (s : State) (c from_ len at_ : Nat) : Bool :=
  let n := s.stepLen c
  let start := match s.ctx? c with | some r => r.start + r.holds | none => 0
  let x := (at_ - start) % n + n
  n == 0 || (List.range (stopTicks / n + 3)).any fun k => decide (from_ + n * k < x + stopTicks) && decide (x < from_ + n * k + len)

/-- A region has work in the active plan until a stop of it that begins at count `at_` is over (R50): benches in use; entries, windows and
weights of a memory; entries on a port; intake. Benches, weights, receives and intake work throughout; the Tally's region always. -/
def State.regionWorks (s : State) (r at_ : Nat) : Bool :=
  match s.pln.active with
  | none => false
  | some p =>
    if r < 24 ∨ 37 ≤ r then s.regionUsed r
    else if r < 35 then
      let m := p.memory
      (m.regions.any fun x => (x.kind == 0 || x.kind == 5) && decide (memRegion x.base ≤ r) && decide (r ≤ memRegion (x.base + x.length - 1)))
        || (m.entries.any fun e => (ctrlRegion e.ctrl == r || (e.kind == 3 && memRegion e.addr2 == r)) && s.inStop e.ctx (16 * e.beat) (16 * e.beats) at_)
        || (m.windows.any fun d => ctrlRegion d.ctrl == r && s.inStop d.ctx (16 * d.start) (16 * d.length) at_)
    else match s.job? 7 with
      | none => false
      | some j => j.sched.entries.any fun (e : Nat × SchedEntry) =>
          35 + e.1 / 32768 / 8 == r && (e.2.type == .recv || s.inStop e.2.ctx e.2.tick (1 + blockCount e.2) at_)

/-- Refuse a frequency change: FCHG_REFUSED is set and nothing else changes but the state shown (R50, R51). -/
def State.refuseFchg (s : State) : State :=
  (s.wr R.CLK_EVENT_FCHG_REFUSED 1).wr R.CLK_FCHG_CTRL_STATE 3

/-- Arm the change as written (R50, R51). -/
def State.armFchg (s : State) : State :=
  let c := { s.clk with fchgAt := s.last R.CLK_FCHG_AT_AT, fchgPoint := s.last R.CLK_FCHG_CTRL_OP_POINT
                        fchgRegion := s.last R.CLK_FCHG_CTRL_REGION, fchgStop := s.on R.CLK_FCHG_CTRL_KIND
                        standbyLocked := false }
  { s with clk := c }.wr R.CLK_FCHG_CTRL_STATE 1

/-- CLK_FCHG_CTRL.ARM (R50, R51): a region stop under an active plan is accepted only as a relock to the point in force
or in a region without work, and is otherwise refused with Contained 0x29; a synchronised change needs 5,938 ticks of
lead and a target point that the active plan lists. An ARM written while a change is Armed or Switching is refused and leaves STATE
(R61 gives no effect for it), and a region stop armed for a count already past is accepted and never fires (R50 asks only a
multiple of 16): both DEDUCED, log entry 29. -/
def execFchgArm (s : State) : Res :=
  let st := s.rd R.CLK_FCHG_CTRL_STATE
  let at_ := s.last R.CLK_FCHG_AT_AT
  let target := s.last R.CLK_FCHG_CTRL_OP_POINT
  let region := s.last R.CLK_FCHG_CTRL_REGION
  let busy : Bool := st == 1 || st == 2
  if s.on R.CLK_FCHG_CTRL_KIND then
    if busy then .next (s.wr R.CLK_EVENT_FCHG_REFUSED 1)
    else if 38 < region ∨ at_ % 16 ≠ 0 then .next s.refuseFchg
    else if s.planActive ∧ target ≠ s.rdAt R.CLK_RGN_STATUS_OP_POINT region ∧ s.regionWorks region at_ then
      .next (s.refuseFchg.contained 2 0x29 (regionField region) 0 region 0)
    else .next s.armFchg
  else
    let listed := match s.pln.active with | some p => s.planActive && bit target p.opPoints | none => false
    .next (s.armChange 5 0 at_ at_ (!busy && at_ % 16 == 0 && s.now + 5938 ≤ at_ && listed) State.armFchg
      (fun s => if busy then s.wr R.CLK_EVENT_FCHG_REFUSED 1 else s.refuseFchg))

/-- CLK_FCHG_CTRL.DISARM returns an Armed change to Idle; ignored in Switching (R61). It loses to a change that takes effect in the
same tick (R369). -/
def execFchgDisarm (s : State) : Res :=
  let armed : Bool := s.rd R.CLK_FCHG_CTRL_STATE == 1
  let due : Bool := armed && (if s.clk.fchgStop then s.now == s.clk.fchgAt
    else s.clk.standbyLocked && decide (s.clk.fchgAt ≤ s.now) && s.atStepStart)
  if due ∨ s.olc.applied.contains (5, 0) then .next (s.wr R.CLK_EVENT_FCHG_REFUSED 1)
  else if armed then .next ((s.dropChange 5 0).wr R.CLK_FCHG_CTRL_STATE 0)
  else .next s

/-- At the armed count the region stops its clock and relocks; a relock of a region with work raises a hold request of
⌈3,563 ÷ Q⌉ quanta (R50, R311). -/
def execRegionStop (s : State) : Res :=
  if s.rd R.CLK_FCHG_CTRL_STATE = 1 ∧ s.clk.fchgStop ∧ s.now = s.clk.fchgAt then
    let r := s.clk.fchgRegion
    let works := s.regionWorks r s.now
    let s := (((s.tookEffect 5 0).wr R.CLK_FCHG_CTRL_STATE 2).wrAt R.CLK_RGN_STATUS_STOPPED r 1).wrAt R.CLK_RGN_STATUS_LOCK r 0
    if s.planActive ∧ works then .next (s.clockHold (ceilDiv 3563 s.quantum) false) else .next s
  else .next s

/-- The relock completes and the region restarts at a beat boundary, at most 3,563 ticks after its stop (R50). -/
def execRegionRestart (s : State) : Res :=
  if s.rd R.CLK_FCHG_CTRL_STATE = 2 ∧ s.clk.fchgStop ∧ s.now % 16 = 0 ∧ s.now ≤ s.clk.fchgAt + 3563 then
    let r := s.clk.fchgRegion
    let s := ((s.wr R.CLK_FCHG_CTRL_STATE 0).wrAt R.CLK_RGN_STATUS_STOPPED r 0).wrAt R.CLK_RGN_STATUS_LOCK r 1
    .next (if r < 24 then s.wrAt R.CLK_RGN_STATUS_OP_POINT r s.clk.fchgPoint else s)
  else .next s

/-- The standby loops complete their lock to the new ratio (R51). -/
def execStandbyLoopsLocked (s : State) : Res :=
  if s.rd R.CLK_FCHG_CTRL_STATE = 1 ∧ !s.clk.fchgStop then
    .next { s with clk := { s.clk with standbyLocked := true } }
  else .next s

/-- The stage that the present point's step profile ends a step with (R433). -/
def State.lastStage (s : State) : Option PowerStage :=
  match s.profile with
  | none => none
  | some f => s.stepEndStage f (match s.pwr.endForks with | (c, _) :: _ => c | [] => 16)

/-- At the first step boundary at or after the named count every bench region switches loops (R51, R370). The beat that follows
carries no bench work: the sequencers have fetched the new point's step entry (R168) and wait for the next beat boundary, and
the old point's level at the end of its step is held (R433). -/
def execSyncChangeSwitch (s : State) : Res :=
  if s.rd R.CLK_FCHG_CTRL_STATE = 1 ∧ !s.clk.fchgStop ∧ s.clk.standbyLocked ∧ s.clk.fchgAt ≤ s.now ∧ s.atStepStart then
    let old := s.point
    let s := { s with clk := { s.clk with standbyLocked := false, switchBeat := true }
                      pwr := { s.pwr with switchStage := s.lastStage } }
    let s := (s.setPoints s.clk.fchgPoint 24).wr R.CLK_FCHG_CTRL_STATE 2
    let s := s.planCtxs.foldl (fun s x => if s.ctxRunning x.ctx then (s.fetchEntries x.ctx).holdEntries x.ctx else s) s
    .next ((s.changeApplied 5 0 old).showLevel)
  else .next s

/-- A region PLL loses lock (R61). -/
def execPllLockLost (region : Fin 39) (s : State) : Res :=
  .next ((s.wrAt R.CLK_RGN_STATUS_LOCK region 0).wr R.CLK_EVENT_LOCK_LOST 1)

/-- A region PLL has not locked 1 ms after its group reached regulation: it is relocked up to 3 times, and then a Fault
is recorded and the region stays stopped; region 38 is Module-fatal 0x43 (R410, R413). -/
def execRegionLockTimeout (region : Fin 39) (s : State) : Res :=
  if s.onAt R.CLK_RGN_STATUS_LOCK region then .next s
  else
    let tried := Tab.get 0 region.val s.clk.relocks
    if tried < 3 then .next { s with clk := { s.clk with relocks := Tab.put 0 region.val (tried + 1) s.clk.relocks } }
    else if region.val = 38 then
      .next ({ s with clk := { s.clk with neverLocked := addOnce 38 s.clk.neverLocked } }.moduleFatal 3 0x43 1 region.val)
    else
      let s := { s with clk := { s.clk with neverLocked := addOnce region s.clk.neverLocked } }
      .next ((s.wrAt R.CLK_RGN_STATUS_STOPPED region 1).fault 2 0x82 region 0 0)

/-! ## The Tally -/

/-- A marker arrives (R285): on the upstream port of a follower a valid one aligns the Tally or corrects its rate
(R53, R54, R56, R57). -/
def execMarkerReceived (port : Fin 16) (blk : WireBlock) (arrival : Stamp) (s : State) : Res :=
  match s.accept port blk with
  | (s, some b) =>
    if b.type = 6 then
      match Marker.decode b.data with
      | none => .next (s.reservedDrop port)
      | some m =>
        if m.hops < 8 then
          let s := s.incAt R.HAUL_MARKER_COUNT_RX port
          if s.rd R.TAL_STATUS_ROLE = 0 ∧ s.rd R.TAL_STATUS_UPSTREAM = port.val then
            let s := { s with tal := { s.tal with lastMarker := s.now, root := m.root, hops := m.hops + 1, rootPtp := bit 3 m.flags } }
            .next (s.takeMarker (s.markerOffset port m.tDep (s.arrives port arrival)))
          else .next s
        else .next s
    else .next s
  | (s, none) => .next s

/-- No valid marker for LOSS_US: the Tally enters holdover and a Notice is recorded (R56, R434). -/
def execHoldoverEntry (s : State) : Res :=
  if s.rd R.TAL_STATUS_ROLE = 0 ∧ !s.on R.TAL_STATUS_HOLDOVER ∧
      s.tal.lastMarker + usTicks (s.rd R.TAL_CTRL_LOSS_US) ≤ s.now then
    .next ((s.wr R.TAL_STATUS_HOLDOVER 1).notice 3 0x80 (s.rd R.TAL_STATUS_UPSTREAM) 0 0)
  else .next s

/-- TAL_CTRL.ALIGN_NOW aligns at the next marker; refused while a plan is active (R54, R62). -/
def execAlignNow (s : State) : Res :=
  if s.planActive then .next s else .next { s with tal := { s.tal with alignNow := true } }

/-- A root with PTP_FOLLOW sends a MAP to every module with a valid service route, in ascending number (R58). -/
def execTimeMapSend (s : State) : Res :=
  if s.rd R.TAL_STATUS_ROLE = 1 ∧ s.on R.TAL_CTRL_PTP_FOLLOW then
    let dests := (List.range 4096).filter fun m => s.onAt R.SCH_SVC_ROUTE_VALID m
    .next (s.sendAll 7 false (s.timePkt 1 0).encode dests)
  else .next s

/-- A TIME packet that is not the one of its row: one with a reserved OP is discarded and counted as a service drop (R58). -/
def State.timeOther (s : State) (pkt : TimePkt) : State := if 1 ≤ pkt.op ∧ pkt.op ≤ 3 then s else { s with sch := { s.sch with drops := s.sch.drops + 1 } }

/-- A received MAP is stored; a reserved OP is discarded and counted (R58). -/
def execTimeMapReceived (pkt : TimePkt) (s : State) : Res :=
  if pkt.op = 1 then
    let s := (s.wr R.TAL_MAP_TALLY_TICKS pkt.tally).wr R.TAL_MAP_S_ROOT pkt.root
    .next (((s.wr R.TAL_MAP_S_SECONDS pkt.ptpS).wr R.TAL_MAP_NS_FLAGS pkt.flags).wr R.TAL_MAP_NS_NS pkt.ptpNs)
  else .next (s.timeOther pkt)

/-- A QUERY is answered with an ANSWER to its SOURCE, carrying a capture (R58). -/
def execTimeQueryReceived (source : Nat) (pkt : TimePkt) (s : State) : Res :=
  if pkt.op = 2 then .next (s.sendService 7 source false (s.timePkt 3 pkt.token).encode)
  else .next (s.timeOther pkt)

/-- TAL_CAPTURE copies the Tally count and the module PTP time in the same tick (R62). TAL_CAPTURE_VAL has a field for the count
only, and nothing shows the captured fraction (log entry 105). -/
def execTalCapture (s : State) : Res :=
  .next (((s.wr R.TAL_CAPTURE_VAL_TICKS s.now).wr R.PTP_CAPTURE_S_SECONDS s.ptpSec).wr R.PTP_CAPTURE_NS_NS s.ptpNs)

end Sys2Proof.Machine
end

