-- ==== Sys2Proof/Machine/Float.lean ====
section
/-! DEFINITION. Numbers and formats (03_bench_arithmetic.md R66 to R70, R77 to R83, R432): exact values, decoding,
rounding into a format, and the arithmetic of FP32 lanes. A lane, an element and a scale are Nat bit patterns. -/

namespace Sys2Proof.Machine

open Sys2Proof

/-! ## Formats -/

/-- The twelve formats (R66). -/
inductive Format where
  | fp4 | fp6e2m3 | fp6e3m2 | fp8e4m3 | fp8e5m2 | int4 | int8 | int32 | bf16 | fp16 | fp32 | ue8m0
deriving DecidableEq, Repr

/-- The format of a code; 0xC to 0xF are reserved (R66, R14). -/
def formatOf (code : Nat) : Option Format :=
  [.fp4, .fp6e2m3, .fp6e3m2, .fp8e4m3, .fp8e5m2, .int4, .int8, .int32, .bf16, .fp16, .fp32, .ue8m0][code]?

/-- Bits of an element. -/
def Format.width : Format → Nat
  | .fp4 => 4 | .fp6e2m3 => 6 | .fp6e3m2 => 6 | .fp8e4m3 => 8 | .fp8e5m2 => 8 | .int4 => 4 | .int8 => 8
  | .int32 => 32 | .bf16 => 16 | .fp16 => 16 | .fp32 => 32 | .ue8m0 => 8

/-- An integer format. -/
def Format.isInt : Format → Bool
  | .int4 => true | .int8 => true | .int32 => true | _ => false

/-- How a format uses the all-ones exponent (R66): for infinities and NaNs as IEEE 754 does, for one NaN, or for normal
values. -/
inductive AllOnes where
  | ieee | oneNan | normal
deriving DecidableEq, Repr

/-- Exponent bits, mantissa bits, bias and use of the all-ones exponent of a floating-point format (R66); none for
integers and UE8M0. -/
def Format.layout : Format → Option (Nat × Nat × Nat × AllOnes)
  | .fp4 => some (2, 1, 1, .normal)
  | .fp6e2m3 => some (2, 3, 1, .normal)
  | .fp6e3m2 => some (3, 2, 3, .normal)
  | .fp8e4m3 => some (4, 3, 7, .oneNan)
  | .fp8e5m2 => some (5, 2, 15, .ieee)
  | .bf16 => some (8, 7, 127, .ieee)
  | .fp16 => some (5, 10, 15, .ieee)
  | .fp32 => some (8, 23, 127, .ieee)
  | .int4 => none | .int8 => none | .int32 => none | .ue8m0 => none

/-! ## Values -/

/-- An exact value: NaN, an infinity, or ±mag × 2^exp. -/
inductive Val where
  | nan
  | inf (neg : Bool)
  | fin (neg : Bool) (mag : Nat) (exp : Int)
deriving DecidableEq, Repr

/-- The exact value of an integer times 2^e. -/
def Val.ofInt (x e : Int) : Val := .fin (decide (x < 0)) x.natAbs e

/-- The value of a bit pattern in a format (R66). -/
def Format.decode (f : Format) (v : Nat) : Val :=
  match f.layout with
  | some (eb, mb, bias, top) =>
    let m := v % 2 ^ mb
    let e := v / 2 ^ mb % 2 ^ eb
    let neg := bit (eb + mb) v
    if top = .ieee ∧ e = 2 ^ eb - 1 then (if m = 0 then .inf neg else .nan)
    else if top = .oneNan ∧ e = 2 ^ eb - 1 ∧ m = 2 ^ mb - 1 then .nan
    else if e = 0 then .fin neg m (1 - (bias : Int) - (mb : Int))
    else .fin neg (m + 2 ^ mb) ((e : Int) - (bias : Int) - (mb : Int))
  | none =>
    if f = .ue8m0 then (if v % 256 = 255 then .nan else .fin false 1 (((v % 256 : Nat) : Int) - 127))
    else .ofInt (ofField f.width (v % 2 ^ f.width)) 0

/-- The value is a zero of either sign. -/
def Val.isZero : Val → Bool
  | .fin _ m _ => m == 0
  | _ => false

/-- The value is finite. -/
def Val.isFin : Val → Bool
  | .fin _ _ _ => true
  | _ => false

/-- Scale a value by 2^k, exactly. -/
def Val.scale (k : Int) : Val → Val
  | .fin n m e => .fin n m (e + k)
  | v => v

/-- The negation of a value. -/
def Val.negate : Val → Val
  | .nan => .nan
  | .inf n => .inf (!n)
  | .fin n m e => .fin (!n) m e

/-- The exact signed multiple of 2^e that a finite value is, where e is at most its exponent. -/
def signedAt (e : Int) (neg : Bool) (m : Nat) (x : Int) : Int :=
  let k : Int := ((m * 2 ^ (x - e).toNat : Nat) : Int)
  if neg then -k else k

/-- The exact sum; an exact zero is negative only where both terms are (IEEE 754 under RNE). -/
def Val.add : Val → Val → Val
  | .nan, _ => .nan
  | _, .nan => .nan
  | .inf a, .inf b => if a = b then .inf a else .nan
  | .inf a, .fin _ _ _ => .inf a
  | .fin _ _ _, .inf b => .inf b
  | .fin n1 m1 e1, .fin n2 m2 e2 =>
    let e := min e1 e2
    let x := signedAt e n1 m1 e1 + signedAt e n2 m2 e2
    .fin (if x = 0 then n1 && n2 else decide (x < 0)) x.natAbs e

/-- The exact product. -/
def Val.mul : Val → Val → Val
  | .nan, _ => .nan
  | _, .nan => .nan
  | .inf a, .inf b => .inf (a != b)
  | .inf a, .fin n m _ => if m = 0 then .nan else .inf (a != n)
  | .fin n m _, .inf b => if m = 0 then .nan else .inf (n != b)
  | .fin n1 m1 e1, .fin n2 m2 e2 => .fin (n1 != n2) (m1 * m2) (e1 + e2)

/-- The order of two values: none where either is NaN (R80, R86). -/
def Val.order : Val → Val → Option Ordering
  | .nan, _ => none
  | _, .nan => none
  | .inf a, .inf b => some (if a = b then .eq else if a then .lt else .gt)
  | .inf a, .fin _ _ _ => some (if a then .lt else .gt)
  | .fin _ _ _, .inf b => some (if b then .gt else .lt)
  | .fin n1 m1 e1, .fin n2 m2 e2 =>
    let e := min e1 e2
    some (compare (signedAt e n1 m1 e1) (signedAt e n2 m2 e2))

/-! ## Rounding -/

/-- The rounding modes of R77; encoding 3 is reserved. SR carries its 16 random bits (R78). -/
inductive Rounding where
  | rne
  | sr (r : Nat)
  | rtz
deriving DecidableEq, Repr

/-- `m × 2^-k` rounded to an integer (R77, R78). -/
def roundShift (rm : Rounding) (m k : Nat) : Nat :=
  let q := m / 2 ^ k
  let rest := m % 2 ^ k
  match rm with
  | .rtz => q
  | .rne => if 2 ^ k < 2 * rest ∨ (2 * rest = 2 ^ k ∧ q % 2 = 1) then q + 1 else q
  | .sr r => if 65536 ≤ rest * 65536 / 2 ^ k + r then q + 1 else q

/-- A magnitude `m × 2^e` as a multiple of 2^q, rounded. -/
def roundAt (rm : Rounding) (m : Nat) (e q : Int) : Nat :=
  if q ≤ e then m * 2 ^ (e - q).toNat else roundShift rm m (q - e).toNat

/-- What a conversion or an operation counts (R79, R89). -/
inductive NumEvent where
  | nanOut | fpSat | intSat | nanDrop
deriving DecidableEq, Repr

/-- ⌊log₂⌋ of a positive value `m × 2^e`. -/
def floorLog (m : Nat) (e : Int) : Int := (m.log2 : Int) + e

/-- The bits below the sign of `m × 2^e` rounded into a format with these exponent and mantissa bits and bias, unbounded
above: the carry of a mantissa enters the exponent. -/
def roundMag (rm : Rounding) (mb bias m : Nat) (e : Int) : Nat :=
  if m = 0 then 0
  else
    let least : Int := 1 - (bias : Int)
    let x := max (floorLog m e) least
    let q := roundAt rm m e (x - mb)
    (x - least).toNat * 2 ^ mb + q

/-- Bits of the sign of an element. -/
def signBit (f : Format) (neg : Bool) : Nat := if neg then 2 ^ (f.width - 1) else 0

/-- The largest finite magnitude of a floating-point format. -/
def maxMag (eb mb : Nat) : AllOnes → Nat
  | .ieee => (2 ^ eb - 1) * 2 ^ mb - 1
  | .oneNan => 2 ^ (eb + mb) - 2
  | .normal => 2 ^ (eb + mb) - 1

/-- Formats in which a finite value beyond the largest saturates: FP8, FP6 and FP4 (R79). -/
def Format.saturates : Format → Bool
  | .fp32 => false | .bf16 => false | .fp16 => false | _ => true

/-- The canonical NaN of a format (R68); formats without one take +0 (R79). -/
def Format.nan : Format → Nat
  | .fp32 => 0x7FC00000 | .bf16 => 0x7FC0 | .fp16 => 0x7E00 | .fp8e5m2 => 0x7F | .fp8e4m3 => 0x7F | .ue8m0 => 0xFF | _ => 0

/-- Formats that hold a NaN. -/
def Format.hasNan (f : Format) : Bool := f.nan != 0

/-- A floating-point target (R79). -/
def encodeFloat (f : Format) (eb mb bias : Nat) (top : AllOnes) (rm : Rounding) : Val → Nat × Option NumEvent
  | .nan => (f.nan, some (if f.hasNan then .nanOut else .nanDrop))
  | .inf neg =>
    if top = .ieee then (signBit f neg + (2 ^ eb - 1) * 2 ^ mb, none) else (signBit f neg + maxMag eb mb top, some .fpSat)
  | .fin neg m e =>
    let x := roundMag rm mb bias m e
    if x ≤ maxMag eb mb top then (signBit f neg + x, none)
    else if f.saturates then (signBit f neg + maxMag eb mb top, some .fpSat)
    else (signBit f neg + (2 ^ eb - 1) * 2 ^ mb, none)

/-- An integer target (R79). -/
def encodeInt (w : Nat) (rm : Rounding) : Val → Nat × Option NumEvent
  | .nan => (0, some .nanDrop)
  | .inf neg => (toField w (if neg then -(2 ^ (w - 1) : Int) else 2 ^ (w - 1) - 1), some .intSat)
  | .fin neg m e =>
    let q : Int := ((roundAt rm m e 0 : Nat) : Int)
    let x : Int := if neg then -q else q
    if x < -(2 ^ (w - 1) : Int) then (toField w (-(2 ^ (w - 1) : Int)), some .intSat)
    else if (2 ^ (w - 1) : Int) ≤ x then (toField w (2 ^ (w - 1) - 1), some .intSat)
    else (toField w x, none)

/-- Target UE8M0 (R432). -/
def encodeScale (rm : Rounding) : Val → Nat × Option NumEvent
  | .nan => (0xFF, none)
  | .inf neg => if neg then (0xFF, some .nanOut) else (0xFE, some .fpSat)
  | .fin neg m e =>
    if m = 0 then (0, none)
    else if neg then (0xFF, some .nanOut)
    else
      let x := floorLog m e
      if x < -127 then (0, none)
      else
        let low := (x + 127).toNat
        let rest := m - 2 ^ m.log2
        let up : Bool := match rm with
          | .rne => decide (2 ^ m.log2 < 2 * rest) || (decide (2 * rest = 2 ^ m.log2) && low % 2 == 1)
          | .sr r => decide (65536 ≤ rest * 65536 / 2 ^ m.log2 + r)
          | .rtz => false
        let k := if up then low + 1 else low
        if 0xFE < k then (0xFE, some .fpSat) else (k, none)

/-- Conversion of an exact value to a format (R77 to R79, R432), with what it counts. -/
def Format.encode (f : Format) (rm : Rounding) (v : Val) : Nat × Option NumEvent :=
  match f.layout with
  | some (eb, mb, bias, top) => encodeFloat f eb mb bias top rm v
  | none => if f = .ue8m0 then encodeScale rm v else encodeInt f.width rm v

/-- RM as an operation or a descriptor gives it, for a target (R77): SR only for floating-point targets and UE8M0, RTZ only
for integers. -/
def roundingOf (f : Format) (rm r : Nat) : Option Rounding :=
  if rm = 0 then some .rne
  else if rm = 1 then (if f.isInt then none else some (.sr r))
  else if rm = 2 then (if f.isInt then some .rtz else none)
  else none

/-! ## FP32 lanes -/

/-- The value of an FP32 lane. -/
def fval (x : Nat) : Val := Format.fp32.decode x

/-- RNE_FP32 of an exact value. -/
def rne32 (v : Val) : Nat := (Format.fp32.encode .rne v).1

/-- An FP32 lane is NaN. -/
def isNan32 (x : Nat) : Bool := match fval x with | .nan => true | _ => false

/-- a + b (R80). -/
def fadd (a b : Nat) : Nat := rne32 ((fval a).add (fval b))

/-- a − b. -/
def fsub (a b : Nat) : Nat := rne32 ((fval a).add (fval b).negate)

/-- a × b. -/
def fmul (a b : Nat) : Nat := rne32 ((fval a).mul (fval b))

/-- a × b + c with one rounding. -/
def ffma (a b c : Nat) : Nat := rne32 (((fval a).mul (fval b)).add (fval c))

/-- A quotient of magnitudes to 31 bits or more, with a last bit that is 1 where it is not exact. -/
def quotient (a b : Nat) (ea eb : Int) (neg : Bool) : Val :=
  let k := 32 + b.log2
  let n := a * 2 ^ k
  .fin neg (2 * (n / b) + (if n % b = 0 then 0 else 1)) (ea - eb - k - 1)

/-- a ÷ b, correctly rounded (R80). -/
def fdiv (a b : Nat) : Nat :=
  match fval a, fval b with
  | .nan, _ => rne32 .nan
  | _, .nan => rne32 .nan
  | .inf _, .inf _ => rne32 .nan
  | .inf x, .fin y _ _ => rne32 (.inf (x != y))
  | .fin x _ _, .inf y => rne32 (.fin (x != y) 0 0)
  | .fin x m e, .fin y n g =>
    if n = 0 then (if m = 0 then rne32 .nan else rne32 (.inf (x != y)))
    else rne32 (quotient m n e g (x != y))

/-- The integer square root, from a bit downward. -/
def isqrt (n : Nat) : Nat → Nat → Nat
  | 0, r => if (r + 1) * (r + 1) ≤ n then r + 1 else r
  | i + 1, r => isqrt n i (if (r + 2 ^ (i + 1)) * (r + 2 ^ (i + 1)) ≤ n then r + 2 ^ (i + 1) else r)

/-- A magnitude with an even exponent. -/
def evenExp (m : Nat) (e : Int) : Nat × Int := if e % 2 = 0 then (m, e) else (2 * m, e - 1)

/-- √x, correctly rounded (R80). -/
def fsqrt (a : Nat) : Nat :=
  match fval a with
  | .nan => rne32 .nan
  | .inf neg => if neg then rne32 .nan else rne32 (.inf false)
  | .fin neg m e =>
    if m = 0 then a
    else if neg then rne32 .nan
    else
      let (m, e) := evenExp m e
      let n := m * 2 ^ 60
      let r := isqrt n 43 0
      rne32 (.fin false (2 * r + (if r * r = n then 0 else 1)) (e / 2 - 31))

/-- 1 ÷ √x, correctly rounded (R80). -/
def frsqrt (a : Nat) : Nat :=
  match fval a with
  | .nan => rne32 .nan
  | .inf neg => if neg then rne32 .nan else rne32 (.fin false 0 0)
  | .fin neg m e =>
    if m = 0 then rne32 (.inf neg)
    else if neg then rne32 .nan
    else
      let (m, e) := evenExp m e
      let r := isqrt (2 ^ 120 / m) 60 0
      rne32 (.fin false (2 * r + (if r * r * m = 2 ^ 120 then 0 else 1)) (-61 - e / 2))

/-- 1 ÷ x. -/
def frecip (a : Nat) : Nat := fdiv 0x3F800000 a

/-- The lesser, or with `max` the greater, of two lanes (R80): NaN if either is, and −0 below +0. -/
def fminmax (greater : Bool) (a b : Nat) : Nat :=
  match (fval a).order (fval b) with
  | none => rne32 .nan
  | some .lt => if greater then b else a
  | some .gt => if greater then a else b
  | some .eq => if bit 31 a = greater then b else a

/-- The FP32 value n × 2^e with an integer significand. -/
def coeff (n : Nat) (e : Int) : Nat := rne32 (.fin false n e)

/-- A value rounded to the nearest integer, ties to even. -/
def nearestInt : Val → Int
  | .fin neg m e => let q : Int := ((roundAt .rne m e 0 : Nat) : Int); if neg then -q else q
  | _ => 0

/-- exp2 (R82). -/
def fexp2 (x : Nat) : Nat :=
  let v := fval x
  if v = .nan then rne32 .nan
  else if v.order (.fin false 1 7) ≠ some .lt then rne32 (.inf false)
  else if v.order (.fin true 151 0) = some .lt then 0
  else
    let n := nearestInt v
    let r := rne32 (v.add (Val.ofInt (-n) 0))
    let c : List Nat := [coeff 10585225 (-36), coeff 11453439 (-33), coeff 10327387 (-30), coeff 14899271 (-28),
      coeff 16121328 (-26), coeff 11629080 (-24), coeff 8388608 (-23)]
    let p := c.foldl (fun p c => ffma p r c) (coeff 16770558 (-40))
    rne32 ((fval p).scale n)

/-- log2 (R83). -/
def flog2 (x : Nat) : Nat :=
  match fval x with
  | .nan => rne32 .nan
  | .inf neg => if neg then rne32 .nan else rne32 (.inf false)
  | .fin neg m e =>
    if m = 0 then rne32 (.inf true)
    else if neg then rne32 .nan
    else
      let k : Int := -(m.log2 : Int)
      let one : Val := .fin false m k
      let big : Bool := one.order (.fin false 11863283 (-23)) == some .gt
      let u := rne32 (if big then one.scale (-1) else one)
      let ex := floorLog m e + (if big then 1 else 0)
      let f := fsub u 0x3F800000
      let t := fdiv f (fadd f 0x40000000)
      let s := fmul t t
      let c : List Nat := [coeff 13831089 (-25), coeff 9681763 (-24), coeff 16136271 (-24), coeff 12102203 (-22)]
      let q := c.foldl (fun q c => ffma q s c) (coeff 10757514 (-25))
      fadd (rne32 (Val.ofInt ex 0)) (fmul t q)

/-! ## Pairs (R76) -/

/-- two_sum of R76. -/
def twoSum (a b : Nat) : Nat × Nat :=
  let s := fadd a b
  let bb := fsub s a
  (s, fadd (fsub a (fsub s bb)) (fsub b bb))

/-- pair_add of R76. -/
def pairAdd (a b : Nat × Nat) : Nat × Nat :=
  let (s, e) := twoSum a.1 b.1
  if !(fval s).isFin then (s, 0)
  else
    let e := fadd e (fadd a.2 b.2)
    let hi := fadd s e
    let lo := fsub e (fsub hi s)
    if (fval hi).isZero then (0, 0) else (hi, lo)

/-- A sum whose zero is +0 (R75, R76, R126). -/
def sumZero (x : Nat) : Nat := if (fval x).isZero then 0 else x

/-- The node of a reduction of FP32 values without the pair option (R76): RNE_FP32(x + y), a zero sum +0. -/
def nodeAdd (a b : Nat) : Nat := sumZero (fadd a b)

end Sys2Proof.Machine
end

