-- ==== Sys2Proof/Machine/Operands.lean ====
section
/-! DEFINITION. What the slots of a bundle read and write (06_working_plan.md R168 to R174; 03_bench_arithmetic.md R65, R67):
the issue of a bundle, the operation table, bench store, packed elements, vector and predicate registers. -/

namespace Sys2Proof.Machine

open Sys2Proof

/-! ## Bundles (R168 to R173) -/

/-- An operation as a slot of a bundle holds it: its opcode and its fields. -/
inductive SlotOp where
  | matrix (op : Nat) (m : MatSlot)
  | vector (op : Nat) (v : VecSlot)
  | move (op : Nat) (m : MovSlot)
  | haul (op : Nat) (h : HaulSlot)
  | control (op : Nat) (c : CtlSlot)
deriving DecidableEq, Repr

/-- The slot an operation stands in: 0 matrix, 1 vector, 2 gather/move, 3 haul, 4 control. -/
def SlotOp.slot : SlotOp → Nat
  | .matrix _ _ => 0
  | .vector _ _ => 1
  | .move _ _ => 2
  | .haul _ _ => 3
  | .control _ _ => 4

/-- A slot of a bundle (R168). -/
def slotOf (w k : Nat) : Nat :=
  match k with
  | 0 => bits 255 208 w
  | 1 => bits 207 144 w
  | 2 => bits 143 96 w
  | 3 => bits 95 56 w
  | _ => bits 55 0 w

/-- The opcode of a slot (R168). -/
def opcodeOf (w k : Nat) : Nat :=
  match k with
  | 0 => bits 255 250 w
  | 1 => bits 207 200 w
  | 2 => bits 143 138 w
  | 3 => bits 95 90 w
  | _ => bits 55 50 w

/-- The opcodes of a slot (R169 to R173). -/
def opcodes (k : Nat) : List Nat :=
  match k with
  | 0 => [1, 2, 3, 4, 5]
  | 1 => [1, 2, 3, 4, 0x10, 0x11, 0x12, 0x13, 0x20, 0x21, 0x22, 0x23, 0x24, 0x25, 0x30, 0x31, 0x38, 0x39, 0x3A, 0x3B, 0x3C, 0x3D,
          0x40, 0x41, 0x48, 0x50]
  | 2 => [1, 2, 3, 4, 5, 6, 7, 8]
  | 3 => [1, 2, 3]
  | _ => [1, 2, 3, 4, 5, 6, 7, 8, 9, 10, 11]

/-- A bundle holds an operation in its slot: its opcode and every field are those of the slot (R169 to R173). -/
def holdsOp (w : Nat) (x : SlotOp) : Bool :=
  let v := slotOf w x.slot
  match x with
  | .matrix op m => bits 47 42 v == op && bits 41 34 v == m.desc.val && bits 33 20 v == m.a.val && bits 19 6 v == m.b.val
      && bits 5 0 v == m.acc.val
  | .vector op y => bits 63 56 v == op && bits 55 50 v == y.dst.val && bits 49 44 v == y.s1.val && bits 43 38 v == y.s2.val
      && bits 37 32 v == y.s3.val && bits 31 28 v == y.fmt.val && bits 27 26 v == y.rm.val && bits 25 22 v == y.pred.val
      && bits 15 0 v == y.imm.val
  | .move op m => bits 47 42 v == op && bits 41 28 v == m.addr.val && bits 27 22 v == m.vreg.val && bits 21 8 v == m.addr2.val
      && bits 7 0 v == m.id.val
  | .haul op h => bits 39 34 v == op && bits 33 30 v == h.port.val && bits 29 15 v == h.entry.val && bits 14 1 v == h.addr.val
  | .control op c => bits 55 50 v == op && bits 49 38 v == c.arg.val && bits 37 26 v == c.target.val && bits 25 0 v == c.imm.val

/-- The slots of a bundle that hold an operation. -/
def slotsOf (w : Nat) : List Nat := (List.range 5).filter fun k => (opcodes k).contains (opcodeOf w k)

/-- The bundle at an address, stored least significant byte first (R168). -/
def Bench.bundle (x : Bench) (pc : Nat) : Nat := leNat ((List.range 32).map fun k => Tab.get 0 (32 * pc + k) x.code)

/-- The bundles from the next one up to an address, which the sequencer fetches and issues one a cycle (R168). -/
def Bench.fetchList (x : Bench) (pc : Nat) : List Nat :=
  (List.range ((pc + 4096 - x.next) % 4096 + 1)).map fun k => (x.next + k) % 4096

/-- The sequencer comes to an address from the next bundle's: the bundles before it hold no operation. -/
def Bench.reaches (x : Bench) (pc : Nat) : Bool := (x.fetchList pc).dropLast.all fun a => slotsOf (x.bundle a) == []

/-! ## Latency (R168) -/

/-- Latency in cycles of what an operation writes to registers, accumulators or bench store (R169 to R171); 0 where no table
gives one. -/
def SlotOp.latency : SlotOp → Nat
  | .matrix op _ => if op ≤ 2 then 12 else if op = 4 then 8 else 6
  | .vector op _ =>
    if op ≤ 0x04 then 4 else if op ≤ 0x25 then 2 else if op = 0x30 then 4 else if op = 0x31 then 6 else if op ≤ 0x3B then 12
    else if op = 0x3C then 24 else if op = 0x3D then 32 else if op = 0x40 then 2 else if op = 0x41 then 4 else if op = 0x48 then 6
    else 10
  | .move op m => if op = 1 then 4 else if op = 2 then 2 else if op = 3 then 2 * (m.id + 1) else if op = 7 then m.id + 1 else 0
  | .haul _ _ => 0
  | .control _ _ => 0

/-- One number for each place of a bench that an operation writes. -/
def Prior.place : Prior → Nat
  | .lane k _ => 4 * k
  | .pred p _ => 4 * p + 1
  | .grain k _ => 4 * k + 2
  | .byte a _ => 4 * a + 3

/-- Note what a place held before the operation that issues writes it. -/
def Bench.note (x : Bench) (p : Prior) : Bench :=
  match x.flights with
  | [] => x
  | f :: t => { x with flights := { f with prior := p :: f.prior } :: t }

/-- The results that a bundle in a cycle may not see yet, with what came after them. -/
def unsettled (now : Nat) : List Flight → List Flight
  | [] => []
  | f :: t => match unsettled now t with
    | [] => if f.due ≤ now then [] else [f]
    | t => f :: t

/-- A place holds what it held before. -/
def State.unwrite (s : State) (b : Nat) : Prior → State
  | .lane k v => s.setBench b { s.benchOf b with vregs := Tab.put 0 k v (s.benchOf b).vregs }
  | .pred p v => s.setBench b { s.benchOf b with preds := Tab.put (2 ^ 128 - 1) p v (s.benchOf b).preds }
  | .grain k g => s.setBench b { s.benchOf b with grains := Tab.ins k g (s.benchOf b).grains }
  | .byte a v => s.setByte a v

/-- A bench without the results that a bundle in cycle `now` may not see, of which the newest comes first: a place that a result it
sees has written keeps that, whatever was written before (R168). -/
def State.seenFrom (now b : Nat) : List Nat → List Flight → State → State
  | _, [], s => s
  | kept, f :: t, s =>
    if f.due ≤ now then State.seenFrom now b (kept ++ f.prior.map Prior.place) t s
    else State.seenFrom now b kept t ((f.prior.filter fun p => !kept.contains p.place).foldl (fun s p => s.unwrite b p) s)

/-- What the bundle at hand reads on a bench (R168): the results of operations whose latency has not passed are not visible yet,
those of its own slots among them. -/
def State.seen (s : State) (b : Nat) : State := State.seenFrom (s.benchOf b).cycle b [] (s.benchOf b).flights s

/-! ## Issue -/

/-- The sequencer of a bench issues: it is Issuing or in Backfill (R181), in a region that is not stopped (R50), and the bench has
not failed (R383). -/
def State.seqIssues (s : State) (b : Nat) : Bool :=
  (s.rdAt R.BCH_SEQ_STATUS_STATE b == 1 || s.rdAt R.BCH_SEQ_STATUS_STATE b == 4) && !s.regionStopped b
    && !s.gen.failed.contains b

/-- The page of a bundle address is under refill (R175). -/
def State.pageBusy (s : State) (b pc : Nat) : Bool := bit (pc / 256) (s.rdAt R.BCH_SEQ_STATUS_PAGE_BUSY b)

/-- The sequencer fetches the bundle of an operation: no slot of the one before is left, and its address is the next one's. -/
def State.fetches (s : State) (i : Issue) : Bool := (s.benchOf i.bench).slots == [] && (s.benchOf i.bench).reaches i.pc

/-- An operation stands in a slot of its bundle that has yet to issue, the control slot last. -/
def Bench.holds (x : Bench) (pc : Nat) (slots : List Nat) (o : SlotOp) : Bool :=
  slots.contains o.slot && (o.slot != 4 || slots == [4]) && holdsOp (x.bundle pc) o

/-- The slots of its bundle that have yet to issue when an operation does. -/
def State.slotsLeft (s : State) (i : Issue) : List Nat :=
  let x := s.benchOf i.bench
  if x.slots = [] then slotsOf (x.bundle i.pc) else x.slots

/-- The bundle whose fetch fails among those that the sequencer fetches, with its error and its BCH_SEQ_FAULT.CODE (R175): its page is
under refill, or a word of it has two bits in error. -/
def State.fetchFault (s : State) (i : Issue) : Option (Nat × Nat × Nat) :=
  ((s.benchOf i.bench).fetchList i.pc).findSome? fun a =>
    if s.pageBusy i.bench a then some (a, 0x02, 1)
    else if i.fetch.uncorr.any (fun w => w / 32 == a) then some (a, 0x03, 2)
    else none

/-- An operation issues: its bench does, it stands in the bundle at hand, or in the next one, which the sequencer comes to and of
which, as of those before it, the fetch does not fail. -/
def State.canIssue (s : State) (i : Issue) (o : SlotOp) : Bool :=
  s.seqIssues i.bench && (s.benchOf i.bench).holds i.pc (s.slotsLeft i) o &&
    (if (s.benchOf i.bench).slots = [] then (s.benchOf i.bench).reaches i.pc && (s.fetchFault i).isNone
     else s.rdAt R.BCH_SEQ_STATUS_PC i.bench == i.pc)

/-- Bundles that the sequencer fetches carry words that their code corrects: each is recorded (R175). -/
def State.fetchCorrected (s : State) (i : Issue) (l : List Nat) : State :=
  (i.fetch.corr.filter fun w => l.contains (w / 32)).foldl
    (fun s w => s.corrected 4 0x61 (benchField i.bench) (s.homeOf i.bench) i.bench (w / 32)) s

/-- The fetch of the bundle at `pc` fails (R175, R181): what the fetch has read up to there is corrected, the sequencer stops by fault, and
the error is Step-fatal. A page under refill gives no word of the bundle. -/
def State.fetchFails (s : State) (i : Issue) (pc code seq : Nat) : State :=
  let l := ((s.benchOf i.bench).fetchList i.pc).takeWhile fun a => a != pc
  ((s.fetchCorrected i (if seq = 2 then l ++ [pc] else l)).seqFault i.bench seq pc).benchFatal i.bench code pc

/-- The flight of an operation that issues on a bench in a cycle, for one that has a latency. -/
def Bench.launch (x : Bench) (cycle : Nat) (o : SlotOp) : Bench :=
  let l := unsettled cycle x.flights
  { x with cycle := cycle, flights := if o.latency = 0 then l else ⟨cycle + o.latency, []⟩ :: l }

/-- A slot of a bundle issues. With the first the bundle is fetched, as those before it that hold no operation: its address shows, and the
next bundle follows it; a bundle issues in each cycle (R168, R175, R181). -/
def State.issued (s : State) (i : Issue) (o : SlotOp) : State :=
  let b := i.bench.val
  let left := dropOne o.slot (s.slotsLeft i)
  if (s.benchOf b).slots = [] then
    let n := ((s.benchOf b).fetchList i.pc).length
    let s := s.fetchCorrected i ((s.benchOf b).fetchList i.pc)
    let x := (s.benchOf b).launch ((s.benchOf b).cycle + n) o
    (s.setBench b { x with next := (i.pc + 1) % 4096, slots := left }).wrAt R.BCH_SEQ_STATUS_PC b i.pc
  else s.setBench b { (s.benchOf b).launch (s.benchOf b).cycle o with slots := left }

/-- An operation of a bundle: what it does once it has issued, of the bench as its bundle sees it and of the state; the error of R175
where the fetch of its bundle, or of one before it, fails; and nothing where it is not its turn (log entries 3 and 19). -/
def State.operate (s : State) (i : Issue) (o : SlotOp) (f : State → State → Res) : Res :=
  if s.canIssue i o then f ((s.issued i o).seen i.bench) (s.issued i o)
  else if s.seqIssues i.bench ∧ s.fetches i then
    match s.fetchFault i with
    | some (a, code, seq) => .next (s.fetchFails i a code seq)
    | none => .next s
  else .next s

/-! ## Bench store -/

/-- `n` bytes of the store of bench `b` from byte `o`. -/
def State.store (s : State) (b o n : Nat) : List Byte := s.bytes (benchBase b + o) n

/-- Write bytes to the store of bench `b` from byte `o`. -/
def State.setStore (s : State) (b o : Nat) (l : List Byte) : State := s.setBytes (benchBase b + o) l

/-- An operation writes bytes to the store of its bench from byte `o`. -/
def State.putStore (s : State) (b o : Nat) (l : List Byte) : State :=
  let x := l.zipIdx.foldl (fun (x : Bench) e => x.note (.byte (benchBase b + o + e.2) (s.byte (benchBase b + o + e.2)))) (s.benchOf b)
  (s.setBench b x).setStore b o l

/-- Every span of bytes lies within the store. -/
def spansFit (l : List (Nat × Nat)) : Bool := l.all fun x => decide (x.1 + x.2 ≤ storeSize)

/-- An operation that reads bench store under what its code says of the words read (R88, R138): past the end it faults, and
where a word is uncorrectable nothing else of it happens. -/
def State.reading (s : State) (b : Nat) (ecc : Ecc) (spans : List (Nat × Nat)) (f : State → Res) : Res :=
  if spansFit spans then
    match s.readStore b ecc with
    | (s, true) => f s
    | (s, false) => .next s
  else .fault .benchStoreEnd

/-! ## Packed elements (R67) -/

/-- Bytes of `n` packed elements. -/
def packedLen (f : Format) (n : Nat) : Nat := ceilDiv (n * f.width) 8

/-- Element `i` of a packed number. -/
def element (f : Format) (v i : Nat) : Nat := v / 2 ^ (f.width * i) % 2 ^ f.width

/-- `n` elements packed in bytes, least significant first. -/
def unpack (f : Format) (n : Nat) (l : List Byte) : List Nat :=
  let v := leNat l
  (List.range n).map fun i => element f v i

/-- The number that packs elements, the first lowest. -/
def packNat (f : Format) : List Nat → Nat
  | [] => 0
  | x :: t => x % 2 ^ f.width + 2 ^ f.width * packNat f t

/-- Elements packed in bytes, least significant first. -/
def pack (f : Format) (l : List Nat) : List Byte := leBytes (packedLen f l.length) (packNat f l)

/-! ## The operation table (R174) -/

/-- FP8, FP6 and FP4. -/
def Format.small : Format → Bool
  | .fp4 => true | .fp6e2m3 => true | .fp6e3m2 => true | .fp8e4m3 => true | .fp8e5m2 => true | _ => false

/-- Formats that may carry block scales (R69). -/
def Format.scalable (f : Format) : Bool := f.small || f == .int8

/-- A format code whose tensors may carry block scales: those of any other carry none, and a mark that they do has no effect (R69). -/
def carriesScales (code : Nat) : Bool := match formatOf code with | some f => f.scalable | none => false

/-- An entry of the operation table. -/
structure Desc where
  aFmt : Nat
  bFmt : Nat
  outFmt : Nat
  form : Nat
  rm : Nat
  pair : Bool
  scaledA : Bool
  scaledB : Bool
  scaledOut : Bool
  reduction : Nat
  stream : Nat
  aScale : Nat
  bScale : Nat
  outScale : Nat
  bitmap : Nat
  strip : Nat
deriving DecidableEq, Repr

/-- The fields of an entry (R174); a tensor of a format that carries no block scales is not scaled whatever its flag holds (R69). -/
def descOf (v : Nat) : Desc :=
  { aFmt := bits 255 252 v, bFmt := bits 251 248 v, outFmt := bits 247 244 v, form := bits 243 242 v, rm := bits 241 240 v
    pair := bit 239 v, scaledA := bit 238 v && carriesScales (bits 255 252 v), scaledB := bit 237 v && carriesScales (bits 251 248 v)
    scaledOut := bit 236 v && carriesScales (bits 247 244 v), reduction := bits 235 224 v
    stream := bits 223 204 v, aScale := bits 203 190 v, bScale := bits 189 176 v, outScale := bits 175 162 v
    bitmap := bits 161 148 v, strip := bits 147 132 v }

/-- Entry `n` of the operation table of a bench. -/
def State.desc (s : State) (b n : Nat) : Desc := descOf (Tab.get 0 n (s.benchOf b).table)

/-- A tile (R65, R91): formats, rows, whether its grains take the exact path and hold integers. -/
structure Tile where
  a : Format
  b : Format
  rows : Nat
  exact : Bool
  ints : Bool
deriving DecidableEq, Repr

/-- The tile of a dense operand pair; none for a pair that the engine does not accept (R65). -/
def densePair (a b : Format) : Option Tile :=
  if a = .fp4 ∧ b = .fp4 then some ⟨a, b, 32, true, false⟩
  else if a = .int4 ∧ b = .int4 then some ⟨a, b, 32, true, true⟩
  else if a.small ∧ b.small then some ⟨a, b, 8, true, false⟩
  else if a = .int8 ∧ (b = .int8 ∨ b = .int4) then some ⟨a, b, 8, true, true⟩
  else if a = .fp16 ∧ b = .fp16 then some ⟨a, b, 4, true, false⟩
  else if a = .bf16 ∧ b = .bf16 then some ⟨a, b, 4, false, false⟩
  else none

/-- The tile of a descriptor under its weight form (R90, R91); none where a format, a pair or a form is one that the
manual reserves or refuses. -/
def tileOf (d : Desc) : Option Tile :=
  match formatOf d.aFmt, formatOf d.bFmt with
  | some a, some b =>
    match densePair a b with
    | none => none
    | some t =>
      if d.form = 0 then some t
      else if d.form = 1 then (if a.small && b.small then some { t with rows := 2 * t.rows } else none)
      else if d.form = 2 then (if t.exact then some t else none)
      else none
  | _, _ => none

/-! ## Ensembles (R85) -/

/-- An ensemble header (R85): leaf exponent, leaf and key format and depth. -/
structure Ensemble where
  leafExp : Int
  leafFmt : Nat
  keyFmt : Nat
  depth : Nat
deriving DecidableEq, Repr

/-- The fields of an ensemble header; none for a value of DEPTH or of a format that R85 does not list. -/
def ensembleOf (v : Nat) : Option Ensemble :=
  let e : Ensemble := ⟨ofField 8 (bits 27 20 v), bits 19 16 v, bits 15 12 v, bits 3 0 v⟩
  let fmt (x : Nat) : Bool := x == 7 || x == 10
  if 1 ≤ e.depth ∧ e.depth ≤ 12 ∧ fmt e.leafFmt ∧ fmt e.keyFmt then some e else none

/-- Where tree `t` of the ensemble at byte `head` begins: on the 64-byte boundaries behind the header (R85). -/
def treeAt (head : Nat) (e : Ensemble) (t : Nat) : Nat :=
  roundUp 64 (head + 8) + t * roundUp 64 (8 * e.depth + 4 * 2 ^ e.depth)

/-! ## Vector registers -/

/-- Lane `l` of vector register `r` (R170). -/
def Bench.lane (x : Bench) (r l : Nat) : Nat := Tab.get 0 (128 * (r % 64) + l) x.vregs

/-- Every bit of a predicate register. -/
def allLanes : Nat := 2 ^ 128 - 1

/-- Predicate register `p` (R170). -/
def Bench.pred (x : Bench) (p : Nat) : Nat := Tab.get allLanes p x.preds

/-- An operation writes lane `l` of register `r`. -/
def Bench.setLane (x : Bench) (r l v : Nat) : Bench :=
  let y := x.note (.lane (128 * (r % 64) + l) (x.lane r l))
  { y with vregs := Tab.put 0 (128 * (r % 64) + l) (v % 2 ^ 32) y.vregs }

/-- Write lanes of register `r` in order from lane `l`: the lanes whose bit of `mask` is clear keep their value. -/
def Bench.setLanes (x : Bench) (r mask : Nat) : Nat → List Nat → Bench
  | _, [] => x
  | l, v :: t => (if bit l mask then x.setLane r l v else x).setLanes r mask (l + 1) t

/-- The 128 lanes of register `r`. -/
def Bench.lanes (x : Bench) (r : Nat) : List Nat := (List.range 128).map (x.lane r)

/-- Write predicate register `p` under `mask`: bits whose mask is clear keep their value. -/
def Bench.setPred (x : Bench) (p mask v : Nat) : Bench :=
  let y := x.note (.pred p (x.pred p))
  { y with preds := Tab.put allLanes p ((v &&& mask) ||| (x.pred p &&& (allLanes ^^^ mask))) y.preds }

/-- The number whose bit `l` is the `l`-th truth value. -/
def maskOf : List Bool → Nat
  | [] => 0
  | b :: t => flag b + 2 * maskOf t

/-- A pair operation names even registers (R170). -/
def evenRegs (v : VecSlot) : Bool := v.dst.val % 2 == 0 && v.s1.val % 2 == 0 && v.s2.val % 2 == 0 && v.s3.val % 2 == 0

end Sys2Proof.Machine
end

