-- ==== Sys2Proof/Machine/Control.lean ====
section
/-! DEFINITION. The rows of the control slot (06_working_plan.md R173; 04_sparsity_and_forks.md R111, R113, R117;
05_reproducibility.md R141). -/

namespace Sys2Proof.Machine

open Sys2Proof

/-! ## Sequence -/

/-- The sequencer of a bench stops issuing until what it waits for comes (R173, R181): STATE 2 for a boundary, 3 for a
counter. -/
def State.waits (s : State) (b : Nat) (w : Waiting) : State :=
  (s.setBench b { s.benchOf b with wait := w }).wrAt R.BCH_SEQ_STATUS_STATE b (match w with | .counter _ _ => 3 | _ => 2)

/-- The sequencer of a bench continues at an address. -/
def State.goTo (s : State) (b a : Nat) : State := s.setBench b ((s.benchOf b).goTo a)

/-- BEAT ends the beat's work and waits for the beat boundary (R173). A bench whose region has slipped is past that boundary already,
and starts the following beat's work at once (R47). -/
def execBeat (i : Issue) (c : CtlSlot) (s : State) : Res :=
  s.operate i (.control 1 c) fun _ s =>
    let x := s.benchOf i.bench
    if 0 < x.behind then .next (s.setBench i.bench { x with behind := x.behind - 1 }) else .next (s.waits i.bench .beat)

/-- STEP ends the step's work and waits for the step boundary (R173). -/
def execStep (i : Issue) (c : CtlSlot) (s : State) : Res := s.operate i (.control 2 c) fun _ s => .next (s.waits i.bench .step)

/-- JUMP continues at TARGET (R173). -/
def execJump (i : Issue) (c : CtlSlot) (s : State) : Res := s.operate i (.control 3 c) fun _ s => .next (s.goTo i.bench c.target)

/-- LSET sets loop counter ARG[3:0] to IMM (R173). -/
def execLset (i : Issue) (c : CtlSlot) (s : State) : Res :=
  s.operate i (.control 4 c) fun _ s =>
    let x := s.benchOf i.bench
    .next (s.setBench i.bench { x with loops := Tab.put 0 (c.arg % 16) c.imm x.loops })

/-- LOOP: a loop counter ARG[3:0] that is not 0 is decremented, and the sequencer continues at TARGET (R173). -/
def execLoop (i : Issue) (c : CtlSlot) (s : State) : Res :=
  s.operate i (.control 5 c) fun _ s =>
    let x := s.benchOf i.bench
    let n := Tab.get 0 (c.arg % 16) x.loops
    if n = 0 then .next s
    else .next ((s.setBench i.bench { x with loops := Tab.put 0 (c.arg % 16) (n - 1) x.loops }).goTo i.bench c.target)

/-- CSET sets completion counter ARG[5:0] to IMM (R173). -/
def execCset (i : Issue) (c : CtlSlot) (s : State) : Res :=
  s.operate i (.control 6 c) fun _ s => .next (s.setCounter i.bench (c.arg % 64) c.imm)

/-- WAITC waits until completion counter ARG[5:0] is at least IMM; a wait is a stall, and every stall a late entry (R168, R173). Its
cycles come with the beat's report (R181). -/
def execWaitc (i : Issue) (c : CtlSlot) (s : State) : Res :=
  s.operate i (.control 7 c) fun _ s =>
    if c.imm ≤ s.counter i.bench (c.arg % 64) then .next s
    else .next ((s.lateBench i.bench 0).waits i.bench (.counter (c.arg % 64) c.imm))

/-! ## Forks -/

/-- The decider hands a decision word to its module's FRK block (R111, R112): the first is latched, and one that differs is a
disagreement. -/
def State.forkDecides (s : State) (f : ForkPoint) (word : Nat) : State :=
  match (s.forkRun f.number).word with
  | none => s.latchDecision f word
  | some w =>
    if w = word then s else (s.wr R.FRK_EVENT_DISAGREE 1).stepFatal 5 0x06 7 f.number word (2 ^ f.ctx)

/-- FDEC: fork-decide for fork ARG, whose word is lane IMM[12:6] of register IMM[5:0] (R111, R173); with another bit of IMM set, which
are to be zero, the word is free (DEDUCED, log entry 20). -/
def execFdec (i : Issue) (c : CtlSlot) (s : State) : Res :=
  s.operate i (.control 8 c) fun q s =>
    match s.fork? c.arg with
    | none => .next s
    | some f =>
      if c.imm.val < 2 ^ 13 then .next (s.forkDecides f ((q.benchOf i.bench).lane (c.imm % 64) (c.imm / 64 % 128)))
      else .next (s.drawn.forkDecides f (Config.reserved s.fresh 0 % 2 ^ 32))

/-- The sequencer of a bench that its region's slip has put past a boundary starts the following beat's work at an address, one boundary
less behind (R47). -/
def State.catchUp (s : State) (b a : Nat) : State :=
  s.setBench b { (s.benchOf b).goTo a with behind := (s.benchOf b).behind - 1 }

/-- FORK ends the beat; at K of fork ARG the sequencer continues at TARGET + 8 × v (R173; State.forkTaken): at once on a bench that has
slipped past K (R47). -/
def execFork (i : Issue) (c : CtlSlot) (s : State) : Res :=
  s.operate i (.control 9 c) fun _ s =>
    match s.fork? c.arg, (s.forkRun c.arg).word with
    | some f, some w => .next (if s.variantRuns f then s.catchUp i.bench (c.target + 8 * variantOf f w) else s.waits i.bench (.fork c.arg c.target))
    | _, _ => .next (s.waits i.bench (.fork c.arg c.target))

/-- BKFL ends the beat; from E_v of fork ARG the bench runs guest units from TARGET, and at J continues at IMM[11:0] (R117,
R173; State.backfillStarts, State.backfillEnds). A bench that has slipped past E_v has the beats that are left to J, and one past J
continues at once (R47). -/
def execBkfl (i : Issue) (c : CtlSlot) (s : State) : Res :=
  s.operate i (.control 10 c) fun _ s =>
    let s := (s.setBench i.bench { s.benchOf i.bench with backfill := some (c.arg, c.target, c.imm % 4096) }).waits i.bench .no
    match s.fork? c.arg with
    | none => .next s
    | some f =>
      if (s.forkRun f.number).ended ∧ s.due f.ctx f.j then
        .next ((s.setBench i.bench { (s.benchOf i.bench).goTo (c.imm % 4096) with
          backfill := none, behind := (s.benchOf i.bench).behind - 1 }).resume i.bench)
      else if (s.forkRun f.number).ended then
        .next ((s.setBench i.bench { s.benchOf i.bench with behind := 0 }).backfillStarts f (s.ctxPos f.ctx) i.bench)
      else .next s

/-! ## Tags -/

/-- The window whose result for a slot the program hands over, while it is not released (R141, R247; log entry 17): a slot without a
result to tag, such as an empty one, takes none. -/
def taggedWindow (r : IntakeRun) (window slot : Nat) : Option WindowRec :=
  r.windows.find? fun w => w.index == window && !w.released && !w.quarantined && (match w.slots[slot]? with
    | some x => x.status == 0 && x.tag.isNone
    | none => false)

/-- The tag path takes the result bytes of a slot of an intake context (R141), and with a window's last tag a Replica pair
sends its TAGS (R357). -/
def State.tagSlot (s : State) (e : IntakeEntry) (r : IntakeRun) (window slot : Nat) (bytes : List Byte) : State :=
  match taggedWindow r window slot with
  | none => s
  | some w =>
    let w := { w with slots := w.slots.zipIdx.map fun x =>
      if x.2 = slot then { x.1 with tag := some (s.scoreTag e w x.1 (bytes.take e.resultLength)) } else x.1 }
    let (s, w) := (s.count 6103 1).shipTags e w
    s.setRun e.ctx { r with windows := r.windows.map fun x => if x.index = w.index then w else x }

/-- TAGR hands ARG × 16 bytes at IMM[13:0] to the tag path (R141, R173); for an intake context they are the result of a slot. While the
die has no room for one more tag, the bundle waits to issue, and the module asks for a hold (R146; log entry 17). -/
def execTagr (i : Issue) (c : CtlSlot) (t : TagInput) (ecc : Ecc) (s : State) : Res :=
  let b := i.bench.val
  if s.canIssue i (.control 11 c) && bit (s.rdAt R.BCH_SEQ_STATUS_CTX b) (s.rd R.GEN_PROV_EN) && !s.tagFits 1 then .next (s.tagRoom 1)
  else s.operate i (.control 11 c) fun q s =>
    s.reading b ecc [(128 * (c.imm.val % 16384), 16 * c.arg.val)] fun s =>
      let bytes := q.store b (128 * (c.imm % 16384)) (16 * c.arg)
      let x := s.rdAt R.BCH_SEQ_STATUS_CTX b
      if !bit x (s.rd R.GEN_PROV_EN) then .next s
      else match s.intake? x, s.run? x with
      | some e, some r => .next ((s.tagSlot e r t.counter t.slot bytes).tagRoom 0)
      | _, _ =>
        match s.readSpans x t.samples with
        | (s, false) => .next s
        | (s, true) =>
        let old := match Tab.find? x s.gen.stepTags with | some l => l | none => []
        let s := s.count 6103 1
        .next ({ s with gen := { s.gen with stepTags := Tab.ins x (old ++ [s.stepTag x t bytes]) s.gen.stepTags } }.tagRoom 0)

end Sys2Proof.Machine
end

