-- ==== Sys2Proof/Machine/Errors.lean ====
section
/-! DEFINITION. The rows of the error queue and of the Module-fatal errors, the Ring Recorder's rows, and the rows of trace
and snapshots (15_faults_security_observation.md R384 to R392, R401, R402, R405, R406, R408). -/

namespace Sys2Proof.Machine

open Sys2Proof

/-! ## The error queue -/

/-- An acknowledgement of `seq` (R386): the head of the queue becomes primary when it names the primary's SEQ; any other is counted
as stale. -/
def State.ackRecord (s : State) (seq : Nat) : State :=
  match s.flt.primary with
  | none => s.inc R.FLT_COUNT_STALE_ACK
  | some p => if p.seq = seq then s.promote else s.inc R.FLT_COUNT_STALE_ACK

/-- FLT_CTRL.ACK with `seq` in ACK_SEQ (R386). Errors of the tick in which it is written are placed after it has taken effect
(R388). -/
def execFltAck (seq : Fin 65536) (s : State) : Res :=
  let s : State := s.wr R.FLT_CTRL_ACK_SEQ seq
  let t := s.fltTick
  if t.errs = [] then .next (s.ackRecord seq)
  else
    let s := (s.toBase t).ackRecord seq
    .next (s.placeTick { s.fltBase with errs := t.errs })

/-- A Module-fatal record is primary or queued (R405). -/
def State.fatalQueued (s : State) : Bool :=
  (s.flt.primary.toList ++ s.flt.queue).any fun r => r.cls == .moduleFatal

/-- FLT_CTRL.RELEASE (R384, R405): a held die core may leave reset; ignored while a Module-fatal record is queued or primary. -/
def execFltRelease (s : State) : Res := if s.fatalQueued then .next s else .next (s.wr R.FLT_STATUS_DIE_HELD 0)

/-- A running foreman faults (R384): STATE reads Faulted, and Module-fatal error 0x41 is raised. -/
def execForemanFaulted (foreman : Fin 6) (s : State) : Res :=
  if s.rdAt R.OLC_FOREMAN_STATE foreman = 2 then
    .next ((s.moduleFatal 22 0x41 foreman foreman).wrAt R.OLC_FOREMAN_STATE foreman 3)
  else .next s

/-- A die rail leaves regulation in operation (R384): Module-fatal error 0x44. -/
def execDieRailOutOfRegulation (s : State) : Res := if s.pwr.dieOn then .next (s.moduleFatal 1 0x44 7 0) else .next s

/-- A parity error in the Tally counter or tick distribution (R384): Module-fatal error 0x43. -/
def execTallyParityError (s : State) : Res :=
  if s.tal.running then .next (s.moduleFatal 3 0x43 (regionField 38) 0) else .next s

/-- An uncorrectable error in the CSR spine or a fuse read (R384): Module-fatal error 0x42, raised for the block it concerns by its
SOURCE number (R385). -/
def execCsrSpineUncorrectable (source : Fin 24) (s : State) : Res :=
  if s.pwr.dieOn then .next (s.moduleFatal source 0x42 (regionField 38) 0) else .next s

/-! ## The Ring Recorder -/

/-- The spill interval ends (R392). -/
def execRrcSpillTimer (s : State) : Res := if s.pwr.forester then .next (s.startSpill false) else .next s

/-- RRC_CTRL.SPILL_NOW (R406). -/
def execRrcSpillNow (s : State) : Res := .next (s.startSpill false)

/-- RRC_CTRL.RELEASE frees the Critical entries that are spilled and unchanged since (R391). -/
def execRrcRelease (s : State) : Res :=
  let keep : Tab RrcEntry := s.rrc.entries.filter fun (e : Nat × RrcEntry) => !(e.2.severity == 3 && e.2.spilled)
  .next ({ s with rrc := { s.rrc with entries := keep } }.wr R.RRC_STATUS_USED keep.length)

/-! ## Trace -/

/-- OBS_TRACE_CTRL.ARM arms capture for the count in OBS_TRACE_START as last written (R401, R368). -/
def execTraceArm (s : State) : Res :=
  .next ({ s with obs := { s.obs with traceAt := s.last R.OBS_TRACE_START_AT } }.wr R.OBS_TRACE_STATUS_STATE 1)

/-- At its count an armed capture begins, with an empty buffer (R401). -/
def execTraceStart (s : State) : Res :=
  if s.rd R.OBS_TRACE_STATUS_STATE = 1 ∧ s.obs.traceAt ≤ s.now then
    let s := { s with obs := { s.obs with trace := [], traceTick := s.now, traceCount := [] } }
    .next (((s.wr R.OBS_TRACE_STATUS_NEXT 0).wr R.OBS_TRACE_STATUS_WRAPPED 0).wr R.OBS_TRACE_STATUS_STATE 2)
  else .next s

/-- At OBS_TRACE_STOP capture ends; 0 names no count (R401, R408). -/
def execTraceStop (s : State) : Res :=
  if s.rd R.OBS_TRACE_STATUS_STATE = 2 ∧ s.rd R.OBS_TRACE_STOP_AT ≠ 0 ∧ s.rd R.OBS_TRACE_STOP_AT ≤ s.now then
    .next (s.wr R.OBS_TRACE_STATUS_STATE 3)
  else .next s

/-- OBS_TRACE_CTRL.STOP_NOW ends capture (R401). -/
def execStopNow (s : State) : Res :=
  if s.rd R.OBS_TRACE_STATUS_STATE = 2 then .next (s.wr R.OBS_TRACE_STATUS_STATE 3) else .next s

/-! ## Snapshots -/

/-- The keys of a register array of `n` 64-bit elements from CSR offset `a`. -/
def inArray (a n k : Nat) : Bool := a * 128 ≤ k && k < (a + 8 * n) * 128

/-- All 6,144 counters are copied in one tick (R402), stamped with the count, the field of the CSR spine and the sixteenth (R59). -/
def State.snapshot (s : State) : State :=
  let a := R.OBS_CNT_COUNT.addr
  let b := R.OBS_SNAP_CNT_COUNT.addr
  let copied : Tab Nat := (s.csr.filter fun (e : Nat × Nat) => inArray a 6144 e.1).map fun (e : Nat × Nat) => (e.1 + (b - a) * 128, e.2)
  let below : Tab Nat := s.csr.filter fun (e : Nat × Nat) => e.1 < b * 128
  let above : Tab Nat := s.csr.filter fun (e : Nat × Nat) => (b + 8 * 6144) * 128 ≤ e.1
  let s := { s with csr := below ++ (copied ++ above), obs := { s.obs with snapIn := (regionField 38, Config.sixteenth s.fresh % 16) } }
  (s.wr R.OBS_SNAP_TAKEN_AT s.now).drawn

/-- OBS_SNAP_CTRL.ARM arms a snapshot for the count in OBS_SNAP_AT, which must be a multiple of 16 (R402). -/
def execSnapArm (s : State) : Res :=
  let t := s.last R.OBS_SNAP_AT_AT
  if t % 16 = 0 then .next { s with obs := { s.obs with snapAt := some t } } else .next s

/-- OBS_SNAP_CTRL.NOW takes a snapshot at once (R402). -/
def execSnapNow (s : State) : Res := .next s.snapshot

/-- The armed snapshot is taken at its count (R402). -/
def execSnapshot (s : State) : Res :=
  match s.obs.snapAt with
  | none => .next s
  | some t => if t = s.now then .next ({ s with obs := { s.obs with snapAt := none } }.snapshot) else .next s

end Sys2Proof.Machine
end

