-- ==== Sys2Proof/Machine/Replay.lean ====
section
/-! DEFINITION. Holds and step replay (11_scheduled_fabric.md R312 to R318, R325, R345): notices, hold points, replay spans. `slot`
names the job: 0 to 6 a forwarding load, 7 the active plan. -/

namespace Sys2Proof.Machine

open Sys2Proof

/-! ## Notices -/

/-- A notice of a plan whose hold tree does not include this module is discarded (R320). -/
def State.foreign (s : State) : State := s.inc R.SCH_NOTICE_COUNT_FOREIGN

/-- Relay a notice once to every tree neighbour but the one it came from (R312). -/
def State.relayNotice (s : State) (j : Job) (source kind : Nat) (n : Notice) : State :=
  let dests := j.neighbours.filter (· != source)
  let s := if dests = [] then s else s.inc R.SCH_NOTICE_COUNT_RELAYED
  s.sendAll kind true n.encode dests

/-- A HOLD notice arrives from a tree neighbour (R312). -/
def execHoldNoticeReceived (source : Fin 65536) (n : Notice) (s : State) : Res :=
  match s.slotOf n.plan with
  | none => .next s.foreign
  | some k =>
    match s.job? k with
    | none => .next s.foreign
    | some j =>
      let s := s.relayNotice j source 1 n
      if n.point ≤ s.now then .next (s.holdMissed k) else .next (s.latchHold k n.point n.arg n.code)

/-- A REPLAY notice arrives (R316): latched and combined; one whose contexts lie outside the mask of the attempt under way
starts the next attempt. -/
def execReplayNoticeReceived (source : Fin 65536) (n : Notice) (s : State) : Res :=
  match s.slotOf n.plan with
  | none => .next s.foreign
  | some k =>
    match s.job? k with
    | none => .next s.foreign
    | some j =>
      let s := s.relayNotice j source 2 n
      if n.point ≤ s.now then .next (s.holdMissed k)
      else
        match j.replay with
        | some r =>
          if n.attempt ≤ r.attempt then
            if n.arg ||| r.mask = r.mask then .next s
            else .next (s.latchReplay k ⟨n.point, n.arg, r.attempt + 1, n.step, n.code⟩)
          else .next (s.latchReplay k ⟨n.point, n.arg, n.attempt, n.step, n.code⟩)
        | none => .next (s.latchReplay k ⟨n.point, n.arg, n.attempt, n.step, n.code⟩)

/-! ## Holds -/

/-- Count a hold by its cause (R327); that of an epoch split counts in OLC_SPLIT alone (R373). -/
def State.countHold (s : State) (cause : Nat) : State :=
  let s := (s.count 6104 1).trace 2 7 13 cause 0
  match cause with
  | 0 => s.inc R.OLC_SPLIT_HOLDS
  | 1 => s.inc R.SCH_HOLD_COUNT_MISS
  | 2 => s.inc R.SCH_HOLD_COUNT_SLIP
  | 3 => s.inc R.SCH_HOLD_COUNT_FORK
  | _ => s.inc R.SCH_HOLD_COUNT_OTHER

/-- At a hold point, or at the end of the hold before it, the job takes one hold of the largest n latched (R312, R325). -/
def execHoldPoint (slot : Fin 8) (s : State) : Res :=
  match s.job? slot with
  | none => .next s
  | some j =>
    match (if j.hold.isNone then j.duePoint s.now else none) with
    | none => .next s
    | some p =>
      if j.abandonsAt p.point then .next s
      else
        let start := j.startOf p
        let h : HoldRun := { start := start, stop := start + p.quanta * j.q, quanta := p.quanta, cause := p.cause }
        let s := s.setJob slot { j with hold := some h, points := j.points.filter (· != p) }
        if slot.val = 7 then .next (((s.countHold p.cause).wr R.SCH_EVENT_HOLD 1).inc R.TAL_HOLDS_COUNT).showStopEnd.showJob
        else .next s

/-- Hold ticks add to the step of the job and of every context (R166), and count in TAL_HOLDS. -/
def State.addHolds (s : State) (k n : Nat) : State :=
  match s.job? k with
  | none => s
  | some j =>
    let s := s.setJob k { j with stepHolds := j.stepHolds + n, holds := j.holds + n }
    if k = 7 then
      { s with pln := { s.pln with ctxs := s.pln.ctxs.map fun (e : Nat × CtxRun) => (e.1, { e.2 with holds := e.2.holds + n }) } }.addAt
        R.TAL_HOLDS_TICKS 0 n
    else s

/-- Every region's deficit is zero once a hold has ended (R47). -/
def State.deficitsGone (s : State) : State :=
  (List.range 24).foldl (fun s r => (s.wrAt R.CLK_RGN_STATUS_DEFICIT r 0).wrAt R.CLK_RGN_STATUS_SLIP r 0) s

/-- The hold reaches its end (R314): positions resume, and its ticks join the step; within a replay span they join the span
(R316). -/
def execHoldEnd (slot : Fin 8) (s : State) : Res :=
  match s.job? slot with
  | none => .next s
  | some j =>
    match j.hold with
    | none => .next s
    | some h =>
      if h.stop ≤ s.now then
        let n := h.stop - h.start
        let s := match j.replay with
          | none => (s.setJob slot { j with hold := none, holdEnd := h.stop }).addHolds slot n
          | some r =>
            let r := if r.phase = .gap then { r with gapEnd := r.gapEnd + n } else { r with holds := r.holds + n }
            s.setJob slot { j with hold := none, holdEnd := h.stop, replay := some r }
        if slot.val = 7 then .next (s.deficitsGone.showStopEnd).showJob else .next s
      else .next s

/-! ## Replay spans -/

/-- The tags of results that have not left are those of the failed attempt: the re-run forms them again (R138, R317). A Replica
context sends its own again, and the partner's new ones replace the old, but for batches already compared (R358, R360). -/
def State.forgetTags (s : State) (c : Nat) : State :=
  let s := if s.rdAt R.TWN_CTX_MODE c = 2 then
      { s with twn := { s.twn with items := s.twn.items.filter fun x => !(x.kind == 4 && x.ctx == c) } }
    else s
  match s.run? c with
  | none => s
  | some r => s.setRun c { r with windows := r.windows.map fun w =>
      if w.compared || w.released then w
      else { w with tagsSent := false, checks := 0, recheck := none, slots := w.slots.map fun x => { x with tag := none } } }

/-- The contexts of a replay mask stop (R316): entries, windows, forks and sequencers cease, and the tags of the step that a
batch has not handed over are formed again by the re-run. -/
def State.abandonCtx (s : State) (attempt c : Nat) : State :=
  match s.ctx? c with
  | none => s
  | some r =>
    let s := ((s.freshStep c).windowsAbandoned c).setCtx c { r with attempt := attempt }
    let s := { s with gen := { s.gen with stepTags := Tab.del c s.gen.stepTags } }
    let s := s.forgetTags c
    (s.benchesOf c).foldl (fun s b => s.wrAt R.BCH_SEQ_STATUS_STATE b 0) s

/-- A context of a mask is lost to exhausted replays: a Contained error (R318). -/
def State.replayLost (s : State) (mask c : Nat) : State := s.contained 13 0x27 7 c 0 mask

/-- The replays of a step are exhausted (R318): the contexts of the mask are reset, with a Contained error, which a module that only
forwards for the job records too. -/
def State.exhausted (s : State) (k mask : Nat) : State :=
  if k ≠ 7 then (maskList mask).foldl (fun s c => s.replayLost mask c) s else
  let s := (s.inc R.SCH_REPLAY_EXHAUSTED).wr R.SCH_EVENT_REPLAY_EXHAUSTED 1
  let s := (maskList mask).foldl (fun s c => (s.contextReset c).replayLost mask c) s
  { s with sch := { s.sch with withheld := s.sch.withheld.filter fun c => !bit c mask } }

/-- The nominal position up to which contexts of a mask re-run, for a replay span that began at count `t`: the furthest at which one of
them paused there (R316). -/
def State.targetOf (s : State) (k : Nat) (j : Job) (mask t : Nat) : Nat :=
  let of (c : Nat) : Nat := match s.ctx? c with | some r => t - r.start - r.holds | none => 0
  if k = 7 then ((maskList mask).map of).foldl max 0 else t - j.stepStart - j.stepHolds

/-- The replay span that a notice begins in a job: the mask joins that of a span under way, and the gap is as long as the schedule
says, with what is left of a hold (R316). -/
def State.spanOf (s : State) (k : Nat) (j : Job) (n : ReplayNotice) : ReplayRun :=
  let held := match j.hold with | some h => h.stop - n.point | none => 0
  let mask := (match j.replay with | some r => r.mask | none => 0) ||| n.mask
  let start := match j.replay, j.hold with | some r, _ => r.start | none, some h => h.start | none, none => n.point
  { start := start, mask := mask, attempt := n.attempt, target := s.targetOf k j mask start
    gapEnd := n.point + j.sched.replayGap + held, phase := .gap, rerunStart := 0, holds := 0 }

/-- The contexts that join the mask of a replay keep the levels of the fork regions that they are in (R33). -/
def State.holdForks (s : State) (j : Job) (mask : Nat) : State :=
  let joined := (maskList mask).filter fun c => match j.replay with | some r => !bit c r.mask | none => true
  let forks := joined.filterMap fun c => (s.forkNow c).map fun v => (c, v)
  { s with pwr := { s.pwr with heldForks := forks.foldl (fun t (e : Nat × Nat × Nat) => Tab.ins e.1 e.2 t) s.pwr.heldForks } }

/-- The contexts of a mask of the active plan stop for a replay (R316). -/
def State.abandonAll (s : State) (r : ReplayRun) (code : Nat) : State :=
  let s := (maskList r.mask).foldl (fun s c => s.abandonCtx r.attempt c) s
  let s := (((s.count 6105 1).inc R.SCH_REPLAY_STARTED).wr R.SCH_REPLAY_LAST_MASK r.mask).wr R.SCH_EVENT_REPLAY 1
  s.trace 2 7 13 code 0

/-- At the abandon point the contexts of the mask stop, every other freezes, and the gap begins; changes split after their
effect are withdrawn (R316, R374). An error within a span replays it again with the union of the masks, up to the
furthest position at which a context of it paused. -/
def execAbandonPoint (slot : Fin 8) (s : State) : Res :=
  match s.job? slot with
  | none => .next s
  | some j =>
    match j.notice with
    | none => .next s
    | some n =>
      if s.now < n.point then .next s
      else
        let s := s.undoSplit slot
        if (s.job? slot).isNone then .next s
        else if s.rd R.SCH_CFG_MAX_REPLAYS < n.attempt then
          .next ((s.setJob slot { j with notice := none }).exhausted slot n.mask).showJob
        else
          let run := s.spanOf slot j n
          let begun := j.begun.filter fun k => match j.entry? k with | some e => !bit e.ctx run.mask | none => false
          let k := { j with notice := none, hold := none, replay := some run, attempt := n.attempt, begun := begun }
          if slot.val = 7 then .next (((s.holdForks j run.mask).setJob slot k).abandonAll run n.code).showJob else .next (s.setJob slot k)

/-- One move of a replay prologue (R316, R319): its source lies in a kind-8 region of its context. Under the codes of the beat its reads are
corrected, and an uncorrectable burst is a Step-fatal error and gives nothing to bench store (R206 to R208). -/
def State.restore (s : State) (p : Plan) (x : Restore) : State :=
  let saved := p.memory.regions.any fun r =>
    r.kind == 8 && r.ctx == x.ctx && decide (r.base ≤ x.source) && decide (x.source + x.length ≤ r.base + r.length)
  if saved then
    match s.readSpans x.ctx [(x.source, x.length)] with
    | (s, true) => s.setBytes (match x.bench with | some l => s.cellAddr l 0 + x.dest | none => x.dest) (s.bytes x.source x.length)
    | (s, false) => s
  else s

/-- The replay prologues of the contexts of a mask restore their saved step inputs, in their spares too (R139, R316). -/
def State.runPrologues (s : State) (mask : Nat) : State :=
  match s.pln.active with
  | none => s
  | some p => (p.restores.filter fun x => bit x.ctx mask).foldl (fun s x => s.restore p x) s

/-- The replay gap ends (R316): spares are substituted, the saved step inputs are in place, and the contexts of the mask run their
step again from position 0; a module that is not ready, or repairs a shard, asks for a hold with cause REPAIR. -/
def execReplayGapEnd (slot : Fin 8) (ready : Bool) (s : State) : Res :=
  match s.job? slot with
  | none => .next s
  | some j =>
    match j.replay with
    | none => .next s
    | some r =>
      if r.phase = .gap ∧ (j.holdFrom s.now).isNone ∧ r.gapEnd ≤ s.now then
        let s := s.setJob slot { j with replay := some { r with phase := .rerun, rerunStart := r.gapEnd } }
        if slot.val = 7 then
          let s := s.substituteAll.runPrologues r.mask
          let s := (maskList r.mask).foldl (fun s c => if s.ctxRunning c then s.fetchEntries c else s) s
          .next (if !ready || s.repairing then s.holdRequest 1 5 else s)
        else .next s
      else .next s

/-- The re-run reaches the paused position and every context continues from there (R316): the whole span counts as hold ticks,
and the withheld releases of the mask may leave (R317). -/
def execReplayRejoin (slot : Fin 8) (s : State) : Res :=
  match s.job? slot with
  | none => .next s
  | some j =>
    match j.replay with
    | none => .next s
    | some r =>
      if r.phase = .rerun ∧ (j.holdFrom s.now).isNone ∧ r.target ≤ s.now - r.rerunStart - r.holds then
        let s := (s.setJob slot { j with replay := none }).addHolds slot (r.rerunStart + r.holds + r.target - r.start)
        if slot.val = 7 then
          let again := match j.notice with | some n => n.mask | none => 0
          let s := { s with sch := { s.sch with withheld := s.sch.withheld.filter fun c => !bit c r.mask || bit c again }
                            pwr := { s.pwr with heldForks := [] } }
          .next s.showStopEnd.showJob
        else .next s
      else .next s

end Sys2Proof.Machine
end

