-- ==== Sys2Proof/Machine/Transfer.lean ====
section
/-! DEFINITION. Scheduled transfers (11_scheduled_fabric.md R297 to R310; 12_topology.md R343; 04_sparsity_and_forks.md
R106, R107, R111): departures, forwarding, deliveries, deadline checks and detours. Entries are named by port and index. -/

namespace Sys2Proof.Machine

open Sys2Proof

/-! ## Sending -/

/-- A slot's header is turned about between the die, least significant byte first, and the link (R106). -/
def turnHead (slot : Bool) (l : List Byte) : List Byte := if slot then (l.take 16).reverse ++ l.drop 16 else l

/-- The key of an entry. -/
def entryKey (port : Fin 16) (entry : Fin 32768) : Nat := 32768 * port.val + entry.val

/-- Data of the blocks of an entry on a path of route `route` (R297): a void slot sends its header alone. -/
def State.entryBlocks (s : State) (e : SchedEntry) (x : SendState) (route path : Nat) : List (List Byte) :=
  let (step, attempt) := match s.ctx? e.ctx with | some r => (r.step % 65536, r.attempt % 4) | none => (0, 0)
  match x.decision, x.void, x.payload with
  | some h, _, _ => [SchedData.encode ⟨route, step, 0, true, false, path, attempt, h⟩]
  | none, some h, _ => [SchedData.encode ⟨route, step, 0, blockCount e == 1, true, path, attempt, h⟩]
  | none, none, some a =>
    let l := turnHead e.slot (s.bytes a e.length)
    (List.range (blockCount e)).map fun i =>
      SchedData.encode ⟨route, step, i, i + 1 == blockCount e, false, path, attempt, slice (236 * i) 236 l⟩
  | none, none, none => []

/-- Blocks depart on a port behind those that wait (R272, R302). -/
def State.departOn (s : State) (p : Nat) (l : List (List Byte)) : State := s.sendSched p ((s.port p).waitSched ++ l)

/-- Blocks of a SEND entry of the active plan's job depart on their primary port: where a lease binds it at most its SHARE in a tick, and
the others wait for later ticks (R343). -/
def State.departShared (s : State) (j : Job) (p ctx : Nat) (l : List (List Byte)) : State :=
  if (s.leaseOf j p).isNone then s.departOn p l
  else l.foldl (fun s d =>
    if s.shareSpent j p || s.sch.leased.any fun b => b.port == p then
      { s with sch := { s.sch with leased := s.sch.leased ++ [LeasedBlock.mk p ctx d] } }.inc R.TOP_COUNT_LEASE_WAIT
    else (s.useShare j p).departOn p [d]) s

/-- The blocks that wait for the share of their lease depart as it allows, in their order (R343). -/
def State.tickLeases (s : State) : State :=
  match s.job? 7 with
  | none => s
  | some j => s.sch.leased.foldl (fun s b =>
      if s.shareSpent j b.port then s
      else ({ s with sch := { s.sch with leased := s.sch.leased.erase b } }.useShare j b.port).departOn b.port [b.data]) s

/-- A SEND entry departs on its first unbroken path (R302, R310): on the primary at once, on a detour in the block times
left free. -/
def State.departEntry (s : State) (j : Job) (key : Nat) (e : SchedEntry) : State :=
  let x := s.sendState key
  match s.openPath j key e with
  | none => (s.setSend key { x with late := false, noPath := true }).noPath
  | some 0 => ((s.trace 3 (occField 12 (key / 32768)) 12 (key / 32768) e.ctx).setSend key { x with late := false, sent := true, path := 0 }).departShared j (key / 32768) e.ctx (s.entryBlocks e x e.route 0)
  | some k =>
    ((s.setSend key { x with late := false, sent := true, path := k, resend := true }).inc R.SCH_DETOUR_DETOURED).onTelem
      (key / 32768) fun t => { t with detoured := min (t.detoured + 1) 65535 }

/-- A payload or a void header has been handed over and has crossed to the port (R42, R302). -/
def SendState.ready (x : SendState) : Bool := (x.payload.isSome || x.void.isSome) && x.crossed

/-- The entries whose departure waits for a payload that has come depart (R302). -/
def State.tickSends (s : State) : State :=
  match s.job? 7 with
  | none => s
  | some j => (s.sch.sends.filter fun (e : Nat × SendState) => e.2.late && e.2.ready).foldl (fun s (x : Nat × SendState) =>
      match j.entry? x.1 with | some e => s.departEntry j x.1 e | none => s) s

/-- A SEND entry of the port with the same TICK and a lower index has still to depart (R302); one that waits for its payload does not hold
others up (DEDUCED, log entry 148). -/
def State.sendBefore (s : State) (j : Job) (key : Nat) (e : SchedEntry) : Bool :=
  j.sched.entries.any fun (x : Nat × SchedEntry) =>
    let y := s.sendState x.1
    x.1 / 32768 == key / 32768 && decide (x.1 < key) && x.2.type == .send && x.2.tick == e.tick && s.ctxRunning x.2.ctx
      && s.due x.2.ctx x.2.tick && s.variantActive x.2.ctx (if x.2.forkEn then some x.2.fork else none) x.2.variants
      && !y.sent && !y.noPath && !y.late

/-- At its tick a SEND entry departs; without its payload the departure waits for HPUT, which is a late entry of the bench's
region (R302). -/
def execSendDeparture (port : Fin 16) (entry : Fin 32768) (s : State) : Res :=
  let key := entryKey port entry
  match s.job? 7 with
  | none => .next s
  | some j =>
    match j.entry? key with
    | none => .next s
    | some e =>
      let x := s.sendState key
      if e.type = .send ∧ s.ctxRunning e.ctx ∧ s.due e.ctx e.tick ∧ s.variantActive e.ctx (if e.forkEn then some e.fork else none) e.variants
          ∧ !x.sent ∧ !x.noPath ∧ !x.late ∧ !s.sendBefore j key e then
        if x.ready then .next (s.departEntry j key e)
        else
          let s := s.count (5792 + 16 * port.val + 11) 1
          .next ((s.setSend key { x with late := true }).lateBench (s.physical e.bench) 0)
      else .next s

/-- Blocks of a detour or of a resend depart in block times left free, from the DETOUR entry's tick on (R310). -/
def execDetourDeparture (port : Fin 16) (entry : Fin 32768) (s : State) : Res :=
  let key := entryKey port entry
  match s.job? 7 with
  | none => .next s
  | some j =>
    match j.entry? key with
    | none => .next s
    | some d =>
      let waits (e : Nat × SchedEntry) : Bool :=
        let x := s.sendState e.1
        e.2.type == .send && x.resend && (match j.path? e.1 e.2 x.path with | some y => y.2.1 == key | none => false)
      if s.due d.ctx d.tick then
        .next ((j.sched.entries.filter waits).foldl (fun s e =>
          let x := s.sendState e.1
          (s.setSend e.1 { x with resend := false }).departOn port (s.entryBlocks e.2 x d.route x.path)) s)
      else .next s

/-- A copy of a fork's decision departs as the payload of its SEND entry (R106, R111): at most 64 copies, which detours carry as they
carry any payload. -/
def execForkDecisionSend (port : Fin 16) (entry : Fin 32768) (fork : Fin 4096) (s : State) : Res :=
  let key := entryKey port entry
  match s.job? 7, s.fork? fork with
  | some j, some f =>
    match j.entry? key, (s.forkRun fork).word with
    | some e, some w =>
      let x := s.sendState key
      let r := s.forkRun fork
      if e.type = .send ∧ s.ctxRunning e.ctx ∧ s.due e.ctx e.tick ∧ !x.sent ∧ !x.noPath ∧ r.sent < 64 then
        let x := { x with decision := some (slotBytes 3 f.number 0 (s.step32 f.ctx) w) }
        let s := if (s.openPath j key e).isSome then s.setFork fork { r with sent := r.sent + 1 } else s
        .next ((s.setSend key x).departEntry j key e)
      else .next s
    | _, _ => .next s
  | _, _ => .next s

/-! ## Forwarding -/

/-- Blocks held in a port's scheduled buffer, and those of one job among them (R304, R343). -/
def State.heldOn (s : State) (p : Nat) : Nat := (s.sch.held.filter fun b => b.port == p).length

/-- The nominal moment `t` of an entry of the job in slot `k` has come in the haul plane's count (R303, R326, R345): for the active plan in
the step of the entry's context and under its fork's variant. A forwarding load, and a plan whose compute has been reset, hold no decision
word here, so that an entry of a variant acts on the blocks that come for it (DEDUCED, log entry 154). -/
def State.entryDue (s : State) (k : Nat) (j : Job) (e : SchedEntry) (t : Nat) : Bool :=
  if k = 7 ∧ (s.ctx? e.ctx).isSome then
    s.due e.ctx t && s.variantActive e.ctx (if e.forkEn then some e.fork else none) e.variants
  else j.due s.now e.ctx t

/-- Ticks since positions came to stand still for a hold, or for a replay span that a context does not re-run. -/
def Job.pausedFor (j : Job) (now : Nat) : Nat :=
  match j.holdFrom now, j.replay with
  | some a, _ => now - a
  | none, some r => now - r.start
  | none, none => 0

/-- An entry whose blocks began departing before the pause completes in it, its later blocks at their ticks as if positions ran on
(R314). -/
def State.entryRuns (s : State) (k key : Nat) (j : Job) (e : SchedEntry) (t : Nat) : Bool :=
  let p := if k = 7 ∧ (s.ctx? e.ctx).isSome then s.ctxPos e.ctx else j.position s.now j.stepStart j.stepHolds e.ctx
  j.paused s.now e.ctx && j.begun.contains key && decide (t ≤ p + j.pausedFor s.now)

/-- The held block of a FWD entry that departs next: of those whose planned block time has come the one of lowest INDEX (R303, R345). -/
def State.nextForward (s : State) (port entry : Nat) : Option (HeldBlock × Job) :=
  let key := 32768 * port + entry
  let mine (b : HeldBlock) : Option (HeldBlock × Job) := match s.job? b.slot with
    | none => none
    | some j =>
      match j.entry? key with
      | none => none
      | some e =>
        let route := j.sched.routes.any fun r => r.route == b.data.route && !r.deliver && r.port == port && r.entry == entry
        let t := e.tick + b.data.index / s.rateOf j port
        if e.type == .fwd && route && (s.entryDue b.slot j e t || s.entryRuns b.slot key j e t) then some (b, j) else none
  (s.sch.held.filterMap mine).foldl (fun (a : Option (HeldBlock × Job)) x =>
    match a with | none => some x | some y => if x.1.data.index < y.1.data.index then some x else some y) none

/-- A FWD entry has begun departing in its job's present step. -/
def State.noteBegun (s : State) (k key : Nat) : State :=
  match s.job? k with
  | some j => s.setJob k { j with begun := addOnce key j.begun }
  | none => s

/-- A held block departs under its FWD entry (R303): past the share of its lease it waits for the next tick, and counts once (R343). -/
def execForwardDeparture (port : Fin 16) (entry : Fin 32768) (s : State) : Res :=
  match s.nextForward port entry with
  | none => .next s
  | some (b, j) =>
    if s.shareSpent j port then
      if b.waited then .next s
      else .next ({ s with sch := { s.sch with held := s.sch.held.replace b { b with waited := true } } }.inc R.TOP_COUNT_LEASE_WAIT)
    else
      let s := ({ s with sch := { s.sch with held := s.sch.held.erase b } }).noteBegun b.slot (entryKey port entry)
      .next (((s.useShare j port).count (5792 + 16 * port.val + 8) 1).departOn port [b.data.encode])

/-! ## Receiving -/

/-- The reception state of a RECV entry. -/
def State.recvState (s : State) (key : Nat) : RecvState :=
  match Tab.find? key s.sch.recv with | some x => x | none => ⟨[], none, false, 0, none⟩

/-- Set the reception state of a RECV entry. -/
def State.setRecv (s : State) (key : Nat) (x : RecvState) : State := { s with sch := { s.sch with recv := Tab.ins key x s.sch.recv } }

/-- A block is held in the scheduled buffer of its port, of 2,048 blocks or its lease's BUF; with that full it is an overrun
(R304, R343). -/
def State.holdBlock (s : State) (j : Job) (b : HeldBlock) : State :=
  let full : Bool := decide (2048 ≤ s.heldOn b.port) || (match s.leaseOf j b.port with
    | none => false
    | some n => decide (s.rdAt R.TOP_LEASE_BUF n ≤ (s.sch.held.filter fun x => x.port == b.port && x.slot == b.slot).length))
  if full then (s.inc R.SCH_XFER_ERR_OVERRUN).wr R.SCH_EVENT_OVERRUN 1
  else
    let s := { s with sch := { s.sch with held := s.sch.held ++ [b] } }
    s.wrAt R.SCH_PORT_BUF_PEAK b.port (max (s.rdAt R.SCH_PORT_BUF_PEAK b.port) (s.heldOn b.port))

/-- The bucket of a slack in ticks (R324). -/
def slackBucket (x : Int) : Nat :=
  if x < 0 then 0 else if x < 4 then 1 else if x < 16 then 2 else if x < 64 then 3 else if x < 256 then 4
  else if x < 1024 then 5 else if x < 4096 then 6 else 7

/-- Received data of a RECV entry cross from the optics region of their port to the bench (R42, R43): 4 ticks and the route latency after
they come, in the module's own time. -/
def State.deliverHaul (s : State) (p : Nat) (e : SchedEntry) (addr : Nat) (data : List Byte) (counter : Option Nat) : State :=
  let b := s.physical e.bench
  s.enqueue { ctx := e.ctx, held := false, writer := 35 + p / 8, reader := benchRegion b, flits := ceilDiv data.length 64, span := 0, ticks := 0
              into := 0, inside := [], after := s.routeLatency (35 + p / 8) e.bench, bench := some b, addr := addr, bytes := data
              counter := counter, send := none }

/-- A RECV entry is complete (R305): its completion counter rises once its data are there, and its slack joins the telemetry (R324). -/
def State.recvDone (s : State) (p : Nat) (e : SchedEntry) : State :=
  let slack : Int := (e.tick : Int) - s.ctxPos e.ctx
  let s := (s.inc R.SCH_XFER_COUNT_COMPLETED).trace 3 (occField 12 p) 12 p e.ctx
  s.onTelem p fun t => { t with completed := t.completed + 1, minSlack := min t.minSlack slack
                                slackHist := bumpHist (slackBucket slack) t.slackHist }

/-- The context that owns a capacity group of the active plan (R435). -/
def State.groupCtx? (s : State) (g : Nat) : Option Nat :=
  match s.pln.active with
  | some p => (List.find? (fun (x : CapGroup) => x.number == g) p.groups).map CapGroup.ctx
  | none => none

/-- The context that owns what a slot header names: the capacity group, or for KIND 3 the fork (R106). -/
def State.headerCtx? (s : State) (h : List Byte) : Option Nat :=
  let g := beAt 0 2 h % 4096
  if beAt 0 1 h / 16 = 3 then (s.fork? g).map ForkPoint.ctx else s.groupCtx? g

/-- The header of a slot that block 0 of a SLOT entry carries is good: its CRC, its KIND, and its STEP, which is that of the context
that owns its group (R107). -/
def State.slotOk (s : State) (e : SchedEntry) (d : SchedData) : Bool :=
  let h := d.payload.take 16
  !(e.slot && d.index == 0) || (headerOk h && 1 ≤ beAt 0 1 h / 16 && beAt 0 1 h / 16 ≤ 3
    && beAt 4 4 h == s.step32 ((s.headerCtx? h).getD e.ctx))

/-- A buffer in bench store holds a void slot, or does so no longer (R108). -/
def State.markVoid (s : State) (a n : Nat) (void : Bool) : State :=
  let b := (a - benchBase 0) / storeSize
  let o := a - benchBase b
  let x := s.benchOf b
  let rest := x.voids.filter fun v => !(decide (o < v.1 + v.2) && decide (v.1 < o + n))
  if rangeOf a = .bench ∧ (void ∨ x.voids ≠ rest) then
    s.setBench b { x with voids := if void then rest ++ [(o, n)] else rest }
  else s

/-- A block delivered to RECV entry `key` of in port `p` (R303, R305, R306, R107). -/
def State.deliverBlock (s : State) (p key : Nat) (e : SchedEntry) (b : HeldBlock) (j : Job) : State :=
  let d := b.data
  let x := s.recvState key
  let n := blockCount e
  let current : Bool := match s.ctx? e.ctx with
    | some r => d.step16 == r.step % 65536 && d.attempt == r.attempt % 4
    | none => false
  if !current then (s.inc R.SCH_XFER_COUNT_STALE).count (5792 + 16 * p + 10) 1
  else if n ≤ d.index ∨ (d.void ∧ !e.slot) then s.inc R.SCH_XFER_ERR_MALFORMED
  else if x.done ∨ d.index ∈ x.got then (s.inc R.SCH_XFER_COUNT_DUP).count (5792 + 16 * p + 9) 1
  else if !s.slotOk e d then s.staleHeader
  else
    match x.bound with
    | none => s.holdBlock j b
    | some a =>
      let data := (turnHead (e.slot && d.index == 0) d.payload).take (min 236 (e.length - 236 * d.index))
      let s := s.markVoid a e.length d.void
      let early : Bool := d.last && decide (x.got.length + 1 < n) && !d.void
      let s := if early then s.inc R.SCH_XFER_ERR_LAST_EARLY else s
      let got := x.got ++ [d.index]
      let done : Bool := d.void || decide (n ≤ got.length)
      let s := s.deliverHaul p e (a + 236 * d.index) data (if done then some e.counter else none)
      let s := s.setRecv key { x with got := got, done := done }
      if done then s.recvDone p e else s

/-- The route entry of a block, over the jobs of this module: slot of the job and the entry (R303, R343). -/
def State.routeOf (s : State) (route : Nat) : Option (Nat × Job × RouteEntry) :=
  s.sch.jobs.findSome? fun (e : Nat × Job) =>
    (List.find? (fun r => r.route == route) e.2.sched.routes).map fun r => (e.1, e.2, r)

/-- A scheduled block that has passed its link checks (R303): discarded without a route, held for its FWD entry, or
delivered; a block for a detoured out port is discarded (R310), and so is one of the active plan from a port that carries none of its
traffic (R337). -/
def State.placeSched (s : State) (p : Nat) (d : SchedData) : State :=
  match s.routeOf d.route with
  | none => s.inc R.SCH_XFER_ERR_NO_ROUTE
  | some (k, j, r) =>
    if k = 7 ∧ s.sch.barred.contains p then s
    else if r.deliver then
      match j.entry? (32768 * r.port + r.entry) with
      | none => s.inc R.SCH_XFER_ERR_NO_ROUTE
      | some e => s.deliverBlock r.port (32768 * r.port + r.entry) e ⟨p, k, d, false⟩ j
    else if s.onAt R.SCH_PORT_DETOURED r.port then s.noPath
    else s.holdBlock j ⟨p, k, d, false⟩

/-- A SCHED block arrives (R267 to R278, R303); a reserved encoding in its transfer header discards it (R14). A twin port takes
items by the rows of their kinds, and discards a block of a reserved kind (R351). -/
def execSchedBlockReceived (port : Fin 16) (blk : WireBlock) (s : State) : Res :=
  match s.accept port blk with
  | (s, none) => .next s
  | (s, some b) =>
    if s.rdAt R.TOP_PORT_USE port = 4 then
      let k := beAt 0 1 b.data
      .next (if b.type = 1 ∧ (k < 1 ∨ 5 < k ∨ b.data.length < 8) then s.inc R.TWN_DROP_LATE_ITEMS else s)
    else if b.type = 1 then
      let f := beAt 6 1 b.data
      if b.data.length < 8 ∨ 64 ≤ f ∨ bits 3 2 f = 3 ∨ beAt 7 1 b.data ≠ 0 then .next (s.reservedDrop port)
      else .next (s.placeSched port (SchedData.decode b.data))
    else .next s

/-- HGET binds an entry's receive buffer: the blocks held for it are delivered in their order (R172, R303). -/
def State.bindRecv (s : State) (key addr : Nat) : State :=
  match s.job? 7 with
  | none => s
  | some j =>
    match j.entry? key with
    | none => s
    | some e =>
      let s := (s.setRecv key { s.recvState key with bound := some addr }).markVoid addr e.length false
      let mine (b : HeldBlock) : Bool := b.slot == 7 &&
        j.sched.routes.any fun r => r.route == b.data.route && r.deliver && 32768 * r.port + r.entry == key
      let waiting := s.sch.held.filter mine
      let s := { s with sch := { s.sch with held := s.sch.held.filter fun b => !mine b } }
      waiting.foldl (fun s b => s.deliverBlock (key / 32768) key e b j) s

/-! ## Deadlines -/

/-- A check of an incomplete entry fails (R308, R313): one more hold, or after MAX_HOLDS failed checks the Step-fatal error
"transfer lost". -/
def State.deadlineFailed (s : State) (j : Job) (key : Nat) (e : SchedEntry) : State :=
  let x := s.recvState key
  let p := key / 32768
  let s := s.onTelem p fun t => { t with misses := min (t.misses + 1) 65535 }
  if s.rd R.SCH_CFG_MAX_HOLDS ≤ x.fails + 1 then
    (s.setRecv key { x with fails := x.fails + 1, recheck := none }).stepFatal 13 0x07 7 p e.route (2 ^ e.ctx)
  else
    let s := s.setRecv key { x with fails := x.fails + 1, recheck := some (j.recheckAt s.now 1) }
    (s.holdRequest 1 1).onTelem p fun t => { t with holds := min (t.holds + 1) 65535 }

/-- At a RECV deadline the module checks completion (R308). -/
def execRecvDeadlineCheck (port : Fin 16) (entry : Fin 32768) (s : State) : Res :=
  let key := entryKey port entry
  match s.job? 7 with
  | none => .next s
  | some j =>
    match j.entry? key with
    | none => .next s
    | some e =>
      let x := s.recvState key
      if e.type = .recv ∧ s.ctxRunning e.ctx ∧ s.due e.ctx e.tick ∧ s.variantActive e.ctx (if e.forkEn then some e.fork else none) e.variants
          ∧ x.fails = 0 ∧ !x.done then
        .next (s.deadlineFailed j key e)
      else .next s

/-- A failed check is repeated at its count (R313). -/
def execRepeatedDeadlineCheck (port : Fin 16) (entry : Fin 32768) (s : State) : Res :=
  let key := entryKey port entry
  match s.job? 7 with
  | none => .next s
  | some j =>
    match j.entry? key with
    | none => .next s
    | some e =>
      let x := s.recvState key
      match x.recheck with
      | none => .next s
      | some t =>
        if t ≤ s.now ∧ s.ctxRunning e.ctx then
          if x.done then .next (s.setRecv key { x with recheck := none }) else .next (s.deadlineFailed j key e)
        else .next s

/-! ## Detours -/

/-- Symbol lock has been lost for FAST_US while the link is Up (R309). -/
def execPortDetourFast (port : Fin 16) (s : State) : Res :=
  let h := s.port port
  if s.portUp port ∧ s.onAt R.HAUL_PORT_STATUS_LOCK_LOST port ∧ h.lostAt + usTicks (s.rd R.SCH_CFG_FAST_US) ≤ s.now then
    .next (s.detourPort port 2 h.lostAt)
  else .next s

/-- A ROUTE_DOWN notice of the active plan breaks its route here, and the entries that used it are resent (R310); one for a route that is
broken already is ignored (R325). -/
def execRouteDownReceived (n : RouteDown) (s : State) : Res :=
  match s.slotOf n.plan with
  | none => .next s.foreign
  | some _ =>
    let known := s.sch.broken.contains n.route
    let s := s.inc R.SCH_DETOUR_DOWN_RX
    if known then .next s else .next { s with sch := { s.sch with broken := n.route :: s.sch.broken } }.resendBroken

end Sys2Proof.Machine
end

