-- ==== Sys2Proof/Machine/Packets.lean ====
section
/-! DEFINITION. The service class at a port (11_scheduled_fabric.md R320 to R324, R326, R327, R309; 12_topology.md R337,
R338): packets received and relayed, injection, throttling, telemetry, and the return of detoured ports. -/

namespace Sys2Proof.Machine

open Sys2Proof

/-! ## Reception -/

/-- The first block of a packet of `n` blocks holds no reserved encoding (R320, R14), and its LENGTH fills as many blocks. -/
def SvcPkt.headOk (n : Nat) (l : List Byte) : Bool :=
  let k := beAt 0 1 l
  let bytes := 16 + beAt 12 2 l
  1 ≤ k && k ≤ 9 && beAt 7 1 l ≤ 1 && beAt 14 2 l == 0 && ceilDiv bytes 244 == n && l.length == min 244 bytes && payloadOk k (l.drop 16)

/-- A packet in transit departs on out port `q` as its blocks come (R322), of which the first is here with one hop less (R320). Its channel
is `vc'` there. -/
def State.relayPkt (s : State) (p vc q vc' n : Nat) (l : List Byte) : State :=
  let first := beBytes 1 (beAt 6 1 l - 1)
  s.queuePkt { port := q, vc := vc', transit := true, src := some (p, vc), express := bit 0 (beAt 7 1 l), blocks := n
               data := [l.take 6 ++ first ++ l.drop 7], left := n - 1, begun := false }

/-- The channel of a packet in transit to out port `q` (R321): its own within a ring, VC0 from one ring to another, and VC1 from the date
line of the ring on. -/
def State.channelOn (s : State) (p vc q : Nat) : Nat :=
  if s.rdAt R.SCH_PORT_RING q ≠ s.rdAt R.SCH_PORT_RING p then 0 else if s.onAt R.SCH_PORT_DATELINE q then 1 else vc

/-- The blocks of the packet that arrives on a channel. -/
def HaulPort.rx (h : HaulPort) (vc : Nat) : List (List Byte) := if vc = 0 then h.rx0 else h.rx1

/-- Set the blocks of the packet that arrives on a channel. -/
def HaulPort.setRx (h : HaulPort) (vc : Nat) (l : List (List Byte)) : HaulPort :=
  if vc = 0 then { h with rx0 := l } else { h with rx1 := l }

/-- Blocks still to come on a channel of a packet that is discarded. -/
def HaulPort.skip (h : HaulPort) (vc : Nat) : Nat := if vc = 0 then h.skip0 else h.skip1

/-- Set the number of blocks to discard on a channel. -/
def HaulPort.setSkip (h : HaulPort) (vc n : Nat) : HaulPort := if vc = 0 then { h with skip0 := n } else { h with skip1 := n }

/-- The first block of a packet of `n` is discarded, and its others as they come. -/
def State.dropPkt (s : State) (p vc n : Nat) : State :=
  let s := s.freeBuffers p vc 1
  s.setPort p ((s.port p).setSkip vc (n - 1))

/-- A whole packet for this module has arrived in `n` blocks (R320, R321): to the TOP block, or to the local owner of its KIND. -/
def State.takePkt (s : State) (p vc n : Nat) (l : List Byte) : State :=
  let pkt := SvcPkt.decode l
  let s := s.freeBuffers p vc n
  if l.length ≠ 16 + beAt 12 2 l then s.reservedDrop p
  else if pkt.kind = 6 then match DiscPkt.decode pkt.payload with
    | some d => s.discHere pkt d
    | none => s.inc R.TOP_COUNT_DISC_DROP
  else s.emit (.deliver pkt)

/-- A block of a packet for this module: the packet is whole with as many as its header names. -/
def State.collect (s : State) (p vc n : Nat) (l : List (List Byte)) : State :=
  if l.length < n then s.setPort p ((s.port p).setRx vc l) else (s.setPort p ((s.port p).setRx vc [])).takePkt p vc n l.flatten

/-- The first block of a DISCOVERY packet (R338): relayed along its path, handed to this module's Forester, or collected at its end. -/
def State.takeDisc (s : State) (p vc n : Nat) (l : List Byte) : State :=
  match DiscPkt.decode (SvcPkt.decode l).payload with
  | none => (s.dropPkt p vc n).inc R.TOP_COUNT_DISC_DROP
  | some d =>
    if d.pos < d.len then
      let q := d.path.getD d.pos 17
      let l := l.take 16 ++ { d with ret := d.ret.set d.pos p, pos := d.pos + 1 }.encode
      if q = foresterPort then s.collect p vc n [l]
      else if 16 ≤ q ∨ !s.portUp q then (s.dropPkt p vc n).inc R.TOP_COUNT_DISC_DROP
      else (s.inc R.TOP_COUNT_DISC_FWD).relayPkt p vc q 0 n l
    else s.collect p vc n [l]

/-- The first block of a service packet of `n` has arrived on channel `vc` of port `p` (R320 to R322): discarded with HOPS 0, collected
here, or relayed by its DEST. -/
def State.takeFirst (s : State) (p vc n : Nat) (l : List Byte) : State :=
  let pkt := SvcPkt.decode l
  if !SvcPkt.headOk n l then (s.dropPkt p vc n).reservedDrop p
  else if pkt.hops = 0 then (s.dropPkt p vc n).inc R.SCH_SVC_COUNT_HOP_DROP
  else if pkt.kind = 6 then s.takeDisc p vc n l
  else if pkt.dest = 0xFFFF ∨ pkt.dest = s.number then s.collect p vc n [l]
  else match s.routeTo pkt.kind pkt.dest pkt.payload with
    | some q => s.relayPkt p vc q (s.channelOn p vc q) n l
    | none => (s.dropPkt p vc n).inc R.SCH_SVC_COUNT_NO_ROUTE

/-- The packet in transit whose blocks still come on a channel of a port. -/
def State.openPkt (s : State) (p vc : Nat) : Option WaitingPkt :=
  s.sch.waiting.find? fun w => w.src == some (p, vc) && decide (0 < w.left)

/-- A service block on a channel: of a packet that is discarded, of one in transit, of one for this module, or the first of the next. -/
def State.takeSvc (s : State) (p vc : Nat) (d : List Byte) : State :=
  let h := s.port p
  if 0 < h.skip vc then (s.setPort p (h.setSkip vc (h.skip vc - 1))).freeBuffers p vc 1
  else match s.openPkt p vc with
    | some w =>
      let s := { s with sch := { s.sch with waiting := s.sch.waiting.replace w { w with data := w.data ++ [d], left := w.left - 1 } } }
      State.pump s.svcBlocks w.port s
    | none =>
      let l := h.rx vc ++ [d]
      let n := beAt 1 1 l.flatten
      if 1 < l.length then s.collect p vc n l
      else if n = 0 ∨ 16 < n then (s.freeBuffers p vc 1).reservedDrop p
      else s.takeFirst p vc n d

/-- A service block arrives (R267 to R279, R320 to R322). -/
def execSvcBlockReceived (port : Fin 16) (blk : WireBlock) (s : State) : Res :=
  match s.accept port blk with
  | (s, none) => .next s
  | (s, some b) => if b.type = 2 ∨ b.type = 3 then .next (s.takeSvc port (b.type - 2) b.data) else .next s

/-! ## Injection and throttling -/

/-- A local producer offers a packet (R320, R323). -/
def execServiceInjection (kind : Fin 256) (dest : Fin 65536) (express : Bool) (payload : List Byte) (s : State) : Res :=
  if 1 ≤ kind.val ∧ kind.val ≤ 9 ∧ payload.length ≤ 3888 then .next (s.sendService kind dest express payload) else .next s

/-- Service blocks waiting at a port on a channel. -/
def State.depth (s : State) (p vc : Nat) : Nat :=
  ((s.sch.waiting.filter fun w => w.port == p && w.vc == vc).map fun w => w.data.length).sum

/-- The bucket of a depth in blocks (R324). -/
def depthBucket (n : Nat) : Nat :=
  if n = 0 then 0 else if n < 4 then 1 else if n < 16 then 2 else if n < 64 then 3 else if n < 128 then 4
  else if n < 192 then 5 else if n < 256 then 6 else 7

/-- One sample of a port and channel joins the telemetry. -/
def State.sampleDepth (s : State) (p vc : Nat) : State :=
  let n := s.depth p vc
  let throttled := s.sch.throttled
  s.onTelem p fun t =>
    { t with maxDepth := t.maxDepth.set vc (max (t.maxDepth.getD vc 0) n)
             throttled := if throttled then bumpHist vc t.throttled else t.throttled
             depthHist := t.depthHist.set vc (bumpHist (depthBucket n) (t.depthHist.getD vc [])) }

/-- Every port that may send does so. -/
def State.pumpAll (s : State) : State := (List.range 16).foldl (fun s p => State.pump s.svcBlocks p s) s

/-- Every 1 µs the service blocks that wait are sampled, and local injection is throttled or released (R323). -/
def execThrottleSample (s : State) : Res :=
  let n := s.svcBlocks
  let s := if s.rd R.SCH_SVC_CFG_THROTTLE_HI < n ∧ !s.sch.throttled then
      ({ s with sch := { s.sch with throttled := true } }.inc R.SCH_SVC_COUNT_THROTTLES).wr R.SCH_EVENT_THROTTLE 1
    else if n < s.rd R.SCH_SVC_CFG_THROTTLE_LO then { s with sch := { s.sch with throttled := false } }
    else s
  let s := (List.range 16).foldl (fun s p => (s.sampleDepth p 0).sampleDepth p 1) s
  .next s.pumpAll

/-! ## Telemetry -/

/-- The telemetry of a port in the present period. -/
def State.telemOf (s : State) (p : Nat) : PortTelem :=
  match Tab.find? p s.sch.telem with
  | some t => t
  | none =>
    { maxDepth := [0, 0], throttled := [0, 0], depthHist := [List.replicate 8 0, List.replicate 8 0], misses := 0
      completed := 0, minSlack := 2 ^ 31 - 1, detoured := 0, holds := 0, slackHist := List.replicate 8 0 }

/-- A congestion record (R324). -/
def PortTelem.congestion (t : PortTelem) (p vc : Nat) : List Byte :=
  beBytes 1 (16 * p + vc) ++ zeros 1 ++ beBytes 2 (t.maxDepth.getD vc 0) ++ beBytes 2 (t.throttled.getD vc 0) ++ zeros 2
    ++ ((t.depthHist.getD vc []).map (beBytes 2)).flatten ++ zeros 8

/-- A slip record (R324). -/
def PortTelem.slip (t : PortTelem) (p : Nat) : List Byte :=
  beBytes 1 p ++ zeros 1 ++ beBytes 2 t.misses ++ beBytes 4 t.completed ++ beBytes 4 (toField 32 t.minSlack)
    ++ beBytes 2 t.detoured ++ beBytes 2 t.holds ++ (t.slackHist.map (beBytes 2)).flatten ++ zeros 16

/-- The 1,824 bytes of a TELEMETRY packet (R324). -/
def State.telemetry (s : State) : List Byte :=
  let plan := match s.job? 7 with | some j => j.plan | none => 0
  leBytes 8 plan ++ beBytes 8 s.sch.telemFrom ++ beBytes 8 s.now ++ beBytes 2 s.number ++ zeros 6
    ++ ((List.range 16).map fun p => (s.telemOf p).congestion p 0 ++ (s.telemOf p).congestion p 1).flatten
    ++ ((List.range 16).map fun p => (s.telemOf p).slip p).flatten

/-- The telemetry period closes and its packet is sent (R324, R327). -/
def State.closeTelemetry (s : State) : State :=
  let l := s.telemetry
  ({ s with sch := { s.sch with telem := [], telemFrom := s.now } }).sendService 4 (s.rd R.SCH_TELEM_DEST) false l

/-- Every PERIOD_MS with EN set (R324). -/
def execTelemetryPeriod (s : State) : Res :=
  if s.on R.SCH_TELEM_EN ∧ s.sch.telemFrom + msTicks (s.rd R.SCH_TELEM_PERIOD_MS) ≤ s.now then .next s.closeTelemetry else .next s

/-- SCH_CTRL.TELEM_NOW (R327). -/
def execTelemNow (s : State) : Res := .next s.closeTelemetry

/-! ## Forwarding tables and restored ports -/

/-- SCH_CTRL.CLEAR_FWD (R326): refused while a plan is active. -/
def execClearFwd (s : State) : Res :=
  if s.planActive then .next s
  else
    let s := { s with sch := { s.sch with jobs := Tab.del 7 s.sch.jobs, held := s.sch.held.filter fun b => b.slot != 7, leased := []
                                          broken := [], withheld := [] } }
    .next s.showEntries

/-- SCH_CTRL.RESTORE_ARM (R309): the change of KIND 8 (R370). -/
def execRestoreArm (s : State) : Res :=
  let t := s.last R.SCH_RESTORE_AT_AT
  let ok : Bool := s.planActive && t % 16 == 0 && decide (s.now < t)
  .next (s.armChange 8 0 t t ok (fun s => { s with sch := { s.sch with restoreAt := some t } }.wr R.SCH_RESTORE_AT_AT t) id)

/-- At SCH_RESTORE_AT the detoured ports that are Up and matched return to service (R309, R337). -/
def execPortRestore (s : State) : Res :=
  match s.sch.restoreAt, s.pln.active with
  | some t, some plan =>
    if t ≤ s.now ∧ s.atStepStart then
      let back := (List.range 16).filter fun p => s.onAt R.SCH_PORT_DETOURED p && s.portUp p && !s.portMismatch plan p
      let s := { s with sch := { s.sch with restoreAt := none } }
      let s := (back.foldl State.restorePort s).bar (s.sch.barred.filter fun p => !back.contains p)
      .next (s.changeApplied 8 0 (back.map fun p => 2 ^ p).sum)
    else .next s
  | _, _ => .next s

end Sys2Proof.Machine
end

