-- ==== Sys2Proof/Machine/Sections.lean ====
section
/-! DEFINITION. The sections of a Working Plan image, read from their bytes (06_working_plan.md R150 to R154, R164; 01 R433; 07 R189,
R190, R192, R197; 08 R214; 09 R253; 11 R298, R299, R301). FORKS, BENCH_PROGRAM, PRELOAD and MESH_ROUTES have no layout in the manual
(log entry 26). -/

namespace Sys2Proof.Machine

open Sys2Proof

/-- What a check finds: the code of R156 and a byte offset within the section. -/
abbrev Finding := Nat × Nat

/-- A condition of plan verification: its code and offset where it fails (R156). -/
def need (ok : Bool) (code off : Nat) : List Finding := if ok then [] else [(code, off)]

/-- `n` bytes from offset `o` are zero, as reserved bytes must be (R14). -/
def blank (o n : Nat) (b : List Byte) : Bool := (slice o n b).all (· == 0)

/-- `n` entries of `size` bytes from offset `o`, each with its own offset. -/
def rows (o size n : Nat) (b : List Byte) : List (Nat × List Byte) :=
  (List.range n).map fun i => (o + size * i, slice (o + size * i) size b)

/-- Every entry of a list checked at its offset. -/
def checkRows (l : List (Nat × List Byte)) (f : Nat → List Byte → List Finding) : List Finding :=
  (l.map fun x => f x.1 x.2).flatten

/-- Each of a list stands before the next. -/
def rising {α : Type} (before : α → α → Bool) : List α → Bool
  | [] => true
  | [_] => true
  | a :: b :: t => before a b && rising before (b :: t)

/-! ## ARRANGEMENT (R154) -/

/-- The arrangement descriptor: racks, shape, module entries, and the port map of each role. -/
structure Arrangement where
  racks : Nat
  shape : Nat
  modules : List ModuleEntry
  maps : List (List PortMap)
deriving DecidableEq, Repr

/-- A module entry. -/
def readModule (b : List Byte) : ModuleEntry := ⟨leAt 0 2 b, leAt 2 2 b, bit 0 (leAt 4 1 b)⟩

/-- A port-map entry. -/
def readPort (b : List Byte) : PortMap := ⟨leAt 0 2 b, leAt 2 1 b, leAt 3 1 b, leAt 4 1 b⟩

/-- The ARRANGEMENT section of a plan of `roles` roles. -/
def readArrangement (roles : Nat) (b : List Byte) : Arrangement :=
  let n := leAt 0 2 b
  { racks := leAt 2 1 b, shape := leAt 3 1 b
    modules := (rows 16 8 n b).map fun x => readModule x.2
    maps := (List.range roles).map fun r => (rows (16 + 8 * n + 128 * r) 8 16 b).map fun x => readPort x.2 }

/-- Checks 0x01 and 0x06 of the section. -/
def checkArrangement (roles : Nat) (b : List Byte) : List Finding :=
  let n := leAt 0 2 b
  need (decide (16 + 8 * n + 128 * roles ≤ b.length) && decide (16 ≤ b.length)) 1 0
    ++ need (1 ≤ n && decide (n ≤ 4096)) 6 0 ++ need (decide (leAt 2 1 b ≤ 128)) 6 2 ++ need (decide (leAt 3 1 b ≤ 6)) 6 3
    ++ need (blank 4 12 b) 6 4
    ++ checkRows (rows 16 8 n b) (fun o x =>
      need (decide (leAt 0 2 x < 4096)) 6 o ++ need (decide (leAt 2 2 x < roles)) 6 (o + 2) ++ need (decide (leAt 4 1 x ≤ 1)) 6 (o + 4)
        ++ need (blank 5 3 x) 6 (o + 5))
    ++ checkRows (rows (16 + 8 * n) 8 (16 * roles) b) (fun o x =>
      need (decide (leAt 3 1 x ≤ 15)) 6 (o + 3) ++ need (decide (leAt 4 1 x ≤ 4)) 6 (o + 4) ++ need (blank 5 3 x) 6 (o + 5))

/-! ## CONTEXTS and BENCH_ALLOC (R164) -/

/-- A CONTEXTS entry. -/
def readCtx (b : List Byte) : PlanCtx :=
  let f := leAt 1 1 b
  { ctx := leAt 0 1 b, provEn := bit 0 f, strictReq := bit 1 f, winIndep := bit 2 f, intake := bit 3 f, rotation := bit 4 f
    spareExt := leAt 2 2 b, backfill := leAt 4 2 b, seed := leAt 8 8 b }

/-- The contexts of a mask, ascending. -/
def maskCtxs (mask : Nat) : List Nat := (List.range 16).filter fun c => bit c mask

/-- The CONTEXTS section: an entry for each context of the mask. -/
def readCtxs (mask : Nat) (b : List Byte) : List PlanCtx := (rows 0 64 (maskCtxs mask).length b).map fun x => readCtx x.2

/-- Checks 0x01, 0x06, 0x0D and 0x0E of the section (R164, R177). -/
def checkCtxs (mask : Nat) (b : List Byte) : List Finding :=
  let l := rows 0 64 (maskCtxs mask).length b
  need (decide (64 * l.length ≤ b.length)) 1 0
    ++ need ((l.map fun x => leAt 0 1 x.2) == maskCtxs mask) 6 0
    ++ checkRows l (fun o x =>
      let c := readCtx x
      need (decide (leAt 1 1 x < 32)) 6 (o + 1) ++ need (blank 6 2 x) 6 (o + 6) ++ need (blank 16 48 x) 6 (o + 16)
        ++ need (c.spareExt % 16 == 0 && decide (c.spareExt ≤ 256)) 0x0D (o + 2) ++ need (decide (c.backfill ≤ 4096)) 0x0D (o + 4)
        ++ need (!(c.rotation && c.intake)) 0x0E (o + 1))

/-- A BENCH_ALLOC entry. -/
def readAlloc (v : Nat) : BenchAlloc := ⟨bits 3 0 v, bit 4 v, bits 8 5 v, bit 9 v⟩

/-- The BENCH_ALLOC section. -/
def readAllocs (b : List Byte) : List BenchAlloc := (rows 0 2 768 b).map fun x => readAlloc (leNat x.2)

/-- Checks 0x01, 0x06 and 0x0D of the section: homes and guests are defined contexts, and a guest differs from its home. -/
def checkAllocs (mask : Nat) (b : List Byte) : List Finding :=
  need (decide (1536 ≤ b.length)) 1 0
    ++ checkRows (rows 0 2 768 b) (fun o x =>
      let a := readAlloc (leNat x)
      need (decide (leNat x < 1024)) 6 o ++ need (!a.used || bit a.home mask) 0x0D o
        ++ need (!a.guestValid || (bit a.guest mask && a.guest != a.home)) 0x0D o)

/-! ## POWER_PROFILE (R433) -/

/-- A stage. -/
def readStage (b : List Byte) : PowerStage :=
  ⟨leAt 0 4 b, leAt 4 2 b, leAt 6 1 b, leAt 8 2 b, (rows 16 2 16 b).map fun x => leNat x.2⟩

/-- The POWER_PROFILE section of an operating point. -/
def readProfile (point : Nat) (b : List Byte) : PowerProfile :=
  let up := leAt 2 4 b
  let step := leAt 6 4 b
  let stages (o n : Nat) : List PowerStage := (rows (32 + 48 * o) 48 n b).map fun x => readStage x.2
  ⟨point, leAt 0 2 b, stages 0 up, stages up step, stages (up + step) (leAt 10 4 b)⟩

/-- Checks 0x01 and 0x06 of the section: ramp-up and ramp-down belong to no fork. -/
def checkProfile (b : List Byte) : List Finding :=
  let n := leAt 2 4 b + leAt 6 4 b + leAt 10 4 b
  let ramps := rows 32 48 (leAt 2 4 b) b ++ rows (32 + 48 * (leAt 2 4 b + leAt 6 4 b)) 48 (leAt 10 4 b) b
  need (decide (32 + 48 * n ≤ b.length)) 1 0 ++ need (blank 14 18 b) 6 14
    ++ checkRows ramps (fun o x => need (leAt 4 2 x == 0xFFFF) 6 (o + 4))
    ++ checkRows (rows 32 48 n b) (fun o x =>
      need (leAt 0 4 x % 16 == 0) 6 o ++ need (leAt 4 2 x == 0xFFFF || decide (leAt 4 2 x < 4096)) 6 (o + 4)
        ++ need (decide (leAt 6 1 x < 8) && (leAt 4 2 x != 0xFFFF || leAt 6 1 x == 0)) 6 (o + 6) ++ need (blank 7 1 x) 6 (o + 7)
        ++ need (blank 10 6 x) 6 (o + 10))

/-! ## HAUL_SCHEDULE (R298, R299, R301) -/

/-- The type of a schedule entry; reserved codes read as unused, and fail check 0x06. -/
def readEntryType (v : Nat) : EntryType := match v with | 1 => .send | 2 => .recv | 3 => .fwd | 4 => .detour | _ => .unused

/-- A schedule entry. -/
def readEntry (v : Nat) : SchedEntry :=
  { type := readEntryType (bits 2 0 v), ctx := bits 6 3 v, forkEn := bit 7 v, fork := bits 19 8 v, variants := bits 27 20 v
    route := bits 43 28 v, length := bits 63 44 v, slot := bit 64 v, tick := bits 84 65 v, counter := bits 90 85 v
    bench := bits 100 91 v
    d1 := if bit 120 v then some (bits 104 101 v, bits 119 105 v) else none
    d2 := if bit 140 v then some (bits 124 121 v, bits 139 125 v) else none
    peer := bits 156 141 v }

/-- A route entry. -/
def readRoute (b : List Byte) : RouteEntry := ⟨leAt 0 2 b, leAt 2 1 b == 2, leAt 3 1 b, leAt 4 2 b, leAt 6 2 b⟩

/-- The entries of each port, and the offset at which they begin. -/
def portEntries (b : List Byte) : List (Nat × Nat × Nat) :=
  (List.range 16).map fun p =>
    (p, leAt (64 + 16 * p) 2 b, 320 + 32 * (((List.range p).map fun q => leAt (64 + 16 * q) 2 b).sum))

/-- The schedule entries as rows: their key 32,768 × port + entry, offset and bytes. -/
def entryRows (b : List Byte) : List (Nat × Nat × List Byte) :=
  ((portEntries b).map fun (p, n, o) => (rows o 32 n b).zipIdx.map fun (x, e) => (32768 * p + e, x.1, x.2)).flatten

/-- The offset of the route entries. -/
def routesAt (b : List Byte) : Nat := 320 + 32 * ((portEntries b).map fun x => x.2.1).sum

/-- The HAUL_SCHEDULE section. -/
def readHaul (b : List Byte) : HaulSchedule :=
  let r := leAt 8 4 b
  { holdParent := leAt 2 2 b
    holdChildren := (rows (routesAt b + 8 * r) 2 (leAt 4 2 b) b).map fun x => leNat x.2
    replayGap := leAt 12 4 b
    budgets := (List.range 16).map fun p => leAt (66 + 16 * p) 2 b
    entries := ((entryRows b).map fun (k, _, x) => (k, readEntry (leNat x))).filter fun x => x.2.type != .unused
    routes := (rows (routesAt b) 8 r b).map fun x => readRoute x.2 }

/-- Checks 0x01 and 0x06 of the section (R298, R299, R301, R329). -/
def checkHaul (b : List Byte) : List Finding :=
  let r := leAt 8 4 b
  let kids := leAt 4 2 b
  let gap := leAt 12 4 b
  let routes := rows (routesAt b) 8 r b
  need (decide (320 ≤ b.length) && decide (routesAt b + 8 * r + 2 * kids ≤ b.length)) 1 0
    ++ need ((portEntries b).all fun x => bit x.1 (leAt 0 2 b) == (x.2.1 != 0)) 6 0
    ++ need (leAt 2 2 b == 0xFFFF || decide (leAt 2 2 b < 4096)) 6 2 ++ need (decide (kids ≤ 16)) 6 4 ++ need (blank 6 2 b) 6 6
    ++ need (decide (r ≤ 65536)) 6 8 ++ need (gap % 16 == 0 && 16 ≤ gap && decide (gap ≤ 65536)) 6 12 ++ need (blank 16 48 b) 6 16
    ++ checkRows (rows 64 16 16 b) (fun o x => need (decide (leAt 0 2 x ≤ 32768)) 6 o ++ need (blank 4 12 x) 6 (o + 4))
    ++ ((entryRows b).map fun (_, o, x) =>
      let v := leNat x
      let e := readEntry v
      need (decide (bits 2 0 v ≤ 4)) 6 o ++ need (bits 255 157 v == 0) 6 (o + 19)
        ++ (if e.type = .unused then [] else
          need (1 ≤ e.length && decide (e.length ≤ 966656)) 6 (o + 5) ++ need (decide (e.bench < 768)) 6 (o + 11)
            ++ need (decide (e.peer < 4096)) 6 (o + 17))).flatten
    ++ need (rising (fun (x y : Nat × List Byte) => decide (leAt 0 2 x.2 < leAt 0 2 y.2)) routes) 6 (routesAt b)
    ++ checkRows routes (fun o x =>
      need (leAt 2 1 x == 1 || leAt 2 1 x == 2) 6 (o + 2) ++ need (decide (leAt 3 1 x < 16)) 6 (o + 3)
        ++ need (decide (leAt 4 2 x < 32768)) 6 (o + 4) ++ need (decide (leAt 6 2 x < 4096)) 6 (o + 6))
    ++ checkRows (rows (routesAt b + 8 * r) 2 kids b) (fun o x => need (decide (leNat x < 4096)) 6 o)

/-! ## MEMORY (R189, R190, R192, R197) -/

/-- A fork field: none for 0xFFFF. -/
def readFork (v : Nat) : Option Nat := if v = 0xFFFF then none else some v

/-- A region entry. -/
def readRegion (b : List Byte) : MemRegion := ⟨leAt 0 1 b, leAt 1 1 b, leAt 8 8 b, leAt 16 8 b⟩

/-- A window descriptor. -/
def readWindow (b : List Byte) : GatherDesc :=
  { ctrl := leAt 0 1 b, write := leAt 1 1 b == 1, ctx := leAt 2 1 b, id := leAt 3 1 b, bench := leAt 4 2 b, region := leAt 6 2 b
    n := leAt 8 2 b, record := leAt 10 2 b, start := leAt 12 4 b, length := leAt 16 4 b, variants := leAt 20 1 b
    fork := readFork (leAt 22 2 b), positions := leAt 24 2 b }

/-- A script entry. -/
def readScript (b : List Byte) : ScriptEntry :=
  { ctrl := leAt 0 1 b, kind := leAt 1 1 b, ctx := leAt 2 1 b, variants := leAt 3 1 b, fork := readFork (leAt 4 2 b)
    beat := leAt 8 4 b, beats := leAt 12 4 b, addr := leAt 16 8 b, units := leAt 24 4 b, bench := leAt 28 2 b, baddr := leAt 30 2 b
    addr2 := leAt 32 8 b }

/-- The region entries, window descriptors and script entries of the section, as rows. -/
def regionRows (b : List Byte) : List (Nat × List Byte) := rows 16 32 (leAt 0 2 b) b

/-- The window descriptors, as rows. -/
def windowRows (b : List Byte) : List (Nat × List Byte) := rows (16 + 32 * leAt 0 2 b) 32 (leAt 2 2 b) b

/-- The script entries, as rows. -/
def scriptRows (b : List Byte) : List (Nat × List Byte) := rows (16 + 32 * (leAt 0 2 b + leAt 2 2 b)) 48 (leAt 4 4 b) b

/-- The MEMORY section. -/
def readMemory (b : List Byte) : MemoryPlan :=
  ⟨(regionRows b).map fun x => readRegion x.2, (windowRows b).map fun x => readWindow x.2, (scriptRows b).map fun x => readScript x.2⟩

/-! ## INTAKE (R253) -/

/-- A context entry. -/
def readIntake (b : List Byte) : IntakeEntry :=
  let f := leAt 1 1 b
  { ctx := leAt 0 1 b, tsInput := bit 0 f, respTag := bit 1 f, ring := bit 2 f, chainSpan := leAt 2 1 b, carryMax := leAt 3 1 b
    windowTicks := leAt 4 4 b, releaseTicks := leAt 8 4 b, slots := leAt 12 2 b, carrySlots := leAt 14 2 b, maxRequest := leAt 16 2 b
    resultLength := leAt 18 2 b, frameSpacing := leAt 20 2 b, perFrame := leAt 22 1 b, blockLog2 := leAt 23 1 b, entries := leAt 24 4 b
    stash := leAt 28 1 b, portMask := leAt 29 1 b, buffers := leAt 30 1 b
    salt := (rows 32 4 4 b).map fun x => leNat x.2, indexRegion := (rows 48 2 4 b).map fun x => leNat x.2
    stateRegion := leAt 56 2 b, bench := leAt 58 2 b, bufAddr := leAt 60 2 b, respAddr := leAt 62 2 b, ringBase := leAt 64 8 b
    ringLog2 := leAt 72 1 b, ringEntryLog2 := leAt 73 1 b, ringReadMax := leAt 74 2 b, ringPeriod := leAt 76 2 b }

/-- The context entries, as rows. -/
def intakeRows (b : List Byte) : List (Nat × List Byte) := rows 16 96 (leAt 0 1 b) b

/-! ## WEIGHT_BINDING (R214) -/

/-- A binding block as it lies in the section: its offset, and its bytes. -/
def bindingBlocks : Nat → Nat → List Byte → List (Nat × List Byte)
  | 0, _, _ => []
  | n + 1, o, b =>
    let len := 32 + 112 * leAt (o + 2) 2 b + 32 * leAt (o + 4) 4 b
    (o, slice o len b) :: bindingBlocks n (o + len) b

/-- The blocks of the section. -/
def blocksOf (b : List Byte) : List (Nat × List Byte) := bindingBlocks (leAt 0 2 b) 16 b

/-- The length that a block's counts give it. -/
def blockLength (x : List Byte) : Nat := 32 + 112 * leAt 2 2 x + 32 * leAt 4 4 x

/-- The tensor entries of a block, as rows. -/
def tensorRows (x : List Byte) : List (Nat × List Byte) := rows 32 112 (leAt 2 2 x) x

/-- The extent entries of a block, as rows. -/
def extentRows (x : List Byte) : List (Nat × List Byte) := rows (32 + 112 * leAt 2 2 x) 32 (leAt 4 4 x) x

/-- The extent entries of a block that are a role's. -/
def roleExtents (role : Nat) (x : List Byte) : List (Nat × List Byte) := (extentRows x).filter fun e => leAt 0 2 e.2 == role

/-- A tensor entry. -/
def readTensorBind (b : List Byte) : TensorBind :=
  ⟨leAt 4 1 b, leAt 8 8 b, leAt 16 8 b, leAt 24 8 b, leAt 32 8 b, slice 48 64 b⟩

/-- An extent, in the regions of its role. -/
def readExtent (m : MemoryPlan) (b : List Byte) : Extent :=
  let at_ (i : Nat) : Option Nat := m.regions[i]?.map fun r => r.base + leAt 24 8 b
  ⟨leAt 8 8 b, leAt 16 8 b, (at_ (leAt 2 2 b)).getD 0, if leAt 4 2 b = 0xFFFF then none else at_ (leAt 4 2 b)⟩

/-- The regions that an extent pairs: BASE of the region of bank 0, of the landing, and their LENGTH (R214, R225). -/
def readPair (m : MemoryPlan) (b : List Byte) : Option (Nat × Nat × Nat) :=
  match m.regions[leAt 2 2 b]?, m.regions[leAt 4 2 b]? with
  | some r, some x => if leAt 4 2 b = 0xFFFF then none else some (r.base, x.base, r.length)
  | _, _ => none

/-! ## The directory (R151) -/

/-- One directory entry. -/
structure DirEntry where
  type : Nat
  role : Nat
  point : Nat
  offset : Nat
  length : Nat
  digest : List Byte
deriving DecidableEq, Repr

/-- Ascending TYPE, then ROLE, then OP_POINT (R151). -/
def DirEntry.before (a b : DirEntry) : Bool :=
  a.type < b.type || (a.type == b.type && (a.role < b.role || (a.role == b.role && a.point < b.point)))

/-- A directory entry from its 96 bytes. -/
def readDirEntry (b : List Byte) : DirEntry := ⟨leAt 0 2 b, leAt 2 2 b, leAt 4 1 b, leAt 8 8 b, leAt 16 8 b, slice 24 64 b⟩

/-- A section that all roles share (R152). -/
def commonType (t : Nat) : Bool := t == 1 || t == 2 || t == 3 || t == 0xC

/-- A section compiled for one operating point (R152). -/
def pointType (t : Nat) : Bool := t == 5 || t == 7 || t == 0xD

/-- Check 0x06 of a directory entry (R151, R152). -/
def checkDirEntry (b : List Byte) : List Finding :=
  let e := readDirEntry b
  need (1 ≤ e.type && decide (e.type ≤ 0xD)) 6 0
    ++ need (if commonType e.type then e.role == 0xFFFF else decide (e.role < 4096)) 6 2
    ++ need (if pointType e.type then decide (e.point < 4) else e.point == 0xFF) 6 4
    ++ need (blank 5 3 b) 6 5 ++ need (blank 0x58 8 b) 6 0x58

end Sys2Proof.Machine
end

