-- ==== Sys2Proof/Machine/Descriptor.lean ====
section
/-! DEFINITION. Check 0x0C of plan verification (12_topology.md R330 to R337; 13_twin_pairs.md R350): the arrangement descriptor
names this module, its port maps are reciprocal, every USE fits the shape, and bundles and twins keep their rules. -/

namespace Sys2Proof.Machine

open Sys2Proof

/-- The port map of a module entry. -/
def Arrangement.mapOf (a : Arrangement) (m : ModuleEntry) : List PortMap := a.maps.getD m.role []

/-- The entry of port `p` of module `n`. -/
def Arrangement.port (a : Arrangement) (n p : Nat) : Option PortMap :=
  (a.modules.find? fun m => m.number == n).bind fun m => (a.mapOf m)[p]?

/-- Module numbers are unique, and their count and places are those of the shape (R154, R330). -/
def Arrangement.placesOk (a : Arrangement) : Bool :=
  let ns := a.modules.map ModuleEntry.number
  let count := ns.length
  let wholeRacks : Bool := ns.all fun n => (List.range 32).all fun s => ns.contains (n / 32 * 32 + s)
  ns.eraseDups.length == count &&
    (match a.shape with
     | 0 => count == 1
     | 1 => decide (2 ≤ count) && decide (count ≤ 16) && ns.all fun n => decide (n < count)
     | 2 => count == 32 && wholeRacks
     | 3 => decide (64 ≤ count) && decide (count ≤ 4096) && wholeRacks && ns.all fun n => decide (n / 32 < count / 32)
     | _ => wholeRacks)

/-- The four global ports of a module in the order of their global indexes (R333). -/
def globalPorts : List Nat := [6, 7, 14, 15]

/-- The rack that global index `g` of rack `r` reaches, and the far end's index (R334). -/
def globalLink (r g : Nat) : Nat × Nat :=
  let far := if g < r then g else g + 1
  (far, if far < r then r - 1 else r)

/-- A port that the shape leaves unused carries nothing, or a twin (R330, R350). -/
def idlePort (e : PortMap) : Bool := e.use == 0 || e.use == 4

/-- An entry of a global port of the module in slot `s` of rack `r`, as its shape asks (R330, R334, R336). -/
def Arrangement.globalOk (a : Arrangement) (r s p : Nat) (e : PortMap) : Bool :=
  let pair : Bool := e.use == 3 && e.partnerPort == (if p = 6 then 7 else if p = 7 then 6 else if p = 14 then 15 else 14)
  match a.shape with
  | 3 =>
    let g := 4 * s + (globalPorts.idxOf p)
    if g + 1 < a.modules.length / 32 then
      let (far, h) := globalLink r g
      e.use == 3 && e.partner == 32 * far + h / 4 && e.partnerPort == globalPorts.getD (h % 4) 0
    else idlePort e
  | 4 => pair
  | 5 => pair || idlePort e
  | 6 => (e.use == 3 && (if p = 6 then e.partnerPort == 7 || e.partnerPort == 14 || e.partnerPort == 15 else e.partnerPort == 6)) || idlePort e
  | _ => idlePort e

/-- The entry of port `p` of module `n` carries what its shape's row gives the port (R330). -/
def Arrangement.useOk (a : Arrangement) (n p : Nat) (e : PortMap) : Bool :=
  let r := n / 32
  let s := n % 32
  let beside (d q : Nat) : Bool := e.use == 2 && e.partner == 32 * r + (s + d) % 32 && e.partnerPort == q
  if a.shape = 0 then idlePort e
  else if a.shape = 1 then idlePort e || e.use == 2
  else if p < 4 ∨ (8 ≤ p ∧ p < 12) then
    e.use == 1 && e.partner == 0x8000 + 8 * r + (if p < 4 then p else p - 4) && e.partnerPort == s
  else if p = 4 then beside 1 5
  else if p = 5 then beside 31 4
  else if p = 12 then beside 2 13
  else if p = 13 then beside 30 12
  else a.globalOk r s p e

/-- The entry that an entry names, names it back (R337); a Yard's does by the rack wiring. -/
def Arrangement.reciprocal (a : Arrangement) (n p : Nat) (e : PortMap) : Bool :=
  e.use == 0 || e.use == 1 || (match a.port e.partner e.partnerPort with
    | some f => f.partner == n && f.partnerPort == p && f.use == e.use
    | none => false)

/-- The members of each logical port, at most eight, have one partner and one USE (R332). -/
def bundlesOk (l : List PortMap) : Bool :=
  (List.range 16).all fun b =>
    let m := l.filter fun e => e.use != 0 && e.bundle == b
    decide (m.length ≤ 8) && (match m with | [] => true | e :: t => t.all fun f => f.partner == e.partner && f.use == e.use)

/-- At most four twin ports, to one module (R350). -/
def twinsOk (l : List PortMap) : Bool :=
  let m := l.filter fun e => e.use == 4
  decide (m.length ≤ 4) && (match m with | [] => true | e :: t => t.all fun f => f.partner == e.partner)

/-- The port map of a module entry keeps R330, R332, R337 and R350. -/
def Arrangement.mapOk (a : Arrangement) (m : ModuleEntry) : Bool :=
  let l := a.mapOf m
  (l.zipIdx.all fun (e, p) => a.useOk m.number p e && a.reciprocal m.number p e) && bundlesOk l && twinsOk l

/-- Check 0x0C for module `number` (R154, R337). -/
def checkDescriptor (a : Arrangement) (number : Nat) : List Finding :=
  need (a.modules.any fun m => m.number == number) 0x0C 16 ++ need a.placesOk 0x0C 0
    ++ need (a.modules.all fun m => a.mapOk m) 0x0C (16 + 8 * a.modules.length)

end Sys2Proof.Machine
end

