-- ==== Sys2Proof/Machine/Logical.lean ====
section
/-! DEFINITION. The LOGICAL_PROGRAM section: its records, their fields, and the checks 0x01, 0x06, 0x07 and 0x08 that they decide
(06_working_plan.md R155, R156, R435; 03 R65, R77, R85; 04 R90; 05 R123 to R130). -/

namespace Sys2Proof.Machine

open Sys2Proof

/-- A record: its TYPE, its offset in the section, and its bytes, head included. -/
structure LogicalRecord where
  type : Nat
  off : Nat
  bytes : List Byte
deriving DecidableEq, Repr

/-- The records of the section from offset `o`; none where a head or a length runs past its end. -/
def recordsFrom : Nat → Nat → List Byte → Option (List LogicalRecord)
  | 0, _, b => if b.isEmpty then some [] else none
  | n + 1, o, b =>
    let len := leAt 2 4 b
    if b.isEmpty then some []
    else if b.length < 8 ∨ len < 8 ∨ b.length < len then none
    else (recordsFrom n (o + len) (b.drop len)).map fun l => ⟨leAt 0 2 b, o, slice 0 len b⟩ :: l

/-- The records of the section. -/
def recordsOf (b : List Byte) : Option (List LogicalRecord) := recordsFrom (b.length / 8 + 1) 0 b

/-- The body. -/
def LogicalRecord.body (r : LogicalRecord) : List Byte := r.bytes.drop 8

/-- A field of the body. -/
def LogicalRecord.num (r : LogicalRecord) (o n : Nat) : Nat := leAt o n r.body

/-- The logical id. -/
def LogicalRecord.id (r : LogicalRecord) : Nat := r.num 0 4

/-- The context. -/
def LogicalRecord.ctx (r : LogicalRecord) : Nat := r.num 4 1

/-- `n` four-byte ids from a body offset. -/
def LogicalRecord.ids (r : LogicalRecord) (o n : Nat) : List Nat := (rows o 4 n r.body).map fun x => leNat x.2

/-- DIMS of a TENSOR. -/
def LogicalRecord.dims (r : LogicalRecord) : List Nat := (rows 16 8 (r.num 11 1) r.body).map fun x => leNat x.2

/-- BITMAP_DIGEST of a TENSOR. -/
def LogicalRecord.bitmapDigest (r : LogicalRecord) : List Byte := if r.num 9 1 = 2 then slice (16 + 8 * r.num 11 1) 64 r.body else zeros 64

/-- INPUTS of an OPERATION. -/
def LogicalRecord.inputs (r : LogicalRecord) : List Nat := r.ids 32 (r.num 12 1)

/-- OUTPUTS of an OPERATION. -/
def LogicalRecord.outputs (r : LogicalRecord) : List Nat := r.ids (32 + 4 * r.num 12 1) (r.num 13 1)

/-- REDUCTIONS of an OPERATION. -/
def LogicalRecord.reductionIds (r : LogicalRecord) : List Nat := r.ids (32 + 4 * (r.num 12 1 + r.num 13 1)) (r.num 14 1)

/-- Bytes of a tree of an ENSEMBLE: its level entries and its leaves (R85). -/
def LogicalRecord.treeBytes (e : Ensemble) : Nat := 8 * e.depth + 4 * 2 ^ e.depth

/-- The header of an ENSEMBLE, where R85 lists its values. -/
def LogicalRecord.ensemble (r : LogicalRecord) : Option Ensemble := ensembleOf (r.num 8 8)

/-- Trees of an ENSEMBLE (R85). -/
def LogicalRecord.trees (r : LogicalRecord) : Nat := if bits 63 48 (r.num 8 8) = 0 then 65536 else bits 63 48 (r.num 8 8)

/-- The body offset of a tree. -/
def LogicalRecord.treeOff (e : Ensemble) (t : Nat) : Nat := 64 + t * roundUp 64 (LogicalRecord.treeBytes e)

/-- Bytes that the fields of a body take (R435); zero bytes pad the rest. -/
def LogicalRecord.size (r : LogicalRecord) : Nat :=
  match r.type with
  | 1 => 16 + 8 * r.num 11 1 + (if r.num 9 1 = 2 then 64 else 0)
  | 2 => 32 + 4 * (r.num 12 1 + r.num 13 1 + r.num 14 1)
  | 3 => 40
  | 4 => 28
  | 5 => 16
  | 6 => 24
  | 7 => 16
  | 8 => match r.ensemble with | some e => LogicalRecord.treeOff e (r.trees - 1) + LogicalRecord.treeBytes e | none => 64
  | _ => 8

/-- A record before another: by type, then by id, which no two of a type share (R155). -/
def LogicalRecord.before (a b : LogicalRecord) : Bool := a.type < b.type || (a.type == b.type && decide (a.id < b.id))

/-- A format that the manual lists. -/
def formatListed (v : Nat) : Bool := (formatOf v).isSome

/-- A value in a range. -/
def inRange (lo hi v : Nat) : Bool := decide (lo ≤ v) && decide (v ≤ hi)

/-- Check 0x06 of the body of each type, by body offset (R435). -/
def LogicalRecord.fields (r : LogicalRecord) : List Finding :=
  let n := r.num
  let z (o k : Nat) : List Finding := need (blank o k r.body) 6 o
  match r.type with
  | 1 => need (formatListed (n 8 1)) 6 8 ++ need (decide (n 9 1 ≤ 2)) 6 9 ++ need (decide (n 10 1 < 4)) 6 10
      ++ need (inRange 1 8 (n 11 1)) 6 11 ++ z 13 3
      ++ need (r.dims.all fun d => inRange 1 (2 ^ 48) d) 6 16
  | 2 => need (inRange 1 11 (n 8 1)) 6 8 ++ need (if n 8 1 = 2 then (opcodes 1).contains (n 9 1) else n 9 1 == 0) 6 9
      ++ need (decide (n 10 1 ≤ 2)) 6 10 ++ need (decide (n 11 1 ≤ 1)) 6 11 ++ need (inRange 1 8 (n 12 1)) 6 12
      ++ need (inRange 1 4 (n 13 1)) 6 13 ++ need (decide (n 14 1 ≤ 8)) 6 14 ++ z 15 1
      ++ need (if n 8 1 = 2 then decide (n 24 8 < 65536) else n 24 8 == 0) 6 24
  | 3 => need (decide (n 8 1 ≤ 3)) 6 8 ++ need (decide (n 9 1 ≤ 2)) 6 9 ++ need (decide (n 10 1 ≤ 1)) 6 10 ++ z 11 5
      ++ need (inRange 1 (2 ^ 48) (n 16 8)) 6 16
  | 4 => need (decide (n 8 4 < 2 ^ 20)) 6 8 ++ need (inRange 1 2 (n 12 1)) 6 12 ++ need (decide (n 13 1 ≤ 2)) 6 13
      ++ need (decide (n 14 1 ≤ 2)) 6 14 ++ z 15 1 ++ need (n 14 1 == 1 || n 16 2 == 0) 6 16 ++ z 18 2
      ++ need (n 14 1 == 1 || n 20 4 == 0) 6 20
  | 5 => need (inRange 1 12 (n 8 1)) 6 8 ++ z 9 7
  | 6 => need (decide (n 8 2 < 4096)) 6 8 ++ need (decide (n 10 1 ≤ 1)) 6 10 ++ need (inRange 1 (if n 10 1 = 1 then 1 else 8) (n 11 1)) 9 11
      ++ need (inRange 1 65536 (n 12 4)) 9 12
  | 7 => need (decide (n 8 2 < 4096)) 6 8 ++ need (inRange 2 8 (n 10 1)) 9 10 ++ z 11 1
  | 8 =>
    let h := n 8 8
    need (bits 47 28 h == 0 && bits 11 4 h == 0) 6 8 ++ need r.ensemble.isSome 7 8 ++ z 16 48
      ++ (match r.ensemble with
        | none => []
        | some e => ((List.range r.trees).map fun t =>
            let o := LogicalRecord.treeOff e t
            checkRows (rows o 8 e.depth r.body) (fun o x => need (bits 30 12 (leNat x) == 0) 6 o)
              ++ (if t + 1 = r.trees then [] else
                z (o + LogicalRecord.treeBytes e) (LogicalRecord.treeOff e (t + 1) - o - LogicalRecord.treeBytes e))).flatten)
  | _ => [(6, 0)]

/-- Checks 0x01 and 0x06 of a record of a plan with this context mask (R155, R435). -/
def LogicalRecord.check (mask : Nat) (r : LogicalRecord) : List Finding :=
  need (decide (r.size ≤ r.body.length)) 1 r.off ++ need (r.bytes.length % 8 == 0) 6 (r.off + 2) ++ need (blank 6 2 r.bytes) 6 (r.off + 6)
    ++ need (decide (r.ctx < 16) && bit r.ctx mask) 6 (r.off + 12) ++ need (blank 5 3 r.body) 6 (r.off + 13)
    ++ r.fields.map (fun f => (f.1, r.off + 8 + f.2)) ++ need ((r.body.drop r.size).all (· == 0)) 6 (r.off + 8 + r.size)

/-! ## Ids and operations -/

/-- The record of a type with an id. -/
def recordOf (l : List LogicalRecord) (type id : Nat) : Option LogicalRecord := l.find? fun r => r.type == type && r.id == id

/-- An id names a record of a type. -/
def names (l : List LogicalRecord) (type id : Nat) : Bool := (recordOf l type id).isSome

/-- No id. -/
def noId : Nat := 0xFFFFFFFF

/-- The type of record that REF of an operation's KIND names (R435). -/
def refType (kind : Nat) : Option Nat :=
  if kind = 4 then some 5 else if kind = 6 then some 8 else if kind = 7 ∨ kind = 8 then some 6 else if kind = 9 then some 7 else none

/-- The format of a tensor. -/
def tensorFormat (l : List LogicalRecord) (id : Nat) : Option Format := (recordOf l 1 id).bind fun r => formatOf (r.num 8 1)

/-- A matrix product of tensors A and B is one that the engine accepts: their pair, the form of B and A dense (R65,
R90). -/
def productOk (l : List LogicalRecord) (ins : List Nat) : Bool :=
  match ins with
  | a :: b :: _ =>
    match recordOf l 1 a, recordOf l 1 b with
    | some a, some b =>
      let d : Desc := { descOf 0 with aFmt := a.num 8 1, bFmt := b.num 8 1, form := b.num 9 1 }
      a.num 9 1 == 0 && (tileOf d).isSome
    | _, _ => true
  | _ => false

/-- A rounding mode suits a target format (R77). -/
def roundingSuits (rm : Nat) (f : Format) : Bool := if f.isInt then rm != 1 else rm != 2

/-- An operation converts to its output tensors: a matrix product, a conversion, and a vector operation VCVT or VCVB (R77). -/
def converts (r : LogicalRecord) : Bool :=
  r.num 8 1 == 1 || r.num 8 1 == 3 || (r.num 8 1 == 2 && (r.num 9 1 == 0x30 || r.num 9 1 == 0x31))

/-- An operation reduces: matrix products, reductions, the combine over rank, VRED, and ensembles of FP32 leaves (R125). -/
def reduces (l : List LogicalRecord) (r : LogicalRecord) : Bool :=
  let k := r.num 8 1
  k == 1 || k == 5 || k == 8 || (k == 2 && r.num 9 1 == 0x48)
    || (k == 6 && ((recordOf l 8 (r.num 20 4)).bind LogicalRecord.ensemble).any fun e => e.leafFmt == 10)

/-- Checks 0x06, 0x07 and 0x08 of an OPERATION (R65, R77, R90, R127, R435). -/
def checkOperation (l : List LogicalRecord) (r : LogicalRecord) : List Finding :=
  let kind := r.num 8 1
  let ref := r.num 20 4
  let at_ (o : Nat) : Nat := r.off + 8 + o
  need (match refType kind with | none => ref == noId | some _ => true) 6 (at_ 20)
    ++ need (match refType kind with | none => true | some t => names l t ref) 7 (at_ 20)
    ++ need (r.num 16 4 == noId || names l 4 (r.num 16 4)) 7 (at_ 16)
    ++ need ((r.inputs ++ r.outputs).all fun t => names l 1 t) 7 (at_ 32)
    ++ need (kind != 1 || productOk l r.inputs) 7 (at_ 32)
    ++ need (!converts r || r.outputs.all fun t => match tensorFormat l t with | some f => roundingSuits (r.num 10 1) f | none => true) 7 (at_ 10)
    ++ need (r.reductionIds.all fun i => names l 3 i) 8 (at_ (32 + 4 * (r.num 12 1 + r.num 13 1)))
    ++ need (!reduces l r || r.num 14 1 != 0) 8 (at_ 14)

/-- An INT32 scalar tensor. -/
def scalarCounter (l : List LogicalRecord) (id : Nat) : Bool :=
  match recordOf l 1 id with
  | some r => formatOf (r.num 8 1) == some .int32 && r.dims.all (· == 1)
  | none => false

/-- COUNTER of a KERF_STREAM is what its STEP_SOURCE asks for, and the batch counter of a context is one tensor (R130, R435). -/
def checkCounter (l : List LogicalRecord) (intake : Nat → Bool) (r : LogicalRecord) : List Finding :=
  let src := r.num 13 1
  let id := r.num 24 4
  let wants : Bool := src == 2 || (src == 1 && !intake r.ctx)
  need (if wants then scalarCounter l id else id == noId) 7 (r.off + 32)
    ++ need (!(src == 1 && wants) || l.all fun x =>
      !(x.type == 4 && x.ctx == r.ctx && x.num 13 1 == 1) || x.num 24 4 == id) 7 (r.off + 32)

/-- A tensor is an operand of a matrix product: A or B (R435). -/
def matrixOperand (l : List LogicalRecord) (id : Nat) : Bool := l.any fun x => x.type == 2 && x.num 8 1 == 1 && (x.inputs.take 2).contains id

/-- The checks that a record's ids decide (R435): RED_DIM is an axis of a tensor used as a matrix operand, and 0xFF of any other. -/
def checkIds (l : List LogicalRecord) (intake : Nat → Bool) (r : LogicalRecord) : List Finding :=
  match r.type with
  | 1 => need (if matrixOperand l r.id then decide (r.num 12 1 < r.num 11 1) else r.num 12 1 == 0xFF) 6 (r.off + 20)
  | 2 => checkOperation l r
  | 4 => checkCounter l intake r
  | 6 => need (names l 1 (r.num 20 4)) 6 (r.off + 28)
  | 7 => need (names l 2 (r.num 12 4)) 6 (r.off + 20)
  | _ => []

/-- The checks of the section, with the context mask and the contexts that carry INTAKE. -/
def checkLogical (mask : Nat) (intake : Nat → Bool) (b : List Byte) : List Finding :=
  match recordsOf b with
  | none => [(1, 0)]
  | some l =>
    need (rising LogicalRecord.before l) 6 0 ++ (l.map fun r => r.check mask ++ checkIds l intake r).flatten

/-- Elements of a TENSOR. -/
def LogicalRecord.elements (r : LogicalRecord) : Nat := r.dims.foldl (· * ·) 1

/-- Bytes of a TENSOR's elements, packed (R67). -/
def tensorBytes (r : LogicalRecord) : Nat := match formatOf (r.num 8 1) with | some f => packedLen f r.elements | none => 0

/-- Check 0x07 of result lengths: the result tensor of an intake context is exactly RESULT_LENGTH bytes long (R141, R253). -/
def resultsOk (l : List LogicalRecord) (intake : List IntakeEntry) (results : List (Nat × Nat)) : Bool :=
  results.all fun x => match intake.find? fun e => e.ctx == x.1, recordOf l 1 x.2 with
    | some e, some r => tensorBytes r == e.resultLength
    | some _, none => false
    | none, _ => true

/-- Check 0x08 of splits over steps (R129): the parts of a reduction are whole subtrees of R126, so that each begins with a grain and
ends with one or with the last element. DEDUCED, log entry 26. -/
def splitsOk (l : List LogicalRecord) (splits : List (Nat × List (Nat × Nat))) : Bool :=
  splits.all fun x => match recordOf l 3 x.1 with
    | some r => x.2.all fun q => q.1 % 32 == 0 && ((q.1 + q.2) % 32 == 0 || q.1 + q.2 == r.num 16 8)
    | none => false

/-! ## What the section gives the plan -/

/-- A REDUCTION (R125). -/
def readReduction (r : LogicalRecord) : Reduction :=
  ⟨r.id, r.ctx, r.num 8 1, r.num 9 1, r.num 10 1 == 1, r.num 16 8, ofField 64 (r.num 24 8), r.num 32 8⟩

/-- A KERF_STREAM (R130, R132). -/
def readKerf (r : LogicalRecord) : KerfStream :=
  ⟨r.ctx, r.num 8 4, if r.num 12 1 = 2 then 32 else 16, r.num 13 1, r.num 14 1, r.num 16 2, r.num 20 4, r.num 24 4⟩

/-- A CAPACITY group (R101, R104), with the dispatch shards that the FORKS section gives it. -/
def readGroup (shards : List (Nat × Nat)) (r : LogicalRecord) : CapGroup :=
  let n := r.num 8 2
  { number := n, ctx := r.ctx, capacity := r.num 12 4, ranks := r.num 11 1, policy := r.num 10 1, consumer := r.num 16 4
    router := r.num 20 4, shards := match shards.find? fun x => x.1 == n with | some x => x.2 | none => 1 }

/-- The records of a type, read. -/
def readType {α : Type} (b : List Byte) (type : Nat) (f : LogicalRecord → α) : List α :=
  ((recordsOf b).getD []).filterMap fun r => if r.type = type then some (f r) else none

end Sys2Proof.Machine
end

