-- ==== Sys2Proof/Machine/Paths.lean ====
section
/-! DEFINITION. The paths of a bench program that plan verification follows (06_working_plan.md R46, R156, R165, R168, R173, R175;
04_sparsity_and_forks.md R115): the bundles of each beat, in every variant. -/

namespace Sys2Proof.Machine

open Sys2Proof

/-- Where a sequencer is on a path: its next bundle, its loop counters, the pages of bundle memory, whether a guest's bundles issue, the
nominal beat of the step that it is in, the fork and variant that it runs, whether the beat is the first after K, the pages that are not
resident in that beat, the cycle of the step up to which each refilled page is busy, and what HGET has bound, by entry and unit. -/
structure Walk where
  pc : Nat
  loops : Tab Nat
  pages : List (Nat × List Byte)
  guest : Bool
  beat : Nat
  variant : Option (Nat × Nat)
  afterK : Bool
  absent : List Nat
  busy : Tab Nat
  binds : List (Nat × Nat)
deriving DecidableEq, Repr

/-- A path at a step entry. -/
def Walk.start (pc : Nat) (pages : List (Nat × List Byte)) : Walk :=
  { pc := pc, loops := [], pages := pages, guest := false, beat := 0, variant := none, afterK := false, absent := [], busy := [], binds := [] }

/-- The bundle at the next address, where its page is known. -/
def Walk.bundle (w : Walk) : Option Nat :=
  (w.pages.find? fun x => x.1 == w.pc / 256).map fun x => leNat (slice (32 * (w.pc % 256)) 32 x.2)

/-- A page is brought in from a unit of bench store by a BREF of cycle `now` of the step: its bundles are those that the plan puts there,
where it says, and it is busy for 136 cycles (R175). -/
def Walk.refill (w : Walk) (x : BenchProgram) (now page unit : Nat) : Walk :=
  let rest := w.pages.filter fun y => y.1 != page
  { w with absent := page :: w.absent, busy := Tab.ins page (now + 136) w.busy
           pages := match x.more.find? fun y => y.1 == unit with | some y => (page, y.2) :: rest | none => rest }

/-- The operation table entry that a field of a slot names. -/
def namedDesc (b : BenchProgram) (n : Nat) : Desc := descOf (match b.table.find? fun x => x.1 == n with | some x => x.2 | none => 0)

/-- The bytes of bench store that the matrix slot of a bundle addresses, as unit and length (R169, R174): the first row or column of each
operand, whose further ones lie where no field says, and the addresses that DESC gives. -/
def matrixSpans (x : BenchProgram) (v : Nat) : List (Nat × Nat) :=
  let op := bits 47 42 v
  let d := namedDesc x (bits 41 34 v)
  let a := bits 33 20 v
  let b := bits 19 6 v
  match tileOf d with
  | none => if op = 0 then [] else [(a, 1), (b, 1)]
  | some t =>
    let scales : List (Nat × Nat) := (if d.scaledA then [(d.aScale, 1)] else []) ++ (if d.scaledB then [(d.bScale, 1)] else [])
    match op with
    | 1 => [(a, packedLen t.a 32), (b, packedLen t.b (if d.form = 1 then 16 else 32))] ++ scales
    | 2 => [(a, packedLen t.a 16), (b, packedLen t.b 256), (d.bitmap, 8)] ++ scales
    | 3 => [(a, 256)]
    | 4 => (b, match formatOf d.outFmt with | some f => packedLen f 16 | none => 1) :: scales ++ (if d.scaledOut then [(d.outScale, 1)] else [])
    | 5 => [(b, 256)]
    | _ => []

/-- The bytes of bench store that a bundle addresses, as unit and length (R169 to R175, R198). -/
def addressesOf (p : Plan) (x : BenchProgram) (w : Nat) : List (Nat × Nat) :=
  let v := slotOf w 2
  let h := slotOf w 3
  let a := bits 41 28 v
  let id := bits 7 0 v
  let move : List (Nat × Nat) := match opcodeOf w 2 with
    | 0 => []
    | 3 => [(a, 128 * (id + 1)), (bits 21 8 v, 128 * (id + 1))]
    | 4 => [(a, match p.routes.find? fun r => r.source == x.bench && r.id == id with | some r => r.length | none => 1)]
    | 5 => [(a, match p.routes.find? fun r => r.dest == x.bench && r.bind == id with | some r => r.length | none => 1)]
    | 6 => [(a, match p.memory.windows.find? fun d => d.bench == x.bench && d.id == id with
        | some d => roundUp 128 (8 * d.n) + d.n * 2 ^ d.record + (if d.write then 0 else 8)
        | none => 1)]
    | 7 => [(a, 128 * (id + 1))]
    | 8 => [(a, 8192)]
    | _ => [(a, 512)]
  let haul : List (Nat × Nat) := match opcodeOf w 3 with
    | 0 => []
    | 3 => [(bits 14 1 h, 16)]
    | _ => [(bits 14 1 h, match p.sched.entries.find? fun e => e.1 == 32768 * bits 33 30 h + bits 29 15 h with | some e => e.2.length | none => 1)]
  let vector : List (Nat × Nat) := if opcodeOf w 1 = 0x31 then [((namedDesc x (bits 7 0 (slotOf w 1))).outScale, 4)] else []
  matrixSpans x (slotOf w 0) ++ vector ++ move ++ haul
    ++ (if opcodeOf w 4 = 0x0B then [(bits 13 0 (slotOf w 4), 16 * bits 49 38 (slotOf w 4))] else [])

/-- Everything that a bundle addresses lies in the range of its context on the bench (R165). -/
def inRangeOf (p : Plan) (l : List StoreRange) (x : BenchProgram) (w : Walk) (bundle : Nat) : Bool :=
  match l.find? fun r => r.bench == x.bench && r.guest == w.guest with
  | none => true
  | some r => (addressesOf p x bundle).all fun a => decide (r.first ≤ 128 * a.1) && decide (128 * a.1 + a.2 ≤ r.first + r.length)

/-- What HGET binds in a bundle: the entry, by 32768 × port + entry, and the unit (R172). -/
def bindOf (bundle : Nat) : Option (Nat × Nat) :=
  let h := slotOf bundle 3
  if opcodeOf bundle 3 = 2 then some (32768 * bits 33 30 h + bits 29 15 h, bits 14 1 h) else none

/-- No two RECV entries of one step bind overlapping receive addresses (R300). -/
def bindOk (p : Plan) (w : Walk) (x : Nat × Nat) : Bool :=
  let len (k : Nat) : Nat := match p.sched.entries.find? fun e => e.1 == k with | some e => e.2.length | none => 1
  w.binds.all fun y => y.1 == x.1 || decide (128 * x.2 + len x.1 ≤ 128 * y.2) || decide (128 * y.2 + len y.1 ≤ 128 * x.2)

/-- Cycles that a vector opcode keeps the unit of reciprocals, roots, quotients and logarithms (R80, R170): no other of them issues in
these. -/
def unitCycles (op : Nat) : Nat := if 0x38 ≤ op ∧ op ≤ 0x3C then 4 else if op = 0x3D then 8 else 0

/-- Where a path goes on behind a bundle: the next bundle of the beat; the paths that the next beat begins with; or nothing, behind
STEP. -/
inductive Next where
  | bundle (w : Walk)
  | beat (l : List Walk)
  | step
deriving DecidableEq, Repr

/-- The control slot of a bundle on a path (R173): a FORK goes on at K with each variant of its fork, and a BKFL with the guest's units at
E_v and, at J, with the home program. A beat has `cycles` cycles. -/
def Walk.next (w : Walk) (forks : List ForkPoint) (cycles bundle : Nat) : Next :=
  let v := slotOf bundle 4
  let arg := bits 49 38 v
  let target := bits 37 26 v
  let go (a : Nat) : Walk := { w with pc := a % 4096 }
  let begin_ (a beat : Nat) : Walk :=
    let busy := w.busy.filter fun (e : Nat × Nat) => decide (cycles * beat < e.2)
    { w with pc := a % 4096, beat := beat, afterK := false, absent := busy.map Prod.fst, busy := busy }
  match opcodeOf bundle 4 with
  | 1 => .beat [begin_ (w.pc + 1) (w.beat + 1)]
  | 2 => .step
  | 3 => .bundle (go target)
  | 4 => .bundle { go (w.pc + 1) with loops := Tab.put 0 (arg % 16) (bits 25 0 v) w.loops }
  | 5 =>
    let n := Tab.get 0 (arg % 16) w.loops
    if n = 0 then .bundle (go (w.pc + 1)) else .bundle { go target with loops := Tab.put 0 (arg % 16) (n - 1) w.loops }
  | 9 => .beat (match forks.find? fun f => f.number == arg with
    | some f => (List.range f.variants).map fun k => { begin_ (target + 8 * k) (f.k / 16) with afterK := true, variant := some (arg, k) }
    | none => [])
  | 10 => match forks.find? fun f => f.number == arg with
    | some f => .beat [{ begin_ (bits 11 0 v) (f.j / 16) with variant := none }, { begin_ target (w.beat + 1) with guest := true, variant := none }]
    | none => .beat []
  | _ => .bundle (go (w.pc + 1))

/-- A FORK issues in the beat that ends at K, and a BKFL in the one that ends at E_v of its variant (R173). -/
def Walk.placed (w : Walk) (forks : List ForkPoint) (bundle : Nat) : Bool :=
  let op := opcodeOf bundle 4
  if op ≠ 9 ∧ op ≠ 10 then true
  else match forks.find? fun f => f.number == bits 49 38 (slotOf bundle 4) with
    | none => false
    | some f =>
      if op = 9 then 16 * (w.beat + 1) == f.k
      else match w.variant with
        | some (n, v) => n == f.number && 16 * (w.beat + 1) == f.ends.getD v f.j
        | none => false

/-- A beat of a path, a bundle in each of the cycles left of the C − 8 that it may plan (R46, R168): the codes of R156 that fail in it, and
the paths of the next beat. `busy` counts the cycles for which the unit of `unitCycles` is taken. Where the plan does not say what a page
holds, the path is not followed further. -/
def walkBeat (p : Plan) (x : BenchProgram) (l : List StoreRange) (cycles : Nat) : Nat → Nat → Walk → List Nat × List Walk
  | 0, _, _ => ([0x0B], [])
  | n + 1, busy, w =>
    let resident := !w.afterK || ((w.pages.any fun y => y.1 == w.pc / 256) && !w.absent.contains (w.pc / 256))
    match w.bundle with
    | none => (if resident then [] else [0x09], [])
    | some b =>
      let wants := unitCycles (opcodeOf b 1)
      let codes := (if resident && w.placed p.forks b then [] else [0x09]) ++ (if wants ≠ 0 ∧ busy ≠ 0 then [0x0B] else [])
        ++ (if inRangeOf p l x w b then [] else [0x0D]) ++ (if (bindOf b).all (bindOk p w) then [] else [0x0B])
      let m := slotOf b 2
      let w := match bindOf b with | some y => { w with binds := y :: w.binds } | none => w
      let w := if opcodeOf b 2 = 8 then w.refill x (cycles * w.beat + (cycles - 9 - n)) (bits 3 0 m) (bits 41 28 m) else w
      match w.next p.forks cycles b with
      | .bundle w =>
        let r := walkBeat p x l cycles n (if wants = 0 then busy - 1 else wants - 1) w
        (codes ++ r.1, r.2)
      | .beat t => (codes, t)
      | .step => (codes, [])

/-- The beats of a step on every path (R52, R173): a home program that has not come to STEP by its last beat has planned too much. -/
def walkStep (p : Plan) (x : BenchProgram) (l : List StoreRange) (cycles : Nat) : Nat → List Walk → List Nat
  | 0, t => if t.all Walk.guest then [] else [0x0B]
  | n + 1, t =>
    let r := t.map (walkBeat p x l cycles (cycles - 8) 0)
    (r.map Prod.fst).flatten ++ (if (r.map Prod.snd).flatten = [] then [] else walkStep p x l cycles n (r.map Prod.snd).flatten.eraseDups)

/-- The codes that fail on the paths of a bench program from its step entries: 0x09 for a bundle of the first beat after K that is not
resident at K, its page under refill there too (R115, R175), and for a FORK or BKFL in another beat than its own (R173); 0x0B for planned
cycles above C − 8, a unit's rate and receive addresses that overlap (R46, R168, R300); and 0x0D for bytes of another context (R165). -/
def pathCodes (p : Plan) (l : List StoreRange) (x : BenchProgram) : List Nat :=
  (x.entries.map fun e => walkStep p x l (beatCycles e.1) (p.stepLen / 16) [Walk.start e.2 x.pages]).flatten

end Sys2Proof.Machine
end

