-- ==== Sys2Proof/Machine/Verify.lean ====
section
/-! DEFINITION. Checks of plan verification that one section decides with the rest of the plan (06_working_plan.md R156 and the rules
it names): header, power profiles, memory, intake, weight binding, haul schedule, forks and bundles. -/

namespace Sys2Proof.Machine

open Sys2Proof

/-! ## Header and signature block (R150, R153) -/

/-- Checks 0x06, 0x07, 0x0A and 0x0B of the header; it counts as section 0 (log entry 26). -/
def checkHeader (b : List Byte) : List Finding :=
  let n := fun o k => leAt o k b
  need (inRange 1 254 (n 0x20 1)) 7 0x20 ++ need (inRange 1 15 (n 0x21 1)) 6 0x21
    ++ need (n 0x24 4 % 16 == 0 && inRange 256 1048576 (n 0x24 4)) 0x0B 0x24
    ++ need (n 0x28 2 % 16 == 0 && inRange 16 4096 (n 0x28 2)) 0x0B 0x28 ++ need (n 0x2A 2 % 16 == 0) 6 0x2A
    ++ need (inRange 1 4096 (n 0x2C 2)) 6 0x2C ++ need (n 0x30 2 != 0) 6 0x30 ++ need (inRange 200 1980 (n 0x32 2)) 0x0A 0x32
    ++ need (blank 0x34 12 b) 6 0x34 ++ need (blank 0x80 384 b) 6 0x80

/-- Check 0x06 of the signature block. -/
def checkSignatureBlock (b : List Byte) : List Finding :=
  need (blank 5 3 b && blank 12 4 b && blank 0x50 48 b) 6 0

/-! ## Power profiles (R29, R116, R433) -/

/-- Modelled load-side power of a stage. -/
def stageLevel (g : PowerStage) : Nat := g.nonBench + g.bench.sum

/-- A level from a position on. -/
abbrev Edge := Nat × Nat

/-- Every edge changes the level by at most 120 W (R29). -/
def edgesSmall : List Edge → Bool
  | [] => true
  | [_] => true
  | a :: b :: t => decide (a.2 - b.2 ≤ 120) && decide (b.2 - a.2 ≤ 120) && edgesSmall (b :: t)

/-- From a level that ends at position `e`, every later level lies within the ramp of `w` W per ms, over 100 µs at least (R29, R433):
1 ms is 118,750 ticks. -/
def rampFrom (w level e : Nat) (l : List Edge) : Bool :=
  l.all fun x => decide ((x.2 - level + (level - x.2)) * 118750 ≤ w * max 11875 (x.1 - e))

/-- The level as a function of nominal time keeps R29. -/
def rampKept (w : Nat) : List Edge → Bool
  | [] => true
  | a :: t => (match t with | [] => true | b :: _ => rampFrom w a.2 b.1 t) && rampKept w t

/-- A timeline keeps R29 in its edges and over its intervals. -/
def timelineOk (w : Nat) (l : List Edge) : Bool := edgesSmall l && rampKept w l

/-- The stages of a list as edges, from a position. -/
def edgesAt (o : Nat) (l : List PowerStage) : List Edge := l.map fun g => (o + g.position, stageLevel g)

/-- The level in force at a position: that of the last edge at or before it. -/
def levelAt (l : List Edge) (pos : Nat) (start : Nat) : Nat := match (l.filter fun x => x.1 ≤ pos).getLast? with | some x => x.2 | none => start

/-- The ways in which a step runs: a variant of every fork point (R113). -/
def takings : List ForkPoint → List (List (ForkPoint × Nat))
  | [] => [[]]
  | x :: t => (takings t).flatMap fun l => (List.range x.variants).map fun v => (x, v) :: l

/-- The fork region of context `c` at a position, with the variant taken. -/
def forkIn (taken : List (ForkPoint × Nat)) (pos c : Nat) : Option (Nat × Nat) :=
  (taken.find? fun x => x.1.ctx == c && decide (x.1.k ≤ pos) && decide (pos < x.1.j)).map fun x => (x.1.number, x.2)

/-- The level of a step profile at a position (R433): between K and J the stages of the variant taken replace the common ones. -/
def levelIn (f : PowerProfile) (taken : List (ForkPoint × Nat)) (pos : Nat) : Nat :=
  let stage (c : Nat) : Option PowerStage := stepStage f.step pos (forkIn taken pos c)
  let forked := ((List.range 16).find? fun c => (forkIn taken pos c).isSome).getD 16
  match stage forked with
  | none => f.idle
  | some g => g.nonBench + ((List.range 16).map fun c => match stage c with | some h => h.bench.getD c 0 | none => 0).sum

/-- The level of a step of S ticks, edge by edge, as it runs with the variants taken (R433). -/
def stepEdges (f : PowerProfile) (stepLen : Nat) (taken : List (ForkPoint × Nat)) : List Edge :=
  let common := (f.step.filter fun g => g.fork == 0xFFFF).map PowerStage.position
  let ofFork (x : ForkPoint × Nat) : List Nat :=
    x.1.k :: x.1.j :: ((f.step.filter fun g => g.fork == x.1.number && g.variant == x.2).map PowerStage.position).filter fun q =>
      decide (x.1.k ≤ q) && decide (q < x.1.j)
  ((0 :: common ++ taken.flatMap ofFork).filter fun q => decide (q < stepLen)).foldl (fun t q => Tab.ins q (levelIn f taken q) t) []

/-- No level of a step exceeds a later one by more than 120 W (R33). -/
def fallsOk : List Edge → Bool
  | [] => true
  | a :: t => (t.all fun b => decide (a.2 ≤ b.2 + 120)) && fallsOk t

/-- Edges moved by a number of ticks. -/
def shift (o : Nat) (l : List Edge) : List Edge := l.map fun e => (o + e.1, e.2)

/-- Positions of a list of stages rise, strictly. -/
def positionsRise (l : List PowerStage) : Bool := rising (fun a b => decide (a.position < b.position)) l

/-- The step stages in order: the common ones first, then each variant's in (FORK, VARIANT) order, each rising (R433). -/
def stepOrdered (l : List PowerStage) : Bool :=
  let key (g : PowerStage) : Nat := if g.fork = 0xFFFF then 0 else 1 + 8 * g.fork + g.variant
  rising (fun a b => key a < key b || (key a == key b && decide (a.position < b.position))) l

/-- The timelines of a profile over which R29 is checked: the ramp-up into the step that it ends in and the next one, a step into
the next, and a step into the ramp-down, each with every variant of every fork (R116, R433). -/
def timelines (f : PowerProfile) (stepLen : Nat) (forks : List ForkPoint) : List (List Edge) :=
  let steps := (takings forks).map (stepEdges f stepLen)
  let up := (0, f.idle) :: edgesAt 0 f.up.dropLast
  let last := lastPosition f.up
  let pos := last % stepLen
  let base := last - pos
  (steps.flatMap fun a => steps.map fun b =>
      up ++ (last, levelAt a pos f.idle) :: shift base (a.filter fun e => pos < e.1) ++ shift (base + stepLen) b)
    ++ (steps.flatMap fun a => steps.map fun b => a ++ shift stepLen b)
    ++ steps.map fun a => a ++ shift stepLen (edgesAt 0 f.down)

/-- A context's share of the ramp-up on its own, from zero (R433). -/
def shareEdges (f : PowerProfile) (c : Nat) : List Edge := (0, 0) :: f.up.map fun g => (g.position, g.bench.getD c 0)

/-- The switch from one point to another (R433): the old step-end level through the first beat, then the new point's step, each with
every variant of every fork. -/
def switchEdges (f g : PowerProfile) (stepLen : Nat) (forks : List ForkPoint) : List (List Edge) :=
  (takings forks).flatMap fun x => (takings forks).map fun y =>
    let new := stepEdges g stepLen y
    (0, levelAt (stepEdges f stepLen x) stepLen f.idle) :: (16, levelAt new 16 g.idle) :: new.filter fun e => 16 < e.1

/-- Check 0x0A of one point's profile (R29, R33, R116, R433). -/
def profileOk (p : Plan) (f : PowerProfile) : Bool :=
  positionsRise f.up && stepOrdered f.step && positionsRise f.down
    && (f.up.head?.any fun g => g.position == 0) && (f.down.getLast?.any fun g => stageLevel g == f.idle)
    && (timelines f p.stepLen p.forks).all (timelineOk p.ramp)
    && ((takings p.forks).all fun x => fallsOk (stepEdges f p.stepLen x))
    && ((List.range 16).all fun c => timelineOk p.ramp (shareEdges f c))
    && p.profiles.all fun g => g.point == f.point || (switchEdges f g p.stepLen p.forks).all (timelineOk p.ramp)

/-- Check 0x0A of a profile's section. -/
def checkRamp (p : Plan) (point : Nat) : List Finding :=
  need ((p.profiles.filter fun f => f.point == point).all (profileOk p)) 0x0A 0

/-! ## Memory (R187 to R200, R215, R231) -/

/-- A span lies wholly in HBM. -/
def hbmSpan (a n : Nat) : Bool := decide (a + n ≤ 0x00F000000000)

/-- A span lies wholly in the DDR tier below the plan stage (R158, R184). -/
def ddrSpan (a n : Nat) : Bool := decide (0x020000000000 ≤ a) && decide (a + n ≤ 0x03FE00000000)

/-- Two spans overlap. -/
def spansMeet (a n b m : Nat) : Bool := decide (a < b + m) && decide (b < a + n)

/-- A context is one that the plan defines. -/
def ctxDefined (p : Plan) (c : Nat) : Bool := decide (c < 16) && bit c p.mask

/-- A context may write its weights (R215). -/
def writable (p : Plan) (c : Nat) : Bool := p.bindings.any fun b => b.ctx == c && b.writable

/-- FORK and VARIANTS of a script entry or window (R192). -/
def forkFieldOk (v fork : Nat) : Bool := if fork = 0xFFFF then v == 0xFF else decide (fork < 4096)

/-- A region entry (R190, R165). -/
def checkRegion (p : Plan) (o : Nat) (b : List Byte) : List Finding :=
  let r := readRegion b
  need (ctxDefined p r.ctx) 6 o ++ need (decide (r.kind ≤ 8)) 6 (o + 1) ++ need (blank 2 6 b) 6 (o + 2)
    ++ need (r.base % 65536 == 0) 6 (o + 8) ++ need (r.length % 65536 == 0) 6 (o + 16) ++ need (blank 24 8 b) 6 (o + 24)
    ++ need (ddrSpan r.base r.length || (hbmSpan r.base r.length && r.kind != 5 && r.kind != 6)) 0x0D (o + 8)
    ++ need (p.memory.regions.all fun x => x.ctx == r.ctx || !spansMeet x.base x.length r.base r.length) 0x0D (o + 8)

/-- Positions that the worst-case list of a window takes on one pseudo-channel or subchannel (R200). -/
def recordCost (d : GatherDesc) : Nat := (if d.ctrl = 20 then 20 else 48) + ceilDiv (2 ^ d.record) 2048 - 1

/-- A region holds weights (R190, R215). -/
def holdsWeights (r : MemRegion) : Bool := r.kind == 0 || r.kind == 5

/-- A window descriptor (R197, R165, R200, R215). -/
def checkWindow (p : Plan) (o : Nat) (b : List Byte) : List Finding :=
  let d := readWindow b
  need (decide (d.ctrl ≤ 20)) 6 o ++ need (decide (leAt 1 1 b ≤ 1)) 6 (o + 1) ++ need (ctxDefined p d.ctx) 6 (o + 2)
    ++ need ((p.memory.windows.filter fun x => x.bench == d.bench && x.id == d.id).length == 1) 6 (o + 3)
    ++ need (decide (d.bench < 768)) 6 (o + 4) ++ need (inRange 1 4096 d.n) 6 (o + 8) ++ need (inRange 5 14 d.record) 6 (o + 10)
    ++ need (forkFieldOk d.variants (leAt 22 2 b)) 6 (o + 20) ++ need (blank 21 1 b) 6 (o + 21)
    ++ need (inRange 1 (dataPositions (d.ctrl == 20)) d.positions) 6 (o + 24) ++ need (blank 26 6 b) 6 (o + 26)
    ++ (match p.memory.regions[d.region]? with
      | none => [(0x0D, o + 6)]
      | some r => need (ddrSpan r.base r.length || hbmSpan r.base r.length) 6 (o + 6) ++ need (r.ctx == d.ctx) 0x0D (o + 6) ++ need (!(d.write && holdsWeights r) || writable p d.ctx) 0x0D (o + 1))
    ++ need (decide (2 + ceilDiv (d.n * recordCost d) (max 1 d.positions) ≤ d.length)) 0x0B (o + 16)

/-- A script entry (R187, R192, R165, R215). -/
def checkScript (p : Plan) (o : Nat) (b : List Byte) : List Finding :=
  let e := readScript b
  let n := 128 * e.units
  let tier (ddr : Bool) (a : Nat) : Bool := if ddr then ddrSpan a n else hbmSpan a n
  let others (a : Nat) : Bool := p.memory.regions.any fun r => r.ctx != e.ctx && spansMeet r.base r.length a n
  let weights (a : Nat) : Bool := p.memory.regions.any fun r => holdsWeights r && spansMeet r.base r.length a n
  need (decide (e.ctrl ≤ 20)) 6 o ++ need (inRange 1 3 e.kind) 6 (o + 1) ++ need (ctxDefined p e.ctx) 6 (o + 2)
    ++ need (forkFieldOk e.variants (leAt 4 2 b)) 6 (o + 3) ++ need (blank 6 2 b) 6 (o + 6) ++ need (1 ≤ e.beats) 6 (o + 12)
    ++ need (e.addr % 128 == 0 && tier (e.ctrl == 20) e.addr) 6 (o + 16)
    ++ need (if e.kind = 3 then e.bench == 0xFFFF else decide (e.bench < 768)) 6 (o + 28)
    ++ need (e.kind == 3 || decide (e.baddr < 16384)) 6 (o + 30)
    ++ need (if e.kind = 3 then tier (e.ctrl != 20) e.addr2 else e.addr2 == 0) 6 (o + 32) ++ need (blank 40 8 b) 6 (o + 40)
    ++ need (!(others e.addr || (e.kind == 3 && others e.addr2))) 0x0D (o + 16)
    ++ need (!((e.kind == 2 && weights e.addr) || (e.kind == 3 && weights e.addr2)) || writable p e.ctx) 0x0D (o + 1)

/-- Positions that one context uses on a channel in a beat: those of the common schedule, and between K and J of a fork those of the
variant that uses most (R113, R194); and those of entries and windows that reach over the end of the step before. -/
def ctxUse (p : Plan) (c beat ch : Nat) : Nat :=
  let use (fork : Option Nat) (v beat : Nat) : Nat :=
    memUse p.memory (fun e => e.ctx == c && e.fork == fork && bit v e.variants) (fun d => d.ctx == c && d.fork == fork && bit v d.variants) beat ch
  let most (f : ForkPoint) (beat : Nat) : Nat :=
    ((List.range f.variants).map fun v => use (some f.number) v beat).foldl max 0
  let wrapped := beat + p.stepLen / 16
  let late := use none 0 wrapped + ((p.forks.filter fun f => f.ctx == c).map fun f => most f wrapped).foldl max 0
  match p.forks.find? fun f => f.ctx == c && decide (f.k ≤ 16 * beat) && decide (16 * beat < f.j) with
  | none => use none 0 beat + late
  | some f => most f beat + late

/-- Positions that all contexts use on a channel in a beat. -/
def planUse (p : Plan) (beat ch : Nat) : Nat := ((List.range 16).map fun c => ctxUse p c beat ch).sum

/-- The re-check reserve on a channel: that of every context whose weights lie on it (R214, R231). -/
def recheckReserve (p : Plan) (ch : Nat) : Nat :=
  let on (e : Extent) : Bool := burstsOn e.base e.length ch != 0 || (match e.landing with | some a => burstsOn a e.length ch != 0 | none => false)
  ((p.bindings.filter fun b => b.extents.any on).map fun b =>
    if channelDdr ch then b.recheckDdr else b.recheckHbm).sum

/-- In every beat no channel carries more than its data positions (R194), and in every 128 nominal beats it leaves the re-check
reserve free (R231). -/
def positionsOk (p : Plan) : Bool :=
  let beats := p.stepLen / 16
  (List.range channels).all fun ch =>
    let most := dataPositions (channelDdr ch)
    ((List.range beats).all fun b => decide (planUse p b ch ≤ most)) && (recheckReserve p ch == 0 ||
      (List.range beats).all fun b =>
        decide (((List.range 128).map fun i => planUse p ((b + i) % beats) ch).sum + recheckReserve p ch ≤ 128 * most))

/-- Checks 0x01, 0x06, 0x0B and 0x0D of the MEMORY section (R189). -/
def checkMemory (p : Plan) (b : List Byte) : List Finding :=
  let nr := leAt 0 2 b
  let nw := leAt 2 2 b
  let order (x y : Nat × List Byte) : Bool :=
    let a := readScript x.2
    let e := readScript y.2
    decide (a.ctrl < e.ctrl) || (a.ctrl == e.ctrl && decide (a.beat ≤ e.beat))
  need (decide (16 ≤ b.length) && decide (16 + 32 * (nr + nw) + 48 * leAt 4 4 b ≤ b.length)) 1 0
    ++ need (inRange 1 4096 nr) 6 0 ++ need (decide (nw ≤ 4096)) 6 2 ++ need (blank 8 8 b) 6 8
    ++ checkRows (regionRows b) (checkRegion p) ++ checkRows (windowRows b) (checkWindow p) ++ checkRows (scriptRows b) (checkScript p)
    ++ need (rising order (scriptRows b)) 6 (16 + 32 * (nr + nw)) ++ need (positionsOk p) 0x0B (16 + 32 * nr)

/-! ## Intake (R247, R251, R253 to R255, R259) -/

/-- A region index names a region of context `c`, of a kind, of at least `n` bytes. -/
def regionHolds (p : Plan) (i c kind n : Nat) : Bool :=
  match p.memory.regions[i]? with | some r => r.ctx == c && r.kind == kind && decide (n ≤ r.length) | none => false

/-- Bytes that the partition needs in INDEX_REGION[q]: the sub-tables of the probes that name it, and behind those of region 0 the
stash (R254). -/
def indexBytes (e : IntakeEntry) (q : Nat) : Nat :=
  let i := e.indexRegion.getD q 0
  (e.indexRegion.filter (· == i)).length * (e.entries * 16) + (if i = e.indexRegion.getD 0 0 then 64 * e.stash else 0)

/-- Bytes of a full response frame with its 802.1Q tag, preamble and gap (R241, R259). -/
def wireBytes (e : IntakeEntry) : Nat := 14 + 4 + 16 + e.perFrame * (96 + e.resultLength) + 4 + 20

/-- Frames of a window: its slots and up to 256 refusals (R250, R259). -/
def windowFrames (e : IntakeEntry) : Nat := ceilDiv (e.slots + 256) (max 1 e.perFrame)

/-- Nominal positions in the step at which the response frames of the windows of a context begin, and how long they last (R259). -/
def frameSpans (e : IntakeEntry) (stepLen : Nat) : List (Nat × Nat) :=
  (List.range (stepLen / max 1 e.windowTicks)).map fun j =>
    (((j + 1) * e.windowTicks + e.releaseTicks) % stepLen, windowFrames e * e.frameSpacing)

/-- Two spans of a step that repeats overlap. -/
def stepSpansMeet (stepLen : Nat) (a b : Nat × Nat) : Bool :=
  spansMeet a.1 a.2 b.1 b.2 || spansMeet (a.1 + stepLen) a.2 b.1 b.2 || spansMeet a.1 a.2 (b.1 + stepLen) b.2

/-- Frames of two contexts never overlap on a port that both feed (R259). -/
def framesApart (p : Plan) (a b : IntakeEntry) : Bool :=
  a.portMask &&& b.portMask == 0 ||
    (frameSpans a p.stepLen).all fun x => (frameSpans b p.stepLen).all fun y => !stepSpansMeet p.stepLen x y

/-- A context entry (R253): its ranges, its regions, S = M × W, and its response frames. -/
def checkIntakeEntry (p : Plan) (o : Nat) (b : List Byte) : List Finding :=
  let e := readIntake b
  let pow : Bool := (List.range 11).any fun k => e.entries == 1024 * 2 ^ k
  need (p.ctxs.any fun c => c.ctx == e.ctx && c.intake) 6 o ++ need (decide (leAt 1 1 b < 8)) 6 (o + 1) ++ need (inRange 1 8 e.chainSpan) 6 (o + 2)
    ++ need (decide (e.carryMax ≤ 15)) 6 (o + 3) ++ need (inRange 475 30400 e.windowTicks) 6 (o + 4) ++ need (inRange 1 256 e.slots) 6 (o + 12)
    ++ need (decide (e.carrySlots ≤ 1024)) 6 (o + 14) ++ need (decide (e.maxRequest ≤ 1952)) 6 (o + 16)
    ++ need (e.resultLength % 8 == 0 && inRange 8 1024 e.resultLength) 6 (o + 18) ++ need (1 ≤ e.perFrame) 6 (o + 22)
    ++ need (inRange 8 14 e.blockLog2) 6 (o + 23) ++ need pow 6 (o + 24) ++ need (decide (e.stash ≤ 64)) 6 (o + 28)
    ++ need (decide (e.portMask < 4)) 6 (o + 29) ++ need (inRange 1 8 e.buffers) 6 (o + 30) ++ need (blank 31 1 b) 6 (o + 31)
    ++ need (decide (e.bench + 8 ≤ 768)) 6 (o + 58) ++ need (decide (e.bufAddr < 16384)) 6 (o + 60) ++ need (decide (e.respAddr < 16384)) 6 (o + 62)
    ++ need (if e.ring then e.ringBase % 4096 == 0 && decide (0x0C0000000000 ≤ e.ringBase) && decide (e.ringBase < 0x0C0800000000)
      else e.ringBase == 0) 6 (o + 64)
    ++ need (inRange 4 16 e.ringLog2) 6 (o + 72) ++ need (inRange 1 256 e.ringReadMax) 6 (o + 74) ++ need (inRange 1 4096 e.ringPeriod) 6 (o + 76)
    ++ need (inRange 6 11 e.ringEntryLog2 && decide (32 + roundUp 8 e.maxRequest ≤ 2 ^ e.ringEntryLog2)
      && decide (96 + e.resultLength ≤ 2 ^ e.ringEntryLog2)) 6 (o + 73)
    ++ need (blank 78 18 b) 6 (o + 78)
    ++ need ((List.range 4).all fun q => regionHolds p (e.indexRegion.getD q 0) e.ctx 3 (indexBytes e q)) 0x0D (o + 48)
    ++ need (regionHolds p e.stateRegion e.ctx 2 ((e.entries + e.stash) * 2 ^ e.blockLog2)) 0x0D (o + 56)
    ++ need (p.stepLen % max 1 e.windowTicks == 0) 0x0B (o + 4)
    ++ need (decide (e.windowTicks + e.releaseTicks ≤ p.drainSteps * p.stepLen)) 0x0B (o + 8)
    ++ need (decide (wireBytes e * 19 ≤ e.frameSpacing * 16000)) 0x0B (o + 20)
    ++ need (decide (windowFrames e * e.frameSpacing ≤ e.windowTicks)) 0x0B (o + 20)
    ++ need (p.intake.all fun x => x.ctx == e.ctx || framesApart p x e) 0x0B (o + 20)

/-- Checks 0x01, 0x06, 0x0B and 0x0D of the INTAKE section (R253). -/
def checkIntake (p : Plan) (b : List Byte) : List Finding :=
  let total (f : IntakeEntry → Nat) : Nat := (p.intake.map f).sum
  need (decide (16 ≤ b.length) && decide (16 + 96 * leAt 0 1 b ≤ b.length)) 1 0
    ++ need (leAt 1 2 b % 16 == 0 && inRange 16 1024 (leAt 1 2 b)) 6 1 ++ need (blank 3 13 b) 6 3
    ++ need (rising (fun (x y : IntakeEntry) => decide (x.ctx < y.ctx)) p.intake) 6 16
    ++ checkRows (intakeRows b) (checkIntakeEntry p)
    ++ need (decide (total (·.carrySlots) ≤ 4096) && decide (total (·.entries) ≤ 1048576) && decide (total (·.stash) ≤ 1024)) 0x0D 0

/-! ## Weight binding (R214, R225) -/

/-- A shard: 64 MiB (R213). -/
def shardBytes : Nat := 2 ^ 26

/-- A tensor entry against its TENSOR record (R214, R435): of one form in both (R90), and without a bitmap digest unless it is
block-sparse. -/
def checkTensorBind (l : List LogicalRecord) (o : Nat) (b : List Byte) : List Finding :=
  let t := readTensorBind b
  need (decide (t.form ≤ 2)) 6 (o + 4) ++ need (blank 5 3 b) 6 (o + 5) ++ need (blank 40 8 b) 6 (o + 40)
    ++ (match recordOf l 1 (leAt 0 4 b) with
      | none => [(6, o)]
      | some r => need (r.num 9 1 == t.form) 7 (o + 4)
          ++ need (r.bitmapDigest == t.digest && (t.form == 2 || t.digest == zeros 64)) 0x0D (o + 48))

/-- An extent of this role in its region, and with SWAP in its landing (R214, R225). -/
def extentOk (p : Plan) (ctx : Nat) (swap : Bool) (b : List Byte) : Bool :=
  let n := leAt 16 8 b
  let fits (i : Nat) (kinds : List Nat) : Bool := match p.memory.regions[i]? with
    | some r => kinds.contains r.kind && r.ctx == ctx && decide (leAt 24 8 b + n ≤ r.length)
    | none => false
  let paired : Bool := match p.memory.regions[leAt 2 2 b]?, p.memory.regions[leAt 4 2 b]? with
    | some r, some x => r.length == x.length && isHbm r.base == isHbm x.base
    | _, _ => false
  fits (leAt 2 2 b) [0, 5]
    && (if leAt 4 2 b = 0xFFFF then !swap else fits (leAt 4 2 b) [1] && (!swap || paired))

/-- Extents of one role do not overlap (R214). -/
def extentsApart : List (Nat × List Byte) → Bool
  | [] => true
  | x :: t => (t.all fun y => !spansMeet (leAt 8 8 x.2) (leAt 16 8 x.2) (leAt 8 8 y.2) (leAt 16 8 y.2)) && extentsApart t

/-- An extent holds whole shards of the image (R214). -/
def wholeShards (image : Nat) (b : List Byte) : Bool :=
  leAt 8 8 b % shardBytes == 0 && (leAt 16 8 b % shardBytes == 0 || leAt 8 8 b + leAt 16 8 b == image) && decide (leAt 8 8 b + leAt 16 8 b ≤ image)

/-- A binding block at offset `o` (R214, R225): the extents of every role hold whole shards and do not overlap within the role, and those
of this role lie in its regions. -/
def checkBlock (p : Plan) (l : List LogicalRecord) (o : Nat) (b : List Byte) : List Finding :=
  let f := leAt 1 1 b
  need (ctxDefined p (leAt 0 1 b)) 6 o ++ need (decide (f < 4)) 6 (o + 1) ++ need (decide (leAt 16 2 b ≤ 4)) 6 (o + 16)
    ++ need (decide (leAt 18 2 b ≤ 4)) 6 (o + 18) ++ need (blank 20 12 b) 6 (o + 20) ++ need (f != 3) 0x0D (o + 1)
    ++ checkRows (tensorRows b) (fun q x => checkTensorBind l (o + q) x)
    ++ checkRows (extentRows b) (fun q x => need (decide (leAt 0 2 x < 4096)) 6 (o + q) ++ need (blank 6 2 x) 6 (o + q + 6)
      ++ need (leAt 24 8 x % 65536 == 0) 6 (o + q + 24) ++ need (wholeShards (leAt 8 8 b) x) 0x0D (o + q))
    ++ checkRows (extentRows b) (fun q x => need (!bit 0 f || leAt 4 2 x != 0xFFFF) 0x0D (o + q + 4))
    ++ checkRows (roleExtents p.role b) (fun q x => need (extentOk p (leAt 0 1 b) (bit 0 f) x) 0x0D (o + q))
    ++ need (((extentRows b).map fun x => leAt 0 2 x.2).eraseDups.all fun r => extentsApart (roleExtents r b)) 0x0D (o + 32 + 112 * leAt 2 2 b)

/-- Checks 0x01, 0x06 and 0x0D of the WEIGHT_BINDING section. -/
def checkBinding (p : Plan) (l : List LogicalRecord) (b : List Byte) : List Finding :=
  let blocks := blocksOf b
  need (decide (16 ≤ b.length) && blocks.all fun x => 32 ≤ x.2.length && x.2.length == blockLength x.2) 1 0
    ++ need (decide (leAt 2 1 b ≤ 16)) 6 2 ++ need (blank 3 13 b) 6 3
    ++ need (rising (fun (x y : Nat × List Byte) => decide (leAt 0 1 x.2 < leAt 0 1 y.2)) blocks) 6 16
    ++ checkRows blocks (checkBlock p l)

/-! ## Haul schedule (R300) -/

/-- Two entries may both act: they are not of different variants of one fork. -/
def actTogether (a b : SchedEntry) : Bool := !(a.forkEn && b.forkEn && a.ctx == b.ctx && a.fork == b.fork && a.variants &&& b.variants == 0)

/-- Departures of one port follow one another at six a tick, back to back from each entry's TICK, without overlap (R300). -/
def departuresApart (blocks : SchedEntry → Nat) : List SchedEntry → Bool
  | [] => true
  | a :: t => (t.all fun b => !actTogether a b || !spansMeet (6 * a.tick) (blocks a) (6 * b.tick) (blocks b)) && departuresApart blocks t

/-- Check 0x0B of the schedule that its own entries decide (R300): TICKs below S, and without leases the departures of each port. -/
def checkDepartures (p : Plan) (leased : Bool) : List Finding :=
  let departs (q : Nat) : List SchedEntry :=
    (p.sched.entries.filter fun e => e.1 / 32768 == q && (e.2.type == .send || e.2.type == .fwd)).map Prod.snd
  need (p.sched.entries.all fun e => decide (e.2.tick < p.stepLen)) 0x0B 320
    ++ need (leased || (List.range 16).all fun q => departuresApart (fun e => ceilDiv e.length 236) (departs q)) 0x0B 320

/-- Ticks of the one-way delay that the plan assumes for the link of a port (R298): 160 ns are 19 ticks. -/
def budgetTicks (h : HaulSchedule) (q : Nat) : Nat := ceilDiv (h.budgets.getD q 0 * 19) 160

/-- Check 0x0B of the transfers received (R300): departure before deadline, and the last block over the link of its port the slot guard of
5 ticks before it. -/
def transfersOk (p : Plan) (l : List PlannedTransfer) : Bool :=
  p.sched.entries.all fun (e : Nat × SchedEntry) => e.2.type != .recv || match l.find? fun x => 32768 * x.port + x.entry == e.1 with
    | some x => decide (x.sent < e.2.tick) && decide (x.leaves + budgetTicks p.sched x.port + 5 ≤ e.2.tick)
    | none => false

/-- Check 0x0C of twin ports: none carries a schedule entry (R350). -/
def checkTwinPorts (p : Plan) : List Finding :=
  need (p.sched.entries.all fun (e : Nat × SchedEntry) => e.2.type == .unused || !(p.ports[e.1 / 32768]?.any fun m => m.use == 4)) 0x0C 320

/-- Check 0x06 of route entries: each names an entry of its kind (R301). -/
def checkRouteEntries (h : HaulSchedule) : List Finding :=
  need (h.routes.all fun r => match h.entries.find? fun e => e.1 == 32768 * r.port + r.entry with
    | some e => if r.deliver then e.2.type == .recv else e.2.type == .fwd
    | none => false) 6 320

/-! ## Forks, capacity groups and bundles (R101, R109 to R115, R168 to R174) -/

/-- The conditions of R110, R113 and R115 on a fork point of a plan. -/
def forkOk (p : Plan) (f : ForkPoint) : Bool :=
  f.f % 16 == 0 && f.d % 16 == 0 && f.k % 16 == 0 && f.j % 16 == 0 && decide (f.f + 16 ≤ f.d) && decide (f.d + max 16 p.lead ≤ f.k)
    && decide (f.k < f.j) && decide (f.j ≤ p.stepLen) && inRange 2 8 f.variants && f.ends.length == f.variants
    && (f.ends.all fun e => e % 16 == 0 && decide (f.k < e) && decide (e ≤ f.j))
    && inRange 1 4096 f.modules && decide (f.relays ≤ 3) && decide (f.number < 4096)
    && p.forks.all fun g => g.number == f.number || g.ctx != f.ctx || !spansMeet f.f (f.j - f.f) g.f (g.j - g.f)

/-- Check 0x09 of forks and capacity groups (R101, R109, R110, R115); a group's C and k are checked in its record. -/
def forksOk (p : Plan) : Bool :=
  decide (p.forks.length ≤ 4096) && p.forks.all (forkOk p) && decide (p.groups.length ≤ 4096) && p.groups.all fun g => inRange 1 4096 g.shards

/-- The bundles of a page. -/
def bundlesOf (page : List Byte) : List Nat := (rows 0 32 256 page).map fun x => leNat x.2

/-- A vector slot holds no reserved encoding: its reserved bits, its format code and rounding mode, the comparison of VCMP, the kind of
ISHF, and the even registers of a pair (R14, R77, R170). -/
def vectorSlotOk (v : Nat) : Bool :=
  let op := bits 63 56 v
  let imm := bits 15 0 v
  let pair := decide (op < 0x30)
  let even (hi lo : Nat) : Bool := bits hi lo v % 2 == 0
  bits 21 16 v == 0 && (op != 0x10 || decide (imm % 8 < 4)) && (op != 0x22 || imm % 4 != 3)
    && formatListed (bits 31 28 v) && bits 27 26 v != 3
    && (!pair || (even 55 50 && even 49 44 && even 43 38 && even 37 32))

/-- A control slot holds no reserved encoding: the zero bits of FDEC, and the place of FORK's eight stubs, in one page (R173). -/
def controlSlotOk (v : Nat) : Bool :=
  (bits 55 50 v != 8 || bits 25 13 v == 0) && (bits 55 50 v != 9 || (bits 37 26 v % 8 == 0 && decide (bits 37 26 v % 256 + 64 ≤ 256)))

/-- A bundle holds no reserved opcode or encoding (R14, R168 to R173). -/
def bundleOk (w : Nat) : Bool :=
  ((List.range 5).all fun k => opcodeOf w k == 0 || (opcodes k).contains (opcodeOf w k))
    && vectorSlotOk (slotOf w 1) && bit 0 (slotOf w 3) == false && controlSlotOk (slotOf w 4)

/-- An entry of the operation table holds no reserved encoding (R14, R174). -/
def descOk (v : Nat) : Bool :=
  let d := descOf v
  formatListed d.aFmt && formatListed d.bFmt && formatListed d.outFmt && decide (d.form ≤ 2) && decide (d.rm ≤ 2) && bits 131 0 v == 0

/-- Check 0x06 of the bench programs. -/
def programsOk (p : Plan) : Bool :=
  p.programs.all fun b => (b.table.all fun x => descOk x.2) && (b.pages ++ b.more).all fun x => (bundlesOf x.2).all bundleOk

/-- A matrix slot names an operation table entry whose operand pair and sparse form its operation takes, and for MCV a result format
that its rounding mode suits (R65, R77, R90, R169). -/
def matrixSlotOk (b : BenchProgram) (v : Nat) : Bool :=
  let op := bits 47 42 v
  let d := namedDesc b (bits 41 34 v)
  op == 0 || match tileOf d with
    | none => false
    | some t =>
      (op != 1 || d.form != 2) && (op != 2 || d.form == 2) && ((op != 3 && op != 5) || t.exact)
        && (op != 4 || (match formatOf d.outFmt with | some f => roundingSuits d.rm f | none => false))

/-- A conversion of the vector slot names a target that its rounding mode suits, and for VCVB one that carries block scales (R69,
R77, R170). -/
def convertSlotOk (v : Nat) : Bool :=
  let op := bits 63 56 v
  (op != 0x30 && op != 0x31) || match formatOf (bits 31 28 v) with
    | some f => roundingSuits (bits 27 26 v) f && (op == 0x30 || f.scalable)
    | none => false

/-- A TAGR of an intake context hands ⌈RESULT_LENGTH ÷ 16⌉ × 16 bytes (R141, R173). -/
def tagSlotOk (p : Plan) (b : BenchProgram) (v : Nat) : Bool :=
  bits 55 50 v != 0x0B || match p.alloc[b.bench]? with
    | none => true
    | some a => match p.intake.find? fun e => e.ctx == a.home with
      | none => true
      | some e => bits 49 38 v == ceilDiv e.resultLength 16

/-- Check 0x07 of the bench programs: operand pairs, sparse forms and rounding modes of what their slots name (R65, R77, R90), and the
bytes that TAGR hands over (R141). -/
def slotsOk (p : Plan) : Bool :=
  p.programs.all fun b => (b.pages ++ b.more).all fun x => (bundlesOf x.2).all fun w =>
    matrixSlotOk b (slotOf w 0) && convertSlotOk (slotOf w 1) && tagSlotOk p b (slotOf w 4)

/-- Check 0x09 of the variants of a fork (R114): what a variant reduces and draws, the covering variant does under the same reduction
descriptors and Kerf keys. DEDUCED, log entry 26. -/
def variantsAgree (l : List VariantUse) : Bool :=
  l.all fun x => match l.find? fun y => y.fork == x.fork && y.variant == 0 with
    | none => true
    | some y => x.reductions.all y.reductions.contains && x.streams.all y.streams.contains

/-- Check 0x0D of bench store (R165): the ranges of a bench lie in its store, and that of its guest apart from that of its home; a mesh
route joins benches of one context. -/
def storesOk (p : Plan) (l : List StoreRange) : Bool :=
  (l.all fun r => decide (r.first + r.length ≤ storeSize) && l.all fun q => q.bench != r.bench || q.guest == r.guest || !spansMeet r.first r.length q.first q.length)
    && p.routes.all fun r => match p.alloc[r.source]?, p.alloc[r.dest]? with
      | some a, some b => a.home == b.home || (a.guestValid && (a.guest == b.home || (b.guestValid && a.guest == b.guest))) || (b.guestValid && a.home == b.guest)
      | _, _ => false

/-- Check 0x0D of a context with SWAP (R225): each of its passes over the weights serves one batch, no two overlap, and no weight copy
stays in bench store. -/
def passesOk (p : Plan) (f : PlanFacts) : Bool :=
  p.bindings.all fun b => !b.swap || (!f.copies.contains b.ctx &&
    let mine := f.passes.filter fun x => x.ctx == b.ctx
    mine.zipIdx.all fun x => x.1.batches == 1 && mine.zipIdx.all fun y => x.2 == y.2 || decide (x.1.last < y.1.first) || decide (y.1.last < x.1.first))

/-- Check 0x0B of the windows of the Stream Context Table (R256): every index write of batch w starts before the index reads of batch
w + 1, and every state write before the state reads of batch w + D. With M windows in a step of `beats` beats, a write that serves
batch `a` from its step and a read that serves `b` meet where the batches come together k steps apart. -/
def sctOrderOk (p : Plan) : Bool :=
  let beats := p.stepLen / 16
  let servants (e : IntakeEntry) (kind : Nat) (write : Bool) : List (GatherDesc × Int) :=
    p.memory.windows.zipIdx.filterMap fun x =>
      let ofKind : Bool := match p.memory.regions[x.1.region]? with | some r => r.kind == kind | none => false
      if x.1.ctx == e.ctx && x.1.write == write && ofKind then
        (p.uses.find? fun u => u.index == x.2).bind fun u => u.batch.map fun n => (x.1, n)
      else none
  p.intake.all fun e =>
    let m : Int := (max 1 (p.stepLen / max 1 e.windowTicks) : Nat)
    let apart (kind gap : Nat) : Bool :=
      (servants e kind true).all fun w => (servants e kind false).all fun r =>
        let d := w.2 + gap - r.2
        d % m != 0 || decide ((w.1.start : Int) < r.1.start + d / m * beats)
    apart 3 1 && apart 2 e.chainSpan

/-- Check 0x0B of releases (R259): the last response cell and tag of a window is complete by its release. -/
def responsesOk (p : Plan) (f : PlanFacts) : Bool :=
  f.responses.all fun x => match p.intake.find? fun e => e.ctx == x.1 with | some e => decide (x.2 ≤ e.releaseTicks) | none => true

/-- Check 0x0D of the operation's pages: at most 16 are resident, and each holds 256 bundles (R175). -/
def pagesOk (p : Plan) : Bool :=
  p.programs.all fun b => (b.pages.all fun x => decide (x.1 < 16) && x.2.length == 8192) && (b.preloads.all fun x => decide (128 * x.1 + x.2.length ≤ storeSize))

/-- Check 0x08 of the nodes of reductions (R127): of every REDUCTION record each node of its tree (R126), a leaf to a grain among them,
has a bench, on this module one that the plan uses. -/
def nodesOk (p : Plan) (number : Nat) (l : List LogicalRecord) (nodes : List (Nat × List (Option (Nat × Nat)))) : Bool :=
  (l.filter fun r => r.type == 3).all fun r => match nodes.find? fun x => x.1 == r.id with
    | none => false
    | some x => decide (2 * ceilDiv (r.num 16 8) 32 - 1 ≤ x.2.length) && x.2.all fun n => match n with
      | none => false
      | some (m, b) => m != number || p.alloc[b]?.any BenchAlloc.used

/-- Check 0x08 of save sets (R319): what a step reads and later overwrites, its replay prologue restores. -/
def savesOk (p : Plan) (l : List StepRead) : Bool :=
  l.all fun x => p.restores.any fun r => r.ctx == x.ctx && r.bench == x.bench && decide (r.dest ≤ x.addr)
    && decide (x.addr + x.length ≤ r.dest + r.length)

/-- Check 0x0E of WIN_INDEP: set only without capacity groups fed by requests (R135). -/
def winIndepOk (p : Plan) (fed : List Nat) : Bool :=
  p.ctxs.all fun x => !x.winIndep || !(p.groups.any fun g => g.ctx == x.ctx && fed.contains g.number)

/-- The codes that sections without a layout decide, by what they read as. -/
def readingCodes (p : Plan) (number : Nat) (l : List LogicalRecord) (f : PlanFacts) : List Nat :=
  (need (programsOk p) 6 0 ++ need (slotsOk p && resultsOk l p.intake f.results) 7 0 ++ need (splitsOk l f.splits && nodesOk p number l f.nodes && savesOk p f.reads) 8 0
    ++ need (forksOk p && variantsAgree f.uses) 9 0 ++ need (responsesOk p f && sctOrderOk p && transfersOk p f.transfers && f.padding.all fun x => x.1 == x.2) 0x0B 0
    ++ need (storesOk p f.stores && passesOk p f && pagesOk p) 0x0D 0
    ++ need (winIndepOk p f.fed) 0x0E 0).map Prod.fst
    ++ (p.programs.map (pathCodes p f.stores)).flatten

end Sys2Proof.Machine
end

