-- ==== Sys2Proof/Machine/Stage.lean ====
section
/-! DEFINITION. The plan stage and plan verification (06_working_plan.md R149 to R158; 12_topology.md R344): what the items of a plan in
memory hold, the checks that their bytes decide, and what VERIFY and DISCARD do. The items stand in the order in which R158 and R344
name them: header, directory, signature block, then sections on 4 KiB boundaries (log entry 26). -/

namespace Sys2Proof.Machine

open Sys2Proof

/-! ## Items of a plan in memory -/

/-- The base of the plan stage (R158). -/
def stageBase : Nat := 0x03FE00000000

/-- The size of the plan stage (R158). -/
def stageSize : Nat := 2 ^ 33

/-- A section that lies in memory: its directory index, entry and bytes. -/
structure Section where
  index : Nat
  entry : DirEntry
  bytes : List Byte
deriving DecidableEq, Repr

/-- The section directory of the items at `base` (R151). -/
def State.directory (s : State) (base : Nat) : List DirEntry :=
  (List.range (s.le (base + 0x22) 2)).map fun i => readDirEntry (s.bytes (base + 0x200 + 96 * i) 96)

/-- The length of header and directory (R149). -/
def State.directoryEnd (s : State) (base : Nat) : Nat := 0x200 + 96 * s.le (base + 0x22) 2

/-- The signature block of the items at `base`. -/
def State.blockAt (s : State) (base : Nat) : Nat := base + s.directoryEnd base

/-- Sections one after another from address `a`, each on a 4 KiB boundary. -/
def State.sectionsFrom (s : State) : Nat → List (DirEntry × Nat) → List Section
  | _, [] => []
  | a, (e, i) :: t => ⟨i, e, s.bytes a e.length⟩ :: s.sectionsFrom (a + roundUp 4096 e.length) t

/-- The sections that a list of entries names, behind the signature block of the items at `base`. -/
def State.sections (s : State) (base : Nat) (l : List (DirEntry × Nat)) : List Section :=
  s.sectionsFrom (base + roundUp 4096 (s.directoryEnd base + 640)) l

/-- The common entries of a directory, each with its index (R152). -/
def commonEntries (dir : List DirEntry) : List (DirEntry × Nat) := dir.zipIdx.filter fun x => x.1.role == 0xFFFF

/-- The entries of a role. -/
def roleEntries (dir : List DirEntry) (role : Nat) : List (DirEntry × Nat) := dir.zipIdx.filter fun x => x.1.role == role

/-- The bytes of the section of a type; none where it is missing. -/
def sectionOf (l : List Section) (type : Nat) : List Byte :=
  match l.find? fun x => x.entry.type == type with | some x => x.bytes | none => []

/-- The directory index of the section of a type, 0 where it is missing. -/
def indexOf (l : List Section) (type : Nat) : Nat := match l.find? fun x => x.entry.type == type with | some x => x.index | none => 0

/-- The arrangement descriptor of the items at `base`. -/
def State.arrangement (s : State) (base : Nat) (l : List Section) : Arrangement :=
  readArrangement (s.le (base + 0x2C) 2) (sectionOf l 2)

/-- The entry of this module (R154). -/
def State.ownEntry (s : State) (a : Arrangement) : Option ModuleEntry := a.modules.find? fun m => m.number == s.number

/-- The sections of the staged plan that this module loads: the common ones, then those of its role (R154, R158). -/
def State.stagedSections (s : State) : List Section :=
  let dir := s.directory stageBase
  let common := commonEntries dir
  match s.ownEntry (s.arrangement stageBase (s.sections stageBase common)) with
  | some m => s.sections stageBase (common ++ roleEntries dir m.role)
  | none => s.sections stageBase common

/-! ## What the items read as -/

/-- The header fields of the items at `base`, over a plan (R150). -/
def State.withHeader (s : State) (base : Nat) (p : Plan) : Plan :=
  let n (o k : Nat) : Nat := s.le (base + o) k
  { p with id := n 0x10 16, level := n 0x20 1, opPoints := n 0x21 1, stepLen := n 0x24 4, q := n 0x28 2, lead := n 0x2A 2
           drainSteps := n 0x2E 2, mask := n 0x30 2, ramp := n 0x32 2, root := s.bytes (base + 0x40) 64 }

/-- The ARRANGEMENT and HAUL_SCHEDULE sections of the items at `base`, over a plan (R154, R298). -/
def State.withArrangement (s : State) (base : Nat) (l : List Section) (p : Plan) : Plan :=
  let a := s.arrangement base l
  let m := (s.ownEntry a).getD ⟨s.number, 0xFFFF, false⟩
  { p with role := m.role, forwardOnly := m.forwardOnly, modules := a.modules, ports := a.mapOf m, shape := a.shape
           sched := readHaul (sectionOf l 8) }

/-- A binding block of this role (R214). -/
def readBinding (m : MemoryPlan) (role : Nat) (b : List Byte) : Binding :=
  { ctx := leAt 0 1 b, swap := bit 0 (leAt 1 1 b), writable := bit 1 (leAt 1 1 b), imageLength := leAt 8 8 b
    recheckHbm := leAt 16 2 b, recheckDdr := leAt 18 2 b, tensors := (tensorRows b).map fun x => readTensorBind x.2
    extents := (roleExtents role b).map fun x => readExtent m x.2
    pairs := (roleExtents role b).filterMap fun x => readPair m x.2, digest := Crypto.sha512 b }

/-- The plan that the sections spell, where `reading` is what the sections without a layout read as (log entry 26). -/
def State.stagedPlan (s : State) (l : List Section) (reading : PlanReading) : Plan :=
  let p := s.withArrangement stageBase l (s.withHeader stageBase Plan.empty)
  let logical := sectionOf l 1
  let memory := readMemory (sectionOf l 9)
  { p with ctxs := readCtxs p.mask (sectionOf l 3), alloc := readAllocs (sectionOf l 4)
           profiles := (l.filter fun x => x.entry.type == 0xD).map fun x => readProfile x.entry.point x.bytes
           sealTicks := leAt 1 2 (sectionOf l 0xA), intake := (intakeRows (sectionOf l 0xA)).map fun x => readIntake x.2
           kerf := readType logical 4 readKerf, reductions := readType logical 3 readReduction
           groups := readType logical 6 (readGroup reading.shards), memory := memory, programs := reading.programs, restores := reading.restores
           routes := reading.routes
           forks := reading.forks, tagEngines := leAt 2 1 (sectionOf l 0xC), latencies := reading.latencies, uses := reading.uses
           bindings := (blocksOf (sectionOf l 0xC)).map fun x => readBinding memory p.role x.2 }

/-! ## Checks -/

/-- A failed check: its code, the directory index of its section, and the byte offset there (R180). -/
abbrev Failure := Nat × Nat × Nat

/-- The findings of a section. -/
def inSection (i : Nat) (l : List Finding) : List Failure := l.map fun f => (f.1, i, f.2)

/-- The first of the failures with the lowest code: checks run in the order of their codes (R156). -/
def firstFailure : List Failure → Option Failure
  | [] => none
  | x :: t => match firstFailure t with | some y => if y.1 < x.1 then some y else some x | none => some x

/-- Check 0x01 of header, directory and signature block (R149, R151). -/
def State.formOk (s : State) (base : Nat) : Bool :=
  let len := s.le (base + 8) 8
  let dir := s.directory base
  let dirEnd := s.directoryEnd base
  s.le base 4 == 0x4E414C50 && s.le (base + 6) 2 == 512 && decide (dirEnd + 640 ≤ len) && decide (len ≤ 2 ^ 38)
    && 1 ≤ dir.length && rising DirEntry.before dir
    && dir.all (fun e => e.offset % 4096 == 0 && decide (dirEnd ≤ e.offset) && decide (e.offset + e.length + 640 ≤ len))
    && s.le (s.blockAt base) 4 == 0x4E474953

/-- Check 0x03: the key slot, its epoch and fingerprint, and the signature over header and directory (R153). -/
def State.signedAt (s : State) (base : Nat) : Bool :=
  let b := s.blockAt base
  match s.nv.keys[s.le (b + 4) 1]? with
  | none => false
  | some k =>
    match k.modulus with
    | none => false
    | some m =>
      k.valid && k.fuses == s.le (b + 8) 4 && Crypto.sha512 (beBytes 512 m) == s.bytes (b + 0x10) 64
        && Crypto.pssVerify m (s.bytes base (s.directoryEnd base)) (s.bytes (b + 0x80) 512)

/-- A plan fails check 0x03 (R407). -/
def State.countBadSignature (s : State) (code : Nat) : State := if code = 3 then s.inc R.SEC_COUNT_PLAN_SIG_FAIL else s

/-- The sections that this module needs, by type and operating point (R152; log entry 26). -/
def neededSections (forwardOnly intake : Bool) (points : Nat) : List (Nat × Nat) :=
  [(1, 0xFF), (2, 0xFF), (3, 0xFF), (0xC, 0xFF), (8, 0xFF)]
    ++ (if forwardOnly then [] else
      [(4, 0xFF), (6, 0xFF), (9, 0xFF), (0xB, 0xFF)] ++ (if intake then [(0xA, 0xFF)] else [])
        ++ (((List.range 4).filter fun q => bit q points).map fun q => [(5, q), (7, q), (0xD, q)]).flatten)

/-- Checks 0x02 to 0x04 and 0x06 that plan stage and forwarding load share, on the items at `base` with sections `l` (R156, R344). -/
def State.itemChecks (s : State) (base : Nat) (l : List Section) (needed : List (Nat × Nat)) : List Failure :=
  inSection 0 (need (s.le (base + 4) 2 == 2) 2 4 ++ need (s.signedAt base) 3 0)
    ++ (l.map fun x => inSection x.index (need (Crypto.sha512 x.bytes == x.entry.digest) 4 0)).flatten
    ++ inSection 0 (need (needed.all fun x => l.any fun y => y.entry.type == x.1 && y.entry.point == x.2) 4 0)
    ++ inSection 0 ((checkHeader (s.bytes base 512) ++ checkSignatureBlock (s.bytes (s.blockAt base) 640)).filter fun f => f.1 == 6)
    ++ ((List.range (s.le (base + 0x22) 2)).map fun i => inSection i (checkDirEntry (s.bytes (base + 0x200 + 96 * i) 96))).flatten

/-- The checks of a section of the staged plan `p` of which `logical` is the logical program (R156). -/
def State.sectionChecks (s : State) (p : Plan) (a : Arrangement) (logical : List LogicalRecord) (x : Section) : List Finding :=
  let b := x.bytes
  match x.entry.type with
  | 1 => checkLogical p.mask (fun c => p.ctxs.any fun y => y.ctx == c && y.intake) b
  | 2 => checkArrangement a.maps.length b ++ checkDescriptor a s.number
  | 3 => checkCtxs p.mask b
  | 4 => checkAllocs p.mask b
  | 8 => checkHaul b ++ checkDepartures p (s.on R.TOP_LEASE_CTRL_EN) ++ checkRouteEntries p.sched ++ checkTwinPorts p ++ need (s.leaseCode p == 0) (s.leaseCode p) 0
  | 9 => checkMemory p b
  | 0xA => checkIntake p b
  | 0xC => checkBinding p logical b
  | 0xD => checkProfile b ++ checkRamp p x.entry.point
  | _ => []

/-- The failed checks of the staged plan `p` that its bytes decide (R156): those of header and items, of each section, PROGRAM_ROOT
(R124), and the size of the stage (R158). -/
def State.stageFailures (s : State) (l : List Section) (p : Plan) : List Failure :=
  if !s.formOk stageBase then [(1, 0, 0)]
  else
    let logical := (recordsOf (sectionOf l 1)).getD []
    let bytes := roundUp 4096 (s.directoryEnd stageBase + 640) + (l.map fun x => roundUp 4096 x.entry.length).sum
    s.itemChecks stageBase l (neededSections p.forwardOnly (p.ctxs.any PlanCtx.intake) p.opPoints)
      ++ inSection 0 (checkHeader (s.bytes stageBase 512) ++ need (s.leadOk p) 0x0B 0x2A ++ need (decide (bytes ≤ stageSize)) 0x0D 8)
      ++ inSection (indexOf l 1) (need (Crypto.sha512 (sectionOf l 1) == p.root) 5 0)
      ++ (l.map fun x => inSection x.index (s.sectionChecks p (s.arrangement stageBase l) logical x)).flatten

/-- The failed check that ends verification (R156). What the sections without a layout read as decides many checks (`readingCodes`,
`State.buffersOk`), and `verdict` is the check 0x01 or 0x06 that the bytes of such a section itself fail, 0 where none does; they stand
at the place that the command gives. -/
def State.verifyFailure (s : State) (l : List Section) (p : Plan) (f : PlanFacts) (verdict sect offset : Nat) : Option Failure :=
  let given := if verdict = 1 ∨ verdict = 6 then [verdict] else []
  let buffers := if s.buffersOk p f.arrivals then [] else [0x0B]
  firstFailure (s.stageFailures l p
    ++ (readingCodes p s.number ((recordsOf (sectionOf l 1)).getD []) f ++ buffers ++ given).map fun c => (c, sect, offset))

/-! ## VERIFY and DISCARD -/

/-- A write to PLN_CTRL is refused (R158, R180). -/
def State.planRefused (s : State) : State := s.wr R.PLN_EVENT_REFUSED 1

/-- A write to PLN_CTRL is refused with a code (R159). -/
def State.planRefusedWith (s : State) (code : Nat) : State :=
  (((s.planRefused).wr R.PLN_VERIFY_CODE code).wr R.PLN_VERIFY_SECTION 0).wr R.PLN_VERIFY_OFFSET 0

/-- An activation is armed or loading (R158). -/
def State.activationArmed (s : State) : Bool := s.pln.armed

/-- PLN_CTRL.VERIFY (R156, R158): refused while an activation is armed, and before the plan stage may be read (R411). -/
def execPlnVerify (s : State) : Res :=
  if s.activationArmed ∨ !s.scr.stageReady then .next s.planRefused
  else
    let s := { s with pln := { s.pln with staged := none } }
    .next (((s.wr R.PLN_STATUS_STAGE 1).wr R.PLN_STAGED_ID_ID (s.le (stageBase + 0x10) 8)).showBindings)

/-- Verification finishes (R156, R157). `reading` is what the sections without a layout read as, and `verdict` the check 0x01 or
0x06 that the bytes of one of them fail, at `sect` and `offset`. -/
def execVerifyComplete (reading : PlanReading) (verdict : Fin 15) (sect offset : Nat) (s : State) : Res :=
  if s.rd R.PLN_STATUS_STAGE = 1 then
    let l := s.stagedSections
    let p := s.stagedPlan l reading
    match s.verifyFailure l p reading.facts verdict sect offset with
    | none =>
      let s := { s with pln := { s.pln with staged := some p } }
      .next (((((s.wr R.PLN_VERIFY_CODE 0).wr R.PLN_VERIFY_SECTION 0).wr R.PLN_VERIFY_OFFSET 0).wr R.PLN_STATUS_STAGE 2).showBindings)
    | some (code, i, o) =>
      let s := (s.countBadSignature code).wr R.PLN_VERIFY_CODE code
      let s := (s.wr R.PLN_VERIFY_SECTION (min i 255)).wr R.PLN_VERIFY_OFFSET (min o (2 ^ 32 - 1))
      .next (((s.wr R.PLN_STATUS_STAGE 3).wr R.PLN_EVENT_VERIFY_FAILED 1).notice 21 0x80 (min i 1023) 0 code)
  else .next s

/-- PLN_CTRL.DISCARD (R158). -/
def execPlnDiscard (s : State) : Res :=
  if s.activationArmed then .next s.planRefused
  else
    let s := { s with pln := { s.pln with staged := none } }
    .next ((s.wr R.PLN_STATUS_STAGE 0).wr R.PLN_STAGED_ID_ID 0).showBindings

end Sys2Proof.Machine
end

