-- ==== Sys2Proof/Machine/Plan.lean ====
section
/-! DEFINITION. Working Plans as they run (06_working_plan.md R159 to R167, R180; 16_bring_up.md R412): arming, load phase,
activation, stop, abort, and contexts reset and restarted. -/

namespace Sys2Proof.Machine

open Sys2Proof

/-! ## Arming -/

/-- The ticks from arming to activation (R159). -/
def armLead : Nat := 475000

/-- A bench counts as failed before activation: it has failed, or its region's PLL never locked (R163, R412). -/
def State.benchDead (s : State) (b : Nat) : Bool := s.gen.failed.contains b || s.clk.neverLocked.contains (benchRegion b)

/-- The weights of a context of a plan are loaded (R220). -/
def State.weightsLoaded (s : State) (p : Plan) (c : Nat) : Bool :=
  match p.bindings.find? fun b => b.ctx == c with
  | none => true
  | some b =>
    let st := s.rdAt R.WGT_CTX_STATE c
    (st == 2 || st == 3) && (match (s.wctx c).active with | some a => a.binding == b.digest | none => false)

/-- Home contexts of the used benches of a region whose own bench is dead, in logical order, past the first where the region's
spare is free to stand in (R163). -/
def State.spareless (s : State) (p : Plan) (r : Nat) : List Nat :=
  let dead := (List.range 32).filterMap fun j => match p.alloc[32 * r + j]? with
    | some a => if a.used && s.benchDead (33 * r + j) then some a.home else none
    | none => none
  dead.drop (if s.benchDead (33 * r + 32) then 0 else 1)

/-- A context of a plan has a dead bench that no spare of its region replaces, and its spare extension is not set, so that the
arming is refused (R163). -/
def State.sparesMissing (s : State) (p : Plan) (c : Nat) : Bool :=
  !s.onAt R.PLN_CTX_CFG_EXTENDED c && (List.range 24).any fun r => (s.spareless p r).contains c

/-- A context of a plan has a USED bench in a region whose PLL never locked (R412). -/
def State.unlocked (s : State) (p : Plan) (c : Nat) : Bool :=
  p.alloc.zipIdx.any fun x => x.1.used && x.1.home == c && s.clk.neverLocked.contains (x.2 / 32)

/-- A region of a plan lies in a stack or channel that is not TRAINED (R412). -/
def State.untrained (s : State) (p : Plan) (c : Option Nat) : Bool :=
  p.memory.regions.any fun r =>
    (match c with | some c => r.ctx == c | none => true) &&
    (if isHbm r.base then
        (List.range 20).any fun u => !s.onAt R.HBM_STACK_TRAINED u && decide (r.base < (u + 1) * 0xC00000000)
          && decide (u * 0xC00000000 < r.base + r.length)
      else (List.range 16).any fun u => !s.onAt R.DTR_CHAN_TRAINED u)

/-- The conditions on contexts of R159, R163 and R412. -/
def State.ctxReady (s : State) (p : Plan) (c : Nat) : Bool :=
  s.weightsLoaded p c && !s.sparesMissing p c && !s.unlocked p c && !s.untrained p (some c)

/-- The twin that the ports of a plan with USE 4 have learned (R340, R352). -/
def State.twinOf (s : State) (p : Plan) : Nat :=
  match p.ports.zipIdx.find? fun x => x.1.use == 4 with
  | some x => s.rdAt R.TOP_PORT_PARTNER x.2
  | none => 0xFFFF

/-- The arming checks of a twin context that concern its plan and this module's registers (R352): its flags, its entries, its staging area,
and its timing over the twin ports (R355, R357). -/
def State.twinRefusesCtx (s : State) (p : Plan) (x : PlanCtx) : Bool :=
  let c := x.ctx
  let m := s.rdAt R.TWN_CTX_MODE c
  let ports := (List.range 16).filter fun q => match p.ports[q]? with | some y => y.use == 4 | none => false
  let strange := p.sched.entries.any fun (e : Nat × SchedEntry) =>
    e.2.ctx == c && (e.2.type == .send || e.2.type == .recv) && e.2.peer != s.twinOf p
  let (stage, len) := s.stageArea c
  let staged (need : Nat) : Bool := p.memory.regions.any fun r => r.ctx == c && r.kind == 4 && decide (r.base ≤ stage)
    && decide (stage + len ≤ r.base + r.length) && decide (need ≤ len)
  if m = 1 then
    strange || !x.intake || (match p.intake.find? fun e => e.ctx == c with
      | some e => !staged ((max 1 (s.rdAt R.TWN_CTX_LAG c) + 1) * (largestIndex e + largestState e)) || !s.mirrorInTime p e ports
      | none => !staged 0)
  else if m = 2 then
    strange || !x.provEn || (match p.intake.find? fun e => e.ctx == c with
      | some e => !s.replicaInTime p e ports
      | none => false)
  else false

/-- What this module can see of the arming checks of a twin pair (R352): all but the partner's ROLE. -/
def State.twinRefuses (s : State) (p : Plan) : Bool := p.ctxs.any (s.twinRefusesCtx p)

/-- The operating point in force in every bench region that a plan uses is one, and listed in OP_POINTS (R159). -/
def State.pointListed (s : State) (p : Plan) : Bool :=
  bit (s.pointFor p) p.opPoints && (usedRegions p).all fun r => s.rdAt R.CLK_RGN_STATUS_OP_POINT r == s.pointFor p

/-- The code with which an arming at `a` is refused (R159, R163, R352, R412), 0 where none is. `twinFault` is what the pair's
checks find that this module cannot see: equal ROLEs. Where several conditions fail at once the
code is the first in the order of the table of R159, which gives none: DESIGN CHOICE, log entry 118. A die core in reset arms nothing
(R384; its code is a DESIGN CHOICE, log entry 160). -/
def State.armCode (s : State) (a : Nat) (twinFault : Bool) : Nat :=
  let band := s.rd R.PWR_STATUS_BAND
  match s.pln.staged with
  | none => if a % 16 ≠ 0 ∨ a < max s.now (s.rd R.PLN_STOP_END_AT) + armLead then 0x0B else 0x0D
  | some p =>
    if a % 16 ≠ 0 ∨ a < max s.now (s.rd R.PLN_STOP_END_AT) + armLead then 0x0B
    else if s.rd R.PLN_STATUS_STAGE ≠ 2 ∨ s.pwr.dieReset then 0x0D
    else if s.planActive ∧ !s.pln.stopArmed ∧ !s.pln.draining then 0x0D
    else if s.rd R.TAL_STATUS_ROLE ≠ 2 ∧ (!s.on R.TAL_STATUS_ALIGNED ∨ s.on R.TAL_STATUS_DIVERGED) then 0x0C
    else if s.rd R.PWR_RAMP_BUDGET_W_PER_MS < p.ramp then 0x0A
    else if 1 < band ∨ !s.pwr.coolantOk then 0x0A
    else if p.ctxs.any fun x => !s.weightsLoaded p x.ctx then 0x0D
    else if !s.pointListed p then 0x0B
    else if (p.ctxs.any fun x => s.sparesMissing p x.ctx || s.unlocked p x.ctx) ∨ s.untrained p none then 0x0D
    else if twinFault ∨ s.twinRefuses p then 0x0D
    else 0

/-- PLN_CTRL.ARM (R159): the change of KIND 1 (R370). -/
def execPlnArm (twinFault : Bool) (s : State) : Res :=
  let a := s.last R.PLN_ACT_AT_AT
  let code := if s.pln.loading then 0x0D else s.armCode a twinFault
  .next (s.armChange 1 0 a a (code == 0)
    (fun s => { s with pln := { s.pln with armed := true, actAt := a } }.showAct)
    (fun s =>
      let t := s.planRefusedWith (if code = 0 then 0x0D else code)
      if s.pln.loading then t else t.startExit 15))

/-- PLN_CTRL.DISARM (R180): an armed activation before Loading, or else an armed stop, returns to its prior state. It loses to a change
that takes effect in the same tick (R369). -/
def execPlnDisarm (s : State) : Res :=
  let stops : Bool := s.pln.stopArmed && !s.pln.draining
  if s.olc.applied.contains (1, 0) ∨ s.olc.applied.contains (2, 0) ∨ (stops ∧ s.pln.stopAt ≤ s.now) then .next (s.wr R.PLN_EVENT_REFUSED 1)
  else if s.pln.armed then
    if s.pln.loading then .next s
    else .next ({ s with pln := { s.pln with armed := false } }.dropChange 1 0).showAct
  else if stops then
    .next ({ s with pln := { s.pln with stopArmed := false } }.dropChange 2 0).showAct
  else .next s

/-! ## Load phase and activation -/

/-- A spare stands in, in the load phase, for a bench dead before activation (R163). -/
def State.loadSpare (s : State) (b l : Nat) : State :=
  match s.spareFor b with
  | none => s
  | some (t, cross) =>
    let s := { s with gen := { s.gen with subst := s.gen.subst ++ [Subst.mk l b t cross] } }
    (s.inc R.GEN_SPARE_TOTAL).wr R.GEN_EVENT_SUBST 1

/-- Every used bench of the plan is loaded from the stage, its spare in its place (R159, R163). -/
def State.loadBenches (s : State) (p : Plan) : State :=
  let used := (List.range 768).filter fun l => match p.alloc[l]? with | some a => a.used | none => false
  let s := used.foldl (fun s l => if s.benchDead (plainBench l) then s.loadSpare (plainBench l) l else s) s
  used.foldl (fun s l => s.loadBench p l (s.physical l)) s.showSubst

/-- One entry of FRK_TABLE (R120). -/
def State.loadFork (s : State) (f : ForkPoint) : State :=
  let n := f.number
  let s := (s.wrAt R.FRK_TABLE_VALID n 1).wrAt R.FRK_TABLE_NVAR_M1 n (f.variants - 1)
  let s := (s.wrAt R.FRK_TABLE_DECIDER_LOCAL n (flag (f.deciderModule == s.number))).wrAt R.FRK_TABLE_CONTEXT n f.ctx
  let s := ((s.wrAt R.FRK_TABLE_F n (f.f / 16)).wrAt R.FRK_TABLE_D n (f.d / 16)).wrAt R.FRK_TABLE_K n (f.k / 16)
  let s := (s.wrAt R.FRK_TABLE_J n (f.j / 16)).wrAt R.FRK_TABLE_DECIDER_BENCH n f.deciderBench
  s.wrAt R.FRK_TABLE_DECIDER_MODULE n f.deciderModule

/-- The job of a plan that is to be activated at `a` (R311, R326). -/
def Plan.jobAt (p : Plan) (a : Nat) : Job :=
  { plan := p.id8, q := p.q, lead := p.lead, stepLen := p.stepLen, sched := p.sched, modules := p.count, step := 0, stepStart := a
    stepHolds := 0, holds := 0, points := [], hold := none, holdEnd := 0, notice := none
    replay := none, attempt := 0, begun := [] }

/-- From the later of arming and PLN_STOP_END the load phase runs (R159): benches, tables, haul schedules, scripts and intake. The
tables of the plan before are replaced (R326). After A − 16 it is too late (R160), and a die core in reset loads nothing (R384). -/
def execLoadPhaseStart (s : State) : Res :=
  match s.pln.staged with
  | none => .next s
  | some p =>
    if s.pln.armed ∧ !s.pln.loading ∧ !s.planActive ∧ s.now + 16 ≤ s.pln.actAt ∧ !s.pwr.dieReset then
      let s := s.tookEffect 1 0
      let s := { s with pln := { s.pln with loading := true }
                        sch := { s.sch with held := s.sch.held.filter fun b => b.slot != 7
                                            recv := [], sends := [], broken := [], withheld := [] } }
      let s := ({ s with bench := [], gen := { s.gen with subst := [] } }.setJob 7 (Plan.jobAt p s.pln.actAt)).showEntries
      let s := s.loadBenches p
      let s := p.intake.foldl (fun s e =>
        ((s.wrAt R.SCT_PART_STASH e.ctx e.stash).wrAt R.SCT_PART_BLOCK_LOG2 e.ctx e.blockLog2).wrAt R.SCT_PART_ENTRIES e.ctx e.entries) s
      .next s.showAct
    else .next s

/-- An intake context's registers at activation (R261). -/
def State.showIntake (s : State) (p : Plan) (e : IntakeEntry) : State :=
  let c := e.ctx
  let s := (s.wrAt R.ITK_WINDOW_TICKS_TICKS c e.windowTicks).wrAt R.ITK_WINDOW_TICKS_PER_STEP c (p.stepLen / e.windowTicks)
  let s := (s.wrAt R.ITK_RELEASE_TICKS c e.releaseTicks).wrAt R.ITK_RELEASE_RECORDS_PER_FRAME c e.perFrame
  let s := (s.wrAt R.ITK_RELEASE_CARRY_MAX c e.carryMax).wrAt R.ITK_RELEASE_CHAIN_SPAN c e.chainSpan
  s.wrAt R.ITK_RELEASE_FRAME_SPACING c e.frameSpacing

/-- The registers of the active plan (R180, R62, R148, R261, R235, R349). -/
def State.showPlan (s : State) (p : Plan) : State :=
  let mask (f : PlanCtx → Bool) : Nat := ((p.ctxs.filter f).map fun x => 2 ^ x.ctx).sum
  let s := ((s.wr R.PLN_STATUS_CONTEXTS p.mask).wr R.PLN_CFG_LEVEL p.level).wr R.PLN_CFG_OP_POINTS (p.opPoints % 16)
  let s := ((s.wr R.PLN_CFG_HOLD_LEAD p.lead).wr R.PLN_CFG_HOLD_QUANTUM p.q).wr R.PLN_ROLE_FORWARD_ONLY (flag p.forwardOnly)
  let s := ((s.wr R.PLN_ROLE_ROLE p.role).wr R.PLN_ROLE_MODULES p.count).wr R.PLN_ACTIVE_ID_ID p.id8
  let s := (List.range 8).foldl (fun s i => s.wrAt R.PLN_ROOT_ROOT i (leAt (8 * i) 8 p.root)) s
  let s := ((s.wr R.TAL_STEP_INDEX 0).wr R.TAL_STEP_POS_POS 0).wr R.TAL_STEP_POS_LEN p.stepLen
  let s := ((s.wr R.GEN_PROV_EN (mask (·.provEn))).wr R.GEN_PROV_STRICT_REQ (mask (·.strictReq))).wr R.GEN_PROV_WIN_INDEP (mask (·.winIndep))
  let s := (s.wr R.ITK_CFG_CONTEXTS (mask (·.intake))).wr R.ITK_CFG_SEAL_TICKS p.sealTicks
  let s := (s.wr R.WGT_CFG_TAG_ENGINES p.tagEngines).showBenches p
  let s := p.forks.foldl State.loadFork s
  let s := (s.wr R.FRK_STATUS_FORKS p.forks.length).wr R.FRK_STATUS_GROUPS p.groups.length
  let s := p.intake.foldl (fun s e => s.showIntake p e) s
  p.ports.zipIdx.foldl (fun s x => (s.wrAt R.TOP_PORT_USE x.2 x.1.use).wrAt R.TOP_PORT_BUNDLE x.2 x.1.bundle) s

/-- One context's registers at activation (R180). -/
def State.showCtx (s : State) (p : Plan) (x : PlanCtx) : State :=
  let c := x.ctx
  let benches := (p.alloc.filter fun a => a.used && a.home == c).length
  let flags := flag x.provEn + 2 * flag x.strictReq + 4 * flag x.winIndep + 8 * flag x.intake + 16 * flag x.rotation
  let s := ((s.wrAt R.PLN_CTX_CFG_BENCHES c benches).wrAt R.PLN_CTX_CFG_UNIT c x.backfill).wrAt R.PLN_CTX_CFG_SPARE_EXT c x.spareExt
  let s := ((s.wrAt R.PLN_CTX_CFG_RUNNING c 1).wrAt R.PLN_CTX_CFG_DEFINED c 1).wrAt R.PLN_CTX_CFG_FLAGS c flags
  (s.wrAt R.PLN_CTX_STEP_INDEX c 0).wrAt R.PLN_CTX_STEP_POS c 0

/-- A new intake run of a context whose first window is `w` (R247). -/
def State.newRun (s : State) (w : Nat) (standby : Bool) : IntakeRun :=
  { window := w, openAt := s.now, prevOpen := s.now, open_ := true, closed := false, closeFrom := none, arrivals := [], carried := []
    windows := [], pins := [], mark := s.mark, openNominal := s.nominalTime, standby := standby }

/-- A context of the plan starts (R159, R166, R220, R232): its run, its epoch, its weights and sweep, what its landing
becomes (R228), and its intake. -/
def State.startCtx (s : State) (p : Plan) (x : PlanCtx) : State :=
  let c := x.ctx
  let ext := s.onAt R.PLN_CTX_CFG_EXTENDED c
  let s := (s.setCtx c { step := 0, start := s.now, mark := s.mark, holds := 0, running := true, extended := ext, drain := none, attempt := 0 }).showCtx p x
  let e := s.rdAt R.WGT_EPOCH_EPOCH c + 1
  let s := s.wrAt R.WGT_EPOCH_EPOCH c e
  let s := match p.bindings.find? fun b => b.ctx == c with
    | none => s
    | some b =>
      let w := s.wctx c
      let keep : Bool := b.swap && (match w.landing with | some l => l.binding == b.digest | none => false)
      let w := { w with sweep := if b.writable then none else some (s.newSweep b e)
                        landSweep := if keep then some (s.newSweep b e) else none }
      let s := (s.setWctx c w).wrAt R.WGT_CTX_STATE c 3
      if keep then s.wrAt R.WGT_CTX_LANDING c 1 else s
  match p.intake.find? fun e => e.ctx == c with
  | some _ =>
    let standby := (s.rdAt R.TWN_CTX_MODE c == 1 || s.rdAt R.TWN_CTX_MODE c == 2) && s.on R.TWN_STATUS_ROLE_NOW && s.rd R.TWN_STATUS_STATE == 1
    s.setRun c (s.newRun 0 standby)
  | none => s

/-- At an activation a landing is kept only where the plan's binding block for its context is the one it was loaded under (R228); any
other is Empty, that of a context without a block too. A load of the landing that was under way when its plan stopped has gone on, and one
that is not done by the next activation ends there without a code (DESIGN CHOICE, log entry 151). -/
def State.keepLandings (s : State) (p : Plan) : State :=
  (List.range 16).foldl (fun s c =>
    let keep : Bool := p.bindings.any fun b => b.ctx == c && b.swap && (match (s.wctx c).landing with | some l => l.binding == b.digest | none => false)
    if keep ∨ s.rdAt R.WGT_CTX_LANDING c = 0 then s else s.emptyLanding c 0) s

/-- The twin pair of a plan is paired at its activation (R350, R352, R359). -/
def State.pairUp (s : State) (p : Plan) : State :=
  let pair := (p.ports.any fun m => m.use == 4) && p.ctxs.any fun x => 1 ≤ s.rdAt R.TWN_CTX_MODE x.ctx && s.rdAt R.TWN_CTX_MODE x.ctx ≤ 2
  let ports := ((List.range 16).filter fun q => s.portUp q && s.rdAt R.TOP_PORT_USE q == 4).map fun q => 2 ^ q
  let s := { s with twn := State.reset.twn }
  (((s.wr R.TWN_STATUS_PARTNER (s.twinOf p)).wr R.TWN_STATUS_STATE (flag pair)).wr R.TWN_STATUS_ROLE_NOW (s.rd R.TWN_CFG_ROLE)).wr R.TWN_STATUS_PORTS ports.sum

/-- Ports in the detours of a new plan (R309, R337): not Up or mismatched is cause 4, a link slower than its budget cause 3; a
port that is down stays detoured for the forwarding loads with cause 1. -/
def State.newDetours (s : State) (p : Plan) : State :=
  let bad := (List.range 16).filter fun q => s.portUp q && s.portMismatch p q
  (List.range 16).foldl (fun s q =>
    let s := s.restorePort q
    let use := match p.ports[q]? with | some m => m.use | none => 0
    if use ≠ 0 then
      if !s.portUp q ∨ bad.contains q then s.detourPort q 4 s.now
      else if p.sched.budgets.getD q 0 * 19 * 2 ^ 17 < s.rdAt R.HAUL_LOOP_DELAY_LOOP q * 160 then s.detourPort q 3 s.now
      else s
    else if !s.portUp q ∧ s.top.loads ≠ [] then s.detourPort q 1 s.now
    else s) (s.bar bad)

/-- Counts that the registers give since plan activation start again (R62, R89, R120, R181, R206, R327). -/
def State.restartCounts (s : State) : State :=
  { s with frk := { s.frk with lastFilled := [], lastOverflow := [] } }.clearFields [R.TAL_HOLDS_TICKS, R.TAL_HOLDS_COUNT, R.BCH_SR_COUNT_COUNT, R.BCH_SEQ_COUNT_REFILLS, R.BCH_SEQ_COUNT_STALLS,
    R.FRK_VARIANT_COUNT_COUNT, R.FRK_CAP_FILLED_COUNT, R.FRK_CAP_VOID_COUNT, R.FRK_CAP_OVERFLOW_COUNT,
    R.FRK_GATE_COUNT_COUNT, R.HBM_GATHER_WINDOWS, R.SCH_PORT_BUF_PEAK,
    R.ITK_PORT_COUNT_FRAMES, R.ITK_PORT_COUNT_FCS_DROP, R.ITK_PORT_COUNT_HDR_DROP, R.ITK_PORT_DROP_CLOSED, R.ITK_PORT_DROP_OTHER,
    R.ITK_PORT_DROP_PAUSE, R.ITK_PORT_DROP_PEER, R.ITK_CTX_COUNT_ADMITTED, R.ITK_CTX_COUNT_CARRIED, R.ITK_CTX_COUNT_MALFORMED,
    R.ITK_CTX_REFUSE_CARRY, R.ITK_CTX_REFUSE_FULL, R.ITK_CTX_REFUSE_CLOSED, R.ITK_CTX_REFUSE_DROPPED, R.ITK_RESP_RING_DROPPED]

/-- At A step 0 of every context begins (R159), unless orderly shutdown has stopped all work (R37). -/
def execActivation (s : State) : Res :=
  match s.pln.staged with
  | none => .next s
  | some p =>
    if s.pln.armed ∧ s.pln.loading ∧ !s.planActive ∧ s.now = s.pln.actAt ∧ s.pwr.shutdown = .none ∧ !s.pwr.dieReset then
      let pl := { s.pln with active := some p, armed := false, loading := false, failed := false, stopArmed := false, draining := false
                             restarts := [], ctxs := [], rampDown := none, aborting := false, abortAt := none, resetting := [] }
      let s := ({ s with pln := pl }.restartCounts).showPlan p
      let s := (((s.pairUp p).newDetours p).rampFloor 16).keepLandings p
      let s := p.ctxs.foldl (fun s x => s.startCtx p x) s
      let s := p.ctxs.foldl (fun s x => s.fetchEntries x.ctx) s
      let s := { s with gen := { s.gen with retime := [], toReplace := [] }, clk := { s.clk with slipAsked := [], slipReports := [] } }
      .next ((s.changeApplied 1 0 0).showBindings.showExt.showAct).showJob.showLevel
    else .next s

/-- An activation fails (R160): nothing starts, and what has been loaded goes again. -/
def State.activationFails (s : State) : State :=
  let s := s.unload
  ({ s with pln := { s.pln with armed := false, failed := true } }.wr R.PLN_EVENT_ACT_FAILED 1).showAct.startExit 15

/-- The load phase is not complete at A − 16 (R160), and the change is one that could not be applied. -/
def execActivationFailed (s : State) : Res :=
  if s.pln.armed ∧ s.pln.actAt ≤ s.now + 16 then
    let change := s.armedChange? 1 0
    let s := s.activationFails
    .next (match change with | some c => s.cannotApply c | none => s)
  else .next s

/-! ## Stop and abort -/

/-- PLN_CTRL.STOP_ARM (R161): the change of KIND 2. A later count that is not a multiple of 16 is refused with code 0x0B as well, which
R161 names for one that is not later: DESIGN CHOICE, log entry 119. -/
def execPlnStopArm (s : State) : Res :=
  let t := s.last R.PLN_STOP_AT_AT
  let code := if !s.planActive ∨ s.pln.draining then 0x0D else if t % 16 ≠ 0 ∨ t ≤ s.now then 0x0B else 0
  .next (s.armChange 2 0 t t (code == 0)
    (fun s => ({ s with pln := { s.pln with stopArmed := true, stopAt := t } }.showAct).showStopEnd)
    (fun s => s.planRefusedWith (if code = 0 then 0x0D else code)))

/-- Every context of the plan has drained: the spans close and the ramp-down begins (R161). -/
def execDrainEnd (s : State) : Res :=
  if s.pln.draining ∧ s.pln.rampDown.isNone ∧ s.planActive ∧ s.planCtxs.all fun x => !s.ctxRunning x.ctx then
    let s := s.closeSpans
    .next ({ s with pln := { s.pln with rampDown := some s.nominalTime } }.showStopEnd).showLevel
  else .next s

/-- The ramp-down reaches its last stage: no plan is active (R161). -/
def execRampDownEnd (s : State) : Res :=
  match s.pln.rampDown with
  | none => .next s
  | some t =>
    let last := match s.profile with | some f => lastPosition f.down | none => 0
    if s.timeDue (t + last) then .next (s.planGone.detoursGone.wr R.PLN_STOP_END_AT s.now) else .next s

/-- PLN_CTRL.ABORT (R162): it takes effect at the next beat boundary. -/
def execPlnAbort (s : State) : Res :=
  if s.planActive then .next { s with pln := { s.pln with aborting := true } } else .next s

/-! ## Contexts -/

/-- A context stops (R167): at a beat boundary now, or at the next. -/
def execContextReset (ctx : Fin 16) (s : State) : Res :=
  if s.planActive ∧ (s.ctx? ctx).isSome then
    if s.now % 16 = 0 then .next (s.contextReset ctx)
    else .next { s with pln := { s.pln with resetting := addOnce ctx s.pln.resetting } }
  else .next s

/-- PLN_CTRL.CTX_RESTART (R167): the change of KIND 3, under the conditions of R159 that concern the context. Which they are, and code
0x0D for a context that runs, is not defined or drains, are the model's: DESIGN CHOICE, log entry 120. -/
def execPlnCtxRestart (s : State) : Res :=
  let c := s.rd R.PLN_CTRL_CTX
  let a := s.last R.PLN_ACT_AT_AT
  match s.pln.active with
  | none => .next (s.planRefusedWith 0x0D)
  | some p =>
    let code := if a % 16 ≠ 0 ∨ a < s.now + armLead then 0x0B
      else if s.ctxRunning c ∨ (s.ctx? c).isNone ∨ s.pln.draining ∨ !s.ctxReady p c then 0x0D else 0
    .next (s.armChange 3 c a a (code == 0)
      (fun s => { s with pln := { s.pln with restarts := Tab.ins c a s.pln.restarts } })
      (fun s => s.planRefusedWith (if code = 0 then 0x0D else code)))

/-- A stopped context's benches start again with its preloads, its intake with the first window of its step, and the sweep of its
active bank anew (R167, R231). -/
def State.resumeCtx (s : State) (p : Plan) (c : Nat) (r : CtxRun) : State :=
  let s := (s.setCtx c { r with running := true, drain := none }).wrAt R.PLN_CTX_CFG_RUNNING c 1
  let w := s.wctx c
  let s := match w.sweep, s.binding? c with
    | some _, some b => s.setWctx c { w with sweep := some (s.newSweep b (s.rdAt R.WGT_EPOCH_EPOCH c)) }
    | _, _ => s
  let used := (List.range 768).filter fun l => match p.alloc[l]? with | some a => a.used && a.home == c | none => false
  let s := used.foldl (fun s l => (s.loadBench p l (s.physical l)).wrAt R.BCH_SEQ_STATUS_STATE (s.physical l) 0) s
  let s := { s with pwr := { s.pwr with stoppedPower := dropOne c s.pwr.stoppedPower, ramps := Tab.ins c s.nominalTime s.pwr.ramps } }.rampFloor c
  let s := match s.intake? c with
    | some e => s.setRun c (s.newRun (r.step * s.perStep e) (match s.run? c with | some q => q.standby | none => false))
    | none => s
  s.fetchEntries c

/-- A restarted context resumes at its first own step boundary at or after the count (R167). -/
def execContextResume (ctx : Fin 16) (s : State) : Res :=
  let c := ctx.val
  match s.pln.active, s.ctx? c, Tab.find? c s.pln.restarts with
  | some p, some r, some a =>
    if a ≤ s.now ∧ r.start = s.now ∧ !r.running ∧ s.pwr.shutdown = .none then
      let s := { s with pln := { s.pln with restarts := Tab.del c s.pln.restarts } }
      .next ((s.resumeCtx p c r).changeApplied 3 c 0)
    else .next s
  | _, _, _ => .next s

end Sys2Proof.Machine
end

