-- ==== Sys2Proof/Machine/Topology.lean ====
section
/-! DEFINITION. Discovery, slot leases and forwarding loads (12_topology.md R338 to R349). -/

namespace Sys2Proof.Machine

open Sys2Proof

/-! ## Discovery -/

/-- The way of an answer to a packet that arrived on port `p` (R338): that port, and the packet's RETURN in reverse order; no hop
for a packet of the Forester's own. -/
def discBack (d : DiscPkt) (p : Nat) : Nat × List Nat := (p, (d.ret.take d.len).reverse)

/-- A DISCOVERY packet of an OP has reached its end here (R338). -/
def discEnds (d : DiscPkt) (op : Nat) : Bool := d.op == op && d.pos == d.len && d.len ≤ 32

/-- A DISCOVERY packet with reserved fields is discarded (R338). -/
def State.discDrop (s : State) : State := s.inc R.TOP_COUNT_DISC_DROP

/-- The answer to a PROBE (R339). -/
def State.probed (s : State) (d : DiscPkt) (back : Nat × List Nat) : State :=
  s.sendAnswer 2 d.token (s.rd R.TOP_DISC_EPOCH) back s.reportBody

/-- PROBE (R339). -/
def execProbeReceived (port : Fin 16) (d : DiscPkt) (s : State) : Res :=
  if discEnds d 1 then .next (s.probed d (discBack d port)) else .next s.discDrop

/-- ASSIGN_ACK (R339). -/
def State.ackAssign (s : State) (d : DiscPkt) (back : Nat × List Nat) (result : Nat) : State :=
  s.sendAnswer 4 d.token (s.rd R.TOP_DISC_EPOCH) back (beBytes 2 s.number ++ beBytes 1 result ++ zeros 1 ++ beBytes 8 s.serial)

/-- An ASSIGN is refused (R341). -/
def State.refuseAssign (s : State) (d : DiscPkt) (back : Nat × List Nat) (result : Nat) : State :=
  ((s.inc R.TOP_COUNT_ASSIGN_REFUSED).wr R.TOP_EVENT_ASSIGN_REFUSED 1).ackAssign d back result

/-- The RESULT of an ASSIGN (R339, R341). -/
def State.assignResult (s : State) (d : DiscPkt) : Nat :=
  let m := beAt 0 2 d.body
  let held := s.rd R.TOP_DISC_EPOCH
  let other := s.on R.TOP_MODULE_ASSIGNED && m != s.rd R.TOP_MODULE_NUMBER
  if beAt 4 8 d.body ≠ s.serial then 2
  else if d.epoch < held ∨ (d.epoch = held ∧ other) then 3
  else if (m != s.number) && (s.planActive || s.fwdActive) then 1
  else 0

/-- The manager path shows in TOP_MGR_PATH and TOP_DISC.PATH_LEN (R340, R349). -/
def State.showPath (s : State) : State :=
  let l := s.top.mgrRet.map (BitVec.ofNat 8)
  (List.range 4).foldl (fun s i => s.wrAt R.TOP_MGR_PATH_PORTS i (leAt (8 * i) 8 l)) (s.wr R.TOP_DISC_PATH_LEN s.top.mgrRet.length)

/-- An ASSIGN arrives (R340, R341): accepted, it sets the number, the Tally role and the manager path and is followed by
NEIGHBOUR on every Up port. -/
def State.assigned (s : State) (d : DiscPkt) (back : Nat × List Nat) : State :=
  match s.assignResult d with
  | 0 =>
    let tally := beAt 2 1 d.body
    let s := (s.wr R.TOP_MODULE_NUMBER (beAt 0 2 d.body)).wr R.TOP_MODULE_ASSIGNED 1
    let s := (s.setRole (min (bits 1 0 tally) 2)).wr R.TAL_STATUS_UPSTREAM (bits 7 4 tally)
    let s := { s.wr R.TOP_DISC_EPOCH d.epoch with top := { s.top with mgrRet := back.2.reverse, mgrPort := back.1 } }.showPath
    let s := if s.rd R.TOP_DISC_STATE = 0 then s.wr R.TOP_DISC_STATE 1 else s
    let s := (s.wr R.TOP_EVENT_ASSIGNED 1).ackAssign d back 0
    s.upPorts.foldl State.sendNeighbour s
  | r => s.refuseAssign d back r

/-- ASSIGN (R339 to R341). -/
def execAssignReceived (port : Fin 16) (d : DiscPkt) (s : State) : Res :=
  if discEnds d 3 ∧ d.body.length = 12 ∧ assignBodyOk d.body then
    .next (s.assigned d (discBack d port))
  else .next s.discDrop

/-- The fields of a ROUTES body hold none of the reserved values (R339). -/
def routesOk (l : List Byte) : Bool :=
  let first := beAt 0 2 l
  let n := beAt 2 2 l
  1 ≤ n && n ≤ 3584 && decide (first + n ≤ 4096) && l.length == 20 + n && (l.drop 4).all fun b => b.toNat < 32

/-- A ROUTES packet arrives (R340, R341): rings and routes are written, and with every route written the module is Ready. -/
def State.routesReceived (s : State) (d : DiscPkt) (back : Nat × List Nat) : State :=
  let l := d.body
  if d.epoch < s.rd R.TOP_DISC_EPOCH then (s.inc R.TOP_COUNT_ASSIGN_REFUSED).ackAssign d back 3
  else
    let first := beAt 0 2 l
    let n := beAt 2 2 l
    let s := s.wr R.TOP_DISC_EPOCH d.epoch
    let s := (List.range 16).foldl (fun s p =>
      (s.wrAt R.SCH_PORT_DATELINE p (bits 4 4 (beAt (4 + p) 1 l))).wrAt R.SCH_PORT_RING p (bits 3 0 (beAt (4 + p) 1 l))) s
    let s := (List.range n).foldl (fun s i =>
      let v := beAt (20 + i) 1 l
      (s.wrAt R.SCH_SVC_ROUTE_VALID (first + i) (bits 4 4 v)).wrAt R.SCH_SVC_ROUTE_PORT (first + i) (bits 3 0 v)) s
    let fresh : List Nat := ((List.range n).map (first + ·)).filter fun r => !s.top.routesDone.contains r
    let s : State := { s with top := { s.top with routesDone := s.top.routesDone ++ fresh } }
    if 4096 ≤ s.top.routesDone.length ∧ s.rd R.TOP_DISC_STATE = 1 then s.wr R.TOP_DISC_STATE 2 else s

/-- ROUTES (R339 to R341). -/
def execRoutesReceived (port : Fin 16) (d : DiscPkt) (s : State) : Res :=
  if discEnds d 5 ∧ routesOk d.body then .next (s.routesReceived d (discBack d port)) else .next s.discDrop

/-- A port whose learned partner differs from the active plan's descriptor carries no traffic of the plan from now on (R337, R348). -/
def State.barMismatch (s : State) (p : Nat) : State :=
  match s.pln.active with
  | some x => if s.portUp p && s.portMismatch x p then { s with sch := { s.sch with barred := addOnce p s.sch.barred } } else s
  | none => s

/-- NEIGHBOUR (R339, R340): the learned partner of the port; a change raises the event and an unsolicited REPORT. A twin port
names the pair's partner (R361). -/
def execNeighbourReceived (port : Fin 16) (d : DiscPkt) (s : State) : Res :=
  if discEnds d 6 ∧ d.len = 0 ∧ d.body.length = 12 ∧ discBodyOk 6 d.body then
    let p := port.val
    let m := beAt 0 2 d.body
    let changed := s.rdAt R.TOP_PORT_PARTNER p != m || s.rdAt R.TOP_PORT_PARTNER_PORT p != beAt 2 1 d.body
    let s := (s.wrAt R.TOP_PORT_PARTNER p m).wrAt R.TOP_PORT_PARTNER_PORT p (beAt 2 1 d.body)
    let s := if s.rdAt R.TOP_PORT_USE p = 4 then s.wr R.TWN_STATUS_PARTNER m else s
    let s := (s.barMismatch p).showMismatch p
    .next (if changed then (s.wr R.TOP_EVENT_PARTNER_CHANGED 1).unsolicitedReport else s)
  else .next s.discDrop

/-! ## Leases -/

/-- The plan of a lease runs here: active, armed, or forwarding-loaded (R348). -/
def State.leaseRuns (s : State) (n : Nat) : Bool :=
  let id := s.rdAt R.TOP_LEASE_PLAN_PLAN n
  (match s.pln.active with | some p => p.id8 == id | none => false)
    || (s.pln.armed && (match s.pln.staged with | some p => p.id8 == id | none => false))
    || s.top.loads.any fun (e : Nat × FwdLoad) => e.2.plan.id8 == id

/-- With leases in force, lease `n` stays valid only while its sums hold (R343). -/
def State.holdLease (s : State) (n : Nat) (others : List Nat) : State :=
  if s.onAt R.TOP_LEASE_VALID n ∧ s.on R.TOP_LEASE_CTRL_EN ∧ !s.sumsOk n others then
    (s.wrAt R.TOP_LEASE_VALID n 0).wr R.TOP_EVENT_LEASE_REFUSED 1
  else s

/-- A write to TOP_LEASE[n], or with `plan` to TOP_LEASE_PLAN[n] (R343, R348): made valid, refused, or ignored while its plan
runs. -/
def execLeaseWrite (lease : Fin 8) (plan : Bool) (value : Nat) (s : State) : Res :=
  let n := lease.val
  if s.leaseRuns n then
    .next ((s.ignoreWrite ((if plan then R.TOP_LEASE_PLAN_PLAN.addr else R.TOP_LEASE_VALID.addr) + 16 * n)).wr R.TOP_EVENT_LEASE_IGNORED 1)
  else if plan then .next (s.wrAt R.TOP_LEASE_PLAN_PLAN n (value % 2 ^ 64))
  else
    let s := ((s.wrAt R.TOP_LEASE_ROUTE_BASE n (bits 63 48 value)).wrAt R.TOP_LEASE_ROUTE_COUNT n (bits 47 32 value)).wrAt
      R.TOP_LEASE_PORTS n (bits 31 16 value)
    let s := ((s.wrAt R.TOP_LEASE_BUF n (bits 15 5 value)).wrAt R.TOP_LEASE_SHARE n (bits 4 2 value)).wrAt R.TOP_LEASE_VALID n (bits 0 0 value)
    .next (s.holdLease n (s.validLeases n))

/-- A write to TOP_LEASE_CTRL (R343, R349, R368): ignored while the block runs; leases that break the sums lose their validity
when they come into force. -/
def execLeaseEnable (en : Bool) (s : State) : Res :=
  if s.running .top R.TOP_LEASE_CTRL_EN.addr then
    .next (if s.on R.TOP_LEASE_CTRL_EN = en then s else s.ignoreWrite R.TOP_LEASE_CTRL_EN.addr)
  else
    let s := s.wr R.TOP_LEASE_CTRL_EN (flag en)
    .next ((List.range 8).foldl (fun s n => s.holdLease n ((s.validLeases n).filter (· < n))) s)

/-! ## Forwarding loads -/

/-- A forwarding load's state and code (R344, R349). -/
def State.showFwd (s : State) (k st code : Nat) : State := (s.wrAt R.TOP_FWD_STATUS_STATE k st).wrAt R.TOP_FWD_STATUS_CODE k code

/-- The sections of the items at `base`: ARRANGEMENT, and the HAUL_SCHEDULE of this module's role (R344). -/
def State.fwdSections (s : State) (base : Nat) : List Section :=
  let dir := s.directory base
  let first := dir.zipIdx.filter fun x => x.1.type == 2
  match s.ownEntry (s.arrangement base (s.sections base first)) with
  | some m => s.sections base (first ++ (roleEntries dir m.role).filter fun x => x.1.type == 8)
  | none => s.sections base first

/-- The plan that a forwarding load holds: what the haul plane takes of it (R344). -/
def State.fwdPlan (s : State) (base : Nat) (l : List Section) : Plan := s.withArrangement base l (s.withHeader base Plan.empty)

/-- The failed checks of the items at `base` (R344): 0x01 to 0x06 and 0x0C of R156, and those of the lease (R343). LOGICAL_PROGRAM is no
item of a load, so check 0x05 compares PROGRAM_ROOT with its DIGEST in the signed directory (DEDUCED, log entry 26). -/
def State.fwdFailures (s : State) (base : Nat) (l : List Section) (p : Plan) : List Failure :=
  if !s.formOk base then [(1, 0, 0)]
  else
    let a := s.arrangement base l
    let lease := s.leaseCode p
    s.itemChecks base l [(2, 0xFF), (8, 0xFF)]
      ++ inSection 0 (need ((s.directory base).any fun e => e.type == 1 && e.digest == p.root) 5 0x40)
      ++ inSection (indexOf l 2) (checkArrangement a.maps.length (sectionOf l 2) ++ checkDescriptor a s.number ++ need p.forwardOnly 0x0C 16)
      ++ inSection (indexOf l 8) (checkHaul (sectionOf l 8) ++ checkRouteEntries p.sched ++ checkTwinPorts p ++ need (lease == 0) lease 0)

/-- TOP_FWD_CTRL.LOAD (R344). `arrivals` are the nominal arrivals of the load's routes, which no item of it gives, for its planned buffer
occupancy (R343). -/
def execFwdLoad (slot : Fin 8) (arrivals : List RouteArrival) (s : State) : Res :=
  let k := slot.val
  let st := s.rdAt R.TOP_FWD_STATUS_STATE k
  if k = 7 ∨ (2 ≤ st ∧ st ≤ 4) then .next s
  else
    let base := s.rd R.TOP_FWD_SRC_ADDR / 4096 * 4096
    let l := s.fwdSections base
    let p := s.fwdPlan base l
    let lease := match s.planLease p.id8 with | some n => n | none => 0
    match firstFailure (s.fwdFailures base l p ++ if s.buffersOk p arrivals then [] else [(0x0B, indexOf l 8, 0)]) with
    | none =>
      .next ((({ s with top := { s.top with loads := Tab.ins k ⟨p, 0, none⟩ s.top.loads } }.showFwd k 1 0).wrAt
        R.TOP_FWD_STATUS_LEASE k lease).wrAt R.TOP_FWD_STATUS_PLAN k (p.id8 % 2 ^ 32))
    | some (code, _, _) =>
      let s := s.countBadSignature code
      .next ((({ s with top := { s.top with loads := Tab.del k s.top.loads } }.showFwd k 5 code).wrAt R.TOP_FWD_STATUS_PLAN k 0).wr
        R.TOP_EVENT_FWD_FAILED 1)

/-- The count that arming a forwarding load names may be armed: a multiple of 16 still to come. -/
def State.fwdCountOk (s : State) : Bool := s.last R.TOP_FWD_AT_AT % 16 == 0 && decide (s.now < s.last R.TOP_FWD_AT_AT)

/-- The lease of a load is valid (R343, R348). -/
def State.loadLeased (s : State) (l : FwdLoad) : Bool := !s.on R.TOP_LEASE_CTRL_EN || (s.planLease l.plan.id8).isSome

/-- A load or unload is armed at TOP_FWD_AT. -/
def State.setArmed (s : State) (k st : Nat) (l : FwdLoad) : State :=
  { s with top := { s.top with loads := Tab.ins k { l with armedAt := s.last R.TOP_FWD_AT_AT } s.top.loads } }.showFwd k st 0

/-- TOP_FWD_CTRL.ARM (R344, R348): the change of KIND 9 (R370). A slot whose load is not verified and idle refuses it and stays as it is. -/
def execFwdArm (slot : Fin 8) (s : State) : Res :=
  let k := slot.val
  let at_ := s.last R.TOP_FWD_AT_AT
  match Tab.find? k s.top.loads with
  | none => .next (s.wr R.TOP_EVENT_FWD_FAILED 1)
  | some l =>
    let idle : Bool := s.rdAt R.TOP_FWD_STATUS_STATE k == 1
    let leased := s.loadLeased l
    .next (s.armChange 9 k at_ at_ (idle && leased && s.fwdCountOk) (fun s => s.setArmed k 2 l)
      (fun s => (if !idle then s else if leased then s.wrAt R.TOP_FWD_STATUS_CODE k 0x0B else s.showFwd k 5 0x0D).wr R.TOP_EVENT_FWD_FAILED 1))

/-- TOP_FWD_CTRL.UNLOAD_ARM (R344): the change of KIND 10 (R370). A slot whose load is not Active refuses it and stays as it is. -/
def execFwdUnloadArm (slot : Fin 8) (s : State) : Res :=
  let k := slot.val
  let at_ := s.last R.TOP_FWD_AT_AT
  match Tab.find? k s.top.loads with
  | none => .next (s.wr R.TOP_EVENT_FWD_FAILED 1)
  | some l =>
    let runs : Bool := s.rdAt R.TOP_FWD_STATUS_STATE k == 3
    .next (s.armChange 10 k at_ at_ (runs && s.fwdCountOk) (fun s => s.setArmed k 4 l)
      (fun s => (if runs then s.wrAt R.TOP_FWD_STATUS_CODE k 0x0B else s).wr R.TOP_EVENT_FWD_FAILED 1))

/-- TOP_FWD_CTRL.DISARM (R349): an armed load or unload returns to its prior state. It loses to the change's effect in the same tick
(R369). -/
def execFwdDisarm (slot : Fin 8) (s : State) : Res :=
  let k := slot.val
  let st := s.rdAt R.TOP_FWD_STATUS_STATE k
  let due : Bool := (st == 2 || st == 4) && (match Tab.find? k s.top.loads with | some l => decide (l.armedAt ≤ s.now) | none => false)
  if due ∨ s.olc.applied.contains (9, k) ∨ s.olc.applied.contains (10, k) then .next (s.wr R.TOP_EVENT_FWD_FAILED 1)
  else if st = 2 then .next ((s.wrAt R.TOP_FWD_STATUS_STATE k 1).dropChange 9 k)
  else if st = 4 then .next ((s.wrAt R.TOP_FWD_STATUS_STATE k 3).dropChange 10 k)
  else .next s

/-- A job of a forwarding load begins at its activation count (R344, R345). -/
def State.fwdJob (s : State) (p : Plan) : Job :=
  { plan := p.id8, q := p.q, lead := p.lead, stepLen := p.stepLen, sched := forwarding p.sched, modules := p.count, step := 0
    stepStart := s.now, stepHolds := 0, holds := 0, points := [], hold := none, holdEnd := 0, notice := none
    replay := none, attempt := 0, begun := [] }

/-- At TOP_FWD_AT an armed load becomes Active, or an Active one is unloaded (R344). -/
def execFwdLoadEffect (slot : Fin 7) (s : State) : Res :=
  let k := slot.val
  let st := s.rdAt R.TOP_FWD_STATUS_STATE k
  match Tab.find? k s.top.loads with
  | none => .next s
  | some l =>
    if l.armedAt ≤ s.now ∧ st = 2 then
      .next (((s.setJob k (s.fwdJob l.plan)).wrAt R.TOP_FWD_STATUS_STATE k 3).changeApplied 9 k 0)
    else if l.armedAt ≤ s.now ∧ st = 4 then
      let l := { l with job := s.job? k }
      let s := { s with top := { s.top with loads := Tab.del k s.top.loads, unloaded := Tab.ins k l s.top.unloaded }
                        sch := { s.sch with jobs := Tab.del k s.sch.jobs, held := s.sch.held.filter fun b => b.slot != k } }
      .next (((s.showFwd k 0 0).wrAt R.TOP_FWD_STATUS_PLAN k 0).changeApplied 10 k 0)
    else .next s

end Sys2Proof.Machine
end

