-- ==== Sys2Proof/Machine/Tiers.lean ====
section
/-! DEFINITION. The rows of the memory tiers (07_memory_tiers.md R196 to R211; 16_bring_up.md R411): windows, service
accesses, refresh, temperatures, scrub and training. -/

namespace Sys2Proof.Machine

open Sys2Proof

/-! ## Gather windows -/

/-- A window's records and status are in place and its completion counter rises, that which the plan names for it or else the operand:
at 16 × (START + W) + 4 plus the route latency, by as many beats later as the window is late (R199). -/
def execGatherWindowComplete (index : Nat) (counter : Fin 64) (_ecc : MemEcc) (s : State) : Res :=
  match s.memPlan.windows[index]? with
  | none => .next s
  | some d =>
    match Tab.find? (windowKey d) s.scr.windows with
    | none => .next s
    | some g =>
      if g.moved ∧ s.ctxRunning d.ctx ∧ s.due d.ctx (s.windowEnd d g) ∧ (g.early ∨ s.windowPassed d g) then
        let s := s.endWindow index d g
        let s := (s.setGather d none).trace 4 (ctrlField d.ctrl) (if d.ctrl < 20 then 6 else 7) d.id d.ctx
        let s := if d.ctrl < 20 then s.inc R.HBM_GATHER_WINDOWS else s
        .next (if s.engineWindow d ∧ (s.windowRegion d).kind = 3 then s
          else s.bumpCounter (s.physical d.bench) ((s.windowCounter index).getD counter))
      else .next s

/-- In Relaxed mode with EN_GATHER, a read window whose accesses have completed, which begin in beat START + 1, ends at a beat boundary:
its records and status are in place 4 ticks and the route latency later, one choice is counted, and its counter still rises at the
tick of R199 (R201, R134). -/
def execGatherEarlyEnd (index : Nat) (_ecc : MemEcc) (s : State) : Res :=
  match s.memPlan.windows[index]? with
  | none => .next s
  | some d =>
    match Tab.find? (windowKey d) s.scr.windows with
    | none => .next s
    | some g =>
      if s.mayChoose R.GEN_MODE_EN_GATHER ∧ !d.write ∧ g.moved ∧ !g.early ∧ s.beatRuns d.ctx ∧
          16 * (d.start + g.late + 2) ≤ s.ctxPos d.ctx + g.shift ∧ s.ctxPos d.ctx < s.windowEnd d g then
        let s := if s.engineWindow d ∧ (s.windowRegion d).kind = 3 then s else s.earlyData d g
        .next ((s.setGather d (some { g with early := true })).choice R.GEN_CHOICE_KIND_GATHER)
      else .next s

/-! ## Service accesses -/

/-- A service access over Olico (R196). -/
def execServiceAccess (write : Bool) (addr length : Nat) (data : List Byte) (ecc : MemEcc) (s : State) : Res :=
  .next (if write then s.access (.write data) addr data.length ecc none else s.access .read addr length ecc none)

/-! ## Refresh and temperature -/

/-- A refresh falls due and is served in a maintenance position of every channel of its stack or DDR channel, before a scrub read, and
where the beat has none left in a later beat (R191, R203): no contents change and no access moves. -/
def execRefreshDue (ddr : Bool) (unit : Fin 20) (s : State) : Res :=
  if ddr ∧ 16 ≤ unit.val then .next s else .next (s.serveRefresh (if ddr then 20 + unit.val else unit.val))

/-- The setting of the refresh interval in Relaxed mode: fixed, ×2 or ×4 (R203). -/
def refiOf (celsius : Nat) : Nat := if celsius < 45 then 2 else if celsius < 85 then 1 else 0

/-- The warning and limit rules of a unit (R204): a Notice as it comes to stand at or above `warn`, whether its temperature or the
register moved, and the Fault as `limit` says that it enters its limit. `key` numbers the unit among those warned. -/
def State.tempRules (s : State) (source unit key celsius warn : Nat) (limit : Bool) (evWarn evLimit : Field) : State :=
  let was := s.scr.warned.contains key
  let s := if warn ≤ celsius ∧ !was then (s.wr evWarn 1).notice source 0x80 unit 0 celsius else s
  let s := { s with scr := { s.scr with warned := if warn ≤ celsius then addOnce key s.scr.warned else dropOne key s.scr.warned } }
  if limit then (s.wr evLimit 1).fault source 0x81 unit 0 celsius else s

/-- The 1 ms readout of an HBM stack (R203, R204). -/
def State.stackTemp (s : State) (u t : Nat) : State :=
  let lim := s.rd R.HBM_CFG_TEMP_LIMIT
  let warn := s.rd R.HBM_CFG_TEMP_WARN
  let s := s.tempRules 6 u u t warn (decide (lim ≤ t) && !s.onAt R.HBM_STACK_OVER_LIMIT u) R.HBM_EVENT_TEMP_WARN R.HBM_EVENT_TEMP_LIMIT
  let s := (s.wrAt R.HBM_STACK_OVER_LIMIT u (flag (decide (lim ≤ t)))).wrAt R.HBM_STACK_TEMP u t
  let s := s.wrAt R.HBM_STACK_TEMP_MAX u (max t (s.rdAt R.HBM_STACK_TEMP_MAX u))
  let x := if s.mayChoose R.GEN_MODE_EN_REFRESH && decide (t < lim) then refiOf t else 0
  let s := (s.wrAt R.HBM_STACK_REFI_X u x).wr R.HBM_CFG_ADAPT (flag (s.mayChoose R.GEN_MODE_EN_REFRESH))
  if x = 0 then s else s.choice R.GEN_CHOICE_KIND_REFRESH

/-- The 1 ms readout of a DDR channel (R204). -/
def State.channelTemp (s : State) (u t : Nat) : State :=
  let lim := s.rd R.DTR_CFG_TEMP_LIMIT
  let warn := s.rd R.DTR_CFG_TEMP_WARN
  let s := s.tempRules 7 u (32 + u) t warn (decide (lim ≤ t) && !s.onAt R.DTR_CHAN_OVER_LIMIT u) R.DTR_EVENT_TEMP_WARN R.DTR_EVENT_TEMP_LIMIT
  let s := (s.wrAt R.DTR_CHAN_OVER_LIMIT u (flag (decide (lim ≤ t)))).wrAt R.DTR_CHAN_TEMP u t
  s.wrAt R.DTR_CHAN_TEMP_MAX u (max t (s.rdAt R.DTR_CHAN_TEMP_MAX u))

/-- The temperature readout of a stack or channel (R204). -/
def execMemoryTempReadout (ddr : Bool) (unit : Fin 20) (celsius : Fin 256) (s : State) : Res :=
  if ddr then (if unit.val < 16 then .next (s.channelTemp unit celsius) else .next s) else .next (s.stackTemp unit celsius)

/-- A stack or channel has been at or above its limit for 1 ms (R204). -/
def execTempLimitTimeout (ddr : Bool) (unit : Fin 20) (s : State) : Res :=
  if ddr then
    (if unit.val < 16 ∧ s.onAt R.DTR_CHAN_OVER_LIMIT unit then .next (s.moduleFatal 7 0x40 (regionField 34) unit) else .next s)
  else if s.onAt R.HBM_STACK_OVER_LIMIT unit then .next (s.moduleFatal 6 0x40 (regionField (24 + unit.val / 2)) unit)
  else .next s

/-! ## Scrub and training -/

/-- The bursts of a controller: of a stack, or of the whole tier (R209). -/
def burstsOf (unit : Nat) : Nat := if unit < 20 then 0xC00000000 / 32 else 0x20000000000 / 64

/-- The address and the size of a controller's burst `k`. -/
def burstAt (unit k : Nat) : Nat × Nat := if unit < 20 then (unit * 0xC00000000 + 32 * k, 32) else (0x020000000000 + 64 * k, 64)

/-- A refresh, a refresh management command or a recalibration of a controller waits for maintenance positions (R203). -/
def State.upkeepWaits (s : State) (unit : Nat) : Bool :=
  (s.scr.refreshes ++ s.scr.managements ++ s.scr.recalibrations).any fun u => if unit < 20 then u == unit else 20 ≤ u

/-- A maintenance position reads the next burst of a controller for scrub (R209): its correction or error, and at the last burst the
end of the pass with its length. It comes last of what the positions serve (R203), and with none left in this beat it waits.
Controller 20 is the DDR tier's. -/
def execPatrolScrubRead (unit : Fin 21) (ecc : MemEcc) (s : State) : Res :=
  let next := match Tab.find? unit.val s.scr.scrub with | some x => x.1 | none => 0
  let ch := channelAt (burstAt unit next).1
  if (if unit.val < 20 then s.on R.HBM_CFG_SCRUB_EN else s.on R.DTR_CFG_SCRUB_EN) ∧ !s.upkeepWaits unit ∧ s.upkeepFree ch then
    let (s, k, pass) := (s.takeUpkeep ch).scrubNext unit (burstsOf unit)
    let (a, n) := burstAt unit k
    let s := (ecc.fixed.filter fun x => decide (a ≤ x.1) && decide (x.1 < a + n)).foldl (fun s x => s.memCorrected true x) s
    let s := (burstsIn ecc.lost a n).foldl (fun s a => s.uncorrScrub a) s
    match pass with
    | none => .next s
    | some t =>
      if unit.val < 20 then .next ((s.inc R.HBM_SCRUB_PASSES).wr R.HBM_SCRUB_LAST_PASS (min t (2 ^ 32 - 1)))
      else .next ((s.inc R.DTR_SCRUB_PASSES).wr R.DTR_SCRUB_LAST_PASS (min (t / 256) (2 ^ 32 - 1)))
  else .next s

/-- The zero write of training clears what `p` selects of local memory (R411). -/
def State.zeroMemory (s : State) (p : Nat → Bool) : State :=
  { s with mem := s.mem.filter fun (e : Host.Cell) => !p e.1 }

/-- Training of a stack or channel ends (R411): every burst is zero and TRAINED is set, or after three attempts a Fault is
recorded and TRAINED is clear. The first training of start-up may end under an active plan; retraining runs only with none (R205). -/
def execMemoryTrainingDone (ddr : Bool) (unit : Fin 20) (attempts : Nat) (passed : Bool) (s : State) : Res :=
  let u := unit.val
  let trained : Bool := if ddr then s.onAt R.DTR_CHAN_TRAINED u else s.onAt R.HBM_STACK_TRAINED u
  if s.pwr.railsUp < 3 ∨ (ddr ∧ 16 ≤ u) ∨ (trained ∧ s.planActive) then .next s
  else if ddr then
    if passed then .next ((s.zeroMemory fun a => rangeOf a == .ddr && memUnit a == u).wrAt R.DTR_CHAN_TRAINED u 1)
    else .next ((s.wrAt R.DTR_CHAN_TRAINED u 0).fault 7 0x84 u 0 attempts)
  else if passed then .next ((s.zeroMemory fun a => isHbm a && memUnit a == u).wrAt R.HBM_STACK_TRAINED u 1)
  else .next ((s.wrAt R.HBM_STACK_TRAINED u 0).fault 6 0x84 u 0 attempts)

/-- The plan stage has been written with zeros and accepts service accesses (R411). -/
def execPlanStageWriteDone (s : State) : Res :=
  if s.pwr.railsUp < 3 ∨ s.scr.stageReady then .next s
  else
    let s := s.zeroMemory fun a => rangeOf a == .stage
    .next { s with scr := { s.scr with stageReady := true } }

end Sys2Proof.Machine
end

