-- ==== Sys2Proof/Machine/Weights.lean ====
section
/-! DEFINITION. Weight loads, swaps, sweeps and repairs (08_weights.md R212 to R234). Shards are copied by
service accesses (Jobs.lean) and hashed as a whole when their attempt ends. -/

namespace Sys2Proof.Machine

open Sys2Proof

/-! ## The weight root -/

/-- A table of known nodes, by height below 256 and index (R213). -/
abbrev Nodes := Tab (List Byte)

/-- The key of a node. -/
def nodeKey (h j : Nat) : Nat := 256 * j + h

/-- The next level of known nodes: a computed node replaces a cover node (R213). -/
def rootLevel (h width : Nat) (known : Nodes) : Nat → Nodes
  | 0 => known
  | k + 1 =>
    let known := rootLevel h width known k
    match Tab.find? (nodeKey h (2 * k)) known with
    | none => known
    | some l =>
      if 2 * k + 1 = width then Tab.ins (nodeKey (h + 1) k) l known
      else match Tab.find? (nodeKey h (2 * k + 1)) known with
        | none => known
        | some r => Tab.ins (nodeKey (h + 1) k) (Crypto.sha512 (0x01 :: (l ++ r))) known

/-- weight_root of R213, with fuel for the height of the tree. -/
def weightRoot : Nat → Nat → Nat → Nodes → Option (List Byte)
  | 0, h, _, known => Tab.find? (nodeKey h 0) known
  | fuel + 1, h, width, known =>
    if width ≤ 1 then Tab.find? (nodeKey h 0) known
    else weightRoot fuel (h + 1) (ceilDiv width 2) (rootLevel h width known (ceilDiv width 2))

/-! ## Load descriptors -/

/-- A load descriptor as read (R219). -/
structure LoadDesc where
  ctx : Nat
  target : Nat
  shards : Nat
  length : Nat
  held : List Nat
  sources : List (Nat × Nat × Nat)
  digests : Tab (List Byte)
  covers : List (Nat × Nat × List Byte)
  root : List Byte
deriving DecidableEq, Repr

/-- `n` bytes from an address lie in the DDR tier, or in Forester memory. -/
def inDdr (a n : Nat) : Bool := decide (0x020000000000 ≤ a) && decide (a + n ≤ 0x040000000000)
@[inherit_doc inDdr] def inForester (a n : Nat) : Bool := decide (0x0C0000000000 ≤ a) && decide (a + n ≤ 0x0C0800000000)

/-- The shards of ranges in ascending order that neither overlap nor run past `n`; none where they do (R219). -/
def rangeShards (n from_ : Nat) : List (Nat × Nat) → Option (List Nat)
  | [] => some []
  | (first, count) :: t =>
    if 1 ≤ count ∧ from_ ≤ first ∧ first + count ≤ n then
      (rangeShards n (first + count) t).map fun l => (List.range count).map (· + first) ++ l
    else none

/-- A source entry is well formed (R219, R221). -/
def sourceOk (length : Nat) (e : Nat × Nat × Nat) : Bool :=
  (e.1 == 1 && e.2.2 == 0 && inDdr e.2.1 length) || (e.1 == 2 && inForester e.2.1 length && inForester e.2.2 8)

/-- Read the descriptor at `a`; none where it is malformed (R219, R221 step 1). -/
def State.descriptor (s : State) (a : Nat) : Option LoadDesc :=
  let le (o n : Nat) : Nat := s.le (a + o) n
  let target := le 7 1
  let nr := le 0x18 2
  let ns := le 0x1A 2
  let nc := le 0x1C 4
  if !(inDdr a 128 || inForester a 128) ∨ le 0 4 ≠ 0x57534844 ∨ le 4 2 ≠ 1 ∨ 15 < le 6 1 ∨ 2 < target ∨ nr = 0 ∨ 16 < nr
      ∨ 4 < ns ∨ (ns = 0 ∧ target ≠ 2) ∨ 4096 < nc ∨ s.bytes (a + 0x60) 32 ≠ zeros 32 then none
  else
    let ranges := (List.range nr).map fun i => (le (128 + 16 * i) 8, le (128 + 16 * i + 8) 8)
    let o := 128 + 16 * nr
    let sources := (List.range ns).map fun i => (le (o + 32 * i) 1, le (o + 32 * i + 8) 8, le (o + 32 * i + 16) 8)
    let reserved := (List.range ns).all fun i => s.bytes (a + o + 32 * i + 1) 7 == zeros 7 && le (o + 32 * i + 24) 8 == 0
    match rangeShards (le 8 8) 0 ranges with
    | none => none
    | some held =>
      let o := o + 32 * ns
      let digests := held.zipIdx.map fun x => (x.1, s.bytes (a + o + 64 * x.2) 64)
      let o := o + 64 * held.length
      let covers := (List.range nc).map fun i => (le (o + 80 * i) 1, le (o + 80 * i + 8) 8, s.bytes (a + o + 80 * i + 16) 64)
      let reserved := reserved && (List.range nc).all fun i => s.bytes (a + o + 80 * i + 1) 7 == zeros 7
      if reserved && sources.all (sourceOk (le 0x10 8)) then
        some { ctx := le 6 1, target := target, shards := le 8 8, length := le 0x10 8, held := held, sources := sources
               digests := digests, covers := covers, root := s.bytes (a + 0x20) 64 }
      else none

/-- weight_root over the expected digests and cover nodes of a descriptor (R221 step 3). -/
def LoadDesc.rootOf (d : LoadDesc) : Option (List Byte) :=
  let covers := d.covers.foldl (fun (t : Nodes) x => Tab.ins (nodeKey x.1 x.2.1) x.2.2 t) []
  let known := d.digests.foldl (fun (t : Nodes) (x : Nat × List Byte) => Tab.ins (nodeKey 0 x.1) (Crypto.sha512 (0x00 :: x.2)) t) covers
  weightRoot 64 0 d.shards known

/-! ## Failures -/

/-- A load under way fails: a landing returns to Empty, and a load of target 0 or 2 leaves STATE Empty (R223). -/
def State.loadAborts (s : State) (c code source shard : Nat) : State :=
  let w := s.wctx c
  match w.load with
  | none => s
  | some l =>
    let s := s.dropCopies c false fun _ => true
    let s := if l.target = 1 then ((s.setWctx c { w with load := none }).wrAt R.WGT_CTX_LANDING c 0).setRoot R.WGT_ROOT_LANDING_ROOT c []
      else (s.setWctx c { w with load := none, active := none }).wrAt R.WGT_CTX_STATE c 0
    s.loadFailed c code source shard

/-! ## Starting a load -/

/-- The code with which a load of context `c` fails before it moves a byte (R220, R221, R223, R224), 0 where it may start; the
descriptor read. A DDR tier that is not trained gives 0x05 (R411). -/
def State.startCode (s : State) (c : Nat) (x3 : Bool) : Nat × Option LoadDesc :=
  let w := s.wctx c
  if w.load.isSome then (4, none)
  else match s.descriptor (s.rdAt R.WGT_DESC_ADDR c / 128 * 128) with
  | none => (1, none)
  | some d =>
    if d.ctx ≠ c then (1, none)
    else
      let staged := s.planActive || s.rd R.PLN_STATUS_STAGE == 2
      match s.binding? c with
      | none => (if staged then 3 else 5, none)
      | some b =>
        let usesDdr : Bool := d.sources.any (fun x => x.1 == 1) || (d.target != 2 && b.extents.any fun e => !isHbm e.base)
        let code :=
          if x3 ∧ (s.planActive ∨ d.target = 1 ∨ d.sources.any fun x => x.1 ≠ 1) then 5
          else if d.target = 1 then
            (if !s.planActive ∨ !b.swap then 5 else if s.rdAt R.WGT_CTX_LANDING c ≠ 0 ∨ w.closing.isSome then 4 else 0)
          else if s.planActive then 5 else 0
        let code := if code = 0 ∧ usesDdr ∧ !s.tierTrained then 5 else code
        if code ≠ 0 then (code, none)
        else if d.length ≠ b.imageLength ∨ d.shards ≠ shardCount b.imageLength ∨ d.held ≠ heldShards b then (3, none)
        else if d.rootOf ≠ some d.root then (2, none)
        else (0, some d)

/-- The descriptor of a context lies in Forester memory, which the die does not reach (R366). -/
def State.descriptorLost (s : State) (c : Nat) : Bool := inForester (s.rdAt R.WGT_DESC_ADDR c / 128 * 128) 128 && !s.olicoUp

/-- Start the load of context `c`, or fail it before it moves a byte (R220 to R224). A descriptor that the die cannot reach, with the Olico
link Down, is lost and counts as malformed (R366; DEDUCED, log entry 138). -/
def State.startLoad (s : State) (c : Nat) (x3 : Bool) : State :=
  if s.descriptorLost c then s.olicoLost.loadFailed c 1 0 0
  else match s.startCode c x3, s.binding? c with
  | (_, some d), some b =>
    let w := s.wctx c
    let bound : Bound := ⟨d.root, d.length, d.sources, d.digests, b.digest⟩
    let w := { w with load := some ⟨d.target, bound, [], [], s.now⟩ }
    let s := if d.target = 1 then ((s.setWctx c w).wrAt R.WGT_CTX_LANDING c 2).setRoot R.WGT_ROOT_LANDING_ROOT c d.root
      else (s.setWctx c { w with active := none }).wrAt R.WGT_CTX_STATE c 1
    (s.wrAt R.WGT_PROG_DONE c 0).wrAt R.WGT_PROG_HELD c d.held.length
  | (code, _), _ => s.loadFailed c code 0 0

/-- WGT_LOAD_CTRL.START (R220). -/
def execWgtLoadStart (s : State) : Res := .next (s.startLoad (s.rd R.WGT_LOAD_CTRL_CONTEXT) false)

/-- WGT_LOAD_CTRL.X3_START (R224): the loads of the contexts in X3_MASK. -/
def execX3Start (s : State) : Res :=
  .next ((maskList (s.rd R.WGT_LOAD_CTRL_X3_MASK)).foldl (fun s c => s.startLoad c true) s)

/-- WGT_LOAD_CTRL.ABORT (R223). -/
def execWgtLoadAbort (s : State) : Res := .next (s.loadAborts (s.rd R.WGT_LOAD_CTRL_CONTEXT) 9 0 0)

/-! ## Attempts -/

/-- The bank that a load writes or hashes (R220, R226). -/
def State.loadBank (s : State) (b : Binding) (target : Nat) : Nat :=
  if target = 1 then 1 - s.bankOf b else if target = 2 then s.bankOf b else 0

/-- Ticks in which one engine hashes `n` bytes at 15 GB/s, and no shard is hashed faster (R217). -/
def hashTicks (n : Nat) : Nat := ceilDiv (n * 19) 2400

/-- The attempt of shard `i` under way, and the count at which it began; the first one is taken to begin with the load (log entry
114). -/
def Load.attempt (l : Load) (i : Nat) : Nat × Nat := match Tab.find? i l.attempts with | some x => x | none => (0, l.began)

/-- An attempt that began at `from_` has not arrived within TIMEOUT_MS (R222). -/
def State.timedOut (s : State) (from_ : Nat) : Bool := decide (from_ + msTicks (s.rd R.WGT_CFG_TIMEOUT_MS) ≤ s.now)

/-- The source entry of attempt `a` (R222). -/
def sourceOf (b : Bound) (a : Nat) : Option (Nat × Nat × Nat) := b.sources[a % b.sources.length]?

/-- A shard is in place at a source (R219). -/
def State.inPlace (s : State) (e : Nat × Nat × Nat) (i : Nat) : Bool :=
  e.1 == 1 || bit (i % 64) (s.le (e.2.2 + 8 * (i / 64)) 8)

/-- Bytes hashed for weight work are counted (R218, R402). -/
def State.hashed (s : State) (n : Nat) : State :=
  (s.wr R.WGT_ENGINE_BYTES_BYTES (s.rd R.WGT_ENGINE_BYTES_BYTES + n)).count 6102 n

/-- Where shard `i` of a bank lies, and its length. -/
def shardPlace (b : Binding) (k i : Nat) : Nat × Nat := ((bankByte b k (i * shardSize)).getD 0, shardLen b.imageLength i)

/-- The bytes of shard `i` come to their place in bank `k` (R222): from attempt `a`'s source by service accesses, or where they lie
already by a service read. With the state, whether all of them are there. -/
def State.fetchShard (s : State) (b : Binding) (x : Bound) (k i : Nat) (repair : Bool) (a : Option Nat) : State × Bool :=
  let (dst, n) := shardPlace b k i
  match a with
  | none => s.readService s.scr.ecc dst n
  | some a => match sourceOf x a with
    | none => (s, false)
    | some e =>
      let s := s.startCopy b.ctx i repair (e.2.1 + i * shardSize) dst n
      (s, s.copied b.ctx i repair)

/-- Shard `i` of bank `k` is hashed: whether its digest holds (R222). -/
def State.checkShard (s : State) (b : Binding) (x : Bound) (k i : Nat) : State × Bool :=
  (s.hashed (shardLen b.imageLength i), Crypto.sha512 (s.shardBytes b k i) == (Tab.find? i x.digests).getD [])

/-- Where a tensor's bitmap part lies in the image (R212, R214). -/
def bitmapAt (t : TensorBind) : Nat := roundUp 4096 (roundUp 4096 (t.offset + t.valueLen) + t.scaleLen)

/-- Where the bitmap check takes `n` bytes from image byte `o`, all of one shard (R222): from the bank for a held shard, otherwise from
source 0; none where a Forester source does not hold it, and with the Olico link Down (R366). -/
def State.imagePlace (s : State) (b : Binding) (x : Bound) (k o n : Nat) : Option (Nat × Nat) :=
  match bankByte b k o with
  | some a => some (a, n)
  | none => match x.sources[0]? with
    | some e => if (e.1 == 1 || s.olicoUp) && s.inPlace e (o / shardSize) then some (e.2.1 + o, n) else none
    | none => none

/-- The parts of `n` image bytes from `o`, shard by shard. -/
def shardParts (o n : Nat) : List (Nat × Nat) :=
  let first := o / shardSize
  (List.range (if n = 0 then 0 else (o + n - 1) / shardSize + 1 - first)).map fun i =>
    let a := max o ((first + i) * shardSize)
    (a, min (o + n) ((first + i + 1) * shardSize) - a)

/-- The bytes of a bitmap part are read, part by part, as service reads (R206 to R208, R222): the state after it, its bytes, and the
shard of the first part that is missing, or that an uncorrectable burst keeps from being read (DEDUCED, log entry 134). -/
def State.bitmapRead (s : State) (b : Binding) (x : Bound) (k : Nat) : List (Nat × Nat) → State × List Byte × Option Nat
  | [] => (s, [], none)
  | (o, n) :: t =>
    match s.imagePlace b x k o n with
    | none => (if (x.sources.headD (1, 0, 0)).1 == 2 && !s.olicoUp then s.olicoLost else s, [], some (o / shardSize))
    | some (a, n) => match s.readService s.scr.ecc a n with
      | (s, false) => (s, [], some (o / shardSize))
      | (s, true) =>
        let l := s.bytes a n
        let (s, l', miss) := s.bitmapRead b x k t
        (s, l ++ l', miss)

/-- A tensor has a bitmap part that lies at least in part in a held shard (R222). -/
def bitmapHeld (b : Binding) (t : TensorBind) : Bool :=
  t.form == 2 && t.bitmapLen != 0 && (heldShards b).any fun i =>
    decide (bitmapAt t / shardSize ≤ i) && decide (i ≤ (bitmapAt t + t.bitmapLen - 1) / shardSize)

/-- The bitmap checks of a load whose shards have all arrived, tensor by tensor (R218, R222): the state after the hashing, the code 0,
0x07 or 0x08, and for 0x07 the shard of the first byte that is missing. -/
def State.checkBitmaps (s : State) (b : Binding) (x : Bound) (k : Nat) : List TensorBind → State × Nat × Nat
  | [] => (s, 0, 0)
  | t :: rest =>
    match s.bitmapRead b x k (shardParts (bitmapAt t) t.bitmapLen) with
    | (s, _, some i) => (s, 7, i)
    | (s, l, none) =>
      let s := s.hashed t.bitmapLen
      if Crypto.sha512 l = t.digest then s.checkBitmaps b x k rest else (s, 8, 0)

/-- A load has succeeded (R220, R222). -/
def State.loadDone (s : State) (c : Nat) (b : Binding) (l : Load) : State :=
  let w := s.wctx c
  if l.target = 1 then
    let sweep := s.newSweep b (s.rdAt R.WGT_EPOCH_EPOCH c)
    let s := (s.setWctx c { w with load := none, landing := some l.bound, landSweep := some sweep, landFresh := true }).wrAt R.WGT_CTX_LANDING c 3
    s.setRoot R.WGT_ROOT_LANDING_ROOT c l.bound.root
  else
    let s := (s.setWctx c { w with load := none, active := some l.bound }).wrAt R.WGT_CTX_STATE c 2
    let s := if l.target = 0 then
        { s.wrAt R.WGT_CTX_BANK c 0 with wgt := { s.wgt with since := Tab.put 0 c (s.rdAt R.WGT_EPOCH_EPOCH c + 1) s.wgt.since } }
      else s
    s.setRoot R.WGT_ROOT_ACTIVE_ROOT c l.bound.root

/-- A shard has arrived (R222). -/
def State.shardArrived (s : State) (c : Nat) (b : Binding) (l : Load) (i : Nat) : State :=
  let l := { l with done := addOnce i l.done }
  let s := (s.setWctx c { s.wctx c with load := some l }).wrAt R.WGT_PROG_DONE c l.done.length
  if l.done.length < l.bound.digests.length then s
  else
    match s.checkBitmaps b l.bound (s.loadBank b l.target) (b.tensors.filter (bitmapHeld b)) with
    | (s, 0, _) => s.loadDone c b l
    | (s, code, shard) => s.loadAborts c code 0 shard

/-- A failed attempt is followed by a re-fetch, or the load fails (R222, R223). -/
def State.nextAttempt (s : State) (c : Nat) (l : Load) (i code : Nat) : State :=
  let s := s.dropCopies c false (· == i)
  let a := (l.attempt i).1
  if a + 1 ≤ s.rd R.WGT_CFG_RETRIES then
    let s := s.setWctx c { s.wctx c with load := some { l with attempts := Tab.ins i (a + 1, s.now) l.attempts } }
    (s.inc R.WGT_COUNT_REFETCH).wr R.WGT_EVENT_REFETCH 1
  else s.loadAborts c code (if l.bound.sources = [] then 0 else a % l.bound.sources.length) i

/-- The attempt of a shard under way, of a load of context `c`. -/
def State.attempt? (s : State) (c i : Nat) : Option (Load × Binding) :=
  match (s.wctx c).load, s.binding? c with
  | some l, some b => if (Tab.find? i l.bound.digests).isSome && !l.done.contains i then some (l, b) else none
  | _, _ => none

/-- A shard attempt copies its shard where it has not yet, and finishes with the hash (R222), no sooner than one engine can hash it
(R217). With the Olico link Down a Forester source sees it as not arrived (R366). -/
def execShardAttemptDone (ctx : Fin 16) (shard : Nat) (s : State) : Res :=
  match s.attempt? ctx shard with
  | none => .next s
  | some (l, b) =>
    let (a, from_) := l.attempt shard
    let forester : Bool := l.target != 2 && (match sourceOf l.bound a with | some e => e.1 == 2 | none => false)
    let ready : Bool := l.target == 2 || (match sourceOf l.bound a with | some e => s.inPlace e shard | none => false)
    let bank := s.loadBank b l.target
    let n := shardLen b.imageLength shard
    if forester && !s.olicoUp then .next s.olicoLost
    else if !ready ∨ (l.target = 2 ∧ s.now < from_ + hashTicks n) then .next s
    else
      match s.fetchShard b l.bound bank shard false (if l.target = 2 then none else some a) with
      | (s, false) => .next s
      | (s, true) =>
        if s.now < from_ + hashTicks n then .next s
        else
          let s := (if forester then s.dieReads (ceilDiv n 128) else s).dropCopies ctx false (· == shard)
          match s.checkShard b l.bound bank shard with
          | (s, true) => .next (s.shardArrived ctx b l shard)
          | (s, false) => .next ((s.inc R.WGT_COUNT_CORRUPT).nextAttempt ctx l shard 6)

/-- A shard has not fully arrived within TIMEOUT_MS (R222). -/
def execShardAttemptTimeout (ctx : Fin 16) (shard : Nat) (s : State) : Res :=
  match s.attempt? ctx shard with
  | none => .next s
  | some (l, _) =>
    if s.timedOut (l.attempt shard).2 then .next ((s.inc R.WGT_COUNT_MISSING).nextAttempt ctx l shard 7) else .next s

/-! ## Swaps -/

/-- The count at which the pass of batch `n` of a context is planned to begin (R229, R247, R166). -/
def State.passAt (s : State) (c n : Nat) : Nat :=
  match s.intake? c, s.run? c, s.ctx? c with
  | some e, some r, _ => r.openAt + (n + 1 - r.window) * e.windowTicks
  | _, _, some r => r.start + r.holds + (n - r.step) * s.stepLen c
  | _, _, none => s.now

/-- T of a swap (R372): the start of the first batch, going back from batch `n`, to start LEAD_TICKS or more before it. -/
def State.swapT (s : State) (c n : Nat) : Nat :=
  let len := match s.intake? c with | some e => e.windowTicks | none => s.stepLen c
  s.passAt c n - (if len = 0 then s.rd R.OLC_2PC_LEAD_TICKS else roundUp len (s.rd R.OLC_2PC_LEAD_TICKS))

/-- A swap is refused (R227). -/
def State.swapRefused (s : State) : State := s.wr R.WGT_EVENT_SWAP_REFUSED 1

/-- WGT_SWAP_CTRL.ARM (R227): the change of KIND 6, keyed by its batch. -/
def execSwapArm (s : State) : Res :=
  let c := s.rd R.WGT_SWAP_CTRL_CONTEXT
  let n := s.lastAt R.WGT_SWAP_BATCH_BATCH c
  let ok : Bool := s.planActive && s.rdAt R.WGT_CTX_LANDING c == 3 && decide (s.nextBatch c ≤ n) && !s.onAt R.WGT_CTX_SWAP_ARMED c
  .next (s.armChange 6 c n (s.swapT c n) ok
    (fun s => (s.setWctx c { s.wctx c with swapAt := n }).wrAt R.WGT_CTX_SWAP_ARMED c 1) State.swapRefused)

/-- The pass of the swap's batch begins: an intake context's window of that index closes now, any other context's step of that
index has begun (R229; log entry 25). -/
def State.passBegins (s : State) (c n : Nat) : Bool :=
  match s.intake? c, s.run? c, s.ctx? c with
  | some e, some r, _ => r.open_ && r.window == n && s.timeDue (r.openNominal + s.windowLen e r.window)
  | _, _, some r => r.step == n && r.start == s.now
  | _, _, none => false

/-- WGT_SWAP_CTRL.DISARM returns an armed swap to Ready up to the start of the pass of its batch (R227), to whose effect in the same tick it
loses (R369). -/
def execSwapDisarm (s : State) : Res :=
  let c := s.rd R.WGT_SWAP_CTRL_CONTEXT
  let armed := s.onAt R.WGT_CTX_SWAP_ARMED c
  if (armed ∧ s.planActive ∧ s.passBegins c (s.wctx c).swapAt) ∨ s.olc.applied.contains (6, c) then .next s.swapRefused
  else if armed then .next ((s.dropChange 6 c).wrAt R.WGT_CTX_SWAP_ARMED c 0) else .next s

/-- The bank inverts (R229, R230): the landing's load is the active one, the old bank is swept once more, the epoch rises, and a
quarantine from before the landing was loaded ends (R232). An epoch that was to rise at this boundary rises as well. What stood before
is kept for the undoing of a split (R374). -/
def State.swapBanks (s : State) (c : Nat) (b : Binding) : State :=
  let w := s.wctx c
  let e := s.rdAt R.WGT_EPOCH_EPOCH c
  let since := Tab.get 0 c s.wgt.since
  let w' := { w with active := w.landing, old := w.active, landing := none, landSweep := none, oldSince := since, oldEpoch := e
                     closing := some (s.newSweep b e), sweep := some (s.newSweep b (e + 1)) }
  let root := rootOfBound w.landing
  let before : BeforeSwap := ⟨w, s.rdAt R.WGT_CTX_STATE c, Tab.find? c s.wgt.quarantine⟩
  let s := { s with wgt := { s.wgt with since := Tab.put 0 c (e + 1) s.wgt.since, before := Tab.ins c before s.wgt.before } }
  let s := (s.setWctx c w').wrAt R.WGT_CTX_BANK c (1 - s.rdAt R.WGT_CTX_BANK c)
  let s := ((s.wrAt R.WGT_EPOCH_EPOCH c (e + 1)).wrAt R.WGT_CTX_LANDING c 0).wrAt R.WGT_CTX_CLOSING c 1
  let s := ((s.wrAt R.WGT_CTX_SWAP_ARMED c 0).setRoot R.WGT_ROOT_ACTIVE_ROOT c root).setRoot R.WGT_ROOT_LANDING_ROOT c []
  if w.landFresh then
    { s with wgt := { s.wgt with quarantine := Tab.del c s.wgt.quarantine } }.wrAt R.WGT_CTX_STATE c 3
  else s

/-- At the start of the pass of β the swap takes effect (R229); with the landing no longer Ready the swap is dropped, the old
weights stay, and a job of more modules splits (R227, R374). -/
def execSwapEffect (ctx : Fin 16) (s : State) : Res :=
  let c := ctx.val
  let n := (s.wctx c).swapAt
  match s.binding? c with
  | none => .next s
  | some b =>
    if s.onAt R.WGT_CTX_SWAP_ARMED c ∧ s.planActive ∧ s.passBegins c n then
      if s.rdAt R.WGT_CTX_LANDING c = 3 then
        .next ((let s := (s.swapBanks c b).changeApplied 6 c 0; if n = 0 then s else s.markSpan c (n - 1)))
      else
        let change := s.armedChange? 6 c
        let s := (s.wrAt R.WGT_CTX_SWAP_ARMED c 0).wr R.WGT_EVENT_SWAP_DROPPED 1
        .next (match change with | some x => s.cannotApply x | none => s)
    else .next s

/-! ## Sweeps -/

/-- The sweep of a kind that may advance: those of the active bank wait for a closing sweep (R231). -/
def WgtCtx.sweepOf (w : WgtCtx) (k : SweepKind) : Option Sweep :=
  match k with
  | .active => if w.closing.isSome then none else w.sweep
  | .landing => w.landSweep
  | .closing => w.closing

/-- Set a sweep. -/
def WgtCtx.setSweep (w : WgtCtx) (k : SweepKind) (x : Option Sweep) : WgtCtx :=
  match k with
  | .active => { w with sweep := x }
  | .landing => { w with landSweep := x }
  | .closing => { w with closing := x }

/-- The bank that a sweep reads, and the load whose digests it compares with. -/
def State.sweepBank (s : State) (b : Binding) (k : SweepKind) : Nat × Option Bound :=
  let w := s.wctx b.ctx
  let bank := s.bankOf b
  match k with
  | .active => (bank, w.active)
  | .landing => (1 - bank, w.landing)
  | .closing => (1 - bank, w.old)

/-- A sweep is behind: it sets BEHIND and gives one Notice (R231). -/
def State.sweepBehind (s : State) (c : Nat) (x : Sweep) : State :=
  if x.behind then s
  else ((s.wrAt R.WGT_CTX_BEHIND c 1).wr R.WGT_EVENT_BEHIND 1).notice 8 0x81 0 c ((s.now - x.began) / msTicks 1000)

/-- A sweep that has run past RECHECK_S (R231). -/
def State.sweepLate (s : State) (x : Sweep) : Bool := decide (x.began + s.rd R.WGT_CFG_RECHECK_S * msTicks 1000 < s.now)

/-- A sweep closes good (R231, R232); those of the active bank and of a landing run back to back. The next sweep of the active bank
belongs to the epoch that follows, which rises at the next batch boundary, and once good confirms those before (DEDUCED from the
worked example of "Weight Shards, Streaming and Landing Swaps", log entry 134). -/
def State.sweepGood (s : State) (c : Nat) (k : SweepKind) (b : Binding) (x : Sweep) : State :=
  let late := s.sweepLate x
  let s := (s.incAt R.WGT_SWEEP_SWEEPS c).wrAt R.WGT_SWEEP_LAST_MS c (min ((s.now - x.began) / msTicks 1) (2 ^ 32 - 1))
  let s := if late then s.sweepBehind c x else s.wrAt R.WGT_CTX_BEHIND c 0
  let w := s.wctx c
  let e := s.rdAt R.WGT_EPOCH_EPOCH c
  match k with
  | .active => (s.setWctx c { w with sweep := some (s.newSweep b (e + 1)), rise := true }).epochsSettled c (Tab.get 0 c s.wgt.since) (min x.epoch e - 1)
  | .closing => ((s.setWctx c (w.closed s.now)).wrAt R.WGT_CTX_CLOSING c 0).epochsSettled c w.oldSince w.oldEpoch
  | .landing => (s.setWctx c { w with landSweep := some (s.newSweep b e) }).wrAt R.WGT_CTX_LANDING c 3

/-- A sweep finds a mismatch (R231, R232); that of the active bank begins anew. -/
def State.sweepBad (s : State) (c shard : Nat) (k : SweepKind) (b : Binding) : State :=
  match k with
  | .active => (s.setWctx c { s.wctx c with sweep := some (s.newSweep b (s.rdAt R.WGT_EPOCH_EPOCH c)) }).activeMismatch c shard
  | .closing => s.closingMismatch c shard
  | .landing => s.emptyLanding c 6

/-- A sweep reads shard `i` of a bank (R206, R231): where a burst is lost nothing is hashed, and R208 says what follows. -/
def State.sweepRead (s : State) (b : Binding) (k i : Nat) (inactive : Bool) : State × Bool :=
  let (a, n) := shardPlace b k i
  let lost := burstsIn s.scr.ecc.lost a n
  let s := s.correctedIn s.scr.ecc a n
  (lost.foldl (fun s x => s.uncorrSweep b.ctx x inactive) s, lost.isEmpty)

/-- A sweep finishes hashing its next shard (R231), no sooner than one engine can (R217); the active bank is swept while its context
runs, and a shard under repair is read again after it (R234). -/
def execSweepShardChecked (ctx : Fin 16) (sweep : SweepKind) (s : State) : Res :=
  let c := ctx.val
  let w := s.wctx c
  match w.sweepOf sweep, s.binding? c with
  | some x, some b =>
    match x.left, s.sweepBank b sweep with
    | i :: t, (k, some bound) =>
      if (sweep = .active ∧ ((Tab.find? i w.repairs).isSome ∨ !s.ctxRunning c)) ∨ s.now < x.shardAt + hashTicks (shardLen bound.length i) then .next s
      else
        match s.sweepRead b k i (sweep != .active) with
        | (s, false) => .next s
        | (s, true) =>
          match s.checkShard b bound k i with
          | (s, true) =>
            let s := s.setWctx c (w.setSweep sweep (some { x with left := t, shardAt := s.now }))
            .next (if t = [] then s.sweepGood c sweep b x else s)
          | (s, false) => .next (s.sweepBad c i sweep b)
    | _, _ => .next s
  | _, _ => .next s

/-- A sweep has not closed within RECHECK_S (R231). -/
def execSweepOverrun (ctx : Fin 16) (sweep : SweepKind) (s : State) : Res :=
  match (s.wctx ctx).sweepOf sweep with
  | none => .next s
  | some x =>
    if s.sweepLate x ∧ (sweep ≠ .active ∨ s.ctxRunning ctx) then .next ((s.sweepBehind ctx x).setWctx ctx ((s.wctx ctx).setSweep sweep (some { x with behind := true })))
    else .next s

/-! ## Quarantine and repair -/

/-- A quarantine notice arrives (R233). -/
def execQuarantineNoticeReceived (payload : List Byte) (s : State) : Res :=
  let plan := leAt 0 8 payload
  let c := beAt 8 1 payload
  let cause := beAt 9 1 payload
  let current : Bool := match s.pln.active with | some p => p.id8 == plan && p.ctxs.any fun x => x.ctx == c | none => false
  if payload.length = 64 ∧ current ∧ (cause = 1 ∨ cause = 2) ∧ (Tab.find? c s.wgt.quarantine).isNone then
    .next ((s.quarantineCtx c (max (beAt 40 8 payload) (s.nextBatch c))).handItems [.notice payload])
  else .next s

/-- An attempt of a shard's repair has failed (R222, R234): the next one begins, or the repair fails. -/
def State.repairAgain (s : State) (c shard a : Nat) : State :=
  let s := s.dropCopies c true (· == shard)
  if a + 1 ≤ s.rd R.WGT_CFG_RETRIES then
    let s := s.setWctx c { s.wctx c with repairs := Tab.ins shard (a + 1, s.now) (s.wctx c).repairs }
    (s.inc R.WGT_COUNT_REFETCH).wr R.WGT_EVENT_REFETCH 1
  else s.repairFailed c shard

/-- An attempt of a shard's repair ends (R234): `arrived` says that the shard came and was hashed; otherwise it has not come within
TIMEOUT_MS (R222). -/
def execShardRepairDone (ctx : Fin 16) (shard : Nat) (arrived : Bool) (s : State) : Res :=
  let c := ctx.val
  let w := s.wctx c
  match Tab.find? shard w.repairs, w.active, s.binding? c with
  | some (a, from_), some x, some b =>
    let cut : Bool := !s.olicoUp && (match sourceOf x a with | some e => e.1 == 2 | none => false)
    let ready : Bool := !cut && (match sourceOf x a with | some e => s.inPlace e shard | none => false)
    if cut then .next ((s.olicoLost.inc R.WGT_COUNT_MISSING).repairAgain c shard a)
    else if arrived then
      if !ready then .next s
      else match s.fetchShard b x (s.bankOf b) shard true (some a) with
      | (s, false) => .next s
      | (s, true) =>
        if s.now < from_ + hashTicks (shardLen b.imageLength shard) then .next s
        else match (s.dropCopies c true (· == shard)).checkShard b x (s.bankOf b) shard with
        | (s, true) =>
          let s := s.setWctx c { s.wctx c with repairs := Tab.del shard (s.wctx c).repairs }
          .next ((s.inc R.WGT_COUNT_REPAIR).wr R.WGT_EVENT_REPAIR 1)
        | (s, false) => .next ((s.inc R.WGT_COUNT_CORRUPT).repairAgain c shard a)
    else if s.timedOut from_ then .next ((s.inc R.WGT_COUNT_MISSING).repairAgain c shard a)
    else .next s
  | _, _, _ => .next s

end Sys2Proof.Machine
end

