-- ==== Sys2Proof/Machine/Olico.lean ====
section
/-! DEFINITION. The Olico link and the two-phase rule as it runs (14_forester_and_control.md R364 to R366, R370 to R375). -/

namespace Sys2Proof.Machine

open Sys2Proof

/-! ## The link -/

/-- Both half-links of a direction have failed lanes. -/
def halvesLost (l : List Nat) : Bool := (l.any fun x => decide (x < 16)) && (l.any fun x => decide (16 ≤ x))

/-- The lanes and the width show (R364, R380). -/
def State.showOlico (s : State) : State :=
  let bad := s.olc.failedTx ++ s.olc.failedRx
  let s := s.wr R.OLC_STATUS_LANES_OK (((List.range 32).filter fun x => !bad.contains x).map fun x => 2 ^ x).sum
  s.wr R.OLC_STATUS_WIDTH (flag !bad.isEmpty)

/-- A flit that fails its CRC is retried: a Corrected error, and no access is lost (R364, R382). -/
def execOlicoFlitRetry (s : State) : Res :=
  if s.olicoUp then .next ((s.inc R.OLC_ERR_RETRIES).corrected 16 0x64 (regionField 38) 0 0 0) else .next s

/-- Lanes of one direction fail (R364): the direction goes on with 16 lanes, or the link goes Down. -/
def execOlicoLaneFail (tx : Bool) (lanes : List (Fin 32)) (s : State) : Res :=
  let old := if tx then s.olc.failedTx else s.olc.failedRx
  let new := (lanes.map Fin.val).foldl (fun l x => addOnce x l) old
  let n := new.length - old.length
  if n = 0 ∨ s.rd R.OLC_STATUS_STATE = 0 then .next s
  else
    let s := { s with olc := if tx then { s.olc with failedTx := new } else { s.olc with failedRx := new } }
    let s := (s.addAt R.OLC_ERR_LANE_FAILS 0 n).showOlico
    if halvesLost new then .next s.olicoDown
    else .next ((s.wr R.OLC_EVENT_DEGRADED 1).fault 16 0x81 0 0 new.length)

/-- Retry has made no progress for 1 ms (R364). -/
def execOlicoNoProgress (s : State) : Res := if s.olicoUp then .next s.olicoDown else .next s

/-- Retraining completes on the lanes that are good (R364), after a Forester reset once the Forester has booted: the link is Up with
each direction on 32 or 16 of them, and the tags that wait on the die go over (R366). -/
def execOlicoRetrainDone (badTx badRx : List (Fin 32)) (s : State) : Res :=
  let tx := badTx.map Fin.val
  let rx := badRx.map Fin.val
  if s.rd R.OLC_STATUS_STATE ≠ 1 ∨ !s.fst.booted ∨ halvesLost tx ∨ halvesLost rx then .next s
  else
    let s := { s with olc := { s.olc with failedTx := tx, failedRx := rx } }.showOlico
    let s := if tx ++ rx = [] then s else s.wr R.OLC_EVENT_DEGRADED 1
    let s := s.wr R.OLC_STATUS_STATE 2
    .next (s.drainItems s.gen.dieItems)

/-! ## Two-phase changes -/

/-- A write to OLC_CHANGE_NEXT (R371, R380). -/
def execChangeNextWrite (value : Nat) (s : State) : Res :=
  let s := (s.wr R.OLC_CHANGE_NEXT_ID (bits 31 0 value)).wr R.OLC_CHANGE_NEXT_KIND (bits 35 32 value)
  .next ((s.wr R.OLC_CHANGE_NEXT_CONTEXT (bits 39 36 value)).wr R.OLC_CHANGE_NEXT_FRESH 1)

/-- OLC_CTRL.ARM (R370): the change of KIND 7 for the context in OLC_CHANGE_NEXT. -/
def execOlcArm (s : State) : Res :=
  let c := s.rd R.OLC_CHANGE_NEXT_CONTEXT
  let t := s.last R.OLC_CHANGE_AT_AT
  let ok : Bool := (s.ctx? c).isSome && t % 16 == 0 && decide (s.now < t) && (Tab.find? c s.olc.extArmed).isNone
  .next (s.armChange 7 c t t ok (fun s => { s with olc := { s.olc with extArmed := Tab.ins c t s.olc.extArmed } })
    (fun s => s.wr R.OLC_EVENT_ARM_REFUSED 1))

/-- OLC_CTRL.DISARM (R380): the armed change of the context in OLC_CHANGE_NEXT returns to Idle before its deadline; in a job of
more than one module that is T − LEAD_TICKS. It loses to the change's effect in the same tick (R369). -/
def execOlcDisarm (s : State) : Res :=
  let c := s.rd R.OLC_CHANGE_NEXT_CONTEXT
  let open_ : Bool := match s.armedChange? 7 c with
    | some x => decide (s.now + s.rd R.OLC_2PC_LEAD_TICKS < x.effect)
    | none => true
  let due : Bool := match Tab.find? c s.olc.extArmed, s.ctx? c with
    | some t, some r => decide (t ≤ s.now) && r.start == s.now
    | _, _ => false
  if due ∨ s.olc.applied.contains (7, c) then .next (s.wr R.OLC_EVENT_ARM_REFUSED 1)
  else if open_ then .next ({ s with olc := { s.olc with extArmed := Tab.del c s.olc.extArmed } }.dropChange 7 c) else .next s

/-- The arm deadline T − LEAD_TICKS of a change passes (R372). It changes nothing by itself: an arming compares its own count
with the deadline. -/
def execArmDeadline (_change : Nat) (s : State) : Res := .next s

/-- At T − LEAD_TICKS + VOTE_TICKS the root counts the ARMED packets of a change (R372): fewer than the participants are an
epoch split with reason 3, unless a split is latched already. -/
def execVoteCount (change : Nat) (s : State) : Res :=
  match s.change? change with
  | none => .next s
  | some c =>
    if c.root = s.number ∧ !c.counted ∧ c.effect + s.rd R.OLC_2PC_VOTE_TICKS ≤ s.now + s.rd R.OLC_2PC_LEAD_TICKS then
      let s := s.onChanges (·.id == change) fun x => { x with counted := true }
      if c.votes < c.participants ∧ c.state ≤ 1 then .next (s.raiseSplit { c with counted := true } 3) else .next s
    else .next s

/-- The plan with bytes 0 to 7 of a PLAN_ID on this module: active, staged or forwarding-loaded. -/
def State.planOf (s : State) (id : Nat) : Option Plan :=
  let named (p : Option Plan) : Option Plan := match p with | some p => if p.id8 = id then some p else none | none => none
  match named s.pln.active with
  | some p => some p
  | none => match named s.pln.staged with
    | some p => some p
    | none => (s.top.loads.map fun (e : Nat × FwdLoad) => e.2.plan).find? fun p => p.id8 == id

/-- A change this module has not armed, from a control packet (R375). -/
def State.strangeChange (s : State) (k : ControlPkt) (p : Plan) (st : Nat) : Change :=
  let effect := if k.kind = 6 then s.now + s.rd R.OLC_2PC_LEAD_TICKS else k.at_
  { s.newChange p k.kind 0 k.at_ effect with id := k.id, state := st }

/-- The root counts an ARMED packet (R372); one that comes before its own arming opens the change's record. -/
def execArmedReceived (pkt : ControlPkt) (s : State) : Res :=
  if pkt.op ≠ 1 ∨ !pkt.kindOk then .next s
  else match s.change? pkt.id with
    | some _ => .next (s.onChanges (·.id == pkt.id) fun c => { c with votes := c.votes + 1 })
    | none => match s.planOf pkt.plan with
      | none => .next s.foreign
      | some p =>
        if s.rootOf p = s.number then .next (s.setChanges ({ s.strangeChange pkt p 0 with votes := 1 } :: s.olc.changes))
        else .next s

/-- The root records a REFUSED packet, which precedes the sender's SPLIT (R375). -/
def execRefusedReceived (pkt : ControlPkt) (s : State) : Res :=
  if pkt.op ≠ 2 ∨ !pkt.kindOk then .next s
  else .next (s.onChanges (·.id == pkt.id) fun c => { c with refusals := c.refusals + 1 })

/-- A SPLIT packet arrives (R373): relayed through the hold tree once, or again for an earlier point, and latched. -/
def execSplitReceived (source : Fin 65536) (pkt : ControlPkt) (s : State) : Res :=
  if pkt.op ≠ 3 ∨ !pkt.kindOk then .next s
  else
    let known := match s.change? pkt.id with
      | some c => some c
      | none => (s.planOf pkt.plan).map fun p => s.strangeChange pkt p 0
    match known with
    | none => .next s.foreign
    | some c =>
      if c.isSplit ∧ c.point ≤ pkt.point then .next s
      else
        let s := if (s.change? pkt.id).isSome then s else s.setChanges (c :: s.olc.changes)
        let s := s.inc R.OLC_SPLIT_LATCHED
        let dests := c.neighbours.filter (· != source.val)
        let s := s.sendAll 8 true pkt.encode dests
        .next (s.latchSplit c pkt.point pkt.reason)

/-! ## Effects -/

/-- At the context's step boundary at or after OLC_CHANGE_AT, EXTENDED is set and steps of S + X begin (R370, R140); a context
that a cross-region substitution stopped goes on. -/
def execSpareExtensionEffect (ctx : Fin 16) (s : State) : Res :=
  let c := ctx.val
  match s.pln.active, s.ctx? c, Tab.find? c s.olc.extArmed with
  | some p, some r, some t =>
    if t ≤ s.now ∧ r.start = s.now then
      let s := { s with olc := { s.olc with extArmed := Tab.del c s.olc.extArmed } }
      let s := (s.setCtx c { r with extended := true }).wrAt R.PLN_CTX_CFG_EXTENDED c 1
      let s := if s.gen.retime.contains c then
          { s with gen := { s.gen with retime := dropOne c s.gen.retime } }.resumeCtx p c { r with extended := true }
        else s
      .next ((s.changeApplied 7 c 0).showExt)
    else .next s
  | _, _, _ => .next s

/-- The effect count of a change armed in its owning block (R370), none where none is armed. -/
def State.effectOf (s : State) (kind c : Nat) : Option Nat :=
  match kind with
  | 1 => if s.pln.armed then some (s.pln.actAt - 16) else none
  | 2 => if s.pln.stopArmed && !s.pln.draining then some s.pln.stopAt else none
  | 3 => Tab.find? c s.pln.restarts
  | 4 => if s.rd R.GEN_MODE_NEXT_STATE = 1 then some s.gen.modeAt else none
  | 5 => if s.rd R.CLK_FCHG_CTRL_STATE = 1 then some s.clk.fchgAt else none
  | 6 => if s.onAt R.WGT_CTX_SWAP_ARMED c then some (s.passAt c (s.wctx c).swapAt) else none
  | 7 => Tab.find? c s.olc.extArmed
  | 8 => s.sch.restoreAt
  | 9 => if s.rdAt R.TOP_FWD_STATUS_STATE c = 2 then (Tab.find? c s.top.loads).map FwdLoad.armedAt else none
  | 10 => if s.rdAt R.TOP_FWD_STATUS_STATE c = 4 then (Tab.find? c s.top.loads).map FwdLoad.armedAt else none
  | _ => none

/-- A change cannot be applied at its effect count (R374): in a job of one module its owning block shows its refused state, and
a swap is dropped; in a job of more it is an epoch split with reason 4. -/
def execChangeFailedAtEffect (kind : Fin 16) (ctx : Fin 16) (s : State) : Res :=
  match s.effectOf kind ctx with
  | none => .next s
  | some t =>
    if t ≤ s.now then
      let change := s.armedChange? kind ctx
      let s := if kind.val = 1 then s.activationFails
        else if kind.val = 6 then (s.wrAt R.WGT_CTX_SWAP_ARMED ctx 0).wr R.WGT_EVENT_SWAP_DROPPED 1
        else s.withdraw kind ctx
      .next (match change with | some c => s.cannotApply c | none => s)
    else .next s

end Sys2Proof.Machine
end

