-- ==== Sys2Proof/Machine/Power.lean ====
section
/-! DEFINITION. The power rows (01_module_envelope.md R20 to R38, 16_bring_up.md R413, 17_characteristics.md R428,
R431). A row whose event cannot occur in the present state leaves the state as it is (log entry 3). -/

namespace Sys2Proof.Machine

open Sys2Proof

/-- The input rises above 18 V: the standby section starts (R26). -/
def execStandbyStart (mv : Nat) (s : State) : Res :=
  if !s.pwr.standby ∧ mv > 18000 then
    let s := { s with pwr := { s.pwr with standby := true } }
    .next (((s.wr R.PWR_VIN_NOW mv).wr R.PWR_VIN_MIN mv).wr R.PWR_VIN_MAX mv)
  else .next s

/-- The input stage precharges the bulk and hold-up stores (R27). -/
def execPrecharge (s : State) : Res :=
  if s.pwr.standby ∧ s.pwr.stage = .off ∧ s.pwr.retries = 0 ∧ s.pwr.shutdown = .none then
    .next { s with pwr := { s.pwr with stage := .precharging } }
  else .next s

/-- Precharge ends (R27). -/
def execPrechargeDone (s : State) : Res :=
  if s.pwr.stage = .precharging then
    .next ({ s with pwr := { s.pwr with stage := .closed } }.wr R.PWR_STATUS_PRECHARGE_DONE 1)
  else .next s

/-- Conversion to the Forester domain starts once precharge has ended at or above 44.0 V and the oscillator has
settled (R27, R430); the start-up hold-up test runs (R36). -/
def execForesterDomainStart (mv holdupMj : Nat) (oscillatorSettled : Bool) (s : State) : Res :=
  if s.pwr.stage = .closed ∧ !s.pwr.forester ∧ s.pwr.shutdown = .none ∧ 44000 ≤ mv ∧ oscillatorSettled then
    let s := { s with pwr := { s.pwr with forester := true, normalCount := true } }
    .next (((s.sampleInput mv).setBand (bandOf mv)).holdupTested holdupMj)
  else .next s

/-- Precharge is not complete within 250 ms: the input stage opens (R413). -/
def execPrechargeTimeout (s : State) : Res :=
  if s.pwr.stage = .precharging then
    .next { s with pwr := { s.pwr with stage := .off, retries := max s.pwr.retries 1 } }
  else .next s

/-- A further precharge, at most 3 times; then the stage stays open until input power is removed (R413). -/
def execPrechargeRetry (s : State) : Res :=
  if s.pwr.standby ∧ s.pwr.stage = .off ∧ 1 ≤ s.pwr.retries ∧ s.pwr.retries ≤ 3 then
    .next { s with pwr := { s.pwr with stage := .precharging, retries := s.pwr.retries + 1 } }
  else .next s

/-- The input falls below 44.0 V: the restart count ends (R37), and from the Normal band the band is Low, with a Notice (R21,
R434). -/
def execLowBandEntry (mv : Nat) (s : State) : Res :=
  if s.pwr.standby ∧ mv < 44000 then
    let low := s.rd R.PWR_STATUS_BAND = 0
    let s := { s with pwr := { s.pwr with normalCount := false } }.sampleInput mv
    .next (if low then s.enterLow mv else s)
  else .next s

/-- The input falls below 42.0 V: write-inhibit is set by the band (R21, R35). -/
def execWriteInhibitEntry (mv : Nat) (s : State) : Res :=
  if s.pwr.standby ∧ mv < 42000 ∧ !s.pwr.bandInhibit then
    let s := { s with pwr := { s.pwr with bandInhibit := true, normalCount := false } }
    let s := (s.sampleInput mv).setBand (if mv < 40000 then 3 else 2)
    .next (((s.wr R.PWR_EVENT_INHIBIT_SEEN 1).inc R.PWR_COUNT_INHIBIT).wr R.PWR_STATUS_NV_INHIBIT 1)
  else .next s

/-- The input has been above 43.0 V for 1.0 ms: band write-inhibit clears, and inhibit clears unless firmware keeps it
(R21, R35); a waiting spill starts (R392). -/
def execWriteInhibitExit (mv : Nat) (s : State) : Res :=
  if s.pwr.bandInhibit ∧ 43000 < mv then
    let s := { s with pwr := { s.pwr with bandInhibit := false } }
    let s := s.sampleInput mv
    .next ((if mv < 44000 then s.enterLow mv else s.setBand (bandOf mv)).refreshInhibit)
  else .next s

/-- The input falls below 40.0 V: Sag, and the 200 µs count starts (R21). A sample of 40.0 V or more abandons it. -/
def execSagBandEntry (mv : Nat) (s : State) : Res :=
  if s.pwr.standby ∧ mv < 40000 then
    let s := { s with pwr := { s.pwr with sagCount := true, normalCount := false } }
    .next ((s.sampleInput mv).setBand 3)
  else if s.pwr.sagCount then
    let s := { s with pwr := { s.pwr with sagCount := false } }
    .next ((s.sampleInput mv).setBand (if s.pwr.bandInhibit then 2 else bandOf mv))
  else .next s

/-- Orderly shutdown by a cause that an event names as that of the last shutdown: set where this one begins it (R37, R38). -/
def State.shutdownBy (s : State) (event : Field) : State :=
  (if s.pwr.shutdown = .none then s.wr event 1 else s).orderlyShutdown

/-- The input has stayed below 40.0 V for 200 µs: orderly shutdown (R21, R37). -/
def execSagTimeout (s : State) : Res :=
  if s.pwr.sagCount then
    let s := { s with pwr := { s.pwr with sagCount := false } }
    .next (s.shutdownBy R.PWR_EVENT_SHUTDOWN_SAG)
  else .next s

/-- The input has been above 60.0 V for 50 µs: orderly shutdown (R21, R37). -/
def execOverVoltageTimeout (mv : Nat) (s : State) : Res :=
  if s.pwr.standby ∧ 60000 < mv then
    let s := { s with pwr := { s.pwr with normalCount := false } }
    let s := ((s.sampleInput mv).wr R.PWR_STATUS_OV 1).setBand 4
    .next (s.shutdownBy R.PWR_EVENT_SHUTDOWN_OV)
  else .next s

/-- The input enters the Normal band, 44.0 V to 60.0 V: BAND returns to 0 and the restart count runs (R21, R37). -/
def execNormalBandEntry (mv : Nat) (s : State) : Res :=
  if s.pwr.standby ∧ 44000 ≤ mv ∧ mv ≤ 60000 then
    let s := { s with pwr := { s.pwr with sagCount := false, normalCount := true } }
    .next (((s.sampleInput mv).wr R.PWR_STATUS_OV 0).setBand (if s.pwr.bandInhibit then 2 else 0))
  else .next s

/-- Input power is removed (R26): the standby section, the PWR block and the oscillator stop, and everything but the
non-volatile stores is lost. With the hold-up switch closed the Forester domain and its standby section run on from the
hold-up store until the domain powers off, or the store is empty, which this row says a second time (log entry 104). -/
def execInputPowerLoss (s : State) : Res :=
  .next (if s.pwr.forester ∧ s.pwr.holdupSwitch ∧ !s.pwr.inputGone then s.onHoldup else s.powerLost)

/-- Every admitted write unit has committed and every seal closed at shutdown is signed: the Forester domain powers
off apart from its standby section, which without input power goes with it (R37, R26). -/
def execForesterPowerOff (s : State) : Res :=
  if s.pwr.shutdown = .holdUp ∧ s.pwr.units = [] ∧ s.sealsSigned then
    .next (if s.pwr.inputGone then s.powerLost else s.foresterOff)
  else .next s

/-- With AUTO_RESTART set and the input Normal for 100 ms after power-off, the module restarts from module reset
(R37, R414). -/
def execAutoRestart (s : State) : Res :=
  if s.pwr.shutdown = .off ∧ s.on R.PWR_CTRL_AUTO_RESTART ∧ s.pwr.normalCount then .next s.moduleReset else .next s

/-- The input current reaches the threshold in force: the current throttle is asserted (R23, R428). -/
def execCurrentThrottleAssert (current : Nat) (s : State) : Res :=
  if s.pwr.throttleAt ≤ current ∧ !s.on R.PWR_STATUS_THROTTLE then
    .next (s.sampleCurrent current).assertThrottle
  else .next s

/-- The current falls below 66 A: the throttle releases (R23), unless coolant outside its limits keeps it asserted at whatever
threshold (R428, R431). -/
def execCurrentThrottleRelease (current : Nat) (s : State) : Res :=
  if s.on R.PWR_STATUS_THROTTLE ∧ current < 6600 ∧ (s.pwr.coolantOk ∨ !s.pwr.dieOn) then
    .next (s.sampleCurrent current).releaseThrottle
  else .next s

/-- A coolant sample (0.1 °C, mL/min) lies outside the limits of R428: the throttle stays asserted at the input
current of the window, the event is set and a Fault recorded (R20, R428, R431, R434). -/
def execCoolantLeaveLimits (temp flow current : Nat) (s : State) : Res :=
  if coolantOut temp flow ∧ s.pwr.coolantOk then
    let s := s.sampleCurrent current
    let s := { s with pwr := { s.pwr with coolantOk := false, throttleAt := min s.pwr.throttleAt current } }
    let s := s.wr R.PWR_EVENT_COOLANT 1
    let s := if temp < 150 ∨ 400 < temp then s.fault 1 0x82 0 0 temp else s
    let s := if flow < 3000 ∨ 6000 < flow then s.fault 1 0x82 1 0 flow else s
    .next (if s.on R.PWR_STATUS_THROTTLE then s else s.assertThrottle)
  else .next s

/-- The coolant has been outside its limits for 2 s: orderly shutdown (R20). -/
def execCoolantShutdownTimeout (s : State) : Res :=
  if !s.pwr.coolantOk ∧ s.pwr.dieOn then .next s.orderlyShutdown else .next s

/-- The re-entry condition has held for 10 s: the threshold returns to 68 A (R428, R431). -/
def execCoolantReentry (temp flow : Nat) (s : State) : Res :=
  if 155 ≤ temp ∧ temp ≤ 390 ∧ 3200 ≤ flow ∧ flow ≤ 5800 ∧ !s.pwr.coolantOk then
    let s := { s with pwr := { s.pwr with coolantOk := true, throttleAt := 6800 } }
    .next (if s.rd R.PWR_IIN_NOW < 6600 then s.releaseThrottle else s)
  else .next s

/-- The coolant is not within limits 60 s after Forester boot: a Fault, and the die stays unpowered (R413, R434). -/
def execCoolantStartTimeout (temp flow : Nat) (s : State) : Res :=
  if s.pwr.forester ∧ !s.pwr.dieOn ∧ coolantOut temp flow then
    let s := if temp < 150 ∨ 400 < temp then s.fault 1 0x83 0 0 temp else s
    .next (if flow < 3000 ∨ 6000 < flow then s.fault 1 0x83 1 0 flow else s)
  else .next s

/-- A fill that no hold or replay span covers outlasts PWR_FILL.LIMIT: a taper starts (R31, R33). -/
def execFillLimitExpiry (s : State) : Res :=
  if !s.covered ∧ s.pwr.fill.any s.fillOver then
    let w := s.benchPower
    let s := { s with pwr := { s.pwr with fill := s.pwr.fill.map fun (x : FillRun) => { x with tapered := x.tapered || s.fillOver x } } }
    .next (s.showFill.startTaper w)
  else .next s

/-- A taper step of EFF_STEP ticks expires; the 32nd ends its taper (R32), and the end of the last taper brings steps 3 and 4 of a
shutdown (R37). -/
def execTaperStep (s : State) : Res :=
  if s.pwr.tapers.any s.taperDue then
    let s := s.stepTapers
    .next (if s.pwr.tapers = [] then (s.wr R.PWR_STATUS_TAPER 0).taperEnded else s)
  else .next s

/-- The hold-up store is connected to the Forester domain (R34). -/
def execHoldupSwitchClose (s : State) : Res :=
  if s.pwr.forester then .next { s with pwr := { s.pwr with holdupSwitch := true } } else .next s

/-- A write unit is requested (R34, R35): the flash controller samples write-inhibit and HOLDUP_OK at its start. -/
def execWriteUnitRequest (store : FlashStore) (s : State) : Res :=
  if s.pwr.forester then .next (s.requestUnits [.other store]) else .next s

/-- The running write unit commits (R34), and the next one starts if it is admitted. -/
def execWriteUnitCommit (s : State) : Res :=
  match s.pwr.units with
  | [] => .next s
  | u :: rest => .next ((({ s with pwr := { s.pwr with units := [] } } : State).commitUnit u).requestUnits rest)

/-- The 60 s hold-up test (R36). -/
def execHoldupTestPeriodic (mj : Nat) (s : State) : Res :=
  if s.pwr.forester then .next (s.holdupTested mj) else .next s

/-- PWR_HOLDUP.TEST runs a hold-up test now, refused while a write unit runs (R38, R36). -/
def execPwrHoldupTest (mj : Nat) (s : State) : Res :=
  if s.pwr.forester ∧ s.pwr.units = [] then .next (s.holdupTested mj) else .next s

/-- PWR_CTRL.CLEAR_EXTREMES (R38). -/
def execClearExtremes (s : State) : Res :=
  let s := (s.wr R.PWR_VIN_MIN (s.rd R.PWR_VIN_NOW)).wr R.PWR_VIN_MAX (s.rd R.PWR_VIN_NOW)
  .next ((s.wr R.PWR_IIN_PEAK (s.rd R.PWR_IIN_NOW)).wr R.PWR_IIN_SLEW_MAX 0)

/-- PWR_CTRL.SHUTDOWN starts orderly shutdown (R38, R37). -/
def execPwrShutdown (s : State) : Res := .next s.orderlyShutdown

/-- PWR_CTRL.NV_INHIBIT sets or clears firmware write-inhibit (R35). -/
def execPwrNvInhibit (inhibit : Bool) (s : State) : Res :=
  .next ((s.wr R.PWR_CTRL_NV_INHIBIT (flag inhibit)).refreshInhibit)

end Sys2Proof.Machine
end

