-- ==== Sys2Proof/Machine/TwinPair.lean ====
section
/-! DEFINITION. The pair at work (13_twin_pairs.md R350 to R360): items received, Replica sets and comparisons, loss of the
partner and takeover. -/

namespace Sys2Proof.Machine

open Sys2Proof

/-! ## Items received -/

/-- A block on a twin port is discarded (R351). -/
def State.lateItem (s : State) : State := s.inc R.TWN_DROP_LATE_ITEMS

/-- Contexts, roles and modes to which a kind of item belongs while the pair holds (R351). -/
def State.itemExpected (s : State) (kind c : Nat) : Bool :=
  let mode := s.rdAt R.TWN_CTX_MODE c
  let secondary := s.on R.TWN_STATUS_ROLE_NOW
  s.paired && decide (c < 16) && (match kind with
    | 1 => mode == 2 && secondary
    | 2 => mode == 1 && secondary
    | 3 => mode == 1 && secondary
    | 4 => mode == 2
    | 5 => mode == 1 && !secondary
    | _ => false)

/-- The first of the eight windows of which an item of a kind is expected (R351). -/
def State.itemBase (s : State) (kind c : Nat) : Nat :=
  let oldest (p : WindowRec → Bool) : Nat := match s.run? c with
    | some r => (match r.windows.find? p with | some w => w.index | none => r.window)
    | none => 0
  match kind with
  | 1 => oldest fun w => !w.setShipped
  | 2 => Tab.get 0 c s.twn.nextIndex
  | 3 => Tab.get 0 c s.twn.nextState
  | 4 => oldest fun w => !w.compared
  | _ => match Tab.find? c s.twn.acked with | some a => a + 1 | none => 0

/-- A block of a Mirror item in the staging area (R354): at its place, as far as the area has room for it. -/
def State.stageData (s : State) (kind c w index : Nat) (data : List Byte) : State :=
  match (if kind = 2 ∨ kind = 3 then s.intake? c else none) with
  | none => s
  | some e =>
    let (at_, room) := s.stagePlace e kind w
    if 236 * index + data.length ≤ room then s.putMem (at_ + 236 * index) data else s

/-- A block joins its item. One that its item holds already is the same, and changes nothing, or comes from a new attempt and replaces the
old one (R351, R360). -/
def State.stageBlock (s : State) (kind c w index count : Nat) (cells : List CellReading) (data : List Byte) : State :=
  let mine (x : TwinItem) : Bool := x.kind == kind && x.ctx == c && x.window == w
  let old : Tab (List Byte) := match s.twn.items.find? mine with | some x => x.blocks | none => []
  let blocks := (Tab.ins index data old).filter fun (b : Nat × List Byte) => decide (b.1 < max count (index + 1))
  let items := s.twn.items.filter (fun x => !mine x) ++ [⟨kind, c, w, count, blocks, cells⟩]
  let key := 16 * kind + c
  { s with twn := { s.twn with items := items, seen := Tab.put 0 key (max (Tab.get 0 key s.twn.seen) (w + 1)) s.twn.seen } }.stageData kind c w index data

/-- The block of a twin item (R351): its context and window, once staged; none where it is discarded. -/
def State.takeItem (s : State) (kind count : Nat) (cells : List CellReading) (l : List Byte) : State × Option (Nat × Nat) :=
  let c := beAt 1 1 l
  if l.length < 8 ∨ !s.itemExpected kind c then (s.lateItem, none)
  else
    let base := s.itemBase kind c
    let ahead := (beAt 4 4 l + 2 ^ 32 - base % 2 ^ 32) % 2 ^ 32
    if 8 ≤ ahead then (s.lateItem, none)
    else (s.stageBlock kind c (base + ahead) (beAt 2 2 l) count cells (l.drop 8), some (c, base + ahead))

/-- A block of an item of `kind` arrives on a twin port (R267 to R278, R351), and `f` says what a whole item does. -/
def State.twinBlock (s : State) (port : Nat) (blk : WireBlock) (kind count : Nat) (cells : List CellReading)
    (f : State → Nat → Nat → TwinItem → State) : State :=
  if s.rdAt R.TOP_PORT_USE port ≠ 4 then s
  else match s.accept port blk with
    | (t, none) => t
    | (t, some b) =>
      if b.type ≠ 1 ∨ beAt 0 1 b.data ≠ kind then t
      else match t.takeItem kind count cells b.data with
        | (t, none) => t
        | (t, some (c, w)) => match t.wholeItem kind c w with
          | some x => f t c w x
          | none => t

/-- The cells of a SET with what their descriptors read as (R351, R253). -/
def cutCells : List Byte → List CellReading → List (List Byte × CellReading × List Byte)
  | _, [] => []
  | l, d :: t => match parseRecord (l.drop 64) with
    | none => []
    | some (_, _, _, _, record, rest) => (l.take 64, d, record) :: cutCells rest t

/-- The slot that a cell of the primary gives the secondary (R357). -/
def cellSlot (e : IntakeEntry) (i : Nat) (x : List Byte × CellReading × List Byte) : SlotRec :=
  let d := x.2.1
  let l := x.2.2
  let q : Request := { id := beAt 0 8 l, key := beAt 8 16 l, op := beAt 24 1 l, length := beAt 26 2 l, record := l, tally := d.tally
                       sixteenth := d.sixteenth, ptpS := d.ptpS, ptpNs := d.ptpNs, port := 0, frameSeq := 0, pos := i, carries := d.carries
                       malformed := decide (e.maxRequest < beAt 26 2 l), holdover := false }
  { freshSlot d.epoch q with status := d.status }

/-- The secondary writes a window's cells into its request buffers (R357), and awaits the comparison anew. -/
def State.takeSet (s : State) (e : IntakeEntry) (r : IntakeRun) (w : WindowRec) (x : TwinItem) : State :=
  let cells := cutCells (itemBytes x) x.cells
  let s := cells.zipIdx.foldl (fun s c => s.setBytes (s.reqCell e w.index c.2) (fit 2048 (c.1.1 ++ c.1.2.2))) s
  let slots := cells.zipIdx.map fun c => cellSlot e c.2 c.1
  let (s, w) := s.shipTags e { w with slots := slots, setShipped := true, recheck := none }
  let s := { s with twn := { s.twn with lastSet := Tab.put 0 e.ctx (w.index + 1) s.twn.lastSet } }
  (s.setWindow e.ctx r w).dropItem 1 e.ctx w.index

/-- SET (R357): once whole, and its window sealed here, its cells enter the request buffers. -/
def execTwinSetReceived (port : Fin 16) (blk : WireBlock) (count : Nat) (cells : List CellReading) (s : State) : Res :=
  .next (s.twinBlock port blk 1 count cells fun s c w x =>
    match s.intake? c, s.run? c with
    | some e, some r => match r.windows.find? fun v => v.index == w with
      | some v => s.takeSet e r v x
      | none => s
    | _, _ => s)

/-- INDEX (R354): staged for the index write windows of a later batch. -/
def execTwinIndexReceived (port : Fin 16) (blk : WireBlock) (count : Nat) (s : State) : Res :=
  .next (s.twinBlock port blk 2 count [] fun s _ _ _ => s)

/-- STATE (R354): staged for the state write windows of a later batch. -/
def execTwinStateReceived (port : Fin 16) (blk : WireBlock) (count : Nat) (s : State) : Res :=
  .next (s.twinBlock port blk 3 count [] fun s _ _ _ => s)

/-- TAGS (R357): kept for the comparison of its window. -/
def execTwinTagsReceived (port : Fin 16) (blk : WireBlock) (count : Nat) (s : State) : Res :=
  .next (s.twinBlock port blk 4 count [] fun s _ _ _ => s)

/-- ACK (R355): its window and those before are protected. -/
def execTwinAckReceived (port : Fin 16) (blk : WireBlock) (s : State) : Res :=
  .next (s.twinBlock port blk 5 1 [] fun s c w x =>
    let a := beNat ((itemBytes x).take 8)
    let s := s.dropItem 5 c w
    { s with twn := { s.twn with acked := Tab.ins c a s.twn.acked } }.wrAt R.TWN_APPLIED_WINDOW c a)

/-! ## Replica -/

/-- The count of a check of a window has come: first at `t` from its close, then as R313 repeats it. -/
def State.checkDue (s : State) (w : WindowRec) (t : Nat) : Bool :=
  match w.recheck with
  | some a => decide (a ≤ s.now)
  | none => s.timeDue (w.closeNominal + t)

/-- From C_w + 128 the primary ships window w's SET (R357). -/
def execReplicaSetShip (ctx : Fin 16) (s : State) : Res :=
  match s.intake? ctx, s.run? ctx with
  | some e, some r => match r.windows.find? fun w => !w.setShipped with
    | some w =>
      if s.replicates ctx ∧ !s.on R.TWN_STATUS_ROLE_NOW ∧ s.timeDue (w.closeNominal + 128) then
        match s.readSpans ctx (s.setSpans e w) with
        | (s, false) => .next s
        | (s, true) =>
          let (s, w) := (s.shipItem 1 ctx w.index (s.setItem e w)).shipTags e { w with setShipped := true }
          .next (s.setWindow ctx r w)
      else .next s
    | none => .next s
  | _, _ => .next s

/-- At C_w + SEAL_TICKS the secondary must hold window w's SET (R358). -/
def execReplicaSetCheck (ctx : Fin 16) (s : State) : Res :=
  match s.intake? ctx, s.run? ctx with
  | some e, some r => match r.windows.find? fun w => !w.setShipped with
    | some w =>
      if s.replicates ctx ∧ s.on R.TWN_STATUS_ROLE_NOW ∧ s.checkDue w (s.rd R.ITK_CFG_SEAL_TICKS) then
        match s.wholeItem 1 ctx w.index with
        | some x => .next (s.takeSet e r w x)
        | none => .next (s.twinCheckFailed e r w)
      else .next s
    | none => .next s
  | _, _ => .next s

/-- The tag of slot `i` in a TAGS item: behind the status bytes, those with status OK in order (R351). -/
def itemTag (slots i : Nat) (l : List Byte) : List Byte :=
  slice (slots + 32 * ((l.take i).filter fun b => b == 0).length) 32 l

/-- The first slot whose status or tag differs (R358). -/
def firstDiffering (slots : Nat) (a b : List Byte) : Option Nat :=
  (List.range slots).find? fun i => beAt i 1 a != beAt i 1 b || (beAt i 1 a == 0 && itemTag slots i a != itemTag slots i b)

/-- A divergence (R358). -/
def State.diverges (s : State) (c w slot : Nat) : State :=
  let s := ((s.wr R.TWN_DIVERGE_WINDOW (w % 2 ^ 40)).wr R.TWN_DIVERGE_SLOT slot).wr R.TWN_DIVERGE_CONTEXT c
  let s := ((s.wr R.TWN_DIVERGE_VALID 1).inc R.TWN_COUNT_DIVERGE).wr R.TWN_EVENT_DIVERGE 1
  (s.dropItem 4 c w).stepFatal 15 0x0B 7 c slot (2 ^ c)

/-- At C_w + COMPARE_TICKS the tags of both modules are compared, unless the batch of either is quarantined (R357, R358). -/
def execReplicaCompare (ctx : Fin 16) (s : State) : Res :=
  match s.intake? ctx, s.run? ctx with
  | some e, some r => match r.windows.find? fun w => !w.compared with
    | some w =>
      if s.replicates ctx ∧ s.checkDue w (s.rdAt R.TWN_CTX_COMPARE_TICKS ctx) then
        if w.quarantined then
          .next (((s.inc R.TWN_DROP_SKIPPED).dropItem 4 ctx w.index).setWindow ctx r { w with compared := true, recheck := none })
        else
          match (if w.tagsSent then s.wholeItem 4 ctx w.index else none) with
          | none => .next (s.twinCheckFailed e r w)
          | some x =>
            if (itemBytes x).take e.slots |>.contains 1 then
              .next (((s.inc R.TWN_DROP_SKIPPED).dropItem 4 ctx w.index).setWindow ctx r { w with compared := true, recheck := none })
            else match firstDiffering e.slots (tagsItem e w) (itemBytes x) with
            | none =>
              let s := (s.dropItem 4 ctx w.index).setWindow ctx r { w with compared := true, recheck := none }
              .next ((s.inc R.TWN_COUNT_BATCHES).wrAt R.TWN_APPLIED_WINDOW ctx w.index)
            | some i => .next (s.diverges ctx w.index i)
      else .next s
    | none => .next s
  | _, _ => .next s

/-! ## Loss and takeover -/

/-- TWN_CTRL.TAKEOVER (R356, R360): ignored and counted on the primary. -/
def execTwnTakeover (s : State) : Res :=
  let st := s.rd R.TWN_STATUS_STATE
  if s.on R.TWN_STATUS_ROLE_NOW ∧ (st = 1 ∨ st = 2) then .next s.startTakeover else .next s.lateItem

/-- TWN_CTRL.SOLO (R359). -/
def execTwnSolo (s : State) : Res := .next s.partnerLost

/-- One more than the last window of which an item of a kind is due here (R355, R358): a SET and TAGS with their check, INDEX and STATE with
the state write windows of its batch, an ACK LAG windows later. -/
def State.itemDue (s : State) (kind c : Nat) : Nat :=
  let checked (t : Nat) : Nat := match s.run? c with
    | some r => ((r.windows.filter fun w => s.timeDue (w.closeNominal + t)).map fun w => w.index + 1).foldl max 0
    | none => 0
  match kind with
  | 1 => checked (s.rd R.ITK_CFG_SEAL_TICKS)
  | 4 => checked (s.rdAt R.TWN_CTX_COMPARE_TICKS c)
  | 5 => Tab.get 0 c s.twn.due - s.rdAt R.TWN_CTX_LAG c
  | _ => Tab.get 0 c s.twn.due

/-- Items of a context that are expected from the partner are LOST_WINDOWS windows behind (R359). -/
def State.behind (s : State) (c : Nat) : Bool :=
  [1, 2, 3, 4, 5].any fun k => s.itemExpected k c && decide (Tab.get 0 (16 * k + c) s.twn.seen + s.rd R.TWN_CFG_LOST_WINDOWS ≤ s.itemDue k c)

/-- The partner is lost with every twin port, or by items that do not come (R359). -/
def execPartnerLost (s : State) : Res :=
  if s.twinPorts = [] ∨ (List.range 16).any s.behind then .next s.partnerLost else .next s

/-- One more than the last window of a context of which an item of a kind is held whole. -/
def State.wholeUpTo (s : State) (kind c : Nat) : Nat :=
  ((s.twn.items.filter fun x => x.kind == kind && x.ctx == c && itemWhole x).map fun x => x.window + 1).foldl max 0

/-- One more than the last window that a standby applies (R356, R359): in Mirror mode the last applied or whole, and in Replica mode
the last whose SET it held whole. -/
def State.lastApplied (s : State) (c : Nat) : Nat :=
  if s.rdAt R.TWN_CTX_MODE c = 1 then max (Tab.get 0 c s.twn.nextState) (s.wholeUpTo 3 c)
  else max (Tab.get 0 c s.twn.lastSet) (s.wholeUpTo 1 c)

/-- At its first window boundary past TAKEOVER_LEAD a standing-by context opens intake, and the module is the active one (R356). The
whole shipments left are applied in the write windows of the batches before. The Notice has bits [31:0] of the last window applied,
and of −1 where none is (DESIGN CHOICE, log entry 159). -/
def execTakeoverEffect (ctx : Fin 16) (s : State) : Res :=
  match s.twn.takeoverAt, s.run? ctx with
  | some t, some r =>
    if t ≤ s.now ∧ r.standby ∧ r.openAt = s.now then
      let last := s.lastApplied ctx
      let s := { s with twn := { s.twn with takenFrom := Tab.ins ctx r.window s.twn.takenFrom } }.setRun ctx { r with standby := false }
      let s := ((s.wr R.TWN_STATUS_STATE 3).wr R.TWN_STATUS_ROLE_NOW 0).wr R.TWN_EVENT_TAKEOVER 1
      .next (s.notice 15 0x80 0 ctx ((last + 2 ^ 32 - 1) % 2 ^ 32))
    else .next s
  | _, _ => .next s

end Sys2Proof.Machine
end

