-- ==== Sys2Proof/Machine/Registers.lean ====
section
/-! DEFINITION. Register accesses (00_scope.md R15; 14_forester_and_control.md R367, R368): what a read of any offset returns, what a
write stores field by field, and the actions that WO fields trigger. -/

namespace Sys2Proof.Machine

open Sys2Proof

/-! ## Reading -/

/-- Bits of a trace record (R401). -/
def TraceRec.pack (r : TraceRec) : Nat :=
  r.data % 2 ^ 29 * 2 ^ 99 + r.context % 16 * 2 ^ 95 + r.unit % 1024 * 2 ^ 85 + r.event % 256 * 2 ^ 77 + r.source % 64 * 2 ^ 71
    + r.field % 8 * 2 ^ 68 + r.sixteenth % 16 * 2 ^ 64 + r.tally % 2 ^ 64

/-- The fingerprint of a key slot (R153, R398): zero when it holds no key. -/
def KeySlot.fingerprint (k : KeySlot) : List Byte :=
  match k.modulus with | some m => Crypto.sha512 (beBytes 512 m) | none => zeros 64

/-- Word `i` of an error record, zero where there is none (R405). -/
def recordWord (r : Option ErrRec) (i : Nat) : Nat := match r with | some r => r.pack / 2 ^ (64 * i) % 2 ^ 64 | none => 0

/-- Bytes 8j to 8j + 7 of the trace page in OBS_TRACE_PAGE (R401). -/
def State.traceWord (s : State) (j : Nat) : Nat :=
  match Tab.find? (4096 * s.rd R.OBS_TRACE_PAGE_PAGE + j / 2) s.obs.trace with
  | some r => r.pack / 2 ^ (64 * (j % 2)) % 2 ^ 64
  | none => 0

/-- What element `i` of a field shows: what other state determines, or the value held (R368, R369: a pending value for a Staged
field). -/
def State.shown (s : State) (f : Field) (i : Nat) : Nat :=
  if f.access = .wo then 0
  else if f = R.FLT_PRIMARY_RECORD then recordWord s.flt.primary i
  else if f = R.FLT_QUEUE_RECORD then recordWord s.flt.queue[i / 4]? (i % 4)
  else if f = R.RRC_ENTRY_BYTES then
    (match Tab.find? (i / 8) s.rrc.entries with | some e => leAt (8 * (i % 8)) 8 e.encode | none => 0)
  else if f = R.OBS_TRACE_WIN_DATA then s.traceWord i
  else if f = R.SEC_KEY_FP_FP then
    (match s.nv.keys[i / 8]? with | some k => leAt (8 * (i % 8)) 8 k.fingerprint | none => 0)
  else if f = R.TOP_SERIAL_SERIAL then s.nv.serial
  else if f = R.BCH_ID_PHYS then i
  else if f = R.BCH_ID_REGION then benchRegion i
  else if f = R.BCH_ID_FIELD then benchField i
  else if f = R.BCH_ID_SPARE then flag (i % 33 == 32)
  else if f = R.HBM_CFG_ADAPT then flag (s.mayChoose R.GEN_MODE_EN_REFRESH)
  else if f = R.DTR_CFG_PREFETCH then flag (s.mayChoose R.GEN_MODE_EN_PREFETCH)
  else if f = R.FRK_CAP_WATCH_CAPACITY then
    (match s.pln.active with
      | some p => (match p.groups.find? fun g => g.number == s.rd R.FRK_CTRL_WATCH_GROUP with | some g => g.capacity | none => 0)
      | none => 0)
  else if f = R.GEN_TAG_QUEUE_DEPTH then min s.tagsHeld 65536
  else if f = R.FRK_CAP_WATCH_FILLED then min (Tab.get 0 (s.rd R.FRK_CTRL_WATCH_GROUP) s.frk.lastFilled) 65536
  else if f = R.FRK_CAP_WATCH_OVERFLOW then min (Tab.get 0 (s.rd R.FRK_CTRL_WATCH_GROUP) s.frk.lastOverflow) 131071
  else if f.cls = .staged then s.lastAt f i
  else s.rdAt f i

/-- The 64-bit word `w` of the register of a row at `base`. -/
def State.regWord (s : State) (r : RegRow) (base w : Nat) : Nat :=
  (r.fields.map fun f => s.shown f (f.elem base) * 2 ^ f.lo).sum / 2 ^ (64 * w) % 2 ^ 64

/-- A 64-bit read at an offset of CSR space (R367): a hole reads as zero and is counted. -/
def State.readCsr (s : State) (off : Nat) : State × Nat :=
  match regAt off with
  | none => (s.badCsr, 0)
  | some (r, base, w) => (s, s.regWord r base w)

/-! ## Storing -/

/-- What a value of a field is stored as, where its register says so. -/
def storedAs (f : Field) (v : Nat) : Nat :=
  let atLeast (l : List (Field × Nat)) : Nat := match l.find? fun x => x.1 == f with | some x => max x.2 v | none => v
  let v := atLeast
    [(R.PWR_RAMP_BUDGET_W_PER_MS, 200), (R.PWR_FILL_LIMIT, 1), (R.TAL_CTRL_LOSS_US, 1), (R.TAL_CTRL_SLEW_PPM, 1),
     (R.FRK_CTRL_MAX_HOLDS, 1), (R.GEN_SEAL_CFG_TICKS, 16), (R.GEN_SEAL_CFG_BATCHES, 1), (R.DTR_CFG_AHEAD, 1),
     (R.WGT_CFG_RECHECK_S, 1), (R.WGT_CFG_TIMEOUT_MS, 1), (R.PTP_CFG_LOCK_NS, 1), (R.HAUL_CFG_LINK_DOWN_US, 10),
     (R.HAUL_CFG_MARKER_TICKS, 16), (R.HAUL_CFG_REPLAY_MARGIN_NS, 256), (R.HAUL_CFG_LANE_FAIL_NS, 32), (R.HAUL_LANE_CFG_DEG_SYM, 1),
     (R.HAUL_LANE_CFG_CAL_MS, 1), (R.HAUL_LANE_CFG_ROT_MS, 10), (R.HAUL_LANE_CFG_RETRY_MS, 1), (R.SCH_CFG_MAX_HOLDS, 1),
     (R.SCH_CFG_MAX_REPLAYS, 1), (R.SCH_CFG_FAST_US, 1), (R.SCH_SVC_CFG_GAP_NS, 1), (R.SCH_SVC_CFG_HOP_LIMIT, 1),
     (R.SCH_TELEM_PERIOD_MS, 1), (R.TWN_CFG_MAX_HOLDS, 1), (R.TWN_CFG_LOST_WINDOWS, 1), (R.TWN_CTX_LAG, 1), (R.FLT_CFG_BENCH_MS, 1),
     (R.RRC_CFG_HIGH, 1), (R.RRC_CFG_SPILL_S, 1)]
  let atMost (l : List (Field × Nat)) : Nat := match l.find? fun x => x.1 == f with | some x => min x.2 v | none => v
  let v := atMost
    [(R.PWR_RAMP_BUDGET_W_PER_MS, 1980), (R.TAL_CTRL_SLEW_PPM, 100), (R.TAL_CTRL_ROLE, 2), (R.GEN_SEAL_CFG_TICKS, 1187500),
     (R.GEN_SEAL_CFG_BATCHES, 1024), (R.HAUL_CFG_LINK_DOWN_US, 10000), (R.HAUL_CFG_MARKER_TICKS, 2048), (R.HAUL_LANE_CFG_RETRY_MS, 1280),
     (R.SCH_CFG_FAST_US, 100), (R.TWN_CTX_LAG, 8)]
  if f = R.HAUL_CFG_MARKER_TICKS then v / 16 * 16
  else if f = R.TWN_CFG_TAKEOVER_LEAD ∨ f = R.OLC_2PC_LEAD_TICKS ∨ f = R.OLC_2PC_VOTE_TICKS then roundUp 16 v
  else if f = R.WGT_DESC_ADDR then v / 128 * 128
  else if f = R.TOP_FWD_SRC_ADDR then v / 4096 * 4096
  else if f = R.TWN_STAGE_ADDR then v / 65536 * 65536
  else v

/-- Write the value in effect of element `i` of a field: nothing stays pending for it. -/
def State.takeEffect (s : State) (f : Field) (i v : Nat) : State := { s.wrAt f i v with staged := Tab.del (f.key i) s.staged }

/-- One field of a written register (R15, R368): the state after it, and whether the write was ignored. `x` is what the written word
holds in the field's bits. -/
def State.writeField (s : State) (run : Bool) (f : Field) (i x : Nat) : State × Bool :=
  match f.access with
  | .ro => (s, false)
  | .wo => (s, false)
  | .w1c => (s.clearBits f i x, false)
  | .rw =>
    let v := storedAs f x % 2 ^ f.width
    match f.cls, run with
    | .static, true => (s, v != s.rdAt f i)
    | .staged, true => ({ s with staged := Tab.ins (f.key i) v s.staged }, false)
    | _, _ => (s.takeEffect f i v, false)

/-- The fields of a register that lie in its word `w`, and their bits in a written value. -/
def RegRow.inWord (r : RegRow) (w v : Nat) : List (Field × Nat) :=
  (r.fields.filter fun f => f.lo / 64 == w).map fun f => (f, v / 2 ^ (f.lo % 64) % 2 ^ f.width)

/-- Write the fields of a register one by one. -/
def State.writeFields (s : State) (run : Bool) (base : Nat) : List (Field × Nat) → State × Bool
  | [] => (s, false)
  | (f, x) :: t =>
    let (s, a) := s.writeField run f (f.elem base) x
    let (s, b) := s.writeFields run base t
    (s, a || b)

/-- Values stored no higher than another field of their register (R62, R210, R211, R327). -/
def State.capped (s : State) : State :=
  let cap (s : State) (f g : Field) : State := if s.rd g < s.rd f then s.wr f (s.rd g) else s
  cap (cap (cap (cap s R.CLK_TT_THRESH_CRIT R.CLK_TT_THRESH_WARN) R.HBM_CFG_TEMP_WARN R.HBM_CFG_TEMP_LIMIT) R.DTR_CFG_TEMP_WARN
    R.DTR_CFG_TEMP_LIMIT) R.SCH_SVC_CFG_THROTTLE_LO R.SCH_SVC_CFG_THROTTLE_HI

/-! ## Actions -/

/-- The next state of a command that only takes one; the state itself where it stops. -/
def settle (s : State) (r : Res) : State := match r with | .next t => t | _ => s

/-- The registers whose every write is a command of its own: OLC_CHANGE_NEXT, the leases and their enable (R371, R343). -/
def ownWrite (off value : Nat) : Option (State → Res) :=
  let lease := R.TOP_LEASE_VALID.addr
  let plan := R.TOP_LEASE_PLAN_PLAN.addr
  if off = R.OLC_CHANGE_NEXT_ID.addr then some (execChangeNextWrite value)
  else if off = R.TOP_LEASE_CTRL_EN.addr then some (execLeaseEnable (bit R.TOP_LEASE_CTRL_EN.lo value))
  else if lease ≤ off ∧ off < lease + 8 * R.TOP_LEASE_VALID.stride ∧ (off - lease) % R.TOP_LEASE_VALID.stride = 0 then
    some (execLeaseWrite (Fin.ofNat 8 ((off - lease) / R.TOP_LEASE_VALID.stride)) false value)
  else if plan ≤ off ∧ off < plan + 8 * R.TOP_LEASE_PLAN_PLAN.stride ∧ (off - plan) % R.TOP_LEASE_PLAN_PLAN.stride = 0 then
    some (execLeaseWrite (Fin.ofNat 8 ((off - plan) / R.TOP_LEASE_PLAN_PLAN.stride)) true value)
  else none

/-- What writing 1 to a WO field does (R368), for element `i` of its array. -/
def actionOf (f : Field) (i : Nat) (inp : ActionInput) : Option (State → Res) :=
  let slot (s : State) : Fin 8 := Fin.ofNat 8 (s.rd R.TOP_FWD_CTRL_SLOT)
  let l : List (Field × (State → Res)) :=
    [(R.PWR_CTRL_CLEAR_EXTREMES, execClearExtremes), (R.PWR_CTRL_SHUTDOWN, execPwrShutdown), (R.PWR_HOLDUP_TEST, execPwrHoldupTest inp.mj),
     (R.CLK_FCHG_CTRL_ARM, execFchgArm), (R.CLK_FCHG_CTRL_DISARM, execFchgDisarm), (R.TAL_CTRL_ALIGN_NOW, execAlignNow),
     (R.TAL_CAPTURE_CAPTURE, execTalCapture), (R.GEN_MODE_NEXT_DISARM, execGenModeDisarm), (R.GEN_MODE_NEXT_ARM, execGenModeArm),
     (R.GEN_SEAL_CTRL_CLOSE_NOW, execSealCloseNow), (R.PLN_CTRL_CTX_RESTART, execPlnCtxRestart), (R.PLN_CTRL_ABORT, execPlnAbort),
     (R.PLN_CTRL_STOP_ARM, execPlnStopArm), (R.PLN_CTRL_DISARM, execPlnDisarm), (R.PLN_CTRL_ARM, execPlnArm inp.twinFault),
     (R.PLN_CTRL_DISCARD, execPlnDiscard), (R.PLN_CTRL_VERIFY, execPlnVerify), (R.WGT_LOAD_CTRL_X3_START, execX3Start),
     (R.WGT_LOAD_CTRL_ABORT, execWgtLoadAbort), (R.WGT_LOAD_CTRL_START, execWgtLoadStart), (R.WGT_SWAP_CTRL_DISARM, execSwapDisarm),
     (R.WGT_SWAP_CTRL_ARM, execSwapArm), (R.ITK_RING_RESET, execItkRingReset (Fin.ofNat 16 i)),
     (R.HAUL_PORT_CTRL_FORCE_ROT, execForceRot (Fin.ofNat 16 i)), (R.HAUL_PORT_CTRL_RETRAIN, execHaulRetrain (Fin.ofNat 16 i)),
     (R.HAUL_PORT_CTRL_RESET, execHaulPortReset (Fin.ofNat 16 i))]
  let m : List (Field × (State → Res)) :=
    [(R.SCH_CTRL_CLEAR_FWD, execClearFwd), (R.SCH_CTRL_RESTORE_ARM, execRestoreArm), (R.SCH_CTRL_TELEM_NOW, execTelemNow),
     (R.TOP_FWD_CTRL_UNLOAD_ARM, fun s => execFwdUnloadArm (slot s) s), (R.TOP_FWD_CTRL_DISARM, fun s => execFwdDisarm (slot s) s),
     (R.TOP_FWD_CTRL_ARM, fun s => execFwdArm (slot s) s),
     (R.TOP_FWD_CTRL_LOAD, fun s => execFwdLoad (slot s) inp.arrivals s), (R.TWN_CTRL_TAKEOVER, execTwnTakeover),
     (R.TWN_CTRL_SOLO, execTwnSolo), (R.OLC_CTRL_DISARM, execOlcDisarm), (R.OLC_CTRL_ARM, execOlcArm), (R.FLT_CTRL_RELEASE, execFltRelease),
     (R.FLT_CTRL_ACK, fun s => execFltAck (Fin.ofNat 65536 (s.rd R.FLT_CTRL_ACK_SEQ)) s), (R.RRC_CTRL_RELEASE, execRrcRelease),
     (R.RRC_CTRL_SPILL_NOW, execRrcSpillNow), (R.SEC_CTRL_COMMIT_SVN, execCommitSvn), (R.OBS_TRACE_CTRL_STOP_NOW, execStopNow),
     (R.OBS_TRACE_CTRL_ARM, execTraceArm), (R.OBS_SNAP_CTRL_NOW, execSnapNow), (R.OBS_SNAP_CTRL_ARM, execSnapArm)]
  match (l ++ m).find? fun x => x.1 == f with
  | some x => some x.2
  | none => none

/-- The WO actions of a written register (R368). -/
def State.actions (s : State) (base : Nat) (inp : ActionInput) : List (Field × Nat) → State
  | [] => s
  | (f, x) :: t =>
    let s := if f.access = .wo ∧ x = 1 then
        (match actionOf f (f.elem base) inp with | some g => settle s (g s) | none => s)
      else s
    s.actions base inp t

/-- What a write to stored fields brings with it: write-inhibit by firmware (R35), EFF_STEP (R32), the Tally's role (R53), the ports'
enables (R280), the spare extension shown (R148) and the partner expected (R349). `old` is the state before the write. -/
def State.followWrite (s old : State) (off : Nat) : State :=
  let port := (off - R.HAUL_PORT_CTRL_ENABLE.addr) / R.HAUL_PORT_CTRL_ENABLE.stride
  if off = R.PWR_CTRL_NV_INHIBIT.addr then s.refreshInhibit
  else if off = R.PWR_TAPER_STEP_TICKS.addr ∨ off = R.PWR_RAMP_BUDGET_W_PER_MS.addr then s.refreshTaper
  else if off = R.TAL_CTRL_ROLE.addr then (if s.rd R.TAL_CTRL_ROLE = old.rd R.TAL_CTRL_ROLE then s.showPtpLocked else s.setRole (s.rd R.TAL_CTRL_ROLE))
  else if off = R.GEN_SEAL_CTRL_CONTEXT.addr then s.showExt
  else if R.HAUL_PORT_CTRL_ENABLE.addr ≤ off ∧ port < 16 ∧ off = R.HAUL_PORT_CTRL_ENABLE.addr + port * R.HAUL_PORT_CTRL_ENABLE.stride then
    let e := s.onAt R.HAUL_PORT_CTRL_ENABLE port
    if e = old.onAt R.HAUL_PORT_CTRL_ENABLE port then s
    else
      let s : State := s.wrAt R.HAUL_PORT_CTRL_ENABLE port (flag (!e))
      settle s (execHaulPortEnable (Fin.ofNat 16 port) e s)
  else if R.TOP_PORT_EXPECT.addr ≤ off ∧ off < R.TOP_PORT_EXPECT.addr + 16 * R.TOP_PORT_EXPECT.stride then
    s.showMismatch ((off - R.TOP_PORT_EXPECT.addr) / R.TOP_PORT_EXPECT.stride)
  else s

/-- A 64-bit write at an offset of CSR space (R367, R368): a hole ignores it and counts it. -/
def State.writeCsr (s : State) (off value : Nat) (inp : ActionInput) : State :=
  match ownWrite off value with
  | some g => settle s (g s)
  | none =>
    match regAt off with
    | none => s.badCsr
    | some (r, base, w) =>
      let l := r.inWord w value
      let (t, ignored) := s.writeFields (s.running r.block off) base l
      let t := if ignored then t.ignoreWrite off else t
      (t.capped.followWrite s off).actions base inp l

end Sys2Proof.Machine
end

