-- ==== Sys2Proof/Machine/Security.lean ====
section
/-! DEFINITION. Owner keys, anchors, firmware images and quotes (15_faults_security_observation.md R393 to R399): the effect and the
status of each operation. Rows are in Machine/Fcp.lean. -/

namespace Sys2Proof.Machine

open Sys2Proof

/-! ## Owner commands -/

/-- OP of an owner command (R396). -/
def ownerOpCode : OwnerOp → Nat
  | .enroll => 1
  | .revoke => 2
  | .anchorSet => 3
  | .anchorClear => 4

/-- Bytes 0x000 to 0x21F of an owner command, which its signature covers (R396). -/
def ownerBytes (op : OwnerOp) (c : OwnerCmd) : List Byte :=
  beBytes 4 0x4F434D44 ++ beBytes 1 (ownerOpCode op) ++ beBytes 1 c.target ++ beBytes 1 c.signer ++ beBytes 1 c.role ++ beBytes 8 c.serial
    ++ beBytes 8 c.seq ++ beBytes 8 c.reserved ++ beBytes 512 c.key

/-- A key slot. -/
def State.slot (s : State) (k : Nat) : KeySlot := s.nv.keys.getD k ⟨none, 0, false, 0⟩

/-- Some valid key stays when slot `k` is revoked (R396). -/
def State.keyLeft (s : State) (k : Nat) : Bool := s.nv.keys.zipIdx.any fun x => x.2 != k && x.1.valid

/-- The checks of an owner command (R396). -/
def State.ownerOk (s : State) (op : OwnerOp) (c : OwnerCmd) : Bool :=
  let signer := s.slot c.signer
  let form := decide (c.target < 4) && decide (c.signer < 4) && c.serial == s.nv.serial && decide (s.nv.ownerSeq < c.seq) && c.reserved == 0
    && (if op = .anchorSet then decide (c.role < 2) else c.role == 0) && (op == .enroll || op == .anchorSet || c.key == 0)
  let signed := signer.valid && (match signer.modulus with | some m => Crypto.pssVerify m (ownerBytes op c) c.sig | none => false)
  let keys := match op with
    | .enroll => c.signer != c.target && decide ((s.slot c.target).fuses < 15)
    | .revoke => c.signer != c.target && s.keyLeft c.target
    | _ => true
  form && signed && keys

/-- A security refusal (R389, R396, R434): a Critical occurrence of the FCP operation. -/
def State.securityRefusal (s : State) (slot op : Nat) : State := s.critical 19 0x82 slot 0 op

/-- Set a key slot. -/
def State.setSlot (s : State) (k : Nat) (x : KeySlot) : State := { s with nv := { s.nv with keys := s.nv.keys.set k x } }

/-- Sessions that depend on anchor `a` end (R396). -/
def State.endSessions (s : State) (a : Nat) : State :=
  let gone : List Nat := (s.fst.sessions.filter fun (e : Nat × (Bool × Nat)) => e.2.2 == a).map Prod.fst
  { s with fst := { s.fst with sessions := s.fst.sessions.filter fun (e : Nat × (Bool × Nat)) => e.2.2 != a
                               exporting := s.fst.exporting.filter fun (e : Nat × Nat) => !gone.contains e.1
                               awaited := s.fst.awaited.filter fun x => !gone.contains x.session } }

/-- An accepted owner command acts (R396, R397): a key with the slot's current epoch, a fuse and then the journal record of the slot, an
anchor, or an anchor's end. -/
def State.ownerActs (s : State) (op : OwnerOp) (c : OwnerCmd) : State :=
  let s : State := { s with nv := { s.nv with ownerSeq := c.seq } }
  let k := s.slot c.target
  let s : State := match op with
    | .enroll => s.setSlot c.target { k with modulus := some c.key, epoch := k.fuses, valid := true }
    | .revoke =>
      let s : State := s.setSlot c.target { k with modulus := none, valid := false, fuses := min (k.fuses + 1) 15 }
      s.queueUnits [.journal c.target]
    | .anchorSet => { s with nv := { s.nv with anchors := s.nv.anchors.set c.target (some ⟨c.key, c.role == 1⟩) } }
    | .anchorClear => { s with nv := { s.nv with anchors := s.nv.anchors.set c.target none } }.endSessions c.target
  s.showSecurity

/-- An owner command (R396, R397): the state after it and its status. A fuse burn or a journal write is refused under write-inhibit. -/
def State.ownerCommand (s : State) (op : OwnerOp) (c : OwnerCmd) : State × Nat :=
  if !s.ownerOk op c then ((s.inc R.SEC_COUNT_CMD_REFUSED).securityRefusal (min c.target 255) 0x72, 1)
  else if !s.writesAdmitted then (s.writeRefused, 3)
  else (s.ownerActs op c, 0)

/-- The bytes that the signature of an OWNER_CLAIM covers (R399). -/
def claimBytes (c : OwnerClaim) : List Byte :=
  beBytes 4 0x434C4149 ++ zeros 12 ++ fit 16 c.code ++ beBytes 512 c.key0 ++ beBytes 512 c.anchor

/-- OWNER_CLAIM (R395, R399): it burns OWNED and records the key of slot 0 and the Operator anchor. -/
def State.ownerClaimed (s : State) (c : OwnerClaim) : State × Nat :=
  if Crypto.sha512 (fit 16 c.code) ≠ s.nv.claimDigest ∨ !Crypto.pssVerify c.key0 (claimBytes c) c.sig then (s.securityRefusal 0 0x73, 1)
  else if !s.writesAdmitted then (s.writeRefused, 3)
  else
    let k := s.slot 0
    let s : State := s.setSlot 0 { k with modulus := some c.key0, epoch := k.fuses, valid := true }
    ({ s with nv := { s.nv with owned := true, anchors := s.nv.anchors.set 0 (some ⟨c.anchor, false⟩) } }.showSecurity, 0)

/-! ## Firmware -/

/-- An image is the one that runs: none does in recovery (R393, R394). -/
def State.runningImage (s : State) (i : Nat) : Bool := !s.on R.SEC_STATUS_RECOVERY && s.rd R.SEC_STATUS_IMAGE == i

/-- The write units of a piece of an image, 64 KiB each (R34, R394). -/
def imageUnits (image offset : Nat) (bytes : List Byte) : List UnitJob :=
  (Crypto.cut 65536 (ceilDiv bytes.length 65536) bytes).zipIdx.map fun p => .firmware image (offset + 65536 * p.2) p.1

/-- FW_PUT (R394, R399). -/
def State.fwPut (s : State) (image offset : Nat) (bytes : List Byte) : State × Nat :=
  if 2 ≤ image ∨ offset % 65536 ≠ 0 ∨ bytes = [] ∨ 2 ^ 20 < bytes.length then (s, 2)
  else if s.runningImage image then (s, 1)
  else if !s.writesAdmitted then (s.writeRefused, 3)
  else (s.queueUnits (imageUnits image offset bytes), 0)

/-- FW_ACTIVATE (R394, R399): `check` says how the image checks now. An image refused is a security refusal (R389; its key: log entry
161). -/
def State.fwActivate (s : State) (image length : Nat) (check : ImageCheck) : State × Nat :=
  if 2 ≤ image then (s, 2)
  else if s.runningImage image then (s, 1)
  else if !check.verifies then ((s.inc R.SEC_COUNT_IMAGE_FAIL).securityRefusal image 0x75, 2)
  else if check.svn < s.nv.rollback then (s.securityRefusal image 0x75, 2)
  else if !s.writesAdmitted then (s.writeRefused, 3)
  else
    let img := s.nv.images.getD image ⟨[], 0⟩
    ({ s with nv := { s.nv with nextImage := image, images := s.nv.images.set image { img with length := length } } }.showSecurity, 0)

/-! ## Quotes -/

/-- The bytes of an image. -/
def Image.all (i : Image) : List Byte := (List.range i.length).map fun a => Tab.get 0 a i.bytes

/-- FW_FORESTER (R398): zero in recovery, when no image runs. -/
def State.foresterDigest (s : State) : List Byte :=
  if s.on R.SEC_STATUS_RECOVERY then zeros 64
  else match s.nv.images[s.rd R.SEC_STATUS_IMAGE]? with | some i => Crypto.sha512 i.all | none => zeros 64

/-- The fingerprint of an anchor, zero where there is none. -/
def anchorPrint (a : Option Anchor) : List Byte := match a with | some x => Crypto.sha512 (beBytes 512 x.modulus) | none => zeros 64

/-- WEIGHTS_DIGEST (R398). -/
def State.weightsDigest (s : State) : List Byte :=
  Crypto.sha512 (((List.range 16).map fun c =>
    if s.onAt R.PLN_CTX_CFG_DEFINED c then s.root64 R.WGT_ROOT_ACTIVE_ROOT c else zeros 64).flatten)

/-- Bytes 0x000 to 0x3FF of a quote (R398). -/
def State.quoteBody (s : State) (challenge : List Byte) : List Byte :=
  let flags := flag (s.on R.GEN_MODE_STRICT) + 2 * flag s.planActive + 4 * flag (s.on R.SEC_STATUS_SCAN_FUSED) + 8 * flag s.nv.owned
    + 16 * flag (s.on R.SEC_STATUS_RECOVERY)
  let (id, root) := match s.pln.active with | some p => (p.id, p.root) | none => (0, [])
  beBytes 4 0x51554F54 ++ beBytes 2 1 ++ beBytes 2 flags ++ beBytes 8 s.nv.serial ++ beBytes 2 s.number ++ beBytes 2 0x00B0
    ++ beBytes 4 (s.rd R.SEC_STATUS_FW_SVN) ++ leBytes 8 (s.rdAt R.SEC_BOOT_NONCE_NONCE 0) ++ leBytes 8 (s.rdAt R.SEC_BOOT_NONCE_NONCE 1)
    ++ fit 32 challenge ++ s.foresterDigest ++ fit 64 s.fst.foreman ++ (s.nv.keys.map KeySlot.fingerprint).flatten
    ++ (s.nv.keys.map fun k => beBytes 4 k.fuses).flatten ++ beBytes 1 (s.nv.keys.zipIdx.map fun k => flag k.1.valid * 2 ^ k.2).sum
    ++ zeros 7 ++ (s.nv.anchors.map anchorPrint).flatten
    ++ (s.nv.anchors.map fun a => beBytes 1 (match a with | some x => flag x.auditor | none => 0xFF)).flatten ++ zeros 4
    ++ leBytes 16 id ++ zeros 8 ++ fit 64 root ++ s.weightsDigest ++ beBytes 8 s.now ++ beBytes 6 s.ptpSec ++ beBytes 4 s.ptpNs ++ zeros 110

/-- A quote (R398): 1,536 bytes. -/
def State.quote (s : State) (challenge : List Byte) : List Byte :=
  let body := s.quoteBody challenge
  body ++ fit 512 (Config.attest body)

end Sys2Proof.Machine
end

