-- ==== Sys2Proof/Machine/Fcp.lean ====
section
/-! DEFINITION. The Forester Control Protocol (14_forester_and_control.md R376 to R379; 15_faults_security_observation.md R395 to R399),
and register accesses by firmware (R367, R368). A requester is numbered by its session, 0 to 7, or 8 plus the number of the module
whose service packet carries the request. -/

namespace Sys2Proof.Machine

open Sys2Proof

/-! ## Register accesses -/

/-- A register access that is misaligned or not 64 bits wide completes in error; one of a hole reads as zero or is ignored; both are
counted (R367). -/
def execCsrAccessError (offset width : Nat) (s : State) : Res :=
  if width ≠ 64 ∨ offset % 8 ≠ 0 then .next (s.badCsr.emit (.register false 0))
  else match regAt offset with
    | none => .next (s.badCsr.emit (.register true 0))
    | some _ => .next s

/-- A write to a register acts field by field (R368). -/
def execRegisterWrite (offset : Nat) (value : Word) (inp : ActionInput) (s : State) : Res :=
  if offset % 8 ≠ 0 then .next (s.badCsr.emit (.register false 0))
  else .next ((s.writeCsr offset value.toNat inp).emit (.register true 0))

/-! ## Sessions and answers -/

/-- FCP accepts sessions (R376, R409): the Forester or its recovery runs, and the management port holds an address. -/
def State.fcpUp (s : State) : Bool := s.pwr.forester && s.fst.booted && s.fst.mgmtUp && s.fst.address

/-- The OPs served in recovery, to an Unowned module's clients, and to Auditors (R376, R393, R395, R399). -/
def recoveryOps : List Nat := [0x01, 0x70, 0x71, 0x74, 0x75]
@[inherit_doc recoveryOps] def unownedOps : List Nat := [0x01, 0x70, 0x71, 0x73]
@[inherit_doc recoveryOps] def auditorOps : List Nat := [0x01, 0x10, 0x40, 0x70, 0x71]

/-- The requester is an Auditor session. -/
def State.auditor (s : State) (who : Nat) : Bool :=
  match Tab.find? who s.fst.sessions with | some x => x.1 | none => false

/-- The module serves an OP to a requester (R376, R377, R395, R399). -/
def State.serves (s : State) (who op : Nat) : Bool :=
  if s.on R.SEC_STATUS_RECOVERY then recoveryOps.contains op && (!s.nv.owned || !s.auditor who || auditorOps.contains op)
  else if !s.nv.owned then unownedOps.contains op
  else op != 0x73 && (!s.auditor who || auditorOps.contains op)

/-- Answer a request with a status alone. -/
def State.answer (s : State) (who op reqId status : Nat) : State := s.answerAll who op reqId status [] []

/-- Carry a request to the module it names, in the messages that its pieces give, and wait for the answer to each (R378); status 5 where no
route leads there (R377). -/
def State.relay (s : State) (who op reqId m : Nat) (l : List (List Nat × List Byte)) : State :=
  if !s.on R.TOP_MODULE_ASSIGNED ∨ !s.onAt R.SCH_SVC_ROUTE_VALID m then s.answer who op reqId 5
  else
    let a : Awaited := ⟨some m, reqId, who, reqId, op⟩
    let s : State := { s with fst := { s.fst with awaited := s.fst.awaited ++ List.replicate l.length a } }
    l.foldl (fun s x => s.sendFcp m op reqId 0 x.1 x.2) s

/-- `n` items in pieces of at most `k` (R378): where each begins and how many it holds. -/
def cutItems (k n : Nat) : List (Nat × Nat) := (List.range (ceilDiv n k)).map fun i => (k * i, min k (n - k * i))

/-- The OP of a request. -/
def fcpOp : FcpReq → Nat
  | .hello => 0x01
  | .csrRead _ _ _ => 0x10
  | .csrWrite _ _ _ => 0x11
  | .memRead _ _ _ => 0x20
  | .memWrite _ _ => 0x21
  | .shardPut _ _ _ _ => 0x30
  | .export_ => 0x40
  | .discSend _ _ _ _ _ => 0x50
  | .reset _ => 0x60
  | .certs => 0x70
  | .quote _ => 0x71
  | .ownerCmd _ _ => 0x72
  | .ownerClaim _ => 0x73
  | .fwPut _ _ _ => 0x74
  | .fwActivate _ _ _ => 0x75
  | .answer _ _ _ => 0
  | .acknowledge _ => 0x40

/-! ## Operations -/

/-- Read `n` registers from an offset (R367). -/
def State.readCsrs (s : State) (off : Nat) : Nat → State × List Nat
  | 0 => (s, [])
  | n + 1 =>
    let (s, v) := s.readCsr off
    let (s, l) := s.readCsrs (off + 8) n
    (s, v :: l)

/-- Perform register writes in order (R377): the state after them and their status, 4 with an access in error, 3 with one that
write-inhibit refuses. -/
def State.writeCsrs (s : State) (inp : ActionInput) : List (Nat × Nat) → State × Nat
  | [] => (s, 0)
  | (off, v) :: t =>
    let bad := off % 8 ≠ 0
    let busy := off = R.SEC_CTRL_COMMIT_SVN.addr ∧ bit 0 v ∧ !s.writesAdmitted
    let (u, st) := (if bad then s.badCsr else s.writeCsr off v inp).writeCsrs inp t
    (u, if bad then 4 else if busy then max 3 st else st)

/-- Byte `got` on of shard `shard` is put (R377, R219): the state after it and its status. The shard's READY bit is set with its last
byte. -/
def State.putShard (s : State) (c entry shard : Nat) (bytes : List Byte) : State × Nat :=
  match s.descriptor (s.rdAt R.WGT_DESC_ADDR c) with
  | none => (s, 2)
  | some d =>
    match d.sources[entry]? with
    | none => (s, 2)
    | some e =>
      let key := 64 * shard + 4 * c + entry
      let got := Tab.get 0 key s.fst.puts
      let n := shardLen d.length shard
      if e.1 ≠ 2 ∨ d.ctx ≠ c ∨ d.shards ≤ shard ∨ n < got + bytes.length then (s, 2)
      else
        let s : State := s.setBytes (e.2.1 + shard * shardSize + got) bytes
        if got + bytes.length < n then ({ s with fst := { s.fst with puts := Tab.put 0 key (got + bytes.length) s.fst.puts } }, 0)
        else
          let a := e.2.2 + 8 * (shard / 64)
          let s : State := { s with fst := { s.fst with puts := Tab.del key s.fst.puts } }
          (s.setBytes a (leBytes 8 (s.le a 8 ||| 2 ^ (shard % 64))), 0)

/-- A DISCOVERY packet of this module (R338, R377): along its path, or with an empty path to its own TOP block. Its answer is returned;
ROUTES, which is answered only where it is refused (R341), completes as it is sent. -/
def State.disc (s : State) (who reqId op token epoch : Nat) (path : List Nat) (body : List Byte) : State :=
  let d : DiscPkt := ⟨op, path.length, path.length, token, epoch, path, [], body⟩
  let formed : Bool := path.length ≤ 32 && (op == 1 && body == [] || op == 3 && body.length == 12 && assignBodyOk body || op == 5 && routesOk body)
  let others := s.fst.awaited.filter fun a => !(a.module == none && a.key == token)
  let wait (s : State) : State :=
    let s : State := { s with fst := { s.fst with awaited := others ++ [⟨none, token, who, reqId, 0x50⟩] } }
    if op = 5 then s.answer who 0x50 reqId 0 else s
  if !formed then s.answer who 0x50 reqId 2
  else match path with
    | [] =>
      let s : State := wait s
      if op = 1 then s.probed d (0, []) else if op = 3 then s.assigned d (0, []) else s.routesReceived d (0, [])
    | p :: _ => if s.portUp p then (wait s).sendDisc op token epoch path body else (s.inc R.TOP_COUNT_DISC_DROP).answer who 0x50 reqId 5

/-- What the Forester holds goes out on a new EXPORT stream: items held, then spill records (R377, R392). -/
def State.openExport (s : State) (who reqId : Nat) : State :=
  let s := s.fst.exports.foldl (fun s x => s.exportTo who reqId x) s
  let s := s.nv.spill.foldl (fun s r => s.exportTo who reqId (.record r.seq r.encode)) s
  { s with fst := { s.fst with exporting := Tab.ins who reqId s.fst.exporting } }

/-- A client that exports acknowledges the oldest items held (R377): they leave the Forester's store, and what waited on the die follows
(R366). -/
def State.acknowledged (s : State) (who count : Nat) : State :=
  if (Tab.find? who s.fst.exporting).isSome then
    let s : State := { s with fst := { s.fst with exports := s.fst.exports.drop count } }
    s.drainItems s.gen.dieItems
  else s

/-- RESET (R346, R377): answered first, since a module or Forester reset ends the session. -/
def State.resetDomain (s : State) (d : ResetDomain) : State :=
  match d with
  | .module => settle s (execModuleReset s)
  | .forester => settle s (execForesterReset s)
  | .dieCore => settle s (execDieCoreReset s)
  | .haulPlane => settle s (execHaulPlaneReset s)
  | .port p => settle s (execHaulPortReset p s)
  | .context c => settle s (execContextReset c s)

/-- The module number and the local part of a global address (R188). -/
def globalModule (a : Nat) : Nat := a / 2 ^ 48 % 2 ^ 16
@[inherit_doc globalModule] def localPart (a : Nat) : Nat := a % 2 ^ 48

/-- A request for memory or registers of module `m`: here, relayed in pieces, or for a number that no module has status 4 (R329, R378). -/
def State.atModule (s : State) (who reqId op m : Nat) (l : List (List Nat × List Byte)) (here : State → State) : State :=
  if m = s.number ∧ (m < 4096 ∨ op < 0x20) then here s
  else if 4096 ≤ m then s.answer who op reqId 4
  else s.relay who op reqId m l

/-- An operation that ends with a status alone. -/
def State.finish (who op reqId : Nat) (r : State × Nat) : State := r.1.answer who op reqId r.2

/-- Serve a request (R377, R399). -/
def State.serve (s : State) (who reqId : Nat) (req : FcpReq) : State :=
  let op := fcpOp req
  match req with
  | .hello => s.answerAll who op reqId 0 [1, s.nv.serial, s.number, flag (s.auditor who)] []
  | .csrRead m off n =>
    if 512 < n ∨ n = 0 then s.answer who op reqId 2
    else s.atModule who reqId op m ((cutItems 484 n).map fun x => ([m, off + 8 * x.1, x.2], [])) fun s =>
      if off % 8 ≠ 0 then s.badCsr.answer who op reqId 4
      else
        let (s, l) := s.readCsrs off n
        s.answerAll who op reqId 0 l []
  | .csrWrite m pairs inp =>
    if 512 < pairs.length ∨ pairs = [] then s.answer who op reqId 2
    else
      let piece (x : Nat × Nat) : List Nat := m :: (((pairs.drop x.1).take x.2).map fun p => [p.1, p.2]).flatten
      s.atModule who reqId op m ((cutItems 241 pairs.length).map fun x => (piece x, [])) fun s => State.finish who op reqId (s.writeCsrs inp pairs)
  | .memRead a n ecc =>
    if 2 ^ 20 < n ∨ n = 0 then s.answer who op reqId 2
    else s.atModule who reqId op (globalModule a) ((cutItems 3872 n).map fun x => ([a + x.1, x.2], [])) fun s => s.access .read (localPart a) n ecc (some (who, reqId))
  | .memWrite a l =>
    if 2 ^ 20 < l.length ∨ l = [] then s.answer who op reqId 2
    else s.atModule who reqId op (globalModule a) ((cutItems 3864 l.length).map fun x => ([a + x.1], (l.drop x.1).take x.2)) fun s =>
      s.access (.write l) (localPart a) l.length ⟨[], [], []⟩ (some (who, reqId))
  | .shardPut c entry shard l =>
    if 16 ≤ c ∨ 4 ≤ entry ∨ 2 ^ 20 < l.length then s.answer who op reqId 2 else State.finish who op reqId (s.putShard c entry shard l)
  | .export_ => (s.answer who op reqId 0).openExport who reqId
  | .discSend o token epoch path body => s.disc who reqId o token epoch path body
  | .reset d => (s.answer who op reqId 0).resetDomain d
  | .certs => s.answerAll who op reqId 0 [] Config.certChains
  | .quote c => if c.length = 32 then s.answerAll who op reqId 0 [] (s.quote c) else s.answer who op reqId 2
  | .ownerCmd o c => State.finish who op reqId (s.ownerCommand o c)
  | .ownerClaim c => State.finish who op reqId (s.ownerClaimed c)
  | .fwPut i off l => State.finish who op reqId (s.fwPut i off l)
  | .fwActivate i n c => State.finish who op reqId (s.fwActivate i n c)
  | .answer _ _ _ => s
  | .acknowledge n => s.acknowledged who n

/-- A request arrives (R377): of a session that exists, or of another module as an Operator's (R378); what is not served is refused
with status 1. -/
def State.request (s : State) (who reqId : Nat) (req : FcpReq) : State :=
  if s.serves who (fcpOp req) then s.serve who reqId req else s.answer who (fcpOp req) reqId 1

/-- A request on session `session`. -/
def State.onSession (s : State) (session reqId : Nat) (req : FcpReq) : State :=
  if s.fcpUp ∧ session < 8 ∧ (Tab.find? session s.fst.sessions).isSome then s.request session reqId req else s

/-! ## Rows -/

/-- An FCP connection's handshake (R376, R395, R399): `profile` says that it keeps to the TLS profile with a client certificate, and
`anchor` names the installed anchor that the certificate chains to. -/
def execFcpHandshake (profile : Bool) (anchor : Option (Fin 4)) (s : State) : Res :=
  if !s.fcpUp then .next s
  else
    let free := (List.range 8).find? fun n => (Tab.find? n s.fst.sessions).isNone
    let installed : Option Anchor := match anchor with | some a => (match s.nv.anchors[a.val]? with | some (some x) => some x | _ => none) | none => none
    let role : Option (Bool × Nat) :=
      if !profile then none
      else if !s.nv.owned then some (false, 4)
      else match installed, anchor with
        | some x, some a => some (x.auditor, a.val)
        | _, _ => none
    match role, free with
    | none, _ => .next (((s.inc R.SEC_COUNT_TLS_FAIL).notice 19 0x80 0 0 0).emit (.connection false 8))
    | some _, none => .next (s.emit (.connection false 8))
    | some r, some n =>
      .next ({ s with fst := { s.fst with sessions := Tab.ins n r s.fst.sessions } }.emit (.connection true n))

/-- HELLO (R377). -/
def execHello (session : Fin 8) (reqId : Nat) (s : State) : Res := .next (s.onSession session reqId .hello)

/-- CSR_READ (R377). -/
def execCsrRead (session : Fin 8) (reqId module offset count : Nat) (s : State) : Res :=
  .next (s.onSession session reqId (.csrRead module offset count))

/-- CSR_WRITE (R377). -/
def execCsrWrite (session : Fin 8) (reqId module : Nat) (pairs : List (Nat × Nat)) (inp : ActionInput) (s : State) : Res :=
  .next (s.onSession session reqId (.csrWrite module pairs inp))

/-- MEM_READ (R377). -/
def execMemRead (session : Fin 8) (reqId addr length : Nat) (ecc : MemEcc) (s : State) : Res :=
  .next (s.onSession session reqId (.memRead addr length ecc))

/-- MEM_WRITE (R377). -/
def execMemWrite (session : Fin 8) (reqId addr : Nat) (bytes : List Byte) (s : State) : Res :=
  .next (s.onSession session reqId (.memWrite addr bytes))

/-- SHARD_PUT (R377, R219): the next bytes of a shard of a source entry of the context's load descriptor. -/
def execShardPut (session : Fin 8) (reqId ctx entry shard : Nat) (bytes : List Byte) (s : State) : Res :=
  .next (s.onSession session reqId (.shardPut ctx entry shard bytes))

/-- EXPORT (R377). -/
def execExport (session : Fin 8) (reqId : Nat) (s : State) : Res := .next (s.onSession session reqId .export_)

/-- DISC_SEND (R377, R338). -/
def execDiscSend (session : Fin 8) (reqId op token epoch : Nat) (path : List Nat) (body : List Byte) (s : State) : Res :=
  .next (s.onSession session reqId (.discSend op token epoch path body))

/-- RESET (R377, R346). -/
def execFcpReset (session : Fin 8) (reqId : Nat) (domain : ResetDomain) (s : State) : Res :=
  .next (s.onSession session reqId (.reset domain))

/-- CERTS (R398, R399). -/
def execCerts (session : Fin 8) (reqId : Nat) (s : State) : Res := .next (s.onSession session reqId .certs)

/-- QUOTE (R398, R399). -/
def execQuote (session : Fin 8) (reqId : Nat) (challenge : List Byte) (s : State) : Res :=
  .next (s.onSession session reqId (.quote challenge))

/-- Owner command ENROLL (R396, R397). -/
def execEnroll (session : Fin 8) (reqId : Nat) (c : OwnerCmd) (s : State) : Res := .next (s.onSession session reqId (.ownerCmd .enroll c))

/-- Owner command REVOKE (R396, R397). -/
def execRevoke (session : Fin 8) (reqId : Nat) (c : OwnerCmd) (s : State) : Res := .next (s.onSession session reqId (.ownerCmd .revoke c))

/-- Owner command ANCHOR_SET (R396). -/
def execAnchorSet (session : Fin 8) (reqId : Nat) (c : OwnerCmd) (s : State) : Res :=
  .next (s.onSession session reqId (.ownerCmd .anchorSet c))

/-- Owner command ANCHOR_CLEAR (R396). -/
def execAnchorClear (session : Fin 8) (reqId : Nat) (c : OwnerCmd) (s : State) : Res :=
  .next (s.onSession session reqId (.ownerCmd .anchorClear c))

/-- OWNER_CLAIM (R395, R399). -/
def execOwnerClaim (session : Fin 8) (reqId : Nat) (c : OwnerClaim) (s : State) : Res := .next (s.onSession session reqId (.ownerClaim c))

/-- FW_PUT (R394, R399). -/
def execFwPut (session : Fin 8) (reqId image offset : Nat) (bytes : List Byte) (s : State) : Res :=
  .next (s.onSession session reqId (.fwPut image offset bytes))

/-- FW_ACTIVATE (R394, R399). -/
def execFwActivate (session : Fin 8) (reqId image length : Nat) (check : ImageCheck) (s : State) : Res :=
  .next (s.onSession session reqId (.fwActivate image length check))

/-- An FCP service packet of another module arrives (R378): a request as of an Operator session of that module, or the answer to a
request relayed to it. -/
def execFcpServicePacket (source : Fin 65536) (reqId : Nat) (req : FcpReq) (s : State) : Res :=
  if !(s.pwr.forester && s.fst.booted) then .next s
  else match req with
    | .answer status fields bytes =>
      match s.fst.awaited.find? fun a => a.module == some source.val && a.key == reqId with
      | none => .next s
      | some a =>
        .next ({ s with fst := { s.fst with awaited := s.fst.awaited.erase a } }.answerAll a.session a.op a.reqId status fields bytes)
    | _ => .next (s.request (8 + source) reqId req)

/-- A client that exports acknowledges what it has stored (R377, R366). -/
def execExportAcknowledged (session : Fin 8) (count : Nat) (s : State) : Res := .next (s.acknowledged session count)

end Sys2Proof.Machine
end

