-- ==== Sys2Proof/Machine/HaulSlots.lean ====
section
/-! DEFINITION. The rows of the haul slot (06_working_plan.md R172; 04_sparsity_and_forks.md R106, R107, R120;
11_scheduled_fabric.md R302, R303). -/

namespace Sys2Proof.Machine

open Sys2Proof

/-- A bench hands over what a SEND entry is to send (R172, R302): it crosses to the optics region of the port, its first block ahead of
the others (R42; DEDUCED, log entry 148), and the departure waits for it. -/
def State.sendReady (s : State) (b key : Nat) (payload : Option Nat) (void : Option (List Byte)) : State :=
  let s := s.setSend key { s.sendState key with payload := payload, void := void, crossed := false }
  s.enqueue { ctx := s.homeOf b, held := false, writer := benchRegion b, reader := 35 + key / 32768 / 8, flits := if payload.isSome then 4 else 1
              span := 0, ticks := 0, into := 0, inside := [], after := 0, bench := some b, addr := 0, bytes := [], counter := none
              send := some key }

/-- A payload handed over whose slot header is that of a filled slot is counted, with the candidates that its group has
overflowed (R106, R120). -/
def State.countFilled (s : State) (header overflow : Nat) : State :=
  let g := header / 2 ^ 112 % 4096
  if header / 2 ^ 124 = 2 then
    let s := (s.addAt R.FRK_CAP_FILLED_COUNT 0 1).addAt R.FRK_CAP_OVERFLOW_COUNT 0 overflow
    { s with frk := { s.frk with filled := Tab.put 0 g (Tab.get 0 g s.frk.filled + 1) s.frk.filled
                                 overflow := Tab.put 0 g (Tab.get 0 g s.frk.overflow + overflow) s.frk.overflow } }
  else s

/-- The entry of the active plan that a haul slot names. -/
def State.haulEntry? (s : State) (h : HaulSlot) : Option SchedEntry :=
  match s.job? 7 with | some j => j.entry? (entryKey h.port h.entry) | none => none

/-- HPUT hands the payload at ADDR to the entry for its departure tick (R172); `overflow` is what a capacity slot's group has
overflowed since its last slot. -/
def execHput (i : Issue) (h : HaulSlot) (overflow : Nat) (ecc : Ecc) (s : State) : Res :=
  let b := i.bench.val
  s.operate i (.haul 1 h) fun q s =>
    match s.haulEntry? h with
    | none => .next s
    | some e =>
      s.reading b ecc [(128 * h.addr.val, e.length)] fun s =>
        let s := if e.slot then s.countFilled (leNat (q.store b (128 * h.addr) 16)) overflow else s
        .next (s.sendReady b (entryKey h.port h.entry) (some (benchBase b + 128 * h.addr)) none)

/-- HGET binds ADDR as the entry's receive buffer (R172). -/
def execHget (i : Issue) (h : HaulSlot) (s : State) : Res :=
  s.operate i (.haul 2 h) fun _ s => .next (s.bindRecv (entryKey h.port h.entry) (benchBase i.bench + 128 * h.addr))

/-- HVOD sends the void header of the entry's capacity slot (R107, R172). -/
def execHvod (i : Issue) (h : HaulSlot) (group : Fin 4096) (slot : Fin 65536) (s : State) : Res :=
  s.operate i (.haul 3 h) fun _ s =>
    match s.haulEntry? h with
    | none => .next s
    | some e =>
      let step := s.step32 ((s.groupCtx? group).getD e.ctx)
      let s := s.addAt R.FRK_CAP_VOID_COUNT 0 1
      .next (s.sendReady i.bench (entryKey h.port h.entry) none (some (slotBytes 1 group slot step 0xFFFFFFFF)))

end Sys2Proof.Machine
end

