-- ==== Sys2Proof/Machine/Flags.lean ====
section
/-! DEFINITION. The sticky events and counts of a bench's arithmetic (03_bench_arithmetic.md R79, R89, R432). -/

namespace Sys2Proof.Machine

open Sys2Proof

/-- How often an event occurs in a list. -/
def eventsOf (e : NumEvent) (l : List (Option NumEvent)) : Nat := (l.filter fun x => x == some e).length

/-- Add to one count of BCH_NUM_COUNT, and set its event where it occurred. -/
def State.countOf (s : State) (b : Nat) (f g : Field) (n : Nat) : State :=
  if n = 0 then s else (s.addAt f b n).wrAt g b 1

/-- Count what the elements of an operation gave rise to (R79, R89). -/
def State.countNum (s : State) (b : Nat) (l : List (Option NumEvent)) : State :=
  let s := s.countOf b R.BCH_NUM_COUNT_NAN_OUT R.BCH_NUM_EVENT_NAN_OUT (eventsOf .nanOut l)
  let s := s.countOf b R.BCH_NUM_COUNT_FP_SAT R.BCH_NUM_EVENT_FP_SAT (eventsOf .fpSat l)
  let s := s.countOf b R.BCH_NUM_COUNT_INT_SAT R.BCH_NUM_EVENT_INT_SAT (eventsOf .intSat l)
  s.countOf b R.BCH_NUM_COUNT_NAN_DROP R.BCH_NUM_EVENT_NAN_DROP (eventsOf .nanDrop l)

/-- The event of an FP32 result: it is NaN. -/
def nanEvent (x : Nat) : Option NumEvent := if isNan32 x then some .nanOut else none

/-- Elements converted with stochastic rounding (R89); BCH_SR_COUNT has 64 bits. -/
def State.countSr (s : State) (b rm n : Nat) : State := if rm = 1 then s.addAt R.BCH_SR_COUNT_COUNT b n else s

end Sys2Proof.Machine
end

