-- ==== Sys2Proof/Machine/Grains.lean ====
section
/-! DEFINITION. Grains (03_bench_arithmetic.md R71 to R76, R87; 05_reproducibility.md R125): exact accumulation, exact
partials, the ordered tree, grain results, and block-scaled elements (R69, R70). -/

namespace Sys2Proof.Machine

open Sys2Proof

/-! ## The exact path -/

/-- An accumulator without elements. -/
def Grain.empty : Grain := { present := false, bits := 0, nan := false, pinf := false, ninf := false, hi := 0, lo := 0 }

/-- The grain in half `h` of accumulator `a` (R64, R93). The manual gives 512 accumulators, and no effect for a number past 511, which
the groups of R169 and the lanes of VTLF can form: numbers go on at 0. DESIGN CHOICE, log entry 127. -/
def Bench.grain (x : Bench) (a h : Nat) : Grain :=
  match Tab.find? (2 * (a % 512) + h) x.grains with | some g => g | none => Grain.empty

/-- An operation sets the grain in half `h` of accumulator `a`. -/
def Bench.setGrain (x : Bench) (a h : Nat) (g : Grain) : Bench :=
  let y := x.note (.grain (2 * (a % 512) + h) (x.grain a h))
  { y with grains := Tab.put Grain.empty (2 * (a % 512) + h) g y.grains }

/-- Add a number of units of 2⁻⁵⁶ to the 96-bit accumulator (R71). -/
def Grain.addBits (g : Grain) (v : Int) : Grain := { g with bits := toField 96 ((g.bits : Int) + v) }

/-- Add the product of two elements: a product that is not finite sets a flag and adds nothing (R71, R72). -/
def Grain.addProduct (g : Grain) (a b : Val) : Grain :=
  match a.mul b with
  | .nan => { g with nan := true }
  | .inf false => { g with pinf := true }
  | .inf true => { g with ninf := true }
  | .fin n m e => g.addBits (signedAt (-56) n m e)

/-- Add the products of pairs of elements. -/
def Grain.addAll (g : Grain) : List (Val × Val) → Grain
  | [] => g
  | (a, b) :: t => (g.addProduct a b).addAll t

/-- The exact partial of a grain (R73). -/
def Grain.partialBits (g : Grain) : Nat :=
  g.bits + flag g.nan * 2 ^ 96 + flag g.pinf * 2 ^ 97 + flag g.ninf * 2 ^ 98

/-- Combine an exact partial, which always stands for present elements (R73). -/
def Grain.addPartial (g : Grain) (v : Nat) : Grain :=
  { g.addBits ((v % 2 ^ 96 : Nat) : Int) with
    present := true, nan := g.nan || bit 96 v, pinf := g.pinf || bit 97 v, ninf := g.ninf || bit 98 v }

/-- The accumulator value as an exact value times 2^k. -/
def Grain.value (g : Grain) (k : Int) : Val := Val.ofInt (ofField 96 g.bits) (k - 56)

/-- The result of a present grain on the exact path under scale codes `sa` and `sb`, with the low part of the pair option
(R75, R76). Where a value that is not zero rounds to hi = 0, the low part is RNE(w − hi), which may be −0: DESIGN CHOICE, log
entry 107. -/
def Grain.exactResult (g : Grain) (sa sb : Nat) : Nat × Nat :=
  if g.nan || (g.pinf && g.ninf) then (rne32 .nan, 0)
  else if g.pinf then (rne32 (.inf false), 0)
  else if g.ninf then (rne32 (.inf true), 0)
  else
    let w := g.value ((sa : Int) + (sb : Int) - 254)
    let hi := rne32 w
    if g.bits = 0 ∨ !(fval hi).isFin then (hi, 0) else (hi, rne32 (w.add (fval hi).negate))

/-! ## The ordered path -/

/-- One level of a tree in which an absent node passes the other on (R74, R126). -/
def treeLevel {α : Type} (op : α → α → α) : List (Option α) → List (Option α)
  | some x :: some y :: t => some (op x y) :: treeLevel op t
  | some x :: none :: t => some x :: treeLevel op t
  | none :: y :: t => y :: treeLevel op t
  | [x] => [x]
  | [] => []

/-- The root of a tree of `n` levels over 2ⁿ nodes. -/
def treeRoot {α : Type} (op : α → α → α) : Nat → List (Option α) → Option α
  | 0, l => l.headD none
  | n + 1, l => treeRoot op n (treeLevel op l)

/-- The root of R74 over the 32 products of a grain, with the low part of the pair option; absent where every element is. -/
def orderedRoot (pair : Bool) (l : List (Option Nat)) : Option (Nat × Nat) :=
  if pair then
    (treeRoot pairAdd 5 (l.map fun p => p.map fun x => (x, 0))).map fun x => (sumZero x.1, x.2)
  else (treeRoot nodeAdd 5 l).map fun x => (sumZero x, 0)

/-- Levels of the tree over `n` grains: the least with 2 to their number at least `n`. -/
def treeLevels (n : Nat) : Nat := if n ≤ 1 then 0 else (n - 1).log2 + 1

/-- The Canonical Reduction Tree over the leaves of grains 0, 1, … (R126). A plan's bundles carry out its nodes. -/
def crt {α : Type} (op : α → α → α) (leaves : List (Option α)) : Option α := treeRoot op (treeLevels leaves.length) leaves

/-- An FP32 result in which a NaN is the canonical one (R68). -/
def canonical (x : Nat) : Nat := if isNan32 x then rne32 .nan else x

/-- An INT32 maximum or minimum. -/
def intMax (greater : Bool) (a b : Nat) : Nat := if decide (ofField 32 a < ofField 32 b) == greater then b else a

/-- node() of a reduction descriptor on FP32 or INT32 values, or on FP32 pairs (R126). -/
def nodeOf (r : Reduction) (x y : Nat × Nat) : Nat × Nat :=
  if r.op = 3 then (x.1 ||| y.1, 0)
  else if r.path = 2 then (if r.op = 0 then (x.1 + y.1) % 2 ^ 32 else intMax (r.op == 1) x.1 y.1, 0)
  else if r.op ≠ 0 then (fminmax (r.op == 1) x.1 y.1, 0)
  else if r.pair then pairAdd x y
  else (nodeAdd x.1 y.1, 0)

/-- The empty value of a reduction (R126): +0 for sums and or, −∞ for a maximum, +∞ for a minimum; of INT32 values the least and the
greatest (log entry 44). -/
def emptyOf (r : Reduction) : Nat × Nat :=
  if r.op = 0 ∨ r.op = 3 then (0, 0)
  else if r.path = 2 then (if r.op = 1 then 2 ^ 31 else 2 ^ 31 - 1, 0)
  else (rne32 (.inf (r.op == 1)), 0)

/-- The value of a reduction over the leaves of its grains (R126). -/
def reduceLeaves (r : Reduction) (leaves : List (Option (Nat × Nat))) : Nat × Nat := (crt (nodeOf r) leaves).getD (emptyOf r)

/-- The elements of a sum are multiples of 2⁻⁵⁶ that the accumulator holds, and so is their sum; infinities and NaN set flags. -/
def fitsGrain (l : List Val) : Bool :=
  let ints := l.map fun v => match v with
    | .fin n m e => if -56 ≤ e then some (signedAt (-56) n m e)
      else if m % 2 ^ (-56 - e).toNat = 0 then some (signedAt 0 n (m / 2 ^ (-56 - e).toNat) 0) else none
    | _ => some 0
  let total : Int := (ints.filterMap id).sum
  ints.all Option.isSome && decide (-(2 : Int) ^ 95 ≤ total) && decide (total < 2 ^ 95)

/-- An element of a sum enters the accumulator of R71. -/
def Grain.addValue (g : Grain) (v : Val) : Grain :=
  match v with
  | .nan => { g with nan := true }
  | .inf false => { g with pinf := true }
  | .inf true => { g with ninf := true }
  | .fin n m e => g.addBits (if -56 ≤ e then signedAt (-56) n m e else signedAt 0 n (m / 2 ^ (-56 - e).toNat) 0)

/-- The leaf of a sum on the exact path over FP32 lanes (R75, R125); where the accumulator cannot hold it, the value is free
(log entry 44). -/
def exactSum (pair : Bool) (l : List Nat) : Nat × Nat :=
  let vals := l.map fval
  let x := if fitsGrain vals then (vals.foldl Grain.addValue { Grain.empty with present := true }).exactResult 127 127
    else ((Config.exactLeaf l).1 % 2 ^ 32, (Config.exactLeaf l).2 % 2 ^ 32)
  if pair then x else (x.1, 0)

/-- The score of a sum of INT32 leaves under LEAF_EXP (R87): RNE of v × 2^(32 + E), +0 for zero. -/
def Grain.score (g : Grain) (e : Int) : Nat := sumZero (rne32 (g.value (32 + e)))

/-! ## Block scales -/

/-- The exponent e_max of a block-scaled format (R70). -/
def Format.eMax : Format → Int
  | .fp4 => 2 | .fp6e2m3 => 2 | .fp6e3m2 => 4 | .fp8e4m3 => 8 | .fp8e5m2 => 15 | _ => 0

/-- The greatest ⌊log₂|x|⌋ of the non-zero values. -/
def topLog : List Val → Option Int
  | [] => none
  | .fin _ m e :: t =>
    if m = 0 then topLog t
    else match topLog t with
    | some x => some (max x (floorLog m e))
    | none => some (floorLog m e)
  | _ :: t => topLog t

/-- The scale of a block and its elements with what they count (R70); each element comes with its rounding. -/
def encodeBlock (f : Format) (l : List (Nat × Rounding)) : Nat × List (Nat × Option NumEvent) :=
  let vals := l.map fun x => fval x.1
  let none_ := l.map fun _ => (0, none)
  if vals.any fun v => !v.isFin then (0xFF, none_)
  else match topLog vals with
  | none => (0, none_)
  | some a =>
    let s := min (max (a - f.eMax) (-127)) 127
    let up : Int := if f = .int8 then 6 else 0
    ((s + 127).toNat, l.map fun x => f.encode x.2 ((fval x.1).scale (up - s)))

/-- An element of a tensor (R69): an MXINT8 factor where it is scaled INT8, and NaN under a scale of 0xFF. The scale itself is
applied to the grain (R71, R75). -/
def elementVal (f : Format) (scaled : Bool) (scale v : Nat) : Val :=
  if scaled ∧ scale = 0xFF then .nan
  else if scaled ∧ f = .int8 then (f.decode v).scale (-6)
  else f.decode v

end Sys2Proof.Machine
end

