-- ==== Sys2Proof/Machine/Kerf.lean ====
section
/-! DEFINITION. The Kerf generator (05_reproducibility.md R130 to R132): random values from logical coordinates. -/

namespace Sys2Proof.Machine

open Sys2Proof

/-- The four counter words and two key words of a Kerf block (R131). -/
structure KerfWords where
  x0 : Nat
  x1 : Nat
  x2 : Nat
  x3 : Nat
  k0 : Nat
  k1 : Nat
deriving DecidableEq, Repr

/-- One round (R131). -/
def KerfWords.round (w : KerfWords) : KerfWords :=
  let p := w.x0 * 0xB5E39A4D
  let q := w.x2 * 0x8F1C6E27
  let t1 := (w.x1 + q / 2 ^ 32) % 2 ^ 32 ^^^ w.k0
  let t3 := (w.x3 + p / 2 ^ 32) % 2 ^ 32 ^^^ w.k1
  { x0 := t1, x1 := p % 2 ^ 32 ^^^ t1 / 2 ^ 16, x2 := t3, x3 := q % 2 ^ 32 ^^^ t3 / 2 ^ 16
    k0 := (w.k0 + 0x7A3DC915) % 2 ^ 32, k1 := (w.k1 + 0x4C68E2B3) % 2 ^ 32 }

/-- `n` rounds. -/
def KerfWords.rounds (w : KerfWords) : Nat → KerfWords
  | 0 => w
  | n + 1 => w.round.rounds n

/-- The block of ten rounds (R131). -/
def KerfWords.block (w : KerfWords) : KerfWords := w.rounds 10

/-- Value `n` of a stream of a context (R131, R132), with seed, step and whether the stream is 32 bits wide. -/
def kerfValue (seed ctx stream t n : Nat) (wide : Bool) : Nat :=
  let b := if wide then n / 4 else n / 8
  let w : KerfWords := { x0 := b % 2 ^ 32, x1 := b / 2 ^ 32 % 2 ^ 32, x2 := t % 2 ^ 32
                         x3 := stream % 2 ^ 20 * 2 ^ 12 + ctx % 16 * 2 ^ 8 + (if wide then 2 else 1)
                         k0 := seed % 2 ^ 32, k1 := seed / 2 ^ 32 % 2 ^ 32 }
  let o := w.block
  let word (i : Nat) : Nat := if i = 0 then o.x0 else if i = 1 then o.x1 else if i = 2 then o.x2 else o.x3
  if wide then word (n % 4) else word (n % 8 / 2) / 2 ^ (16 * (n % 2)) % 2 ^ 16

/-- The Kerf step of a stream for what an operation writes (R130): 0; the batch counter, which is the window index of the batch that an
intake context computes, and otherwise the tensor named by COUNTER; or the program counter that COUNTER names. -/
def State.kerfT (s : State) (k : KerfStream) (x : Coords) : Nat :=
  if k.source = 0 then 0
  else match k.source, s.intake? k.ctx, s.ctx? k.ctx with
    | 1, some e, some r => (((r.step * s.perStep e : Nat) + x.window) % (2 ^ 32 : Int)).toNat
    | _, _, _ => x.counter % 2 ^ 32

/-- A stream of context `c` of the active plan; one that the plan does not list is 16 bits wide with step 0 (log entry 45). -/
def State.stream (s : State) (c n : Nat) : KerfStream :=
  let l := match s.pln.active with | some p => List.find? (fun (k : KerfStream) => k.ctx == c && k.stream == n) p.kerf | none => none
  l.getD ⟨c, n, 16, 0, 0, 0, 0, 0⟩

/-- Value `n` of a stream for what an operation writes (R130 to R132). -/
def State.draw (s : State) (k : KerfStream) (x : Coords) (n : Nat) : Nat :=
  let seed := match s.planCtx? k.ctx with | some x => x.seed | none => 0
  kerfValue seed k.ctx k.stream (s.kerfT k x) (n % 2 ^ 64) (k.width == 32)

/-- The logical index of the element in row `r` and column `c` of an operation (R130). -/
def coordOf (k : Coords) (r c : Nat) : Nat := (k.base + r * k.row + c * k.col) % 2 ^ 64

end Sys2Proof.Machine
end

