-- ==== Sys2Proof/Machine/Vector.lean ====
section
/-! DEFINITION. The rows of the vector slot (06_working_plan.md R170; 03_bench_arithmetic.md R77 to R87, R432;
05_reproducibility.md R125, R131, R132). -/

namespace Sys2Proof.Machine

open Sys2Proof

/-! ## Shared operations -/

/-- The entries of a list of lanes whose predicate bit is set. -/
def activeOf {α : Type} (mask : Nat) (l : List α) : List α := (l.zipIdx.filter fun e => bit e.2 mask).map Prod.fst

/-- A result that counts nothing. -/
def silentLane (x : Nat) : Nat × Option NumEvent := (x, none)

/-- Write lanes to register `r` of the vector unit under PRED, which is `mask`, counting what the lanes written give rise to. -/
def State.putLanes (s : State) (b r mask : Nat) (out : List (Nat × Option NumEvent)) : State :=
  (s.setBench b ((s.benchOf b).setLanes r mask 0 (out.map Prod.fst))).countNum b ((activeOf mask out).map Prod.snd)

/-- An FP32 result, which counts where it is NaN. -/
def counted (x : Nat) : Nat × Option NumEvent := (x, nanEvent x)

/-- Register `r` takes free lanes under `mask`: what an operation with a reserved encoding leaves there. DEDUCED, log entry 20. -/
def State.freeLanes (s : State) (b r mask : Nat) : State :=
  (s.putLanes b r mask ((List.range 128).map fun l => silentLane (Config.reserved s.fresh l))).drawn

/-- Two registers that no field names take free lanes: what a pair operation on odd registers leaves (R170; DEDUCED, log entry 20). -/
def State.freePair (s : State) (b mask : Nat) : State :=
  (s.freeLanes b (Config.reserved s.fresh 128) mask).freeLanes b (Config.reserved s.fresh 129) mask

/-- Apply a lane operation to registers S1 + `k`, S2 + `k` and S3 + `k` of the bench as its bundle sees it, for DST + `k`. -/
def State.laneReg (q s : State) (b : Nat) (v : VecSlot) (k : Nat) (f : Nat → Nat → Nat → Nat × Option NumEvent) : State :=
  let x := q.benchOf b
  s.putLanes b (v.dst + k) (x.pred v.pred)
    ((List.range 128).map fun l => f (x.lane (v.s1 + k) l) (x.lane (v.s2 + k) l) (x.lane (v.s3 + k) l))

/-- An operation on one register of each operand. -/
def State.singleOp (i : Issue) (op : Nat) (v : VecSlot) (f : Nat → Nat → Nat → Nat × Option NumEvent) (s : State) : Res :=
  s.operate i (.vector op v) fun q s => .next (q.laneReg s i.bench v 0 f)

/-- An operation marked "pair": on registers n and n + 1 of each operand, whose numbers must be even (R170). -/
def State.pairOp (i : Issue) (op : Nat) (v : VecSlot) (f : Nat → Nat → Nat → Nat × Option NumEvent) (s : State) : Res :=
  s.operate i (.vector op v) fun q s =>
    if evenRegs v then .next (q.laneReg (q.laneReg s i.bench v 0 f) i.bench v 1 f)
    else .next (s.freePair i.bench ((q.benchOf i.bench).pred v.pred))

/-! ## FP32 arithmetic -/

/-- VFMA: S1 × S2 + S3 with one rounding (R80). -/
def execVfma (i : Issue) (v : VecSlot) (s : State) : Res := s.pairOp i 0x01 v fun a b c => counted (ffma a b c)

/-- VADD (R80). -/
def execVadd (i : Issue) (v : VecSlot) (s : State) : Res := s.pairOp i 0x02 v fun a b _ => counted (fadd a b)

/-- VSUB (R80). -/
def execVsub (i : Issue) (v : VecSlot) (s : State) : Res := s.pairOp i 0x03 v fun a b _ => counted (fsub a b)

/-- VMUL (R80). -/
def execVmul (i : Issue) (v : VecSlot) (s : State) : Res := s.pairOp i 0x04 v fun a b _ => counted (fmul a b)

/-- VMIN (R80). -/
def execVmin (i : Issue) (v : VecSlot) (s : State) : Res := s.pairOp i 0x12 v fun a b _ => counted (fminmax false a b)

/-- VMAX (R80). -/
def execVmax (i : Issue) (v : VecSlot) (s : State) : Res := s.pairOp i 0x13 v fun a b _ => counted (fminmax true a b)

/-- VRCP (R80). -/
def execVrcp (i : Issue) (v : VecSlot) (s : State) : Res := s.singleOp i 0x38 v fun a _ _ => counted (frecip a)

/-- VSQRT (R80). -/
def execVsqrt (i : Issue) (v : VecSlot) (s : State) : Res := s.singleOp i 0x39 v fun a _ _ => counted (fsqrt a)

/-- VRSQ (R80). -/
def execVrsq (i : Issue) (v : VecSlot) (s : State) : Res := s.singleOp i 0x3A v fun a _ _ => counted (frsqrt a)

/-- VDIV: S1 ÷ S2 (R80). -/
def execVdiv (i : Issue) (v : VecSlot) (s : State) : Res := s.singleOp i 0x3B v fun a b _ => counted (fdiv a b)

/-- VEX2 (R82). -/
def execVex2 (i : Issue) (v : VecSlot) (s : State) : Res := s.singleOp i 0x3C v fun a _ _ => counted (fexp2 a)

/-- VLG2 (R83). -/
def execVlg2 (i : Issue) (v : VecSlot) (s : State) : Res := s.singleOp i 0x3D v fun a _ _ => counted (flog2 a)

/-! ## Compare and select -/

/-- The comparison that IMM[2:0] names (R170); none for the four values that name none. -/
def compareKind (k : Nat) (a b : Nat) : Option Bool :=
  let o := (fval a).order (fval b)
  if k = 0 then some (o == some .eq)
  else if k = 1 then some (o == some .lt)
  else if k = 2 then some (o == some .lt || o == some .eq)
  else if k = 3 then some (o == none)
  else none

/-- Write predicate register DST[3:0] + `k` with a comparison of S1 + `k` and S2 + `k` under PRED. -/
def State.compareReg (q s : State) (b : Nat) (v : VecSlot) (k : Nat) : State :=
  let x := q.benchOf b
  let out := (List.range 128).map fun l => (compareKind (v.imm % 8) (x.lane (v.s1 + k) l) (x.lane (v.s2 + k) l)).getD false
  s.setBench b ((s.benchOf b).setPred ((v.dst + k) % 16) (x.pred v.pred) (maskOf out))

/-- A predicate register takes free bits under `mask`: what a comparison with a reserved encoding leaves (DEDUCED, log entry 20). -/
def State.freePred (s : State) (b p mask : Nat) : State :=
  (s.setBench b ((s.benchOf b).setPred (p % 16) mask (Config.reserved s.fresh 0))).drawn

/-- VCMP (R170). -/
def execVcmp (i : Issue) (v : VecSlot) (s : State) : Res :=
  s.operate i (.vector 0x10 v) fun q s =>
    let mask := (q.benchOf i.bench).pred v.pred
    if !evenRegs v then
      .next ((s.freePred i.bench (Config.reserved s.fresh 1) mask).freePred i.bench (Config.reserved s.fresh 2) mask)
    else if v.imm.val % 8 < 4 then .next (q.compareReg (q.compareReg s i.bench v 0) i.bench v 1)
    else .next ((s.freePred i.bench v.dst mask).freePred i.bench (v.dst + 1) mask)

/-- VSEL: each lane takes S1 or S2; the manual does not give the condition, which is free (R80). The lane passes as it is: a NaN
keeps its bits and counts nothing: DESIGN CHOICE, log entry 108. -/
def execVsel (i : Issue) (v : VecSlot) (s : State) : Res :=
  s.pairOp i 0x11 v fun a b c => silentLane (if Config.selects c v.imm then a else b)

/-! ## INT32 -/

/-- IADD: wrapping (R80). -/
def execIadd (i : Issue) (v : VecSlot) (s : State) : Res := s.pairOp i 0x20 v fun a b _ => silentLane ((a + b) % 2 ^ 32)

/-- ISUB: wrapping (R80). -/
def execIsub (i : Issue) (v : VecSlot) (s : State) : Res := s.pairOp i 0x21 v fun a b _ => silentLane ((a + 2 ^ 32 - b) % 2 ^ 32)

/-- A shift of kind 0 left, 1 logical right or 2 arithmetic right (R170). -/
def shiftLane (kind a n : Nat) : Nat :=
  if kind = 0 then (if 32 ≤ n then 0 else a * 2 ^ n % 2 ^ 32)
  else if kind = 1 then (if 32 ≤ n then 0 else a / 2 ^ n)
  else toField 32 (ofField 32 a / 2 ^ (min n 32))

/-- ISHF (R170); kind 3 is reserved. -/
def execIshf (i : Issue) (v : VecSlot) (s : State) : Res :=
  s.operate i (.vector 0x22 v) fun q s =>
    let mask := (q.benchOf i.bench).pred v.pred
    let f : Nat → Nat → Nat → Nat × Option NumEvent := fun a b _ => silentLane (shiftLane (v.imm % 4) a b)
    if !evenRegs v then .next (s.freePair i.bench mask)
    else if v.imm.val % 4 = 3 then .next ((s.freeLanes i.bench v.dst mask).freeLanes i.bench (v.dst + 1) mask)
    else .next (q.laneReg (q.laneReg s i.bench v 0 f) i.bench v 1 f)

/-- IAND (R80). -/
def execIand (i : Issue) (v : VecSlot) (s : State) : Res := s.pairOp i 0x23 v fun a b _ => silentLane (a &&& b)

/-- IOR (R80). -/
def execIor (i : Issue) (v : VecSlot) (s : State) : Res := s.pairOp i 0x24 v fun a b _ => silentLane (a ||| b)

/-- IXOR (R80). -/
def execIxor (i : Issue) (v : VecSlot) (s : State) : Res := s.pairOp i 0x25 v fun a b _ => silentLane (a ^^^ b)

/-! ## Conversion -/

/-- The context whose bundles a bench issues (R181). -/
def State.issuer (s : State) (b : Nat) : Nat := s.rdAt R.BCH_SEQ_STATUS_CTX b

/-- The 16 random bits for the element in row `r` and column `c` of an operation under the Kerf stream of a descriptor (R78, R130,
R132). -/
def State.srBits (s : State) (b stream : Nat) (k : Coords) (r c : Nat) : Nat :=
  s.draw (s.stream (s.issuer b) stream) k (coordOf k r c) % 2 ^ 16

/-- RM of a slot for an element of target `f` (R77). -/
def State.roundingAt (s : State) (f : Format) (b rm stream : Nat) (k : Coords) (r c : Nat) : Rounding :=
  (roundingOf f rm (if rm = 1 then s.srBits b stream k r c else 0)).getD .rne

/-- VCVT: lanes in the format A_FMT of the DESC that IMM names are converted to FMT under RM (R77 to R79, R432). -/
def execVcvt (i : Issue) (v : VecSlot) (k : Coords) (s : State) : Res :=
  let b := i.bench.val
  s.operate i (.vector 0x30 v) fun q s =>
    let d := s.desc b (v.imm % 256)
    let x := q.benchOf b
    let mask := x.pred v.pred
    let n := (activeOf mask (List.range 128)).length
    match formatOf d.aFmt, formatOf v.fmt with
    | some g, some f =>
      if (roundingOf f v.rm 0).isSome then
        let out := (List.range 128).map fun l =>
          f.encode (s.roundingAt f b v.rm d.stream k (l / 32) (l % 32)) (g.decode (x.lane v.s1 l))
        .next ((s.putLanes b v.dst mask out).countSr b v.rm n)
      else .next ((s.freeLanes b v.dst mask).countSr b v.rm n)
    | _, _ => .next ((s.freeLanes b v.dst mask).countSr b v.rm n)

/-- What VCVB writes where FMT has no block scales or RM does not suit it: lanes and scales are free (DEDUCED, log entry 20). -/
def State.freeBlocks (s : State) (b r mask at_ : Nat) : State :=
  (s.putStore b at_ ((List.range 4).map fun g => BitVec.ofNat 8 (Config.reserved s.fresh (128 + g)))).freeLanes b r mask

/-- VCVB: the 128 lanes are four blocks of 32; their elements go to DST and their scales to OUT_SCALE (R70, R170). Every lane takes part
in its block, and all four scales are written, whatever PRED holds: DESIGN CHOICE, log entry 150. Under SR the lanes that PRED
selects count in BCH_SR_COUNT, those of a block that R70 writes as +0 too: DESIGN CHOICE, log entry 149. -/
def execVcvb (i : Issue) (v : VecSlot) (scaleOff : Nat) (k : Coords) (s : State) : Res :=
  let b := i.bench.val
  s.operate i (.vector 0x31 v) fun q s =>
    let x := q.benchOf b
    let mask := x.pred v.pred
    let n := (activeOf mask (List.range 128)).length
    let d := s.desc b (v.imm % 256)
    let at_ := 128 * d.outScale + scaleOff
    if spansFit [(at_, 4)] then
      match formatOf v.fmt with
      | some f =>
        if f.scalable && (roundingOf f v.rm 0).isSome then
          let blocks := (List.range 4).map fun g => encodeBlock f ((List.range 32).map fun l =>
            (x.lane v.s1 (32 * g + l), s.roundingAt f b v.rm d.stream k g l))
          let s := (s.putLanes b v.dst mask (blocks.map Prod.snd).flatten).countSr b v.rm n
          .next (s.putStore b at_ (blocks.map fun x => BitVec.ofNat 8 x.1))
        else .next ((s.freeBlocks b v.dst mask at_).countSr b v.rm n)
      | none => .next ((s.freeBlocks b v.dst mask at_).countSr b v.rm n)
    else .fault .benchStoreEnd

/-! ## Trees -/

/-- The bit that a level takes for a feature under KEY_FMT (R86). -/
def levelBit (ints : Bool) (entry x : Nat) : Bool :=
  let t := bits 63 32 entry
  if ints then decide (ofField 32 t < ofField 32 x)
  else if isNan32 x then bit 31 entry
  else (fval x).order (fval t) == some .gt

/-- The ensemble header at a byte of a bench's store. -/
def State.ensemble? (s : State) (b head : Nat) : Option Ensemble := ensembleOf (leNat (s.store b head 8))

/-- VTLV: one level of a tree of the ensemble whose header lies at byte `head` (R85, R86): the features that the level names are
S1 in KEY_FMT, and the leaf index grows in DST from bit 0; under a header that R85 does not list DST is free (log entry 20). -/
def execVtlv (i : Issue) (v : VecSlot) (head : Nat) (tree : Fin 65536) (level : Fin 12) (ecc : Ecc) (s : State) : Res :=
  let b := i.bench.val
  s.operate i (.vector 0x40 v) fun q s =>
    let x := q.benchOf b
    let mask := x.pred v.pred
    match q.ensemble? b head with
    | none => s.reading b ecc [(head, 8)] fun s => .next (s.freeLanes b v.dst mask)
    | some e =>
      let off := treeAt head e tree + 8 * level.val
      s.reading b ecc [(head, 8), (off, 8)] fun s =>
        let entry := leNat (q.store b off 8)
        .next (s.putLanes b v.dst mask ((List.range 128).map fun l =>
          silentLane (x.lane v.dst l % 2 ^ level.val + flag (levelBit (e.keyFmt == 7) entry (x.lane v.s1 l)) * 2 ^ level.val)))

/-- Each INT32 leaf enters the exact accumulator of its lane in units of 2⁻⁵⁶ as L × 2⁻³² (R87). The manual does not say what clears
the accumulators before a sample's first leaf: the leaf is added to what the accumulator holds. DESIGN CHOICE, log entry 128. -/
def Bench.addLeaves (x : Bench) (dst mask : Nat) : Nat → List Nat → Bench
  | _, [] => x
  | l, v :: t =>
    let a := 8 * dst + l
    let g := x.grain a 0
    (if bit l mask then x.setGrain a 0 { g.addBits (ofField 32 v * 2 ^ 24) with present := true } else x).addLeaves dst mask (l + 1) t

/-- The scores so far of the lanes of an accumulator group (R87). -/
def Bench.scores (x : Bench) (dst : Nat) (e : Ensemble) : List Nat :=
  (List.range 128).map fun l => (x.grain (8 * dst + l) 0).score e.leafExp

/-- An accumulator with free contents, number `k` of those that an operation leaves so. -/
def freeGrain (draw k : Nat) : Grain :=
  let f (j n : Nat) : Nat := Config.reserved draw (8 * k + j) % n
  { present := f 0 2 == 1, bits := f 1 (2 ^ 96), nan := f 2 2 == 1, pinf := f 3 2 == 1, ninf := f 4 2 == 1, hi := f 5 (2 ^ 32)
    lo := f 6 (2 ^ 32) }

/-- Accumulators of a bench take free contents: what an operation under a reserved encoding leaves there. DEDUCED, log entry 20. -/
def State.freeGrains (s : State) (b : Nat) (l : List (Nat × Nat)) : State :=
  (s.setBench b (l.zipIdx.foldl (fun (x : Bench) e => x.setGrain e.1.1 e.1.2 (freeGrain s.fresh e.2)) (s.benchOf b))).drawn

/-- VTLF: the leaves of a tree that the indexes in S1 name (R85 to R87): FP32 leaves go to DST; INT32 leaves enter the accumulators
of group DST, lane by lane, and DST takes the scores so far. A NaN that an FP32 leaf table
holds keeps its bits and counts nothing in NAN_OUT (DESIGN CHOICE, log entry 108). Under a header that R85 does not list DST and the
group are free. -/
def execVtlf (i : Issue) (v : VecSlot) (head : Nat) (tree : Fin 65536) (ecc : Ecc) (s : State) : Res :=
  let b := i.bench.val
  s.operate i (.vector 0x41 v) fun q s =>
    let x := q.benchOf b
    let mask := x.pred v.pred
    match q.ensemble? b head with
    | none => s.reading b ecc [(head, 8)] fun s =>
      .next ((s.freeGrains b ((List.range 128).map fun l => (8 * v.dst + l, 0))).freeLanes b v.dst mask)
    | some e =>
      let at_ (l : Nat) : Nat := treeAt head e tree + 8 * e.depth + 4 * (x.lane v.s1 l % 2 ^ e.depth)
      s.reading b ecc ((head, 8) :: (List.range 128).map fun l => (at_ l, 4)) fun s =>
        let leaves := (List.range 128).map fun l => leNat (q.store b (at_ l) 4)
        if e.leafFmt = 10 then .next (s.putLanes b v.dst mask (leaves.map silentLane))
        else
          let y := (s.benchOf b).addLeaves v.dst mask 0 leaves
          .next ((s.setBench b y).putLanes b v.dst mask ((y.scores v.dst e).map silentLane))

/-! ## Reductions and Kerf -/

/-- Fold the elements of a grain that are present. -/
def foldPresent (f : Nat → Nat → Nat) : List (Option Nat) → Option Nat
  | [] => none
  | x :: t => match x, foldPresent f t with
    | some a, some b => some (f a b)
    | some a, none => some a
    | none, y => y

/-- The leaf of a grain, with its low part, under a reduction (R125): a NaN among FP32 results is canonical (R68), and a grain whose
every element is absent gives the empty value. -/
def leafOf (r : Reduction) (l : List (Option Nat)) : Nat × Nat :=
  let float (x : Option (Nat × Nat)) : Nat × Nat := match x with | some (a, b) => (canonical a, b) | none => emptyOf r
  let whole (x : Option Nat) : Nat × Nat := match x with | some a => (a, 0) | none => emptyOf r
  if r.op = 3 then whole (foldPresent (fun a b => a ||| b) l)
  else if r.path = 2 then
    whole (foldPresent (if r.op = 0 then fun a b => (a + b) % 2 ^ 32 else intMax (r.op == 1)) l)
  else if r.op ≠ 0 then float ((foldPresent (fminmax (r.op == 1)) l).map fun x => (x, 0))
  else if r.path = 1 then float (orderedRoot r.pair l)
  else if l.all Option.isNone then emptyOf r
  else float (some (exactSum r.pair (l.filterMap id)))

/-- A leaf goes to lane `g` of DST, and with the pair option its low part to DST + 1. -/
def State.putLeaf (q s : State) (b : Nat) (v : VecSlot) (r : Reduction) (first g : Nat) : State :=
  let x := q.benchOf b
  let l := (List.range 32).map fun k => if first + 32 * g + k < r.n then some (x.lane v.s1 (32 * g + k)) else none
  let leaf := leafOf r l
  if bit g (x.pred v.pred) then
    let y := (s.benchOf b).setLane v.dst g leaf.1
    let s := s.setBench b (if r.pair then y.setLane (v.dst + 1) g leaf.2 else y)
    if r.path = 2 ∨ r.op = 3 then s else s.countNum b [nanEvent leaf.1]
  else s

/-- The reduction descriptor of the active plan that an operation table entry names (R174). -/
def State.reduction? (s : State) (c id : Nat) : Option Reduction :=
  match s.pln.active with | some p => p.reductions.find? fun r => r.id == id && r.ctx == c | none => none

/-- VRED: the leaves of the four grains that the lanes of S1 form, from logical element `first` on, under the reduction of the
DESC that IMM names (R125, R170, R174). -/
def execVred (i : Issue) (v : VecSlot) (first : Nat) (s : State) : Res :=
  let b := i.bench.val
  s.operate i (.vector 0x48 v) fun q s =>
    match s.reduction? (s.issuer b) (s.desc b (v.imm % 256)).reduction with
    | none => .next s
    | some r => .next ((List.range 4).foldl (fun s g => q.putLeaf s b v r first g) s)

/-- What a Kerf value becomes under its stream's USE (R132): dropout keeps S2 times FACTOR where the value is at least THRESHOLD
and gives +0 otherwise, a 32-bit program use the uniform variate, and any other use the value as it is. The manual names neither the
register whose elements a dropout stream keeps nor what a dropped element becomes. DESIGN CHOICE, log entry 129. -/
def kerfUse (k : KerfStream) (u x : Nat) : Nat × Option NumEvent :=
  if k.use = 1 then (if k.threshold ≤ u then counted (fmul x k.factor) else silentLane 0)
  else if k.use = 2 ∧ k.width = 32 then silentLane (rne32 (.fin false u (-32)))
  else silentLane u

/-- VKRF: the values of the stream of DESC for the coordinates that the lanes of S1 count from the base (R130 to R132). -/
def execVkrf (i : Issue) (v : VecSlot) (k : Coords) (s : State) : Res :=
  let b := i.bench.val
  s.operate i (.vector 0x50 v) fun q s =>
    let x := q.benchOf b
    let str := s.stream (s.issuer b) (s.desc b (v.imm % 256)).stream
    .next (s.putLanes b v.dst (x.pred v.pred) ((List.range 128).map fun l =>
      kerfUse str (s.draw str k (k.base + x.lane v.s1 l)) (x.lane v.s2 l)))

end Sys2Proof.Machine
end

