-- ==== Sys2Proof/Machine/Matrix.lean ====
section
/-! DEFINITION. The rows of the matrix slot (06_working_plan.md R169; 03_bench_arithmetic.md R65 to R79;
04_sparsity_and_forks.md R90 to R99). -/

namespace Sys2Proof.Machine

open Sys2Proof

/-! ## What enters the engine -/

/-- What one grain, or one block of one, brings to a tile: the elements of each row of A, whether its scale is other than 0xFF and
whether it is a row of a void slot; the weights of each column, none at a structural zero, whether its scale is other than
0xFF, and the invalid nibbles among its metadata. -/
structure Feed where
  rows : List (List Val)
  rowsOk : List Bool
  voids : List Bool
  cols : List (List (Option Val))
  colsOk : List Bool
  bad : List Nat
deriving DecidableEq, Repr

/-- A scale code: 127 for an operand that is not scaled (R69). -/
def State.scaleAt (s : State) (b : Nat) (scaled : Bool) (o : Nat) : Nat :=
  if scaled then leNat (s.store b o 1) else 127

/-- `n` packed elements at byte `o` of the store, under a scale code (R67, R69). -/
def State.elementsAt (s : State) (b : Nat) (f : Format) (scaled : Bool) (scale n o : Nat) : List Val :=
  (unpack f n (s.store b o (packedLen f n))).map (elementVal f scaled scale)

/-- The nibble of group `k` of a 2:4 grain (R92). -/
def nibble (metadata k : Nat) : Nat := metadata / 16 ^ k % 16

/-- A nibble is one of the six of R92: its first position is below its second. -/
def nibbleOk (n : Nat) : Bool := decide (n % 4 < n / 4)

/-- Element `i` of a 2:4 grain: a kept value, or a structural zero (R92, R96); a group under an invalid nibble keeps none. -/
def keptAt (kept : List Val) (metadata i : Nat) : Option Val :=
  let n := nibble metadata (i / 4)
  if !nibbleOk n then none
  else if i % 4 = n % 4 then kept[2 * (i / 4)]?
  else if i % 4 = n / 4 then kept[2 * (i / 4) + 1]?
  else none

/-- The invalid nibbles of a grain's metadata (R97). -/
def badNibbles (metadata : Nat) : Nat := ((List.range 8).filter fun k => !nibbleOk (nibble metadata k)).length

/-- Bytes of a weight grain of one column (R92). -/
def weightLen (t : Tile) (form : Nat) : Nat :=
  if form = 1 then packedLen t.b 16 + 4 else packedLen t.b 32

/-- Bytes of bench store lie where a void slot was received (R108). -/
def Bench.isVoid (x : Bench) (o n : Nat) : Bool := x.voids.any fun v => decide (o < v.1 + v.2) && decide (v.1 < o + n)

/-- What MGR takes from A and B (R169). -/
def State.denseFeed (s : State) (b : Nat) (d : Desc) (t : Tile) (m : MatSlot) (l : TileLayout) : Feed :=
  let scaleA (r : Nat) : Nat := s.scaleAt b d.scaledA (128 * d.aScale + l.scaleA + r * l.scaleARow)
  let scaleB (c : Nat) : Nat := s.scaleAt b d.scaledB (128 * d.bScale + l.scaleB + c * l.scaleBCol)
  let metaOf (c : Nat) : Nat := leNat (s.store b (128 * m.b + c * l.bCol + packedLen t.b 16) 4)
  let col (c : Nat) : List (Option Val) :=
    if d.form = 1 then
      let kept := s.elementsAt b t.b d.scaledB (scaleB c) 16 (128 * m.b + c * l.bCol)
      (List.range 32).map (keptAt kept (metaOf c))
    else (s.elementsAt b t.b d.scaledB (scaleB c) 32 (128 * m.b + c * l.bCol)).map some
  { rows := (List.range t.rows).map fun r => s.elementsAt b t.a d.scaledA (scaleA r) 32 (128 * m.a + r * l.aRow)
    rowsOk := (List.range t.rows).map fun r => scaleA r != 0xFF
    voids := (List.range t.rows).map fun r => (s.benchOf b).isVoid (128 * m.a + r * l.aRow) (packedLen t.a 32)
    cols := (List.range 16).map col
    colsOk := (List.range 16).map fun c => scaleB c != 0xFF
    bad := (List.range 16).map fun c => if d.form = 1 then badNibbles (metaOf c) else 0 }

/-- The bytes that MGR reads. -/
def denseSpans (d : Desc) (t : Tile) (m : MatSlot) (l : TileLayout) : List (Nat × Nat) :=
  (List.range t.rows).map (fun r => (128 * m.a.val + r * l.aRow, packedLen t.a 32))
    ++ (List.range 16).map (fun c => (128 * m.b.val + c * l.bCol, weightLen t d.form))
    ++ (if d.scaledA then (List.range t.rows).map fun r => (128 * d.aScale + l.scaleA + r * l.scaleARow, 1) else [])
    ++ (if d.scaledB then (List.range 16).map fun c => (128 * d.bScale + l.scaleB + c * l.scaleBCol, 1) else [])

/-- What present block `i` brings, the `p`-th of its strip: 16 elements of each row, from reduction row 16i, and of each column,
whose element (r, c) is element 16c + r (R94); its grain is ⌊i ÷ 2⌋. -/
def State.blockFeed (s : State) (b : Nat) (d : Desc) (t : Tile) (m : MatSlot) (l : TileLayout) (i p : Nat) : Feed :=
  let scaleA (r : Nat) : Nat := s.scaleAt b d.scaledA (128 * d.aScale + l.scaleA + r * l.scaleARow + i / 2)
  let scaleB (c : Nat) : Nat := s.scaleAt b d.scaledB (128 * d.bScale + l.scaleB + c * l.scaleBCol + i / 2)
  let rowAt (r : Nat) : Nat := 128 * m.a + r * l.aRow + i * packedLen t.a 16
  { rows := (List.range t.rows).map fun r => s.elementsAt b t.a d.scaledA (scaleA r) 16 (rowAt r)
    rowsOk := (List.range t.rows).map fun r => scaleA r != 0xFF
    voids := (List.range t.rows).map fun r => (s.benchOf b).isVoid (rowAt r) (packedLen t.a 16)
    cols := (List.range 16).map fun c =>
      (s.elementsAt b t.b d.scaledB (scaleB c) 16 (128 * m.b + p * packedLen t.b 256 + c * packedLen t.b 16)).map some
    colsOk := (List.range 16).map fun c => scaleB c != 0xFF
    bad := [] }

/-- The bytes that a block reads. -/
def blockSpans (d : Desc) (t : Tile) (m : MatSlot) (l : TileLayout) (i p : Nat) : List (Nat × Nat) :=
  (List.range t.rows).map (fun r => (128 * m.a.val + r * l.aRow + i * packedLen t.a 16, packedLen t.a 16))
    ++ [(128 * m.b.val + p * packedLen t.b 256, packedLen t.b 256)]
    ++ (if d.scaledA then (List.range t.rows).map fun r => (128 * d.aScale + l.scaleA + r * l.scaleARow + i / 2, 1) else [])
    ++ (if d.scaledB then (List.range 16).map fun c => (128 * d.bScale + l.scaleB + c * l.scaleBCol + i / 2, 1) else [])

/-! ## Products and the zero-grain gate -/

/-- The products of a row and a column among the first `present` elements: a structural zero forms none (R71, R96). -/
def productsOf (present : Nat) (row : List Val) (col : List (Option Val)) : List (Val × Val) :=
  ((row.zip col).take present).filterMap fun x => x.2.map fun w => (x.1, w)

/-- The gate's conditions on the weights (R99): none is NaN or infinite, no scale of theirs is 0xFF, and no nibble is invalid. -/
def Feed.weightsOk (f : Feed) (present : Nat) : Bool :=
  f.bad.all (· == 0) && f.colsOk.all id
    && f.cols.all fun col => (col.take present).all fun w => match w with | some v => v.isFin | none => true

/-- The gate's condition on row `r`: it belongs to a void slot (R108), or its scale is not 0xFF and each of its elements at a
position that is not a structural zero is zero (R99). -/
def Feed.rowZero (f : Feed) (present r : Nat) : Bool :=
  f.voids.getD r false ||
    (f.weightsOk present && f.rowsOk.getD r false &&
      f.cols.all fun col => (productsOf present (f.rows.getD r []) col).all fun x => x.1.isZero)

/-- Rows of a tile that the gate gates (R99): every feed of the cycle meets its conditions, and an element is present. The rule speaks of
one activation grain per row and cycle; of an MGB that takes two blocks, perhaps of two grains, a row is gated, and counted once,
where both meet the conditions. DESIGN CHOICE, log entry 130. -/
def gatedRows (rows : Nat) (feeds : List (Feed × Nat)) : Nat :=
  ((List.range rows).filter fun r => feeds.any (fun x => decide (0 < x.2)) &&
    feeds.all fun x => x.1.rowZero x.2 r).length

/-- Gated rows are counted (R99, R402). -/
def State.countGated (s : State) (b n : Nat) : State :=
  (s.addAt R.FRK_GATE_COUNT_COUNT 0 n).count (4 * b + 3) n

/-- A matrix operation issues (R402). -/
def State.countMatrix (s : State) (b : Nat) : State := s.count (4 * b + 2) 1

/-- Invalid 2:4 nibbles are counted, with one Contained error for the context in its step (R97). -/
def State.metaErrors (s : State) (b n : Nat) : State :=
  if n = 0 then s
  else
    let c := s.issuer b
    let s := (s.addAt R.FRK_SPARSE_META_ERR 0 n).wr R.FRK_EVENT_META_ERR 1
    if c ∈ s.frk.metaErr then s
    else ({ s with frk := { s.frk with metaErr := addOnce c s.frk.metaErr } }).contained 5 0x23 (benchField b) c b n

/-! ## Accumulation -/

/-- The accumulator of tile element (r, c) in group ACC, of which rows past 31 take the second half (R93, R169). -/
def accOf (m : MatSlot) (r c : Nat) : Nat := 8 * m.acc + 16 * (r % 32) + c

/-- Apply `f` to the grain of every element of a tile of `rows` rows. -/
def Bench.mapTile (x : Bench) (m : MatSlot) (rows : Nat) (half : Nat → Nat) (f : Nat → Nat → Grain → Grain) : Bench :=
  (List.range rows).foldl (fun x r => (List.range 16).foldl (fun x c =>
    x.setGrain (accOf m r c) (half r) (f r c (x.grain (accOf m r c) (half r)))) x) x

/-- The grain that a feed adds to on the exact path: invalid nibbles of its column set NAN (R71, R97); the elements of a void row are
absent (R108). -/
def Feed.exactGrain (f : Feed) (present r c : Nat) (g : Grain) : Grain :=
  if f.voids.getD r false then g
  else
    let g := { g with present := g.present || decide (0 < present), nan := g.nan || f.bad.getD c 0 != 0 }
    g.addAll (productsOf present (f.rows.getD r []) (f.cols.getD c []))

/-- The grain of BF16 products on the ordered path (R74, R76). -/
def Feed.orderedGrain (f : Feed) (pair : Bool) (present r c : Nat) : Grain :=
  let p := if f.voids.getD r false then []
    else (productsOf present (f.rows.getD r []) (f.cols.getD c [])).map fun x => some (rne32 (x.1.mul x.2))
  match orderedRoot pair (p ++ List.replicate (32 - p.length) none) with
  | none => Grain.empty
  | some (hi, lo) => { Grain.empty with present := true, hi := hi, lo := lo }

/-- A matrix operation that accumulates under a descriptor whose tile the manual does not list, or in a form that is not the
operation's: every accumulator of the bench is free (DEDUCED, log entry 20). -/
def State.freeTile (s : State) (b : Nat) (ecc : Ecc) : Res :=
  s.reading b ecc [] fun s => .next ((s.freeGrains b ((List.range 1024).map fun k => (k / 2, k % 2))).countMatrix b)

/-- A matrix operation that writes bench store under such a descriptor: up to 64 rows from B, and as many scale bytes where the result is
scaled, are free where they lie in the store. -/
def State.freeOut (s : State) (b : Nat) (d : Desc) (m : MatSlot) (l : TileLayout) (ecc : Ecc) : Res :=
  s.reading b ecc [] fun s =>
    let rows := Config.reserved s.fresh 0 % 65
    let out (r : Nat) : List (Nat × List Byte) :=
      (128 * m.b.val + r * l.outRow, (List.range 256).map fun k => BitVec.ofNat 8 (Config.reserved s.fresh (1 + 512 * r + k)))
        :: (if d.scaledOut then
            [(128 * d.outScale + l.scaleOut + r * l.scaleOutStep, [BitVec.ofNat 8 (Config.reserved s.fresh (512 * (r + 1)))])] else [])
    let writes := ((List.range rows).map out).flatten.filter fun x => spansFit [(x.1, x.2.length)]
    .next ((writes.foldl (fun s x => s.putStore b x.1 x.2) s).drawn.countMatrix b)

/-- MGR clears the tile's accumulators and accumulates one grain of each output, of which the first `present` elements are
present (R169, R71, R74). -/
def execMgr (i : Issue) (m : MatSlot) (l : TileLayout) (present : Fin 33) (ecc : Ecc) (s : State) : Res :=
  let b := i.bench.val
  s.operate i (.matrix 1 m) fun q s =>
    let d := s.desc b m.desc
    match tileOf d with
    | none => s.freeTile b ecc
    | some t =>
      if d.form = 2 then s.freeTile b ecc
      else s.reading b ecc (denseSpans d t m l) fun s =>
        let f := q.denseFeed b d t m l
        let x := (s.benchOf b).mapTile m t.rows (fun r => r / 32) fun r c _ =>
          if t.exact then f.exactGrain present r c Grain.empty else f.orderedGrain d.pair present r c
        let s := ((s.setBench b x).countMatrix b).countGated b (gatedRows t.rows [(f, present.val)])
        .next (s.metaErrors b f.bad.sum)

/-- Elements of a block within an axis of `axis` elements. -/
def blockPresent (axis i : Nat) : Nat := min 16 (axis - 16 * i)

/-- The present blocks of a strip over an axis of `axis` elements, in ascending order (R94). -/
def State.presentBlocks (s : State) (b : Nat) (d : Desc) (axis : Nat) : List Nat :=
  let v := leNat (s.store b (128 * d.bitmap) (8 * ceilDiv axis 1024))
  (List.range (ceilDiv axis 16)).filter fun i => bit i v

/-- Grains of a strip with a present block before grain `g`. -/
def grainsBefore (blocks : List Nat) (g : Nat) : Nat := (((blocks.map (· / 2)).filter (· < g)).eraseDups).length

/-- One block enters the accumulators of its own grain, which its first present block clears. Grains with present blocks take the
two halves in turn (R93, R95; log entry 40). -/
def State.takeBlock (s : State) (b : Nat) (t : Tile) (m : MatSlot) (axis : Nat) (all : List Nat) (i : Nat) (f : Feed) : State :=
  let opens := !(i % 2 == 1 && all.contains (i - 1))
  s.setBench b ((s.benchOf b).mapTile m t.rows (fun _ => grainsBefore all (i / 2) % 2) fun r c g =>
    f.exactGrain (blockPresent axis i) r c (if opens then Grain.empty else g))

/-- MGB accumulates the strip's next two present blocks, or its last one alone (R95, R169); after the last one the next pass begins
at the strip's first. -/
def execMgb (i : Issue) (m : MatSlot) (l : TileLayout) (axis : Nat) (ecc : Ecc) (s : State) : Res :=
  let b := i.bench.val
  s.operate i (.matrix 2 m) fun q s =>
    let d := s.desc b m.desc
    let key := 64 * m.desc.val + m.acc.val
    match tileOf d with
    | none => s.freeTile b ecc
    | some t =>
      if d.form ≠ 2 then s.freeTile b ecc
      else if !spansFit [(128 * d.bitmap, 8 * ceilDiv axis 1024)] then .fault .benchStoreEnd
      else
        let all := q.presentBlocks b d axis
        let later := all.filter fun k => Tab.get 0 key (s.benchOf b).pass ≤ k
        let blocks := (later.take 2).map fun k => (k, (all.filter (· < k)).length)
        let from_ := if (later.drop 2) = [] then 0 else (later.getD 1 0) + 1
        s.reading b ecc ((128 * d.bitmap, 8 * ceilDiv axis 1024) :: (blocks.map fun x => blockSpans d t m l x.1 x.2).flatten) fun s =>
          let feeds := blocks.map fun x => (x.1, q.blockFeed b d t m l x.1 x.2)
          let n := gatedRows t.rows (feeds.map fun x => (x.2, blockPresent axis x.1))
          let s := feeds.foldl (fun s x => s.takeBlock b t m axis all x.1 x.2) s
          let s := s.setBench b { s.benchOf b with pass := Tab.put 0 key from_ (s.benchOf b).pass }
          .next ((s.countMatrix b).countGated b n)

/-! ## Partials and results -/

/-- The half that a row's grain lies in: of a block-sparse tile the one named, otherwise by row (R93). -/
def halfOf (d : Desc) (half r : Nat) : Nat := if d.form = 2 then half else r / 32

/-- The bytes of a tile's 16 columns of `n` bytes each from unit `a`. -/
def tileSpans (t : Tile) (l : TileLayout) (a n : Nat) : List (Nat × Nat) :=
  (List.range t.rows).map fun r => (128 * a + r * l.outRow, n)

/-- MPA adds the exact partials at A into the accumulators (R73, R169). -/
def execMpa (i : Issue) (m : MatSlot) (l : TileLayout) (half : Fin 2) (ecc : Ecc) (s : State) : Res :=
  let b := i.bench.val
  s.operate i (.matrix 3 m) fun q s =>
    let d := s.desc b m.desc
    match tileOf d with
    | none => s.freeTile b ecc
    | some t =>
      if !t.exact then s.freeTile b ecc
      else s.reading b ecc (tileSpans t l m.a 256) fun s =>
        let x := (s.benchOf b).mapTile m t.rows (halfOf d half) fun r c g =>
          g.addPartial (leNat (q.store b (128 * m.a + r * l.outRow + 16 * c) 16))
        .next ((s.setBench b x).countMatrix b)

/-- MXP writes the accumulators as exact partials at B (R73, R169). -/
def execMxp (i : Issue) (m : MatSlot) (l : TileLayout) (half : Fin 2) (s : State) : Res :=
  let b := i.bench.val
  s.operate i (.matrix 5 m) fun q s =>
    let d := s.desc b m.desc
    match tileOf d with
    | none => s.freeOut b d m l Ecc.clean
    | some t =>
      if !t.exact then s.freeOut b d m l Ecc.clean
      else if spansFit (tileSpans t l m.b 256) then
        let x := q.benchOf b
        let s := (List.range t.rows).foldl (fun s r =>
          s.putStore b (128 * m.b + r * l.outRow)
            (((List.range 16).map fun c => leBytes 16 (x.grain (accOf m r c) (halfOf d half r)).partialBits).flatten)) s
        .next (s.countMatrix b)
      else .fault .benchStoreEnd

/-- The grain result of a tile element (R75, R76); a grain without elements is written as +0. -/
def State.resultOf (s : State) (b : Nat) (d : Desc) (t : Tile) (l : TileLayout) (g : Grain) (r c : Nat) : Nat × Nat :=
  if !g.present then (0, 0)
  else if t.exact then
    g.exactResult (s.scaleAt b d.scaledA (128 * d.aScale + l.scaleA + r * l.scaleARow))
      (s.scaleAt b d.scaledB (128 * d.bScale + l.scaleB + c * l.scaleBCol))
  else (g.hi, g.lo)

/-- A converted grain result counts once as NaN (R79, R89). -/
def resultEvents (hi : Nat) (e : Option NumEvent) : List (Option NumEvent) :=
  if isNan32 hi then [some .nanOut, if e = some .nanOut then none else e] else [e]

/-- The exact integer path applies (R79): an integer pair, not scaled, to INT32. -/
def intPath (d : Desc) (t : Tile) (f : Format) : Bool := t.ints && !d.scaledA && !d.scaledB && f == .int32

/-- What a conversion writes: bytes by their place in bench store, and what its elements count. -/
structure ResultOut where
  writes : List (Nat × List Byte)
  events : List (Option NumEvent)
deriving DecidableEq, Repr

/-- The grain of element (r, c) of a tile; columns 16 and up are those of the next tile of accumulators (R91, R93). -/
def Bench.cell (x : Bench) (d : Desc) (t : Tile) (m : MatSlot) (half r c : Nat) : Grain :=
  x.grain (accOf m r (c % 16) + 16 * min t.rows 32 * (c / 16)) (halfOf d half r)

/-- A row of results converted to a format element by element (R77 to R79). -/
def State.plainRow (s : State) (b : Nat) (d : Desc) (t : Tile) (m : MatSlot) (l : TileLayout) (f : Format) (half : Nat) (k : Coords)
    (r : Nat) : ResultOut :=
  let cells := (List.range 16).map fun c =>
    let g := (s.benchOf b).cell d t m half r c
    let rm := s.roundingAt f b d.rm d.stream k r c
    if intPath d t f then
      let e := encodeInt 32 rm (g.value 0)
      (e.1, [e.2])
    else
      let hi := (s.resultOf b d t l g r c).1
      let e := f.encode rm (fval hi)
      (e.1, resultEvents hi e.2)
  { writes := [(128 * m.b + r * l.outRow, pack f (cells.map Prod.fst))], events := (cells.map Prod.snd).flatten }

/-- A row of results with the pair option: FP32 pairs (R76). -/
def State.pairRow (s : State) (b : Nat) (d : Desc) (t : Tile) (m : MatSlot) (l : TileLayout) (half r : Nat) : ResultOut :=
  let cells := (List.range 16).map fun c => s.resultOf b d t l ((s.benchOf b).cell d t m half r c) r c
  { writes := [(128 * m.b + r * l.outRow, (cells.map fun x => leBytes 4 x.1 ++ leBytes 4 x.2).flatten)]
    events := cells.map fun x => nanEvent x.1 }

/-- The FP32 result of element (r, c) and its rounding, for a block with a scale. -/
def State.blockCell (s : State) (b : Nat) (d : Desc) (t : Tile) (m : MatSlot) (l : TileLayout) (f : Format) (half : Nat) (k : Coords)
    (r c : Nat) : Nat × Rounding :=
  ((s.resultOf b d t l ((s.benchOf b).cell d t m half r c) r c).1, s.roundingAt f b d.rm d.stream k r c)

/-- The blocks of 32 consecutive results along a row, over this tile and the next one of accumulators (R69, R70). -/
def State.rowBlock (s : State) (b : Nat) (d : Desc) (t : Tile) (m : MatSlot) (l : TileLayout) (f : Format) (half : Nat) (k : Coords)
    (r : Nat) : ResultOut :=
  let cells := (List.range 32).map (s.blockCell b d t m l f half k r)
  let e := encodeBlock f cells
  { writes := [(128 * m.b + r * l.outRow, pack f (e.2.map Prod.fst)),
      (128 * d.outScale + l.scaleOut + r * l.scaleOutStep, [BitVec.ofNat 8 e.1])]
    events := e.2.map Prod.snd ++ cells.map fun x => nanEvent x.1 }

/-- The blocks of 32 consecutive results down the columns of a tile of 32 rows or 64 (R69, R70). -/
def State.columnBlocks (s : State) (b : Nat) (d : Desc) (t : Tile) (m : MatSlot) (l : TileLayout) (f : Format) (half : Nat)
    (k : Coords) : ResultOut :=
  let cells (g c : Nat) : List (Nat × Rounding) := (List.range 32).map fun r => s.blockCell b d t m l f half k (32 * g + r) c
  let blocks (g : Nat) : List (Nat × List (Nat × Option NumEvent)) := (List.range 16).map fun c => encodeBlock f (cells g c)
  let grains := List.range (t.rows / 32)
  { writes := (grains.map fun g =>
      ((List.range 32).map fun r => (128 * m.b + (32 * g + r) * l.outRow, pack f ((blocks g).map fun e => (e.2.getD r (0, none)).1)))
        ++ (blocks g).zipIdx.map fun e =>
          (128 * d.outScale + l.scaleOut + (16 * g + e.2) * l.scaleOutStep, [BitVec.ofNat 8 e.1.1])).flatten
    events := (grains.map fun g => ((blocks g).map fun e => e.2.map Prod.snd).flatten
      ++ ((List.range 16).map fun c => (cells g c).map fun x => nanEvent x.1).flatten).flatten }

/-- What MCV writes of a tile (R70, R75 to R79). -/
def State.tileOut (s : State) (b : Nat) (d : Desc) (t : Tile) (m : MatSlot) (l : TileLayout) (f : Format) (half : Nat) (k : Coords) :
    ResultOut :=
  let rows := List.range t.rows
  let join (l : List ResultOut) : ResultOut := ⟨(l.map ResultOut.writes).flatten, (l.map ResultOut.events).flatten⟩
  if d.pair then join (rows.map (s.pairRow b d t m l half))
  else if !d.scaledOut then join (rows.map (s.plainRow b d t m l f half k))
  else if t.rows < 32 then join (rows.map (s.rowBlock b d t m l f half k))
  else s.columnBlocks b d t m l f half k

/-- Results of a conversion: the tile's, and of blocks along the rows those of two tiles. -/
def resultCount (d : Desc) (t : Tile) : Nat := if !d.pair && d.scaledOut && decide (t.rows < 32) then 32 * t.rows else 16 * t.rows

/-- The scale codes that a conversion reads. -/
def scaleSpans (d : Desc) (t : Tile) (l : TileLayout) : List (Nat × Nat) :=
  (if d.scaledA then (List.range t.rows).map fun r => (128 * d.aScale + l.scaleA + r * l.scaleARow, 1) else [])
    ++ (if d.scaledB then (List.range (resultCount d t / t.rows)).map fun c => (128 * d.bScale + l.scaleB + c * l.scaleBCol, 1)
        else [])

/-- MCV converts the accumulators to grain results and writes them at B under DESC (R70, R75, R76, R79, R169). Under SR each result counts
once in BCH_SR_COUNT, those of a block that R70 writes as +0 too: DESIGN CHOICE, log entry 149. -/
def execMcv (i : Issue) (m : MatSlot) (l : TileLayout) (half : Fin 2) (k : Coords) (ecc : Ecc) (s : State) : Res :=
  let b := i.bench.val
  s.operate i (.matrix 4 m) fun q s =>
    let d := s.desc b m.desc
    match tileOf d, formatOf d.outFmt with
    | some t, some f =>
      if (roundingOf f d.rm 0).isNone then s.freeOut b d m l ecc
      else
        let out := q.tileOut b d t m l f half k
        let spans := out.writes.map fun x => (x.1, x.2.length)
        s.reading b ecc (spans ++ scaleSpans d t l) fun s =>
          let s := out.writes.foldl (fun s x => s.putStore b x.1 x.2) s
          let s := s.countNum b out.events
          .next ((s.countSr b (if d.pair then 0 else d.rm) (resultCount d t)).countMatrix b)
    | _, _ => s.freeOut b d m l ecc

end Sys2Proof.Machine
end

