-- ==== Sys2Proof/Machine/Move.lean ====
section
/-! DEFINITION. The rows of the gather/move slot, mesh transfers and scrub (06_working_plan.md R171, R173, R175;
07_memory_tiers.md R199; 03_bench_arithmetic.md R88). -/

namespace Sys2Proof.Machine

open Sys2Proof

/-! ## Loads, stores and copies -/

/-- The 32-bit lanes that bytes hold. -/
def lanesOf (l : List Byte) (n : Nat) : List Nat := (List.range n).map fun k => leAt (4 * k) 4 l

/-- VLD: 512 bytes at ADDR into VREG (R171). -/
def execVld (i : Issue) (m : MovSlot) (ecc : Ecc) (s : State) : Res :=
  let b := i.bench.val
  s.operate i (.move 1 m) fun q s =>
    s.reading b ecc [(128 * m.addr.val, 512)] fun s =>
      .next (s.setBench b ((s.benchOf b).setLanes m.vreg allLanes 0 (lanesOf (q.store b (128 * m.addr) 512) 128)))

/-- VST: VREG to ADDR (R171). -/
def execVst (i : Issue) (m : MovSlot) (s : State) : Res :=
  let b := i.bench.val
  s.operate i (.move 2 m) fun q s =>
    if spansFit [(128 * m.addr.val, 512)] then
      .next (s.putStore b (128 * m.addr) ((((q.benchOf b).lanes m.vreg).map (leBytes 4)).flatten))
    else .fault .benchStoreEnd

/-- COPY: ID + 1 units from ADDR to ADDR2 (R171). -/
def execCopy (i : Issue) (m : MovSlot) (ecc : Ecc) (s : State) : Res :=
  let b := i.bench.val
  let n := 128 * (m.id.val + 1)
  s.operate i (.move 3 m) fun q s =>
    s.reading b ecc [(128 * m.addr.val, n), (128 * m.addr2.val, n)] fun s =>
      .next (s.putStore b (128 * m.addr2) (q.store b (128 * m.addr) n))

/-- ZFILL: +0 over ID + 1 units at ADDR (R171). -/
def execZfill (i : Issue) (m : MovSlot) (s : State) : Res :=
  let n := 128 * (m.id.val + 1)
  s.operate i (.move 7 m) fun _ s =>
    if spansFit [(128 * m.addr.val, n)] then .next (s.putStore i.bench (128 * m.addr) (zeros n)) else .fault .benchStoreEnd

/-! ## Mesh routes -/

/-- MSND hands the buffer at ADDR to mesh route ID (R171): its bytes are those the buffer holds now. -/
def execMsnd (i : Issue) (m : MovSlot) (ecc : Ecc) (s : State) : Res :=
  let b := i.bench.val
  s.operate i (.move 4 m) fun q s =>
    let n := match s.meshRoute? b m.id with | some r => r.length | none => 0
    s.reading b ecc [(128 * m.addr.val, n)] fun s =>
      let x := s.benchOf b
      let s := s.setBench b { x with handed := Tab.ins m.id (q.store b (128 * m.addr) n) x.handed }
      .next (match s.meshRoute? b m.id with
        | some r => { s with clk := { s.clk with flits := Tab.ins (256 * b + m.id) r.start s.clk.flits } }
        | none => s)

/-- MRCV binds ADDR as the receive buffer of mesh route ID (R171). -/
def execMrcv (i : Issue) (m : MovSlot) (s : State) : Res :=
  let b := i.bench.val
  s.operate i (.move 5 m) fun _ s =>
    let x := s.benchOf b
    .next (s.setBench b { x with bound := Tab.ins m.id (128 * m.addr) x.bound })

/-- A transfer whose every flit has left its crossings reaches the receive buffer bound by MRCV, and the completion counter of its
route rises (R43, R171, R173). -/
def execMeshTransferComplete (bench : Fin 792) (route : Fin 256) (s : State) : Res :=
  let b := bench.val
  match s.meshRoute? b route, Tab.find? route.val (s.benchOf b).handed with
  | some r, some data =>
    let d := s.physical r.dest
    match Tab.find? r.bind (s.benchOf d).bound with
    | some at_ =>
      if s.meshArrived b route r then
        let x := s.benchOf b
        let s := s.setBench b { x with handed := Tab.del route x.handed }
        .next ((s.setStore d at_ data).bumpCounter d r.counter)
      else .next s
    | none => .next s
  | _, _ => .next s

/-! ## Gather windows -/

/-- The window that GWIN opens: ID of the bench, of the context whose bundles issue, under the variant taken (R197, R199). -/
def State.windowOf? (s : State) (b id : Nat) : Option GatherDesc :=
  match s.logical? b with
  | none => none
  | some l => s.memPlan.windows.find? fun d =>
      d.bench == l && d.id == id && d.ctx == s.rdAt R.BCH_SEQ_STATUS_CTX b && s.variantActive d.ctx d.fork d.variants

/-- A GWIN that issues `late` beats after its time is a late entry of its bench's region, which its deficit makes up (R199,
R47). -/
def State.lateGwin (s : State) (b : Nat) (d : GatherDesc) (late : Nat) : State :=
  if late = 0 then s
  else
    let s := if d.ctrl < 20 then (s.inc R.HBM_GATHER_LATE_BIND).wr R.HBM_EVENT_LATE_BIND 1 else s.wr R.DTR_EVENT_LATE_BIND 1
    s.lateBench b (late * beatCycles (s.rdAt R.CLK_RGN_STATUS_OP_POINT (benchRegion b)))

/-- GWIN opens gather window ID with its data at ADDR; issued at or after nominal beat START, it moves the whole window by the
beats it is late (R171, R199). Once the window of this step has started, a GWIN is that of the next step (log entry 24). -/
def execGwin (i : Issue) (m : MovSlot) (s : State) : Res :=
  let b := i.bench.val
  s.operate i (.move 6 m) fun _ s =>
    match s.windowOf? b m.id with
    | none => .next s
    | some d =>
      let late := s.ctxPos d.ctx / 16 + 1 - d.start
      let key := windowKey d
      let open_ : Bool := match Tab.find? key s.scr.windows with | some g => g.list.isSome | none => false
      if s.scr.started.contains key ∨ open_ then .next { s with scr := { s.scr with ahead := Tab.ins key m.addr.val s.scr.ahead } }
      else .next ((s.setGather d (some (Gather.bound m.addr late))).lateGwin b d late)

/-! ## Bundle pages -/

/-- Write bytes into bundle memory from byte address `a`. -/
def Bench.setCode (x : Bench) (a : Nat) : List Byte → Bench
  | [] => x
  | v :: t => { x with code := Tab.put 0 a v x.code }.setCode (a + 1) t

/-- Set or clear the bit of a page in PAGE_BUSY (R181). -/
def State.setBusy (s : State) (b page : Nat) (on : Bool) : State :=
  let v := s.rdAt R.BCH_SEQ_STATUS_PAGE_BUSY b
  s.wrAt R.BCH_SEQ_STATUS_PAGE_BUSY b (if bit page v = on then v else if on then v + 2 ^ page else v - 2 ^ page)

/-- The ticks of 136 cycles of a bench (R175). -/
def State.refillTicks (s : State) (b : Nat) : Nat := ceilDiv (16 * 136) (beatCycles (s.rdAt R.CLK_RGN_STATUS_OP_POINT (benchRegion b)))

/-- BREF refills bundle page ID[3:0] from ADDR, and the page is busy for 136 cycles from issue (R171, R175). -/
def execBref (i : Issue) (m : MovSlot) (ecc : Ecc) (s : State) : Res :=
  let b := i.bench.val
  let page := m.id.val % 16
  s.operate i (.move 8 m) fun q s =>
    s.reading b ecc [(128 * m.addr.val, 8192)] fun s =>
      let x := (s.benchOf b).setCode (8192 * page) (q.store b (128 * m.addr) 8192)
      let s := s.setBench b { x with refills := Tab.put 0 page (s.now + s.refillTicks b) x.refills }
      .next ((s.setBusy b page true).incAt R.BCH_SEQ_COUNT_REFILLS b)

/-- A refill ends 136 cycles from its issue, and its page leaves busy (R175); before that it is not its time (log entry 3). -/
def execBrefDone (bench : Fin 792) (page : Fin 16) (s : State) : Res :=
  let x := s.benchOf bench
  if s.now < Tab.get 0 page x.refills then .next s
  else .next ((s.setBench bench { x with refills := Tab.del page x.refills }).setBusy bench page false)

/-! ## Scrub -/

/-- A background scrub reads the next word of bench store, and corrects it where needed (R88, R89); at the last word the pass is
complete. -/
def execBenchScrub (bench : Fin 792) (ecc : Ecc) (s : State) : Res :=
  let (s, k, pass) := s.scrubNext (32 + bench.val) (storeSize / 8)
  let word (a : Nat) : Bool := a / 8 == k
  let s := (s.readStore bench ⟨ecc.corr.filter word, ecc.uncorr.filter word⟩).1
  match pass with
  | none => .next s
  | some n => .next ((s.incAt R.BCH_SCRUB_PASSES bench).wrAt R.BCH_SCRUB_LAST_PASS bench (min n (2 ^ 32 - 1)))

end Sys2Proof.Machine
end

