-- ==== Sys2Proof/Machine/Ptp.lean ====
section
/-! DEFINITION. The PTP clocks of the ingest ports and the module PTP time (09_intake_and_streams.md R243 to R246). Times are
in 2⁻¹⁶ ns. -/

namespace Sys2Proof.Machine

open Sys2Proof

/-- The clock of ingest port `n`. -/
def State.clock (s : State) (n : Nat) : PtpPort := s.clocks.getD n PtpPort.reset

/-- Set the clock of ingest port `n`. -/
def State.setClock (s : State) (n : Nat) (c : PtpPort) : State := { s with clocks := s.clocks.set n c }

/-- Module PTP time at a sixteenth of the present tick (R244). -/
def State.ptpFine (s : State) (sixteenth : Nat) : Int :=
  ((s.ptp.time + sixteenth * s.ptpAdvance / 16) / (19 * 2 ^ 24) : Nat)

/-- Picoseconds in 2⁻¹⁶ ns. -/
def psUnits (ps : Nat) : Int := (ps * 65536 / 1000 : Nat)

/-- A receive stamp at the medium boundary (R244). The PCS has removed from the capture what the frame's position within its FEC
codeword adds. -/
def State.rxStamp (s : State) (n sixteenth : Nat) : Int := s.ptpFine sixteenth - psUnits (s.rdAt R.PTP_LAT_RX_PS n)

/-- A transmit stamp at the medium boundary (R244). -/
def State.txStamp (s : State) (n sixteenth : Nat) : Int := s.ptpFine sixteenth + psUnits (s.rdAt R.PTP_LAT_TX_PS n)

/-- delayAsymmetry of a port. -/
def State.asymmetry (s : State) (n : Nat) : Int := ofField 64 (s.rdAt R.PTP_ASYM_ASYM n)

/-- The source port (R245): PRIMARY when it is locked, else the other when that is locked. With none locked, the port whose
Syncs may step the time is PRIMARY, or the other where PRIMARY knows no master (log entry 27). -/
def State.sourcePort (s : State) : Nat :=
  let p := s.rd R.PTP_CFG_PRIMARY
  if s.onAt R.PTP_PORT_LOCKED p then p
  else if s.onAt R.PTP_PORT_LOCKED (1 - p) then 1 - p
  else if (s.clock p).chosen then p else 1 - p

/-- A Tally root that follows PTP enters and leaves its holdover with the PTP time (R56, R62). -/
def State.rootHoldover (s : State) (locked : Bool) : State :=
  if s.rd R.TAL_STATUS_ROLE = 1 ∧ s.on R.TAL_CTRL_PTP_FOLLOW then
    if locked then s.wr R.TAL_STATUS_HOLDOVER 0
    else if s.on R.TAL_STATUS_HOLDOVER then s
    else (s.wr R.TAL_STATUS_HOLDOVER 1).notice 3 0x80 (s.rd R.TAL_STATUS_UPSTREAM) 0 0
  else s

/-- PTP_STATUS follows the ports; with none locked the time is in holdover, with a Notice as it enters it (R245, R246). -/
def State.showPtp (s : State) : State :=
  let locked := s.onAt R.PTP_PORT_LOCKED 0 || s.onAt R.PTP_PORT_LOCKED 1
  let was := s.on R.PTP_STATUS_HOLDOVER
  let s := if locked = was then s.keepPtp else s
  let s := ((s.wr R.PTP_STATUS_SOURCE s.sourcePort).wr R.PTP_STATUS_LOCKED (flag locked)).wr R.PTP_STATUS_HOLDOVER (flag (!locked))
  let s := if !locked && !was then s.notice 11 0x81 s.sourcePort 0 0 else s
  if locked != !was then s.showPtpLocked.rootHoldover locked else s

/-- A port loses its lock (R245). -/
def State.unlock (s : State) (n state : Nat) : State :=
  let s := (s.wrAt R.PTP_PORT_LOCKED n 0).wrAt R.PTP_PORT_STATE n state
  (s.setClock n { s.clock n with good := 0 }).showPtp

/-- The servo of the module PTP time (R245): a trim within ±100 ppm, which a Tally root that follows PTP takes over (R53). -/
def State.ptpRate (s : State) (off : Int) : State :=
  let last := ofField 32 (s.rd R.PTP_RATE_TRIM)
  let lim : Int := trimOf 100
  let t := max (-lim) (min lim (Config.ptpServo s.fresh off last))
  let s := s.drawn.keepPtp.wr R.PTP_RATE_TRIM (toField 32 t)
  if s.rd R.TAL_STATUS_ROLE = 1 ∧ s.on R.TAL_CTRL_PTP_FOLLOW then s.correctRate (off * 19 * 2 ^ 16 / 160) else s

/-- A step of the module PTP time (R245). -/
def State.ptpStep (s : State) (n : Nat) (off : Int) : State :=
  let s := s.keepPtp
  let s := { s with ptp := { s.ptp with time := ((s.ptp.time : Int) - off * (19 * 2 ^ 24)).toNat } }
  (s.inc R.PTP_STATUS_STEPS).notice 11 0x80 n 0 (off.natAbs / 65536)

/-- A complete Sync gives an offset (R245): lock after 16 within LOCK_NS, its loss past eight times that, and on the source port
the correction of the time, by rate while locked and by a step past STEP_NS. -/
def State.takeSync (s : State) (n : Nat) (origin corr rx : Int) : State :=
  let c := s.clock n
  let corr := corr + s.asymmetry n
  let off := rx - origin - corr - ofField 64 (s.rdAt R.PTP_DELAY_DELAY n)
  let lock : Int := s.rd R.PTP_CFG_LOCK_NS * 65536
  let s := s.wrAt R.PTP_OFFSET_OFFSET n (toField 64 off)
  let good := if -lock ≤ off ∧ off ≤ lock then min (c.good + 1) 16 else 0
  let s := s.setClock n { c with good := good, lastSync := some (origin + corr, rx) }
  let s := if s.onAt R.PTP_PORT_LOCKED n then
      (if 8 * lock < off ∨ off < -(8 * lock) then s.unlock n 8 else s)
    else if good = 16 then ((s.wrAt R.PTP_PORT_LOCKED n 1).wrAt R.PTP_PORT_STATE n 9).showPtp
    else s
  let step : Int := s.rd R.PTP_CFG_STEP_NS * 65536
  if n = s.sourcePort then
    if step < off ∨ off < -step then s.ptpStep n off
    else if s.onAt R.PTP_PORT_LOCKED n then s.ptpRate off
    else s
  else s

/-- A PTP message of another domain, or one not supported, is discarded (R243). -/
def State.ptpDiscard (s : State) (n : Nat) : State := s.incAt R.PTP_COUNT_DISCARDED n

/-- What a message of one of some types does; any other, or one of another domain, is discarded (R243); none arrives while the intake
region stands still. -/
def State.ptpReceived (s : State) (n : Nat) (types : List Nat) (b : List Byte) (f : PtpMsg → State) : Res :=
  if s.intakeStill then .next s
  else match PtpMsg.decode b with
  | none => .next (s.ptpDiscard n)
  | some m => if m.domain = s.rd R.PTP_CFG_DOMAIN ∧ types.contains m.type ∧ m.intervalOk then .next (f m) else .next (s.ptpDiscard n)

/-- The identity of the clock of an ingest port: the EUI-64 of its MAC address, and port 1 (PRESUMED, log entry 110). -/
def State.clockIdentity (s : State) (n : Nat) : List Byte :=
  let mac := beBytes 6 (s.rdAt R.ITK_PORT_MAC_MAC n)
  mac.take 3 ++ beBytes 2 0xFFFE ++ mac.drop 3 ++ beBytes 2 1

/-- Send an event message from a port, in a frame of the transport in force whose FCS covers the stamp it carries (R243, R244). -/
def State.sendPtp (s : State) (n : Nat) (m : PtpMsg) : State :=
  let udp := s.on R.PTP_CFG_TRANSPORT
  let peer := m.type == 2 || m.type == 3
  let l := if udp then udpPacket (s.rdAt R.PTP_IP_ADDR n) (if peer then 0xE000006B else 0xE0000181) 319 m.encode else m.encode
  let l := beBytes 6 (ptpAddress udp peer) ++ beBytes 6 (s.rdAt R.ITK_PORT_MAC_MAC n) ++ beBytes 2 (if udp then 0x0800 else 0x88F7) ++ l
  if s.intakeStill then s else s.emit (.ptp n (withFcs (l ++ zeros (60 - l.length))))

/-- A Sync of the selected master: one-step it is complete, two-step its Follow_Up is awaited (R243, R245). -/
def State.syncCame (s : State) (n : Nat) (m : PtpMsg) (rx : Int) : State :=
  if m.twoStep then s.setClock n { s.clock n with twoStep := some (m.seq, rx, m.corr) }
  else s.takeSync n (ptpStampOf m.body) m.corr rx

/-- A Follow_Up of the selected master completes the Sync of its sequence number (R243, R245). -/
def State.followUpCame (s : State) (n : Nat) (m : PtpMsg) : State :=
  match (s.clock n).twoStep with
  | some (q, rx, corr) =>
    if q = m.seq then (s.setClock n { s.clock n with twoStep := none }).takeSync n (ptpStampOf m.body) (corr + m.corr) rx else s
  | none => s

/-- A Sync or a Follow_Up arrives (R245): only those of the selected master count for the time. -/
def execPtpSyncReceived (port : Fin 2) (bytes : List Byte) (sixteenth : Fin 16) (s : State) : Res :=
  let n := port.val
  s.ptpReceived n [0, 8] bytes fun m =>
    let s := if m.type = 8 then s else s.incAt R.PTP_COUNT_SYNC n
    if !(s.clock n).chosen ∨ m.clock ≠ s.rdAt R.PTP_MASTER_CLOCK_ID n then s
    else if m.type = 8 then s.followUpCame n m
    else s.syncCame n m (s.rxStamp n sixteenth)

/-- Ticks of an Announce interval. -/
def announceTicks (interval : Nat) : Nat := 14843750 * 2 ^ interval

/-- A foreign master that may be selected: of its last two Announces the first lies within four of its intervals (PRESUMED, log
entry 110). -/
def Foreign.qualified (now : Nat) (f : Foreign) : Bool :=
  match f.before with | some b => decide (now < b + 4 * announceTicks f.interval) | none => false

/-- The best of the masters announced: the least data set, then the least clock identity (R243). -/
def bestMaster (l : List Foreign) : Option Foreign :=
  l.foldl (fun (a : Option Foreign) m => match a with
    | none => some m
    | some b => if m.quality < b.quality ∨ (m.quality = b.quality ∧ m.clock < b.clock) then some m else some b) none

/-- A master is selected for a port: what the port awaited of the last one is dropped. A lock stays, since a change of master is not
among the causes of its loss (R245). -/
def State.selectMaster (s : State) (n : Nat) (f : Foreign) : State :=
  let s := s.wrAt R.PTP_MASTER_CLOCK_ID n f.clock
  let s := if s.onAt R.PTP_PORT_LOCKED n then s else s.wrAt R.PTP_PORT_STATE n 8
  (s.setClock n { s.clock n with chosen := true, twoStep := none, lastSync := none, announced := (f.last, f.interval) }).showPtp

/-- An Announce of a foreign master of the domain (R243): the best of those that qualify, and of the one selected, is selected. -/
def execPtpAnnounceReceived (port : Fin 2) (bytes : List Byte) (s : State) : Res :=
  let n := port.val
  s.ptpReceived n [11] bytes fun m =>
    let s := s.incAt R.PTP_COUNT_ANNOUNCE n
    if 255 ≤ m.steps then s
    else
      let c := s.clock n
      let own (clock : Nat) : Bool := c.chosen && clock == s.rdAt R.PTP_MASTER_CLOCK_ID n
      let heard : Foreign := { clock := m.clock, quality := m.quality, interval := (m.interval + 3).toNat, last := s.now
                               before := (c.masters.find? fun x => x.clock == m.clock).map Foreign.last }
      let masters := heard :: c.masters.filter fun x => x.clock != m.clock
      let s := s.setClock n { c with masters := masters, announced := if own m.clock then (s.now, heard.interval) else c.announced }
      match bestMaster (masters.filter fun x => x.qualified s.now || own x.clock) with
      | none => s
      | some x => if own x.clock then s else s.selectMaster n x

/-- A Delay_Resp to this clock gives the path delay (R243). -/
def execPtpDelayRespReceived (port : Fin 2) (bytes : List Byte) (s : State) : Res :=
  let n := port.val
  s.ptpReceived n (if s.on R.PTP_CFG_DELAY then [] else [9]) bytes fun m =>
    let c := s.clock n
    match c.reqAt, c.lastSync with
    | some (q, t3), some (t1, t2) =>
      if q = m.seq ∧ slice 10 10 m.body = s.clockIdentity n then
        (s.setClock n { c with reqAt := none }).wrAt R.PTP_DELAY_DELAY n
          (toField 64 (((t2 - t1) + (ptpStampOf m.body - t3 - m.corr)) / 2))
      else s
    | _, _ => s

/-- A Pdelay_Req is answered with a one-step Pdelay_Resp, whose correctionField carries the turnaround from medium boundary to medium
boundary: the time between the two captures, and the delays of the port both ways (R243, R244). -/
def execPtpPdelayReqReceived (port : Fin 2) (bytes : List Byte) (turnaround : Int) (s : State) : Res :=
  let n := port.val
  s.ptpReceived n (if s.on R.PTP_CFG_DELAY then [2] else []) bytes fun m =>
    let turnaround := turnaround + psUnits (s.rdAt R.PTP_LAT_RX_PS n) + psUnits (s.rdAt R.PTP_LAT_TX_PS n)
    s.sendPtp n ⟨3, m.domain, false, m.corr + turnaround, s.clockIdentity n, m.seq, 127, zeros 10 ++ m.sender⟩

/-- The delay of a link from the turnaround of the peer (R243). -/
def State.peerDelay (s : State) (n : Nat) (rx t1 turnaround corr : Int) : State :=
  (s.setClock n { s.clock n with reqAt := none, peer := none }).wrAt R.PTP_DELAY_DELAY n
    (toField 64 ((rx - t1 - turnaround - corr - s.asymmetry n) / 2))

/-- A Pdelay_Resp to this clock gives the link delay (R243): one-step by its correctionField, two-step with its Follow_Up. -/
def execPtpPdelayRespReceived (port : Fin 2) (bytes : List Byte) (sixteenth : Fin 16) (s : State) : Res :=
  let n := port.val
  s.ptpReceived n (if s.on R.PTP_CFG_DELAY then [3, 10] else []) bytes fun m =>
    let c := s.clock n
    match c.reqAt with
    | none => s
    | some (q, t1) =>
      if q ≠ m.seq ∨ slice 10 10 m.body ≠ s.clockIdentity n then s
      else if m.type = 3 then
        if m.twoStep then s.setClock n { c with peer := some (m.seq, s.rxStamp n sixteenth, m.corr - ptpStampOf m.body) }
        else s.peerDelay n (s.rxStamp n sixteenth) t1 0 m.corr
      else match c.peer with
        | some (_, rx, corr) => s.peerDelay n rx t1 (ptpStampOf m.body) (corr + m.corr)
        | none => s

/-- Ticks of PTP_CFG.LOG_DELAY, log₂ in seconds (R243, R263). -/
def State.delayTicks (s : State) : Nat := 118750000 * 2 ^ (128 + ofField 8 (s.rd R.PTP_CFG_LOG_DELAY)).toNat / 2 ^ 128

/-- At its log interval a port sends a one-step Delay_Req, or with peer delay a Pdelay_Req (R243, R244); before the interval has
passed it sends none. -/
def execPtpDelayReqSend (port : Fin 2) (sixteenth : Fin 16) (s : State) : Res :=
  let n := port.val
  let c := s.clock n
  let due : Bool := match c.sentAt with | some t => decide (t + s.delayTicks ≤ s.now) | none => true
  if s.onAt R.ITK_PORT_LINK_UP n ∧ !s.intakeStill ∧ due ∧ (s.on R.PTP_CFG_DELAY ∨ c.chosen) then
    let t := s.txStamp n sixteenth
    let peer := s.on R.PTP_CFG_DELAY
    let s := s.setClock n { c with seq := (c.seq + 1) % 65536, sentAt := some s.now, reqAt := some (c.seq, t), peer := none }
    let m : PtpMsg := ⟨if peer then 2 else 1, s.rd R.PTP_CFG_DOMAIN, false, -(s.asymmetry n), s.clockIdentity n, c.seq,
      ofField 8 (s.rd R.PTP_CFG_LOG_DELAY), ptpStampBytes t ++ (if peer then zeros 10 else [])⟩
    .next ((s.incAt R.PTP_COUNT_DELAY_TX n).sendPtp n m)
  else .next s

/-- Three Announce intervals without an Announce of the selected master (R243), in ticks of 118.75 MHz: the
timeout loses the port's lock and that master (R245, R246). -/
def execPtpAnnounceTimeout (port : Fin 2) (s : State) : Res :=
  let n := port.val
  let c := s.clock n
  if !c.chosen ∨ s.now < c.announced.1 + 3 * announceTicks c.announced.2 then .next s
  else
    let others := c.masters.filter fun x => x.clock != s.rdAt R.PTP_MASTER_CLOCK_ID n
    let s := s.setClock n { c with masters := others, chosen := false, twoStep := none, peer := none, lastSync := none, reqAt := none }
    .next ((s.wrAt R.PTP_MASTER_CLOCK_ID n 0).unlock n 4)

end Sys2Proof.Machine
end

