-- ==== Sys2Proof/Machine/Release.lean ====
section
/-! DEFINITION. Timed release (09_intake_and_streams.md R259): the frames, ring responses and tags of a window leave at its release
time. -/

namespace Sys2Proof.Machine

open Sys2Proof

/-- Send the next response frame of a window on a port, if any record is left for it. -/
def State.sendNext (s : State) (e : IntakeEntry) (w : WindowRec) (port : Nat) : State × WindowRec :=
  let f := w.frames.getD port 0
  match frameOf e f (s.windowRecords e w port) with
  | [] => (s, w)
  | recs =>
    ((s.sendFrame port e.ctx recs).count (6050 + 3 * e.ctx) recs.length, { w with frames := w.frames.set port (f + 1) })

/-- The response cells of the slots that leave with a result, as the release reads them (R253). -/
def State.cellsRead (s : State) (e : IntakeEntry) (w : WindowRec) (l : List (SlotRec × Nat)) : List (Nat × Nat) :=
  (l.filter fun x => x.1.status == 0 && !w.quarantined).map fun x => (s.respCell e w.index x.2, 0x60 + e.resultLength)

/-- Release a window (R259): the first frame on each port, the ring responses, and the batch for the seals. -/
def State.release (s : State) (e : IntakeEntry) (r : IntakeRun) (w : WindowRec) : State :=
  let formed (w : WindowRec) : Nat := (w.slots.filter fun x => x.tag.isSome).length
  let s := (s.trace 5 (occField 9 e.ctx) 9 e.ctx e.ctx).count 6103 (formed (s.formTags e w) - formed w)
  let w := { s.formTags e w with released := true }
  let tags := (w.slots.filterMap SlotRec.tag)
  let epochs := (w.slots.filter fun x => x.tag.isSome).map SlotRec.epoch
  let tags := if w.quarantined then [] else tags
  let s := if s.silent e.ctx then s.putWindow e r w
    else
      let s := (s.windowRecords e w 2).foldl (fun s b => s.ringReply e b) s
      let s := s.count (6050 + 3 * e.ctx) (s.windowRecords e w 2).length
      let (s, w) := s.sendNext e w 0
      let (s, w) := s.sendNext e w 1
      s.putWindow e r w
  s.batchDone e.ctx w.index w.openAt w.closeAt w.opened w.closed w.root tags epochs

/-- The tags that the release of a window is still to form (R141). -/
def State.untagged (s : State) (c : Nat) (w : WindowRec) : Nat :=
  if bit c (s.rd R.GEN_PROV_EN) && !w.quarantined then (w.slots.filter fun x => x.status == 0 && x.tag.isNone).length else 0

/-- A replay span re-runs the step of context `c`, and no further replay of it has been asked (R316). -/
def State.rerunning (s : State) (c : Nat) : Bool :=
  match s.job? 7 with
  | none => false
  | some j => (match j.replay with | some r => r.phase == .rerun && bit c r.mask | none => false)
      && !(match j.notice with | some n => bit c n.mask | none => false)

/-- Releases of context `c` are withheld (R138, R317): from the detection of a Step-fatal error until its replay, which releases them
again. -/
def State.withheldNow (s : State) (c : Nat) : Bool := s.sch.withheld.contains c && !s.rerunning c

/-- The nominal time `t` of a release of context `c` has come; in the re-run of its step, at the re-run's own count of it (R317). -/
def State.releaseDue (s : State) (c t : Nat) : Bool :=
  match s.job? 7, s.ctx? c with
  | some j, some x =>
    if s.rerunning c then
      let behind := (match j.replay with | some r => r.start - x.start - x.holds | none => 0) - s.ctxPos c
      let now := j.nominalTime s.now
      if (j.holdFrom s.now).isSome then decide (t + behind < now) else decide (t + behind ≤ now)
    else s.timeDue t
  | _, _ => s.timeDue t

/-- At C_w + L + H the window is released, once the die has room for its tags (R146), unless its release is withheld for a replay
(R259, R317) or waits for the twin (R355, R358). A response cell that cannot be corrected is a Step-fatal error, and the window
waits for the replay (R88, R138, R317). -/
def execTimedRelease (ctx : Fin 16) (s : State) : Res :=
  match s.intake? ctx, s.run? ctx with
  | some e, some r =>
    match r.windows.find? fun w => !w.released with
    | none => .next s
    | some w =>
      let again : Bool := match w.recheck with | some t => !s.gateShut ctx w.index || decide (t ≤ s.now) | none => true
      if s.releaseDue ctx (w.closeNominal + e.releaseTicks) ∧ !s.withheldNow ctx ∧ !s.compareWaits ctx w ∧ again then
        if s.gateShut ctx w.index then .next (s.twinCheckFailed e r w)
        else if !s.tagFits (s.untagged ctx w) then .next (s.tagRoom 0)
        else match s.readSpans ctx (s.cellsRead e w w.slots.zipIdx) with
          | (s, true) => .next (s.release e r w)
          | (s, false) => .next s
      else .next s
  | _, _ => .next s

/-- A further response frame of a released window starts FRAME_SPACING after the one before (R259); none once orderly shutdown has
begun (R37), nor while the context's releases are withheld for a replay (R138, R317). -/
def execResponseFrameSend (ctx : Fin 16) (port : Fin 2) (s : State) : Res :=
  match s.intake? ctx, s.run? ctx with
  | some e, some r =>
    match r.windows.find? fun w => w.released && frameOf e (w.frames.getD port 0) (s.windowRecords e w port) != [] with
    | none => .next s
    | some w =>
      if s.releaseDue ctx (w.closeNominal + e.releaseTicks + e.frameSpacing * w.frames.getD port 0) ∧ s.pwr.shutdown = .none ∧ !s.withheldNow ctx then
        let mine := (w.slots.zipIdx.filter fun x => x.1.req.port == port.val).drop (w.frames.getD port 0 * e.perFrame)
        match s.readSpans ctx (s.cellsRead e w (mine.take e.perFrame)) with
        | (s, true) =>
          let (s, w) := s.sendNext e w port
          .next (s.putWindow e r w)
        | (s, false) => .next s
      else .next s
  | _, _ => .next s

end Sys2Proof.Machine
end

