-- ==== Sys2Proof/Machine/Dispatch.lean ====
section
/-! DEFINITION. The dispatch of every command to its meaning: one arm per constructor of Instr. -/

namespace Sys2Proof.Machine

open Sys2Proof

/-- The effect of one command on everything but the queue. -/
def exec (i : Instr) (s : State) : Host.Outcome State Fault Refusal :=
  match i with
  | .standbyStart mv => Sys2Proof.Machine.execStandbyStart mv s
  | .precharge => Sys2Proof.Machine.execPrecharge s
  | .prechargeDone => Sys2Proof.Machine.execPrechargeDone s
  | .foresterDomainStart mv holdupMj oscillatorSettled => Sys2Proof.Machine.execForesterDomainStart mv holdupMj oscillatorSettled s
  | .prechargeTimeout => Sys2Proof.Machine.execPrechargeTimeout s
  | .prechargeRetry => Sys2Proof.Machine.execPrechargeRetry s
  | .lowBandEntry mv => Sys2Proof.Machine.execLowBandEntry mv s
  | .writeInhibitEntry mv => Sys2Proof.Machine.execWriteInhibitEntry mv s
  | .writeInhibitExit mv => Sys2Proof.Machine.execWriteInhibitExit mv s
  | .sagTimeout => Sys2Proof.Machine.execSagTimeout s
  | .overVoltageTimeout mv => Sys2Proof.Machine.execOverVoltageTimeout mv s
  | .foresterPowerOff => Sys2Proof.Machine.execForesterPowerOff s
  | .autoRestart => Sys2Proof.Machine.execAutoRestart s
  | .currentThrottleAssert current => Sys2Proof.Machine.execCurrentThrottleAssert current s
  | .currentThrottleRelease current => Sys2Proof.Machine.execCurrentThrottleRelease current s
  | .coolantLeaveLimits temp flow current => Sys2Proof.Machine.execCoolantLeaveLimits temp flow current s
  | .coolantShutdownTimeout => Sys2Proof.Machine.execCoolantShutdownTimeout s
  | .coolantReentry temp flow => Sys2Proof.Machine.execCoolantReentry temp flow s
  | .coolantStartTimeout temp flow => Sys2Proof.Machine.execCoolantStartTimeout temp flow s
  | .fillLimitExpiry => Sys2Proof.Machine.execFillLimitExpiry s
  | .taperStep => Sys2Proof.Machine.execTaperStep s
  | .holdupSwitchClose => Sys2Proof.Machine.execHoldupSwitchClose s
  | .writeUnitRequest store => Sys2Proof.Machine.execWriteUnitRequest store s
  | .writeUnitCommit => Sys2Proof.Machine.execWriteUnitCommit s
  | .holdupTestPeriodic mj => Sys2Proof.Machine.execHoldupTestPeriodic mj s
  | .pwrHoldupTest mj => Sys2Proof.Machine.execPwrHoldupTest mj s
  | .clearExtremes => Sys2Proof.Machine.execClearExtremes s
  | .pwrShutdown => Sys2Proof.Machine.execPwrShutdown s
  | .pwrNvInhibit inhibit => Sys2Proof.Machine.execPwrNvInhibit inhibit s
  | .lateEntry reader writer cycles => Sys2Proof.Machine.execLateEntry reader writer cycles s
  | .droopStretchStart region => Sys2Proof.Machine.execDroopStretchStart region s
  | .droopStretchEnd region => Sys2Proof.Machine.execDroopStretchEnd region s
  | .beatBoundary reports benches ecc prefetch volts amps => Sys2Proof.Machine.execBeatBoundary reports benches ecc prefetch volts amps s
  | .ttCritTimeout region => Sys2Proof.Machine.execTtCritTimeout region s
  | .fchgArm => Sys2Proof.Machine.execFchgArm s
  | .fchgDisarm => Sys2Proof.Machine.execFchgDisarm s
  | .regionStop => Sys2Proof.Machine.execRegionStop s
  | .regionRestart => Sys2Proof.Machine.execRegionRestart s
  | .standbyLoopsLocked => Sys2Proof.Machine.execStandbyLoopsLocked s
  | .syncChangeSwitch => Sys2Proof.Machine.execSyncChangeSwitch s
  | .pllLockLost region => Sys2Proof.Machine.execPllLockLost region s
  | .regionLockTimeout region => Sys2Proof.Machine.execRegionLockTimeout region s
  | .stepBoundary => Sys2Proof.Machine.execStepBoundary s
  | .markerReceived port blk arrival => Sys2Proof.Machine.execMarkerReceived port blk arrival s
  | .holdoverEntry => Sys2Proof.Machine.execHoldoverEntry s
  | .alignNow => Sys2Proof.Machine.execAlignNow s
  | .timeMapSend => Sys2Proof.Machine.execTimeMapSend s
  | .timeMapReceived pkt => Sys2Proof.Machine.execTimeMapReceived pkt s
  | .timeQueryReceived source pkt => Sys2Proof.Machine.execTimeQueryReceived source pkt s
  | .talCapture => Sys2Proof.Machine.execTalCapture s
  | .mgr iss m l present ecc => Sys2Proof.Machine.execMgr iss m l present ecc s
  | .mgb iss m l axis ecc => Sys2Proof.Machine.execMgb iss m l axis ecc s
  | .mpa iss m l half ecc => Sys2Proof.Machine.execMpa iss m l half ecc s
  | .mcv iss m l half k ecc => Sys2Proof.Machine.execMcv iss m l half k ecc s
  | .mxp iss m l half => Sys2Proof.Machine.execMxp iss m l half s
  | .vfma iss v => Sys2Proof.Machine.execVfma iss v s
  | .vadd iss v => Sys2Proof.Machine.execVadd iss v s
  | .vsub iss v => Sys2Proof.Machine.execVsub iss v s
  | .vmul iss v => Sys2Proof.Machine.execVmul iss v s
  | .vcmp iss v => Sys2Proof.Machine.execVcmp iss v s
  | .vsel iss v => Sys2Proof.Machine.execVsel iss v s
  | .vmin iss v => Sys2Proof.Machine.execVmin iss v s
  | .vmax iss v => Sys2Proof.Machine.execVmax iss v s
  | .iadd iss v => Sys2Proof.Machine.execIadd iss v s
  | .isub iss v => Sys2Proof.Machine.execIsub iss v s
  | .ishf iss v => Sys2Proof.Machine.execIshf iss v s
  | .iand iss v => Sys2Proof.Machine.execIand iss v s
  | .ior iss v => Sys2Proof.Machine.execIor iss v s
  | .ixor iss v => Sys2Proof.Machine.execIxor iss v s
  | .vcvt iss v k => Sys2Proof.Machine.execVcvt iss v k s
  | .vcvb iss v scaleOff k => Sys2Proof.Machine.execVcvb iss v scaleOff k s
  | .vrcp iss v => Sys2Proof.Machine.execVrcp iss v s
  | .vsqrt iss v => Sys2Proof.Machine.execVsqrt iss v s
  | .vrsq iss v => Sys2Proof.Machine.execVrsq iss v s
  | .vdiv iss v => Sys2Proof.Machine.execVdiv iss v s
  | .vex2 iss v => Sys2Proof.Machine.execVex2 iss v s
  | .vlg2 iss v => Sys2Proof.Machine.execVlg2 iss v s
  | .vtlv iss v head tree level ecc => Sys2Proof.Machine.execVtlv iss v head tree level ecc s
  | .vtlf iss v head tree ecc => Sys2Proof.Machine.execVtlf iss v head tree ecc s
  | .vred iss v first => Sys2Proof.Machine.execVred iss v first s
  | .vkrf iss v k => Sys2Proof.Machine.execVkrf iss v k s
  | .vld iss m ecc => Sys2Proof.Machine.execVld iss m ecc s
  | .vst iss m => Sys2Proof.Machine.execVst iss m s
  | .copy iss m ecc => Sys2Proof.Machine.execCopy iss m ecc s
  | .msnd iss m ecc => Sys2Proof.Machine.execMsnd iss m ecc s
  | .mrcv iss m => Sys2Proof.Machine.execMrcv iss m s
  | .gwin iss m => Sys2Proof.Machine.execGwin iss m s
  | .zfill iss m => Sys2Proof.Machine.execZfill iss m s
  | .bref iss m ecc => Sys2Proof.Machine.execBref iss m ecc s
  | .brefDone bench page => Sys2Proof.Machine.execBrefDone bench page s
  | .hput iss h overflow ecc => Sys2Proof.Machine.execHput iss h overflow ecc s
  | .hget iss h => Sys2Proof.Machine.execHget iss h s
  | .hvod iss h group slot => Sys2Proof.Machine.execHvod iss h group slot s
  | .beat iss c => Sys2Proof.Machine.execBeat iss c s
  | .step iss c => Sys2Proof.Machine.execStep iss c s
  | .jump iss c => Sys2Proof.Machine.execJump iss c s
  | .lset iss c => Sys2Proof.Machine.execLset iss c s
  | .loop iss c => Sys2Proof.Machine.execLoop iss c s
  | .cset iss c => Sys2Proof.Machine.execCset iss c s
  | .waitc iss c => Sys2Proof.Machine.execWaitc iss c s
  | .fdec iss c => Sys2Proof.Machine.execFdec iss c s
  | .fork iss c => Sys2Proof.Machine.execFork iss c s
  | .bkfl iss c => Sys2Proof.Machine.execBkfl iss c s
  | .tagr iss c t ecc => Sys2Proof.Machine.execTagr iss c t ecc s
  | .benchScrub bench ecc => Sys2Proof.Machine.execBenchScrub bench ecc s
  | .forkDecisionSend port entry fork => Sys2Proof.Machine.execForkDecisionSend port entry fork s
  | .forkDecisionReceived header => Sys2Proof.Machine.execForkDecisionReceived header s
  | .forkDeadlineCheck fork => Sys2Proof.Machine.execForkDeadlineCheck fork s
  | .forkCommit fork => Sys2Proof.Machine.execForkCommit fork s
  | .forkVariantEnd fork => Sys2Proof.Machine.execForkVariantEnd fork s
  | .forkRejoin fork => Sys2Proof.Machine.execForkRejoin fork s
  | .genModeArm => Sys2Proof.Machine.execGenModeArm s
  | .genModeDisarm => Sys2Proof.Machine.execGenModeDisarm s
  | .modeChangeEffect => Sys2Proof.Machine.execModeChangeEffect s
  | .sealSigned => Sys2Proof.Machine.execSealSigned s
  | .sealCloseNow => Sys2Proof.Machine.execSealCloseNow s
  | .plnVerify => Sys2Proof.Machine.execPlnVerify s
  | .verifyComplete reading verdict sect offset => Sys2Proof.Machine.execVerifyComplete reading verdict sect offset s
  | .plnDiscard => Sys2Proof.Machine.execPlnDiscard s
  | .plnArm twinFault => Sys2Proof.Machine.execPlnArm twinFault s
  | .plnDisarm => Sys2Proof.Machine.execPlnDisarm s
  | .loadPhaseStart => Sys2Proof.Machine.execLoadPhaseStart s
  | .activation => Sys2Proof.Machine.execActivation s
  | .activationFailed => Sys2Proof.Machine.execActivationFailed s
  | .plnStopArm => Sys2Proof.Machine.execPlnStopArm s
  | .drainEnd => Sys2Proof.Machine.execDrainEnd s
  | .rampDownEnd => Sys2Proof.Machine.execRampDownEnd s
  | .plnAbort => Sys2Proof.Machine.execPlnAbort s
  | .plnCtxRestart => Sys2Proof.Machine.execPlnCtxRestart s
  | .contextResume ctx => Sys2Proof.Machine.execContextResume ctx s
  | .contextReset ctx => Sys2Proof.Machine.execContextReset ctx s
  | .gatherWindowComplete index counter ecc => Sys2Proof.Machine.execGatherWindowComplete index counter ecc s
  | .gatherEarlyEnd index ecc => Sys2Proof.Machine.execGatherEarlyEnd index ecc s
  | .serviceAccess write addr length data ecc => Sys2Proof.Machine.execServiceAccess write addr length data ecc s
  | .refreshDue ddr unit => Sys2Proof.Machine.execRefreshDue ddr unit s
  | .memoryTempReadout ddr unit celsius => Sys2Proof.Machine.execMemoryTempReadout ddr unit celsius s
  | .tempLimitTimeout ddr unit => Sys2Proof.Machine.execTempLimitTimeout ddr unit s
  | .patrolScrubRead unit ecc => Sys2Proof.Machine.execPatrolScrubRead unit ecc s
  | .memoryTrainingDone ddr unit attempts passed => Sys2Proof.Machine.execMemoryTrainingDone ddr unit attempts passed s
  | .planStageWriteDone => Sys2Proof.Machine.execPlanStageWriteDone s
  | .wgtLoadStart => Sys2Proof.Machine.execWgtLoadStart s
  | .wgtLoadAbort => Sys2Proof.Machine.execWgtLoadAbort s
  | .x3Start => Sys2Proof.Machine.execX3Start s
  | .shardAttemptDone ctx shard => Sys2Proof.Machine.execShardAttemptDone ctx shard s
  | .shardAttemptTimeout ctx shard => Sys2Proof.Machine.execShardAttemptTimeout ctx shard s
  | .swapArm => Sys2Proof.Machine.execSwapArm s
  | .swapDisarm => Sys2Proof.Machine.execSwapDisarm s
  | .swapEffect ctx => Sys2Proof.Machine.execSwapEffect ctx s
  | .sweepShardChecked ctx sweep => Sys2Proof.Machine.execSweepShardChecked ctx sweep s
  | .sweepOverrun ctx sweep => Sys2Proof.Machine.execSweepOverrun ctx sweep s
  | .quarantineNoticeReceived payload => Sys2Proof.Machine.execQuarantineNoticeReceived payload s
  | .shardRepairDone ctx shard arrived => Sys2Proof.Machine.execShardRepairDone ctx shard arrived s
  | .intakeFrameReceived port frame fcsOk tally sixteenth => Sys2Proof.Machine.execIntakeFrameReceived port frame fcsOk tally sixteenth s
  | .ingestLinkUp port => Sys2Proof.Machine.execIngestLinkUp port s
  | .ingestLinkDown port => Sys2Proof.Machine.execIngestLinkDown port s
  | .ptpSyncReceived port bytes sixteenth => Sys2Proof.Machine.execPtpSyncReceived port bytes sixteenth s
  | .ptpAnnounceReceived port bytes => Sys2Proof.Machine.execPtpAnnounceReceived port bytes s
  | .ptpDelayRespReceived port bytes => Sys2Proof.Machine.execPtpDelayRespReceived port bytes s
  | .ptpPdelayReqReceived port bytes turnaround => Sys2Proof.Machine.execPtpPdelayReqReceived port bytes turnaround s
  | .ptpPdelayRespReceived port bytes sixteenth => Sys2Proof.Machine.execPtpPdelayRespReceived port bytes sixteenth s
  | .ptpDelayReqSend port sixteenth => Sys2Proof.Machine.execPtpDelayReqSend port sixteenth s
  | .ptpAnnounceTimeout port => Sys2Proof.Machine.execPtpAnnounceTimeout port s
  | .intakeWindowClose ctx => Sys2Proof.Machine.execIntakeWindowClose ctx s
  | .intakeBeatRingRead ctx => Sys2Proof.Machine.execIntakeBeatRingRead ctx s
  | .itkRingReset ctx => Sys2Proof.Machine.execItkRingReset ctx s
  | .timedRelease ctx => Sys2Proof.Machine.execTimedRelease ctx s
  | .responseFrameSend ctx port => Sys2Proof.Machine.execResponseFrameSend ctx port s
  | .signalPresent port lanes => Sys2Proof.Machine.execSignalPresent port lanes s
  | .signalLock port lanes => Sys2Proof.Machine.execSignalLock port lanes s
  | .laneMarkLock port skewPs => Sys2Proof.Machine.execLaneMarkLock port skewPs s
  | .trainStateTimeout port => Sys2Proof.Machine.execTrainStateTimeout port s
  | .backoffExpiry port => Sys2Proof.Machine.execBackoffExpiry port s
  | .announceReceived port blk => Sys2Proof.Machine.execAnnounceReceived port blk s
  | .echoReqSend port depart => Sys2Proof.Machine.execEchoReqSend port depart s
  | .echoReqReceived port blk arrival depart => Sys2Proof.Machine.execEchoReqReceived port blk arrival depart s
  | .echoRespReceived port blk arrival => Sys2Proof.Machine.execEchoRespReceived port blk arrival s
  | .schedBlockReceived port blk => Sys2Proof.Machine.execSchedBlockReceived port blk s
  | .svcBlockReceived port blk => Sys2Proof.Machine.execSvcBlockReceived port blk s
  | .fillReceived port blk => Sys2Proof.Machine.execFillReceived port blk s
  | .ackReceived port blk => Sys2Proof.Machine.execAckReceived port blk s
  | .nakReceived port blk => Sys2Proof.Machine.execNakReceived port blk s
  | .ackDue port => Sys2Proof.Machine.execAckDue port s
  | .nakTimerExpiry port => Sys2Proof.Machine.execNakTimerExpiry port s
  | .replayTimerExpiry port => Sys2Proof.Machine.execReplayTimerExpiry port s
  | .markerDue port depart => Sys2Proof.Machine.execMarkerDue port depart s
  | .laneFail port lane => Sys2Proof.Machine.execLaneFail port lane s
  | .swapReqResend port => Sys2Proof.Machine.execSwapReqResend port s
  | .swapReqReceived port blk => Sys2Proof.Machine.execSwapReqReceived port blk s
  | .swapDoneReceived port blk => Sys2Proof.Machine.execSwapDoneReceived port blk s
  | .swapRemap port => Sys2Proof.Machine.execSwapRemap port s
  | .swapTimeout port => Sys2Proof.Machine.execSwapTimeout port s
  | .laneDegrade port lane symbols => Sys2Proof.Machine.execLaneDegrade port lane symbols s
  | .rotationTimer port => Sys2Proof.Machine.execRotationTimer port s
  | .rotStartReceived port blk => Sys2Proof.Machine.execRotStartReceived port blk s
  | .rotReadyReceived port blk marksAgree => Sys2Proof.Machine.execRotReadyReceived port blk marksAgree s
  | .rotDoneReceived port blk => Sys2Proof.Machine.execRotDoneReceived port blk s
  | .calibrationEnd port symbols => Sys2Proof.Machine.execCalibrationEnd port symbols s
  | .failedLaneRetest port lane symbols => Sys2Proof.Machine.execFailedLaneRetest port lane symbols s
  | .linkDownTimeout port => Sys2Proof.Machine.execLinkDownTimeout port s
  | .haulPortReset port => Sys2Proof.Machine.execHaulPortReset port s
  | .haulRetrain port => Sys2Proof.Machine.execHaulRetrain port s
  | .forceRot port => Sys2Proof.Machine.execForceRot port s
  | .haulPortEnable port enable => Sys2Proof.Machine.execHaulPortEnable port enable s
  | .sendDeparture port entry => Sys2Proof.Machine.execSendDeparture port entry s
  | .forwardDeparture port entry => Sys2Proof.Machine.execForwardDeparture port entry s
  | .detourDeparture port entry => Sys2Proof.Machine.execDetourDeparture port entry s
  | .recvDeadlineCheck port entry => Sys2Proof.Machine.execRecvDeadlineCheck port entry s
  | .repeatedDeadlineCheck port entry => Sys2Proof.Machine.execRepeatedDeadlineCheck port entry s
  | .portDetourFast port => Sys2Proof.Machine.execPortDetourFast port s
  | .routeDownReceived n => Sys2Proof.Machine.execRouteDownReceived n s
  | .holdNoticeReceived source n => Sys2Proof.Machine.execHoldNoticeReceived source n s
  | .holdPoint slot => Sys2Proof.Machine.execHoldPoint slot s
  | .holdEnd slot => Sys2Proof.Machine.execHoldEnd slot s
  | .replayNoticeReceived source n => Sys2Proof.Machine.execReplayNoticeReceived source n s
  | .abandonPoint slot => Sys2Proof.Machine.execAbandonPoint slot s
  | .replayGapEnd slot ready => Sys2Proof.Machine.execReplayGapEnd slot ready s
  | .replayRejoin slot => Sys2Proof.Machine.execReplayRejoin slot s
  | .serviceInjection kind dest express payload => Sys2Proof.Machine.execServiceInjection kind dest express payload s
  | .throttleSample => Sys2Proof.Machine.execThrottleSample s
  | .telemetryPeriod => Sys2Proof.Machine.execTelemetryPeriod s
  | .telemNow => Sys2Proof.Machine.execTelemNow s
  | .clearFwd => Sys2Proof.Machine.execClearFwd s
  | .restoreArm => Sys2Proof.Machine.execRestoreArm s
  | .portRestore => Sys2Proof.Machine.execPortRestore s
  | .probeReceived port d => Sys2Proof.Machine.execProbeReceived port d s
  | .assignReceived port d => Sys2Proof.Machine.execAssignReceived port d s
  | .routesReceived port d => Sys2Proof.Machine.execRoutesReceived port d s
  | .neighbourReceived port d => Sys2Proof.Machine.execNeighbourReceived port d s
  | .leaseWrite lease plan value => Sys2Proof.Machine.execLeaseWrite lease plan value s
  | .leaseEnable en => Sys2Proof.Machine.execLeaseEnable en s
  | .fwdLoad slot arrivals => Sys2Proof.Machine.execFwdLoad slot arrivals s
  | .fwdArm slot => Sys2Proof.Machine.execFwdArm slot s
  | .fwdUnloadArm slot => Sys2Proof.Machine.execFwdUnloadArm slot s
  | .fwdDisarm slot => Sys2Proof.Machine.execFwdDisarm slot s
  | .fwdLoadEffect slot => Sys2Proof.Machine.execFwdLoadEffect slot s
  | .twinSetReceived port blk count cells => Sys2Proof.Machine.execTwinSetReceived port blk count cells s
  | .twinIndexReceived port blk count => Sys2Proof.Machine.execTwinIndexReceived port blk count s
  | .twinStateReceived port blk count => Sys2Proof.Machine.execTwinStateReceived port blk count s
  | .twinTagsReceived port blk count => Sys2Proof.Machine.execTwinTagsReceived port blk count s
  | .twinAckReceived port blk => Sys2Proof.Machine.execTwinAckReceived port blk s
  | .replicaSetShip ctx => Sys2Proof.Machine.execReplicaSetShip ctx s
  | .replicaCompare ctx => Sys2Proof.Machine.execReplicaCompare ctx s
  | .twnTakeover => Sys2Proof.Machine.execTwnTakeover s
  | .twnSolo => Sys2Proof.Machine.execTwnSolo s
  | .takeoverEffect ctx => Sys2Proof.Machine.execTakeoverEffect ctx s
  | .partnerLost => Sys2Proof.Machine.execPartnerLost s
  | .olicoFlitRetry => Sys2Proof.Machine.execOlicoFlitRetry s
  | .olicoLaneFail tx lanes => Sys2Proof.Machine.execOlicoLaneFail tx lanes s
  | .olicoNoProgress => Sys2Proof.Machine.execOlicoNoProgress s
  | .olicoRetrainDone badTx badRx => Sys2Proof.Machine.execOlicoRetrainDone badTx badRx s
  | .csrAccessError offset width => Sys2Proof.Machine.execCsrAccessError offset width s
  | .registerWrite offset value inp => Sys2Proof.Machine.execRegisterWrite offset value inp s
  | .changeNextWrite value => Sys2Proof.Machine.execChangeNextWrite value s
  | .olcArm => Sys2Proof.Machine.execOlcArm s
  | .olcDisarm => Sys2Proof.Machine.execOlcDisarm s
  | .armDeadline change => Sys2Proof.Machine.execArmDeadline change s
  | .voteCount change => Sys2Proof.Machine.execVoteCount change s
  | .armedReceived pkt => Sys2Proof.Machine.execArmedReceived pkt s
  | .refusedReceived pkt => Sys2Proof.Machine.execRefusedReceived pkt s
  | .splitReceived source pkt => Sys2Proof.Machine.execSplitReceived source pkt s
  | .spareExtensionEffect ctx => Sys2Proof.Machine.execSpareExtensionEffect ctx s
  | .changeFailedAtEffect kind ctx => Sys2Proof.Machine.execChangeFailedAtEffect kind ctx s
  | .fcpHandshake profile anchor => Sys2Proof.Machine.execFcpHandshake profile anchor s
  | .hello session reqId => Sys2Proof.Machine.execHello session reqId s
  | .csrRead session reqId module offset count => Sys2Proof.Machine.execCsrRead session reqId module offset count s
  | .csrWrite session reqId module pairs inp => Sys2Proof.Machine.execCsrWrite session reqId module pairs inp s
  | .memRead session reqId addr length ecc => Sys2Proof.Machine.execMemRead session reqId addr length ecc s
  | .memWrite session reqId addr bytes => Sys2Proof.Machine.execMemWrite session reqId addr bytes s
  | .shardPut session reqId ctx entry shard bytes => Sys2Proof.Machine.execShardPut session reqId ctx entry shard bytes s
  | .export_ session reqId => Sys2Proof.Machine.execExport session reqId s
  | .discSend session reqId op token epoch path body => Sys2Proof.Machine.execDiscSend session reqId op token epoch path body s
  | .fcpReset session reqId domain => Sys2Proof.Machine.execFcpReset session reqId domain s
  | .fcpServicePacket source reqId req => Sys2Proof.Machine.execFcpServicePacket source reqId req s
  | .certs session reqId => Sys2Proof.Machine.execCerts session reqId s
  | .quote session reqId challenge => Sys2Proof.Machine.execQuote session reqId challenge s
  | .enroll session reqId c => Sys2Proof.Machine.execEnroll session reqId c s
  | .revoke session reqId c => Sys2Proof.Machine.execRevoke session reqId c s
  | .anchorSet session reqId c => Sys2Proof.Machine.execAnchorSet session reqId c s
  | .anchorClear session reqId c => Sys2Proof.Machine.execAnchorClear session reqId c s
  | .ownerClaim session reqId c => Sys2Proof.Machine.execOwnerClaim session reqId c s
  | .fwPut session reqId image offset bytes => Sys2Proof.Machine.execFwPut session reqId image offset bytes s
  | .fwActivate session reqId image length check => Sys2Proof.Machine.execFwActivate session reqId image length check s
  | .commitSvn => Sys2Proof.Machine.execCommitSvn s
  | .secureBoot a b => Sys2Proof.Machine.execSecureBoot a b s
  | .fltAck seq => Sys2Proof.Machine.execFltAck seq s
  | .fltRelease => Sys2Proof.Machine.execFltRelease s
  | .rrcSpillTimer => Sys2Proof.Machine.execRrcSpillTimer s
  | .rrcSpillNow => Sys2Proof.Machine.execRrcSpillNow s
  | .rrcRelease => Sys2Proof.Machine.execRrcRelease s
  | .traceArm => Sys2Proof.Machine.execTraceArm s
  | .traceStart => Sys2Proof.Machine.execTraceStart s
  | .traceStop => Sys2Proof.Machine.execTraceStop s
  | .stopNow => Sys2Proof.Machine.execStopNow s
  | .snapArm => Sys2Proof.Machine.execSnapArm s
  | .snapNow => Sys2Proof.Machine.execSnapNow s
  | .snapshot => Sys2Proof.Machine.execSnapshot s
  | .diePowerStart temp flow => Sys2Proof.Machine.execDiePowerStart temp flow s
  | .railGroupRegulation => Sys2Proof.Machine.execRailGroupRegulation s
  | .railTimeout => Sys2Proof.Machine.execRailTimeout s
  | .foremanRunning foreman digest measures => Sys2Proof.Machine.execForemanRunning foreman digest measures s
  | .foremanTimeout foreman => Sys2Proof.Machine.execForemanTimeout foreman s
  | .moduleReset => Sys2Proof.Machine.execModuleReset s
  | .foresterReset => Sys2Proof.Machine.execForesterReset s
  | .dieCoreReset => Sys2Proof.Machine.execDieCoreReset s
  | .dieCoreResetEnd => Sys2Proof.Machine.execDieCoreResetEnd s
  | .haulPlaneReset => Sys2Proof.Machine.execHaulPlaneReset s
  | .sagBandEntry mv => Sys2Proof.Machine.execSagBandEntry mv s
  | .normalBandEntry mv => Sys2Proof.Machine.execNormalBandEntry mv s
  | .inputPowerLoss => Sys2Proof.Machine.execInputPowerLoss s
  | .laneLockLost port lane => Sys2Proof.Machine.execLaneLockLost port lane s
  | .laneLockRegained port lane => Sys2Proof.Machine.execLaneLockRegained port lane s
  | .meshTransferComplete bench route => Sys2Proof.Machine.execMeshTransferComplete bench route s
  | .linkReplayEnd port => Sys2Proof.Machine.execLinkReplayEnd port s
  | .replicaSetCheck ctx => Sys2Proof.Machine.execReplicaSetCheck ctx s
  | .exportAcknowledged session count => Sys2Proof.Machine.execExportAcknowledged session count s
  | .managementPortLinkUp address => Sys2Proof.Machine.execManagementPortLinkUp address s
  | .foremanFaulted foreman => Sys2Proof.Machine.execForemanFaulted foreman s
  | .dieRailOutOfRegulation => Sys2Proof.Machine.execDieRailOutOfRegulation s
  | .tallyParityError => Sys2Proof.Machine.execTallyParityError s
  | .csrSpineUncorrectable source => Sys2Proof.Machine.execCsrSpineUncorrectable source s

end Sys2Proof.Machine
end

