-- ==== Sys2Proof/Machine/Tick.lean ====
section
/-! DEFINITION. One tick of TCLK (log entry 3): what goes on in the module with no command waiting. -/

namespace Sys2Proof.Machine

open Sys2Proof

/-- A tick begins: nothing has been set and no change has taken effect in it (R369). -/
def State.tickStarts (s : State) : State := { s with fired := [], olc := { s.olc with applied := [] } }

/-- What one tick of TCLK does with no command waiting (log entry 3): the Tally and what counts with it, the flits on the
mesh, the data that pass between benches and I/O regions, departures that wait, and what the haul ports send unasked. -/
def State.oneTick (s : State) : State := if s.tal.running then s.tickStarts.tick.tickMesh.tickQueues.tickSends.tickLeases.tickLinks else s

end Sys2Proof.Machine
end

