-- ==== Sys2Proof/WellFormed.lean ====
section
/-! DEFINITION. Well-formed commands: operands in the ranges that the manual's layouts give them. A meaning is total on
every command; these are the commands that a module can meet. -/

namespace Sys2Proof

/-- A block on a haul link has 256 bytes in stripes on nine physical lanes (R267, R269). -/
def WireBlock.wf (b : WireBlock) : Bool := b.bytes.length == 256 && b.uncorr.all (·.lane < 9) && decide (b.uncorr.map (·.lane)).Nodup

/-- Words of bench store or bundle memory that their code names lie in the 2 MiB store, each named once (R64, R88). -/
def Ecc.wf (e : Ecc) : Bool :=
  e.corr.all (· < 0x200000) && e.uncorr.all (· < 0x200000) && decide (e.corr ++ e.uncorr).Nodup

/-- An issue whose fetch names a word of bundle memory. -/
def Issue.wf (i : Issue) : Bool := i.fetch.wf

/-- A stamp has 64 bits of count and 32 of fraction (R283). -/
def stampWf (t : Stamp) : Bool := t < 2 ^ 96

/-- A HBM stack is one of twenty, a DDR channel one of sixteen (R185, R186). -/
def unitWf (ddr : Bool) (unit : Fin 20) : Bool := !ddr || unit.val < 16

/-- A DISCOVERY payload: its path and its return path hold 32 port numbers each (R338). -/
def DiscPkt.wf (d : DiscPkt) : Bool := d.path.length == 32 && d.ret.length == 32

/-- An aligned register offset in the 32 MiB register space (R366, R367). -/
def offsetWf (o : Nat) : Bool := o % 8 == 0 && o < 0x2000000

/-- A reduction axis of 1 to 2⁴⁸ elements (R125). -/
def axisWf (axis : Nat) : Bool := 1 ≤ axis && axis ≤ 2 ^ 48

/-- A coordinate and its steps have 64 bits, the value of a counter 32 (R130). -/
def Coords.wf (k : Coords) : Bool := k.base < 2 ^ 64 && k.row < 2 ^ 64 && k.col < 2 ^ 64 && k.counter < 2 ^ 32

/-- The operations that DISC_SEND sends (R377): PROBE, ASSIGN and ROUTES. -/
def discOpWf (op : Nat) : Bool := op == 1 || op == 3 || op == 5

/-- A command is well formed. Commands whose operand types say all there is to say are well formed as they stand. -/
def Instr.wf : Instr → Bool
  | .mgr i _ _ _ ecc => i.wf && ecc.wf
  | .mgb i _ _ axis ecc => i.wf && ecc.wf && axisWf axis
  | .mpa i _ _ _ ecc => i.wf && ecc.wf
  | .mcv i _ _ _ k ecc => i.wf && ecc.wf && k.wf
  | .mxp i _ _ _ => i.wf
  | .vfma i _ | .vadd i _ | .vsub i _ | .vmul i _ | .vcmp i _ | .vsel i _ | .vmin i _ | .vmax i _ => i.wf
  | .iadd i _ | .isub i _ | .ishf i _ | .iand i _ | .ior i _ | .ixor i _ => i.wf
  | .vcvt i _ k | .vcvb i _ _ k => i.wf && k.wf
  | .vrcp i _ | .vsqrt i _ | .vrsq i _ | .vdiv i _ | .vex2 i _ | .vlg2 i _ => i.wf
  | .vtlv i _ _ _ _ ecc | .vtlf i _ _ _ ecc => i.wf && ecc.wf
  | .vred i _ _ => i.wf
  | .vkrf i _ k => i.wf && k.wf
  | .vld i _ ecc | .copy i _ ecc | .msnd i _ ecc | .bref i _ ecc => i.wf && ecc.wf
  | .vst i _ | .mrcv i _ | .gwin i _ | .zfill i _ => i.wf
  | .hput i _ _ ecc => i.wf && ecc.wf
  | .hget i _ | .hvod i _ _ _ => i.wf
  | .beat i _ | .step i _ | .jump i _ | .lset i _ | .loop i _ | .cset i _ | .waitc i _ | .fdec i _ | .fork i _
  | .bkfl i _ => i.wf
  | .tagr i _ _ ecc => i.wf && ecc.wf
  | .benchScrub _ ecc => ecc.wf
  | .beatBoundary reports benches _ _ _ _ =>
    decide (reports.map BeatReport.region).Nodup && decide (benches.map BenchBeat.bench).Nodup
  | .markerReceived _ blk t => blk.wf && stampWf t
  | .refreshDue ddr u | .tempLimitTimeout ddr u => unitWf ddr u
  | .memoryTempReadout ddr u _ => unitWf ddr u
  | .memoryTrainingDone ddr u _ _ => unitWf ddr u
  | .signalPresent _ lanes | .signalLock _ lanes => decide lanes.Nodup
  | .announceReceived _ blk | .schedBlockReceived _ blk | .svcBlockReceived _ blk | .fillReceived _ blk
  | .ackReceived _ blk | .nakReceived _ blk | .swapReqReceived _ blk | .swapDoneReceived _ blk
  | .rotStartReceived _ blk | .rotDoneReceived _ blk | .twinAckReceived _ blk => blk.wf
  | .rotReadyReceived _ blk _ => blk.wf
  | .echoReqReceived _ blk arrival depart => blk.wf && stampWf arrival && stampWf depart
  | .echoRespReceived _ blk arrival => blk.wf && stampWf arrival
  | .echoReqSend _ depart | .markerDue _ depart => stampWf depart
  | .twinIndexReceived _ blk _ | .twinStateReceived _ blk _ | .twinTagsReceived _ blk _ => blk.wf
  | .twinSetReceived _ blk _ _ => blk.wf
  | .probeReceived _ d | .assignReceived _ d | .routesReceived _ d | .neighbourReceived _ d => d.wf
  | .olicoLaneFail _ lanes => decide lanes.Nodup
  | .olicoRetrainDone tx rx => decide tx.Nodup && decide rx.Nodup
  | .registerWrite offset _ _ => offsetWf offset
  | .discSend _ _ op _ _ path _ => discOpWf op && path.length ≤ 32
  | _ => true

end Sys2Proof
end

