-- ==== Sys2Proof/Safety.lean ====
section
/-! DEFINITION. What a sound state of the module is, in the terms that statements use: tables in canonical form, ports and
clocks as many as the module has, and register fields that hold what fits them; the parts of a state, in which statements say
what a command leaves as it was. -/

namespace Sys2Proof.Machine

open Sys2Proof

/-- Memory lists rising addresses and no byte equal to what an unlisted address reads as (log entry 2). -/
def Memory.wf (m : List Host.Cell) : Bool := Tab.canon 0 m

/-- The register file lists rising keys. -/
def csrWf (t : Tab Nat) : Bool := Tab.sorted t

/-- A field of a state holds a value of its width. -/
def State.fits (s : State) (f : Field) (i : Nat) : Prop := s.rdAt f i < 2 ^ f.width

/-- A sound state: memory and the register file in canonical form, sixteen haul ports, two ingest clocks. -/
def State.Sound (s : State) : Prop :=
  Memory.wf s.mem = true ∧ csrWf s.csr = true ∧ s.haul.length = 16 ∧ s.clocks.length = 2

/-- The parts of the state, but the queue, which no command touches. -/
inductive Part where
  | csr | staged | mem | pwr | clk | tal | ptp | haul | sch | pln | top | olc | gen | wgt | bench | frk | scr | itk | clocks
  | twn | fst | flt | rrc | obs | nv | sent | fresh
deriving DecidableEq

/-- A part is the same in two states; the register file with what notes its sticky bits. -/
def Part.same (p : Part) (s t : State) : Prop :=
  match p with
  | .csr => (t.csr, t.fired) = (s.csr, s.fired) | .staged => t.staged = s.staged | .mem => t.mem = s.mem | .pwr => t.pwr = s.pwr
  | .clk => t.clk = s.clk | .tal => t.tal = s.tal | .ptp => t.ptp = s.ptp | .haul => t.haul = s.haul
  | .sch => t.sch = s.sch | .pln => t.pln = s.pln | .top => t.top = s.top | .olc => t.olc = s.olc
  | .gen => t.gen = s.gen | .wgt => t.wgt = s.wgt | .bench => t.bench = s.bench | .frk => t.frk = s.frk
  | .scr => t.scr = s.scr | .itk => t.itk = s.itk | .clocks => t.clocks = s.clocks | .twn => t.twn = s.twn
  | .fst => t.fst = s.fst | .flt => t.flt = s.flt | .rrc => t.rrc = s.rrc | .obs => t.obs = s.obs
  | .nv => t.nv = s.nv | .sent => t.sent = s.sent | .fresh => t.fresh = s.fresh

end Sys2Proof.Machine
end

