-- ==== Sys2Proof/Certificates/Slice0/Obligations.lean ====
section
/-! DEFINITION. The statements for the provers. The first 36 say, for every row of the command table but the
nineteen plain lane operations, that `exec` answers a next state and what that state is, for every state and all
operands that meet hypotheses on them alone; `Obligations.PairOpsRun` and `Obligations.SingleOpsRun` say it of those
nineteen. The rest are the frame, the invariants, and rules of the specification about the whole block. -/

namespace Sys2Proof.Machine

open Sys2Proof

/-- The fields that a sample of the input voltage writes (R21). -/
def inputKeys : List Nat := [R.PWR_VIN_NOW.key 0, R.PWR_VIN_MIN.key 0, R.PWR_VIN_MAX.key 0]

/-- The fields that a sample of the input current writes (R23). -/
def currentKeys : List Nat := [R.PWR_IIN_NOW.key 0, R.PWR_IIN_PEAK.key 0, R.PWR_IIN_SLEW_MAX.key 0, R.PWR_IIN_PIN.key 0]

/-- The STRETCHING flags of the bench regions (R48). -/
def stretchKeys : List Nat := (List.range 24).map R.CLK_RGN_STATUS_STRETCHING.key

/-- The register fields that a command may write, for commands that report no error and post no occurrence; a field
written through a pointer to a region, port or context is named at that index. -/
def writtenKeys : Instr → Option (List Nat)
  | .standbyStart .. => some inputKeys
  | .prechargeDone => some [R.PWR_STATUS_PRECHARGE_DONE.key 0]
  | .writeInhibitEntry .. => some (inputKeys ++
      [R.PWR_EVENT_INHIBIT_SEEN.key 0, R.PWR_COUNT_INHIBIT.key 0, R.PWR_STATUS_NV_INHIBIT.key 0, R.PWR_STATUS_BAND.key 0])
  | .sagBandEntry .. => some (R.PWR_STATUS_BAND.key 0 :: inputKeys)
  | .normalBandEntry .. => some (R.PWR_STATUS_OV.key 0 :: R.PWR_STATUS_BAND.key 0 :: inputKeys)
  | .currentThrottleAssert .. => some (currentKeys ++
      [R.PWR_STATUS_THROTTLE.key 0, R.PWR_EVENT_THROTTLE_SEEN.key 0, R.PWR_COUNT_THROTTLE.key 0])
  | .currentThrottleRelease .. => some (stretchKeys ++ R.PWR_STATUS_THROTTLE.key 0 :: currentKeys)
  | .coolantReentry .. => some (stretchKeys ++ [R.PWR_STATUS_THROTTLE.key 0])
  | .fillLimitExpiry => some [R.PWR_STATUS_FILL.key 0, R.PWR_STATUS_TAPER.key 0, R.PWR_EVENT_TAPER_SEEN.key 0,
      R.PWR_COUNT_TAPER.key 0]
  | .clearExtremes => some [R.PWR_VIN_MIN.key 0, R.PWR_VIN_MAX.key 0, R.PWR_IIN_PEAK.key 0, R.PWR_IIN_SLEW_MAX.key 0]
  | .droopStretchStart region | .droopStretchEnd region => some [R.CLK_RGN_STATUS_STRETCHING.key region]
  | .pllLockLost region => some [R.CLK_RGN_STATUS_LOCK.key region, R.CLK_EVENT_LOCK_LOST.key 0]
  | .timeMapReceived .. => some [R.TAL_MAP_TALLY_TICKS.key 0, R.TAL_MAP_S_ROOT.key 0, R.TAL_MAP_S_SECONDS.key 0,
      R.TAL_MAP_NS_FLAGS.key 0, R.TAL_MAP_NS_NS.key 0]
  | .talCapture => some [R.TAL_CAPTURE_VAL_TICKS.key 0, R.PTP_CAPTURE_S_SECONDS.key 0, R.PTP_CAPTURE_NS_NS.key 0]
  | .ingestLinkUp port => some [R.ITK_PORT_LINK_UP.key port, R.PTP_PORT_STATE.key port]
  | .ingestLinkDown port => some [R.ITK_PORT_LINK_UP.key port]
  | .itkRingReset ctx => some [R.ITK_RING_FAULT.key ctx, R.ITK_RING_CONSUMER.key ctx, R.OLC_CACHE_HITS.key 0,
      R.OLC_CACHE_MISSES.key 0, R.OBS_CNT_COUNT.key 6100, R.OLC_ERR_LOST.key 0]
  | .markerDue port _ => some [R.HAUL_MARKER_COUNT_TX.key port]
  | .olicoNoProgress => some [R.OLC_STATUS_STATE.key 0, R.OLC_ERR_DOWNS.key 0, R.OLC_EVENT_DOWN.key 0]
  | .csrAccessError .. => some [R.OLC_ERR_BAD_CSR.key 0, R.OLC_EVENT_BAD_CSR.key 0]
  | .changeNextWrite .. => some [R.OLC_CHANGE_NEXT_ID.key 0, R.OLC_CHANGE_NEXT_KIND.key 0, R.OLC_CHANGE_NEXT_CONTEXT.key 0,
      R.OLC_CHANGE_NEXT_FRESH.key 0]
  | .fltRelease => some [R.FLT_STATUS_DIE_HELD.key 0]
  | .rrcRelease => some [R.RRC_STATUS_USED.key 0]
  | .traceArm | .traceStop | .stopNow => some [R.OBS_TRACE_STATUS_STATE.key 0]
  | .traceStart => some [R.OBS_TRACE_STATUS_NEXT.key 0, R.OBS_TRACE_STATUS_WRAPPED.key 0, R.OBS_TRACE_STATUS_STATE.key 0]
  | _ => none

/-- Every part of the state but the queue of commands. -/
def everyPart : List Part :=
  [.csr, .staged, .mem, .pwr, .clk, .tal, .ptp, .haul, .sch, .pln, .top, .olc, .gen, .wgt,
    .bench, .frk, .scr, .itk, .clocks, .twn, .fst, .flt, .rrc, .obs, .nv, .sent, .fresh]

/-- The parts of the state that a command may change. -/
def touches : Instr → List Part
  | .standbyStart .. | .prechargeDone | .writeInhibitEntry .. | .fillLimitExpiry | .pwrNvInhibit .. | .rrcSpillTimer
  | .rrcSpillNow | .dieCoreResetEnd | .sagBandEntry .. | .normalBandEntry .. => [.csr, .pwr]
  | .precharge | .prechargeTimeout | .prechargeRetry | .holdupSwitchClose | .diePowerStart .. => [.pwr]
  | .foresterDomainStart .. | .lowBandEntry .. | .writeInhibitExit .. | .coolantLeaveLimits ..
  | .coolantStartTimeout .. | .holdupTestPeriodic .. | .pwrHoldupTest .. | .holdoverEntry | .leaseWrite ..
  | .leaseEnable .. => [.csr, .pwr, .rrc, .obs, .fresh]
  | .sagTimeout | .overVoltageTimeout .. | .coolantShutdownTimeout | .taperStep | .pwrShutdown =>
    [.csr, .staged, .mem, .pwr, .clk, .tal, .ptp, .haul, .sch, .pln, .top, .gen, .wgt, .bench, .frk, .scr, .itk, .clocks,
      .twn, .obs, .sent, .fresh]
  | .foresterPowerOff | .autoRestart =>
    [.csr, .staged, .mem, .pwr, .clk, .tal, .ptp, .haul, .sch, .pln, .top, .olc, .gen, .wgt, .bench, .frk, .scr, .itk,
      .clocks, .twn, .fst, .flt, .rrc, .obs, .fresh]
  | .currentThrottleAssert .. | .clearExtremes | .regionRestart | .pllLockLost .. | .talCapture | .ingestLinkUp ..
  | .ingestLinkDown .. | .olicoNoProgress | .changeNextWrite .. | .fltRelease | .traceStop | .stopNow => [.csr]
  | .currentThrottleRelease .. | .droopStretchStart .. | .droopStretchEnd .. => [.csr, .clk]
  | .coolantReentry .. => [.csr, .pwr, .clk]
  | .writeUnitRequest .. => [.csr, .pwr, .sent]
  | .writeUnitCommit => [.csr, .pwr, .haul, .sch, .rrc, .nv, .sent]
  | .lateEntry .. => [.csr, .clk, .bench]
  | .beatBoundary .. =>
    [.csr, .mem, .pwr, .clk, .haul, .sch, .pln, .olc, .gen, .wgt, .bench, .frk, .scr, .itk, .twn, .flt, .rrc, .obs, .sent,
      .fresh]
  | .ttCritTimeout .. | .olicoFlitRetry => [.csr, .pwr, .flt, .rrc, .obs, .fresh]
  | .fchgArm => [.csr, .pwr, .clk, .haul, .sch, .pln, .top, .olc, .gen, .wgt, .bench, .flt, .rrc, .obs, .sent, .fresh]
  | .fchgDisarm | .genModeDisarm | .swapDisarm | .fwdDisarm .. | .olcDisarm | .armedReceived ..
  | .refusedReceived .. => [.csr, .olc]
  | .regionStop => [.csr, .haul, .sch, .olc, .sent]
  | .standbyLoopsLocked => [.clk]
  | .syncChangeSwitch => [.csr, .pwr, .clk, .olc, .bench]
  | .regionLockTimeout .. | .tempLimitTimeout .. | .railTimeout | .foremanRunning .. | .foremanTimeout ..
  | .moduleReset | .inputPowerLoss | .foremanFaulted .. | .dieRailOutOfRegulation | .tallyParityError
  | .csrSpineUncorrectable .. =>
    [.csr, .staged, .mem, .pwr, .clk, .tal, .ptp, .haul, .sch, .pln, .top, .olc, .gen, .wgt, .bench, .frk, .scr, .itk,
      .clocks, .twn, .fst, .flt, .rrc, .obs, .sent, .fresh]
  | .stepBoundary =>
    [.csr, .staged, .mem, .pwr, .clk, .haul, .sch, .pln, .olc, .gen, .wgt, .bench, .frk, .scr, .itk, .fst, .flt, .rrc,
      .obs, .sent, .fresh]
  | .markerReceived .. => [.csr, .pwr, .tal, .ptp, .haul, .sch, .clocks, .fst, .flt, .rrc, .obs, .sent, .fresh]
  | .alignNow => [.tal]
  | .timeMapSend | .timeQueryReceived .. | .forwardDeparture .. | .detourDeparture .. | .portDetourFast ..
  | .serviceInjection .. | .throttleSample | .telemetryPeriod | .telemNow => [.csr, .haul, .sch, .sent]
  | .timeMapReceived .. | .routeDownReceived .. | .clearFwd => [.csr, .sch]
  | .mgr .. | .fdec .. | .forkCommit .. => [.csr, .pwr, .haul, .sch, .gen, .bench, .frk, .flt, .rrc, .obs, .sent, .fresh]
  | .mgb .. | .mpa .. | .vfma .. | .vadd .. | .vsub .. | .vmul .. | .vcmp .. | .vsel .. | .vmin .. | .vmax ..
  | .iadd .. | .isub .. | .ishf .. | .iand .. | .ior .. | .ixor .. | .vcvt .. | .vrcp .. | .vsqrt .. | .vrsq ..
  | .vdiv .. | .vex2 .. | .vlg2 .. | .vtlv .. | .vtlf .. | .vred .. | .vkrf .. | .vld .. | .mrcv .. | .bref ..
  | .beat .. | .step .. | .jump .. | .lset .. | .loop .. | .cset .. | .fork .. | .bkfl .. =>
    [.csr, .pwr, .haul, .sch, .gen, .bench, .flt, .rrc, .obs, .sent, .fresh]
  | .mcv .. | .mxp .. | .vcvb .. | .vst .. | .copy .. | .zfill .. =>
    [.csr, .mem, .pwr, .haul, .sch, .gen, .bench, .flt, .rrc, .obs, .sent, .fresh]
  | .msnd .. | .waitc .. => [.csr, .pwr, .clk, .haul, .sch, .gen, .bench, .flt, .rrc, .obs, .sent, .fresh]
  | .gwin .. => [.csr, .pwr, .clk, .haul, .sch, .gen, .bench, .scr, .flt, .rrc, .obs, .sent, .fresh]
  | .brefDone .. => [.csr, .bench]
  | .hput .. => [.csr, .mem, .pwr, .clk, .haul, .sch, .gen, .bench, .frk, .scr, .flt, .rrc, .obs, .sent, .fresh]
  | .hget .. | .hvod .. => [.csr, .mem, .pwr, .clk, .haul, .sch, .gen, .bench, .scr, .flt, .rrc, .obs, .sent, .fresh]
  | .tagr .. => [.csr, .mem, .pwr, .haul, .sch, .gen, .wgt, .bench, .scr, .itk, .twn, .flt, .rrc, .obs, .sent, .fresh]
  | .benchScrub .. => [.csr, .pwr, .haul, .sch, .gen, .scr, .flt, .rrc, .obs, .sent, .fresh]
  | .forkDecisionSend .. => [.csr, .haul, .sch, .frk, .obs, .sent, .fresh]
  | .forkDecisionReceived .. | .forkDeadlineCheck .. => [.csr, .pwr, .haul, .sch, .frk, .flt, .rrc, .obs, .sent, .fresh]
  | .forkVariantEnd .. | .forkRejoin .. => [.csr, .bench, .frk]
  | .genModeArm | .plnArm .. | .activationFailed | .plnStopArm | .plnCtxRestart | .swapArm | .swapEffect ..
  | .restoreArm | .fwdArm .. | .fwdUnloadArm .. | .olcArm | .voteCount .. | .splitReceived ..
  | .changeFailedAtEffect .. =>
    [.csr, .pwr, .haul, .sch, .pln, .top, .olc, .gen, .wgt, .bench, .flt, .rrc, .obs, .sent, .fresh]
  | .modeChangeEffect =>
    [.csr, .pwr, .haul, .sch, .pln, .top, .olc, .gen, .wgt, .bench, .itk, .flt, .rrc, .obs, .sent, .fresh]
  | .sealSigned | .exportAcknowledged .. => [.csr, .haul, .sch, .gen, .fst, .sent]
  | .sealCloseNow => [.csr, .gen]
  | .plnVerify | .plnDiscard => [.csr, .pln]
  | .verifyComplete .. => [.csr, .pwr, .pln, .rrc, .obs, .fresh]
  | .plnDisarm => [.csr, .pln, .olc]
  | .loadPhaseStart => [.csr, .mem, .sch, .pln, .olc, .gen, .bench]
  | .activation => [.csr, .pwr, .clk, .haul, .sch, .pln, .olc, .gen, .wgt, .bench, .frk, .scr, .itk, .twn, .sent]
  | .drainEnd => [.csr, .pln, .gen]
  | .rampDownEnd => [.csr, .mem, .pwr, .clk, .sch, .pln, .olc, .gen, .wgt, .bench, .frk, .scr, .itk, .twn]
  | .plnAbort => [.pln]
  | .contextResume .. => [.csr, .mem, .pwr, .pln, .olc, .wgt, .bench, .itk]
  | .contextReset .. => [.csr, .mem, .pwr, .pln, .gen, .bench, .itk, .sent]
  | .gatherWindowComplete .. => [.csr, .mem, .haul, .bench, .scr, .itk, .twn, .obs, .sent, .fresh]
  | .gatherEarlyEnd .. => [.csr, .mem, .clk, .bench, .scr]
  | .serviceAccess .. => [.csr, .mem, .pwr, .haul, .sch, .gen, .scr, .flt, .rrc, .obs, .sent, .fresh]
  | .refreshDue .. => [.scr]
  | .memoryTempReadout .. => [.csr, .pwr, .scr, .rrc, .obs, .fresh]
  | .patrolScrubRead .. => [.csr, .pwr, .haul, .sch, .gen, .wgt, .scr, .fst, .flt, .rrc, .obs, .sent, .fresh]
  | .memoryTrainingDone .. => [.csr, .mem, .pwr, .rrc, .obs, .fresh]
  | .planStageWriteDone => [.mem, .scr]
  | .wgtLoadStart | .x3Start | .sweepOverrun .. => [.csr, .pwr, .wgt, .rrc, .obs, .fresh]
  | .wgtLoadAbort | .shardAttemptTimeout .. => [.csr, .pwr, .wgt, .scr, .rrc, .obs, .fresh]
  | .shardAttemptDone .. => [.csr, .mem, .pwr, .haul, .sch, .gen, .wgt, .scr, .flt, .rrc, .obs, .sent, .fresh]
  | .sweepShardChecked .. => [.csr, .pwr, .haul, .sch, .gen, .wgt, .scr, .itk, .fst, .flt, .rrc, .obs, .sent, .fresh]
  | .quarantineNoticeReceived .. => [.csr, .haul, .sch, .gen, .wgt, .itk, .fst, .sent]
  | .shardRepairDone .. | .responseFrameSend .. =>
    [.csr, .mem, .pwr, .haul, .sch, .gen, .wgt, .scr, .itk, .flt, .rrc, .obs, .sent, .fresh]
  | .intakeFrameReceived .. => [.csr, .itk]
  | .ptpSyncReceived .. => [.csr, .pwr, .tal, .ptp, .clocks, .rrc, .obs, .fresh]
  | .ptpAnnounceReceived .. | .ptpAnnounceTimeout .. => [.csr, .pwr, .ptp, .clocks, .rrc, .obs, .fresh]
  | .ptpDelayRespReceived .. | .ptpPdelayRespReceived .. => [.csr, .clocks]
  | .ptpPdelayReqReceived .. | .csrAccessError .. => [.csr, .sent]
  | .ptpDelayReqSend .. => [.csr, .clocks, .sent]
  | .intakeWindowClose .. => [.csr, .mem, .wgt, .itk, .obs, .fresh]
  | .intakeBeatRingRead .. => [.csr, .mem, .pwr, .itk, .flt, .rrc, .obs, .fresh]
  | .itkRingReset .. => [.csr, .fresh]
  | .timedRelease .. => [.csr, .mem, .pwr, .haul, .sch, .gen, .wgt, .scr, .itk, .twn, .fst, .flt, .rrc, .obs, .sent, .fresh]
  | .signalPresent .. | .signalLock .. | .laneMarkLock .. | .backoffExpiry .. | .swapRemap .. =>
    [.csr, .haul, .obs, .sent, .fresh]
  | .trainStateTimeout .. | .laneDegrade .. | .laneLockLost .. => [.csr, .pwr, .haul, .rrc, .obs, .sent, .fresh]
  | .announceReceived .. | .echoRespReceived .. => [.csr, .pwr, .haul, .sch, .fst, .rrc, .obs, .sent, .fresh]
  | .echoReqSend .. | .ackDue .. | .nakTimerExpiry .. | .swapReqResend .. => [.haul, .sent]
  | .echoReqReceived .. | .svcBlockReceived .. | .fillReceived .. | .ackReceived .. | .nakReceived ..
  | .swapReqReceived .. | .swapDoneReceived .. | .rotStartReceived .. | .rotReadyReceived .. | .rotDoneReceived ..
  | .linkDownTimeout .. | .haulPortReset .. | .haulRetrain .. | .haulPortEnable .. =>
    [.csr, .haul, .sch, .fst, .obs, .sent, .fresh]
  | .schedBlockReceived .. => [.csr, .mem, .clk, .haul, .sch, .bench, .scr, .fst, .obs, .sent, .fresh]
  | .replayTimerExpiry .. | .markerDue .. | .laneFail .. | .rotationTimer .. | .forceRot .. => [.csr, .haul, .sent]
  | .swapTimeout .. | .failedLaneRetest .. | .laneLockRegained .. => [.csr, .haul]
  | .calibrationEnd .. => [.csr, .haul, .obs, .fresh]
  | .sendDeparture .. => [.csr, .clk, .haul, .sch, .obs, .sent, .fresh]
  | .recvDeadlineCheck .. | .repeatedDeadlineCheck .. | .holdNoticeReceived .. | .replayNoticeReceived .. =>
    [.csr, .pwr, .haul, .sch, .flt, .rrc, .obs, .sent, .fresh]
  | .holdPoint .. => [.csr, .sch, .obs, .fresh]
  | .holdEnd .. => [.csr, .sch, .pln]
  | .abandonPoint .. =>
    [.csr, .mem, .pwr, .clk, .haul, .sch, .pln, .top, .olc, .gen, .wgt, .bench, .frk, .scr, .itk, .twn, .flt, .rrc, .obs,
      .sent, .fresh]
  | .replayGapEnd .. => [.csr, .mem, .pwr, .haul, .sch, .gen, .wgt, .bench, .scr, .itk, .flt, .rrc, .obs, .sent, .fresh]
  | .replayRejoin .. => [.csr, .pwr, .sch, .pln]
  | .portRestore => [.csr, .sch, .olc]
  | .probeReceived .. | .neighbourReceived .. => [.csr, .haul, .sch, .fst, .sent]
  | .assignReceived .. | .routesReceived .. => [.csr, .haul, .sch, .top, .fst, .sent]
  | .fwdLoad .. => [.csr, .top]
  | .fwdLoadEffect .. => [.csr, .sch, .top, .olc]
  | .twinSetReceived .. => [.csr, .mem, .haul, .sch, .itk, .twn, .fst, .obs, .sent, .fresh]
  | .twinIndexReceived .. | .twinStateReceived .. | .twinTagsReceived .. | .twinAckReceived .. =>
    [.csr, .mem, .haul, .sch, .twn, .fst, .obs, .sent, .fresh]
  | .replicaSetShip .. => [.csr, .mem, .pwr, .haul, .sch, .gen, .wgt, .scr, .itk, .twn, .flt, .rrc, .obs, .sent, .fresh]
  | .replicaCompare .. => [.csr, .pwr, .haul, .sch, .itk, .twn, .flt, .rrc, .obs, .sent, .fresh]
  | .twnTakeover | .twnSolo | .partnerLost => [.csr, .twn]
  | .takeoverEffect .. => [.csr, .pwr, .itk, .twn, .rrc, .obs, .fresh]
  | .olicoLaneFail .. => [.csr, .pwr, .olc, .rrc, .obs, .fresh]
  | .olicoRetrainDone .. => [.csr, .haul, .sch, .olc, .gen, .fst, .sent]
  | .registerWrite .. | .hello .. | .csrRead .. | .csrWrite .. | .memRead .. | .memWrite .. | .shardPut ..
  | .export_ .. | .discSend .. | .fcpReset .. | .fcpServicePacket .. | .certs .. | .quote .. | .enroll ..
  | .revoke .. | .anchorSet .. | .anchorClear .. | .ownerClaim .. | .fwPut .. | .fwActivate .. => everyPart
  | .armDeadline .. => []
  | .spareExtensionEffect .. => [.csr, .mem, .pwr, .pln, .olc, .gen, .wgt, .bench, .itk]
  | .fcpHandshake .. => [.csr, .pwr, .fst, .rrc, .obs, .sent, .fresh]
  | .commitSvn => [.csr, .nv, .sent]
  | .secureBoot .. => [.csr, .pwr, .haul, .sch, .gen, .fst, .rrc, .obs, .nv, .sent, .fresh]
  | .fltAck .. => [.csr, .flt]
  | .rrcRelease => [.csr, .rrc]
  | .traceArm | .traceStart => [.csr, .obs]
  | .snapArm => [.obs]
  | .snapNow | .snapshot => [.csr, .obs, .fresh]
  | .railGroupRegulation => [.csr, .pwr, .tal, .ptp, .haul, .obs, .sent, .fresh]
  | .foresterReset => [.csr, .fst]
  | .dieCoreReset =>
    [.csr, .staged, .mem, .pwr, .clk, .haul, .sch, .pln, .olc, .gen, .wgt, .bench, .frk, .scr, .itk, .twn, .fst, .rrc,
      .obs, .sent, .fresh]
  | .haulPlaneReset =>
    [.csr, .staged, .mem, .pwr, .clk, .tal, .ptp, .haul, .sch, .pln, .top, .olc, .gen, .wgt, .bench, .frk, .scr, .itk,
      .clocks, .twn, .fst, .rrc, .obs, .sent, .fresh]
  | .meshTransferComplete .. => [.csr, .mem, .bench]
  | .linkReplayEnd .. => [.csr, .haul, .sch, .sent, .fresh]
  | .replicaSetCheck .. => [.csr, .mem, .haul, .sch, .itk, .twn, .sent]
  | .managementPortLinkUp .. => [.fst]

/-- The spans of up to 64 result rows and of their scale bytes: where MXP and MCV store under a descriptor that the manual
reserves (log entry 20). -/
def freeSpans (d : Desc) (m : MatSlot) (l : TileLayout) : List (Nat × Nat) :=
  ((List.range 64).map fun r => (128 * m.b.val + r * l.outRow, 256) ::
    (if d.scaledOut then [(128 * d.outScale + l.scaleOut + r * l.scaleOutStep, 1)] else [])).flatten

/-- The byte spans (offset in the bench store, length) that a storing form of a bench operation stores to: the same
offsets that its meaning uses (VST, COPY, ZFILL: R172; VCVB: R171; MXP, MCV: R170). -/
def storedSpans (s : State) : Instr → Option (Issue × List (Nat × Nat))
  | .vst i m => some (i, [(128 * m.addr, 512)])
  | .copy i m _ => some (i, [(128 * m.addr2, 128 * (m.id + 1))])
  | .zfill i m => some (i, [(128 * m.addr, 128 * (m.id + 1))])
  | .vcvb i v off _ => some (i, [(128 * (s.desc i.bench (v.imm % 256)).outScale + off, 4)])
  | .mxp i m l _ =>
    let d := (s.issued i (.matrix 5 m)).desc i.bench m.desc
    some (i, match tileOf d with | some t => if t.exact then tileSpans t l m.b 256 else freeSpans d m l | none => freeSpans d m l)
  | .mcv i m l half k _ =>
    let u := s.issued i (.matrix 4 m)
    let d := u.desc i.bench m.desc
    some (i, match tileOf d, formatOf d.outFmt with
      | some t, some f =>
        if (roundingOf f d.rm 0).isNone then freeSpans d m l
        else ((u.seen i.bench).tileOut i.bench d t m l f half k).writes.map fun x => (x.1, x.2.length)
      | _, _ => freeSpans d m l)
  | _ => none

/-- The plain lane operations: their place, their slot, their opcode and how many registers each writes (R170, R171). -/
def laneOp : Instr → Option (Issue × VecSlot × Nat × Nat)
  | .vfma i v => some (i, v, 0x01, 2)
  | .vadd i v => some (i, v, 0x02, 2)
  | .vsub i v => some (i, v, 0x03, 2)
  | .vmul i v => some (i, v, 0x04, 2)
  | .vsel i v => some (i, v, 0x11, 2)
  | .vmin i v => some (i, v, 0x12, 2)
  | .vmax i v => some (i, v, 0x13, 2)
  | .iadd i v => some (i, v, 0x20, 2)
  | .isub i v => some (i, v, 0x21, 2)
  | .ishf i v => some (i, v, 0x22, 2)
  | .iand i v => some (i, v, 0x23, 2)
  | .ior i v => some (i, v, 0x24, 2)
  | .ixor i v => some (i, v, 0x25, 2)
  | .vrcp i v => some (i, v, 0x38, 1)
  | .vsqrt i v => some (i, v, 0x39, 1)
  | .vrsq i v => some (i, v, 0x3A, 1)
  | .vdiv i v => some (i, v, 0x3B, 1)
  | .vex2 i v => some (i, v, 0x3C, 1)
  | .vlg2 i v => some (i, v, 0x3D, 1)
  | _ => none

/-- The fields that a plain lane operation of bench `b` may write: the counter of issued bundles and the counts and
events of the number format rules (R69, R80, R169). -/
def laneOpKeys (b : Nat) : List Nat :=
  [R.BCH_SEQ_STATUS_PC.key b, R.BCH_NUM_COUNT_NAN_OUT.key b, R.BCH_NUM_EVENT_NAN_OUT.key b, R.BCH_NUM_COUNT_FP_SAT.key b,
    R.BCH_NUM_EVENT_FP_SAT.key b, R.BCH_NUM_COUNT_INT_SAT.key b, R.BCH_NUM_EVENT_INT_SAT.key b,
    R.BCH_NUM_COUNT_NAN_DROP.key b, R.BCH_NUM_EVENT_NAN_DROP.key b]

/-- The command issues, and in each of `n` registers from DST every lane whose predicate bit is set holds `f` of the
source lanes that the bundle sees, and every other lane what it held (R168, R170, R171). -/
def LanesRun (c : Instr) (s : State) (i : Issue) (v : VecSlot) (op n : Nat) (f : Nat → Nat → Nat → Nat) : Prop :=
  ∃ t, exec c s = .next t ∧
    ∀ k < n, ∀ m < 128, (t.benchOf i.bench).lane (v.dst + k) m =
      let x := ((s.issued i (.vector op v)).seen i.bench).benchOf i.bench
      if bit m (x.pred v.pred) = true then f (x.lane (v.s1 + k) m) (x.lane (v.s2 + k) m) (x.lane (v.s3 + k) m) % 2 ^ 32
      else (s.benchOf i.bench).lane (v.dst + k) m

end Sys2Proof.Machine

open Sys2Proof Sys2Proof.Machine

/-- Power-up and restart: every command of this group completes, and the state it leaves is as its clause says. Where a
clause rests on a choice of the model the choice is in log entry 3 (which states an event needs) and log entry 4. -/
def Obligations.PowerUpRuns : Prop :=
  -- STANDBY_START (R26)
  (∀ (s : State) (mv : Nat),
     s.pwr.standby = false → 18000 < mv → mv < 65536 →
     ∃ t, exec (.standbyStart mv) s = .next t ∧
         t.pwr = { s.pwr with standby := true } ∧ t.rd R.PWR_VIN_NOW = mv ∧ t.rd R.PWR_VIN_MIN = mv ∧
         t.rd R.PWR_VIN_MAX = mv) ∧
  -- PRECHARGE (R27)
  (∀ (s : State),
     s.pwr.standby = true → s.pwr.stage = .off → s.pwr.retries = 0 → s.pwr.shutdown = .none →
     exec .precharge s = .next ({ s with pwr := { s.pwr with stage := .precharging } })) ∧
  -- PRECHARGE_DONE (R27)
  (∀ (s : State),
     s.pwr.stage = .precharging →
     ∃ t, exec .prechargeDone s = .next t ∧
         t.pwr = { s.pwr with stage := .closed } ∧ t.rd R.PWR_STATUS_PRECHARGE_DONE = 1) ∧
  -- PRECHARGE_TIMEOUT (R413)
  (∀ (s : State),
     s.pwr.stage = .precharging →
     ∃ t, exec .prechargeTimeout s = .next t ∧
         t.pwr.stage = .off ∧ 1 ≤ t.pwr.retries ∧ t.csr = s.csr) ∧
  -- PRECHARGE_RETRY (R413)
  (∀ (s : State),
     s.pwr.standby = true → s.pwr.stage = .off → 1 ≤ s.pwr.retries → s.pwr.retries ≤ 3 →
     exec .prechargeRetry s = .next ({ s with pwr := { s.pwr with stage := .precharging, retries := s.pwr.retries + 1 } })) ∧
  -- FORESTER_DOMAIN_START (R27, R36, R430)
  (∀ (s : State) (mv holdupMj : Nat) (oscillatorSettled : Bool),
     s.pwr.stage = .closed → s.pwr.forester = false → s.pwr.shutdown = .none → 44000 ≤ mv → oscillatorSettled = true →
     ∃ t, exec (.foresterDomainStart mv holdupMj oscillatorSettled) s = .next t ∧
         t.pwr.forester = true) ∧
  -- HOLDUP_SWITCH_CLOSE (R34)
  (∀ (s : State),
     s.pwr.forester = true →
     exec .holdupSwitchClose s = .next ({ s with pwr := { s.pwr with holdupSwitch := true } })) ∧
  -- AUTO_RESTART (R37, R414)
  (∀ (s : State),
     s.pwr.shutdown = .off → s.on R.PWR_CTRL_AUTO_RESTART = true → s.pwr.normalCount = true →
     ∃ t, exec .autoRestart s = .next t ∧
         t.pwr.shutdown = .none ∧ t.nv = s.nv ∧ t.mem = [] ∧ t.fresh = s.fresh + 1)

/-- Input bands, write-inhibit and orderly shutdown: every command of this group completes, and the state it leaves is
as its clause says. Where a clause rests on a choice of the model the choice is in log entry 3 (which states an
event needs) and log entries 4 and 6. -/
def Obligations.InputBandsRun : Prop :=
  -- LOW_BAND_ENTRY (R21, R434)
  (∀ (s : State) (mv : Nat),
     s.pwr.standby = true → s.pwr.shutdown = .none → mv < 44000 → s.rd R.PWR_STATUS_BAND = 0 →
     ∃ t, exec (.lowBandEntry mv) s = .next t ∧
         t.rd R.PWR_STATUS_BAND = 1 ∧ t.rd R.PWR_VIN_NOW = mv ∧ t.pwr.normalCount = false) ∧
  -- WRITE_INHIBIT_ENTRY (R21, R35)
  (∀ (s : State) (mv : Nat),
     s.pwr.standby = true → s.pwr.shutdown = .none → s.pwr.bandInhibit = false → mv < 42000 →
     ∃ t, exec (.writeInhibitEntry mv) s = .next t ∧
         t.rd R.PWR_STATUS_BAND = (if mv < 40000 then 3 else 2) ∧ t.rd R.PWR_STATUS_NV_INHIBIT = 1 ∧
         t.rd R.PWR_EVENT_INHIBIT_SEEN = 1 ∧ t.pwr.bandInhibit = true) ∧
  -- WRITE_INHIBIT_EXIT (R21, R35, R392)
  (∀ (s : State) (mv : Nat),
     s.pwr.bandInhibit = true → s.rd R.PWR_CTRL_NV_INHIBIT = 0 → 43000 < mv →
     ∃ t, exec (.writeInhibitExit mv) s = .next t ∧
         t.rd R.PWR_STATUS_NV_INHIBIT = 0 ∧ t.pwr.bandInhibit = false) ∧
  -- SAG_TIMEOUT (R21, R37)
  (∀ (s : State),
     s.pwr.sagCount = true → s.pwr.shutdown = .none → s.pwr.forester = true → s.pwr.dieOn = true →
     ∃ t, exec .sagTimeout s = .next t ∧
         t.pwr.shutdown = .tapering ∧ t.pwr.sagCount = false ∧ t.rd R.PWR_STATUS_BAND = 5) ∧
  -- OVER_VOLTAGE_TIMEOUT (R21, R37)
  (∀ (s : State) (mv : Nat),
     s.pwr.standby = true → 60000 < mv → s.pwr.shutdown = .none → s.pwr.forester = true → s.pwr.dieOn = true →
     ∃ t, exec (.overVoltageTimeout mv) s = .next t ∧
         t.pwr.shutdown = .tapering ∧ t.rd R.PWR_STATUS_BAND = 5) ∧
  -- SAG_BAND_ENTRY (R21)
  (∀ (s : State) (mv : Nat),
     s.pwr.standby = true → mv < 40000 → s.pwr.shutdown = .none →
     ∃ t, exec (.sagBandEntry mv) s = .next t ∧
         t.pwr.sagCount = true ∧ t.pwr.normalCount = false ∧ t.rd R.PWR_STATUS_BAND = 3 ∧ t.rd R.PWR_VIN_NOW = mv) ∧
  -- NORMAL_BAND_ENTRY (R21, R37)
  (∀ (s : State) (mv : Nat),
     s.pwr.standby = true → 44000 ≤ mv → mv ≤ 60000 → s.pwr.shutdown = .none → s.pwr.bandInhibit = false →
     ∃ t, exec (.normalBandEntry mv) s = .next t ∧
         t.pwr.normalCount = true ∧ t.pwr.sagCount = false ∧ t.rd R.PWR_STATUS_BAND = 0 ∧ t.rd R.PWR_VIN_NOW = mv) ∧
  -- PWR_SHUTDOWN (R37, R38)
  (∀ (s : State),
     s.pwr.shutdown = .none → s.pwr.forester = true → s.pwr.dieOn = true →
     ∃ t, exec .pwrShutdown s = .next t ∧
         t.pwr.shutdown = .tapering ∧ t.rd R.PWR_STATUS_BAND = 5) ∧
  -- PWR_NV_INHIBIT (R35)
  (∀ (s : State) (inhibit : Bool),
     ∃ t, exec (.pwrNvInhibit inhibit) s = .next t ∧
         t.rd R.PWR_CTRL_NV_INHIBIT = flag inhibit ∧
         t.rd R.PWR_STATUS_NV_INHIBIT = flag (s.pwr.bandInhibit || inhibit)) ∧
  -- FORESTER_POWER_OFF (R37)
  (∀ (s : State),
     s.pwr.shutdown = .holdUp → s.pwr.units = [] → s.gen.unsigned = [] → s.pwr.inputGone = false →
     ∃ t, exec .foresterPowerOff s = .next t ∧
         t.pwr.forester = false ∧ t.pwr.shutdown = .off ∧ t.mem = [] ∧ t.rrc = State.reset.rrc ∧ t.nv = s.nv)

/-- Current throttle, coolant, fill and taper: every command of this group completes, and the state it leaves is as its
clause says. Where a clause rests on a choice of the model the choice is in log entry 3 (which states an event
needs) and log entries 4 and 6. -/
def Obligations.CurrentAndCoolantRun : Prop :=
  -- CURRENT_THROTTLE_ASSERT (R23, R428)
  (∀ (s : State) (current : Nat),
     s.pwr.throttleAt ≤ current → s.rd R.PWR_STATUS_THROTTLE = 0 →
     ∃ t, exec (.currentThrottleAssert current) s = .next t ∧
         t.rd R.PWR_STATUS_THROTTLE = 1 ∧ t.rd R.PWR_EVENT_THROTTLE_SEEN = 1 ∧
         t.rd R.PWR_COUNT_THROTTLE = min (s.rd R.PWR_COUNT_THROTTLE + 1) R.PWR_COUNT_THROTTLE.max) ∧
  -- CURRENT_THROTTLE_RELEASE (R23, R428, R431)
  (∀ (s : State) (current : Nat),
     s.rd R.PWR_STATUS_THROTTLE = 1 → current < 6600 → (s.pwr.coolantOk = true ∨ s.pwr.dieOn = false) →
     ∃ t, exec (.currentThrottleRelease current) s = .next t ∧
         t.clk.throttle = false) ∧
  -- COOLANT_LEAVE_LIMITS (R20, R428, R431, R434)
  (∀ (s : State) (temp flow current : Nat),
     400 < temp → s.pwr.coolantOk = true →
     ∃ t, exec (.coolantLeaveLimits temp flow current) s = .next t ∧
         t.pwr.coolantOk = false ∧ t.pwr.throttleAt = min s.pwr.throttleAt current) ∧
  -- COOLANT_SHUTDOWN_TIMEOUT (R20)
  (∀ (s : State),
     s.pwr.coolantOk = false → s.pwr.dieOn = true → s.pwr.shutdown = .none → s.pwr.forester = true →
     ∃ t, exec .coolantShutdownTimeout s = .next t ∧
         t.pwr.shutdown = .tapering ∧ t.rd R.PWR_STATUS_BAND = 5) ∧
  -- COOLANT_REENTRY (R428, R431)
  (∀ (s : State) (temp flow : Nat),
     s.pwr.coolantOk = false → 155 ≤ temp → temp ≤ 390 → 3200 ≤ flow → flow ≤ 5800 →
     ∃ t, exec (.coolantReentry temp flow) s = .next t ∧
         t.pwr.coolantOk = true ∧ t.pwr.throttleAt = 6800) ∧
  -- COOLANT_START_TIMEOUT (R413, R434)
  (∀ (s : State) (temp flow : Nat),
     s.pwr.forester = true → s.pwr.dieOn = false → temp < 150 → 3000 ≤ flow → flow ≤ 6000 →
     exec (.coolantStartTimeout temp flow) s = .next (s.fault 1 0x83 0 0 temp)) ∧
  -- FILL_LIMIT_EXPIRY (R31, R33)
  (∀ (s : State) (x : FillRun),
     x ∈ s.pwr.fill → x.tapered = false → s.covered = false → x.since + s.rd R.PWR_FILL_LIMIT < s.nominalTime →
     ∃ t, exec .fillLimitExpiry s = .next t ∧
         t.pwr.tapers = s.pwr.tapers ++ [⟨32, s.benchPower, s.now + s.rd R.PWR_TAPER_EFF_STEP⟩] ∧
         t.rd R.PWR_STATUS_TAPER = 1 ∧ t.rd R.PWR_EVENT_TAPER_SEEN = 1) ∧
  -- TAPER_STEP (R31, R32, R37)
  (∀ (s : State) (x : TaperRun),
     x ∈ s.pwr.tapers → s.tal.running = true → x.at_ ≤ s.now → (∃ y ∈ s.pwr.tapers, 2 ≤ y.left) →
     ∃ t, exec .taperStep s = .next t ∧ t.csr = s.csr ∧
         t.pwr.tapers = (s.pwr.tapers.map fun y =>
           if y.at_ ≤ s.now then ⟨y.left - 1, y.start, y.at_ + s.rd R.PWR_TAPER_EFF_STEP⟩ else y).filter fun y => y.left != 0)

/-- Write units and hold-up tests: every command of this group completes, and the state it leaves is as its clause says.
Where a clause rests on a choice of the model the choice is in log entry 3 (which states an event needs). -/
def Obligations.WriteUnitsAndHoldUpRun : Prop :=
  -- WRITE_UNIT_REQUEST (R34, R35)
  (∀ (s : State) (store : FlashStore),
     s.pwr.forester = true →
     (s.pwr.units ≠ [] ∨ s.writesAdmitted = true →
       exec (.writeUnitRequest store) s = .next ({ s with pwr := { s.pwr with units := s.pwr.units ++ [.other store] } })) ∧
     (s.pwr.units = [] → s.writesAdmitted = false →
       exec (.writeUnitRequest store) s = .next (s.writeRefused.emit (.busy store)))) ∧
  -- WRITE_UNIT_COMMIT (R34, R35)
  (∀ (s : State) (u : UnitJob) (rest : List UnitJob),
     s.pwr.units = u :: rest →
     exec .writeUnitCommit s = .next ((({ s with pwr := { s.pwr with units := [] } }).commitUnit u).requestUnits rest)) ∧
  (∀ (s : State) (store : FlashStore),
     s.pwr.units = [.other store] →
     exec .writeUnitCommit s = .next ({ s with pwr := { s.pwr with units := [] } })) ∧
  -- HOLDUP_TEST_PERIODIC (R36)
  (∀ (s : State) (mj : Nat),
     s.pwr.forester = true → 1200 ≤ mj → mj < 65536 →
     ∃ t, exec (.holdupTestPeriodic mj) s = .next t ∧
         t.rd R.PWR_HOLDUP_MJ = mj ∧ t.rd R.PWR_STATUS_HOLDUP_OK = 1) ∧
  -- PWR_HOLDUP_TEST (R36, R38)
  (∀ (s : State) (mj : Nat),
     s.pwr.forester = true → s.pwr.units = [] → mj < 1200 →
     ∃ t, exec (.pwrHoldupTest mj) s = .next t ∧
         t.rd R.PWR_HOLDUP_MJ = mj ∧ t.rd R.PWR_STATUS_HOLDUP_OK = 0 ∧ t.rd R.PWR_EVENT_HOLDUP_FAULT = 1) ∧
  -- CLEAR_EXTREMES (R38)
  (∀ (s : State),
     s.rd R.PWR_VIN_NOW < 65536 →
     ∃ t, exec .clearExtremes s = .next t ∧
         t.rd R.PWR_VIN_MIN = s.rd R.PWR_VIN_NOW ∧ t.rd R.PWR_VIN_MAX = s.rd R.PWR_VIN_NOW ∧
         t.rd R.PWR_IIN_SLEW_MAX = 0)

/-- Late entries, droop, tell-tales and PLL lock: every command of this group completes, and the state it leaves is as
its clause says. Where a clause rests on a choice of the model the choice is in log entry 3 (which states an event
needs) and log entries 4 and 32. -/
def Obligations.ClockEventsRun : Prop :=
  -- LATE_ENTRY (R44)
  (∀ (s : State) (reader writer : Fin 39) (cycles : Nat),
     64 * writer.val + reader.val ∈ s.clk.stalled → s.crossingFree (64 * writer + reader) = true →
     ∃ t, exec (.lateEntry reader writer cycles) s = .next t ∧
         t.rd R.CLK_EVENT_LATE_ENTRY = 1 ∧ t.clk.droop = s.clk.droop ∧
         t.clk.stalled = dropOne (64 * writer + reader) s.clk.stalled) ∧
  -- DROOP_STRETCH_START (R45)
  (∀ (s : State) (region : Fin 39),
     ∃ t, exec (.droopStretchStart region) s = .next t ∧
         t.clk = { s.clk with droop := addOnce region s.clk.droop, stretchSeen := addOnce region s.clk.stretchSeen } ∧
         t.onAt R.CLK_RGN_STATUS_STRETCHING region = true) ∧
  -- DROOP_STRETCH_END (R45)
  (∀ (s : State) (region : Fin 39),
     ∃ t, exec (.droopStretchEnd region) s = .next t ∧ t.clk.droop = dropOne region s.clk.droop ∧
         (region.val ∉ dropOne region.val s.clk.droop → (s.clk.throttle = false ∨ 24 ≤ region.val) →
           s.onAt R.CLK_RGN_STATUS_TT_CRIT region = false → t.onAt R.CLK_RGN_STATUS_STRETCHING region = false)) ∧
  -- TT_CRIT_TIMEOUT (R48)
  (∀ (s : State) (region : Fin 39),
     s.onAt R.CLK_RGN_STATUS_TT_CRIT region = true →
     exec (.ttCritTimeout region) s = .next (s.contained 2 0x20 (regionField region) 0 region 0)) ∧
  -- PLL_LOCK_LOST (R61)
  (∀ (s : State) (region : Fin 39),
     ∃ t, exec (.pllLockLost region) s = .next t ∧
         t.onAt R.CLK_RGN_STATUS_LOCK region = false ∧ t.rd R.CLK_EVENT_LOCK_LOST = 1) ∧
  -- REGION_LOCK_TIMEOUT (R410, R413)
  (∀ (s : State) (region : Fin 39),
     s.onAt R.CLK_RGN_STATUS_LOCK region = false → Tab.get 0 region.val s.clk.relocks < 3 →
     ∃ t, exec (.regionLockTimeout region) s = .next t ∧
         Tab.get 0 region.val t.clk.relocks = Tab.get 0 region.val s.clk.relocks + 1 ∧ t.csr = s.csr)

/-- Frequency changes: every command of this group completes, and the state it leaves is as its clause says. Where a
clause rests on a choice of the model the choice is in log entry 3 (which states an event needs) and log entry 29. -/
def Obligations.FrequencyChangeRuns : Prop :=
  -- FCHG_ARM (R50, R51)
  (∀ (s : State),
     s.rd R.CLK_FCHG_CTRL_STATE = 0 → s.on R.CLK_FCHG_CTRL_KIND = true → s.last R.CLK_FCHG_CTRL_REGION ≤ 38 →
     s.last R.CLK_FCHG_AT_AT % 16 = 0 → s.planActive = false →
     ∃ t, exec .fchgArm s = .next t ∧
         t.rd R.CLK_FCHG_CTRL_STATE = 1 ∧ t.clk.fchgAt = s.last R.CLK_FCHG_AT_AT ∧
         t.clk.fchgRegion = s.last R.CLK_FCHG_CTRL_REGION ∧ t.clk.fchgStop = true) ∧
  -- FCHG_DISARM (R61)
  (∀ (s : State),
     s.rd R.CLK_FCHG_CTRL_STATE = 1 → (s.clk.fchgStop = true → s.now ≠ s.clk.fchgAt) →
     (s.clk.fchgStop = false → s.clk.standbyLocked = true → s.clk.fchgAt ≤ s.now → s.atStepStart = false) → (5, 0) ∉ s.olc.applied →
     ∃ t, exec .fchgDisarm s = .next t ∧
         t.rd R.CLK_FCHG_CTRL_STATE = 0 ∧ t.clk = s.clk) ∧
  -- FCHG_DISARM (R61, R369)
  (∀ (s : State),
     s.rd R.CLK_FCHG_CTRL_STATE = 1 → s.clk.fchgStop = true → s.now = s.clk.fchgAt →
     exec .fchgDisarm s = .next (s.wr R.CLK_EVENT_FCHG_REFUSED 1)) ∧
  -- REGION_STOP (R50, R311)
  (∀ (s : State),
     s.rd R.CLK_FCHG_CTRL_STATE = 1 → s.clk.fchgStop = true → s.now = s.clk.fchgAt → s.clk.fchgRegion < 39 → s.planActive = false →
     ∃ t, exec .regionStop s = .next t ∧
         t.rd R.CLK_FCHG_CTRL_STATE = 2 ∧ t.onAt R.CLK_RGN_STATUS_STOPPED s.clk.fchgRegion = true ∧
         t.onAt R.CLK_RGN_STATUS_LOCK s.clk.fchgRegion = false) ∧
  -- REGION_RESTART (R50)
  (∀ (s : State),
     s.rd R.CLK_FCHG_CTRL_STATE = 2 → s.clk.fchgStop = true → s.clk.fchgRegion < 39 → s.now % 16 = 0 → s.now ≤ s.clk.fchgAt + 3563 →
     ∃ t, exec .regionRestart s = .next t ∧ t.rd R.CLK_FCHG_CTRL_STATE = 0 ∧
         t.onAt R.CLK_RGN_STATUS_STOPPED s.clk.fchgRegion = false ∧ t.onAt R.CLK_RGN_STATUS_LOCK s.clk.fchgRegion = true ∧
         (s.clk.fchgRegion < 24 → s.clk.fchgPoint < 4 → t.rdAt R.CLK_RGN_STATUS_OP_POINT s.clk.fchgRegion = s.clk.fchgPoint)) ∧
  -- STANDBY_LOOPS_LOCKED (R51)
  (∀ (s : State),
     s.rd R.CLK_FCHG_CTRL_STATE = 1 → s.clk.fchgStop = false →
     exec .standbyLoopsLocked s = .next ({ s with clk := { s.clk with standbyLocked := true } })) ∧
  -- SYNC_CHANGE_SWITCH (R51, R168, R370, R433)
  (∀ (s : State),
     s.rd R.CLK_FCHG_CTRL_STATE = 1 → s.clk.fchgStop = false → s.clk.standbyLocked = true → s.clk.fchgAt ≤ s.now →
     s.atStepStart = true →
     ∃ t, exec .syncChangeSwitch s = .next t ∧
         t.clk = { s.clk with standbyLocked := false, switchBeat := true } ∧ t.pwr = { s.pwr with switchStage := s.lastStage })

/-- Beats, steps, Tally alignment, holdover and the time map: every command of this group completes, and the state it
leaves is as its clause says. Where a clause rests on a choice of the model the choice is in log entry 3 (which
states an event needs) and log entries 7, 8, 25 and 28. -/
def Obligations.TallyRuns : Prop :=
  -- BEAT_BOUNDARY (R46)
  (∀ (s : State) (reports : List BeatReport) (benches : List BenchBeat) (ecc : MemEcc) (prefetch : List Nat) (volts amps : Option Nat),
     s.tal.running = true → s.now % 16 = 0 →
     exec (.beatBoundary reports benches ecc prefetch volts amps) s = .next (
      let s1 := (s.inputSamples volts amps).endSwitchBeat
      let s2 := reports.foldl (fun u x => (u.beatSlip x).beatMargin x) (benches.foldl State.beatBench s1)
      let s3 := { s2 with clk := { s2.clk with stretchSeen := (List.range 39).filter (s2.onAt R.CLK_RGN_STATUS_STRETCHING) } }
      let s4 := ((s3.forksBeat.resumeBeats.beatFill reports).beatPending).gatherSpans.foremanBeats.stopEffect.tagRoom 0
      let s5 := ((s4.upkeepBeat ecc).moveWindows ecc).scriptBeat ecc
      let s6 := (s5.startWindows ecc s5.memPlan.windows.zipIdx).serveJobs
      (prefetch.foldl State.prefetch s6).prefetchBeat.showPending.showLevel.noteShares)) ∧
  -- STEP_BOUNDARY (R52, R326)
  (∀ (s : State),
     exec .stepBoundary s = .next (let s1 := s.stopEffect
      let s2 := ((s1.pln.ctxs.map Prod.fst).filter fun c => s1.ctxAtEnd c).foldl State.ctxBoundary s1
      let base : Bool := match s1.job? 7 with | some j => s1.planActive && j.atEnd s1.now | none => false
      let s3 := match s2.job? 7 with | some j => if base then s2.baseBoundary j else s2 | none => s2
      ((List.range 8).foldl (fun u k => match u.job? k with
        | some j => if (k ≠ 7 ∨ !u.planActive) ∧ j.atEnd u.now then u.setJob k j.nextStep else u
        | none => u) s3).showStopEnd)) ∧
  -- HOLDOVER_ENTRY (R56, R434)
  (∀ (s : State),
     s.rd R.TAL_STATUS_ROLE = 0 → s.on R.TAL_STATUS_HOLDOVER = false →
     s.tal.lastMarker + usTicks (s.rd R.TAL_CTRL_LOSS_US) ≤ s.now →
     ∃ t, exec .holdoverEntry s = .next t ∧
         t.rd R.TAL_STATUS_HOLDOVER = 1 ∧ t.tal = s.tal) ∧
  -- ALIGN_NOW (R54, R62)
  (∀ (s : State),
     s.planActive = false →
     exec .alignNow s = .next ({ s with tal := { s.tal with alignNow := true } })) ∧
  -- TIME_MAP_SEND (R58)
  (∀ (s : State),
     s.rd R.TAL_STATUS_ROLE = 1 → s.on R.TAL_CTRL_PTP_FOLLOW = true →
     exec .timeMapSend s = .next (s.sendAll 7 false (s.timePkt 1 0).encode ((List.range 4096).filter fun m => s.onAt R.SCH_SVC_ROUTE_VALID m))) ∧
  -- TIME_MAP_RECEIVED (R58)
  (∀ (s : State) (pkt : TimePkt),
     pkt.op = 1 → pkt.tally < 2 ^ 64 → pkt.ptpS < 2 ^ 48 →
     ∃ t, exec (.timeMapReceived pkt) s = .next t ∧
         t.rd R.TAL_MAP_TALLY_TICKS = pkt.tally ∧ t.rd R.TAL_MAP_S_SECONDS = pkt.ptpS) ∧
  -- TIME_QUERY_RECEIVED (R58)
  (∀ (s : State) (source : Nat) (pkt : TimePkt),
     pkt.op = 2 →
     exec (.timeQueryReceived source pkt) s = .next (s.sendService 7 source false (s.timePkt 3 pkt.token).encode)) ∧
  -- TAL_CAPTURE (R62)
  (∀ (s : State),
     ∃ t, exec .talCapture s = .next t ∧
         t.rd R.TAL_CAPTURE_VAL_TICKS = s.now % 2 ^ 64 ∧ t.rd R.PTP_CAPTURE_NS_NS = s.ptpNs % 2 ^ 30) ∧
  -- MARKER_RECEIVED (R53, R54, R56, R57, R285)
  (∀ (s : State) (port : Fin 16) (blk : WireBlock) (arrival : Stamp) (b : LinkBlock) (m : Marker),
     (s.accept port blk).2 = some b → b.type = 6 → Marker.decode b.data = some m → m.hops < 8 →
     (s.accept port blk).1.rd R.TAL_STATUS_ROLE = 0 → (s.accept port blk).1.rd R.TAL_STATUS_UPSTREAM = port.val →
     exec (.markerReceived port blk arrival) s = .next (let u := (s.accept port blk).1.incAt R.HAUL_MARKER_COUNT_RX port
      let u2 : State := { u with tal := { u.tal with lastMarker := u.now, root := m.root, hops := m.hops + 1, rootPtp := bit 3 m.flags } }
      u2.takeMarker (u2.markerOffset port m.tDep (u2.arrives port arrival))))

/-- Vector compares, conversions, tree levels, reductions and Kerf draws: every command of this group completes, and the
state it leaves is as its clause says. Where a clause rests on a choice of the model the choice is in log entry 3 (which
states an event needs) and log entries 22, 42, 43, 44, 45, 149 and 150. -/
def Obligations.VectorFormsRun : Prop :=
  -- VCMP (R170)
  (∀ (s u q : State) (i : Issue) (v : VecSlot),
     s.canIssue i (.vector 0x10 v) = true → s.issued i (.vector 0x10 v) = u → u.seen i.bench = q → evenRegs v = true → v.imm.val % 8 < 4 →
     exec (.vcmp i v) s = .next (q.compareReg (q.compareReg u i.bench v 0) i.bench v 1)) ∧
  -- VCVT (R77, R79, R170, R432)
  (∀ (s u : State) (x : Bench) (i : Issue) (v : VecSlot) (k : Coords) (d : Desc) (g f : Format),
     s.canIssue i (.vector 0x30 v) = true → s.issued i (.vector 0x30 v) = u → (u.seen i.bench).benchOf i.bench = x →
     u.desc i.bench (v.imm % 256) = d →
     formatOf d.aFmt = some g → formatOf v.fmt = some f → (roundingOf f v.rm 0).isSome = true →
     exec (.vcvt i v k) s = .next (
      let out := (List.range 128).map fun l =>
        f.encode (u.roundingAt f i.bench v.rm d.stream k (l / 32) (l % 32)) (g.decode (x.lane v.s1 l))
      (u.putLanes i.bench v.dst (x.pred v.pred) out).countSr i.bench v.rm (activeOf (x.pred v.pred) (List.range 128)).length)) ∧
  -- VCVB (R70, R170)
  (∀ (s u : State) (x : Bench) (i : Issue) (v : VecSlot) (scaleOff : Nat) (k : Coords) (d : Desc) (f : Format),
     s.canIssue i (.vector 0x31 v) = true → s.issued i (.vector 0x31 v) = u → (u.seen i.bench).benchOf i.bench = x →
     u.desc i.bench (v.imm % 256) = d →
     formatOf v.fmt = some f → f.scalable = true → (roundingOf f v.rm 0).isSome = true →
     spansFit [(128 * d.outScale + scaleOff, 4)] = true →
     exec (.vcvb i v scaleOff k) s = .next (
      let blocks := (List.range 4).map fun g => encodeBlock f ((List.range 32).map fun l =>
        (x.lane v.s1 (32 * g + l), u.roundingAt f i.bench v.rm d.stream k g l))
      ((u.putLanes i.bench v.dst (x.pred v.pred) (blocks.map Prod.snd).flatten).countSr i.bench v.rm
        (activeOf (x.pred v.pred) (List.range 128)).length).putStore i.bench
        (128 * d.outScale + scaleOff) (blocks.map fun x => BitVec.ofNat 8 x.1))) ∧
  -- VTLV (R85, R86)
  (∀ (s u q : State) (x : Bench) (i : Issue) (v : VecSlot) (head : Nat) (tree : Fin 65536) (level : Fin 12) (ecc : Ecc) (e : Ensemble),
     s.canIssue i (.vector 0x40 v) = true → s.issued i (.vector 0x40 v) = u → u.seen i.bench = q → q.benchOf i.bench = x →
     q.ensemble? i.bench head = some e →
     head + 8 ≤ storeSize → treeAt head e tree + 8 * level.val + 8 ≤ storeSize → ecc = .clean →
     exec (.vtlv i v head tree level ecc) s = .next (
      let entry := leNat (q.store i.bench (treeAt head e tree + 8 * level) 8)
      u.putLanes i.bench v.dst (x.pred v.pred) ((List.range 128).map fun l =>
        silentLane (x.lane v.dst l % 2 ^ level.val
          + flag (levelBit (e.keyFmt == 7) entry (x.lane v.s1 l)) * 2 ^ level.val)))) ∧
  -- VTLF (R85, R86, R87)
  (∀ (s u q : State) (x : Bench) (i : Issue) (v : VecSlot) (head : Nat) (tree : Fin 65536) (ecc : Ecc) (e : Ensemble),
     s.canIssue i (.vector 0x41 v) = true → s.issued i (.vector 0x41 v) = u → u.seen i.bench = q → q.benchOf i.bench = x →
     q.ensemble? i.bench head = some e → head + 8 ≤ storeSize →
     (∀ l < 128, treeAt head e tree + 8 * e.depth + 4 * (x.lane v.s1 l % 2 ^ e.depth) + 4 ≤ storeSize) → ecc = .clean →
     exec (.vtlf i v head tree ecc) s = .next (
      let leaves := (List.range 128).map fun l =>
        leNat (q.store i.bench (treeAt head e tree + 8 * e.depth + 4 * (x.lane v.s1 l % 2 ^ e.depth)) 4)
      let y := (u.benchOf i.bench).addLeaves v.dst (x.pred v.pred) 0 leaves
      if e.leafFmt = 10 then u.putLanes i.bench v.dst (x.pred v.pred) (leaves.map silentLane)
      else (u.setBench i.bench y).putLanes i.bench v.dst (x.pred v.pred) ((y.scores v.dst e).map silentLane))) ∧
  -- VRED (R125, R170, R174)
  (∀ (s u q : State) (i : Issue) (v : VecSlot) (first : Nat) (r : Reduction),
     s.canIssue i (.vector 0x48 v) = true → s.issued i (.vector 0x48 v) = u → u.seen i.bench = q →
     u.reduction? (u.issuer i.bench) (u.desc i.bench (v.imm % 256)).reduction = some r →
     exec (.vred i v first) s = .next ((List.range 4).foldl (fun u g => q.putLeaf u i.bench v r first g) u)) ∧
  -- VKRF (R130, R131, R132)
  (∀ (s u : State) (x : Bench) (i : Issue) (v : VecSlot) (k : Coords) (r : KerfStream),
     s.canIssue i (.vector 0x50 v) = true → s.issued i (.vector 0x50 v) = u → (u.seen i.bench).benchOf i.bench = x →
     u.stream (u.issuer i.bench) (u.desc i.bench (v.imm % 256)).stream = r →
     exec (.vkrf i v k) s = .next (u.putLanes i.bench v.dst (x.pred v.pred) ((List.range 128).map fun l =>
        kerfUse r (u.draw r k (k.base + x.lane v.s1 l)) (x.lane v.s2 l))))

/-- Matrix operations: every command of this group completes, and the state it leaves is as its clause says. Where a
clause rests on a choice of the model the choice is in log entry 3 (which states an event needs) and log entries 39, 40,
41 and 149. -/
def Obligations.MatrixOpsRun : Prop :=
  -- MGR (R71, R74, R169)
  (∀ (s u q : State) (i : Issue) (m : MatSlot) (l : TileLayout) (present : Fin 33) (ecc : Ecc) (d : Desc) (tl : Tile),
     s.canIssue i (.matrix 1 m) = true → s.issued i (.matrix 1 m) = u → u.seen i.bench = q →
     u.desc i.bench m.desc = d → tileOf d = some tl →
     d.form ≠ 2 → spansFit (denseSpans d tl m l) = true → ecc = .clean →
     ∃ t, exec (.mgr i m l present ecc) s = .next t ∧
         t.mem = u.mem ∧
         (t.benchOf i.bench).grains = ((u.benchOf i.bench).mapTile m tl.rows (fun r => r / 32) fun r c _ =>
      let f := q.denseFeed i.bench d tl m l
      if tl.exact then f.exactGrain present r c Grain.empty else f.orderedGrain d.pair present r c).grains) ∧
  -- MGB (R94, R95, R169)
  (∀ (s u q : State) (i : Issue) (m : MatSlot) (l : TileLayout) (axis : Nat) (ecc : Ecc) (d : Desc) (tl : Tile) (all : List Nat)
     (blocks : List (Nat × Nat)),
     s.canIssue i (.matrix 2 m) = true → s.issued i (.matrix 2 m) = u → u.seen i.bench = q →
     u.desc i.bench m.desc = d → tileOf d = some tl →
     d.form = 2 → q.presentBlocks i.bench d axis = all →
     ((all.filter fun k => Tab.get 0 (64 * m.desc.val + m.acc.val) (u.benchOf i.bench).pass ≤ k).take 2).map
       (fun k => (k, (all.filter (· < k)).length)) = blocks →
     spansFit ((128 * d.bitmap, 8 * ceilDiv axis 1024) :: (blocks.map fun x => blockSpans d tl m l x.1 x.2).flatten) = true →
     ecc = .clean →
     ∃ t, exec (.mgb i m l axis ecc) s = .next t ∧
         t.mem = u.mem ∧
         (t.benchOf i.bench).grains = (((blocks.map fun x => (x.1, q.blockFeed i.bench d tl m l x.1 x.2)).foldl (fun v x =>
           v.takeBlock i.bench tl m axis all x.1 x.2) u).benchOf i.bench).grains) ∧
  -- MPA (R73, R169)
  (∀ (s u q : State) (i : Issue) (m : MatSlot) (l : TileLayout) (half : Fin 2) (ecc : Ecc) (d : Desc) (tl : Tile),
     s.canIssue i (.matrix 3 m) = true → s.issued i (.matrix 3 m) = u → u.seen i.bench = q →
     u.desc i.bench m.desc = d → tileOf d = some tl →
     tl.exact = true → spansFit (tileSpans tl l m.a 256) = true → ecc = .clean →
     ∃ t, exec (.mpa i m l half ecc) s = .next t ∧
         t.mem = u.mem ∧
         (t.benchOf i.bench).grains = ((u.benchOf i.bench).mapTile m tl.rows (halfOf d half) fun r c g =>
        g.addPartial (leNat (q.store i.bench (128 * m.a + r * l.outRow + 16 * c) 16))).grains) ∧
  -- MCV (R70, R75, R76, R79, R169)
  (∀ (s u q : State) (i : Issue) (m : MatSlot) (l : TileLayout) (half : Fin 2) (k : Coords) (ecc : Ecc) (d : Desc) (tl : Tile) (f : Format),
     s.canIssue i (.matrix 4 m) = true → s.issued i (.matrix 4 m) = u → u.seen i.bench = q →
     u.desc i.bench m.desc = d → tileOf d = some tl →
     formatOf d.outFmt = some f → (roundingOf f d.rm 0).isSome = true →
     spansFit (((q.tileOut i.bench d tl m l f half k).writes.map fun x => (x.1, x.2.length)) ++ scaleSpans d tl l) = true → ecc = .clean →
     exec (.mcv i m l half k ecc) s = .next (
      let out := q.tileOut i.bench d tl m l f half k
      (((out.writes.foldl (fun v x => v.putStore i.bench x.1 x.2) u).countNum i.bench out.events).countSr i.bench
        (if d.pair then 0 else d.rm) (resultCount d tl)).countMatrix i.bench)) ∧
  -- MXP (R73, R169)
  (∀ (s u : State) (x : Bench) (i : Issue) (m : MatSlot) (l : TileLayout) (half : Fin 2) (d : Desc) (tl : Tile),
     s.canIssue i (.matrix 5 m) = true → s.issued i (.matrix 5 m) = u → (u.seen i.bench).benchOf i.bench = x →
     u.desc i.bench m.desc = d → tileOf d = some tl →
     tl.exact = true → spansFit (tileSpans tl l m.b 256) = true →
     exec (.mxp i m l half) s = .next (
      ((List.range tl.rows).foldl (fun v r => v.putStore i.bench (128 * m.b + r * l.outRow)
        (((List.range 16).map fun c => leBytes 16 (x.grain (accOf m r c) (halfOf d half r)).partialBits).flatten)) u).countMatrix
        i.bench))

/-- Loads, stores, copies, mesh transfers, table refills and scrub: every command of this group completes, and the state
it leaves is as its clause says. Where a clause rests on a choice of the model the choice is in log entry 3 (which
states an event needs) and log entries 35, 46 and 47. -/
def Obligations.MoveOpsRun : Prop :=
  -- VLD (R171)
  (∀ (s u q : State) (i : Issue) (m : MovSlot) (ecc : Ecc),
     s.canIssue i (.move 1 m) = true → s.issued i (.move 1 m) = u → u.seen i.bench = q →
     128 * m.addr.val + 512 ≤ storeSize → ecc = .clean →
     exec (.vld i m ecc) s = .next (u.setBench i.bench ((u.benchOf i.bench).setLanes m.vreg allLanes 0
      (lanesOf (q.store i.bench (128 * m.addr) 512) 128)))) ∧
  -- VST (R171)
  (∀ (s u q : State) (i : Issue) (m : MovSlot),
     s.canIssue i (.move 2 m) = true → s.issued i (.move 2 m) = u → u.seen i.bench = q → 128 * m.addr.val + 512 ≤ storeSize →
     exec (.vst i m) s = .next (u.putStore i.bench (128 * m.addr) ((((q.benchOf i.bench).lanes m.vreg).map (leBytes 4)).flatten))) ∧
  -- COPY (R2, R171)
  (∀ (s u q : State) (i : Issue) (m : MovSlot) (ecc : Ecc),
     s.canIssue i (.move 3 m) = true → s.issued i (.move 3 m) = u → u.seen i.bench = q →
     128 * m.addr.val + 128 * (m.id.val + 1) ≤ storeSize →
     128 * m.addr2.val + 128 * (m.id.val + 1) ≤ storeSize → ecc = .clean →
     exec (.copy i m ecc) s = .next (u.putStore i.bench (128 * m.addr2) (q.store i.bench (128 * m.addr) (128 * (m.id.val + 1))))) ∧
  -- MSND (R43, R171)
  (∀ (s u q : State) (i : Issue) (m : MovSlot) (ecc : Ecc) (r : MeshRoute),
     s.canIssue i (.move 4 m) = true → s.issued i (.move 4 m) = u → u.seen i.bench = q → u.meshRoute? i.bench m.id = some r →
     128 * m.addr.val + r.length ≤ storeSize → ecc = .clean →
     ∃ t, exec (.msnd i m ecc) s = .next t ∧
         t.mem = u.mem ∧ Tab.find? m.id.val (t.benchOf i.bench).handed = some (q.store i.bench (128 * m.addr) r.length) ∧
         Tab.find? (256 * i.bench.val + m.id.val) t.clk.flits = some r.start) ∧
  -- MRCV (R171)
  (∀ (s : State) (i : Issue) (m : MovSlot),
     s.canIssue i (.move 5 m) = true →
     ∃ t, exec (.mrcv i m) s = .next t ∧
         t.mem = s.mem ∧ Tab.find? m.id.val (t.benchOf i.bench).bound = some (128 * m.addr.val)) ∧
  -- GWIN (R47, R171, R199)
  (∀ (s u : State) (i : Issue) (m : MovSlot) (d : GatherDesc),
     s.canIssue i (.move 6 m) = true → s.issued i (.move 6 m) = u → u.windowOf? i.bench m.id = some d →
     (u.scr.started.contains (windowKey d) = false →
       (∀ g, Tab.find? (windowKey d) u.scr.windows = some g → g.list = none) →
       exec (.gwin i m) s = .next ((u.setGather d (some (Gather.bound m.addr (u.ctxPos d.ctx / 16 + 1 - d.start)))).lateGwin
         i.bench d (u.ctxPos d.ctx / 16 + 1 - d.start))) ∧
     (u.scr.started.contains (windowKey d) = true →
       exec (.gwin i m) s = .next { u with scr := { u.scr with ahead := Tab.ins (windowKey d) m.addr.val u.scr.ahead } })) ∧
  -- ZFILL (R171)
  (∀ (s u : State) (i : Issue) (m : MovSlot),
     s.canIssue i (.move 7 m) = true → s.issued i (.move 7 m) = u → 128 * m.addr.val + 128 * (m.id.val + 1) ≤ storeSize →
     exec (.zfill i m) s = .next (u.putStore i.bench (128 * m.addr) (zeros (128 * (m.id.val + 1))))) ∧
  -- BREF (R171, R175)
  (∀ (s u q : State) (i : Issue) (m : MovSlot) (ecc : Ecc),
     s.canIssue i (.move 8 m) = true → s.issued i (.move 8 m) = u → u.seen i.bench = q →
     128 * m.addr.val + 8192 ≤ storeSize → ecc = .clean →
     ∃ t, exec (.bref i m ecc) s = .next t ∧
         t.mem = u.mem ∧
         (t.benchOf i.bench).code = ((u.benchOf i.bench).setCode (8192 * (m.id.val % 16)) (q.store i.bench (128 * m.addr) 8192)).code) ∧
  -- BREF_DONE (R175)
  (∀ (s : State) (bench : Fin 792) (page : Fin 16),
     Tab.get 0 page.val (s.benchOf bench).refills ≤ s.now →
     exec (.brefDone bench page) s = .next (
      (s.setBench bench { s.benchOf bench with refills := Tab.del page (s.benchOf bench).refills }).setBusy bench page false)) ∧
  -- MESH_TRANSFER_COMPLETE (R43, R171, R173)
  (∀ (s : State) (bench : Fin 792) (route : Fin 256) (r : MeshRoute) (data : List Byte) (a : Nat),
     s.meshRoute? bench route = some r → Tab.find? route.val (s.benchOf bench).handed = some data →
     Tab.find? r.bind (s.benchOf (s.physical r.dest)).bound = some a → s.meshArrived bench route r = true →
     exec (.meshTransferComplete bench route) s = .next (
      let u := s.setBench bench { s.benchOf bench with handed := Tab.del route (s.benchOf bench).handed }
      (u.setStore (s.physical r.dest) a data).bumpCounter (s.physical r.dest) r.counter))

/-- Control slots: waits, jumps, loops, counters, forks, backfill and tags: every command of this group completes, and
the state it leaves is as its clause says. Where a clause rests on a choice of the model the choice is in log entry
3 (which states an event needs) and log entries 17, 19, 20 and 38. -/
def Obligations.ControlSlotsRun : Prop :=
  -- BEAT (R47, R173)
  (∀ (s u : State) (i : Issue) (c : CtlSlot),
     s.canIssue i (.control 1 c) = true → s.issued i (.control 1 c) = u →
     exec (.beat i c) s = .next (if 0 < (u.benchOf i.bench).behind
       then u.setBench i.bench { u.benchOf i.bench with behind := (u.benchOf i.bench).behind - 1 } else u.waits i.bench .beat)) ∧
  -- STEP (R173)
  (∀ (s : State) (i : Issue) (c : CtlSlot),
     s.canIssue i (.control 2 c) = true →
     exec (.step i c) s = .next ((s.issued i (.control 2 c)).waits i.bench .step)) ∧
  -- JUMP (R173)
  (∀ (s : State) (i : Issue) (c : CtlSlot),
     s.canIssue i (.control 3 c) = true →
     ∃ t, exec (.jump i c) s = .next t ∧
         (t.benchOf i.bench).next = c.target.val ∧ t.mem = s.mem) ∧
  -- LSET (R173)
  (∀ (s : State) (i : Issue) (c : CtlSlot),
     s.canIssue i (.control 4 c) = true →
     ∃ t, exec (.lset i c) s = .next t ∧
         Tab.get 0 (c.arg.val % 16) (t.benchOf i.bench).loops = c.imm.val) ∧
  -- LOOP (R173)
  (∀ (s : State) (i : Issue) (c : CtlSlot) (n : Nat),
     s.canIssue i (.control 5 c) = true →
     Tab.get 0 (c.arg.val % 16) ((s.issued i (.control 5 c)).benchOf i.bench).loops = n + 1 →
     ∃ t, exec (.loop i c) s = .next t ∧
         Tab.get 0 (c.arg.val % 16) (t.benchOf i.bench).loops = n ∧ (t.benchOf i.bench).next = c.target.val) ∧
  -- CSET (R173)
  (∀ (s : State) (i : Issue) (c : CtlSlot),
     s.canIssue i (.control 6 c) = true →
     ∃ t, exec (.cset i c) s = .next t ∧
         t.counter i.bench (c.arg.val % 64) = c.imm.val) ∧
  -- WAITC (R168, R173)
  (∀ (s : State) (i : Issue) (c : CtlSlot),
     s.canIssue i (.control 7 c) = true →
     exec (.waitc i c) s = .next (let u := s.issued i (.control 7 c)
      if c.imm ≤ u.counter i.bench (c.arg % 64) then u
      else (u.lateBench i.bench 0).waits i.bench (.counter (c.arg % 64) c.imm))) ∧
  -- FDEC (R111, R173)
  (∀ (s u q : State) (i : Issue) (c : CtlSlot) (f : ForkPoint),
     s.canIssue i (.control 8 c) = true → c.imm.val < 2 ^ 13 → s.issued i (.control 8 c) = u → u.seen i.bench = q →
     u.fork? c.arg = some f →
     exec (.fdec i c) s = .next (u.forkDecides f ((q.benchOf i.bench).lane (c.imm % 64) (c.imm / 64 % 128)))) ∧
  -- FORK (R173)
  (∀ (s : State) (i : Issue) (c : CtlSlot),
     s.canIssue i (.control 9 c) = true →
     (∀ f, (s.issued i (.control 9 c)).fork? c.arg = some f → (s.issued i (.control 9 c)).variantRuns f = false) →
     exec (.fork i c) s = .next ((s.issued i (.control 9 c)).waits i.bench (.fork c.arg c.target))) ∧
  -- FORK (R47, R113, R173)
  (∀ (s u : State) (i : Issue) (c : CtlSlot) (f : ForkPoint) (w : Nat),
     s.canIssue i (.control 9 c) = true → s.issued i (.control 9 c) = u → u.fork? c.arg = some f →
     (u.forkRun c.arg).word = some w → u.variantRuns f = true →
     exec (.fork i c) s = .next (u.catchUp i.bench (c.target + 8 * variantOf f w))) ∧
  -- BKFL (R117, R173)
  (∀ (s : State) (i : Issue) (c : CtlSlot),
     s.canIssue i (.control 10 c) = true →
     (∀ f, (s.issued i (.control 10 c)).fork? c.arg = some f → ((s.issued i (.control 10 c)).forkRun f.number).ended = false) →
     ∃ t, exec (.bkfl i c) s = .next t ∧
         (t.benchOf i.bench).backfill = some (c.arg.val, c.target.val, (c.imm % 4096 : Nat))) ∧
  -- TAGR (R141, R142, R146, R173)
  (∀ (s u q : State) (i : Issue) (c : CtlSlot) (t : TagInput) (ecc : Ecc) (x : Nat),
     s.canIssue i (.control 11 c) = true → 128 * (c.imm.val % 16384) + 16 * c.arg.val ≤ storeSize → ecc = .clean →
     s.issued i (.control 11 c) = u → u.seen i.bench = q → u.rdAt R.BCH_SEQ_STATUS_CTX i.bench = x →
     (bit (s.rdAt R.BCH_SEQ_STATUS_CTX i.bench) (s.rd R.GEN_PROV_EN) = true → s.tagFits 1 = true) →
     bit x (u.rd R.GEN_PROV_EN) = true → u.intake? x = none → (u.readSpans x t.samples).2 = true →
     exec (.tagr i c t ecc) s = .next (
      let v := (u.readSpans x t.samples).1
      let old := match Tab.find? x v.gen.stepTags with | some l => l | none => []
      let w := v.count 6103 1
      ({ w with gen := { w.gen with
        stepTags := Tab.ins x (old ++ [w.stepTag x t (q.store i.bench (128 * (c.imm % 16384)) (16 * c.arg))]) w.gen.stepTags } }).tagRoom 0)) ∧
  -- TAGR (R146)
  (∀ (s : State) (i : Issue) (c : CtlSlot) (t : TagInput) (ecc : Ecc),
     s.canIssue i (.control 11 c) = true → bit (s.rdAt R.BCH_SEQ_STATUS_CTX i.bench) (s.rd R.GEN_PROV_EN) = true →
     s.tagFits 1 = false →
     exec (.tagr i c t ecc) s = .next (s.tagRoom 1)) ∧
  -- BENCH_SCRUB (R88, R89)
  (∀ (s : State) (bench : Fin 792) (ecc : Ecc) (n : Nat),
     ecc = .clean → (s.scrubNext (32 + bench.val) (storeSize / 8)).2.2 = some n → n < 2 ^ 32 →
     ∃ t, exec (.benchScrub bench ecc) s = .next t ∧
         t.rdAt R.BCH_SCRUB_LAST_PASS bench = n ∧
         t.rdAt R.BCH_SCRUB_PASSES bench = min (s.rdAt R.BCH_SCRUB_PASSES bench + 1) R.BCH_SCRUB_PASSES.max ∧ t.mem = s.mem)

/-- Haul slots and scheduled transfers: every command of this group completes, and the state it leaves is as its clause
says. Where a clause rests on a choice of the model the choice is in log entry 3 (which states an event needs) and
log entries 37, 55 and 56. -/
def Obligations.HaulSlotsAndScheduleRun : Prop :=
  -- HPUT (R106, R120, R172)
  (∀ (s u q : State) (i : Issue) (h : HaulSlot) (overflow : Nat) (ecc : Ecc) (e : SchedEntry),
     s.canIssue i (.haul 1 h) = true → s.issued i (.haul 1 h) = u → u.seen i.bench = q → u.haulEntry? h = some e →
     128 * h.addr.val + e.length ≤ storeSize → ecc = .clean →
     exec (.hput i h overflow ecc) s = .next (
      (if e.slot then u.countFilled (leNat (q.store i.bench (128 * h.addr) 16)) overflow else u).sendReady i.bench (entryKey h.port h.entry)
        (some (benchBase i.bench + 128 * h.addr)) none)) ∧
  -- HGET (R172)
  (∀ (s : State) (i : Issue) (h : HaulSlot),
     s.canIssue i (.haul 2 h) = true →
     exec (.hget i h) s = .next ((s.issued i (.haul 2 h)).bindRecv (entryKey h.port h.entry) (benchBase i.bench + 128 * h.addr))) ∧
  -- HVOD (R107, R172)
  (∀ (s u : State) (i : Issue) (h : HaulSlot) (group : Fin 4096) (slot : Fin 65536) (e : SchedEntry),
     s.canIssue i (.haul 3 h) = true → s.issued i (.haul 3 h) = u → u.haulEntry? h = some e →
     exec (.hvod i h group slot) s = .next (
      (u.addAt R.FRK_CAP_VOID_COUNT 0 1).sendReady i.bench (entryKey h.port h.entry) none
        (some (slotBytes 1 group slot (u.step32 ((u.groupCtx? group).getD e.ctx)) 0xFFFFFFFF)))) ∧
  -- SEND_DEPARTURE (R302)
  (∀ (s : State) (port : Fin 16) (entry : Fin 32768) (j : Job) (e : SchedEntry) (x : SendState),
     s.job? 7 = some j → j.entry? (entryKey port entry) = some e → e.type = .send → s.ctxRunning e.ctx = true →
     s.due e.ctx e.tick = true → s.variantActive e.ctx (if e.forkEn then some e.fork else none) e.variants = true →
     s.sendState (entryKey port entry) = x → x.sent = false → x.noPath = false → x.late = false →
     s.sendBefore j (entryKey port entry) e = false →
     exec (.sendDeparture port entry) s = .next (if x.ready then s.departEntry j (entryKey port entry) e
      else ((s.count (5792 + 16 * port.val + 11) 1).setSend (entryKey port entry) { x with late := true }).lateBench
        ((s.count (5792 + 16 * port.val + 11) 1).setSend (entryKey port entry) { x with late := true } |>.physical e.bench) 0)) ∧
  -- FORWARD_DEPARTURE (R303, R343)
  (∀ (s : State) (port : Fin 16) (entry : Fin 32768) (b : HeldBlock) (j : Job),
     s.nextForward port entry = some (b, j) → s.shareSpent j port = false →
     exec (.forwardDeparture port entry) s = .next ((((({ s with sch := { s.sch with held := s.sch.held.erase b } } : State).noteBegun b.slot
      (entryKey port entry)).useShare j port).count (5792 + 16 * port.val + 8) 1).departOn port [b.data.encode])) ∧
  -- DETOUR_DEPARTURE (R310)
  (∀ (s : State) (port : Fin 16) (entry : Fin 32768) (j : Job) (e : SchedEntry),
     s.job? 7 = some j → j.entry? (entryKey port entry) = some e → s.due e.ctx e.tick = true →
     exec (.detourDeparture port entry) s = .next ((j.sched.entries.filter fun x => x.2.type == .send && (s.sendState x.1).resend &&
        (match j.path? x.1 x.2 (s.sendState x.1).path with | some y => y.2.1 == entryKey port entry | none => false)).foldl
      (fun s x => (s.setSend x.1 { s.sendState x.1 with resend := false }).departOn port
        (s.entryBlocks x.2 (s.sendState x.1) e.route (s.sendState x.1).path)) s)) ∧
  -- RECV_DEADLINE_CHECK (R308)
  (∀ (s : State) (port : Fin 16) (entry : Fin 32768) (j : Job) (e : SchedEntry),
     s.job? 7 = some j → j.entry? (entryKey port entry) = some e → e.type = .recv → s.ctxRunning e.ctx = true →
     s.due e.ctx e.tick = true → s.variantActive e.ctx (if e.forkEn then some e.fork else none) e.variants = true →
     (s.recvState (entryKey port entry)).fails = 0 → (s.recvState (entryKey port entry)).done = false →
     exec (.recvDeadlineCheck port entry) s = .next (s.deadlineFailed j (entryKey port entry) e)) ∧
  -- REPEATED_DEADLINE_CHECK (R313)
  (∀ (s : State) (port : Fin 16) (entry : Fin 32768) (j : Job) (e : SchedEntry) (n : Nat),
     s.job? 7 = some j → j.entry? (entryKey port entry) = some e →
     (s.recvState (entryKey port entry)).recheck = some n → n ≤ s.now → s.ctxRunning e.ctx = true →
     (s.recvState (entryKey port entry)).done = false →
     exec (.repeatedDeadlineCheck port entry) s = .next (s.deadlineFailed j (entryKey port entry) e))

/-- Fork decisions, deadlines, commits and rejoins: every command of this group completes, and the state it leaves is as
its clause says. Where a clause rests on a choice of the model the choice is in log entry 3 (which states an event
needs) and log entry 36. -/
def Obligations.ForkRulesRun : Prop :=
  -- FORK_DECISION_SEND (R106, R111, R310)
  (∀ (s : State) (port : Fin 16) (entry : Fin 32768) (fork : Fin 4096) (j : Job) (f : ForkPoint) (e : SchedEntry) (w path : Nat),
     s.job? 7 = some j → s.fork? fork = some f → j.entry? (entryKey port entry) = some e →
     (s.forkRun fork).word = some w → e.type = .send → s.ctxRunning e.ctx = true → s.due e.ctx e.tick = true →
     (s.sendState (entryKey port entry)).sent = false → (s.sendState (entryKey port entry)).noPath = false →
     (s.forkRun fork).sent < 64 → s.openPath j (entryKey port entry) e = some path →
     exec (.forkDecisionSend port entry fork) s = .next (
      ((s.setFork fork { s.forkRun fork with sent := (s.forkRun fork).sent + 1 }).setSend (entryKey port entry)
        { s.sendState (entryKey port entry) with decision := some (slotBytes 3 f.number 0 (s.step32 f.ctx) w) }).departEntry j
        (entryKey port entry) e)) ∧
  -- FORK_DECISION_RECEIVED (R112, R119)
  (∀ (s : State) (header : Nat) (f : ForkPoint),
     headerOk (beBytes 16 header) = true → beAt 0 1 (beBytes 16 header) / 16 = 3 →
     s.fork? (beAt 0 2 (beBytes 16 header) % 4096) = some f → s.ctxRunning f.ctx = true →
     beAt 4 4 (beBytes 16 header) = s.step32 f.ctx → (s.forkRun f.number).word = none →
     exec (.forkDecisionReceived header) s = .next (s.latchDecision f (beAt 8 4 (beBytes 16 header)))) ∧
  -- FORK_DEADLINE_CHECK (R119)
  (∀ (s : State) (fork : Fin 4096) (f : ForkPoint),
     s.fork? fork = some f → s.forkDue f = true → (s.forkRun fork).committed = false → (s.forkRun fork).word = none →
     (s.forkRun fork).holds < s.rd R.FRK_CTRL_MAX_HOLDS →
     exec (.forkDeadlineCheck fork) s = .next (let u := ((s.inc R.FRK_COUNT_LATE).wr R.FRK_EVENT_LATE 1).wrAt R.FRK_FORK_STATUS_LATE fork 1
      let v := u.setFork fork { s.forkRun fork with holds := (s.forkRun fork).holds + 1, recheck := some (u.attemptSpan f.ctx).2 }
      ((v.inc R.FRK_COUNT_HOLDS).wrAt R.FRK_FORK_STATUS_HOLDS fork ((s.forkRun fork).holds + 1)).holdRequest 1 3)) ∧
  -- FORK_COMMIT (R113, R119)
  (∀ (s : State) (fork : Fin 4096) (f : ForkPoint) (w : Nat),
     s.fork? fork = some f → s.ctxRunning f.ctx = true → s.due f.ctx f.k = true → s.ctxPos f.ctx < f.j →
     (s.forkRun fork).committed = false → (s.forkRun fork).word = some w →
     exec (.forkCommit fork) s = .next (let u := (s.setFork fork { s.forkRun fork with committed := true, ended := false }).trace 1 7 5 fork f.ctx
      let v := (u.benchesOf f.ctx).foldl (fun s b => s.forkTaken b fork (variantOf f w)) u
      (v.wrAt R.FRK_VARIANT_COUNT_COUNT (variantOf f w) (v.rdAt R.FRK_VARIANT_COUNT_COUNT (variantOf f w) + 1)).showPending)) ∧
  -- FORK_VARIANT_END (R113, R117)
  (∀ (s : State) (fork : Fin 4096) (f : ForkPoint) (w : Nat),
     s.fork? fork = some f → (s.forkRun fork).word = some w → (s.forkRun fork).committed = true → (s.forkRun fork).ended = false →
     s.due f.ctx (f.ends.getD (variantOf f w) f.j) = true →
     exec (.forkVariantEnd fork) s = .next (let u := s.setFork fork { s.forkRun fork with ended := true }
      (u.benchesOf f.ctx).foldl (fun s b => s.backfillStarts f (f.ends.getD (variantOf f w) f.j) b) u)) ∧
  -- FORK_REJOIN (R113)
  (∀ (s : State) (fork : Fin 4096) (f : ForkPoint),
     s.fork? fork = some f → (s.forkRun fork).committed = true → s.due f.ctx f.j = true →
     exec (.forkRejoin fork) s = .next (let u := s.setFork fork { s.forkRun fork with committed := false, ended := true }
      (u.benchesOf f.ctx).foldl (fun s b => s.backfillEnds b fork) u))

/-- Strict mode changes and seals: every command of this group completes, and the state it leaves is as its clause says.
Where a clause rests on a choice of the model the choice is in log entry 3 (which states an event needs) and log entries
17 and 146. -/
def Obligations.ModesAndSealsRun : Prop :=
  -- GEN_MODE_ARM (R133)
  (∀ (s : State),
     s.planActive = false → s.last R.GEN_MODE_AT_AT % 16 = 0 → s.now < s.last R.GEN_MODE_AT_AT →
     s.last R.GEN_MODE_NEXT_STRICT = 1 →
     exec .genModeArm s = .next (s.armMode)) ∧
  -- GEN_MODE_DISARM (R148)
  (∀ (s : State),
     s.rd R.GEN_MODE_NEXT_STATE = 1 → s.modeReady = false → (4, 0) ∉ s.olc.applied →
     exec .genModeDisarm s = .next ((s.dropChange 4 0).wr R.GEN_MODE_NEXT_STATE 0)) ∧
  -- GEN_MODE_DISARM (R148, R369)
  (∀ (s : State),
     s.rd R.GEN_MODE_NEXT_STATE = 1 → s.modeReady = true →
     exec .genModeDisarm s = .next (s.wr R.GEN_EVENT_MODE_REFUSED 1)) ∧
  -- MODE_CHANGE_EFFECT (R133, R143)
  (∀ (s : State),
     s.rd R.GEN_MODE_NEXT_STATE = 1 → s.planActive = false → s.gen.modeAt ≤ s.now → s.gen.modeStrict = true →
     s.rd R.GEN_MODE_STRICT = 0 →
     exec .modeChangeEffect s = .next (((s.wr R.GEN_MODE_NEXT_STATE 0).changeApplied 4 0 0).modeSpans.wr R.GEN_MODE_STRICT 1).fixedRefresh.remark) ∧
  -- SEAL_SIGNED (R145, R146)
  (∀ (s : State) (b : List Byte) (rest : List (List Byte)),
     s.gen.unsigned = b :: rest → s.pwr.dieOn = true →
     exec .sealSigned s = .next ({ s with gen := { s.gen with unsigned := rest } }.handItems [.sealed (sealBytes b)])) ∧
  -- SEAL_CLOSE_NOW (R143, R148)
  (∀ (s : State),
     (Tab.find? (s.rd R.GEN_SEAL_CTRL_CONTEXT) s.gen.spans).isSome = true ∨ s.ctxRunning (s.rd R.GEN_SEAL_CTRL_CONTEXT) = true →
     exec .sealCloseNow s = .next (s.markSpan (s.rd R.GEN_SEAL_CTRL_CONTEXT) (s.currentBatch (s.rd R.GEN_SEAL_CTRL_CONTEXT))))

/-- Staging, verifying, arming and loading a plan: every command of this group completes, and the state it leaves is as
its clause says. Where a clause rests on a choice of the model the choice is in log entry 3 (which states an event
needs) and log entries 26, 66, 67, 68, 99, 118 and 160. -/
def Obligations.PlanStagingRun : Prop :=
  -- PLN_VERIFY (R156, R158, R411)
  (∀ (s : State),
     s.pln.armed = false → s.scr.stageReady = true →
     ∃ t, exec .plnVerify s = .next t ∧
         t.rd R.PLN_STATUS_STAGE = 1 ∧ t.pln.staged = none ∧ t.mem = s.mem) ∧
  -- VERIFY_COMPLETE (R156, R157)
  (∀ (s : State) (reading : PlanReading) (verdict : Fin 15) (sect offset : Nat) (l : List Section) (p : Plan),
     s.rd R.PLN_STATUS_STAGE = 1 → s.stagedSections = l → s.stagedPlan l reading = p →
     ∃ t, exec (.verifyComplete reading verdict sect offset) s = .next t ∧ t.mem = s.mem ∧
         match s.verifyFailure l p reading.facts verdict sect offset with
         | none => t.pln = { s.pln with staged := some p } ∧ t.rd R.PLN_STATUS_STAGE = 2 ∧ t.rd R.PLN_VERIFY_CODE = 0
         | some (code, i, _) => t.pln = s.pln ∧ t.rd R.PLN_STATUS_STAGE = 3 ∧ t.rd R.PLN_EVENT_VERIFY_FAILED = 1 ∧
             t.rd R.PLN_VERIFY_CODE = code % 2 ^ R.PLN_VERIFY_CODE.width ∧ t.rd R.PLN_VERIFY_SECTION = min i 255) ∧
  -- PLN_DISCARD (R158)
  (∀ (s : State),
     s.pln.armed = false →
     ∃ t, exec .plnDiscard s = .next t ∧
         t.rd R.PLN_STATUS_STAGE = 0 ∧ t.rd R.PLN_STAGED_ID_ID = 0 ∧ t.pln.staged = none ∧ t.mem = s.mem) ∧
  -- PLN_ARM (R159, R370)
  (∀ (s : State) (twinFault : Bool) (p : Plan),
     s.pln.staged = some p → p.count ≤ 1 → s.pln.loading = false → s.armCode (s.last R.PLN_ACT_AT_AT) twinFault = 0 →
     exec (.plnArm twinFault) s = .next ({ s with pln := { s.pln with armed := true, actAt := s.last R.PLN_ACT_AT_AT } }.showAct)) ∧
  -- PLN_DISARM (R180)
  (∀ (s : State),
     s.pln.armed = true → s.pln.loading = false → (1, 0) ∉ s.olc.applied → (2, 0) ∉ s.olc.applied →
     (s.pln.stopArmed = true → s.pln.draining = false → s.now < s.pln.stopAt) →
     exec .plnDisarm s = .next (({ s with pln := { s.pln with armed := false } }.dropChange 1 0).showAct)) ∧
  -- PLN_DISARM (R369)
  (∀ (s : State),
     (1, 0) ∈ s.olc.applied ∨ (2, 0) ∈ s.olc.applied →
     exec .plnDisarm s = .next (s.wr R.PLN_EVENT_REFUSED 1)) ∧
  -- LOAD_PHASE_START (R159, R326)
  (∀ (s : State) (p : Plan),
     s.pln.staged = some p → s.pln.armed = true → s.pln.loading = false → s.planActive = false → s.now + 16 ≤ s.pln.actAt →
     s.pwr.dieReset = false →
     ∃ t, exec .loadPhaseStart s = .next t ∧
         t.pln = { s.pln with loading := true } ∧ t.job? 7 = some (Machine.Plan.jobAt p s.pln.actAt) ∧ t.sch.recv = [] ∧ t.sch.sends = []) ∧
  -- ACTIVATION (R37, R159)
  (∀ (s : State) (p : Plan),
     s.pln.staged = some p → s.pln.armed = true → s.pln.loading = true → s.planActive = false → s.now = s.pln.actAt →
     s.pwr.shutdown = .none → s.pwr.dieReset = false →
     ∃ t, exec .activation s = .next t ∧
         t.pln.active = some p ∧ t.pln.armed = false ∧ t.pln.loading = false) ∧
  -- ACTIVATION_FAILED (R160)
  (∀ (s u : State),
     s.pln.armed = true → s.pln.actAt ≤ s.now + 16 → s.armedChange? 1 0 = none → s.unload = u →
     exec .activationFailed s = .next (({ u with pln := { u.pln with armed := false, failed := true } }.wr
      R.PLN_EVENT_ACT_FAILED 1).showAct.startExit 15))

/-- Stopping, draining, aborting and restarting: every command of this group completes, and the state it leaves is as
its clause says. Where a clause rests on a choice of the model the choice is in log entry 3 (which states an event
needs) and log entries 58 and 66. -/
def Obligations.PlanEndRuns : Prop :=
  -- PLN_STOP_ARM (R161)
  (∀ (s : State) (p : Plan),
     s.pln.active = some p → p.count ≤ 1 → s.pln.draining = false → s.last R.PLN_STOP_AT_AT % 16 = 0 →
     s.now < s.last R.PLN_STOP_AT_AT →
     exec .plnStopArm s = .next (({ s with pln := { s.pln with stopArmed := true, stopAt := s.last R.PLN_STOP_AT_AT } }.showAct).showStopEnd)) ∧
  -- DRAIN_END (R161)
  (∀ (s u : State),
     s.pln.draining = true → s.pln.rampDown = none → s.planActive = true →
     s.planCtxs.all (fun x => !s.ctxRunning x.ctx) = true → s.closeSpans = u →
     exec .drainEnd s = .next (({ u with pln := { u.pln with rampDown := some u.nominalTime } }.showStopEnd).showLevel)) ∧
  -- RAMP_DOWN_END (R161)
  (∀ (s : State) (n : Nat),
     s.pln.rampDown = some n → s.timeDue (n + match s.profile with | some f => lastPosition f.down | none => 0) = true →
     exec .rampDownEnd s = .next (s.planGone.detoursGone.wr R.PLN_STOP_END_AT s.now)) ∧
  -- PLN_ABORT (R162)
  (∀ (s : State),
     s.planActive = true →
     exec .plnAbort s = .next ({ s with pln := { s.pln with aborting := true } })) ∧
  -- PLN_CTX_RESTART (R159, R167)
  (∀ (s : State) (p : Plan),
     s.pln.active = some p → p.count ≤ 1 → s.last R.PLN_ACT_AT_AT % 16 = 0 →
     s.now + armLead ≤ s.last R.PLN_ACT_AT_AT → s.ctxRunning (s.rd R.PLN_CTRL_CTX) = false →
     (s.ctx? (s.rd R.PLN_CTRL_CTX)).isSome = true → s.pln.draining = false →
     s.ctxReady p (s.rd R.PLN_CTRL_CTX) = true →
     exec .plnCtxRestart s = .next ({ s with pln := { s.pln with restarts := Tab.ins (s.rd R.PLN_CTRL_CTX) (s.last R.PLN_ACT_AT_AT) s.pln.restarts } })) ∧
  -- CONTEXT_RESUME (R37, R167)
  (∀ (s : State) (ctx : Fin 16) (p : Plan) (r : CtxRun) (n : Nat),
     s.pln.active = some p → s.ctx? ctx = some r → Tab.find? ctx.val s.pln.restarts = some n → n ≤ s.now →
     r.start = s.now → r.running = false → s.pwr.shutdown = .none →
     exec (.contextResume ctx) s = .next (({ s with pln := { s.pln with restarts := Tab.del ctx s.pln.restarts } }.resumeCtx p ctx r).changeApplied 3 ctx 0)) ∧
  -- CONTEXT_RESET (R167)
  (∀ (s : State) (ctx : Fin 16),
     s.planActive = true → (s.ctx? ctx).isSome = true →
     exec (.contextReset ctx) s = .next (if s.now % 16 = 0 then s.contextReset ctx
      else { s with pln := { s.pln with resetting := addOnce ctx s.pln.resetting } }))

/-- Memory windows, service access, refresh, temperature, scrub and training: every command of this group completes, and
the state it leaves is as its clause says. Where a clause rests on a choice of the model the choice is in log entry 3
(which states an event needs) and log entries 32, 33, 34, 96 and 153. -/
def Obligations.MemoryRuns : Prop :=
  -- GATHER_WINDOW_COMPLETE (R43, R173, R199)
  (∀ (s : State) (index : Nat) (counter : Fin 64) (ecc : MemEcc) (d : GatherDesc) (g : Gather),
     s.memPlan.windows[index]? = some d → Tab.find? (windowKey d) s.scr.windows = some g → g.moved = true →
     s.ctxRunning d.ctx = true → s.due d.ctx (s.windowEnd d g) = true → (g.early = true ∨ s.windowPassed d g = true) →
     exec (.gatherWindowComplete index counter ecc) s = .next (
      let u := ((s.endWindow index d g).setGather d none).trace 4 (ctrlField d.ctrl) (if d.ctrl < 20 then 6 else 7) d.id d.ctx
      let v := if d.ctrl < 20 then u.inc R.HBM_GATHER_WINDOWS else u
      if v.engineWindow d ∧ (v.windowRegion d).kind = 3 then v
      else v.bumpCounter (v.physical d.bench) ((v.windowCounter index).getD counter))) ∧
  -- GATHER_EARLY_END (R134, R199, R201)
  (∀ (s : State) (index : Nat) (ecc : MemEcc) (d : GatherDesc) (g : Gather),
     s.memPlan.windows[index]? = some d → Tab.find? (windowKey d) s.scr.windows = some g →
     s.mayChoose R.GEN_MODE_EN_GATHER = true → d.write = false → g.moved = true → g.early = false →
     s.beatRuns d.ctx = true → 16 * (d.start + g.late + 2) ≤ s.ctxPos d.ctx + g.shift → s.ctxPos d.ctx < s.windowEnd d g →
     exec (.gatherEarlyEnd index ecc) s = .next (
      ((if s.engineWindow d ∧ (s.windowRegion d).kind = 3 then s else s.earlyData d g).setGather d
        (some { g with early := true })).choice R.GEN_CHOICE_KIND_GATHER)) ∧
  -- SERVICE_ACCESS (R187, R196)
  (∀ (s : State) (addr length : Nat) (data : List Byte) (ecc : MemEcc),
     (s.serviceStatus addr length ≠ 0 → exec (.serviceAccess false addr length data ecc) s =
       .next (s.emit (.service (s.serviceStatus addr length) []))) ∧
     (s.serviceStatus addr data.length ≠ 0 → exec (.serviceAccess true addr length data ecc) s =
       .next (s.emit (.service (s.serviceStatus addr data.length) []))) ∧
     (s.serviceStatus addr data.length = 0 → s.writeBarred addr data.length = true →
       exec (.serviceAccess true addr length data ecc) s = .next ((s.serviceRefused addr).emit (.service 4 []))) ∧
     (s.serviceStatus addr length = 0 → exec (.serviceAccess false addr length data ecc) s = .next (State.serveJobs { s with
       scr := { s.scr with jobs := s.scr.jobs ++ [⟨.read, addr, length, ecc, 0, [], false, none⟩] } })) ∧
     (s.serviceStatus addr data.length = 0 → s.writeBarred addr data.length = false →
       exec (.serviceAccess true addr length data ecc) s = .next (State.serveJobs { s with
         scr := { s.scr with jobs := s.scr.jobs ++ [⟨.write data, addr, data.length, ecc, 0, [], false, none⟩] } }))) ∧
  -- REFRESH_DUE (R191, R203)
  (∀ (s : State) (unit : Fin 20), exec (.refreshDue false unit) s = .next (s.serveRefresh unit) ∧
     (unit.val < 16 → exec (.refreshDue true unit) s = .next (s.serveRefresh (20 + unit.val)))) ∧
  -- MEMORY_TEMP_READOUT (R204)
  (∀ (s : State) (unit : Fin 20) (celsius : Fin 256),
     exec (.memoryTempReadout false unit celsius) s = .next (s.stackTemp unit celsius) ∧
     (unit.val < 16 → exec (.memoryTempReadout true unit celsius) s = .next (s.channelTemp unit celsius))) ∧
  -- TEMP_LIMIT_TIMEOUT (R204)
  (∀ (s : State) (unit : Fin 20),
     (s.onAt R.HBM_STACK_OVER_LIMIT unit = true →
       exec (.tempLimitTimeout false unit) s = .next (s.moduleFatal 6 0x40 (regionField (24 + unit.val / 2)) unit)) ∧
     (unit.val < 16 → s.onAt R.DTR_CHAN_OVER_LIMIT unit = true →
       exec (.tempLimitTimeout true unit) s = .next (s.moduleFatal 7 0x40 (regionField 34) unit))) ∧
  -- PATROL_SCRUB_READ (R203, R209)
  (∀ (s : State) (unit : Fin 21) (ecc : MemEcc) (u : State) (ch k : Nat) (pass : Option Nat),
     (if unit.val < 20 then s.on R.HBM_CFG_SCRUB_EN else s.on R.DTR_CFG_SCRUB_EN) = true →
     channelAt (burstAt unit (match Tab.find? unit.val s.scr.scrub with | some x => x.1 | none => 0)).1 = ch →
     s.upkeepWaits unit = false → s.upkeepFree ch = true →
     (s.takeUpkeep ch).scrubNext unit (burstsOf unit) = (u, k, pass) →
     exec (.patrolScrubRead unit ecc) s = .next (
      let a := (burstAt unit k).1
      let n := (burstAt unit k).2
      let v := (ecc.fixed.filter fun x => decide (a ≤ x.1) && decide (x.1 < a + n)).foldl (fun s x => s.memCorrected true x) u
      let w := (burstsIn ecc.lost a n).foldl (fun s a => s.uncorrScrub a) v
      match pass with
      | none => w
      | some t => if unit.val < 20 then (w.inc R.HBM_SCRUB_PASSES).wr R.HBM_SCRUB_LAST_PASS (min t (2 ^ 32 - 1))
        else (w.inc R.DTR_SCRUB_PASSES).wr R.DTR_SCRUB_LAST_PASS (min (t / 256) (2 ^ 32 - 1)))) ∧
  -- MEMORY_TRAINING_DONE (R205, R411)
  (∀ (s : State) (unit : Fin 20) (attempts : Nat),
     3 ≤ s.pwr.railsUp →
     (s.onAt R.HBM_STACK_TRAINED unit = false → exec (.memoryTrainingDone false unit attempts true) s =
       .next ((s.zeroMemory fun a => isHbm a && memUnit a == unit).wrAt R.HBM_STACK_TRAINED unit 1)) ∧
     (unit.val < 16 → s.onAt R.DTR_CHAN_TRAINED unit = false → exec (.memoryTrainingDone true unit attempts true) s =
       .next ((s.zeroMemory fun a => rangeOf a == .ddr && memUnit a == unit).wrAt R.DTR_CHAN_TRAINED unit 1))) ∧
  -- PLAN_STAGE_WRITE_DONE (R411)
  (∀ (s : State),
     s.pwr.railsUp = 3 → s.scr.stageReady = false →
     exec .planStageWriteDone s = .next (let u := s.zeroMemory fun a => rangeOf a == .stage
      { u with scr := { u.scr with stageReady := true } }))

/-- Weight loads, swaps, sweeps and repairs: every command of this group completes, and the state it leaves is as its
clause says. Where a clause rests on a choice of the model the choice is in log entry 3 (which states an event needs)
and log entries 68, 69, 70, 134 and 151. -/
def Obligations.WeightsAndSweepsRun : Prop :=
  -- WGT_LOAD_START (R220)
  (∀ (s : State) (d : LoadDesc) (b : Binding),
     s.descriptorLost (s.rd R.WGT_LOAD_CTRL_CONTEXT) = false → s.startCode (s.rd R.WGT_LOAD_CTRL_CONTEXT) false = (0, some d) →
     s.binding? (s.rd R.WGT_LOAD_CTRL_CONTEXT) = some b →
     ∃ t, exec .wgtLoadStart s = .next t ∧
         (t.wctx (s.rd R.WGT_LOAD_CTRL_CONTEXT)).load =
           some ⟨d.target, ⟨d.root, d.length, d.sources, d.digests, b.digest⟩, [], [], s.now⟩ ∧
         (if d.target = 1 then t.rdAt R.WGT_CTX_LANDING (s.rd R.WGT_LOAD_CTRL_CONTEXT) = 2
          else t.rdAt R.WGT_CTX_STATE (s.rd R.WGT_LOAD_CTRL_CONTEXT) = 1) ∧ t.mem = s.mem) ∧
  -- WGT_LOAD_ABORT (R223)
  (∀ (s u : State) (l : Load),
     (s.wctx (s.rd R.WGT_LOAD_CTRL_CONTEXT)).load = some l → l.target = 1 →
     s.dropCopies (s.rd R.WGT_LOAD_CTRL_CONTEXT) false (fun _ => true) = u →
     exec .wgtLoadAbort s = .next ((((u.setWctx (s.rd R.WGT_LOAD_CTRL_CONTEXT) { s.wctx (s.rd R.WGT_LOAD_CTRL_CONTEXT) with load := none }).wrAt
       R.WGT_CTX_LANDING (s.rd R.WGT_LOAD_CTRL_CONTEXT) 0).setRoot R.WGT_ROOT_LANDING_ROOT (s.rd R.WGT_LOAD_CTRL_CONTEXT) []).loadFailed
       (s.rd R.WGT_LOAD_CTRL_CONTEXT) 9 0 0)) ∧
  -- X3_START (R224)
  (∀ (s : State),
     exec .x3Start s = .next ((maskList (s.rd R.WGT_LOAD_CTRL_X3_MASK)).foldl (fun s c => s.startLoad c true) s)) ∧
  -- SHARD_ATTEMPT_DONE (R217, R222, R366)
  (∀ (s v u w : State) (ctx : Fin 16) (shard : Nat) (l : Load) (b : Binding) (e : Nat × Nat × Nat) (held : Bool),
     s.attempt? ctx shard = some (l, b) → l.target ≠ 2 → sourceOf l.bound (l.attempt shard).1 = some e → s.inPlace e shard = true →
     s.olicoUp = true →
     (s.fetchShard b l.bound (s.loadBank b l.target) shard false (some (l.attempt shard).1) = (v, false) →
       exec (.shardAttemptDone ctx shard) s = .next v) ∧
     (s.fetchShard b l.bound (s.loadBank b l.target) shard false (some (l.attempt shard).1) = (v, true) →
       (l.attempt shard).2 + hashTicks (shardLen b.imageLength shard) ≤ v.now →
       (if e.1 = 2 then v.dieReads (ceilDiv (shardLen b.imageLength shard) 128) else v).dropCopies ctx false (· == shard) = u →
       u.checkShard b l.bound (s.loadBank b l.target) shard = (w, held) →
       exec (.shardAttemptDone ctx shard) s = .next (if held then w.shardArrived ctx b l shard
         else (w.inc R.WGT_COUNT_CORRUPT).nextAttempt ctx l shard 6))) ∧
  (∀ (s v w : State) (ctx : Fin 16) (shard : Nat) (l : Load) (b : Binding) (held : Bool),
     s.attempt? ctx shard = some (l, b) → l.target = 2 → (l.attempt shard).2 + hashTicks (shardLen b.imageLength shard) ≤ s.now →
     s.fetchShard b l.bound (s.loadBank b 2) shard false none = (v, true) →
     (l.attempt shard).2 + hashTicks (shardLen b.imageLength shard) ≤ v.now →
     (v.dropCopies ctx false (· == shard)).checkShard b l.bound (s.loadBank b 2) shard = (w, held) →
     exec (.shardAttemptDone ctx shard) s = .next (if held then w.shardArrived ctx b l shard
       else (w.inc R.WGT_COUNT_CORRUPT).nextAttempt ctx l shard 6)) ∧
  -- SHARD_ATTEMPT_TIMEOUT (R222)
  (∀ (s : State) (ctx : Fin 16) (shard : Nat) (l : Load) (b : Binding),
     s.attempt? ctx shard = some (l, b) → s.timedOut (l.attempt shard).2 = true →
     exec (.shardAttemptTimeout ctx shard) s = .next ((s.inc R.WGT_COUNT_MISSING).nextAttempt ctx l shard 7)) ∧
  -- SWAP_ARM (R227)
  (∀ (s : State) (p : Plan),
     s.pln.active = some p → p.count ≤ 1 → s.rdAt R.WGT_CTX_LANDING (s.rd R.WGT_SWAP_CTRL_CONTEXT) = 3 →
     s.nextBatch (s.rd R.WGT_SWAP_CTRL_CONTEXT) ≤ s.lastAt R.WGT_SWAP_BATCH_BATCH (s.rd R.WGT_SWAP_CTRL_CONTEXT) →
     s.onAt R.WGT_CTX_SWAP_ARMED (s.rd R.WGT_SWAP_CTRL_CONTEXT) = false →
     ∃ t, exec .swapArm s = .next t ∧
         t.rdAt R.WGT_CTX_SWAP_ARMED (s.rd R.WGT_SWAP_CTRL_CONTEXT) = 1 ∧
         (t.wctx (s.rd R.WGT_SWAP_CTRL_CONTEXT)).swapAt = s.lastAt R.WGT_SWAP_BATCH_BATCH (s.rd R.WGT_SWAP_CTRL_CONTEXT) ∧
         t.mem = s.mem) ∧
  -- SWAP_DISARM (R227)
  (∀ (s : State),
     s.onAt R.WGT_CTX_SWAP_ARMED (s.rd R.WGT_SWAP_CTRL_CONTEXT) = true → (6, s.rd R.WGT_SWAP_CTRL_CONTEXT) ∉ s.olc.applied →
     (s.planActive = true → s.passBegins (s.rd R.WGT_SWAP_CTRL_CONTEXT) (s.wctx (s.rd R.WGT_SWAP_CTRL_CONTEXT)).swapAt = false) →
     exec .swapDisarm s = .next ((s.dropChange 6 (s.rd R.WGT_SWAP_CTRL_CONTEXT)).wrAt R.WGT_CTX_SWAP_ARMED (s.rd R.WGT_SWAP_CTRL_CONTEXT) 0)) ∧
  -- SWAP_DISARM (R369)
  (∀ (s : State),
     (6, s.rd R.WGT_SWAP_CTRL_CONTEXT) ∈ s.olc.applied →
     exec .swapDisarm s = .next (s.wr R.WGT_EVENT_SWAP_REFUSED 1)) ∧
  -- SWAP_EFFECT (R227, R229, R374)
  (∀ (s u : State) (ctx : Fin 16) (b : Binding),
     s.binding? ctx = some b → s.onAt R.WGT_CTX_SWAP_ARMED ctx = true → s.planActive = true →
     s.passBegins ctx (s.wctx ctx).swapAt = true → s.rdAt R.WGT_CTX_LANDING ctx = 3 → (s.swapBanks ctx b).changeApplied 6 ctx 0 = u →
     exec (.swapEffect ctx) s = .next (if (s.wctx ctx).swapAt = 0 then u else u.markSpan ctx ((s.wctx ctx).swapAt - 1))) ∧
  -- SWEEP_SHARD_CHECKED (R208, R217, R231, R234)
  (∀ (s v w : State) (ctx : Fin 16) (sweep : SweepKind) (x : Sweep) (b : Binding) (i : Nat) (rest : List Nat) (k : Nat) (bound : Bound),
     (s.wctx ctx).sweepOf sweep = some x → s.binding? ctx = some b → x.left = i :: rest →
     s.sweepBank b sweep = (k, some bound) → (sweep = .active → Tab.find? i (s.wctx ctx).repairs = none ∧ s.ctxRunning ctx = true) →
     x.shardAt + hashTicks (shardLen bound.length i) ≤ s.now →
     (s.sweepRead b k i (sweep != .active) = (v, false) → exec (.sweepShardChecked ctx sweep) s = .next v) ∧
     (s.sweepRead b k i (sweep != .active) = (v, true) →
       (v.checkShard b bound k i = (w, true) → exec (.sweepShardChecked ctx sweep) s = .next (
         let u := w.setWctx ctx ((s.wctx ctx).setSweep sweep (some { x with left := rest, shardAt := w.now }))
         if rest = [] then u.sweepGood ctx sweep b x else u)) ∧
       (v.checkShard b bound k i = (w, false) → exec (.sweepShardChecked ctx sweep) s = .next (w.sweepBad ctx i sweep b)))) ∧
  -- SWEEP_OVERRUN (R231)
  (∀ (s : State) (ctx : Fin 16) (sweep : SweepKind) (x : Sweep),
     (s.wctx ctx).sweepOf sweep = some x → x.began + s.rd R.WGT_CFG_RECHECK_S * msTicks 1000 < s.now → x.behind = false →
     (sweep = .active → s.ctxRunning ctx = true) →
     exec (.sweepOverrun ctx sweep) s = .next ((((s.wrAt R.WGT_CTX_BEHIND ctx 1).wr R.WGT_EVENT_BEHIND 1).notice 8 0x81 0 ctx
       ((s.now - x.began) / msTicks 1000)).setWctx ctx ((s.wctx ctx).setSweep sweep (some { x with behind := true })))) ∧
  -- QUARANTINE_NOTICE_RECEIVED (R233)
  (∀ (s : State) (payload : List Byte) (p : Plan),
     payload.length = 64 → s.pln.active = some p → p.id8 = leAt 0 8 payload →
     p.ctxs.any (fun x => x.ctx == beAt 8 1 payload) = true → (beAt 9 1 payload = 1 ∨ beAt 9 1 payload = 2) →
     Tab.find? (beAt 8 1 payload) s.wgt.quarantine = none →
     exec (.quarantineNoticeReceived payload) s = .next ((s.quarantineCtx (beAt 8 1 payload)
      (max (beAt 40 8 payload) (s.nextBatch (beAt 8 1 payload)))).handItems [.notice payload])) ∧
  -- SHARD_REPAIR_DONE (R217, R222, R234)
  (∀ (s v w : State) (ctx : Fin 16) (shard a began : Nat) (x : Bound) (b : Binding) (e : Nat × Nat × Nat),
     Tab.find? shard (s.wctx ctx).repairs = some (a, began) → (s.wctx ctx).active = some x → s.binding? ctx = some b →
     s.olicoUp = true →
     (sourceOf x a = some e → s.inPlace e shard = true →
       s.fetchShard b x (s.bankOf b) shard true (some a) = (v, true) →
       began + hashTicks (shardLen b.imageLength shard) ≤ v.now →
       ((v.dropCopies ctx true (· == shard)).checkShard b x (v.bankOf b) shard = (w, true) →
         exec (.shardRepairDone ctx shard true) s =
           .next (((w.setWctx ctx { w.wctx ctx with repairs := Tab.del shard (w.wctx ctx).repairs }).inc R.WGT_COUNT_REPAIR).wr
             R.WGT_EVENT_REPAIR 1)) ∧
       ((v.dropCopies ctx true (· == shard)).checkShard b x (v.bankOf b) shard = (w, false) →
         exec (.shardRepairDone ctx shard true) s = .next ((w.inc R.WGT_COUNT_CORRUPT).repairAgain ctx shard a))) ∧
     (s.timedOut began = true → exec (.shardRepairDone ctx shard false) s =
       .next ((s.inc R.WGT_COUNT_MISSING).repairAgain ctx shard a)))

/-- Intake windows, ring reads, stream context tables and timed release: every command of this group completes, and the
state it leaves is as its clause says. Where a clause rests on a choice of the model the choice is in log entry 3 (which
states an event needs) and log entries 18, 73, 74, 95 and 152. -/
def Obligations.IntakeRuns : Prop :=
  -- INTAKE_FRAME_RECEIVED (R236, R238, R240, R244)
  (∀ (s : State) (port : Fin 2) (frame : List Byte) (fcsOk : Bool) (tally : Nat) (sixteenth : Fin 16),
     s.intakeStill = false → 64 ≤ frame.length → frame.length ≤ 9216 → fcsOk = true → fcsHolds frame = true → beAt 12 2 frame = 0x88B5 →
     beAt 0 6 frame = s.rdAt R.ITK_PORT_MAC_MAC port → beAt 6 6 frame = s.rdAt R.ITK_PORT_PEER_MAC port →
     exec (.intakeFrameReceived port frame fcsOk tally sixteenth) s = .next (
      s.takeFrame port ((frame.take (frame.length - 4)).drop 14) (s.ingressStamp port tally sixteenth).1 (s.ingressStamp port tally sixteenth).2)) ∧
  -- INGEST_LINK_UP (R425)
  (∀ (s : State) (port : Fin 2),
     s.pwr.railsUp = 4 →
     ∃ t, exec (.ingestLinkUp port) s = .next t ∧
         t.onAt R.ITK_PORT_LINK_UP port = true ∧
         t.rdAt R.PTP_PORT_STATE port = if s.rdAt R.PTP_PORT_STATE port = 1 then 4 else s.rdAt R.PTP_PORT_STATE port) ∧
  -- INGEST_LINK_DOWN (R425)
  (∀ (s : State) (port : Fin 2),
     ∃ t, exec (.ingestLinkDown port) s = .next t ∧
         t.onAt R.ITK_PORT_LINK_UP port = false) ∧
  -- INTAKE_WINDOW_CLOSE (R232, R247, R248)
  (∀ (s : State) (ctx : Fin 16) (e : IntakeEntry) (r : IntakeRun),
     s.intake? ctx = some e → s.run? ctx = some r → r.open_ = true → r.standby = false →
     s.timeDue (r.openNominal + s.windowLen e r.window) = true →
     exec (.intakeWindowClose ctx) s = .next ((s.epochBoundary ctx).closeWindow e r)) ∧
  -- INTAKE_BEAT_RING_READ (R167, R251, R252, R366)
  (∀ (s u : State) (ctx : Fin 16) (e : IntakeEntry) (r : IntakeRun) (cons n k : Nat),
     s.intake? ctx = some e → s.run? ctx = some r → e.ring = true → r.closed = false →
     (∀ x, r.closeFrom = some x → s.now < x) → s.onAt R.ITK_RING_FAULT ctx = false → s.ctxPaused ctx = false →
     s.ctxPos ctx % (16 * e.ringPeriod) = 0 → s.olicoUp = true → s.dieReads 1 = u →
     u.rdAt R.ITK_RING_CONSUMER ctx = cons → (u.le e.ringBase 4 + 2 ^ 32 - cons) % 2 ^ 32 = n → min n e.ringReadMax = k →
     (n ≤ 2 ^ e.ringLog2 → exec (.intakeBeatRingRead ctx) s = .next (
       (((u.ringTake e cons k).dieReads (ceilDiv (k * 2 ^ e.ringEntryLog2) 128)).wrAt R.ITK_RING_CONSUMER ctx ((cons + k) % 2 ^ 32)).setBytes
         (e.ringBase + 0x40) (leBytes 4 ((cons + k) % 2 ^ 32)))) ∧
     (2 ^ e.ringLog2 < n → exec (.intakeBeatRingRead ctx) s = .next (
       ((u.wrAt R.ITK_RING_FAULT ctx 1).wr R.ITK_EVENT_RING_FAULT 1).contained 9 0x25 0 ctx 0 0))) ∧
  -- ITK_RING_RESET (R252, R261)
  (∀ (s : State) (ctx : Fin 16) (e : IntakeEntry),
     s.intake? ctx = some e →
     (s.olicoUp = true → exec (.itkRingReset ctx) s = .next (
       ((s.dieReads 1).wrAt R.ITK_RING_FAULT ctx 0).wrAt R.ITK_RING_CONSUMER ctx (s.le e.ringBase 4))) ∧
     (s.olicoUp = false → exec (.itkRingReset ctx) s = .next (
       (s.olicoLost.wrAt R.ITK_RING_FAULT ctx 0).wrAt R.ITK_RING_CONSUMER ctx (s.rdAt R.ITK_RING_CONSUMER ctx)))) ∧
  -- TIMED_RELEASE (R88, R259, R317, R355, R358)
  (∀ (s u : State) (ctx : Fin 16) (e : IntakeEntry) (r : IntakeRun) (w : WindowRec) (ok : Bool),
     s.intake? ctx = some e → s.run? ctx = some r → r.windows.find? (fun w => !w.released) = some w →
     s.releaseDue ctx (w.closeNominal + e.releaseTicks) = true → s.withheldNow ctx = false → s.compareWaits ctx w = false →
     w.recheck = none → s.gateShut ctx w.index = false → s.tagFits (s.untagged ctx w) = true → s.readSpans ctx (s.cellsRead e w w.slots.zipIdx) = (u, ok) →
     exec (.timedRelease ctx) s = .next (if ok then u.release e r w else u)) ∧
  -- RESPONSE_FRAME_SEND (R88, R259)
  (∀ (s u : State) (ctx : Fin 16) (port : Fin 2) (e : IntakeEntry) (r : IntakeRun) (w : WindowRec) (ok : Bool),
     s.intake? ctx = some e → s.run? ctx = some r →
     r.windows.find? (fun w => w.released && frameOf e (w.frames.getD port 0) (s.windowRecords e w port) != []) = some w →
     s.releaseDue ctx (w.closeNominal + e.releaseTicks + e.frameSpacing * w.frames.getD port 0) = true →
     s.pwr.shutdown = .none → s.withheldNow ctx = false →
     s.readSpans ctx (s.cellsRead e w (((w.slots.zipIdx.filter fun x => x.1.req.port == port.val).drop
       (w.frames.getD port 0 * e.perFrame)).take e.perFrame)) = (u, ok) →
     exec (.responseFrameSend ctx port) s = .next (if ok then (u.sendNext e w port).1.putWindow e r (u.sendNext e w port).2 else u))

/-- PTP messages: every command of this group completes, and the state it leaves is as its clause says. Where a clause
rests on a choice of the model the choice is in log entry 3 (which states an event needs) and log entries 7, 18, 27
and 71. -/
def Obligations.PtpRuns : Prop :=
  -- PTP_SYNC_RECEIVED (R245)
  (∀ (s : State) (port : Fin 2) (bytes : List Byte) (sixteenth : Fin 16) (m : PtpMsg),
     s.intakeStill = false → PtpMsg.decode bytes = some m → m.domain = s.rd R.PTP_CFG_DOMAIN → m.intervalOk = true →
     (s.clock port).chosen = true →
     (m.type = 0 → m.clock = (s.incAt R.PTP_COUNT_SYNC port).rdAt R.PTP_MASTER_CLOCK_ID port →
       exec (.ptpSyncReceived port bytes sixteenth) s = .next ((s.incAt R.PTP_COUNT_SYNC port).syncCame port m
         ((s.incAt R.PTP_COUNT_SYNC port).rxStamp port sixteenth))) ∧
     (m.type = 8 → m.clock = s.rdAt R.PTP_MASTER_CLOCK_ID port →
       exec (.ptpSyncReceived port bytes sixteenth) s = .next (s.followUpCame port m))) ∧
  -- PTP_ANNOUNCE_RECEIVED (R243; two Announces select a master: log entry 110)
  (∀ (s u : State) (port : Fin 2) (bytes : List Byte) (m : PtpMsg),
     s.intakeStill = false → PtpMsg.decode bytes = some m → m.domain = s.rd R.PTP_CFG_DOMAIN → m.type = 11 → m.intervalOk = true →
     m.steps < 255 → (s.clock port).chosen = false → s.incAt R.PTP_COUNT_ANNOUNCE port = u →
     ((s.clock port).masters = [] → exec (.ptpAnnounceReceived port bytes) s = .next (
       u.setClock port { s.clock port with masters := [⟨m.clock, m.quality, (m.interval + 3).toNat, s.now, none⟩] })) ∧
     (∀ f : Foreign, (s.clock port).masters = [f] → f.clock = m.clock → s.now < f.last + 4 * announceTicks (m.interval + 3).toNat →
       exec (.ptpAnnounceReceived port bytes) s = .next (
         (u.setClock port { s.clock port with masters := [⟨m.clock, m.quality, (m.interval + 3).toNat, s.now, some f.last⟩] }).selectMaster
           port ⟨m.clock, m.quality, (m.interval + 3).toNat, s.now, some f.last⟩))) ∧
  -- PTP_DELAY_RESP_RECEIVED (R243)
  (∀ (s : State) (port : Fin 2) (bytes : List Byte) (m : PtpMsg) (t1 t2 t3 : Int),
     s.intakeStill = false → PtpMsg.decode bytes = some m → m.domain = s.rd R.PTP_CFG_DOMAIN → m.type = 9 → m.intervalOk = true →
     s.on R.PTP_CFG_DELAY = false →
     (s.clock port).reqAt = some (m.seq, t3) → slice 10 10 m.body = s.clockIdentity port → (s.clock port).lastSync = some (t1, t2) →
     exec (.ptpDelayRespReceived port bytes) s = .next ((s.setClock port { s.clock port with reqAt := none }).wrAt R.PTP_DELAY_DELAY port
      (toField 64 (((t2 - t1) + (ptpStampOf m.body - t3 - m.corr)) / 2)))) ∧
  -- PTP_PDELAY_REQ_RECEIVED (R243, R244)
  (∀ (s : State) (port : Fin 2) (bytes : List Byte) (turnaround : Int) (m : PtpMsg),
     s.intakeStill = false → PtpMsg.decode bytes = some m → m.domain = s.rd R.PTP_CFG_DOMAIN → m.type = 2 → m.intervalOk = true →
     s.on R.PTP_CFG_DELAY = true →
     exec (.ptpPdelayReqReceived port bytes turnaround) s = .next (s.sendPtp port
      ⟨3, m.domain, false, m.corr + (turnaround + psUnits (s.rdAt R.PTP_LAT_RX_PS port) + psUnits (s.rdAt R.PTP_LAT_TX_PS port)),
        s.clockIdentity port, m.seq, 127, zeros 10 ++ m.sender⟩)) ∧
  -- PTP_PDELAY_RESP_RECEIVED (R243)
  (∀ (s : State) (port : Fin 2) (bytes : List Byte) (sixteenth : Fin 16) (m : PtpMsg) (t1 : Int),
     s.intakeStill = false → PtpMsg.decode bytes = some m → m.domain = s.rd R.PTP_CFG_DOMAIN → m.intervalOk = true →
     s.on R.PTP_CFG_DELAY = true → (s.clock port).reqAt = some (m.seq, t1) → slice 10 10 m.body = s.clockIdentity port →
     (m.type = 3 → m.twoStep = false → exec (.ptpPdelayRespReceived port bytes sixteenth) s =
       .next (s.peerDelay port (s.rxStamp port sixteenth) t1 0 m.corr)) ∧
     (m.type = 3 → m.twoStep = true → exec (.ptpPdelayRespReceived port bytes sixteenth) s =
       .next (s.setClock port { s.clock port with peer := some (m.seq, s.rxStamp port sixteenth, m.corr - ptpStampOf m.body) })) ∧
     (∀ (n : Nat) (rx corr : Int), m.type = 10 → (s.clock port).peer = some (n, rx, corr) →
       exec (.ptpPdelayRespReceived port bytes sixteenth) s = .next (s.peerDelay port rx t1 (ptpStampOf m.body) (corr + m.corr)))) ∧
  -- PTP_DELAY_REQ_SEND (R243, R244)
  (∀ (s : State) (port : Fin 2) (sixteenth : Fin 16),
     s.onAt R.ITK_PORT_LINK_UP port = true → s.intakeStill = false → (s.on R.PTP_CFG_DELAY = true ∨ (s.clock port).chosen = true) →
     (∀ t, (s.clock port).sentAt = some t → t + s.delayTicks ≤ s.now) →
     exec (.ptpDelayReqSend port sixteenth) s = .next (
      let t := s.txStamp port sixteenth
      let peer := s.on R.PTP_CFG_DELAY
      let u := s.setClock port { s.clock port with
        seq := ((s.clock port).seq + 1) % 65536, sentAt := some s.now, reqAt := some ((s.clock port).seq, t), peer := none }
      (u.incAt R.PTP_COUNT_DELAY_TX port).sendPtp port ⟨if peer then 2 else 1, u.rd R.PTP_CFG_DOMAIN, false, -(u.asymmetry port),
        u.clockIdentity port, (s.clock port).seq, ofField 8 (u.rd R.PTP_CFG_LOG_DELAY),
        ptpStampBytes t ++ (if peer then zeros 10 else [])⟩)) ∧
  -- PTP_ANNOUNCE_TIMEOUT (R243, R245, R246)
  (∀ (s : State) (port : Fin 2),
     (s.clock port).chosen = true → (s.clock port).announced.1 + 44531250 * 2 ^ (s.clock port).announced.2 ≤ s.now →
     exec (.ptpAnnounceTimeout port) s = .next (((s.setClock port { s.clock port with
        masters := (s.clock port).masters.filter fun x => x.clock != s.rdAt R.PTP_MASTER_CLOCK_ID port
        chosen := false, twoStep := none, peer := none, lastSync := none, reqAt := none }).wrAt R.PTP_MASTER_CLOCK_ID port 0).unlock port 4))

/-- Haul port training: every command of this group completes, and the state it leaves is as its clause says. Where a
clause rests on a choice of the model the choice is in log entry 3 (which states an event needs) and log entries 4
and 101. -/
def Obligations.TrainingRuns : Prop :=
  -- SIGNAL_PRESENT (R280)
  (∀ (s : State) (port : Fin 16) (lanes : List (Fin 9)),
     s.train port = 1 → 8 ≤ lanes.eraseDups.length →
     exec (.signalPresent port lanes) s = .next (s.setTrain port 2)) ∧
  -- SIGNAL_LOCK (R280)
  (∀ (s : State) (port : Fin 16) (lanes : List (Fin 9)),
     s.train port = 2 → 8 ≤ lanes.eraseDups.length →
     exec (.signalLock port lanes) s = .next ((s.setPort port { s.port port with lanes := (List.range 9).filter fun x => lanes.any fun y => y.val = x }).setTrain port 3)) ∧
  -- LANE_MARK_LOCK (R280, R282)
  (∀ (s : State) (port : Fin 16) (skewPs : Nat),
     s.train port = 3 → skewPs ≤ 60000 →
     exec (.laneMarkLock port skewPs) s = .next (let u := s.setPort port { s.port port with alignOffer := skewPs + 2000, announces := 0, seenSent := false, seenGot := false, partner := none };
      (u.setTrain port 4).sendAnnounce port)) ∧
  -- TRAIN_STATE_TIMEOUT (R280, R283)
  (∀ (s : State) (port : Fin 16),
     2 ≤ s.train port → s.train port ≤ 5 → (s.port port).timers.state + trainLimit (s.train port) ≤ s.now →
     exec (.trainStateTimeout port) s = .next (s.trainFail port (trainCode (s.train port)))) ∧
  -- BACKOFF_EXPIRY (R280)
  (∀ (s : State) (port : Fin 16),
     s.train port = 7 → (s.port port).timers.state + s.backoffTicks port ≤ s.now →
     exec (.backoffExpiry port) s = .next (s.setTrain port 1)) ∧
  -- ANNOUNCE_RECEIVED (R281, R290)
  (∀ (s : State) (port : Fin 16) (blk : WireBlock) (b : LinkBlock) (a : Announce),
     s.train port = 4 → (s.checkBlock port blk).2 = some b → b.type = 7 → Announce.decode b.data = some a →
     a.kind = 0 → (s.checkBlock port blk).1.train port = 4 →
     exec (.announceReceived port blk) s = .next ((s.checkBlock port blk).1.exchange port a)) ∧
  -- ECHO_REQ_SEND (R283)
  (∀ (s : State) (port : Fin 16) (depart : Stamp),
     s.train port = 5 → (s.port port).echoSent < 64 →
     ((s.port port).echoSent = 0 ∨ (s.port port).timers.echo + nsTicks 128 ≤ s.now) →
     exec (.echoReqSend port depart) s = .next ((s.setPort port { s.port port with
        echoSent := (s.port port).echoSent + 1, timers := { (s.port port).timers with echo := s.now } }).sendPlain port 7
      ((s.announce port 1).encode ++ beBytes 1 (s.port port).echoSent ++ zeros 3 ++ stampBytes (s.leaves port depart)))) ∧
  -- ECHO_REQ_RECEIVED (R283)
  (∀ (s u : State) (port : Fin 16) (blk : WireBlock) (arrival depart : Stamp) (b : LinkBlock) (a : Announce),
     s.train port = 5 → s.checkBlock port blk = (u, some b) → b.type = 7 → Announce.decode b.data = some a →
     a.kind = 1 → u.train port = 5 →
     exec (.echoReqReceived port blk arrival depart) s = .next (u.sendPlain port 7 ((u.announce port 2).encode ++ slice 32 16 b.data
      ++ stampBytes (u.arrives port arrival) ++ stampBytes (u.leaves port depart)))) ∧
  -- ECHO_RESP_RECEIVED (R283)
  (∀ (s u : State) (port : Fin 16) (blk : WireBlock) (arrival : Stamp) (b : LinkBlock) (a : Announce),
     s.train port = 5 → s.checkBlock port blk = (u, some b) → b.type = 7 → Announce.decode b.data = some a →
     a.kind = 2 → u.train port = 5 → (u.port port).samples.length < 63 →
     exec (.echoRespReceived port blk arrival) s = .next (u.setPort port { u.port port with samples := (u.port port).samples ++
      [((u.arrives port arrival : Int) - beAt 36 12 b.data) - ((beAt 60 12 b.data : Int) - beAt 48 12 b.data)] }))

/-- Blocks, acknowledgements, replays and markers of a haul port: every command of this group completes, and the state
it leaves is as its clause says. Where a clause rests on a choice of the model the choice is in log entry 3 (which
states an event needs) and log entries 48, 50 and 51. -/
def Obligations.LinkRuns : Prop :=
  -- SCHED_BLOCK_RECEIVED (R14, R267, R278, R303, R351)
  (∀ (s : State) (port : Fin 16) (blk : WireBlock) (b : LinkBlock),
     (s.accept port blk).2 = some b → (s.accept port blk).1.rdAt R.TOP_PORT_USE port ≠ 4 → b.type = 1 →
     8 ≤ b.data.length → beAt 6 1 b.data < 64 → bits 3 2 (beAt 6 1 b.data) ≠ 3 → beAt 7 1 b.data = 0 →
     exec (.schedBlockReceived port blk) s = .next ((s.accept port blk).1.placeSched port (SchedData.decode b.data))) ∧
  -- SVC_BLOCK_RECEIVED (R267, R279, R320, R321, R322)
  (∀ (s u : State) (port : Fin 16) (blk : WireBlock) (b : LinkBlock) (vc : Nat),
     (s.accept port blk).2 = some b → b.type = 2 ∨ b.type = 3 → (s.accept port blk).1 = u → b.type - 2 = vc →
     (0 < (u.port port).skip vc → exec (.svcBlockReceived port blk) s = .next (
       (u.setPort port ((u.port port).setSkip vc ((u.port port).skip vc - 1))).freeBuffers port vc 1)) ∧
     (∀ w, (u.port port).skip vc = 0 → u.openPkt port vc = some w → exec (.svcBlockReceived port blk) s = .next (
       let v := { u with sch := { u.sch with waiting := u.sch.waiting.replace w { w with data := w.data ++ [b.data], left := w.left - 1 } } }
       State.pump v.svcBlocks w.port v)) ∧
     (∀ n, (u.port port).skip vc = 0 → u.openPkt port vc = none → (u.port port).rx vc = [] → beAt 1 1 b.data = n → 1 ≤ n → n ≤ 16 →
       exec (.svcBlockReceived port blk) s = .next (u.takeFirst port vc n b.data)) ∧
     (∀ l n, (u.port port).skip vc = 0 → u.openPkt port vc = none → (u.port port).rx vc = l → l ≠ [] →
       beAt 1 1 (l ++ [b.data]).flatten = n →
       exec (.svcBlockReceived port blk) s = .next (u.collect port vc n (l ++ [b.data])))) ∧
  -- FILL_RECEIVED (R274)
  (∀ (s : State) (port : Fin 16) (blk : WireBlock),
     exec (.fillReceived port blk) s = .next ((s.accept port blk).1)) ∧
  -- ACK_RECEIVED (R275, R290)
  (∀ (s : State) (port : Fin 16) (blk : WireBlock),
     exec (.ackReceived port blk) s = .next ((s.accept port blk).1)) ∧
  -- NAK_RECEIVED (R276, R292)
  (∀ (s u : State) (port : Fin 16) (blk : WireBlock) (b : LinkBlock),
     s.accept port blk = (u, some b) → b.type = 5 → (u.port port).nakActed = none →
     exec (.nakReceived port blk) s = .next (
      let v := ((u.setPort port { u.port port with nakActed := some (b.ack, u.now) }).incAt R.HAUL_REPLAY_COUNT_NAK_RX port).startReplay port
      if (v.port port).replaying then v else v.flush port)) ∧
  -- ACK_DUE (R272, R275)
  (∀ (s : State) (port : Fin 16),
     s.portUp port = true → (s.port port).timers.ack + nsTicks 128 ≤ s.now →
     ((s.port port).replaying = false → exec (.ackDue port) s = .next (s.sendPlain port 4 [])) ∧
     ((s.port port).replaying = true → exec (.ackDue port) s = .next (s.setPort port { s.port port with waitAck := true }))) ∧
  -- NAK_TIMER_EXPIRY (R276)
  (∀ (s : State) (port : Fin 16),
     s.portUp port = true → (s.port port).nakOpen = true → (s.port port).timers.nak + s.nakSpan port ≤ s.now →
     exec (.nakTimerExpiry port) s = .next (s.sendPlain port 5 [])) ∧
  -- REPLAY_TIMER_EXPIRY (R277)
  (∀ (s : State) (port : Fin 16),
     s.portUp port = true → 0 < s.rdAt R.HAUL_SEQ_OUTSTANDING port → (s.port port).replaying = false →
     (s.port port).timers.replay + s.nakSpan port * 2 ^ (s.port port).doubling ≤ s.now →
     exec (.replayTimerExpiry port) s = .next (let u := s.setPort port { s.port port with doubling := min ((s.port port).doubling + 1) 4 };
      ((u.incAt R.HAUL_REPLAY_COUNT_TIMEOUTS port).wrAt R.HAUL_EVENT_REPLAY_TIMEOUT port 1).startReplay port)) ∧
  -- MARKER_DUE (R272, R285, R292)
  (∀ (s : State) (port : Fin 16) (depart : Stamp) (k : Nat),
     s.portUp port = true → s.now / s.rdAt R.HAUL_CFG_MARKER_TICKS port = k → (s.port port).timers.marker ≠ k →
     exec (.markerDue port depart) s = .next (let u := s.onTimers port fun t => { t with marker := k }
      if (s.port port).replaying then u.setPort port { u.port port with waitMarker := true } else u.sendMarker port depart)) ∧
  -- LINK_REPLAY_END (R272, R277)
  (∀ (s : State) (port : Fin 16),
     (s.port port).replaying = true →
     exec (.linkReplayEnd port) s = .next ((s.setPort port { s.port port with
        replaying := false, timers := { (s.port port).timers with replay := s.now, ack := s.now } }).afterReplay port))

/-- Lane failures, spares and swaps: every command of this group completes, and the state it leaves is as its clause
says. Where a clause rests on a choice of the model the choice is in log entry 3 (which states an event needs) and
log entry 49. -/
def Obligations.LaneRulesRun : Prop :=
  -- LANE_FAIL (R286, R292)
  (∀ (s : State) (port : Fin 16) (lane : Fin 9) (t l y : Nat),
     s.portUp port = true → Tab.find? lane.val (s.port port).lost = some t →
     t + nsTicks (s.rdAt R.HAUL_CFG_LANE_FAIL_NS port) ≤ s.now → (s.port port).rot = none → (s.port port).calib = none →
     (s.port port).swap = none → s.logicalOf port lane = some l → s.spare port = some y →
     exec (.laneFail port lane) s = .next ((s.laneFailed port lane).startSwap port l lane y)) ∧
  -- LANE_FAIL (R292)
  (∀ (s : State) (port : Fin 16) (lane : Fin 9) (t : Nat) (r : LaneOp),
     s.portUp port = true → Tab.find? lane.val (s.port port).lost = some t →
     t + nsTicks (s.rdAt R.HAUL_CFG_LANE_FAIL_NS port) ≤ s.now → (s.port port).rot = some r →
     (r.src = lane.val → exec (.laneFail port lane) s = .next (
       let u := ((s.setPort port { s.port port with rot := none }).remap port r.logical r.dst).laneFailed port lane
       (((u.noSpare port).wrAt R.HAUL_PORT_STATUS_ROTATING port 0).sendLane port
         ⟨5, r.logical, r.src, r.dst, (s.port port).opId⟩ 1).showLock port)) ∧
     (r.src ≠ lane.val → r.dst = lane.val → exec (.laneFail port lane) s = .next (
       (((s.setPort port { s.port port with rot := none }).laneFailed port lane).noSpare port).wrAt R.HAUL_PORT_STATUS_ROTATING port 0))) ∧
  -- SWAP_REQ_RESEND (R286)
  (∀ (s : State) (port : Fin 16) (o : LaneOp),
     (s.port port).swap = some o → o.ready = false → (s.port port).timers.swapReq + nsTicks 256 ≤ s.now →
     exec (.swapReqResend port) s = .next ((s.onTimers port fun t => { t with swapReq := s.now }).sendLane port
      ⟨1, o.logical, o.src, o.dst, (s.port port).opId⟩ 1)) ∧
  -- SWAP_REQ_RECEIVED (R286)
  (∀ (s u : State) (port : Fin 16) (blk : WireBlock) (m : LaneMsg),
     s.laneMsg port blk = (u, some m) → m.kind = 1 → freshOp (u.port port).opSeen m.opId = true →
     exec (.swapReqReceived port blk) s = .next (
      let v := u.setPort port { u.port port with
        opSeen := some m.opId, copyTx := none, done := some (⟨2, m.logical, m.src, m.dst, m.opId⟩, u.now, u.now)
        patternTx := if (u.port port).patternTx = some m.dst then none else (u.port port).patternTx }
      let w := v.wrAt R.HAUL_LANE_MAP_TX_LOGICAL port (setLane (v.rdAt R.HAUL_LANE_MAP_TX_LOGICAL port) m.logical m.dst)
      let x := (w.wrAt R.HAUL_LANE_MAP_TX_FAILED port (w.rdAt R.HAUL_LANE_MAP_TX_FAILED port ||| 2 ^ m.src)).wrAt
        R.HAUL_LANE_MAP_TX_SPARE port 15
      (x.showMarks port).sendLane port ⟨2, m.logical, m.src, m.dst, m.opId⟩ 4)) ∧
  -- SWAP_DONE_RECEIVED (R286)
  (∀ (s : State) (port : Fin 16) (blk : WireBlock) (m : LaneMsg),
     (s.laneMsg port blk).2 = some m → m.kind = 2 → m.opId = ((s.laneMsg port blk).1.port port).opId →
     exec (.swapDoneReceived port blk) s = .next (let u := (s.laneMsg port blk).1
      u.setPort port { u.port port with swap := (u.port port).swap.map fun o => { o with ready := true } })) ∧
  -- SWAP_REMAP (R266, R286, R288)
  (∀ (s : State) (port : Fin 16) (o : LaneOp),
     ((s.port port).swap = some o →
       exec (.swapRemap port) s = .next (let u := ((s.setPort port { s.port port with swap := none }).remap port o.logical o.dst).noSpare port
        let v := ((u.wrAt R.HAUL_PORT_STATUS_SWAPPING port 0).incAt R.HAUL_LANE_COUNT_SWAPS port).trace 7 (occField 12 port) 12 port 0
        (v.wrAt R.HAUL_EVENT_SWAP port 1).showLock port)) ∧
     ((s.port port).swap = none → (s.port port).rot = some o → o.ready = true →
       exec (.swapRemap port) s = .next (s.switchRot port o))) ∧
  -- SWAP_TIMEOUT (R286)
  (∀ (s : State) (port : Fin 16),
     (s.port port).swap.isSome = true → (s.port port).timers.swap + nsTicks 10000 ≤ s.now →
     exec (.swapTimeout port) s = .next ((s.setPort port { s.port port with swap := none }).wrAt R.HAUL_PORT_STATUS_SWAPPING port 0)) ∧
  -- LANE_DEGRADE (R287)
  (∀ (s u : State) (port : Fin 16) (lane : Fin 9) (symbols y l : Nat),
     s.portUp port = true →
     (s.addAt R.HAUL_LANE_STAT_CORR_SYM (8192 * port.val + lane.val) symbols).count (5792 + 16 * port.val + 6) symbols = u →
     (u.rdAt R.HAUL_LANE_CFG_DEG_SYM port < symbols → u.spare port = some y → u.logicalOf port lane = some l →
       (u.port port).idle = true →
       exec (.laneDegrade port lane symbols) s = .next ((u.wrAt R.HAUL_EVENT_DEGRADED port 1).startRot port l lane y)) ∧
     (u.rdAt R.HAUL_LANE_CFG_DEG_SYM port < symbols → u.spare port = none →
       exec (.laneDegrade port lane symbols) s = .next ((u.wrAt R.HAUL_EVENT_DEGRADED port 1).notice 12 0x81 port 0 lane)) ∧
     (symbols ≤ u.rdAt R.HAUL_LANE_CFG_DEG_SYM port → exec (.laneDegrade port lane symbols) s = .next u)) ∧
  -- LANE_LOCK_LOST (R280, R290)
  (∀ (s : State) (port : Fin 16) (lane : Fin 9),
     s.portUp port = true → Tab.find? lane.val (s.port port).lost = none →
     exec (.laneLockLost port lane) s = .next (
      ((s.setPort port { s.port port with lost := Tab.ins lane s.now (s.port port).lost }).incAt R.HAUL_LANE_STAT_LOCK_LOSSES
        (8192 * port.val + lane.val)).showLock port)) ∧
  -- LANE_LOCK_REGAINED (R290)
  (∀ (s : State) (port : Fin 16) (lane : Fin 9),
     s.portUp port = true →
     exec (.laneLockRegained port lane) s = .next ((s.setPort port { s.port port with lost := Tab.del lane (s.port port).lost }).showLock port))

/-- Lane rotation, calibration and retest: every command of this group completes, and the state it leaves is as its
clause says. Where a clause rests on a choice of the model the choice is in log entry 3 (which states an event
needs). -/
def Obligations.RotationRuns : Prop :=
  -- ROTATION_TIMER (R288)
  (∀ (s : State) (port : Fin 16),
     s.onAt R.HAUL_PORT_CTRL_ROT_EN port = true →
     (s.port port).timers.rot + msTicks (s.rdAt R.HAUL_LANE_CFG_ROT_MS port) ≤ s.now →
     exec (.rotationTimer port) s = .next (s.rotate port)) ∧
  -- ROT_START_RECEIVED (R288)
  (∀ (s u : State) (port : Fin 16) (blk : WireBlock) (m : LaneMsg),
     s.laneMsg port blk = (u, some m) → m.kind = 3 → freshOp (u.port port).opSeen m.opId = true →
     exec (.rotStartReceived port blk) s = .next (
      ((u.setPort port { u.port port with
        opSeen := some m.opId, copyTx := some ⟨m.logical, m.src, m.dst, true⟩, done := none
        patternTx := if (u.port port).patternTx = some m.dst then none else (u.port port).patternTx }).showMarks port).sendLane port
      ⟨4, m.logical, m.src, m.dst, m.opId⟩ 1)) ∧
  -- ROT_READY_RECEIVED (R288, R290)
  (∀ (s u : State) (port : Fin 16) (blk : WireBlock) (m : LaneMsg) (r : LaneOp),
     s.laneMsg port blk = (u, some m) → (u.port port).rot = some r → m.kind = 4 → m.opId = (u.port port).opId →
     exec (.rotReadyReceived port blk true) s = .next (
      let v := u.setPort port { u.port port with
        rot := none, calib := some r.src, timers := { (u.port port).timers with calib := u.now } };
      ((((v.remap port r.logical r.dst).setSpare port none).setLaneState port r.src 2).sendLane port
        ⟨5, r.logical, r.src, r.dst, (u.port port).opId⟩ 1).showLock port) ∧
     exec (.rotReadyReceived port blk false) s = .next (u.setPort port { u.port port with rot := some { r with ready := true } })) ∧
  -- ROT_DONE_RECEIVED (R288)
  (∀ (s u : State) (port : Fin 16) (blk : WireBlock) (m : LaneMsg),
     s.laneMsg port blk = (u, some m) → m.kind = 5 → (u.port port).opSeen = some m.opId → (u.port port).copyTx.isSome = true →
     exec (.rotDoneReceived port blk) s = .next (
      let v := u.setPort port { u.port port with copyTx := none, patternTx := some m.src };
      ((v.wrAt R.HAUL_LANE_MAP_TX_LOGICAL port (setLane (v.rdAt R.HAUL_LANE_MAP_TX_LOGICAL port) m.logical m.dst)).wrAt
        R.HAUL_LANE_MAP_TX_SPARE port m.src).showMarks port)) ∧
  -- CALIBRATION_END (R288, R289)
  (∀ (s u : State) (port : Fin 16) (symbols x : Nat),
     (s.port port).calib = some x → (s.port port).timers.calib + msTicks 1 ≤ s.now →
     (((s.setPort port { s.port port with calib := none }).wrAt R.HAUL_PORT_STATUS_ROTATING port 0).incAt
       R.HAUL_LANE_COUNT_ROTATIONS port).trace 7 (occField 12 port) 12 port 0 = u →
     (u.lanePasses port symbols = true → s.now ≤ (s.port port).timers.calib + msTicks (s.rdAt R.HAUL_LANE_CFG_CAL_MS port + 1) →
       exec (.calibrationEnd port symbols) s = .next (u.setSpare port (some x))) ∧
     (u.lanePasses port symbols = false ∨ (s.port port).timers.calib + msTicks (s.rdAt R.HAUL_LANE_CFG_CAL_MS port + 1) < s.now →
       exec (.calibrationEnd port symbols) s = .next (
         (((u.laneFailed port x).noSpare port).incAt R.HAUL_LANE_COUNT_CAL_FAILS port).wrAt R.HAUL_EVENT_CAL_FAIL port 1))) ∧
  -- FAILED_LANE_RETEST (R289)
  (∀ (s u : State) (port : Fin 16) (lane : Fin 9) (symbols : Nat),
     s.portUp port = true → bit lane (s.rdAt R.HAUL_LANE_MAP_FAILED port) = true →
     Tab.get 0 lane.val (s.port port).timers.retest + msTicks 1000 ≤ s.now →
     (s.onTimers port fun t => { t with retest := Tab.ins lane s.now t.retest }) = u →
     (u.lanePasses port symbols = true → exec (.failedLaneRetest port lane symbols) s = .next (
       let v := u.wrAt R.HAUL_LANE_MAP_FAILED port (s.rdAt R.HAUL_LANE_MAP_FAILED port - 2 ^ lane.val)
       let w := v.setPort port { v.port port with lost := Tab.del lane (v.port port).lost }
       if (w.logicalOf port lane).isSome then (w.setLaneState port lane 0).showLock port else w.setSpare port (some lane))) ∧
     (u.lanePasses port symbols = false → exec (.failedLaneRetest port lane symbols) s = .next u)) ∧
  -- FORCE_ROT (R294)
  (∀ (s : State) (port : Fin 16),
     exec (.forceRot port) s = .next (s.rotate port))

/-- Port enable, retrain, telemetry, restore and detour: every command of this group completes, and the state it leaves
is as its clause says. Where a clause rests on a choice of the model the choice is in log entry 3 (which states an event
needs) and log entries 57, 58 and 155. -/
def Obligations.PortRulesRun : Prop :=
  -- LINK_DOWN_TIMEOUT (R290)
  (∀ (s : State) (port : Fin 16),
     s.portUp port = true →
     (s.onAt R.HAUL_PORT_STATUS_LOCK_LOST port = true →
       (s.port port).lostAt + usTicks (s.rdAt R.HAUL_CFG_LINK_DOWN_US port) ≤ s.now →
       exec (.linkDownTimeout port) s = .next (s.linkDown port 1)) ∧
     (s.onAt R.HAUL_PORT_STATUS_LOCK_LOST port = false → 0 < s.rdAt R.HAUL_SEQ_OUTSTANDING port →
       (s.port port).timers.advance + usTicks (s.rdAt R.HAUL_CFG_LINK_DOWN_US port) ≤ s.now →
       exec (.linkDownTimeout port) s = .next (s.linkDown port 2))) ∧
  -- HAUL_PORT_RESET (R293)
  (∀ (s : State) (port : Fin 16),
     s.portUp port = false →
     exec (.haulPortReset port) s = .next (let u := (s.setPort port HaulPort.reset).resetPortRegs port
      if u.onAt R.HAUL_PORT_CTRL_ENABLE port then u.showMarks port else u.setTrain port 0)) ∧
  -- HAUL_RETRAIN (R290, R294)
  (∀ (s : State) (port : Fin 16),
     s.portUp port = true →
     exec (.haulRetrain port) s = .next (s.linkDown port 5)) ∧
  -- HAUL_PORT_ENABLE (R280, R290)
  (∀ (s : State) (port : Fin 16) (enable : Bool),
     enable = true → s.train port = 0 → 2 ≤ s.pwr.railsUp →
     exec (.haulPortEnable port enable) s = .next ((s.wrAt R.HAUL_PORT_CTRL_ENABLE port 1).setTrain port 1)) ∧
  -- PORT_DETOUR_FAST (R309)
  (∀ (s : State) (port : Fin 16),
     s.portUp port = true → s.onAt R.HAUL_PORT_STATUS_LOCK_LOST port = true →
     (s.port port).lostAt + usTicks (s.rd R.SCH_CFG_FAST_US) ≤ s.now →
     exec (.portDetourFast port) s = .next (s.detourPort port 2 (s.port port).lostAt)) ∧
  -- PORT_RESTORE (R309, R337)
  (∀ (s : State) (n : Nat) (p : Plan),
     s.sch.restoreAt = some n → s.pln.active = some p → n ≤ s.now → s.atStepStart = true →
     exec .portRestore s = .next (let back := (List.range 16).filter fun q => s.onAt R.SCH_PORT_DETOURED q && s.portUp q && !s.portMismatch p q
      let u := back.foldl State.restorePort { s with sch := { s.sch with restoreAt := none } }
      (u.bar (u.sch.barred.filter fun q => !back.contains q)).changeApplied 8 0 (back.map fun q => 2 ^ q).sum)) ∧
  -- RESTORE_ARM (R309, R370)
  (∀ (s : State) (p : Plan),
     s.pln.active = some p → p.count ≤ 1 → s.last R.SCH_RESTORE_AT_AT % 16 = 0 → s.now < s.last R.SCH_RESTORE_AT_AT →
     exec .restoreArm s = .next ({ s with sch := { s.sch with restoreAt := some (s.last R.SCH_RESTORE_AT_AT) } }.wr R.SCH_RESTORE_AT_AT (s.last R.SCH_RESTORE_AT_AT))) ∧
  -- CLEAR_FWD (R326)
  (∀ (s : State),
     s.planActive = false →
     exec .clearFwd s = .next (State.showEntries { s with sch := { s.sch with
      jobs := Tab.del 7 s.sch.jobs, held := s.sch.held.filter (fun b => b.slot != 7), leased := [], broken := [], withheld := [] } })) ∧
  -- ROUTE_DOWN_RECEIVED (R310)
  (∀ (s : State) (n : RouteDown) (k : Nat),
     s.slotOf n.plan = some k →
     (n.route ∈ s.sch.broken → exec (.routeDownReceived n) s = .next (s.inc R.SCH_DETOUR_DOWN_RX)) ∧
     (n.route ∉ s.sch.broken → exec (.routeDownReceived n) s = .next (
       let u := s.inc R.SCH_DETOUR_DOWN_RX
       State.resendBroken { u with sch := { u.sch with broken := n.route :: u.sch.broken } })))

/-- Holds, replays and the service layer: every command of this group completes, and the state it leaves is as its
clause says. Where a clause rests on a choice of the model the choice is in log entry 3 (which states an event
needs) and log entries 53, 54 and 57. -/
def Obligations.HoldsAndServiceRun : Prop :=
  -- HOLD_NOTICE_RECEIVED (R312)
  (∀ (s : State) (source : Fin 65536) (n : Notice) (k : Nat) (j : Job),
     s.slotOf n.plan = some k → s.job? k = some j → (s.relayNotice j source 1 n).now < n.point →
     exec (.holdNoticeReceived source n) s = .next ((s.relayNotice j source 1 n).latchHold k n.point n.arg n.code)) ∧
  -- HOLD_POINT (R312, R325)
  (∀ (s : State) (slot : Fin 8) (j : Job) (p : HoldPoint),
     s.job? slot = some j → j.hold = none → j.duePoint s.now = some p → j.abandonsAt p.point = false →
     exec (.holdPoint slot) s = .next (
      let start := j.startOf p
      let u := s.setJob slot { j with hold := some ⟨start, start + p.quanta * j.q, p.quanta, p.cause⟩, points := j.points.filter (· != p) }
      if slot.val = 7 then (((u.countHold p.cause).wr R.SCH_EVENT_HOLD 1).inc R.TAL_HOLDS_COUNT).showStopEnd.showJob else u)) ∧
  -- HOLD_END (R314, R316)
  (∀ (s : State) (slot : Fin 8) (j : Job) (h : HoldRun) (u : State),
     s.job? slot = some j → j.hold = some h → h.stop ≤ s.now →
     (j.replay = none → (s.setJob slot { j with hold := none, holdEnd := h.stop }).addHolds slot (h.stop - h.start) = u →
       exec (.holdEnd slot) s = .next (if slot.val = 7 then (u.deficitsGone.showStopEnd).showJob else u)) ∧
     (∀ r, j.replay = some r → s.setJob slot { j with hold := none, holdEnd := h.stop
                                                      replay := some (if r.phase = .gap then { r with gapEnd := r.gapEnd + (h.stop - h.start) }
                                                        else { r with holds := r.holds + (h.stop - h.start) }) } = u →
       exec (.holdEnd slot) s = .next (if slot.val = 7 then (u.deficitsGone.showStopEnd).showJob else u))) ∧
  -- REPLAY_NOTICE_RECEIVED (R316)
  (∀ (s : State) (source : Fin 65536) (n : Notice) (k : Nat) (j : Job),
     s.slotOf n.plan = some k → s.job? k = some j → (s.relayNotice j source 2 n).now < n.point → j.replay = none →
     exec (.replayNoticeReceived source n) s = .next ((s.relayNotice j source 2 n).latchReplay k ⟨n.point, n.arg, n.attempt, n.step, n.code⟩)) ∧
  -- ABANDON_POINT (R316, R374)
  (∀ (s u : State) (slot : Fin 8) (j : Job) (n : ReplayNotice) (run : ReplayRun),
     s.job? slot = some j → j.notice = some n → n.point ≤ s.now → s.undoSplit slot = u → (u.job? slot).isSome = true →
     n.attempt ≤ u.rd R.SCH_CFG_MAX_REPLAYS → u.spanOf slot j n = run →
     exec (.abandonPoint slot) s = .next (
      let k := { j with
        notice := none, hold := none, replay := some run, attempt := n.attempt
        begun := j.begun.filter fun x => match j.entry? x with | some e => !bit e.ctx run.mask | none => false }
      if slot.val = 7 then (((u.holdForks j run.mask).setJob slot k).abandonAll run n.code).showJob else u.setJob slot k)) ∧
  -- REPLAY_GAP_END (R139, R316)
  (∀ (s : State) (slot : Fin 8) (ready : Bool) (j : Job) (r : ReplayRun),
     s.job? slot = some j → j.replay = some r → r.phase = .gap → j.holdFrom s.now = none → r.gapEnd ≤ s.now →
     exec (.replayGapEnd slot ready) s = .next (let u := s.setJob slot { j with replay := some { r with phase := .rerun, rerunStart := r.gapEnd } };
      let v := (maskList r.mask).foldl (fun s c => if s.ctxRunning c then s.fetchEntries c else s) (u.substituteAll.runPrologues r.mask)
      if slot.val = 7 then (if !ready || v.repairing then v.holdRequest 1 5 else v) else u)) ∧
  -- REPLAY_REJOIN (R316, R317)
  (∀ (s : State) (slot : Fin 8) (j : Job) (r : ReplayRun),
     s.job? slot = some j → j.replay = some r → r.phase = .rerun → j.holdFrom s.now = none →
     r.target ≤ s.now - r.rerunStart - r.holds →
     exec (.replayRejoin slot) s = .next (
      let u := (s.setJob slot { j with replay := none }).addHolds slot (r.rerunStart + r.holds + r.target - r.start)
      let again := match j.notice with | some n => n.mask | none => 0
      if slot.val = 7 then
        { u with sch := { u.sch with withheld := u.sch.withheld.filter fun c => !bit c r.mask || bit c again }
                 pwr := { u.pwr with heldForks := [] } }.showStopEnd.showJob
      else u)) ∧
  -- SERVICE_INJECTION (R320, R323)
  (∀ (s : State) (kind : Fin 256) (dest : Fin 65536) (express : Bool) (payload : List Byte),
     1 ≤ kind.val → kind.val ≤ 9 → payload.length ≤ 3888 →
     exec (.serviceInjection kind dest express payload) s = .next (s.sendService kind dest express payload)) ∧
  -- THROTTLE_SAMPLE (R323)
  (∀ (s : State) (n : Nat),
     (s.sch.waiting.map fun w => w.data.length).sum = n →
     exec .throttleSample s = .next (State.pumpAll ((List.range 16).foldl (fun s p => (s.sampleDepth p 0).sampleDepth p 1)
      (if s.rd R.SCH_SVC_CFG_THROTTLE_HI < n ∧ s.sch.throttled = false then
        ({ s with sch := { s.sch with throttled := true } }.inc R.SCH_SVC_COUNT_THROTTLES).wr R.SCH_EVENT_THROTTLE 1
       else if n < s.rd R.SCH_SVC_CFG_THROTTLE_LO then { s with sch := { s.sch with throttled := false } }
       else s)))) ∧
  -- TELEMETRY_PERIOD (R324)
  (∀ (s : State),
     s.on R.SCH_TELEM_EN = true → s.sch.telemFrom + msTicks (s.rd R.SCH_TELEM_PERIOD_MS) ≤ s.now →
     exec .telemetryPeriod s = .next (s.closeTelemetry)) ∧
  -- TELEM_NOW (R327)
  (∀ (s : State),
     exec .telemNow s = .next (s.closeTelemetry))

/-- Discovery, leases and forwarding loads: every command of this group completes, and the state it leaves is as its
clause says. Where a clause rests on a choice of the model the choice is in log entry 3 (which states an event needs)
and log entries 13, 60, 77, 78, 79 and 154. -/
def Obligations.DiscoveryAndForwardingRun : Prop :=
  -- PROBE_RECEIVED (R339)
  (∀ (s : State) (port : Fin 16) (d : DiscPkt),
     discEnds d 1 = true →
     exec (.probeReceived port d) s = .next (s.probed d (discBack d port))) ∧
  -- ASSIGN_RECEIVED (R339, R341)
  (∀ (s : State) (port : Fin 16) (d : DiscPkt),
     discEnds d 3 = true → d.body.length = 12 → beAt 0 2 d.body < 4096 → bits 3 2 (beAt 2 1 d.body) = 0 → bits 1 0 (beAt 2 1 d.body) ≠ 3 →
     beAt 3 1 d.body = 0 →
     exec (.assignReceived port d) s = .next (s.assigned d (discBack d port))) ∧
  -- ROUTES_RECEIVED (R339, R340, R341)
  (∀ (s : State) (port : Fin 16) (d : DiscPkt),
     discEnds d 5 = true → routesOk d.body = true →
     exec (.routesReceived port d) s = .next (s.routesReceived d (discBack d port))) ∧
  -- NEIGHBOUR_RECEIVED (R339, R340, R361)
  (∀ (s : State) (port : Fin 16) (d : DiscPkt),
     discEnds d 6 = true → d.len = 0 → d.body.length = 12 → beAt 3 1 d.body = 0 → numberOk (beAt 0 2 d.body) = true →
     s.rdAt R.TOP_PORT_PARTNER port = beAt 0 2 d.body → s.rdAt R.TOP_PORT_PARTNER_PORT port = beAt 2 1 d.body →
     s.rdAt R.TOP_PORT_USE port ≠ 4 →
     exec (.neighbourReceived port d) s = .next (
      (((s.wrAt R.TOP_PORT_PARTNER port (beAt 0 2 d.body)).wrAt R.TOP_PORT_PARTNER_PORT port (beAt 2 1 d.body)).barMismatch port).showMismatch port)) ∧
  -- LEASE_WRITE (R343, R348)
  (∀ (s : State) (lease : Fin 8) (plan : Bool) (value : Nat),
     s.leaseRuns lease = false → plan = true → value < 2 ^ 64 →
     ∃ t, exec (.leaseWrite lease plan value) s = .next t ∧
         t.rdAt R.TOP_LEASE_PLAN_PLAN lease = value ∧ t.mem = s.mem) ∧
  -- LEASE_ENABLE (R343, R349, R368)
  (∀ (s : State) (en : Bool),
     s.running .top R.TOP_LEASE_CTRL_EN.addr = false →
     exec (.leaseEnable en) s = .next (let u := s.wr R.TOP_LEASE_CTRL_EN (flag en)
      (List.range 8).foldl (fun s n => s.holdLease n ((s.validLeases n).filter (· < n))) u)) ∧
  -- FWD_LOAD (R343, R344)
  (∀ (s : State) (slot : Fin 8) (arrivals : List RouteArrival) (base : Nat) (l : List Section) (p : Plan),
     slot.val ≠ 7 → (s.rdAt R.TOP_FWD_STATUS_STATE slot < 2 ∨ 4 < s.rdAt R.TOP_FWD_STATUS_STATE slot) →
     s.rd R.TOP_FWD_SRC_ADDR / 4096 * 4096 = base → s.fwdSections base = l → s.fwdPlan base l = p →
     ∃ t, exec (.fwdLoad slot arrivals) s = .next t ∧ t.mem = s.mem ∧
         match firstFailure (s.fwdFailures base l p ++ if s.buffersOk p arrivals then [] else [(0x0B, indexOf l 8, 0)]) with
         | none => Tab.find? slot.val t.top.loads = some ⟨p, 0, none⟩ ∧ t.rdAt R.TOP_FWD_STATUS_STATE slot = 1 ∧
             t.rdAt R.TOP_FWD_STATUS_CODE slot = 0
         | some _ => Tab.find? slot.val t.top.loads = none ∧ t.rdAt R.TOP_FWD_STATUS_STATE slot = 5 ∧ t.rd R.TOP_EVENT_FWD_FAILED = 1) ∧
  -- FWD_ARM (R344, R348, R370)
  (∀ (s : State) (slot : Fin 8) (l : FwdLoad),
     Tab.find? slot.val s.top.loads = some l → s.rdAt R.TOP_FWD_STATUS_STATE slot = 1 → l.plan.count ≤ 1 →
     s.loadLeased l = true → s.fwdCountOk = true →
     exec (.fwdArm slot) s = .next (s.setArmed slot 2 l)) ∧
  -- FWD_UNLOAD_ARM (R344, R370)
  (∀ (s : State) (slot : Fin 8) (l : FwdLoad),
     Tab.find? slot.val s.top.loads = some l → s.rdAt R.TOP_FWD_STATUS_STATE slot = 3 → l.plan.count ≤ 1 →
     s.fwdCountOk = true →
     exec (.fwdUnloadArm slot) s = .next (s.setArmed slot 4 l)) ∧
  -- FWD_DISARM (R349)
  (∀ (s : State) (slot : Fin 8),
     s.rdAt R.TOP_FWD_STATUS_STATE slot = 2 → (∀ l, Tab.find? slot.val s.top.loads = some l → s.now < l.armedAt) →
     (9, slot.val) ∉ s.olc.applied → (10, slot.val) ∉ s.olc.applied →
     exec (.fwdDisarm slot) s = .next ((s.wrAt R.TOP_FWD_STATUS_STATE slot 1).dropChange 9 slot)) ∧
  -- FWD_DISARM (R369)
  (∀ (s : State) (slot : Fin 8) (l : FwdLoad),
     s.rdAt R.TOP_FWD_STATUS_STATE slot = 2 → Tab.find? slot.val s.top.loads = some l → l.armedAt ≤ s.now →
     exec (.fwdDisarm slot) s = .next (s.wr R.TOP_EVENT_FWD_FAILED 1)) ∧
  -- FWD_LOAD_EFFECT (R344)
  (∀ (s : State) (slot : Fin 7) (l : FwdLoad),
     Tab.find? slot.val s.top.loads = some l → l.armedAt ≤ s.now → s.rdAt R.TOP_FWD_STATUS_STATE slot = 2 →
     exec (.fwdLoadEffect slot) s = .next (((s.setJob slot (s.fwdJob l.plan)).wrAt R.TOP_FWD_STATUS_STATE slot 3).changeApplied 9 slot 0))

/-- Items received from a twin: every command of this group completes, and the state it leaves is as its clause says.
Where a clause rests on a choice of the model the choice is in log entry 3 (which states an event needs) and log entries
76, 102 and 158. -/
def Obligations.TwinItemsRun : Prop :=
  -- TWIN_SET_RECEIVED (R357)
  (∀ (s : State) (port : Fin 16) (blk : WireBlock) (count : Nat) (cells : List CellReading) (b : LinkBlock) (u : State) (c w : Nat) (x : TwinItem) (e : IntakeEntry) (r : IntakeRun) (v : WindowRec),
     s.rdAt R.TOP_PORT_USE port = 4 → (s.accept port blk).2 = some b → b.type = 1 → beAt 0 1 b.data = 1 →
     (s.accept port blk).1.takeItem 1 count cells b.data = (u, some (c, w)) → u.wholeItem 1 c w = some x →
     u.intake? c = some e → u.run? c = some r → r.windows.find? (fun v => v.index == w) = some v →
     exec (.twinSetReceived port blk count cells) s = .next (u.takeSet e r v x)) ∧
  -- TWIN_INDEX_RECEIVED (R354)
  (∀ (s : State) (port : Fin 16) (blk : WireBlock) (count : Nat) (b : LinkBlock) (u : State) (c w : Nat) (x : TwinItem),
     s.rdAt R.TOP_PORT_USE port = 4 → (s.accept port blk).2 = some b → b.type = 1 → beAt 0 1 b.data = 2 →
     (s.accept port blk).1.takeItem 2 count [] b.data = (u, some (c, w)) → u.wholeItem 2 c w = some x →
     exec (.twinIndexReceived port blk count) s = .next (u)) ∧
  -- TWIN_STATE_RECEIVED (R354)
  (∀ (s : State) (port : Fin 16) (blk : WireBlock) (count : Nat) (b : LinkBlock) (u : State) (c w : Nat) (x : TwinItem),
     s.rdAt R.TOP_PORT_USE port = 4 → (s.accept port blk).2 = some b → b.type = 1 → beAt 0 1 b.data = 3 →
     (s.accept port blk).1.takeItem 3 count [] b.data = (u, some (c, w)) → u.wholeItem 3 c w = some x →
     exec (.twinStateReceived port blk count) s = .next (u)) ∧
  -- TWIN_TAGS_RECEIVED (R357)
  (∀ (s : State) (port : Fin 16) (blk : WireBlock) (count : Nat) (b : LinkBlock) (u : State) (c w : Nat) (x : TwinItem),
     s.rdAt R.TOP_PORT_USE port = 4 → (s.accept port blk).2 = some b → b.type = 1 → beAt 0 1 b.data = 4 →
     (s.accept port blk).1.takeItem 4 count [] b.data = (u, some (c, w)) → u.wholeItem 4 c w = some x →
     exec (.twinTagsReceived port blk count) s = .next (u)) ∧
  -- TWIN_ACK_RECEIVED (R355)
  (∀ (s : State) (port : Fin 16) (blk : WireBlock) (b : LinkBlock) (u : State) (c w : Nat) (x : TwinItem),
     s.rdAt R.TOP_PORT_USE port = 4 → (s.accept port blk).2 = some b → b.type = 1 → beAt 0 1 b.data = 5 →
     (s.accept port blk).1.takeItem 5 1 [] b.data = (u, some (c, w)) → u.wholeItem 5 c w = some x →
     exec (.twinAckReceived port blk) s = .next ({ u.dropItem 5 c w with
            twn := { (u.dropItem 5 c w).twn with acked := Tab.ins c (beNat ((itemBytes x).take 8)) (u.dropItem 5 c w).twn.acked } }.wrAt
        R.TWN_APPLIED_WINDOW c (beNat ((itemBytes x).take 8))))

/-- Twin compares, takeover, solo and partner loss: every command of this group completes, and the state it leaves is as
its clause says. Where a clause rests on a choice of the model the choice is in log entry 3 (which states an event
needs) and log entries 75, 76, 158 and 159. -/
def Obligations.TwinRulesRun : Prop :=
  -- REPLICA_SET_SHIP (R88, R357)
  (∀ (s u : State) (ctx : Fin 16) (e : IntakeEntry) (r : IntakeRun) (w : WindowRec),
     s.intake? ctx = some e → s.run? ctx = some r → r.windows.find? (fun w => !w.setShipped) = some w →
     s.replicates ctx = true → s.on R.TWN_STATUS_ROLE_NOW = false → s.timeDue (w.closeNominal + 128) = true →
     (s.readSpans ctx (s.setSpans e w) = (u, true) → exec (.replicaSetShip ctx) s = .next (
       let p := (u.shipItem 1 ctx w.index (u.setItem e w)).shipTags e { w with setShipped := true };
       p.1.setWindow ctx r p.2)) ∧
     (s.readSpans ctx (s.setSpans e w) = (u, false) → exec (.replicaSetShip ctx) s = .next u)) ∧
  -- REPLICA_SET_CHECK (R358)
  (∀ (s : State) (ctx : Fin 16) (e : IntakeEntry) (r : IntakeRun) (w : WindowRec) (x : TwinItem),
     s.intake? ctx = some e → s.run? ctx = some r → r.windows.find? (fun w => !w.setShipped) = some w →
     s.replicates ctx = true → s.on R.TWN_STATUS_ROLE_NOW = true → s.checkDue w (s.rd R.ITK_CFG_SEAL_TICKS) = true →
     s.wholeItem 1 ctx w.index = some x →
     exec (.replicaSetCheck ctx) s = .next (s.takeSet e r w x)) ∧
  -- REPLICA_COMPARE (R357, R358)
  (∀ (s : State) (ctx : Fin 16) (e : IntakeEntry) (r : IntakeRun) (w : WindowRec) (x : TwinItem),
     s.intake? ctx = some e → s.run? ctx = some r → r.windows.find? (fun w => !w.compared) = some w →
     s.replicates ctx = true → s.checkDue w (s.rdAt R.TWN_CTX_COMPARE_TICKS ctx) = true → w.quarantined = false →
     w.tagsSent = true → s.wholeItem 4 ctx w.index = some x →
     ((itemBytes x).take e.slots).contains 1 = false → firstDiffering e.slots (tagsItem e w) (itemBytes x) = none →
     exec (.replicaCompare ctx) s = .next (let u := (s.dropItem 4 ctx w.index).setWindow ctx r { w with compared := true, recheck := none };
      (u.inc R.TWN_COUNT_BATCHES).wrAt R.TWN_APPLIED_WINDOW ctx w.index)) ∧
  -- TWN_TAKEOVER (R356, R360)
  (∀ (s : State),
     s.on R.TWN_STATUS_ROLE_NOW = true → s.rd R.TWN_STATUS_STATE = 1 → s.twn.takeoverAt = none →
     ∃ t, exec .twnTakeover s = .next t ∧
         t.twn.takeoverAt = some (s.now + s.rd R.TWN_CFG_TAKEOVER_LEAD) ∧ t.mem = s.mem) ∧
  -- TWN_SOLO (R359)
  (∀ (s : State),
     s.rd R.TWN_STATUS_STATE = 1 → s.twn.lost = false → s.on R.TWN_STATUS_ROLE_NOW = false →
     ∃ t, exec .twnSolo s = .next t ∧
         t.rd R.TWN_STATUS_STATE = 2 ∧ t.rd R.TWN_EVENT_LOST = 1 ∧ t.twn.lost = true) ∧
  -- TAKEOVER_EFFECT (R356; the Notice where no window is applied: log entry 159)
  (∀ (s : State) (ctx : Fin 16) (n : Nat) (r : IntakeRun),
     s.twn.takeoverAt = some n → s.run? ctx = some r → n ≤ s.now → r.standby = true → r.openAt = s.now →
     exec (.takeoverEffect ctx) s = .next (
      let u := { s with twn := { s.twn with takenFrom := Tab.ins ctx r.window s.twn.takenFrom } }.setRun ctx { r with standby := false }
      (((u.wr R.TWN_STATUS_STATE 3).wr R.TWN_STATUS_ROLE_NOW 0).wr R.TWN_EVENT_TAKEOVER 1).notice 15 0x80 0 ctx
        ((s.lastApplied ctx + 2 ^ 32 - 1) % 2 ^ 32))) ∧
  -- PARTNER_LOST (R359)
  (∀ (s : State),
     s.twinPorts = [] → s.rd R.TWN_STATUS_STATE = 1 → s.twn.lost = false → s.on R.TWN_STATUS_ROLE_NOW = false →
     ∃ t, exec .partnerLost s = .next t ∧
         t.rd R.TWN_STATUS_STATE = 2 ∧ t.rd R.TWN_EVENT_LOST = 1 ∧ t.twn.lost = true)

/-- Olico link and register access: every command of this group completes, and the state it leaves is as its clause
says. Where a clause rests on a choice of the model the choice is in log entry 3 (which states an event needs) and log
entries 82, 83, 84 and 116. -/
def Obligations.OlicoAndRegistersRun : Prop :=
  -- OLICO_FLIT_RETRY (R364, R382)
  (∀ (s : State),
     s.olicoUp = true →
     ∃ t, exec .olicoFlitRetry s = .next t ∧ t = (s.inc R.OLC_ERR_RETRIES).corrected 16 0x64 (regionField 38) 0 0 0 ∧
         t.rd R.OLC_ERR_RETRIES = min (s.rd R.OLC_ERR_RETRIES + 1) R.OLC_ERR_RETRIES.max ∧ t.mem = s.mem) ∧
  -- OLICO_LANE_FAIL (R364)
  (∀ (s : State) (tx : Bool) (lanes : List (Fin 32)) (new : List Nat),
     tx = true → (lanes.map Fin.val).foldl (fun l x => addOnce x l) s.olc.failedTx = new →
     s.olc.failedTx.length < new.length → s.rd R.OLC_STATUS_STATE ≠ 0 → halvesLost new = false →
     exec (.olicoLaneFail tx lanes) s = .next (((({ s with olc := { s.olc with failedTx := new } }.addAt R.OLC_ERR_LANE_FAILS 0 (new.length - s.olc.failedTx.length)).showOlico).wr
      R.OLC_EVENT_DEGRADED 1).fault 16 0x81 0 0 new.length)) ∧
  -- OLICO_NO_PROGRESS (R364)
  (∀ (s : State),
     s.olicoUp = true →
     ∃ t, exec .olicoNoProgress s = .next t ∧
         t.rd R.OLC_STATUS_STATE = 1 ∧ t.rd R.OLC_EVENT_DOWN = 1 ∧ t.mem = s.mem) ∧
  -- OLICO_RETRAIN_DONE (R364, R366)
  (∀ (s : State) (badTx badRx : List (Fin 32)),
     s.rd R.OLC_STATUS_STATE = 1 → s.fst.booted = true → badTx = [] → badRx = [] →
     exec (.olicoRetrainDone badTx badRx) s = .next (let u := { s with olc := { s.olc with failedTx := [], failedRx := [] } }.showOlico.wr R.OLC_STATUS_STATE 2
      u.drainItems u.gen.dieItems)) ∧
  -- CSR_ACCESS_ERROR (R367)
  (∀ (s : State) (offset width : Nat),
     width ≠ 64 ∨ offset % 8 ≠ 0 →
     ∃ t, exec (.csrAccessError offset width) s = .next t ∧
         t.rd R.OLC_EVENT_BAD_CSR = 1 ∧ t.sent.head? = some (.register false 0) ∧ t.mem = s.mem) ∧
  -- REGISTER_WRITE (R368)
  (∀ (s : State) (offset : Nat) (value : Word) (inp : ActionInput),
     offset % 8 = 0 →
     exec (.registerWrite offset value inp) s = .next ((s.writeCsr offset value.toNat inp).emit (.register true 0))) ∧
  -- CHANGE_NEXT_WRITE (R371, R380)
  (∀ (s : State) (value : Nat),
     value < 2 ^ 40 →
     ∃ t, exec (.changeNextWrite value) s = .next t ∧
         t.rd R.OLC_CHANGE_NEXT_ID = value % 2 ^ 32 ∧ t.rd R.OLC_CHANGE_NEXT_FRESH = 1 ∧ t.mem = s.mem)

/-- Two-phase changes: every command of this group completes, and the state it leaves is as its clause says. Where a
clause rests on a choice of the model the choice is in log entry 3 (which states an event needs) and log entries 14,
80 and 81. -/
def Obligations.TwoPhaseChangesRun : Prop :=
  -- OLC_ARM (R370)
  (∀ (s : State) (p : Plan),
     s.pln.active = some p → p.count ≤ 1 → (s.ctx? (s.rd R.OLC_CHANGE_NEXT_CONTEXT)).isSome = true →
     s.last R.OLC_CHANGE_AT_AT % 16 = 0 → s.now < s.last R.OLC_CHANGE_AT_AT →
     Tab.find? (s.rd R.OLC_CHANGE_NEXT_CONTEXT) s.olc.extArmed = none →
     exec .olcArm s = .next ({ s with olc := { s.olc with extArmed := Tab.ins (s.rd R.OLC_CHANGE_NEXT_CONTEXT) (s.last R.OLC_CHANGE_AT_AT) s.olc.extArmed } })) ∧
  -- OLC_DISARM (R380)
  (∀ (s : State),
     s.armedChange? 7 (s.rd R.OLC_CHANGE_NEXT_CONTEXT) = none → (7, s.rd R.OLC_CHANGE_NEXT_CONTEXT) ∉ s.olc.applied →
     (∀ n r, Tab.find? (s.rd R.OLC_CHANGE_NEXT_CONTEXT) s.olc.extArmed = some n → s.ctx? (s.rd R.OLC_CHANGE_NEXT_CONTEXT) = some r →
       n ≤ s.now → r.start ≠ s.now) →
     exec .olcDisarm s = .next ({ s with olc := { s.olc with extArmed := Tab.del (s.rd R.OLC_CHANGE_NEXT_CONTEXT) s.olc.extArmed } }.dropChange 7
      (s.rd R.OLC_CHANGE_NEXT_CONTEXT))) ∧
  -- OLC_DISARM (R369)
  (∀ (s : State),
     (7, s.rd R.OLC_CHANGE_NEXT_CONTEXT) ∈ s.olc.applied →
     exec .olcDisarm s = .next (s.wr R.OLC_EVENT_ARM_REFUSED 1)) ∧
  -- ARM_DEADLINE (R372)
  (∀ (s : State) (change : Nat),
     exec (.armDeadline change) s = .next (s)) ∧
  -- VOTE_COUNT (R372)
  (∀ (s : State) (change : Nat) (c : Change),
     s.change? change = some c → c.root = s.number → c.counted = false →
     c.effect + s.rd R.OLC_2PC_VOTE_TICKS ≤ s.now + s.rd R.OLC_2PC_LEAD_TICKS → c.participants ≤ c.votes →
     exec (.voteCount change) s = .next (s.onChanges (·.id == change) fun x => { x with counted := true })) ∧
  -- ARMED_RECEIVED (R372)
  (∀ (s : State) (pkt : ControlPkt) (c : Change),
     pkt.op = 1 → pkt.kindOk = true → s.change? pkt.id = some c →
     exec (.armedReceived pkt) s = .next (s.onChanges (·.id == pkt.id) fun c => { c with votes := c.votes + 1 })) ∧
  -- REFUSED_RECEIVED (R375)
  (∀ (s : State) (pkt : ControlPkt),
     pkt.op = 2 → pkt.kindOk = true →
     exec (.refusedReceived pkt) s = .next (s.onChanges (·.id == pkt.id) fun c => { c with refusals := c.refusals + 1 })) ∧
  -- SPLIT_RECEIVED (R373)
  (∀ (s : State) (source : Fin 65536) (pkt : ControlPkt) (c : Change),
     pkt.op = 3 → pkt.kindOk = true → s.change? pkt.id = some c → c.state = 1 →
     exec (.splitReceived source pkt) s = .next (((s.inc R.OLC_SPLIT_LATCHED).sendAll 8 true pkt.encode (c.neighbours.filter (· != source.val))).latchSplit c pkt.point pkt.reason)) ∧
  -- SPARE_EXTENSION_EFFECT (R140, R370)
  (∀ (s : State) (ctx : Fin 16) (p : Plan) (r : CtxRun) (n : Nat),
     s.pln.active = some p → s.ctx? ctx = some r → Tab.find? ctx.val s.olc.extArmed = some n → n ≤ s.now →
     r.start = s.now → s.gen.retime.contains ctx.val = false →
     exec (.spareExtensionEffect ctx) s = .next (((({ s with olc := { s.olc with extArmed := Tab.del ctx s.olc.extArmed } }.setCtx ctx { r with extended := true }).wrAt
      R.PLN_CTX_CFG_EXTENDED ctx 1).changeApplied 7 ctx 0).showExt)) ∧
  -- CHANGE_FAILED_AT_EFFECT (R374)
  (∀ (s : State) (kind ctx : Fin 16) (n : Nat) (c : Change),
     s.effectOf kind ctx = some n → n ≤ s.now → s.armedChange? kind ctx = some c →
     exec (.changeFailedAtEffect kind ctx) s = .next (State.cannotApply (if kind.val = 1 then s.activationFails
       else if kind.val = 6 then (s.wrAt R.WGT_CTX_SWAP_ARMED ctx 0).wr R.WGT_EVENT_SWAP_DROPPED 1
       else s.withdraw kind ctx) c))

/-- Management sessions and their requests: every command of this group completes, and the state it leaves is as its
clause says. Where a clause rests on a choice of the model the choice is in log entry 3 (which states an event needs)
and log entries 91, 92, 93, 94 and 156. -/
def Obligations.SessionsRun : Prop :=
  -- FCP_HANDSHAKE (R376, R395, R399)
  (∀ (s : State) (profile : Bool) (anchor : Option (Fin 4)) (n : Nat),
     s.fcpUp = true → profile = true → s.nv.owned = false →
     (List.range 8).find? (fun k => (Tab.find? k s.fst.sessions).isNone) = some n →
     exec (.fcpHandshake profile anchor) s = .next ({ s with fst := { s.fst with sessions := Tab.ins n (false, 4) s.fst.sessions } }.emit (.connection true n))) ∧
  -- HELLO (R377)
  (∀ (s : State) (session : Fin 8) (reqId : Nat),
     s.fcpUp = true → (Tab.find? session.val s.fst.sessions).isSome = true → s.serves session 0x01 = true →
     exec (.hello session reqId) s = .next (s.emit (fcpAnswer session 0x01 reqId 0 [1, s.nv.serial, s.number, flag (s.auditor session)] []))) ∧
  -- CSR_READ (R377)
  (∀ (s : State) (session : Fin 8) (reqId module offset count : Nat),
     s.fcpUp = true → (Tab.find? session.val s.fst.sessions).isSome = true → s.serves session 0x10 = true →
     1 ≤ count → count ≤ 512 → module = s.number → offset % 8 = 0 →
     exec (.csrRead session reqId module offset count) s = .next ((s.readCsrs offset count).1.emit (fcpAnswer session 0x10 reqId 0 (s.readCsrs offset count).2 []))) ∧
  -- CSR_WRITE (R377)
  (∀ (s : State) (session : Fin 8) (reqId module : Nat) (pairs : List (Nat × Nat)) (inp : ActionInput),
     s.fcpUp = true → (Tab.find? session.val s.fst.sessions).isSome = true → s.serves session 0x11 = true →
     pairs ≠ [] → pairs.length ≤ 512 → module = s.number →
     exec (.csrWrite session reqId module pairs inp) s = .next ((s.writeCsrs inp pairs).1.emit (fcpAnswer session 0x11 reqId (s.writeCsrs inp pairs).2 [] []))) ∧
  -- MEM_READ (R196, R377)
  (∀ (s : State) (session : Fin 8) (reqId addr length st : Nat) (ecc : MemEcc),
     s.fcpUp = true → (Tab.find? session.val s.fst.sessions).isSome = true → s.serves session 0x20 = true →
     1 ≤ length → length ≤ 2 ^ 20 → globalModule addr = s.number → s.number < 4096 → s.serviceStatus (localPart addr) length = st →
     exec (.memRead session reqId addr length ecc) s = .next (
      if st ≠ 0 then s.emit (fcpAnswer session 0x20 reqId st [] [])
      else State.serveJobs { s with scr := { s.scr with
        jobs := s.scr.jobs ++ [⟨.read, localPart addr, length, ecc, 0, [], false, some (session, reqId)⟩] } })) ∧
  -- MEM_WRITE (R196, R377)
  (∀ (s : State) (session : Fin 8) (reqId addr st : Nat) (bytes : List Byte),
     s.fcpUp = true → (Tab.find? session.val s.fst.sessions).isSome = true → s.serves session 0x21 = true →
     bytes ≠ [] → bytes.length ≤ 2 ^ 20 → globalModule addr = s.number → s.number < 4096 →
     s.serviceStatus (localPart addr) bytes.length = st →
     exec (.memWrite session reqId addr bytes) s = .next (
      if st ≠ 0 then s.emit (fcpAnswer session 0x21 reqId st [] [])
      else if s.writeBarred (localPart addr) bytes.length = true then
        (s.serviceRefused (localPart addr)).emit (fcpAnswer session 0x21 reqId 4 [] [])
      else State.serveJobs { s with scr := { s.scr with
        jobs := s.scr.jobs ++ [⟨.write bytes, localPart addr, bytes.length, ⟨[], [], []⟩, 0, [], false, some (session, reqId)⟩] } })) ∧
  -- SHARD_PUT (R219, R377)
  (∀ (s : State) (session : Fin 8) (reqId ctx entry shard : Nat) (bytes : List Byte),
     s.fcpUp = true → (Tab.find? session.val s.fst.sessions).isSome = true → s.serves session 0x30 = true → ctx < 16 →
     entry < 4 → bytes.length ≤ 2 ^ 20 →
     exec (.shardPut session reqId ctx entry shard bytes) s = .next (let r := s.putShard ctx entry shard bytes
      r.1.emit (fcpAnswer session 0x30 reqId r.2 [] []))) ∧
  -- EXPORT (R377)
  (∀ (s : State) (session : Fin 8) (reqId : Nat),
     s.fcpUp = true → (Tab.find? session.val s.fst.sessions).isSome = true → s.serves session 0x40 = true →
     exec (.export_ session reqId) s = .next ((s.emit (fcpAnswer session 0x40 reqId 0 [] [])).openExport session reqId)) ∧
  -- DISC_SEND (R338, R377)
  (∀ (s : State) (session : Fin 8) (reqId op token epoch : Nat) (path : List Nat) (body : List Byte),
     s.fcpUp = true → (Tab.find? session.val s.fst.sessions).isSome = true → s.serves session 0x50 = true → op = 1 →
     body = [] → path = [] →
     exec (.discSend session reqId op token epoch path body) s = .next (State.probed { s with fst := { s.fst with awaited := (s.fst.awaited.filter fun a => !(a.module == none && a.key == token)) ++ [⟨none, token, session, reqId, 0x50⟩] } }
      ⟨1, 0, 0, token, epoch, [], [], []⟩ (0, []))) ∧
  -- FCP_RESET (R346, R377)
  (∀ (s : State) (session : Fin 8) (reqId : Nat) (domain : ResetDomain),
     s.fcpUp = true → (Tab.find? session.val s.fst.sessions).isSome = true → s.serves session 0x60 = true →
     exec (.fcpReset session reqId domain) s = .next ((s.emit (fcpAnswer session 0x60 reqId 0 [] [])).resetDomain domain)) ∧
  -- FCP_SERVICE_PACKET (R378)
  (∀ (s : State) (source : Fin 65536) (reqId : Nat) (req : FcpReq) (status : Nat) (fields : List Nat) (bytes : List Byte) (a : Awaited),
     s.pwr.forester = true → s.fst.booted = true → req = .answer status fields bytes →
     s.fst.awaited.find? (fun a => a.module == some source.val && a.key == reqId) = some a →
     exec (.fcpServicePacket source reqId req) s = .next ({ s with fst := { s.fst with awaited := s.fst.awaited.erase a } }.answerAll a.session a.op a.reqId status fields bytes)) ∧
  -- EXPORT_ACKNOWLEDGED (R366, R377)
  (∀ (s : State) (session : Fin 8) (count : Nat),
     (Tab.find? session.val s.fst.exporting).isSome = true →
     exec (.exportAcknowledged session count) s = .next ({ s with fst := { s.fst with exports := s.fst.exports.drop count } }.drainItems s.gen.dieItems)) ∧
  -- MANAGEMENT_PORT_LINK_UP (R426)
  (∀ (s : State) (address : Bool),
     s.pwr.forester = true →
     exec (.managementPortLinkUp address) s = .next ({ s with fst := { s.fst with mgmtUp := true, address := address } }))

/-- Certificates, quotes, owner commands, firmware and secure boot: every command of this group completes, and the state
it leaves is as its clause says. Where a clause rests on a choice of the model the choice is in log entry 3 (which
states an event needs) and log entries 15, 86, 89, 90, 91 and 156. -/
def Obligations.SecurityCommandsRun : Prop :=
  -- CERTS (R398, R399)
  (∀ (s : State) (session : Fin 8) (reqId : Nat),
     s.fcpUp = true → (Tab.find? session.val s.fst.sessions).isSome = true → s.serves session 0x70 = true →
     exec (.certs session reqId) s = .next (s.emit (fcpAnswer session 0x70 reqId 0 [] Config.certChains))) ∧
  -- QUOTE (R398, R399)
  (∀ (s : State) (session : Fin 8) (reqId : Nat) (challenge : List Byte),
     s.fcpUp = true → (Tab.find? session.val s.fst.sessions).isSome = true → s.serves session 0x71 = true →
     challenge.length = 32 →
     exec (.quote session reqId challenge) s = .next (s.emit (fcpAnswer session 0x71 reqId 0 [] (s.quote challenge)))) ∧
  -- ENROLL (R396, R397)
  (∀ (s : State) (session : Fin 8) (reqId : Nat) (c : OwnerCmd),
     s.fcpUp = true → (Tab.find? session.val s.fst.sessions).isSome = true → s.serves session 0x72 = true →
     s.ownerOk .enroll c = true → s.writesAdmitted = true →
     exec (.enroll session reqId c) s = .next ((s.ownerActs .enroll c).emit (fcpAnswer session 0x72 reqId 0 [] []))) ∧
  -- REVOKE (R396, R397)
  (∀ (s : State) (session : Fin 8) (reqId : Nat) (c : OwnerCmd),
     s.fcpUp = true → (Tab.find? session.val s.fst.sessions).isSome = true → s.serves session 0x72 = true →
     s.ownerOk .revoke c = true → s.writesAdmitted = true →
     exec (.revoke session reqId c) s = .next ((s.ownerActs .revoke c).emit (fcpAnswer session 0x72 reqId 0 [] []))) ∧
  -- ANCHOR_SET (R396)
  (∀ (s : State) (session : Fin 8) (reqId : Nat) (c : OwnerCmd),
     s.fcpUp = true → (Tab.find? session.val s.fst.sessions).isSome = true → s.serves session 0x72 = true →
     s.ownerOk .anchorSet c = true → s.writesAdmitted = true →
     exec (.anchorSet session reqId c) s = .next ((s.ownerActs .anchorSet c).emit (fcpAnswer session 0x72 reqId 0 [] []))) ∧
  -- ANCHOR_CLEAR (R396)
  (∀ (s : State) (session : Fin 8) (reqId : Nat) (c : OwnerCmd),
     s.fcpUp = true → (Tab.find? session.val s.fst.sessions).isSome = true → s.serves session 0x72 = true →
     s.ownerOk .anchorClear c = true → s.writesAdmitted = true →
     exec (.anchorClear session reqId c) s = .next ((s.ownerActs .anchorClear c).emit (fcpAnswer session 0x72 reqId 0 [] []))) ∧
  -- OWNER_CLAIM (R395, R399)
  (∀ (s : State) (session : Fin 8) (reqId : Nat) (c : OwnerClaim),
     s.fcpUp = true → (Tab.find? session.val s.fst.sessions).isSome = true → s.serves session 0x73 = true →
     Crypto.sha512 (fit 16 c.code) = s.nv.claimDigest → Crypto.pssVerify c.key0 (claimBytes c) c.sig = true →
     s.writesAdmitted = true →
     exec (.ownerClaim session reqId c) s = .next (let u := s.setSlot 0 { s.slot 0 with modulus := some c.key0, epoch := (s.slot 0).fuses, valid := true };
      { u with nv := { u.nv with owned := true, anchors := u.nv.anchors.set 0 (some ⟨c.anchor, false⟩) } }.showSecurity.emit (fcpAnswer session 0x73 reqId 0 [] []))) ∧
  -- FW_PUT (R394, R399)
  (∀ (s : State) (session : Fin 8) (reqId image offset : Nat) (bytes : List Byte),
     s.fcpUp = true → (Tab.find? session.val s.fst.sessions).isSome = true → s.serves session 0x74 = true →
     image < 2 → offset % 65536 = 0 → bytes ≠ [] → bytes.length ≤ 2 ^ 20 → s.runningImage image = false →
     s.writesAdmitted = true →
     exec (.fwPut session reqId image offset bytes) s = .next ({ s with pwr := { s.pwr with units := s.pwr.units ++ imageUnits image offset bytes } }.emit (fcpAnswer session 0x74 reqId 0 [] []))) ∧
  -- FW_ACTIVATE (R394, R399)
  (∀ (s : State) (session : Fin 8) (reqId image length : Nat) (check : ImageCheck) (img : Image),
     s.fcpUp = true → (Tab.find? session.val s.fst.sessions).isSome = true → s.serves session 0x75 = true →
     image < 2 → s.runningImage image = false → check.verifies = true → s.nv.rollback ≤ check.svn →
     s.writesAdmitted = true → s.nv.images.getD image ⟨[], 0⟩ = img →
     exec (.fwActivate session reqId image length check) s = .next ({ s with nv := { s.nv with nextImage := image, images := s.nv.images.set image { img with length := length } } }.showSecurity.emit (fcpAnswer session 0x75 reqId 0 [] []))) ∧
  -- COMMIT_SVN (R394, R407)
  (∀ (s : State),
     s.writesAdmitted = true →
     exec .commitSvn s = .next ({ s with nv := { s.nv with rollback := max s.nv.rollback (min (s.rd R.SEC_STATUS_FW_SVN) 63) } }.showSecurity)) ∧
  -- SECURE_BOOT (R393, R403)
  (∀ (s : State) (a b : ImageCheck) (u : State),
     s.pwr.forester = true → s.fst.booted = false → s.on R.SEC_STATUS_SCAN_FUSED = true → s.nv.nextImage % 2 = 0 →
     { s with nv := { s.nv with keys := s.nv.keys.map KeySlot.booted } }.showSecurity = u → u.boots a = true →
     exec (.secureBoot a b) s = .next (u.runs 0 a false))

/-- Fault acknowledgement, Ring Recorder spills and fatal errors: every command of this group completes, and the state
it leaves is as its clause says. Where a clause rests on a choice of the model the choice is in log entry 3 (which
states an event needs) and log entries 61, 62, 63, 157 and 160. -/
def Obligations.FaultsAndFatalsRun : Prop :=
  -- FLT_ACK (R386, R388)
  (∀ (s u : State) (seq : Fin 65536),
     s.wr R.FLT_CTRL_ACK_SEQ seq = u →
     (∀ p, u.fltTick.errs = [] → u.flt.primary = some p → p.seq = seq.val → exec (.fltAck seq) s = .next u.promote) ∧
     (u.fltTick.errs ≠ [] → exec (.fltAck seq) s = .next (
       let v := (u.toBase u.fltTick).ackRecord seq
       v.placeTick { v.fltBase with errs := u.fltTick.errs }))) ∧
  -- FLT_RELEASE (R384, R405)
  (∀ (s : State),
     s.fatalQueued = false →
     ∃ t, exec .fltRelease s = .next t ∧
         t.rd R.FLT_STATUS_DIE_HELD = 0 ∧ t.mem = s.mem ∧ t.flt = s.flt) ∧
  -- RRC_SPILL_TIMER (R392)
  (∀ (s : State),
     s.pwr.forester = true →
     exec .rrcSpillTimer s = .next (s.startSpill false)) ∧
  -- RRC_SPILL_NOW (R406)
  (∀ (s : State),
     exec .rrcSpillNow s = .next (s.startSpill false)) ∧
  -- RRC_RELEASE (R391)
  (∀ (s : State),
     ∃ t, exec .rrcRelease s = .next t ∧
         t.rrc.entries = s.rrc.entries.filter (fun (e : Nat × RrcEntry) => !(e.2.severity == 3 && e.2.spilled)) ∧
         t.mem = s.mem ∧ t.flt = s.flt) ∧
  -- DIE_RAIL_OUT_OF_REGULATION (R384)
  (∀ (s : State),
     s.pwr.dieOn = true →
     exec .dieRailOutOfRegulation s = .next (s.moduleFatal 1 0x44 7 0)) ∧
  -- TALLY_PARITY_ERROR (R384)
  (∀ (s : State),
     s.tal.running = true →
     exec .tallyParityError s = .next (s.moduleFatal 3 0x43 (regionField 38) 0)) ∧
  -- CSR_SPINE_UNCORRECTABLE (R384, R385)
  (∀ (s : State) (source : Fin 24),
     s.pwr.dieOn = true →
     exec (.csrSpineUncorrectable source) s = .next (s.moduleFatal source 0x42 (regionField 38) 0)) ∧
  -- INPUT_POWER_LOSS (R26)
  (∀ (s : State),
     exec .inputPowerLoss s = .next (if s.pwr.forester = true ∧ s.pwr.holdupSwitch = true ∧ s.pwr.inputGone = false then s.onHoldup
      else s.powerLost))

/-- Trace captures and snapshots: every command of this group completes, and the state it leaves is as its clause says.
Where a clause rests on a choice of the model the choice is in log entry 3 (which states an event needs) and log
entries 64 and 65. -/
def Obligations.TraceAndSnapshotRun : Prop :=
  -- TRACE_ARM (R368, R401)
  (∀ (s : State),
     ∃ t, exec .traceArm s = .next t ∧
         t.rd R.OBS_TRACE_STATUS_STATE = 1 ∧ t.obs.traceAt = s.last R.OBS_TRACE_START_AT ∧ t.mem = s.mem) ∧
  -- TRACE_START (R401)
  (∀ (s : State),
     s.rd R.OBS_TRACE_STATUS_STATE = 1 → s.obs.traceAt ≤ s.now →
     ∃ t, exec .traceStart s = .next t ∧
         t.rd R.OBS_TRACE_STATUS_STATE = 2 ∧ t.rd R.OBS_TRACE_STATUS_NEXT = 0 ∧ t.obs.trace = [] ∧
         t.obs.traceTick = s.now) ∧
  -- TRACE_STOP (R401, R408)
  (∀ (s : State),
     s.rd R.OBS_TRACE_STATUS_STATE = 2 → s.rd R.OBS_TRACE_STOP_AT ≠ 0 → s.rd R.OBS_TRACE_STOP_AT ≤ s.now →
     ∃ t, exec .traceStop s = .next t ∧
         t.rd R.OBS_TRACE_STATUS_STATE = 3 ∧ t.obs = s.obs) ∧
  -- STOP_NOW (R401)
  (∀ (s : State),
     s.rd R.OBS_TRACE_STATUS_STATE = 2 →
     ∃ t, exec .stopNow s = .next t ∧
         t.rd R.OBS_TRACE_STATUS_STATE = 3 ∧ t.obs = s.obs) ∧
  -- SNAP_ARM (R402)
  (∀ (s : State),
     s.last R.OBS_SNAP_AT_AT % 16 = 0 →
     ∃ t, exec .snapArm s = .next t ∧
         t.obs.snapAt = some (s.last R.OBS_SNAP_AT_AT) ∧ t.csr = s.csr) ∧
  -- SNAP_NOW (R402)
  (∀ (s : State),
     exec .snapNow s = .next (s.snapshot)) ∧
  -- SNAPSHOT (R402)
  (∀ (s : State) (n : Nat),
     s.obs.snapAt = some n → n = s.now →
     exec .snapshot s = .next ({ s with obs := { s.obs with snapAt := none } }.snapshot))

/-- Die power, rail groups, foremen, resets and the Olico link that they find (a retry, failed lanes, no progress, the
end of a retraining): every command of this group completes, and the state it leaves is as its clause says. Where a
clause rests on a choice of the model the choice is in log entry 3 (which states an event needs) and log entries 82, 83,
84, 85, 87 and 88. -/
def Obligations.BringUpAndResetsRun : Prop :=
  -- DIE_POWER_START (R409, R410, R413)
  (∀ (s : State) (temp flow : Nat),
     s.serving = true → s.fst.booted = true → s.on R.SEC_STATUS_RECOVERY = false → s.pwr.dieOn = false →
     coolantOut temp flow = false →
     ∃ t, exec (.diePowerStart temp flow) s = .next t ∧
         t.pwr.dieOn = true ∧ t.pwr.railsUp = 0 ∧ t.pwr.dieReset = true ∧ t.mem = s.mem ∧ t.csr = s.csr) ∧
  -- RAIL_GROUP_REGULATION (R410, R413)
  (∀ (s : State),
     s.pwr.dieOn = true → s.pwr.railRamp = true → s.pwr.railsUp = 1 →
     exec .railGroupRegulation s = .next (s.groupUp 2)) ∧
  -- RAIL_TIMEOUT (R413)
  (∀ (s : State),
     s.pwr.railRamp = true →
     exec .railTimeout s = .next (s.moduleFatal 1 0x44 7 0)) ∧
  -- FOREMAN_RUNNING (R363, R393, R398)
  (∀ (s : State) (foreman : Fin 6) (digest : List Byte) (measures : Bool),
     s.rdAt R.OLC_FOREMAN_STATE foreman = 1 → measures = true →
     ∃ t, exec (.foremanRunning foreman digest measures) s = .next t ∧
         t.rdAt R.OLC_FOREMAN_STATE foreman = 2 ∧ t.fst.foreman = digest) ∧
  -- FOREMAN_TIMEOUT (R413)
  (∀ (s : State) (foreman : Fin 6),
     s.rdAt R.OLC_FOREMAN_STATE foreman = 1 →
     exec (.foremanTimeout foreman) s = .next (s.moduleFatal 22 0x41 foreman foreman)) ∧
  -- FOREMAN_FAULTED (R384)
  (∀ (s : State) (foreman : Fin 6),
     s.rdAt R.OLC_FOREMAN_STATE foreman = 2 →
     ∃ t, exec (.foremanFaulted foreman) s = .next t ∧
         t.rdAt R.OLC_FOREMAN_STATE foreman = 3) ∧
  -- MODULE_RESET (R37, R346, R414)
  (∀ (s : State),
     (s.pwr.shutdown = .none → exec .moduleReset s = .next (s.allDark.moduleReset)) ∧
     (s.pwr.shutdown ≠ .none → exec .moduleReset s = .next s)) ∧
  -- FORESTER_RESET (R346)
  (∀ (s : State),
     s.pwr.forester = true →
     exec .foresterReset s = .next (s.foresterReset)) ∧
  -- DIE_CORE_RESET (R346)
  (∀ (s : State),
     s.pwr.dieOn = true →
     exec .dieCoreReset s = .next (s.dieCoreReset)) ∧
  -- DIE_CORE_RESET_END (R205, R384, R410)
  (∀ (s : State),
     s.pwr.dieOn = true → s.pwr.railsUp = 4 → s.pwr.dieReset = true → s.on R.FLT_STATUS_DIE_HELD = false →
     exec .dieCoreResetEnd s = .next (s.dieResetEnd)) ∧
  -- HAUL_PLANE_RESET (R346)
  (∀ (s : State),
     s.pwr.dieOn = true →
     exec .haulPlaneReset s = .next (s.haulPlaneReset)) ∧
  -- OLICO_FLIT_RETRY (R364, R382)
  (∀ (s : State),
     (s.olicoUp = true → exec .olicoFlitRetry s = .next ((s.inc R.OLC_ERR_RETRIES).corrected 16 0x64 (regionField 38) 0 0 0)) ∧
     (s.olicoUp = false → exec .olicoFlitRetry s = .next s)) ∧
  -- OLICO_LANE_FAIL (R364)
  (∀ (s : State) (tx : Bool) (lanes : List (Fin 32)) (old new : List Nat),
     old = (if tx then s.olc.failedTx else s.olc.failedRx) → (lanes.map Fin.val).foldl (fun l x => addOnce x l) old = new →
     old.length < new.length → s.rd R.OLC_STATUS_STATE ≠ 0 →
     let failed := if tx then { s.olc with failedTx := new } else { s.olc with failedRx := new }
     let u := ({ s with olc := failed }.addAt R.OLC_ERR_LANE_FAILS 0 (new.length - old.length)).showOlico
     (halvesLost new = false → exec (.olicoLaneFail tx lanes) s = .next ((u.wr R.OLC_EVENT_DEGRADED 1).fault 16 0x81 0 0 new.length)) ∧
     (halvesLost new = true → exec (.olicoLaneFail tx lanes) s = .next u.olicoDown)) ∧
  -- OLICO_NO_PROGRESS (R364)
  (∀ (s : State),
     s.olicoUp = true →
     exec .olicoNoProgress s = .next s.olicoDown ∧ s.olicoDown.rd R.OLC_STATUS_STATE = 1 ∧ s.olicoDown.rd R.OLC_EVENT_DOWN = 1 ∧
       s.olicoDown.rd R.OLC_ERR_DOWNS = min (s.rd R.OLC_ERR_DOWNS + 1) R.OLC_ERR_DOWNS.max) ∧
  -- OLICO_RETRAIN_DONE (R364, R366)
  (∀ (s : State) (badTx badRx : List (Fin 32)) (tx rx : List Nat),
     s.rd R.OLC_STATUS_STATE = 1 → s.fst.booted = true → badTx.map Fin.val = tx → badRx.map Fin.val = rx →
     halvesLost tx = false → halvesLost rx = false →
     let u := { s with olc := { s.olc with failedTx := tx, failedRx := rx } }.showOlico
     let v := (if tx ++ rx = [] then u else u.wr R.OLC_EVENT_DEGRADED 1).wr R.OLC_STATUS_STATE 2
     exec (.olicoRetrainDone badTx badRx) s = .next (v.drainItems v.gen.dieItems))

/-- Every pair operation completes and writes both registers lane by lane (R77 to R80, R170, R171). The condition of
VSEL is the free value of log entry 23; that one predicate register serves both registers of the pair is the reading
of log entry 22. -/
def Obligations.PairOpsRun : Prop := ∀ (s : State) (i : Issue) (v : VecSlot), evenRegs v = true →
    (s.canIssue i (.vector 0x01 v) = true → LanesRun (.vfma i v) s i v 0x01 2 ffma) ∧
    (s.canIssue i (.vector 0x02 v) = true → LanesRun (.vadd i v) s i v 0x02 2 (fun a b _ => fadd a b)) ∧
    (s.canIssue i (.vector 0x03 v) = true → LanesRun (.vsub i v) s i v 0x03 2 (fun a b _ => fsub a b)) ∧
    (s.canIssue i (.vector 0x04 v) = true → LanesRun (.vmul i v) s i v 0x04 2 (fun a b _ => fmul a b)) ∧
    (s.canIssue i (.vector 0x11 v) = true → LanesRun (.vsel i v) s i v 0x11 2 (fun a b c => if Config.selects c v.imm then a else b)) ∧
    (s.canIssue i (.vector 0x12 v) = true → LanesRun (.vmin i v) s i v 0x12 2 (fun a b _ => fminmax false a b)) ∧
    (s.canIssue i (.vector 0x13 v) = true → LanesRun (.vmax i v) s i v 0x13 2 (fun a b _ => fminmax true a b)) ∧
    (s.canIssue i (.vector 0x20 v) = true → LanesRun (.iadd i v) s i v 0x20 2 (fun a b _ => a + b)) ∧
    (s.canIssue i (.vector 0x21 v) = true → LanesRun (.isub i v) s i v 0x21 2 (fun a b _ => a + 2 ^ 32 - b)) ∧
    (s.canIssue i (.vector 0x23 v) = true → LanesRun (.iand i v) s i v 0x23 2 (fun a b _ => a &&& b)) ∧
    (s.canIssue i (.vector 0x24 v) = true → LanesRun (.ior i v) s i v 0x24 2 (fun a b _ => a ||| b)) ∧
    (s.canIssue i (.vector 0x25 v) = true → LanesRun (.ixor i v) s i v 0x25 2 (fun a b _ => a ^^^ b)) ∧
    (v.imm.val % 4 ≠ 3 → s.canIssue i (.vector 0x22 v) = true → LanesRun (.ishf i v) s i v 0x22 2 (fun a b _ => shiftLane (v.imm % 4) a b))

/-- Every single-register function completes and writes its register lane by lane (R81 to R84, R170, R171). -/
def Obligations.SingleOpsRun : Prop := ∀ (s : State) (i : Issue) (v : VecSlot),
    (s.canIssue i (.vector 0x38 v) = true → LanesRun (.vrcp i v) s i v 0x38 1 (fun a _ _ => frecip a)) ∧
    (s.canIssue i (.vector 0x39 v) = true → LanesRun (.vsqrt i v) s i v 0x39 1 (fun a _ _ => fsqrt a)) ∧
    (s.canIssue i (.vector 0x3A v) = true → LanesRun (.vrsq i v) s i v 0x3A 1 (fun a _ _ => frsqrt a)) ∧
    (s.canIssue i (.vector 0x3B v) = true → LanesRun (.vdiv i v) s i v 0x3B 1 (fun a b _ => fdiv a b)) ∧
    (s.canIssue i (.vector 0x3C v) = true → LanesRun (.vex2 i v) s i v 0x3C 1 (fun a _ _ => fexp2 a)) ∧
    (s.canIssue i (.vector 0x3D v) = true → LanesRun (.vlg2 i v) s i v 0x3D 1 (fun a _ _ => flog2 a))

/-- A step takes the command at the front of the queue and runs it on the state with the rest of the queue. -/
def Obligations.StepRunsFront : Prop := ∀ (s : State) (c : Instr) (rest : List Instr), s.pending = c :: rest →
    step s = exec c { s with pending := rest }

/-- On an empty queue the block idles, but for the tick of the Tally (R52), in which data that pass the queue of a crossing come out
of it (R43). That a tick happens there is the choice of the model, log entry 3. -/
def Obligations.IdleTicks : Prop := ∀ s : State, s.pending = [] →
    (s.tal.running = false → step s = .next s) ∧
    (s.tal.running = true → ∃ t, step s = .next t ∧ t.now = (s.now + 1) % 2 ^ 64 ∧ t.pending = [] ∧ t.tal = s.tal ∧
      (s.ptp.running = false → t.ptp = s.ptp) ∧
      ∀ a, (∀ d ∈ s.scr.queue, a < d.addr ∨ d.addr + d.bytes.length ≤ a) → t.byte a = s.byte a)

/-- The values of the state after reset. A memory byte of 0, a vector lane of 0 and a HW field of 0 are choices of the
model (log entries 1 and 2); the other values are those of the register tables. -/
def Obligations.ResetValues : Prop :=
  (∀ (f : Field) (i : Nat), State.reset.rdAt f i = f.reset) ∧ (∀ a, State.reset.byte a = 0) ∧ State.reset.pending = [] ∧
  (∀ b r l, (State.reset.benchOf b).lane r l = 0) ∧
  State.reset.rd R.GEN_MODE_STRICT = 1 ∧ State.reset.rd R.TAL_STATUS_ROLE = 2 ∧ State.reset.rd R.TAL_NOW_TICKS = 0 ∧
  (∀ p, State.reset.rdAt R.HAUL_PORT_STATUS_STATE p = 1) ∧ State.reset.rd R.PWR_CTRL_AUTO_RESTART = 1 ∧
  State.reset.rd R.PWR_RAMP_BUDGET_W_PER_MS = 1800 ∧ State.reset.rd R.SCH_CFG_MAX_HOLDS = 16 ∧
  State.reset.rd R.OLC_2PC_LEAD_TICKS = 8192 ∧ State.reset.rd R.OLC_2PC_VOTE_TICKS = 2048 ∧
  State.reset.rd R.TOP_MODULE_NUMBER = 0xFFFF ∧ State.reset.rd R.FLT_STATUS_DEPTH = 0

/-- The invariant of Obligations.StepKeepsSound holds after reset. -/
def Obligations.ResetSound : Prop := State.reset.Sound

/-- Every step, an idle one too, keeps State.Sound: the canonical form of memory, rising keys in the register file,
sixteen haul ports and two ingest clocks. -/
def Obligations.StepKeepsSound : Prop := ∀ s t : State, s.Sound → step s = .next t → t.Sound

/-- The frame of every command, part by part of the state: a command changes no part that `touches` does not name for
it, no byte of memory where it does not name memory, and never the queue. -/
def Obligations.FrameOfCommands : Prop := ∀ (c : Instr) (s t : State), exec c s = .next t →
    (∀ p, p ∉ touches c → p.same s t) ∧ (Part.mem ∉ touches c → ∀ a, t.byte a = s.byte a) ∧ t.pending = s.pending

/-- The frame of the register file for the commands that report no error: every field that `writtenKeys` does not list
for the command reads as before. A late entry writes the counts of its two regions, the event and the sequencer states of
the benches that it wakes, and nothing else. -/
def Obligations.WrittenRegisters : Prop :=
  (∀ (c : Instr) (s t : State) (l : List Nat) (f : Field) (j : Nat),
    writtenKeys c = some l → exec c s = .next t → f.key j ∉ l → t.rdAt f j = s.rdAt f j) ∧
  (∀ (reader writer : Fin 39) (cycles : Nat) (s t : State) (f : Field) (j : Nat),
    exec (.lateEntry reader writer cycles) s = .next t → f.key j ≠ R.CLK_RGN_COUNT_LATE.key writer →
    f.key j ≠ R.CLK_RGN_COUNT_LATE.key reader → f.key j ≠ R.CLK_EVENT_LATE_ENTRY.key 0 →
    (∀ b, f.key j ≠ R.BCH_SEQ_STATUS_STATE.key b) → t.rdAt f j = s.rdAt f j)

/-- The fuses and the owner sequence only rise, whatever the step (R393 to R397): ownership, rollback, OWNER_SEQ and the
revocation fuses of every slot. -/
def Obligations.NonvolatileRises : Prop := ∀ s t : State, step s = .next t →
    (s.nv.owned = true → t.nv.owned = true) ∧ s.nv.rollback ≤ t.nv.rollback ∧ s.nv.ownerSeq ≤ t.nv.ownerSeq ∧
    ∀ k, min (s.nv.keys.getD k ⟨none, 0, false, 0⟩).fuses 15 ≤ (t.nv.keys.getD k ⟨none, 0, false, 0⟩).fuses

/-- Decoding a link block gives back what was encoded (R268, R269): no field of the header is dropped and the CRC that
encode writes is accepted. -/
def Obligations.BlockRoundTrip : Prop := ∀ b : LinkBlock, b.type < 16 → b.seq < 65536 → b.ack < 65536 → b.freed0 < 1024 → b.freed1 < 1024 →
    b.data.length ≤ 244 → LinkBlock.decode b.encode = some b

/-- Each of the eight layouts reads back as it was written. -/
def Obligations.PacketsRoundTrip : Prop :=
  (∀ p : SvcPkt, p.kind < 256 → p.dest < 65536 → p.source < 65536 → p.hops < 256 → p.seq < 2 ^ 32 → p.payload.length < 65536 →
    SvcPkt.decode p.encode = p) ∧
  (∀ d : SchedData, d.route < 65536 → d.step16 < 65536 → d.index < 65536 → d.path < 4 → d.attempt < 4 →
    SchedData.decode d.encode = d) ∧
  (∀ m : LaneMsg, 1 ≤ m.kind → m.kind ≤ 5 → m.logical < 256 → m.src < 256 → m.dst < 256 → m.opId < 65536 →
    LaneMsg.decode m.encode = some m) ∧
  (∀ m : Marker, m.tDep < 2 ^ 96 → m.root < 65536 → m.hops < 256 → m.flags < 256 → m.sender < 65536 → m.port < 256 →
    Marker.decode m.encode = some m) ∧
  (∀ n : Notice, n.plan < 2 ^ 64 → n.point < 2 ^ 64 → n.step < 2 ^ 64 → n.requester < 65536 → n.arg < 65536 → n.code < 256 →
    n.attempt < 256 → n.origin < 2 ^ 64 → Notice.decode n.encode = n) ∧
  (∀ r : RouteDown, r.plan < 2 ^ 64 → r.lossAt < 2 ^ 64 → r.step < 2 ^ 64 → r.route < 65536 → r.port < 256 → r.cause < 256 →
    RouteDown.decode r.encode = r) ∧
  (∀ (a : Announce) (rest : List Byte), (a.kind = 0 ∧ rest.length = 0) ∨ (a.kind = 1 ∧ rest.length = 16) ∨
      (a.kind = 2 ∧ rest.length = 40) → a.version < 256 → a.partnerType < 256 → a.port < 256 → a.module < 65536 →
    a.rxLanes < 65536 → a.serial < 2 ^ 64 → a.replayBlocks < 65536 → a.credits0 < 65536 → a.credits1 < 65536 →
    a.alignPs < 65536 → a.markerTicks < 65536 → Announce.decode (a.encode ++ rest) = some a) ∧
  (∀ d : DiscPkt, 1 ≤ d.op → d.op ≤ 6 → d.len ≤ 32 → d.pos ≤ d.len → (d.op = 6 → d.len = 0) → d.token < 2 ^ 32 →
    d.epoch < 2 ^ 32 → d.path.length = 32 → d.ret.length = 32 → (∀ x ∈ d.path, x < 256) → (∀ x ∈ d.ret, x < 256) →
    DiscPkt.decode d.encode = some d)

/-- Encodings that the manual reserves, which it says no effect of: the operation issues, and what it would write is free
(the choice of the model, log entry 20; which fields count as reserved is said there). -/
def Obligations.ReservedEncodings : Prop := ∀ (s : State) (i : Issue),
    (∀ (v : VecSlot) (op : Nat) (c : Instr), (c, op) ∈ [(.vfma i v, 0x01), (.vadd i v, 0x02), (.vsub i v, 0x03), (.vmul i v, 0x04),
        (.vsel i v, 0x11), (.vmin i v, 0x12), (.vmax i v, 0x13), (.iadd i v, 0x20), (.isub i v, 0x21), (.ishf i v, 0x22),
        (.iand i v, 0x23), (.ior i v, 0x24), (.ixor i v, 0x25)] → evenRegs v = false → s.canIssue i (.vector op v) = true →
      exec c s = .next (let u := s.issued i (.vector op v)
        u.freePair i.bench (((u.seen i.bench).benchOf i.bench).pred v.pred))) ∧
    (∀ (v : VecSlot) (u : State) (mask : Nat), s.issued i (.vector 0x22 v) = u →
      ((u.seen i.bench).benchOf i.bench).pred v.pred = mask → s.canIssue i (.vector 0x22 v) = true → evenRegs v = true →
      v.imm.val % 4 = 3 → exec (.ishf i v) s = .next ((u.freeLanes i.bench v.dst mask).freeLanes i.bench (v.dst + 1) mask)) ∧
    (∀ (v : VecSlot) (u : State) (mask : Nat), s.issued i (.vector 0x10 v) = u →
      ((u.seen i.bench).benchOf i.bench).pred v.pred = mask → s.canIssue i (.vector 0x10 v) = true →
      (evenRegs v = true → 4 ≤ v.imm.val % 8 →
        exec (.vcmp i v) s = .next ((u.freePred i.bench v.dst mask).freePred i.bench (v.dst + 1) mask)) ∧
      (evenRegs v = false → exec (.vcmp i v) s = .next (
        (u.freePred i.bench (Config.reserved u.fresh 1) mask).freePred i.bench (Config.reserved u.fresh 2) mask))) ∧
    (∀ (v : VecSlot) (k : Coords) (u : State) (x : Bench) (d : Desc), s.issued i (.vector 0x30 v) = u →
      (u.seen i.bench).benchOf i.bench = x → u.desc i.bench (v.imm % 256) = d → s.canIssue i (.vector 0x30 v) = true →
      (formatOf d.aFmt = none ∨ formatOf v.fmt = none ∨ ∃ f, formatOf v.fmt = some f ∧ roundingOf f v.rm 0 = none) →
      exec (.vcvt i v k) s = .next ((u.freeLanes i.bench v.dst (x.pred v.pred)).countSr i.bench v.rm
        (activeOf (x.pred v.pred) (List.range 128)).length)) ∧
    (∀ (v : VecSlot) (head : Nat) (tree : Fin 65536) (level : Fin 12) (u : State) (x : Bench),
      s.issued i (.vector 0x40 v) = u → (u.seen i.bench).benchOf i.bench = x → s.canIssue i (.vector 0x40 v) = true →
      head + 8 ≤ storeSize → (u.seen i.bench).ensemble? i.bench head = none →
      exec (.vtlv i v head tree level .clean) s = .next (u.freeLanes i.bench v.dst (x.pred v.pred))) ∧
    (∀ (v : VecSlot) (head : Nat) (tree : Fin 65536) (u : State) (x : Bench),
      s.issued i (.vector 0x41 v) = u → (u.seen i.bench).benchOf i.bench = x → s.canIssue i (.vector 0x41 v) = true →
      head + 8 ≤ storeSize → (u.seen i.bench).ensemble? i.bench head = none →
      exec (.vtlf i v head tree .clean) s = .next ((u.freeGrains i.bench ((List.range 128).map fun l => (8 * v.dst + l, 0))).freeLanes
        i.bench v.dst (x.pred v.pred))) ∧
    (∀ (m : MatSlot) (l : TileLayout) (present : Fin 33) (u : State), s.issued i (.matrix 1 m) = u →
      s.canIssue i (.matrix 1 m) = true → (tileOf (u.desc i.bench m.desc) = none ∨ (u.desc i.bench m.desc).form = 2) →
      exec (.mgr i m l present .clean) s =
        .next ((u.freeGrains i.bench ((List.range 1024).map fun k => (k / 2, k % 2))).countMatrix i.bench)) ∧
    (∀ (c : CtlSlot) (u : State) (f : ForkPoint), s.issued i (.control 8 c) = u → s.canIssue i (.control 8 c) = true →
      2 ^ 13 ≤ c.imm.val → u.fork? c.arg = some f →
      exec (.fdec i c) s = .next (u.drawn.forkDecides f (Config.reserved u.fresh 0 % 2 ^ 32)))

/-- Where the storing bench operations store: every byte outside their own spans reads as before (R170 to R172). The
places inside a tile are operands (log entry 39). -/
def Obligations.StoringForms : Prop := ∀ (c : Instr) (s t : State) (i : Issue) (l : List (Nat × Nat)) (a : Nat),
  storedSpans s c = some (i, l) → exec c s = .next t →
    (∀ x ∈ l, a < benchBase i.bench + x.1 ∨ benchBase i.bench + x.1 + x.2 ≤ a) → t.byte a = s.byte a

/-- The frame of the nineteen plain lane operations: the destination registers, the place in the bundle, the bench's cycle with
the results not yet visible, and the counters of the number format rules, and nothing else. Under an encoding that the manual
reserves the registers are the model's choice and the count of free values moves on (log entry 20). -/
def Obligations.LaneOpFrame : Prop := ∀ (c : Instr) (s t : State) (i : Issue) (v : VecSlot) (op n : Nat), laneOp c = some (i, v, op, n) →
  s.canIssue i (.vector op v) = true → i.fetch.corr = [] → exec c s = .next t →
    t = { s with csr := t.csr, bench := t.bench, fresh := t.fresh } ∧
    (∀ (f : Field) (j : Nat), f.key j ∉ laneOpKeys i.bench → t.rdAt f j = s.rdAt f j) ∧
    (∀ b, b ≠ i.bench.val → t.benchOf b = s.benchOf b) ∧
    t.benchOf i.bench = { s.benchOf i.bench with
      vregs := (t.benchOf i.bench).vregs
      next := if (s.benchOf i.bench).slots = [] then (i.pc + 1) % 4096 else (s.benchOf i.bench).next
      slots := dropOne 1 (s.slotsLeft i)
      cycle := (t.benchOf i.bench).cycle
      flights := (t.benchOf i.bench).flights } ∧
    (n = 1 ∨ evenRegs v = true →
      (∀ q < 64, ∀ m < 128, (∀ k < n, q ≠ (v.dst + k) % 64) → (t.benchOf i.bench).lane q m = (s.benchOf i.bench).lane q m) ∧
      (op ≠ 0x22 ∨ v.imm.val % 4 ≠ 3 → t.fresh = s.fresh))

/-- The accumulator rules for NaN and infinities (R72), for every pair of elements. -/
def Obligations.GrainFlags : Prop := ∀ (g : Grain) (fa fb : Format) (da db : Bool) (sa sb x y : Nat),
    let a := elementVal fa da sa x
    let b := elementVal fb db sb y
    (da = true → sa = 0xFF → a = .nan) ∧ (db = true → sb = 0xFF → b = .nan) ∧
    (a = .nan ∨ b = .nan ∨ (∃ n e p, a = .fin n 0 e ∧ b = .inf p) ∨ (∃ n e p, a = .inf p ∧ b = .fin n 0 e) →
      g.addProduct a b = { g with nan := true }) ∧
    (∀ p q, a = .inf p → (b = .inf q ∨ ∃ m e, b = .fin q m e ∧ m ≠ 0) →
      g.addProduct a b = if p = q then { g with pinf := true } else { g with ninf := true }) ∧
    (∀ p q m e, a = .fin q m e → m ≠ 0 → b = .inf p →
      g.addProduct a b = if q = p then { g with pinf := true } else { g with ninf := true }) ∧
    (∀ p q m n e f, a = .fin p m e → b = .fin q n f →
      g.addProduct a b = { g with bits := (g.addProduct a b).bits })

/-- Order and splitting do not change an exact grain (R71, R73). -/
def Obligations.ExactGrainsSplit : Prop :=
  (∀ (g : Grain) (l m : List (Val × Val)), l.Perm m → g.addAll l = g.addAll m) ∧
  (∀ (g : Grain) (l m : List (Val × Val)), g.bits < 2 ^ 96 → g.present = true →
    g.addAll (l ++ m) = (g.addAll l).addPartial (Grain.empty.addAll m).partialBits)

/-- An error identical to the primary or to a queued record adds to its REPEAT and changes nothing else of the primary, the
queue and the SEQ series (R387; the limit of R385). It is the first error of its tick; errors of one tick are placed together
(R388). -/
def Obligations.IdenticalErrors : Prop := ∀ (s : State) (e : Err), e.cls ≠ .corrected → s.fltTick.errs = [] →
    (∀ p, s.flt.primary = some p → p.source = e.source → p.code = e.code → p.unit = e.unit → p.context = e.ctx →
      (s.raiseErr e).flt = { s.flt with
        arrived := (s.raiseErr e).flt.arrived, primary := some { p with repeats := min (p.repeats + 1) 65535 } }) ∧
    (∀ l m q, (∀ p, s.flt.primary = some p → p.identical (s.errRec e) = false) → s.flt.queue = l ++ q :: m →
      (∀ r ∈ l ++ m, r.identical (s.errRec e) = false) →
      q.source = e.source → q.code = e.code → q.unit = e.unit → q.context = e.ctx →
      (s.raiseErr e).flt = { s.flt with
        arrived := (s.raiseErr e).flt.arrived, queue := l ++ { q with repeats := min (q.repeats + 1) 65535 } :: m })

/-- Where the bytes of local memory lie (R185, R186): the decode of every HBM and DDR tier address, each field within its range,
and one burst of every 2 KiB on each pseudo-channel of a stack and each subchannel of the tier. -/
def Obligations.BurstPlaces : Prop :=
  (∀ a, a < 20 * 0xC00000000 →
    let o := a % 0xC00000000
    burstPlace a = some ⟨64 * (a / 0xC00000000) + o / 2 ^ 5 % 64, o % 2 ^ 5, o / 2 ^ 11 % 32, o / 2 ^ 16 % 16, o / 2 ^ 20 % 4, o / 2 ^ 22⟩ ∧
    o / 2 ^ 22 < 12288 ∧ ∀ ch < 1312, burstsOn a 1 ch = if ch = 64 * (a / 0xC00000000) + o / 2 ^ 5 % 64 then 1 else 0) ∧
  (∀ d, d < 0x020000000000 →
    burstPlace (0x020000000000 + d) =
      some ⟨1280 + 2 * (d / 2 ^ 7 % 16) + d / 2 ^ 6 % 2, d % 2 ^ 6, d / 2 ^ 11 % 64, d / 2 ^ 17 % 32, 0, d / 2 ^ 22⟩ ∧
    d / 2 ^ 22 < 524288 ∧
    ∀ ch < 1312, burstsOn (0x020000000000 + d) 1 ch = if ch = 1280 + 2 * (d / 2 ^ 7 % 16) + d / 2 ^ 6 % 2 then 1 else 0) ∧
  (∀ st k, st < 20 → 2048 * k < 0xC00000000 → ∀ ch < 1312,
    burstsOn (st * 0xC00000000 + 2048 * k) 2048 ch = if ch / 64 = st ∧ ch < 1280 then 1 else 0) ∧
  (∀ k, 2048 * k < 0x020000000000 → ∀ ch < 1312,
    burstsOn (0x020000000000 + 2048 * k) 2048 ch = if 1280 ≤ ch then 1 else 0)

/-- The hold-up test and what follows a failed one (R36). -/
def Obligations.HoldupTests : Prop :=
  (∀ (s : State) (mj : Nat), s.pwr.forester = true → mj < 1200 → ∃ u : State,
    exec (.holdupTestPeriodic mj) s = .next (u.fault 1 0x81 0 0 mj) ∧ (u.fault 1 0x81 0 0 mj).rd R.PWR_STATUS_HOLDUP_OK = 0) ∧
  (∀ (s : State) (mv mj : Nat), s.pwr.stage = .closed → s.pwr.forester = false → s.pwr.shutdown = .none → 44000 ≤ mv → mj < 1200 →
    ∃ u : State, exec (.foresterDomainStart mv mj true) s = .next (u.fault 1 0x81 0 0 mj) ∧
      (u.fault 1 0x81 0 0 mj).rd R.PWR_STATUS_HOLDUP_OK = 0) ∧
  (∀ (s : State) (mj : Nat), s.pwr.forester = true → 1200 ≤ mj → ∃ t : State, exec (.holdupTestPeriodic mj) s = .next t ∧
    t.rd R.PWR_STATUS_HOLDUP_OK = 1) ∧
  (∀ (s : State), s.rd R.PWR_STATUS_HOLDUP_OK = 0 → s.writesAdmitted = false ∧
    (∀ store, s.pwr.forester = true → s.pwr.units = [] →
      exec (.writeUnitRequest store) s = .next (s.writeRefused.emit (.busy store))) ∧
    exec .commitSvn s = .next (s.writeRefused.emit (.busy .keyStore)))

/-- The Kerf generator of R131 is a bijection of its counter: no two counters of a key give the same block. -/
def Obligations.KerfBlocksDistinct : Prop := ∀ v w : KerfWords, v.x0 < 2 ^ 32 → v.x1 < 2 ^ 32 → v.x2 < 2 ^ 32 → v.x3 < 2 ^ 32 →
    w.x0 < 2 ^ 32 → w.x1 < 2 ^ 32 → w.x2 < 2 ^ 32 → w.x3 < 2 ^ 32 → v.k0 < 2 ^ 32 → v.k1 < 2 ^ 32 → w.k0 = v.k0 → w.k1 = v.k1 →
    v.block = w.block → v = w

/-- What a software write of a register field does, by its access code and class (R15, R368; a sticky bit that the module sets in
the same tick stays 1, R369), and that the three commands of register access complete: CSR_ACCESS_ERROR (R367), REGISTER_WRITE
(R368) and CHANGE_NEXT_WRITE (R371, R380), each clause with the next state of its command. -/
def Obligations.RegisterAccess : Prop :=
  -- CSR_ACCESS_ERROR (R367)
  (∀ (s : State) (offset width : Nat),
    ((width ≠ 64 ∨ offset % 8 ≠ 0) → exec (.csrAccessError offset width) s = .next (s.badCsr.emit (.register false 0))) ∧
    (width = 64 → offset % 8 = 0 → regAt offset = none →
      exec (.csrAccessError offset width) s = .next (s.badCsr.emit (.register true 0))) ∧
    s.badCsr.rd R.OLC_EVENT_BAD_CSR = 1 ∧
    s.badCsr.rd R.OLC_ERR_BAD_CSR = min (s.rd R.OLC_ERR_BAD_CSR + 1) R.OLC_ERR_BAD_CSR.max) ∧
  -- REGISTER_WRITE (R367, R368)
  (∀ (s : State) (offset : Nat) (value : Word) (inp : ActionInput),
    (offset % 8 = 0 → exec (.registerWrite offset value inp) s = .next ((s.writeCsr offset value.toNat inp).emit (.register true 0))) ∧
    (offset % 8 ≠ 0 → exec (.registerWrite offset value inp) s = .next (s.badCsr.emit (.register false 0)))) ∧
  -- CHANGE_NEXT_WRITE (R371, R380)
  (∀ (s : State) (value : Nat),
    ∃ t, exec (.changeNextWrite value) s = .next t ∧ t.rd R.OLC_CHANGE_NEXT_ID = bits 31 0 value ∧
      t.rd R.OLC_CHANGE_NEXT_KIND = bits 35 32 value ∧ t.rd R.OLC_CHANGE_NEXT_CONTEXT = bits 39 36 value ∧
      t.rd R.OLC_CHANGE_NEXT_FRESH = 1 ∧ ∀ (g : Field) (j : Nat), g.key j ≠ R.OLC_CHANGE_NEXT_ID.key 0 →
        g.key j ≠ R.OLC_CHANGE_NEXT_KIND.key 0 → g.key j ≠ R.OLC_CHANGE_NEXT_CONTEXT.key 0 →
        g.key j ≠ R.OLC_CHANGE_NEXT_FRESH.key 0 → t.rdAt g j = s.rdAt g j) ∧
  -- FIELD_WRITE (R15, R368, R369)
  (∀ (s : State) (run : Bool) (f : Field) (i x : Nat),
    (f.access = .ro → s.writeField run f i x = (s, false)) ∧
    (f.access = .wo → s.shown f i = 0 ∧ s.writeField run f i x = (s, false)) ∧
    (f.access = .w1c → f.key i ∈ s.fired → s.writeField run f i x = (s, false)) ∧
    (f.access = .w1c → f.key i ∉ s.fired → s.rdAt f i < 2 ^ f.width →
      (∀ b, bit b ((s.writeField run f i x).1.rdAt f i) = (bit b (s.rdAt f i) && !bit b x)) ∧
      ∀ (g : Field) (j : Nat), g.key j ≠ f.key i → (s.writeField run f i x).1.rdAt g j = s.rdAt g j) ∧
    (f.access = .rw → f.cls = .live → (s.writeField run f i x).1.rdAt f i = storedAs f x % 2 ^ f.width) ∧
    (f.access = .rw → run = false → (s.writeField run f i x).1.rdAt f i = storedAs f x % 2 ^ f.width) ∧
    (f.access = .rw → f.cls = .static → run = true →
      s.writeField run f i x = (s, storedAs f x % 2 ^ f.width != s.rdAt f i)) ∧
    (f.access = .rw → f.cls = .staged → run = true → (s.writeField run f i x).1.rdAt f i = s.rdAt f i ∧
      (s.writeField run f i x).1.lastAt f i = storedAs f x % 2 ^ f.width))

/-- The deadline rules of a receive (R308, R313). A check that passes, or of a receive that is done, changes nothing. -/
def Obligations.RecvDeadlines : Prop := ∀ (s : State) (port : Fin 16) (entry : Fin 32768) (j : Job) (e : SchedEntry),
    s.job? 7 = some j → j.entry? (entryKey port entry) = some e →
    let key := entryKey port entry
    let x := s.recvState key
    let u : State := s.onTelem (key / 32768) fun t => { t with misses := min (t.misses + 1) 65535 }
    (x.done = true → exec (.recvDeadlineCheck port entry) s = .next s) ∧
    (e.type = .recv → s.ctxRunning e.ctx = true → s.due e.ctx e.tick = true →
      s.variantActive e.ctx (if e.forkEn then some e.fork else none) e.variants = true → x.fails = 0 → x.done = false →
      (s.rd R.SCH_CFG_MAX_HOLDS ≤ 1 → exec (.recvDeadlineCheck port entry) s =
        .next ((u.setRecv key { x with fails := 1, recheck := none }).stepFatal 13 0x07 7 port e.route (2 ^ e.ctx))) ∧
      (1 < s.rd R.SCH_CFG_MAX_HOLDS → exec (.recvDeadlineCheck port entry) s =
        .next (((u.setRecv key { x with fails := 1, recheck := some (j.recheckAt s.now 1) }).holdRequest 1 1).onTelem port
          fun t => { t with holds := min (t.holds + 1) 65535 }))) ∧
    (∀ n, x.recheck = some n → n ≤ s.now → s.ctxRunning e.ctx = true → x.done = false →
      s.rd R.SCH_CFG_MAX_HOLDS ≤ x.fails + 1 → exec (.repeatedDeadlineCheck port entry) s =
        .next ((u.setRecv key { x with fails := x.fails + 1, recheck := none }).stepFatal 13 0x07 7 port e.route (2 ^ e.ctx)))

/-- The two-phase arming rule (R370 to R372) as the arming of an activation. The root of a plan of another module is the
free value of log entry 14. -/
def Obligations.TwoPhaseArming : Prop := ∀ (s : State) (twinFault : Bool) (p : Plan), s.pln.staged = some p → 1 < p.count →
    s.pln.loading = false →
    let a := s.last R.PLN_ACT_AT_AT
    (s.rd R.OLC_CHANGE_NEXT_FRESH = 0 ∨ s.rd R.OLC_CHANGE_NEXT_KIND ≠ 1 →
      ∃ t, exec (.plnArm twinFault) s = .next t ∧ t.pln = s.pln ∧ t.rd R.PLN_EVENT_REFUSED = 1 ∧
        t.rd R.OLC_EVENT_ARM_REFUSED = 1) ∧
    (s.rd R.OLC_CHANGE_NEXT_FRESH = 1 → s.rd R.OLC_CHANGE_NEXT_KIND = 1 → s.armCode a twinFault = 0 →
      s.leadOk p = true → s.now + s.rd R.OLC_2PC_LEAD_TICKS ≤ a →
      ∃ t, exec (.plnArm twinFault) s = .next t ∧ t.pln = { s.pln with armed := true, actAt := a } ∧
        (∃ c ∈ t.olc.changes, c.id = s.rd R.OLC_CHANGE_NEXT_ID ∧ c.kind = 1 ∧ c.state = 1 ∧ c.effect = a) ∧
        (s.rootOf p = s.number → t.rd R.OLC_CHANGE_NEXT_FRESH = 0))
end

