-- ==== Sys2Proof/Laws/Bytes.lean ====
section
/-! SUPPORT. Byte strings: what a number of n bytes reads as, and a field of a string that is written piece by piece. -/

namespace Sys2Proof.Machine

open Sys2Proof

theorem leBytes_length (n v : Nat) : (leBytes n v).length = n := by
  induction n generalizing v with
  | zero => rfl
  | succ n ih => simp [leBytes, ih]

@[simp] theorem beBytes_length (n v : Nat) : (beBytes n v).length = n := by simp [beBytes, leBytes_length]

@[simp] theorem leNat_leBytes (n v : Nat) : leNat (leBytes n v) = v % 256 ^ n := by
  induction n generalizing v with
  | zero => simp [leBytes, leNat, Nat.mod_one]
  | succ n ih =>
    simp only [leBytes, leNat, ih, BitVec.toNat_ofNat]
    rw [show (256 : Nat) ^ (n + 1) = 256 * 256 ^ n from by ring, Nat.mod_mul]

@[simp] theorem beNat_beBytes (n v : Nat) : beNat (beBytes n v) = v % 256 ^ n := by simp [beNat, beBytes]

theorem slice_skip (o n : Nat) (a b : List Byte) (h : a.length ≤ o) : slice o n (a ++ b) = slice (o - a.length) n b := by
  unfold slice; rw [List.drop_append, List.drop_eq_nil_of_le h, List.nil_append]

theorem slice_take (n : Nat) (a b : List Byte) (h : a.length = n) : slice 0 n (a ++ b) = a := by
  subst h; simp [slice]

theorem slice_whole (n : Nat) (a : List Byte) (h : a.length = n) : slice 0 n a = a := by
  subst h; simp [slice]

theorem drop_skip (o : Nat) (a b : List Byte) (h : a.length ≤ o) : (a ++ b).drop o = b.drop (o - a.length) := by
  rw [List.drop_append, List.drop_eq_nil_of_le h, List.nil_append]

theorem beAt_skip (o n : Nat) (a b : List Byte) (h : a.length ≤ o) : beAt o n (a ++ b) = beAt (o - a.length) n b := by
  unfold beAt; rw [slice_skip _ _ _ _ h]

theorem beAt_take (n v : Nat) (b : List Byte) : beAt 0 n (beBytes n v ++ b) = v % 256 ^ n := by
  unfold beAt; rw [slice_take _ _ _ (by simp)]; simp

theorem beAt_whole (n v : Nat) : beAt 0 n (beBytes n v) = v % 256 ^ n := by
  unfold beAt; rw [slice_whole _ _ (by simp)]; simp

theorem leAt_take (n v : Nat) (b : List Byte) : leAt 0 n (leBytes n v ++ b) = v % 256 ^ n := by
  unfold leAt; rw [slice_take _ _ _ (leBytes_length _ _)]; simp

@[simp] theorem zeros_length (n : Nat) : (zeros n).length = n := by simp [zeros]

theorem bit_eq (b v : Nat) : bit b v = v.testBit b := by
  unfold bit
  rw [Nat.testBit_eq_decide_div_mod_eq]
  rfl

theorem or_disjoint (a : Nat) : ∀ b, a &&& b = 0 → a ||| b = a + b := by
  induction a using Nat.strongRecOn with
  | _ a ih =>
    intro b h
    rcases Nat.eq_zero_or_pos a with rfl | ha
    · simp
    · have h1 : a / 2 &&& b / 2 = 0 := by rw [← Nat.and_div_two, h]
      have h2 := ih (a / 2) (by omega) (b / 2) h1
      rw [← Nat.or_div_two] at h2
      have h0 : (a &&& b).testBit 0 = false := by rw [h]; simp
      have h3 : (a ||| b).testBit 0 = (a.testBit 0 || b.testBit 0) := Nat.testBit_or ..
      rw [Nat.testBit_and] at h0
      simp only [Nat.testBit_zero] at h0 h3
      have hx := Nat.mod_two_eq_zero_or_one a
      have hy := Nat.mod_two_eq_zero_or_one b
      have hz := Nat.mod_two_eq_zero_or_one (a ||| b)
      rcases hx with hx | hx <;> rcases hy with hy | hy <;> rcases hz with hz | hz <;> simp [hx, hy, hz] at h0 h3 <;> omega

theorem sub_and_testBit (a x b : Nat) : (a - (a &&& x)).testBit b = (a.testBit b && !x.testBit b) := by
  have h : a - (a &&& x) = a ^^^ (a &&& x) := by
    have hadd : (a &&& x) + (a ^^^ (a &&& x)) = a := by
      have hd : (a &&& x) &&& (a ^^^ (a &&& x)) = 0 := by
        apply Nat.eq_of_testBit_eq; intro j
        simp only [Nat.testBit_and, Nat.testBit_xor, Nat.zero_testBit]
        cases a.testBit j <;> cases x.testBit j <;> rfl
      have ho : (a &&& x) ||| (a ^^^ (a &&& x)) = a := by
        apply Nat.eq_of_testBit_eq; intro j
        simp only [Nat.testBit_and, Nat.testBit_xor, Nat.testBit_or]
        cases a.testBit j <;> cases x.testBit j <;> rfl
      rw [← or_disjoint _ _ hd, ho]
    omega
  rw [h]
  simp only [Nat.testBit_xor, Nat.testBit_and]
  cases a.testBit b <;> cases x.testBit b <;> rfl

end Sys2Proof.Machine
end

