-- ==== Sys2Proof/Laws/State.lean ====
section
/-! SUPPORT. What each field of the state is after each update of Machine/Ops.lean. -/

namespace Sys2Proof.Machine

open Sys2Proof

variable (s : State)

@[simp] theorem State.wrAt_staged (f : Field) (i v : Nat) : (s.wrAt f i v).staged = s.staged := rfl
@[simp] theorem State.wrAt_mem (f : Field) (i v : Nat) : (s.wrAt f i v).mem = s.mem := rfl
@[simp] theorem State.wrAt_pwr (f : Field) (i v : Nat) : (s.wrAt f i v).pwr = s.pwr := rfl
@[simp] theorem State.wrAt_clk (f : Field) (i v : Nat) : (s.wrAt f i v).clk = s.clk := rfl
@[simp] theorem State.wrAt_tal (f : Field) (i v : Nat) : (s.wrAt f i v).tal = s.tal := rfl
@[simp] theorem State.wrAt_ptp (f : Field) (i v : Nat) : (s.wrAt f i v).ptp = s.ptp := rfl
@[simp] theorem State.wrAt_haul (f : Field) (i v : Nat) : (s.wrAt f i v).haul = s.haul := rfl
@[simp] theorem State.wrAt_sch (f : Field) (i v : Nat) : (s.wrAt f i v).sch = s.sch := rfl
@[simp] theorem State.wrAt_pln (f : Field) (i v : Nat) : (s.wrAt f i v).pln = s.pln := rfl
@[simp] theorem State.wrAt_top (f : Field) (i v : Nat) : (s.wrAt f i v).top = s.top := rfl
@[simp] theorem State.wrAt_olc (f : Field) (i v : Nat) : (s.wrAt f i v).olc = s.olc := rfl
@[simp] theorem State.wrAt_gen (f : Field) (i v : Nat) : (s.wrAt f i v).gen = s.gen := rfl
@[simp] theorem State.wrAt_wgt (f : Field) (i v : Nat) : (s.wrAt f i v).wgt = s.wgt := rfl
@[simp] theorem State.wrAt_bench (f : Field) (i v : Nat) : (s.wrAt f i v).bench = s.bench := rfl
@[simp] theorem State.wrAt_frk (f : Field) (i v : Nat) : (s.wrAt f i v).frk = s.frk := rfl
@[simp] theorem State.wrAt_scr (f : Field) (i v : Nat) : (s.wrAt f i v).scr = s.scr := rfl
@[simp] theorem State.wrAt_itk (f : Field) (i v : Nat) : (s.wrAt f i v).itk = s.itk := rfl
@[simp] theorem State.wrAt_clocks (f : Field) (i v : Nat) : (s.wrAt f i v).clocks = s.clocks := rfl
@[simp] theorem State.wrAt_twn (f : Field) (i v : Nat) : (s.wrAt f i v).twn = s.twn := rfl
@[simp] theorem State.wrAt_fst (f : Field) (i v : Nat) : (s.wrAt f i v).fst = s.fst := rfl
@[simp] theorem State.wrAt_flt (f : Field) (i v : Nat) : (s.wrAt f i v).flt = s.flt := rfl
@[simp] theorem State.wrAt_rrc (f : Field) (i v : Nat) : (s.wrAt f i v).rrc = s.rrc := rfl
@[simp] theorem State.wrAt_obs (f : Field) (i v : Nat) : (s.wrAt f i v).obs = s.obs := rfl
@[simp] theorem State.wrAt_nv (f : Field) (i v : Nat) : (s.wrAt f i v).nv = s.nv := rfl
@[simp] theorem State.wrAt_sent (f : Field) (i v : Nat) : (s.wrAt f i v).sent = s.sent := rfl
@[simp] theorem State.wrAt_fresh (f : Field) (i v : Nat) : (s.wrAt f i v).fresh = s.fresh := rfl
@[simp] theorem State.wrAt_pending (f : Field) (i v : Nat) : (s.wrAt f i v).pending = s.pending := rfl

@[simp] theorem State.wr_staged (f : Field) (v : Nat) : (s.wr f v).staged = s.staged := rfl
@[simp] theorem State.wr_mem (f : Field) (v : Nat) : (s.wr f v).mem = s.mem := rfl
@[simp] theorem State.wr_pwr (f : Field) (v : Nat) : (s.wr f v).pwr = s.pwr := rfl
@[simp] theorem State.wr_clk (f : Field) (v : Nat) : (s.wr f v).clk = s.clk := rfl
@[simp] theorem State.wr_tal (f : Field) (v : Nat) : (s.wr f v).tal = s.tal := rfl
@[simp] theorem State.wr_ptp (f : Field) (v : Nat) : (s.wr f v).ptp = s.ptp := rfl
@[simp] theorem State.wr_haul (f : Field) (v : Nat) : (s.wr f v).haul = s.haul := rfl
@[simp] theorem State.wr_sch (f : Field) (v : Nat) : (s.wr f v).sch = s.sch := rfl
@[simp] theorem State.wr_pln (f : Field) (v : Nat) : (s.wr f v).pln = s.pln := rfl
@[simp] theorem State.wr_top (f : Field) (v : Nat) : (s.wr f v).top = s.top := rfl
@[simp] theorem State.wr_olc (f : Field) (v : Nat) : (s.wr f v).olc = s.olc := rfl
@[simp] theorem State.wr_gen (f : Field) (v : Nat) : (s.wr f v).gen = s.gen := rfl
@[simp] theorem State.wr_wgt (f : Field) (v : Nat) : (s.wr f v).wgt = s.wgt := rfl
@[simp] theorem State.wr_bench (f : Field) (v : Nat) : (s.wr f v).bench = s.bench := rfl
@[simp] theorem State.wr_frk (f : Field) (v : Nat) : (s.wr f v).frk = s.frk := rfl
@[simp] theorem State.wr_scr (f : Field) (v : Nat) : (s.wr f v).scr = s.scr := rfl
@[simp] theorem State.wr_itk (f : Field) (v : Nat) : (s.wr f v).itk = s.itk := rfl
@[simp] theorem State.wr_clocks (f : Field) (v : Nat) : (s.wr f v).clocks = s.clocks := rfl
@[simp] theorem State.wr_twn (f : Field) (v : Nat) : (s.wr f v).twn = s.twn := rfl
@[simp] theorem State.wr_fst (f : Field) (v : Nat) : (s.wr f v).fst = s.fst := rfl
@[simp] theorem State.wr_flt (f : Field) (v : Nat) : (s.wr f v).flt = s.flt := rfl
@[simp] theorem State.wr_rrc (f : Field) (v : Nat) : (s.wr f v).rrc = s.rrc := rfl
@[simp] theorem State.wr_obs (f : Field) (v : Nat) : (s.wr f v).obs = s.obs := rfl
@[simp] theorem State.wr_nv (f : Field) (v : Nat) : (s.wr f v).nv = s.nv := rfl
@[simp] theorem State.wr_sent (f : Field) (v : Nat) : (s.wr f v).sent = s.sent := rfl
@[simp] theorem State.wr_fresh (f : Field) (v : Nat) : (s.wr f v).fresh = s.fresh := rfl
@[simp] theorem State.wr_pending (f : Field) (v : Nat) : (s.wr f v).pending = s.pending := rfl

@[simp] theorem State.addAt_staged (f : Field) (i n : Nat) : (s.addAt f i n).staged = s.staged := rfl
@[simp] theorem State.addAt_mem (f : Field) (i n : Nat) : (s.addAt f i n).mem = s.mem := rfl
@[simp] theorem State.addAt_pwr (f : Field) (i n : Nat) : (s.addAt f i n).pwr = s.pwr := rfl
@[simp] theorem State.addAt_clk (f : Field) (i n : Nat) : (s.addAt f i n).clk = s.clk := rfl
@[simp] theorem State.addAt_tal (f : Field) (i n : Nat) : (s.addAt f i n).tal = s.tal := rfl
@[simp] theorem State.addAt_ptp (f : Field) (i n : Nat) : (s.addAt f i n).ptp = s.ptp := rfl
@[simp] theorem State.addAt_haul (f : Field) (i n : Nat) : (s.addAt f i n).haul = s.haul := rfl
@[simp] theorem State.addAt_sch (f : Field) (i n : Nat) : (s.addAt f i n).sch = s.sch := rfl
@[simp] theorem State.addAt_pln (f : Field) (i n : Nat) : (s.addAt f i n).pln = s.pln := rfl
@[simp] theorem State.addAt_top (f : Field) (i n : Nat) : (s.addAt f i n).top = s.top := rfl
@[simp] theorem State.addAt_olc (f : Field) (i n : Nat) : (s.addAt f i n).olc = s.olc := rfl
@[simp] theorem State.addAt_gen (f : Field) (i n : Nat) : (s.addAt f i n).gen = s.gen := rfl
@[simp] theorem State.addAt_wgt (f : Field) (i n : Nat) : (s.addAt f i n).wgt = s.wgt := rfl
@[simp] theorem State.addAt_bench (f : Field) (i n : Nat) : (s.addAt f i n).bench = s.bench := rfl
@[simp] theorem State.addAt_frk (f : Field) (i n : Nat) : (s.addAt f i n).frk = s.frk := rfl
@[simp] theorem State.addAt_scr (f : Field) (i n : Nat) : (s.addAt f i n).scr = s.scr := rfl
@[simp] theorem State.addAt_itk (f : Field) (i n : Nat) : (s.addAt f i n).itk = s.itk := rfl
@[simp] theorem State.addAt_clocks (f : Field) (i n : Nat) : (s.addAt f i n).clocks = s.clocks := rfl
@[simp] theorem State.addAt_twn (f : Field) (i n : Nat) : (s.addAt f i n).twn = s.twn := rfl
@[simp] theorem State.addAt_fst (f : Field) (i n : Nat) : (s.addAt f i n).fst = s.fst := rfl
@[simp] theorem State.addAt_flt (f : Field) (i n : Nat) : (s.addAt f i n).flt = s.flt := rfl
@[simp] theorem State.addAt_rrc (f : Field) (i n : Nat) : (s.addAt f i n).rrc = s.rrc := rfl
@[simp] theorem State.addAt_obs (f : Field) (i n : Nat) : (s.addAt f i n).obs = s.obs := rfl
@[simp] theorem State.addAt_nv (f : Field) (i n : Nat) : (s.addAt f i n).nv = s.nv := rfl
@[simp] theorem State.addAt_sent (f : Field) (i n : Nat) : (s.addAt f i n).sent = s.sent := rfl
@[simp] theorem State.addAt_fresh (f : Field) (i n : Nat) : (s.addAt f i n).fresh = s.fresh := rfl
@[simp] theorem State.addAt_pending (f : Field) (i n : Nat) : (s.addAt f i n).pending = s.pending := rfl

@[simp] theorem State.incAt_staged (f : Field) (i : Nat) : (s.incAt f i).staged = s.staged := rfl
@[simp] theorem State.incAt_mem (f : Field) (i : Nat) : (s.incAt f i).mem = s.mem := rfl
@[simp] theorem State.incAt_pwr (f : Field) (i : Nat) : (s.incAt f i).pwr = s.pwr := rfl
@[simp] theorem State.incAt_clk (f : Field) (i : Nat) : (s.incAt f i).clk = s.clk := rfl
@[simp] theorem State.incAt_tal (f : Field) (i : Nat) : (s.incAt f i).tal = s.tal := rfl
@[simp] theorem State.incAt_ptp (f : Field) (i : Nat) : (s.incAt f i).ptp = s.ptp := rfl
@[simp] theorem State.incAt_haul (f : Field) (i : Nat) : (s.incAt f i).haul = s.haul := rfl
@[simp] theorem State.incAt_sch (f : Field) (i : Nat) : (s.incAt f i).sch = s.sch := rfl
@[simp] theorem State.incAt_pln (f : Field) (i : Nat) : (s.incAt f i).pln = s.pln := rfl
@[simp] theorem State.incAt_top (f : Field) (i : Nat) : (s.incAt f i).top = s.top := rfl
@[simp] theorem State.incAt_olc (f : Field) (i : Nat) : (s.incAt f i).olc = s.olc := rfl
@[simp] theorem State.incAt_gen (f : Field) (i : Nat) : (s.incAt f i).gen = s.gen := rfl
@[simp] theorem State.incAt_wgt (f : Field) (i : Nat) : (s.incAt f i).wgt = s.wgt := rfl
@[simp] theorem State.incAt_bench (f : Field) (i : Nat) : (s.incAt f i).bench = s.bench := rfl
@[simp] theorem State.incAt_frk (f : Field) (i : Nat) : (s.incAt f i).frk = s.frk := rfl
@[simp] theorem State.incAt_scr (f : Field) (i : Nat) : (s.incAt f i).scr = s.scr := rfl
@[simp] theorem State.incAt_itk (f : Field) (i : Nat) : (s.incAt f i).itk = s.itk := rfl
@[simp] theorem State.incAt_clocks (f : Field) (i : Nat) : (s.incAt f i).clocks = s.clocks := rfl
@[simp] theorem State.incAt_twn (f : Field) (i : Nat) : (s.incAt f i).twn = s.twn := rfl
@[simp] theorem State.incAt_fst (f : Field) (i : Nat) : (s.incAt f i).fst = s.fst := rfl
@[simp] theorem State.incAt_flt (f : Field) (i : Nat) : (s.incAt f i).flt = s.flt := rfl
@[simp] theorem State.incAt_rrc (f : Field) (i : Nat) : (s.incAt f i).rrc = s.rrc := rfl
@[simp] theorem State.incAt_obs (f : Field) (i : Nat) : (s.incAt f i).obs = s.obs := rfl
@[simp] theorem State.incAt_nv (f : Field) (i : Nat) : (s.incAt f i).nv = s.nv := rfl
@[simp] theorem State.incAt_sent (f : Field) (i : Nat) : (s.incAt f i).sent = s.sent := rfl
@[simp] theorem State.incAt_fresh (f : Field) (i : Nat) : (s.incAt f i).fresh = s.fresh := rfl
@[simp] theorem State.incAt_pending (f : Field) (i : Nat) : (s.incAt f i).pending = s.pending := rfl

@[simp] theorem State.inc_staged (f : Field) : (s.inc f).staged = s.staged := rfl
@[simp] theorem State.inc_mem (f : Field) : (s.inc f).mem = s.mem := rfl
@[simp] theorem State.inc_pwr (f : Field) : (s.inc f).pwr = s.pwr := rfl
@[simp] theorem State.inc_clk (f : Field) : (s.inc f).clk = s.clk := rfl
@[simp] theorem State.inc_tal (f : Field) : (s.inc f).tal = s.tal := rfl
@[simp] theorem State.inc_ptp (f : Field) : (s.inc f).ptp = s.ptp := rfl
@[simp] theorem State.inc_haul (f : Field) : (s.inc f).haul = s.haul := rfl
@[simp] theorem State.inc_sch (f : Field) : (s.inc f).sch = s.sch := rfl
@[simp] theorem State.inc_pln (f : Field) : (s.inc f).pln = s.pln := rfl
@[simp] theorem State.inc_top (f : Field) : (s.inc f).top = s.top := rfl
@[simp] theorem State.inc_olc (f : Field) : (s.inc f).olc = s.olc := rfl
@[simp] theorem State.inc_gen (f : Field) : (s.inc f).gen = s.gen := rfl
@[simp] theorem State.inc_wgt (f : Field) : (s.inc f).wgt = s.wgt := rfl
@[simp] theorem State.inc_bench (f : Field) : (s.inc f).bench = s.bench := rfl
@[simp] theorem State.inc_frk (f : Field) : (s.inc f).frk = s.frk := rfl
@[simp] theorem State.inc_scr (f : Field) : (s.inc f).scr = s.scr := rfl
@[simp] theorem State.inc_itk (f : Field) : (s.inc f).itk = s.itk := rfl
@[simp] theorem State.inc_clocks (f : Field) : (s.inc f).clocks = s.clocks := rfl
@[simp] theorem State.inc_twn (f : Field) : (s.inc f).twn = s.twn := rfl
@[simp] theorem State.inc_fst (f : Field) : (s.inc f).fst = s.fst := rfl
@[simp] theorem State.inc_flt (f : Field) : (s.inc f).flt = s.flt := rfl
@[simp] theorem State.inc_rrc (f : Field) : (s.inc f).rrc = s.rrc := rfl
@[simp] theorem State.inc_obs (f : Field) : (s.inc f).obs = s.obs := rfl
@[simp] theorem State.inc_nv (f : Field) : (s.inc f).nv = s.nv := rfl
@[simp] theorem State.inc_sent (f : Field) : (s.inc f).sent = s.sent := rfl
@[simp] theorem State.inc_fresh (f : Field) : (s.inc f).fresh = s.fresh := rfl
@[simp] theorem State.inc_pending (f : Field) : (s.inc f).pending = s.pending := rfl

@[simp] theorem State.clearAt_staged (f : Field) (i : Nat) : (s.clearAt f i).staged = s.staged := rfl
@[simp] theorem State.clearAt_mem (f : Field) (i : Nat) : (s.clearAt f i).mem = s.mem := rfl
@[simp] theorem State.clearAt_pwr (f : Field) (i : Nat) : (s.clearAt f i).pwr = s.pwr := rfl
@[simp] theorem State.clearAt_clk (f : Field) (i : Nat) : (s.clearAt f i).clk = s.clk := rfl
@[simp] theorem State.clearAt_tal (f : Field) (i : Nat) : (s.clearAt f i).tal = s.tal := rfl
@[simp] theorem State.clearAt_ptp (f : Field) (i : Nat) : (s.clearAt f i).ptp = s.ptp := rfl
@[simp] theorem State.clearAt_haul (f : Field) (i : Nat) : (s.clearAt f i).haul = s.haul := rfl
@[simp] theorem State.clearAt_sch (f : Field) (i : Nat) : (s.clearAt f i).sch = s.sch := rfl
@[simp] theorem State.clearAt_pln (f : Field) (i : Nat) : (s.clearAt f i).pln = s.pln := rfl
@[simp] theorem State.clearAt_top (f : Field) (i : Nat) : (s.clearAt f i).top = s.top := rfl
@[simp] theorem State.clearAt_olc (f : Field) (i : Nat) : (s.clearAt f i).olc = s.olc := rfl
@[simp] theorem State.clearAt_gen (f : Field) (i : Nat) : (s.clearAt f i).gen = s.gen := rfl
@[simp] theorem State.clearAt_wgt (f : Field) (i : Nat) : (s.clearAt f i).wgt = s.wgt := rfl
@[simp] theorem State.clearAt_bench (f : Field) (i : Nat) : (s.clearAt f i).bench = s.bench := rfl
@[simp] theorem State.clearAt_frk (f : Field) (i : Nat) : (s.clearAt f i).frk = s.frk := rfl
@[simp] theorem State.clearAt_scr (f : Field) (i : Nat) : (s.clearAt f i).scr = s.scr := rfl
@[simp] theorem State.clearAt_itk (f : Field) (i : Nat) : (s.clearAt f i).itk = s.itk := rfl
@[simp] theorem State.clearAt_clocks (f : Field) (i : Nat) : (s.clearAt f i).clocks = s.clocks := rfl
@[simp] theorem State.clearAt_twn (f : Field) (i : Nat) : (s.clearAt f i).twn = s.twn := rfl
@[simp] theorem State.clearAt_fst (f : Field) (i : Nat) : (s.clearAt f i).fst = s.fst := rfl
@[simp] theorem State.clearAt_flt (f : Field) (i : Nat) : (s.clearAt f i).flt = s.flt := rfl
@[simp] theorem State.clearAt_rrc (f : Field) (i : Nat) : (s.clearAt f i).rrc = s.rrc := rfl
@[simp] theorem State.clearAt_obs (f : Field) (i : Nat) : (s.clearAt f i).obs = s.obs := rfl
@[simp] theorem State.clearAt_nv (f : Field) (i : Nat) : (s.clearAt f i).nv = s.nv := rfl
@[simp] theorem State.clearAt_sent (f : Field) (i : Nat) : (s.clearAt f i).sent = s.sent := rfl
@[simp] theorem State.clearAt_fresh (f : Field) (i : Nat) : (s.clearAt f i).fresh = s.fresh := rfl
@[simp] theorem State.clearAt_pending (f : Field) (i : Nat) : (s.clearAt f i).pending = s.pending := rfl

@[simp] theorem State.setByte_csr (a : Nat) (b : Byte) : (s.setByte a b).csr = s.csr := rfl
@[simp] theorem State.setByte_staged (a : Nat) (b : Byte) : (s.setByte a b).staged = s.staged := rfl
@[simp] theorem State.setByte_pwr (a : Nat) (b : Byte) : (s.setByte a b).pwr = s.pwr := rfl
@[simp] theorem State.setByte_clk (a : Nat) (b : Byte) : (s.setByte a b).clk = s.clk := rfl
@[simp] theorem State.setByte_tal (a : Nat) (b : Byte) : (s.setByte a b).tal = s.tal := rfl
@[simp] theorem State.setByte_ptp (a : Nat) (b : Byte) : (s.setByte a b).ptp = s.ptp := rfl
@[simp] theorem State.setByte_haul (a : Nat) (b : Byte) : (s.setByte a b).haul = s.haul := rfl
@[simp] theorem State.setByte_sch (a : Nat) (b : Byte) : (s.setByte a b).sch = s.sch := rfl
@[simp] theorem State.setByte_pln (a : Nat) (b : Byte) : (s.setByte a b).pln = s.pln := rfl
@[simp] theorem State.setByte_top (a : Nat) (b : Byte) : (s.setByte a b).top = s.top := rfl
@[simp] theorem State.setByte_olc (a : Nat) (b : Byte) : (s.setByte a b).olc = s.olc := rfl
@[simp] theorem State.setByte_gen (a : Nat) (b : Byte) : (s.setByte a b).gen = s.gen := rfl
@[simp] theorem State.setByte_wgt (a : Nat) (b : Byte) : (s.setByte a b).wgt = s.wgt := rfl
@[simp] theorem State.setByte_bench (a : Nat) (b : Byte) : (s.setByte a b).bench = s.bench := rfl
@[simp] theorem State.setByte_frk (a : Nat) (b : Byte) : (s.setByte a b).frk = s.frk := rfl
@[simp] theorem State.setByte_scr (a : Nat) (b : Byte) : (s.setByte a b).scr = s.scr := rfl
@[simp] theorem State.setByte_itk (a : Nat) (b : Byte) : (s.setByte a b).itk = s.itk := rfl
@[simp] theorem State.setByte_clocks (a : Nat) (b : Byte) : (s.setByte a b).clocks = s.clocks := rfl
@[simp] theorem State.setByte_twn (a : Nat) (b : Byte) : (s.setByte a b).twn = s.twn := rfl
@[simp] theorem State.setByte_fst (a : Nat) (b : Byte) : (s.setByte a b).fst = s.fst := rfl
@[simp] theorem State.setByte_flt (a : Nat) (b : Byte) : (s.setByte a b).flt = s.flt := rfl
@[simp] theorem State.setByte_rrc (a : Nat) (b : Byte) : (s.setByte a b).rrc = s.rrc := rfl
@[simp] theorem State.setByte_obs (a : Nat) (b : Byte) : (s.setByte a b).obs = s.obs := rfl
@[simp] theorem State.setByte_nv (a : Nat) (b : Byte) : (s.setByte a b).nv = s.nv := rfl
@[simp] theorem State.setByte_sent (a : Nat) (b : Byte) : (s.setByte a b).sent = s.sent := rfl
@[simp] theorem State.setByte_fresh (a : Nat) (b : Byte) : (s.setByte a b).fresh = s.fresh := rfl
@[simp] theorem State.setByte_pending (a : Nat) (b : Byte) : (s.setByte a b).pending = s.pending := rfl

@[simp] theorem State.drawn_csr : (s.drawn).csr = s.csr := rfl
@[simp] theorem State.drawn_staged : (s.drawn).staged = s.staged := rfl
@[simp] theorem State.drawn_mem : (s.drawn).mem = s.mem := rfl
@[simp] theorem State.drawn_pwr : (s.drawn).pwr = s.pwr := rfl
@[simp] theorem State.drawn_clk : (s.drawn).clk = s.clk := rfl
@[simp] theorem State.drawn_tal : (s.drawn).tal = s.tal := rfl
@[simp] theorem State.drawn_ptp : (s.drawn).ptp = s.ptp := rfl
@[simp] theorem State.drawn_haul : (s.drawn).haul = s.haul := rfl
@[simp] theorem State.drawn_sch : (s.drawn).sch = s.sch := rfl
@[simp] theorem State.drawn_pln : (s.drawn).pln = s.pln := rfl
@[simp] theorem State.drawn_top : (s.drawn).top = s.top := rfl
@[simp] theorem State.drawn_olc : (s.drawn).olc = s.olc := rfl
@[simp] theorem State.drawn_gen : (s.drawn).gen = s.gen := rfl
@[simp] theorem State.drawn_wgt : (s.drawn).wgt = s.wgt := rfl
@[simp] theorem State.drawn_bench : (s.drawn).bench = s.bench := rfl
@[simp] theorem State.drawn_frk : (s.drawn).frk = s.frk := rfl
@[simp] theorem State.drawn_scr : (s.drawn).scr = s.scr := rfl
@[simp] theorem State.drawn_itk : (s.drawn).itk = s.itk := rfl
@[simp] theorem State.drawn_clocks : (s.drawn).clocks = s.clocks := rfl
@[simp] theorem State.drawn_twn : (s.drawn).twn = s.twn := rfl
@[simp] theorem State.drawn_fst : (s.drawn).fst = s.fst := rfl
@[simp] theorem State.drawn_flt : (s.drawn).flt = s.flt := rfl
@[simp] theorem State.drawn_rrc : (s.drawn).rrc = s.rrc := rfl
@[simp] theorem State.drawn_obs : (s.drawn).obs = s.obs := rfl
@[simp] theorem State.drawn_nv : (s.drawn).nv = s.nv := rfl
@[simp] theorem State.drawn_sent : (s.drawn).sent = s.sent := rfl
@[simp] theorem State.drawn_pending : (s.drawn).pending = s.pending := rfl

@[simp] theorem State.emit_csr (e : Emission) : (s.emit e).csr = s.csr := rfl
@[simp] theorem State.emit_staged (e : Emission) : (s.emit e).staged = s.staged := rfl
@[simp] theorem State.emit_mem (e : Emission) : (s.emit e).mem = s.mem := rfl
@[simp] theorem State.emit_pwr (e : Emission) : (s.emit e).pwr = s.pwr := rfl
@[simp] theorem State.emit_clk (e : Emission) : (s.emit e).clk = s.clk := rfl
@[simp] theorem State.emit_tal (e : Emission) : (s.emit e).tal = s.tal := rfl
@[simp] theorem State.emit_ptp (e : Emission) : (s.emit e).ptp = s.ptp := rfl
@[simp] theorem State.emit_haul (e : Emission) : (s.emit e).haul = s.haul := rfl
@[simp] theorem State.emit_sch (e : Emission) : (s.emit e).sch = s.sch := rfl
@[simp] theorem State.emit_pln (e : Emission) : (s.emit e).pln = s.pln := rfl
@[simp] theorem State.emit_top (e : Emission) : (s.emit e).top = s.top := rfl
@[simp] theorem State.emit_olc (e : Emission) : (s.emit e).olc = s.olc := rfl
@[simp] theorem State.emit_gen (e : Emission) : (s.emit e).gen = s.gen := rfl
@[simp] theorem State.emit_wgt (e : Emission) : (s.emit e).wgt = s.wgt := rfl
@[simp] theorem State.emit_bench (e : Emission) : (s.emit e).bench = s.bench := rfl
@[simp] theorem State.emit_frk (e : Emission) : (s.emit e).frk = s.frk := rfl
@[simp] theorem State.emit_scr (e : Emission) : (s.emit e).scr = s.scr := rfl
@[simp] theorem State.emit_itk (e : Emission) : (s.emit e).itk = s.itk := rfl
@[simp] theorem State.emit_clocks (e : Emission) : (s.emit e).clocks = s.clocks := rfl
@[simp] theorem State.emit_twn (e : Emission) : (s.emit e).twn = s.twn := rfl
@[simp] theorem State.emit_fst (e : Emission) : (s.emit e).fst = s.fst := rfl
@[simp] theorem State.emit_flt (e : Emission) : (s.emit e).flt = s.flt := rfl
@[simp] theorem State.emit_rrc (e : Emission) : (s.emit e).rrc = s.rrc := rfl
@[simp] theorem State.emit_obs (e : Emission) : (s.emit e).obs = s.obs := rfl
@[simp] theorem State.emit_nv (e : Emission) : (s.emit e).nv = s.nv := rfl
@[simp] theorem State.emit_fresh (e : Emission) : (s.emit e).fresh = s.fresh := rfl
@[simp] theorem State.emit_pending (e : Emission) : (s.emit e).pending = s.pending := rfl

@[simp] theorem State.emit_sent (e : Emission) : (s.emit e).sent = e :: s.sent := rfl

@[simp] theorem State.drawn_fresh : s.drawn.fresh = s.fresh + 1 := rfl

/-! ## Sticky bits (R369) -/

/-- A set of a sticky bit is noted. -/
theorem State.fired_wrAt (f : Field) (i v : Nat) (h : f.access = .w1c) (hv : v % 2 ^ f.width ≠ 0) :
    (s.wrAt f i v).fired = keepKey (f.key i) s.fired := by
  simp [State.wrAt, h, hv]

/-- A write of 1 does not clear a sticky bit that the module has set in the same tick. -/
theorem State.clearBits_fired (f : Field) (i x : Nat) (h : s.fired.contains (f.key i) = true) : s.clearBits f i x = s := by
  simp only [State.clearBits, h, if_true]

@[simp] theorem State.clearBits_pending (f : Field) (i x : Nat) : (s.clearBits f i x).pending = s.pending := by
  unfold State.clearBits; split <;> rfl
@[simp] theorem State.clearBits_mem (f : Field) (i x : Nat) : (s.clearBits f i x).mem = s.mem := by
  unfold State.clearBits; split <;> rfl
@[simp] theorem State.clearBits_staged (f : Field) (i x : Nat) : (s.clearBits f i x).staged = s.staged := by
  unfold State.clearBits; split <;> rfl

end Sys2Proof.Machine
end

