-- ==== Sys2Proof/Laws/Tab.lean ====
section
/-! SUPPORT. What the operations of sparse tables do: reading after each, and the canonical form they keep. -/

namespace Sys2Proof.Machine

variable {α : Type}

@[simp] theorem Tab.get_nil (d : α) (k : Nat) : Tab.get d k ([] : Tab α) = d := rfl

theorem Tab.get_ins (d v : α) (k j : Nat) (t : Tab α) :
    Tab.get d j (Tab.ins k v t) = if j = k then v else Tab.get d j t := by
  induction t with
  | nil => grind [Tab.ins, Tab.get]
  | cons e t ih => grind [Tab.ins, Tab.get]

theorem Tab.get_del (d : α) (k j : Nat) (t : Tab α) :
    Tab.get d j (Tab.del k t) = if j = k then d else Tab.get d j t := by
  unfold Tab.del
  induction t with
  | nil => grind [Tab.get]
  | cons e t ih => grind [Tab.get]

/-- Reading a table after a write of one key. -/
theorem Tab.get_put [DecidableEq α] (d v : α) (k j : Nat) (t : Tab α) :
    Tab.get d j (Tab.put d k v t) = if j = k then v else Tab.get d j t := by
  unfold Tab.put
  split
  · subst_vars; exact Tab.get_del _ _ _ _
  · exact Tab.get_ins _ _ _ _ _

/-- A write of one key leaves every other key alone, whatever either reading takes an unlisted key for. -/
theorem Tab.get_put_ne [DecidableEq α] (d d' v : α) {k j : Nat} (h : j ≠ k) (t : Tab α) :
    Tab.get d' j (Tab.put d k v t) = Tab.get d' j t := by
  unfold Tab.put
  split
  · rw [Tab.get_del, if_neg h]
  · rw [Tab.get_ins, if_neg h]

/-- Keys strictly rising, as Mathlib says it. -/
theorem Tab.sorted_iff (t : Tab α) : Tab.sorted t = true ↔ t.Pairwise fun a b => a.1 < b.1 := by
  induction t with
  | nil => simp [Tab.sorted]
  | cons e t ih =>
    obtain ⟨a, v⟩ := e
    cases t with
    | nil => simp [Tab.sorted]
    | cons f t =>
      obtain ⟨b, w⟩ := f
      simp only [Tab.sorted, Bool.and_eq_true, decide_eq_true_eq, ih, List.pairwise_cons, List.mem_cons]
      constructor
      · rintro ⟨h, h1, h2⟩
        refine ⟨?_, h1, h2⟩
        rintro x (rfl | hx)
        · exact h
        · exact lt_trans h (h1 x hx)
      · rintro ⟨h, h1, h2⟩
        exact ⟨h (b, w) (Or.inl rfl), h1, h2⟩

theorem Tab.mem_ins {k : Nat} {v : α} {t : Tab α} {e : Nat × α} (h : e ∈ Tab.ins k v t) : e = (k, v) ∨ e ∈ t := by
  induction t with
  | nil => simpa [Tab.ins] using h
  | cons f t ih =>
    obtain ⟨a, w⟩ := f
    simp only [Tab.ins] at h
    split at h
    · simpa using h
    · split at h
      · rcases List.mem_cons.1 h with h | h
        · exact Or.inl h
        · exact Or.inr (List.mem_cons_of_mem _ h)
      · rcases List.mem_cons.1 h with h | h
        · exact Or.inr (h ▸ List.mem_cons_self)
        · exact (ih h).imp id (List.mem_cons_of_mem _)

/-- Placing a key keeps keys rising. -/
theorem Tab.sorted_ins {t : Tab α} (k : Nat) (v : α) (h : Tab.sorted t = true) : Tab.sorted (Tab.ins k v t) = true := by
  rw [Tab.sorted_iff] at h ⊢
  induction t with
  | nil => simp [Tab.ins]
  | cons e t ih =>
    obtain ⟨a, w⟩ := e
    have ⟨h1, h2⟩ := List.pairwise_cons.1 h
    simp only [Tab.ins]
    split
    · rename_i hk
      refine List.pairwise_cons.2 ⟨?_, h⟩
      intro x hx
      rcases List.mem_cons.1 hx with rfl | hx
      · exact hk
      · exact lt_trans hk (h1 x hx)
    · split
      · subst_vars; exact List.pairwise_cons.2 ⟨h1, h2⟩
      · rename_i h3 h4
        refine List.pairwise_cons.2 ⟨?_, ih h2⟩
        intro x hx
        rcases Tab.mem_ins hx with rfl | hx
        · show a < k; omega
        · exact h1 x hx

/-- Taking entries out keeps keys rising. -/
theorem Tab.sorted_filter {t : Tab α} (p : Nat × α → Bool) (h : Tab.sorted t = true) :
    Tab.sorted (t.filter p : Tab α) = true := by
  rw [Tab.sorted_iff] at h ⊢
  exact h.filter p

/-- A write keeps keys rising. -/
theorem Tab.sorted_put [DecidableEq α] {t : Tab α} (d : α) (k : Nat) (v : α) (h : Tab.sorted t = true) :
    Tab.sorted (Tab.put d k v t) = true := by
  unfold Tab.put
  split
  · exact Tab.sorted_filter _ h
  · exact Tab.sorted_ins _ _ h

/-- Taking entries out keeps the canonical form. -/
theorem Tab.canon_filter [DecidableEq α] {t : Tab α} {d : α} (p : Nat × α → Bool) (h : Tab.canon d t = true) :
    Tab.canon d (t.filter p : Tab α) = true := by
  simp only [Tab.canon, Bool.and_eq_true, List.all_eq_true] at h ⊢
  exact ⟨Tab.sorted_filter p h.1, fun e he => h.2 e (List.mem_of_mem_filter he)⟩

/-- A write keeps the canonical form. -/
theorem Tab.canon_put [DecidableEq α] {t : Tab α} {d : α} (k : Nat) (v : α) (h : Tab.canon d t = true) :
    Tab.canon d (Tab.put d k v t) = true := by
  unfold Tab.put
  split
  · exact Tab.canon_filter _ h
  · rename_i hv
    simp only [Tab.canon, Bool.and_eq_true, List.all_eq_true] at h ⊢
    refine ⟨Tab.sorted_ins _ _ h.1, fun e he => ?_⟩
    rcases Tab.mem_ins he with rfl | he
    · simpa using hv
    · exact h.2 e he

/-- The first entry of a canonical table, and the rest of it. -/
theorem Tab.canon_head [DecidableEq α] {d v : α} {k : Nat} {t : Tab α} (h : Tab.canon d ((k, v) :: t : Tab α) = true) :
    v ≠ d ∧ Tab.canon d t = true := by
  simp only [Tab.canon, Bool.and_eq_true, List.all_eq_true, List.mem_cons, forall_eq_or_imp] at h ⊢
  obtain ⟨h1, h2, h3⟩ := h
  rw [Tab.sorted_iff, List.pairwise_cons] at h1
  exact ⟨by simpa using h2, (Tab.sorted_iff _).2 h1.2, h3⟩

end Sys2Proof.Machine
end

