-- ==== Sys2Proof/Laws/Ops.lean ====
section
/-! SUPPORT. Reading a register field or a byte of memory after each operation of Machine/Ops.lean, and the canonical
forms that the operations keep. -/

namespace Sys2Proof.Machine

open Sys2Proof

variable (s : State)

/-! ## Register fields -/

@[simp] theorem State.rdAt_wrAt_same (f : Field) (i v : Nat) : (s.wrAt f i v).rdAt f i = v % 2 ^ f.width := by
  simp [State.rdAt, State.wrAt, Tab.get_put]

theorem State.rdAt_wrAt_ne {f g : Field} {i j : Nat} (v : Nat) (h : g.key j ≠ f.key i) :
    (s.wrAt f i v).rdAt g j = s.rdAt g j := Tab.get_put_ne _ _ _ h _

@[simp] theorem State.rd_wr_same (f : Field) (v : Nat) : (s.wr f v).rd f = v % 2 ^ f.width := s.rdAt_wrAt_same f 0 v

theorem State.rd_wr_ne {f g : Field} (v : Nat) (h : g.key 0 ≠ f.key 0) : (s.wr f v).rd g = s.rd g :=
  s.rdAt_wrAt_ne v h

theorem State.rd_wrAt_ne {f g : Field} {i : Nat} (v : Nat) (h : g.key 0 ≠ f.key i) : (s.wrAt f i v).rd g = s.rd g :=
  s.rdAt_wrAt_ne v h

theorem State.rdAt_wr_ne {f g : Field} {j : Nat} (v : Nat) (h : g.key j ≠ f.key 0) : (s.wr f v).rdAt g j = s.rdAt g j :=
  s.rdAt_wrAt_ne v h

theorem State.rdAt_addAt_ne {f g : Field} {i j : Nat} (n : Nat) (h : g.key j ≠ f.key i) :
    (s.addAt f i n).rdAt g j = s.rdAt g j := s.rdAt_wrAt_ne _ h

theorem State.rd_inc_ne {f g : Field} (h : g.key 0 ≠ f.key 0) : (s.inc f).rd g = s.rd g := s.rdAt_wrAt_ne _ h

theorem State.rd_incAt_ne {f g : Field} {i : Nat} (h : g.key 0 ≠ f.key i) : (s.incAt f i).rd g = s.rd g :=
  s.rdAt_wrAt_ne _ h

theorem State.rdAt_inc_ne {f g : Field} {j : Nat} (h : g.key j ≠ f.key 0) : (s.inc f).rdAt g j = s.rdAt g j :=
  s.rdAt_wrAt_ne _ h

theorem State.rdAt_incAt_ne {f g : Field} {i j : Nat} (h : g.key j ≠ f.key i) : (s.incAt f i).rdAt g j = s.rdAt g j :=
  s.rdAt_wrAt_ne _ h

/-- A saturating count after one more: one higher, or its largest value. -/
theorem State.rdAt_addAt_same (f : Field) (i n : Nat) : (s.addAt f i n).rdAt f i = min (s.rdAt f i + n) f.max := by
  have h : min (s.rdAt f i + n) f.max < 2 ^ f.width := by
    have := Nat.two_pow_pos f.width
    unfold Field.max; omega
  rw [State.addAt, State.rdAt_wrAt_same, Nat.mod_eq_of_lt h]

theorem State.rd_inc_same (f : Field) : (s.inc f).rd f = min (s.rd f + 1) f.max := s.rdAt_addAt_same f 0 1

theorem State.rdAt_incAt_same (f : Field) (i : Nat) : (s.incAt f i).rdAt f i = min (s.rdAt f i + 1) f.max :=
  s.rdAt_addAt_same f i 1

@[simp] theorem State.rdAt_setByte (a : Nat) (b : Byte) (f : Field) (i : Nat) : (s.setByte a b).rdAt f i = s.rdAt f i := rfl
@[simp] theorem State.rd_setByte (a : Nat) (b : Byte) (f : Field) : (s.setByte a b).rd f = s.rd f := rfl
@[simp] theorem State.rdAt_emit (e : Emission) (f : Field) (i : Nat) : (s.emit e).rdAt f i = s.rdAt f i := rfl
@[simp] theorem State.rd_emit (e : Emission) (f : Field) : (s.emit e).rd f = s.rd f := rfl
@[simp] theorem State.rdAt_drawn (f : Field) (i : Nat) : s.drawn.rdAt f i = s.rdAt f i := rfl
@[simp] theorem State.rd_drawn (f : Field) : s.drawn.rd f = s.rd f := rfl

/-- A field write keeps the register file's keys rising. -/
theorem State.wrAt_csrWf (f : Field) (i v : Nat) (h : csrWf s.csr = true) : csrWf (s.wrAt f i v).csr = true :=
  Tab.sorted_put _ _ _ h

/-- A field holds a value of its width once written. -/
theorem State.wrAt_fits (f : Field) (i v : Nat) : (s.wrAt f i v).fits f i := by
  unfold State.fits
  rw [State.rdAt_wrAt_same]
  exact Nat.mod_lt _ (Nat.two_pow_pos _)

/-! ## Memory -/

theorem State.byte_setByte (a j : Nat) (b : Byte) : (s.setByte a b).byte j = if j = a then b else s.byte j :=
  Tab.get_put _ _ _ _ _

@[simp] theorem State.byte_wrAt (f : Field) (i v a : Nat) : (s.wrAt f i v).byte a = s.byte a := rfl
@[simp] theorem State.byte_wr (f : Field) (v a : Nat) : (s.wr f v).byte a = s.byte a := rfl

/-- A byte write keeps the canonical form of memory. -/
theorem State.setByte_wf (a : Nat) (b : Byte) (h : Memory.wf s.mem = true) : Memory.wf (s.setByte a b).mem = true :=
  Tab.canon_put _ _ h

/-- A write of bytes keeps the canonical form of memory. -/
theorem State.setBytes_wf (l : List Byte) (a : Nat) (h : Memory.wf s.mem = true) : Memory.wf (s.setBytes a l).mem = true := by
  induction l generalizing s a with
  | nil => exact h
  | cons b t ih => exact ih _ _ (s.setByte_wf a b h)

/-- Every byte after a write of bytes: those written, and the others as before. -/
theorem State.byte_setBytes (l : List Byte) (a j : Nat) :
    (s.setBytes a l).byte j = if h : a ≤ j ∧ j < a + l.length then l[j - a]'(by omega) else s.byte j := by
  induction l generalizing s a with
  | nil => simp only [State.setBytes, List.length_nil]; rw [dif_neg (by omega)]
  | cons b t ih =>
    simp only [State.setBytes, ih, List.length_cons, State.byte_setByte]
    by_cases h : j = a
    · subst h
      rw [dif_neg (by omega), if_pos rfl, dif_pos (by omega)]
      simp
    · rw [if_neg h]
      by_cases h2 : a + 1 ≤ j ∧ j < a + 1 + t.length
      · rw [dif_pos h2, dif_pos (by omega)]
        have : j - a = (j - (a + 1)) + 1 := by omega
        simp only [this, List.getElem_cons_succ]
      · rw [dif_neg h2, dif_neg (by omega)]

/-- Bytes read back after they are written. -/
theorem State.bytes_setBytes (l : List Byte) (a : Nat) : (s.setBytes a l).bytes a l.length = l := by
  have key : ∀ (n k : Nat), n + k = l.length → (s.setBytes a l).bytes (a + k) n = l.drop k := by
    intro n
    induction n with
    | zero => intro k hk; simp only [State.bytes]; rw [List.drop_eq_nil_of_le (by omega)]
    | succ n ih =>
      intro k hk
      have hlt : k < l.length := by omega
      simp only [State.bytes]
      rw [List.drop_eq_getElem_cons hlt, Nat.add_assoc, ih (k + 1) (by omega), State.byte_setBytes, dif_pos (by omega)]
      simp
  simpa using key l.length 0 (by omega)

end Sys2Proof.Machine
end

