-- ==== Sys2Proof/Laws/Record.lean ====
section
/-! SUPPORT. What recording an occurrence or raising an error can do, said once (Machine/Record.lean,
Machine/Faults.lean): every rule that "records" or "raises" something changes no more than this. -/

namespace Sys2Proof.Machine

open Sys2Proof

/-- The register fields that recording writes: the counts and status of FLT, RRC and the trace, and the count and event of
a refused write unit. -/
def recordFields : List Field :=
  [R.PWR_COUNT_REFUSED, R.PWR_EVENT_WRITE_REFUSED, R.RRC_STATUS_SPILL_SEQ, R.RRC_STATUS_WAITING, R.RRC_STATUS_USED,
   R.RRC_DROP_CRITICAL, R.RRC_DROP_FAULT, R.RRC_DROP_NOTICE, R.RRC_DROP_INFO, R.RRC_OVERWRITE_SPILLED,
   R.RRC_OVERWRITE_FAULT, R.RRC_OVERWRITE_NOTICE, R.RRC_OVERWRITE_INFO, R.OBS_TRACE_STATUS_DROPPED,
   R.OBS_TRACE_STATUS_STATE, R.OBS_TRACE_STATUS_WRAPPED, R.OBS_TRACE_STATUS_NEXT, R.FLT_COUNT_CORRECTED,
   R.FLT_COUNT_CONTAINED, R.FLT_COUNT_STEP_FATAL, R.FLT_OVERFLOW_MODULE_FATAL, R.FLT_OVERFLOW_STEP,
   R.FLT_OVERFLOW_CONTAINED, R.FLT_OVERFLOW_REPEATS, R.FLT_STATUS_DEPTH, R.FLT_STATUS_PRIMARY, R.FLT_STATUS_CLASS]

/-- The keys of those fields. -/
def recordKeys : List Nat := recordFields.map fun f => f.key 0

/-- `t` is `s` with no more changed than recording changes: the fields of `recordFields`, the write units of a spill,
the Ring Recorder, the error queue, the trace and the counter of free values. -/
structure Recorded (s t : State) : Prop where
  staged : t.staged = s.staged
  mem : t.mem = s.mem
  pwr : ∃ u, t.pwr = { s.pwr with units := u }
  clk : t.clk = s.clk
  tal : t.tal = s.tal
  ptp : t.ptp = s.ptp
  haul : t.haul = s.haul
  sch : t.sch = s.sch
  pln : t.pln = s.pln
  top : t.top = s.top
  olc : t.olc = s.olc
  gen : t.gen = s.gen
  wgt : t.wgt = s.wgt
  bench : t.bench = s.bench
  frk : t.frk = s.frk
  scr : t.scr = s.scr
  itk : t.itk = s.itk
  clocks : t.clocks = s.clocks
  twn : t.twn = s.twn
  fst : t.fst = s.fst
  nv : t.nv = s.nv
  sent : t.sent = s.sent
  pending : t.pending = s.pending
  rd : ∀ (f : Field) (i : Nat), f.key i ∉ recordKeys → t.rdAt f i = s.rdAt f i

namespace Recorded

theorem refl (s : State) : Recorded s s :=
  ⟨rfl, rfl, ⟨_, rfl⟩, rfl, rfl, rfl, rfl, rfl, rfl, rfl, rfl, rfl, rfl, rfl, rfl, rfl, rfl, rfl, rfl, rfl, rfl, rfl,
    rfl, fun _ _ _ => rfl⟩

theorem trans {s t u : State} (a : Recorded s t) (b : Recorded t u) : Recorded s u := by
  obtain ⟨x, hx⟩ := a.pwr
  obtain ⟨y, hy⟩ := b.pwr
  exact ⟨b.staged.trans a.staged, b.mem.trans a.mem, ⟨y, by rw [hy, hx]⟩, b.clk.trans a.clk, b.tal.trans a.tal,
    b.ptp.trans a.ptp, b.haul.trans a.haul, b.sch.trans a.sch, b.pln.trans a.pln, b.top.trans a.top, b.olc.trans a.olc,
    b.gen.trans a.gen, b.wgt.trans a.wgt, b.bench.trans a.bench, b.frk.trans a.frk, b.scr.trans a.scr, b.itk.trans a.itk,
    b.clocks.trans a.clocks, b.twn.trans a.twn, b.fst.trans a.fst, b.nv.trans a.nv, b.sent.trans a.sent,
    b.pending.trans a.pending, fun f i h => (b.rd f i h).trans (a.rd f i h)⟩

theorem wrAt (s : State) (f : Field) (i v : Nat) (h : f.key i ∈ recordKeys) : Recorded s (s.wrAt f i v) :=
  ⟨rfl, rfl, ⟨_, rfl⟩, rfl, rfl, rfl, rfl, rfl, rfl, rfl, rfl, rfl, rfl, rfl, rfl, rfl, rfl, rfl, rfl, rfl, rfl, rfl,
    rfl, fun _ _ hg => s.rdAt_wrAt_ne v (fun e => hg (e ▸ h))⟩

theorem wr {s : State} (f : Field) (v : Nat) (h : f.key 0 ∈ recordKeys) : Recorded s (s.wr f v) := wrAt s f 0 v h

theorem inc {s : State} (f : Field) (h : f.key 0 ∈ recordKeys) : Recorded s (s.inc f) := wrAt s f 0 _ h

theorem inner (s : State) (u : List UnitJob) (o : Obs) (r : Rrc) (q : Flt) (n : Nat) :
    Recorded s { s with pwr := { s.pwr with units := u }, obs := o, rrc := r, flt := q, fresh := n } :=
  ⟨rfl, rfl, ⟨_, rfl⟩, rfl, rfl, rfl, rfl, rfl, rfl, rfl, rfl, rfl, rfl, rfl, rfl, rfl, rfl, rfl, rfl, rfl, rfl, rfl,
    rfl, fun _ _ _ => rfl⟩

end Recorded

theorem State.trace_recorded (s : State) (g f src u c : Nat) : Recorded s (s.trace g f src u c) := by
  unfold State.trace
  have h : ∀ (o : Obs) (n : Nat), Recorded s (({ s with obs := o }.wr R.OBS_TRACE_STATUS_NEXT n).drawn) := fun o n =>
    (Recorded.inner s s.pwr.units o s.rrc s.flt s.fresh).trans ((Recorded.wr R.OBS_TRACE_STATUS_NEXT n (by decide)).trans
      (.inner _ _ _ _ _ _))
  dsimp only
  repeat' split
  all_goals first
    | exact .refl s
    | exact .inc _ (by decide)
    | exact (h _ _).trans (.wr _ _ (by decide))
    | exact h _ _

theorem State.writeRefused_recorded (s : State) : Recorded s s.writeRefused :=
  (Recorded.inc (s := s) R.PWR_COUNT_REFUSED (by decide)).trans (.wr _ _ (by decide))

theorem State.startSpill_recorded (s : State) (final : Bool) : Recorded s (s.startSpill final) := by
  unfold State.startSpill
  split
  · exact (Recorded.wr (s := s) R.RRC_STATUS_WAITING 0 (by decide)).trans (.inner _ _ _ _ _ _)
  · exact s.writeRefused_recorded.trans (.wr _ _ (by decide))

theorem State.resumeSpill_recorded (s : State) : Recorded s s.resumeSpill := by
  unfold State.resumeSpill
  split
  · exact s.startSpill_recorded _
  · exact .refl s

theorem State.setEntry_recorded (s : State) (i : Nat) (e : RrcEntry) : Recorded s (s.setEntry i e) :=
  .inner s s.pwr.units s.obs _ s.flt s.fresh

theorem State.entryTaken_recorded (s : State) : Recorded s s.entryTaken := by
  unfold State.entryTaken
  dsimp only
  split
  · exact (Recorded.wr (s := s) _ _ (by decide)).trans (State.startSpill_recorded _ _)
  · exact .wr _ _ (by decide)

theorem State.overwritten_recorded (s : State) (e : RrcEntry) : Recorded s (s.overwritten e) := by
  unfold State.overwritten
  repeat' split
  all_goals exact .inc _ (by decide)

theorem State.dropped_recorded (s : State) (k : Nat) : Recorded s (s.dropped k) := by
  unfold State.dropped
  split <;> exact .inc _ (by decide)

/-- What one occurrence can do. -/
theorem State.occurIn_recorded (s : State) (f a b c d e v : Nat) : Recorded s (s.occurIn f a b c d e v) := by
  unfold State.occurIn
  dsimp only
  have h : Recorded s (if e ≥ 2 then s.trace 6 f a c d else s).drawn := by
    split
    · exact (s.trace_recorded _ _ _ _ _).trans (.inner _ _ _ _ _ _)
    · exact .inner _ _ _ _ _ _
  refine h.trans ?_
  generalize (if e ≥ 2 then s.trace 6 f a c d else s).drawn = x
  repeat' split
  all_goals first
    | exact State.setEntry_recorded _ _ _
    | exact (State.setEntry_recorded _ _ _).trans (State.entryTaken_recorded _)
    | exact (State.overwritten_recorded _ _).trans (State.setEntry_recorded _ _ _)
    | exact State.dropped_recorded _ _

/-- What one occurrence in its own field can do. -/
theorem State.occur_recorded (s : State) (a b c d e v : Nat) : Recorded s (s.occur a b c d e v) :=
  s.occurIn_recorded _ _ _ _ _ _ _

theorem State.notice_recorded (s : State) (a b c d v : Nat) : Recorded s (s.notice a b c d v) := s.occur_recorded _ _ _ _ _ _

theorem State.fault_recorded (s : State) (a b c d v : Nat) : Recorded s (s.fault a b c d v) := s.occur_recorded _ _ _ _ _ _

theorem State.critical_recorded (s : State) (a b c d v : Nat) : Recorded s (s.critical a b c d v) :=
  s.occur_recorded _ _ _ _ _ _

theorem State.startExit_recorded (s : State) (n : Nat) : Recorded s (s.startExit n) := by
  unfold State.startExit
  split
  · exact .refl s
  · exact s.notice_recorded _ _ _ _ _

theorem State.overflowed_recorded (s : State) (k : Nat) : Recorded s (s.overflowed k) := by
  unfold State.overflowed
  split
  · exact .inc _ (by decide)
  · exact .inc _ (by decide)
  · exact .refl s

theorem State.fltStatus_recorded (s : State) : Recorded s s.fltStatus := by
  unfold State.fltStatus
  dsimp only
  refine (Recorded.wr (s := s) R.FLT_STATUS_DEPTH s.flt.queue.length (by decide)).trans ?_
  split <;> exact (Recorded.wr _ _ (by decide)).trans (.wr _ _ (by decide))

theorem State.setFlt_recorded (s : State) (p : Option ErrRec) (q : List ErrRec) : Recorded s (s.setFlt p q) :=
  (Recorded.inner s s.pwr.units s.obs s.rrc _ s.fresh).trans (State.fltStatus_recorded _)

theorem State.placeRecord_recorded (s : State) (r : ErrRec) : Recorded s (s.placeRecord r) := by
  unfold State.placeRecord
  dsimp only
  repeat' split
  all_goals first
    | exact State.setFlt_recorded _ _ _
    | exact (State.overflowed_recorded _ _).trans (State.setFlt_recorded _ _ _)
    | exact State.overflowed_recorded _ _

theorem State.placeOrMerge_recorded (s : State) (r : ErrRec) : Recorded s (s.placeOrMerge r) := by
  unfold State.placeOrMerge
  dsimp only
  repeat' split
  all_goals first
    | exact (Recorded.inner s s.pwr.units s.obs s.rrc _ s.fresh).trans (.inc _ (by decide))
    | exact (Recorded.inner s s.pwr.units s.obs s.rrc _ s.fresh).trans (State.placeRecord_recorded _ _)

theorem State.toBase_recorded (s : State) (t : TickErrs) : Recorded s (s.toBase t) :=
  ((Recorded.wr (s := s) _ _ (by decide)).trans ((Recorded.wr _ _ (by decide)).trans (.wr _ _ (by decide)))).trans
    ((Recorded.inner _ _ _ _ _ _).trans (State.fltStatus_recorded _))

theorem State.placeTick_recorded (s : State) (t : TickErrs) : Recorded s (s.placeTick t) := by
  have key : ∀ (l : List ErrRec) (x : State), Recorded x (l.foldl State.placeOrMerge x) := by
    intro l
    induction l with
    | nil => exact .refl
    | cons r l ih => exact fun x => (x.placeOrMerge_recorded r).trans (ih _)
  exact ((Recorded.inner s s.pwr.units s.obs s.rrc _ s.fresh).trans (State.toBase_recorded _ t)).trans (key _ _)

theorem State.queueRecord_recorded (s : State) (r : ErrRec) : Recorded s (s.queueRecord r) := by
  unfold State.queueRecord
  dsimp only
  split
  · exact (Recorded.inner s s.pwr.units s.obs s.rrc _ s.fresh).trans (State.placeOrMerge_recorded _ _)
  · exact s.placeTick_recorded _

theorem State.countError_recorded (s : State) (c : ErrClass) : Recorded s (s.countError c) := by
  unfold State.countError
  split <;> exact .inc _ (by decide)

/-- What raising an error can do. -/
theorem State.raiseErr_recorded (s : State) (e : Err) : Recorded s (s.raiseErr e) := by
  unfold State.raiseErr
  dsimp only
  refine (s.countError_recorded e.cls).trans ?_
  split
  · exact State.occurIn_recorded _ _ _ _ _ _ _ _
  · exact (State.queueRecord_recorded _ _).trans (State.occurIn_recorded _ _ _ _ _ _ _ _)
  · exact (State.queueRecord_recorded _ _).trans (State.occurIn_recorded _ _ _ _ _ _ _ _)

theorem State.contained_recorded (s : State) (a b c d e f : Nat) : Recorded s (s.contained a b c d e f) :=
  s.raiseErr_recorded _

theorem State.corrected_recorded (s : State) (a b c d e f : Nat) : Recorded s (s.corrected a b c d e f) :=
  s.raiseErr_recorded _

end Sys2Proof.Machine
end

