-- ==== Sys2Proof/Laws/Frame.lean ====
section
/-! SUPPORT. What an operation can do, as one relation: which parts of the state it leaves as they are, the canonical forms
it keeps, and the fuses that only rise. The files Laws/Frame… hold one lemma for every operation of Machine/. -/

namespace Sys2Proof.Machine

open Sys2Proof

/-- What non-volatile memory never gives back: the claim of an owner, the rollback fuses, the sequence of owner commands and
the revocation fuses of each key slot, at most fifteen (R393 to R397). -/
def Nv.risesTo (a b : Nv) : Prop :=
  (a.owned = true → b.owned = true) ∧ a.rollback ≤ b.rollback ∧ a.ownerSeq ≤ b.ownerSeq ∧
    ∀ k, min (a.keys.getD k ⟨none, 0, false, 0⟩).fuses 15 ≤ (b.keys.getD k ⟨none, 0, false, 0⟩).fuses

theorem Nv.risesTo_refl (a : Nv) : a.risesTo a := ⟨id, le_refl _, le_refl _, fun _ => min_le_left _ _⟩

theorem Nv.risesTo_trans {a b c : Nv} (h : a.risesTo b) (g : b.risesTo c) : a.risesTo c :=
  ⟨fun x => g.1 (h.1 x), h.2.1.trans g.2.1, h.2.2.1.trans g.2.2.1, fun k =>
    (le_min (h.2.2.2 k) (min_le_right _ _)).trans (g.2.2.2 k)⟩

/-- Setting one key slot, whose fuses do not fall. -/
theorem Nv.risesTo_keys (a : Nv) (k : Nat) (x : KeySlot)
    (h : min (a.keys.getD k ⟨none, 0, false, 0⟩).fuses 15 ≤ x.fuses) : a.risesTo { a with keys := a.keys.set k x } := by
  refine ⟨id, le_refl _, le_refl _, fun j => ?_⟩
  simp only [List.getD_eq_getElem?_getD, List.getElem?_set] at h ⊢
  split
  · subst_vars
    split
    · simpa using h
    · rename_i hk
      rw [List.getElem?_eq_none (by omega)]
      simp
  · exact min_le_left _ _

/-- Mapping the key slots by a function that keeps fuses. -/
theorem Nv.risesTo_map (a : Nv) (l : List KeySlot)
    (h : l.map KeySlot.fuses = a.keys.map KeySlot.fuses) : a.risesTo { a with keys := l } := by
  refine ⟨id, le_refl _, le_refl _, fun j => ?_⟩
  have e : (l.getD j ⟨none, 0, false, 0⟩).fuses = (a.keys.getD j ⟨none, 0, false, 0⟩).fuses := by
    have e2 := congrArg (fun m : List Nat => m.getD j 0) h
    simp only [List.getD_eq_getElem?_getD, List.getElem?_map] at e2 ⊢
    cases hl : l[j]? <;> cases ha : a.keys[j]? <;> simp_all
  exact e ▸ min_le_left _ _

/-- `t` comes from `s` with no part changed outside `P`. -/
structure Frame (P : List Part) (s t : State) : Prop where
  same : ∀ p, p ∉ P → p.same s t
  csr : csrWf s.csr = true → csrWf t.csr = true
  mem : Memory.wf s.mem = true → Memory.wf t.mem = true
  haul : s.haul.length = 16 → t.haul.length = 16
  clocks : s.clocks.length = 2 → t.clocks.length = 2
  nv : s.nv.risesTo t.nv
  fresh : s.fresh ≤ t.fresh
  pending : t.pending = s.pending

section

variable (csr staged : Tab Nat) (mem : List Host.Cell) (pwr : Pwr) (clk : Clk) (tal : Tal) (ptp : PtpClock)
  (haul : List HaulPort) (sch : Sch) (pln : Pln) (top : Top) (olc : Olc) (gen : Gen) (wgt : Wgt) (bench : Tab Bench)
  (frk : Frk) (scr : Scr) (itk : Itk) (clocks : List PtpPort) (twn : Twn) (fst : Forester) (flt : Flt) (rrc : Rrc)
  (obs : Obs) (nv : Nv) (fired : List Nat) (sent : List Emission) (fresh : Nat) (pending : List Instr)

/-- `Frame` of a state written out part by part. -/
def FrameMk (P : List Part) (s : State) : Prop :=
  Frame P s ⟨csr, staged, mem, pwr, clk, tal, ptp, haul, sch, pln, top, olc, gen, wgt, bench, frk, scr, itk, clocks, twn,
    fst, flt, rrc, obs, nv, fired, sent, fresh, pending⟩

theorem Frame.mk_eq (P : List Part) (s : State) :
    Frame P s ⟨csr, staged, mem, pwr, clk, tal, ptp, haul, sch, pln, top, olc, gen, wgt, bench, frk, scr, itk, clocks, twn,
      fst, flt, rrc, obs, nv, fired, sent, fresh, pending⟩ =
    FrameMk csr staged mem pwr clk tal ptp haul sch pln top olc gen wgt bench frk scr itk clocks twn fst flt rrc obs nv
      fired sent fresh pending P s := rfl

end

namespace Frame

variable {P Q : List Part} {s x y : State}

theorem refl (P : List Part) (s : State) : Frame P s s :=
  ⟨fun p _ => by cases p <;> rfl, id, id, id, id, s.nv.risesTo_refl, le_refl _, rfl⟩

theorem then_ (h : Frame P s x) (g : Frame Q x y) (hq : Q ⊆ P) : Frame P s y := by
  refine ⟨fun p hp => ?_, g.csr ∘ h.csr, g.mem ∘ h.mem, g.haul ∘ h.haul, g.clocks ∘ h.clocks,
    Nv.risesTo_trans h.nv g.nv, h.fresh.trans g.fresh, g.pending.trans h.pending⟩
  have a := h.same p hp
  have b := g.same p (fun m => hp (hq m))
  cases p <;> exact Eq.trans b a

/-- A record update: each part named in `P`, or as it was. -/
theorem upd {csr staged : Tab Nat} {mem : List Host.Cell} {pwr : Pwr} {clk : Clk} {tal : Tal} {ptp : PtpClock}
    {haul : List HaulPort} {sch : Sch} {pln : Pln} {top : Top} {olc : Olc} {gen : Gen} {wgt : Wgt} {bench : Tab Bench}
    {frk : Frk} {scr : Scr} {itk : Itk} {clocks : List PtpPort} {twn : Twn} {fst : Forester} {flt : Flt} {rrc : Rrc}
    {obs : Obs} {nv : Nv} {fired : List Nat} {sent : List Emission} {fresh : Nat} {pending : List Instr} (h : Frame P s x)
    (hc : csrWf x.csr = true → csrWf csr = true := by exact id)
    (hp : ∀ p, p ∈ P ∨ p.same x ⟨csr, staged, mem, pwr, clk, tal, ptp, haul, sch, pln, top, olc, gen, wgt, bench, frk, scr,
      itk, clocks, twn, fst, flt, rrc, obs, nv, fired, sent, fresh, pending⟩ := by
        (intro p; cases p <;> first | exact .inl (by decide) | exact .inr rfl))
    (hn : x.nv.risesTo nv := by exact Nv.risesTo_refl _)
    (hm : Memory.wf x.mem = true → Memory.wf mem = true := by exact id)
    (hh : x.haul.length = 16 → haul.length = 16 := by first | exact id | (intro h; simpa using h) | exact fun _ => rfl)
    (hk : x.clocks.length = 2 → clocks.length = 2 := by first | exact id | (intro h; simpa using h) | exact fun _ => rfl)
    (hf : x.fresh ≤ fresh := by exact le_refl _) (hq : pending = x.pending := by rfl) :
    FrameMk csr staged mem pwr clk tal ptp haul sch pln top olc gen wgt bench frk scr itk clocks twn fst flt rrc obs nv
      fired sent fresh pending P s := by
  refine h.then_ (Q := P) ⟨fun p hp' => (hp p).resolve_left hp', hc, hm, hh, hk, hn, hf, hq⟩ (fun _ => id)

theorem ite {c : Prop} [Decidable c] (h : Frame P s x) (g : Frame P s y) : Frame P s (if c then x else y) := by
  split
  · exact h
  · exact g

theorem foldl {α : Type} {f : State → α → State} (l : List α) (h : Frame P s x)
    (hf : ∀ y a, Frame P s y → Frame P s (f y a)) : Frame P s (l.foldl f x) := by
  induction l generalizing x with
  | nil => exact h
  | cons a t ih => exact ih (hf x a h)

theorem foldl_fst {α β : Type} {f : State × β → α → State × β} {b : State × β} (l : List α) (h : Frame P s b.1)
    (hf : ∀ y a, Frame P s y.1 → Frame P s (f y a).1) : Frame P s (l.foldl f b).1 := by
  induction l generalizing b with
  | nil => exact h
  | cons a t ih => exact ih (hf b a h)

theorem of_eq {α : Type} {r : State × α} {b : α} (h : Frame P s r.1) (e : r = (y, b)) : Frame P s y := by
  rw [e] at h
  exact h

end Frame

/-- What a command answers, when it answers a next state, comes from `s` with no part changed outside `P`. -/
structure Frames (P : List Part) (s : State) (r : Res) : Prop where
  whenNext : ∀ t, r = .next t → Frame P s t

namespace Frames

variable {P : List Part} {s x : State}

theorem next (h : Frame P s x) : Frames P s (.next x) := by
  refine ⟨?_⟩
  rintro t ⟨⟩
  exact h

theorem fault (e : Fault) : Frames P s (.fault e) := ⟨by rintro t ⟨⟩⟩

theorem refused (e : Refusal) : Frames P s (.refused e) := ⟨by rintro t ⟨⟩⟩

theorem ite {c : Prop} [Decidable c] {a b : Res} (h : Frames P s a) (g : Frames P s b) :
    Frames P s (if c then a else b) := by
  split
  · exact h
  · exact g

theorem mono {Q : List Part} {r : Res} (h : Frames Q s r) (hq : Q ⊆ P) : Frames P s r :=
  ⟨fun t e => (Frame.refl P s).then_ (h.whenNext t e) hq⟩

/-- A command that goes on from `x`. -/
theorem then_ {Q : List Part} {r : Res} (h : Frame P s x) (g : Frames Q x r) (hq : Q ⊆ P) : Frames P s r :=
  ⟨fun t e => h.then_ (g.whenNext t e) hq⟩

end Frames

/-! ## The operations of Machine/Ops.lean -/

theorem State.wrAt_frame (s : State) (f : Field) (i v : Nat) : Frame [.csr] s (s.wrAt f i v) :=
  ⟨fun p hp => by cases p <;> first | rfl | exact absurd (by decide) hp, fun h => s.wrAt_csrWf f i v h, id, id, id,
    s.nv.risesTo_refl, le_refl _, rfl⟩

theorem State.wr_frame (s : State) (f : Field) (v : Nat) : Frame [.csr] s (s.wr f v) := s.wrAt_frame f 0 v

theorem State.addAt_frame (s : State) (f : Field) (i n : Nat) : Frame [.csr] s (s.addAt f i n) := s.wrAt_frame f i _

theorem State.incAt_frame (s : State) (f : Field) (i : Nat) : Frame [.csr] s (s.incAt f i) := s.wrAt_frame f i _

theorem State.clearBits_frame (s : State) (f : Field) (i x : Nat) : Frame [.csr] s (s.clearBits f i x) := by
  unfold State.clearBits
  split
  · exact .refl _ _
  · exact ⟨fun p hp => by cases p <;> first | rfl | exact absurd (by decide) hp, fun h => Tab.sorted_put _ _ _ h, id, id, id,
      s.nv.risesTo_refl, le_refl _, rfl⟩

theorem State.inc_frame (s : State) (f : Field) : Frame [.csr] s (s.inc f) := s.wrAt_frame f 0 _

theorem State.clearAt_frame (s : State) (f : Field) (i : Nat) : Frame [.csr] s (s.clearAt f i) := s.wrAt_frame f i _

theorem State.drawn_frame (s : State) : Frame [.fresh] s s.drawn :=
  ⟨fun p hp => by cases p <;> first | rfl | exact absurd (by decide) hp, id, id, id, id, s.nv.risesTo_refl,
    Nat.le_succ _, rfl⟩

theorem State.emit_frame (s : State) (e : Emission) : Frame [.sent] s (s.emit e) :=
  ⟨fun p hp => by cases p <;> first | rfl | exact absurd (by decide) hp, id, id, id, id, s.nv.risesTo_refl, le_refl _,
    rfl⟩

theorem State.setByte_frame (s : State) (a : Nat) (b : Byte) : Frame [.mem] s (s.setByte a b) :=
  ⟨fun p hp => by cases p <;> first | rfl | exact absurd (by decide) hp, id, s.setByte_wf a b, id, id,
    s.nv.risesTo_refl, le_refl _, rfl⟩

theorem State.setBytes_frame (s : State) (a : Nat) (l : List Byte) : Frame [.mem] s (s.setBytes a l) := by
  induction l generalizing s a with
  | nil => exact .refl _ _
  | cons b t ih => exact (s.setByte_frame a b).then_ (ih _ _) (fun _ => id)

end Sys2Proof.Machine
end

