-- ==== Sys2Proof/Laws/FrameOps.lean ====
section
/-! SUPPORT. One frame lemma for every operation of Machine/Ops.lean: the parts of the state that it may change. -/

set_option Elab.async false
set_option linter.unusedTactic false
set_option linter.unreachableTactic false

namespace Sys2Proof.Machine

open Sys2Proof

theorem State.setWctx_frame (s : State) (c : Nat) (w : WgtCtx) :
    Frame [.wgt] s (State.setWctx s c w) := by
  unfold State.setWctx
  try dsimp only
  repeat' (first
    | with_reducible apply Frame.refl
    | with_reducible assumption
    | with_reducible apply Frame.ite
    | decide
    | dsimp only
    | split
    | (fail_if_no_progress simp only [Frame.mk_eq]; refine Frame.upd ?_))

theorem State.setRoot_frame (s : State) (f : Field) (c : Nat) (bytes : List Byte) :
    Frame [.csr] s (State.setRoot s f c bytes) := by
  unfold State.setRoot
  try dsimp only
  repeat' (first
    | with_reducible apply Frame.refl
    | with_reducible assumption
    | with_reducible apply Frame.ite
    | with_reducible apply Frame.then_ ?_ (State.wrAt_frame ..)
    | decide
    | with_reducible apply Frame.foldl_fst
    | with_reducible apply Frame.foldl
    | intro y a b c hy
    | intro y a hy
    | intro y hy
    | dsimp only
    | split)

end Sys2Proof.Machine
end

