-- ==== Sys2Proof/Laws/FrameRecord.lean ====
section
/-! SUPPORT. One frame lemma for every operation of Machine/Record.lean: the parts of the state that it may change. -/

set_option Elab.async false
set_option linter.unusedTactic false
set_option linter.unreachableTactic false

namespace Sys2Proof.Machine

open Sys2Proof

theorem State.trace_frame (s : State) (group : Nat) (field : Nat) (source : Nat) (unit : Nat) (ctx : Nat) :
    Frame [.csr, .obs, .fresh] s (State.trace s group field source unit ctx) := by
  unfold State.trace
  try dsimp only
  repeat' (first
    | with_reducible apply Frame.refl
    | with_reducible assumption
    | with_reducible apply Frame.ite
    | with_reducible apply Frame.then_ ?_ (State.drawn_frame ..)
    | with_reducible apply Frame.then_ ?_ (State.inc_frame ..)
    | with_reducible apply Frame.then_ ?_ (State.wr_frame ..)
    | decide
    | dsimp only
    | split
    | (fail_if_no_progress simp only [Frame.mk_eq]; refine Frame.upd ?_))

theorem State.count_frame (s : State) (i : Nat) (n : Nat) :
    Frame [.csr] s (State.count s i n) := by
  unfold State.count
  try dsimp only
  repeat' (first
    | with_reducible apply Frame.refl
    | with_reducible assumption
    | with_reducible apply Frame.ite
    | with_reducible apply Frame.then_ ?_ (State.wrAt_frame ..)
    | decide
    | dsimp only
    | split)

theorem State.countStack_frame (s : State) (write : Bool) (lo : Nat) (hi : Nat) (st : Nat) :
    Frame [.csr] s (State.countStack s write lo hi st) := by
  unfold State.countStack
  try dsimp only
  repeat' (first
    | with_reducible apply Frame.refl
    | with_reducible assumption
    | with_reducible apply Frame.ite
    | with_reducible apply Frame.then_ ?_ (State.count_frame ..)
    | decide
    | with_reducible apply Frame.foldl_fst
    | with_reducible apply Frame.foldl
    | intro y a b c hy
    | intro y a hy
    | intro y hy
    | dsimp only
    | split)

theorem State.countBursts_frame (s : State) (write : Bool) (a : Nat) (n : Nat) :
    Frame [.csr] s (State.countBursts s write a n) := by
  unfold State.countBursts
  try dsimp only
  repeat' (first
    | with_reducible apply Frame.refl
    | with_reducible assumption
    | with_reducible apply Frame.ite
    | with_reducible apply Frame.then_ ?_ (State.count_frame ..)
    | with_reducible apply Frame.then_ ?_ (State.countStack_frame ..)
    | decide
    | with_reducible apply Frame.foldl_fst
    | with_reducible apply Frame.foldl
    | intro y a b c hy
    | intro y a hy
    | intro y hy
    | dsimp only
    | split)

theorem State.putMem_frame (s : State) (a : Nat) (l : List Byte) :
    Frame [.csr, .mem] s (State.putMem s a l) := by
  unfold State.putMem
  try dsimp only
  repeat' (first
    | with_reducible apply Frame.refl
    | with_reducible assumption
    | with_reducible apply Frame.ite
    | with_reducible apply Frame.then_ ?_ (State.countBursts_frame ..)
    | with_reducible apply Frame.then_ ?_ (State.setBytes_frame ..)
    | decide
    | dsimp only
    | split)

theorem State.writeRefused_frame (s : State) :
    Frame [.csr] s (State.writeRefused s) := by
  unfold State.writeRefused
  try dsimp only
  repeat' (first
    | with_reducible apply Frame.refl
    | with_reducible assumption
    | with_reducible apply Frame.ite
    | with_reducible apply Frame.then_ ?_ (State.inc_frame ..)
    | with_reducible apply Frame.then_ ?_ (State.wr_frame ..)
    | decide
    | dsimp only
    | split)

theorem State.refuseUnit_frame (s : State) (u : UnitJob) :
    Frame [.csr, .sent] s (State.refuseUnit s u) := by
  unfold State.refuseUnit
  try dsimp only
  repeat' (first
    | with_reducible apply Frame.refl
    | with_reducible assumption
    | with_reducible apply Frame.ite
    | with_reducible apply Frame.then_ ?_ (State.emit_frame ..)
    | with_reducible apply Frame.then_ ?_ (State.wr_frame ..)
    | with_reducible apply Frame.then_ ?_ (State.writeRefused_frame ..)
    | decide
    | dsimp only
    | split)

theorem State.queueUnits_frame (s : State) (l : List UnitJob) :
    Frame [.pwr] s (State.queueUnits s l) := by
  unfold State.queueUnits
  try dsimp only
  repeat' (first
    | with_reducible apply Frame.refl
    | with_reducible assumption
    | with_reducible apply Frame.ite
    | decide
    | dsimp only
    | split
    | (fail_if_no_progress simp only [Frame.mk_eq]; refine Frame.upd ?_))

theorem State.requestUnits_frame (s : State) (l : List UnitJob) :
    Frame [.csr, .pwr, .sent] s (State.requestUnits s l) := by
  unfold State.requestUnits
  try dsimp only
  repeat' (first
    | with_reducible apply Frame.refl
    | with_reducible assumption
    | with_reducible apply Frame.ite
    | with_reducible apply Frame.then_ ?_ (State.queueUnits_frame ..)
    | with_reducible apply Frame.then_ ?_ (State.refuseUnit_frame ..)
    | decide
    | with_reducible apply Frame.foldl_fst
    | with_reducible apply Frame.foldl
    | intro y a b c hy
    | intro y a hy
    | intro y hy
    | dsimp only
    | split)

theorem State.startSpill_frame (s : State) (final : Bool) :
    Frame [.csr, .pwr] s (State.startSpill s final) := by
  unfold State.startSpill
  try dsimp only
  repeat' (first
    | with_reducible apply Frame.refl
    | with_reducible assumption
    | with_reducible apply Frame.ite
    | with_reducible apply Frame.then_ ?_ (State.queueUnits_frame ..)
    | with_reducible apply Frame.then_ ?_ (State.wr_frame ..)
    | with_reducible apply Frame.then_ ?_ (State.writeRefused_frame ..)
    | decide
    | dsimp only
    | split)

theorem State.resumeSpill_frame (s : State) :
    Frame [.csr, .pwr] s (State.resumeSpill s) := by
  unfold State.resumeSpill
  try dsimp only
  repeat' (first
    | with_reducible apply Frame.refl
    | with_reducible assumption
    | with_reducible apply Frame.ite
    | with_reducible apply Frame.then_ ?_ (State.startSpill_frame ..)
    | decide
    | dsimp only
    | split)

theorem State.overwritten_frame (s : State) (e : RrcEntry) :
    Frame [.csr] s (State.overwritten s e) := by
  unfold State.overwritten
  try dsimp only
  repeat' (first
    | with_reducible apply Frame.refl
    | with_reducible assumption
    | with_reducible apply Frame.ite
    | with_reducible apply Frame.then_ ?_ (State.inc_frame ..)
    | decide
    | dsimp only
    | split)

theorem State.dropped_frame (s : State) (severity : Nat) :
    Frame [.csr] s (State.dropped s severity) := by
  unfold State.dropped
  try dsimp only
  repeat' (first
    | with_reducible apply Frame.refl
    | with_reducible assumption
    | with_reducible apply Frame.ite
    | with_reducible apply Frame.then_ ?_ (State.inc_frame ..)
    | decide
    | dsimp only
    | split)

theorem State.setEntry_frame (s : State) (i : Nat) (e : RrcEntry) :
    Frame [.rrc] s (State.setEntry s i e) := by
  unfold State.setEntry
  try dsimp only
  repeat' (first
    | with_reducible apply Frame.refl
    | with_reducible assumption
    | with_reducible apply Frame.ite
    | decide
    | dsimp only
    | split
    | (fail_if_no_progress simp only [Frame.mk_eq]; refine Frame.upd ?_))

theorem State.entryTaken_frame (s : State) :
    Frame [.csr, .pwr] s (State.entryTaken s) := by
  unfold State.entryTaken
  try dsimp only
  repeat' (first
    | with_reducible apply Frame.refl
    | with_reducible assumption
    | with_reducible apply Frame.ite
    | with_reducible apply Frame.then_ ?_ (State.startSpill_frame ..)
    | with_reducible apply Frame.then_ ?_ (State.wr_frame ..)
    | decide
    | dsimp only
    | split)

theorem State.occurIn_frame (s : State) (field : Nat) (source : Nat) (code : Nat) (unit : Nat) (ctx : Nat) (severity
      : Nat) (value : Nat) :
    Frame [.csr, .pwr, .rrc, .obs, .fresh] s (State.occurIn s field source code unit ctx severity value) := by
  unfold State.occurIn
  try dsimp only
  repeat' (first
    | with_reducible apply Frame.refl
    | with_reducible assumption
    | with_reducible apply Frame.ite
    | with_reducible apply Frame.then_ ?_ (State.drawn_frame ..)
    | with_reducible apply Frame.then_ ?_ (State.dropped_frame ..)
    | with_reducible apply Frame.then_ ?_ (State.entryTaken_frame ..)
    | with_reducible apply Frame.then_ ?_ (State.overwritten_frame ..)
    | with_reducible apply Frame.then_ ?_ (State.setEntry_frame ..)
    | with_reducible apply Frame.then_ ?_ (State.trace_frame ..)
    | decide
    | dsimp only
    | split)

theorem State.occur_frame (s : State) (source : Nat) (code : Nat) (unit : Nat) (ctx : Nat) (severity : Nat) (value :
      Nat) :
    Frame [.csr, .pwr, .rrc, .obs, .fresh] s (State.occur s source code unit ctx severity value) := by
  unfold State.occur
  try dsimp only
  repeat' (first
    | with_reducible apply Frame.refl
    | with_reducible assumption
    | with_reducible apply Frame.ite
    | with_reducible apply Frame.then_ ?_ (State.occurIn_frame ..)
    | decide
    | dsimp only
    | split)

theorem State.notice_frame (s : State) (source : Nat) (code : Nat) (unit : Nat) (ctx : Nat) (value : Nat) :
    Frame [.csr, .pwr, .rrc, .obs, .fresh] s (State.notice s source code unit ctx value) := by
  unfold State.notice
  try dsimp only
  repeat' (first
    | with_reducible apply Frame.refl
    | with_reducible assumption
    | with_reducible apply Frame.ite
    | with_reducible apply Frame.then_ ?_ (State.occur_frame ..)
    | decide
    | dsimp only
    | split)

theorem State.startExit_frame (s : State) (stage : Nat) :
    Frame [.csr, .pwr, .rrc, .obs, .fresh] s (State.startExit s stage) := by
  unfold State.startExit
  try dsimp only
  repeat' (first
    | with_reducible apply Frame.refl
    | with_reducible assumption
    | with_reducible apply Frame.ite
    | with_reducible apply Frame.then_ ?_ (State.notice_frame ..)
    | decide
    | dsimp only
    | split)

theorem State.fault_frame (s : State) (source : Nat) (code : Nat) (unit : Nat) (ctx : Nat) (value : Nat) :
    Frame [.csr, .pwr, .rrc, .obs, .fresh] s (State.fault s source code unit ctx value) := by
  unfold State.fault
  try dsimp only
  repeat' (first
    | with_reducible apply Frame.refl
    | with_reducible assumption
    | with_reducible apply Frame.ite
    | with_reducible apply Frame.then_ ?_ (State.occur_frame ..)
    | decide
    | dsimp only
    | split)

theorem State.critical_frame (s : State) (source : Nat) (code : Nat) (unit : Nat) (ctx : Nat) (value : Nat) :
    Frame [.csr, .pwr, .rrc, .obs, .fresh] s (State.critical s source code unit ctx value) := by
  unfold State.critical
  try dsimp only
  repeat' (first
    | with_reducible apply Frame.refl
    | with_reducible assumption
    | with_reducible apply Frame.ite
    | with_reducible apply Frame.then_ ?_ (State.occur_frame ..)
    | decide
    | dsimp only
    | split)

end Sys2Proof.Machine
end

