-- ==== Sys2Proof/Laws/FrameAccess.lean ====
section
/-! SUPPORT. One frame lemma for every operation of Machine/Access.lean: the parts of the state that it may change. -/

set_option Elab.async false
set_option linter.unusedTactic false
set_option linter.unreachableTactic false

namespace Sys2Proof.Machine

open Sys2Proof

theorem State.ignoreWrite_frame (s : State) (off : Nat) :
    Frame [.csr, .pwr, .rrc, .obs, .fresh] s (State.ignoreWrite s off) := by
  unfold State.ignoreWrite
  try dsimp only
  repeat' (first
    | with_reducible apply Frame.refl
    | with_reducible assumption
    | with_reducible apply Frame.ite
    | with_reducible apply Frame.then_ ?_ (State.inc_frame ..)
    | with_reducible apply Frame.then_ ?_ (State.notice_frame ..)
    | with_reducible apply Frame.then_ ?_ (State.wr_frame ..)
    | decide
    | dsimp only
    | split)

theorem State.badCsr_frame (s : State) :
    Frame [.csr] s (State.badCsr s) := by
  unfold State.badCsr
  try dsimp only
  repeat' (first
    | with_reducible apply Frame.refl
    | with_reducible assumption
    | with_reducible apply Frame.ite
    | with_reducible apply Frame.then_ ?_ (State.inc_frame ..)
    | with_reducible apply Frame.then_ ?_ (State.wr_frame ..)
    | decide
    | dsimp only
    | split)

theorem State.setRole_frame (s : State) (role : Nat) :
    Frame [.csr] s (State.setRole s role) := by
  unfold State.setRole
  try dsimp only
  repeat' (first
    | with_reducible apply Frame.refl
    | with_reducible assumption
    | with_reducible apply Frame.ite
    | with_reducible apply Frame.then_ ?_ (State.showPtpLocked_frame ..)
    | with_reducible apply Frame.then_ ?_ (State.wr_frame ..)
    | decide
    | dsimp only
    | split)

end Sys2Proof.Machine
end

