-- ==== Sys2Proof/Laws/FrameFaults.lean ====
section
/-! SUPPORT. One frame lemma for every operation of Machine/Faults.lean: the parts of the state that it may change. -/

set_option Elab.async false
set_option linter.unusedTactic false
set_option linter.unreachableTactic false

namespace Sys2Proof.Machine

open Sys2Proof

theorem State.overflowed_frame (s : State) (k : Nat) :
    Frame [.csr] s (State.overflowed s k) := by
  unfold State.overflowed
  try dsimp only
  repeat' (first
    | with_reducible apply Frame.refl
    | with_reducible assumption
    | with_reducible apply Frame.ite
    | with_reducible apply Frame.then_ ?_ (State.inc_frame ..)
    | decide
    | dsimp only
    | split)

theorem State.fltStatus_frame (s : State) :
    Frame [.csr] s (State.fltStatus s) := by
  unfold State.fltStatus
  try dsimp only
  repeat' (first
    | with_reducible apply Frame.refl
    | with_reducible assumption
    | with_reducible apply Frame.ite
    | with_reducible apply Frame.then_ ?_ (State.wr_frame ..)
    | decide
    | dsimp only
    | split)

theorem State.setFlt_frame (s : State) (p : Option ErrRec) (q : List ErrRec) :
    Frame [.csr, .flt] s (State.setFlt s p q) := by
  unfold State.setFlt
  try dsimp only
  repeat' (first
    | with_reducible apply Frame.refl
    | with_reducible assumption
    | with_reducible apply Frame.ite
    | with_reducible apply Frame.then_ ?_ (State.fltStatus_frame ..)
    | decide
    | dsimp only
    | split
    | (fail_if_no_progress simp only [Frame.mk_eq]; refine Frame.upd ?_))

theorem State.placeRecord_frame (s : State) (r : ErrRec) :
    Frame [.csr, .flt] s (State.placeRecord s r) := by
  unfold State.placeRecord
  try dsimp only
  repeat' (first
    | with_reducible apply Frame.refl
    | with_reducible assumption
    | with_reducible apply Frame.ite
    | with_reducible apply Frame.then_ ?_ (State.overflowed_frame ..)
    | with_reducible apply Frame.then_ ?_ (State.setFlt_frame ..)
    | decide
    | dsimp only
    | split)

theorem State.placeOrMerge_frame (s : State) (r : ErrRec) :
    Frame [.csr, .flt] s (State.placeOrMerge s r) := by
  unfold State.placeOrMerge
  try dsimp only
  repeat' (first
    | with_reducible apply Frame.refl
    | with_reducible assumption
    | with_reducible apply Frame.ite
    | with_reducible apply Frame.then_ ?_ (State.inc_frame ..)
    | with_reducible apply Frame.then_ ?_ (State.placeRecord_frame ..)
    | decide
    | dsimp only
    | split
    | (fail_if_no_progress simp only [Frame.mk_eq]; refine Frame.upd ?_))

theorem State.toBase_frame (s : State) (t : TickErrs) :
    Frame [.csr, .flt] s (State.toBase s t) := by
  unfold State.toBase
  try dsimp only
  repeat' (first
    | with_reducible apply Frame.refl
    | with_reducible assumption
    | with_reducible apply Frame.ite
    | with_reducible apply Frame.then_ ?_ (State.fltStatus_frame ..)
    | with_reducible apply Frame.then_ ?_ (State.wr_frame ..)
    | decide
    | dsimp only
    | split
    | (fail_if_no_progress simp only [Frame.mk_eq]; refine Frame.upd ?_))

theorem State.placeTick_frame (s : State) (t : TickErrs) :
    Frame [.csr, .flt] s (State.placeTick s t) := by
  unfold State.placeTick
  try dsimp only
  repeat' (first
    | with_reducible apply Frame.refl
    | with_reducible assumption
    | with_reducible apply Frame.ite
    | with_reducible apply Frame.then_ ?_ (State.placeOrMerge_frame ..)
    | with_reducible apply Frame.then_ ?_ (State.toBase_frame ..)
    | decide
    | with_reducible apply Frame.foldl_fst
    | with_reducible apply Frame.foldl
    | intro y a b c hy
    | intro y a hy
    | intro y hy
    | dsimp only
    | split
    | (fail_if_no_progress simp only [Frame.mk_eq]; refine Frame.upd ?_))

theorem State.queueRecord_frame (s : State) (r : ErrRec) :
    Frame [.csr, .flt] s (State.queueRecord s r) := by
  unfold State.queueRecord
  try dsimp only
  repeat' (first
    | with_reducible apply Frame.refl
    | with_reducible assumption
    | with_reducible apply Frame.ite
    | with_reducible apply Frame.then_ ?_ (State.placeOrMerge_frame ..)
    | with_reducible apply Frame.then_ ?_ (State.placeTick_frame ..)
    | decide
    | dsimp only
    | split
    | (fail_if_no_progress simp only [Frame.mk_eq]; refine Frame.upd ?_))

theorem State.countError_frame (s : State) (c : ErrClass) :
    Frame [.csr] s (State.countError s c) := by
  unfold State.countError
  try dsimp only
  repeat' (first
    | with_reducible apply Frame.refl
    | with_reducible assumption
    | with_reducible apply Frame.ite
    | with_reducible apply Frame.then_ ?_ (State.inc_frame ..)
    | decide
    | dsimp only
    | split)

theorem State.raiseErr_frame (s : State) (e : Err) :
    Frame [.csr, .pwr, .flt, .rrc, .obs, .fresh] s (State.raiseErr s e) := by
  unfold State.raiseErr
  try dsimp only
  repeat' (first
    | with_reducible apply Frame.refl
    | with_reducible assumption
    | with_reducible apply Frame.ite
    | with_reducible apply Frame.then_ ?_ (State.countError_frame ..)
    | with_reducible apply Frame.then_ ?_ (State.occurIn_frame ..)
    | with_reducible apply Frame.then_ ?_ (State.queueRecord_frame ..)
    | decide
    | dsimp only
    | split)

theorem State.contained_frame (s : State) (source : Nat) (code : Nat) (field : Nat) (ctx : Nat) (unit : Nat) (info :
      Nat) :
    Frame [.csr, .pwr, .flt, .rrc, .obs, .fresh] s (State.contained s source code field ctx unit info) := by
  unfold State.contained
  try dsimp only
  repeat' (first
    | with_reducible apply Frame.refl
    | with_reducible assumption
    | with_reducible apply Frame.ite
    | with_reducible apply Frame.then_ ?_ (State.raiseErr_frame ..)
    | decide
    | dsimp only
    | split)

theorem State.corrected_frame (s : State) (source : Nat) (code : Nat) (field : Nat) (ctx : Nat) (unit : Nat) (info :
      Nat) :
    Frame [.csr, .pwr, .flt, .rrc, .obs, .fresh] s (State.corrected s source code field ctx unit info) := by
  unfold State.corrected
  try dsimp only
  repeat' (first
    | with_reducible apply Frame.refl
    | with_reducible assumption
    | with_reducible apply Frame.ite
    | with_reducible apply Frame.then_ ?_ (State.raiseErr_frame ..)
    | decide
    | dsimp only
    | split)

theorem State.promote_frame (s : State) :
    Frame [.csr, .flt] s (State.promote s) := by
  unfold State.promote
  try dsimp only
  repeat' (first
    | with_reducible apply Frame.refl
    | with_reducible assumption
    | with_reducible apply Frame.ite
    | with_reducible apply Frame.then_ ?_ (State.setFlt_frame ..)
    | decide
    | dsimp only
    | split)

end Sys2Proof.Machine
end

