-- ==== Sys2Proof/Laws/FrameLink.lean ====
section
/-! SUPPORT. One frame lemma for every operation of Machine/Link.lean: the parts of the state that it may change. -/

set_option Elab.async false
set_option linter.unusedTactic false
set_option linter.unreachableTactic false

namespace Sys2Proof.Machine

open Sys2Proof

theorem State.setPort_frame (s : State) (p : Nat) (h : HaulPort) :
    Frame [.haul] s (State.setPort s p h) := by
  unfold State.setPort
  try dsimp only
  repeat' (first
    | with_reducible apply Frame.refl
    | with_reducible assumption
    | with_reducible apply Frame.ite
    | decide
    | dsimp only
    | split
    | (fail_if_no_progress simp only [Frame.mk_eq]; refine Frame.upd ?_))

theorem State.onTimers_frame (s : State) (p : Nat) (f : PortTimers → PortTimers) :
    Frame [.haul] s (State.onTimers s p f) := by
  unfold State.onTimers
  try dsimp only
  repeat' (first
    | with_reducible apply Frame.refl
    | with_reducible assumption
    | with_reducible apply Frame.ite
    | with_reducible apply Frame.then_ ?_ (State.setPort_frame ..)
    | decide
    | dsimp only
    | split)

theorem State.putBlock_frame (s : State) (p : Nat) (b : LinkBlock) :
    Frame [.sent] s (State.putBlock s p b) := by
  unfold State.putBlock
  try dsimp only
  repeat' (first
    | with_reducible apply Frame.refl
    | with_reducible assumption
    | with_reducible apply Frame.ite
    | with_reducible apply Frame.then_ ?_ (State.emit_frame ..)
    | decide
    | dsimp only
    | split)

theorem State.showMarks_frame (s : State) (p : Nat) :
    Frame [.sent] s (State.showMarks s p) := by
  unfold State.showMarks
  try dsimp only
  repeat' (first
    | with_reducible apply Frame.refl
    | with_reducible assumption
    | with_reducible apply Frame.ite
    | with_reducible apply Frame.then_ ?_ (State.emit_frame ..)
    | decide
    | dsimp only
    | split)

theorem State.setTrain_frame (s : State) (p : Nat) (n : Nat) :
    Frame [.csr, .haul, .obs, .sent, .fresh] s (State.setTrain s p n) := by
  unfold State.setTrain
  try dsimp only
  repeat' (first
    | with_reducible apply Frame.refl
    | with_reducible assumption
    | with_reducible apply Frame.ite
    | with_reducible apply Frame.then_ ?_ (State.onTimers_frame ..)
    | with_reducible apply Frame.then_ ?_ (State.showMarks_frame ..)
    | with_reducible apply Frame.then_ ?_ (State.trace_frame ..)
    | with_reducible apply Frame.then_ ?_ (State.wrAt_frame ..)
    | decide
    | dsimp only
    | split)

theorem State.sendPlain_frame (s : State) (p : Nat) (type : Nat) (data : List Byte) :
    Frame [.haul, .sent] s (State.sendPlain s p type data) := by
  unfold State.sendPlain
  try dsimp only
  repeat' (first
    | with_reducible apply Frame.refl
    | with_reducible assumption
    | with_reducible apply Frame.ite
    | with_reducible apply Frame.then_ ?_ (State.onTimers_frame ..)
    | with_reducible apply Frame.then_ ?_ (State.putBlock_frame ..)
    | decide
    | dsimp only
    | split)

theorem State.sendSeq_frame (s : State) (p : Nat) (type : Nat) (data : List Byte) :
    Frame [.csr, .haul, .sent] s (State.sendSeq s p type data) := by
  unfold State.sendSeq
  extract_lets v0 v1 v2 v3 v4 v5 v6
  clear_value v0
  clear_value v1
  clear_value v2
  clear_value v3
  clear_value v4
  have h_v5 : Frame [.csr, .haul, .sent] s v5 := by
    simp only [v5]
    repeat' (first
      | with_reducible apply Frame.refl
      | with_reducible assumption
      | with_reducible apply Frame.ite
      | with_reducible apply Frame.then_ ?_ (State.count_frame ..)
      | with_reducible apply Frame.then_ ?_ (State.putBlock_frame ..)
      | with_reducible apply Frame.then_ ?_ (State.setPort_frame ..)
      | with_reducible apply Frame.then_ ?_ (State.wrAt_frame ..)
      | decide
      | dsimp only
      | split)
  clear_value v5
  have h_v6 : Frame [.csr, .haul, .sent] s v6 := by
    simp only [v6]
    repeat' (first
      | with_reducible apply Frame.refl
      | with_reducible assumption
      | with_reducible apply Frame.ite
      | with_reducible apply Frame.then_ ?_ (State.count_frame ..)
      | with_reducible apply Frame.then_ ?_ (State.putBlock_frame ..)
      | with_reducible apply Frame.then_ ?_ (State.setPort_frame ..)
      | with_reducible apply Frame.then_ ?_ (State.wrAt_frame ..)
      | decide
      | dsimp only
      | split)
  clear_value v6
  repeat' (first
    | with_reducible apply Frame.refl
    | with_reducible assumption
    | with_reducible apply Frame.ite
    | with_reducible apply Frame.then_ ?_ (State.count_frame ..)
    | with_reducible apply Frame.then_ ?_ (State.putBlock_frame ..)
    | with_reducible apply Frame.then_ ?_ (State.setPort_frame ..)
    | with_reducible apply Frame.then_ ?_ (State.wrAt_frame ..)
    | decide
    | dsimp only
    | split)

theorem State.sendSched_frame (s : State) (p : Nat) (a : List (List Byte)) :
    Frame [.csr, .haul, .sent] s (State.sendSched s p a) := by
  induction a generalizing s p with
  | nil =>
    first
      | exact Frame.refl _ _
      | (rw [State.sendSched]
         repeat' (first
           | with_reducible apply Frame.refl
           | with_reducible assumption
           | with_reducible apply Frame.ite
           | with_reducible apply Frame.then_ ?_ (State.sendSeq_frame ..)
           | with_reducible apply Frame.then_ ?_ (State.setPort_frame ..)
           | decide
           | dsimp only
           | split))
  | cons b l ih =>
    rw [State.sendSched]
    try dsimp only
    repeat' (first
      | with_reducible apply Frame.refl
      | with_reducible assumption
      | with_reducible apply Frame.ite
      | with_reducible apply Frame.then_ ?_ (ih ..)
      | with_reducible apply Frame.then_ ?_ (State.sendSeq_frame ..)
      | with_reducible apply Frame.then_ ?_ (State.setPort_frame ..)
      | decide
      | dsimp only
      | split)

theorem State.freeBuffers_frame (s : State) (p : Nat) (vc : Nat) (n : Nat) :
    Frame [.haul] s (State.freeBuffers s p vc n) := by
  unfold State.freeBuffers
  try dsimp only
  repeat' (first
    | with_reducible apply Frame.refl
    | with_reducible assumption
    | with_reducible apply Frame.ite
    | with_reducible apply Frame.then_ ?_ (State.setPort_frame ..)
    | decide
    | dsimp only
    | split)

theorem State.sendPktBlock_frame (s : State) (w : WaitingPkt) :
    Frame [.csr, .haul, .sch, .sent] s (State.sendPktBlock s w) := by
  unfold State.sendPktBlock
  try dsimp only
  repeat' (first
    | with_reducible apply Frame.refl
    | with_reducible assumption
    | with_reducible apply Frame.ite
    | with_reducible apply Frame.then_ ?_ (State.freeBuffers_frame ..)
    | with_reducible apply Frame.then_ ?_ (State.sendSeq_frame ..)
    | with_reducible apply Frame.then_ ?_ (State.setPort_frame ..)
    | with_reducible apply Frame.then_ ?_ (State.wrAt_frame ..)
    | decide
    | dsimp only
    | split
    | (fail_if_no_progress simp only [Frame.mk_eq]; refine Frame.upd ?_))

theorem State.pump_frame (a : Nat) (a1 : Nat) (a2 : State) :
    Frame [.csr, .haul, .sch, .sent] a2 (State.pump a a1 a2) := by
  induction a generalizing a1 a2 with
  | zero =>
    first
      | exact Frame.refl _ _
      | (rw [State.pump]
         repeat' (first
           | with_reducible apply Frame.refl
           | with_reducible assumption
           | with_reducible apply Frame.ite
           | with_reducible apply Frame.then_ ?_ (State.sendPktBlock_frame ..)
           | decide
           | dsimp only
           | split))
  | succ m ih =>
    rw [State.pump]
    try dsimp only
    repeat' (first
      | with_reducible apply Frame.refl
      | with_reducible assumption
      | with_reducible apply Frame.ite
      | with_reducible apply Frame.then_ ?_ (ih ..)
      | with_reducible apply Frame.then_ ?_ (State.sendPktBlock_frame ..)
      | decide
      | dsimp only
      | split)

theorem State.flush_frame (s : State) (p : Nat) :
    Frame [.csr, .haul, .sch, .sent] s (State.flush s p) := by
  unfold State.flush
  try dsimp only
  repeat' (first
    | with_reducible apply Frame.refl
    | with_reducible assumption
    | with_reducible apply Frame.ite
    | with_reducible apply Frame.then_ ?_ (State.pump_frame ..)
    | with_reducible apply Frame.then_ ?_ (State.sendSched_frame ..)
    | decide
    | dsimp only
    | split)

theorem State.startReplay_frame (s : State) (p : Nat) :
    Frame [.csr, .haul, .sent] s (State.startReplay s p) := by
  unfold State.startReplay
  extract_lets v0 v1 v2 v3 v4
  clear_value v0
  clear_value v1
  clear_value v2
  have h_v3 : Frame [.csr, .haul, .sent] s v3 := by
    simp only [v3]
    repeat' (first
      | with_reducible apply Frame.refl
      | with_reducible assumption
      | with_reducible apply Frame.ite
      | with_reducible apply Frame.then_ ?_ (State.addAt_frame ..)
      | with_reducible apply Frame.then_ ?_ (State.count_frame ..)
      | with_reducible apply Frame.then_ ?_ (State.putBlock_frame ..)
      | with_reducible apply Frame.then_ ?_ (State.setPort_frame ..)
      | decide
      | with_reducible apply Frame.foldl_fst
      | with_reducible apply Frame.foldl
      | intro y a b c hy
      | intro y a hy
      | intro y hy
      | dsimp only
      | split)
  clear_value v3
  have h_v4 : Frame [.csr, .haul, .sent] s v4 := by
    simp only [v4]
    repeat' (first
      | with_reducible apply Frame.refl
      | with_reducible assumption
      | with_reducible apply Frame.ite
      | with_reducible apply Frame.then_ ?_ (State.addAt_frame ..)
      | with_reducible apply Frame.then_ ?_ (State.count_frame ..)
      | with_reducible apply Frame.then_ ?_ (State.putBlock_frame ..)
      | with_reducible apply Frame.then_ ?_ (State.setPort_frame ..)
      | decide
      | with_reducible apply Frame.foldl_fst
      | with_reducible apply Frame.foldl
      | intro y a b c hy
      | intro y a hy
      | intro y hy
      | dsimp only
      | split)
  clear_value v4
  repeat' (first
    | with_reducible apply Frame.refl
    | with_reducible assumption
    | with_reducible apply Frame.ite
    | with_reducible apply Frame.then_ ?_ (State.addAt_frame ..)
    | with_reducible apply Frame.then_ ?_ (State.count_frame ..)
    | with_reducible apply Frame.then_ ?_ (State.putBlock_frame ..)
    | with_reducible apply Frame.then_ ?_ (State.setPort_frame ..)
    | decide
    | with_reducible apply Frame.foldl_fst
    | with_reducible apply Frame.foldl
    | intro y a b c hy
    | intro y a hy
    | intro y hy
    | dsimp only
    | split)

theorem State.applyAck_frame (s : State) (p : Nat) (a : Nat) :
    Frame [.csr, .haul] s (State.applyAck s p a) := by
  unfold State.applyAck
  extract_lets v0 v1 v2 v3 v4 v5
  clear_value v0
  clear_value v1
  clear_value v2
  clear_value v3
  have h_v4 : Frame [.csr, .haul] s v4 := by
    simp only [v4]
    repeat' (first
      | with_reducible apply Frame.refl
      | with_reducible assumption
      | with_reducible apply Frame.ite
      | with_reducible apply Frame.then_ ?_ (State.setPort_frame ..)
      | with_reducible apply Frame.then_ ?_ (State.wrAt_frame ..)
      | decide
      | dsimp only
      | split)
  clear_value v4
  have h_v5 : Frame [.csr, .haul] s v5 := by
    simp only [v5]
    repeat' (first
      | with_reducible apply Frame.refl
      | with_reducible assumption
      | with_reducible apply Frame.ite
      | with_reducible apply Frame.then_ ?_ (State.setPort_frame ..)
      | with_reducible apply Frame.then_ ?_ (State.wrAt_frame ..)
      | decide
      | dsimp only
      | split)
  clear_value v5
  repeat' (first
    | with_reducible apply Frame.refl
    | with_reducible assumption
    | with_reducible apply Frame.ite
    | with_reducible apply Frame.then_ ?_ (State.setPort_frame ..)
    | with_reducible apply Frame.then_ ?_ (State.wrAt_frame ..)
    | decide
    | dsimp only
    | split)

theorem State.applyFreed_frame (s : State) (p : Nat) (f0 : Nat) (f1 : Nat) :
    Frame [.csr, .haul] s (State.applyFreed s p f0 f1) := by
  unfold State.applyFreed
  try dsimp only
  repeat' (first
    | with_reducible apply Frame.refl
    | with_reducible assumption
    | with_reducible apply Frame.ite
    | with_reducible apply Frame.then_ ?_ (State.setPort_frame ..)
    | with_reducible apply Frame.then_ ?_ (State.wrAt_frame ..)
    | decide
    | dsimp only
    | split)

theorem State.raiseNak_frame (s : State) (p : Nat) :
    Frame [.haul, .sent] s (State.raiseNak s p) := by
  unfold State.raiseNak
  try dsimp only
  repeat' (first
    | with_reducible apply Frame.refl
    | with_reducible assumption
    | with_reducible apply Frame.ite
    | with_reducible apply Frame.then_ ?_ (State.sendPlain_frame ..)
    | with_reducible apply Frame.then_ ?_ (State.setPort_frame ..)
    | decide
    | dsimp only
    | split)

theorem State.cutOff_frame (s : State) (p : Nat) (w : WaitingPkt) :
    Frame [.haul] s (State.cutOff s p w) := by
  unfold State.cutOff
  try dsimp only
  repeat' (first
    | with_reducible apply Frame.refl
    | with_reducible assumption
    | with_reducible apply Frame.ite
    | with_reducible apply Frame.then_ ?_ (State.freeBuffers_frame ..)
    | with_reducible apply Frame.then_ ?_ (State.setPort_frame ..)
    | decide
    | dsimp only
    | split)

theorem State.portDown_frame (s : State) (p : Nat) (cause : Nat) :
    Frame [.csr, .haul, .sch, .obs, .sent, .fresh] s (State.portDown s p cause) := by
  unfold State.portDown
  extract_lets v0 v1 v2 v3 v4 v5 v6 v7 v8 v9 v10
  clear_value v0
  have h_v1 : Frame [.csr, .haul, .sch, .obs, .sent, .fresh] s v1 := by
    simp only [v1]
    repeat' (first
      | with_reducible apply Frame.refl
      | with_reducible assumption
      | with_reducible apply Frame.ite
      | with_reducible apply Frame.then_ ?_ (State.addAt_frame ..)
      | with_reducible apply Frame.then_ ?_ (State.cutOff_frame ..)
      | with_reducible apply Frame.then_ ?_ (State.incAt_frame ..)
      | with_reducible apply Frame.then_ ?_ (State.setPort_frame ..)
      | with_reducible apply Frame.then_ ?_ (State.setTrain_frame ..)
      | with_reducible apply Frame.then_ ?_ (State.wrAt_frame ..)
      | decide
      | with_reducible apply Frame.foldl_fst
      | with_reducible apply Frame.foldl
      | intro y a b c hy
      | intro y a hy
      | intro y hy
      | dsimp only
      | split
      | (fail_if_no_progress simp only [Frame.mk_eq]; refine Frame.upd ?_))
  clear_value v1
  have h_v2 : Frame [.csr, .haul, .sch, .obs, .sent, .fresh] s v2 := by
    simp only [v2]
    repeat' (first
      | with_reducible apply Frame.refl
      | with_reducible assumption
      | with_reducible apply Frame.ite
      | with_reducible apply Frame.then_ ?_ (State.addAt_frame ..)
      | with_reducible apply Frame.then_ ?_ (State.cutOff_frame ..)
      | with_reducible apply Frame.then_ ?_ (State.incAt_frame ..)
      | with_reducible apply Frame.then_ ?_ (State.setPort_frame ..)
      | with_reducible apply Frame.then_ ?_ (State.setTrain_frame ..)
      | with_reducible apply Frame.then_ ?_ (State.wrAt_frame ..)
      | decide
      | with_reducible apply Frame.foldl_fst
      | with_reducible apply Frame.foldl
      | intro y a b c hy
      | intro y a hy
      | intro y hy
      | dsimp only
      | split
      | (fail_if_no_progress simp only [Frame.mk_eq]; refine Frame.upd ?_))
  clear_value v2
  clear_value v3
  have h_v4 : Frame [.csr, .haul, .sch, .obs, .sent, .fresh] s v4 := by
    simp only [v4]
    repeat' (first
      | with_reducible apply Frame.refl
      | with_reducible assumption
      | with_reducible apply Frame.ite
      | with_reducible apply Frame.then_ ?_ (State.addAt_frame ..)
      | with_reducible apply Frame.then_ ?_ (State.cutOff_frame ..)
      | with_reducible apply Frame.then_ ?_ (State.incAt_frame ..)
      | with_reducible apply Frame.then_ ?_ (State.setPort_frame ..)
      | with_reducible apply Frame.then_ ?_ (State.setTrain_frame ..)
      | with_reducible apply Frame.then_ ?_ (State.wrAt_frame ..)
      | decide
      | with_reducible apply Frame.foldl_fst
      | with_reducible apply Frame.foldl
      | intro y a b c hy
      | intro y a hy
      | intro y hy
      | dsimp only
      | split
      | (fail_if_no_progress simp only [Frame.mk_eq]; refine Frame.upd ?_))
  clear_value v4
  have h_v5 : Frame [.csr, .haul, .sch, .obs, .sent, .fresh] s v5 := by
    simp only [v5]
    repeat' (first
      | with_reducible apply Frame.refl
      | with_reducible assumption
      | with_reducible apply Frame.ite
      | with_reducible apply Frame.then_ ?_ (State.addAt_frame ..)
      | with_reducible apply Frame.then_ ?_ (State.cutOff_frame ..)
      | with_reducible apply Frame.then_ ?_ (State.incAt_frame ..)
      | with_reducible apply Frame.then_ ?_ (State.setPort_frame ..)
      | with_reducible apply Frame.then_ ?_ (State.setTrain_frame ..)
      | with_reducible apply Frame.then_ ?_ (State.wrAt_frame ..)
      | decide
      | with_reducible apply Frame.foldl_fst
      | with_reducible apply Frame.foldl
      | intro y a b c hy
      | intro y a hy
      | intro y hy
      | dsimp only
      | split
      | (fail_if_no_progress simp only [Frame.mk_eq]; refine Frame.upd ?_))
  clear_value v5
  clear_value v6
  have h_v7 : Frame [.csr, .haul, .sch, .obs, .sent, .fresh] s v7 := by
    simp only [v7]
    repeat' (first
      | with_reducible apply Frame.refl
      | with_reducible assumption
      | with_reducible apply Frame.ite
      | with_reducible apply Frame.then_ ?_ (State.addAt_frame ..)
      | with_reducible apply Frame.then_ ?_ (State.cutOff_frame ..)
      | with_reducible apply Frame.then_ ?_ (State.incAt_frame ..)
      | with_reducible apply Frame.then_ ?_ (State.setPort_frame ..)
      | with_reducible apply Frame.then_ ?_ (State.setTrain_frame ..)
      | with_reducible apply Frame.then_ ?_ (State.wrAt_frame ..)
      | decide
      | with_reducible apply Frame.foldl_fst
      | with_reducible apply Frame.foldl
      | intro y a b c hy
      | intro y a hy
      | intro y hy
      | dsimp only
      | split
      | (fail_if_no_progress simp only [Frame.mk_eq]; refine Frame.upd ?_))
  clear_value v7
  have h_v8 : Frame [.csr, .haul, .sch, .obs, .sent, .fresh] s v8 := by
    simp only [v8]
    repeat' (first
      | with_reducible apply Frame.refl
      | with_reducible assumption
      | with_reducible apply Frame.ite
      | with_reducible apply Frame.then_ ?_ (State.addAt_frame ..)
      | with_reducible apply Frame.then_ ?_ (State.cutOff_frame ..)
      | with_reducible apply Frame.then_ ?_ (State.incAt_frame ..)
      | with_reducible apply Frame.then_ ?_ (State.setPort_frame ..)
      | with_reducible apply Frame.then_ ?_ (State.setTrain_frame ..)
      | with_reducible apply Frame.then_ ?_ (State.wrAt_frame ..)
      | decide
      | with_reducible apply Frame.foldl_fst
      | with_reducible apply Frame.foldl
      | intro y a b c hy
      | intro y a hy
      | intro y hy
      | dsimp only
      | split
      | (fail_if_no_progress simp only [Frame.mk_eq]; refine Frame.upd ?_))
  clear_value v8
  have h_v9 : Frame [.csr, .haul, .sch, .obs, .sent, .fresh] s v9 := by
    simp only [v9]
    repeat' (first
      | with_reducible apply Frame.refl
      | with_reducible assumption
      | with_reducible apply Frame.ite
      | with_reducible apply Frame.then_ ?_ (State.addAt_frame ..)
      | with_reducible apply Frame.then_ ?_ (State.cutOff_frame ..)
      | with_reducible apply Frame.then_ ?_ (State.incAt_frame ..)
      | with_reducible apply Frame.then_ ?_ (State.setPort_frame ..)
      | with_reducible apply Frame.then_ ?_ (State.setTrain_frame ..)
      | with_reducible apply Frame.then_ ?_ (State.wrAt_frame ..)
      | decide
      | with_reducible apply Frame.foldl_fst
      | with_reducible apply Frame.foldl
      | intro y a b c hy
      | intro y a hy
      | intro y hy
      | dsimp only
      | split
      | (fail_if_no_progress simp only [Frame.mk_eq]; refine Frame.upd ?_))
  clear_value v9
  have h_v10 : Frame [.csr, .haul, .sch, .obs, .sent, .fresh] s v10 := by
    simp only [v10]
    repeat' (first
      | with_reducible apply Frame.refl
      | with_reducible assumption
      | with_reducible apply Frame.ite
      | with_reducible apply Frame.then_ ?_ (State.addAt_frame ..)
      | with_reducible apply Frame.then_ ?_ (State.cutOff_frame ..)
      | with_reducible apply Frame.then_ ?_ (State.incAt_frame ..)
      | with_reducible apply Frame.then_ ?_ (State.setPort_frame ..)
      | with_reducible apply Frame.then_ ?_ (State.setTrain_frame ..)
      | with_reducible apply Frame.then_ ?_ (State.wrAt_frame ..)
      | decide
      | with_reducible apply Frame.foldl_fst
      | with_reducible apply Frame.foldl
      | intro y a b c hy
      | intro y a hy
      | intro y hy
      | dsimp only
      | split
      | (fail_if_no_progress simp only [Frame.mk_eq]; refine Frame.upd ?_))
  clear_value v10
  repeat' (first
    | with_reducible apply Frame.refl
    | with_reducible assumption
    | with_reducible apply Frame.ite
    | with_reducible apply Frame.then_ ?_ (State.addAt_frame ..)
    | with_reducible apply Frame.then_ ?_ (State.cutOff_frame ..)
    | with_reducible apply Frame.then_ ?_ (State.incAt_frame ..)
    | with_reducible apply Frame.then_ ?_ (State.setPort_frame ..)
    | with_reducible apply Frame.then_ ?_ (State.setTrain_frame ..)
    | with_reducible apply Frame.then_ ?_ (State.wrAt_frame ..)
    | decide
    | with_reducible apply Frame.foldl_fst
    | with_reducible apply Frame.foldl
    | intro y a b c hy
    | intro y a hy
    | intro y hy
    | dsimp only
    | split
    | (fail_if_no_progress simp only [Frame.mk_eq]; refine Frame.upd ?_))

end Sys2Proof.Machine
end

