-- ==== Sys2Proof/Laws/FrameService.lean ====
section
/-! SUPPORT. One frame lemma for every operation of Machine/Service.lean: the parts of the state that it may change. -/

set_option Elab.async false
set_option linter.unusedTactic false
set_option linter.unreachableTactic false

namespace Sys2Proof.Machine

open Sys2Proof

theorem State.queuePkt_frame (s : State) (w : WaitingPkt) :
    Frame [.csr, .haul, .sch, .sent] s (State.queuePkt s w) := by
  unfold State.queuePkt
  try dsimp only
  repeat' (first
    | with_reducible apply Frame.refl
    | with_reducible assumption
    | with_reducible apply Frame.ite
    | with_reducible apply Frame.then_ ?_ (State.pump_frame ..)
    | decide
    | dsimp only
    | split
    | (fail_if_no_progress simp only [Frame.mk_eq]; refine Frame.upd ?_))

theorem State.injectAt_frame (s : State) (p : Nat) (pkt : SvcPkt) :
    Frame [.csr, .haul, .sch, .sent] s (State.injectAt s p pkt) := by
  unfold State.injectAt
  try dsimp only
  repeat' (first
    | with_reducible apply Frame.refl
    | with_reducible assumption
    | with_reducible apply Frame.ite
    | with_reducible apply Frame.then_ ?_ (State.emit_frame ..)
    | with_reducible apply Frame.then_ ?_ (State.inc_frame ..)
    | with_reducible apply Frame.then_ ?_ (State.queuePkt_frame ..)
    | decide
    | dsimp only
    | split)

theorem State.showMismatch_frame (s : State) (p : Nat) :
    Frame [.csr] s (State.showMismatch s p) := by
  unfold State.showMismatch
  try dsimp only
  repeat' (first
    | with_reducible apply Frame.refl
    | with_reducible assumption
    | with_reducible apply Frame.ite
    | with_reducible apply Frame.then_ ?_ (State.wr_frame ..)
    | with_reducible apply Frame.then_ ?_ (State.wrAt_frame ..)
    | decide
    | dsimp only
    | split)

theorem State.bar_frame (s : State) (l : List Nat) :
    Frame [.csr, .sch] s (State.bar s l) := by
  unfold State.bar
  try dsimp only
  repeat' (first
    | with_reducible apply Frame.refl
    | with_reducible assumption
    | with_reducible apply Frame.ite
    | with_reducible apply Frame.then_ ?_ (State.showMismatch_frame ..)
    | decide
    | with_reducible apply Frame.foldl_fst
    | with_reducible apply Frame.foldl
    | intro y a b c hy
    | intro y a hy
    | intro y hy
    | dsimp only
    | split
    | (fail_if_no_progress simp only [Frame.mk_eq]; refine Frame.upd ?_))

theorem State.sendService_frame (s : State) (kind : Nat) (dest : Nat) (express : Bool) (payload : List Byte) :
    Frame [.csr, .haul, .sch, .sent] s (State.sendService s kind dest express payload) := by
  unfold State.sendService
  try dsimp only
  repeat' (first
    | with_reducible apply Frame.refl
    | with_reducible assumption
    | with_reducible apply Frame.ite
    | with_reducible apply Frame.then_ ?_ (State.emit_frame ..)
    | with_reducible apply Frame.then_ ?_ (State.inc_frame ..)
    | with_reducible apply Frame.then_ ?_ (State.injectAt_frame ..)
    | decide
    | dsimp only
    | split
    | (fail_if_no_progress simp only [Frame.mk_eq]; refine Frame.upd ?_))

theorem State.sendPartner_frame (s : State) (p : Nat) (kind : Nat) (express : Bool) (payload : List Byte) :
    Frame [.csr, .haul, .sch, .sent] s (State.sendPartner s p kind express payload) := by
  unfold State.sendPartner
  try dsimp only
  repeat' (first
    | with_reducible apply Frame.refl
    | with_reducible assumption
    | with_reducible apply Frame.ite
    | with_reducible apply Frame.then_ ?_ (State.injectAt_frame ..)
    | decide
    | dsimp only
    | split
    | (fail_if_no_progress simp only [Frame.mk_eq]; refine Frame.upd ?_))

theorem State.sendAll_frame (s : State) (kind : Nat) (express : Bool) (payload : List Byte) (a : List Nat) :
    Frame [.csr, .haul, .sch, .sent] s (State.sendAll s kind express payload a) := by
  induction a generalizing s kind express payload with
  | nil =>
    first
      | exact Frame.refl _ _
      | (rw [State.sendAll]
         repeat' (first
           | with_reducible apply Frame.refl
           | with_reducible assumption
           | with_reducible apply Frame.ite
           | with_reducible apply Frame.then_ ?_ (State.sendService_frame ..)
           | decide
           | dsimp only
           | split))
  | cons b l ih =>
    rw [State.sendAll]
    try dsimp only
    repeat' (first
      | with_reducible apply Frame.refl
      | with_reducible assumption
      | with_reducible apply Frame.ite
      | with_reducible apply Frame.then_ ?_ (ih ..)
      | with_reducible apply Frame.then_ ?_ (State.sendService_frame ..)
      | decide
      | dsimp only
      | split)

theorem State.setJob_frame (s : State) (k : Nat) (j : Job) :
    Frame [.sch] s (State.setJob s k j) := by
  unfold State.setJob
  try dsimp only
  repeat' (first
    | with_reducible apply Frame.refl
    | with_reducible assumption
    | with_reducible apply Frame.ite
    | decide
    | dsimp only
    | split
    | (fail_if_no_progress simp only [Frame.mk_eq]; refine Frame.upd ?_))

theorem State.showPoints_frame (s : State) :
    Frame [.csr] s (State.showPoints s) := by
  unfold State.showPoints
  try dsimp only
  repeat' (first
    | with_reducible apply Frame.refl
    | with_reducible assumption
    | with_reducible apply Frame.ite
    | with_reducible apply Frame.then_ ?_ (State.wr_frame ..)
    | decide
    | with_reducible apply Frame.foldl_fst
    | with_reducible apply Frame.foldl
    | intro y a b c hy
    | intro y a hy
    | intro y hy
    | dsimp only
    | split)

theorem State.showJob_frame (s : State) :
    Frame [.csr] s (State.showJob s) := by
  unfold State.showJob
  try dsimp only
  repeat' (first
    | with_reducible apply Frame.refl
    | with_reducible assumption
    | with_reducible apply Frame.ite
    | with_reducible apply Frame.then_ ?_ (State.showPoints_frame ..)
    | with_reducible apply Frame.then_ ?_ (State.wr_frame ..)
    | decide
    | dsimp only
    | split)

theorem State.latchHold_frame (s : State) (k : Nat) (point : Nat) (quanta : Nat) (cause : Nat) :
    Frame [.csr, .sch] s (State.latchHold s k point quanta cause) := by
  unfold State.latchHold
  try dsimp only
  repeat' (first
    | with_reducible apply Frame.refl
    | with_reducible assumption
    | with_reducible apply Frame.ite
    | with_reducible apply Frame.then_ ?_ (State.setJob_frame ..)
    | with_reducible apply Frame.then_ ?_ (State.showPoints_frame ..)
    | decide
    | dsimp only
    | split)

theorem State.holdAt_frame (s : State) (k : Nat) (point : Nat) (quanta : Nat) (cause : Nat) :
    Frame [.csr, .haul, .sch, .sent] s (State.holdAt s k point quanta cause) := by
  unfold State.holdAt
  try dsimp only
  repeat' (first
    | with_reducible apply Frame.refl
    | with_reducible assumption
    | with_reducible apply Frame.ite
    | with_reducible apply Frame.then_ ?_ (State.inc_frame ..)
    | with_reducible apply Frame.then_ ?_ (State.latchHold_frame ..)
    | with_reducible apply Frame.then_ ?_ (State.sendAll_frame ..)
    | decide
    | dsimp only
    | split)

theorem State.holdRequest_frame (s : State) (quanta : Nat) (cause : Nat) :
    Frame [.csr, .haul, .sch, .sent] s (State.holdRequest s quanta cause) := by
  unfold State.holdRequest
  try dsimp only
  repeat' (first
    | with_reducible apply Frame.refl
    | with_reducible assumption
    | with_reducible apply Frame.ite
    | with_reducible apply Frame.then_ ?_ (State.holdAt_frame ..)
    | decide
    | dsimp only
    | split)

theorem State.sendFcp_frame (s : State) (m : Nat) (op : Nat) (reqId : Nat) (status : Nat) (fields : List Nat) (bytes
      : List Byte) :
    Frame [.csr, .haul, .sch, .sent] s (State.sendFcp s m op reqId status fields bytes) := by
  unfold State.sendFcp
  try dsimp only
  repeat' (first
    | with_reducible apply Frame.refl
    | with_reducible assumption
    | with_reducible apply Frame.ite
    | with_reducible apply Frame.then_ ?_ (State.sendService_frame ..)
    | decide
    | with_reducible apply Frame.foldl_fst
    | with_reducible apply Frame.foldl
    | intro y a b c hy
    | intro y a hy
    | intro y hy
    | dsimp only
    | split)

theorem State.answerAll_frame (s : State) (who : Nat) (op : Nat) (reqId : Nat) (status : Nat) (fields : List Nat)
      (bytes : List Byte) :
    Frame [.csr, .haul, .sch, .sent] s (State.answerAll s who op reqId status fields bytes) := by
  unfold State.answerAll
  try dsimp only
  repeat' (first
    | with_reducible apply Frame.refl
    | with_reducible assumption
    | with_reducible apply Frame.ite
    | with_reducible apply Frame.then_ ?_ (State.emit_frame ..)
    | with_reducible apply Frame.then_ ?_ (State.sendFcp_frame ..)
    | decide
    | dsimp only
    | split)

theorem State.latchReplay_frame (s : State) (k : Nat) (n : ReplayNotice) :
    Frame [.csr, .sch] s (State.latchReplay s k n) := by
  unfold State.latchReplay
  try dsimp only
  repeat' (first
    | with_reducible apply Frame.refl
    | with_reducible assumption
    | with_reducible apply Frame.ite
    | with_reducible apply Frame.then_ ?_ (State.setJob_frame ..)
    | with_reducible apply Frame.then_ ?_ (State.showPoints_frame ..)
    | decide
    | with_reducible apply Frame.foldl_fst
    | with_reducible apply Frame.foldl
    | intro y a b c hy
    | intro y a hy
    | intro y hy
    | dsimp only
    | split
    | (fail_if_no_progress simp only [Frame.mk_eq]; refine Frame.upd ?_))

theorem State.replayFor_frame (s : State) (k : Nat) (mask : Nat) (code : Nat) :
    Frame [.csr, .haul, .sch, .sent] s (State.replayFor s k mask code) := by
  unfold State.replayFor
  try dsimp only
  repeat' (first
    | with_reducible apply Frame.refl
    | with_reducible assumption
    | with_reducible apply Frame.ite
    | with_reducible apply Frame.then_ ?_ (State.inc_frame ..)
    | with_reducible apply Frame.then_ ?_ (State.latchReplay_frame ..)
    | with_reducible apply Frame.then_ ?_ (State.sendAll_frame ..)
    | decide
    | dsimp only
    | split)

theorem State.holdMissed_frame (s : State) (k : Nat) :
    Frame [.csr, .pwr, .haul, .sch, .flt, .rrc, .obs, .sent, .fresh] s (State.holdMissed s k) := by
  unfold State.holdMissed
  extract_lets v0 v1 v2
  have h_v0 : Frame [.csr, .pwr, .haul, .sch, .flt, .rrc, .obs, .sent, .fresh] s v0 := by
    simp only [v0]
    repeat' (first
      | with_reducible apply Frame.refl
      | with_reducible assumption
      | with_reducible apply Frame.ite
      | with_reducible apply Frame.then_ ?_ (State.inc_frame ..)
      | with_reducible apply Frame.then_ ?_ (State.raiseErr_frame ..)
      | with_reducible apply Frame.then_ ?_ (State.replayFor_frame ..)
      | with_reducible apply Frame.then_ ?_ (State.wr_frame ..)
      | decide
      | dsimp only
      | split)
  clear_value v0
  clear_value v1
  have h_v2 : Frame [.csr, .pwr, .haul, .sch, .flt, .rrc, .obs, .sent, .fresh] s v2 := by
    simp only [v2]
    repeat' (first
      | with_reducible apply Frame.refl
      | with_reducible assumption
      | with_reducible apply Frame.ite
      | with_reducible apply Frame.then_ ?_ (State.inc_frame ..)
      | with_reducible apply Frame.then_ ?_ (State.raiseErr_frame ..)
      | with_reducible apply Frame.then_ ?_ (State.replayFor_frame ..)
      | with_reducible apply Frame.then_ ?_ (State.wr_frame ..)
      | decide
      | dsimp only
      | split)
  clear_value v2
  repeat' (first
    | with_reducible apply Frame.refl
    | with_reducible assumption
    | with_reducible apply Frame.ite
    | with_reducible apply Frame.then_ ?_ (State.inc_frame ..)
    | with_reducible apply Frame.then_ ?_ (State.raiseErr_frame ..)
    | with_reducible apply Frame.then_ ?_ (State.replayFor_frame ..)
    | with_reducible apply Frame.then_ ?_ (State.wr_frame ..)
    | decide
    | dsimp only
    | split)

theorem State.replayRequest_frame (s : State) (mask : Nat) (code : Nat) :
    Frame [.csr, .haul, .sch, .sent] s (State.replayRequest s mask code) := by
  unfold State.replayRequest
  try dsimp only
  repeat' (first
    | with_reducible apply Frame.refl
    | with_reducible assumption
    | with_reducible apply Frame.ite
    | with_reducible apply Frame.then_ ?_ (State.replayFor_frame ..)
    | decide
    | dsimp only
    | split)

theorem State.stepFatal_frame (s : State) (source : Nat) (code : Nat) (field : Nat) (unit : Nat) (info : Nat) (mask
      : Nat) :
Frame [.csr, .pwr, .haul, .sch, .flt, .rrc, .obs, .sent, .fresh] s (State.stepFatal s source code field unit info
      mask) := by
  unfold State.stepFatal
  try dsimp only
  repeat' (first
    | with_reducible apply Frame.refl
    | with_reducible assumption
    | with_reducible apply Frame.ite
    | with_reducible apply Frame.then_ ?_ (State.raiseErr_frame ..)
    | with_reducible apply Frame.then_ ?_ (State.replayRequest_frame ..)
    | decide
    | dsimp only
    | split)

end Sys2Proof.Machine
end

