-- ==== Sys2Proof/Laws/FrameTopo.lean ====
section
/-! SUPPORT. One frame lemma for every operation of Machine/Topo.lean: the parts of the state that it may change. -/

set_option Elab.async false
set_option linter.unusedTactic false
set_option linter.unreachableTactic false

namespace Sys2Proof.Machine

open Sys2Proof

theorem State.discHere_frame (s : State) (pkt : SvcPkt) (d : DiscPkt) :
    Frame [.csr, .haul, .sch, .fst, .sent] s (State.discHere s pkt d) := by
  unfold State.discHere
  try dsimp only
  repeat' (first
    | with_reducible apply Frame.refl
    | with_reducible assumption
    | with_reducible apply Frame.ite
    | with_reducible apply Frame.then_ ?_ (State.answerAll_frame ..)
    | with_reducible apply Frame.then_ ?_ (State.emit_frame ..)
    | decide
    | dsimp only
    | split
    | (fail_if_no_progress simp only [Frame.mk_eq]; refine Frame.upd ?_))

theorem State.sendDisc_frame (s : State) (op : Nat) (token : Nat) (epoch : Nat) (path : List Nat) (body : List Byte)
      :
    Frame [.csr, .haul, .sch, .fst, .sent] s (State.sendDisc s op token epoch path body) := by
  unfold State.sendDisc
  try dsimp only
  repeat' (first
    | with_reducible apply Frame.refl
    | with_reducible assumption
    | with_reducible apply Frame.ite
    | with_reducible apply Frame.then_ ?_ (State.discHere_frame ..)
    | with_reducible apply Frame.then_ ?_ (State.inc_frame ..)
    | with_reducible apply Frame.then_ ?_ (State.sendPartner_frame ..)
    | decide
    | dsimp only
    | split)

theorem State.sendAnswer_frame (s : State) (op : Nat) (token : Nat) (epoch : Nat) (back : Nat × List Nat) (body :
      List Byte) :
    Frame [.csr, .haul, .sch, .fst, .sent] s (State.sendAnswer s op token epoch back body) := by
  unfold State.sendAnswer
  try dsimp only
  repeat' (first
    | with_reducible apply Frame.refl
    | with_reducible assumption
    | with_reducible apply Frame.ite
    | with_reducible apply Frame.then_ ?_ (State.discHere_frame ..)
    | with_reducible apply Frame.then_ ?_ (State.inc_frame ..)
    | with_reducible apply Frame.then_ ?_ (State.sendPartner_frame ..)
    | decide
    | dsimp only
    | split)

theorem State.unsolicitedReport_frame (s : State) :
    Frame [.csr, .haul, .sch, .fst, .sent] s (State.unsolicitedReport s) := by
  unfold State.unsolicitedReport
  try dsimp only
  repeat' (first
    | with_reducible apply Frame.refl
    | with_reducible assumption
    | with_reducible apply Frame.ite
    | with_reducible apply Frame.then_ ?_ (State.sendAnswer_frame ..)
    | decide
    | dsimp only
    | split)

theorem State.sendNeighbour_frame (s : State) (p : Nat) :
    Frame [.csr, .haul, .sch, .sent] s (State.sendNeighbour s p) := by
  unfold State.sendNeighbour
  try dsimp only
  repeat' (first
    | with_reducible apply Frame.refl
    | with_reducible assumption
    | with_reducible apply Frame.ite
    | with_reducible apply Frame.then_ ?_ (State.sendPartner_frame ..)
    | decide
    | dsimp only
    | split)

theorem State.showTwinPort_frame (s : State) (p : Nat) (up : Bool) :
    Frame [.csr] s (State.showTwinPort s p up) := by
  unfold State.showTwinPort
  try dsimp only
  repeat' (first
    | with_reducible apply Frame.refl
    | with_reducible assumption
    | with_reducible apply Frame.ite
    | with_reducible apply Frame.then_ ?_ (State.wr_frame ..)
    | decide
    | dsimp only
    | split)

theorem State.portCameUp_frame (s : State) (p : Nat) :
    Frame [.csr, .haul, .sch, .fst, .sent] s (State.portCameUp s p) := by
  unfold State.portCameUp
  extract_lets v0 v1
  have h_v0 : Frame [.csr, .haul, .sch, .fst, .sent] s v0 := by
    simp only [v0]
    repeat' (first
      | with_reducible apply Frame.refl
      | with_reducible assumption
      | with_reducible apply Frame.ite
      | with_reducible apply Frame.then_ ?_ (State.sendNeighbour_frame ..)
      | with_reducible apply Frame.then_ ?_ (State.showTwinPort_frame ..)
      | with_reducible apply Frame.then_ ?_ (State.unsolicitedReport_frame ..)
      | with_reducible apply Frame.then_ ?_ (State.wr_frame ..)
      | decide
      | dsimp only
      | split)
  clear_value v0
  have h_v1 : Frame [.csr, .haul, .sch, .fst, .sent] s v1 := by
    simp only [v1]
    repeat' (first
      | with_reducible apply Frame.refl
      | with_reducible assumption
      | with_reducible apply Frame.ite
      | with_reducible apply Frame.then_ ?_ (State.sendNeighbour_frame ..)
      | with_reducible apply Frame.then_ ?_ (State.showTwinPort_frame ..)
      | with_reducible apply Frame.then_ ?_ (State.unsolicitedReport_frame ..)
      | with_reducible apply Frame.then_ ?_ (State.wr_frame ..)
      | decide
      | dsimp only
      | split)
  clear_value v1
  repeat' (first
    | with_reducible apply Frame.refl
    | with_reducible assumption
    | with_reducible apply Frame.ite
    | with_reducible apply Frame.then_ ?_ (State.sendNeighbour_frame ..)
    | with_reducible apply Frame.then_ ?_ (State.showTwinPort_frame ..)
    | with_reducible apply Frame.then_ ?_ (State.unsolicitedReport_frame ..)
    | with_reducible apply Frame.then_ ?_ (State.wr_frame ..)
    | decide
    | dsimp only
    | split)

end Sys2Proof.Machine
end

