-- ==== Sys2Proof/Laws/FrameTwinLink.lean ====
section
/-! SUPPORT. One frame lemma for every operation of Machine/TwinLink.lean: the parts of the state that it may change. -/

set_option Elab.async false
set_option linter.unusedTactic false
set_option linter.unreachableTactic false

namespace Sys2Proof.Machine

open Sys2Proof

theorem State.stripe_frame (s : State) (x : ShippedItem) :
    Frame [.csr, .haul, .sent] s (State.stripe s x) := by
  unfold State.stripe
  try dsimp only
  repeat' (first
    | with_reducible apply Frame.refl
    | with_reducible assumption
    | with_reducible apply Frame.ite
    | with_reducible apply Frame.then_ ?_ (State.sendSched_frame ..)
    | decide
    | with_reducible apply Frame.foldl_fst
    | with_reducible apply Frame.foldl
    | intro y a b c hy
    | intro y a hy
    | intro y hy
    | dsimp only
    | split)

theorem State.shipItem_frame (s : State) (kind : Nat) (ctx : Nat) (window : Nat) (payload : List Byte) :
    Frame [.csr, .haul, .twn, .sent] s (State.shipItem s kind ctx window payload) := by
  unfold State.shipItem
  try dsimp only
  repeat' (first
    | with_reducible apply Frame.refl
    | with_reducible assumption
    | with_reducible apply Frame.ite
    | with_reducible apply Frame.then_ ?_ (State.stripe_frame ..)
    | decide
    | dsimp only
    | split
    | (fail_if_no_progress simp only [Frame.mk_eq]; refine Frame.upd ?_))

theorem State.reship_frame (s : State) (lost : List (List Byte)) :
    Frame [.csr, .haul, .sent] s (State.reship s lost) := by
  unfold State.reship
  try dsimp only
  repeat' (first
    | with_reducible apply Frame.refl
    | with_reducible assumption
    | with_reducible apply Frame.ite
    | with_reducible apply Frame.then_ ?_ (State.stripe_frame ..)
    | decide
    | with_reducible apply Frame.foldl_fst
    | with_reducible apply Frame.foldl
    | intro y a b c hy
    | intro y a hy
    | intro y hy
    | dsimp only
    | split)

end Sys2Proof.Machine
end

