-- ==== Sys2Proof/Laws/FrameDetour.lean ====
section
/-! SUPPORT. One frame lemma for every operation of Machine/Detour.lean: the parts of the state that it may change. -/

set_option Elab.async false
set_option linter.unusedTactic false
set_option linter.unreachableTactic false

namespace Sys2Proof.Machine

open Sys2Proof

theorem State.setSend_frame (s : State) (key : Nat) (x : SendState) :
    Frame [.sch] s (State.setSend s key x) := by
  unfold State.setSend
  try dsimp only
  repeat' (first
    | with_reducible apply Frame.refl
    | with_reducible assumption
    | with_reducible apply Frame.ite
    | decide
    | dsimp only
    | split
    | (fail_if_no_progress simp only [Frame.mk_eq]; refine Frame.upd ?_))

theorem State.noPath_frame (s : State) :
    Frame [.csr] s (State.noPath s) := by
  unfold State.noPath
  try dsimp only
  repeat' (first
    | with_reducible apply Frame.refl
    | with_reducible assumption
    | with_reducible apply Frame.ite
    | with_reducible apply Frame.then_ ?_ (State.inc_frame ..)
    | with_reducible apply Frame.then_ ?_ (State.wr_frame ..)
    | decide
    | dsimp only
    | split)

theorem State.onTelem_frame (s : State) (p : Nat) (f : PortTelem → PortTelem) :
    Frame [.sch] s (State.onTelem s p f) := by
  unfold State.onTelem
  try dsimp only
  repeat' (first
    | with_reducible apply Frame.refl
    | with_reducible assumption
    | with_reducible apply Frame.ite
    | decide
    | dsimp only
    | split
    | (fail_if_no_progress simp only [Frame.mk_eq]; refine Frame.upd ?_))

theorem State.resendEntry_frame (s : State) (j : Job) (key : Nat) (e : SchedEntry) :
    Frame [.csr, .sch] s (State.resendEntry s j key e) := by
  unfold State.resendEntry
  try dsimp only
  repeat' (first
    | with_reducible apply Frame.refl
    | with_reducible assumption
    | with_reducible apply Frame.ite
    | with_reducible apply Frame.then_ ?_ (State.inc_frame ..)
    | with_reducible apply Frame.then_ ?_ (State.noPath_frame ..)
    | with_reducible apply Frame.then_ ?_ (State.onTelem_frame ..)
    | with_reducible apply Frame.then_ ?_ (State.setSend_frame ..)
    | decide
    | dsimp only
    | split)

theorem State.resendBroken_frame (s : State) :
    Frame [.csr, .sch] s (State.resendBroken s) := by
  unfold State.resendBroken
  try dsimp only
  repeat' (first
    | with_reducible apply Frame.refl
    | with_reducible assumption
    | with_reducible apply Frame.ite
    | with_reducible apply Frame.then_ ?_ (State.resendEntry_frame ..)
    | decide
    | with_reducible apply Frame.foldl_fst
    | with_reducible apply Frame.foldl
    | intro y a b c hy
    | intro y a hy
    | intro y hy
    | dsimp only
    | split)

theorem State.routesDown_frame (s : State) (j : Job) (p : Nat) (cause : Nat) (lossAt : Nat) (a : List RouteEntry) :
    Frame [.csr, .haul, .sch, .sent] s (State.routesDown s j p cause lossAt a) := by
  induction a generalizing s j p cause lossAt with
  | nil =>
    first
      | exact Frame.refl _ _
      | (rw [State.routesDown]
         repeat' (first
           | with_reducible apply Frame.refl
           | with_reducible assumption
           | with_reducible apply Frame.ite
           | with_reducible apply Frame.then_ ?_ (State.inc_frame ..)
           | with_reducible apply Frame.then_ ?_ (State.sendService_frame ..)
           | decide
           | dsimp only
           | split))
  | cons b l ih =>
    rw [State.routesDown]
    try dsimp only
    repeat' (first
      | with_reducible apply Frame.refl
      | with_reducible assumption
      | with_reducible apply Frame.ite
      | with_reducible apply Frame.then_ ?_ (ih ..)
      | with_reducible apply Frame.then_ ?_ (State.inc_frame ..)
      | with_reducible apply Frame.then_ ?_ (State.sendService_frame ..)
      | decide
      | dsimp only
      | split)

theorem State.dropForwards_frame (s : State) (p : Nat) :
    Frame [.csr, .sch] s (State.dropForwards s p) := by
  unfold State.dropForwards
  try dsimp only
  repeat' (first
    | with_reducible apply Frame.refl
    | with_reducible assumption
    | with_reducible apply Frame.ite
    | with_reducible apply Frame.then_ ?_ (State.addAt_frame ..)
    | with_reducible apply Frame.then_ ?_ (State.wr_frame ..)
    | decide
    | dsimp only
    | split
    | (fail_if_no_progress simp only [Frame.mk_eq]; refine Frame.upd ?_))

theorem State.detourPort_frame (s : State) (p : Nat) (cause : Nat) (lossAt : Nat) :
    Frame [.csr, .haul, .sch, .sent] s (State.detourPort s p cause lossAt) := by
  unfold State.detourPort
  try dsimp only
  repeat' (first
    | with_reducible apply Frame.refl
    | with_reducible assumption
    | with_reducible apply Frame.ite
    | with_reducible apply Frame.then_ ?_ (State.dropForwards_frame ..)
    | with_reducible apply Frame.then_ ?_ (State.resendBroken_frame ..)
    | with_reducible apply Frame.then_ ?_ (State.routesDown_frame ..)
    | with_reducible apply Frame.then_ ?_ (State.wr_frame ..)
    | with_reducible apply Frame.then_ ?_ (State.wrAt_frame ..)
    | decide
    | with_reducible apply Frame.foldl_fst
    | with_reducible apply Frame.foldl
    | intro y a b c hy
    | intro y a hy
    | intro y hy
    | dsimp only
    | split)

theorem State.restorePort_frame (s : State) (p : Nat) :
    Frame [.csr] s (State.restorePort s p) := by
  unfold State.restorePort
  try dsimp only
  repeat' (first
    | with_reducible apply Frame.refl
    | with_reducible assumption
    | with_reducible apply Frame.ite
    | with_reducible apply Frame.then_ ?_ (State.wr_frame ..)
    | with_reducible apply Frame.then_ ?_ (State.wrAt_frame ..)
    | decide
    | dsimp only
    | split)

theorem State.linkDown_frame (s : State) (p : Nat) (cause : Nat) :
    Frame [.csr, .haul, .sch, .fst, .obs, .sent, .fresh] s (State.linkDown s p cause) := by
  unfold State.linkDown
  try dsimp only
  repeat' (first
    | with_reducible apply Frame.refl
    | with_reducible assumption
    | with_reducible apply Frame.ite
    | with_reducible apply Frame.then_ ?_ (State.detourPort_frame ..)
    | with_reducible apply Frame.then_ ?_ (State.portDown_frame ..)
    | with_reducible apply Frame.then_ ?_ (State.reship_frame ..)
    | with_reducible apply Frame.then_ ?_ (State.showTwinPort_frame ..)
    | with_reducible apply Frame.then_ ?_ (State.unsolicitedReport_frame ..)
    | decide
    | dsimp only
    | split)

end Sys2Proof.Machine
end

