-- ==== Sys2Proof/Laws/FrameTwoPhase.lean ====
section
/-! SUPPORT. One frame lemma for every operation of Machine/TwoPhase.lean: the parts of the state that it may change. -/

set_option Elab.async false
set_option linter.unusedTactic false
set_option linter.unreachableTactic false

namespace Sys2Proof.Machine

open Sys2Proof

theorem State.showChange_frame (s : State) (i : Nat) (c : Change) :
    Frame [.csr] s (State.showChange s i c) := by
  unfold State.showChange
  try dsimp only
  repeat' (first
    | with_reducible apply Frame.refl
    | with_reducible assumption
    | with_reducible apply Frame.ite
    | with_reducible apply Frame.then_ ?_ (State.wrAt_frame ..)
    | decide
    | dsimp only
    | split)

theorem State.setChanges_frame (s : State) (l : List Change) :
    Frame [.csr, .olc] s (State.setChanges s l) := by
  unfold State.setChanges
  try dsimp only
  repeat' (first
    | with_reducible apply Frame.refl
    | with_reducible assumption
    | with_reducible apply Frame.ite
    | with_reducible apply Frame.then_ ?_ (State.showChange_frame ..)
    | decide
    | with_reducible apply Frame.foldl_fst
    | with_reducible apply Frame.foldl
    | intro y a b c hy
    | intro y a hy
    | intro y hy
    | dsimp only
    | split
    | (fail_if_no_progress simp only [Frame.mk_eq]; refine Frame.upd ?_))

theorem State.onChanges_frame (s : State) (p : Change → Bool) (f : Change → Change) :
    Frame [.csr, .olc] s (State.onChanges s p f) := by
  unfold State.onChanges
  try dsimp only
  repeat' (first
    | with_reducible apply Frame.refl
    | with_reducible assumption
    | with_reducible apply Frame.ite
    | with_reducible apply Frame.then_ ?_ (State.setChanges_frame ..)
    | decide
    | dsimp only
    | split)

theorem State.withdraw_frame (s : State) (kind : Nat) (ctx : Nat) :
    Frame [.csr, .sch, .pln, .olc, .gen, .bench] s (State.withdraw s kind ctx) := by
  unfold State.withdraw
  try dsimp only
  repeat' (first
    | with_reducible apply Frame.refl
    | with_reducible assumption
    | with_reducible apply Frame.ite
    | with_reducible apply Frame.then_ ?_ (State.showAct_frame ..)
    | with_reducible apply Frame.then_ ?_ (State.unload_frame ..)
    | with_reducible apply Frame.then_ ?_ (State.wr_frame ..)
    | with_reducible apply Frame.then_ ?_ (State.wrAt_frame ..)
    | decide
    | dsimp only
    | split
    | (fail_if_no_progress simp only [Frame.mk_eq]; refine Frame.upd ?_))

theorem State.setPoints_frame (s : State) (v : Nat) (a : Nat) :
    Frame [.csr] s (State.setPoints s v a) := by
  induction a generalizing s v with
  | zero =>
    first
      | exact Frame.refl _ _
      | (rw [State.setPoints]
         repeat' (first
           | with_reducible apply Frame.refl
           | with_reducible assumption
           | with_reducible apply Frame.ite
           | with_reducible apply Frame.then_ ?_ (State.wrAt_frame ..)
           | decide
           | dsimp only
           | split))
  | succ m ih =>
    rw [State.setPoints]
    try dsimp only
    repeat' (first
      | with_reducible apply Frame.refl
      | with_reducible assumption
      | with_reducible apply Frame.ite
      | with_reducible apply Frame.then_ ?_ (ih ..)
      | with_reducible apply Frame.then_ ?_ (State.wrAt_frame ..)
      | decide
      | dsimp only
      | split)

theorem State.undoSwap_frame (s : State) (c : Nat) :
    Frame [.csr, .wgt] s (State.undoSwap s c) := by
  unfold State.undoSwap
  try dsimp only
  repeat' (first
    | with_reducible apply Frame.refl
    | with_reducible assumption
    | with_reducible apply Frame.ite
    | with_reducible apply Frame.then_ ?_ (State.setRoot_frame ..)
    | with_reducible apply Frame.then_ ?_ (State.setWctx_frame ..)
    | with_reducible apply Frame.then_ ?_ (State.wrAt_frame ..)
    | decide
    | dsimp only
    | split
    | (fail_if_no_progress simp only [Frame.mk_eq]; refine Frame.upd ?_))

theorem State.fixedRefresh_frame (s : State) :
    Frame [.csr] s (State.fixedRefresh s) := by
  unfold State.fixedRefresh
  try dsimp only
  repeat' (first
    | with_reducible apply Frame.refl
    | with_reducible assumption
    | with_reducible apply Frame.ite
    | with_reducible apply Frame.then_ ?_ (State.wr_frame ..)
    | with_reducible apply Frame.then_ ?_ (State.wrAt_frame ..)
    | decide
    | with_reducible apply Frame.foldl_fst
    | with_reducible apply Frame.foldl
    | intro y a b c hy
    | intro y a hy
    | intro y hy
    | dsimp only
    | split)

theorem State.undo_frame (s : State) (kind : Nat) (ctx : Nat) (old : Nat) :
    Frame [.csr, .haul, .sch, .pln, .top, .wgt, .sent] s (State.undo s kind ctx old) := by
  unfold State.undo
  try dsimp only
  repeat' (first
    | with_reducible apply Frame.refl
    | with_reducible assumption
    | with_reducible apply Frame.ite
    | with_reducible apply Frame.then_ ?_ (State.detourPort_frame ..)
    | with_reducible apply Frame.then_ ?_ (State.fixedRefresh_frame ..)
    | with_reducible apply Frame.then_ ?_ (State.setCtx_frame ..)
    | with_reducible apply Frame.then_ ?_ (State.setPoints_frame ..)
    | with_reducible apply Frame.then_ ?_ (State.showAct_frame ..)
    | with_reducible apply Frame.then_ ?_ (State.undoSwap_frame ..)
    | with_reducible apply Frame.then_ ?_ (State.wr_frame ..)
    | with_reducible apply Frame.then_ ?_ (State.wrAt_frame ..)
    | decide
    | with_reducible apply Frame.foldl_fst
    | with_reducible apply Frame.foldl
    | intro y a b c hy
    | intro y a hy
    | intro y hy
    | dsimp only
    | split
    | (fail_if_no_progress simp only [Frame.mk_eq]; refine Frame.upd ?_))

theorem State.undoSplit_frame (s : State) (k : Nat) :
    Frame [.csr, .haul, .sch, .pln, .top, .olc, .wgt, .sent] s (State.undoSplit s k) := by
  unfold State.undoSplit
  try dsimp only
  repeat' (first
    | with_reducible apply Frame.refl
    | with_reducible assumption
    | with_reducible apply Frame.ite
    | with_reducible apply Frame.then_ ?_ (State.onChanges_frame ..)
    | with_reducible apply Frame.then_ ?_ (State.undo_frame ..)
    | decide
    | with_reducible apply Frame.foldl_fst
    | with_reducible apply Frame.foldl
    | intro y a b c hy
    | intro y a hy
    | intro y hy
    | dsimp only
    | split)

theorem State.splitHold_frame (s : State) (k : Nat) (p : Nat) (before : Option Nat) :
    Frame [.csr, .pwr, .haul, .sch, .flt, .rrc, .obs, .sent, .fresh] s (State.splitHold s k p before) := by
  unfold State.splitHold
  try dsimp only
  repeat' (first
    | with_reducible apply Frame.refl
    | with_reducible assumption
    | with_reducible apply Frame.ite
    | with_reducible apply Frame.then_ ?_ (State.holdMissed_frame ..)
    | with_reducible apply Frame.then_ ?_ (State.latchHold_frame ..)
    | with_reducible apply Frame.then_ ?_ (State.setJob_frame ..)
    | decide
    | dsimp only
    | split)

theorem State.latchSplit_frame (s : State) (c : Change) (point : Nat) (reason : Nat) :
Frame [.csr, .pwr, .haul, .sch, .pln, .top, .olc, .gen, .wgt, .bench, .flt, .rrc, .obs, .sent, .fresh] s
      (State.latchSplit s c point reason) := by
  unfold State.latchSplit
  extract_lets v0 v1 v2 v3 v4 v5 v6 v7
  clear_value v0
  clear_value v1
  have h_v2 : Frame [.csr, .pwr, .haul, .sch, .pln, .top, .olc, .gen, .wgt, .bench, .flt, .rrc, .obs, .sent, .fresh] s v2 := by
    simp only [v2]
    repeat' (first
      | with_reducible apply Frame.refl
      | with_reducible assumption
      | with_reducible apply Frame.ite
      | with_reducible apply Frame.then_ ?_ (State.inc_frame ..)
      | with_reducible apply Frame.then_ ?_ (State.onChanges_frame ..)
      | with_reducible apply Frame.then_ ?_ (State.splitHold_frame ..)
      | with_reducible apply Frame.then_ ?_ (State.undo_frame ..)
      | with_reducible apply Frame.then_ ?_ (State.withdraw_frame ..)
      | with_reducible apply Frame.then_ ?_ (State.wr_frame ..)
      | decide
      | dsimp only
      | split
      | (fail_if_no_progress simp only [Frame.mk_eq]; refine Frame.upd ?_))
  clear_value v2
  have h_v3 : Frame [.csr, .pwr, .haul, .sch, .pln, .top, .olc, .gen, .wgt, .bench, .flt, .rrc, .obs, .sent, .fresh] s v3 := by
    simp only [v3]
    repeat' (first
      | with_reducible apply Frame.refl
      | with_reducible assumption
      | with_reducible apply Frame.ite
      | with_reducible apply Frame.then_ ?_ (State.inc_frame ..)
      | with_reducible apply Frame.then_ ?_ (State.onChanges_frame ..)
      | with_reducible apply Frame.then_ ?_ (State.splitHold_frame ..)
      | with_reducible apply Frame.then_ ?_ (State.undo_frame ..)
      | with_reducible apply Frame.then_ ?_ (State.withdraw_frame ..)
      | with_reducible apply Frame.then_ ?_ (State.wr_frame ..)
      | decide
      | dsimp only
      | split
      | (fail_if_no_progress simp only [Frame.mk_eq]; refine Frame.upd ?_))
  clear_value v3
  have h_v4 : Frame [.csr, .pwr, .haul, .sch, .pln, .top, .olc, .gen, .wgt, .bench, .flt, .rrc, .obs, .sent, .fresh] s v4 := by
    simp only [v4]
    repeat' (first
      | with_reducible apply Frame.refl
      | with_reducible assumption
      | with_reducible apply Frame.ite
      | with_reducible apply Frame.then_ ?_ (State.inc_frame ..)
      | with_reducible apply Frame.then_ ?_ (State.onChanges_frame ..)
      | with_reducible apply Frame.then_ ?_ (State.splitHold_frame ..)
      | with_reducible apply Frame.then_ ?_ (State.undo_frame ..)
      | with_reducible apply Frame.then_ ?_ (State.withdraw_frame ..)
      | with_reducible apply Frame.then_ ?_ (State.wr_frame ..)
      | decide
      | dsimp only
      | split
      | (fail_if_no_progress simp only [Frame.mk_eq]; refine Frame.upd ?_))
  clear_value v4
  clear_value v5
  have h_v6 : Frame [.csr, .pwr, .haul, .sch, .pln, .top, .olc, .gen, .wgt, .bench, .flt, .rrc, .obs, .sent, .fresh] s v6 := by
    simp only [v6]
    repeat' (first
      | with_reducible apply Frame.refl
      | with_reducible assumption
      | with_reducible apply Frame.ite
      | with_reducible apply Frame.then_ ?_ (State.inc_frame ..)
      | with_reducible apply Frame.then_ ?_ (State.onChanges_frame ..)
      | with_reducible apply Frame.then_ ?_ (State.splitHold_frame ..)
      | with_reducible apply Frame.then_ ?_ (State.undo_frame ..)
      | with_reducible apply Frame.then_ ?_ (State.withdraw_frame ..)
      | with_reducible apply Frame.then_ ?_ (State.wr_frame ..)
      | decide
      | dsimp only
      | split
      | (fail_if_no_progress simp only [Frame.mk_eq]; refine Frame.upd ?_))
  clear_value v6
  have h_v7 : Frame [.csr, .pwr, .haul, .sch, .pln, .top, .olc, .gen, .wgt, .bench, .flt, .rrc, .obs, .sent, .fresh] s v7 := by
    simp only [v7]
    repeat' (first
      | with_reducible apply Frame.refl
      | with_reducible assumption
      | with_reducible apply Frame.ite
      | with_reducible apply Frame.then_ ?_ (State.inc_frame ..)
      | with_reducible apply Frame.then_ ?_ (State.onChanges_frame ..)
      | with_reducible apply Frame.then_ ?_ (State.splitHold_frame ..)
      | with_reducible apply Frame.then_ ?_ (State.undo_frame ..)
      | with_reducible apply Frame.then_ ?_ (State.withdraw_frame ..)
      | with_reducible apply Frame.then_ ?_ (State.wr_frame ..)
      | decide
      | dsimp only
      | split
      | (fail_if_no_progress simp only [Frame.mk_eq]; refine Frame.upd ?_))
  clear_value v7
  repeat' (first
    | with_reducible apply Frame.refl
    | with_reducible assumption
    | with_reducible apply Frame.ite
    | with_reducible apply Frame.then_ ?_ (State.inc_frame ..)
    | with_reducible apply Frame.then_ ?_ (State.onChanges_frame ..)
    | with_reducible apply Frame.then_ ?_ (State.splitHold_frame ..)
    | with_reducible apply Frame.then_ ?_ (State.undo_frame ..)
    | with_reducible apply Frame.then_ ?_ (State.withdraw_frame ..)
    | with_reducible apply Frame.then_ ?_ (State.wr_frame ..)
    | decide
    | dsimp only
    | split
    | (fail_if_no_progress simp only [Frame.mk_eq]; refine Frame.upd ?_))

theorem State.raiseSplit_frame (s : State) (c : Change) (reason : Nat) :
Frame [.csr, .pwr, .haul, .sch, .pln, .top, .olc, .gen, .wgt, .bench, .flt, .rrc, .obs, .sent, .fresh] s
      (State.raiseSplit s c reason) := by
  unfold State.raiseSplit
  try dsimp only
  repeat' (first
    | with_reducible apply Frame.refl
    | with_reducible assumption
    | with_reducible apply Frame.ite
    | with_reducible apply Frame.then_ ?_ (State.inc_frame ..)
    | with_reducible apply Frame.then_ ?_ (State.latchSplit_frame ..)
    | with_reducible apply Frame.then_ ?_ (State.onChanges_frame ..)
    | with_reducible apply Frame.then_ ?_ (State.sendAll_frame ..)
    | with_reducible apply Frame.then_ ?_ (State.sendService_frame ..)
    | with_reducible apply Frame.then_ ?_ (State.trace_frame ..)
    | decide
    | dsimp only
    | split)

theorem State.armChange_frame {P : List Part} {s0 : State} (s : State) (kind ctx shown effect : Nat) (ok : Bool)
    (accept refuse : State → State) (hP : [.csr, .pwr, .haul, .sch, .pln, .top, .olc, .gen, .wgt, .bench, .flt, .rrc, .obs, .sent, .fresh] ⊆ P) (h0 : Frame P s0 s)
    (ha : ∀ x, Frame P s0 x → Frame P s0 (accept x)) (hr : ∀ x, Frame P s0 x → Frame P s0 (refuse x)) :
    Frame P s0 (s.armChange kind ctx shown effect ok accept refuse) := by
  have sub : ∀ {Q : List Part}, Q ⊆ [.csr, .pwr, .haul, .sch, .pln, .top, .olc, .gen, .wgt, .bench, .flt, .rrc, .obs, .sent, .fresh] → Q ⊆ P := fun h x hx => hP (h hx)
  have hw : Frame P s0 (s.wr R.OLC_CHANGE_NEXT_FRESH 0) := h0.then_ (State.wr_frame ..) (sub (by decide))
  have a0 := ha _ h0
  have r0 := hr _ h0
  have a1 := ha _ hw
  have r1 := hr _ hw
  unfold State.armChange
  dsimp only
  repeat' (first
    | with_reducible assumption
    | ((with_reducible apply Frame.then_ ?_ (State.wr_frame ..) ?zsub); case zsub => exact sub (by decide))
    | ((with_reducible apply Frame.then_ ?_ (State.sendService_frame ..) ?zsub); case zsub => exact sub (by decide))
    | ((with_reducible apply Frame.then_ ?_ (State.raiseSplit_frame ..) ?zsub); case zsub => exact sub (by decide))
    | ((with_reducible apply Frame.then_ ?_ (State.setChanges_frame ..) ?zsub); case zsub => exact sub (by decide))
    | with_reducible apply Frame.ite
    | split)

theorem State.dropChange_frame (s : State) (kind : Nat) (ctx : Nat) :
    Frame [.csr, .olc] s (State.dropChange s kind ctx) := by
  unfold State.dropChange
  try dsimp only
  repeat' (first
    | with_reducible apply Frame.refl
    | with_reducible assumption
    | with_reducible apply Frame.ite
    | with_reducible apply Frame.then_ ?_ (State.onChanges_frame ..)
    | decide
    | dsimp only
    | split)

theorem State.tookEffect_frame (s : State) (kind : Nat) (ctx : Nat) :
    Frame [.olc] s (State.tookEffect s kind ctx) := by
  unfold State.tookEffect
  try dsimp only
  repeat' (first
    | with_reducible apply Frame.refl
    | with_reducible assumption
    | with_reducible apply Frame.ite
    | decide
    | dsimp only
    | split
    | (fail_if_no_progress simp only [Frame.mk_eq]; refine Frame.upd ?_))

theorem State.changeApplied_frame (s : State) (kind : Nat) (ctx : Nat) (old : Nat) :
    Frame [.csr, .olc] s (State.changeApplied s kind ctx old) := by
  unfold State.changeApplied
  try dsimp only
  repeat' (first
    | with_reducible apply Frame.refl
    | with_reducible assumption
    | with_reducible apply Frame.ite
    | with_reducible apply Frame.then_ ?_ (State.onChanges_frame ..)
    | with_reducible apply Frame.then_ ?_ (State.tookEffect_frame ..)
    | decide
    | dsimp only
    | split)

theorem State.replayLoad_frame (s : State) (k : Nat) (c : Change) :
    Frame [.csr, .haul, .sch, .sent] s (State.replayLoad s k c) := by
  unfold State.replayLoad
  try dsimp only
  repeat' (first
    | with_reducible apply Frame.refl
    | with_reducible assumption
    | with_reducible apply Frame.ite
    | with_reducible apply Frame.then_ ?_ (State.inc_frame ..)
    | with_reducible apply Frame.then_ ?_ (State.replayFor_frame ..)
    | with_reducible apply Frame.then_ ?_ (State.sendAll_frame ..)
    | decide
    | dsimp only
    | split)

theorem State.cannotApply_frame (s : State) (c : Change) :
Frame [.csr, .pwr, .haul, .sch, .pln, .top, .olc, .gen, .wgt, .bench, .flt, .rrc, .obs, .sent, .fresh] s
      (State.cannotApply s c) := by
  unfold State.cannotApply
  extract_lets v0 v1 v2
  have h_v0 : Frame [.csr, .pwr, .haul, .sch, .pln, .top, .olc, .gen, .wgt, .bench, .flt, .rrc, .obs, .sent, .fresh] s v0 := by
    simp only [v0]
    repeat' (first
      | with_reducible apply Frame.refl
      | with_reducible assumption
      | with_reducible apply Frame.ite
      | with_reducible apply Frame.then_ ?_ (State.inc_frame ..)
      | with_reducible apply Frame.then_ ?_ (State.onChanges_frame ..)
      | with_reducible apply Frame.then_ ?_ (State.raiseErr_frame ..)
      | with_reducible apply Frame.then_ ?_ (State.raiseSplit_frame ..)
      | with_reducible apply Frame.then_ ?_ (State.replayLoad_frame ..)
      | with_reducible apply Frame.then_ ?_ (State.stepFatal_frame ..)
      | decide
      | dsimp only
      | split)
  clear_value v0
  have h_v1 : Frame [.csr, .pwr, .haul, .sch, .pln, .top, .olc, .gen, .wgt, .bench, .flt, .rrc, .obs, .sent, .fresh] s v1 := by
    simp only [v1]
    repeat' (first
      | with_reducible apply Frame.refl
      | with_reducible assumption
      | with_reducible apply Frame.ite
      | with_reducible apply Frame.then_ ?_ (State.inc_frame ..)
      | with_reducible apply Frame.then_ ?_ (State.onChanges_frame ..)
      | with_reducible apply Frame.then_ ?_ (State.raiseErr_frame ..)
      | with_reducible apply Frame.then_ ?_ (State.raiseSplit_frame ..)
      | with_reducible apply Frame.then_ ?_ (State.replayLoad_frame ..)
      | with_reducible apply Frame.then_ ?_ (State.stepFatal_frame ..)
      | decide
      | dsimp only
      | split)
  clear_value v1
  clear_value v2
  repeat' (first
    | with_reducible apply Frame.refl
    | with_reducible assumption
    | with_reducible apply Frame.ite
    | with_reducible apply Frame.then_ ?_ (State.inc_frame ..)
    | with_reducible apply Frame.then_ ?_ (State.onChanges_frame ..)
    | with_reducible apply Frame.then_ ?_ (State.raiseErr_frame ..)
    | with_reducible apply Frame.then_ ?_ (State.raiseSplit_frame ..)
    | with_reducible apply Frame.then_ ?_ (State.replayLoad_frame ..)
    | with_reducible apply Frame.then_ ?_ (State.stepFatal_frame ..)
    | decide
    | dsimp only
    | split)

end Sys2Proof.Machine
end

