-- ==== Sys2Proof/Laws/FrameProv.lean ====
section
/-! SUPPORT. One frame lemma for every operation of Machine/Prov.lean: the parts of the state that it may change. -/

set_option Elab.async false
set_option linter.unusedTactic false
set_option linter.unreachableTactic false

namespace Sys2Proof.Machine

open Sys2Proof

theorem State.olicoDown_frame (s : State) :
    Frame [.csr] s (State.olicoDown s) := by
  unfold State.olicoDown
  try dsimp only
  repeat' (first
    | with_reducible apply Frame.refl
    | with_reducible assumption
    | with_reducible apply Frame.ite
    | with_reducible apply Frame.then_ ?_ (State.inc_frame ..)
    | with_reducible apply Frame.then_ ?_ (State.wr_frame ..)
    | decide
    | dsimp only
    | split)

theorem State.exportTo_frame (s : State) (who : Nat) (reqId : Nat) (x : ExportItem) :
    Frame [.csr, .haul, .sch, .sent] s (State.exportTo s who reqId x) := by
  unfold State.exportTo
  try dsimp only
  repeat' (first
    | with_reducible apply Frame.refl
    | with_reducible assumption
    | with_reducible apply Frame.ite
    | with_reducible apply Frame.then_ ?_ (State.emit_frame ..)
    | with_reducible apply Frame.then_ ?_ (State.sendFcp_frame ..)
    | decide
    | dsimp only
    | split)

theorem State.streamAll_frame (s : State) (x : ExportItem) :
    Frame [.csr, .haul, .sch, .sent] s (State.streamAll s x) := by
  unfold State.streamAll
  try dsimp only
  repeat' (first
    | with_reducible apply Frame.refl
    | with_reducible assumption
    | with_reducible apply Frame.ite
    | with_reducible apply Frame.then_ ?_ (State.exportTo_frame ..)
    | decide
    | with_reducible apply Frame.foldl_fst
    | with_reducible apply Frame.foldl
    | intro y a b c hy
    | intro y a hy
    | intro y hy
    | dsimp only
    | split)

theorem State.exported_frame (s : State) (x : ExportItem) :
    Frame [.csr, .haul, .sch, .fst, .sent] s (State.exported s x) := by
  unfold State.exported
  try dsimp only
  repeat' (first
    | with_reducible apply Frame.refl
    | with_reducible assumption
    | with_reducible apply Frame.ite
    | with_reducible apply Frame.then_ ?_ (State.streamAll_frame ..)
    | decide
    | dsimp only
    | split
    | (fail_if_no_progress simp only [Frame.mk_eq]; refine Frame.upd ?_))

theorem State.spillCommitted_frame (s : State) (r : SpillRec) : Frame [.csr, .haul, .sch, .rrc, .nv, .sent] s (s.spillCommitted r) := by
  unfold State.spillCommitted
  extract_lets entries
  have h : (s.streamAll (.record r.seq r.encode)).nv = s.nv := (State.streamAll_frame ..).same .nv (by decide)
  refine Frame.then_ ?_ (State.wr_frame ..) (by decide)
  refine Frame.upd (P := [.csr, .haul, .sch, .rrc, .nv, .sent]) ((Frame.refl _ s).then_ (State.streamAll_frame ..) (by decide)) (hn := ?_)
  rw [h]
  exact Nv.risesTo_refl _

theorem State.drainItems_frame (s : State) (a : List ExportItem) :
    Frame [.csr, .haul, .sch, .gen, .fst, .sent] s (State.drainItems s a) := by
  induction a generalizing s with
  | nil =>
    first
      | exact Frame.refl _ _
      | (rw [State.drainItems]
         repeat' (first
           | with_reducible apply Frame.refl
           | with_reducible assumption
           | with_reducible apply Frame.ite
           | with_reducible apply Frame.then_ ?_ (State.count_frame ..)
           | with_reducible apply Frame.then_ ?_ (State.exported_frame ..)
           | decide
           | dsimp only
           | split
           | (fail_if_no_progress simp only [Frame.mk_eq]; refine Frame.upd ?_)))
  | cons b l ih =>
    rw [State.drainItems]
    try dsimp only
    repeat' (first
      | with_reducible apply Frame.refl
      | with_reducible assumption
      | with_reducible apply Frame.ite
      | with_reducible apply Frame.then_ ?_ (ih ..)
      | with_reducible apply Frame.then_ ?_ (State.count_frame ..)
      | with_reducible apply Frame.then_ ?_ (State.exported_frame ..)
      | decide
      | dsimp only
      | split
      | (fail_if_no_progress simp only [Frame.mk_eq]; refine Frame.upd ?_))

theorem State.handItems_frame (s : State) (l : List ExportItem) :
    Frame [.csr, .haul, .sch, .gen, .fst, .sent] s (State.handItems s l) := by
  unfold State.handItems
  try dsimp only
  repeat' (first
    | with_reducible apply Frame.refl
    | with_reducible assumption
    | with_reducible apply Frame.ite
    | with_reducible apply Frame.then_ ?_ (State.drainItems_frame ..)
    | decide
    | dsimp only
    | split)

theorem State.handTags_frame (s : State) (ctx : Nat) (tags : List (List Byte)) :
    Frame [.csr, .haul, .sch, .gen, .fst, .sent] s (State.handTags s ctx tags) := by
  unfold State.handTags
  try dsimp only
  repeat' (first
    | with_reducible apply Frame.refl
    | with_reducible assumption
    | with_reducible apply Frame.ite
    | with_reducible apply Frame.then_ ?_ (State.handItems_frame ..)
    | decide
    | dsimp only
    | split)

theorem State.tagRoom_frame (s : State) (n : Nat) :
    Frame [.csr, .haul, .sch, .gen, .sent] s (State.tagRoom s n) := by
  unfold State.tagRoom
  try dsimp only
  repeat' (first
    | with_reducible apply Frame.refl
    | with_reducible assumption
    | with_reducible apply Frame.ite
    | with_reducible apply Frame.then_ ?_ (State.holdRequest_frame ..)
    | with_reducible apply Frame.then_ ?_ (State.inc_frame ..)
    | with_reducible apply Frame.then_ ?_ (State.wr_frame ..)
    | decide
    | dsimp only
    | split
    | (fail_if_no_progress simp only [Frame.mk_eq]; refine Frame.upd ?_))

theorem State.remark_frame (s : State) :
    Frame [.pln, .gen, .itk] s (State.remark s) := by
  unfold State.remark
  try dsimp only
  repeat' (first
    | with_reducible apply Frame.refl
    | with_reducible assumption
    | with_reducible apply Frame.ite
    | decide
    | dsimp only
    | split
    | (fail_if_no_progress simp only [Frame.mk_eq]; refine Frame.upd ?_))

theorem State.closeSpan_frame (s : State) (c : Nat) (partialSpan : Bool) :
    Frame [.csr, .gen] s (State.closeSpan s c partialSpan) := by
  unfold State.closeSpan
  try dsimp only
  repeat' (first
    | with_reducible apply Frame.refl
    | with_reducible assumption
    | with_reducible apply Frame.ite
    | with_reducible apply Frame.then_ ?_ (State.wr_frame ..)
    | with_reducible apply Frame.then_ ?_ (State.wrAt_frame ..)
    | decide
    | dsimp only
    | split
    | (fail_if_no_progress simp only [Frame.mk_eq]; refine Frame.upd ?_))

theorem State.closeSpans_frame (s : State) :
    Frame [.csr, .gen] s (State.closeSpans s) := by
  unfold State.closeSpans
  try dsimp only
  repeat' (first
    | with_reducible apply Frame.refl
    | with_reducible assumption
    | with_reducible apply Frame.ite
    | with_reducible apply Frame.then_ ?_ (State.closeSpan_frame ..)
    | decide
    | with_reducible apply Frame.foldl_fst
    | with_reducible apply Frame.foldl
    | intro y a b c hy
    | intro y a hy
    | intro y hy
    | dsimp only
    | split)

theorem State.markSpan_frame (s : State) (c : Nat) (target : Nat) :
    Frame [.csr, .gen] s (State.markSpan s c target) := by
  unfold State.markSpan
  try dsimp only
  repeat' (first
    | with_reducible apply Frame.refl
    | with_reducible assumption
    | with_reducible apply Frame.ite
    | with_reducible apply Frame.then_ ?_ (State.closeSpan_frame ..)
    | decide
    | dsimp only
    | split
    | (fail_if_no_progress simp only [Frame.mk_eq]; refine Frame.upd ?_))

theorem State.batchDone_frame (s : State) (c : Nat) (index : Nat) (openAt : Nat) (closeAt : Nat) (opened : Mark)
      (closed : Mark) (root : List Byte) (tags : List (List Byte)) (epochs : List Nat) :
Frame [.csr, .haul, .sch, .gen, .fst, .sent] s (State.batchDone s c index openAt closeAt opened closed root tags
      epochs) := by
  unfold State.batchDone
  extract_lets v0 v1 v2 v3 v4 v5 v6 v7 v8
  have h_v0 : Frame [.csr, .haul, .sch, .gen, .fst, .sent] s v0 := by
    simp only [v0]
    repeat' (first
      | with_reducible apply Frame.refl
      | with_reducible assumption
      | with_reducible apply Frame.ite
      | with_reducible apply Frame.then_ ?_ (State.closeSpan_frame ..)
      | with_reducible apply Frame.then_ ?_ (State.handTags_frame ..)
      | with_reducible apply Frame.then_ ?_ (State.wrAt_frame ..)
      | decide
      | with_reducible apply Frame.foldl_fst
      | with_reducible apply Frame.foldl
      | intro y a b c hy
      | intro y a hy
      | intro y hy
      | dsimp only
      | split
      | (fail_if_no_progress simp only [Frame.mk_eq]; refine Frame.upd ?_))
  clear_value v0
  clear_value v1
  have h_v2 : Frame [.csr, .haul, .sch, .gen, .fst, .sent] s v2 := by
    simp only [v2]
    repeat' (first
      | with_reducible apply Frame.refl
      | with_reducible assumption
      | with_reducible apply Frame.ite
      | with_reducible apply Frame.then_ ?_ (State.closeSpan_frame ..)
      | with_reducible apply Frame.then_ ?_ (State.handTags_frame ..)
      | with_reducible apply Frame.then_ ?_ (State.wrAt_frame ..)
      | decide
      | with_reducible apply Frame.foldl_fst
      | with_reducible apply Frame.foldl
      | intro y a b c hy
      | intro y a hy
      | intro y hy
      | dsimp only
      | split
      | (fail_if_no_progress simp only [Frame.mk_eq]; refine Frame.upd ?_))
  clear_value v2
  clear_value v3
  clear_value v4
  clear_value v5
  clear_value v6
  have h_v7 : Frame [.csr, .haul, .sch, .gen, .fst, .sent] s v7 := by
    simp only [v7]
    repeat' (first
      | with_reducible apply Frame.refl
      | with_reducible assumption
      | with_reducible apply Frame.ite
      | with_reducible apply Frame.then_ ?_ (State.closeSpan_frame ..)
      | with_reducible apply Frame.then_ ?_ (State.handTags_frame ..)
      | with_reducible apply Frame.then_ ?_ (State.wrAt_frame ..)
      | decide
      | with_reducible apply Frame.foldl_fst
      | with_reducible apply Frame.foldl
      | intro y a b c hy
      | intro y a hy
      | intro y hy
      | dsimp only
      | split
      | (fail_if_no_progress simp only [Frame.mk_eq]; refine Frame.upd ?_))
  clear_value v7
  clear_value v8
  repeat' (first
    | with_reducible apply Frame.refl
    | with_reducible assumption
    | with_reducible apply Frame.ite
    | with_reducible apply Frame.then_ ?_ (State.closeSpan_frame ..)
    | with_reducible apply Frame.then_ ?_ (State.handTags_frame ..)
    | with_reducible apply Frame.then_ ?_ (State.wrAt_frame ..)
    | decide
    | with_reducible apply Frame.foldl_fst
    | with_reducible apply Frame.foldl
    | intro y a b c hy
    | intro y a hy
    | intro y hy
    | dsimp only
    | split
    | (fail_if_no_progress simp only [Frame.mk_eq]; refine Frame.upd ?_))

theorem State.choice_frame (s : State) (f : Field) :
    Frame [.csr] s (State.choice s f) := by
  unfold State.choice
  try dsimp only
  repeat' (first
    | with_reducible apply Frame.refl
    | with_reducible assumption
    | with_reducible apply Frame.ite
    | with_reducible apply Frame.then_ ?_ (State.inc_frame ..)
    | with_reducible apply Frame.then_ ?_ (State.wr_frame ..)
    | decide
    | dsimp only
    | split)

theorem State.refuseMode_frame (s : State) :
    Frame [.csr] s (State.refuseMode s) := by
  unfold State.refuseMode
  try dsimp only
  repeat' (first
    | with_reducible apply Frame.refl
    | with_reducible assumption
    | with_reducible apply Frame.ite
    | with_reducible apply Frame.then_ ?_ (State.wr_frame ..)
    | decide
    | dsimp only
    | split)

theorem State.armMode_frame (s : State) :
    Frame [.csr, .gen] s (State.armMode s) := by
  unfold State.armMode
  try dsimp only
  repeat' (first
    | with_reducible apply Frame.refl
    | with_reducible assumption
    | with_reducible apply Frame.ite
    | with_reducible apply Frame.then_ ?_ (State.wr_frame ..)
    | decide
    | dsimp only
    | split
    | (fail_if_no_progress simp only [Frame.mk_eq]; refine Frame.upd ?_))

theorem execGenModeArm_frame (s : State) :
Frames [.csr, .pwr, .haul, .sch, .pln, .top, .olc, .gen, .wgt, .bench, .flt, .rrc, .obs, .sent, .fresh] s
      (execGenModeArm s) := by
  unfold execGenModeArm
  try dsimp only
  repeat' (first
    | with_reducible apply Frame.refl
    | with_reducible assumption
    | with_reducible apply Frames.next
    | with_reducible apply Frames.fault
    | with_reducible apply Frames.refused
    | with_reducible apply Frame.ite
    | with_reducible apply Frames.ite
    | with_reducible apply State.armChange_frame
    | with_reducible apply Frame.then_ ?_ (State.armMode_frame ..)
    | with_reducible apply Frame.then_ ?_ (State.refuseMode_frame ..)
    | decide
    | intro y a b c hy
    | intro y a hy
    | intro y hy
    | dsimp only
    | split)

theorem State.modeSpans_frame (s : State) :
    Frame [.csr, .gen] s (State.modeSpans s) := by
  unfold State.modeSpans
  try dsimp only
  repeat' (first
    | with_reducible apply Frame.refl
    | with_reducible assumption
    | with_reducible apply Frame.ite
    | with_reducible apply Frame.then_ ?_ (State.markSpan_frame ..)
    | decide
    | with_reducible apply Frame.foldl_fst
    | with_reducible apply Frame.foldl
    | intro y a b c hy
    | intro y a hy
    | intro y hy
    | dsimp only
    | split)

theorem execGenModeDisarm_frame (s : State) :
    Frames [.csr, .olc] s (execGenModeDisarm s) := by
  unfold execGenModeDisarm
  try dsimp only
  repeat' (first
    | with_reducible apply Frame.refl
    | with_reducible assumption
    | with_reducible apply Frames.next
    | with_reducible apply Frames.fault
    | with_reducible apply Frames.refused
    | with_reducible apply Frame.ite
    | with_reducible apply Frames.ite
    | with_reducible apply Frame.then_ ?_ (State.dropChange_frame ..)
    | with_reducible apply Frame.then_ ?_ (State.wr_frame ..)
    | decide
    | dsimp only
    | split)

theorem execModeChangeEffect_frame (s : State) :
Frames [.csr, .pwr, .haul, .sch, .pln, .top, .olc, .gen, .wgt, .bench, .itk, .flt, .rrc, .obs, .sent, .fresh] s
      (execModeChangeEffect s) := by
  unfold execModeChangeEffect
  try dsimp only
  repeat' (first
    | with_reducible apply Frame.refl
    | with_reducible assumption
    | with_reducible apply Frames.next
    | with_reducible apply Frames.fault
    | with_reducible apply Frames.refused
    | with_reducible apply Frame.ite
    | with_reducible apply Frames.ite
    | with_reducible apply Frame.then_ ?_ (State.cannotApply_frame ..)
    | with_reducible apply Frame.then_ ?_ (State.changeApplied_frame ..)
    | with_reducible apply Frame.then_ ?_ (State.fixedRefresh_frame ..)
    | with_reducible apply Frame.then_ ?_ (State.modeSpans_frame ..)
    | with_reducible apply Frame.then_ ?_ (State.refuseMode_frame ..)
    | with_reducible apply Frame.then_ ?_ (State.remark_frame ..)
    | with_reducible apply Frame.then_ ?_ (State.wr_frame ..)
    | decide
    | dsimp only
    | split)

theorem execSealSigned_frame (s : State) :
    Frames [.csr, .haul, .sch, .gen, .fst, .sent] s (execSealSigned s) := by
  unfold execSealSigned
  try dsimp only
  repeat' (first
    | with_reducible apply Frame.refl
    | with_reducible assumption
    | with_reducible apply Frames.next
    | with_reducible apply Frames.fault
    | with_reducible apply Frames.refused
    | with_reducible apply Frame.ite
    | with_reducible apply Frames.ite
    | with_reducible apply Frame.then_ ?_ (State.exported_frame ..)
    | with_reducible apply Frame.then_ ?_ (State.handItems_frame ..)
    | decide
    | dsimp only
    | split
    | (fail_if_no_progress simp only [Frame.mk_eq]; refine Frame.upd ?_))

theorem execSealCloseNow_frame (s : State) :
    Frames [.csr, .gen] s (execSealCloseNow s) := by
  unfold execSealCloseNow
  try dsimp only
  repeat' (first
    | with_reducible apply Frame.refl
    | with_reducible assumption
    | with_reducible apply Frames.next
    | with_reducible apply Frames.fault
    | with_reducible apply Frames.refused
    | with_reducible apply Frame.ite
    | with_reducible apply Frames.ite
    | with_reducible apply Frame.then_ ?_ (State.markSpan_frame ..)
    | decide
    | dsimp only
    | split)

end Sys2Proof.Machine
end

