-- ==== Sys2Proof/Laws/FrameIntake.lean ====
section
/-! SUPPORT. One frame lemma for every operation of Machine/Intake.lean: the parts of the state that it may change. -/

set_option Elab.async false
set_option linter.unusedTactic false
set_option linter.unreachableTactic false

namespace Sys2Proof.Machine

open Sys2Proof

theorem State.showRun_frame (s : State) (c : Nat) (r : IntakeRun) :
    Frame [.csr] s (State.showRun s c r) := by
  unfold State.showRun
  extract_lets v0 v1 v2
  clear_value v0
  have h_v1 : Frame [.csr] s v1 := by
    simp only [v1]
    repeat' (first
      | with_reducible apply Frame.refl
      | with_reducible assumption
      | with_reducible apply Frame.ite
      | with_reducible apply Frame.then_ ?_ (State.wrAt_frame ..)
      | decide
      | dsimp only
      | split)
  clear_value v1
  have h_v2 : Frame [.csr] s v2 := by
    simp only [v2]
    repeat' (first
      | with_reducible apply Frame.refl
      | with_reducible assumption
      | with_reducible apply Frame.ite
      | with_reducible apply Frame.then_ ?_ (State.wrAt_frame ..)
      | decide
      | dsimp only
      | split)
  clear_value v2
  repeat' (first
    | with_reducible apply Frame.refl
    | with_reducible assumption
    | with_reducible apply Frame.ite
    | with_reducible apply Frame.then_ ?_ (State.wrAt_frame ..)
    | decide
    | dsimp only
    | split)

theorem State.setRun_frame (s : State) (c : Nat) (r : IntakeRun) :
    Frame [.csr, .itk] s (State.setRun s c r) := by
  unfold State.setRun
  try dsimp only
  repeat' (first
    | with_reducible apply Frame.refl
    | with_reducible assumption
    | with_reducible apply Frame.ite
    | with_reducible apply Frame.then_ ?_ (State.showRun_frame ..)
    | decide
    | dsimp only
    | split
    | (fail_if_no_progress simp only [Frame.mk_eq]; refine Frame.upd ?_))

theorem State.arrive_frame (s : State) (c : Nat) (reqs : List Request) :
    Frame [.csr, .itk] s (State.arrive s c reqs) := by
  unfold State.arrive
  try dsimp only
  repeat' (first
    | with_reducible apply Frame.refl
    | with_reducible assumption
    | with_reducible apply Frame.ite
    | with_reducible apply Frame.then_ ?_ (State.addAt_frame ..)
    | with_reducible apply Frame.then_ ?_ (State.setRun_frame ..)
    | decide
    | dsimp only
    | split)

theorem State.putFrame_frame (s : State) (port : Nat) (f : List Byte) :
    Frame [.sent] s (State.putFrame s port f) := by
  unfold State.putFrame
  try dsimp only
  repeat' (first
    | with_reducible apply Frame.refl
    | with_reducible assumption
    | with_reducible apply Frame.ite
    | with_reducible apply Frame.then_ ?_ (State.emit_frame ..)
    | decide
    | dsimp only
    | split)

theorem State.sendFrame_frame (s : State) (port : Nat) (c : Nat) (recs : List (List Byte)) :
    Frame [.csr, .itk, .sent] s (State.sendFrame s port c recs) := by
  unfold State.sendFrame
  try dsimp only
  repeat' (first
    | with_reducible apply Frame.refl
    | with_reducible assumption
    | with_reducible apply Frame.ite
    | with_reducible apply Frame.then_ ?_ (State.count_frame ..)
    | with_reducible apply Frame.then_ ?_ (State.putFrame_frame ..)
    | decide
    | dsimp only
    | split
    | (fail_if_no_progress simp only [Frame.mk_eq]; refine Frame.upd ?_))

theorem State.olicoLost_frame (s : State) :
    Frame [.csr] s (State.olicoLost s) := by
  unfold State.olicoLost
  try dsimp only
  repeat' (first
    | with_reducible apply Frame.refl
    | with_reducible assumption
    | with_reducible apply Frame.ite
    | with_reducible apply Frame.then_ ?_ (State.inc_frame ..)
    | decide
    | dsimp only
    | split)

theorem State.dieReads_frame (s : State) (n : Nat) :
    Frame [.csr, .fresh] s (State.dieReads s n) := by
  unfold State.dieReads
  try dsimp only
  repeat' (first
    | with_reducible apply Frame.refl
    | with_reducible assumption
    | with_reducible apply Frame.ite
    | with_reducible apply Frame.then_ ?_ (State.addAt_frame ..)
    | with_reducible apply Frame.then_ ?_ (State.count_frame ..)
    | with_reducible apply Frame.then_ ?_ (State.drawn_frame ..)
    | decide
    | dsimp only
    | split)

theorem State.ringReply_frame (s : State) (e : IntakeEntry) (bytes : List Byte) :
    Frame [.csr, .mem] s (State.ringReply s e bytes) := by
  unfold State.ringReply
  try dsimp only
  repeat' (first
    | with_reducible apply Frame.refl
    | with_reducible assumption
    | with_reducible apply Frame.ite
    | with_reducible apply Frame.then_ ?_ (State.count_frame ..)
    | with_reducible apply Frame.then_ ?_ (State.incAt_frame ..)
    | with_reducible apply Frame.then_ ?_ (State.olicoLost_frame ..)
    | with_reducible apply Frame.then_ ?_ (State.setBytes_frame ..)
    | with_reducible apply Frame.then_ ?_ (State.wr_frame ..)
    | with_reducible apply Frame.then_ ?_ (State.wrAt_frame ..)
    | decide
    | dsimp only
    | split)

theorem State.answerNow_frame (s : State) (e : IntakeEntry) (q : Request) (a : Reply) :
    Frame [.csr, .mem, .itk, .sent] s (State.answerNow s e q a) := by
  unfold State.answerNow
  try dsimp only
  repeat' (first
    | with_reducible apply Frame.refl
    | with_reducible assumption
    | with_reducible apply Frame.ite
    | with_reducible apply Frame.then_ ?_ (State.ringReply_frame ..)
    | with_reducible apply Frame.then_ ?_ (State.sendFrame_frame ..)
    | decide
    | dsimp only
    | split)

theorem State.writeCells_frame (s : State) (e : IntakeEntry) (w : WindowRec) :
    Frame [.mem] s (State.writeCells s e w) := by
  unfold State.writeCells
  try dsimp only
  repeat' (first
    | with_reducible apply Frame.refl
    | with_reducible assumption
    | with_reducible apply Frame.ite
    | with_reducible apply Frame.then_ ?_ (State.setBytes_frame ..)
    | decide
    | with_reducible apply Frame.foldl_fst
    | with_reducible apply Frame.foldl
    | intro y a b c hy
    | intro y a hy
    | intro y hy
    | dsimp only
    | split)

theorem State.countRefusals_frame (s : State) (c : Nat) (l : List (Request × Nat)) :
    Frame [.csr] s (State.countRefusals s c l) := by
  unfold State.countRefusals
  extract_lets v0 v1 v2
  clear_value v0
  have h_v1 : Frame [.csr] s v1 := by
    simp only [v1]
    repeat' (first
      | with_reducible apply Frame.refl
      | with_reducible assumption
      | with_reducible apply Frame.ite
      | with_reducible apply Frame.then_ ?_ (State.addAt_frame ..)
      | with_reducible apply Frame.then_ ?_ (State.wr_frame ..)
      | decide
      | dsimp only
      | split)
  clear_value v1
  have h_v2 : Frame [.csr] s v2 := by
    simp only [v2]
    repeat' (first
      | with_reducible apply Frame.refl
      | with_reducible assumption
      | with_reducible apply Frame.ite
      | with_reducible apply Frame.then_ ?_ (State.addAt_frame ..)
      | with_reducible apply Frame.then_ ?_ (State.wr_frame ..)
      | decide
      | dsimp only
      | split)
  clear_value v2
  repeat' (first
    | with_reducible apply Frame.refl
    | with_reducible assumption
    | with_reducible apply Frame.ite
    | with_reducible apply Frame.then_ ?_ (State.addAt_frame ..)
    | with_reducible apply Frame.then_ ?_ (State.wr_frame ..)
    | decide
    | dsimp only
    | split)

theorem State.closeWindow_frame (s : State) (e : IntakeEntry) (r : IntakeRun) :
    Frame [.csr, .mem, .itk, .obs, .fresh] s (State.closeWindow s e r) := by
  unfold State.closeWindow
  try dsimp only
  repeat' (first
    | with_reducible apply Frame.refl
    | with_reducible assumption
    | with_reducible apply Frame.ite
    | with_reducible apply Frame.then_ ?_ (State.addAt_frame ..)
    | with_reducible apply Frame.then_ ?_ (State.choice_frame ..)
    | with_reducible apply Frame.then_ ?_ (State.count_frame ..)
    | with_reducible apply Frame.then_ ?_ (State.countRefusals_frame ..)
    | with_reducible apply Frame.then_ ?_ (State.setRun_frame ..)
    | with_reducible apply Frame.then_ ?_ (State.trace_frame ..)
    | with_reducible apply Frame.then_ ?_ (State.writeCells_frame ..)
    | decide
    | with_reducible apply Frame.foldl_fst
    | with_reducible apply Frame.foldl
    | intro y a b c hy
    | intro y a hy
    | intro y hy
    | dsimp only
    | split)

theorem State.closeIntake_frame (s : State) (c : Nat) :
    Frame [.csr, .mem, .itk, .sent] s (State.closeIntake s c) := by
  unfold State.closeIntake
  try dsimp only
  repeat' (first
    | with_reducible apply Frame.refl
    | with_reducible assumption
    | with_reducible apply Frame.ite
    | with_reducible apply Frame.then_ ?_ (State.addAt_frame ..)
    | with_reducible apply Frame.then_ ?_ (State.answerNow_frame ..)
    | with_reducible apply Frame.then_ ?_ (State.setRun_frame ..)
    | decide
    | with_reducible apply Frame.foldl_fst
    | with_reducible apply Frame.foldl
    | intro y a b c hy
    | intro y a hy
    | intro y hy
    | dsimp only
    | split)

theorem State.closeIntakes_frame (s : State) :
    Frame [.csr, .mem, .itk, .sent] s (State.closeIntakes s) := by
  unfold State.closeIntakes
  try dsimp only
  repeat' (first
    | with_reducible apply Frame.refl
    | with_reducible assumption
    | with_reducible apply Frame.ite
    | with_reducible apply Frame.then_ ?_ (State.closeIntake_frame ..)
    | decide
    | with_reducible apply Frame.foldl_fst
    | with_reducible apply Frame.foldl
    | intro y a b c hy
    | intro y a hy
    | intro y hy
    | dsimp only
    | split)

theorem State.closeIntakeAt_frame (s : State) (c : Nat) (x : Nat) :
    Frame [.csr, .itk] s (State.closeIntakeAt s c x) := by
  unfold State.closeIntakeAt
  try dsimp only
  repeat' (first
    | with_reducible apply Frame.refl
    | with_reducible assumption
    | with_reducible apply Frame.ite
    | with_reducible apply Frame.then_ ?_ (State.setRun_frame ..)
    | decide
    | dsimp only
    | split)

theorem State.closedDrop_frame (s : State) (n : Nat) :
    Frame [.csr] s (State.closedDrop s n) := by
  unfold State.closedDrop
  try dsimp only
  repeat' (first
    | with_reducible apply Frame.refl
    | with_reducible assumption
    | with_reducible apply Frame.ite
    | with_reducible apply Frame.then_ ?_ (State.incAt_frame ..)
    | with_reducible apply Frame.then_ ?_ (State.wr_frame ..)
    | decide
    | dsimp only
    | split)

theorem State.headerDrop_frame (s : State) (n : Nat) :
    Frame [.csr] s (State.headerDrop s n) := by
  unfold State.headerDrop
  try dsimp only
  repeat' (first
    | with_reducible apply Frame.refl
    | with_reducible assumption
    | with_reducible apply Frame.ite
    | with_reducible apply Frame.then_ ?_ (State.incAt_frame ..)
    | with_reducible apply Frame.then_ ?_ (State.wr_frame ..)
    | decide
    | dsimp only
    | split)

theorem State.takeFrame_frame (s : State) (n : Nat) (l : List Byte) (tally : Nat) (sixteenth : Nat) :
    Frame [.csr, .itk] s (State.takeFrame s n l tally sixteenth) := by
  unfold State.takeFrame
  try dsimp only
  repeat' (first
    | with_reducible apply Frame.refl
    | with_reducible assumption
    | with_reducible apply Frame.ite
    | with_reducible apply Frame.then_ ?_ (State.arrive_frame ..)
    | with_reducible apply Frame.then_ ?_ (State.closedDrop_frame ..)
    | with_reducible apply Frame.then_ ?_ (State.count_frame ..)
    | with_reducible apply Frame.then_ ?_ (State.headerDrop_frame ..)
    | with_reducible apply Frame.then_ ?_ (State.incAt_frame ..)
    | decide
    | dsimp only
    | split)

theorem execIntakeFrameReceived_frame (port : Fin 2) (frame : List Byte) (fcsOk : Bool) (tally : Nat) (sixteenth :
      Fin 16) (s : State) :
    Frames [.csr, .itk] s (execIntakeFrameReceived port frame fcsOk tally sixteenth s) := by
  unfold execIntakeFrameReceived
  try dsimp only
  repeat' (first
    | with_reducible apply Frame.refl
    | with_reducible assumption
    | with_reducible apply Frames.next
    | with_reducible apply Frames.fault
    | with_reducible apply Frames.refused
    | with_reducible apply Frame.ite
    | with_reducible apply Frames.ite
    | with_reducible apply Frame.then_ ?_ (State.incAt_frame ..)
    | with_reducible apply Frame.then_ ?_ (State.takeFrame_frame ..)
    | with_reducible apply Frame.then_ ?_ (State.wr_frame ..)
    | decide
    | dsimp only
    | split)

theorem execIngestLinkUp_frame (port : Fin 2) (s : State) :
    Frames [.csr] s (execIngestLinkUp port s) := by
  unfold execIngestLinkUp
  try dsimp only
  repeat' (first
    | with_reducible apply Frame.refl
    | with_reducible assumption
    | with_reducible apply Frames.next
    | with_reducible apply Frames.fault
    | with_reducible apply Frames.refused
    | with_reducible apply Frame.ite
    | with_reducible apply Frames.ite
    | with_reducible apply Frame.then_ ?_ (State.wrAt_frame ..)
    | decide
    | dsimp only
    | split)

theorem execIngestLinkDown_frame (port : Fin 2) (s : State) :
    Frames [.csr] s (execIngestLinkDown port s) := by
  unfold execIngestLinkDown
  try dsimp only
  repeat' (first
    | with_reducible apply Frame.refl
    | with_reducible assumption
    | with_reducible apply Frames.next
    | with_reducible apply Frames.fault
    | with_reducible apply Frames.refused
    | with_reducible apply Frame.ite
    | with_reducible apply Frames.ite
    | with_reducible apply Frame.then_ ?_ (State.wrAt_frame ..)
    | decide
    | dsimp only
    | split)

theorem State.ringTake_frame (s : State) (e : IntakeEntry) (cons : Nat) (a : Nat) :
    Frame [.csr, .itk] s (State.ringTake s e cons a) := by
  induction a generalizing s e cons with
  | zero =>
    first
      | exact Frame.refl _ _
      | (rw [State.ringTake]
         repeat' (first
           | with_reducible apply Frame.refl
           | with_reducible assumption
           | with_reducible apply Frame.ite
           | with_reducible apply Frame.then_ ?_ (State.arrive_frame ..)
           | decide
           | dsimp only
           | split))
  | succ m ih =>
    rw [State.ringTake]
    try dsimp only
    repeat' (first
      | with_reducible apply Frame.refl
      | with_reducible assumption
      | with_reducible apply Frame.ite
      | with_reducible apply Frame.then_ ?_ (ih ..)
      | with_reducible apply Frame.then_ ?_ (State.arrive_frame ..)
      | decide
      | dsimp only
      | split)

theorem execIntakeBeatRingRead_frame (ctx : Fin 16) (s : State) :
    Frames [.csr, .mem, .pwr, .itk, .flt, .rrc, .obs, .fresh] s (execIntakeBeatRingRead ctx s) := by
  unfold execIntakeBeatRingRead
  try dsimp only
  repeat' (first
    | with_reducible apply Frame.refl
    | with_reducible assumption
    | with_reducible apply Frames.next
    | with_reducible apply Frames.fault
    | with_reducible apply Frames.refused
    | with_reducible apply Frame.ite
    | with_reducible apply Frames.ite
    | with_reducible apply Frame.then_ ?_ (State.contained_frame ..)
    | with_reducible apply Frame.then_ ?_ (State.dieReads_frame ..)
    | with_reducible apply Frame.then_ ?_ (State.olicoLost_frame ..)
    | with_reducible apply Frame.then_ ?_ (State.ringTake_frame ..)
    | with_reducible apply Frame.then_ ?_ (State.setBytes_frame ..)
    | with_reducible apply Frame.then_ ?_ (State.wr_frame ..)
    | with_reducible apply Frame.then_ ?_ (State.wrAt_frame ..)
    | decide
    | dsimp only
    | split)

theorem execItkRingReset_frame (ctx : Fin 16) (s : State) :
    Frames [.csr, .fresh] s (execItkRingReset ctx s) := by
  unfold execItkRingReset
  try dsimp only
  repeat' (first
    | with_reducible apply Frame.refl
    | with_reducible assumption
    | with_reducible apply Frames.next
    | with_reducible apply Frames.fault
    | with_reducible apply Frames.refused
    | with_reducible apply Frame.ite
    | with_reducible apply Frames.ite
    | with_reducible apply Frame.then_ ?_ (State.dieReads_frame ..)
    | with_reducible apply Frame.then_ ?_ (State.olicoLost_frame ..)
    | with_reducible apply Frame.then_ ?_ (State.wrAt_frame ..)
    | decide
    | dsimp only
    | split)

theorem State.putWindow_frame (s : State) (e : IntakeEntry) (r : IntakeRun) (w : WindowRec) :
    Frame [.csr, .itk] s (State.putWindow s e r w) := by
  unfold State.putWindow
  try dsimp only
  repeat' (first
    | with_reducible apply Frame.refl
    | with_reducible assumption
    | with_reducible apply Frame.ite
    | with_reducible apply Frame.then_ ?_ (State.setRun_frame ..)
    | decide
    | dsimp only
    | split)

theorem State.startTakeover_frame (s : State) :
    Frame [.csr, .twn] s (State.startTakeover s) := by
  unfold State.startTakeover
  try dsimp only
  repeat' (first
    | with_reducible apply Frame.refl
    | with_reducible assumption
    | with_reducible apply Frame.ite
    | with_reducible apply Frame.then_ ?_ (State.addAt_frame ..)
    | decide
    | dsimp only
    | split
    | (fail_if_no_progress simp only [Frame.mk_eq]; refine Frame.upd ?_))

theorem State.partnerLost_frame (s : State) :
    Frame [.csr, .twn] s (State.partnerLost s) := by
  unfold State.partnerLost
  try dsimp only
  repeat' (first
    | with_reducible apply Frame.refl
    | with_reducible assumption
    | with_reducible apply Frame.ite
    | with_reducible apply Frame.then_ ?_ (State.startTakeover_frame ..)
    | with_reducible apply Frame.then_ ?_ (State.wr_frame ..)
    | decide
    | dsimp only
    | split
    | (fail_if_no_progress simp only [Frame.mk_eq]; refine Frame.upd ?_))

theorem State.twinCheckFailed_frame (s : State) (e : IntakeEntry) (r : IntakeRun) (w : WindowRec) :
    Frame [.csr, .haul, .sch, .itk, .twn, .sent] s (State.twinCheckFailed s e r w) := by
  unfold State.twinCheckFailed
  try dsimp only
  repeat' (first
    | with_reducible apply Frame.refl
    | with_reducible assumption
    | with_reducible apply Frame.ite
    | with_reducible apply Frame.then_ ?_ (State.holdRequest_frame ..)
    | with_reducible apply Frame.then_ ?_ (State.inc_frame ..)
    | with_reducible apply Frame.then_ ?_ (State.partnerLost_frame ..)
    | with_reducible apply Frame.then_ ?_ (State.setRun_frame ..)
    | with_reducible apply Frame.then_ ?_ (State.wr_frame ..)
    | decide
    | dsimp only
    | split)

end Sys2Proof.Machine
end

