-- ==== Sys2Proof/Laws/FrameEnergy.lean ====
section
/-! SUPPORT. One frame lemma for every operation of Machine/Energy.lean: the parts of the state that it may change. -/

set_option Elab.async false
set_option linter.unusedTactic false
set_option linter.unreachableTactic false

namespace Sys2Proof.Machine

open Sys2Proof

theorem State.showLevel_frame (s : State) :
    Frame [.csr] s (State.showLevel s) := by
  unfold State.showLevel
  try dsimp only
  repeat' (first
    | with_reducible apply Frame.refl
    | with_reducible assumption
    | with_reducible apply Frame.ite
    | with_reducible apply Frame.then_ ?_ (State.wr_frame ..)
    | decide
    | dsimp only
    | split)

theorem State.refreshTaper_frame (s : State) :
    Frame [.csr] s (State.refreshTaper s) := by
  unfold State.refreshTaper
  try dsimp only
  repeat' (first
    | with_reducible apply Frame.refl
    | with_reducible assumption
    | with_reducible apply Frame.ite
    | with_reducible apply Frame.then_ ?_ (State.wr_frame ..)
    | decide
    | dsimp only
    | split)

theorem State.startTaper_frame (s : State) (w : Nat) :
    Frame [.csr, .pwr] s (State.startTaper s w) := by
  unfold State.startTaper
  try dsimp only
  repeat' (first
    | with_reducible apply Frame.refl
    | with_reducible assumption
    | with_reducible apply Frame.ite
    | with_reducible apply Frame.then_ ?_ (State.inc_frame ..)
    | with_reducible apply Frame.then_ ?_ (State.wr_frame ..)
    | decide
    | dsimp only
    | split
    | (fail_if_no_progress simp only [Frame.mk_eq]; refine Frame.upd ?_))

theorem State.stepTapers_frame (s : State) :
    Frame [.pwr] s (State.stepTapers s) := by
  unfold State.stepTapers
  try dsimp only
  repeat' (first
    | with_reducible apply Frame.refl
    | with_reducible assumption
    | with_reducible apply Frame.ite
    | decide
    | dsimp only
    | split
    | (fail_if_no_progress simp only [Frame.mk_eq]; refine Frame.upd ?_))

theorem State.rampFloor_frame (s : State) (c : Nat) :
    Frame [.pwr] s (State.rampFloor s c) := by
  unfold State.rampFloor
  try dsimp only
  repeat' (first
    | with_reducible apply Frame.refl
    | with_reducible assumption
    | with_reducible apply Frame.ite
    | decide
    | dsimp only
    | split
    | (fail_if_no_progress simp only [Frame.mk_eq]; refine Frame.upd ?_))

theorem State.showFill_frame (s : State) :
    Frame [.csr] s (State.showFill s) := by
  unfold State.showFill
  try dsimp only
  repeat' (first
    | with_reducible apply Frame.refl
    | with_reducible assumption
    | with_reducible apply Frame.ite
    | with_reducible apply Frame.then_ ?_ (State.wr_frame ..)
    | decide
    | dsimp only
    | split)

theorem State.noteShares_frame (s : State) :
    Frame [.pwr] s (State.noteShares s) := by
  unfold State.noteShares
  try dsimp only
  repeat' (first
    | with_reducible apply Frame.refl
    | with_reducible assumption
    | with_reducible apply Frame.ite
    | decide
    | dsimp only
    | split
    | (fail_if_no_progress simp only [Frame.mk_eq]; refine Frame.upd ?_))

theorem State.endFill_frame (s : State) :
    Frame [.csr, .pwr] s (State.endFill s) := by
  unfold State.endFill
  try dsimp only
  repeat' (first
    | with_reducible apply Frame.refl
    | with_reducible assumption
    | with_reducible apply Frame.ite
    | with_reducible apply Frame.then_ ?_ (State.showFill_frame ..)
    | decide
    | dsimp only
    | split
    | (fail_if_no_progress simp only [Frame.mk_eq]; refine Frame.upd ?_))

theorem State.fillRegion_frame (s : State) (r : Nat) (activity : Nat) :
    Frame [.pwr] s (State.fillRegion s r activity) := by
  unfold State.fillRegion
  try dsimp only
  repeat' (first
    | with_reducible apply Frame.refl
    | with_reducible assumption
    | with_reducible apply Frame.ite
    | decide
    | dsimp only
    | split
    | (fail_if_no_progress simp only [Frame.mk_eq]; refine Frame.upd ?_))

theorem State.sampleInput_frame (s : State) (mv : Nat) :
    Frame [.csr] s (State.sampleInput s mv) := by
  unfold State.sampleInput
  extract_lets v0 v1
  have h_v0 : Frame [.csr] s v0 := by
    simp only [v0]
    repeat' (first
      | with_reducible apply Frame.refl
      | with_reducible assumption
      | with_reducible apply Frame.ite
      | with_reducible apply Frame.then_ ?_ (State.wr_frame ..)
      | decide
      | dsimp only
      | split)
  clear_value v0
  have h_v1 : Frame [.csr] s v1 := by
    simp only [v1]
    repeat' (first
      | with_reducible apply Frame.refl
      | with_reducible assumption
      | with_reducible apply Frame.ite
      | with_reducible apply Frame.then_ ?_ (State.wr_frame ..)
      | decide
      | dsimp only
      | split)
  clear_value v1
  repeat' (first
    | with_reducible apply Frame.refl
    | with_reducible assumption
    | with_reducible apply Frame.ite
    | with_reducible apply Frame.then_ ?_ (State.wr_frame ..)
    | decide
    | dsimp only
    | split)

theorem State.sampleCurrent_frame (s : State) (current : Nat) :
    Frame [.csr] s (State.sampleCurrent s current) := by
  unfold State.sampleCurrent
  extract_lets v0 v1 v2
  clear_value v0
  have h_v1 : Frame [.csr] s v1 := by
    simp only [v1]
    repeat' (first
      | with_reducible apply Frame.refl
      | with_reducible assumption
      | with_reducible apply Frame.ite
      | with_reducible apply Frame.then_ ?_ (State.wr_frame ..)
      | decide
      | dsimp only
      | split)
  clear_value v1
  have h_v2 : Frame [.csr] s v2 := by
    simp only [v2]
    repeat' (first
      | with_reducible apply Frame.refl
      | with_reducible assumption
      | with_reducible apply Frame.ite
      | with_reducible apply Frame.then_ ?_ (State.wr_frame ..)
      | decide
      | dsimp only
      | split)
  clear_value v2
  repeat' (first
    | with_reducible apply Frame.refl
    | with_reducible assumption
    | with_reducible apply Frame.ite
    | with_reducible apply Frame.then_ ?_ (State.wr_frame ..)
    | decide
    | dsimp only
    | split)

theorem State.setBand_frame (s : State) (b : Nat) :
    Frame [.csr] s (State.setBand s b) := by
  unfold State.setBand
  try dsimp only
  repeat' (first
    | with_reducible apply Frame.refl
    | with_reducible assumption
    | with_reducible apply Frame.ite
    | with_reducible apply Frame.then_ ?_ (State.wr_frame ..)
    | decide
    | dsimp only
    | split)

theorem State.enterLow_frame (s : State) (mv : Nat) :
    Frame [.csr, .pwr, .rrc, .obs, .fresh] s (State.enterLow s mv) := by
  unfold State.enterLow
  try dsimp only
  repeat' (first
    | with_reducible apply Frame.refl
    | with_reducible assumption
    | with_reducible apply Frame.ite
    | with_reducible apply Frame.then_ ?_ (State.notice_frame ..)
    | with_reducible apply Frame.then_ ?_ (State.setBand_frame ..)
    | decide
    | dsimp only
    | split)

theorem State.refreshInhibit_frame (s : State) :
    Frame [.csr, .pwr] s (State.refreshInhibit s) := by
  unfold State.refreshInhibit
  try dsimp only
  repeat' (first
    | with_reducible apply Frame.refl
    | with_reducible assumption
    | with_reducible apply Frame.ite
    | with_reducible apply Frame.then_ ?_ (State.resumeSpill_frame ..)
    | with_reducible apply Frame.then_ ?_ (State.wr_frame ..)
    | decide
    | dsimp only
    | split)

theorem State.holdupTested_frame (s : State) (mj : Nat) :
    Frame [.csr, .pwr, .rrc, .obs, .fresh] s (State.holdupTested s mj) := by
  unfold State.holdupTested
  try dsimp only
  repeat' (first
    | with_reducible apply Frame.refl
    | with_reducible assumption
    | with_reducible apply Frame.ite
    | with_reducible apply Frame.then_ ?_ (State.fault_frame ..)
    | with_reducible apply Frame.then_ ?_ (State.resumeSpill_frame ..)
    | with_reducible apply Frame.then_ ?_ (State.wr_frame ..)
    | decide
    | dsimp only
    | split)

end Sys2Proof.Machine
end

