-- ==== Sys2Proof/Laws/FrameSpace.lean ====
section
/-! SUPPORT. One frame lemma for every operation of Machine/Space.lean: the parts of the state that it may change. -/

set_option Elab.async false
set_option linter.unusedTactic false
set_option linter.unreachableTactic false

namespace Sys2Proof.Machine

open Sys2Proof

theorem State.landBy_frame (s : State) (p : Delivery → Bool) :
    Frame [.mem, .scr] s (State.landBy s p) := by
  unfold State.landBy
  try dsimp only
  repeat' (first
    | with_reducible apply Frame.refl
    | with_reducible assumption
    | with_reducible apply Frame.ite
    | with_reducible apply Frame.then_ ?_ (State.setBytes_frame ..)
    | decide
    | with_reducible apply Frame.foldl_fst
    | with_reducible apply Frame.foldl
    | intro y a b c hy
    | intro y a hy
    | intro y hy
    | dsimp only
    | split
    | (fail_if_no_progress simp only [Frame.mk_eq]; refine Frame.upd ?_))

theorem State.land_frame (s : State) (a : Nat) (n : Nat) :
    Frame [.mem, .scr] s (State.land s a n) := by
  unfold State.land
  try dsimp only
  repeat' (first
    | with_reducible apply Frame.refl
    | with_reducible assumption
    | with_reducible apply Frame.ite
    | with_reducible apply Frame.then_ ?_ (State.landBy_frame ..)
    | decide
    | dsimp only
    | split)

theorem State.landCtx_frame (s : State) (c : Nat) :
    Frame [.mem, .scr] s (State.landCtx s c) := by
  unfold State.landCtx
  try dsimp only
  repeat' (first
    | with_reducible apply Frame.refl
    | with_reducible assumption
    | with_reducible apply Frame.ite
    | with_reducible apply Frame.then_ ?_ (State.landBy_frame ..)
    | decide
    | dsimp only
    | split)

theorem State.landAll_frame (s : State) :
    Frame [.mem, .scr] s (State.landAll s) := by
  unfold State.landAll
  try dsimp only
  repeat' (first
    | with_reducible apply Frame.refl
    | with_reducible assumption
    | with_reducible apply Frame.ite
    | with_reducible apply Frame.then_ ?_ (State.landBy_frame ..)
    | decide
    | dsimp only
    | split)

end Sys2Proof.Machine
end

