-- ==== Sys2Proof/Laws/FrameSpan.lean ====
section
/-! SUPPORT. One frame lemma for every operation of Machine/Span.lean: the parts of the state that it may change. -/

set_option Elab.async false
set_option linter.unusedTactic false
set_option linter.unreachableTactic false

namespace Sys2Proof.Machine

open Sys2Proof

theorem State.setBench_frame (s : State) (b : Nat) (x : Bench) :
    Frame [.bench] s (State.setBench s b x) := by
  unfold State.setBench
  try dsimp only
  repeat' (first
    | with_reducible apply Frame.refl
    | with_reducible assumption
    | with_reducible apply Frame.ite
    | decide
    | dsimp only
    | split
    | (fail_if_no_progress simp only [Frame.mk_eq]; refine Frame.upd ?_))

theorem State.setCounter_frame (s : State) (b : Nat) (i : Nat) (v : Nat) :
    Frame [.bench] s (State.setCounter s b i v) := by
  unfold State.setCounter
  try dsimp only
  repeat' (first
    | with_reducible apply Frame.refl
    | with_reducible assumption
    | with_reducible apply Frame.ite
    | with_reducible apply Frame.then_ ?_ (State.setBench_frame ..)
    | decide
    | dsimp only
    | split)

theorem State.resume_frame (s : State) (b : Nat) :
    Frame [.csr, .bench] s (State.resume s b) := by
  unfold State.resume
  try dsimp only
  repeat' (first
    | with_reducible apply Frame.refl
    | with_reducible assumption
    | with_reducible apply Frame.ite
    | with_reducible apply Frame.then_ ?_ (State.setBench_frame ..)
    | with_reducible apply Frame.then_ ?_ (State.wrAt_frame ..)
    | decide
    | dsimp only
    | split)

theorem State.spanStarts_frame (s : State) (b : Nat) (l : Nat) (target : Option Nat) (counter : Option (Nat × Nat))
      (back : Nat) :
    Frame [.csr, .bench] s (State.spanStarts s b l target counter back) := by
  unfold State.spanStarts
  try dsimp only
  repeat' (first
    | with_reducible apply Frame.refl
    | with_reducible assumption
    | with_reducible apply Frame.ite
    | with_reducible apply Frame.then_ ?_ (State.resume_frame ..)
    | with_reducible apply Frame.then_ ?_ (State.setBench_frame ..)
    | with_reducible apply Frame.then_ ?_ (State.wrAt_frame ..)
    | decide
    | dsimp only
    | split)

theorem State.spanEnds_frame (s : State) (b : Nat) :
    Frame [.csr, .bench] s (State.spanEnds s b) := by
  unfold State.spanEnds
  try dsimp only
  repeat' (first
    | with_reducible apply Frame.refl
    | with_reducible assumption
    | with_reducible apply Frame.ite
    | with_reducible apply Frame.then_ ?_ (State.setBench_frame ..)
    | with_reducible apply Frame.then_ ?_ (State.wrAt_frame ..)
    | decide
    | dsimp only
    | split)

theorem State.spanBeat_frame (s : State) (b : Nat) :
    Frame [.csr, .bench] s (State.spanBeat s b) := by
  unfold State.spanBeat
  try dsimp only
  repeat' (first
    | with_reducible apply Frame.refl
    | with_reducible assumption
    | with_reducible apply Frame.ite
    | with_reducible apply Frame.then_ ?_ (State.spanEnds_frame ..)
    | decide
    | dsimp only
    | split)

theorem State.bumpCounter_frame (s : State) (b : Nat) (i : Nat) :
    Frame [.csr, .bench] s (State.bumpCounter s b i) := by
  unfold State.bumpCounter
  extract_lets v0 v1 v2
  clear_value v0
  have h_v1 : Frame [.csr, .bench] s v1 := by
    simp only [v1]
    repeat' (first
      | with_reducible apply Frame.refl
      | with_reducible assumption
      | with_reducible apply Frame.ite
      | with_reducible apply Frame.then_ ?_ (State.resume_frame ..)
      | with_reducible apply Frame.then_ ?_ (State.setCounter_frame ..)
      | with_reducible apply Frame.then_ ?_ (State.spanEnds_frame ..)
      | decide
      | dsimp only
      | split)
  clear_value v1
  have h_v2 : Frame [.csr, .bench] s v2 := by
    simp only [v2]
    repeat' (first
      | with_reducible apply Frame.refl
      | with_reducible assumption
      | with_reducible apply Frame.ite
      | with_reducible apply Frame.then_ ?_ (State.resume_frame ..)
      | with_reducible apply Frame.then_ ?_ (State.setCounter_frame ..)
      | with_reducible apply Frame.then_ ?_ (State.spanEnds_frame ..)
      | decide
      | dsimp only
      | split)
  clear_value v2
  repeat' (first
    | with_reducible apply Frame.refl
    | with_reducible assumption
    | with_reducible apply Frame.ite
    | with_reducible apply Frame.then_ ?_ (State.resume_frame ..)
    | with_reducible apply Frame.then_ ?_ (State.setCounter_frame ..)
    | with_reducible apply Frame.then_ ?_ (State.spanEnds_frame ..)
    | decide
    | dsimp only
    | split)

end Sys2Proof.Machine
end

