-- ==== Sys2Proof/Laws/FrameStop.lean ====
section
/-! SUPPORT. One frame lemma for every operation of Machine/Stop.lean: the parts of the state that it may change. -/

set_option Elab.async false
set_option linter.unusedTactic false
set_option linter.unreachableTactic false

namespace Sys2Proof.Machine

open Sys2Proof

theorem State.showStretch_frame (s : State) (r : Nat) :
    Frame [.csr, .clk] s (State.showStretch s r) := by
  unfold State.showStretch
  try dsimp only
  repeat' (first
    | with_reducible apply Frame.refl
    | with_reducible assumption
    | with_reducible apply Frame.ite
    | with_reducible apply Frame.then_ ?_ (State.wrAt_frame ..)
    | decide
    | dsimp only
    | split
    | (fail_if_no_progress simp only [Frame.mk_eq]; refine Frame.upd ?_))

theorem State.showStretches_frame (s : State) (a : Nat) :
    Frame [.csr, .clk] s (State.showStretches s a) := by
  induction a generalizing s with
  | zero =>
    first
      | exact Frame.refl _ _
      | (rw [State.showStretches]
         repeat' (first
           | with_reducible apply Frame.refl
           | with_reducible assumption
           | with_reducible apply Frame.ite
           | with_reducible apply Frame.then_ ?_ (State.showStretch_frame ..)
           | decide
           | dsimp only
           | split))
  | succ m ih =>
    rw [State.showStretches]
    try dsimp only
    repeat' (first
      | with_reducible apply Frame.refl
      | with_reducible assumption
      | with_reducible apply Frame.ite
      | with_reducible apply Frame.then_ ?_ (ih ..)
      | with_reducible apply Frame.then_ ?_ (State.showStretch_frame ..)
      | decide
      | dsimp only
      | split)

theorem State.assertThrottle_frame (s : State) :
    Frame [.csr] s (State.assertThrottle s) := by
  unfold State.assertThrottle
  try dsimp only
  repeat' (first
    | with_reducible apply Frame.refl
    | with_reducible assumption
    | with_reducible apply Frame.ite
    | with_reducible apply Frame.then_ ?_ (State.inc_frame ..)
    | with_reducible apply Frame.then_ ?_ (State.wr_frame ..)
    | decide
    | dsimp only
    | split)

theorem State.releaseThrottle_frame (s : State) :
    Frame [.csr, .clk] s (State.releaseThrottle s) := by
  unfold State.releaseThrottle
  try dsimp only
  repeat' (first
    | with_reducible apply Frame.refl
    | with_reducible assumption
    | with_reducible apply Frame.ite
    | with_reducible apply Frame.then_ ?_ (State.showStretches_frame ..)
    | with_reducible apply Frame.then_ ?_ (State.wr_frame ..)
    | decide
    | dsimp only
    | split
    | (fail_if_no_progress simp only [Frame.mk_eq]; refine Frame.upd ?_))

theorem State.clockHold_frame (s : State) (quanta : Nat) (again : Bool) :
    Frame [.csr, .haul, .sch, .sent] s (State.clockHold s quanta again) := by
  unfold State.clockHold
  try dsimp only
  repeat' (first
    | with_reducible apply Frame.refl
    | with_reducible assumption
    | with_reducible apply Frame.ite
    | with_reducible apply Frame.then_ ?_ (State.holdRequest_frame ..)
    | with_reducible apply Frame.then_ ?_ (State.inc_frame ..)
    | with_reducible apply Frame.then_ ?_ (State.wr_frame ..)
    | decide
    | dsimp only
    | split)

theorem State.resetRegs_frame (s : State) (p : Nat → Bool) :
    Frame [.csr, .staged] s (State.resetRegs s p) := by
  unfold State.resetRegs
  simp only [Frame.mk_eq]
  exact Frame.upd (.refl _ s) (hc := Tab.sorted_filter _)

theorem State.dropStaged_frame (s : State) (p : Nat → Bool) :
    Frame [.staged] s (State.dropStaged s p) := by
  unfold State.dropStaged
  try dsimp only
  repeat' (first
    | with_reducible apply Frame.refl
    | with_reducible assumption
    | with_reducible apply Frame.ite
    | decide
    | dsimp only
    | split
    | (fail_if_no_progress simp only [Frame.mk_eq]; refine Frame.upd ?_))

theorem State.clearFields_frame (s : State) (l : List Field) :
    Frame [.csr] s (State.clearFields s l) := by
  unfold State.clearFields
  simp only [Frame.mk_eq]
  exact Frame.upd (.refl _ s) (hc := Tab.sorted_filter _)

theorem State.ownEntriesGone_frame (s : State) :
    Frame [.csr, .sch] s (State.ownEntriesGone s) := by
  unfold State.ownEntriesGone
  try dsimp only
  repeat' (first
    | with_reducible apply Frame.refl
    | with_reducible assumption
    | with_reducible apply Frame.ite
    | with_reducible apply Frame.then_ ?_ (State.setJob_frame ..)
    | with_reducible apply Frame.then_ ?_ (State.showEntries_frame ..)
    | decide
    | dsimp only
    | split
    | (fail_if_no_progress simp only [Frame.mk_eq]; refine Frame.upd ?_))

theorem State.dropSwaps_frame (s : State) :
    Frame [.csr, .olc] s (State.dropSwaps s) := by
  unfold State.dropSwaps
  try dsimp only
  repeat' (first
    | with_reducible apply Frame.refl
    | with_reducible assumption
    | with_reducible apply Frame.ite
    | with_reducible apply Frame.then_ ?_ (State.dropChange_frame ..)
    | with_reducible apply Frame.then_ ?_ (State.wr_frame ..)
    | with_reducible apply Frame.then_ ?_ (State.wrAt_frame ..)
    | decide
    | with_reducible apply Frame.foldl_fst
    | with_reducible apply Frame.foldl
    | intro y a b c hy
    | intro y a hy
    | intro y hy
    | dsimp only
    | split)

theorem State.loadFailed_frame (s : State) (c : Nat) (code : Nat) (source : Nat) (shard : Nat) :
    Frame [.csr, .pwr, .rrc, .obs, .fresh] s (State.loadFailed s c code source shard) := by
  unfold State.loadFailed
  extract_lets v0 v1
  have h_v0 : Frame [.csr, .pwr, .rrc, .obs, .fresh] s v0 := by
    simp only [v0]
    repeat' (first
      | with_reducible apply Frame.refl
      | with_reducible assumption
      | with_reducible apply Frame.ite
      | with_reducible apply Frame.then_ ?_ (State.fault_frame ..)
      | with_reducible apply Frame.then_ ?_ (State.wr_frame ..)
      | with_reducible apply Frame.then_ ?_ (State.wrAt_frame ..)
      | decide
      | dsimp only
      | split)
  clear_value v0
  have h_v1 : Frame [.csr, .pwr, .rrc, .obs, .fresh] s v1 := by
    simp only [v1]
    repeat' (first
      | with_reducible apply Frame.refl
      | with_reducible assumption
      | with_reducible apply Frame.ite
      | with_reducible apply Frame.then_ ?_ (State.fault_frame ..)
      | with_reducible apply Frame.then_ ?_ (State.wr_frame ..)
      | with_reducible apply Frame.then_ ?_ (State.wrAt_frame ..)
      | decide
      | dsimp only
      | split)
  clear_value v1
  repeat' (first
    | with_reducible apply Frame.refl
    | with_reducible assumption
    | with_reducible apply Frame.ite
    | with_reducible apply Frame.then_ ?_ (State.fault_frame ..)
    | with_reducible apply Frame.then_ ?_ (State.wr_frame ..)
    | with_reducible apply Frame.then_ ?_ (State.wrAt_frame ..)
    | decide
    | dsimp only
    | split)

theorem State.showBindings_frame (s : State) :
    Frame [.csr] s (State.showBindings s) := by
  unfold State.showBindings
  try dsimp only
  repeat' (first
    | with_reducible apply Frame.refl
    | with_reducible assumption
    | with_reducible apply Frame.ite
    | with_reducible apply Frame.then_ ?_ (State.wrAt_frame ..)
    | decide
    | with_reducible apply Frame.foldl_fst
    | with_reducible apply Frame.foldl
    | intro y a b c hy
    | intro y a hy
    | intro y hy
    | dsimp only
    | split)

theorem State.dropCopies_frame (s : State) (c : Nat) (repair : Bool) (p : Nat → Bool) :
    Frame [.scr] s (State.dropCopies s c repair p) := by
  unfold State.dropCopies
  try dsimp only
  repeat' (first
    | with_reducible apply Frame.refl
    | with_reducible assumption
    | with_reducible apply Frame.ite
    | decide
    | dsimp only
    | split
    | (fail_if_no_progress simp only [Frame.mk_eq]; refine Frame.upd ?_))

theorem State.restWeights_frame (s : State) :
    Frame [.csr, .wgt, .scr] s (State.restWeights s) := by
  unfold State.restWeights
  try dsimp only
  repeat' (first
    | with_reducible apply Frame.refl
    | with_reducible assumption
    | with_reducible apply Frame.ite
    | with_reducible apply Frame.then_ ?_ (State.dropCopies_frame ..)
    | with_reducible apply Frame.then_ ?_ (State.setWctx_frame ..)
    | with_reducible apply Frame.then_ ?_ (State.wrAt_frame ..)
    | decide
    | with_reducible apply Frame.foldl_fst
    | with_reducible apply Frame.foldl
    | intro y a b c hy
    | intro y a hy
    | intro y hy
    | dsimp only
    | split)

theorem State.planGone_frame (s : State) :
Frame [.csr, .mem, .pwr, .clk, .sch, .pln, .olc, .gen, .wgt, .bench, .frk, .scr, .itk, .twn] s (State.planGone s) := by
  unfold State.planGone
  extract_lets v0 v1 v2 v3 v4 v5 v6 v7 v8 v9 v10 v11
  have h_v0 : Frame [.csr, .mem, .pwr, .clk, .sch, .pln, .olc, .gen, .wgt, .bench, .frk, .scr, .itk, .twn] s v0 := by
    simp only [v0]
    repeat' (first
      | with_reducible apply Frame.refl
      | with_reducible assumption
      | with_reducible apply Frame.ite
      | with_reducible apply Frame.then_ ?_ (State.bar_frame ..)
      | with_reducible apply Frame.then_ ?_ (State.clearFields_frame ..)
      | with_reducible apply Frame.then_ ?_ (State.dropSwaps_frame ..)
      | with_reducible apply Frame.then_ ?_ (State.landAll_frame ..)
      | with_reducible apply Frame.then_ ?_ (State.ownEntriesGone_frame ..)
      | with_reducible apply Frame.then_ ?_ (State.restWeights_frame ..)
      | with_reducible apply Frame.then_ ?_ (State.showAct_frame ..)
      | with_reducible apply Frame.then_ ?_ (State.showBindings_frame ..)
      | decide
      | dsimp only
      | split
      | (fail_if_no_progress simp only [Frame.mk_eq]; refine Frame.upd ?_))
  clear_value v0
  clear_value v1
  clear_value v2
  clear_value v3
  clear_value v4
  clear_value v5
  clear_value v6
  clear_value v7
  clear_value v8
  have h_v9 : Frame [.csr, .mem, .pwr, .clk, .sch, .pln, .olc, .gen, .wgt, .bench, .frk, .scr, .itk, .twn] s v9 := by
    simp only [v9]
    repeat' (first
      | with_reducible apply Frame.refl
      | with_reducible assumption
      | with_reducible apply Frame.ite
      | with_reducible apply Frame.then_ ?_ (State.bar_frame ..)
      | with_reducible apply Frame.then_ ?_ (State.clearFields_frame ..)
      | with_reducible apply Frame.then_ ?_ (State.dropSwaps_frame ..)
      | with_reducible apply Frame.then_ ?_ (State.landAll_frame ..)
      | with_reducible apply Frame.then_ ?_ (State.ownEntriesGone_frame ..)
      | with_reducible apply Frame.then_ ?_ (State.restWeights_frame ..)
      | with_reducible apply Frame.then_ ?_ (State.showAct_frame ..)
      | with_reducible apply Frame.then_ ?_ (State.showBindings_frame ..)
      | decide
      | dsimp only
      | split
      | (fail_if_no_progress simp only [Frame.mk_eq]; refine Frame.upd ?_))
  clear_value v9
  have h_v10 : Frame [.csr, .mem, .pwr, .clk, .sch, .pln, .olc, .gen, .wgt, .bench, .frk, .scr, .itk, .twn] s v10 := by
    simp only [v10]
    repeat' (first
      | with_reducible apply Frame.refl
      | with_reducible assumption
      | with_reducible apply Frame.ite
      | with_reducible apply Frame.then_ ?_ (State.bar_frame ..)
      | with_reducible apply Frame.then_ ?_ (State.clearFields_frame ..)
      | with_reducible apply Frame.then_ ?_ (State.dropSwaps_frame ..)
      | with_reducible apply Frame.then_ ?_ (State.landAll_frame ..)
      | with_reducible apply Frame.then_ ?_ (State.ownEntriesGone_frame ..)
      | with_reducible apply Frame.then_ ?_ (State.restWeights_frame ..)
      | with_reducible apply Frame.then_ ?_ (State.showAct_frame ..)
      | with_reducible apply Frame.then_ ?_ (State.showBindings_frame ..)
      | decide
      | dsimp only
      | split
      | (fail_if_no_progress simp only [Frame.mk_eq]; refine Frame.upd ?_))
  clear_value v10
  have h_v11 : Frame [.csr, .mem, .pwr, .clk, .sch, .pln, .olc, .gen, .wgt, .bench, .frk, .scr, .itk, .twn] s v11 := by
    simp only [v11]
    repeat' (first
      | with_reducible apply Frame.refl
      | with_reducible assumption
      | with_reducible apply Frame.ite
      | with_reducible apply Frame.then_ ?_ (State.bar_frame ..)
      | with_reducible apply Frame.then_ ?_ (State.clearFields_frame ..)
      | with_reducible apply Frame.then_ ?_ (State.dropSwaps_frame ..)
      | with_reducible apply Frame.then_ ?_ (State.landAll_frame ..)
      | with_reducible apply Frame.then_ ?_ (State.ownEntriesGone_frame ..)
      | with_reducible apply Frame.then_ ?_ (State.restWeights_frame ..)
      | with_reducible apply Frame.then_ ?_ (State.showAct_frame ..)
      | with_reducible apply Frame.then_ ?_ (State.showBindings_frame ..)
      | decide
      | dsimp only
      | split
      | (fail_if_no_progress simp only [Frame.mk_eq]; refine Frame.upd ?_))
  clear_value v11
  repeat' (first
    | with_reducible apply Frame.refl
    | with_reducible assumption
    | with_reducible apply Frame.ite
    | with_reducible apply Frame.then_ ?_ (State.bar_frame ..)
    | with_reducible apply Frame.then_ ?_ (State.clearFields_frame ..)
    | with_reducible apply Frame.then_ ?_ (State.dropSwaps_frame ..)
    | with_reducible apply Frame.then_ ?_ (State.landAll_frame ..)
    | with_reducible apply Frame.then_ ?_ (State.ownEntriesGone_frame ..)
    | with_reducible apply Frame.then_ ?_ (State.restWeights_frame ..)
    | with_reducible apply Frame.then_ ?_ (State.showAct_frame ..)
    | with_reducible apply Frame.then_ ?_ (State.showBindings_frame ..)
    | decide
    | dsimp only
    | split
    | (fail_if_no_progress simp only [Frame.mk_eq]; refine Frame.upd ?_))

theorem State.detoursGone_frame (s : State) :
    Frame [.csr] s (State.detoursGone s) := by
  unfold State.detoursGone
  try dsimp only
  repeat' (first
    | with_reducible apply Frame.refl
    | with_reducible assumption
    | with_reducible apply Frame.ite
    | with_reducible apply Frame.then_ ?_ (State.restorePort_frame ..)
    | decide
    | with_reducible apply Frame.foldl_fst
    | with_reducible apply Frame.foldl
    | intro y a b c hy
    | intro y a hy
    | intro y hy
    | dsimp only
    | split)

theorem State.idleBenches_frame (s : State) :
    Frame [.csr, .bench] s (State.idleBenches s) := by
  unfold State.idleBenches
  try dsimp only
  repeat' (first
    | with_reducible apply Frame.refl
    | with_reducible assumption
    | with_reducible apply Frame.ite
    | with_reducible apply Frame.then_ ?_ (State.spanEnds_frame ..)
    | with_reducible apply Frame.then_ ?_ (State.wrAt_frame ..)
    | decide
    | with_reducible apply Frame.foldl_fst
    | with_reducible apply Frame.foldl
    | intro y a b c hy
    | intro y a hy
    | intro y hy
    | dsimp only
    | split)

theorem State.stopWork_frame (s : State) :
    Frame [.csr, .pwr, .gen, .bench] s (State.stopWork s) := by
  unfold State.stopWork
  try dsimp only
  repeat' (first
    | with_reducible apply Frame.refl
    | with_reducible assumption
    | with_reducible apply Frame.ite
    | with_reducible apply Frame.then_ ?_ (State.closeSpans_frame ..)
    | with_reducible apply Frame.then_ ?_ (State.endFill_frame ..)
    | with_reducible apply Frame.then_ ?_ (State.idleBenches_frame ..)
    | with_reducible apply Frame.then_ ?_ (State.startTaper_frame ..)
    | decide
    | dsimp only
    | split)

theorem State.planAbort_frame (s : State) :
Frame [.csr, .mem, .pwr, .clk, .sch, .pln, .olc, .gen, .wgt, .bench, .frk, .scr, .itk, .twn] s (State.planAbort s) := by
  unfold State.planAbort
  try dsimp only
  repeat' (first
    | with_reducible apply Frame.refl
    | with_reducible assumption
    | with_reducible apply Frame.ite
    | with_reducible apply Frame.then_ ?_ (State.detoursGone_frame ..)
    | with_reducible apply Frame.then_ ?_ (State.planGone_frame ..)
    | with_reducible apply Frame.then_ ?_ (State.stopWork_frame ..)
    | with_reducible apply Frame.then_ ?_ (State.wr_frame ..)
    | decide
    | dsimp only
    | split)

theorem State.stopBenches_frame (s : State) (c : Nat) :
    Frame [.csr, .bench] s (State.stopBenches s c) := by
  unfold State.stopBenches
  try dsimp only
  repeat' (first
    | with_reducible apply Frame.refl
    | with_reducible assumption
    | with_reducible apply Frame.ite
    | with_reducible apply Frame.then_ ?_ (State.spanEnds_frame ..)
    | with_reducible apply Frame.then_ ?_ (State.wrAt_frame ..)
    | decide
    | with_reducible apply Frame.foldl_fst
    | with_reducible apply Frame.foldl
    | intro y a b c hy
    | intro y a hy
    | intro y hy
    | dsimp only
    | split)

theorem State.powerStops_frame (s : State) (c : Nat) :
    Frame [.pwr] s (State.powerStops s c) := by
  unfold State.powerStops
  try dsimp only
  repeat' (first
    | with_reducible apply Frame.refl
    | with_reducible assumption
    | with_reducible apply Frame.ite
    | decide
    | dsimp only
    | split
    | (fail_if_no_progress simp only [Frame.mk_eq]; refine Frame.upd ?_))

theorem State.forgetClosing_frame (s : State) (c : Nat) :
    Frame [.gen] s (State.forgetClosing s c) := by
  unfold State.forgetClosing
  try dsimp only
  repeat' (first
    | with_reducible apply Frame.refl
    | with_reducible assumption
    | with_reducible apply Frame.ite
    | decide
    | dsimp only
    | split
    | (fail_if_no_progress simp only [Frame.mk_eq]; refine Frame.upd ?_))

theorem State.contextReset_frame (s : State) (c : Nat) :
    Frame [.csr, .mem, .pwr, .pln, .gen, .bench, .itk, .sent] s (State.contextReset s c) := by
  unfold State.contextReset
  try dsimp only
  repeat' (first
    | with_reducible apply Frame.refl
    | with_reducible assumption
    | with_reducible apply Frame.ite
    | with_reducible apply Frame.then_ ?_ (State.closeIntake_frame ..)
    | with_reducible apply Frame.then_ ?_ (State.closeSpan_frame ..)
    | with_reducible apply Frame.then_ ?_ (State.forgetClosing_frame ..)
    | with_reducible apply Frame.then_ ?_ (State.powerStops_frame ..)
    | with_reducible apply Frame.then_ ?_ (State.setCtx_frame ..)
    | with_reducible apply Frame.then_ ?_ (State.startTaper_frame ..)
    | with_reducible apply Frame.then_ ?_ (State.stopBenches_frame ..)
    | with_reducible apply Frame.then_ ?_ (State.wrAt_frame ..)
    | decide
    | dsimp only
    | split)

theorem State.keepField_frame (s : State) (old : State) (f : Field) (i : Nat) :
    Frame [.csr] s (State.keepField s old f i) := by
  unfold State.keepField
  try dsimp only
  repeat' (first
    | with_reducible apply Frame.refl
    | with_reducible assumption
    | with_reducible apply Frame.ite
    | with_reducible apply Frame.then_ ?_ (State.wrAt_frame ..)
    | decide
    | dsimp only
    | split)

theorem State.keepMemories_frame (s : State) (old : State) :
    Frame [.csr] s (State.keepMemories s old) := by
  unfold State.keepMemories
  extract_lets v0 v1
  have h_v0 : Frame [.csr] s v0 := by
    simp only [v0]
    repeat' (first
      | with_reducible apply Frame.refl
      | with_reducible assumption
      | with_reducible apply Frame.ite
      | with_reducible apply Frame.then_ ?_ (State.keepField_frame ..)
      | with_reducible apply Frame.then_ ?_ (State.wrAt_frame ..)
      | decide
      | with_reducible apply Frame.foldl_fst
      | with_reducible apply Frame.foldl
      | intro y a b c hy
      | intro y a hy
      | intro y hy
      | dsimp only
      | split)
  clear_value v0
  have h_v1 : Frame [.csr] s v1 := by
    simp only [v1]
    repeat' (first
      | with_reducible apply Frame.refl
      | with_reducible assumption
      | with_reducible apply Frame.ite
      | with_reducible apply Frame.then_ ?_ (State.keepField_frame ..)
      | with_reducible apply Frame.then_ ?_ (State.wrAt_frame ..)
      | decide
      | with_reducible apply Frame.foldl_fst
      | with_reducible apply Frame.foldl
      | intro y a b c hy
      | intro y a hy
      | intro y hy
      | dsimp only
      | split)
  clear_value v1
  repeat' (first
    | with_reducible apply Frame.refl
    | with_reducible assumption
    | with_reducible apply Frame.ite
    | with_reducible apply Frame.then_ ?_ (State.keepField_frame ..)
    | with_reducible apply Frame.then_ ?_ (State.wrAt_frame ..)
    | decide
    | with_reducible apply Frame.foldl_fst
    | with_reducible apply Frame.foldl
    | intro y a b c hy
    | intro y a hy
    | intro y hy
    | dsimp only
    | split)

theorem State.handHeld_frame (s : State) :
    Frame [.csr, .haul, .sch, .gen, .fst, .sent] s (State.handHeld s) := by
  unfold State.handHeld
  try dsimp only
  repeat' (first
    | with_reducible apply Frame.refl
    | with_reducible assumption
    | with_reducible apply Frame.ite
    | with_reducible apply Frame.then_ ?_ (State.batchDone_frame ..)
    | decide
    | with_reducible apply Frame.foldl_fst
    | with_reducible apply Frame.foldl
    | intro y a b c hy
    | intro y a hy
    | intro y hy
    | dsimp only
    | split)

theorem State.dieCoreReset_frame (s : State) :
Frame [.csr, .staged, .mem, .pwr, .clk, .haul, .sch, .pln, .olc, .gen, .wgt, .bench, .frk, .scr, .itk, .twn, .fst,
      .rrc, .obs, .sent, .fresh] s (State.dieCoreReset s) := by
  unfold State.dieCoreReset
  extract_lets v0 v1 v2 v3 v4 v5 v6 v7 v8 v9 v10 v11 v12 v13 v14 v15 v16 v17 v18 v19 v20
  have h_v0 : Frame [.csr, .staged, .mem, .pwr, .clk, .haul, .sch, .pln, .olc, .gen, .wgt, .bench, .frk, .scr, .itk, .twn, .fst, .rrc, .obs, .sent, .fresh] s v0 := by
    simp only [v0]
    repeat' (first
      | with_reducible apply Frame.refl
      | with_reducible assumption
      | with_reducible apply Frame.ite
      | with_reducible apply Frame.then_ ?_ (State.clearFields_frame ..)
      | with_reducible apply Frame.then_ ?_ (State.closeSpans_frame ..)
      | with_reducible apply Frame.then_ ?_ (State.exported_frame ..)
      | with_reducible apply Frame.then_ ?_ (State.handHeld_frame ..)
      | with_reducible apply Frame.then_ ?_ (State.keepMemories_frame ..)
      | with_reducible apply Frame.then_ ?_ (State.loadFailed_frame ..)
      | with_reducible apply Frame.then_ ?_ (State.planGone_frame ..)
      | with_reducible apply Frame.then_ ?_ (State.resetRegs_frame ..)
      | with_reducible apply Frame.then_ ?_ (State.showAct_frame ..)
      | with_reducible apply Frame.then_ ?_ (State.showBindings_frame ..)
      | with_reducible apply Frame.then_ ?_ (State.stopWork_frame ..)
      | with_reducible apply Frame.then_ ?_ (State.wr_frame ..)
      | decide
      | with_reducible apply Frame.foldl_fst
      | with_reducible apply Frame.foldl
      | intro y a b c hy
      | intro y a hy
      | intro y hy
      | dsimp only
      | split
      | (fail_if_no_progress simp only [Frame.mk_eq]; refine Frame.upd ?_))
  clear_value v0
  have h_v1 : Frame [.csr, .staged, .mem, .pwr, .clk, .haul, .sch, .pln, .olc, .gen, .wgt, .bench, .frk, .scr, .itk, .twn, .fst, .rrc, .obs, .sent, .fresh] s v1 := by
    simp only [v1]
    repeat' (first
      | with_reducible apply Frame.refl
      | with_reducible assumption
      | with_reducible apply Frame.ite
      | with_reducible apply Frame.then_ ?_ (State.clearFields_frame ..)
      | with_reducible apply Frame.then_ ?_ (State.closeSpans_frame ..)
      | with_reducible apply Frame.then_ ?_ (State.exported_frame ..)
      | with_reducible apply Frame.then_ ?_ (State.handHeld_frame ..)
      | with_reducible apply Frame.then_ ?_ (State.keepMemories_frame ..)
      | with_reducible apply Frame.then_ ?_ (State.loadFailed_frame ..)
      | with_reducible apply Frame.then_ ?_ (State.planGone_frame ..)
      | with_reducible apply Frame.then_ ?_ (State.resetRegs_frame ..)
      | with_reducible apply Frame.then_ ?_ (State.showAct_frame ..)
      | with_reducible apply Frame.then_ ?_ (State.showBindings_frame ..)
      | with_reducible apply Frame.then_ ?_ (State.stopWork_frame ..)
      | with_reducible apply Frame.then_ ?_ (State.wr_frame ..)
      | decide
      | with_reducible apply Frame.foldl_fst
      | with_reducible apply Frame.foldl
      | intro y a b c hy
      | intro y a hy
      | intro y hy
      | dsimp only
      | split
      | (fail_if_no_progress simp only [Frame.mk_eq]; refine Frame.upd ?_))
  clear_value v1
  clear_value v2
  clear_value v3
  clear_value v4
  have h_v5 : Frame [.csr, .staged, .mem, .pwr, .clk, .haul, .sch, .pln, .olc, .gen, .wgt, .bench, .frk, .scr, .itk, .twn, .fst, .rrc, .obs, .sent, .fresh] s v5 := by
    simp only [v5]
    repeat' (first
      | with_reducible apply Frame.refl
      | with_reducible assumption
      | with_reducible apply Frame.ite
      | with_reducible apply Frame.then_ ?_ (State.clearFields_frame ..)
      | with_reducible apply Frame.then_ ?_ (State.closeSpans_frame ..)
      | with_reducible apply Frame.then_ ?_ (State.exported_frame ..)
      | with_reducible apply Frame.then_ ?_ (State.handHeld_frame ..)
      | with_reducible apply Frame.then_ ?_ (State.keepMemories_frame ..)
      | with_reducible apply Frame.then_ ?_ (State.loadFailed_frame ..)
      | with_reducible apply Frame.then_ ?_ (State.planGone_frame ..)
      | with_reducible apply Frame.then_ ?_ (State.resetRegs_frame ..)
      | with_reducible apply Frame.then_ ?_ (State.showAct_frame ..)
      | with_reducible apply Frame.then_ ?_ (State.showBindings_frame ..)
      | with_reducible apply Frame.then_ ?_ (State.stopWork_frame ..)
      | with_reducible apply Frame.then_ ?_ (State.wr_frame ..)
      | decide
      | with_reducible apply Frame.foldl_fst
      | with_reducible apply Frame.foldl
      | intro y a b c hy
      | intro y a hy
      | intro y hy
      | dsimp only
      | split
      | (fail_if_no_progress simp only [Frame.mk_eq]; refine Frame.upd ?_))
  clear_value v5
  clear_value v6
  clear_value v7
  clear_value v8
  have h_v9 : Frame [.csr, .staged, .mem, .pwr, .clk, .haul, .sch, .pln, .olc, .gen, .wgt, .bench, .frk, .scr, .itk, .twn, .fst, .rrc, .obs, .sent, .fresh] s v9 := by
    simp only [v9]
    repeat' (first
      | with_reducible apply Frame.refl
      | with_reducible assumption
      | with_reducible apply Frame.ite
      | with_reducible apply Frame.then_ ?_ (State.clearFields_frame ..)
      | with_reducible apply Frame.then_ ?_ (State.closeSpans_frame ..)
      | with_reducible apply Frame.then_ ?_ (State.exported_frame ..)
      | with_reducible apply Frame.then_ ?_ (State.handHeld_frame ..)
      | with_reducible apply Frame.then_ ?_ (State.keepMemories_frame ..)
      | with_reducible apply Frame.then_ ?_ (State.loadFailed_frame ..)
      | with_reducible apply Frame.then_ ?_ (State.planGone_frame ..)
      | with_reducible apply Frame.then_ ?_ (State.resetRegs_frame ..)
      | with_reducible apply Frame.then_ ?_ (State.showAct_frame ..)
      | with_reducible apply Frame.then_ ?_ (State.showBindings_frame ..)
      | with_reducible apply Frame.then_ ?_ (State.stopWork_frame ..)
      | with_reducible apply Frame.then_ ?_ (State.wr_frame ..)
      | decide
      | with_reducible apply Frame.foldl_fst
      | with_reducible apply Frame.foldl
      | intro y a b c hy
      | intro y a hy
      | intro y hy
      | dsimp only
      | split
      | (fail_if_no_progress simp only [Frame.mk_eq]; refine Frame.upd ?_))
  clear_value v9
  clear_value v10
  have h_v11 : Frame [.csr, .staged, .mem, .pwr, .clk, .haul, .sch, .pln, .olc, .gen, .wgt, .bench, .frk, .scr, .itk, .twn, .fst, .rrc, .obs, .sent, .fresh] s v11 := by
    simp only [v11]
    repeat' (first
      | with_reducible apply Frame.refl
      | with_reducible assumption
      | with_reducible apply Frame.ite
      | with_reducible apply Frame.then_ ?_ (State.clearFields_frame ..)
      | with_reducible apply Frame.then_ ?_ (State.closeSpans_frame ..)
      | with_reducible apply Frame.then_ ?_ (State.exported_frame ..)
      | with_reducible apply Frame.then_ ?_ (State.handHeld_frame ..)
      | with_reducible apply Frame.then_ ?_ (State.keepMemories_frame ..)
      | with_reducible apply Frame.then_ ?_ (State.loadFailed_frame ..)
      | with_reducible apply Frame.then_ ?_ (State.planGone_frame ..)
      | with_reducible apply Frame.then_ ?_ (State.resetRegs_frame ..)
      | with_reducible apply Frame.then_ ?_ (State.showAct_frame ..)
      | with_reducible apply Frame.then_ ?_ (State.showBindings_frame ..)
      | with_reducible apply Frame.then_ ?_ (State.stopWork_frame ..)
      | with_reducible apply Frame.then_ ?_ (State.wr_frame ..)
      | decide
      | with_reducible apply Frame.foldl_fst
      | with_reducible apply Frame.foldl
      | intro y a b c hy
      | intro y a hy
      | intro y hy
      | dsimp only
      | split
      | (fail_if_no_progress simp only [Frame.mk_eq]; refine Frame.upd ?_))
  clear_value v11
  clear_value v12
  clear_value v13
  clear_value v14
  clear_value v15
  clear_value v16
  have h_v17 : Frame [.csr, .staged, .mem, .pwr, .clk, .haul, .sch, .pln, .olc, .gen, .wgt, .bench, .frk, .scr, .itk, .twn, .fst, .rrc, .obs, .sent, .fresh] s v17 := by
    simp only [v17]
    repeat' (first
      | with_reducible apply Frame.refl
      | with_reducible assumption
      | with_reducible apply Frame.ite
      | with_reducible apply Frame.then_ ?_ (State.clearFields_frame ..)
      | with_reducible apply Frame.then_ ?_ (State.closeSpans_frame ..)
      | with_reducible apply Frame.then_ ?_ (State.exported_frame ..)
      | with_reducible apply Frame.then_ ?_ (State.handHeld_frame ..)
      | with_reducible apply Frame.then_ ?_ (State.keepMemories_frame ..)
      | with_reducible apply Frame.then_ ?_ (State.loadFailed_frame ..)
      | with_reducible apply Frame.then_ ?_ (State.planGone_frame ..)
      | with_reducible apply Frame.then_ ?_ (State.resetRegs_frame ..)
      | with_reducible apply Frame.then_ ?_ (State.showAct_frame ..)
      | with_reducible apply Frame.then_ ?_ (State.showBindings_frame ..)
      | with_reducible apply Frame.then_ ?_ (State.stopWork_frame ..)
      | with_reducible apply Frame.then_ ?_ (State.wr_frame ..)
      | decide
      | with_reducible apply Frame.foldl_fst
      | with_reducible apply Frame.foldl
      | intro y a b c hy
      | intro y a hy
      | intro y hy
      | dsimp only
      | split
      | (fail_if_no_progress simp only [Frame.mk_eq]; refine Frame.upd ?_))
  clear_value v17
  have h_v18 : Frame [.csr, .staged, .mem, .pwr, .clk, .haul, .sch, .pln, .olc, .gen, .wgt, .bench, .frk, .scr, .itk, .twn, .fst, .rrc, .obs, .sent, .fresh] s v18 := by
    simp only [v18]
    repeat' (first
      | with_reducible apply Frame.refl
      | with_reducible assumption
      | with_reducible apply Frame.ite
      | with_reducible apply Frame.then_ ?_ (State.clearFields_frame ..)
      | with_reducible apply Frame.then_ ?_ (State.closeSpans_frame ..)
      | with_reducible apply Frame.then_ ?_ (State.exported_frame ..)
      | with_reducible apply Frame.then_ ?_ (State.handHeld_frame ..)
      | with_reducible apply Frame.then_ ?_ (State.keepMemories_frame ..)
      | with_reducible apply Frame.then_ ?_ (State.loadFailed_frame ..)
      | with_reducible apply Frame.then_ ?_ (State.planGone_frame ..)
      | with_reducible apply Frame.then_ ?_ (State.resetRegs_frame ..)
      | with_reducible apply Frame.then_ ?_ (State.showAct_frame ..)
      | with_reducible apply Frame.then_ ?_ (State.showBindings_frame ..)
      | with_reducible apply Frame.then_ ?_ (State.stopWork_frame ..)
      | with_reducible apply Frame.then_ ?_ (State.wr_frame ..)
      | decide
      | with_reducible apply Frame.foldl_fst
      | with_reducible apply Frame.foldl
      | intro y a b c hy
      | intro y a hy
      | intro y hy
      | dsimp only
      | split
      | (fail_if_no_progress simp only [Frame.mk_eq]; refine Frame.upd ?_))
  clear_value v18
  have h_v19 : Frame [.csr, .staged, .mem, .pwr, .clk, .haul, .sch, .pln, .olc, .gen, .wgt, .bench, .frk, .scr, .itk, .twn, .fst, .rrc, .obs, .sent, .fresh] s v19 := by
    simp only [v19]
    repeat' (first
      | with_reducible apply Frame.refl
      | with_reducible assumption
      | with_reducible apply Frame.ite
      | with_reducible apply Frame.then_ ?_ (State.clearFields_frame ..)
      | with_reducible apply Frame.then_ ?_ (State.closeSpans_frame ..)
      | with_reducible apply Frame.then_ ?_ (State.exported_frame ..)
      | with_reducible apply Frame.then_ ?_ (State.handHeld_frame ..)
      | with_reducible apply Frame.then_ ?_ (State.keepMemories_frame ..)
      | with_reducible apply Frame.then_ ?_ (State.loadFailed_frame ..)
      | with_reducible apply Frame.then_ ?_ (State.planGone_frame ..)
      | with_reducible apply Frame.then_ ?_ (State.resetRegs_frame ..)
      | with_reducible apply Frame.then_ ?_ (State.showAct_frame ..)
      | with_reducible apply Frame.then_ ?_ (State.showBindings_frame ..)
      | with_reducible apply Frame.then_ ?_ (State.stopWork_frame ..)
      | with_reducible apply Frame.then_ ?_ (State.wr_frame ..)
      | decide
      | with_reducible apply Frame.foldl_fst
      | with_reducible apply Frame.foldl
      | intro y a b c hy
      | intro y a hy
      | intro y hy
      | dsimp only
      | split
      | (fail_if_no_progress simp only [Frame.mk_eq]; refine Frame.upd ?_))
  clear_value v19
  have h_v20 : Frame [.csr, .staged, .mem, .pwr, .clk, .haul, .sch, .pln, .olc, .gen, .wgt, .bench, .frk, .scr, .itk, .twn, .fst, .rrc, .obs, .sent, .fresh] s v20 := by
    simp only [v20]
    repeat' (first
      | with_reducible apply Frame.refl
      | with_reducible assumption
      | with_reducible apply Frame.ite
      | with_reducible apply Frame.then_ ?_ (State.clearFields_frame ..)
      | with_reducible apply Frame.then_ ?_ (State.closeSpans_frame ..)
      | with_reducible apply Frame.then_ ?_ (State.exported_frame ..)
      | with_reducible apply Frame.then_ ?_ (State.handHeld_frame ..)
      | with_reducible apply Frame.then_ ?_ (State.keepMemories_frame ..)
      | with_reducible apply Frame.then_ ?_ (State.loadFailed_frame ..)
      | with_reducible apply Frame.then_ ?_ (State.planGone_frame ..)
      | with_reducible apply Frame.then_ ?_ (State.resetRegs_frame ..)
      | with_reducible apply Frame.then_ ?_ (State.showAct_frame ..)
      | with_reducible apply Frame.then_ ?_ (State.showBindings_frame ..)
      | with_reducible apply Frame.then_ ?_ (State.stopWork_frame ..)
      | with_reducible apply Frame.then_ ?_ (State.wr_frame ..)
      | decide
      | with_reducible apply Frame.foldl_fst
      | with_reducible apply Frame.foldl
      | intro y a b c hy
      | intro y a hy
      | intro y hy
      | dsimp only
      | split
      | (fail_if_no_progress simp only [Frame.mk_eq]; refine Frame.upd ?_))
  clear_value v20
  repeat' (first
    | with_reducible apply Frame.refl
    | with_reducible assumption
    | with_reducible apply Frame.ite
    | with_reducible apply Frame.then_ ?_ (State.clearFields_frame ..)
    | with_reducible apply Frame.then_ ?_ (State.closeSpans_frame ..)
    | with_reducible apply Frame.then_ ?_ (State.exported_frame ..)
    | with_reducible apply Frame.then_ ?_ (State.handHeld_frame ..)
    | with_reducible apply Frame.then_ ?_ (State.keepMemories_frame ..)
    | with_reducible apply Frame.then_ ?_ (State.loadFailed_frame ..)
    | with_reducible apply Frame.then_ ?_ (State.planGone_frame ..)
    | with_reducible apply Frame.then_ ?_ (State.resetRegs_frame ..)
    | with_reducible apply Frame.then_ ?_ (State.showAct_frame ..)
    | with_reducible apply Frame.then_ ?_ (State.showBindings_frame ..)
    | with_reducible apply Frame.then_ ?_ (State.stopWork_frame ..)
    | with_reducible apply Frame.then_ ?_ (State.wr_frame ..)
    | decide
    | with_reducible apply Frame.foldl_fst
    | with_reducible apply Frame.foldl
    | intro y a b c hy
    | intro y a hy
    | intro y hy
    | dsimp only
    | split
    | (fail_if_no_progress simp only [Frame.mk_eq]; refine Frame.upd ?_))

theorem State.portStopped_frame (s : State) (p : Nat) :
    Frame [.csr, .haul, .sch, .obs, .sent, .fresh] s (State.portStopped s p) := by
  unfold State.portStopped
  try dsimp only
  repeat' (first
    | with_reducible apply Frame.refl
    | with_reducible assumption
    | with_reducible apply Frame.ite
    | with_reducible apply Frame.then_ ?_ (State.emit_frame ..)
    | with_reducible apply Frame.then_ ?_ (State.portDown_frame ..)
    | with_reducible apply Frame.then_ ?_ (State.setPort_frame ..)
    | decide
    | dsimp only
    | split)

theorem State.haulPlaneUp_frame (s : State) :
    Frame [.csr, .ptp, .haul, .obs, .sent, .fresh] s (State.haulPlaneUp s) := by
  unfold State.haulPlaneUp
  split
  · repeat' (first
      | with_reducible apply Frame.refl
      | with_reducible assumption
      | with_reducible apply Frame.ite
      | with_reducible apply Frame.then_ ?_ (State.setTrain_frame ..)
      | with_reducible apply Frame.then_ ?_ (State.wr_frame ..)
      | decide
      | with_reducible apply Frame.foldl_fst
      | with_reducible apply Frame.foldl
      | intro y a b c hy
      | intro y a hy
      | intro y hy
      | dsimp only
      | split
      | (fail_if_no_progress simp only [Frame.mk_eq]; refine Frame.upd ?_))
  · extract_lets v0 v1
    have h_v0 : Frame [.csr, .ptp, .haul, .obs, .sent, .fresh] s v0 := by
      simp only [v0]
      repeat' (first
        | with_reducible apply Frame.refl
        | with_reducible assumption
        | with_reducible apply Frame.ite
        | with_reducible apply Frame.then_ ?_ (State.setTrain_frame ..)
        | with_reducible apply Frame.then_ ?_ (State.wr_frame ..)
        | decide
        | with_reducible apply Frame.foldl_fst
        | with_reducible apply Frame.foldl
        | intro y a b c hy
        | intro y a hy
        | intro y hy
        | dsimp only
        | split
        | (fail_if_no_progress simp only [Frame.mk_eq]; refine Frame.upd ?_))
    clear_value v0
    have h_v1 : Frame [.csr, .ptp, .haul, .obs, .sent, .fresh] s v1 := by
      simp only [v1]
      repeat' (first
        | with_reducible apply Frame.refl
        | with_reducible assumption
        | with_reducible apply Frame.ite
        | with_reducible apply Frame.then_ ?_ (State.setTrain_frame ..)
        | with_reducible apply Frame.then_ ?_ (State.wr_frame ..)
        | decide
        | with_reducible apply Frame.foldl_fst
        | with_reducible apply Frame.foldl
        | intro y a b c hy
        | intro y a hy
        | intro y hy
        | dsimp only
        | split
        | (fail_if_no_progress simp only [Frame.mk_eq]; refine Frame.upd ?_))
    clear_value v1
    repeat' (first
      | with_reducible apply Frame.refl
      | with_reducible assumption
      | with_reducible apply Frame.ite
      | with_reducible apply Frame.then_ ?_ (State.setTrain_frame ..)
      | with_reducible apply Frame.then_ ?_ (State.wr_frame ..)
      | decide
      | with_reducible apply Frame.foldl_fst
      | with_reducible apply Frame.foldl
      | intro y a b c hy
      | intro y a hy
      | intro y hy
      | dsimp only
      | split
      | (fail_if_no_progress simp only [Frame.mk_eq]; refine Frame.upd ?_))

theorem State.lockRegions_frame (s : State) (l : List Nat) :
    Frame [.csr] s (State.lockRegions s l) := by
  unfold State.lockRegions
  try dsimp only
  repeat' (first
    | with_reducible apply Frame.refl
    | with_reducible assumption
    | with_reducible apply Frame.ite
    | with_reducible apply Frame.then_ ?_ (State.wrAt_frame ..)
    | decide
    | with_reducible apply Frame.foldl_fst
    | with_reducible apply Frame.foldl
    | intro y a b c hy
    | intro y a hy
    | intro y hy
    | dsimp only
    | split)

theorem State.haulPlaneReset_frame (s : State) :
    Frame [.csr, .staged, .mem, .pwr, .clk, .tal, .ptp, .haul, .sch, .pln, .top, .olc, .gen, .wgt, .bench, .frk, .scr, .itk, .clocks, .twn, .fst, .rrc, .obs, .sent, .fresh] s (State.haulPlaneReset s) := by
  unfold State.haulPlaneReset
  extract_lets v0 v1 v2 v3 v4 v5 v6 v7
  have h_v0 : Frame [.csr, .staged, .mem, .pwr, .clk, .tal, .ptp, .haul, .sch, .pln, .top, .olc, .gen, .wgt, .bench, .frk, .scr, .itk, .clocks, .twn, .fst, .rrc, .obs, .sent, .fresh] s v0 := by
    simp only [v0]
    repeat' (first
    | with_reducible apply Frame.refl
    | with_reducible assumption
    | with_reducible apply Frame.then_ ?_ (State.lockRegions_frame ..)
    | with_reducible apply Frame.then_ ?_ (State.dieCoreReset_frame ..)
    | with_reducible apply Frame.then_ ?_ (State.resetRegs_frame ..)
    | with_reducible apply Frame.then_ ?_ (State.wr_frame ..)
    | with_reducible apply Frame.then_ ?_ (State.haulPlaneUp_frame ..)
    | with_reducible apply Frame.then_ ?_ (State.portStopped_frame ..)
    | decide)
  clear_value v0
  clear_value v1
  have h_v2 : Frame [.csr, .staged, .mem, .pwr, .clk, .tal, .ptp, .haul, .sch, .pln, .top, .olc, .gen, .wgt, .bench, .frk, .scr, .itk, .clocks, .twn, .fst, .rrc, .obs, .sent, .fresh] s v2 := by
    simp only [v2]
    repeat' (first
    | with_reducible apply Frame.refl
    | with_reducible assumption
    | with_reducible apply Frame.then_ ?_ (State.lockRegions_frame ..)
    | with_reducible apply Frame.then_ ?_ (State.dieCoreReset_frame ..)
    | with_reducible apply Frame.then_ ?_ (State.resetRegs_frame ..)
    | with_reducible apply Frame.then_ ?_ (State.wr_frame ..)
    | with_reducible apply Frame.then_ ?_ (State.haulPlaneUp_frame ..)
    | with_reducible apply Frame.then_ ?_ (State.portStopped_frame ..)
    | decide
    | with_reducible apply Frame.foldl_fst
    | with_reducible apply Frame.foldl
    | intro y a b c hy
    | intro y a hy)
  clear_value v2
  clear_value v3
  have h_v6 : Frame [.csr, .staged, .mem, .pwr, .clk, .tal, .ptp, .haul, .sch, .pln, .top, .olc, .gen, .wgt, .bench, .frk, .scr, .itk, .clocks, .twn, .fst, .rrc, .obs, .sent, .fresh] s v6 := by
    simp only [v6]
    repeat' (first
    | with_reducible apply Frame.refl
    | with_reducible assumption
    | with_reducible apply Frame.then_ ?_ (State.lockRegions_frame ..)
    | with_reducible apply Frame.then_ ?_ (State.dieCoreReset_frame ..)
    | with_reducible apply Frame.then_ ?_ (State.resetRegs_frame ..)
    | with_reducible apply Frame.then_ ?_ (State.wr_frame ..)
    | with_reducible apply Frame.then_ ?_ (State.haulPlaneUp_frame ..)
    | with_reducible apply Frame.then_ ?_ (State.portStopped_frame ..)
    | decide
    | with_reducible apply Frame.foldl_fst
    | with_reducible apply Frame.foldl
    | intro y a b c hy
    | intro y a hy
    | intro y hy
    | dsimp only
    | split
    | (fail_if_no_progress simp only [Frame.mk_eq]; refine Frame.upd ?_))
  clear_value v6
  have h_v7 : Frame [.csr, .staged, .mem, .pwr, .clk, .tal, .ptp, .haul, .sch, .pln, .top, .olc, .gen, .wgt, .bench, .frk, .scr, .itk, .clocks, .twn, .fst, .rrc, .obs, .sent, .fresh] s v7 := by
    simp only [v7]
    repeat' (first
    | with_reducible apply Frame.refl
    | with_reducible assumption
    | with_reducible apply Frame.then_ ?_ (State.lockRegions_frame ..)
    | with_reducible apply Frame.then_ ?_ (State.dieCoreReset_frame ..)
    | with_reducible apply Frame.then_ ?_ (State.resetRegs_frame ..)
    | with_reducible apply Frame.then_ ?_ (State.wr_frame ..)
    | with_reducible apply Frame.then_ ?_ (State.haulPlaneUp_frame ..)
    | with_reducible apply Frame.then_ ?_ (State.portStopped_frame ..)
    | decide)
  clear_value v7
  repeat' (first
    | with_reducible apply Frame.refl
    | with_reducible assumption
    | with_reducible apply Frame.then_ ?_ (State.lockRegions_frame ..)
    | with_reducible apply Frame.then_ ?_ (State.dieCoreReset_frame ..)
    | with_reducible apply Frame.then_ ?_ (State.resetRegs_frame ..)
    | with_reducible apply Frame.then_ ?_ (State.wr_frame ..)
    | with_reducible apply Frame.then_ ?_ (State.haulPlaneUp_frame ..)
    | with_reducible apply Frame.then_ ?_ (State.portStopped_frame ..)
    | decide)

theorem State.dieOff_frame (s : State) :
    Frame [.csr, .staged, .mem, .pwr, .clk, .tal, .ptp, .haul, .sch, .pln, .top, .gen, .wgt, .bench, .frk, .scr, .itk, .clocks, .twn, .obs, .sent, .fresh] s (State.dieOff s) := by
  unfold State.dieOff
  extract_lets z s1 s2 v3 v4
  have h : Frame [.csr, .staged, .mem, .pwr, .clk, .tal, .ptp, .haul, .sch, .pln, .top, .gen, .wgt, .bench, .frk, .scr, .itk, .clocks, .twn, .obs, .sent, .fresh] s s2 :=
    (Frame.foldl _ (.refl _ s) fun y a hy => hy.then_ (State.portStopped_frame y a) (by decide)).then_
      (State.resetRegs_frame ..) (by decide)
  clear_value s2
  simp only [Frame.mk_eq]
  exact Frame.upd h (hm := Tab.canon_filter _) (hh := fun _ => rfl) (hk := fun _ => rfl)

theorem State.taperEnded_frame (s : State) :
Frame [.csr, .staged, .mem, .pwr, .clk, .tal, .ptp, .haul, .sch, .pln, .top, .gen, .wgt, .bench, .frk, .scr, .itk,
      .clocks, .twn, .obs, .sent, .fresh] s (State.taperEnded s) := by
  unfold State.taperEnded
  split
  · extract_lets v0 v1 v2 v3
    have h_v0 : Frame [.csr, .staged, .mem, .pwr, .clk, .tal, .ptp, .haul, .sch, .pln, .top, .gen, .wgt, .bench, .frk, .scr, .itk, .clocks, .twn, .obs, .sent, .fresh] s v0 := by
      simp only [v0]
      repeat' (first
        | with_reducible apply Frame.refl
        | with_reducible assumption
        | with_reducible apply Frame.ite
        | with_reducible apply Frame.then_ ?_ (State.dieOff_frame ..)
        | with_reducible apply Frame.then_ ?_ (State.startSpill_frame ..)
        | with_reducible apply Frame.then_ ?_ (State.wr_frame ..)
        | decide
        | dsimp only
        | split
        | (fail_if_no_progress simp only [Frame.mk_eq]; refine Frame.upd ?_))
    clear_value v0
    have h_v1 : Frame [.csr, .staged, .mem, .pwr, .clk, .tal, .ptp, .haul, .sch, .pln, .top, .gen, .wgt, .bench, .frk, .scr, .itk, .clocks, .twn, .obs, .sent, .fresh] s v1 := by
      simp only [v1]
      repeat' (first
        | with_reducible apply Frame.refl
        | with_reducible assumption
        | with_reducible apply Frame.ite
        | with_reducible apply Frame.then_ ?_ (State.dieOff_frame ..)
        | with_reducible apply Frame.then_ ?_ (State.startSpill_frame ..)
        | with_reducible apply Frame.then_ ?_ (State.wr_frame ..)
        | decide
        | dsimp only
        | split
        | (fail_if_no_progress simp only [Frame.mk_eq]; refine Frame.upd ?_))
    clear_value v1
    have h_v2 : Frame [.csr, .staged, .mem, .pwr, .clk, .tal, .ptp, .haul, .sch, .pln, .top, .gen, .wgt, .bench, .frk, .scr, .itk, .clocks, .twn, .obs, .sent, .fresh] s v2 := by
      simp only [v2]
      repeat' (first
        | with_reducible apply Frame.refl
        | with_reducible assumption
        | with_reducible apply Frame.ite
        | with_reducible apply Frame.then_ ?_ (State.dieOff_frame ..)
        | with_reducible apply Frame.then_ ?_ (State.startSpill_frame ..)
        | with_reducible apply Frame.then_ ?_ (State.wr_frame ..)
        | decide
        | dsimp only
        | split
        | (fail_if_no_progress simp only [Frame.mk_eq]; refine Frame.upd ?_))
    clear_value v2
    clear_value v3
    repeat' (first
      | with_reducible apply Frame.refl
      | with_reducible assumption
      | with_reducible apply Frame.ite
      | with_reducible apply Frame.then_ ?_ (State.dieOff_frame ..)
      | with_reducible apply Frame.then_ ?_ (State.startSpill_frame ..)
      | with_reducible apply Frame.then_ ?_ (State.wr_frame ..)
      | decide
      | dsimp only
      | split
      | (fail_if_no_progress simp only [Frame.mk_eq]; refine Frame.upd ?_))
  · repeat' (first
      | with_reducible apply Frame.refl
      | with_reducible assumption
      | with_reducible apply Frame.ite
      | with_reducible apply Frame.then_ ?_ (State.dieOff_frame ..)
      | with_reducible apply Frame.then_ ?_ (State.startSpill_frame ..)
      | with_reducible apply Frame.then_ ?_ (State.wr_frame ..)
      | decide
      | dsimp only
      | split
      | (fail_if_no_progress simp only [Frame.mk_eq]; refine Frame.upd ?_))

theorem State.onHoldup_frame (s : State) :
Frame [.csr, .staged, .mem, .pwr, .clk, .tal, .ptp, .haul, .sch, .pln, .top, .gen, .wgt, .bench, .frk, .scr, .itk,
      .clocks, .twn, .obs, .sent, .fresh] s (State.onHoldup s) := by
  unfold State.onHoldup
  extract_lets v0 v1 v2 v3
  have h_v0 : Frame [.csr, .staged, .mem, .pwr, .clk, .tal, .ptp, .haul, .sch, .pln, .top, .gen, .wgt, .bench, .frk, .scr, .itk, .clocks, .twn, .obs, .sent, .fresh] s v0 := by
    simp only [v0]
    repeat' (first
      | with_reducible apply Frame.refl
      | with_reducible assumption
      | with_reducible apply Frame.ite
      | with_reducible apply Frame.then_ ?_ (State.dieOff_frame ..)
      | with_reducible apply Frame.then_ ?_ (State.wr_frame ..)
      | decide
      | dsimp only
      | split
      | (fail_if_no_progress simp only [Frame.mk_eq]; refine Frame.upd ?_))
  clear_value v0
  have h_v1 : Frame [.csr, .staged, .mem, .pwr, .clk, .tal, .ptp, .haul, .sch, .pln, .top, .gen, .wgt, .bench, .frk, .scr, .itk, .clocks, .twn, .obs, .sent, .fresh] s v1 := by
    simp only [v1]
    repeat' (first
      | with_reducible apply Frame.refl
      | with_reducible assumption
      | with_reducible apply Frame.ite
      | with_reducible apply Frame.then_ ?_ (State.dieOff_frame ..)
      | with_reducible apply Frame.then_ ?_ (State.wr_frame ..)
      | decide
      | dsimp only
      | split
      | (fail_if_no_progress simp only [Frame.mk_eq]; refine Frame.upd ?_))
  clear_value v1
  have h_v2 : Frame [.csr, .staged, .mem, .pwr, .clk, .tal, .ptp, .haul, .sch, .pln, .top, .gen, .wgt, .bench, .frk, .scr, .itk, .clocks, .twn, .obs, .sent, .fresh] s v2 := by
    simp only [v2]
    repeat' (first
      | with_reducible apply Frame.refl
      | with_reducible assumption
      | with_reducible apply Frame.ite
      | with_reducible apply Frame.then_ ?_ (State.dieOff_frame ..)
      | with_reducible apply Frame.then_ ?_ (State.wr_frame ..)
      | decide
      | dsimp only
      | split
      | (fail_if_no_progress simp only [Frame.mk_eq]; refine Frame.upd ?_))
  clear_value v2
  clear_value v3
  repeat' (first
    | with_reducible apply Frame.refl
    | with_reducible assumption
    | with_reducible apply Frame.ite
    | with_reducible apply Frame.then_ ?_ (State.dieOff_frame ..)
    | with_reducible apply Frame.then_ ?_ (State.wr_frame ..)
    | decide
    | dsimp only
    | split
    | (fail_if_no_progress simp only [Frame.mk_eq]; refine Frame.upd ?_))

theorem State.stopContexts_frame (s : State) :
    Frame [.csr, .pwr, .pln, .bench] s (State.stopContexts s) := by
  unfold State.stopContexts
  try dsimp only
  repeat' (first
    | with_reducible apply Frame.refl
    | with_reducible assumption
    | with_reducible apply Frame.ite
    | with_reducible apply Frame.then_ ?_ (State.powerStops_frame ..)
    | with_reducible apply Frame.then_ ?_ (State.setCtx_frame ..)
    | with_reducible apply Frame.then_ ?_ (State.stopBenches_frame ..)
    | with_reducible apply Frame.then_ ?_ (State.wrAt_frame ..)
    | decide
    | with_reducible apply Frame.foldl_fst
    | with_reducible apply Frame.foldl
    | intro y a b c hy
    | intro y a hy
    | intro y hy
    | dsimp only
    | split)

theorem State.orderlyShutdown_frame (s : State) :
Frame [.csr, .staged, .mem, .pwr, .clk, .tal, .ptp, .haul, .sch, .pln, .top, .gen, .wgt, .bench, .frk, .scr, .itk,
      .clocks, .twn, .obs, .sent, .fresh] s (State.orderlyShutdown s) := by
  unfold State.orderlyShutdown
  split
  · repeat' (first
      | with_reducible apply Frame.refl
      | with_reducible assumption
      | with_reducible apply Frame.ite
      | with_reducible apply Frame.then_ ?_ (State.closeIntakes_frame ..)
      | with_reducible apply Frame.then_ ?_ (State.closeSpans_frame ..)
      | with_reducible apply Frame.then_ ?_ (State.endFill_frame ..)
      | with_reducible apply Frame.then_ ?_ (State.startTaper_frame ..)
      | with_reducible apply Frame.then_ ?_ (State.stopContexts_frame ..)
      | with_reducible apply Frame.then_ ?_ (State.taperEnded_frame ..)
      | with_reducible apply Frame.then_ ?_ (State.wr_frame ..)
      | decide
      | dsimp only
      | split
      | (fail_if_no_progress simp only [Frame.mk_eq]; refine Frame.upd ?_))
  · extract_lets v0 v1 v2 v3 v4
    clear_value v0
    have h_v1 : Frame [.csr, .staged, .mem, .pwr, .clk, .tal, .ptp, .haul, .sch, .pln, .top, .gen, .wgt, .bench, .frk, .scr, .itk, .clocks, .twn, .obs, .sent, .fresh] s v1 := by
      simp only [v1]
      repeat' (first
        | with_reducible apply Frame.refl
        | with_reducible assumption
        | with_reducible apply Frame.ite
        | with_reducible apply Frame.then_ ?_ (State.closeIntakes_frame ..)
        | with_reducible apply Frame.then_ ?_ (State.closeSpans_frame ..)
        | with_reducible apply Frame.then_ ?_ (State.endFill_frame ..)
        | with_reducible apply Frame.then_ ?_ (State.startTaper_frame ..)
        | with_reducible apply Frame.then_ ?_ (State.stopContexts_frame ..)
        | with_reducible apply Frame.then_ ?_ (State.taperEnded_frame ..)
        | with_reducible apply Frame.then_ ?_ (State.wr_frame ..)
        | decide
        | dsimp only
        | split
        | (fail_if_no_progress simp only [Frame.mk_eq]; refine Frame.upd ?_))
    clear_value v1
    clear_value v2
    clear_value v3
    have h_v4 : Frame [.csr, .staged, .mem, .pwr, .clk, .tal, .ptp, .haul, .sch, .pln, .top, .gen, .wgt, .bench, .frk, .scr, .itk, .clocks, .twn, .obs, .sent, .fresh] s v4 := by
      simp only [v4]
      repeat' (first
        | with_reducible apply Frame.refl
        | with_reducible assumption
        | with_reducible apply Frame.ite
        | with_reducible apply Frame.then_ ?_ (State.closeIntakes_frame ..)
        | with_reducible apply Frame.then_ ?_ (State.closeSpans_frame ..)
        | with_reducible apply Frame.then_ ?_ (State.endFill_frame ..)
        | with_reducible apply Frame.then_ ?_ (State.startTaper_frame ..)
        | with_reducible apply Frame.then_ ?_ (State.stopContexts_frame ..)
        | with_reducible apply Frame.then_ ?_ (State.taperEnded_frame ..)
        | with_reducible apply Frame.then_ ?_ (State.wr_frame ..)
        | decide
        | dsimp only
        | split
        | (fail_if_no_progress simp only [Frame.mk_eq]; refine Frame.upd ?_))
    clear_value v4
    repeat' (first
      | with_reducible apply Frame.refl
      | with_reducible assumption
      | with_reducible apply Frame.ite
      | with_reducible apply Frame.then_ ?_ (State.closeIntakes_frame ..)
      | with_reducible apply Frame.then_ ?_ (State.closeSpans_frame ..)
      | with_reducible apply Frame.then_ ?_ (State.endFill_frame ..)
      | with_reducible apply Frame.then_ ?_ (State.startTaper_frame ..)
      | with_reducible apply Frame.then_ ?_ (State.stopContexts_frame ..)
      | with_reducible apply Frame.then_ ?_ (State.taperEnded_frame ..)
      | with_reducible apply Frame.then_ ?_ (State.wr_frame ..)
      | decide
      | dsimp only
      | split
      | (fail_if_no_progress simp only [Frame.mk_eq]; refine Frame.upd ?_))

theorem State.foresterOff_frame (s : State) :
    Frame [.csr, .staged, .mem, .pwr, .olc, .gen, .fst, .flt, .rrc, .obs] s (State.foresterOff s) := by
  unfold State.foresterOff
  extract_lets z x y
  have h : Frame [.csr, .staged, .mem, .pwr, .olc, .gen, .fst, .flt, .rrc, .obs] s y :=
    ((Frame.refl _ s).then_ (State.resetRegs_frame ..) (by decide)).then_ (State.wr_frame ..) (by decide)
  clear_value y
  simp only [Frame.mk_eq]
  exact Frame.upd h (hm := fun _ => rfl)

theorem State.showSecurity_frame (s : State) :
    Frame [.csr] s (State.showSecurity s) := by
  unfold State.showSecurity
  extract_lets v0 v1 v2
  have h_v0 : Frame [.csr] s v0 := by
    simp only [v0]
    repeat' (first
      | with_reducible apply Frame.refl
      | with_reducible assumption
      | with_reducible apply Frame.ite
      | with_reducible apply Frame.then_ ?_ (State.wr_frame ..)
      | with_reducible apply Frame.then_ ?_ (State.wrAt_frame ..)
      | decide
      | with_reducible apply Frame.foldl_fst
      | with_reducible apply Frame.foldl
      | intro y a b c hy
      | intro y a hy
      | intro y hy
      | dsimp only
      | split)
  clear_value v0
  have h_v1 : Frame [.csr] s v1 := by
    simp only [v1]
    repeat' (first
      | with_reducible apply Frame.refl
      | with_reducible assumption
      | with_reducible apply Frame.ite
      | with_reducible apply Frame.then_ ?_ (State.wr_frame ..)
      | with_reducible apply Frame.then_ ?_ (State.wrAt_frame ..)
      | decide
      | with_reducible apply Frame.foldl_fst
      | with_reducible apply Frame.foldl
      | intro y a b c hy
      | intro y a hy
      | intro y hy
      | dsimp only
      | split)
  clear_value v1
  have h_v2 : Frame [.csr] s v2 := by
    simp only [v2]
    repeat' (first
      | with_reducible apply Frame.refl
      | with_reducible assumption
      | with_reducible apply Frame.ite
      | with_reducible apply Frame.then_ ?_ (State.wr_frame ..)
      | with_reducible apply Frame.then_ ?_ (State.wrAt_frame ..)
      | decide
      | with_reducible apply Frame.foldl_fst
      | with_reducible apply Frame.foldl
      | intro y a b c hy
      | intro y a hy
      | intro y hy
      | dsimp only
      | split)
  clear_value v2
  repeat' (first
    | with_reducible apply Frame.refl
    | with_reducible assumption
    | with_reducible apply Frame.ite
    | with_reducible apply Frame.then_ ?_ (State.wr_frame ..)
    | with_reducible apply Frame.then_ ?_ (State.wrAt_frame ..)
    | decide
    | with_reducible apply Frame.foldl_fst
    | with_reducible apply Frame.foldl
    | intro y a b c hy
    | intro y a hy
    | intro y hy
    | dsimp only
    | split)

theorem State.drawNonce_frame (s : State) :
    Frame [.csr, .fresh] s (State.drawNonce s) := by
  unfold State.drawNonce
  try dsimp only
  repeat' (first
    | with_reducible apply Frame.refl
    | with_reducible assumption
    | with_reducible apply Frame.ite
    | with_reducible apply Frame.then_ ?_ (State.drawn_frame ..)
    | with_reducible apply Frame.then_ ?_ (State.wrAt_frame ..)
    | decide
    | dsimp only
    | split)

theorem State.moduleReset_frame (s : State) :
    Frame [.csr, .staged, .mem, .pwr, .clk, .tal, .ptp, .haul, .sch, .pln, .top, .olc, .gen, .wgt, .bench, .frk, .scr, .itk, .clocks, .twn, .fst, .flt, .rrc, .obs, .fresh] s (State.moduleReset s) := by
  unfold State.moduleReset
  dsimp only
  repeat' (first
    | ((with_reducible apply Frame.then_ ?_ (State.drawNonce_frame ..) ?zsub); case zsub => decide)
    | ((with_reducible apply Frame.then_ ?_ (State.showSecurity_frame ..) ?zsub); case zsub => decide)
    | ((with_reducible apply Frame.then_ ?_ (State.wr_frame ..) ?zsub); case zsub => decide))
  simp only [Frame.mk_eq]
  exact Frame.upd (.refl _ s) (hc := fun _ => rfl) (hm := fun _ => rfl) (hh := fun _ => rfl) (hk := fun _ => rfl)

theorem State.powerLost_frame (s : State) :
    Frame [.csr, .staged, .mem, .pwr, .clk, .tal, .ptp, .haul, .sch, .pln, .top, .olc, .gen, .wgt, .bench, .frk, .scr, .itk, .clocks, .twn, .fst, .flt, .rrc, .obs, .fresh] s (State.powerLost s) := by
  unfold State.powerLost
  dsimp only
  repeat' (first
    | ((with_reducible apply Frame.then_ ?_ (State.drawNonce_frame ..) ?zsub); case zsub => decide)
    | ((with_reducible apply Frame.then_ ?_ (State.showSecurity_frame ..) ?zsub); case zsub => decide))
  simp only [Frame.mk_eq]
  exact Frame.upd (.refl _ s) (hc := fun _ => rfl) (hm := fun _ => rfl) (hh := fun _ => rfl) (hk := fun _ => rfl)

theorem State.commitUnit_frame (s : State) (u : UnitJob) :
    Frame [.csr, .haul, .sch, .rrc, .nv, .sent] s (State.commitUnit s u) := by
  unfold State.commitUnit
  split
  · exact .refl _ s
  · exact (Frame.refl _ s).then_ (State.spillCommitted_frame ..) (by decide)
  · simp only [Frame.mk_eq]
    exact Frame.upd (.refl _ s) (hn := ⟨id, le_refl _, le_refl _, fun _ => min_le_left _ _⟩)
  · simp only [Frame.mk_eq]
    exact Frame.upd (.refl _ s) (hn := ⟨id, le_refl _, le_refl _, fun _ => min_le_left _ _⟩)
  · simp only [Frame.mk_eq]
    refine Frame.upd (.refl _ s) (hn := Nv.risesTo_map _ _ ?_)
    rw [List.map_map]
    conv_rhs => rw [← List.zipIdx_map_fst 0 s.nv.keys, List.map_map]
    apply List.map_congr_left
    intro p _
    simp only [Function.comp]
    split <;> rfl

theorem State.fatalNotice_frame (s : State) (old : State) :
    Frame [.csr, .haul, .sch, .sent] s (State.fatalNotice s old) := by
  unfold State.fatalNotice
  try dsimp only
  repeat' (first
    | with_reducible apply Frame.refl
    | with_reducible assumption
    | with_reducible apply Frame.ite
    | with_reducible apply Frame.then_ ?_ (State.inc_frame ..)
    | with_reducible apply Frame.then_ ?_ (State.sendAll_frame ..)
    | decide
    | dsimp only
    | split)

theorem State.moduleFatal_frame (s : State) (source : Nat) (code : Nat) (field : Nat) (unit : Nat) :
Frame [.csr, .staged, .mem, .pwr, .clk, .tal, .ptp, .haul, .sch, .pln, .top, .olc, .gen, .wgt, .bench, .frk, .scr,
      .itk, .clocks, .twn, .fst, .flt, .rrc, .obs, .sent, .fresh] s (State.moduleFatal s source code field unit) := by
  unfold State.moduleFatal
  extract_lets v0 v1 v2
  have h_v0 : Frame [.csr, .staged, .mem, .pwr, .clk, .tal, .ptp, .haul, .sch, .pln, .top, .olc, .gen, .wgt, .bench, .frk, .scr, .itk, .clocks, .twn, .fst, .flt, .rrc, .obs, .sent, .fresh] s v0 := by
    simp only [v0]
    repeat' (first
      | with_reducible apply Frame.refl
      | with_reducible assumption
      | with_reducible apply Frame.ite
      | with_reducible apply Frame.then_ ?_ (State.dieCoreReset_frame ..)
      | with_reducible apply Frame.then_ ?_ (State.fatalNotice_frame ..)
      | with_reducible apply Frame.then_ ?_ (State.haulPlaneReset_frame ..)
      | with_reducible apply Frame.then_ ?_ (State.orderlyShutdown_frame ..)
      | with_reducible apply Frame.then_ ?_ (State.raiseErr_frame ..)
      | with_reducible apply Frame.then_ ?_ (State.wr_frame ..)
      | decide
      | dsimp only
      | split)
  clear_value v0
  have h_v1 : Frame [.csr, .staged, .mem, .pwr, .clk, .tal, .ptp, .haul, .sch, .pln, .top, .olc, .gen, .wgt, .bench, .frk, .scr, .itk, .clocks, .twn, .fst, .flt, .rrc, .obs, .sent, .fresh] s v1 := by
    simp only [v1]
    repeat' (first
      | with_reducible apply Frame.refl
      | with_reducible assumption
      | with_reducible apply Frame.ite
      | with_reducible apply Frame.then_ ?_ (State.dieCoreReset_frame ..)
      | with_reducible apply Frame.then_ ?_ (State.fatalNotice_frame ..)
      | with_reducible apply Frame.then_ ?_ (State.haulPlaneReset_frame ..)
      | with_reducible apply Frame.then_ ?_ (State.orderlyShutdown_frame ..)
      | with_reducible apply Frame.then_ ?_ (State.raiseErr_frame ..)
      | with_reducible apply Frame.then_ ?_ (State.wr_frame ..)
      | decide
      | dsimp only
      | split)
  clear_value v1
  have h_v2 : Frame [.csr, .staged, .mem, .pwr, .clk, .tal, .ptp, .haul, .sch, .pln, .top, .olc, .gen, .wgt, .bench, .frk, .scr, .itk, .clocks, .twn, .fst, .flt, .rrc, .obs, .sent, .fresh] s v2 := by
    simp only [v2]
    repeat' (first
      | with_reducible apply Frame.refl
      | with_reducible assumption
      | with_reducible apply Frame.ite
      | with_reducible apply Frame.then_ ?_ (State.dieCoreReset_frame ..)
      | with_reducible apply Frame.then_ ?_ (State.fatalNotice_frame ..)
      | with_reducible apply Frame.then_ ?_ (State.haulPlaneReset_frame ..)
      | with_reducible apply Frame.then_ ?_ (State.orderlyShutdown_frame ..)
      | with_reducible apply Frame.then_ ?_ (State.raiseErr_frame ..)
      | with_reducible apply Frame.then_ ?_ (State.wr_frame ..)
      | decide
      | dsimp only
      | split)
  clear_value v2
  repeat' (first
    | with_reducible apply Frame.refl
    | with_reducible assumption
    | with_reducible apply Frame.ite
    | with_reducible apply Frame.then_ ?_ (State.dieCoreReset_frame ..)
    | with_reducible apply Frame.then_ ?_ (State.fatalNotice_frame ..)
    | with_reducible apply Frame.then_ ?_ (State.haulPlaneReset_frame ..)
    | with_reducible apply Frame.then_ ?_ (State.orderlyShutdown_frame ..)
    | with_reducible apply Frame.then_ ?_ (State.raiseErr_frame ..)
    | with_reducible apply Frame.then_ ?_ (State.wr_frame ..)
    | decide
    | dsimp only
    | split)

end Sys2Proof.Machine
end

