-- ==== Sys2Proof/Laws/FrameBanks.lean ====
section
/-! SUPPORT. One frame lemma for every operation of Machine/Banks.lean: the parts of the state that it may change. -/

set_option Elab.async false
set_option linter.unusedTactic false
set_option linter.unreachableTactic false

namespace Sys2Proof.Machine

open Sys2Proof

theorem State.epochsSettled_frame (s : State) (c : Nat) (first : Nat) (last : Nat) :
    Frame [.csr, .wgt] s (State.epochsSettled s c first last) := by
  unfold State.epochsSettled
  try dsimp only
  repeat' (first
    | with_reducible apply Frame.refl
    | with_reducible assumption
    | with_reducible apply Frame.ite
    | with_reducible apply Frame.then_ ?_ (State.wrAt_frame ..)
    | decide
    | dsimp only
    | split
    | (fail_if_no_progress simp only [Frame.mk_eq]; refine Frame.upd ?_))

theorem State.declareBad_frame (s : State) (c : Nat) (shard : Nat) (first : Nat) (last : Nat) :
    Frame [.csr, .haul, .sch, .gen, .wgt, .fst, .sent] s (State.declareBad s c shard first last) := by
  unfold State.declareBad
  try dsimp only
  repeat' (first
    | with_reducible apply Frame.refl
    | with_reducible assumption
    | with_reducible apply Frame.ite
    | with_reducible apply Frame.then_ ?_ (State.epochsSettled_frame ..)
    | with_reducible apply Frame.then_ ?_ (State.handItems_frame ..)
    | with_reducible apply Frame.then_ ?_ (State.wr_frame ..)
    | with_reducible apply Frame.then_ ?_ (State.wrAt_frame ..)
    | decide
    | with_reducible apply Frame.foldl_fst
    | with_reducible apply Frame.foldl
    | intro y a b c hy
    | intro y a hy
    | intro y hy
    | dsimp only
    | split)

theorem State.epochBoundary_frame (s : State) (c : Nat) :
    Frame [.csr, .wgt] s (State.epochBoundary s c) := by
  unfold State.epochBoundary
  try dsimp only
  repeat' (first
    | with_reducible apply Frame.refl
    | with_reducible assumption
    | with_reducible apply Frame.ite
    | with_reducible apply Frame.then_ ?_ (State.setWctx_frame ..)
    | with_reducible apply Frame.then_ ?_ (State.wrAt_frame ..)
    | decide
    | dsimp only
    | split)

theorem State.undoBatch_frame (s : State) (c : Nat) (batch : Nat) :
    Frame [.csr, .itk] s (State.undoBatch s c batch) := by
  unfold State.undoBatch
  try dsimp only
  repeat' (first
    | with_reducible apply Frame.refl
    | with_reducible assumption
    | with_reducible apply Frame.ite
    | with_reducible apply Frame.then_ ?_ (State.wrAt_frame ..)
    | decide
    | with_reducible apply Frame.foldl_fst
    | with_reducible apply Frame.foldl
    | intro y a b c hy
    | intro y a hy
    | intro y hy
    | dsimp only
    | split
    | (fail_if_no_progress simp only [Frame.mk_eq]; refine Frame.upd ?_))

theorem State.quarantineSealed_frame (s : State) (c : Nat) (batch : Nat) :
    Frame [.csr, .itk] s (State.quarantineSealed s c batch) := by
  unfold State.quarantineSealed
  try dsimp only
  repeat' (first
    | with_reducible apply Frame.refl
    | with_reducible assumption
    | with_reducible apply Frame.ite
    | with_reducible apply Frame.then_ ?_ (State.setRun_frame ..)
    | with_reducible apply Frame.then_ ?_ (State.undoBatch_frame ..)
    | decide
    | dsimp only
    | split)

theorem State.quarantineCtx_frame (s : State) (c : Nat) (batch : Nat) :
    Frame [.csr, .gen, .wgt, .itk] s (State.quarantineCtx s c batch) := by
  unfold State.quarantineCtx
  try dsimp only
  repeat' (first
    | with_reducible apply Frame.refl
    | with_reducible assumption
    | with_reducible apply Frame.ite
    | with_reducible apply Frame.then_ ?_ (State.markSpan_frame ..)
    | with_reducible apply Frame.then_ ?_ (State.quarantineSealed_frame ..)
    | with_reducible apply Frame.then_ ?_ (State.setWctx_frame ..)
    | with_reducible apply Frame.then_ ?_ (State.wr_frame ..)
    | with_reducible apply Frame.then_ ?_ (State.wrAt_frame ..)
    | decide
    | dsimp only
    | split
    | (fail_if_no_progress simp only [Frame.mk_eq]; refine Frame.upd ?_))

theorem State.sendQuarantine_frame (s : State) (c : Nat) (cause : Nat) (shard : Nat) (first : Nat) (last : Nat)
      (batch : Nat) :
    Frame [.csr, .haul, .sch, .sent] s (State.sendQuarantine s c cause shard first last batch) := by
  unfold State.sendQuarantine
  try dsimp only
  repeat' (first
    | with_reducible apply Frame.refl
    | with_reducible assumption
    | with_reducible apply Frame.ite
    | with_reducible apply Frame.then_ ?_ (State.sendAll_frame ..)
    | decide
    | dsimp only
    | split)

theorem State.activeMismatch_frame (s : State) (c : Nat) (shard : Nat) :
    Frame [.csr, .haul, .sch, .gen, .wgt, .itk, .fst, .sent] s (State.activeMismatch s c shard) := by
  unfold State.activeMismatch
  try dsimp only
  repeat' (first
    | with_reducible apply Frame.refl
    | with_reducible assumption
    | with_reducible apply Frame.ite
    | with_reducible apply Frame.then_ ?_ (State.declareBad_frame ..)
    | with_reducible apply Frame.then_ ?_ (State.quarantineCtx_frame ..)
    | with_reducible apply Frame.then_ ?_ (State.sendQuarantine_frame ..)
    | decide
    | dsimp only
    | split)

theorem State.closingMismatch_frame (s : State) (c : Nat) (shard : Nat) :
    Frame [.csr, .haul, .sch, .gen, .wgt, .fst, .sent] s (State.closingMismatch s c shard) := by
  unfold State.closingMismatch
  try dsimp only
  repeat' (first
    | with_reducible apply Frame.refl
    | with_reducible assumption
    | with_reducible apply Frame.ite
    | with_reducible apply Frame.then_ ?_ (State.declareBad_frame ..)
    | with_reducible apply Frame.then_ ?_ (State.setWctx_frame ..)
    | with_reducible apply Frame.then_ ?_ (State.wrAt_frame ..)
    | decide
    | dsimp only
    | split)

theorem State.repairFailed_frame (s : State) (c : Nat) (shard : Nat) :
    Frame [.csr, .haul, .sch, .gen, .wgt, .itk, .sent] s (State.repairFailed s c shard) := by
  unfold State.repairFailed
  try dsimp only
  repeat' (first
    | with_reducible apply Frame.refl
    | with_reducible assumption
    | with_reducible apply Frame.ite
    | with_reducible apply Frame.then_ ?_ (State.inc_frame ..)
    | with_reducible apply Frame.then_ ?_ (State.quarantineCtx_frame ..)
    | with_reducible apply Frame.then_ ?_ (State.sendQuarantine_frame ..)
    | with_reducible apply Frame.then_ ?_ (State.setWctx_frame ..)
    | decide
    | dsimp only
    | split)

theorem State.startRepair_frame (s : State) (c : Nat) (shard : Nat) :
    Frame [.csr, .haul, .sch, .gen, .wgt, .itk, .sent] s (State.startRepair s c shard) := by
  unfold State.startRepair
  try dsimp only
  repeat' (first
    | with_reducible apply Frame.refl
    | with_reducible assumption
    | with_reducible apply Frame.ite
    | with_reducible apply Frame.then_ ?_ (State.holdRequest_frame ..)
    | with_reducible apply Frame.then_ ?_ (State.repairFailed_frame ..)
    | with_reducible apply Frame.then_ ?_ (State.setWctx_frame ..)
    | decide
    | dsimp only
    | split)

theorem State.emptyLanding_frame (s : State) (c : Nat) (code : Nat) :
    Frame [.csr, .wgt, .scr] s (State.emptyLanding s c code) := by
  unfold State.emptyLanding
  extract_lets v0 v1 v2 v3 v4
  clear_value v0
  clear_value v1
  have h_v2 : Frame [.csr, .wgt, .scr] s v2 := by
    simp only [v2]
    repeat' (first
      | with_reducible apply Frame.refl
      | with_reducible assumption
      | with_reducible apply Frame.ite
      | with_reducible apply Frame.then_ ?_ (State.dropCopies_frame ..)
      | with_reducible apply Frame.then_ ?_ (State.setRoot_frame ..)
      | with_reducible apply Frame.then_ ?_ (State.setWctx_frame ..)
      | with_reducible apply Frame.then_ ?_ (State.wrAt_frame ..)
      | decide
      | dsimp only
      | split)
  clear_value v2
  have h_v3 : Frame [.csr, .wgt, .scr] s v3 := by
    simp only [v3]
    repeat' (first
      | with_reducible apply Frame.refl
      | with_reducible assumption
      | with_reducible apply Frame.ite
      | with_reducible apply Frame.then_ ?_ (State.dropCopies_frame ..)
      | with_reducible apply Frame.then_ ?_ (State.setRoot_frame ..)
      | with_reducible apply Frame.then_ ?_ (State.setWctx_frame ..)
      | with_reducible apply Frame.then_ ?_ (State.wrAt_frame ..)
      | decide
      | dsimp only
      | split)
  clear_value v3
  have h_v4 : Frame [.csr, .wgt, .scr] s v4 := by
    simp only [v4]
    repeat' (first
      | with_reducible apply Frame.refl
      | with_reducible assumption
      | with_reducible apply Frame.ite
      | with_reducible apply Frame.then_ ?_ (State.dropCopies_frame ..)
      | with_reducible apply Frame.then_ ?_ (State.setRoot_frame ..)
      | with_reducible apply Frame.then_ ?_ (State.setWctx_frame ..)
      | with_reducible apply Frame.then_ ?_ (State.wrAt_frame ..)
      | decide
      | dsimp only
      | split)
  clear_value v4
  repeat' (first
    | with_reducible apply Frame.refl
    | with_reducible assumption
    | with_reducible apply Frame.ite
    | with_reducible apply Frame.then_ ?_ (State.dropCopies_frame ..)
    | with_reducible apply Frame.then_ ?_ (State.setRoot_frame ..)
    | with_reducible apply Frame.then_ ?_ (State.setWctx_frame ..)
    | with_reducible apply Frame.then_ ?_ (State.wrAt_frame ..)
    | decide
    | dsimp only
    | split)

end Sys2Proof.Machine
end

