-- ==== Sys2Proof/Laws/FrameStore.lean ====
section
/-! SUPPORT. One frame lemma for every operation of Machine/Store.lean: the parts of the state that it may change. -/

set_option Elab.async false
set_option linter.unusedTactic false
set_option linter.unreachableTactic false

namespace Sys2Proof.Machine

open Sys2Proof

theorem State.lateBench_frame (s : State) (b : Nat) (cycles : Nat) :
    Frame [.csr, .clk] s (State.lateBench s b cycles) := by
  unfold State.lateBench
  try dsimp only
  repeat' (first
    | with_reducible apply Frame.refl
    | with_reducible assumption
    | with_reducible apply Frame.ite
    | with_reducible apply Frame.then_ ?_ (State.incAt_frame ..)
    | with_reducible apply Frame.then_ ?_ (State.wr_frame ..)
    | decide
    | dsimp only
    | split
    | (fail_if_no_progress simp only [Frame.mk_eq]; refine Frame.upd ?_))

theorem State.benchFails_frame (s : State) (b : Nat) :
    Frame [.csr, .pwr, .gen, .flt, .rrc, .obs, .fresh] s (State.benchFails s b) := by
  unfold State.benchFails
  try dsimp only
  repeat' (first
    | with_reducible apply Frame.refl
    | with_reducible assumption
    | with_reducible apply Frame.ite
    | with_reducible apply Frame.then_ ?_ (State.contained_frame ..)
    | with_reducible apply Frame.then_ ?_ (State.wrAt_frame ..)
    | decide
    | dsimp only
    | split
    | (fail_if_no_progress simp only [Frame.mk_eq]; refine Frame.upd ?_))

theorem State.noteBenchErr_frame (s : State) (b : Nat) :
    Frame [.csr, .pwr, .gen, .flt, .rrc, .obs, .fresh] s (State.noteBenchErr s b) := by
  unfold State.noteBenchErr
  try dsimp only
  repeat' (first
    | with_reducible apply Frame.refl
    | with_reducible assumption
    | with_reducible apply Frame.ite
    | with_reducible apply Frame.then_ ?_ (State.benchFails_frame ..)
    | decide
    | dsimp only
    | split
    | (fail_if_no_progress simp only [Frame.mk_eq]; refine Frame.upd ?_))

theorem State.seqFault_frame (s : State) (b : Nat) (code : Nat) (pc : Nat) :
    Frame [.csr, .pwr, .gen, .flt, .rrc, .obs, .fresh] s (State.seqFault s b code pc) := by
  unfold State.seqFault
  extract_lets v0 v1 v2 v3 v4
  clear_value v0
  clear_value v1
  have h_v2 : Frame [.csr, .pwr, .gen, .flt, .rrc, .obs, .fresh] s v2 := by
    simp only [v2]
    repeat' (first
      | with_reducible apply Frame.refl
      | with_reducible assumption
      | with_reducible apply Frame.ite
      | with_reducible apply Frame.then_ ?_ (State.benchFails_frame ..)
      | with_reducible apply Frame.then_ ?_ (State.wrAt_frame ..)
      | decide
      | dsimp only
      | split
      | (fail_if_no_progress simp only [Frame.mk_eq]; refine Frame.upd ?_))
  clear_value v2
  have h_v3 : Frame [.csr, .pwr, .gen, .flt, .rrc, .obs, .fresh] s v3 := by
    simp only [v3]
    repeat' (first
      | with_reducible apply Frame.refl
      | with_reducible assumption
      | with_reducible apply Frame.ite
      | with_reducible apply Frame.then_ ?_ (State.benchFails_frame ..)
      | with_reducible apply Frame.then_ ?_ (State.wrAt_frame ..)
      | decide
      | dsimp only
      | split
      | (fail_if_no_progress simp only [Frame.mk_eq]; refine Frame.upd ?_))
  clear_value v3
  have h_v4 : Frame [.csr, .pwr, .gen, .flt, .rrc, .obs, .fresh] s v4 := by
    simp only [v4]
    repeat' (first
      | with_reducible apply Frame.refl
      | with_reducible assumption
      | with_reducible apply Frame.ite
      | with_reducible apply Frame.then_ ?_ (State.benchFails_frame ..)
      | with_reducible apply Frame.then_ ?_ (State.wrAt_frame ..)
      | decide
      | dsimp only
      | split
      | (fail_if_no_progress simp only [Frame.mk_eq]; refine Frame.upd ?_))
  clear_value v4
  repeat' (first
    | with_reducible apply Frame.refl
    | with_reducible assumption
    | with_reducible apply Frame.ite
    | with_reducible apply Frame.then_ ?_ (State.benchFails_frame ..)
    | with_reducible apply Frame.then_ ?_ (State.wrAt_frame ..)
    | decide
    | dsimp only
    | split
    | (fail_if_no_progress simp only [Frame.mk_eq]; refine Frame.upd ?_))

theorem State.benchFatal_frame (s : State) (b : Nat) (code : Nat) (info : Nat) :
    Frame [.csr, .pwr, .haul, .sch, .gen, .flt, .rrc, .obs, .sent, .fresh] s (State.benchFatal s b code info) := by
  unfold State.benchFatal
  try dsimp only
  repeat' (first
    | with_reducible apply Frame.refl
    | with_reducible assumption
    | with_reducible apply Frame.ite
    | with_reducible apply Frame.then_ ?_ (State.noteBenchErr_frame ..)
    | with_reducible apply Frame.then_ ?_ (State.stepFatal_frame ..)
    | decide
    | dsimp only
    | split)

theorem State.storeCorrected_frame (s : State) (b : Nat) (a : Nat) :
    Frame [.csr, .pwr, .flt, .rrc, .obs, .fresh] s (State.storeCorrected s b a) := by
  unfold State.storeCorrected
  extract_lets v0 v1
  have h_v0 : Frame [.csr, .pwr, .flt, .rrc, .obs, .fresh] s v0 := by
    simp only [v0]
    repeat' (first
      | with_reducible apply Frame.refl
      | with_reducible assumption
      | with_reducible apply Frame.ite
      | with_reducible apply Frame.then_ ?_ (State.corrected_frame ..)
      | with_reducible apply Frame.then_ ?_ (State.incAt_frame ..)
      | with_reducible apply Frame.then_ ?_ (State.wrAt_frame ..)
      | decide
      | dsimp only
      | split)
  clear_value v0
  have h_v1 : Frame [.csr, .pwr, .flt, .rrc, .obs, .fresh] s v1 := by
    simp only [v1]
    repeat' (first
      | with_reducible apply Frame.refl
      | with_reducible assumption
      | with_reducible apply Frame.ite
      | with_reducible apply Frame.then_ ?_ (State.corrected_frame ..)
      | with_reducible apply Frame.then_ ?_ (State.incAt_frame ..)
      | with_reducible apply Frame.then_ ?_ (State.wrAt_frame ..)
      | decide
      | dsimp only
      | split)
  clear_value v1
  repeat' (first
    | with_reducible apply Frame.refl
    | with_reducible assumption
    | with_reducible apply Frame.ite
    | with_reducible apply Frame.then_ ?_ (State.corrected_frame ..)
    | with_reducible apply Frame.then_ ?_ (State.incAt_frame ..)
    | with_reducible apply Frame.then_ ?_ (State.wrAt_frame ..)
    | decide
    | dsimp only
    | split)

theorem State.storeUncorrectable_frame (s : State) (b : Nat) (a : Nat) :
    Frame [.csr, .pwr, .haul, .sch, .gen, .flt, .rrc, .obs, .sent, .fresh] s (State.storeUncorrectable s b a) := by
  unfold State.storeUncorrectable
  extract_lets v0 v1
  have h_v0 : Frame [.csr, .pwr, .haul, .sch, .gen, .flt, .rrc, .obs, .sent, .fresh] s v0 := by
    simp only [v0]
    repeat' (first
      | with_reducible apply Frame.refl
      | with_reducible assumption
      | with_reducible apply Frame.ite
      | with_reducible apply Frame.then_ ?_ (State.benchFatal_frame ..)
      | with_reducible apply Frame.then_ ?_ (State.incAt_frame ..)
      | with_reducible apply Frame.then_ ?_ (State.wrAt_frame ..)
      | decide
      | dsimp only
      | split)
  clear_value v0
  have h_v1 : Frame [.csr, .pwr, .haul, .sch, .gen, .flt, .rrc, .obs, .sent, .fresh] s v1 := by
    simp only [v1]
    repeat' (first
      | with_reducible apply Frame.refl
      | with_reducible assumption
      | with_reducible apply Frame.ite
      | with_reducible apply Frame.then_ ?_ (State.benchFatal_frame ..)
      | with_reducible apply Frame.then_ ?_ (State.incAt_frame ..)
      | with_reducible apply Frame.then_ ?_ (State.wrAt_frame ..)
      | decide
      | dsimp only
      | split)
  clear_value v1
  repeat' (first
    | with_reducible apply Frame.refl
    | with_reducible assumption
    | with_reducible apply Frame.ite
    | with_reducible apply Frame.then_ ?_ (State.benchFatal_frame ..)
    | with_reducible apply Frame.then_ ?_ (State.incAt_frame ..)
    | with_reducible apply Frame.then_ ?_ (State.wrAt_frame ..)
    | decide
    | dsimp only
    | split)

theorem State.readStore_frame (s : State) (b : Nat) (ecc : Ecc) :
    Frame [.csr, .pwr, .haul, .sch, .gen, .flt, .rrc, .obs, .sent, .fresh] s (State.readStore s b ecc).1 := by
  unfold State.readStore
  try dsimp only
  repeat' (first
    | with_reducible apply Frame.refl
    | with_reducible assumption
    | with_reducible apply Frame.ite
    | with_reducible apply Frame.then_ ?_ (State.storeCorrected_frame ..)
    | with_reducible apply Frame.then_ ?_ (State.storeUncorrectable_frame ..)
    | decide
    | with_reducible apply Frame.foldl_fst
    | with_reducible apply Frame.foldl
    | intro y a b c hy
    | intro y a hy
    | intro y hy
    | dsimp only
    | split)

theorem State.scrubNext_frame (s : State) (key : Nat) (n : Nat) :
    Frame [.scr] s (State.scrubNext s key n).1 := by
  unfold State.scrubNext
  try dsimp only
  repeat' (first
    | with_reducible apply Frame.refl
    | with_reducible assumption
    | with_reducible apply Frame.ite
    | decide
    | dsimp only
    | split
    | (fail_if_no_progress simp only [Frame.mk_eq]; refine Frame.upd ?_))

end Sys2Proof.Machine
end

