-- ==== Sys2Proof/Laws/FrameForks.lean ====
section
/-! SUPPORT. One frame lemma for every operation of Machine/Forks.lean: the parts of the state that it may change. -/

set_option Elab.async false
set_option linter.unusedTactic false
set_option linter.unreachableTactic false

namespace Sys2Proof.Machine

open Sys2Proof

theorem State.setFork_frame (s : State) (n : Nat) (r : ForkRun) :
    Frame [.frk] s (State.setFork s n r) := by
  unfold State.setFork
  try dsimp only
  repeat' (first
    | with_reducible apply Frame.refl
    | with_reducible assumption
    | with_reducible apply Frame.ite
    | decide
    | dsimp only
    | split
    | (fail_if_no_progress simp only [Frame.mk_eq]; refine Frame.upd ?_))

theorem State.showPending_frame (s : State) :
    Frame [.csr] s (State.showPending s) := by
  unfold State.showPending
  try dsimp only
  repeat' (first
    | with_reducible apply Frame.refl
    | with_reducible assumption
    | with_reducible apply Frame.ite
    | with_reducible apply Frame.then_ ?_ (State.wr_frame ..)
    | decide
    | dsimp only
    | split)

theorem State.latchDecision_frame (s : State) (f : ForkPoint) (word : Nat) :
    Frame [.csr, .frk, .obs, .fresh] s (State.latchDecision s f word) := by
  unfold State.latchDecision
  extract_lets v0 v1 v2 v3 v4 v5
  clear_value v0
  clear_value v1
  have h_v2 : Frame [.csr, .frk, .obs, .fresh] s v2 := by
    simp only [v2]
    repeat' (first
      | with_reducible apply Frame.refl
      | with_reducible assumption
      | with_reducible apply Frame.ite
      | with_reducible apply Frame.then_ ?_ (State.inc_frame ..)
      | with_reducible apply Frame.then_ ?_ (State.setFork_frame ..)
      | with_reducible apply Frame.then_ ?_ (State.trace_frame ..)
      | with_reducible apply Frame.then_ ?_ (State.wr_frame ..)
      | with_reducible apply Frame.then_ ?_ (State.wrAt_frame ..)
      | decide
      | with_reducible apply Frame.foldl_fst
      | with_reducible apply Frame.foldl
      | intro y a b c hy
      | intro y a hy
      | intro y hy
      | dsimp only
      | split)
  clear_value v2
  have h_v3 : Frame [.csr, .frk, .obs, .fresh] s v3 := by
    simp only [v3]
    repeat' (first
      | with_reducible apply Frame.refl
      | with_reducible assumption
      | with_reducible apply Frame.ite
      | with_reducible apply Frame.then_ ?_ (State.inc_frame ..)
      | with_reducible apply Frame.then_ ?_ (State.setFork_frame ..)
      | with_reducible apply Frame.then_ ?_ (State.trace_frame ..)
      | with_reducible apply Frame.then_ ?_ (State.wr_frame ..)
      | with_reducible apply Frame.then_ ?_ (State.wrAt_frame ..)
      | decide
      | with_reducible apply Frame.foldl_fst
      | with_reducible apply Frame.foldl
      | intro y a b c hy
      | intro y a hy
      | intro y hy
      | dsimp only
      | split)
  clear_value v3
  have h_v4 : Frame [.csr, .frk, .obs, .fresh] s v4 := by
    simp only [v4]
    repeat' (first
      | with_reducible apply Frame.refl
      | with_reducible assumption
      | with_reducible apply Frame.ite
      | with_reducible apply Frame.then_ ?_ (State.inc_frame ..)
      | with_reducible apply Frame.then_ ?_ (State.setFork_frame ..)
      | with_reducible apply Frame.then_ ?_ (State.trace_frame ..)
      | with_reducible apply Frame.then_ ?_ (State.wr_frame ..)
      | with_reducible apply Frame.then_ ?_ (State.wrAt_frame ..)
      | decide
      | with_reducible apply Frame.foldl_fst
      | with_reducible apply Frame.foldl
      | intro y a b c hy
      | intro y a hy
      | intro y hy
      | dsimp only
      | split)
  clear_value v4
  have h_v5 : Frame [.csr, .frk, .obs, .fresh] s v5 := by
    simp only [v5]
    repeat' (first
      | with_reducible apply Frame.refl
      | with_reducible assumption
      | with_reducible apply Frame.ite
      | with_reducible apply Frame.then_ ?_ (State.inc_frame ..)
      | with_reducible apply Frame.then_ ?_ (State.setFork_frame ..)
      | with_reducible apply Frame.then_ ?_ (State.trace_frame ..)
      | with_reducible apply Frame.then_ ?_ (State.wr_frame ..)
      | with_reducible apply Frame.then_ ?_ (State.wrAt_frame ..)
      | decide
      | with_reducible apply Frame.foldl_fst
      | with_reducible apply Frame.foldl
      | intro y a b c hy
      | intro y a hy
      | intro y hy
      | dsimp only
      | split)
  clear_value v5
  repeat' (first
    | with_reducible apply Frame.refl
    | with_reducible assumption
    | with_reducible apply Frame.ite
    | with_reducible apply Frame.then_ ?_ (State.inc_frame ..)
    | with_reducible apply Frame.then_ ?_ (State.setFork_frame ..)
    | with_reducible apply Frame.then_ ?_ (State.trace_frame ..)
    | with_reducible apply Frame.then_ ?_ (State.wr_frame ..)
    | with_reducible apply Frame.then_ ?_ (State.wrAt_frame ..)
    | decide
    | with_reducible apply Frame.foldl_fst
    | with_reducible apply Frame.foldl
    | intro y a b c hy
    | intro y a hy
    | intro y hy
    | dsimp only
    | split)

theorem State.staleHeader_frame (s : State) :
    Frame [.csr] s (State.staleHeader s) := by
  unfold State.staleHeader
  try dsimp only
  repeat' (first
    | with_reducible apply Frame.refl
    | with_reducible assumption
    | with_reducible apply Frame.ite
    | with_reducible apply Frame.then_ ?_ (State.inc_frame ..)
    | with_reducible apply Frame.then_ ?_ (State.wr_frame ..)
    | decide
    | dsimp only
    | split)

theorem execForkDecisionReceived_frame (header : Nat) (s : State) :
    Frames [.csr, .pwr, .haul, .sch, .frk, .flt, .rrc, .obs, .sent, .fresh] s (execForkDecisionReceived header s) := by
  unfold execForkDecisionReceived
  try dsimp only
  repeat' (first
    | with_reducible apply Frame.refl
    | with_reducible assumption
    | with_reducible apply Frames.next
    | with_reducible apply Frames.fault
    | with_reducible apply Frames.refused
    | with_reducible apply Frame.ite
    | with_reducible apply Frames.ite
    | with_reducible apply Frame.then_ ?_ (State.latchDecision_frame ..)
    | with_reducible apply Frame.then_ ?_ (State.staleHeader_frame ..)
    | with_reducible apply Frame.then_ ?_ (State.stepFatal_frame ..)
    | with_reducible apply Frame.then_ ?_ (State.wr_frame ..)
    | decide
    | dsimp only
    | split)

theorem execForkDeadlineCheck_frame (fork : Fin 4096) (s : State) :
    Frames [.csr, .pwr, .haul, .sch, .frk, .flt, .rrc, .obs, .sent, .fresh] s (execForkDeadlineCheck fork s) := by
  unfold execForkDeadlineCheck
  try dsimp only
  repeat' (first
    | with_reducible apply Frame.refl
    | with_reducible assumption
    | with_reducible apply Frames.next
    | with_reducible apply Frames.fault
    | with_reducible apply Frames.refused
    | with_reducible apply Frame.ite
    | with_reducible apply Frames.ite
    | with_reducible apply Frame.then_ ?_ (State.holdRequest_frame ..)
    | with_reducible apply Frame.then_ ?_ (State.inc_frame ..)
    | with_reducible apply Frame.then_ ?_ (State.setFork_frame ..)
    | with_reducible apply Frame.then_ ?_ (State.stepFatal_frame ..)
    | with_reducible apply Frame.then_ ?_ (State.wr_frame ..)
    | with_reducible apply Frame.then_ ?_ (State.wrAt_frame ..)
    | decide
    | dsimp only
    | split)

theorem State.forkTaken_frame (s : State) (b : Nat) (n : Nat) (v : Nat) :
    Frame [.csr, .bench] s (State.forkTaken s b n v) := by
  unfold State.forkTaken
  try dsimp only
  repeat' (first
    | with_reducible apply Frame.refl
    | with_reducible assumption
    | with_reducible apply Frame.ite
    | with_reducible apply Frame.then_ ?_ (State.resume_frame ..)
    | with_reducible apply Frame.then_ ?_ (State.setBench_frame ..)
    | decide
    | dsimp only
    | split)

theorem State.backfillStarts_frame (s : State) (f : ForkPoint) (e : Nat) (b : Nat) :
    Frame [.csr, .bench] s (State.backfillStarts s f e b) := by
  unfold State.backfillStarts
  try dsimp only
  repeat' (first
    | with_reducible apply Frame.refl
    | with_reducible assumption
    | with_reducible apply Frame.ite
    | with_reducible apply Frame.then_ ?_ (State.spanStarts_frame ..)
    | decide
    | dsimp only
    | split)

theorem State.backfillEnds_frame (s : State) (b : Nat) (n : Nat) :
    Frame [.csr, .bench] s (State.backfillEnds s b n) := by
  unfold State.backfillEnds
  try dsimp only
  repeat' (first
    | with_reducible apply Frame.refl
    | with_reducible assumption
    | with_reducible apply Frame.ite
    | with_reducible apply Frame.then_ ?_ (State.resume_frame ..)
    | with_reducible apply Frame.then_ ?_ (State.setBench_frame ..)
    | with_reducible apply Frame.then_ ?_ (State.spanEnds_frame ..)
    | decide
    | dsimp only
    | split)

theorem State.commitFork_frame (s : State) (f : ForkPoint) (w : Nat) :
    Frame [.csr, .bench, .frk, .obs, .fresh] s (State.commitFork s f w) := by
  unfold State.commitFork
  try dsimp only
  repeat' (first
    | with_reducible apply Frame.refl
    | with_reducible assumption
    | with_reducible apply Frame.ite
    | with_reducible apply Frame.then_ ?_ (State.forkTaken_frame ..)
    | with_reducible apply Frame.then_ ?_ (State.setFork_frame ..)
    | with_reducible apply Frame.then_ ?_ (State.showPending_frame ..)
    | with_reducible apply Frame.then_ ?_ (State.trace_frame ..)
    | with_reducible apply Frame.then_ ?_ (State.wrAt_frame ..)
    | decide
    | with_reducible apply Frame.foldl_fst
    | with_reducible apply Frame.foldl
    | intro y a b c hy
    | intro y a hy
    | intro y hy
    | dsimp only
    | split)

theorem State.endVariant_frame (s : State) (f : ForkPoint) :
    Frame [.csr, .bench, .frk] s (State.endVariant s f) := by
  unfold State.endVariant
  try dsimp only
  repeat' (first
    | with_reducible apply Frame.refl
    | with_reducible assumption
    | with_reducible apply Frame.ite
    | with_reducible apply Frame.then_ ?_ (State.backfillStarts_frame ..)
    | with_reducible apply Frame.then_ ?_ (State.setFork_frame ..)
    | decide
    | with_reducible apply Frame.foldl_fst
    | with_reducible apply Frame.foldl
    | intro y a b c hy
    | intro y a hy
    | intro y hy
    | dsimp only
    | split)

theorem State.rejoinFork_frame (s : State) (f : ForkPoint) :
    Frame [.csr, .bench, .frk] s (State.rejoinFork s f) := by
  unfold State.rejoinFork
  try dsimp only
  repeat' (first
    | with_reducible apply Frame.refl
    | with_reducible assumption
    | with_reducible apply Frame.ite
    | with_reducible apply Frame.then_ ?_ (State.backfillEnds_frame ..)
    | with_reducible apply Frame.then_ ?_ (State.setFork_frame ..)
    | decide
    | with_reducible apply Frame.foldl_fst
    | with_reducible apply Frame.foldl
    | intro y a b c hy
    | intro y a hy
    | intro y hy
    | dsimp only
    | split)

theorem State.forksBeat_frame (s : State) :
    Frame [.csr, .bench, .frk, .obs, .fresh] s (State.forksBeat s) := by
  unfold State.forksBeat
  try dsimp only
  repeat' (first
    | with_reducible apply Frame.refl
    | with_reducible assumption
    | with_reducible apply Frame.ite
    | with_reducible apply Frame.then_ ?_ (State.commitFork_frame ..)
    | with_reducible apply Frame.then_ ?_ (State.endVariant_frame ..)
    | with_reducible apply Frame.then_ ?_ (State.rejoinFork_frame ..)
    | decide
    | with_reducible apply Frame.foldl_fst
    | with_reducible apply Frame.foldl
    | intro y a b c hy
    | intro y a hy
    | intro y hy
    | dsimp only
    | split)

theorem execForkCommit_frame (fork : Fin 4096) (s : State) :
    Frames [.csr, .pwr, .haul, .sch, .gen, .bench, .frk, .flt, .rrc, .obs, .sent, .fresh] s (execForkCommit fork s) := by
  unfold execForkCommit
  try dsimp only
  repeat' (first
    | with_reducible apply Frame.refl
    | with_reducible assumption
    | with_reducible apply Frames.next
    | with_reducible apply Frames.fault
    | with_reducible apply Frames.refused
    | with_reducible apply Frame.ite
    | with_reducible apply Frames.ite
    | with_reducible apply Frame.then_ ?_ (State.commitFork_frame ..)
    | with_reducible apply Frame.then_ ?_ (State.seqFault_frame ..)
    | with_reducible apply Frame.then_ ?_ (State.stepFatal_frame ..)
    | with_reducible apply Frame.then_ ?_ (State.wr_frame ..)
    | decide
    | with_reducible apply Frame.foldl_fst
    | with_reducible apply Frame.foldl
    | intro y a b c hy
    | intro y a hy
    | intro y hy
    | dsimp only
    | split)

theorem execForkVariantEnd_frame (fork : Fin 4096) (s : State) :
    Frames [.csr, .bench, .frk] s (execForkVariantEnd fork s) := by
  unfold execForkVariantEnd
  try dsimp only
  repeat' (first
    | with_reducible apply Frame.refl
    | with_reducible assumption
    | with_reducible apply Frames.next
    | with_reducible apply Frames.fault
    | with_reducible apply Frames.refused
    | with_reducible apply Frame.ite
    | with_reducible apply Frames.ite
    | with_reducible apply Frame.then_ ?_ (State.endVariant_frame ..)
    | decide
    | dsimp only
    | split)

theorem execForkRejoin_frame (fork : Fin 4096) (s : State) :
    Frames [.csr, .bench, .frk] s (execForkRejoin fork s) := by
  unfold execForkRejoin
  try dsimp only
  repeat' (first
    | with_reducible apply Frame.refl
    | with_reducible assumption
    | with_reducible apply Frames.next
    | with_reducible apply Frames.fault
    | with_reducible apply Frames.refused
    | with_reducible apply Frame.ite
    | with_reducible apply Frames.ite
    | with_reducible apply Frame.then_ ?_ (State.rejoinFork_frame ..)
    | decide
    | dsimp only
    | split)

end Sys2Proof.Machine
end

