-- ==== Sys2Proof/Laws/FrameMesh.lean ====
section
/-! SUPPORT. One frame lemma for every operation of Machine/Mesh.lean: the parts of the state that it may change. -/

set_option Elab.async false
set_option linter.unusedTactic false
set_option linter.unreachableTactic false

namespace Sys2Proof.Machine

open Sys2Proof

theorem State.stallKey_frame (s : State) (key : Nat) :
    Frame [.clk] s (State.stallKey s key) := by
  unfold State.stallKey
  try dsimp only
  repeat' (first
    | with_reducible apply Frame.refl
    | with_reducible assumption
    | with_reducible apply Frame.ite
    | decide
    | dsimp only
    | split
    | (fail_if_no_progress simp only [Frame.mk_eq]; refine Frame.upd ?_))

theorem State.stallAt_frame (s : State) (key : Nat) (b : Nat) :
    Frame [.csr, .clk, .bench] s (State.stallAt s key b) := by
  unfold State.stallAt
  try dsimp only
  repeat' (first
    | with_reducible apply Frame.refl
    | with_reducible assumption
    | with_reducible apply Frame.ite
    | with_reducible apply Frame.then_ ?_ (State.setBench_frame ..)
    | with_reducible apply Frame.then_ ?_ (State.stallKey_frame ..)
    | with_reducible apply Frame.then_ ?_ (State.wrAt_frame ..)
    | decide
    | dsimp only
    | split)

theorem State.noteEntered_frame (s : State) (key : Nat) (n : Nat) :
    Frame [.clk] s (State.noteEntered s key n) := by
  unfold State.noteEntered
  try dsimp only
  repeat' (first
    | with_reducible apply Frame.refl
    | with_reducible assumption
    | with_reducible apply Frame.ite
    | decide
    | dsimp only
    | split
    | (fail_if_no_progress simp only [Frame.mk_eq]; refine Frame.upd ?_))

theorem State.enterCrossing_frame (s : State) (k : Nat) (r : MeshRoute) (pos : Nat) (x : Crossing) (i : Nat) :
    Frame [.csr, .clk, .bench] s (State.enterCrossing s k r pos x i) := by
  unfold State.enterCrossing
  try dsimp only
  repeat' (first
    | with_reducible apply Frame.refl
    | with_reducible assumption
    | with_reducible apply Frame.ite
    | with_reducible apply Frame.then_ ?_ (State.noteEntered_frame ..)
    | with_reducible apply Frame.then_ ?_ (State.stallAt_frame ..)
    | decide
    | dsimp only
    | split
    | (fail_if_no_progress simp only [Frame.mk_eq]; refine Frame.upd ?_))

theorem State.leaveCrossing_frame (s : State) (k : Nat) (r : MeshRoute) (pos : Nat) (x : Crossing) (i : Nat) :
    Frame [.clk] s (State.leaveCrossing s k r pos x i) := by
  unfold State.leaveCrossing
  try dsimp only
  repeat' (first
    | with_reducible apply Frame.refl
    | with_reducible assumption
    | with_reducible apply Frame.ite
    | decide
    | dsimp only
    | split
    | (fail_if_no_progress simp only [Frame.mk_eq]; refine Frame.upd ?_))

theorem State.moveFlits_frame (s : State) (r : MeshRoute) :
    Frame [.csr, .clk, .bench] s (State.moveFlits s r) := by
  unfold State.moveFlits
  try dsimp only
  repeat' (first
    | with_reducible apply Frame.refl
    | with_reducible assumption
    | with_reducible apply Frame.ite
    | with_reducible apply Frame.then_ ?_ (State.enterCrossing_frame ..)
    | with_reducible apply Frame.then_ ?_ (State.leaveCrossing_frame ..)
    | with_reducible apply Frame.then_ ?_ (State.stallAt_frame ..)
    | decide
    | with_reducible apply Frame.foldl_fst
    | with_reducible apply Frame.foldl
    | intro y a b c hy
    | intro y a hy
    | intro y hy
    | dsimp only
    | split)

theorem State.tickMesh_frame (s : State) :
    Frame [.csr, .clk, .bench] s (State.tickMesh s) := by
  unfold State.tickMesh
  try dsimp only
  repeat' (first
    | with_reducible apply Frame.refl
    | with_reducible assumption
    | with_reducible apply Frame.ite
    | with_reducible apply Frame.then_ ?_ (State.moveFlits_frame ..)
    | decide
    | with_reducible apply Frame.foldl_fst
    | with_reducible apply Frame.foldl
    | intro y a b c hy
    | intro y a hy
    | intro y hy
    | dsimp only
    | split
    | (fail_if_no_progress simp only [Frame.mk_eq]; refine Frame.upd ?_))

theorem State.fill_frame (s : State) (d : Delivery) :
    Frame [.csr, .clk, .bench] s (State.fill s d).1 := by
  unfold State.fill
  try dsimp only
  repeat' (first
    | with_reducible apply Frame.refl
    | with_reducible assumption
    | with_reducible apply Frame.ite
    | with_reducible apply Frame.then_ ?_ (State.noteEntered_frame ..)
    | with_reducible apply Frame.then_ ?_ (State.stallAt_frame ..)
    | with_reducible apply Frame.then_ ?_ (State.stallKey_frame ..)
    | decide
    | dsimp only
    | split)

theorem State.enqueue_frame (s : State) (d : Delivery) :
    Frame [.csr, .mem, .clk, .bench, .scr] s (State.enqueue s d) := by
  unfold State.enqueue
  try dsimp only
  repeat' (first
    | with_reducible apply Frame.refl
    | with_reducible assumption
    | with_reducible apply Frame.ite
    | with_reducible apply Frame.then_ ?_ (State.fill_frame ..)
    | (with_reducible apply Frame.then_ ?_ (Frame.of_eq (State.fill_frame ..) (by assumption)))
    | with_reducible apply Frame.then_ ?_ (State.land_frame ..)
    | decide
    | dsimp only
    | split
    | (fail_if_no_progress simp only [Frame.mk_eq]; refine Frame.upd ?_))

theorem State.deliver_frame (s : State) (d : Delivery) :
    Frame [.csr, .mem, .sch, .bench] s (State.deliver s d) := by
  unfold State.deliver
  extract_lets v0 v1 v2
  have h_v0 : Frame [.csr, .mem, .sch, .bench] s v0 := by
    simp only [v0]
    repeat' (first
      | with_reducible apply Frame.refl
      | with_reducible assumption
      | with_reducible apply Frame.ite
      | with_reducible apply Frame.then_ ?_ (State.bumpCounter_frame ..)
      | with_reducible apply Frame.then_ ?_ (State.setBytes_frame ..)
      | decide
      | dsimp only
      | split
      | (fail_if_no_progress simp only [Frame.mk_eq]; refine Frame.upd ?_))
  clear_value v0
  have h_v1 : Frame [.csr, .mem, .sch, .bench] s v1 := by
    simp only [v1]
    repeat' (first
      | with_reducible apply Frame.refl
      | with_reducible assumption
      | with_reducible apply Frame.ite
      | with_reducible apply Frame.then_ ?_ (State.bumpCounter_frame ..)
      | with_reducible apply Frame.then_ ?_ (State.setBytes_frame ..)
      | decide
      | dsimp only
      | split
      | (fail_if_no_progress simp only [Frame.mk_eq]; refine Frame.upd ?_))
  clear_value v1
  clear_value v2
  repeat' (first
    | with_reducible apply Frame.refl
    | with_reducible assumption
    | with_reducible apply Frame.ite
    | with_reducible apply Frame.then_ ?_ (State.bumpCounter_frame ..)
    | with_reducible apply Frame.then_ ?_ (State.setBytes_frame ..)
    | decide
    | dsimp only
    | split
    | (fail_if_no_progress simp only [Frame.mk_eq]; refine Frame.upd ?_))

theorem State.enter_frame (s : State) (i : Nat) :
    Frame [.csr, .clk, .bench, .scr] s (State.enter s i) := by
  unfold State.enter
  try dsimp only
  repeat' (first
    | with_reducible apply Frame.refl
    | with_reducible assumption
    | with_reducible apply Frame.ite
    | with_reducible apply Frame.then_ ?_ (State.fill_frame ..)
    | (with_reducible apply Frame.then_ ?_ (Frame.of_eq (State.fill_frame ..) (by assumption)))
    | decide
    | dsimp only
    | split
    | (fail_if_no_progress simp only [Frame.mk_eq]; refine Frame.upd ?_))

theorem State.tickQueues_frame (s : State) :
    Frame [.csr, .mem, .clk, .sch, .bench, .scr] s (State.tickQueues s) := by
  unfold State.tickQueues
  try dsimp only
  repeat' (first
    | with_reducible apply Frame.refl
    | with_reducible assumption
    | with_reducible apply Frame.ite
    | with_reducible apply Frame.then_ ?_ (State.deliver_frame ..)
    | with_reducible apply Frame.then_ ?_ (State.enter_frame ..)
    | with_reducible apply Frame.then_ ?_ (State.stallAt_frame ..)
    | with_reducible apply Frame.then_ ?_ (State.stallKey_frame ..)
    | decide
    | with_reducible apply Frame.foldl_fst
    | with_reducible apply Frame.foldl
    | intro y a b c hy
    | intro y a hy
    | intro y hy
    | dsimp only
    | split
    | (fail_if_no_progress simp only [Frame.mk_eq]; refine Frame.upd ?_))

theorem State.resumeAt_frame (s : State) (key : Nat) :
    Frame [.csr, .bench] s (State.resumeAt s key) := by
  unfold State.resumeAt
  try dsimp only
  repeat' (first
    | with_reducible apply Frame.refl
    | with_reducible assumption
    | with_reducible apply Frame.ite
    | with_reducible apply Frame.then_ ?_ (State.resume_frame ..)
    | decide
    | with_reducible apply Frame.foldl_fst
    | with_reducible apply Frame.foldl
    | intro y a b c hy
    | intro y a hy
    | intro y hy
    | dsimp only
    | split)

end Sys2Proof.Machine
end

