-- ==== Sys2Proof/Laws/FrameSct.lean ====
section
/-! SUPPORT. One frame lemma for every operation of Machine/Sct.lean: the parts of the state that it may change. -/

set_option Elab.async false
set_option linter.unusedTactic false
set_option linter.unreachableTactic false

namespace Sys2Proof.Machine

open Sys2Proof

theorem State.setBucketEntry_frame (s : State) (a : Nat) (x : Nat) (v : Option IndexEntry) :
    Frame [.itk] s (State.setBucketEntry s a x v) := by
  unfold State.setBucketEntry
  try dsimp only
  repeat' (first
    | with_reducible apply Frame.refl
    | with_reducible assumption
    | with_reducible apply Frame.ite
    | decide
    | dsimp only
    | split
    | (fail_if_no_progress simp only [Frame.mk_eq]; refine Frame.upd ?_))

theorem State.setStash_frame (s : State) (e : IntakeEntry) (t : Nat) (v : Option IndexEntry) :
    Frame [.csr, .itk] s (State.setStash s e t v) := by
  unfold State.setStash
  try dsimp only
  repeat' (first
    | with_reducible apply Frame.refl
    | with_reducible assumption
    | with_reducible apply Frame.ite
    | with_reducible apply Frame.then_ ?_ (State.wrAt_frame ..)
    | decide
    | dsimp only
    | split
    | (fail_if_no_progress simp only [Frame.mk_eq]; refine Frame.upd ?_))

theorem State.stateLost_frame (s : State) (c : Nat) (what : Nat) (addr : Nat) :
    Frame [.csr] s (State.stateLost s c what addr) := by
  unfold State.stateLost
  try dsimp only
  repeat' (first
    | with_reducible apply Frame.refl
    | with_reducible assumption
    | with_reducible apply Frame.ite
    | with_reducible apply Frame.then_ ?_ (State.incAt_frame ..)
    | with_reducible apply Frame.then_ ?_ (State.wr_frame ..)
    | decide
    | dsimp only
    | split)

theorem State.onBefore_frame (s : State) (c : Nat) (f : BeforeBatch → BeforeBatch) :
    Frame [.itk] s (State.onBefore s c f) := by
  unfold State.onBefore
  try dsimp only
  repeat' (first
    | with_reducible apply Frame.refl
    | with_reducible assumption
    | with_reducible apply Frame.ite
    | decide
    | dsimp only
    | split
    | (fail_if_no_progress simp only [Frame.mk_eq]; refine Frame.upd ?_))

theorem State.bucketLost_frame (s : State) (e : IntakeEntry) (a : Nat) :
    Frame [.csr, .itk] s (State.bucketLost s e a) := by
  unfold State.bucketLost
  try dsimp only
  repeat' (first
    | with_reducible apply Frame.refl
    | with_reducible assumption
    | with_reducible apply Frame.ite
    | with_reducible apply Frame.then_ ?_ (State.onBefore_frame ..)
    | with_reducible apply Frame.then_ ?_ (State.wrAt_frame ..)
    | decide
    | dsimp only
    | split
    | (fail_if_no_progress simp only [Frame.mk_eq]; refine Frame.upd ?_))

theorem State.insertKey_frame (s : State) (e : IntakeEntry) (r : IntakeRun) (w : Nat) (index : Nat) (key : Nat) :
    Frame [.csr, .itk] s (State.insertKey s e r w index key).1 := by
  unfold State.insertKey
  try dsimp only
  repeat' (first
    | with_reducible apply Frame.refl
    | with_reducible assumption
    | with_reducible apply Frame.ite
    | with_reducible apply Frame.then_ ?_ (State.addAt_frame ..)
    | with_reducible apply Frame.then_ ?_ (State.incAt_frame ..)
    | with_reducible apply Frame.then_ ?_ (State.setBucketEntry_frame ..)
    | with_reducible apply Frame.then_ ?_ (State.setStash_frame ..)
    | with_reducible apply Frame.then_ ?_ (State.wr_frame ..)
    | decide
    | with_reducible apply Frame.foldl_fst
    | with_reducible apply Frame.foldl
    | intro y a b c hy
    | intro y a hy
    | intro y hy
    | dsimp only
    | split)

theorem State.resolveSlot_frame (s : State) (e : IntakeEntry) (r : IntakeRun) (w : WindowRec) (i : Nat) (x :
      SlotRec) :
    Frame [.csr, .itk] s (State.resolveSlot s e r w i x).1 := by
  unfold State.resolveSlot
  try dsimp only
  repeat' (first
    | with_reducible apply Frame.refl
    | with_reducible assumption
    | with_reducible apply Frame.ite
    | with_reducible apply Frame.then_ ?_ (State.addAt_frame ..)
    | with_reducible apply Frame.then_ ?_ (State.bucketLost_frame ..)
    | with_reducible apply Frame.then_ ?_ (State.incAt_frame ..)
    | with_reducible apply Frame.then_ ?_ (State.insertKey_frame ..)
    | (with_reducible apply Frame.then_ ?_ (Frame.of_eq (State.insertKey_frame ..) (by assumption)))
    | with_reducible apply Frame.then_ ?_ (State.setBucketEntry_frame ..)
    | with_reducible apply Frame.then_ ?_ (State.setStash_frame ..)
    | with_reducible apply Frame.then_ ?_ (State.stateLost_frame ..)
    | with_reducible apply Frame.then_ ?_ (State.wrAt_frame ..)
    | decide
    | with_reducible apply Frame.foldl_fst
    | with_reducible apply Frame.foldl
    | intro y a b c hy
    | intro y a hy
    | intro y hy
    | dsimp only
    | split)

theorem State.resolveSlots_frame (s : State) (e : IntakeEntry) (r : IntakeRun) (w : WindowRec) (a : List (SlotRec ×
      Nat)) :
    Frame [.csr, .itk] s (State.resolveSlots s e r w a).1 := by
  induction a generalizing s e r w with
  | nil =>
    first
      | exact Frame.refl _ _
      | (rw [State.resolveSlots]
         repeat' (first
           | with_reducible apply Frame.refl
           | with_reducible assumption
           | with_reducible apply Frame.ite
           | with_reducible apply Frame.then_ ?_ (State.resolveSlot_frame ..)
           | (with_reducible apply Frame.then_ ?_ (Frame.of_eq (State.resolveSlot_frame ..) (by assumption)))
           | decide
           | dsimp only
           | split))
  | cons b l ih =>
    rw [State.resolveSlots]
    try dsimp only
    repeat' (first
      | with_reducible apply Frame.refl
      | with_reducible assumption
      | with_reducible apply Frame.ite
      | with_reducible apply Frame.then_ ?_ (ih ..)
      | (with_reducible apply Frame.then_ ?_ (Frame.of_eq (ih ..) (by assumption)))
      | with_reducible apply Frame.then_ ?_ (State.resolveSlot_frame ..)
      | (with_reducible apply Frame.then_ ?_ (Frame.of_eq (State.resolveSlot_frame ..) (by assumption)))
      | decide
      | dsimp only
      | split)

theorem State.setWindow_frame (s : State) (c : Nat) (r : IntakeRun) (w : WindowRec) :
    Frame [.csr, .itk] s (State.setWindow s c r w) := by
  unfold State.setWindow
  try dsimp only
  repeat' (first
    | with_reducible apply Frame.refl
    | with_reducible assumption
    | with_reducible apply Frame.ite
    | with_reducible apply Frame.then_ ?_ (State.setRun_frame ..)
    | decide
    | dsimp only
    | split)

theorem State.cacheBucket_frame (s : State) (a : Nat) :
    Frame [.csr, .itk] s (State.cacheBucket s a) := by
  unfold State.cacheBucket
  try dsimp only
  repeat' (first
    | with_reducible apply Frame.refl
    | with_reducible assumption
    | with_reducible apply Frame.ite
    | with_reducible apply Frame.then_ ?_ (State.inc_frame ..)
    | decide
    | dsimp only
    | split
    | (fail_if_no_progress simp only [Frame.mk_eq]; refine Frame.upd ?_))

theorem State.readBucket_frame (s : State) (bad : Nat → Nat → Bool) (a : Nat) :
    Frame [.csr, .itk] s (State.readBucket s bad a) := by
  unfold State.readBucket
  try dsimp only
  repeat' (first
    | with_reducible apply Frame.refl
    | with_reducible assumption
    | with_reducible apply Frame.ite
    | with_reducible apply Frame.then_ ?_ (State.cacheBucket_frame ..)
    | decide
    | dsimp only
    | split
    | (fail_if_no_progress simp only [Frame.mk_eq]; refine Frame.upd ?_))

theorem State.dropBuckets_frame (s : State) (l : List Nat) :
    Frame [.itk] s (State.dropBuckets s l) := by
  unfold State.dropBuckets
  try dsimp only
  repeat' (first
    | with_reducible apply Frame.refl
    | with_reducible assumption
    | with_reducible apply Frame.ite
    | decide
    | dsimp only
    | split
    | (fail_if_no_progress simp only [Frame.mk_eq]; refine Frame.upd ?_))

theorem State.indexRead_frame (s : State) (e : IntakeEntry) (batch : Option Nat) (p : Nat) (bad : Nat → Nat → Bool)
      :
    Frame [.csr, .itk] s (State.indexRead s e batch p bad) := by
  unfold State.indexRead
  try dsimp only
  repeat' (first
    | with_reducible apply Frame.refl
    | with_reducible assumption
    | with_reducible apply Frame.ite
    | with_reducible apply Frame.then_ ?_ (State.readBucket_frame ..)
    | decide
    | with_reducible apply Frame.foldl_fst
    | with_reducible apply Frame.foldl
    | intro y a b c hy
    | intro y a hy
    | intro y hy
    | dsimp only
    | split)

theorem State.indexResolve_frame (s : State) (e : IntakeEntry) (batch : Option Nat) :
    Frame [.csr, .itk] s (State.indexResolve s e batch) := by
  unfold State.indexResolve
  try dsimp only
  repeat' (first
    | with_reducible apply Frame.refl
    | with_reducible assumption
    | with_reducible apply Frame.ite
    | with_reducible apply Frame.then_ ?_ (State.dropBuckets_frame ..)
    | with_reducible apply Frame.then_ ?_ (State.onBefore_frame ..)
    | with_reducible apply Frame.then_ ?_ (State.resolveSlots_frame ..)
    | (with_reducible apply Frame.then_ ?_ (Frame.of_eq (State.resolveSlots_frame ..) (by assumption)))
    | with_reducible apply Frame.then_ ?_ (State.setWindow_frame ..)
    | decide
    | dsimp only
    | split
    | (fail_if_no_progress simp only [Frame.mk_eq]; refine Frame.upd ?_))

theorem State.applyEntry_frame (s : State) (e : IntakeEntry) (pos : Nat) (l : List Byte) :
    Frame [.csr, .mem, .itk] s (State.applyEntry s e pos l) := by
  unfold State.applyEntry
  try dsimp only
  repeat' (first
    | with_reducible apply Frame.refl
    | with_reducible assumption
    | with_reducible apply Frame.ite
    | with_reducible apply Frame.then_ ?_ (State.putMem_frame ..)
    | with_reducible apply Frame.then_ ?_ (State.wrAt_frame ..)
    | decide
    | dsimp only
    | split
    | (fail_if_no_progress simp only [Frame.mk_eq]; refine Frame.upd ?_))

theorem State.applyIndex_frame (s : State) (e : IntakeEntry) (a : Nat) (a3 : List Byte) :
    Frame [.csr, .mem, .itk] s (State.applyIndex s e a a3) := by
  induction a generalizing s e a3 with
  | zero =>
    first
      | exact Frame.refl _ _
      | (rw [State.applyIndex]
         repeat' (first
           | with_reducible apply Frame.refl
           | with_reducible assumption
           | with_reducible apply Frame.ite
           | with_reducible apply Frame.then_ ?_ (State.applyEntry_frame ..)
           | decide
           | dsimp only
           | split))
  | succ m ih =>
    rw [State.applyIndex]
    try dsimp only
    repeat' (first
      | with_reducible apply Frame.refl
      | with_reducible assumption
      | with_reducible apply Frame.ite
      | with_reducible apply Frame.then_ ?_ (ih ..)
      | with_reducible apply Frame.then_ ?_ (State.applyEntry_frame ..)
      | decide
      | dsimp only
      | split)

theorem State.applyState_frame (s : State) (e : IntakeEntry) (a : Nat) (a3 : List Byte) :
    Frame [.csr, .mem] s (State.applyState s e a a3) := by
  induction a generalizing s e a3 with
  | zero =>
    first
      | exact Frame.refl _ _
      | (rw [State.applyState]
         repeat' (first
           | with_reducible apply Frame.refl
           | with_reducible assumption
           | with_reducible apply Frame.ite
           | with_reducible apply Frame.then_ ?_ (State.putMem_frame ..)
           | decide
           | dsimp only
           | split))
  | succ m ih =>
    rw [State.applyState]
    try dsimp only
    repeat' (first
      | with_reducible apply Frame.refl
      | with_reducible assumption
      | with_reducible apply Frame.ite
      | with_reducible apply Frame.then_ ?_ (ih ..)
      | with_reducible apply Frame.then_ ?_ (State.putMem_frame ..)
      | decide
      | dsimp only
      | split)

theorem State.dropItem_frame (s : State) (kind : Nat) (c : Nat) (w : Nat) :
    Frame [.twn] s (State.dropItem s kind c w) := by
  unfold State.dropItem
  try dsimp only
  repeat' (first
    | with_reducible apply Frame.refl
    | with_reducible assumption
    | with_reducible apply Frame.ite
    | decide
    | dsimp only
    | split
    | (fail_if_no_progress simp only [Frame.mk_eq]; refine Frame.upd ?_))

theorem State.applyIndexes_frame (s : State) (e : IntakeEntry) (a : List TwinItem) :
    Frame [.csr, .mem, .itk, .twn] s (State.applyIndexes s e a) := by
  induction a generalizing s e with
  | nil =>
    first
      | exact Frame.refl _ _
      | (rw [State.applyIndexes]
         repeat' (first
           | with_reducible apply Frame.refl
           | with_reducible assumption
           | with_reducible apply Frame.ite
           | with_reducible apply Frame.then_ ?_ (State.applyIndex_frame ..)
           | with_reducible apply Frame.then_ ?_ (State.dropItem_frame ..)
           | decide
           | dsimp only
           | split
           | (fail_if_no_progress simp only [Frame.mk_eq]; refine Frame.upd ?_)))
  | cons b l ih =>
    rw [State.applyIndexes]
    try dsimp only
    repeat' (first
      | with_reducible apply Frame.refl
      | with_reducible assumption
      | with_reducible apply Frame.ite
      | with_reducible apply Frame.then_ ?_ (ih ..)
      | with_reducible apply Frame.then_ ?_ (State.applyIndex_frame ..)
      | with_reducible apply Frame.then_ ?_ (State.dropItem_frame ..)
      | decide
      | dsimp only
      | split
      | (fail_if_no_progress simp only [Frame.mk_eq]; refine Frame.upd ?_))

theorem State.applyStates_frame (s : State) (e : IntakeEntry) (a : List TwinItem) :
    Frame [.csr, .mem, .twn] s (State.applyStates s e a) := by
  induction a generalizing s e with
  | nil =>
    first
      | exact Frame.refl _ _
      | (rw [State.applyStates]
         repeat' (first
           | with_reducible apply Frame.refl
           | with_reducible assumption
           | with_reducible apply Frame.ite
           | with_reducible apply Frame.then_ ?_ (State.applyState_frame ..)
           | with_reducible apply Frame.then_ ?_ (State.dropItem_frame ..)
           | decide
           | dsimp only
           | split
           | (fail_if_no_progress simp only [Frame.mk_eq]; refine Frame.upd ?_)))
  | cons b l ih =>
    rw [State.applyStates]
    try dsimp only
    repeat' (first
      | with_reducible apply Frame.refl
      | with_reducible assumption
      | with_reducible apply Frame.ite
      | with_reducible apply Frame.then_ ?_ (ih ..)
      | with_reducible apply Frame.then_ ?_ (State.applyState_frame ..)
      | with_reducible apply Frame.then_ ?_ (State.dropItem_frame ..)
      | decide
      | dsimp only
      | split
      | (fail_if_no_progress simp only [Frame.mk_eq]; refine Frame.upd ?_))

theorem State.itemsApplied_frame (s : State) (e : IntakeEntry) (l : List Nat) :
    Frame [.csr, .haul, .twn, .sent] s (State.itemsApplied s e l) := by
  unfold State.itemsApplied
  try dsimp only
  repeat' (first
    | with_reducible apply Frame.refl
    | with_reducible assumption
    | with_reducible apply Frame.ite
    | with_reducible apply Frame.then_ ?_ (State.inc_frame ..)
    | with_reducible apply Frame.then_ ?_ (State.shipItem_frame ..)
    | with_reducible apply Frame.then_ ?_ (State.wrAt_frame ..)
    | decide
    | with_reducible apply Frame.foldl_fst
    | with_reducible apply Frame.foldl
    | intro y a b c hy
    | intro y a hy
    | intro y hy
    | dsimp only
    | split)

theorem State.indexWrite_frame (s : State) (r : MemRegion) :
    Frame [.csr, .mem, .itk] s (State.indexWrite s r) := by
  unfold State.indexWrite
  try dsimp only
  repeat' (first
    | with_reducible apply Frame.refl
    | with_reducible assumption
    | with_reducible apply Frame.ite
    | with_reducible apply Frame.then_ ?_ (State.putMem_frame ..)
    | decide
    | with_reducible apply Frame.foldl_fst
    | with_reducible apply Frame.foldl
    | intro y a b c hy
    | intro y a hy
    | intro y hy
    | dsimp only
    | split
    | (fail_if_no_progress simp only [Frame.mk_eq]; refine Frame.upd ?_))

theorem State.entryLost_frame (s : State) (e : IntakeEntry) (x : SlotRec) :
    Frame [.csr, .itk] s (State.entryLost s e x) := by
  unfold State.entryLost
  try dsimp only
  repeat' (first
    | with_reducible apply Frame.refl
    | with_reducible assumption
    | with_reducible apply Frame.ite
    | with_reducible apply Frame.then_ ?_ (State.onBefore_frame ..)
    | with_reducible apply Frame.then_ ?_ (State.setBucketEntry_frame ..)
    | with_reducible apply Frame.then_ ?_ (State.setStash_frame ..)
    | with_reducible apply Frame.then_ ?_ (State.wrAt_frame ..)
    | decide
    | dsimp only
    | split)

theorem State.slotState_frame (s : State) (e : IntakeEntry) (bad : Nat → Nat → Bool) (x : SlotRec) :
    Frame [.csr, .itk] s (State.slotState s e bad x).1 := by
  unfold State.slotState
  try dsimp only
  repeat' (first
    | with_reducible apply Frame.refl
    | with_reducible assumption
    | with_reducible apply Frame.ite
    | with_reducible apply Frame.then_ ?_ (State.entryLost_frame ..)
    | with_reducible apply Frame.then_ ?_ (State.stateLost_frame ..)
    | decide
    | dsimp only
    | split)

theorem State.slotStates_frame (s : State) (e : IntakeEntry) (bad : Nat → Nat → Bool) (a : List (SlotRec × Nat)) :
    Frame [.csr, .itk] s (State.slotStates s e bad a).1 := by
  induction a generalizing s e bad with
  | nil =>
    first
      | exact Frame.refl _ _
      | (rw [State.slotStates]
         repeat' (first
           | with_reducible apply Frame.refl
           | with_reducible assumption
           | with_reducible apply Frame.ite
           | with_reducible apply Frame.then_ ?_ (State.slotState_frame ..)
           | (with_reducible apply Frame.then_ ?_ (Frame.of_eq (State.slotState_frame ..) (by assumption)))
           | decide
           | dsimp only
           | split))
  | cons b l ih =>
    rw [State.slotStates]
    try dsimp only
    repeat' (first
      | with_reducible apply Frame.refl
      | with_reducible assumption
      | with_reducible apply Frame.ite
      | with_reducible apply Frame.then_ ?_ (ih ..)
      | (with_reducible apply Frame.then_ ?_ (Frame.of_eq (ih ..) (by assumption)))
      | with_reducible apply Frame.then_ ?_ (State.slotState_frame ..)
      | (with_reducible apply Frame.then_ ?_ (Frame.of_eq (State.slotState_frame ..) (by assumption)))
      | decide
      | dsimp only
      | split)

theorem State.stateRead_frame (s : State) (e : IntakeEntry) (batch : Option Nat) (bad : Nat → Nat → Bool) :
    Frame [.csr, .itk] s (State.stateRead s e batch bad).1 := by
  unfold State.stateRead
  try dsimp only
  repeat' (first
    | with_reducible apply Frame.refl
    | with_reducible assumption
    | with_reducible apply Frame.ite
    | with_reducible apply Frame.then_ ?_ (State.setWindow_frame ..)
    | with_reducible apply Frame.then_ ?_ (State.slotStates_frame ..)
    | (with_reducible apply Frame.then_ ?_ (Frame.of_eq (State.slotStates_frame ..) (by assumption)))
    | decide
    | dsimp only
    | split)

theorem State.writeBlock_frame (s : State) (e : IntakeEntry) (w : WindowRec) (x : SlotRec) (i : Nat) (at_ : Nat) :
    Frame [.csr, .mem] s (State.writeBlock s e w x i at_) := by
  unfold State.writeBlock
  try dsimp only
  repeat' (first
    | with_reducible apply Frame.refl
    | with_reducible assumption
    | with_reducible apply Frame.ite
    | with_reducible apply Frame.then_ ?_ (State.putMem_frame ..)
    | decide
    | dsimp only
    | split)

theorem State.stateWrite_frame (s : State) (e : IntakeEntry) (batch : Option Nat) (buf : Nat) (bad : Nat → Nat →
      Bool) :
    Frame [.csr, .mem, .itk, .twn] s (State.stateWrite s e batch buf bad).1 := by
  unfold State.stateWrite
  try dsimp only
  repeat' (first
    | with_reducible apply Frame.refl
    | with_reducible assumption
    | with_reducible apply Frame.ite
    | with_reducible apply Frame.then_ ?_ (State.applyStates_frame ..)
    | with_reducible apply Frame.then_ ?_ (State.putWindow_frame ..)
    | with_reducible apply Frame.then_ ?_ (State.writeBlock_frame ..)
    | decide
    | with_reducible apply Frame.foldl_fst
    | with_reducible apply Frame.foldl
    | intro y a b c hy
    | intro y a hy
    | intro y hy
    | dsimp only
    | split)

theorem State.stateDone_frame (s : State) (e : IntakeEntry) (a : List (Nat × List Byte)) :
    Frame [.csr, .haul, .twn, .sent] s (State.stateDone s e a) := by
  unfold State.stateDone
  try dsimp only
  repeat' (first
    | with_reducible apply Frame.refl
    | with_reducible assumption
    | with_reducible apply Frame.ite
    | with_reducible apply Frame.then_ ?_ (State.inc_frame ..)
    | with_reducible apply Frame.then_ ?_ (State.itemsApplied_frame ..)
    | with_reducible apply Frame.then_ ?_ (State.shipItem_frame ..)
    | decide
    | dsimp only
    | split
    | (fail_if_no_progress simp only [Frame.mk_eq]; refine Frame.upd ?_))

theorem State.indexDone_frame (s : State) (e : IntakeEntry) (l : List (Nat × List Byte)) :
    Frame [.csr, .haul, .itk, .twn, .sent] s (State.indexDone s e l) := by
  unfold State.indexDone
  try dsimp only
  repeat' (first
    | with_reducible apply Frame.refl
    | with_reducible assumption
    | with_reducible apply Frame.ite
    | with_reducible apply Frame.then_ ?_ (State.setRun_frame ..)
    | with_reducible apply Frame.then_ ?_ (State.shipItem_frame ..)
    | decide
    | dsimp only
    | split)

end Sys2Proof.Machine
end

