-- ==== Sys2Proof/Laws/FrameMemory.lean ====
section
/-! SUPPORT. One frame lemma for every operation of Machine/Memory.lean: the parts of the state that it may change. -/

set_option Elab.async false
set_option linter.unusedTactic false
set_option linter.unreachableTactic false

namespace Sys2Proof.Machine

open Sys2Proof

theorem State.outsideRegions_frame (s : State) (c : Nat) (a : Nat) :
    Frame [.csr, .pwr, .flt, .rrc, .obs, .fresh] s (State.outsideRegions s c a) := by
  unfold State.outsideRegions
  try dsimp only
  repeat' (first
    | with_reducible apply Frame.refl
    | with_reducible assumption
    | with_reducible apply Frame.ite
    | with_reducible apply Frame.then_ ?_ (State.contained_frame ..)
    | decide
    | dsimp only
    | split)

theorem State.memCorrected_frame (s : State) (scrub : Bool) (e : Nat × Nat) :
    Frame [.csr, .pwr, .scr, .flt, .rrc, .obs, .fresh] s (State.memCorrected s scrub e) := by
  unfold State.memCorrected
  extract_lets v0 v1 v2 v3 v4 v5 v6
  clear_value v0
  clear_value v1
  clear_value v2
  have h_v3 : Frame [.csr, .pwr, .scr, .flt, .rrc, .obs, .fresh] s v3 := by
    simp only [v3]
    repeat' (first
      | with_reducible apply Frame.refl
      | with_reducible assumption
      | with_reducible apply Frame.ite
      | with_reducible apply Frame.then_ ?_ (State.corrected_frame ..)
      | with_reducible apply Frame.then_ ?_ (State.incAt_frame ..)
      | with_reducible apply Frame.then_ ?_ (State.wr_frame ..)
      | decide
      | dsimp only
      | split
      | (fail_if_no_progress simp only [Frame.mk_eq]; refine Frame.upd ?_))
  clear_value v3
  have h_v4 : Frame [.csr, .pwr, .scr, .flt, .rrc, .obs, .fresh] s v4 := by
    simp only [v4]
    repeat' (first
      | with_reducible apply Frame.refl
      | with_reducible assumption
      | with_reducible apply Frame.ite
      | with_reducible apply Frame.then_ ?_ (State.corrected_frame ..)
      | with_reducible apply Frame.then_ ?_ (State.incAt_frame ..)
      | with_reducible apply Frame.then_ ?_ (State.wr_frame ..)
      | decide
      | dsimp only
      | split
      | (fail_if_no_progress simp only [Frame.mk_eq]; refine Frame.upd ?_))
  clear_value v4
  clear_value v5
  have h_v6 : Frame [.csr, .pwr, .scr, .flt, .rrc, .obs, .fresh] s v6 := by
    simp only [v6]
    repeat' (first
      | with_reducible apply Frame.refl
      | with_reducible assumption
      | with_reducible apply Frame.ite
      | with_reducible apply Frame.then_ ?_ (State.corrected_frame ..)
      | with_reducible apply Frame.then_ ?_ (State.incAt_frame ..)
      | with_reducible apply Frame.then_ ?_ (State.wr_frame ..)
      | decide
      | dsimp only
      | split
      | (fail_if_no_progress simp only [Frame.mk_eq]; refine Frame.upd ?_))
  clear_value v6
  repeat' (first
    | with_reducible apply Frame.refl
    | with_reducible assumption
    | with_reducible apply Frame.ite
    | with_reducible apply Frame.then_ ?_ (State.corrected_frame ..)
    | with_reducible apply Frame.then_ ?_ (State.incAt_frame ..)
    | with_reducible apply Frame.then_ ?_ (State.wr_frame ..)
    | decide
    | dsimp only
    | split
    | (fail_if_no_progress simp only [Frame.mk_eq]; refine Frame.upd ?_))

theorem State.recordUncorr_frame (s : State) (scrub : Bool) (a : Nat) :
    Frame [.csr] s (State.recordUncorr s scrub a) := by
  unfold State.recordUncorr
  extract_lets v0 v1 v2 v3
  clear_value v0
  have h_v1 : Frame [.csr] s v1 := by
    simp only [v1]
    repeat' (first
      | with_reducible apply Frame.refl
      | with_reducible assumption
      | with_reducible apply Frame.ite
      | with_reducible apply Frame.then_ ?_ (State.incAt_frame ..)
      | with_reducible apply Frame.then_ ?_ (State.wr_frame ..)
      | decide
      | dsimp only
      | split)
  clear_value v1
  have h_v2 : Frame [.csr] s v2 := by
    simp only [v2]
    repeat' (first
      | with_reducible apply Frame.refl
      | with_reducible assumption
      | with_reducible apply Frame.ite
      | with_reducible apply Frame.then_ ?_ (State.incAt_frame ..)
      | with_reducible apply Frame.then_ ?_ (State.wr_frame ..)
      | decide
      | dsimp only
      | split)
  clear_value v2
  have h_v3 : Frame [.csr] s v3 := by
    simp only [v3]
    repeat' (first
      | with_reducible apply Frame.refl
      | with_reducible assumption
      | with_reducible apply Frame.ite
      | with_reducible apply Frame.then_ ?_ (State.incAt_frame ..)
      | with_reducible apply Frame.then_ ?_ (State.wr_frame ..)
      | decide
      | dsimp only
      | split)
  clear_value v3
  repeat' (first
    | with_reducible apply Frame.refl
    | with_reducible assumption
    | with_reducible apply Frame.ite
    | with_reducible apply Frame.then_ ?_ (State.incAt_frame ..)
    | with_reducible apply Frame.then_ ?_ (State.wr_frame ..)
    | decide
    | dsimp only
    | split)

theorem State.uncorrRead_frame (s : State) (c : Nat) (a : Nat) :
    Frame [.csr, .pwr, .haul, .sch, .gen, .wgt, .itk, .flt, .rrc, .obs, .sent, .fresh] s (State.uncorrRead s c a) := by
  unfold State.uncorrRead
  extract_lets v0 v1
  have h_v0 : Frame [.csr, .pwr, .haul, .sch, .gen, .wgt, .itk, .flt, .rrc, .obs, .sent, .fresh] s v0 := by
    simp only [v0]
    repeat' (first
      | with_reducible apply Frame.refl
      | with_reducible assumption
      | with_reducible apply Frame.ite
      | with_reducible apply Frame.then_ ?_ (State.contained_frame ..)
      | with_reducible apply Frame.then_ ?_ (State.notice_frame ..)
      | with_reducible apply Frame.then_ ?_ (State.recordUncorr_frame ..)
      | with_reducible apply Frame.then_ ?_ (State.startRepair_frame ..)
      | with_reducible apply Frame.then_ ?_ (State.stepFatal_frame ..)
      | decide
      | dsimp only
      | split)
  clear_value v0
  have h_v1 : Frame [.csr, .pwr, .haul, .sch, .gen, .wgt, .itk, .flt, .rrc, .obs, .sent, .fresh] s v1 := by
    simp only [v1]
    repeat' (first
      | with_reducible apply Frame.refl
      | with_reducible assumption
      | with_reducible apply Frame.ite
      | with_reducible apply Frame.then_ ?_ (State.contained_frame ..)
      | with_reducible apply Frame.then_ ?_ (State.notice_frame ..)
      | with_reducible apply Frame.then_ ?_ (State.recordUncorr_frame ..)
      | with_reducible apply Frame.then_ ?_ (State.startRepair_frame ..)
      | with_reducible apply Frame.then_ ?_ (State.stepFatal_frame ..)
      | decide
      | dsimp only
      | split)
  clear_value v1
  repeat' (first
    | with_reducible apply Frame.refl
    | with_reducible assumption
    | with_reducible apply Frame.ite
    | with_reducible apply Frame.then_ ?_ (State.contained_frame ..)
    | with_reducible apply Frame.then_ ?_ (State.notice_frame ..)
    | with_reducible apply Frame.then_ ?_ (State.recordUncorr_frame ..)
    | with_reducible apply Frame.then_ ?_ (State.startRepair_frame ..)
    | with_reducible apply Frame.then_ ?_ (State.stepFatal_frame ..)
    | decide
    | dsimp only
    | split)

theorem State.uncorrInactive_frame (s : State) (c : Nat) (a : Nat) :
Frame [.csr, .pwr, .haul, .sch, .gen, .wgt, .scr, .fst, .flt, .rrc, .obs, .sent, .fresh] s (State.uncorrInactive s c
      a) := by
  unfold State.uncorrInactive
  try dsimp only
  repeat' (first
    | with_reducible apply Frame.refl
    | with_reducible assumption
    | with_reducible apply Frame.ite
    | with_reducible apply Frame.then_ ?_ (State.closingMismatch_frame ..)
    | with_reducible apply Frame.then_ ?_ (State.contained_frame ..)
    | with_reducible apply Frame.then_ ?_ (State.emptyLanding_frame ..)
    | with_reducible apply Frame.then_ ?_ (State.notice_frame ..)
    | decide
    | dsimp only
    | split)

theorem State.uncorrScrub_frame (s : State) (a : Nat) :
Frame [.csr, .pwr, .haul, .sch, .gen, .wgt, .scr, .fst, .flt, .rrc, .obs, .sent, .fresh] s (State.uncorrScrub s a) := by
  unfold State.uncorrScrub
  try dsimp only
  repeat' (first
    | with_reducible apply Frame.refl
    | with_reducible assumption
    | with_reducible apply Frame.ite
    | with_reducible apply Frame.then_ ?_ (State.contained_frame ..)
    | with_reducible apply Frame.then_ ?_ (State.notice_frame ..)
    | with_reducible apply Frame.then_ ?_ (State.recordUncorr_frame ..)
    | with_reducible apply Frame.then_ ?_ (State.uncorrInactive_frame ..)
    | decide
    | dsimp only
    | split)

theorem State.uncorrService_frame (s : State) (a : Nat) :
    Frame [.csr, .pwr, .rrc, .obs, .fresh] s (State.uncorrService s a) := by
  unfold State.uncorrService
  try dsimp only
  repeat' (first
    | with_reducible apply Frame.refl
    | with_reducible assumption
    | with_reducible apply Frame.ite
    | with_reducible apply Frame.then_ ?_ (State.notice_frame ..)
    | with_reducible apply Frame.then_ ?_ (State.recordUncorr_frame ..)
    | decide
    | dsimp only
    | split)

theorem State.uncorrSweep_frame (s : State) (c : Nat) (a : Nat) (inactive : Bool) :
Frame [.csr, .pwr, .haul, .sch, .gen, .wgt, .scr, .fst, .flt, .rrc, .obs, .sent, .fresh] s (State.uncorrSweep s c a
      inactive) := by
  unfold State.uncorrSweep
  try dsimp only
  repeat' (first
    | with_reducible apply Frame.refl
    | with_reducible assumption
    | with_reducible apply Frame.ite
    | with_reducible apply Frame.then_ ?_ (State.contained_frame ..)
    | with_reducible apply Frame.then_ ?_ (State.recordUncorr_frame ..)
    | with_reducible apply Frame.then_ ?_ (State.uncorrInactive_frame ..)
    | decide
    | dsimp only
    | split)

theorem State.correctedIn_frame (s : State) (e : MemEcc) (a : Nat) (n : Nat) :
    Frame [.csr, .pwr, .scr, .flt, .rrc, .obs, .fresh] s (State.correctedIn s e a n) := by
  unfold State.correctedIn
  try dsimp only
  repeat' (first
    | with_reducible apply Frame.refl
    | with_reducible assumption
    | with_reducible apply Frame.ite
    | with_reducible apply Frame.then_ ?_ (State.countBursts_frame ..)
    | with_reducible apply Frame.then_ ?_ (State.memCorrected_frame ..)
    | decide
    | with_reducible apply Frame.foldl_fst
    | with_reducible apply Frame.foldl
    | intro y a b c hy
    | intro y a hy
    | intro y hy
    | dsimp only
    | split)

theorem State.memRead_frame (s : State) (e : MemEcc) (c : Nat) (a : Nat) (n : Nat) :
Frame [.csr, .mem, .pwr, .haul, .sch, .gen, .wgt, .scr, .itk, .flt, .rrc, .obs, .sent, .fresh] s (State.memRead s e
      c a n).1 := by
  unfold State.memRead
  try dsimp only
  repeat' (first
    | with_reducible apply Frame.refl
    | with_reducible assumption
    | with_reducible apply Frame.ite
    | with_reducible apply Frame.then_ ?_ (State.correctedIn_frame ..)
    | with_reducible apply Frame.then_ ?_ (State.land_frame ..)
    | with_reducible apply Frame.then_ ?_ (State.uncorrRead_frame ..)
    | decide
    | with_reducible apply Frame.foldl_fst
    | with_reducible apply Frame.foldl
    | intro y a b c hy
    | intro y a hy
    | intro y hy
    | dsimp only
    | split)

theorem State.writeDiscards_frame (s : State) (a : Nat) (n : Nat) :
    Frame [.csr, .scr] s (State.writeDiscards s a n) := by
  unfold State.writeDiscards
  try dsimp only
  repeat' (first
    | with_reducible apply Frame.refl
    | with_reducible assumption
    | with_reducible apply Frame.ite
    | with_reducible apply Frame.then_ ?_ (State.addAt_frame ..)
    | decide
    | dsimp only
    | split
    | (fail_if_no_progress simp only [Frame.mk_eq]; refine Frame.upd ?_))

theorem State.memTaken_frame (s : State) (a : Nat) (n : Nat) :
    Frame [.csr, .scr] s (State.memTaken s a n) := by
  unfold State.memTaken
  try dsimp only
  repeat' (first
    | with_reducible apply Frame.refl
    | with_reducible assumption
    | with_reducible apply Frame.ite
    | with_reducible apply Frame.then_ ?_ (State.countBursts_frame ..)
    | with_reducible apply Frame.then_ ?_ (State.writeDiscards_frame ..)
    | decide
    | dsimp only
    | split)

theorem State.memWrite_frame (s : State) (a : Nat) (l : List Byte) :
    Frame [.csr, .mem, .scr] s (State.memWrite s a l) := by
  unfold State.memWrite
  try dsimp only
  repeat' (first
    | with_reducible apply Frame.refl
    | with_reducible assumption
    | with_reducible apply Frame.ite
    | with_reducible apply Frame.then_ ?_ (State.land_frame ..)
    | with_reducible apply Frame.then_ ?_ (State.memTaken_frame ..)
    | with_reducible apply Frame.then_ ?_ (State.setBytes_frame ..)
    | decide
    | dsimp only
    | split)

theorem State.prefetch_frame (s : State) (i : Nat) :
    Frame [.csr, .scr] s (State.prefetch s i) := by
  unfold State.prefetch
  try dsimp only
  repeat' (first
    | with_reducible apply Frame.refl
    | with_reducible assumption
    | with_reducible apply Frame.ite
    | with_reducible apply Frame.then_ ?_ (State.choice_frame ..)
    | with_reducible apply Frame.then_ ?_ (State.inc_frame ..)
    | decide
    | dsimp only
    | split
    | (fail_if_no_progress simp only [Frame.mk_eq]; refine Frame.upd ?_))

theorem State.prefetchRuns_frame (s : State) (i : Nat) :
    Frame [.scr] s (State.prefetchRuns s i) := by
  unfold State.prefetchRuns
  try dsimp only
  repeat' (first
    | with_reducible apply Frame.refl
    | with_reducible assumption
    | with_reducible apply Frame.ite
    | decide
    | dsimp only
    | split
    | (fail_if_no_progress simp only [Frame.mk_eq]; refine Frame.upd ?_))

theorem State.prefetchOver_frame (s : State) (i : Nat) :
    Frame [.scr] s (State.prefetchOver s i) := by
  unfold State.prefetchOver
  try dsimp only
  repeat' (first
    | with_reducible apply Frame.refl
    | with_reducible assumption
    | with_reducible apply Frame.ite
    | decide
    | dsimp only
    | split
    | (fail_if_no_progress simp only [Frame.mk_eq]; refine Frame.upd ?_))

theorem State.takePositions_frame (s : State) (a : Nat) (n : Nat) :
    Frame [.scr] s (State.takePositions s a n) := by
  unfold State.takePositions
  try dsimp only
  repeat' (first
    | with_reducible apply Frame.refl
    | with_reducible assumption
    | with_reducible apply Frame.ite
    | decide
    | with_reducible apply Frame.foldl_fst
    | with_reducible apply Frame.foldl
    | intro y a b c hy
    | intro y a hy
    | intro y hy
    | dsimp only
    | split
    | (fail_if_no_progress simp only [Frame.mk_eq]; refine Frame.upd ?_))

theorem State.prefetchBeat_frame (s : State) :
    Frame [.scr] s (State.prefetchBeat s) := by
  unfold State.prefetchBeat
  try dsimp only
  repeat' (first
    | with_reducible apply Frame.refl
    | with_reducible assumption
    | with_reducible apply Frame.ite
    | with_reducible apply Frame.then_ ?_ (State.takePositions_frame ..)
    | decide
    | with_reducible apply Frame.foldl_fst
    | with_reducible apply Frame.foldl
    | intro y a b c hy
    | intro y a hy
    | intro y hy
    | dsimp only
    | split
    | (fail_if_no_progress simp only [Frame.mk_eq]; refine Frame.upd ?_))

theorem State.takeUpkeep_frame (s : State) (ch : Nat) :
    Frame [.scr] s (State.takeUpkeep s ch) := by
  unfold State.takeUpkeep
  try dsimp only
  repeat' (first
    | with_reducible apply Frame.refl
    | with_reducible assumption
    | with_reducible apply Frame.ite
    | decide
    | dsimp only
    | split
    | (fail_if_no_progress simp only [Frame.mk_eq]; refine Frame.upd ?_))

theorem State.upkeepTaken_frame (s : State) (u : Nat) (t : State) (h : s.upkeepTaken u = some t) : Frame [.scr] s t := by
  unfold State.upkeepTaken at h
  split at h
  · cases h
    exact Frame.foldl _ (.refl _ _) fun y a hy => hy.then_ (State.takeUpkeep_frame ..) (by decide)
  · cases h

theorem State.serveRefresh_frame (s : State) (u : Nat) : Frame [.scr] s (s.serveRefresh u) := by
  unfold State.serveRefresh
  cases h : s.upkeepTaken u with
  | none =>
    simp only [Option.getD_none, Frame.mk_eq]
    exact Frame.upd (.refl _ _)
  | some t => exact s.upkeepTaken_frame u t h

theorem State.serveManagement_frame (s : State) (u : Nat) : Frame [.scr] s (s.serveManagement u) := by
  unfold State.serveManagement
  cases h : s.upkeepTaken u with
  | none =>
    simp only [Option.getD_none, Frame.mk_eq]
    exact Frame.upd (.refl _ _)
  | some t => exact s.upkeepTaken_frame u t h

theorem State.serveRecalibration_frame (s : State) (u : Nat) : Frame [.scr] s (s.serveRecalibration u) := by
  unfold State.serveRecalibration
  cases h : s.upkeepTaken u with
  | none =>
    simp only [Option.getD_none, Frame.mk_eq]
    exact Frame.upd (.refl _ _)
  | some t => exact s.upkeepTaken_frame u t h

theorem State.writeBack_frame (s : State) (a : Nat) :
    Frame [.csr, .scr] s (State.writeBack s a) := by
  unfold State.writeBack
  try dsimp only
  repeat' (first
    | with_reducible apply Frame.refl
    | with_reducible assumption
    | with_reducible apply Frame.ite
    | with_reducible apply Frame.then_ ?_ (State.countBursts_frame ..)
    | with_reducible apply Frame.then_ ?_ (State.takePositions_frame ..)
    | with_reducible apply Frame.then_ ?_ (State.takeUpkeep_frame ..)
    | decide
    | dsimp only
    | split
    | (fail_if_no_progress simp only [Frame.mk_eq]; refine Frame.upd ?_))

theorem State.upkeepBeat_frame (s : State) (ecc : MemEcc) :
    Frame [.csr, .scr] s (State.upkeepBeat s ecc) := by
  unfold State.upkeepBeat
  try dsimp only
  repeat' (first
    | with_reducible apply Frame.refl
    | with_reducible assumption
    | with_reducible apply Frame.ite
    | with_reducible apply Frame.then_ ?_ (State.serveManagement_frame ..)
    | with_reducible apply Frame.then_ ?_ (State.serveRecalibration_frame ..)
    | with_reducible apply Frame.then_ ?_ (State.serveRefresh_frame ..)
    | with_reducible apply Frame.then_ ?_ (State.writeBack_frame ..)
    | decide
    | with_reducible apply Frame.foldl_fst
    | with_reducible apply Frame.foldl
    | intro y a b c hy
    | intro y a hy
    | intro y hy
    | dsimp only
    | split
    | (fail_if_no_progress simp only [Frame.mk_eq]; refine Frame.upd ?_))

theorem State.storeRead_frame (s : State) (e : MemEcc) (a : Nat) (n : Nat) :
    Frame [.csr, .pwr, .haul, .sch, .gen, .flt, .rrc, .obs, .sent, .fresh] s (State.storeRead s e a n).1 := by
  unfold State.storeRead
  try dsimp only
  repeat' (first
    | with_reducible apply Frame.refl
    | with_reducible assumption
    | with_reducible apply Frame.ite
    | with_reducible apply Frame.then_ ?_ (State.readStore_frame ..)
    | (with_reducible apply Frame.then_ ?_ (Frame.of_eq (State.readStore_frame ..) (by assumption)))
    | decide
    | dsimp only
    | split)

theorem State.readSpans_frame (s : State) (c : Nat) (l : List (Nat × Nat)) :
Frame [.csr, .mem, .pwr, .haul, .sch, .gen, .wgt, .scr, .itk, .flt, .rrc, .obs, .sent, .fresh] s (State.readSpans s
      c l).1 := by
  unfold State.readSpans
  try dsimp only
  repeat' (first
    | with_reducible apply Frame.refl
    | with_reducible assumption
    | with_reducible apply Frame.ite
    | with_reducible apply Frame.then_ ?_ (State.memRead_frame ..)
    | (with_reducible apply Frame.then_ ?_ (Frame.of_eq (State.memRead_frame ..) (by assumption)))
    | with_reducible apply Frame.then_ ?_ (State.storeRead_frame ..)
    | (with_reducible apply Frame.then_ ?_ (Frame.of_eq (State.storeRead_frame ..) (by assumption)))
    | decide
    | with_reducible apply Frame.foldl_fst
    | with_reducible apply Frame.foldl
    | intro y a b c hy
    | intro y a hy
    | intro y hy
    | dsimp only
    | split)

theorem State.carry_frame (s : State) (e : ScriptEntry) (late : Nat) (writer : Nat) (reader : Nat) (after : Nat)
      (bench : Option Nat) (addr : Nat) (l : List Byte) :
    Frame [.csr, .mem, .clk, .bench, .scr] s (State.carry s e late writer reader after bench addr l) := by
  unfold State.carry
  try dsimp only
  repeat' (first
    | with_reducible apply Frame.refl
    | with_reducible assumption
    | with_reducible apply Frame.ite
    | with_reducible apply Frame.then_ ?_ (State.enqueue_frame ..)
    | decide
    | dsimp only
    | split)

theorem State.runEntry_frame (s : State) (ecc : MemEcc) (late : Nat) (e : ScriptEntry) :
Frame [.csr, .mem, .pwr, .clk, .haul, .sch, .gen, .wgt, .bench, .scr, .itk, .flt, .rrc, .obs, .sent, .fresh] s
      (State.runEntry s ecc late e) := by
  unfold State.runEntry
  try dsimp only
  repeat' (first
    | with_reducible apply Frame.refl
    | with_reducible assumption
    | with_reducible apply Frame.ite
    | with_reducible apply Frame.then_ ?_ (State.carry_frame ..)
    | with_reducible apply Frame.then_ ?_ (State.memRead_frame ..)
    | (with_reducible apply Frame.then_ ?_ (Frame.of_eq (State.memRead_frame ..) (by assumption)))
    | with_reducible apply Frame.then_ ?_ (State.memTaken_frame ..)
    | with_reducible apply Frame.then_ ?_ (State.outsideRegions_frame ..)
    | with_reducible apply Frame.then_ ?_ (State.storeRead_frame ..)
    | (with_reducible apply Frame.then_ ?_ (Frame.of_eq (State.storeRead_frame ..) (by assumption)))
    | decide
    | dsimp only
    | split)

theorem State.runScripts_frame (s : State) (ecc : MemEcc) (a : List (ScriptEntry × Nat)) :
Frame [.csr, .mem, .pwr, .clk, .haul, .sch, .gen, .wgt, .bench, .scr, .itk, .flt, .rrc, .obs, .sent, .fresh] s
      (State.runScripts s ecc a) := by
  induction a generalizing s ecc with
  | nil =>
    first
      | exact Frame.refl _ _
      | (rw [State.runScripts]
         repeat' (first
           | with_reducible apply Frame.refl
           | with_reducible assumption
           | with_reducible apply Frame.ite
           | with_reducible apply Frame.then_ ?_ (State.prefetchRuns_frame ..)
           | with_reducible apply Frame.then_ ?_ (State.runEntry_frame ..)
           | decide
           | dsimp only
           | split
           | (fail_if_no_progress simp only [Frame.mk_eq]; refine Frame.upd ?_)))
  | cons b l ih =>
    rw [State.runScripts]
    try dsimp only
    repeat' (first
      | with_reducible apply Frame.refl
      | with_reducible assumption
      | with_reducible apply Frame.ite
      | with_reducible apply Frame.then_ ?_ (ih ..)
      | with_reducible apply Frame.then_ ?_ (State.prefetchRuns_frame ..)
      | with_reducible apply Frame.then_ ?_ (State.runEntry_frame ..)
      | decide
      | dsimp only
      | split
      | (fail_if_no_progress simp only [Frame.mk_eq]; refine Frame.upd ?_))

theorem State.runMissed_frame (s : State) (ecc : MemEcc) (x : Nat × Nat) :
Frame [.csr, .mem, .pwr, .clk, .haul, .sch, .gen, .wgt, .bench, .scr, .itk, .flt, .rrc, .obs, .sent, .fresh] s
      (State.runMissed s ecc x) := by
  unfold State.runMissed
  try dsimp only
  repeat' (first
    | with_reducible apply Frame.refl
    | with_reducible assumption
    | with_reducible apply Frame.ite
    | with_reducible apply Frame.then_ ?_ (State.prefetchRuns_frame ..)
    | with_reducible apply Frame.then_ ?_ (State.runEntry_frame ..)
    | decide
    | dsimp only
    | split
    | (fail_if_no_progress simp only [Frame.mk_eq]; refine Frame.upd ?_))

theorem State.scriptBeat_frame (s : State) (ecc : MemEcc) :
Frame [.csr, .mem, .pwr, .clk, .haul, .sch, .gen, .wgt, .bench, .scr, .itk, .flt, .rrc, .obs, .sent, .fresh] s
      (State.scriptBeat s ecc) := by
  unfold State.scriptBeat
  try dsimp only
  repeat' (first
    | with_reducible apply Frame.refl
    | with_reducible assumption
    | with_reducible apply Frame.ite
    | with_reducible apply Frame.then_ ?_ (State.prefetchOver_frame ..)
    | with_reducible apply Frame.then_ ?_ (State.runMissed_frame ..)
    | with_reducible apply Frame.then_ ?_ (State.runScripts_frame ..)
    | decide
    | with_reducible apply Frame.foldl_fst
    | with_reducible apply Frame.foldl
    | intro y a b c hy
    | intro y a hy
    | intro y hy
    | dsimp only
    | split)

theorem State.setGather_frame (s : State) (d : GatherDesc) (g : Option Gather) :
    Frame [.scr] s (State.setGather s d g) := by
  unfold State.setGather
  try dsimp only
  repeat' (first
    | with_reducible apply Frame.refl
    | with_reducible assumption
    | with_reducible apply Frame.ite
    | decide
    | dsimp only
    | split
    | (fail_if_no_progress simp only [Frame.mk_eq]; refine Frame.upd ?_))

theorem State.writeEngineList_frame (s : State) (d : GatherDesc) (g : Gather) :
    Frame [.mem] s (State.writeEngineList s d g) := by
  unfold State.writeEngineList
  try dsimp only
  repeat' (first
    | with_reducible apply Frame.refl
    | with_reducible assumption
    | with_reducible apply Frame.ite
    | with_reducible apply Frame.then_ ?_ (State.setBytes_frame ..)
    | decide
    | dsimp only
    | split)

theorem State.refuseEntry_frame (s : State) (d : GatherDesc) (a : Nat) :
    Frame [.csr, .pwr, .flt, .rrc, .obs, .fresh] s (State.refuseEntry s d a) := by
  unfold State.refuseEntry
  try dsimp only
  repeat' (first
    | with_reducible apply Frame.refl
    | with_reducible assumption
    | with_reducible apply Frame.ite
    | with_reducible apply Frame.then_ ?_ (State.contained_frame ..)
    | with_reducible apply Frame.then_ ?_ (State.inc_frame ..)
    | with_reducible apply Frame.then_ ?_ (State.wr_frame ..)
    | decide
    | dsimp only
    | split)

theorem State.gatherRecords_frame (s : State) (ecc : MemEcc) (d : GatherDesc) (a : List (Nat × Nat)) :
Frame [.csr, .mem, .pwr, .haul, .sch, .gen, .wgt, .scr, .itk, .flt, .rrc, .obs, .sent, .fresh] s
      (State.gatherRecords s ecc d a).state := by
  induction a generalizing s ecc d with
  | nil =>
    first
      | exact Frame.refl _ _
      | (rw [State.gatherRecords]
         repeat' (first
           | with_reducible apply Frame.refl
           | with_reducible assumption
           | with_reducible apply Frame.ite
           | with_reducible apply Frame.then_ ?_ (State.memRead_frame ..)
           | (with_reducible apply Frame.then_ ?_ (Frame.of_eq (State.memRead_frame ..) (by assumption)))
           | with_reducible apply Frame.then_ ?_ (State.refuseEntry_frame ..)
           | decide
           | dsimp only
           | split))
  | cons b l ih =>
    rw [State.gatherRecords]
    try dsimp only
    repeat' (first
      | with_reducible apply Frame.refl
      | with_reducible assumption
      | with_reducible apply Frame.ite
      | with_reducible apply Frame.then_ ?_ (ih ..)
      | with_reducible apply Frame.then_ ?_ (State.memRead_frame ..)
      | (with_reducible apply Frame.then_ ?_ (Frame.of_eq (State.memRead_frame ..) (by assumption)))
      | with_reducible apply Frame.then_ ?_ (State.refuseEntry_frame ..)
      | decide
      | dsimp only
      | split)

theorem State.scatterRecords_frame (s : State) (d : GatherDesc) (records : List Byte) (a : List (Nat × Nat)) :
    Frame [.csr, .mem, .pwr, .scr, .flt, .rrc, .obs, .fresh] s (State.scatterRecords s d records a).state := by
  induction a generalizing s d records with
  | nil =>
    first
      | exact Frame.refl _ _
      | (rw [State.scatterRecords]
         repeat' (first
           | with_reducible apply Frame.refl
           | with_reducible assumption
           | with_reducible apply Frame.ite
           | with_reducible apply Frame.then_ ?_ (State.memWrite_frame ..)
           | with_reducible apply Frame.then_ ?_ (State.refuseEntry_frame ..)
           | decide
           | dsimp only
           | split))
  | cons b l ih =>
    rw [State.scatterRecords]
    try dsimp only
    repeat' (first
      | with_reducible apply Frame.refl
      | with_reducible assumption
      | with_reducible apply Frame.ite
      | with_reducible apply Frame.then_ ?_ (ih ..)
      | with_reducible apply Frame.then_ ?_ (State.memWrite_frame ..)
      | with_reducible apply Frame.then_ ?_ (State.refuseEntry_frame ..)
      | decide
      | dsimp only
      | split)

theorem State.windowAccess_frame (s : State) (ecc : MemEcc) (d : GatherDesc) (list : List Nat) (records : List Byte)
      :
Frame [.csr, .mem, .pwr, .haul, .sch, .gen, .wgt, .scr, .itk, .flt, .rrc, .obs, .sent, .fresh] s (State.windowAccess
      s ecc d list records).state := by
  unfold State.windowAccess
  try dsimp only
  repeat' (first
    | with_reducible apply Frame.refl
    | with_reducible assumption
    | with_reducible apply Frame.ite
    | with_reducible apply Frame.then_ ?_ (State.gatherRecords_frame ..)
    | with_reducible apply Frame.then_ ?_ (State.scatterRecords_frame ..)
    | decide
    | dsimp only
    | split)

theorem State.recordsRead_frame (s : State) (ecc : MemEcc) (d : GatherDesc) (g : Gather) :
    Frame [.csr, .pwr, .haul, .sch, .gen, .flt, .rrc, .obs, .sent, .fresh] s (State.recordsRead s ecc d g).1 := by
  unfold State.recordsRead
  try dsimp only
  repeat' (first
    | with_reducible apply Frame.refl
    | with_reducible assumption
    | with_reducible apply Frame.ite
    | with_reducible apply Frame.then_ ?_ (State.storeRead_frame ..)
    | (with_reducible apply Frame.then_ ?_ (Frame.of_eq (State.storeRead_frame ..) (by assumption)))
    | decide
    | dsimp only
    | split)

theorem State.engineStart_frame (s : State) (ecc : MemEcc) (index : Nat) (d : GatherDesc) (g : Gather) (e :
      IntakeEntry) :
Frame [.csr, .mem, .pwr, .haul, .sch, .gen, .wgt, .scr, .itk, .twn, .flt, .rrc, .obs, .sent, .fresh] s
      (State.engineStart s ecc index d g e).1 := by
  unfold State.engineStart
  try dsimp only
  repeat' (first
    | with_reducible apply Frame.refl
    | with_reducible assumption
    | with_reducible apply Frame.ite
    | with_reducible apply Frame.then_ ?_ (State.applyIndexes_frame ..)
    | with_reducible apply Frame.then_ ?_ (State.indexRead_frame ..)
    | with_reducible apply Frame.then_ ?_ (State.indexWrite_frame ..)
    | with_reducible apply Frame.then_ ?_ (State.memRead_frame ..)
    | (with_reducible apply Frame.then_ ?_ (Frame.of_eq (State.memRead_frame ..) (by assumption)))
    | with_reducible apply Frame.then_ ?_ (State.stateRead_frame ..)
    | (with_reducible apply Frame.then_ ?_ (Frame.of_eq (State.stateRead_frame ..) (by assumption)))
    | with_reducible apply Frame.then_ ?_ (State.stateWrite_frame ..)
    | (with_reducible apply Frame.then_ ?_ (Frame.of_eq (State.stateWrite_frame ..) (by assumption)))
    | decide
    | with_reducible apply Frame.foldl_fst
    | with_reducible apply Frame.foldl
    | intro y a b c hy
    | intro y a hy
    | intro y hy
    | dsimp only
    | split)

theorem State.windowMoves_frame (s : State) (ecc : MemEcc) (index : Nat) (d : GatherDesc) (g : Gather) (list : List
      Nat) (records : List Byte) :
Frame [.csr, .mem, .pwr, .haul, .sch, .gen, .wgt, .scr, .itk, .twn, .flt, .rrc, .obs, .sent, .fresh] s
      (State.windowMoves s ecc index d g list records).1 := by
  unfold State.windowMoves
  try dsimp only
  repeat' (first
    | with_reducible apply Frame.refl
    | with_reducible assumption
    | with_reducible apply Frame.ite
    | with_reducible apply Frame.then_ ?_ (State.engineStart_frame ..)
    | (with_reducible apply Frame.then_ ?_ (Frame.of_eq (State.engineStart_frame ..) (by assumption)))
    | with_reducible apply Frame.then_ ?_ (State.windowAccess_frame ..)
    | decide
    | dsimp only
    | split)

theorem State.passWindow_frame (s : State) (d : GatherDesc) (g : Gather) (back : Bool) (n : Nat) (span : Nat) :
    Frame [.csr, .mem, .clk, .bench, .scr] s (State.passWindow s d g back n span) := by
  unfold State.passWindow
  try dsimp only
  repeat' (first
    | with_reducible apply Frame.refl
    | with_reducible assumption
    | with_reducible apply Frame.ite
    | with_reducible apply Frame.then_ ?_ (State.enqueue_frame ..)
    | decide
    | dsimp only
    | split)

theorem State.startWindow_frame (s : State) (ecc : MemEcc) (index : Nat) (d : GatherDesc) (g : Gather) :
Frame [.csr, .mem, .pwr, .clk, .haul, .sch, .gen, .bench, .scr, .flt, .rrc, .obs, .sent, .fresh] s
      (State.startWindow s ecc index d g) := by
  unfold State.startWindow
  extract_lets v0 v1 v2 v3 v4 v5
  clear_value v0
  clear_value v1
  have h_v2 : Frame [.csr, .mem, .pwr, .clk, .haul, .sch, .gen, .bench, .scr, .flt, .rrc, .obs, .sent, .fresh] s v2 := by
    simp only [v2]
    repeat' (first
      | with_reducible apply Frame.refl
      | with_reducible assumption
      | with_reducible apply Frame.ite
      | with_reducible apply Frame.then_ ?_ (State.outsideRegions_frame ..)
      | with_reducible apply Frame.then_ ?_ (State.passWindow_frame ..)
      | with_reducible apply Frame.then_ ?_ (State.recordsRead_frame ..)
      | (with_reducible apply Frame.then_ ?_ (Frame.of_eq (State.recordsRead_frame ..) (by assumption)))
      | with_reducible apply Frame.then_ ?_ (State.setGather_frame ..)
      | with_reducible apply Frame.then_ ?_ (State.storeRead_frame ..)
      | (with_reducible apply Frame.then_ ?_ (Frame.of_eq (State.storeRead_frame ..) (by assumption)))
      | with_reducible apply Frame.then_ ?_ (State.trace_frame ..)
      | with_reducible apply Frame.then_ ?_ (State.writeEngineList_frame ..)
      | decide
      | dsimp only
      | split
      | (fail_if_no_progress simp only [Frame.mk_eq]; refine Frame.upd ?_))
  clear_value v2
  have h_v3 : Frame [.csr, .mem, .pwr, .clk, .haul, .sch, .gen, .bench, .scr, .flt, .rrc, .obs, .sent, .fresh] s v3 := by
    simp only [v3]
    repeat' (first
      | with_reducible apply Frame.refl
      | with_reducible assumption
      | with_reducible apply Frame.ite
      | with_reducible apply Frame.then_ ?_ (State.outsideRegions_frame ..)
      | with_reducible apply Frame.then_ ?_ (State.passWindow_frame ..)
      | with_reducible apply Frame.then_ ?_ (State.recordsRead_frame ..)
      | (with_reducible apply Frame.then_ ?_ (Frame.of_eq (State.recordsRead_frame ..) (by assumption)))
      | with_reducible apply Frame.then_ ?_ (State.setGather_frame ..)
      | with_reducible apply Frame.then_ ?_ (State.storeRead_frame ..)
      | (with_reducible apply Frame.then_ ?_ (Frame.of_eq (State.storeRead_frame ..) (by assumption)))
      | with_reducible apply Frame.then_ ?_ (State.trace_frame ..)
      | with_reducible apply Frame.then_ ?_ (State.writeEngineList_frame ..)
      | decide
      | dsimp only
      | split
      | (fail_if_no_progress simp only [Frame.mk_eq]; refine Frame.upd ?_))
  clear_value v3
  clear_value v4
  clear_value v5
  repeat' (first
    | with_reducible apply Frame.refl
    | with_reducible assumption
    | with_reducible apply Frame.ite
    | with_reducible apply Frame.then_ ?_ (State.outsideRegions_frame ..)
    | with_reducible apply Frame.then_ ?_ (State.passWindow_frame ..)
    | with_reducible apply Frame.then_ ?_ (State.recordsRead_frame ..)
    | (with_reducible apply Frame.then_ ?_ (Frame.of_eq (State.recordsRead_frame ..) (by assumption)))
    | with_reducible apply Frame.then_ ?_ (State.setGather_frame ..)
    | with_reducible apply Frame.then_ ?_ (State.storeRead_frame ..)
    | (with_reducible apply Frame.then_ ?_ (Frame.of_eq (State.storeRead_frame ..) (by assumption)))
    | with_reducible apply Frame.then_ ?_ (State.trace_frame ..)
    | with_reducible apply Frame.then_ ?_ (State.writeEngineList_frame ..)
    | decide
    | dsimp only
    | split
    | (fail_if_no_progress simp only [Frame.mk_eq]; refine Frame.upd ?_))

theorem State.moveWindow_frame (s : State) (ecc : MemEcc) (index : Nat) (d : GatherDesc) :
Frame [.csr, .mem, .pwr, .clk, .haul, .sch, .gen, .wgt, .bench, .scr, .itk, .twn, .flt, .rrc, .obs, .sent, .fresh] s
      (State.moveWindow s ecc index d) := by
  unfold State.moveWindow
  try dsimp only
  repeat' (first
    | with_reducible apply Frame.refl
    | with_reducible assumption
    | with_reducible apply Frame.ite
    | with_reducible apply Frame.then_ ?_ (State.passWindow_frame ..)
    | with_reducible apply Frame.then_ ?_ (State.setGather_frame ..)
    | with_reducible apply Frame.then_ ?_ (State.windowMoves_frame ..)
    | (with_reducible apply Frame.then_ ?_ (Frame.of_eq (State.windowMoves_frame ..) (by assumption)))
    | decide
    | dsimp only
    | split)

theorem State.moveWindows_frame (s : State) (ecc : MemEcc) :
Frame [.csr, .mem, .pwr, .clk, .haul, .sch, .gen, .wgt, .bench, .scr, .itk, .twn, .flt, .rrc, .obs, .sent, .fresh] s
      (State.moveWindows s ecc) := by
  unfold State.moveWindows
  try dsimp only
  repeat' (first
    | with_reducible apply Frame.refl
    | with_reducible assumption
    | with_reducible apply Frame.ite
    | with_reducible apply Frame.then_ ?_ (State.moveWindow_frame ..)
    | decide
    | with_reducible apply Frame.foldl_fst
    | with_reducible apply Frame.foldl
    | intro y a b c hy
    | intro y a hy
    | intro y hy
    | dsimp only
    | split)

theorem State.takeAhead_frame (s : State) (key : Nat) :
    Frame [.scr] s (State.takeAhead s key) := by
  unfold State.takeAhead
  try dsimp only
  repeat' (first
    | with_reducible apply Frame.refl
    | with_reducible assumption
    | with_reducible apply Frame.ite
    | decide
    | dsimp only
    | split
    | (fail_if_no_progress simp only [Frame.mk_eq]; refine Frame.upd ?_))

theorem State.windowBeat_frame (s : State) (ecc : MemEcc) (index : Nat) (d : GatherDesc) (g : Gather) :
Frame [.csr, .mem, .pwr, .clk, .haul, .sch, .gen, .bench, .scr, .flt, .rrc, .obs, .sent, .fresh] s (State.windowBeat
      s ecc index d g) := by
  unfold State.windowBeat
  try dsimp only
  repeat' (first
    | with_reducible apply Frame.refl
    | with_reducible assumption
    | with_reducible apply Frame.ite
    | with_reducible apply Frame.then_ ?_ (State.setGather_frame ..)
    | with_reducible apply Frame.then_ ?_ (State.startWindow_frame ..)
    | with_reducible apply Frame.then_ ?_ (State.takeAhead_frame ..)
    | decide
    | dsimp only
    | split)

theorem State.startWindows_frame (s : State) (ecc : MemEcc) (a : List (GatherDesc × Nat)) :
Frame [.csr, .mem, .pwr, .clk, .haul, .sch, .gen, .bench, .scr, .flt, .rrc, .obs, .sent, .fresh] s
      (State.startWindows s ecc a) := by
  induction a generalizing s ecc with
  | nil =>
    first
      | exact Frame.refl _ _
      | (rw [State.startWindows]
         repeat' (first
           | with_reducible apply Frame.refl
           | with_reducible assumption
           | with_reducible apply Frame.ite
           | with_reducible apply Frame.then_ ?_ (State.windowBeat_frame ..)
           | decide
           | dsimp only
           | split))
  | cons b l ih =>
    rw [State.startWindows]
    try dsimp only
    repeat' (first
      | with_reducible apply Frame.refl
      | with_reducible assumption
      | with_reducible apply Frame.ite
      | with_reducible apply Frame.then_ ?_ (ih ..)
      | with_reducible apply Frame.then_ ?_ (State.windowBeat_frame ..)
      | decide
      | dsimp only
      | split)

theorem State.windowData_frame (s : State) (d : GatherDesc) (g : Gather) :
    Frame [.mem] s (State.windowData s d g) := by
  unfold State.windowData
  try dsimp only
  repeat' (first
    | with_reducible apply Frame.refl
    | with_reducible assumption
    | with_reducible apply Frame.ite
    | with_reducible apply Frame.then_ ?_ (State.setBytes_frame ..)
    | decide
    | with_reducible apply Frame.foldl_fst
    | with_reducible apply Frame.foldl
    | intro y a b c hy
    | intro y a hy
    | intro y hy
    | dsimp only
    | split)

theorem State.gatherShip_frame {P : List Part} {s0 : State} (s : State) (e : IntakeEntry) (key : Nat) (last : Bool)
    (out : List (Nat × List Byte)) (f : State → List (Nat × List Byte) → State) (hP : [.itk] ⊆ P) (h0 : Frame P s0 s)
    (hf : ∀ x l, Frame P s0 x → Frame P s0 (f x l)) : Frame P s0 (s.gatherShip e key last out f) := by
  have sub : ∀ t : Tab (List (Nat × List Byte)), Frame P s0 { s with itk := { s.itk with shipping := t } } := fun t =>
    h0.then_ (Frame.upd (P := [.itk]) (.refl _ _)) hP
  unfold State.gatherShip
  split
  · exact hf _ _ (sub _)
  · exact sub _

theorem State.engineEnd_frame (s : State) (index : Nat) (d : GatherDesc) (g : Gather) (e : IntakeEntry) :
    Frame [.csr, .mem, .haul, .itk, .twn, .sent] s (State.engineEnd s index d g e) := by
  unfold State.engineEnd
  try dsimp only
  repeat' (first
    | with_reducible apply Frame.refl
    | with_reducible assumption
    | with_reducible apply Frame.ite
    | with_reducible apply State.gatherShip_frame
    | with_reducible apply Frame.then_ ?_ (State.indexDone_frame ..)
    | with_reducible apply Frame.then_ ?_ (State.indexResolve_frame ..)
    | with_reducible apply Frame.then_ ?_ (State.stateDone_frame ..)
    | with_reducible apply Frame.then_ ?_ (State.windowData_frame ..)
    | decide
    | intro y a b c hy
    | intro y a hy
    | intro y hy
    | dsimp only
    | split)

theorem State.endWindow_frame (s : State) (index : Nat) (d : GatherDesc) (g : Gather) :
    Frame [.csr, .mem, .haul, .itk, .twn, .sent] s (State.endWindow s index d g) := by
  unfold State.endWindow
  try dsimp only
  repeat' (first
    | with_reducible apply Frame.refl
    | with_reducible assumption
    | with_reducible apply Frame.ite
    | with_reducible apply Frame.then_ ?_ (State.engineEnd_frame ..)
    | with_reducible apply Frame.then_ ?_ (State.windowData_frame ..)
    | decide
    | dsimp only
    | split)

theorem State.earlyData_frame (s : State) (d : GatherDesc) (g : Gather) :
    Frame [.csr, .mem, .clk, .bench, .scr] s (State.earlyData s d g) := by
  unfold State.earlyData
  try dsimp only
  repeat' (first
    | with_reducible apply Frame.refl
    | with_reducible assumption
    | with_reducible apply Frame.ite
    | with_reducible apply Frame.then_ ?_ (State.enqueue_frame ..)
    | decide
    | with_reducible apply Frame.foldl_fst
    | with_reducible apply Frame.foldl
    | intro y a b c hy
    | intro y a hy
    | intro y hy
    | dsimp only
    | split)

end Sys2Proof.Machine
end

