-- ==== Sys2Proof/Laws/FrameJobs.lean ====
section
/-! SUPPORT. One frame lemma for every operation of Machine/Jobs.lean: the parts of the state that it may change. -/

set_option Elab.async false
set_option linter.unusedTactic false
set_option linter.unreachableTactic false

namespace Sys2Proof.Machine

open Sys2Proof

theorem State.serviceBytes_frame (s : State) (a : Nat) (n : Nat) :
    Frame [.csr] s (State.serviceBytes s a n) := by
  unfold State.serviceBytes
  try dsimp only
  repeat' (first
    | with_reducible apply Frame.refl
    | with_reducible assumption
    | with_reducible apply Frame.ite
    | with_reducible apply Frame.then_ ?_ (State.wr_frame ..)
    | decide
    | dsimp only
    | split)

theorem State.serviceRefused_frame (s : State) (a : Nat) :
    Frame [.csr] s (State.serviceRefused s a) := by
  unfold State.serviceRefused
  try dsimp only
  repeat' (first
    | with_reducible apply Frame.refl
    | with_reducible assumption
    | with_reducible apply Frame.ite
    | with_reducible apply Frame.then_ ?_ (State.inc_frame ..)
    | with_reducible apply Frame.then_ ?_ (State.wr_frame ..)
    | decide
    | dsimp only
    | split)

theorem State.answerAccess_frame (s : State) (write : Bool) (asks : Option (Nat × Nat)) (st : Nat) (l : List Byte) :
    Frame [.csr, .haul, .sch, .sent] s (State.answerAccess s write asks st l) := by
  unfold State.answerAccess
  try dsimp only
  repeat' (first
    | with_reducible apply Frame.refl
    | with_reducible assumption
    | with_reducible apply Frame.ite
    | with_reducible apply Frame.then_ ?_ (State.answerAll_frame ..)
    | with_reducible apply Frame.then_ ?_ (State.emit_frame ..)
    | decide
    | dsimp only
    | split)

theorem State.readService_frame (s : State) (ecc : MemEcc) (a : Nat) (n : Nat) :
    Frame [.csr, .pwr, .haul, .sch, .gen, .scr, .flt, .rrc, .obs, .sent, .fresh] s (State.readService s ecc a n).1 := by
  unfold State.readService
  try dsimp only
  repeat' (first
    | with_reducible apply Frame.refl
    | with_reducible assumption
    | with_reducible apply Frame.ite
    | with_reducible apply Frame.then_ ?_ (State.correctedIn_frame ..)
    | with_reducible apply Frame.then_ ?_ (State.serviceBytes_frame ..)
    | with_reducible apply Frame.then_ ?_ (State.storeRead_frame ..)
    | (with_reducible apply Frame.then_ ?_ (Frame.of_eq (State.storeRead_frame ..) (by assumption)))
    | with_reducible apply Frame.then_ ?_ (State.takePositions_frame ..)
    | with_reducible apply Frame.then_ ?_ (State.uncorrService_frame ..)
    | decide
    | with_reducible apply Frame.foldl_fst
    | with_reducible apply Frame.foldl
    | intro y a b c hy
    | intro y a hy
    | intro y hy
    | dsimp only
    | split)

theorem State.writeService_frame (s : State) (a : Nat) (l : List Byte) :
    Frame [.csr, .mem, .scr] s (State.writeService s a l) := by
  unfold State.writeService
  try dsimp only
  repeat' (first
    | with_reducible apply Frame.refl
    | with_reducible assumption
    | with_reducible apply Frame.ite
    | with_reducible apply Frame.then_ ?_ (State.countBursts_frame ..)
    | with_reducible apply Frame.then_ ?_ (State.serviceBytes_frame ..)
    | with_reducible apply Frame.then_ ?_ (State.setBytes_frame ..)
    | with_reducible apply Frame.then_ ?_ (State.takePositions_frame ..)
    | decide
    | dsimp only
    | split)

theorem State.countLines_frame (s : State) (a : Nat) (n : Nat) :
    Frame [.csr] s (State.countLines s a n) := by
  unfold State.countLines
  try dsimp only
  repeat' (first
    | with_reducible apply Frame.refl
    | with_reducible assumption
    | with_reducible apply Frame.ite
    | with_reducible apply Frame.then_ ?_ (State.count_frame ..)
    | decide
    | dsimp only
    | split)

theorem State.jobPart_frame (s : State) (j : ServiceJob) :
    Frame [.csr, .mem, .pwr, .haul, .sch, .gen, .scr, .flt, .rrc, .obs, .sent, .fresh] s (State.jobPart s j).1 := by
  unfold State.jobPart
  try dsimp only
  repeat' (first
    | with_reducible apply Frame.refl
    | with_reducible assumption
    | with_reducible apply Frame.ite
    | with_reducible apply Frame.then_ ?_ (State.countLines_frame ..)
    | with_reducible apply Frame.then_ ?_ (State.readService_frame ..)
    | (with_reducible apply Frame.then_ ?_ (Frame.of_eq (State.readService_frame ..) (by assumption)))
    | with_reducible apply Frame.then_ ?_ (State.writeService_frame ..)
    | decide
    | dsimp only
    | split)

theorem State.runJob_frame (a : Nat) (a1 : State) (a2 : ServiceJob) :
    Frame [.csr, .mem, .pwr, .haul, .sch, .gen, .scr, .flt, .rrc, .obs, .sent, .fresh] a1 (State.runJob a a1 a2).1 := by
  induction a generalizing a1 a2 with
  | zero =>
    first
      | exact Frame.refl _ _
      | (rw [State.runJob]
         repeat' (first
           | with_reducible apply Frame.refl
           | with_reducible assumption
           | with_reducible apply Frame.ite
           | with_reducible apply Frame.then_ ?_ (State.jobPart_frame ..)
           | (with_reducible apply Frame.then_ ?_ (Frame.of_eq (State.jobPart_frame ..) (by assumption)))
           | decide
           | dsimp only
           | split))
  | succ m ih =>
    rw [State.runJob]
    try dsimp only
    repeat' (first
      | with_reducible apply Frame.refl
      | with_reducible assumption
      | with_reducible apply Frame.ite
      | with_reducible apply Frame.then_ ?_ (ih ..)
      | (with_reducible apply Frame.then_ ?_ (Frame.of_eq (ih ..) (by assumption)))
      | with_reducible apply Frame.then_ ?_ (State.jobPart_frame ..)
      | (with_reducible apply Frame.then_ ?_ (Frame.of_eq (State.jobPart_frame ..) (by assumption)))
      | decide
      | dsimp only
      | split)

theorem State.jobDone_frame (s : State) (j : ServiceJob) :
    Frame [.csr, .haul, .sch, .scr, .sent] s (State.jobDone s j) := by
  unfold State.jobDone
  try dsimp only
  repeat' (first
    | with_reducible apply Frame.refl
    | with_reducible assumption
    | with_reducible apply Frame.ite
    | with_reducible apply Frame.then_ ?_ (State.answerAccess_frame ..)
    | with_reducible apply Frame.then_ ?_ (State.count_frame ..)
    | decide
    | dsimp only
    | split
    | (fail_if_no_progress simp only [Frame.mk_eq]; refine Frame.upd ?_))

theorem State.serveJob_frame (s : State) (j : ServiceJob) :
    Frame [.csr, .mem, .pwr, .haul, .sch, .gen, .scr, .flt, .rrc, .obs, .sent, .fresh] s (State.serveJob s j) := by
  unfold State.serveJob
  try dsimp only
  repeat' (first
    | with_reducible apply Frame.refl
    | with_reducible assumption
    | with_reducible apply Frame.ite
    | with_reducible apply Frame.then_ ?_ (State.jobDone_frame ..)
    | with_reducible apply Frame.then_ ?_ (State.runJob_frame ..)
    | (with_reducible apply Frame.then_ ?_ (Frame.of_eq (State.runJob_frame ..) (by assumption)))
    | decide
    | dsimp only
    | split)

theorem State.serveJobs_frame (s : State) :
    Frame [.csr, .mem, .pwr, .haul, .sch, .gen, .scr, .flt, .rrc, .obs, .sent, .fresh] s (State.serveJobs s) := by
  unfold State.serveJobs
  try dsimp only
  repeat' (first
    | with_reducible apply Frame.refl
    | with_reducible assumption
    | with_reducible apply Frame.ite
    | with_reducible apply Frame.then_ ?_ (State.serveJob_frame ..)
    | decide
    | with_reducible apply Frame.foldl_fst
    | with_reducible apply Frame.foldl
    | intro y a b c hy
    | intro y a hy
    | intro y hy
    | dsimp only
    | split
    | (fail_if_no_progress simp only [Frame.mk_eq]; refine Frame.upd ?_))

theorem State.access_frame (s : State) (kind : JobKind) (a : Nat) (n : Nat) (ecc : MemEcc) (asks : Option (Nat ×
      Nat)) :
Frame [.csr, .mem, .pwr, .haul, .sch, .gen, .scr, .flt, .rrc, .obs, .sent, .fresh] s (State.access s kind a n ecc
      asks) := by
  unfold State.access
  try dsimp only
  repeat' (first
    | with_reducible apply Frame.refl
    | with_reducible assumption
    | with_reducible apply Frame.ite
    | with_reducible apply Frame.then_ ?_ (State.answerAccess_frame ..)
    | with_reducible apply Frame.then_ ?_ (State.serveJobs_frame ..)
    | with_reducible apply Frame.then_ ?_ (State.serviceRefused_frame ..)
    | decide
    | dsimp only
    | split
    | (fail_if_no_progress simp only [Frame.mk_eq]; refine Frame.upd ?_))

theorem State.startCopy_frame (s : State) (c : Nat) (shard : Nat) (repair : Bool) (src : Nat) (dst : Nat) (n : Nat)
      :
Frame [.csr, .mem, .pwr, .haul, .sch, .gen, .scr, .flt, .rrc, .obs, .sent, .fresh] s (State.startCopy s c shard
      repair src dst n) := by
  unfold State.startCopy
  try dsimp only
  repeat' (first
    | with_reducible apply Frame.refl
    | with_reducible assumption
    | with_reducible apply Frame.ite
    | with_reducible apply Frame.then_ ?_ (State.serveJobs_frame ..)
    | decide
    | dsimp only
    | split
    | (fail_if_no_progress simp only [Frame.mk_eq]; refine Frame.upd ?_))

end Sys2Proof.Machine
end

