-- ==== Sys2Proof/Laws/FrameLoad.lean ====
section
/-! SUPPORT. One frame lemma for every operation of Machine/Load.lean: the parts of the state that it may change. -/

set_option Elab.async false
set_option linter.unusedTactic false
set_option linter.unreachableTactic false

namespace Sys2Proof.Machine

open Sys2Proof

theorem State.preload_frame (s : State) (b : Nat) (x : BenchProgram) :
    Frame [.mem] s (State.preload s b x) := by
  unfold State.preload
  try dsimp only
  repeat' (first
    | with_reducible apply Frame.refl
    | with_reducible assumption
    | with_reducible apply Frame.ite
    | with_reducible apply Frame.then_ ?_ (State.setBytes_frame ..)
    | decide
    | with_reducible apply Frame.foldl_fst
    | with_reducible apply Frame.foldl
    | intro y a b c hy
    | intro y a hy
    | intro y hy
    | dsimp only
    | split)

theorem State.loadBench_frame (s : State) (p : Plan) (l : Nat) (b : Nat) :
    Frame [.mem, .bench] s (State.loadBench s p l b) := by
  unfold State.loadBench
  try dsimp only
  repeat' (first
    | with_reducible apply Frame.refl
    | with_reducible assumption
    | with_reducible apply Frame.ite
    | with_reducible apply Frame.then_ ?_ (State.preload_frame ..)
    | with_reducible apply Frame.then_ ?_ (State.setBench_frame ..)
    | decide
    | with_reducible apply Frame.foldl_fst
    | with_reducible apply Frame.foldl
    | intro y a b c hy
    | intro y a hy
    | intro y hy
    | dsimp only
    | split)

theorem State.showBench_frame (s : State) (p : Plan) (l : Nat) (b : Nat) :
    Frame [.csr] s (State.showBench s p l b) := by
  unfold State.showBench
  try dsimp only
  repeat' (first
    | with_reducible apply Frame.refl
    | with_reducible assumption
    | with_reducible apply Frame.ite
    | with_reducible apply Frame.then_ ?_ (State.wrAt_frame ..)
    | decide
    | with_reducible apply Frame.foldl_fst
    | with_reducible apply Frame.foldl
    | intro y a b c hy
    | intro y a hy
    | intro y hy
    | dsimp only
    | split)

theorem State.hideBench_frame (s : State) (b : Nat) :
    Frame [.csr] s (State.hideBench s b) := by
  unfold State.hideBench
  try dsimp only
  repeat' (first
    | with_reducible apply Frame.refl
    | with_reducible assumption
    | with_reducible apply Frame.ite
    | with_reducible apply Frame.then_ ?_ (State.wrAt_frame ..)
    | decide
    | dsimp only
    | split)

theorem State.showBenches_frame (s : State) (p : Plan) :
    Frame [.csr] s (State.showBenches s p) := by
  unfold State.showBenches
  try dsimp only
  repeat' (first
    | with_reducible apply Frame.refl
    | with_reducible assumption
    | with_reducible apply Frame.ite
    | with_reducible apply Frame.then_ ?_ (State.showBench_frame ..)
    | with_reducible apply Frame.then_ ?_ (State.wrAt_frame ..)
    | decide
    | with_reducible apply Frame.foldl_fst
    | with_reducible apply Frame.foldl
    | intro y a b c hy
    | intro y a hy
    | intro y hy
    | dsimp only
    | split)

theorem State.showExt_frame (s : State) :
    Frame [.csr] s (State.showExt s) := by
  unfold State.showExt
  try dsimp only
  repeat' (first
    | with_reducible apply Frame.refl
    | with_reducible assumption
    | with_reducible apply Frame.ite
    | with_reducible apply Frame.then_ ?_ (State.wr_frame ..)
    | decide
    | dsimp only
    | split)

theorem State.substitute_frame (s : State) (b : Nat) :
    Frame [.csr, .mem, .pwr, .gen, .bench, .flt, .rrc, .obs, .fresh] s (State.substitute s b) := by
  unfold State.substitute
  try dsimp only
  repeat' (first
    | with_reducible apply Frame.refl
    | with_reducible assumption
    | with_reducible apply Frame.ite
    | with_reducible apply Frame.then_ ?_ (State.contained_frame ..)
    | with_reducible apply Frame.then_ ?_ (State.hideBench_frame ..)
    | with_reducible apply Frame.then_ ?_ (State.inc_frame ..)
    | with_reducible apply Frame.then_ ?_ (State.loadBench_frame ..)
    | with_reducible apply Frame.then_ ?_ (State.showBench_frame ..)
    | with_reducible apply Frame.then_ ?_ (State.showSubst_frame ..)
    | with_reducible apply Frame.then_ ?_ (State.wr_frame ..)
    | decide
    | dsimp only
    | split
    | (fail_if_no_progress simp only [Frame.mk_eq]; refine Frame.upd ?_))

theorem State.substituteAll_frame (s : State) :
    Frame [.csr, .mem, .pwr, .gen, .bench, .flt, .rrc, .obs, .fresh] s (State.substituteAll s) := by
  unfold State.substituteAll
  try dsimp only
  repeat' (first
    | with_reducible apply Frame.refl
    | with_reducible assumption
    | with_reducible apply Frame.ite
    | with_reducible apply Frame.then_ ?_ (State.substitute_frame ..)
    | decide
    | with_reducible apply Frame.foldl_fst
    | with_reducible apply Frame.foldl
    | intro y a b c hy
    | intro y a hy
    | intro y hy
    | dsimp only
    | split)

theorem State.fetchEntries_frame (s : State) (c : Nat) :
    Frame [.csr, .bench] s (State.fetchEntries s c) := by
  unfold State.fetchEntries
  try dsimp only
  repeat' (first
    | with_reducible apply Frame.refl
    | with_reducible assumption
    | with_reducible apply Frame.ite
    | with_reducible apply Frame.then_ ?_ (State.setBench_frame ..)
    | with_reducible apply Frame.then_ ?_ (State.spanEnds_frame ..)
    | with_reducible apply Frame.then_ ?_ (State.wrAt_frame ..)
    | decide
    | with_reducible apply Frame.foldl_fst
    | with_reducible apply Frame.foldl
    | intro y a b c hy
    | intro y a hy
    | intro y hy
    | dsimp only
    | split)

theorem State.holdEntries_frame (s : State) (c : Nat) :
    Frame [.csr, .bench] s (State.holdEntries s c) := by
  unfold State.holdEntries
  try dsimp only
  repeat' (first
    | with_reducible apply Frame.refl
    | with_reducible assumption
    | with_reducible apply Frame.ite
    | with_reducible apply Frame.then_ ?_ (State.setBench_frame ..)
    | with_reducible apply Frame.then_ ?_ (State.wrAt_frame ..)
    | decide
    | with_reducible apply Frame.foldl_fst
    | with_reducible apply Frame.foldl
    | intro y a b c hy
    | intro y a hy
    | intro y hy
    | dsimp only
    | split)

theorem State.showStopEnd_frame (s : State) :
    Frame [.csr] s (State.showStopEnd s) := by
  unfold State.showStopEnd
  try dsimp only
  repeat' (first
    | with_reducible apply Frame.refl
    | with_reducible assumption
    | with_reducible apply Frame.ite
    | with_reducible apply Frame.then_ ?_ (State.wr_frame ..)
    | decide
    | with_reducible apply Frame.foldl_fst
    | with_reducible apply Frame.foldl
    | intro y a b c hy
    | intro y a hy
    | intro y hy
    | dsimp only
    | split)

theorem State.stopEffect_frame (s : State) :
    Frame [.csr, .pln, .olc] s (State.stopEffect s) := by
  unfold State.stopEffect
  try dsimp only
  repeat' (first
    | with_reducible apply Frame.refl
    | with_reducible assumption
    | with_reducible apply Frame.ite
    | with_reducible apply Frame.then_ ?_ (State.changeApplied_frame ..)
    | with_reducible apply Frame.then_ ?_ (State.showAct_frame ..)
    | with_reducible apply Frame.then_ ?_ (State.showStopEnd_frame ..)
    | decide
    | dsimp only
    | split
    | (fail_if_no_progress simp only [Frame.mk_eq]; refine Frame.upd ?_))

end Sys2Proof.Machine
end

