-- ==== Sys2Proof/Laws/FrameBoundary.lean ====
section
/-! SUPPORT. One frame lemma for every operation of Machine/Boundary.lean: the parts of the state that it may change. -/

set_option Elab.async false
set_option linter.unusedTactic false
set_option linter.unreachableTactic false

namespace Sys2Proof.Machine

open Sys2Proof

theorem State.beatSlip_frame (s : State) (x : BeatReport) :
    Frame [.csr, .clk, .haul, .sch, .obs, .sent, .fresh] s (State.beatSlip s x) := by
  unfold State.beatSlip
  extract_lets v0 v1 v2 v3 v4 v5 v6 v7 v8 v9 v10 v11 v12 v13 v14 v15
  clear_value v0
  clear_value v1
  clear_value v2
  have h_v3 : Frame [.csr, .clk, .haul, .sch, .obs, .sent, .fresh] s v3 := by
    simp only [v3]
    repeat' (first
      | with_reducible apply Frame.refl
      | with_reducible assumption
      | with_reducible apply Frame.ite
      | with_reducible apply Frame.then_ ?_ (State.addAt_frame ..)
      | with_reducible apply Frame.then_ ?_ (State.clockHold_frame ..)
      | with_reducible apply Frame.then_ ?_ (State.incAt_frame ..)
      | with_reducible apply Frame.then_ ?_ (State.trace_frame ..)
      | with_reducible apply Frame.then_ ?_ (State.wr_frame ..)
      | with_reducible apply Frame.then_ ?_ (State.wrAt_frame ..)
      | decide
      | dsimp only
      | split
      | (fail_if_no_progress simp only [Frame.mk_eq]; refine Frame.upd ?_))
  clear_value v3
  clear_value v4
  have h_v5 : Frame [.csr, .clk, .haul, .sch, .obs, .sent, .fresh] s v5 := by
    simp only [v5]
    repeat' (first
      | with_reducible apply Frame.refl
      | with_reducible assumption
      | with_reducible apply Frame.ite
      | with_reducible apply Frame.then_ ?_ (State.addAt_frame ..)
      | with_reducible apply Frame.then_ ?_ (State.clockHold_frame ..)
      | with_reducible apply Frame.then_ ?_ (State.incAt_frame ..)
      | with_reducible apply Frame.then_ ?_ (State.trace_frame ..)
      | with_reducible apply Frame.then_ ?_ (State.wr_frame ..)
      | with_reducible apply Frame.then_ ?_ (State.wrAt_frame ..)
      | decide
      | dsimp only
      | split
      | (fail_if_no_progress simp only [Frame.mk_eq]; refine Frame.upd ?_))
  clear_value v5
  have h_v6 : Frame [.csr, .clk, .haul, .sch, .obs, .sent, .fresh] s v6 := by
    simp only [v6]
    repeat' (first
      | with_reducible apply Frame.refl
      | with_reducible assumption
      | with_reducible apply Frame.ite
      | with_reducible apply Frame.then_ ?_ (State.addAt_frame ..)
      | with_reducible apply Frame.then_ ?_ (State.clockHold_frame ..)
      | with_reducible apply Frame.then_ ?_ (State.incAt_frame ..)
      | with_reducible apply Frame.then_ ?_ (State.trace_frame ..)
      | with_reducible apply Frame.then_ ?_ (State.wr_frame ..)
      | with_reducible apply Frame.then_ ?_ (State.wrAt_frame ..)
      | decide
      | dsimp only
      | split
      | (fail_if_no_progress simp only [Frame.mk_eq]; refine Frame.upd ?_))
  clear_value v6
  clear_value v7
  clear_value v8
  have h_v9 : Frame [.csr, .clk, .haul, .sch, .obs, .sent, .fresh] s v9 := by
    simp only [v9]
    repeat' (first
      | with_reducible apply Frame.refl
      | with_reducible assumption
      | with_reducible apply Frame.ite
      | with_reducible apply Frame.then_ ?_ (State.addAt_frame ..)
      | with_reducible apply Frame.then_ ?_ (State.clockHold_frame ..)
      | with_reducible apply Frame.then_ ?_ (State.incAt_frame ..)
      | with_reducible apply Frame.then_ ?_ (State.trace_frame ..)
      | with_reducible apply Frame.then_ ?_ (State.wr_frame ..)
      | with_reducible apply Frame.then_ ?_ (State.wrAt_frame ..)
      | decide
      | dsimp only
      | split
      | (fail_if_no_progress simp only [Frame.mk_eq]; refine Frame.upd ?_))
  clear_value v9
  have h_v10 : Frame [.csr, .clk, .haul, .sch, .obs, .sent, .fresh] s v10 := by
    simp only [v10]
    repeat' (first
      | with_reducible apply Frame.refl
      | with_reducible assumption
      | with_reducible apply Frame.ite
      | with_reducible apply Frame.then_ ?_ (State.addAt_frame ..)
      | with_reducible apply Frame.then_ ?_ (State.clockHold_frame ..)
      | with_reducible apply Frame.then_ ?_ (State.incAt_frame ..)
      | with_reducible apply Frame.then_ ?_ (State.trace_frame ..)
      | with_reducible apply Frame.then_ ?_ (State.wr_frame ..)
      | with_reducible apply Frame.then_ ?_ (State.wrAt_frame ..)
      | decide
      | dsimp only
      | split
      | (fail_if_no_progress simp only [Frame.mk_eq]; refine Frame.upd ?_))
  clear_value v10
  clear_value v11
  have h_v12 : Frame [.csr, .clk, .haul, .sch, .obs, .sent, .fresh] s v12 := by
    simp only [v12]
    repeat' (first
      | with_reducible apply Frame.refl
      | with_reducible assumption
      | with_reducible apply Frame.ite
      | with_reducible apply Frame.then_ ?_ (State.addAt_frame ..)
      | with_reducible apply Frame.then_ ?_ (State.clockHold_frame ..)
      | with_reducible apply Frame.then_ ?_ (State.incAt_frame ..)
      | with_reducible apply Frame.then_ ?_ (State.trace_frame ..)
      | with_reducible apply Frame.then_ ?_ (State.wr_frame ..)
      | with_reducible apply Frame.then_ ?_ (State.wrAt_frame ..)
      | decide
      | dsimp only
      | split
      | (fail_if_no_progress simp only [Frame.mk_eq]; refine Frame.upd ?_))
  clear_value v12
  clear_value v13
  clear_value v14
  clear_value v15
  repeat' (first
    | with_reducible apply Frame.refl
    | with_reducible assumption
    | with_reducible apply Frame.ite
    | with_reducible apply Frame.then_ ?_ (State.addAt_frame ..)
    | with_reducible apply Frame.then_ ?_ (State.clockHold_frame ..)
    | with_reducible apply Frame.then_ ?_ (State.incAt_frame ..)
    | with_reducible apply Frame.then_ ?_ (State.trace_frame ..)
    | with_reducible apply Frame.then_ ?_ (State.wr_frame ..)
    | with_reducible apply Frame.then_ ?_ (State.wrAt_frame ..)
    | decide
    | dsimp only
    | split
    | (fail_if_no_progress simp only [Frame.mk_eq]; refine Frame.upd ?_))

theorem State.beatMargin_frame (s : State) (x : BeatReport) :
    Frame [.csr, .pwr, .clk, .rrc, .obs, .fresh] s (State.beatMargin s x) := by
  unfold State.beatMargin
  extract_lets v0 v1 v2 v3 v4 v5 v6 v7
  clear_value v0
  clear_value v1
  clear_value v2
  clear_value v3
  have h_v4 : Frame [.csr, .pwr, .clk, .rrc, .obs, .fresh] s v4 := by
    simp only [v4]
    repeat' (first
      | with_reducible apply Frame.refl
      | with_reducible assumption
      | with_reducible apply Frame.ite
      | with_reducible apply Frame.then_ ?_ (State.fault_frame ..)
      | with_reducible apply Frame.then_ ?_ (State.notice_frame ..)
      | with_reducible apply Frame.then_ ?_ (State.showStretch_frame ..)
      | with_reducible apply Frame.then_ ?_ (State.wr_frame ..)
      | with_reducible apply Frame.then_ ?_ (State.wrAt_frame ..)
      | decide
      | dsimp only
      | split)
  clear_value v4
  have h_v5 : Frame [.csr, .pwr, .clk, .rrc, .obs, .fresh] s v5 := by
    simp only [v5]
    repeat' (first
      | with_reducible apply Frame.refl
      | with_reducible assumption
      | with_reducible apply Frame.ite
      | with_reducible apply Frame.then_ ?_ (State.fault_frame ..)
      | with_reducible apply Frame.then_ ?_ (State.notice_frame ..)
      | with_reducible apply Frame.then_ ?_ (State.showStretch_frame ..)
      | with_reducible apply Frame.then_ ?_ (State.wr_frame ..)
      | with_reducible apply Frame.then_ ?_ (State.wrAt_frame ..)
      | decide
      | dsimp only
      | split)
  clear_value v5
  have h_v6 : Frame [.csr, .pwr, .clk, .rrc, .obs, .fresh] s v6 := by
    simp only [v6]
    repeat' (first
      | with_reducible apply Frame.refl
      | with_reducible assumption
      | with_reducible apply Frame.ite
      | with_reducible apply Frame.then_ ?_ (State.fault_frame ..)
      | with_reducible apply Frame.then_ ?_ (State.notice_frame ..)
      | with_reducible apply Frame.then_ ?_ (State.showStretch_frame ..)
      | with_reducible apply Frame.then_ ?_ (State.wr_frame ..)
      | with_reducible apply Frame.then_ ?_ (State.wrAt_frame ..)
      | decide
      | dsimp only
      | split)
  clear_value v6
  have h_v7 : Frame [.csr, .pwr, .clk, .rrc, .obs, .fresh] s v7 := by
    simp only [v7]
    repeat' (first
      | with_reducible apply Frame.refl
      | with_reducible assumption
      | with_reducible apply Frame.ite
      | with_reducible apply Frame.then_ ?_ (State.fault_frame ..)
      | with_reducible apply Frame.then_ ?_ (State.notice_frame ..)
      | with_reducible apply Frame.then_ ?_ (State.showStretch_frame ..)
      | with_reducible apply Frame.then_ ?_ (State.wr_frame ..)
      | with_reducible apply Frame.then_ ?_ (State.wrAt_frame ..)
      | decide
      | dsimp only
      | split)
  clear_value v7
  repeat' (first
    | with_reducible apply Frame.refl
    | with_reducible assumption
    | with_reducible apply Frame.ite
    | with_reducible apply Frame.then_ ?_ (State.fault_frame ..)
    | with_reducible apply Frame.then_ ?_ (State.notice_frame ..)
    | with_reducible apply Frame.then_ ?_ (State.showStretch_frame ..)
    | with_reducible apply Frame.then_ ?_ (State.wr_frame ..)
    | with_reducible apply Frame.then_ ?_ (State.wrAt_frame ..)
    | decide
    | dsimp only
    | split)

theorem State.beatFill_frame (s : State) (l : List BeatReport) :
    Frame [.csr, .pwr] s (State.beatFill s l) := by
  unfold State.beatFill
  try dsimp only
  repeat' (first
    | with_reducible apply Frame.refl
    | with_reducible assumption
    | with_reducible apply Frame.ite
    | with_reducible apply Frame.then_ ?_ (State.fillRegion_frame ..)
    | with_reducible apply Frame.then_ ?_ (State.showFill_frame ..)
    | decide
    | with_reducible apply Frame.foldl_fst
    | with_reducible apply Frame.foldl
    | intro y a b c hy
    | intro y a hy
    | intro y hy
    | dsimp only
    | split)

theorem State.beatBench_frame (s : State) (x : BenchBeat) :
    Frame [.csr, .clk] s (State.beatBench s x) := by
  unfold State.beatBench
  extract_lets v0 v1 v2 v3 v4 v5
  clear_value v0
  clear_value v1
  clear_value v2
  have h_v3 : Frame [.csr, .clk] s v3 := by
    simp only [v3]
    repeat' (first
      | with_reducible apply Frame.refl
      | with_reducible assumption
      | with_reducible apply Frame.ite
      | with_reducible apply Frame.then_ ?_ (State.addAt_frame ..)
      | with_reducible apply Frame.then_ ?_ (State.count_frame ..)
      | with_reducible apply Frame.then_ ?_ (State.wrAt_frame ..)
      | decide
      | dsimp only
      | split
      | (fail_if_no_progress simp only [Frame.mk_eq]; refine Frame.upd ?_))
  clear_value v3
  have h_v4 : Frame [.csr, .clk] s v4 := by
    simp only [v4]
    repeat' (first
      | with_reducible apply Frame.refl
      | with_reducible assumption
      | with_reducible apply Frame.ite
      | with_reducible apply Frame.then_ ?_ (State.addAt_frame ..)
      | with_reducible apply Frame.then_ ?_ (State.count_frame ..)
      | with_reducible apply Frame.then_ ?_ (State.wrAt_frame ..)
      | decide
      | dsimp only
      | split
      | (fail_if_no_progress simp only [Frame.mk_eq]; refine Frame.upd ?_))
  clear_value v4
  have h_v5 : Frame [.csr, .clk] s v5 := by
    simp only [v5]
    repeat' (first
      | with_reducible apply Frame.refl
      | with_reducible assumption
      | with_reducible apply Frame.ite
      | with_reducible apply Frame.then_ ?_ (State.addAt_frame ..)
      | with_reducible apply Frame.then_ ?_ (State.count_frame ..)
      | with_reducible apply Frame.then_ ?_ (State.wrAt_frame ..)
      | decide
      | dsimp only
      | split
      | (fail_if_no_progress simp only [Frame.mk_eq]; refine Frame.upd ?_))
  clear_value v5
  repeat' (first
    | with_reducible apply Frame.refl
    | with_reducible assumption
    | with_reducible apply Frame.ite
    | with_reducible apply Frame.then_ ?_ (State.addAt_frame ..)
    | with_reducible apply Frame.then_ ?_ (State.count_frame ..)
    | with_reducible apply Frame.then_ ?_ (State.wrAt_frame ..)
    | decide
    | dsimp only
    | split
    | (fail_if_no_progress simp only [Frame.mk_eq]; refine Frame.upd ?_))

theorem State.fallsBehind_frame (s : State) (b : Nat) :
    Frame [.bench] s (State.fallsBehind s b) := by
  unfold State.fallsBehind
  try dsimp only
  repeat' (first
    | with_reducible apply Frame.refl
    | with_reducible assumption
    | with_reducible apply Frame.ite
    | with_reducible apply Frame.then_ ?_ (State.setBench_frame ..)
    | decide
    | dsimp only
    | split)

theorem State.resumeBeats_frame (s : State) :
    Frame [.csr, .bench] s (State.resumeBeats s) := by
  unfold State.resumeBeats
  try dsimp only
  repeat' (first
    | with_reducible apply Frame.refl
    | with_reducible assumption
    | with_reducible apply Frame.ite
    | with_reducible apply Frame.then_ ?_ (State.fallsBehind_frame ..)
    | with_reducible apply Frame.then_ ?_ (State.resume_frame ..)
    | with_reducible apply Frame.then_ ?_ (State.setBench_frame ..)
    | with_reducible apply Frame.then_ ?_ (State.spanBeat_frame ..)
    | decide
    | with_reducible apply Frame.foldl_fst
    | with_reducible apply Frame.foldl
    | intro y a b c hy
    | intro y a hy
    | intro y hy
    | dsimp only
    | split)

theorem State.gatherSpan_frame (s : State) (b : Nat) :
    Frame [.csr, .bench] s (State.gatherSpan s b) := by
  unfold State.gatherSpan
  try dsimp only
  repeat' (first
    | with_reducible apply Frame.refl
    | with_reducible assumption
    | with_reducible apply Frame.ite
    | with_reducible apply Frame.then_ ?_ (State.spanStarts_frame ..)
    | decide
    | with_reducible apply Frame.foldl_fst
    | with_reducible apply Frame.foldl
    | intro y a b c hy
    | intro y a hy
    | intro y hy
    | dsimp only
    | split)

theorem State.gatherSpans_frame (s : State) :
    Frame [.csr, .bench] s (State.gatherSpans s) := by
  unfold State.gatherSpans
  try dsimp only
  repeat' (first
    | with_reducible apply Frame.refl
    | with_reducible assumption
    | with_reducible apply Frame.ite
    | with_reducible apply Frame.then_ ?_ (State.gatherSpan_frame ..)
    | decide
    | with_reducible apply Frame.foldl_fst
    | with_reducible apply Frame.foldl
    | intro y a b c hy
    | intro y a hy
    | intro y hy
    | dsimp only
    | split)

theorem State.endSwitchBeat_frame (s : State) :
    Frame [.csr, .pwr, .clk] s (State.endSwitchBeat s) := by
  unfold State.endSwitchBeat
  try dsimp only
  repeat' (first
    | with_reducible apply Frame.refl
    | with_reducible assumption
    | with_reducible apply Frame.ite
    | with_reducible apply Frame.then_ ?_ (State.wr_frame ..)
    | decide
    | dsimp only
    | split
    | (fail_if_no_progress simp only [Frame.mk_eq]; refine Frame.upd ?_))

theorem State.beatPending_frame (s : State) :
Frame [.csr, .mem, .pwr, .clk, .sch, .pln, .olc, .gen, .wgt, .bench, .frk, .scr, .itk, .twn, .sent] s
      (State.beatPending s) := by
  unfold State.beatPending
  extract_lets v0 v1 v2 v3 v4 v5 v6
  clear_value v0
  have h_v1 : Frame [.csr, .mem, .pwr, .clk, .sch, .pln, .olc, .gen, .wgt, .bench, .frk, .scr, .itk, .twn, .sent] s v1 := by
    simp only [v1]
    repeat' (first
      | with_reducible apply Frame.refl
      | with_reducible assumption
      | with_reducible apply Frame.ite
      | with_reducible apply Frame.then_ ?_ (State.contextReset_frame ..)
      | with_reducible apply Frame.then_ ?_ (State.planAbort_frame ..)
      | with_reducible apply Frame.then_ ?_ (State.showStretches_frame ..)
      | decide
      | with_reducible apply Frame.foldl_fst
      | with_reducible apply Frame.foldl
      | intro y a b c hy
      | intro y a hy
      | intro y hy
      | dsimp only
      | split
      | (fail_if_no_progress simp only [Frame.mk_eq]; refine Frame.upd ?_))
  clear_value v1
  clear_value v2
  have h_v3 : Frame [.csr, .mem, .pwr, .clk, .sch, .pln, .olc, .gen, .wgt, .bench, .frk, .scr, .itk, .twn, .sent] s v3 := by
    simp only [v3]
    repeat' (first
      | with_reducible apply Frame.refl
      | with_reducible assumption
      | with_reducible apply Frame.ite
      | with_reducible apply Frame.then_ ?_ (State.contextReset_frame ..)
      | with_reducible apply Frame.then_ ?_ (State.planAbort_frame ..)
      | with_reducible apply Frame.then_ ?_ (State.showStretches_frame ..)
      | decide
      | with_reducible apply Frame.foldl_fst
      | with_reducible apply Frame.foldl
      | intro y a b c hy
      | intro y a hy
      | intro y hy
      | dsimp only
      | split
      | (fail_if_no_progress simp only [Frame.mk_eq]; refine Frame.upd ?_))
  clear_value v3
  clear_value v4
  have h_v5 : Frame [.csr, .mem, .pwr, .clk, .sch, .pln, .olc, .gen, .wgt, .bench, .frk, .scr, .itk, .twn, .sent] s v5 := by
    simp only [v5]
    repeat' (first
      | with_reducible apply Frame.refl
      | with_reducible assumption
      | with_reducible apply Frame.ite
      | with_reducible apply Frame.then_ ?_ (State.contextReset_frame ..)
      | with_reducible apply Frame.then_ ?_ (State.planAbort_frame ..)
      | with_reducible apply Frame.then_ ?_ (State.showStretches_frame ..)
      | decide
      | with_reducible apply Frame.foldl_fst
      | with_reducible apply Frame.foldl
      | intro y a b c hy
      | intro y a hy
      | intro y hy
      | dsimp only
      | split
      | (fail_if_no_progress simp only [Frame.mk_eq]; refine Frame.upd ?_))
  clear_value v5
  clear_value v6
  repeat' (first
    | with_reducible apply Frame.refl
    | with_reducible assumption
    | with_reducible apply Frame.ite
    | with_reducible apply Frame.then_ ?_ (State.contextReset_frame ..)
    | with_reducible apply Frame.then_ ?_ (State.planAbort_frame ..)
    | with_reducible apply Frame.then_ ?_ (State.showStretches_frame ..)
    | decide
    | with_reducible apply Frame.foldl_fst
    | with_reducible apply Frame.foldl
    | intro y a b c hy
    | intro y a hy
    | intro y hy
    | dsimp only
    | split
    | (fail_if_no_progress simp only [Frame.mk_eq]; refine Frame.upd ?_))

theorem State.foremanBeats_frame (s : State) :
    Frame [.csr] s (State.foremanBeats s) := by
  unfold State.foremanBeats
  try dsimp only
  repeat' (first
    | with_reducible apply Frame.refl
    | with_reducible assumption
    | with_reducible apply Frame.ite
    | with_reducible apply Frame.then_ ?_ (State.incAt_frame ..)
    | decide
    | with_reducible apply Frame.foldl_fst
    | with_reducible apply Frame.foldl
    | intro y a b c hy
    | intro y a hy
    | intro y hy
    | dsimp only
    | split)

theorem State.inputSamples_frame (s : State) (volts : Option Nat) (amps : Option Nat) :
    Frame [.csr] s (State.inputSamples s volts amps) := by
  unfold State.inputSamples
  try dsimp only
  repeat' (first
    | with_reducible apply Frame.refl
    | with_reducible assumption
    | with_reducible apply Frame.ite
    | with_reducible apply Frame.then_ ?_ (State.sampleCurrent_frame ..)
    | with_reducible apply Frame.then_ ?_ (State.sampleInput_frame ..)
    | decide
    | dsimp only
    | split)

theorem execBeatBoundary_frame (reports : List BeatReport) (benches : List BenchBeat) (ecc : MemEcc) (prefetch :
      List Nat) (volts : Option Nat) (amps : Option Nat) (s : State) :
Frames [.csr, .mem, .pwr, .clk, .haul, .sch, .pln, .olc, .gen, .wgt, .bench, .frk, .scr, .itk, .twn, .flt, .rrc,
      .obs, .sent, .fresh] s (execBeatBoundary reports benches ecc prefetch volts amps s) := by
  unfold execBeatBoundary
  split
  · extract_lets v0 v1 v2 v3 v4 v5 v6 v7 v8
    have h_v0 : Frame [.csr, .mem, .pwr, .clk, .haul, .sch, .pln, .olc, .gen, .wgt, .bench, .frk, .scr, .itk, .twn, .flt, .rrc, .obs, .sent, .fresh] s v0 := by
      simp only [v0]
      repeat' (first
        | with_reducible apply Frame.refl
        | with_reducible assumption
        | with_reducible apply Frames.next
        | with_reducible apply Frames.fault
        | with_reducible apply Frames.refused
        | with_reducible apply Frame.ite
        | with_reducible apply Frames.ite
        | with_reducible apply Frame.then_ ?_ (State.beatBench_frame ..)
        | with_reducible apply Frame.then_ ?_ (State.beatFill_frame ..)
        | with_reducible apply Frame.then_ ?_ (State.beatMargin_frame ..)
        | with_reducible apply Frame.then_ ?_ (State.beatPending_frame ..)
        | with_reducible apply Frame.then_ ?_ (State.beatSlip_frame ..)
        | with_reducible apply Frame.then_ ?_ (State.endSwitchBeat_frame ..)
        | with_reducible apply Frame.then_ ?_ (State.foremanBeats_frame ..)
        | with_reducible apply Frame.then_ ?_ (State.forksBeat_frame ..)
        | with_reducible apply Frame.then_ ?_ (State.gatherSpans_frame ..)
        | with_reducible apply Frame.then_ ?_ (State.inputSamples_frame ..)
        | with_reducible apply Frame.then_ ?_ (State.moveWindows_frame ..)
        | with_reducible apply Frame.then_ ?_ (State.noteShares_frame ..)
        | with_reducible apply Frame.then_ ?_ (State.prefetch_frame ..)
        | with_reducible apply Frame.then_ ?_ (State.prefetchBeat_frame ..)
        | with_reducible apply Frame.then_ ?_ (State.resumeBeats_frame ..)
        | with_reducible apply Frame.then_ ?_ (State.scriptBeat_frame ..)
        | with_reducible apply Frame.then_ ?_ (State.serveJobs_frame ..)
        | with_reducible apply Frame.then_ ?_ (State.showLevel_frame ..)
        | with_reducible apply Frame.then_ ?_ (State.showPending_frame ..)
        | with_reducible apply Frame.then_ ?_ (State.startWindows_frame ..)
        | with_reducible apply Frame.then_ ?_ (State.stopEffect_frame ..)
        | with_reducible apply Frame.then_ ?_ (State.tagRoom_frame ..)
        | with_reducible apply Frame.then_ ?_ (State.upkeepBeat_frame ..)
        | decide
        | with_reducible apply Frame.foldl_fst
        | with_reducible apply Frame.foldl
        | intro y a b c hy
        | intro y a hy
        | intro y hy
        | dsimp only
        | split
        | (fail_if_no_progress simp only [Frame.mk_eq]; refine Frame.upd ?_))
    clear_value v0
    have h_v1 : Frame [.csr, .mem, .pwr, .clk, .haul, .sch, .pln, .olc, .gen, .wgt, .bench, .frk, .scr, .itk, .twn, .flt, .rrc, .obs, .sent, .fresh] s v1 := by
      simp only [v1]
      repeat' (first
        | with_reducible apply Frame.refl
        | with_reducible assumption
        | with_reducible apply Frames.next
        | with_reducible apply Frames.fault
        | with_reducible apply Frames.refused
        | with_reducible apply Frame.ite
        | with_reducible apply Frames.ite
        | with_reducible apply Frame.then_ ?_ (State.beatBench_frame ..)
        | with_reducible apply Frame.then_ ?_ (State.beatFill_frame ..)
        | with_reducible apply Frame.then_ ?_ (State.beatMargin_frame ..)
        | with_reducible apply Frame.then_ ?_ (State.beatPending_frame ..)
        | with_reducible apply Frame.then_ ?_ (State.beatSlip_frame ..)
        | with_reducible apply Frame.then_ ?_ (State.endSwitchBeat_frame ..)
        | with_reducible apply Frame.then_ ?_ (State.foremanBeats_frame ..)
        | with_reducible apply Frame.then_ ?_ (State.forksBeat_frame ..)
        | with_reducible apply Frame.then_ ?_ (State.gatherSpans_frame ..)
        | with_reducible apply Frame.then_ ?_ (State.inputSamples_frame ..)
        | with_reducible apply Frame.then_ ?_ (State.moveWindows_frame ..)
        | with_reducible apply Frame.then_ ?_ (State.noteShares_frame ..)
        | with_reducible apply Frame.then_ ?_ (State.prefetch_frame ..)
        | with_reducible apply Frame.then_ ?_ (State.prefetchBeat_frame ..)
        | with_reducible apply Frame.then_ ?_ (State.resumeBeats_frame ..)
        | with_reducible apply Frame.then_ ?_ (State.scriptBeat_frame ..)
        | with_reducible apply Frame.then_ ?_ (State.serveJobs_frame ..)
        | with_reducible apply Frame.then_ ?_ (State.showLevel_frame ..)
        | with_reducible apply Frame.then_ ?_ (State.showPending_frame ..)
        | with_reducible apply Frame.then_ ?_ (State.startWindows_frame ..)
        | with_reducible apply Frame.then_ ?_ (State.stopEffect_frame ..)
        | with_reducible apply Frame.then_ ?_ (State.tagRoom_frame ..)
        | with_reducible apply Frame.then_ ?_ (State.upkeepBeat_frame ..)
        | decide
        | with_reducible apply Frame.foldl_fst
        | with_reducible apply Frame.foldl
        | intro y a b c hy
        | intro y a hy
        | intro y hy
        | dsimp only
        | split
        | (fail_if_no_progress simp only [Frame.mk_eq]; refine Frame.upd ?_))
    clear_value v1
    clear_value v2
    have h_v3 : Frame [.csr, .mem, .pwr, .clk, .haul, .sch, .pln, .olc, .gen, .wgt, .bench, .frk, .scr, .itk, .twn, .flt, .rrc, .obs, .sent, .fresh] s v3 := by
      simp only [v3]
      repeat' (first
        | with_reducible apply Frame.refl
        | with_reducible assumption
        | with_reducible apply Frames.next
        | with_reducible apply Frames.fault
        | with_reducible apply Frames.refused
        | with_reducible apply Frame.ite
        | with_reducible apply Frames.ite
        | with_reducible apply Frame.then_ ?_ (State.beatBench_frame ..)
        | with_reducible apply Frame.then_ ?_ (State.beatFill_frame ..)
        | with_reducible apply Frame.then_ ?_ (State.beatMargin_frame ..)
        | with_reducible apply Frame.then_ ?_ (State.beatPending_frame ..)
        | with_reducible apply Frame.then_ ?_ (State.beatSlip_frame ..)
        | with_reducible apply Frame.then_ ?_ (State.endSwitchBeat_frame ..)
        | with_reducible apply Frame.then_ ?_ (State.foremanBeats_frame ..)
        | with_reducible apply Frame.then_ ?_ (State.forksBeat_frame ..)
        | with_reducible apply Frame.then_ ?_ (State.gatherSpans_frame ..)
        | with_reducible apply Frame.then_ ?_ (State.inputSamples_frame ..)
        | with_reducible apply Frame.then_ ?_ (State.moveWindows_frame ..)
        | with_reducible apply Frame.then_ ?_ (State.noteShares_frame ..)
        | with_reducible apply Frame.then_ ?_ (State.prefetch_frame ..)
        | with_reducible apply Frame.then_ ?_ (State.prefetchBeat_frame ..)
        | with_reducible apply Frame.then_ ?_ (State.resumeBeats_frame ..)
        | with_reducible apply Frame.then_ ?_ (State.scriptBeat_frame ..)
        | with_reducible apply Frame.then_ ?_ (State.serveJobs_frame ..)
        | with_reducible apply Frame.then_ ?_ (State.showLevel_frame ..)
        | with_reducible apply Frame.then_ ?_ (State.showPending_frame ..)
        | with_reducible apply Frame.then_ ?_ (State.startWindows_frame ..)
        | with_reducible apply Frame.then_ ?_ (State.stopEffect_frame ..)
        | with_reducible apply Frame.then_ ?_ (State.tagRoom_frame ..)
        | with_reducible apply Frame.then_ ?_ (State.upkeepBeat_frame ..)
        | decide
        | with_reducible apply Frame.foldl_fst
        | with_reducible apply Frame.foldl
        | intro y a b c hy
        | intro y a hy
        | intro y hy
        | dsimp only
        | split
        | (fail_if_no_progress simp only [Frame.mk_eq]; refine Frame.upd ?_))
    clear_value v3
    have h_v4 : Frame [.csr, .mem, .pwr, .clk, .haul, .sch, .pln, .olc, .gen, .wgt, .bench, .frk, .scr, .itk, .twn, .flt, .rrc, .obs, .sent, .fresh] s v4 := by
      simp only [v4]
      repeat' (first
        | with_reducible apply Frame.refl
        | with_reducible assumption
        | with_reducible apply Frames.next
        | with_reducible apply Frames.fault
        | with_reducible apply Frames.refused
        | with_reducible apply Frame.ite
        | with_reducible apply Frames.ite
        | with_reducible apply Frame.then_ ?_ (State.beatBench_frame ..)
        | with_reducible apply Frame.then_ ?_ (State.beatFill_frame ..)
        | with_reducible apply Frame.then_ ?_ (State.beatMargin_frame ..)
        | with_reducible apply Frame.then_ ?_ (State.beatPending_frame ..)
        | with_reducible apply Frame.then_ ?_ (State.beatSlip_frame ..)
        | with_reducible apply Frame.then_ ?_ (State.endSwitchBeat_frame ..)
        | with_reducible apply Frame.then_ ?_ (State.foremanBeats_frame ..)
        | with_reducible apply Frame.then_ ?_ (State.forksBeat_frame ..)
        | with_reducible apply Frame.then_ ?_ (State.gatherSpans_frame ..)
        | with_reducible apply Frame.then_ ?_ (State.inputSamples_frame ..)
        | with_reducible apply Frame.then_ ?_ (State.moveWindows_frame ..)
        | with_reducible apply Frame.then_ ?_ (State.noteShares_frame ..)
        | with_reducible apply Frame.then_ ?_ (State.prefetch_frame ..)
        | with_reducible apply Frame.then_ ?_ (State.prefetchBeat_frame ..)
        | with_reducible apply Frame.then_ ?_ (State.resumeBeats_frame ..)
        | with_reducible apply Frame.then_ ?_ (State.scriptBeat_frame ..)
        | with_reducible apply Frame.then_ ?_ (State.serveJobs_frame ..)
        | with_reducible apply Frame.then_ ?_ (State.showLevel_frame ..)
        | with_reducible apply Frame.then_ ?_ (State.showPending_frame ..)
        | with_reducible apply Frame.then_ ?_ (State.startWindows_frame ..)
        | with_reducible apply Frame.then_ ?_ (State.stopEffect_frame ..)
        | with_reducible apply Frame.then_ ?_ (State.tagRoom_frame ..)
        | with_reducible apply Frame.then_ ?_ (State.upkeepBeat_frame ..)
        | decide
        | with_reducible apply Frame.foldl_fst
        | with_reducible apply Frame.foldl
        | intro y a b c hy
        | intro y a hy
        | intro y hy
        | dsimp only
        | split
        | (fail_if_no_progress simp only [Frame.mk_eq]; refine Frame.upd ?_))
    clear_value v4
    have h_v5 : Frame [.csr, .mem, .pwr, .clk, .haul, .sch, .pln, .olc, .gen, .wgt, .bench, .frk, .scr, .itk, .twn, .flt, .rrc, .obs, .sent, .fresh] s v5 := by
      simp only [v5]
      repeat' (first
        | with_reducible apply Frame.refl
        | with_reducible assumption
        | with_reducible apply Frames.next
        | with_reducible apply Frames.fault
        | with_reducible apply Frames.refused
        | with_reducible apply Frame.ite
        | with_reducible apply Frames.ite
        | with_reducible apply Frame.then_ ?_ (State.beatBench_frame ..)
        | with_reducible apply Frame.then_ ?_ (State.beatFill_frame ..)
        | with_reducible apply Frame.then_ ?_ (State.beatMargin_frame ..)
        | with_reducible apply Frame.then_ ?_ (State.beatPending_frame ..)
        | with_reducible apply Frame.then_ ?_ (State.beatSlip_frame ..)
        | with_reducible apply Frame.then_ ?_ (State.endSwitchBeat_frame ..)
        | with_reducible apply Frame.then_ ?_ (State.foremanBeats_frame ..)
        | with_reducible apply Frame.then_ ?_ (State.forksBeat_frame ..)
        | with_reducible apply Frame.then_ ?_ (State.gatherSpans_frame ..)
        | with_reducible apply Frame.then_ ?_ (State.inputSamples_frame ..)
        | with_reducible apply Frame.then_ ?_ (State.moveWindows_frame ..)
        | with_reducible apply Frame.then_ ?_ (State.noteShares_frame ..)
        | with_reducible apply Frame.then_ ?_ (State.prefetch_frame ..)
        | with_reducible apply Frame.then_ ?_ (State.prefetchBeat_frame ..)
        | with_reducible apply Frame.then_ ?_ (State.resumeBeats_frame ..)
        | with_reducible apply Frame.then_ ?_ (State.scriptBeat_frame ..)
        | with_reducible apply Frame.then_ ?_ (State.serveJobs_frame ..)
        | with_reducible apply Frame.then_ ?_ (State.showLevel_frame ..)
        | with_reducible apply Frame.then_ ?_ (State.showPending_frame ..)
        | with_reducible apply Frame.then_ ?_ (State.startWindows_frame ..)
        | with_reducible apply Frame.then_ ?_ (State.stopEffect_frame ..)
        | with_reducible apply Frame.then_ ?_ (State.tagRoom_frame ..)
        | with_reducible apply Frame.then_ ?_ (State.upkeepBeat_frame ..)
        | decide
        | with_reducible apply Frame.foldl_fst
        | with_reducible apply Frame.foldl
        | intro y a b c hy
        | intro y a hy
        | intro y hy
        | dsimp only
        | split
        | (fail_if_no_progress simp only [Frame.mk_eq]; refine Frame.upd ?_))
    clear_value v5
    have h_v6 : Frame [.csr, .mem, .pwr, .clk, .haul, .sch, .pln, .olc, .gen, .wgt, .bench, .frk, .scr, .itk, .twn, .flt, .rrc, .obs, .sent, .fresh] s v6 := by
      simp only [v6]
      repeat' (first
        | with_reducible apply Frame.refl
        | with_reducible assumption
        | with_reducible apply Frames.next
        | with_reducible apply Frames.fault
        | with_reducible apply Frames.refused
        | with_reducible apply Frame.ite
        | with_reducible apply Frames.ite
        | with_reducible apply Frame.then_ ?_ (State.beatBench_frame ..)
        | with_reducible apply Frame.then_ ?_ (State.beatFill_frame ..)
        | with_reducible apply Frame.then_ ?_ (State.beatMargin_frame ..)
        | with_reducible apply Frame.then_ ?_ (State.beatPending_frame ..)
        | with_reducible apply Frame.then_ ?_ (State.beatSlip_frame ..)
        | with_reducible apply Frame.then_ ?_ (State.endSwitchBeat_frame ..)
        | with_reducible apply Frame.then_ ?_ (State.foremanBeats_frame ..)
        | with_reducible apply Frame.then_ ?_ (State.forksBeat_frame ..)
        | with_reducible apply Frame.then_ ?_ (State.gatherSpans_frame ..)
        | with_reducible apply Frame.then_ ?_ (State.inputSamples_frame ..)
        | with_reducible apply Frame.then_ ?_ (State.moveWindows_frame ..)
        | with_reducible apply Frame.then_ ?_ (State.noteShares_frame ..)
        | with_reducible apply Frame.then_ ?_ (State.prefetch_frame ..)
        | with_reducible apply Frame.then_ ?_ (State.prefetchBeat_frame ..)
        | with_reducible apply Frame.then_ ?_ (State.resumeBeats_frame ..)
        | with_reducible apply Frame.then_ ?_ (State.scriptBeat_frame ..)
        | with_reducible apply Frame.then_ ?_ (State.serveJobs_frame ..)
        | with_reducible apply Frame.then_ ?_ (State.showLevel_frame ..)
        | with_reducible apply Frame.then_ ?_ (State.showPending_frame ..)
        | with_reducible apply Frame.then_ ?_ (State.startWindows_frame ..)
        | with_reducible apply Frame.then_ ?_ (State.stopEffect_frame ..)
        | with_reducible apply Frame.then_ ?_ (State.tagRoom_frame ..)
        | with_reducible apply Frame.then_ ?_ (State.upkeepBeat_frame ..)
        | decide
        | with_reducible apply Frame.foldl_fst
        | with_reducible apply Frame.foldl
        | intro y a b c hy
        | intro y a hy
        | intro y hy
        | dsimp only
        | split
        | (fail_if_no_progress simp only [Frame.mk_eq]; refine Frame.upd ?_))
    clear_value v6
    have h_v7 : Frame [.csr, .mem, .pwr, .clk, .haul, .sch, .pln, .olc, .gen, .wgt, .bench, .frk, .scr, .itk, .twn, .flt, .rrc, .obs, .sent, .fresh] s v7 := by
      simp only [v7]
      repeat' (first
        | with_reducible apply Frame.refl
        | with_reducible assumption
        | with_reducible apply Frames.next
        | with_reducible apply Frames.fault
        | with_reducible apply Frames.refused
        | with_reducible apply Frame.ite
        | with_reducible apply Frames.ite
        | with_reducible apply Frame.then_ ?_ (State.beatBench_frame ..)
        | with_reducible apply Frame.then_ ?_ (State.beatFill_frame ..)
        | with_reducible apply Frame.then_ ?_ (State.beatMargin_frame ..)
        | with_reducible apply Frame.then_ ?_ (State.beatPending_frame ..)
        | with_reducible apply Frame.then_ ?_ (State.beatSlip_frame ..)
        | with_reducible apply Frame.then_ ?_ (State.endSwitchBeat_frame ..)
        | with_reducible apply Frame.then_ ?_ (State.foremanBeats_frame ..)
        | with_reducible apply Frame.then_ ?_ (State.forksBeat_frame ..)
        | with_reducible apply Frame.then_ ?_ (State.gatherSpans_frame ..)
        | with_reducible apply Frame.then_ ?_ (State.inputSamples_frame ..)
        | with_reducible apply Frame.then_ ?_ (State.moveWindows_frame ..)
        | with_reducible apply Frame.then_ ?_ (State.noteShares_frame ..)
        | with_reducible apply Frame.then_ ?_ (State.prefetch_frame ..)
        | with_reducible apply Frame.then_ ?_ (State.prefetchBeat_frame ..)
        | with_reducible apply Frame.then_ ?_ (State.resumeBeats_frame ..)
        | with_reducible apply Frame.then_ ?_ (State.scriptBeat_frame ..)
        | with_reducible apply Frame.then_ ?_ (State.serveJobs_frame ..)
        | with_reducible apply Frame.then_ ?_ (State.showLevel_frame ..)
        | with_reducible apply Frame.then_ ?_ (State.showPending_frame ..)
        | with_reducible apply Frame.then_ ?_ (State.startWindows_frame ..)
        | with_reducible apply Frame.then_ ?_ (State.stopEffect_frame ..)
        | with_reducible apply Frame.then_ ?_ (State.tagRoom_frame ..)
        | with_reducible apply Frame.then_ ?_ (State.upkeepBeat_frame ..)
        | decide
        | with_reducible apply Frame.foldl_fst
        | with_reducible apply Frame.foldl
        | intro y a b c hy
        | intro y a hy
        | intro y hy
        | dsimp only
        | split
        | (fail_if_no_progress simp only [Frame.mk_eq]; refine Frame.upd ?_))
    clear_value v7
    have h_v8 : Frame [.csr, .mem, .pwr, .clk, .haul, .sch, .pln, .olc, .gen, .wgt, .bench, .frk, .scr, .itk, .twn, .flt, .rrc, .obs, .sent, .fresh] s v8 := by
      simp only [v8]
      repeat' (first
        | with_reducible apply Frame.refl
        | with_reducible assumption
        | with_reducible apply Frames.next
        | with_reducible apply Frames.fault
        | with_reducible apply Frames.refused
        | with_reducible apply Frame.ite
        | with_reducible apply Frames.ite
        | with_reducible apply Frame.then_ ?_ (State.beatBench_frame ..)
        | with_reducible apply Frame.then_ ?_ (State.beatFill_frame ..)
        | with_reducible apply Frame.then_ ?_ (State.beatMargin_frame ..)
        | with_reducible apply Frame.then_ ?_ (State.beatPending_frame ..)
        | with_reducible apply Frame.then_ ?_ (State.beatSlip_frame ..)
        | with_reducible apply Frame.then_ ?_ (State.endSwitchBeat_frame ..)
        | with_reducible apply Frame.then_ ?_ (State.foremanBeats_frame ..)
        | with_reducible apply Frame.then_ ?_ (State.forksBeat_frame ..)
        | with_reducible apply Frame.then_ ?_ (State.gatherSpans_frame ..)
        | with_reducible apply Frame.then_ ?_ (State.inputSamples_frame ..)
        | with_reducible apply Frame.then_ ?_ (State.moveWindows_frame ..)
        | with_reducible apply Frame.then_ ?_ (State.noteShares_frame ..)
        | with_reducible apply Frame.then_ ?_ (State.prefetch_frame ..)
        | with_reducible apply Frame.then_ ?_ (State.prefetchBeat_frame ..)
        | with_reducible apply Frame.then_ ?_ (State.resumeBeats_frame ..)
        | with_reducible apply Frame.then_ ?_ (State.scriptBeat_frame ..)
        | with_reducible apply Frame.then_ ?_ (State.serveJobs_frame ..)
        | with_reducible apply Frame.then_ ?_ (State.showLevel_frame ..)
        | with_reducible apply Frame.then_ ?_ (State.showPending_frame ..)
        | with_reducible apply Frame.then_ ?_ (State.startWindows_frame ..)
        | with_reducible apply Frame.then_ ?_ (State.stopEffect_frame ..)
        | with_reducible apply Frame.then_ ?_ (State.tagRoom_frame ..)
        | with_reducible apply Frame.then_ ?_ (State.upkeepBeat_frame ..)
        | decide
        | with_reducible apply Frame.foldl_fst
        | with_reducible apply Frame.foldl
        | intro y a b c hy
        | intro y a hy
        | intro y hy
        | dsimp only
        | split
        | (fail_if_no_progress simp only [Frame.mk_eq]; refine Frame.upd ?_))
    clear_value v8
    repeat' (first
      | with_reducible apply Frame.refl
      | with_reducible assumption
      | with_reducible apply Frames.next
      | with_reducible apply Frames.fault
      | with_reducible apply Frames.refused
      | with_reducible apply Frame.ite
      | with_reducible apply Frames.ite
      | with_reducible apply Frame.then_ ?_ (State.beatBench_frame ..)
      | with_reducible apply Frame.then_ ?_ (State.beatFill_frame ..)
      | with_reducible apply Frame.then_ ?_ (State.beatMargin_frame ..)
      | with_reducible apply Frame.then_ ?_ (State.beatPending_frame ..)
      | with_reducible apply Frame.then_ ?_ (State.beatSlip_frame ..)
      | with_reducible apply Frame.then_ ?_ (State.endSwitchBeat_frame ..)
      | with_reducible apply Frame.then_ ?_ (State.foremanBeats_frame ..)
      | with_reducible apply Frame.then_ ?_ (State.forksBeat_frame ..)
      | with_reducible apply Frame.then_ ?_ (State.gatherSpans_frame ..)
      | with_reducible apply Frame.then_ ?_ (State.inputSamples_frame ..)
      | with_reducible apply Frame.then_ ?_ (State.moveWindows_frame ..)
      | with_reducible apply Frame.then_ ?_ (State.noteShares_frame ..)
      | with_reducible apply Frame.then_ ?_ (State.prefetch_frame ..)
      | with_reducible apply Frame.then_ ?_ (State.prefetchBeat_frame ..)
      | with_reducible apply Frame.then_ ?_ (State.resumeBeats_frame ..)
      | with_reducible apply Frame.then_ ?_ (State.scriptBeat_frame ..)
      | with_reducible apply Frame.then_ ?_ (State.serveJobs_frame ..)
      | with_reducible apply Frame.then_ ?_ (State.showLevel_frame ..)
      | with_reducible apply Frame.then_ ?_ (State.showPending_frame ..)
      | with_reducible apply Frame.then_ ?_ (State.startWindows_frame ..)
      | with_reducible apply Frame.then_ ?_ (State.stopEffect_frame ..)
      | with_reducible apply Frame.then_ ?_ (State.tagRoom_frame ..)
      | with_reducible apply Frame.then_ ?_ (State.upkeepBeat_frame ..)
      | decide
      | with_reducible apply Frame.foldl_fst
      | with_reducible apply Frame.foldl
      | intro y a b c hy
      | intro y a hy
      | intro y hy
      | dsimp only
      | split
      | (fail_if_no_progress simp only [Frame.mk_eq]; refine Frame.upd ?_))
  · repeat' (first
      | with_reducible apply Frame.refl
      | with_reducible assumption
      | with_reducible apply Frames.next
      | with_reducible apply Frames.fault
      | with_reducible apply Frames.refused
      | with_reducible apply Frame.ite
      | with_reducible apply Frames.ite
      | with_reducible apply Frame.then_ ?_ (State.beatBench_frame ..)
      | with_reducible apply Frame.then_ ?_ (State.beatFill_frame ..)
      | with_reducible apply Frame.then_ ?_ (State.beatMargin_frame ..)
      | with_reducible apply Frame.then_ ?_ (State.beatPending_frame ..)
      | with_reducible apply Frame.then_ ?_ (State.beatSlip_frame ..)
      | with_reducible apply Frame.then_ ?_ (State.endSwitchBeat_frame ..)
      | with_reducible apply Frame.then_ ?_ (State.foremanBeats_frame ..)
      | with_reducible apply Frame.then_ ?_ (State.forksBeat_frame ..)
      | with_reducible apply Frame.then_ ?_ (State.gatherSpans_frame ..)
      | with_reducible apply Frame.then_ ?_ (State.inputSamples_frame ..)
      | with_reducible apply Frame.then_ ?_ (State.moveWindows_frame ..)
      | with_reducible apply Frame.then_ ?_ (State.noteShares_frame ..)
      | with_reducible apply Frame.then_ ?_ (State.prefetch_frame ..)
      | with_reducible apply Frame.then_ ?_ (State.prefetchBeat_frame ..)
      | with_reducible apply Frame.then_ ?_ (State.resumeBeats_frame ..)
      | with_reducible apply Frame.then_ ?_ (State.scriptBeat_frame ..)
      | with_reducible apply Frame.then_ ?_ (State.serveJobs_frame ..)
      | with_reducible apply Frame.then_ ?_ (State.showLevel_frame ..)
      | with_reducible apply Frame.then_ ?_ (State.showPending_frame ..)
      | with_reducible apply Frame.then_ ?_ (State.startWindows_frame ..)
      | with_reducible apply Frame.then_ ?_ (State.stopEffect_frame ..)
      | with_reducible apply Frame.then_ ?_ (State.tagRoom_frame ..)
      | with_reducible apply Frame.then_ ?_ (State.upkeepBeat_frame ..)
      | decide
      | with_reducible apply Frame.foldl_fst
      | with_reducible apply Frame.foldl
      | intro y a b c hy
      | intro y a hy
      | intro y hy
      | dsimp only
      | split
      | (fail_if_no_progress simp only [Frame.mk_eq]; refine Frame.upd ?_))

theorem State.applyStaged_frame (s : State) (f : Field) (i : Nat) (v : Nat) :
    Frame [.csr, .staged] s (State.applyStaged s f i v) := by
  unfold State.applyStaged
  try dsimp only
  repeat' (first
    | with_reducible apply Frame.refl
    | with_reducible assumption
    | with_reducible apply Frame.ite
    | with_reducible apply Frame.then_ ?_ (State.wrAt_frame ..)
    | decide
    | dsimp only
    | split
    | (fail_if_no_progress simp only [Frame.mk_eq]; refine Frame.upd ?_))

theorem State.takeStaged_frame (s : State) (p : Nat → Bool) :
    Frame [.csr, .staged] s (State.takeStaged s p) := by
  have key : ∀ (l : Tab Nat) (t : Tab Nat), csrWf t = true →
      csrWf (l.foldl (fun t (e : Nat × Nat) => Tab.put (stagedReset e.1) e.1 e.2 t) t) = true := by
    intro l
    induction l with
    | nil => exact fun _ h => h
    | cons e l ih => exact fun t h => ih _ (Tab.sorted_put _ _ _ h)
  unfold State.takeStaged
  dsimp only
  (with_reducible apply Frame.then_ ?_ (State.refreshTaper_frame ..) ?_)
  · simp only [Frame.mk_eq]
    exact Frame.upd (.refl _ s) (hc := key _ _)
  · decide

theorem State.freshStep_frame (s : State) (c : Nat) :
    Frame [.clk, .sch, .frk] s (State.freshStep s c) := by
  unfold State.freshStep
  try dsimp only
  repeat' (first
    | with_reducible apply Frame.refl
    | with_reducible assumption
    | with_reducible apply Frame.ite
    | decide
    | dsimp only
    | split
    | (fail_if_no_progress simp only [Frame.mk_eq]; refine Frame.upd ?_))

theorem State.keepCounts_frame (s : State) (c : Nat) :
    Frame [.frk] s (State.keepCounts s c) := by
  unfold State.keepCounts
  try dsimp only
  repeat' (first
    | with_reducible apply Frame.refl
    | with_reducible assumption
    | with_reducible apply Frame.ite
    | decide
    | with_reducible apply Frame.foldl_fst
    | with_reducible apply Frame.foldl
    | intro y a b c hy
    | intro y a hy
    | intro y hy
    | dsimp only
    | split
    | (fail_if_no_progress simp only [Frame.mk_eq]; refine Frame.upd ?_))

theorem State.windowsOver_frame (s : State) (c : Nat) :
    Frame [.scr] s (State.windowsOver s c) := by
  unfold State.windowsOver
  try dsimp only
  repeat' (first
    | with_reducible apply Frame.refl
    | with_reducible assumption
    | with_reducible apply Frame.ite
    | decide
    | dsimp only
    | split
    | (fail_if_no_progress simp only [Frame.mk_eq]; refine Frame.upd ?_))

theorem State.windowsAbandoned_frame (s : State) (c : Nat) :
    Frame [.mem, .scr] s (State.windowsAbandoned s c) := by
  unfold State.windowsAbandoned
  try dsimp only
  repeat' (first
    | with_reducible apply Frame.refl
    | with_reducible assumption
    | with_reducible apply Frame.ite
    | with_reducible apply Frame.then_ ?_ (State.landCtx_frame ..)
    | decide
    | with_reducible apply Frame.foldl_fst
    | with_reducible apply Frame.foldl
    | intro y a b c hy
    | intro y a hy
    | intro y hy
    | dsimp only
    | split
    | (fail_if_no_progress simp only [Frame.mk_eq]; refine Frame.upd ?_))

theorem State.stepBatch_frame (s : State) (c : Nat) (r : CtxRun) :
    Frame [.csr, .haul, .sch, .gen, .wgt, .fst, .sent] s (State.stepBatch s c r) := by
  unfold State.stepBatch
  try dsimp only
  repeat' (first
    | with_reducible apply Frame.refl
    | with_reducible assumption
    | with_reducible apply Frame.ite
    | with_reducible apply Frame.then_ ?_ (State.batchDone_frame ..)
    | with_reducible apply Frame.then_ ?_ (State.epochBoundary_frame ..)
    | decide
    | dsimp only
    | split
    | (fail_if_no_progress simp only [Frame.mk_eq]; refine Frame.upd ?_))

theorem State.stepDrain_frame (s : State) (c : Nat) :
    Frame [.csr, .pln, .bench, .itk] s (State.stepDrain s c) := by
  unfold State.stepDrain
  try dsimp only
  repeat' (first
    | with_reducible apply Frame.refl
    | with_reducible assumption
    | with_reducible apply Frame.ite
    | with_reducible apply Frame.then_ ?_ (State.closeIntakeAt_frame ..)
    | with_reducible apply Frame.then_ ?_ (State.setCtx_frame ..)
    | with_reducible apply Frame.then_ ?_ (State.stopBenches_frame ..)
    | with_reducible apply Frame.then_ ?_ (State.wrAt_frame ..)
    | decide
    | dsimp only
    | split)

theorem State.noteEnd_frame (s : State) (c : Nat) :
    Frame [.pwr] s (State.noteEnd s c) := by
  unfold State.noteEnd
  try dsimp only
  repeat' (first
    | with_reducible apply Frame.refl
    | with_reducible assumption
    | with_reducible apply Frame.ite
    | decide
    | dsimp only
    | split
    | (fail_if_no_progress simp only [Frame.mk_eq]; refine Frame.upd ?_))

theorem State.ctxBoundary_frame (s : State) (c : Nat) :
Frame [.csr, .staged, .pwr, .clk, .haul, .sch, .pln, .gen, .wgt, .bench, .frk, .scr, .itk, .fst, .sent] s
      (State.ctxBoundary s c) := by
  unfold State.ctxBoundary
  try dsimp only
  repeat' (first
    | with_reducible apply Frame.refl
    | with_reducible assumption
    | with_reducible apply Frame.ite
    | with_reducible apply Frame.then_ ?_ (State.fetchEntries_frame ..)
    | with_reducible apply Frame.then_ ?_ (State.freshStep_frame ..)
    | with_reducible apply Frame.then_ ?_ (State.keepCounts_frame ..)
    | with_reducible apply Frame.then_ ?_ (State.noteEnd_frame ..)
    | with_reducible apply Frame.then_ ?_ (State.setCtx_frame ..)
    | with_reducible apply Frame.then_ ?_ (State.stepBatch_frame ..)
    | with_reducible apply Frame.then_ ?_ (State.stepDrain_frame ..)
    | with_reducible apply Frame.then_ ?_ (State.stopBenches_frame ..)
    | with_reducible apply Frame.then_ ?_ (State.takeStaged_frame ..)
    | with_reducible apply Frame.then_ ?_ (State.windowsOver_frame ..)
    | with_reducible apply Frame.then_ ?_ (State.wrAt_frame ..)
    | decide
    | dsimp only
    | split)

theorem State.baseBoundary_frame (s : State) (j : Job) :
Frame [.csr, .staged, .mem, .pwr, .clk, .haul, .sch, .gen, .bench, .flt, .rrc, .obs, .sent, .fresh] s
      (State.baseBoundary s j) := by
  unfold State.baseBoundary
  extract_lets v0 v1 v2 v3 v4 v5
  have h_v0 : Frame [.csr, .staged, .mem, .pwr, .clk, .haul, .sch, .gen, .bench, .flt, .rrc, .obs, .sent, .fresh] s v0 := by
    simp only [v0]
    repeat' (first
      | with_reducible apply Frame.refl
      | with_reducible assumption
      | with_reducible apply Frame.ite
      | with_reducible apply Frame.then_ ?_ (State.holdRequest_frame ..)
      | with_reducible apply Frame.then_ ?_ (State.setJob_frame ..)
      | with_reducible apply Frame.then_ ?_ (State.showJob_frame ..)
      | with_reducible apply Frame.then_ ?_ (State.substituteAll_frame ..)
      | with_reducible apply Frame.then_ ?_ (State.takeStaged_frame ..)
      | with_reducible apply Frame.then_ ?_ (State.wr_frame ..)
      | decide
      | dsimp only
      | split
      | (fail_if_no_progress simp only [Frame.mk_eq]; refine Frame.upd ?_))
  clear_value v0
  have h_v1 : Frame [.csr, .staged, .mem, .pwr, .clk, .haul, .sch, .gen, .bench, .flt, .rrc, .obs, .sent, .fresh] s v1 := by
    simp only [v1]
    repeat' (first
      | with_reducible apply Frame.refl
      | with_reducible assumption
      | with_reducible apply Frame.ite
      | with_reducible apply Frame.then_ ?_ (State.holdRequest_frame ..)
      | with_reducible apply Frame.then_ ?_ (State.setJob_frame ..)
      | with_reducible apply Frame.then_ ?_ (State.showJob_frame ..)
      | with_reducible apply Frame.then_ ?_ (State.substituteAll_frame ..)
      | with_reducible apply Frame.then_ ?_ (State.takeStaged_frame ..)
      | with_reducible apply Frame.then_ ?_ (State.wr_frame ..)
      | decide
      | dsimp only
      | split
      | (fail_if_no_progress simp only [Frame.mk_eq]; refine Frame.upd ?_))
  clear_value v1
  clear_value v2
  have h_v3 : Frame [.csr, .staged, .mem, .pwr, .clk, .haul, .sch, .gen, .bench, .flt, .rrc, .obs, .sent, .fresh] s v3 := by
    simp only [v3]
    repeat' (first
      | with_reducible apply Frame.refl
      | with_reducible assumption
      | with_reducible apply Frame.ite
      | with_reducible apply Frame.then_ ?_ (State.holdRequest_frame ..)
      | with_reducible apply Frame.then_ ?_ (State.setJob_frame ..)
      | with_reducible apply Frame.then_ ?_ (State.showJob_frame ..)
      | with_reducible apply Frame.then_ ?_ (State.substituteAll_frame ..)
      | with_reducible apply Frame.then_ ?_ (State.takeStaged_frame ..)
      | with_reducible apply Frame.then_ ?_ (State.wr_frame ..)
      | decide
      | dsimp only
      | split
      | (fail_if_no_progress simp only [Frame.mk_eq]; refine Frame.upd ?_))
  clear_value v3
  have h_v4 : Frame [.csr, .staged, .mem, .pwr, .clk, .haul, .sch, .gen, .bench, .flt, .rrc, .obs, .sent, .fresh] s v4 := by
    simp only [v4]
    repeat' (first
      | with_reducible apply Frame.refl
      | with_reducible assumption
      | with_reducible apply Frame.ite
      | with_reducible apply Frame.then_ ?_ (State.holdRequest_frame ..)
      | with_reducible apply Frame.then_ ?_ (State.setJob_frame ..)
      | with_reducible apply Frame.then_ ?_ (State.showJob_frame ..)
      | with_reducible apply Frame.then_ ?_ (State.substituteAll_frame ..)
      | with_reducible apply Frame.then_ ?_ (State.takeStaged_frame ..)
      | with_reducible apply Frame.then_ ?_ (State.wr_frame ..)
      | decide
      | dsimp only
      | split
      | (fail_if_no_progress simp only [Frame.mk_eq]; refine Frame.upd ?_))
  clear_value v4
  have h_v5 : Frame [.csr, .staged, .mem, .pwr, .clk, .haul, .sch, .gen, .bench, .flt, .rrc, .obs, .sent, .fresh] s v5 := by
    simp only [v5]
    repeat' (first
      | with_reducible apply Frame.refl
      | with_reducible assumption
      | with_reducible apply Frame.ite
      | with_reducible apply Frame.then_ ?_ (State.holdRequest_frame ..)
      | with_reducible apply Frame.then_ ?_ (State.setJob_frame ..)
      | with_reducible apply Frame.then_ ?_ (State.showJob_frame ..)
      | with_reducible apply Frame.then_ ?_ (State.substituteAll_frame ..)
      | with_reducible apply Frame.then_ ?_ (State.takeStaged_frame ..)
      | with_reducible apply Frame.then_ ?_ (State.wr_frame ..)
      | decide
      | dsimp only
      | split
      | (fail_if_no_progress simp only [Frame.mk_eq]; refine Frame.upd ?_))
  clear_value v5
  repeat' (first
    | with_reducible apply Frame.refl
    | with_reducible assumption
    | with_reducible apply Frame.ite
    | with_reducible apply Frame.then_ ?_ (State.holdRequest_frame ..)
    | with_reducible apply Frame.then_ ?_ (State.setJob_frame ..)
    | with_reducible apply Frame.then_ ?_ (State.showJob_frame ..)
    | with_reducible apply Frame.then_ ?_ (State.substituteAll_frame ..)
    | with_reducible apply Frame.then_ ?_ (State.takeStaged_frame ..)
    | with_reducible apply Frame.then_ ?_ (State.wr_frame ..)
    | decide
    | dsimp only
    | split
    | (fail_if_no_progress simp only [Frame.mk_eq]; refine Frame.upd ?_))

theorem execStepBoundary_frame (s : State) :
Frames [.csr, .staged, .mem, .pwr, .clk, .haul, .sch, .pln, .olc, .gen, .wgt, .bench, .frk, .scr, .itk, .fst, .flt,
      .rrc, .obs, .sent, .fresh] s (execStepBoundary s) := by
  unfold execStepBoundary
  extract_lets v0 v1 v2 v3 v4 v5
  have h_v0 : Frame [.csr, .staged, .mem, .pwr, .clk, .haul, .sch, .pln, .olc, .gen, .wgt, .bench, .frk, .scr, .itk, .fst, .flt, .rrc, .obs, .sent, .fresh] s v0 := by
    simp only [v0]
    repeat' (first
      | with_reducible apply Frame.refl
      | with_reducible assumption
      | with_reducible apply Frames.next
      | with_reducible apply Frames.fault
      | with_reducible apply Frames.refused
      | with_reducible apply Frame.ite
      | with_reducible apply Frames.ite
      | with_reducible apply Frame.then_ ?_ (State.baseBoundary_frame ..)
      | with_reducible apply Frame.then_ ?_ (State.ctxBoundary_frame ..)
      | with_reducible apply Frame.then_ ?_ (State.setJob_frame ..)
      | with_reducible apply Frame.then_ ?_ (State.showStopEnd_frame ..)
      | with_reducible apply Frame.then_ ?_ (State.stopEffect_frame ..)
      | decide
      | with_reducible apply Frame.foldl_fst
      | with_reducible apply Frame.foldl
      | intro y a b c hy
      | intro y a hy
      | intro y hy
      | dsimp only
      | split)
  clear_value v0
  clear_value v1
  clear_value v2
  have h_v3 : Frame [.csr, .staged, .mem, .pwr, .clk, .haul, .sch, .pln, .olc, .gen, .wgt, .bench, .frk, .scr, .itk, .fst, .flt, .rrc, .obs, .sent, .fresh] s v3 := by
    simp only [v3]
    repeat' (first
      | with_reducible apply Frame.refl
      | with_reducible assumption
      | with_reducible apply Frames.next
      | with_reducible apply Frames.fault
      | with_reducible apply Frames.refused
      | with_reducible apply Frame.ite
      | with_reducible apply Frames.ite
      | with_reducible apply Frame.then_ ?_ (State.baseBoundary_frame ..)
      | with_reducible apply Frame.then_ ?_ (State.ctxBoundary_frame ..)
      | with_reducible apply Frame.then_ ?_ (State.setJob_frame ..)
      | with_reducible apply Frame.then_ ?_ (State.showStopEnd_frame ..)
      | with_reducible apply Frame.then_ ?_ (State.stopEffect_frame ..)
      | decide
      | with_reducible apply Frame.foldl_fst
      | with_reducible apply Frame.foldl
      | intro y a b c hy
      | intro y a hy
      | intro y hy
      | dsimp only
      | split)
  clear_value v3
  have h_v4 : Frame [.csr, .staged, .mem, .pwr, .clk, .haul, .sch, .pln, .olc, .gen, .wgt, .bench, .frk, .scr, .itk, .fst, .flt, .rrc, .obs, .sent, .fresh] s v4 := by
    simp only [v4]
    repeat' (first
      | with_reducible apply Frame.refl
      | with_reducible assumption
      | with_reducible apply Frames.next
      | with_reducible apply Frames.fault
      | with_reducible apply Frames.refused
      | with_reducible apply Frame.ite
      | with_reducible apply Frames.ite
      | with_reducible apply Frame.then_ ?_ (State.baseBoundary_frame ..)
      | with_reducible apply Frame.then_ ?_ (State.ctxBoundary_frame ..)
      | with_reducible apply Frame.then_ ?_ (State.setJob_frame ..)
      | with_reducible apply Frame.then_ ?_ (State.showStopEnd_frame ..)
      | with_reducible apply Frame.then_ ?_ (State.stopEffect_frame ..)
      | decide
      | with_reducible apply Frame.foldl_fst
      | with_reducible apply Frame.foldl
      | intro y a b c hy
      | intro y a hy
      | intro y hy
      | dsimp only
      | split)
  clear_value v4
  have h_v5 : Frame [.csr, .staged, .mem, .pwr, .clk, .haul, .sch, .pln, .olc, .gen, .wgt, .bench, .frk, .scr, .itk, .fst, .flt, .rrc, .obs, .sent, .fresh] s v5 := by
    simp only [v5]
    repeat' (first
      | with_reducible apply Frame.refl
      | with_reducible assumption
      | with_reducible apply Frames.next
      | with_reducible apply Frames.fault
      | with_reducible apply Frames.refused
      | with_reducible apply Frame.ite
      | with_reducible apply Frames.ite
      | with_reducible apply Frame.then_ ?_ (State.baseBoundary_frame ..)
      | with_reducible apply Frame.then_ ?_ (State.ctxBoundary_frame ..)
      | with_reducible apply Frame.then_ ?_ (State.setJob_frame ..)
      | with_reducible apply Frame.then_ ?_ (State.showStopEnd_frame ..)
      | with_reducible apply Frame.then_ ?_ (State.stopEffect_frame ..)
      | decide
      | with_reducible apply Frame.foldl_fst
      | with_reducible apply Frame.foldl
      | intro y a b c hy
      | intro y a hy
      | intro y hy
      | dsimp only
      | split)
  clear_value v5
  repeat' (first
    | with_reducible apply Frame.refl
    | with_reducible assumption
    | with_reducible apply Frames.next
    | with_reducible apply Frames.fault
    | with_reducible apply Frames.refused
    | with_reducible apply Frame.ite
    | with_reducible apply Frames.ite
    | with_reducible apply Frame.then_ ?_ (State.baseBoundary_frame ..)
    | with_reducible apply Frame.then_ ?_ (State.ctxBoundary_frame ..)
    | with_reducible apply Frame.then_ ?_ (State.setJob_frame ..)
    | with_reducible apply Frame.then_ ?_ (State.showStopEnd_frame ..)
    | with_reducible apply Frame.then_ ?_ (State.stopEffect_frame ..)
    | decide
    | with_reducible apply Frame.foldl_fst
    | with_reducible apply Frame.foldl
    | intro y a b c hy
    | intro y a hy
    | intro y hy
    | dsimp only
    | split)

theorem execIntakeWindowClose_frame (ctx : Fin 16) (s : State) :
    Frames [.csr, .mem, .wgt, .itk, .obs, .fresh] s (execIntakeWindowClose ctx s) := by
  unfold execIntakeWindowClose
  try dsimp only
  repeat' (first
    | with_reducible apply Frame.refl
    | with_reducible assumption
    | with_reducible apply Frames.next
    | with_reducible apply Frames.fault
    | with_reducible apply Frames.refused
    | with_reducible apply Frame.ite
    | with_reducible apply Frames.ite
    | with_reducible apply Frame.then_ ?_ (State.closeWindow_frame ..)
    | with_reducible apply Frame.then_ ?_ (State.epochBoundary_frame ..)
    | with_reducible apply Frame.then_ ?_ (State.setRun_frame ..)
    | decide
    | dsimp only
    | split)

end Sys2Proof.Machine
end

