-- ==== Sys2Proof/Laws/FrameBringup.lean ====
section
/-! SUPPORT. One frame lemma for every operation of Machine/Bringup.lean: the parts of the state that it may change. -/

set_option Elab.async false
set_option linter.unusedTactic false
set_option linter.unreachableTactic false

namespace Sys2Proof.Machine

open Sys2Proof

theorem State.imageFailed_frame (s : State) (i : Nat) (c : ImageCheck) :
    Frame [.csr, .pwr, .rrc, .obs, .fresh] s (State.imageFailed s i c) := by
  unfold State.imageFailed
  try dsimp only
  repeat' (first
    | with_reducible apply Frame.refl
    | with_reducible assumption
    | with_reducible apply Frame.ite
    | with_reducible apply Frame.then_ ?_ (State.critical_frame ..)
    | with_reducible apply Frame.then_ ?_ (State.inc_frame ..)
    | decide
    | dsimp only
    | split)

theorem State.runs_frame (s : State) (i : Nat) (c : ImageCheck) (fallback : Bool) :
    Frame [.csr, .haul, .sch, .gen, .fst, .sent] s (State.runs s i c fallback) := by
  unfold State.runs
  extract_lets v0 v1 v2 v3
  clear_value v0
  have h_v1 : Frame [.csr, .haul, .sch, .gen, .fst, .sent] s v1 := by
    simp only [v1]
    repeat' (first
      | with_reducible apply Frame.refl
      | with_reducible assumption
      | with_reducible apply Frame.ite
      | with_reducible apply Frame.then_ ?_ (State.drainItems_frame ..)
      | with_reducible apply Frame.then_ ?_ (State.wr_frame ..)
      | decide
      | dsimp only
      | split
      | (fail_if_no_progress simp only [Frame.mk_eq]; refine Frame.upd ?_))
  clear_value v1
  have h_v2 : Frame [.csr, .haul, .sch, .gen, .fst, .sent] s v2 := by
    simp only [v2]
    repeat' (first
      | with_reducible apply Frame.refl
      | with_reducible assumption
      | with_reducible apply Frame.ite
      | with_reducible apply Frame.then_ ?_ (State.drainItems_frame ..)
      | with_reducible apply Frame.then_ ?_ (State.wr_frame ..)
      | decide
      | dsimp only
      | split
      | (fail_if_no_progress simp only [Frame.mk_eq]; refine Frame.upd ?_))
  clear_value v2
  have h_v3 : Frame [.csr, .haul, .sch, .gen, .fst, .sent] s v3 := by
    simp only [v3]
    repeat' (first
      | with_reducible apply Frame.refl
      | with_reducible assumption
      | with_reducible apply Frame.ite
      | with_reducible apply Frame.then_ ?_ (State.drainItems_frame ..)
      | with_reducible apply Frame.then_ ?_ (State.wr_frame ..)
      | decide
      | dsimp only
      | split
      | (fail_if_no_progress simp only [Frame.mk_eq]; refine Frame.upd ?_))
  clear_value v3
  repeat' (first
    | with_reducible apply Frame.refl
    | with_reducible assumption
    | with_reducible apply Frame.ite
    | with_reducible apply Frame.then_ ?_ (State.drainItems_frame ..)
    | with_reducible apply Frame.then_ ?_ (State.wr_frame ..)
    | decide
    | dsimp only
    | split
    | (fail_if_no_progress simp only [Frame.mk_eq]; refine Frame.upd ?_))

theorem State.recovery_frame (s : State) :
    Frame [.csr, .fst] s (State.recovery s) := by
  unfold State.recovery
  try dsimp only
  repeat' (first
    | with_reducible apply Frame.refl
    | with_reducible assumption
    | with_reducible apply Frame.ite
    | with_reducible apply Frame.then_ ?_ (State.wr_frame ..)
    | decide
    | dsimp only
    | split
    | (fail_if_no_progress simp only [Frame.mk_eq]; refine Frame.upd ?_))

theorem execSecureBoot_frame (a : ImageCheck) (b : ImageCheck) (s : State) :
    Frames [.csr, .pwr, .haul, .sch, .gen, .fst, .rrc, .obs, .nv, .sent, .fresh] s (execSecureBoot a b s) := by
  unfold execSecureBoot
  try dsimp only
  repeat' (first
    | with_reducible apply Frame.refl
    | with_reducible assumption
    | with_reducible apply Frames.next
    | with_reducible apply Frames.fault
    | with_reducible apply Frames.refused
    | with_reducible apply Frame.ite
    | with_reducible apply Frames.ite
    | (fail_if_no_progress simp only [Frame.mk_eq]; refine Frame.upd ?_ (hn := Nv.risesTo_map _ _ (by simp only [List.map_map]; exact List.map_congr_left fun x _ => by simp only [Function.comp, KeySlot.booted]; split <;> rfl)))
    | with_reducible apply Frame.then_ ?_ (State.runs_frame ..)
    | with_reducible apply Frame.then_ ?_ (State.imageFailed_frame ..)
    | with_reducible apply Frame.then_ ?_ (State.showSecurity_frame ..)
    | with_reducible apply Frame.then_ ?_ (State.recovery_frame ..)
    | decide)

theorem execCommitSvn_frame (s : State) :
    Frames [.csr, .nv, .sent] s (execCommitSvn s) := by
  unfold execCommitSvn
  try dsimp only
  repeat' (first
    | with_reducible apply Frame.refl
    | with_reducible assumption
    | with_reducible apply Frames.next
    | with_reducible apply Frames.fault
    | with_reducible apply Frames.refused
    | with_reducible apply Frame.ite
    | with_reducible apply Frames.ite
    | (fail_if_no_progress simp only [Frame.mk_eq]; refine Frame.upd ?_ (hn := ⟨id, le_max_left _ _, le_refl _, fun _ => min_le_left _ _⟩))
    | with_reducible apply Frame.then_ ?_ (State.showSecurity_frame ..)
    | with_reducible apply Frame.then_ ?_ (State.emit_frame ..)
    | with_reducible apply Frame.then_ ?_ (State.writeRefused_frame ..)
    | decide)

theorem execManagementPortLinkUp_frame (address : Bool) (s : State) :
    Frames [.fst] s (execManagementPortLinkUp address s) := by
  unfold execManagementPortLinkUp
  try dsimp only
  repeat' (first
    | with_reducible apply Frame.refl
    | with_reducible assumption
    | with_reducible apply Frames.next
    | with_reducible apply Frames.fault
    | with_reducible apply Frames.refused
    | with_reducible apply Frame.ite
    | with_reducible apply Frames.ite
    | decide
    | dsimp only
    | split
    | (fail_if_no_progress simp only [Frame.mk_eq]; refine Frame.upd ?_))

theorem State.foresterReset_frame (s : State) :
    Frame [.csr, .fst] s (State.foresterReset s) := by
  unfold State.foresterReset
  try dsimp only
  repeat' (first
    | with_reducible apply Frame.refl
    | with_reducible assumption
    | with_reducible apply Frame.ite
    | with_reducible apply Frame.then_ ?_ (State.olicoDown_frame ..)
    | decide
    | dsimp only
    | split
    | (fail_if_no_progress simp only [Frame.mk_eq]; refine Frame.upd ?_))

theorem execForesterReset_frame (s : State) :
    Frames [.csr, .fst] s (execForesterReset s) := by
  unfold execForesterReset
  try dsimp only
  repeat' (first
    | with_reducible apply Frame.refl
    | with_reducible assumption
    | with_reducible apply Frames.next
    | with_reducible apply Frames.fault
    | with_reducible apply Frames.refused
    | with_reducible apply Frame.ite
    | with_reducible apply Frames.ite
    | with_reducible apply Frame.then_ ?_ (State.foresterReset_frame ..)
    | decide
    | dsimp only
    | split)

theorem execDiePowerStart_frame (temp : Nat) (flow : Nat) (s : State) :
    Frames [.pwr] s (execDiePowerStart temp flow s) := by
  unfold execDiePowerStart
  try dsimp only
  repeat' (first
    | with_reducible apply Frame.refl
    | with_reducible assumption
    | with_reducible apply Frames.next
    | with_reducible apply Frames.fault
    | with_reducible apply Frames.refused
    | with_reducible apply Frame.ite
    | with_reducible apply Frames.ite
    | decide
    | dsimp only
    | split
    | (fail_if_no_progress simp only [Frame.mk_eq]; refine Frame.upd ?_))

theorem State.dieResetEnd_frame (s : State) :
    Frame [.csr, .pwr] s (State.dieResetEnd s) := by
  unfold State.dieResetEnd
  extract_lets v0 v1 v2 v3
  clear_value v0
  have h_v1 : Frame [.csr, .pwr] s v1 := by
    simp only [v1]
    repeat' (first
      | with_reducible apply Frame.refl
      | with_reducible assumption
      | with_reducible apply Frame.ite
      | with_reducible apply Frame.then_ ?_ (State.wrAt_frame ..)
      | decide
      | with_reducible apply Frame.foldl_fst
      | with_reducible apply Frame.foldl
      | intro y a b c hy
      | intro y a hy
      | intro y hy
      | dsimp only
      | split
      | (fail_if_no_progress simp only [Frame.mk_eq]; refine Frame.upd ?_))
  clear_value v1
  have h_v2 : Frame [.csr, .pwr] s v2 := by
    simp only [v2]
    repeat' (first
      | with_reducible apply Frame.refl
      | with_reducible assumption
      | with_reducible apply Frame.ite
      | with_reducible apply Frame.then_ ?_ (State.wrAt_frame ..)
      | decide
      | with_reducible apply Frame.foldl_fst
      | with_reducible apply Frame.foldl
      | intro y a b c hy
      | intro y a hy
      | intro y hy
      | dsimp only
      | split
      | (fail_if_no_progress simp only [Frame.mk_eq]; refine Frame.upd ?_))
  clear_value v2
  have h_v3 : Frame [.csr, .pwr] s v3 := by
    simp only [v3]
    repeat' (first
      | with_reducible apply Frame.refl
      | with_reducible assumption
      | with_reducible apply Frame.ite
      | with_reducible apply Frame.then_ ?_ (State.wrAt_frame ..)
      | decide
      | with_reducible apply Frame.foldl_fst
      | with_reducible apply Frame.foldl
      | intro y a b c hy
      | intro y a hy
      | intro y hy
      | dsimp only
      | split
      | (fail_if_no_progress simp only [Frame.mk_eq]; refine Frame.upd ?_))
  clear_value v3
  repeat' (first
    | with_reducible apply Frame.refl
    | with_reducible assumption
    | with_reducible apply Frame.ite
    | with_reducible apply Frame.then_ ?_ (State.wrAt_frame ..)
    | decide
    | with_reducible apply Frame.foldl_fst
    | with_reducible apply Frame.foldl
    | intro y a b c hy
    | intro y a hy
    | intro y hy
    | dsimp only
    | split
    | (fail_if_no_progress simp only [Frame.mk_eq]; refine Frame.upd ?_))

theorem State.groupUp_frame (s : State) (g : Nat) :
    Frame [.csr, .pwr, .tal, .ptp, .haul, .obs, .sent, .fresh] s (State.groupUp s g) := by
  unfold State.groupUp
  try dsimp only
  repeat' (first
    | with_reducible apply Frame.refl
    | with_reducible assumption
    | with_reducible apply Frame.ite
    | with_reducible apply Frame.then_ ?_ (State.dieResetEnd_frame ..)
    | with_reducible apply Frame.then_ ?_ (State.haulPlaneUp_frame ..)
    | with_reducible apply Frame.then_ ?_ (State.lockRegions_frame ..)
    | with_reducible apply Frame.then_ ?_ (State.wr_frame ..)
    | decide
    | dsimp only
    | split
    | (fail_if_no_progress simp only [Frame.mk_eq]; refine Frame.upd ?_))

theorem execRailGroupRegulation_frame (s : State) :
    Frames [.csr, .pwr, .tal, .ptp, .haul, .obs, .sent, .fresh] s (execRailGroupRegulation s) := by
  unfold execRailGroupRegulation
  try dsimp only
  repeat' (first
    | with_reducible apply Frame.refl
    | with_reducible assumption
    | with_reducible apply Frames.next
    | with_reducible apply Frames.fault
    | with_reducible apply Frames.refused
    | with_reducible apply Frame.ite
    | with_reducible apply Frames.ite
    | with_reducible apply Frame.then_ ?_ (State.groupUp_frame ..)
    | decide
    | dsimp only
    | split
    | (fail_if_no_progress simp only [Frame.mk_eq]; refine Frame.upd ?_))

theorem execRailTimeout_frame (s : State) :
Frames [.csr, .staged, .mem, .pwr, .clk, .tal, .ptp, .haul, .sch, .pln, .top, .olc, .gen, .wgt, .bench, .frk, .scr,
      .itk, .clocks, .twn, .fst, .flt, .rrc, .obs, .sent, .fresh] s (execRailTimeout s) := by
  unfold execRailTimeout
  try dsimp only
  repeat' (first
    | with_reducible apply Frame.refl
    | with_reducible assumption
    | with_reducible apply Frames.next
    | with_reducible apply Frames.fault
    | with_reducible apply Frames.refused
    | with_reducible apply Frame.ite
    | with_reducible apply Frames.ite
    | with_reducible apply Frame.then_ ?_ (State.moduleFatal_frame ..)
    | decide
    | dsimp only
    | split)

theorem execForemanRunning_frame (foreman : Fin 6) (digest : List Byte) (measures : Bool) (s : State) :
Frames [.csr, .staged, .mem, .pwr, .clk, .tal, .ptp, .haul, .sch, .pln, .top, .olc, .gen, .wgt, .bench, .frk, .scr,
      .itk, .clocks, .twn, .fst, .flt, .rrc, .obs, .sent, .fresh] s (execForemanRunning foreman digest measures s) := by
  unfold execForemanRunning
  try dsimp only
  repeat' (first
    | with_reducible apply Frame.refl
    | with_reducible assumption
    | with_reducible apply Frames.next
    | with_reducible apply Frames.fault
    | with_reducible apply Frames.refused
    | with_reducible apply Frame.ite
    | with_reducible apply Frames.ite
    | with_reducible apply Frame.then_ ?_ (State.moduleFatal_frame ..)
    | with_reducible apply Frame.then_ ?_ (State.wrAt_frame ..)
    | decide
    | dsimp only
    | split
    | (fail_if_no_progress simp only [Frame.mk_eq]; refine Frame.upd ?_))

theorem execForemanTimeout_frame (foreman : Fin 6) (s : State) :
Frames [.csr, .staged, .mem, .pwr, .clk, .tal, .ptp, .haul, .sch, .pln, .top, .olc, .gen, .wgt, .bench, .frk, .scr,
      .itk, .clocks, .twn, .fst, .flt, .rrc, .obs, .sent, .fresh] s (execForemanTimeout foreman s) := by
  unfold execForemanTimeout
  try dsimp only
  repeat' (first
    | with_reducible apply Frame.refl
    | with_reducible assumption
    | with_reducible apply Frames.next
    | with_reducible apply Frames.fault
    | with_reducible apply Frames.refused
    | with_reducible apply Frame.ite
    | with_reducible apply Frames.ite
    | with_reducible apply Frame.then_ ?_ (State.moduleFatal_frame ..)
    | decide
    | dsimp only
    | split)

theorem State.allDark_frame (s : State) :
    Frame [.sent] s (State.allDark s) := by
  unfold State.allDark
  try dsimp only
  repeat' (first
    | with_reducible apply Frame.refl
    | with_reducible assumption
    | with_reducible apply Frame.ite
    | with_reducible apply Frame.then_ ?_ (State.emit_frame ..)
    | decide
    | with_reducible apply Frame.foldl_fst
    | with_reducible apply Frame.foldl
    | intro y a b c hy
    | intro y a hy
    | intro y hy
    | dsimp only
    | split)

theorem execModuleReset_frame (s : State) :
Frames [.csr, .staged, .mem, .pwr, .clk, .tal, .ptp, .haul, .sch, .pln, .top, .olc, .gen, .wgt, .bench, .frk, .scr,
      .itk, .clocks, .twn, .fst, .flt, .rrc, .obs, .sent, .fresh] s (execModuleReset s) := by
  unfold execModuleReset
  try dsimp only
  repeat' (first
    | with_reducible apply Frame.refl
    | with_reducible assumption
    | with_reducible apply Frames.next
    | with_reducible apply Frames.fault
    | with_reducible apply Frames.refused
    | with_reducible apply Frame.ite
    | with_reducible apply Frames.ite
    | with_reducible apply Frame.then_ ?_ (State.allDark_frame ..)
    | with_reducible apply Frame.then_ ?_ (State.moduleReset_frame ..)
    | decide
    | dsimp only
    | split)

theorem execDieCoreReset_frame (s : State) :
Frames [.csr, .staged, .mem, .pwr, .clk, .haul, .sch, .pln, .olc, .gen, .wgt, .bench, .frk, .scr, .itk, .twn, .fst,
      .rrc, .obs, .sent, .fresh] s (execDieCoreReset s) := by
  unfold execDieCoreReset
  try dsimp only
  repeat' (first
    | with_reducible apply Frame.refl
    | with_reducible assumption
    | with_reducible apply Frames.next
    | with_reducible apply Frames.fault
    | with_reducible apply Frames.refused
    | with_reducible apply Frame.ite
    | with_reducible apply Frames.ite
    | with_reducible apply Frame.then_ ?_ (State.dieCoreReset_frame ..)
    | decide
    | dsimp only
    | split)

theorem execDieCoreResetEnd_frame (s : State) :
    Frames [.csr, .pwr] s (execDieCoreResetEnd s) := by
  unfold execDieCoreResetEnd
  try dsimp only
  repeat' (first
    | with_reducible apply Frame.refl
    | with_reducible assumption
    | with_reducible apply Frames.next
    | with_reducible apply Frames.fault
    | with_reducible apply Frames.refused
    | with_reducible apply Frame.ite
    | with_reducible apply Frames.ite
    | with_reducible apply Frame.then_ ?_ (State.dieResetEnd_frame ..)
    | decide
    | dsimp only
    | split)

theorem execHaulPlaneReset_frame (s : State) :
Frames [.csr, .staged, .mem, .pwr, .clk, .tal, .ptp, .haul, .sch, .pln, .top, .olc, .gen, .wgt, .bench, .frk, .scr,
      .itk, .clocks, .twn, .fst, .rrc, .obs, .sent, .fresh] s (execHaulPlaneReset s) := by
  unfold execHaulPlaneReset
  try dsimp only
  repeat' (first
    | with_reducible apply Frame.refl
    | with_reducible assumption
    | with_reducible apply Frames.next
    | with_reducible apply Frames.fault
    | with_reducible apply Frames.refused
    | with_reducible apply Frame.ite
    | with_reducible apply Frames.ite
    | with_reducible apply Frame.then_ ?_ (State.haulPlaneReset_frame ..)
    | decide
    | dsimp only
    | split)

end Sys2Proof.Machine
end

