-- ==== Sys2Proof/Laws/FrameReceive.lean ====
section
/-! SUPPORT. One frame lemma for every operation of Machine/Receive.lean: the parts of the state that it may change. -/

set_option Elab.async false
set_option linter.unusedTactic false
set_option linter.unreachableTactic false

namespace Sys2Proof.Machine

open Sys2Proof

theorem State.countUncorr_frame (s : State) (p : Nat) (a : List Codeword) :
    Frame [.csr, .haul] s (State.countUncorr s p a) := by
  induction a generalizing s p with
  | nil =>
    first
      | exact Frame.refl _ _
      | (rw [State.countUncorr]
         repeat' (first
           | with_reducible apply Frame.refl
           | with_reducible assumption
           | with_reducible apply Frame.ite
           | with_reducible apply Frame.then_ ?_ (State.count_frame ..)
           | with_reducible apply Frame.then_ ?_ (State.incAt_frame ..)
           | with_reducible apply Frame.then_ ?_ (State.setPort_frame ..)
           | decide
           | dsimp only
           | split))
  | cons b l ih =>
    rw [State.countUncorr]
    try dsimp only
    repeat' (first
      | with_reducible apply Frame.refl
      | with_reducible assumption
      | with_reducible apply Frame.ite
      | with_reducible apply Frame.then_ ?_ (ih ..)
      | with_reducible apply Frame.then_ ?_ (State.count_frame ..)
      | with_reducible apply Frame.then_ ?_ (State.incAt_frame ..)
      | with_reducible apply Frame.then_ ?_ (State.setPort_frame ..)
      | decide
      | dsimp only
      | split)

theorem State.checkFailed_frame (s : State) (p : Nat) :
    Frame [.csr] s (State.checkFailed s p) := by
  unfold State.checkFailed
  try dsimp only
  repeat' (first
    | with_reducible apply Frame.refl
    | with_reducible assumption
    | with_reducible apply Frame.ite
    | with_reducible apply Frame.then_ ?_ (State.incAt_frame ..)
    | with_reducible apply Frame.then_ ?_ (State.wrAt_frame ..)
    | decide
    | dsimp only
    | split)

theorem State.reservedDrop_frame (s : State) (p : Nat) :
    Frame [.csr] s (State.reservedDrop s p) := by
  unfold State.reservedDrop
  try dsimp only
  repeat' (first
    | with_reducible apply Frame.refl
    | with_reducible assumption
    | with_reducible apply Frame.ite
    | with_reducible apply Frame.then_ ?_ (State.incAt_frame ..)
    | with_reducible apply Frame.then_ ?_ (State.wrAt_frame ..)
    | decide
    | dsimp only
    | split)

theorem State.checkBlock_frame (s : State) (p : Nat) (w : WireBlock) :
    Frame [.csr, .haul] s (State.checkBlock s p w).1 := by
  unfold State.checkBlock
  try dsimp only
  repeat' (first
    | with_reducible apply Frame.refl
    | with_reducible assumption
    | with_reducible apply Frame.ite
    | with_reducible apply Frame.then_ ?_ (State.checkFailed_frame ..)
    | with_reducible apply Frame.then_ ?_ (State.countUncorr_frame ..)
    | with_reducible apply Frame.then_ ?_ (State.reservedDrop_frame ..)
    | decide
    | dsimp only
    | split)

theorem State.takeHeader_frame (s : State) (p : Nat) (b : LinkBlock) (t : State) (h : s.takeHeader p b = some t) :
    Frame [.csr, .haul] s t := by
  unfold State.takeHeader at h
  repeat' split at h
  · cases h
    repeat' (first
      | with_reducible apply Frame.refl
      | with_reducible apply Frame.then_ ?_ (State.applyFreed_frame ..)
      | with_reducible apply Frame.then_ ?_ (State.applyAck_frame ..)
      | decide)
  · cases h
  · cases h
    exact .refl _ _

theorem State.answerDup_frame (s : State) (p : Nat) :
    Frame [.haul, .sent] s (State.answerDup s p) := by
  unfold State.answerDup
  try dsimp only
  repeat' (first
    | with_reducible apply Frame.refl
    | with_reducible assumption
    | with_reducible apply Frame.ite
    | with_reducible apply Frame.then_ ?_ (State.sendPlain_frame ..)
    | with_reducible apply Frame.then_ ?_ (State.setPort_frame ..)
    | decide
    | dsimp only
    | split)

theorem State.takeSeq_frame (s : State) (p : Nat) (b : LinkBlock) :
    Frame [.csr, .haul, .sch, .fst, .obs, .sent, .fresh] s (State.takeSeq s p b).1 := by
  unfold State.takeSeq
  try dsimp only
  repeat' (first
    | with_reducible apply Frame.refl
    | with_reducible assumption
    | with_reducible apply Frame.ite
    | with_reducible apply Frame.then_ ?_ (State.answerDup_frame ..)
    | with_reducible apply Frame.then_ ?_ (State.count_frame ..)
    | with_reducible apply Frame.then_ ?_ (State.incAt_frame ..)
    | with_reducible apply Frame.then_ ?_ (State.linkDown_frame ..)
    | with_reducible apply Frame.then_ ?_ (State.raiseNak_frame ..)
    | with_reducible apply Frame.then_ ?_ (State.setPort_frame ..)
    | with_reducible apply Frame.then_ ?_ (State.wrAt_frame ..)
    | decide
    | dsimp only
    | split)

theorem State.accept_frame (s : State) (p : Nat) (w : WireBlock) :
    Frame [.csr, .haul, .sch, .fst, .obs, .sent, .fresh] s (State.accept s p w).1 := by
  unfold State.accept
  split
  · split
    · rename_i e
      exact (Frame.refl _ s).then_ (Frame.of_eq (State.checkBlock_frame ..) e) (by decide)
    · rename_i e
      have h1 : Frame [.csr, .haul, .sch, .fst, .obs, .sent, .fresh] s _ := (Frame.refl _ s).then_ (Frame.of_eq (State.checkBlock_frame ..) e) (by decide)
      split
      · exact h1.then_ (State.linkDown_frame ..) (by decide)
      · rename_i e2
        have h2 := h1.then_ (State.takeHeader_frame _ _ _ _ e2) (by decide)
        refine Frame.ite ?_ (Frame.then_ ?_ (State.flush_frame ..) (by decide))
        · exact h2.then_ (State.takeSeq_frame ..) (by decide)
        · exact h2.then_ (State.takeSeq_frame ..) (by decide)
  · exact .refl _ s

end Sys2Proof.Machine
end

