-- ==== Sys2Proof/Laws/FrameTime.lean ====
section
/-! SUPPORT. One frame lemma for every operation of Machine/Time.lean: the parts of the state that it may change. -/

set_option Elab.async false
set_option linter.unusedTactic false
set_option linter.unreachableTactic false

namespace Sys2Proof.Machine

open Sys2Proof

theorem State.keepPtp_frame (s : State) :
    Frame [.ptp] s (State.keepPtp s) := by
  unfold State.keepPtp
  try dsimp only
  repeat' (first
    | with_reducible apply Frame.refl
    | with_reducible assumption
    | with_reducible apply Frame.ite
    | decide
    | dsimp only
    | split
    | (fail_if_no_progress simp only [Frame.mk_eq]; refine Frame.upd ?_))

theorem State.setNow_frame (s : State) (t : Nat) :
    Frame [.csr] s (State.setNow s t) := by
  unfold State.setNow
  try dsimp only
  repeat' (first
    | with_reducible apply Frame.refl
    | with_reducible assumption
    | with_reducible apply Frame.ite
    | with_reducible apply Frame.then_ ?_ (State.wr_frame ..)
    | decide
    | dsimp only
    | split)

theorem State.takeEnergy_frame (s : State) :
    Frame [.csr, .pwr] s (State.takeEnergy s) := by
  unfold State.takeEnergy
  try dsimp only
  repeat' (first
    | with_reducible apply Frame.refl
    | with_reducible assumption
    | with_reducible apply Frame.ite
    | with_reducible apply Frame.then_ ?_ (State.wr_frame ..)
    | decide
    | dsimp only
    | split
    | (fail_if_no_progress simp only [Frame.mk_eq]; refine Frame.upd ?_))

theorem State.tick_frame (s : State) :
    Frame [.csr, .pwr, .ptp] s (State.tick s) := by
  unfold State.tick
  try dsimp only
  repeat' (first
    | with_reducible apply Frame.refl
    | with_reducible assumption
    | with_reducible apply Frame.ite
    | with_reducible apply Frame.then_ ?_ (State.setNow_frame ..)
    | with_reducible apply Frame.then_ ?_ (State.takeEnergy_frame ..)
    | with_reducible apply Frame.then_ ?_ (State.wr_frame ..)
    | with_reducible apply Frame.then_ ?_ (State.wrAt_frame ..)
    | decide
    | with_reducible apply Frame.foldl_fst
    | with_reducible apply Frame.foldl
    | intro y a b c hy
    | intro y a hy
    | intro y hy
    | dsimp only
    | split
    | (fail_if_no_progress simp only [Frame.mk_eq]; refine Frame.upd ?_))

theorem State.moveCounts_frame (s : State) (step : Int) :
    Frame [.pwr, .tal, .ptp, .haul, .clocks] s (State.moveCounts s step) := by
  unfold State.moveCounts
  try dsimp only
  repeat' (first
    | with_reducible apply Frame.refl
    | with_reducible assumption
    | with_reducible apply Frame.ite
    | decide
    | dsimp only
    | split
    | (fail_if_no_progress simp only [Frame.mk_eq]; refine Frame.upd ?_))

theorem State.align_frame (s : State) (off : Int) :
    Frame [.csr, .pwr, .tal, .ptp, .haul, .clocks, .fresh] s (State.align s off) := by
  unfold State.align
  extract_lets v0 v1 v2 v3 v4 v5 v6
  clear_value v0
  have h_v1 : Frame [.csr, .pwr, .tal, .ptp, .haul, .clocks, .fresh] s v1 := by
    simp only [v1]
    repeat' (first
      | with_reducible apply Frame.refl
      | with_reducible assumption
      | with_reducible apply Frame.ite
      | with_reducible apply Frame.then_ ?_ (State.drawn_frame ..)
      | with_reducible apply Frame.then_ ?_ (State.moveCounts_frame ..)
      | with_reducible apply Frame.then_ ?_ (State.setNow_frame ..)
      | with_reducible apply Frame.then_ ?_ (State.wr_frame ..)
      | decide
      | dsimp only
      | split
      | (fail_if_no_progress simp only [Frame.mk_eq]; refine Frame.upd ?_))
  clear_value v1
  have h_v2 : Frame [.csr, .pwr, .tal, .ptp, .haul, .clocks, .fresh] s v2 := by
    simp only [v2]
    repeat' (first
      | with_reducible apply Frame.refl
      | with_reducible assumption
      | with_reducible apply Frame.ite
      | with_reducible apply Frame.then_ ?_ (State.drawn_frame ..)
      | with_reducible apply Frame.then_ ?_ (State.moveCounts_frame ..)
      | with_reducible apply Frame.then_ ?_ (State.setNow_frame ..)
      | with_reducible apply Frame.then_ ?_ (State.wr_frame ..)
      | decide
      | dsimp only
      | split
      | (fail_if_no_progress simp only [Frame.mk_eq]; refine Frame.upd ?_))
  clear_value v2
  have h_v3 : Frame [.csr, .pwr, .tal, .ptp, .haul, .clocks, .fresh] s v3 := by
    simp only [v3]
    repeat' (first
      | with_reducible apply Frame.refl
      | with_reducible assumption
      | with_reducible apply Frame.ite
      | with_reducible apply Frame.then_ ?_ (State.drawn_frame ..)
      | with_reducible apply Frame.then_ ?_ (State.moveCounts_frame ..)
      | with_reducible apply Frame.then_ ?_ (State.setNow_frame ..)
      | with_reducible apply Frame.then_ ?_ (State.wr_frame ..)
      | decide
      | dsimp only
      | split
      | (fail_if_no_progress simp only [Frame.mk_eq]; refine Frame.upd ?_))
  clear_value v3
  have h_v4 : Frame [.csr, .pwr, .tal, .ptp, .haul, .clocks, .fresh] s v4 := by
    simp only [v4]
    repeat' (first
      | with_reducible apply Frame.refl
      | with_reducible assumption
      | with_reducible apply Frame.ite
      | with_reducible apply Frame.then_ ?_ (State.drawn_frame ..)
      | with_reducible apply Frame.then_ ?_ (State.moveCounts_frame ..)
      | with_reducible apply Frame.then_ ?_ (State.setNow_frame ..)
      | with_reducible apply Frame.then_ ?_ (State.wr_frame ..)
      | decide
      | dsimp only
      | split
      | (fail_if_no_progress simp only [Frame.mk_eq]; refine Frame.upd ?_))
  clear_value v4
  have h_v5 : Frame [.csr, .pwr, .tal, .ptp, .haul, .clocks, .fresh] s v5 := by
    simp only [v5]
    repeat' (first
      | with_reducible apply Frame.refl
      | with_reducible assumption
      | with_reducible apply Frame.ite
      | with_reducible apply Frame.then_ ?_ (State.drawn_frame ..)
      | with_reducible apply Frame.then_ ?_ (State.moveCounts_frame ..)
      | with_reducible apply Frame.then_ ?_ (State.setNow_frame ..)
      | with_reducible apply Frame.then_ ?_ (State.wr_frame ..)
      | decide
      | dsimp only
      | split
      | (fail_if_no_progress simp only [Frame.mk_eq]; refine Frame.upd ?_))
  clear_value v5
  clear_value v6
  repeat' (first
    | with_reducible apply Frame.refl
    | with_reducible assumption
    | with_reducible apply Frame.ite
    | with_reducible apply Frame.then_ ?_ (State.drawn_frame ..)
    | with_reducible apply Frame.then_ ?_ (State.moveCounts_frame ..)
    | with_reducible apply Frame.then_ ?_ (State.setNow_frame ..)
    | with_reducible apply Frame.then_ ?_ (State.wr_frame ..)
    | decide
    | dsimp only
    | split
    | (fail_if_no_progress simp only [Frame.mk_eq]; refine Frame.upd ?_))

theorem State.correctRate_frame (s : State) (off : Int) :
    Frame [.csr, .tal, .fresh] s (State.correctRate s off) := by
  unfold State.correctRate
  extract_lets v0 v1 v2 v3 v4 v5 v6 v7
  clear_value v0
  clear_value v1
  clear_value v2
  clear_value v3
  clear_value v4
  have h_v5 : Frame [.csr, .tal, .fresh] s v5 := by
    simp only [v5]
    repeat' (first
      | with_reducible apply Frame.refl
      | with_reducible assumption
      | with_reducible apply Frame.ite
      | with_reducible apply Frame.then_ ?_ (State.drawn_frame ..)
      | with_reducible apply Frame.then_ ?_ (State.wr_frame ..)
      | decide
      | dsimp only
      | split
      | (fail_if_no_progress simp only [Frame.mk_eq]; refine Frame.upd ?_))
  clear_value v5
  clear_value v6
  have h_v7 : Frame [.csr, .tal, .fresh] s v7 := by
    simp only [v7]
    repeat' (first
      | with_reducible apply Frame.refl
      | with_reducible assumption
      | with_reducible apply Frame.ite
      | with_reducible apply Frame.then_ ?_ (State.drawn_frame ..)
      | with_reducible apply Frame.then_ ?_ (State.wr_frame ..)
      | decide
      | dsimp only
      | split
      | (fail_if_no_progress simp only [Frame.mk_eq]; refine Frame.upd ?_))
  clear_value v7
  repeat' (first
    | with_reducible apply Frame.refl
    | with_reducible assumption
    | with_reducible apply Frame.ite
    | with_reducible apply Frame.then_ ?_ (State.drawn_frame ..)
    | with_reducible apply Frame.then_ ?_ (State.wr_frame ..)
    | decide
    | dsimp only
    | split
    | (fail_if_no_progress simp only [Frame.mk_eq]; refine Frame.upd ?_))

theorem State.diverge_frame (s : State) :
    Frame [.csr, .pwr, .flt, .rrc, .obs, .fresh] s (State.diverge s) := by
  unfold State.diverge
  try dsimp only
  repeat' (first
    | with_reducible apply Frame.refl
    | with_reducible assumption
    | with_reducible apply Frame.ite
    | with_reducible apply Frame.then_ ?_ (State.contained_frame ..)
    | with_reducible apply Frame.then_ ?_ (State.wr_frame ..)
    | decide
    | dsimp only
    | split)

theorem State.takeMarker_frame (s : State) (off : Int) :
    Frame [.csr, .pwr, .tal, .ptp, .haul, .clocks, .flt, .rrc, .obs, .fresh] s (State.takeMarker s off) := by
  unfold State.takeMarker
  extract_lets v0 v1 v2 v3
  have h_v0 : Frame [.csr, .pwr, .tal, .ptp, .haul, .clocks, .flt, .rrc, .obs, .fresh] s v0 := by
    simp only [v0]
    repeat' (first
      | with_reducible apply Frame.refl
      | with_reducible assumption
      | with_reducible apply Frame.ite
      | with_reducible apply Frame.then_ ?_ (State.align_frame ..)
      | with_reducible apply Frame.then_ ?_ (State.correctRate_frame ..)
      | with_reducible apply Frame.then_ ?_ (State.diverge_frame ..)
      | with_reducible apply Frame.then_ ?_ (State.wr_frame ..)
      | decide
      | dsimp only
      | split)
  clear_value v0
  clear_value v1
  have h_v2 : Frame [.csr, .pwr, .tal, .ptp, .haul, .clocks, .flt, .rrc, .obs, .fresh] s v2 := by
    simp only [v2]
    repeat' (first
      | with_reducible apply Frame.refl
      | with_reducible assumption
      | with_reducible apply Frame.ite
      | with_reducible apply Frame.then_ ?_ (State.align_frame ..)
      | with_reducible apply Frame.then_ ?_ (State.correctRate_frame ..)
      | with_reducible apply Frame.then_ ?_ (State.diverge_frame ..)
      | with_reducible apply Frame.then_ ?_ (State.wr_frame ..)
      | decide
      | dsimp only
      | split)
  clear_value v2
  clear_value v3
  repeat' (first
    | with_reducible apply Frame.refl
    | with_reducible assumption
    | with_reducible apply Frame.ite
    | with_reducible apply Frame.then_ ?_ (State.align_frame ..)
    | with_reducible apply Frame.then_ ?_ (State.correctRate_frame ..)
    | with_reducible apply Frame.then_ ?_ (State.diverge_frame ..)
    | with_reducible apply Frame.then_ ?_ (State.wr_frame ..)
    | decide
    | dsimp only
    | split)

end Sys2Proof.Machine
end

