-- ==== Sys2Proof/Laws/FrameClock.lean ====
section
/-! SUPPORT. One frame lemma for every operation of Machine/Clock.lean: the parts of the state that it may change. -/

set_option Elab.async false
set_option linter.unusedTactic false
set_option linter.unreachableTactic false

namespace Sys2Proof.Machine

open Sys2Proof

theorem execLateEntry_frame (reader : Fin 39) (writer : Fin 39) (cycles : Nat) (s : State) :
    Frames [.csr, .clk, .bench] s (execLateEntry reader writer cycles s) := by
  unfold execLateEntry
  extract_lets v0 v1 v2 v3 v4
  clear_value v0
  clear_value v1
  have h_v2 : Frame [.csr, .clk, .bench] s v2 := by
    simp only [v2]
    repeat' (first
      | with_reducible apply Frame.refl
      | with_reducible assumption
      | with_reducible apply Frames.next
      | with_reducible apply Frames.fault
      | with_reducible apply Frames.refused
      | with_reducible apply Frame.ite
      | with_reducible apply Frames.ite
      | with_reducible apply Frame.then_ ?_ (State.incAt_frame ..)
      | with_reducible apply Frame.then_ ?_ (State.resumeAt_frame ..)
      | with_reducible apply Frame.then_ ?_ (State.wr_frame ..)
      | decide
      | dsimp only
      | split
      | (fail_if_no_progress simp only [Frame.mk_eq]; refine Frame.upd ?_))
  clear_value v2
  clear_value v3
  have h_v4 : Frame [.csr, .clk, .bench] s v4 := by
    simp only [v4]
    repeat' (first
      | with_reducible apply Frame.refl
      | with_reducible assumption
      | with_reducible apply Frames.next
      | with_reducible apply Frames.fault
      | with_reducible apply Frames.refused
      | with_reducible apply Frame.ite
      | with_reducible apply Frames.ite
      | with_reducible apply Frame.then_ ?_ (State.incAt_frame ..)
      | with_reducible apply Frame.then_ ?_ (State.resumeAt_frame ..)
      | with_reducible apply Frame.then_ ?_ (State.wr_frame ..)
      | decide
      | dsimp only
      | split
      | (fail_if_no_progress simp only [Frame.mk_eq]; refine Frame.upd ?_))
  clear_value v4
  repeat' (first
    | with_reducible apply Frame.refl
    | with_reducible assumption
    | with_reducible apply Frames.next
    | with_reducible apply Frames.fault
    | with_reducible apply Frames.refused
    | with_reducible apply Frame.ite
    | with_reducible apply Frames.ite
    | with_reducible apply Frame.then_ ?_ (State.incAt_frame ..)
    | with_reducible apply Frame.then_ ?_ (State.resumeAt_frame ..)
    | with_reducible apply Frame.then_ ?_ (State.wr_frame ..)
    | decide
    | dsimp only
    | split
    | (fail_if_no_progress simp only [Frame.mk_eq]; refine Frame.upd ?_))

theorem execDroopStretchStart_frame (region : Fin 39) (s : State) :
    Frames [.csr, .clk] s (execDroopStretchStart region s) := by
  unfold execDroopStretchStart
  try dsimp only
  repeat' (first
    | with_reducible apply Frame.refl
    | with_reducible assumption
    | with_reducible apply Frames.next
    | with_reducible apply Frames.fault
    | with_reducible apply Frames.refused
    | with_reducible apply Frame.ite
    | with_reducible apply Frames.ite
    | with_reducible apply Frame.then_ ?_ (State.showStretch_frame ..)
    | decide
    | dsimp only
    | split
    | (fail_if_no_progress simp only [Frame.mk_eq]; refine Frame.upd ?_))

theorem execDroopStretchEnd_frame (region : Fin 39) (s : State) :
    Frames [.csr, .clk] s (execDroopStretchEnd region s) := by
  unfold execDroopStretchEnd
  try dsimp only
  repeat' (first
    | with_reducible apply Frame.refl
    | with_reducible assumption
    | with_reducible apply Frames.next
    | with_reducible apply Frames.fault
    | with_reducible apply Frames.refused
    | with_reducible apply Frame.ite
    | with_reducible apply Frames.ite
    | with_reducible apply Frame.then_ ?_ (State.showStretch_frame ..)
    | decide
    | dsimp only
    | split
    | (fail_if_no_progress simp only [Frame.mk_eq]; refine Frame.upd ?_))

theorem execTtCritTimeout_frame (region : Fin 39) (s : State) :
    Frames [.csr, .pwr, .flt, .rrc, .obs, .fresh] s (execTtCritTimeout region s) := by
  unfold execTtCritTimeout
  try dsimp only
  repeat' (first
    | with_reducible apply Frame.refl
    | with_reducible assumption
    | with_reducible apply Frames.next
    | with_reducible apply Frames.fault
    | with_reducible apply Frames.refused
    | with_reducible apply Frame.ite
    | with_reducible apply Frames.ite
    | with_reducible apply Frame.then_ ?_ (State.contained_frame ..)
    | decide
    | dsimp only
    | split)

theorem State.refuseFchg_frame (s : State) :
    Frame [.csr] s (State.refuseFchg s) := by
  unfold State.refuseFchg
  try dsimp only
  repeat' (first
    | with_reducible apply Frame.refl
    | with_reducible assumption
    | with_reducible apply Frame.ite
    | with_reducible apply Frame.then_ ?_ (State.wr_frame ..)
    | decide
    | dsimp only
    | split)

theorem State.armFchg_frame (s : State) :
    Frame [.csr, .clk] s (State.armFchg s) := by
  unfold State.armFchg
  try dsimp only
  repeat' (first
    | with_reducible apply Frame.refl
    | with_reducible assumption
    | with_reducible apply Frame.ite
    | with_reducible apply Frame.then_ ?_ (State.wr_frame ..)
    | decide
    | dsimp only
    | split
    | (fail_if_no_progress simp only [Frame.mk_eq]; refine Frame.upd ?_))

theorem execFchgArm_frame (s : State) :
Frames [.csr, .pwr, .clk, .haul, .sch, .pln, .top, .olc, .gen, .wgt, .bench, .flt, .rrc, .obs, .sent, .fresh] s
      (execFchgArm s) := by
  unfold execFchgArm
  try dsimp only
  repeat' (first
    | with_reducible apply Frame.refl
    | with_reducible assumption
    | with_reducible apply Frames.next
    | with_reducible apply Frames.fault
    | with_reducible apply Frames.refused
    | with_reducible apply Frame.ite
    | with_reducible apply Frames.ite
    | with_reducible apply State.armChange_frame
    | with_reducible apply Frame.then_ ?_ (State.armFchg_frame ..)
    | with_reducible apply Frame.then_ ?_ (State.contained_frame ..)
    | with_reducible apply Frame.then_ ?_ (State.refuseFchg_frame ..)
    | with_reducible apply Frame.then_ ?_ (State.wr_frame ..)
    | decide
    | intro y a b c hy
    | intro y a hy
    | intro y hy
    | dsimp only
    | split)

theorem execFchgDisarm_frame (s : State) :
    Frames [.csr, .olc] s (execFchgDisarm s) := by
  unfold execFchgDisarm
  try dsimp only
  repeat' (first
    | with_reducible apply Frame.refl
    | with_reducible assumption
    | with_reducible apply Frames.next
    | with_reducible apply Frames.fault
    | with_reducible apply Frames.refused
    | with_reducible apply Frame.ite
    | with_reducible apply Frames.ite
    | with_reducible apply Frame.then_ ?_ (State.dropChange_frame ..)
    | with_reducible apply Frame.then_ ?_ (State.wr_frame ..)
    | decide
    | dsimp only
    | split)

theorem execRegionStop_frame (s : State) :
    Frames [.csr, .haul, .sch, .olc, .sent] s (execRegionStop s) := by
  unfold execRegionStop
  try dsimp only
  repeat' (first
    | with_reducible apply Frame.refl
    | with_reducible assumption
    | with_reducible apply Frames.next
    | with_reducible apply Frames.fault
    | with_reducible apply Frames.refused
    | with_reducible apply Frame.ite
    | with_reducible apply Frames.ite
    | with_reducible apply Frame.then_ ?_ (State.clockHold_frame ..)
    | with_reducible apply Frame.then_ ?_ (State.tookEffect_frame ..)
    | with_reducible apply Frame.then_ ?_ (State.wr_frame ..)
    | with_reducible apply Frame.then_ ?_ (State.wrAt_frame ..)
    | decide
    | dsimp only
    | split)

theorem execRegionRestart_frame (s : State) :
    Frames [.csr] s (execRegionRestart s) := by
  unfold execRegionRestart
  try dsimp only
  repeat' (first
    | with_reducible apply Frame.refl
    | with_reducible assumption
    | with_reducible apply Frames.next
    | with_reducible apply Frames.fault
    | with_reducible apply Frames.refused
    | with_reducible apply Frame.ite
    | with_reducible apply Frames.ite
    | with_reducible apply Frame.then_ ?_ (State.wr_frame ..)
    | with_reducible apply Frame.then_ ?_ (State.wrAt_frame ..)
    | decide
    | dsimp only
    | split)

theorem execStandbyLoopsLocked_frame (s : State) :
    Frames [.clk] s (execStandbyLoopsLocked s) := by
  unfold execStandbyLoopsLocked
  try dsimp only
  repeat' (first
    | with_reducible apply Frame.refl
    | with_reducible assumption
    | with_reducible apply Frames.next
    | with_reducible apply Frames.fault
    | with_reducible apply Frames.refused
    | with_reducible apply Frame.ite
    | with_reducible apply Frames.ite
    | decide
    | dsimp only
    | split
    | (fail_if_no_progress simp only [Frame.mk_eq]; refine Frame.upd ?_))

theorem execSyncChangeSwitch_frame (s : State) :
    Frames [.csr, .pwr, .clk, .olc, .bench] s (execSyncChangeSwitch s) := by
  unfold execSyncChangeSwitch
  try dsimp only
  repeat' (first
    | with_reducible apply Frame.refl
    | with_reducible assumption
    | with_reducible apply Frames.next
    | with_reducible apply Frames.fault
    | with_reducible apply Frames.refused
    | with_reducible apply Frame.ite
    | with_reducible apply Frames.ite
    | with_reducible apply Frame.then_ ?_ (State.changeApplied_frame ..)
    | with_reducible apply Frame.then_ ?_ (State.fetchEntries_frame ..)
    | with_reducible apply Frame.then_ ?_ (State.holdEntries_frame ..)
    | with_reducible apply Frame.then_ ?_ (State.setPoints_frame ..)
    | with_reducible apply Frame.then_ ?_ (State.showLevel_frame ..)
    | with_reducible apply Frame.then_ ?_ (State.wr_frame ..)
    | decide
    | with_reducible apply Frame.foldl_fst
    | with_reducible apply Frame.foldl
    | intro y a b c hy
    | intro y a hy
    | intro y hy
    | dsimp only
    | split
    | (fail_if_no_progress simp only [Frame.mk_eq]; refine Frame.upd ?_))

theorem execPllLockLost_frame (region : Fin 39) (s : State) :
    Frames [.csr] s (execPllLockLost region s) := by
  unfold execPllLockLost
  try dsimp only
  repeat' (first
    | with_reducible apply Frame.refl
    | with_reducible assumption
    | with_reducible apply Frames.next
    | with_reducible apply Frames.fault
    | with_reducible apply Frames.refused
    | with_reducible apply Frame.ite
    | with_reducible apply Frames.ite
    | with_reducible apply Frame.then_ ?_ (State.wr_frame ..)
    | with_reducible apply Frame.then_ ?_ (State.wrAt_frame ..)
    | decide
    | dsimp only
    | split)

theorem execRegionLockTimeout_frame (region : Fin 39) (s : State) :
Frames [.csr, .staged, .mem, .pwr, .clk, .tal, .ptp, .haul, .sch, .pln, .top, .olc, .gen, .wgt, .bench, .frk, .scr,
      .itk, .clocks, .twn, .fst, .flt, .rrc, .obs, .sent, .fresh] s (execRegionLockTimeout region s) := by
  unfold execRegionLockTimeout
  try dsimp only
  repeat' (first
    | with_reducible apply Frame.refl
    | with_reducible assumption
    | with_reducible apply Frames.next
    | with_reducible apply Frames.fault
    | with_reducible apply Frames.refused
    | with_reducible apply Frame.ite
    | with_reducible apply Frames.ite
    | with_reducible apply Frame.then_ ?_ (State.fault_frame ..)
    | with_reducible apply Frame.then_ ?_ (State.moduleFatal_frame ..)
    | with_reducible apply Frame.then_ ?_ (State.wrAt_frame ..)
    | decide
    | dsimp only
    | split
    | (fail_if_no_progress simp only [Frame.mk_eq]; refine Frame.upd ?_))

theorem execMarkerReceived_frame (port : Fin 16) (blk : WireBlock) (arrival : Stamp) (s : State) :
Frames [.csr, .pwr, .tal, .ptp, .haul, .sch, .clocks, .fst, .flt, .rrc, .obs, .sent, .fresh] s (execMarkerReceived
      port blk arrival s) := by
  unfold execMarkerReceived
  try dsimp only
  repeat' (first
    | with_reducible apply Frame.refl
    | with_reducible assumption
    | with_reducible apply Frames.next
    | with_reducible apply Frames.fault
    | with_reducible apply Frames.refused
    | with_reducible apply Frame.ite
    | with_reducible apply Frames.ite
    | with_reducible apply Frame.then_ ?_ (State.accept_frame ..)
    | (with_reducible apply Frame.then_ ?_ (Frame.of_eq (State.accept_frame ..) (by assumption)))
    | with_reducible apply Frame.then_ ?_ (State.incAt_frame ..)
    | with_reducible apply Frame.then_ ?_ (State.reservedDrop_frame ..)
    | with_reducible apply Frame.then_ ?_ (State.takeMarker_frame ..)
    | decide
    | dsimp only
    | split
    | (fail_if_no_progress simp only [Frame.mk_eq]; refine Frame.upd ?_))

theorem execHoldoverEntry_frame (s : State) :
    Frames [.csr, .pwr, .rrc, .obs, .fresh] s (execHoldoverEntry s) := by
  unfold execHoldoverEntry
  try dsimp only
  repeat' (first
    | with_reducible apply Frame.refl
    | with_reducible assumption
    | with_reducible apply Frames.next
    | with_reducible apply Frames.fault
    | with_reducible apply Frames.refused
    | with_reducible apply Frame.ite
    | with_reducible apply Frames.ite
    | with_reducible apply Frame.then_ ?_ (State.notice_frame ..)
    | with_reducible apply Frame.then_ ?_ (State.wr_frame ..)
    | decide
    | dsimp only
    | split)

theorem execAlignNow_frame (s : State) :
    Frames [.tal] s (execAlignNow s) := by
  unfold execAlignNow
  try dsimp only
  repeat' (first
    | with_reducible apply Frame.refl
    | with_reducible assumption
    | with_reducible apply Frames.next
    | with_reducible apply Frames.fault
    | with_reducible apply Frames.refused
    | with_reducible apply Frame.ite
    | with_reducible apply Frames.ite
    | decide
    | dsimp only
    | split
    | (fail_if_no_progress simp only [Frame.mk_eq]; refine Frame.upd ?_))

theorem execTimeMapSend_frame (s : State) :
    Frames [.csr, .haul, .sch, .sent] s (execTimeMapSend s) := by
  unfold execTimeMapSend
  try dsimp only
  repeat' (first
    | with_reducible apply Frame.refl
    | with_reducible assumption
    | with_reducible apply Frames.next
    | with_reducible apply Frames.fault
    | with_reducible apply Frames.refused
    | with_reducible apply Frame.ite
    | with_reducible apply Frames.ite
    | with_reducible apply Frame.then_ ?_ (State.sendAll_frame ..)
    | decide
    | dsimp only
    | split)

theorem State.timeOther_frame (s : State) (pkt : TimePkt) :
    Frame [.sch] s (State.timeOther s pkt) := by
  unfold State.timeOther
  try dsimp only
  repeat' (first
    | with_reducible apply Frame.refl
    | with_reducible assumption
    | with_reducible apply Frame.ite
    | decide
    | dsimp only
    | split
    | (fail_if_no_progress simp only [Frame.mk_eq]; refine Frame.upd ?_))

theorem execTimeMapReceived_frame (pkt : TimePkt) (s : State) :
    Frames [.csr, .sch] s (execTimeMapReceived pkt s) := by
  unfold execTimeMapReceived
  try dsimp only
  repeat' (first
    | with_reducible apply Frame.refl
    | with_reducible assumption
    | with_reducible apply Frames.next
    | with_reducible apply Frames.fault
    | with_reducible apply Frames.refused
    | with_reducible apply Frame.ite
    | with_reducible apply Frames.ite
    | with_reducible apply Frame.then_ ?_ (State.timeOther_frame ..)
    | with_reducible apply Frame.then_ ?_ (State.wr_frame ..)
    | decide
    | dsimp only
    | split)

theorem execTimeQueryReceived_frame (source : Nat) (pkt : TimePkt) (s : State) :
    Frames [.csr, .haul, .sch, .sent] s (execTimeQueryReceived source pkt s) := by
  unfold execTimeQueryReceived
  try dsimp only
  repeat' (first
    | with_reducible apply Frame.refl
    | with_reducible assumption
    | with_reducible apply Frames.next
    | with_reducible apply Frames.fault
    | with_reducible apply Frames.refused
    | with_reducible apply Frame.ite
    | with_reducible apply Frames.ite
    | with_reducible apply Frame.then_ ?_ (State.sendService_frame ..)
    | with_reducible apply Frame.then_ ?_ (State.timeOther_frame ..)
    | decide
    | dsimp only
    | split)

theorem execTalCapture_frame (s : State) :
    Frames [.csr] s (execTalCapture s) := by
  unfold execTalCapture
  try dsimp only
  repeat' (first
    | with_reducible apply Frame.refl
    | with_reducible assumption
    | with_reducible apply Frames.next
    | with_reducible apply Frames.fault
    | with_reducible apply Frames.refused
    | with_reducible apply Frame.ite
    | with_reducible apply Frames.ite
    | with_reducible apply Frame.then_ ?_ (State.wr_frame ..)
    | decide
    | dsimp only
    | split)

end Sys2Proof.Machine
end

