-- ==== Sys2Proof/Laws/FrameOperands.lean ====
section
/-! SUPPORT. One frame lemma for every operation of Machine/Operands.lean: the parts of the state that it may change. -/

set_option Elab.async false
set_option linter.unusedTactic false
set_option linter.unreachableTactic false

namespace Sys2Proof.Machine

open Sys2Proof

theorem State.unwrite_frame (s : State) (b : Nat) (a : Prior) :
    Frame [.mem, .bench] s (State.unwrite s b a) := by
  unfold State.unwrite
  try dsimp only
  repeat' (first
    | with_reducible apply Frame.refl
    | with_reducible assumption
    | with_reducible apply Frame.ite
    | with_reducible apply Frame.then_ ?_ (State.setBench_frame ..)
    | with_reducible apply Frame.then_ ?_ (State.setByte_frame ..)
    | decide
    | dsimp only
    | split)

theorem State.seenFrom_frame (now b : Nat) (kept : List Nat) (l : List Flight) (s : State) :
    Frame [.mem, .bench] s (State.seenFrom now b kept l s) := by
  induction l generalizing kept s with
  | nil => exact .refl _ s
  | cons f t ih =>
    unfold State.seenFrom
    split
    · exact ih ..
    · exact Frame.then_ (Frame.foldl _ (.refl _ s) fun y a hy => hy.then_ (State.unwrite_frame ..) (by decide)) (ih ..) (by decide)

theorem State.seen_frame (s : State) (b : Nat) : Frame [.mem, .bench] s (State.seen s b) := State.seenFrom_frame ..

theorem State.fetchCorrected_frame (s : State) (i : Issue) (l : List Nat) :
    Frame [.csr, .pwr, .flt, .rrc, .obs, .fresh] s (State.fetchCorrected s i l) := by
  unfold State.fetchCorrected
  try dsimp only
  repeat' (first
    | with_reducible apply Frame.refl
    | with_reducible assumption
    | with_reducible apply Frame.ite
    | with_reducible apply Frame.then_ ?_ (State.corrected_frame ..)
    | decide
    | with_reducible apply Frame.foldl_fst
    | with_reducible apply Frame.foldl
    | intro y a b c hy
    | intro y a hy
    | intro y hy
    | dsimp only
    | split)

theorem State.fetchFails_frame (s : State) (i : Issue) (pc : Nat) (code : Nat) (seq : Nat) :
    Frame [.csr, .pwr, .haul, .sch, .gen, .flt, .rrc, .obs, .sent, .fresh] s (State.fetchFails s i pc code seq) := by
  unfold State.fetchFails
  try dsimp only
  repeat' (first
    | with_reducible apply Frame.refl
    | with_reducible assumption
    | with_reducible apply Frame.ite
    | with_reducible apply Frame.then_ ?_ (State.benchFatal_frame ..)
    | with_reducible apply Frame.then_ ?_ (State.fetchCorrected_frame ..)
    | with_reducible apply Frame.then_ ?_ (State.seqFault_frame ..)
    | decide
    | dsimp only
    | split)

theorem State.issued_frame (s : State) (i : Issue) (o : SlotOp) :
    Frame [.csr, .pwr, .bench, .flt, .rrc, .obs, .fresh] s (State.issued s i o) := by
  unfold State.issued
  try dsimp only
  repeat' (first
    | with_reducible apply Frame.refl
    | with_reducible assumption
    | with_reducible apply Frame.ite
    | with_reducible apply Frame.then_ ?_ (State.fetchCorrected_frame ..)
    | with_reducible apply Frame.then_ ?_ (State.setBench_frame ..)
    | with_reducible apply Frame.then_ ?_ (State.wrAt_frame ..)
    | decide
    | dsimp only
    | split)

theorem State.operate_frame {P : List Part} {s0 : State} (s : State) (i : Issue) (o : SlotOp) (f : State → State → Res)
    (hP : [.csr, .pwr, .haul, .sch, .gen, .bench, .flt, .rrc, .obs, .sent, .fresh] ⊆ P) (h0 : Frame P s0 s) (hf : ∀ q x, Frame P s0 x → Frames P s0 (f q x)) : Frames P s0 (s.operate i o f) := by
  have sub : ∀ {Q : List Part}, Q ⊆ [.csr, .pwr, .haul, .sch, .gen, .bench, .flt, .rrc, .obs, .sent, .fresh] → Q ⊆ P := fun h x hx => hP (h hx)
  unfold State.operate
  repeat' split
  · exact hf _ _ (h0.then_ (State.issued_frame ..) (sub (by decide)))
  · exact .next (h0.then_ (State.fetchFails_frame ..) (sub (by decide)))
  · exact .next h0
  · exact .next h0

theorem State.setStore_frame (s : State) (b : Nat) (o : Nat) (l : List Byte) :
    Frame [.mem] s (State.setStore s b o l) := by
  unfold State.setStore
  try dsimp only
  repeat' (first
    | with_reducible apply Frame.refl
    | with_reducible assumption
    | with_reducible apply Frame.ite
    | with_reducible apply Frame.then_ ?_ (State.setBytes_frame ..)
    | decide
    | dsimp only
    | split)

theorem State.putStore_frame (s : State) (b : Nat) (o : Nat) (l : List Byte) :
    Frame [.mem, .bench] s (State.putStore s b o l) := by
  unfold State.putStore
  try dsimp only
  repeat' (first
    | with_reducible apply Frame.refl
    | with_reducible assumption
    | with_reducible apply Frame.ite
    | with_reducible apply Frame.then_ ?_ (State.setBench_frame ..)
    | with_reducible apply Frame.then_ ?_ (State.setStore_frame ..)
    | decide
    | with_reducible apply Frame.foldl_fst
    | with_reducible apply Frame.foldl
    | intro y a b c hy
    | intro y a hy
    | intro y hy
    | dsimp only
    | split)

theorem State.reading_frame {P : List Part} {s0 : State} (s : State) (b : Nat) (ecc : Ecc) (spans : List (Nat × Nat))
    (f : State → Res) (hP : [.csr, .pwr, .haul, .sch, .gen, .flt, .rrc, .obs, .sent, .fresh] ⊆ P) (h0 : Frame P s0 s) (hf : ∀ x, Frame P s0 x → Frames P s0 (f x)) :
    Frames P s0 (s.reading b ecc spans f) := by
  have sub : ∀ {Q : List Part}, Q ⊆ [.csr, .pwr, .haul, .sch, .gen, .flt, .rrc, .obs, .sent, .fresh] → Q ⊆ P := fun h x hx => hP (h hx)
  unfold State.reading
  split
  · split
    · rename_i e
      exact hf _ (h0.then_ (Frame.of_eq (State.readStore_frame ..) e) (sub (by decide)))
    · rename_i e
      exact .next (h0.then_ (Frame.of_eq (State.readStore_frame ..) e) (sub (by decide)))
  · exact .fault _

end Sys2Proof.Machine
end

