-- ==== Sys2Proof/Laws/FrameTwin.lean ====
section
/-! SUPPORT. One frame lemma for every operation of Machine/Twin.lean: the parts of the state that it may change. -/

set_option Elab.async false
set_option linter.unusedTactic false
set_option linter.unreachableTactic false

namespace Sys2Proof.Machine

open Sys2Proof

theorem State.shipTags_frame (s : State) (e : IntakeEntry) (w : WindowRec) :
    Frame [.csr, .haul, .twn, .sent] s (State.shipTags s e w).1 := by
  unfold State.shipTags
  try dsimp only
  repeat' (first
    | with_reducible apply Frame.refl
    | with_reducible assumption
    | with_reducible apply Frame.ite
    | with_reducible apply Frame.then_ ?_ (State.shipItem_frame ..)
    | decide
    | dsimp only
    | split)

end Sys2Proof.Machine
end

