-- ==== Sys2Proof/Laws/FrameControl.lean ====
section
/-! SUPPORT. One frame lemma for every operation of Machine/Control.lean: the parts of the state that it may change. -/

set_option Elab.async false
set_option linter.unusedTactic false
set_option linter.unreachableTactic false

namespace Sys2Proof.Machine

open Sys2Proof

theorem State.waits_frame (s : State) (b : Nat) (w : Waiting) :
    Frame [.csr, .bench] s (State.waits s b w) := by
  unfold State.waits
  try dsimp only
  repeat' (first
    | with_reducible apply Frame.refl
    | with_reducible assumption
    | with_reducible apply Frame.ite
    | with_reducible apply Frame.then_ ?_ (State.setBench_frame ..)
    | with_reducible apply Frame.then_ ?_ (State.wrAt_frame ..)
    | decide
    | dsimp only
    | split)

theorem State.goTo_frame (s : State) (b : Nat) (a : Nat) :
    Frame [.bench] s (State.goTo s b a) := by
  unfold State.goTo
  try dsimp only
  repeat' (first
    | with_reducible apply Frame.refl
    | with_reducible assumption
    | with_reducible apply Frame.ite
    | with_reducible apply Frame.then_ ?_ (State.setBench_frame ..)
    | decide
    | dsimp only
    | split)

theorem execBeat_frame (i : Issue) (c : CtlSlot) (s : State) :
    Frames [.csr, .pwr, .haul, .sch, .gen, .bench, .flt, .rrc, .obs, .sent, .fresh] s (execBeat i c s) := by
  unfold execBeat
  try dsimp only
  repeat' (first
    | with_reducible apply Frame.refl
    | with_reducible assumption
    | with_reducible apply Frames.next
    | with_reducible apply Frames.fault
    | with_reducible apply Frames.refused
    | with_reducible apply Frame.ite
    | with_reducible apply Frames.ite
    | with_reducible apply State.operate_frame
    | with_reducible apply Frame.then_ ?_ (State.setBench_frame ..)
    | with_reducible apply Frame.then_ ?_ (State.waits_frame ..)
    | decide
    | intro y a b c hy
    | intro y a hy
    | intro y hy
    | dsimp only
    | split)

theorem execStep_frame (i : Issue) (c : CtlSlot) (s : State) :
    Frames [.csr, .pwr, .haul, .sch, .gen, .bench, .flt, .rrc, .obs, .sent, .fresh] s (execStep i c s) := by
  unfold execStep
  try dsimp only
  repeat' (first
    | with_reducible apply Frame.refl
    | with_reducible assumption
    | with_reducible apply Frames.next
    | with_reducible apply Frames.fault
    | with_reducible apply Frames.refused
    | with_reducible apply Frame.ite
    | with_reducible apply Frames.ite
    | with_reducible apply State.operate_frame
    | with_reducible apply Frame.then_ ?_ (State.waits_frame ..)
    | decide
    | intro y a b c hy
    | intro y a hy
    | intro y hy
    | dsimp only
    | split)

theorem execJump_frame (i : Issue) (c : CtlSlot) (s : State) :
    Frames [.csr, .pwr, .haul, .sch, .gen, .bench, .flt, .rrc, .obs, .sent, .fresh] s (execJump i c s) := by
  unfold execJump
  try dsimp only
  repeat' (first
    | with_reducible apply Frame.refl
    | with_reducible assumption
    | with_reducible apply Frames.next
    | with_reducible apply Frames.fault
    | with_reducible apply Frames.refused
    | with_reducible apply Frame.ite
    | with_reducible apply Frames.ite
    | with_reducible apply Frame.then_ ?_ (State.goTo_frame ..)
    | with_reducible apply State.operate_frame
    | decide
    | intro y a b c hy
    | intro y a hy
    | intro y hy
    | dsimp only
    | split)

theorem execLset_frame (i : Issue) (c : CtlSlot) (s : State) :
    Frames [.csr, .pwr, .haul, .sch, .gen, .bench, .flt, .rrc, .obs, .sent, .fresh] s (execLset i c s) := by
  unfold execLset
  try dsimp only
  repeat' (first
    | with_reducible apply Frame.refl
    | with_reducible assumption
    | with_reducible apply Frames.next
    | with_reducible apply Frames.fault
    | with_reducible apply Frames.refused
    | with_reducible apply Frame.ite
    | with_reducible apply Frames.ite
    | with_reducible apply State.operate_frame
    | with_reducible apply Frame.then_ ?_ (State.setBench_frame ..)
    | decide
    | intro y a b c hy
    | intro y a hy
    | intro y hy
    | dsimp only
    | split)

theorem execLoop_frame (i : Issue) (c : CtlSlot) (s : State) :
    Frames [.csr, .pwr, .haul, .sch, .gen, .bench, .flt, .rrc, .obs, .sent, .fresh] s (execLoop i c s) := by
  unfold execLoop
  try dsimp only
  repeat' (first
    | with_reducible apply Frame.refl
    | with_reducible assumption
    | with_reducible apply Frames.next
    | with_reducible apply Frames.fault
    | with_reducible apply Frames.refused
    | with_reducible apply Frame.ite
    | with_reducible apply Frames.ite
    | with_reducible apply Frame.then_ ?_ (State.goTo_frame ..)
    | with_reducible apply State.operate_frame
    | with_reducible apply Frame.then_ ?_ (State.setBench_frame ..)
    | decide
    | intro y a b c hy
    | intro y a hy
    | intro y hy
    | dsimp only
    | split)

theorem execCset_frame (i : Issue) (c : CtlSlot) (s : State) :
    Frames [.csr, .pwr, .haul, .sch, .gen, .bench, .flt, .rrc, .obs, .sent, .fresh] s (execCset i c s) := by
  unfold execCset
  try dsimp only
  repeat' (first
    | with_reducible apply Frame.refl
    | with_reducible assumption
    | with_reducible apply Frames.next
    | with_reducible apply Frames.fault
    | with_reducible apply Frames.refused
    | with_reducible apply Frame.ite
    | with_reducible apply Frames.ite
    | with_reducible apply State.operate_frame
    | with_reducible apply Frame.then_ ?_ (State.setCounter_frame ..)
    | decide
    | intro y a b c hy
    | intro y a hy
    | intro y hy
    | dsimp only
    | split)

theorem execWaitc_frame (i : Issue) (c : CtlSlot) (s : State) :
    Frames [.csr, .pwr, .clk, .haul, .sch, .gen, .bench, .flt, .rrc, .obs, .sent, .fresh] s (execWaitc i c s) := by
  unfold execWaitc
  try dsimp only
  repeat' (first
    | with_reducible apply Frame.refl
    | with_reducible assumption
    | with_reducible apply Frames.next
    | with_reducible apply Frames.fault
    | with_reducible apply Frames.refused
    | with_reducible apply Frame.ite
    | with_reducible apply Frames.ite
    | with_reducible apply Frame.then_ ?_ (State.lateBench_frame ..)
    | with_reducible apply State.operate_frame
    | with_reducible apply Frame.then_ ?_ (State.waits_frame ..)
    | decide
    | intro y a b c hy
    | intro y a hy
    | intro y hy
    | dsimp only
    | split)

theorem State.forkDecides_frame (s : State) (f : ForkPoint) (word : Nat) :
    Frame [.csr, .pwr, .haul, .sch, .frk, .flt, .rrc, .obs, .sent, .fresh] s (State.forkDecides s f word) := by
  unfold State.forkDecides
  try dsimp only
  repeat' (first
    | with_reducible apply Frame.refl
    | with_reducible assumption
    | with_reducible apply Frame.ite
    | with_reducible apply Frame.then_ ?_ (State.latchDecision_frame ..)
    | with_reducible apply Frame.then_ ?_ (State.stepFatal_frame ..)
    | with_reducible apply Frame.then_ ?_ (State.wr_frame ..)
    | decide
    | dsimp only
    | split)

theorem execFdec_frame (i : Issue) (c : CtlSlot) (s : State) :
    Frames [.csr, .pwr, .haul, .sch, .gen, .bench, .frk, .flt, .rrc, .obs, .sent, .fresh] s (execFdec i c s) := by
  unfold execFdec
  try dsimp only
  repeat' (first
    | with_reducible apply Frame.refl
    | with_reducible assumption
    | with_reducible apply Frames.next
    | with_reducible apply Frames.fault
    | with_reducible apply Frames.refused
    | with_reducible apply Frame.ite
    | with_reducible apply Frames.ite
    | with_reducible apply Frame.then_ ?_ (State.drawn_frame ..)
    | with_reducible apply Frame.then_ ?_ (State.forkDecides_frame ..)
    | with_reducible apply State.operate_frame
    | decide
    | intro y a b c hy
    | intro y a hy
    | intro y hy
    | dsimp only
    | split)

theorem State.catchUp_frame (s : State) (b : Nat) (a : Nat) :
    Frame [.bench] s (State.catchUp s b a) := by
  unfold State.catchUp
  try dsimp only
  repeat' (first
    | with_reducible apply Frame.refl
    | with_reducible assumption
    | with_reducible apply Frame.ite
    | with_reducible apply Frame.then_ ?_ (State.setBench_frame ..)
    | decide
    | dsimp only
    | split)

theorem execFork_frame (i : Issue) (c : CtlSlot) (s : State) :
    Frames [.csr, .pwr, .haul, .sch, .gen, .bench, .flt, .rrc, .obs, .sent, .fresh] s (execFork i c s) := by
  unfold execFork
  try dsimp only
  repeat' (first
    | with_reducible apply Frame.refl
    | with_reducible assumption
    | with_reducible apply Frames.next
    | with_reducible apply Frames.fault
    | with_reducible apply Frames.refused
    | with_reducible apply Frame.ite
    | with_reducible apply Frames.ite
    | with_reducible apply Frame.then_ ?_ (State.catchUp_frame ..)
    | with_reducible apply State.operate_frame
    | with_reducible apply Frame.then_ ?_ (State.waits_frame ..)
    | decide
    | intro y a b c hy
    | intro y a hy
    | intro y hy
    | dsimp only
    | split)

theorem execBkfl_frame (i : Issue) (c : CtlSlot) (s : State) :
    Frames [.csr, .pwr, .haul, .sch, .gen, .bench, .flt, .rrc, .obs, .sent, .fresh] s (execBkfl i c s) := by
  unfold execBkfl
  try dsimp only
  repeat' (first
    | with_reducible apply Frame.refl
    | with_reducible assumption
    | with_reducible apply Frames.next
    | with_reducible apply Frames.fault
    | with_reducible apply Frames.refused
    | with_reducible apply Frame.ite
    | with_reducible apply Frames.ite
    | with_reducible apply Frame.then_ ?_ (State.backfillStarts_frame ..)
    | with_reducible apply State.operate_frame
    | with_reducible apply Frame.then_ ?_ (State.resume_frame ..)
    | with_reducible apply Frame.then_ ?_ (State.setBench_frame ..)
    | with_reducible apply Frame.then_ ?_ (State.waits_frame ..)
    | decide
    | intro y a b c hy
    | intro y a hy
    | intro y hy
    | dsimp only
    | split)

theorem State.tagSlot_frame (s : State) (e : IntakeEntry) (r : IntakeRun) (window : Nat) (slot : Nat) (bytes : List
      Byte) :
    Frame [.csr, .haul, .itk, .twn, .sent] s (State.tagSlot s e r window slot bytes) := by
  unfold State.tagSlot
  try dsimp only
  repeat' (first
    | with_reducible apply Frame.refl
    | with_reducible assumption
    | with_reducible apply Frame.ite
    | with_reducible apply Frame.then_ ?_ (State.count_frame ..)
    | with_reducible apply Frame.then_ ?_ (State.setRun_frame ..)
    | with_reducible apply Frame.then_ ?_ (State.shipTags_frame ..)
    | (with_reducible apply Frame.then_ ?_ (Frame.of_eq (State.shipTags_frame ..) (by assumption)))
    | decide
    | dsimp only
    | split)

theorem execTagr_frame (i : Issue) (c : CtlSlot) (t : TagInput) (ecc : Ecc) (s : State) :
Frames [.csr, .mem, .pwr, .haul, .sch, .gen, .wgt, .bench, .scr, .itk, .twn, .flt, .rrc, .obs, .sent, .fresh] s
      (execTagr i c t ecc s) := by
  unfold execTagr
  try dsimp only
  repeat' (first
    | with_reducible apply Frame.refl
    | with_reducible assumption
    | with_reducible apply Frames.next
    | with_reducible apply Frames.fault
    | with_reducible apply Frames.refused
    | with_reducible apply Frame.ite
    | with_reducible apply Frames.ite
    | with_reducible apply Frame.then_ ?_ (State.count_frame ..)
    | with_reducible apply State.operate_frame
    | with_reducible apply Frame.then_ ?_ (State.readSpans_frame ..)
    | (with_reducible apply Frame.then_ ?_ (Frame.of_eq (State.readSpans_frame ..) (by assumption)))
    | with_reducible apply State.reading_frame
    | with_reducible apply Frame.then_ ?_ (State.tagRoom_frame ..)
    | with_reducible apply Frame.then_ ?_ (State.tagSlot_frame ..)
    | decide
    | intro y a b c hy
    | intro y a hy
    | intro y hy
    | dsimp only
    | split
    | (fail_if_no_progress simp only [Frame.mk_eq]; refine Frame.upd ?_))

end Sys2Proof.Machine
end

