-- ==== Sys2Proof/Laws/FrameErrors.lean ====
section
/-! SUPPORT. One frame lemma for every operation of Machine/Errors.lean: the parts of the state that it may change. -/

set_option Elab.async false
set_option linter.unusedTactic false
set_option linter.unreachableTactic false

namespace Sys2Proof.Machine

open Sys2Proof

theorem State.ackRecord_frame (s : State) (seq : Nat) :
    Frame [.csr, .flt] s (State.ackRecord s seq) := by
  unfold State.ackRecord
  try dsimp only
  repeat' (first
    | with_reducible apply Frame.refl
    | with_reducible assumption
    | with_reducible apply Frame.ite
    | with_reducible apply Frame.then_ ?_ (State.inc_frame ..)
    | with_reducible apply Frame.then_ ?_ (State.promote_frame ..)
    | decide
    | dsimp only
    | split)

theorem execFltAck_frame (seq : Fin 65536) (s : State) :
    Frames [.csr, .flt] s (execFltAck seq s) := by
  unfold execFltAck
  extract_lets v0 v1 v2 v3
  have h_v0 : Frame [.csr, .flt] s v0 := by
    simp only [v0]
    repeat' (first
      | with_reducible apply Frame.refl
      | with_reducible assumption
      | with_reducible apply Frames.next
      | with_reducible apply Frames.fault
      | with_reducible apply Frames.refused
      | with_reducible apply Frame.ite
      | with_reducible apply Frames.ite
      | with_reducible apply Frame.then_ ?_ (State.ackRecord_frame ..)
      | with_reducible apply Frame.then_ ?_ (State.placeTick_frame ..)
      | with_reducible apply Frame.then_ ?_ (State.toBase_frame ..)
      | with_reducible apply Frame.then_ ?_ (State.wr_frame ..)
      | decide
      | dsimp only
      | split)
  clear_value v0
  clear_value v1
  have h_v2 : Frame [.csr, .flt] s v2 := by
    simp only [v2]
    repeat' (first
      | with_reducible apply Frame.refl
      | with_reducible assumption
      | with_reducible apply Frames.next
      | with_reducible apply Frames.fault
      | with_reducible apply Frames.refused
      | with_reducible apply Frame.ite
      | with_reducible apply Frames.ite
      | with_reducible apply Frame.then_ ?_ (State.ackRecord_frame ..)
      | with_reducible apply Frame.then_ ?_ (State.placeTick_frame ..)
      | with_reducible apply Frame.then_ ?_ (State.toBase_frame ..)
      | with_reducible apply Frame.then_ ?_ (State.wr_frame ..)
      | decide
      | dsimp only
      | split)
  clear_value v2
  clear_value v3
  repeat' (first
    | with_reducible apply Frame.refl
    | with_reducible assumption
    | with_reducible apply Frames.next
    | with_reducible apply Frames.fault
    | with_reducible apply Frames.refused
    | with_reducible apply Frame.ite
    | with_reducible apply Frames.ite
    | with_reducible apply Frame.then_ ?_ (State.ackRecord_frame ..)
    | with_reducible apply Frame.then_ ?_ (State.placeTick_frame ..)
    | with_reducible apply Frame.then_ ?_ (State.toBase_frame ..)
    | with_reducible apply Frame.then_ ?_ (State.wr_frame ..)
    | decide
    | dsimp only
    | split)

theorem execFltRelease_frame (s : State) :
    Frames [.csr] s (execFltRelease s) := by
  unfold execFltRelease
  try dsimp only
  repeat' (first
    | with_reducible apply Frame.refl
    | with_reducible assumption
    | with_reducible apply Frames.next
    | with_reducible apply Frames.fault
    | with_reducible apply Frames.refused
    | with_reducible apply Frame.ite
    | with_reducible apply Frames.ite
    | with_reducible apply Frame.then_ ?_ (State.wr_frame ..)
    | decide
    | dsimp only
    | split)

theorem execForemanFaulted_frame (foreman : Fin 6) (s : State) :
Frames [.csr, .staged, .mem, .pwr, .clk, .tal, .ptp, .haul, .sch, .pln, .top, .olc, .gen, .wgt, .bench, .frk, .scr,
      .itk, .clocks, .twn, .fst, .flt, .rrc, .obs, .sent, .fresh] s (execForemanFaulted foreman s) := by
  unfold execForemanFaulted
  try dsimp only
  repeat' (first
    | with_reducible apply Frame.refl
    | with_reducible assumption
    | with_reducible apply Frames.next
    | with_reducible apply Frames.fault
    | with_reducible apply Frames.refused
    | with_reducible apply Frame.ite
    | with_reducible apply Frames.ite
    | with_reducible apply Frame.then_ ?_ (State.moduleFatal_frame ..)
    | with_reducible apply Frame.then_ ?_ (State.wrAt_frame ..)
    | decide
    | dsimp only
    | split)

theorem execDieRailOutOfRegulation_frame (s : State) :
Frames [.csr, .staged, .mem, .pwr, .clk, .tal, .ptp, .haul, .sch, .pln, .top, .olc, .gen, .wgt, .bench, .frk, .scr,
      .itk, .clocks, .twn, .fst, .flt, .rrc, .obs, .sent, .fresh] s (execDieRailOutOfRegulation s) := by
  unfold execDieRailOutOfRegulation
  try dsimp only
  repeat' (first
    | with_reducible apply Frame.refl
    | with_reducible assumption
    | with_reducible apply Frames.next
    | with_reducible apply Frames.fault
    | with_reducible apply Frames.refused
    | with_reducible apply Frame.ite
    | with_reducible apply Frames.ite
    | with_reducible apply Frame.then_ ?_ (State.moduleFatal_frame ..)
    | decide
    | dsimp only
    | split)

theorem execTallyParityError_frame (s : State) :
Frames [.csr, .staged, .mem, .pwr, .clk, .tal, .ptp, .haul, .sch, .pln, .top, .olc, .gen, .wgt, .bench, .frk, .scr,
      .itk, .clocks, .twn, .fst, .flt, .rrc, .obs, .sent, .fresh] s (execTallyParityError s) := by
  unfold execTallyParityError
  try dsimp only
  repeat' (first
    | with_reducible apply Frame.refl
    | with_reducible assumption
    | with_reducible apply Frames.next
    | with_reducible apply Frames.fault
    | with_reducible apply Frames.refused
    | with_reducible apply Frame.ite
    | with_reducible apply Frames.ite
    | with_reducible apply Frame.then_ ?_ (State.moduleFatal_frame ..)
    | decide
    | dsimp only
    | split)

theorem execCsrSpineUncorrectable_frame (source : Fin 24) (s : State) :
Frames [.csr, .staged, .mem, .pwr, .clk, .tal, .ptp, .haul, .sch, .pln, .top, .olc, .gen, .wgt, .bench, .frk, .scr,
      .itk, .clocks, .twn, .fst, .flt, .rrc, .obs, .sent, .fresh] s (execCsrSpineUncorrectable source s) := by
  unfold execCsrSpineUncorrectable
  try dsimp only
  repeat' (first
    | with_reducible apply Frame.refl
    | with_reducible assumption
    | with_reducible apply Frames.next
    | with_reducible apply Frames.fault
    | with_reducible apply Frames.refused
    | with_reducible apply Frame.ite
    | with_reducible apply Frames.ite
    | with_reducible apply Frame.then_ ?_ (State.moduleFatal_frame ..)
    | decide
    | dsimp only
    | split)

theorem execRrcSpillTimer_frame (s : State) :
    Frames [.csr, .pwr] s (execRrcSpillTimer s) := by
  unfold execRrcSpillTimer
  try dsimp only
  repeat' (first
    | with_reducible apply Frame.refl
    | with_reducible assumption
    | with_reducible apply Frames.next
    | with_reducible apply Frames.fault
    | with_reducible apply Frames.refused
    | with_reducible apply Frame.ite
    | with_reducible apply Frames.ite
    | with_reducible apply Frame.then_ ?_ (State.startSpill_frame ..)
    | decide
    | dsimp only
    | split)

theorem execRrcSpillNow_frame (s : State) :
    Frames [.csr, .pwr] s (execRrcSpillNow s) := by
  unfold execRrcSpillNow
  try dsimp only
  repeat' (first
    | with_reducible apply Frame.refl
    | with_reducible assumption
    | with_reducible apply Frames.next
    | with_reducible apply Frames.fault
    | with_reducible apply Frames.refused
    | with_reducible apply Frame.ite
    | with_reducible apply Frames.ite
    | with_reducible apply Frame.then_ ?_ (State.startSpill_frame ..)
    | decide
    | dsimp only
    | split)

theorem execRrcRelease_frame (s : State) :
    Frames [.csr, .rrc] s (execRrcRelease s) := by
  unfold execRrcRelease
  try dsimp only
  repeat' (first
    | with_reducible apply Frame.refl
    | with_reducible assumption
    | with_reducible apply Frames.next
    | with_reducible apply Frames.fault
    | with_reducible apply Frames.refused
    | with_reducible apply Frame.ite
    | with_reducible apply Frames.ite
    | with_reducible apply Frame.then_ ?_ (State.wr_frame ..)
    | decide
    | dsimp only
    | split
    | (fail_if_no_progress simp only [Frame.mk_eq]; refine Frame.upd ?_))

theorem execTraceArm_frame (s : State) :
    Frames [.csr, .obs] s (execTraceArm s) := by
  unfold execTraceArm
  try dsimp only
  repeat' (first
    | with_reducible apply Frame.refl
    | with_reducible assumption
    | with_reducible apply Frames.next
    | with_reducible apply Frames.fault
    | with_reducible apply Frames.refused
    | with_reducible apply Frame.ite
    | with_reducible apply Frames.ite
    | with_reducible apply Frame.then_ ?_ (State.wr_frame ..)
    | decide
    | dsimp only
    | split
    | (fail_if_no_progress simp only [Frame.mk_eq]; refine Frame.upd ?_))

theorem execTraceStart_frame (s : State) :
    Frames [.csr, .obs] s (execTraceStart s) := by
  unfold execTraceStart
  try dsimp only
  repeat' (first
    | with_reducible apply Frame.refl
    | with_reducible assumption
    | with_reducible apply Frames.next
    | with_reducible apply Frames.fault
    | with_reducible apply Frames.refused
    | with_reducible apply Frame.ite
    | with_reducible apply Frames.ite
    | with_reducible apply Frame.then_ ?_ (State.wr_frame ..)
    | decide
    | dsimp only
    | split
    | (fail_if_no_progress simp only [Frame.mk_eq]; refine Frame.upd ?_))

theorem execTraceStop_frame (s : State) :
    Frames [.csr] s (execTraceStop s) := by
  unfold execTraceStop
  try dsimp only
  repeat' (first
    | with_reducible apply Frame.refl
    | with_reducible assumption
    | with_reducible apply Frames.next
    | with_reducible apply Frames.fault
    | with_reducible apply Frames.refused
    | with_reducible apply Frame.ite
    | with_reducible apply Frames.ite
    | with_reducible apply Frame.then_ ?_ (State.wr_frame ..)
    | decide
    | dsimp only
    | split)

theorem execStopNow_frame (s : State) :
    Frames [.csr] s (execStopNow s) := by
  unfold execStopNow
  try dsimp only
  repeat' (first
    | with_reducible apply Frame.refl
    | with_reducible assumption
    | with_reducible apply Frames.next
    | with_reducible apply Frames.fault
    | with_reducible apply Frames.refused
    | with_reducible apply Frame.ite
    | with_reducible apply Frames.ite
    | with_reducible apply Frame.then_ ?_ (State.wr_frame ..)
    | decide
    | dsimp only
    | split)

theorem State.snapshot_frame (s : State) :
    Frame [.csr, .obs, .fresh] s (State.snapshot s) := by
  unfold State.snapshot
  dsimp only
  refine Frame.then_ (Q := [.fresh]) ?_ (State.drawn_frame _) (by decide)
  refine Frame.then_ (Q := [.csr]) ?_ (State.wr_frame ..) (by decide)
  simp only [Frame.mk_eq]
  refine Frame.upd (.refl _ s) (hc := fun h => ?_)
  have hs := (Tab.sorted_iff _).1 h
  refine (Tab.sorted_iff _).2 ?_
  rw [List.pairwise_append, List.pairwise_append]
  have a1 : R.OBS_CNT_COUNT.addr = 0x1a10000 := rfl
  have a2 : R.OBS_SNAP_CNT_COUNT.addr = 0x1a20000 := rfl
  refine ⟨hs.filter _, ⟨?_, hs.filter _, ?_⟩, ?_⟩
  · rw [List.pairwise_map]
    exact (hs.filter _).imp (fun h => by simpa using h)
  · intro x hx y hy
    simp only [List.mem_map, List.mem_filter, inArray, Bool.and_eq_true, decide_eq_true_eq] at hx hy
    obtain ⟨z, hz, rfl⟩ := hx
    simp only [a1, a2] at hz hy ⊢
    omega
  · intro x hx y hy
    simp only [List.mem_append, List.mem_map, List.mem_filter, inArray, Bool.and_eq_true, decide_eq_true_eq] at hx hy
    rcases hy with ⟨z, hz, rfl⟩ | hy
    · simp only [a1, a2] at hz hx ⊢
      omega
    · simp only [a2] at hx hy
      omega

theorem execSnapArm_frame (s : State) :
    Frames [.obs] s (execSnapArm s) := by
  unfold execSnapArm
  try dsimp only
  repeat' (first
    | with_reducible apply Frame.refl
    | with_reducible assumption
    | with_reducible apply Frames.next
    | with_reducible apply Frames.fault
    | with_reducible apply Frames.refused
    | with_reducible apply Frame.ite
    | with_reducible apply Frames.ite
    | decide
    | dsimp only
    | split
    | (fail_if_no_progress simp only [Frame.mk_eq]; refine Frame.upd ?_))

theorem execSnapNow_frame (s : State) :
    Frames [.csr, .obs, .fresh] s (execSnapNow s) := by
  unfold execSnapNow
  try dsimp only
  repeat' (first
    | with_reducible apply Frame.refl
    | with_reducible assumption
    | with_reducible apply Frames.next
    | with_reducible apply Frames.fault
    | with_reducible apply Frames.refused
    | with_reducible apply Frame.ite
    | with_reducible apply Frames.ite
    | with_reducible apply Frame.then_ ?_ (State.snapshot_frame ..)
    | decide
    | dsimp only
    | split)

theorem execSnapshot_frame (s : State) :
    Frames [.csr, .obs, .fresh] s (execSnapshot s) := by
  unfold execSnapshot
  try dsimp only
  repeat' (first
    | with_reducible apply Frame.refl
    | with_reducible assumption
    | with_reducible apply Frames.next
    | with_reducible apply Frames.fault
    | with_reducible apply Frames.refused
    | with_reducible apply Frame.ite
    | with_reducible apply Frames.ite
    | with_reducible apply Frame.then_ ?_ (State.snapshot_frame ..)
    | decide
    | dsimp only
    | split
    | (fail_if_no_progress simp only [Frame.mk_eq]; refine Frame.upd ?_))

end Sys2Proof.Machine
end

