-- ==== Sys2Proof/Laws/FrameStage.lean ====
section
/-! SUPPORT. One frame lemma for every operation of Machine/Stage.lean: the parts of the state that it may change. -/

set_option Elab.async false
set_option linter.unusedTactic false
set_option linter.unreachableTactic false

namespace Sys2Proof.Machine

open Sys2Proof

theorem State.countBadSignature_frame (s : State) (code : Nat) :
    Frame [.csr] s (State.countBadSignature s code) := by
  unfold State.countBadSignature
  try dsimp only
  repeat' (first
    | with_reducible apply Frame.refl
    | with_reducible assumption
    | with_reducible apply Frame.ite
    | with_reducible apply Frame.then_ ?_ (State.inc_frame ..)
    | decide
    | dsimp only
    | split)

theorem State.planRefused_frame (s : State) :
    Frame [.csr] s (State.planRefused s) := by
  unfold State.planRefused
  try dsimp only
  repeat' (first
    | with_reducible apply Frame.refl
    | with_reducible assumption
    | with_reducible apply Frame.ite
    | with_reducible apply Frame.then_ ?_ (State.wr_frame ..)
    | decide
    | dsimp only
    | split)

theorem State.planRefusedWith_frame (s : State) (code : Nat) :
    Frame [.csr] s (State.planRefusedWith s code) := by
  unfold State.planRefusedWith
  try dsimp only
  repeat' (first
    | with_reducible apply Frame.refl
    | with_reducible assumption
    | with_reducible apply Frame.ite
    | with_reducible apply Frame.then_ ?_ (State.planRefused_frame ..)
    | with_reducible apply Frame.then_ ?_ (State.wr_frame ..)
    | decide
    | dsimp only
    | split)

theorem execPlnVerify_frame (s : State) :
    Frames [.csr, .pln] s (execPlnVerify s) := by
  unfold execPlnVerify
  try dsimp only
  repeat' (first
    | with_reducible apply Frame.refl
    | with_reducible assumption
    | with_reducible apply Frames.next
    | with_reducible apply Frames.fault
    | with_reducible apply Frames.refused
    | with_reducible apply Frame.ite
    | with_reducible apply Frames.ite
    | with_reducible apply Frame.then_ ?_ (State.planRefused_frame ..)
    | with_reducible apply Frame.then_ ?_ (State.showBindings_frame ..)
    | with_reducible apply Frame.then_ ?_ (State.wr_frame ..)
    | decide
    | dsimp only
    | split
    | (fail_if_no_progress simp only [Frame.mk_eq]; refine Frame.upd ?_))

theorem execVerifyComplete_frame (reading : PlanReading) (verdict : Fin 15) (sect : Nat) (offset : Nat) (s : State)
      :
    Frames [.csr, .pwr, .pln, .rrc, .obs, .fresh] s (execVerifyComplete reading verdict sect offset s) := by
  unfold execVerifyComplete
  try dsimp only
  repeat' (first
    | with_reducible apply Frame.refl
    | with_reducible assumption
    | with_reducible apply Frames.next
    | with_reducible apply Frames.fault
    | with_reducible apply Frames.refused
    | with_reducible apply Frame.ite
    | with_reducible apply Frames.ite
    | with_reducible apply Frame.then_ ?_ (State.countBadSignature_frame ..)
    | with_reducible apply Frame.then_ ?_ (State.notice_frame ..)
    | with_reducible apply Frame.then_ ?_ (State.showBindings_frame ..)
    | with_reducible apply Frame.then_ ?_ (State.wr_frame ..)
    | decide
    | dsimp only
    | split
    | (fail_if_no_progress simp only [Frame.mk_eq]; refine Frame.upd ?_))

theorem execPlnDiscard_frame (s : State) :
    Frames [.csr, .pln] s (execPlnDiscard s) := by
  unfold execPlnDiscard
  try dsimp only
  repeat' (first
    | with_reducible apply Frame.refl
    | with_reducible assumption
    | with_reducible apply Frames.next
    | with_reducible apply Frames.fault
    | with_reducible apply Frames.refused
    | with_reducible apply Frame.ite
    | with_reducible apply Frames.ite
    | with_reducible apply Frame.then_ ?_ (State.planRefused_frame ..)
    | with_reducible apply Frame.then_ ?_ (State.showBindings_frame ..)
    | with_reducible apply Frame.then_ ?_ (State.wr_frame ..)
    | decide
    | dsimp only
    | split
    | (fail_if_no_progress simp only [Frame.mk_eq]; refine Frame.upd ?_))

end Sys2Proof.Machine
end

