-- ==== Sys2Proof/Laws/FramePlan.lean ====
section
/-! SUPPORT. One frame lemma for every operation of Machine/Plan.lean: the parts of the state that it may change. -/

set_option Elab.async false
set_option linter.unusedTactic false
set_option linter.unreachableTactic false

namespace Sys2Proof.Machine

open Sys2Proof

theorem execPlnArm_frame (twinFault : Bool) (s : State) :
Frames [.csr, .pwr, .haul, .sch, .pln, .top, .olc, .gen, .wgt, .bench, .flt, .rrc, .obs, .sent, .fresh] s
      (execPlnArm twinFault s) := by
  unfold execPlnArm
  try dsimp only
  repeat' (first
    | with_reducible apply Frame.refl
    | with_reducible assumption
    | with_reducible apply Frames.next
    | with_reducible apply Frames.fault
    | with_reducible apply Frames.refused
    | with_reducible apply Frame.ite
    | with_reducible apply Frames.ite
    | with_reducible apply State.armChange_frame
    | with_reducible apply Frame.then_ ?_ (State.planRefusedWith_frame ..)
    | with_reducible apply Frame.then_ ?_ (State.showAct_frame ..)
    | with_reducible apply Frame.then_ ?_ (State.startExit_frame ..)
    | decide
    | intro y a b c hy
    | intro y a hy
    | intro y hy
    | dsimp only
    | split
    | (fail_if_no_progress simp only [Frame.mk_eq]; refine Frame.upd ?_))

theorem execPlnDisarm_frame (s : State) :
    Frames [.csr, .pln, .olc] s (execPlnDisarm s) := by
  unfold execPlnDisarm
  try dsimp only
  repeat' (first
    | with_reducible apply Frame.refl
    | with_reducible assumption
    | with_reducible apply Frames.next
    | with_reducible apply Frames.fault
    | with_reducible apply Frames.refused
    | with_reducible apply Frame.ite
    | with_reducible apply Frames.ite
    | with_reducible apply Frame.then_ ?_ (State.dropChange_frame ..)
    | with_reducible apply Frame.then_ ?_ (State.showAct_frame ..)
    | with_reducible apply Frame.then_ ?_ (State.wr_frame ..)
    | decide
    | dsimp only
    | split
    | (fail_if_no_progress simp only [Frame.mk_eq]; refine Frame.upd ?_))

theorem State.loadSpare_frame (s : State) (b : Nat) (l : Nat) :
    Frame [.csr, .gen] s (State.loadSpare s b l) := by
  unfold State.loadSpare
  try dsimp only
  repeat' (first
    | with_reducible apply Frame.refl
    | with_reducible assumption
    | with_reducible apply Frame.ite
    | with_reducible apply Frame.then_ ?_ (State.inc_frame ..)
    | with_reducible apply Frame.then_ ?_ (State.wr_frame ..)
    | decide
    | dsimp only
    | split
    | (fail_if_no_progress simp only [Frame.mk_eq]; refine Frame.upd ?_))

theorem State.loadBenches_frame (s : State) (p : Plan) :
    Frame [.csr, .mem, .gen, .bench] s (State.loadBenches s p) := by
  unfold State.loadBenches
  try dsimp only
  repeat' (first
    | with_reducible apply Frame.refl
    | with_reducible assumption
    | with_reducible apply Frame.ite
    | with_reducible apply Frame.then_ ?_ (State.loadBench_frame ..)
    | with_reducible apply Frame.then_ ?_ (State.loadSpare_frame ..)
    | with_reducible apply Frame.then_ ?_ (State.showSubst_frame ..)
    | decide
    | with_reducible apply Frame.foldl_fst
    | with_reducible apply Frame.foldl
    | intro y a b c hy
    | intro y a hy
    | intro y hy
    | dsimp only
    | split)

theorem State.loadFork_frame (s : State) (f : ForkPoint) :
    Frame [.csr] s (State.loadFork s f) := by
  unfold State.loadFork
  extract_lets v0 v1 v2 v3 v4
  clear_value v0
  have h_v1 : Frame [.csr] s v1 := by
    simp only [v1]
    repeat' (first
      | with_reducible apply Frame.refl
      | with_reducible assumption
      | with_reducible apply Frame.ite
      | with_reducible apply Frame.then_ ?_ (State.wrAt_frame ..)
      | decide
      | dsimp only
      | split)
  clear_value v1
  have h_v2 : Frame [.csr] s v2 := by
    simp only [v2]
    repeat' (first
      | with_reducible apply Frame.refl
      | with_reducible assumption
      | with_reducible apply Frame.ite
      | with_reducible apply Frame.then_ ?_ (State.wrAt_frame ..)
      | decide
      | dsimp only
      | split)
  clear_value v2
  have h_v3 : Frame [.csr] s v3 := by
    simp only [v3]
    repeat' (first
      | with_reducible apply Frame.refl
      | with_reducible assumption
      | with_reducible apply Frame.ite
      | with_reducible apply Frame.then_ ?_ (State.wrAt_frame ..)
      | decide
      | dsimp only
      | split)
  clear_value v3
  have h_v4 : Frame [.csr] s v4 := by
    simp only [v4]
    repeat' (first
      | with_reducible apply Frame.refl
      | with_reducible assumption
      | with_reducible apply Frame.ite
      | with_reducible apply Frame.then_ ?_ (State.wrAt_frame ..)
      | decide
      | dsimp only
      | split)
  clear_value v4
  repeat' (first
    | with_reducible apply Frame.refl
    | with_reducible assumption
    | with_reducible apply Frame.ite
    | with_reducible apply Frame.then_ ?_ (State.wrAt_frame ..)
    | decide
    | dsimp only
    | split)

theorem execLoadPhaseStart_frame (s : State) :
    Frames [.csr, .mem, .sch, .pln, .olc, .gen, .bench] s (execLoadPhaseStart s) := by
  unfold execLoadPhaseStart
  try dsimp only
  repeat' (first
    | with_reducible apply Frame.refl
    | with_reducible assumption
    | with_reducible apply Frames.next
    | with_reducible apply Frames.fault
    | with_reducible apply Frames.refused
    | with_reducible apply Frame.ite
    | with_reducible apply Frames.ite
    | with_reducible apply Frame.then_ ?_ (State.loadBenches_frame ..)
    | with_reducible apply Frame.then_ ?_ (State.setJob_frame ..)
    | with_reducible apply Frame.then_ ?_ (State.showAct_frame ..)
    | with_reducible apply Frame.then_ ?_ (State.showEntries_frame ..)
    | with_reducible apply Frame.then_ ?_ (State.tookEffect_frame ..)
    | with_reducible apply Frame.then_ ?_ (State.wrAt_frame ..)
    | decide
    | with_reducible apply Frame.foldl_fst
    | with_reducible apply Frame.foldl
    | intro y a b c hy
    | intro y a hy
    | intro y hy
    | dsimp only
    | split
    | (fail_if_no_progress simp only [Frame.mk_eq]; refine Frame.upd ?_))

theorem State.showIntake_frame (s : State) (p : Plan) (e : IntakeEntry) :
    Frame [.csr] s (State.showIntake s p e) := by
  unfold State.showIntake
  extract_lets v0 v1 v2 v3
  clear_value v0
  have h_v1 : Frame [.csr] s v1 := by
    simp only [v1]
    repeat' (first
      | with_reducible apply Frame.refl
      | with_reducible assumption
      | with_reducible apply Frame.ite
      | with_reducible apply Frame.then_ ?_ (State.wrAt_frame ..)
      | decide
      | dsimp only
      | split)
  clear_value v1
  have h_v2 : Frame [.csr] s v2 := by
    simp only [v2]
    repeat' (first
      | with_reducible apply Frame.refl
      | with_reducible assumption
      | with_reducible apply Frame.ite
      | with_reducible apply Frame.then_ ?_ (State.wrAt_frame ..)
      | decide
      | dsimp only
      | split)
  clear_value v2
  have h_v3 : Frame [.csr] s v3 := by
    simp only [v3]
    repeat' (first
      | with_reducible apply Frame.refl
      | with_reducible assumption
      | with_reducible apply Frame.ite
      | with_reducible apply Frame.then_ ?_ (State.wrAt_frame ..)
      | decide
      | dsimp only
      | split)
  clear_value v3
  repeat' (first
    | with_reducible apply Frame.refl
    | with_reducible assumption
    | with_reducible apply Frame.ite
    | with_reducible apply Frame.then_ ?_ (State.wrAt_frame ..)
    | decide
    | dsimp only
    | split)

theorem State.showPlan_frame (s : State) (p : Plan) :
    Frame [.csr] s (State.showPlan s p) := by
  unfold State.showPlan
  extract_lets v0 v1 v2 v3 v4 v5 v6 v7 v8 v9 v10 v11
  clear_value v0
  have h_v1 : Frame [.csr] s v1 := by
    simp only [v1]
    repeat' (first
      | with_reducible apply Frame.refl
      | with_reducible assumption
      | with_reducible apply Frame.ite
      | with_reducible apply Frame.then_ ?_ (State.loadFork_frame ..)
      | with_reducible apply Frame.then_ ?_ (State.showBenches_frame ..)
      | with_reducible apply Frame.then_ ?_ (State.showIntake_frame ..)
      | with_reducible apply Frame.then_ ?_ (State.wr_frame ..)
      | with_reducible apply Frame.then_ ?_ (State.wrAt_frame ..)
      | decide
      | with_reducible apply Frame.foldl_fst
      | with_reducible apply Frame.foldl
      | intro y a b c hy
      | intro y a hy
      | intro y hy
      | dsimp only
      | split)
  clear_value v1
  have h_v2 : Frame [.csr] s v2 := by
    simp only [v2]
    repeat' (first
      | with_reducible apply Frame.refl
      | with_reducible assumption
      | with_reducible apply Frame.ite
      | with_reducible apply Frame.then_ ?_ (State.loadFork_frame ..)
      | with_reducible apply Frame.then_ ?_ (State.showBenches_frame ..)
      | with_reducible apply Frame.then_ ?_ (State.showIntake_frame ..)
      | with_reducible apply Frame.then_ ?_ (State.wr_frame ..)
      | with_reducible apply Frame.then_ ?_ (State.wrAt_frame ..)
      | decide
      | with_reducible apply Frame.foldl_fst
      | with_reducible apply Frame.foldl
      | intro y a b c hy
      | intro y a hy
      | intro y hy
      | dsimp only
      | split)
  clear_value v2
  have h_v3 : Frame [.csr] s v3 := by
    simp only [v3]
    repeat' (first
      | with_reducible apply Frame.refl
      | with_reducible assumption
      | with_reducible apply Frame.ite
      | with_reducible apply Frame.then_ ?_ (State.loadFork_frame ..)
      | with_reducible apply Frame.then_ ?_ (State.showBenches_frame ..)
      | with_reducible apply Frame.then_ ?_ (State.showIntake_frame ..)
      | with_reducible apply Frame.then_ ?_ (State.wr_frame ..)
      | with_reducible apply Frame.then_ ?_ (State.wrAt_frame ..)
      | decide
      | with_reducible apply Frame.foldl_fst
      | with_reducible apply Frame.foldl
      | intro y a b c hy
      | intro y a hy
      | intro y hy
      | dsimp only
      | split)
  clear_value v3
  have h_v4 : Frame [.csr] s v4 := by
    simp only [v4]
    repeat' (first
      | with_reducible apply Frame.refl
      | with_reducible assumption
      | with_reducible apply Frame.ite
      | with_reducible apply Frame.then_ ?_ (State.loadFork_frame ..)
      | with_reducible apply Frame.then_ ?_ (State.showBenches_frame ..)
      | with_reducible apply Frame.then_ ?_ (State.showIntake_frame ..)
      | with_reducible apply Frame.then_ ?_ (State.wr_frame ..)
      | with_reducible apply Frame.then_ ?_ (State.wrAt_frame ..)
      | decide
      | with_reducible apply Frame.foldl_fst
      | with_reducible apply Frame.foldl
      | intro y a b c hy
      | intro y a hy
      | intro y hy
      | dsimp only
      | split)
  clear_value v4
  have h_v5 : Frame [.csr] s v5 := by
    simp only [v5]
    repeat' (first
      | with_reducible apply Frame.refl
      | with_reducible assumption
      | with_reducible apply Frame.ite
      | with_reducible apply Frame.then_ ?_ (State.loadFork_frame ..)
      | with_reducible apply Frame.then_ ?_ (State.showBenches_frame ..)
      | with_reducible apply Frame.then_ ?_ (State.showIntake_frame ..)
      | with_reducible apply Frame.then_ ?_ (State.wr_frame ..)
      | with_reducible apply Frame.then_ ?_ (State.wrAt_frame ..)
      | decide
      | with_reducible apply Frame.foldl_fst
      | with_reducible apply Frame.foldl
      | intro y a b c hy
      | intro y a hy
      | intro y hy
      | dsimp only
      | split)
  clear_value v5
  have h_v6 : Frame [.csr] s v6 := by
    simp only [v6]
    repeat' (first
      | with_reducible apply Frame.refl
      | with_reducible assumption
      | with_reducible apply Frame.ite
      | with_reducible apply Frame.then_ ?_ (State.loadFork_frame ..)
      | with_reducible apply Frame.then_ ?_ (State.showBenches_frame ..)
      | with_reducible apply Frame.then_ ?_ (State.showIntake_frame ..)
      | with_reducible apply Frame.then_ ?_ (State.wr_frame ..)
      | with_reducible apply Frame.then_ ?_ (State.wrAt_frame ..)
      | decide
      | with_reducible apply Frame.foldl_fst
      | with_reducible apply Frame.foldl
      | intro y a b c hy
      | intro y a hy
      | intro y hy
      | dsimp only
      | split)
  clear_value v6
  have h_v7 : Frame [.csr] s v7 := by
    simp only [v7]
    repeat' (first
      | with_reducible apply Frame.refl
      | with_reducible assumption
      | with_reducible apply Frame.ite
      | with_reducible apply Frame.then_ ?_ (State.loadFork_frame ..)
      | with_reducible apply Frame.then_ ?_ (State.showBenches_frame ..)
      | with_reducible apply Frame.then_ ?_ (State.showIntake_frame ..)
      | with_reducible apply Frame.then_ ?_ (State.wr_frame ..)
      | with_reducible apply Frame.then_ ?_ (State.wrAt_frame ..)
      | decide
      | with_reducible apply Frame.foldl_fst
      | with_reducible apply Frame.foldl
      | intro y a b c hy
      | intro y a hy
      | intro y hy
      | dsimp only
      | split)
  clear_value v7
  have h_v8 : Frame [.csr] s v8 := by
    simp only [v8]
    repeat' (first
      | with_reducible apply Frame.refl
      | with_reducible assumption
      | with_reducible apply Frame.ite
      | with_reducible apply Frame.then_ ?_ (State.loadFork_frame ..)
      | with_reducible apply Frame.then_ ?_ (State.showBenches_frame ..)
      | with_reducible apply Frame.then_ ?_ (State.showIntake_frame ..)
      | with_reducible apply Frame.then_ ?_ (State.wr_frame ..)
      | with_reducible apply Frame.then_ ?_ (State.wrAt_frame ..)
      | decide
      | with_reducible apply Frame.foldl_fst
      | with_reducible apply Frame.foldl
      | intro y a b c hy
      | intro y a hy
      | intro y hy
      | dsimp only
      | split)
  clear_value v8
  have h_v9 : Frame [.csr] s v9 := by
    simp only [v9]
    repeat' (first
      | with_reducible apply Frame.refl
      | with_reducible assumption
      | with_reducible apply Frame.ite
      | with_reducible apply Frame.then_ ?_ (State.loadFork_frame ..)
      | with_reducible apply Frame.then_ ?_ (State.showBenches_frame ..)
      | with_reducible apply Frame.then_ ?_ (State.showIntake_frame ..)
      | with_reducible apply Frame.then_ ?_ (State.wr_frame ..)
      | with_reducible apply Frame.then_ ?_ (State.wrAt_frame ..)
      | decide
      | with_reducible apply Frame.foldl_fst
      | with_reducible apply Frame.foldl
      | intro y a b c hy
      | intro y a hy
      | intro y hy
      | dsimp only
      | split)
  clear_value v9
  have h_v10 : Frame [.csr] s v10 := by
    simp only [v10]
    repeat' (first
      | with_reducible apply Frame.refl
      | with_reducible assumption
      | with_reducible apply Frame.ite
      | with_reducible apply Frame.then_ ?_ (State.loadFork_frame ..)
      | with_reducible apply Frame.then_ ?_ (State.showBenches_frame ..)
      | with_reducible apply Frame.then_ ?_ (State.showIntake_frame ..)
      | with_reducible apply Frame.then_ ?_ (State.wr_frame ..)
      | with_reducible apply Frame.then_ ?_ (State.wrAt_frame ..)
      | decide
      | with_reducible apply Frame.foldl_fst
      | with_reducible apply Frame.foldl
      | intro y a b c hy
      | intro y a hy
      | intro y hy
      | dsimp only
      | split)
  clear_value v10
  have h_v11 : Frame [.csr] s v11 := by
    simp only [v11]
    repeat' (first
      | with_reducible apply Frame.refl
      | with_reducible assumption
      | with_reducible apply Frame.ite
      | with_reducible apply Frame.then_ ?_ (State.loadFork_frame ..)
      | with_reducible apply Frame.then_ ?_ (State.showBenches_frame ..)
      | with_reducible apply Frame.then_ ?_ (State.showIntake_frame ..)
      | with_reducible apply Frame.then_ ?_ (State.wr_frame ..)
      | with_reducible apply Frame.then_ ?_ (State.wrAt_frame ..)
      | decide
      | with_reducible apply Frame.foldl_fst
      | with_reducible apply Frame.foldl
      | intro y a b c hy
      | intro y a hy
      | intro y hy
      | dsimp only
      | split)
  clear_value v11
  repeat' (first
    | with_reducible apply Frame.refl
    | with_reducible assumption
    | with_reducible apply Frame.ite
    | with_reducible apply Frame.then_ ?_ (State.loadFork_frame ..)
    | with_reducible apply Frame.then_ ?_ (State.showBenches_frame ..)
    | with_reducible apply Frame.then_ ?_ (State.showIntake_frame ..)
    | with_reducible apply Frame.then_ ?_ (State.wr_frame ..)
    | with_reducible apply Frame.then_ ?_ (State.wrAt_frame ..)
    | decide
    | with_reducible apply Frame.foldl_fst
    | with_reducible apply Frame.foldl
    | intro y a b c hy
    | intro y a hy
    | intro y hy
    | dsimp only
    | split)

theorem State.showCtx_frame (s : State) (p : Plan) (x : PlanCtx) :
    Frame [.csr] s (State.showCtx s p x) := by
  unfold State.showCtx
  extract_lets v0 v1 v2 v3 v4
  clear_value v0
  clear_value v1
  clear_value v2
  have h_v3 : Frame [.csr] s v3 := by
    simp only [v3]
    repeat' (first
      | with_reducible apply Frame.refl
      | with_reducible assumption
      | with_reducible apply Frame.ite
      | with_reducible apply Frame.then_ ?_ (State.wrAt_frame ..)
      | decide
      | dsimp only
      | split)
  clear_value v3
  have h_v4 : Frame [.csr] s v4 := by
    simp only [v4]
    repeat' (first
      | with_reducible apply Frame.refl
      | with_reducible assumption
      | with_reducible apply Frame.ite
      | with_reducible apply Frame.then_ ?_ (State.wrAt_frame ..)
      | decide
      | dsimp only
      | split)
  clear_value v4
  repeat' (first
    | with_reducible apply Frame.refl
    | with_reducible assumption
    | with_reducible apply Frame.ite
    | with_reducible apply Frame.then_ ?_ (State.wrAt_frame ..)
    | decide
    | dsimp only
    | split)

theorem State.startCtx_frame (s : State) (p : Plan) (x : PlanCtx) :
    Frame [.csr, .pln, .wgt, .itk] s (State.startCtx s p x) := by
  unfold State.startCtx
  extract_lets v0 v1 v2 v3 v4 v5 v6 v7
  clear_value v0
  clear_value v1
  have h_v2 : Frame [.csr, .pln, .wgt, .itk] s v2 := by
    simp only [v2]
    repeat' (first
      | with_reducible apply Frame.refl
      | with_reducible assumption
      | with_reducible apply Frame.ite
      | with_reducible apply Frame.then_ ?_ (State.setCtx_frame ..)
      | with_reducible apply Frame.then_ ?_ (State.setRun_frame ..)
      | with_reducible apply Frame.then_ ?_ (State.setWctx_frame ..)
      | with_reducible apply Frame.then_ ?_ (State.showCtx_frame ..)
      | with_reducible apply Frame.then_ ?_ (State.wrAt_frame ..)
      | decide
      | dsimp only
      | split)
  clear_value v2
  clear_value v3
  have h_v4 : Frame [.csr, .pln, .wgt, .itk] s v4 := by
    simp only [v4]
    repeat' (first
      | with_reducible apply Frame.refl
      | with_reducible assumption
      | with_reducible apply Frame.ite
      | with_reducible apply Frame.then_ ?_ (State.setCtx_frame ..)
      | with_reducible apply Frame.then_ ?_ (State.setRun_frame ..)
      | with_reducible apply Frame.then_ ?_ (State.setWctx_frame ..)
      | with_reducible apply Frame.then_ ?_ (State.showCtx_frame ..)
      | with_reducible apply Frame.then_ ?_ (State.wrAt_frame ..)
      | decide
      | dsimp only
      | split)
  clear_value v4
  clear_value v5
  have h_v6 : Frame [.csr, .pln, .wgt, .itk] s v6 := by
    simp only [v6]
    repeat' (first
      | with_reducible apply Frame.refl
      | with_reducible assumption
      | with_reducible apply Frame.ite
      | with_reducible apply Frame.then_ ?_ (State.setCtx_frame ..)
      | with_reducible apply Frame.then_ ?_ (State.setRun_frame ..)
      | with_reducible apply Frame.then_ ?_ (State.setWctx_frame ..)
      | with_reducible apply Frame.then_ ?_ (State.showCtx_frame ..)
      | with_reducible apply Frame.then_ ?_ (State.wrAt_frame ..)
      | decide
      | dsimp only
      | split)
  clear_value v6
  clear_value v7
  repeat' (first
    | with_reducible apply Frame.refl
    | with_reducible assumption
    | with_reducible apply Frame.ite
    | with_reducible apply Frame.then_ ?_ (State.setCtx_frame ..)
    | with_reducible apply Frame.then_ ?_ (State.setRun_frame ..)
    | with_reducible apply Frame.then_ ?_ (State.setWctx_frame ..)
    | with_reducible apply Frame.then_ ?_ (State.showCtx_frame ..)
    | with_reducible apply Frame.then_ ?_ (State.wrAt_frame ..)
    | decide
    | dsimp only
    | split)

theorem State.keepLandings_frame (s : State) (p : Plan) :
    Frame [.csr, .wgt, .scr] s (State.keepLandings s p) := by
  unfold State.keepLandings
  try dsimp only
  repeat' (first
    | with_reducible apply Frame.refl
    | with_reducible assumption
    | with_reducible apply Frame.ite
    | with_reducible apply Frame.then_ ?_ (State.emptyLanding_frame ..)
    | decide
    | with_reducible apply Frame.foldl_fst
    | with_reducible apply Frame.foldl
    | intro y a b c hy
    | intro y a hy
    | intro y hy
    | dsimp only
    | split)

theorem State.pairUp_frame (s : State) (p : Plan) :
    Frame [.csr, .twn] s (State.pairUp s p) := by
  unfold State.pairUp
  try dsimp only
  repeat' (first
    | with_reducible apply Frame.refl
    | with_reducible assumption
    | with_reducible apply Frame.ite
    | with_reducible apply Frame.then_ ?_ (State.wr_frame ..)
    | decide
    | dsimp only
    | split
    | (fail_if_no_progress simp only [Frame.mk_eq]; refine Frame.upd ?_))

theorem State.newDetours_frame (s : State) (p : Plan) :
    Frame [.csr, .haul, .sch, .sent] s (State.newDetours s p) := by
  unfold State.newDetours
  try dsimp only
  repeat' (first
    | with_reducible apply Frame.refl
    | with_reducible assumption
    | with_reducible apply Frame.ite
    | with_reducible apply Frame.then_ ?_ (State.bar_frame ..)
    | with_reducible apply Frame.then_ ?_ (State.detourPort_frame ..)
    | with_reducible apply Frame.then_ ?_ (State.restorePort_frame ..)
    | decide
    | with_reducible apply Frame.foldl_fst
    | with_reducible apply Frame.foldl
    | intro y a b c hy
    | intro y a hy
    | intro y hy
    | dsimp only
    | split)

theorem State.restartCounts_frame (s : State) :
    Frame [.csr, .frk] s (State.restartCounts s) := by
  unfold State.restartCounts
  try dsimp only
  repeat' (first
    | with_reducible apply Frame.refl
    | with_reducible assumption
    | with_reducible apply Frame.ite
    | with_reducible apply Frame.then_ ?_ (State.clearFields_frame ..)
    | decide
    | dsimp only
    | split
    | (fail_if_no_progress simp only [Frame.mk_eq]; refine Frame.upd ?_))

theorem execActivation_frame (s : State) :
Frames [.csr, .pwr, .clk, .haul, .sch, .pln, .olc, .gen, .wgt, .bench, .frk, .scr, .itk, .twn, .sent] s
      (execActivation s) := by
  unfold execActivation
  try dsimp only
  repeat' (first
    | with_reducible apply Frame.refl
    | with_reducible assumption
    | with_reducible apply Frames.next
    | with_reducible apply Frames.fault
    | with_reducible apply Frames.refused
    | with_reducible apply Frame.ite
    | with_reducible apply Frames.ite
    | with_reducible apply Frame.then_ ?_ (State.changeApplied_frame ..)
    | with_reducible apply Frame.then_ ?_ (State.fetchEntries_frame ..)
    | with_reducible apply Frame.then_ ?_ (State.keepLandings_frame ..)
    | with_reducible apply Frame.then_ ?_ (State.newDetours_frame ..)
    | with_reducible apply Frame.then_ ?_ (State.pairUp_frame ..)
    | with_reducible apply Frame.then_ ?_ (State.rampFloor_frame ..)
    | with_reducible apply Frame.then_ ?_ (State.restartCounts_frame ..)
    | with_reducible apply Frame.then_ ?_ (State.showAct_frame ..)
    | with_reducible apply Frame.then_ ?_ (State.showBindings_frame ..)
    | with_reducible apply Frame.then_ ?_ (State.showExt_frame ..)
    | with_reducible apply Frame.then_ ?_ (State.showJob_frame ..)
    | with_reducible apply Frame.then_ ?_ (State.showLevel_frame ..)
    | with_reducible apply Frame.then_ ?_ (State.showPlan_frame ..)
    | with_reducible apply Frame.then_ ?_ (State.startCtx_frame ..)
    | decide
    | with_reducible apply Frame.foldl_fst
    | with_reducible apply Frame.foldl
    | intro y a b c hy
    | intro y a hy
    | intro y hy
    | dsimp only
    | split
    | (fail_if_no_progress simp only [Frame.mk_eq]; refine Frame.upd ?_))

theorem State.activationFails_frame (s : State) :
    Frame [.csr, .pwr, .sch, .pln, .gen, .bench, .rrc, .obs, .fresh] s (State.activationFails s) := by
  unfold State.activationFails
  try dsimp only
  repeat' (first
    | with_reducible apply Frame.refl
    | with_reducible assumption
    | with_reducible apply Frame.ite
    | with_reducible apply Frame.then_ ?_ (State.showAct_frame ..)
    | with_reducible apply Frame.then_ ?_ (State.startExit_frame ..)
    | with_reducible apply Frame.then_ ?_ (State.unload_frame ..)
    | with_reducible apply Frame.then_ ?_ (State.wr_frame ..)
    | decide
    | dsimp only
    | split
    | (fail_if_no_progress simp only [Frame.mk_eq]; refine Frame.upd ?_))

theorem execActivationFailed_frame (s : State) :
Frames [.csr, .pwr, .haul, .sch, .pln, .top, .olc, .gen, .wgt, .bench, .flt, .rrc, .obs, .sent, .fresh] s
      (execActivationFailed s) := by
  unfold execActivationFailed
  split
  · extract_lets v0 v1
    clear_value v0
    have h_v1 : Frame [.csr, .pwr, .haul, .sch, .pln, .top, .olc, .gen, .wgt, .bench, .flt, .rrc, .obs, .sent, .fresh] s v1 := by
      simp only [v1]
      repeat' (first
        | with_reducible apply Frame.refl
        | with_reducible assumption
        | with_reducible apply Frames.next
        | with_reducible apply Frames.fault
        | with_reducible apply Frames.refused
        | with_reducible apply Frame.ite
        | with_reducible apply Frames.ite
        | with_reducible apply Frame.then_ ?_ (State.activationFails_frame ..)
        | with_reducible apply Frame.then_ ?_ (State.cannotApply_frame ..)
        | decide
        | dsimp only
        | split)
    clear_value v1
    repeat' (first
      | with_reducible apply Frame.refl
      | with_reducible assumption
      | with_reducible apply Frames.next
      | with_reducible apply Frames.fault
      | with_reducible apply Frames.refused
      | with_reducible apply Frame.ite
      | with_reducible apply Frames.ite
      | with_reducible apply Frame.then_ ?_ (State.activationFails_frame ..)
      | with_reducible apply Frame.then_ ?_ (State.cannotApply_frame ..)
      | decide
      | dsimp only
      | split)
  · repeat' (first
      | with_reducible apply Frame.refl
      | with_reducible assumption
      | with_reducible apply Frames.next
      | with_reducible apply Frames.fault
      | with_reducible apply Frames.refused
      | with_reducible apply Frame.ite
      | with_reducible apply Frames.ite
      | with_reducible apply Frame.then_ ?_ (State.activationFails_frame ..)
      | with_reducible apply Frame.then_ ?_ (State.cannotApply_frame ..)
      | decide
      | dsimp only
      | split)

theorem execPlnStopArm_frame (s : State) :
Frames [.csr, .pwr, .haul, .sch, .pln, .top, .olc, .gen, .wgt, .bench, .flt, .rrc, .obs, .sent, .fresh] s
      (execPlnStopArm s) := by
  unfold execPlnStopArm
  try dsimp only
  repeat' (first
    | with_reducible apply Frame.refl
    | with_reducible assumption
    | with_reducible apply Frames.next
    | with_reducible apply Frames.fault
    | with_reducible apply Frames.refused
    | with_reducible apply Frame.ite
    | with_reducible apply Frames.ite
    | with_reducible apply State.armChange_frame
    | with_reducible apply Frame.then_ ?_ (State.planRefusedWith_frame ..)
    | with_reducible apply Frame.then_ ?_ (State.showAct_frame ..)
    | with_reducible apply Frame.then_ ?_ (State.showStopEnd_frame ..)
    | decide
    | intro y a b c hy
    | intro y a hy
    | intro y hy
    | dsimp only
    | split
    | (fail_if_no_progress simp only [Frame.mk_eq]; refine Frame.upd ?_))

theorem execDrainEnd_frame (s : State) :
    Frames [.csr, .pln, .gen] s (execDrainEnd s) := by
  unfold execDrainEnd
  split
  · extract_lets v0 v1
    have h_v0 : Frame [.csr, .pln, .gen] s v0 := by
      simp only [v0]
      repeat' (first
        | with_reducible apply Frame.refl
        | with_reducible assumption
        | with_reducible apply Frames.next
        | with_reducible apply Frames.fault
        | with_reducible apply Frames.refused
        | with_reducible apply Frame.ite
        | with_reducible apply Frames.ite
        | with_reducible apply Frame.then_ ?_ (State.closeSpans_frame ..)
        | with_reducible apply Frame.then_ ?_ (State.showLevel_frame ..)
        | with_reducible apply Frame.then_ ?_ (State.showStopEnd_frame ..)
        | decide
        | dsimp only
        | split
        | (fail_if_no_progress simp only [Frame.mk_eq]; refine Frame.upd ?_))
    clear_value v0
    clear_value v1
    repeat' (first
      | with_reducible apply Frame.refl
      | with_reducible assumption
      | with_reducible apply Frames.next
      | with_reducible apply Frames.fault
      | with_reducible apply Frames.refused
      | with_reducible apply Frame.ite
      | with_reducible apply Frames.ite
      | with_reducible apply Frame.then_ ?_ (State.closeSpans_frame ..)
      | with_reducible apply Frame.then_ ?_ (State.showLevel_frame ..)
      | with_reducible apply Frame.then_ ?_ (State.showStopEnd_frame ..)
      | decide
      | dsimp only
      | split
      | (fail_if_no_progress simp only [Frame.mk_eq]; refine Frame.upd ?_))
  · repeat' (first
      | with_reducible apply Frame.refl
      | with_reducible assumption
      | with_reducible apply Frames.next
      | with_reducible apply Frames.fault
      | with_reducible apply Frames.refused
      | with_reducible apply Frame.ite
      | with_reducible apply Frames.ite
      | with_reducible apply Frame.then_ ?_ (State.closeSpans_frame ..)
      | with_reducible apply Frame.then_ ?_ (State.showLevel_frame ..)
      | with_reducible apply Frame.then_ ?_ (State.showStopEnd_frame ..)
      | decide
      | dsimp only
      | split
      | (fail_if_no_progress simp only [Frame.mk_eq]; refine Frame.upd ?_))

theorem execRampDownEnd_frame (s : State) :
Frames [.csr, .mem, .pwr, .clk, .sch, .pln, .olc, .gen, .wgt, .bench, .frk, .scr, .itk, .twn] s (execRampDownEnd s) := by
  unfold execRampDownEnd
  try dsimp only
  repeat' (first
    | with_reducible apply Frame.refl
    | with_reducible assumption
    | with_reducible apply Frames.next
    | with_reducible apply Frames.fault
    | with_reducible apply Frames.refused
    | with_reducible apply Frame.ite
    | with_reducible apply Frames.ite
    | with_reducible apply Frame.then_ ?_ (State.detoursGone_frame ..)
    | with_reducible apply Frame.then_ ?_ (State.planGone_frame ..)
    | with_reducible apply Frame.then_ ?_ (State.wr_frame ..)
    | decide
    | dsimp only
    | split)

theorem execPlnAbort_frame (s : State) :
    Frames [.pln] s (execPlnAbort s) := by
  unfold execPlnAbort
  try dsimp only
  repeat' (first
    | with_reducible apply Frame.refl
    | with_reducible assumption
    | with_reducible apply Frames.next
    | with_reducible apply Frames.fault
    | with_reducible apply Frames.refused
    | with_reducible apply Frame.ite
    | with_reducible apply Frames.ite
    | decide
    | dsimp only
    | split
    | (fail_if_no_progress simp only [Frame.mk_eq]; refine Frame.upd ?_))

theorem execContextReset_frame (ctx : Fin 16) (s : State) :
    Frames [.csr, .mem, .pwr, .pln, .gen, .bench, .itk, .sent] s (execContextReset ctx s) := by
  unfold execContextReset
  try dsimp only
  repeat' (first
    | with_reducible apply Frame.refl
    | with_reducible assumption
    | with_reducible apply Frames.next
    | with_reducible apply Frames.fault
    | with_reducible apply Frames.refused
    | with_reducible apply Frame.ite
    | with_reducible apply Frames.ite
    | with_reducible apply Frame.then_ ?_ (State.contextReset_frame ..)
    | decide
    | dsimp only
    | split
    | (fail_if_no_progress simp only [Frame.mk_eq]; refine Frame.upd ?_))

theorem execPlnCtxRestart_frame (s : State) :
Frames [.csr, .pwr, .haul, .sch, .pln, .top, .olc, .gen, .wgt, .bench, .flt, .rrc, .obs, .sent, .fresh] s
      (execPlnCtxRestart s) := by
  unfold execPlnCtxRestart
  try dsimp only
  repeat' (first
    | with_reducible apply Frame.refl
    | with_reducible assumption
    | with_reducible apply Frames.next
    | with_reducible apply Frames.fault
    | with_reducible apply Frames.refused
    | with_reducible apply Frame.ite
    | with_reducible apply Frames.ite
    | with_reducible apply State.armChange_frame
    | with_reducible apply Frame.then_ ?_ (State.planRefusedWith_frame ..)
    | decide
    | intro y a b c hy
    | intro y a hy
    | intro y hy
    | dsimp only
    | split
    | (fail_if_no_progress simp only [Frame.mk_eq]; refine Frame.upd ?_))

theorem State.resumeCtx_frame (s : State) (p : Plan) (c : Nat) (r : CtxRun) :
    Frame [.csr, .mem, .pwr, .pln, .wgt, .bench, .itk] s (State.resumeCtx s p c r) := by
  unfold State.resumeCtx
  extract_lets v0 v1 v2 v3 v4 v5 v6 v7
  have h_v0 : Frame [.csr, .mem, .pwr, .pln, .wgt, .bench, .itk] s v0 := by
    simp only [v0]
    repeat' (first
      | with_reducible apply Frame.refl
      | with_reducible assumption
      | with_reducible apply Frame.ite
      | with_reducible apply Frame.then_ ?_ (State.fetchEntries_frame ..)
      | with_reducible apply Frame.then_ ?_ (State.loadBench_frame ..)
      | with_reducible apply Frame.then_ ?_ (State.rampFloor_frame ..)
      | with_reducible apply Frame.then_ ?_ (State.setCtx_frame ..)
      | with_reducible apply Frame.then_ ?_ (State.setRun_frame ..)
      | with_reducible apply Frame.then_ ?_ (State.setWctx_frame ..)
      | with_reducible apply Frame.then_ ?_ (State.wrAt_frame ..)
      | decide
      | with_reducible apply Frame.foldl_fst
      | with_reducible apply Frame.foldl
      | intro y a b c hy
      | intro y a hy
      | intro y hy
      | dsimp only
      | split
      | (fail_if_no_progress simp only [Frame.mk_eq]; refine Frame.upd ?_))
  clear_value v0
  clear_value v1
  have h_v2 : Frame [.csr, .mem, .pwr, .pln, .wgt, .bench, .itk] s v2 := by
    simp only [v2]
    repeat' (first
      | with_reducible apply Frame.refl
      | with_reducible assumption
      | with_reducible apply Frame.ite
      | with_reducible apply Frame.then_ ?_ (State.fetchEntries_frame ..)
      | with_reducible apply Frame.then_ ?_ (State.loadBench_frame ..)
      | with_reducible apply Frame.then_ ?_ (State.rampFloor_frame ..)
      | with_reducible apply Frame.then_ ?_ (State.setCtx_frame ..)
      | with_reducible apply Frame.then_ ?_ (State.setRun_frame ..)
      | with_reducible apply Frame.then_ ?_ (State.setWctx_frame ..)
      | with_reducible apply Frame.then_ ?_ (State.wrAt_frame ..)
      | decide
      | with_reducible apply Frame.foldl_fst
      | with_reducible apply Frame.foldl
      | intro y a b c hy
      | intro y a hy
      | intro y hy
      | dsimp only
      | split
      | (fail_if_no_progress simp only [Frame.mk_eq]; refine Frame.upd ?_))
  clear_value v2
  clear_value v3
  have h_v4 : Frame [.csr, .mem, .pwr, .pln, .wgt, .bench, .itk] s v4 := by
    simp only [v4]
    repeat' (first
      | with_reducible apply Frame.refl
      | with_reducible assumption
      | with_reducible apply Frame.ite
      | with_reducible apply Frame.then_ ?_ (State.fetchEntries_frame ..)
      | with_reducible apply Frame.then_ ?_ (State.loadBench_frame ..)
      | with_reducible apply Frame.then_ ?_ (State.rampFloor_frame ..)
      | with_reducible apply Frame.then_ ?_ (State.setCtx_frame ..)
      | with_reducible apply Frame.then_ ?_ (State.setRun_frame ..)
      | with_reducible apply Frame.then_ ?_ (State.setWctx_frame ..)
      | with_reducible apply Frame.then_ ?_ (State.wrAt_frame ..)
      | decide
      | with_reducible apply Frame.foldl_fst
      | with_reducible apply Frame.foldl
      | intro y a b c hy
      | intro y a hy
      | intro y hy
      | dsimp only
      | split
      | (fail_if_no_progress simp only [Frame.mk_eq]; refine Frame.upd ?_))
  clear_value v4
  clear_value v5
  have h_v6 : Frame [.csr, .mem, .pwr, .pln, .wgt, .bench, .itk] s v6 := by
    simp only [v6]
    repeat' (first
      | with_reducible apply Frame.refl
      | with_reducible assumption
      | with_reducible apply Frame.ite
      | with_reducible apply Frame.then_ ?_ (State.fetchEntries_frame ..)
      | with_reducible apply Frame.then_ ?_ (State.loadBench_frame ..)
      | with_reducible apply Frame.then_ ?_ (State.rampFloor_frame ..)
      | with_reducible apply Frame.then_ ?_ (State.setCtx_frame ..)
      | with_reducible apply Frame.then_ ?_ (State.setRun_frame ..)
      | with_reducible apply Frame.then_ ?_ (State.setWctx_frame ..)
      | with_reducible apply Frame.then_ ?_ (State.wrAt_frame ..)
      | decide
      | with_reducible apply Frame.foldl_fst
      | with_reducible apply Frame.foldl
      | intro y a b c hy
      | intro y a hy
      | intro y hy
      | dsimp only
      | split
      | (fail_if_no_progress simp only [Frame.mk_eq]; refine Frame.upd ?_))
  clear_value v6
  have h_v7 : Frame [.csr, .mem, .pwr, .pln, .wgt, .bench, .itk] s v7 := by
    simp only [v7]
    repeat' (first
      | with_reducible apply Frame.refl
      | with_reducible assumption
      | with_reducible apply Frame.ite
      | with_reducible apply Frame.then_ ?_ (State.fetchEntries_frame ..)
      | with_reducible apply Frame.then_ ?_ (State.loadBench_frame ..)
      | with_reducible apply Frame.then_ ?_ (State.rampFloor_frame ..)
      | with_reducible apply Frame.then_ ?_ (State.setCtx_frame ..)
      | with_reducible apply Frame.then_ ?_ (State.setRun_frame ..)
      | with_reducible apply Frame.then_ ?_ (State.setWctx_frame ..)
      | with_reducible apply Frame.then_ ?_ (State.wrAt_frame ..)
      | decide
      | with_reducible apply Frame.foldl_fst
      | with_reducible apply Frame.foldl
      | intro y a b c hy
      | intro y a hy
      | intro y hy
      | dsimp only
      | split
      | (fail_if_no_progress simp only [Frame.mk_eq]; refine Frame.upd ?_))
  clear_value v7
  repeat' (first
    | with_reducible apply Frame.refl
    | with_reducible assumption
    | with_reducible apply Frame.ite
    | with_reducible apply Frame.then_ ?_ (State.fetchEntries_frame ..)
    | with_reducible apply Frame.then_ ?_ (State.loadBench_frame ..)
    | with_reducible apply Frame.then_ ?_ (State.rampFloor_frame ..)
    | with_reducible apply Frame.then_ ?_ (State.setCtx_frame ..)
    | with_reducible apply Frame.then_ ?_ (State.setRun_frame ..)
    | with_reducible apply Frame.then_ ?_ (State.setWctx_frame ..)
    | with_reducible apply Frame.then_ ?_ (State.wrAt_frame ..)
    | decide
    | with_reducible apply Frame.foldl_fst
    | with_reducible apply Frame.foldl
    | intro y a b c hy
    | intro y a hy
    | intro y hy
    | dsimp only
    | split
    | (fail_if_no_progress simp only [Frame.mk_eq]; refine Frame.upd ?_))

theorem execContextResume_frame (ctx : Fin 16) (s : State) :
    Frames [.csr, .mem, .pwr, .pln, .olc, .wgt, .bench, .itk] s (execContextResume ctx s) := by
  unfold execContextResume
  try dsimp only
  repeat' (first
    | with_reducible apply Frame.refl
    | with_reducible assumption
    | with_reducible apply Frames.next
    | with_reducible apply Frames.fault
    | with_reducible apply Frames.refused
    | with_reducible apply Frame.ite
    | with_reducible apply Frames.ite
    | with_reducible apply Frame.then_ ?_ (State.changeApplied_frame ..)
    | with_reducible apply Frame.then_ ?_ (State.resumeCtx_frame ..)
    | decide
    | dsimp only
    | split
    | (fail_if_no_progress simp only [Frame.mk_eq]; refine Frame.upd ?_))

end Sys2Proof.Machine
end

