-- ==== Sys2Proof/Laws/FrameTrain.lean ====
section
/-! SUPPORT. One frame lemma for every operation of Machine/Train.lean: the parts of the state that it may change. -/

set_option Elab.async false
set_option linter.unusedTactic false
set_option linter.unreachableTactic false

namespace Sys2Proof.Machine

open Sys2Proof

theorem State.trainFail_frame (s : State) (p : Nat) (code : Nat) :
    Frame [.csr, .pwr, .haul, .rrc, .obs, .sent, .fresh] s (State.trainFail s p code) := by
  unfold State.trainFail
  extract_lets v0 v1 v2 v3
  clear_value v0
  clear_value v1
  have h_v2 : Frame [.csr, .pwr, .haul, .rrc, .obs, .sent, .fresh] s v2 := by
    simp only [v2]
    repeat' (first
      | with_reducible apply Frame.refl
      | with_reducible assumption
      | with_reducible apply Frame.ite
      | with_reducible apply Frame.then_ ?_ (State.incAt_frame ..)
      | with_reducible apply Frame.then_ ?_ (State.setPort_frame ..)
      | with_reducible apply Frame.then_ ?_ (State.setTrain_frame ..)
      | with_reducible apply Frame.then_ ?_ (State.startExit_frame ..)
      | with_reducible apply Frame.then_ ?_ (State.wrAt_frame ..)
      | decide
      | dsimp only
      | split)
  clear_value v2
  have h_v3 : Frame [.csr, .pwr, .haul, .rrc, .obs, .sent, .fresh] s v3 := by
    simp only [v3]
    repeat' (first
      | with_reducible apply Frame.refl
      | with_reducible assumption
      | with_reducible apply Frame.ite
      | with_reducible apply Frame.then_ ?_ (State.incAt_frame ..)
      | with_reducible apply Frame.then_ ?_ (State.setPort_frame ..)
      | with_reducible apply Frame.then_ ?_ (State.setTrain_frame ..)
      | with_reducible apply Frame.then_ ?_ (State.startExit_frame ..)
      | with_reducible apply Frame.then_ ?_ (State.wrAt_frame ..)
      | decide
      | dsimp only
      | split)
  clear_value v3
  repeat' (first
    | with_reducible apply Frame.refl
    | with_reducible assumption
    | with_reducible apply Frame.ite
    | with_reducible apply Frame.then_ ?_ (State.incAt_frame ..)
    | with_reducible apply Frame.then_ ?_ (State.setPort_frame ..)
    | with_reducible apply Frame.then_ ?_ (State.setTrain_frame ..)
    | with_reducible apply Frame.then_ ?_ (State.startExit_frame ..)
    | with_reducible apply Frame.then_ ?_ (State.wrAt_frame ..)
    | decide
    | dsimp only
    | split)

theorem State.sendAnnounce_frame (s : State) (p : Nat) :
    Frame [.haul, .sent] s (State.sendAnnounce s p) := by
  unfold State.sendAnnounce
  try dsimp only
  repeat' (first
    | with_reducible apply Frame.refl
    | with_reducible assumption
    | with_reducible apply Frame.ite
    | with_reducible apply Frame.then_ ?_ (State.sendPlain_frame ..)
    | with_reducible apply Frame.then_ ?_ (State.setPort_frame ..)
    | decide
    | dsimp only
    | split)

theorem execSignalPresent_frame (port : Fin 16) (lanes : List (Fin 9)) (s : State) :
    Frames [.csr, .haul, .obs, .sent, .fresh] s (execSignalPresent port lanes s) := by
  unfold execSignalPresent
  try dsimp only
  repeat' (first
    | with_reducible apply Frame.refl
    | with_reducible assumption
    | with_reducible apply Frames.next
    | with_reducible apply Frames.fault
    | with_reducible apply Frames.refused
    | with_reducible apply Frame.ite
    | with_reducible apply Frames.ite
    | with_reducible apply Frame.then_ ?_ (State.setTrain_frame ..)
    | decide
    | dsimp only
    | split)

theorem execSignalLock_frame (port : Fin 16) (lanes : List (Fin 9)) (s : State) :
    Frames [.csr, .haul, .obs, .sent, .fresh] s (execSignalLock port lanes s) := by
  unfold execSignalLock
  try dsimp only
  repeat' (first
    | with_reducible apply Frame.refl
    | with_reducible assumption
    | with_reducible apply Frames.next
    | with_reducible apply Frames.fault
    | with_reducible apply Frames.refused
    | with_reducible apply Frame.ite
    | with_reducible apply Frames.ite
    | with_reducible apply Frame.then_ ?_ (State.setPort_frame ..)
    | with_reducible apply Frame.then_ ?_ (State.setTrain_frame ..)
    | decide
    | dsimp only
    | split)

theorem execLaneMarkLock_frame (port : Fin 16) (skewPs : Nat) (s : State) :
    Frames [.csr, .haul, .obs, .sent, .fresh] s (execLaneMarkLock port skewPs s) := by
  unfold execLaneMarkLock
  try dsimp only
  repeat' (first
    | with_reducible apply Frame.refl
    | with_reducible assumption
    | with_reducible apply Frames.next
    | with_reducible apply Frames.fault
    | with_reducible apply Frames.refused
    | with_reducible apply Frame.ite
    | with_reducible apply Frames.ite
    | with_reducible apply Frame.then_ ?_ (State.sendAnnounce_frame ..)
    | with_reducible apply Frame.then_ ?_ (State.setPort_frame ..)
    | with_reducible apply Frame.then_ ?_ (State.setTrain_frame ..)
    | decide
    | dsimp only
    | split)

theorem execTrainStateTimeout_frame (port : Fin 16) (s : State) :
    Frames [.csr, .pwr, .haul, .rrc, .obs, .sent, .fresh] s (execTrainStateTimeout port s) := by
  unfold execTrainStateTimeout
  try dsimp only
  repeat' (first
    | with_reducible apply Frame.refl
    | with_reducible assumption
    | with_reducible apply Frames.next
    | with_reducible apply Frames.fault
    | with_reducible apply Frames.refused
    | with_reducible apply Frame.ite
    | with_reducible apply Frames.ite
    | with_reducible apply Frame.then_ ?_ (State.trainFail_frame ..)
    | decide
    | dsimp only
    | split)

theorem execBackoffExpiry_frame (port : Fin 16) (s : State) :
    Frames [.csr, .haul, .obs, .sent, .fresh] s (execBackoffExpiry port s) := by
  unfold execBackoffExpiry
  try dsimp only
  repeat' (first
    | with_reducible apply Frame.refl
    | with_reducible assumption
    | with_reducible apply Frames.next
    | with_reducible apply Frames.fault
    | with_reducible apply Frames.refused
    | with_reducible apply Frame.ite
    | with_reducible apply Frames.ite
    | with_reducible apply Frame.then_ ?_ (State.setTrain_frame ..)
    | decide
    | dsimp only
    | split)

theorem State.assignLanes_frame (s : State) (p : Nat) (a : Announce) :
    Frame [.csr, .sent] s (State.assignLanes s p a) := by
  unfold State.assignLanes
  extract_lets v0 v1 v2 v3 v4
  clear_value v0
  clear_value v1
  have h_v2 : Frame [.csr, .sent] s v2 := by
    simp only [v2]
    repeat' (first
      | with_reducible apply Frame.refl
      | with_reducible assumption
      | with_reducible apply Frame.ite
      | with_reducible apply Frame.then_ ?_ (State.showMarks_frame ..)
      | with_reducible apply Frame.then_ ?_ (State.wrAt_frame ..)
      | decide
      | dsimp only
      | split)
  clear_value v2
  have h_v3 : Frame [.csr, .sent] s v3 := by
    simp only [v3]
    repeat' (first
      | with_reducible apply Frame.refl
      | with_reducible assumption
      | with_reducible apply Frame.ite
      | with_reducible apply Frame.then_ ?_ (State.showMarks_frame ..)
      | with_reducible apply Frame.then_ ?_ (State.wrAt_frame ..)
      | decide
      | dsimp only
      | split)
  clear_value v3
  clear_value v4
  repeat' (first
    | with_reducible apply Frame.refl
    | with_reducible assumption
    | with_reducible apply Frame.ite
    | with_reducible apply Frame.then_ ?_ (State.showMarks_frame ..)
    | with_reducible apply Frame.then_ ?_ (State.wrAt_frame ..)
    | decide
    | dsimp only
    | split)

theorem State.enterEcho_frame (s : State) (p : Nat) (a : Announce) :
    Frame [.csr, .haul, .obs, .sent, .fresh] s (State.enterEcho s p a) := by
  unfold State.enterEcho
  extract_lets v0 v1 v2 v3 v4 v5
  have h_v0 : Frame [.csr, .haul, .obs, .sent, .fresh] s v0 := by
    simp only [v0]
    repeat' (first
      | with_reducible apply Frame.refl
      | with_reducible assumption
      | with_reducible apply Frame.ite
      | with_reducible apply Frame.then_ ?_ (State.setPort_frame ..)
      | with_reducible apply Frame.then_ ?_ (State.setTrain_frame ..)
      | with_reducible apply Frame.then_ ?_ (State.wrAt_frame ..)
      | decide
      | dsimp only
      | split)
  clear_value v0
  have h_v1 : Frame [.csr, .haul, .obs, .sent, .fresh] s v1 := by
    simp only [v1]
    repeat' (first
      | with_reducible apply Frame.refl
      | with_reducible assumption
      | with_reducible apply Frame.ite
      | with_reducible apply Frame.then_ ?_ (State.setPort_frame ..)
      | with_reducible apply Frame.then_ ?_ (State.setTrain_frame ..)
      | with_reducible apply Frame.then_ ?_ (State.wrAt_frame ..)
      | decide
      | dsimp only
      | split)
  clear_value v1
  have h_v2 : Frame [.csr, .haul, .obs, .sent, .fresh] s v2 := by
    simp only [v2]
    repeat' (first
      | with_reducible apply Frame.refl
      | with_reducible assumption
      | with_reducible apply Frame.ite
      | with_reducible apply Frame.then_ ?_ (State.setPort_frame ..)
      | with_reducible apply Frame.then_ ?_ (State.setTrain_frame ..)
      | with_reducible apply Frame.then_ ?_ (State.wrAt_frame ..)
      | decide
      | dsimp only
      | split)
  clear_value v2
  have h_v3 : Frame [.csr, .haul, .obs, .sent, .fresh] s v3 := by
    simp only [v3]
    repeat' (first
      | with_reducible apply Frame.refl
      | with_reducible assumption
      | with_reducible apply Frame.ite
      | with_reducible apply Frame.then_ ?_ (State.setPort_frame ..)
      | with_reducible apply Frame.then_ ?_ (State.setTrain_frame ..)
      | with_reducible apply Frame.then_ ?_ (State.wrAt_frame ..)
      | decide
      | dsimp only
      | split)
  clear_value v3
  clear_value v4
  have h_v5 : Frame [.csr, .haul, .obs, .sent, .fresh] s v5 := by
    simp only [v5]
    repeat' (first
      | with_reducible apply Frame.refl
      | with_reducible assumption
      | with_reducible apply Frame.ite
      | with_reducible apply Frame.then_ ?_ (State.setPort_frame ..)
      | with_reducible apply Frame.then_ ?_ (State.setTrain_frame ..)
      | with_reducible apply Frame.then_ ?_ (State.wrAt_frame ..)
      | decide
      | dsimp only
      | split)
  clear_value v5
  repeat' (first
    | with_reducible apply Frame.refl
    | with_reducible assumption
    | with_reducible apply Frame.ite
    | with_reducible apply Frame.then_ ?_ (State.setPort_frame ..)
    | with_reducible apply Frame.then_ ?_ (State.setTrain_frame ..)
    | with_reducible apply Frame.then_ ?_ (State.wrAt_frame ..)
    | decide
    | dsimp only
    | split)

theorem State.exchangeEnd_frame (s : State) (p : Nat) :
    Frame [.csr, .haul, .obs, .sent, .fresh] s (State.exchangeEnd s p) := by
  unfold State.exchangeEnd
  try dsimp only
  repeat' (first
    | with_reducible apply Frame.refl
    | with_reducible assumption
    | with_reducible apply Frame.ite
    | with_reducible apply Frame.then_ ?_ (State.enterEcho_frame ..)
    | decide
    | dsimp only
    | split)

theorem State.exchange_frame (s : State) (p : Nat) (a : Announce) :
    Frame [.csr, .pwr, .haul, .rrc, .obs, .sent, .fresh] s (State.exchange s p a) := by
  unfold State.exchange
  try dsimp only
  repeat' (first
    | with_reducible apply Frame.refl
    | with_reducible assumption
    | with_reducible apply Frame.ite
    | with_reducible apply Frame.then_ ?_ (State.assignLanes_frame ..)
    | with_reducible apply Frame.then_ ?_ (State.exchangeEnd_frame ..)
    | with_reducible apply Frame.then_ ?_ (State.sendAnnounce_frame ..)
    | with_reducible apply Frame.then_ ?_ (State.setPort_frame ..)
    | with_reducible apply Frame.then_ ?_ (State.trainFail_frame ..)
    | decide
    | dsimp only
    | split)

theorem execAnnounceReceived_frame (port : Fin 16) (blk : WireBlock) (s : State) :
    Frames [.csr, .pwr, .haul, .sch, .fst, .rrc, .obs, .sent, .fresh] s (execAnnounceReceived port blk s) := by
  unfold execAnnounceReceived
  try dsimp only
  repeat' (first
    | with_reducible apply Frame.refl
    | with_reducible assumption
    | with_reducible apply Frames.next
    | with_reducible apply Frames.fault
    | with_reducible apply Frames.refused
    | with_reducible apply Frame.ite
    | with_reducible apply Frames.ite
    | with_reducible apply Frame.then_ ?_ (State.checkBlock_frame ..)
    | (with_reducible apply Frame.then_ ?_ (Frame.of_eq (State.checkBlock_frame ..) (by assumption)))
    | with_reducible apply Frame.then_ ?_ (State.exchange_frame ..)
    | with_reducible apply Frame.then_ ?_ (State.linkDown_frame ..)
    | with_reducible apply Frame.then_ ?_ (State.reservedDrop_frame ..)
    | with_reducible apply Frame.then_ ?_ (State.setPort_frame ..)
    | decide
    | dsimp only
    | split)

theorem execEchoReqSend_frame (port : Fin 16) (depart : Stamp) (s : State) :
    Frames [.haul, .sent] s (execEchoReqSend port depart s) := by
  unfold execEchoReqSend
  try dsimp only
  repeat' (first
    | with_reducible apply Frame.refl
    | with_reducible assumption
    | with_reducible apply Frames.next
    | with_reducible apply Frames.fault
    | with_reducible apply Frames.refused
    | with_reducible apply Frame.ite
    | with_reducible apply Frames.ite
    | with_reducible apply Frame.then_ ?_ (State.sendPlain_frame ..)
    | with_reducible apply Frame.then_ ?_ (State.setPort_frame ..)
    | decide
    | dsimp only
    | split)

theorem execEchoReqReceived_frame (port : Fin 16) (blk : WireBlock) (arrival : Stamp) (depart : Stamp) (s : State) :
    Frames [.csr, .haul, .sch, .fst, .obs, .sent, .fresh] s (execEchoReqReceived port blk arrival depart s) := by
  unfold execEchoReqReceived
  try dsimp only
  repeat' (first
    | with_reducible apply Frame.refl
    | with_reducible assumption
    | with_reducible apply Frames.next
    | with_reducible apply Frames.fault
    | with_reducible apply Frames.refused
    | with_reducible apply Frame.ite
    | with_reducible apply Frames.ite
    | with_reducible apply Frame.then_ ?_ (State.checkBlock_frame ..)
    | (with_reducible apply Frame.then_ ?_ (Frame.of_eq (State.checkBlock_frame ..) (by assumption)))
    | with_reducible apply Frame.then_ ?_ (State.linkDown_frame ..)
    | with_reducible apply Frame.then_ ?_ (State.reservedDrop_frame ..)
    | with_reducible apply Frame.then_ ?_ (State.sendPlain_frame ..)
    | decide
    | dsimp only
    | split)

theorem State.showLanes_frame (s : State) (p : Nat) (lanes : List Nat) (a : Nat) :
    Frame [.csr] s (State.showLanes s p lanes a) := by
  induction a generalizing s p lanes with
  | zero =>
    first
      | exact Frame.refl _ _
      | (rw [State.showLanes]
         repeat' (first
           | with_reducible apply Frame.refl
           | with_reducible assumption
           | with_reducible apply Frame.ite
           | with_reducible apply Frame.then_ ?_ (State.wrAt_frame ..)
           | decide
           | dsimp only
           | split))
  | succ m ih =>
    rw [State.showLanes]
    try dsimp only
    repeat' (first
      | with_reducible apply Frame.refl
      | with_reducible assumption
      | with_reducible apply Frame.ite
      | with_reducible apply Frame.then_ ?_ (ih ..)
      | with_reducible apply Frame.then_ ?_ (State.wrAt_frame ..)
      | decide
      | dsimp only
      | split)

theorem State.linkUp_frame (s : State) (p : Nat) (a : Announce) (loop : Nat) :
    Frame [.csr, .pwr, .haul, .sch, .fst, .rrc, .obs, .sent, .fresh] s (State.linkUp s p a loop) := by
  unfold State.linkUp
  extract_lets v0 v1 v2 v3 v4 v5 v6 v7 v8 v9 v10 v11
  clear_value v0
  clear_value v1
  clear_value v2
  clear_value v3
  have h_v4 : Frame [.csr, .pwr, .haul, .sch, .fst, .rrc, .obs, .sent, .fresh] s v4 := by
    simp only [v4]
    repeat' (first
      | with_reducible apply Frame.refl
      | with_reducible assumption
      | with_reducible apply Frame.ite
      | with_reducible apply Frame.then_ ?_ (State.flush_frame ..)
      | with_reducible apply Frame.then_ ?_ (State.incAt_frame ..)
      | with_reducible apply Frame.then_ ?_ (State.notice_frame ..)
      | with_reducible apply Frame.then_ ?_ (State.portCameUp_frame ..)
      | with_reducible apply Frame.then_ ?_ (State.setPort_frame ..)
      | with_reducible apply Frame.then_ ?_ (State.setTrain_frame ..)
      | with_reducible apply Frame.then_ ?_ (State.showLanes_frame ..)
      | with_reducible apply Frame.then_ ?_ (State.wrAt_frame ..)
      | decide
      | dsimp only
      | split)
  clear_value v4
  have h_v5 : Frame [.csr, .pwr, .haul, .sch, .fst, .rrc, .obs, .sent, .fresh] s v5 := by
    simp only [v5]
    repeat' (first
      | with_reducible apply Frame.refl
      | with_reducible assumption
      | with_reducible apply Frame.ite
      | with_reducible apply Frame.then_ ?_ (State.flush_frame ..)
      | with_reducible apply Frame.then_ ?_ (State.incAt_frame ..)
      | with_reducible apply Frame.then_ ?_ (State.notice_frame ..)
      | with_reducible apply Frame.then_ ?_ (State.portCameUp_frame ..)
      | with_reducible apply Frame.then_ ?_ (State.setPort_frame ..)
      | with_reducible apply Frame.then_ ?_ (State.setTrain_frame ..)
      | with_reducible apply Frame.then_ ?_ (State.showLanes_frame ..)
      | with_reducible apply Frame.then_ ?_ (State.wrAt_frame ..)
      | decide
      | dsimp only
      | split)
  clear_value v5
  have h_v6 : Frame [.csr, .pwr, .haul, .sch, .fst, .rrc, .obs, .sent, .fresh] s v6 := by
    simp only [v6]
    repeat' (first
      | with_reducible apply Frame.refl
      | with_reducible assumption
      | with_reducible apply Frame.ite
      | with_reducible apply Frame.then_ ?_ (State.flush_frame ..)
      | with_reducible apply Frame.then_ ?_ (State.incAt_frame ..)
      | with_reducible apply Frame.then_ ?_ (State.notice_frame ..)
      | with_reducible apply Frame.then_ ?_ (State.portCameUp_frame ..)
      | with_reducible apply Frame.then_ ?_ (State.setPort_frame ..)
      | with_reducible apply Frame.then_ ?_ (State.setTrain_frame ..)
      | with_reducible apply Frame.then_ ?_ (State.showLanes_frame ..)
      | with_reducible apply Frame.then_ ?_ (State.wrAt_frame ..)
      | decide
      | dsimp only
      | split)
  clear_value v6
  have h_v7 : Frame [.csr, .pwr, .haul, .sch, .fst, .rrc, .obs, .sent, .fresh] s v7 := by
    simp only [v7]
    repeat' (first
      | with_reducible apply Frame.refl
      | with_reducible assumption
      | with_reducible apply Frame.ite
      | with_reducible apply Frame.then_ ?_ (State.flush_frame ..)
      | with_reducible apply Frame.then_ ?_ (State.incAt_frame ..)
      | with_reducible apply Frame.then_ ?_ (State.notice_frame ..)
      | with_reducible apply Frame.then_ ?_ (State.portCameUp_frame ..)
      | with_reducible apply Frame.then_ ?_ (State.setPort_frame ..)
      | with_reducible apply Frame.then_ ?_ (State.setTrain_frame ..)
      | with_reducible apply Frame.then_ ?_ (State.showLanes_frame ..)
      | with_reducible apply Frame.then_ ?_ (State.wrAt_frame ..)
      | decide
      | dsimp only
      | split)
  clear_value v7
  have h_v8 : Frame [.csr, .pwr, .haul, .sch, .fst, .rrc, .obs, .sent, .fresh] s v8 := by
    simp only [v8]
    repeat' (first
      | with_reducible apply Frame.refl
      | with_reducible assumption
      | with_reducible apply Frame.ite
      | with_reducible apply Frame.then_ ?_ (State.flush_frame ..)
      | with_reducible apply Frame.then_ ?_ (State.incAt_frame ..)
      | with_reducible apply Frame.then_ ?_ (State.notice_frame ..)
      | with_reducible apply Frame.then_ ?_ (State.portCameUp_frame ..)
      | with_reducible apply Frame.then_ ?_ (State.setPort_frame ..)
      | with_reducible apply Frame.then_ ?_ (State.setTrain_frame ..)
      | with_reducible apply Frame.then_ ?_ (State.showLanes_frame ..)
      | with_reducible apply Frame.then_ ?_ (State.wrAt_frame ..)
      | decide
      | dsimp only
      | split)
  clear_value v8
  have h_v9 : Frame [.csr, .pwr, .haul, .sch, .fst, .rrc, .obs, .sent, .fresh] s v9 := by
    simp only [v9]
    repeat' (first
      | with_reducible apply Frame.refl
      | with_reducible assumption
      | with_reducible apply Frame.ite
      | with_reducible apply Frame.then_ ?_ (State.flush_frame ..)
      | with_reducible apply Frame.then_ ?_ (State.incAt_frame ..)
      | with_reducible apply Frame.then_ ?_ (State.notice_frame ..)
      | with_reducible apply Frame.then_ ?_ (State.portCameUp_frame ..)
      | with_reducible apply Frame.then_ ?_ (State.setPort_frame ..)
      | with_reducible apply Frame.then_ ?_ (State.setTrain_frame ..)
      | with_reducible apply Frame.then_ ?_ (State.showLanes_frame ..)
      | with_reducible apply Frame.then_ ?_ (State.wrAt_frame ..)
      | decide
      | dsimp only
      | split)
  clear_value v9
  have h_v10 : Frame [.csr, .pwr, .haul, .sch, .fst, .rrc, .obs, .sent, .fresh] s v10 := by
    simp only [v10]
    repeat' (first
      | with_reducible apply Frame.refl
      | with_reducible assumption
      | with_reducible apply Frame.ite
      | with_reducible apply Frame.then_ ?_ (State.flush_frame ..)
      | with_reducible apply Frame.then_ ?_ (State.incAt_frame ..)
      | with_reducible apply Frame.then_ ?_ (State.notice_frame ..)
      | with_reducible apply Frame.then_ ?_ (State.portCameUp_frame ..)
      | with_reducible apply Frame.then_ ?_ (State.setPort_frame ..)
      | with_reducible apply Frame.then_ ?_ (State.setTrain_frame ..)
      | with_reducible apply Frame.then_ ?_ (State.showLanes_frame ..)
      | with_reducible apply Frame.then_ ?_ (State.wrAt_frame ..)
      | decide
      | dsimp only
      | split)
  clear_value v10
  have h_v11 : Frame [.csr, .pwr, .haul, .sch, .fst, .rrc, .obs, .sent, .fresh] s v11 := by
    simp only [v11]
    repeat' (first
      | with_reducible apply Frame.refl
      | with_reducible assumption
      | with_reducible apply Frame.ite
      | with_reducible apply Frame.then_ ?_ (State.flush_frame ..)
      | with_reducible apply Frame.then_ ?_ (State.incAt_frame ..)
      | with_reducible apply Frame.then_ ?_ (State.notice_frame ..)
      | with_reducible apply Frame.then_ ?_ (State.portCameUp_frame ..)
      | with_reducible apply Frame.then_ ?_ (State.setPort_frame ..)
      | with_reducible apply Frame.then_ ?_ (State.setTrain_frame ..)
      | with_reducible apply Frame.then_ ?_ (State.showLanes_frame ..)
      | with_reducible apply Frame.then_ ?_ (State.wrAt_frame ..)
      | decide
      | dsimp only
      | split)
  clear_value v11
  repeat' (first
    | with_reducible apply Frame.refl
    | with_reducible assumption
    | with_reducible apply Frame.ite
    | with_reducible apply Frame.then_ ?_ (State.flush_frame ..)
    | with_reducible apply Frame.then_ ?_ (State.incAt_frame ..)
    | with_reducible apply Frame.then_ ?_ (State.notice_frame ..)
    | with_reducible apply Frame.then_ ?_ (State.portCameUp_frame ..)
    | with_reducible apply Frame.then_ ?_ (State.setPort_frame ..)
    | with_reducible apply Frame.then_ ?_ (State.setTrain_frame ..)
    | with_reducible apply Frame.then_ ?_ (State.showLanes_frame ..)
    | with_reducible apply Frame.then_ ?_ (State.wrAt_frame ..)
    | decide
    | dsimp only
    | split)

theorem execEchoRespReceived_frame (port : Fin 16) (blk : WireBlock) (arrival : Stamp) (s : State) :
    Frames [.csr, .pwr, .haul, .sch, .fst, .rrc, .obs, .sent, .fresh] s (execEchoRespReceived port blk arrival s) := by
  unfold execEchoRespReceived
  have hc := State.checkBlock_frame s port blk
  split
  · generalize s.checkBlock port blk = r at hc ⊢
    obtain ⟨x, b⟩ := r
    replace hc : Frame [.csr, .pwr, .haul, .sch, .fst, .rrc, .obs, .sent, .fresh] s x := (Frame.refl _ s).then_ hc (by decide)
    clear * - hc
    cases b with
    | none => exact .next hc
    | some b =>
      dsimp only
      generalize (_ ++ _ : List Int) = l
      generalize Announce.decode b.data = d
      cases d
      all_goals repeat' (first
        | with_reducible assumption
        | with_reducible apply Frames.next
        | ((with_reducible apply Frame.then_ ?_ (State.reservedDrop_frame ..) ?zsub); case zsub => decide)
        | ((with_reducible apply Frame.then_ ?_ (State.linkDown_frame ..) ?zsub); case zsub => decide)
        | ((with_reducible apply Frame.then_ ?_ (State.setPort_frame ..) ?zsub); case zsub => decide)
        | ((with_reducible apply Frame.then_ ?_ (State.trainFail_frame ..) ?zsub); case zsub => decide)
        | ((with_reducible apply Frame.then_ ?_ (State.linkUp_frame ..) ?zsub); case zsub => decide)
        | dsimp only
        | split)
  · exact .next (.refl _ s)

theorem execLinkDownTimeout_frame (port : Fin 16) (s : State) :
    Frames [.csr, .haul, .sch, .fst, .obs, .sent, .fresh] s (execLinkDownTimeout port s) := by
  unfold execLinkDownTimeout
  try dsimp only
  repeat' (first
    | with_reducible apply Frame.refl
    | with_reducible assumption
    | with_reducible apply Frames.next
    | with_reducible apply Frames.fault
    | with_reducible apply Frames.refused
    | with_reducible apply Frame.ite
    | with_reducible apply Frames.ite
    | with_reducible apply Frame.then_ ?_ (State.linkDown_frame ..)
    | decide
    | dsimp only
    | split)

theorem State.resetPortRegs_frame (s : State) (p : Nat) :
    Frame [.csr] s (State.resetPortRegs s p) := by
  unfold State.resetPortRegs
  try dsimp only
  repeat' (first
    | with_reducible apply Frame.refl
    | with_reducible assumption
    | with_reducible apply Frame.ite
    | with_reducible apply Frame.then_ ?_ (State.clearAt_frame ..)
    | decide
    | with_reducible apply Frame.foldl_fst
    | with_reducible apply Frame.foldl
    | intro y a b c hy
    | intro y a hy
    | intro y hy
    | dsimp only
    | split)

theorem execHaulPortReset_frame (port : Fin 16) (s : State) :
    Frames [.csr, .haul, .sch, .fst, .obs, .sent, .fresh] s (execHaulPortReset port s) := by
  unfold execHaulPortReset
  extract_lets v0 v1
  have h_v0 : Frame [.csr, .haul, .sch, .fst, .obs, .sent, .fresh] s v0 := by
    simp only [v0]
    repeat' (first
      | with_reducible apply Frame.refl
      | with_reducible assumption
      | with_reducible apply Frames.next
      | with_reducible apply Frames.fault
      | with_reducible apply Frames.refused
      | with_reducible apply Frame.ite
      | with_reducible apply Frames.ite
      | with_reducible apply Frame.then_ ?_ (State.linkDown_frame ..)
      | with_reducible apply Frame.then_ ?_ (State.resetPortRegs_frame ..)
      | with_reducible apply Frame.then_ ?_ (State.setPort_frame ..)
      | with_reducible apply Frame.then_ ?_ (State.setTrain_frame ..)
      | with_reducible apply Frame.then_ ?_ (State.showMarks_frame ..)
      | decide
      | dsimp only
      | split)
  clear_value v0
  have h_v1 : Frame [.csr, .haul, .sch, .fst, .obs, .sent, .fresh] s v1 := by
    simp only [v1]
    repeat' (first
      | with_reducible apply Frame.refl
      | with_reducible assumption
      | with_reducible apply Frames.next
      | with_reducible apply Frames.fault
      | with_reducible apply Frames.refused
      | with_reducible apply Frame.ite
      | with_reducible apply Frames.ite
      | with_reducible apply Frame.then_ ?_ (State.linkDown_frame ..)
      | with_reducible apply Frame.then_ ?_ (State.resetPortRegs_frame ..)
      | with_reducible apply Frame.then_ ?_ (State.setPort_frame ..)
      | with_reducible apply Frame.then_ ?_ (State.setTrain_frame ..)
      | with_reducible apply Frame.then_ ?_ (State.showMarks_frame ..)
      | decide
      | dsimp only
      | split)
  clear_value v1
  repeat' (first
    | with_reducible apply Frame.refl
    | with_reducible assumption
    | with_reducible apply Frames.next
    | with_reducible apply Frames.fault
    | with_reducible apply Frames.refused
    | with_reducible apply Frame.ite
    | with_reducible apply Frames.ite
    | with_reducible apply Frame.then_ ?_ (State.linkDown_frame ..)
    | with_reducible apply Frame.then_ ?_ (State.resetPortRegs_frame ..)
    | with_reducible apply Frame.then_ ?_ (State.setPort_frame ..)
    | with_reducible apply Frame.then_ ?_ (State.setTrain_frame ..)
    | with_reducible apply Frame.then_ ?_ (State.showMarks_frame ..)
    | decide
    | dsimp only
    | split)

theorem execHaulRetrain_frame (port : Fin 16) (s : State) :
    Frames [.csr, .haul, .sch, .fst, .obs, .sent, .fresh] s (execHaulRetrain port s) := by
  unfold execHaulRetrain
  try dsimp only
  repeat' (first
    | with_reducible apply Frame.refl
    | with_reducible assumption
    | with_reducible apply Frames.next
    | with_reducible apply Frames.fault
    | with_reducible apply Frames.refused
    | with_reducible apply Frame.ite
    | with_reducible apply Frames.ite
    | with_reducible apply Frame.then_ ?_ (State.linkDown_frame ..)
    | with_reducible apply Frame.then_ ?_ (State.setPort_frame ..)
    | with_reducible apply Frame.then_ ?_ (State.setTrain_frame ..)
    | decide
    | dsimp only
    | split)

theorem execHaulPortEnable_frame (port : Fin 16) (enable : Bool) (s : State) :
    Frames [.csr, .haul, .sch, .fst, .obs, .sent, .fresh] s (execHaulPortEnable port enable s) := by
  unfold execHaulPortEnable
  extract_lets v0 v1
  have h_v0 : Frame [.csr, .haul, .sch, .fst, .obs, .sent, .fresh] s v0 := by
    simp only [v0]
    repeat' (first
      | with_reducible apply Frame.refl
      | with_reducible assumption
      | with_reducible apply Frames.next
      | with_reducible apply Frames.fault
      | with_reducible apply Frames.refused
      | with_reducible apply Frame.ite
      | with_reducible apply Frames.ite
      | with_reducible apply Frame.then_ ?_ (State.emit_frame ..)
      | with_reducible apply Frame.then_ ?_ (State.linkDown_frame ..)
      | with_reducible apply Frame.then_ ?_ (State.setPort_frame ..)
      | with_reducible apply Frame.then_ ?_ (State.setTrain_frame ..)
      | with_reducible apply Frame.then_ ?_ (State.wrAt_frame ..)
      | decide
      | dsimp only
      | split)
  clear_value v0
  have h_v1 : Frame [.csr, .haul, .sch, .fst, .obs, .sent, .fresh] s v1 := by
    simp only [v1]
    repeat' (first
      | with_reducible apply Frame.refl
      | with_reducible assumption
      | with_reducible apply Frames.next
      | with_reducible apply Frames.fault
      | with_reducible apply Frames.refused
      | with_reducible apply Frame.ite
      | with_reducible apply Frames.ite
      | with_reducible apply Frame.then_ ?_ (State.emit_frame ..)
      | with_reducible apply Frame.then_ ?_ (State.linkDown_frame ..)
      | with_reducible apply Frame.then_ ?_ (State.setPort_frame ..)
      | with_reducible apply Frame.then_ ?_ (State.setTrain_frame ..)
      | with_reducible apply Frame.then_ ?_ (State.wrAt_frame ..)
      | decide
      | dsimp only
      | split)
  clear_value v1
  repeat' (first
    | with_reducible apply Frame.refl
    | with_reducible assumption
    | with_reducible apply Frames.next
    | with_reducible apply Frames.fault
    | with_reducible apply Frames.refused
    | with_reducible apply Frame.ite
    | with_reducible apply Frames.ite
    | with_reducible apply Frame.then_ ?_ (State.emit_frame ..)
    | with_reducible apply Frame.then_ ?_ (State.linkDown_frame ..)
    | with_reducible apply Frame.then_ ?_ (State.setPort_frame ..)
    | with_reducible apply Frame.then_ ?_ (State.setTrain_frame ..)
    | with_reducible apply Frame.then_ ?_ (State.wrAt_frame ..)
    | decide
    | dsimp only
    | split)

end Sys2Proof.Machine
end

