-- ==== Sys2Proof/Laws/FrameLane.lean ====
section
/-! SUPPORT. One frame lemma for every operation of Machine/Lane.lean: the parts of the state that it may change. -/

set_option Elab.async false
set_option linter.unusedTactic false
set_option linter.unreachableTactic false

namespace Sys2Proof.Machine

open Sys2Proof

theorem execFillReceived_frame (port : Fin 16) (blk : WireBlock) (s : State) :
    Frames [.csr, .haul, .sch, .fst, .obs, .sent, .fresh] s (execFillReceived port blk s) := by
  unfold execFillReceived
  try dsimp only
  repeat' (first
    | with_reducible apply Frame.refl
    | with_reducible assumption
    | with_reducible apply Frames.next
    | with_reducible apply Frames.fault
    | with_reducible apply Frames.refused
    | with_reducible apply Frame.ite
    | with_reducible apply Frames.ite
    | with_reducible apply Frame.then_ ?_ (State.accept_frame ..)
    | (with_reducible apply Frame.then_ ?_ (Frame.of_eq (State.accept_frame ..) (by assumption)))
    | decide
    | dsimp only
    | split)

theorem execAckReceived_frame (port : Fin 16) (blk : WireBlock) (s : State) :
    Frames [.csr, .haul, .sch, .fst, .obs, .sent, .fresh] s (execAckReceived port blk s) := by
  unfold execAckReceived
  try dsimp only
  repeat' (first
    | with_reducible apply Frame.refl
    | with_reducible assumption
    | with_reducible apply Frames.next
    | with_reducible apply Frames.fault
    | with_reducible apply Frames.refused
    | with_reducible apply Frame.ite
    | with_reducible apply Frames.ite
    | with_reducible apply Frame.then_ ?_ (State.accept_frame ..)
    | (with_reducible apply Frame.then_ ?_ (Frame.of_eq (State.accept_frame ..) (by assumption)))
    | decide
    | dsimp only
    | split)

theorem execNakReceived_frame (port : Fin 16) (blk : WireBlock) (s : State) :
    Frames [.csr, .haul, .sch, .fst, .obs, .sent, .fresh] s (execNakReceived port blk s) := by
  unfold execNakReceived
  try dsimp only
  repeat' (first
    | with_reducible apply Frame.refl
    | with_reducible assumption
    | with_reducible apply Frames.next
    | with_reducible apply Frames.fault
    | with_reducible apply Frames.refused
    | with_reducible apply Frame.ite
    | with_reducible apply Frames.ite
    | with_reducible apply Frame.then_ ?_ (State.accept_frame ..)
    | (with_reducible apply Frame.then_ ?_ (Frame.of_eq (State.accept_frame ..) (by assumption)))
    | with_reducible apply Frame.then_ ?_ (State.flush_frame ..)
    | with_reducible apply Frame.then_ ?_ (State.incAt_frame ..)
    | with_reducible apply Frame.then_ ?_ (State.setPort_frame ..)
    | with_reducible apply Frame.then_ ?_ (State.startReplay_frame ..)
    | decide
    | dsimp only
    | split)

theorem execAckDue_frame (port : Fin 16) (s : State) :
    Frames [.haul, .sent] s (execAckDue port s) := by
  unfold execAckDue
  try dsimp only
  repeat' (first
    | with_reducible apply Frame.refl
    | with_reducible assumption
    | with_reducible apply Frames.next
    | with_reducible apply Frames.fault
    | with_reducible apply Frames.refused
    | with_reducible apply Frame.ite
    | with_reducible apply Frames.ite
    | with_reducible apply Frame.then_ ?_ (State.answerDup_frame ..)
    | decide
    | dsimp only
    | split)

theorem execNakTimerExpiry_frame (port : Fin 16) (s : State) :
    Frames [.haul, .sent] s (execNakTimerExpiry port s) := by
  unfold execNakTimerExpiry
  try dsimp only
  repeat' (first
    | with_reducible apply Frame.refl
    | with_reducible assumption
    | with_reducible apply Frames.next
    | with_reducible apply Frames.fault
    | with_reducible apply Frames.refused
    | with_reducible apply Frame.ite
    | with_reducible apply Frames.ite
    | with_reducible apply Frame.then_ ?_ (State.sendPlain_frame ..)
    | decide
    | dsimp only
    | split)

theorem execReplayTimerExpiry_frame (port : Fin 16) (s : State) :
    Frames [.csr, .haul, .sent] s (execReplayTimerExpiry port s) := by
  unfold execReplayTimerExpiry
  try dsimp only
  repeat' (first
    | with_reducible apply Frame.refl
    | with_reducible assumption
    | with_reducible apply Frames.next
    | with_reducible apply Frames.fault
    | with_reducible apply Frames.refused
    | with_reducible apply Frame.ite
    | with_reducible apply Frames.ite
    | with_reducible apply Frame.then_ ?_ (State.incAt_frame ..)
    | with_reducible apply Frame.then_ ?_ (State.setPort_frame ..)
    | with_reducible apply Frame.then_ ?_ (State.startReplay_frame ..)
    | with_reducible apply Frame.then_ ?_ (State.wrAt_frame ..)
    | decide
    | dsimp only
    | split)

theorem State.sendMarker_frame (s : State) (p : Nat) (depart : Stamp) :
    Frame [.csr, .haul, .sent] s (State.sendMarker s p depart) := by
  unfold State.sendMarker
  try dsimp only
  repeat' (first
    | with_reducible apply Frame.refl
    | with_reducible assumption
    | with_reducible apply Frame.ite
    | with_reducible apply Frame.then_ ?_ (State.incAt_frame ..)
    | with_reducible apply Frame.then_ ?_ (State.sendPlain_frame ..)
    | with_reducible apply Frame.then_ ?_ (State.setPort_frame ..)
    | decide
    | dsimp only
    | split)

theorem execMarkerDue_frame (port : Fin 16) (depart : Stamp) (s : State) :
    Frames [.csr, .haul, .sent] s (execMarkerDue port depart s) := by
  unfold execMarkerDue
  try dsimp only
  repeat' (first
    | with_reducible apply Frame.refl
    | with_reducible assumption
    | with_reducible apply Frames.next
    | with_reducible apply Frames.fault
    | with_reducible apply Frames.refused
    | with_reducible apply Frame.ite
    | with_reducible apply Frames.ite
    | with_reducible apply Frame.then_ ?_ (State.onTimers_frame ..)
    | with_reducible apply Frame.then_ ?_ (State.sendMarker_frame ..)
    | with_reducible apply Frame.then_ ?_ (State.setPort_frame ..)
    | decide
    | dsimp only
    | split)

theorem State.afterReplay_frame (s : State) (p : Nat) :
    Frame [.csr, .haul, .sch, .sent, .fresh] s (State.afterReplay s p) := by
  unfold State.afterReplay
  extract_lets v0 v1 v2 v3
  have h_v0 : Frame [.csr, .haul, .sch, .sent, .fresh] s v0 := by
    simp only [v0]
    repeat' (first
      | with_reducible apply Frame.refl
      | with_reducible assumption
      | with_reducible apply Frame.ite
      | with_reducible apply Frame.then_ ?_ (State.drawn_frame ..)
      | with_reducible apply Frame.then_ ?_ (State.flush_frame ..)
      | with_reducible apply Frame.then_ ?_ (State.sendMarker_frame ..)
      | with_reducible apply Frame.then_ ?_ (State.sendPlain_frame ..)
      | with_reducible apply Frame.then_ ?_ (State.sendSched_frame ..)
      | with_reducible apply Frame.then_ ?_ (State.setPort_frame ..)
      | decide
      | dsimp only
      | split)
  clear_value v0
  have h_v1 : Frame [.csr, .haul, .sch, .sent, .fresh] s v1 := by
    simp only [v1]
    repeat' (first
      | with_reducible apply Frame.refl
      | with_reducible assumption
      | with_reducible apply Frame.ite
      | with_reducible apply Frame.then_ ?_ (State.drawn_frame ..)
      | with_reducible apply Frame.then_ ?_ (State.flush_frame ..)
      | with_reducible apply Frame.then_ ?_ (State.sendMarker_frame ..)
      | with_reducible apply Frame.then_ ?_ (State.sendPlain_frame ..)
      | with_reducible apply Frame.then_ ?_ (State.sendSched_frame ..)
      | with_reducible apply Frame.then_ ?_ (State.setPort_frame ..)
      | decide
      | dsimp only
      | split)
  clear_value v1
  clear_value v2
  have h_v3 : Frame [.csr, .haul, .sch, .sent, .fresh] s v3 := by
    simp only [v3]
    repeat' (first
      | with_reducible apply Frame.refl
      | with_reducible assumption
      | with_reducible apply Frame.ite
      | with_reducible apply Frame.then_ ?_ (State.drawn_frame ..)
      | with_reducible apply Frame.then_ ?_ (State.flush_frame ..)
      | with_reducible apply Frame.then_ ?_ (State.sendMarker_frame ..)
      | with_reducible apply Frame.then_ ?_ (State.sendPlain_frame ..)
      | with_reducible apply Frame.then_ ?_ (State.sendSched_frame ..)
      | with_reducible apply Frame.then_ ?_ (State.setPort_frame ..)
      | decide
      | dsimp only
      | split)
  clear_value v3
  repeat' (first
    | with_reducible apply Frame.refl
    | with_reducible assumption
    | with_reducible apply Frame.ite
    | with_reducible apply Frame.then_ ?_ (State.drawn_frame ..)
    | with_reducible apply Frame.then_ ?_ (State.flush_frame ..)
    | with_reducible apply Frame.then_ ?_ (State.sendMarker_frame ..)
    | with_reducible apply Frame.then_ ?_ (State.sendPlain_frame ..)
    | with_reducible apply Frame.then_ ?_ (State.sendSched_frame ..)
    | with_reducible apply Frame.then_ ?_ (State.setPort_frame ..)
    | decide
    | dsimp only
    | split)

theorem execLinkReplayEnd_frame (port : Fin 16) (s : State) :
    Frames [.csr, .haul, .sch, .sent, .fresh] s (execLinkReplayEnd port s) := by
  unfold execLinkReplayEnd
  try dsimp only
  repeat' (first
    | with_reducible apply Frame.refl
    | with_reducible assumption
    | with_reducible apply Frames.next
    | with_reducible apply Frames.fault
    | with_reducible apply Frames.refused
    | with_reducible apply Frame.ite
    | with_reducible apply Frames.ite
    | with_reducible apply Frame.then_ ?_ (State.afterReplay_frame ..)
    | with_reducible apply Frame.then_ ?_ (State.setPort_frame ..)
    | decide
    | dsimp only
    | split)

theorem State.setLaneState_frame (s : State) (p : Nat) (x : Nat) (st : Nat) :
    Frame [.csr] s (State.setLaneState s p x st) := by
  unfold State.setLaneState
  try dsimp only
  repeat' (first
    | with_reducible apply Frame.refl
    | with_reducible assumption
    | with_reducible apply Frame.ite
    | with_reducible apply Frame.then_ ?_ (State.wrAt_frame ..)
    | decide
    | dsimp only
    | split)

theorem State.setSpare_frame (s : State) (p : Nat) (x : Option Nat) :
    Frame [.csr] s (State.setSpare s p x) := by
  unfold State.setSpare
  try dsimp only
  repeat' (first
    | with_reducible apply Frame.refl
    | with_reducible assumption
    | with_reducible apply Frame.ite
    | with_reducible apply Frame.then_ ?_ (State.setLaneState_frame ..)
    | with_reducible apply Frame.then_ ?_ (State.wrAt_frame ..)
    | decide
    | dsimp only
    | split)

theorem State.noSpare_frame (s : State) (p : Nat) :
    Frame [.csr] s (State.noSpare s p) := by
  unfold State.noSpare
  try dsimp only
  repeat' (first
    | with_reducible apply Frame.refl
    | with_reducible assumption
    | with_reducible apply Frame.ite
    | with_reducible apply Frame.then_ ?_ (State.setSpare_frame ..)
    | with_reducible apply Frame.then_ ?_ (State.wrAt_frame ..)
    | decide
    | dsimp only
    | split)

theorem State.laneFailed_frame (s : State) (p : Nat) (x : Nat) :
    Frame [.csr, .haul] s (State.laneFailed s p x) := by
  unfold State.laneFailed
  try dsimp only
  repeat' (first
    | with_reducible apply Frame.refl
    | with_reducible assumption
    | with_reducible apply Frame.ite
    | with_reducible apply Frame.then_ ?_ (State.incAt_frame ..)
    | with_reducible apply Frame.then_ ?_ (State.onTimers_frame ..)
    | with_reducible apply Frame.then_ ?_ (State.setLaneState_frame ..)
    | with_reducible apply Frame.then_ ?_ (State.wrAt_frame ..)
    | decide
    | dsimp only
    | split)

theorem State.sendLane_frame (s : State) (p : Nat) (m : LaneMsg) (a : Nat) :
    Frame [.haul, .sent] s (State.sendLane s p m a) := by
  induction a generalizing s p m with
  | zero =>
    first
      | exact Frame.refl _ _
      | (rw [State.sendLane]
         repeat' (first
           | with_reducible apply Frame.refl
           | with_reducible assumption
           | with_reducible apply Frame.ite
           | with_reducible apply Frame.then_ ?_ (State.sendPlain_frame ..)
           | decide
           | dsimp only
           | split))
  | succ m ih =>
    rw [State.sendLane]
    try dsimp only
    repeat' (first
      | with_reducible apply Frame.refl
      | with_reducible assumption
      | with_reducible apply Frame.ite
      | with_reducible apply Frame.then_ ?_ (ih ..)
      | with_reducible apply Frame.then_ ?_ (State.sendPlain_frame ..)
      | decide
      | dsimp only
      | split)

theorem State.showLock_frame (s : State) (p : Nat) :
    Frame [.csr, .haul] s (State.showLock s p) := by
  unfold State.showLock
  try dsimp only
  repeat' (first
    | with_reducible apply Frame.refl
    | with_reducible assumption
    | with_reducible apply Frame.ite
    | with_reducible apply Frame.then_ ?_ (State.setPort_frame ..)
    | with_reducible apply Frame.then_ ?_ (State.wrAt_frame ..)
    | decide
    | dsimp only
    | split)

theorem execLaneLockLost_frame (port : Fin 16) (lane : Fin 9) (s : State) :
    Frames [.csr, .pwr, .haul, .rrc, .obs, .sent, .fresh] s (execLaneLockLost port lane s) := by
  unfold execLaneLockLost
  try dsimp only
  repeat' (first
    | with_reducible apply Frame.refl
    | with_reducible assumption
    | with_reducible apply Frames.next
    | with_reducible apply Frames.fault
    | with_reducible apply Frames.refused
    | with_reducible apply Frame.ite
    | with_reducible apply Frames.ite
    | with_reducible apply Frame.then_ ?_ (State.incAt_frame ..)
    | with_reducible apply Frame.then_ ?_ (State.setPort_frame ..)
    | with_reducible apply Frame.then_ ?_ (State.showLock_frame ..)
    | with_reducible apply Frame.then_ ?_ (State.trainFail_frame ..)
    | decide
    | dsimp only
    | split)

theorem execLaneLockRegained_frame (port : Fin 16) (lane : Fin 9) (s : State) :
    Frames [.csr, .haul] s (execLaneLockRegained port lane s) := by
  unfold execLaneLockRegained
  try dsimp only
  repeat' (first
    | with_reducible apply Frame.refl
    | with_reducible assumption
    | with_reducible apply Frames.next
    | with_reducible apply Frames.fault
    | with_reducible apply Frames.refused
    | with_reducible apply Frame.ite
    | with_reducible apply Frames.ite
    | with_reducible apply Frame.then_ ?_ (State.setPort_frame ..)
    | with_reducible apply Frame.then_ ?_ (State.showLock_frame ..)
    | decide
    | dsimp only
    | split)

theorem State.startSwap_frame (s : State) (p : Nat) (l : Nat) (x : Nat) (y : Nat) :
    Frame [.csr, .haul, .sent] s (State.startSwap s p l x y) := by
  unfold State.startSwap
  try dsimp only
  repeat' (first
    | with_reducible apply Frame.refl
    | with_reducible assumption
    | with_reducible apply Frame.ite
    | with_reducible apply Frame.then_ ?_ (State.sendLane_frame ..)
    | with_reducible apply Frame.then_ ?_ (State.setPort_frame ..)
    | with_reducible apply Frame.then_ ?_ (State.wrAt_frame ..)
    | decide
    | dsimp only
    | split)

theorem State.abandonRot_frame (s : State) (p : Nat) :
    Frame [.csr, .haul] s (State.abandonRot s p) := by
  unfold State.abandonRot
  try dsimp only
  repeat' (first
    | with_reducible apply Frame.refl
    | with_reducible assumption
    | with_reducible apply Frame.ite
    | with_reducible apply Frame.then_ ?_ (State.setPort_frame ..)
    | with_reducible apply Frame.then_ ?_ (State.setSpare_frame ..)
    | with_reducible apply Frame.then_ ?_ (State.wrAt_frame ..)
    | decide
    | dsimp only
    | split)

theorem State.remap_frame (s : State) (p : Nat) (l : Nat) (y : Nat) :
    Frame [.csr] s (State.remap s p l y) := by
  unfold State.remap
  try dsimp only
  repeat' (first
    | with_reducible apply Frame.refl
    | with_reducible assumption
    | with_reducible apply Frame.ite
    | with_reducible apply Frame.then_ ?_ (State.setLaneState_frame ..)
    | with_reducible apply Frame.then_ ?_ (State.wrAt_frame ..)
    | decide
    | dsimp only
    | split)

theorem execLaneFail_frame (port : Fin 16) (lane : Fin 9) (s : State) :
    Frames [.csr, .haul, .sent] s (execLaneFail port lane s) := by
  unfold execLaneFail
  extract_lets v0 v1 v2 v3 v4 v5 v6
  clear_value v0
  clear_value v1
  clear_value v2
  clear_value v3
  have h_v4 : Frame [.csr, .haul, .sent] s v4 := by
    simp only [v4]
    repeat' (first
      | with_reducible apply Frame.refl
      | with_reducible assumption
      | with_reducible apply Frames.next
      | with_reducible apply Frames.fault
      | with_reducible apply Frames.refused
      | with_reducible apply Frame.ite
      | with_reducible apply Frames.ite
      | with_reducible apply Frame.then_ ?_ (State.abandonRot_frame ..)
      | with_reducible apply Frame.then_ ?_ (State.laneFailed_frame ..)
      | with_reducible apply Frame.then_ ?_ (State.noSpare_frame ..)
      | with_reducible apply Frame.then_ ?_ (State.remap_frame ..)
      | with_reducible apply Frame.then_ ?_ (State.sendLane_frame ..)
      | with_reducible apply Frame.then_ ?_ (State.setPort_frame ..)
      | with_reducible apply Frame.then_ ?_ (State.showLock_frame ..)
      | with_reducible apply Frame.then_ ?_ (State.startSwap_frame ..)
      | with_reducible apply Frame.then_ ?_ (State.wrAt_frame ..)
      | decide
      | dsimp only
      | split)
  clear_value v4
  have h_v5 : Frame [.csr, .haul, .sent] s v5 := by
    simp only [v5]
    repeat' (first
      | with_reducible apply Frame.refl
      | with_reducible assumption
      | with_reducible apply Frames.next
      | with_reducible apply Frames.fault
      | with_reducible apply Frames.refused
      | with_reducible apply Frame.ite
      | with_reducible apply Frames.ite
      | with_reducible apply Frame.then_ ?_ (State.abandonRot_frame ..)
      | with_reducible apply Frame.then_ ?_ (State.laneFailed_frame ..)
      | with_reducible apply Frame.then_ ?_ (State.noSpare_frame ..)
      | with_reducible apply Frame.then_ ?_ (State.remap_frame ..)
      | with_reducible apply Frame.then_ ?_ (State.sendLane_frame ..)
      | with_reducible apply Frame.then_ ?_ (State.setPort_frame ..)
      | with_reducible apply Frame.then_ ?_ (State.showLock_frame ..)
      | with_reducible apply Frame.then_ ?_ (State.startSwap_frame ..)
      | with_reducible apply Frame.then_ ?_ (State.wrAt_frame ..)
      | decide
      | dsimp only
      | split)
  clear_value v5
  have h_v6 : Frame [.csr, .haul, .sent] s v6 := by
    simp only [v6]
    repeat' (first
      | with_reducible apply Frame.refl
      | with_reducible assumption
      | with_reducible apply Frames.next
      | with_reducible apply Frames.fault
      | with_reducible apply Frames.refused
      | with_reducible apply Frame.ite
      | with_reducible apply Frames.ite
      | with_reducible apply Frame.then_ ?_ (State.abandonRot_frame ..)
      | with_reducible apply Frame.then_ ?_ (State.laneFailed_frame ..)
      | with_reducible apply Frame.then_ ?_ (State.noSpare_frame ..)
      | with_reducible apply Frame.then_ ?_ (State.remap_frame ..)
      | with_reducible apply Frame.then_ ?_ (State.sendLane_frame ..)
      | with_reducible apply Frame.then_ ?_ (State.setPort_frame ..)
      | with_reducible apply Frame.then_ ?_ (State.showLock_frame ..)
      | with_reducible apply Frame.then_ ?_ (State.startSwap_frame ..)
      | with_reducible apply Frame.then_ ?_ (State.wrAt_frame ..)
      | decide
      | dsimp only
      | split)
  clear_value v6
  repeat' (first
    | with_reducible apply Frame.refl
    | with_reducible assumption
    | with_reducible apply Frames.next
    | with_reducible apply Frames.fault
    | with_reducible apply Frames.refused
    | with_reducible apply Frame.ite
    | with_reducible apply Frames.ite
    | with_reducible apply Frame.then_ ?_ (State.abandonRot_frame ..)
    | with_reducible apply Frame.then_ ?_ (State.laneFailed_frame ..)
    | with_reducible apply Frame.then_ ?_ (State.noSpare_frame ..)
    | with_reducible apply Frame.then_ ?_ (State.remap_frame ..)
    | with_reducible apply Frame.then_ ?_ (State.sendLane_frame ..)
    | with_reducible apply Frame.then_ ?_ (State.setPort_frame ..)
    | with_reducible apply Frame.then_ ?_ (State.showLock_frame ..)
    | with_reducible apply Frame.then_ ?_ (State.startSwap_frame ..)
    | with_reducible apply Frame.then_ ?_ (State.wrAt_frame ..)
    | decide
    | dsimp only
    | split)

theorem execSwapReqResend_frame (port : Fin 16) (s : State) :
    Frames [.haul, .sent] s (execSwapReqResend port s) := by
  unfold execSwapReqResend
  try dsimp only
  repeat' (first
    | with_reducible apply Frame.refl
    | with_reducible assumption
    | with_reducible apply Frames.next
    | with_reducible apply Frames.fault
    | with_reducible apply Frames.refused
    | with_reducible apply Frame.ite
    | with_reducible apply Frames.ite
    | with_reducible apply Frame.then_ ?_ (State.onTimers_frame ..)
    | with_reducible apply Frame.then_ ?_ (State.sendLane_frame ..)
    | decide
    | dsimp only
    | split)

theorem State.laneMsg_frame (s : State) (p : Nat) (w : WireBlock) :
    Frame [.csr, .haul, .sch, .fst, .obs, .sent, .fresh] s (State.laneMsg s p w).1 := by
  unfold State.laneMsg
  try dsimp only
  repeat' (first
    | with_reducible apply Frame.refl
    | with_reducible assumption
    | with_reducible apply Frame.ite
    | with_reducible apply Frame.then_ ?_ (State.accept_frame ..)
    | (with_reducible apply Frame.then_ ?_ (Frame.of_eq (State.accept_frame ..) (by assumption)))
    | with_reducible apply Frame.then_ ?_ (State.reservedDrop_frame ..)
    | decide
    | dsimp only
    | split)

theorem execSwapReqReceived_frame (port : Fin 16) (blk : WireBlock) (s : State) :
    Frames [.csr, .haul, .sch, .fst, .obs, .sent, .fresh] s (execSwapReqReceived port blk s) := by
  unfold execSwapReqReceived
  try dsimp only
  repeat' (first
    | with_reducible apply Frame.refl
    | with_reducible assumption
    | with_reducible apply Frames.next
    | with_reducible apply Frames.fault
    | with_reducible apply Frames.refused
    | with_reducible apply Frame.ite
    | with_reducible apply Frames.ite
    | with_reducible apply Frame.then_ ?_ (State.laneMsg_frame ..)
    | (with_reducible apply Frame.then_ ?_ (Frame.of_eq (State.laneMsg_frame ..) (by assumption)))
    | with_reducible apply Frame.then_ ?_ (State.sendLane_frame ..)
    | with_reducible apply Frame.then_ ?_ (State.setPort_frame ..)
    | with_reducible apply Frame.then_ ?_ (State.showMarks_frame ..)
    | with_reducible apply Frame.then_ ?_ (State.wrAt_frame ..)
    | decide
    | dsimp only
    | split)

theorem execSwapDoneReceived_frame (port : Fin 16) (blk : WireBlock) (s : State) :
    Frames [.csr, .haul, .sch, .fst, .obs, .sent, .fresh] s (execSwapDoneReceived port blk s) := by
  unfold execSwapDoneReceived
  try dsimp only
  repeat' (first
    | with_reducible apply Frame.refl
    | with_reducible assumption
    | with_reducible apply Frames.next
    | with_reducible apply Frames.fault
    | with_reducible apply Frames.refused
    | with_reducible apply Frame.ite
    | with_reducible apply Frames.ite
    | with_reducible apply Frame.then_ ?_ (State.laneMsg_frame ..)
    | (with_reducible apply Frame.then_ ?_ (Frame.of_eq (State.laneMsg_frame ..) (by assumption)))
    | with_reducible apply Frame.then_ ?_ (State.setPort_frame ..)
    | decide
    | dsimp only
    | split)

theorem State.switchRot_frame (s : State) (p : Nat) (r : LaneOp) :
    Frame [.csr, .haul, .sent] s (State.switchRot s p r) := by
  unfold State.switchRot
  try dsimp only
  repeat' (first
    | with_reducible apply Frame.refl
    | with_reducible assumption
    | with_reducible apply Frame.ite
    | with_reducible apply Frame.then_ ?_ (State.remap_frame ..)
    | with_reducible apply Frame.then_ ?_ (State.sendLane_frame ..)
    | with_reducible apply Frame.then_ ?_ (State.setLaneState_frame ..)
    | with_reducible apply Frame.then_ ?_ (State.setPort_frame ..)
    | with_reducible apply Frame.then_ ?_ (State.setSpare_frame ..)
    | with_reducible apply Frame.then_ ?_ (State.showLock_frame ..)
    | decide
    | dsimp only
    | split)

theorem execSwapRemap_frame (port : Fin 16) (s : State) :
    Frames [.csr, .haul, .obs, .sent, .fresh] s (execSwapRemap port s) := by
  unfold execSwapRemap
  try dsimp only
  repeat' (first
    | with_reducible apply Frame.refl
    | with_reducible assumption
    | with_reducible apply Frames.next
    | with_reducible apply Frames.fault
    | with_reducible apply Frames.refused
    | with_reducible apply Frame.ite
    | with_reducible apply Frames.ite
    | with_reducible apply Frame.then_ ?_ (State.incAt_frame ..)
    | with_reducible apply Frame.then_ ?_ (State.noSpare_frame ..)
    | with_reducible apply Frame.then_ ?_ (State.remap_frame ..)
    | with_reducible apply Frame.then_ ?_ (State.setPort_frame ..)
    | with_reducible apply Frame.then_ ?_ (State.showLock_frame ..)
    | with_reducible apply Frame.then_ ?_ (State.switchRot_frame ..)
    | with_reducible apply Frame.then_ ?_ (State.trace_frame ..)
    | with_reducible apply Frame.then_ ?_ (State.wrAt_frame ..)
    | decide
    | dsimp only
    | split)

theorem execSwapTimeout_frame (port : Fin 16) (s : State) :
    Frames [.csr, .haul] s (execSwapTimeout port s) := by
  unfold execSwapTimeout
  try dsimp only
  repeat' (first
    | with_reducible apply Frame.refl
    | with_reducible assumption
    | with_reducible apply Frames.next
    | with_reducible apply Frames.fault
    | with_reducible apply Frames.refused
    | with_reducible apply Frame.ite
    | with_reducible apply Frames.ite
    | with_reducible apply Frame.then_ ?_ (State.setPort_frame ..)
    | with_reducible apply Frame.then_ ?_ (State.wrAt_frame ..)
    | decide
    | dsimp only
    | split)

theorem State.startRot_frame (s : State) (p : Nat) (l : Nat) (x : Nat) (y : Nat) :
    Frame [.csr, .haul, .sent] s (State.startRot s p l x y) := by
  unfold State.startRot
  try dsimp only
  repeat' (first
    | with_reducible apply Frame.refl
    | with_reducible assumption
    | with_reducible apply Frame.ite
    | with_reducible apply Frame.then_ ?_ (State.sendLane_frame ..)
    | with_reducible apply Frame.then_ ?_ (State.setLaneState_frame ..)
    | with_reducible apply Frame.then_ ?_ (State.setPort_frame ..)
    | with_reducible apply Frame.then_ ?_ (State.wrAt_frame ..)
    | decide
    | dsimp only
    | split)

theorem State.rotate_frame (s : State) (p : Nat) :
    Frame [.csr, .haul, .sent] s (State.rotate s p) := by
  unfold State.rotate
  try dsimp only
  repeat' (first
    | with_reducible apply Frame.refl
    | with_reducible assumption
    | with_reducible apply Frame.ite
    | with_reducible apply Frame.then_ ?_ (State.onTimers_frame ..)
    | with_reducible apply Frame.then_ ?_ (State.startRot_frame ..)
    | decide
    | dsimp only
    | split)

theorem execLaneDegrade_frame (port : Fin 16) (lane : Fin 9) (symbols : Nat) (s : State) :
    Frames [.csr, .pwr, .haul, .rrc, .obs, .sent, .fresh] s (execLaneDegrade port lane symbols s) := by
  unfold execLaneDegrade
  try dsimp only
  repeat' (first
    | with_reducible apply Frame.refl
    | with_reducible assumption
    | with_reducible apply Frames.next
    | with_reducible apply Frames.fault
    | with_reducible apply Frames.refused
    | with_reducible apply Frame.ite
    | with_reducible apply Frames.ite
    | with_reducible apply Frame.then_ ?_ (State.addAt_frame ..)
    | with_reducible apply Frame.then_ ?_ (State.count_frame ..)
    | with_reducible apply Frame.then_ ?_ (State.notice_frame ..)
    | with_reducible apply Frame.then_ ?_ (State.startRot_frame ..)
    | with_reducible apply Frame.then_ ?_ (State.wrAt_frame ..)
    | decide
    | dsimp only
    | split)

theorem execRotationTimer_frame (port : Fin 16) (s : State) :
    Frames [.csr, .haul, .sent] s (execRotationTimer port s) := by
  unfold execRotationTimer
  try dsimp only
  repeat' (first
    | with_reducible apply Frame.refl
    | with_reducible assumption
    | with_reducible apply Frames.next
    | with_reducible apply Frames.fault
    | with_reducible apply Frames.refused
    | with_reducible apply Frame.ite
    | with_reducible apply Frames.ite
    | with_reducible apply Frame.then_ ?_ (State.rotate_frame ..)
    | decide
    | dsimp only
    | split)

theorem execForceRot_frame (port : Fin 16) (s : State) :
    Frames [.csr, .haul, .sent] s (execForceRot port s) := by
  unfold execForceRot
  try dsimp only
  repeat' (first
    | with_reducible apply Frame.refl
    | with_reducible assumption
    | with_reducible apply Frames.next
    | with_reducible apply Frames.fault
    | with_reducible apply Frames.refused
    | with_reducible apply Frame.ite
    | with_reducible apply Frames.ite
    | with_reducible apply Frame.then_ ?_ (State.rotate_frame ..)
    | decide
    | dsimp only
    | split)

theorem execRotStartReceived_frame (port : Fin 16) (blk : WireBlock) (s : State) :
    Frames [.csr, .haul, .sch, .fst, .obs, .sent, .fresh] s (execRotStartReceived port blk s) := by
  unfold execRotStartReceived
  try dsimp only
  repeat' (first
    | with_reducible apply Frame.refl
    | with_reducible assumption
    | with_reducible apply Frames.next
    | with_reducible apply Frames.fault
    | with_reducible apply Frames.refused
    | with_reducible apply Frame.ite
    | with_reducible apply Frames.ite
    | with_reducible apply Frame.then_ ?_ (State.laneMsg_frame ..)
    | (with_reducible apply Frame.then_ ?_ (Frame.of_eq (State.laneMsg_frame ..) (by assumption)))
    | with_reducible apply Frame.then_ ?_ (State.sendLane_frame ..)
    | with_reducible apply Frame.then_ ?_ (State.setPort_frame ..)
    | with_reducible apply Frame.then_ ?_ (State.showMarks_frame ..)
    | decide
    | dsimp only
    | split)

theorem execRotReadyReceived_frame (port : Fin 16) (blk : WireBlock) (marksAgree : Bool) (s : State) :
    Frames [.csr, .haul, .sch, .fst, .obs, .sent, .fresh] s (execRotReadyReceived port blk marksAgree s) := by
  unfold execRotReadyReceived
  try dsimp only
  repeat' (first
    | with_reducible apply Frame.refl
    | with_reducible assumption
    | with_reducible apply Frames.next
    | with_reducible apply Frames.fault
    | with_reducible apply Frames.refused
    | with_reducible apply Frame.ite
    | with_reducible apply Frames.ite
    | with_reducible apply Frame.then_ ?_ (State.laneMsg_frame ..)
    | (with_reducible apply Frame.then_ ?_ (Frame.of_eq (State.laneMsg_frame ..) (by assumption)))
    | with_reducible apply Frame.then_ ?_ (State.setPort_frame ..)
    | with_reducible apply Frame.then_ ?_ (State.switchRot_frame ..)
    | decide
    | dsimp only
    | split)

theorem execRotDoneReceived_frame (port : Fin 16) (blk : WireBlock) (s : State) :
    Frames [.csr, .haul, .sch, .fst, .obs, .sent, .fresh] s (execRotDoneReceived port blk s) := by
  unfold execRotDoneReceived
  try dsimp only
  repeat' (first
    | with_reducible apply Frame.refl
    | with_reducible assumption
    | with_reducible apply Frames.next
    | with_reducible apply Frames.fault
    | with_reducible apply Frames.refused
    | with_reducible apply Frame.ite
    | with_reducible apply Frames.ite
    | with_reducible apply Frame.then_ ?_ (State.laneMsg_frame ..)
    | (with_reducible apply Frame.then_ ?_ (Frame.of_eq (State.laneMsg_frame ..) (by assumption)))
    | with_reducible apply Frame.then_ ?_ (State.setPort_frame ..)
    | with_reducible apply Frame.then_ ?_ (State.showMarks_frame ..)
    | with_reducible apply Frame.then_ ?_ (State.wrAt_frame ..)
    | decide
    | dsimp only
    | split)

theorem execCalibrationEnd_frame (port : Fin 16) (symbols : Nat) (s : State) :
    Frames [.csr, .haul, .obs, .fresh] s (execCalibrationEnd port symbols s) := by
  unfold execCalibrationEnd
  extract_lets v0 v1 v2 v3
  clear_value v0
  clear_value v1
  have h_v2 : Frame [.csr, .haul, .obs, .fresh] s v2 := by
    simp only [v2]
    repeat' (first
      | with_reducible apply Frame.refl
      | with_reducible assumption
      | with_reducible apply Frames.next
      | with_reducible apply Frames.fault
      | with_reducible apply Frames.refused
      | with_reducible apply Frame.ite
      | with_reducible apply Frames.ite
      | with_reducible apply Frame.then_ ?_ (State.incAt_frame ..)
      | with_reducible apply Frame.then_ ?_ (State.laneFailed_frame ..)
      | with_reducible apply Frame.then_ ?_ (State.noSpare_frame ..)
      | with_reducible apply Frame.then_ ?_ (State.setPort_frame ..)
      | with_reducible apply Frame.then_ ?_ (State.setSpare_frame ..)
      | with_reducible apply Frame.then_ ?_ (State.trace_frame ..)
      | with_reducible apply Frame.then_ ?_ (State.wrAt_frame ..)
      | decide
      | dsimp only
      | split)
  clear_value v2
  have h_v3 : Frame [.csr, .haul, .obs, .fresh] s v3 := by
    simp only [v3]
    repeat' (first
      | with_reducible apply Frame.refl
      | with_reducible assumption
      | with_reducible apply Frames.next
      | with_reducible apply Frames.fault
      | with_reducible apply Frames.refused
      | with_reducible apply Frame.ite
      | with_reducible apply Frames.ite
      | with_reducible apply Frame.then_ ?_ (State.incAt_frame ..)
      | with_reducible apply Frame.then_ ?_ (State.laneFailed_frame ..)
      | with_reducible apply Frame.then_ ?_ (State.noSpare_frame ..)
      | with_reducible apply Frame.then_ ?_ (State.setPort_frame ..)
      | with_reducible apply Frame.then_ ?_ (State.setSpare_frame ..)
      | with_reducible apply Frame.then_ ?_ (State.trace_frame ..)
      | with_reducible apply Frame.then_ ?_ (State.wrAt_frame ..)
      | decide
      | dsimp only
      | split)
  clear_value v3
  repeat' (first
    | with_reducible apply Frame.refl
    | with_reducible assumption
    | with_reducible apply Frames.next
    | with_reducible apply Frames.fault
    | with_reducible apply Frames.refused
    | with_reducible apply Frame.ite
    | with_reducible apply Frames.ite
    | with_reducible apply Frame.then_ ?_ (State.incAt_frame ..)
    | with_reducible apply Frame.then_ ?_ (State.laneFailed_frame ..)
    | with_reducible apply Frame.then_ ?_ (State.noSpare_frame ..)
    | with_reducible apply Frame.then_ ?_ (State.setPort_frame ..)
    | with_reducible apply Frame.then_ ?_ (State.setSpare_frame ..)
    | with_reducible apply Frame.then_ ?_ (State.trace_frame ..)
    | with_reducible apply Frame.then_ ?_ (State.wrAt_frame ..)
    | decide
    | dsimp only
    | split)

theorem execFailedLaneRetest_frame (port : Fin 16) (lane : Fin 9) (symbols : Nat) (s : State) :
    Frames [.csr, .haul] s (execFailedLaneRetest port lane symbols s) := by
  unfold execFailedLaneRetest
  extract_lets v0 v1 v2 v3 v4 v5
  clear_value v0
  clear_value v1
  have h_v2 : Frame [.csr, .haul] s v2 := by
    simp only [v2]
    repeat' (first
      | with_reducible apply Frame.refl
      | with_reducible assumption
      | with_reducible apply Frames.next
      | with_reducible apply Frames.fault
      | with_reducible apply Frames.refused
      | with_reducible apply Frame.ite
      | with_reducible apply Frames.ite
      | with_reducible apply Frame.then_ ?_ (State.onTimers_frame ..)
      | with_reducible apply Frame.then_ ?_ (State.setLaneState_frame ..)
      | with_reducible apply Frame.then_ ?_ (State.setPort_frame ..)
      | with_reducible apply Frame.then_ ?_ (State.setSpare_frame ..)
      | with_reducible apply Frame.then_ ?_ (State.showLock_frame ..)
      | with_reducible apply Frame.then_ ?_ (State.wrAt_frame ..)
      | decide
      | dsimp only
      | split)
  clear_value v2
  have h_v3 : Frame [.csr, .haul] s v3 := by
    simp only [v3]
    repeat' (first
      | with_reducible apply Frame.refl
      | with_reducible assumption
      | with_reducible apply Frames.next
      | with_reducible apply Frames.fault
      | with_reducible apply Frames.refused
      | with_reducible apply Frame.ite
      | with_reducible apply Frames.ite
      | with_reducible apply Frame.then_ ?_ (State.onTimers_frame ..)
      | with_reducible apply Frame.then_ ?_ (State.setLaneState_frame ..)
      | with_reducible apply Frame.then_ ?_ (State.setPort_frame ..)
      | with_reducible apply Frame.then_ ?_ (State.setSpare_frame ..)
      | with_reducible apply Frame.then_ ?_ (State.showLock_frame ..)
      | with_reducible apply Frame.then_ ?_ (State.wrAt_frame ..)
      | decide
      | dsimp only
      | split)
  clear_value v3
  clear_value v4
  have h_v5 : Frame [.csr, .haul] s v5 := by
    simp only [v5]
    repeat' (first
      | with_reducible apply Frame.refl
      | with_reducible assumption
      | with_reducible apply Frames.next
      | with_reducible apply Frames.fault
      | with_reducible apply Frames.refused
      | with_reducible apply Frame.ite
      | with_reducible apply Frames.ite
      | with_reducible apply Frame.then_ ?_ (State.onTimers_frame ..)
      | with_reducible apply Frame.then_ ?_ (State.setLaneState_frame ..)
      | with_reducible apply Frame.then_ ?_ (State.setPort_frame ..)
      | with_reducible apply Frame.then_ ?_ (State.setSpare_frame ..)
      | with_reducible apply Frame.then_ ?_ (State.showLock_frame ..)
      | with_reducible apply Frame.then_ ?_ (State.wrAt_frame ..)
      | decide
      | dsimp only
      | split)
  clear_value v5
  repeat' (first
    | with_reducible apply Frame.refl
    | with_reducible assumption
    | with_reducible apply Frames.next
    | with_reducible apply Frames.fault
    | with_reducible apply Frames.refused
    | with_reducible apply Frame.ite
    | with_reducible apply Frames.ite
    | with_reducible apply Frame.then_ ?_ (State.onTimers_frame ..)
    | with_reducible apply Frame.then_ ?_ (State.setLaneState_frame ..)
    | with_reducible apply Frame.then_ ?_ (State.setPort_frame ..)
    | with_reducible apply Frame.then_ ?_ (State.setSpare_frame ..)
    | with_reducible apply Frame.then_ ?_ (State.showLock_frame ..)
    | with_reducible apply Frame.then_ ?_ (State.wrAt_frame ..)
    | decide
    | dsimp only
    | split)

theorem State.repeatDone_frame (s : State) (p : Nat) :
    Frame [.haul, .sent] s (State.repeatDone s p) := by
  unfold State.repeatDone
  try dsimp only
  repeat' (first
    | with_reducible apply Frame.refl
    | with_reducible assumption
    | with_reducible apply Frame.ite
    | with_reducible apply Frame.then_ ?_ (State.sendLane_frame ..)
    | with_reducible apply Frame.then_ ?_ (State.setPort_frame ..)
    | with_reducible apply Frame.then_ ?_ (State.showMarks_frame ..)
    | decide
    | dsimp only
    | split)

theorem State.tickLink_frame (s : State) (p : Nat) :
    Frame [.csr, .haul, .obs, .sent, .fresh] s (State.tickLink s p) := by
  unfold State.tickLink
  try dsimp only
  repeat' (first
    | with_reducible apply Frame.refl
    | with_reducible assumption
    | with_reducible apply Frame.ite
    | with_reducible apply Frame.then_ ?_ (State.exchangeEnd_frame ..)
    | with_reducible apply Frame.then_ ?_ (State.repeatDone_frame ..)
    | with_reducible apply Frame.then_ ?_ (State.sendAnnounce_frame ..)
    | with_reducible apply Frame.then_ ?_ (State.sendPlain_frame ..)
    | decide
    | dsimp only
    | split)

theorem State.tickLinks_frame (s : State) :
    Frame [.csr, .haul, .obs, .sent, .fresh] s (State.tickLinks s) := by
  unfold State.tickLinks
  try dsimp only
  repeat' (first
    | with_reducible apply Frame.refl
    | with_reducible assumption
    | with_reducible apply Frame.ite
    | with_reducible apply Frame.then_ ?_ (State.tickLink_frame ..)
    | decide
    | with_reducible apply Frame.foldl_fst
    | with_reducible apply Frame.foldl
    | intro y a b c hy
    | intro y a hy
    | intro y hy
    | dsimp only
    | split)

end Sys2Proof.Machine
end

