-- ==== Sys2Proof/Laws/FrameReplay.lean ====
section
/-! SUPPORT. One frame lemma for every operation of Machine/Replay.lean: the parts of the state that it may change. -/

set_option Elab.async false
set_option linter.unusedTactic false
set_option linter.unreachableTactic false

namespace Sys2Proof.Machine

open Sys2Proof

theorem State.foreign_frame (s : State) :
    Frame [.csr] s (State.foreign s) := by
  unfold State.foreign
  try dsimp only
  repeat' (first
    | with_reducible apply Frame.refl
    | with_reducible assumption
    | with_reducible apply Frame.ite
    | with_reducible apply Frame.then_ ?_ (State.inc_frame ..)
    | decide
    | dsimp only
    | split)

theorem State.relayNotice_frame (s : State) (j : Job) (source : Nat) (kind : Nat) (n : Notice) :
    Frame [.csr, .haul, .sch, .sent] s (State.relayNotice s j source kind n) := by
  unfold State.relayNotice
  try dsimp only
  repeat' (first
    | with_reducible apply Frame.refl
    | with_reducible assumption
    | with_reducible apply Frame.ite
    | with_reducible apply Frame.then_ ?_ (State.inc_frame ..)
    | with_reducible apply Frame.then_ ?_ (State.sendAll_frame ..)
    | decide
    | dsimp only
    | split)

theorem execHoldNoticeReceived_frame (source : Fin 65536) (n : Notice) (s : State) :
    Frames [.csr, .pwr, .haul, .sch, .flt, .rrc, .obs, .sent, .fresh] s (execHoldNoticeReceived source n s) := by
  unfold execHoldNoticeReceived
  try dsimp only
  repeat' (first
    | with_reducible apply Frame.refl
    | with_reducible assumption
    | with_reducible apply Frames.next
    | with_reducible apply Frames.fault
    | with_reducible apply Frames.refused
    | with_reducible apply Frame.ite
    | with_reducible apply Frames.ite
    | with_reducible apply Frame.then_ ?_ (State.foreign_frame ..)
    | with_reducible apply Frame.then_ ?_ (State.holdMissed_frame ..)
    | with_reducible apply Frame.then_ ?_ (State.latchHold_frame ..)
    | with_reducible apply Frame.then_ ?_ (State.relayNotice_frame ..)
    | decide
    | dsimp only
    | split)

theorem execReplayNoticeReceived_frame (source : Fin 65536) (n : Notice) (s : State) :
    Frames [.csr, .pwr, .haul, .sch, .flt, .rrc, .obs, .sent, .fresh] s (execReplayNoticeReceived source n s) := by
  unfold execReplayNoticeReceived
  try dsimp only
  repeat' (first
    | with_reducible apply Frame.refl
    | with_reducible assumption
    | with_reducible apply Frames.next
    | with_reducible apply Frames.fault
    | with_reducible apply Frames.refused
    | with_reducible apply Frame.ite
    | with_reducible apply Frames.ite
    | with_reducible apply Frame.then_ ?_ (State.foreign_frame ..)
    | with_reducible apply Frame.then_ ?_ (State.holdMissed_frame ..)
    | with_reducible apply Frame.then_ ?_ (State.latchReplay_frame ..)
    | with_reducible apply Frame.then_ ?_ (State.relayNotice_frame ..)
    | decide
    | dsimp only
    | split)

theorem State.countHold_frame (s : State) (cause : Nat) :
    Frame [.csr, .obs, .fresh] s (State.countHold s cause) := by
  unfold State.countHold
  try dsimp only
  repeat' (first
    | with_reducible apply Frame.refl
    | with_reducible assumption
    | with_reducible apply Frame.ite
    | with_reducible apply Frame.then_ ?_ (State.count_frame ..)
    | with_reducible apply Frame.then_ ?_ (State.inc_frame ..)
    | with_reducible apply Frame.then_ ?_ (State.trace_frame ..)
    | decide
    | dsimp only
    | split)

theorem execHoldPoint_frame (slot : Fin 8) (s : State) :
    Frames [.csr, .sch, .obs, .fresh] s (execHoldPoint slot s) := by
  unfold execHoldPoint
  try dsimp only
  repeat' (first
    | with_reducible apply Frame.refl
    | with_reducible assumption
    | with_reducible apply Frames.next
    | with_reducible apply Frames.fault
    | with_reducible apply Frames.refused
    | with_reducible apply Frame.ite
    | with_reducible apply Frames.ite
    | with_reducible apply Frame.then_ ?_ (State.countHold_frame ..)
    | with_reducible apply Frame.then_ ?_ (State.inc_frame ..)
    | with_reducible apply Frame.then_ ?_ (State.setJob_frame ..)
    | with_reducible apply Frame.then_ ?_ (State.showJob_frame ..)
    | with_reducible apply Frame.then_ ?_ (State.showStopEnd_frame ..)
    | with_reducible apply Frame.then_ ?_ (State.wr_frame ..)
    | decide
    | dsimp only
    | split)

theorem State.addHolds_frame (s : State) (k : Nat) (n : Nat) :
    Frame [.csr, .sch, .pln] s (State.addHolds s k n) := by
  unfold State.addHolds
  try dsimp only
  repeat' (first
    | with_reducible apply Frame.refl
    | with_reducible assumption
    | with_reducible apply Frame.ite
    | with_reducible apply Frame.then_ ?_ (State.addAt_frame ..)
    | with_reducible apply Frame.then_ ?_ (State.setJob_frame ..)
    | decide
    | dsimp only
    | split
    | (fail_if_no_progress simp only [Frame.mk_eq]; refine Frame.upd ?_))

theorem State.deficitsGone_frame (s : State) :
    Frame [.csr] s (State.deficitsGone s) := by
  unfold State.deficitsGone
  try dsimp only
  repeat' (first
    | with_reducible apply Frame.refl
    | with_reducible assumption
    | with_reducible apply Frame.ite
    | with_reducible apply Frame.then_ ?_ (State.wrAt_frame ..)
    | decide
    | with_reducible apply Frame.foldl_fst
    | with_reducible apply Frame.foldl
    | intro y a b c hy
    | intro y a hy
    | intro y hy
    | dsimp only
    | split)

theorem execHoldEnd_frame (slot : Fin 8) (s : State) :
    Frames [.csr, .sch, .pln] s (execHoldEnd slot s) := by
  unfold execHoldEnd
  try dsimp only
  repeat' (first
    | with_reducible apply Frame.refl
    | with_reducible assumption
    | with_reducible apply Frames.next
    | with_reducible apply Frames.fault
    | with_reducible apply Frames.refused
    | with_reducible apply Frame.ite
    | with_reducible apply Frames.ite
    | with_reducible apply Frame.then_ ?_ (State.addHolds_frame ..)
    | with_reducible apply Frame.then_ ?_ (State.deficitsGone_frame ..)
    | with_reducible apply Frame.then_ ?_ (State.setJob_frame ..)
    | with_reducible apply Frame.then_ ?_ (State.showJob_frame ..)
    | with_reducible apply Frame.then_ ?_ (State.showStopEnd_frame ..)
    | decide
    | dsimp only
    | split)

theorem State.forgetTags_frame (s : State) (c : Nat) :
    Frame [.csr, .itk, .twn] s (State.forgetTags s c) := by
  unfold State.forgetTags
  try dsimp only
  repeat' (first
    | with_reducible apply Frame.refl
    | with_reducible assumption
    | with_reducible apply Frame.ite
    | with_reducible apply Frame.then_ ?_ (State.setRun_frame ..)
    | decide
    | dsimp only
    | split
    | (fail_if_no_progress simp only [Frame.mk_eq]; refine Frame.upd ?_))

theorem State.abandonCtx_frame (s : State) (attempt : Nat) (c : Nat) :
    Frame [.csr, .mem, .clk, .sch, .pln, .gen, .frk, .scr, .itk, .twn] s (State.abandonCtx s attempt c) := by
  unfold State.abandonCtx
  try dsimp only
  repeat' (first
    | with_reducible apply Frame.refl
    | with_reducible assumption
    | with_reducible apply Frame.ite
    | with_reducible apply Frame.then_ ?_ (State.forgetTags_frame ..)
    | with_reducible apply Frame.then_ ?_ (State.freshStep_frame ..)
    | with_reducible apply Frame.then_ ?_ (State.setCtx_frame ..)
    | with_reducible apply Frame.then_ ?_ (State.windowsAbandoned_frame ..)
    | with_reducible apply Frame.then_ ?_ (State.wrAt_frame ..)
    | decide
    | with_reducible apply Frame.foldl_fst
    | with_reducible apply Frame.foldl
    | intro y a b c hy
    | intro y a hy
    | intro y hy
    | dsimp only
    | split
    | (fail_if_no_progress simp only [Frame.mk_eq]; refine Frame.upd ?_))

theorem State.replayLost_frame (s : State) (mask : Nat) (c : Nat) :
    Frame [.csr, .pwr, .flt, .rrc, .obs, .fresh] s (State.replayLost s mask c) := by
  unfold State.replayLost
  try dsimp only
  repeat' (first
    | with_reducible apply Frame.refl
    | with_reducible assumption
    | with_reducible apply Frame.ite
    | with_reducible apply Frame.then_ ?_ (State.contained_frame ..)
    | decide
    | dsimp only
    | split)

theorem State.exhausted_frame (s : State) (k : Nat) (mask : Nat) :
Frame [.csr, .mem, .pwr, .sch, .pln, .gen, .bench, .itk, .flt, .rrc, .obs, .sent, .fresh] s (State.exhausted s k
      mask) := by
  unfold State.exhausted
  split
  · repeat' (first
      | with_reducible apply Frame.refl
      | with_reducible assumption
      | with_reducible apply Frame.ite
      | with_reducible apply Frame.then_ ?_ (State.contextReset_frame ..)
      | with_reducible apply Frame.then_ ?_ (State.inc_frame ..)
      | with_reducible apply Frame.then_ ?_ (State.replayLost_frame ..)
      | with_reducible apply Frame.then_ ?_ (State.wr_frame ..)
      | decide
      | with_reducible apply Frame.foldl_fst
      | with_reducible apply Frame.foldl
      | intro y a b c hy
      | intro y a hy
      | intro y hy
      | dsimp only
      | split
      | (fail_if_no_progress simp only [Frame.mk_eq]; refine Frame.upd ?_))
  · extract_lets v0 v1 v2
    have h_v0 : Frame [.csr, .mem, .pwr, .sch, .pln, .gen, .bench, .itk, .flt, .rrc, .obs, .sent, .fresh] s v0 := by
      simp only [v0]
      repeat' (first
        | with_reducible apply Frame.refl
        | with_reducible assumption
        | with_reducible apply Frame.ite
        | with_reducible apply Frame.then_ ?_ (State.contextReset_frame ..)
        | with_reducible apply Frame.then_ ?_ (State.inc_frame ..)
        | with_reducible apply Frame.then_ ?_ (State.replayLost_frame ..)
        | with_reducible apply Frame.then_ ?_ (State.wr_frame ..)
        | decide
        | with_reducible apply Frame.foldl_fst
        | with_reducible apply Frame.foldl
        | intro y a b c hy
        | intro y a hy
        | intro y hy
        | dsimp only
        | split
        | (fail_if_no_progress simp only [Frame.mk_eq]; refine Frame.upd ?_))
    clear_value v0
    have h_v1 : Frame [.csr, .mem, .pwr, .sch, .pln, .gen, .bench, .itk, .flt, .rrc, .obs, .sent, .fresh] s v1 := by
      simp only [v1]
      repeat' (first
        | with_reducible apply Frame.refl
        | with_reducible assumption
        | with_reducible apply Frame.ite
        | with_reducible apply Frame.then_ ?_ (State.contextReset_frame ..)
        | with_reducible apply Frame.then_ ?_ (State.inc_frame ..)
        | with_reducible apply Frame.then_ ?_ (State.replayLost_frame ..)
        | with_reducible apply Frame.then_ ?_ (State.wr_frame ..)
        | decide
        | with_reducible apply Frame.foldl_fst
        | with_reducible apply Frame.foldl
        | intro y a b c hy
        | intro y a hy
        | intro y hy
        | dsimp only
        | split
        | (fail_if_no_progress simp only [Frame.mk_eq]; refine Frame.upd ?_))
    clear_value v1
    clear_value v2
    repeat' (first
      | with_reducible apply Frame.refl
      | with_reducible assumption
      | with_reducible apply Frame.ite
      | with_reducible apply Frame.then_ ?_ (State.contextReset_frame ..)
      | with_reducible apply Frame.then_ ?_ (State.inc_frame ..)
      | with_reducible apply Frame.then_ ?_ (State.replayLost_frame ..)
      | with_reducible apply Frame.then_ ?_ (State.wr_frame ..)
      | decide
      | with_reducible apply Frame.foldl_fst
      | with_reducible apply Frame.foldl
      | intro y a b c hy
      | intro y a hy
      | intro y hy
      | dsimp only
      | split
      | (fail_if_no_progress simp only [Frame.mk_eq]; refine Frame.upd ?_))

theorem State.holdForks_frame (s : State) (j : Job) (mask : Nat) :
    Frame [.pwr] s (State.holdForks s j mask) := by
  unfold State.holdForks
  try dsimp only
  repeat' (first
    | with_reducible apply Frame.refl
    | with_reducible assumption
    | with_reducible apply Frame.ite
    | decide
    | with_reducible apply Frame.foldl_fst
    | with_reducible apply Frame.foldl
    | intro y a b c hy
    | intro y a hy
    | intro y hy
    | dsimp only
    | split
    | (fail_if_no_progress simp only [Frame.mk_eq]; refine Frame.upd ?_))

theorem State.abandonAll_frame (s : State) (r : ReplayRun) (code : Nat) :
    Frame [.csr, .mem, .clk, .sch, .pln, .gen, .frk, .scr, .itk, .twn, .obs, .fresh] s (State.abandonAll s r code) := by
  unfold State.abandonAll
  extract_lets v0 v1
  have h_v0 : Frame [.csr, .mem, .clk, .sch, .pln, .gen, .frk, .scr, .itk, .twn, .obs, .fresh] s v0 := by
    simp only [v0]
    repeat' (first
      | with_reducible apply Frame.refl
      | with_reducible assumption
      | with_reducible apply Frame.ite
      | with_reducible apply Frame.then_ ?_ (State.abandonCtx_frame ..)
      | with_reducible apply Frame.then_ ?_ (State.count_frame ..)
      | with_reducible apply Frame.then_ ?_ (State.inc_frame ..)
      | with_reducible apply Frame.then_ ?_ (State.trace_frame ..)
      | with_reducible apply Frame.then_ ?_ (State.wr_frame ..)
      | decide
      | with_reducible apply Frame.foldl_fst
      | with_reducible apply Frame.foldl
      | intro y a b c hy
      | intro y a hy
      | intro y hy
      | dsimp only
      | split)
  clear_value v0
  have h_v1 : Frame [.csr, .mem, .clk, .sch, .pln, .gen, .frk, .scr, .itk, .twn, .obs, .fresh] s v1 := by
    simp only [v1]
    repeat' (first
      | with_reducible apply Frame.refl
      | with_reducible assumption
      | with_reducible apply Frame.ite
      | with_reducible apply Frame.then_ ?_ (State.abandonCtx_frame ..)
      | with_reducible apply Frame.then_ ?_ (State.count_frame ..)
      | with_reducible apply Frame.then_ ?_ (State.inc_frame ..)
      | with_reducible apply Frame.then_ ?_ (State.trace_frame ..)
      | with_reducible apply Frame.then_ ?_ (State.wr_frame ..)
      | decide
      | with_reducible apply Frame.foldl_fst
      | with_reducible apply Frame.foldl
      | intro y a b c hy
      | intro y a hy
      | intro y hy
      | dsimp only
      | split)
  clear_value v1
  repeat' (first
    | with_reducible apply Frame.refl
    | with_reducible assumption
    | with_reducible apply Frame.ite
    | with_reducible apply Frame.then_ ?_ (State.abandonCtx_frame ..)
    | with_reducible apply Frame.then_ ?_ (State.count_frame ..)
    | with_reducible apply Frame.then_ ?_ (State.inc_frame ..)
    | with_reducible apply Frame.then_ ?_ (State.trace_frame ..)
    | with_reducible apply Frame.then_ ?_ (State.wr_frame ..)
    | decide
    | with_reducible apply Frame.foldl_fst
    | with_reducible apply Frame.foldl
    | intro y a b c hy
    | intro y a hy
    | intro y hy
    | dsimp only
    | split)

theorem execAbandonPoint_frame (slot : Fin 8) (s : State) :
Frames [.csr, .mem, .pwr, .clk, .haul, .sch, .pln, .top, .olc, .gen, .wgt, .bench, .frk, .scr, .itk, .twn, .flt,
      .rrc, .obs, .sent, .fresh] s (execAbandonPoint slot s) := by
  unfold execAbandonPoint
  try dsimp only
  repeat' (first
    | with_reducible apply Frame.refl
    | with_reducible assumption
    | with_reducible apply Frames.next
    | with_reducible apply Frames.fault
    | with_reducible apply Frames.refused
    | with_reducible apply Frame.ite
    | with_reducible apply Frames.ite
    | with_reducible apply Frame.then_ ?_ (State.abandonAll_frame ..)
    | with_reducible apply Frame.then_ ?_ (State.exhausted_frame ..)
    | with_reducible apply Frame.then_ ?_ (State.holdForks_frame ..)
    | with_reducible apply Frame.then_ ?_ (State.setJob_frame ..)
    | with_reducible apply Frame.then_ ?_ (State.showJob_frame ..)
    | with_reducible apply Frame.then_ ?_ (State.undoSplit_frame ..)
    | decide
    | dsimp only
    | split)

theorem State.restore_frame (s : State) (p : Plan) (x : Restore) :
Frame [.csr, .mem, .pwr, .haul, .sch, .gen, .wgt, .scr, .itk, .flt, .rrc, .obs, .sent, .fresh] s (State.restore s p
      x) := by
  unfold State.restore
  try dsimp only
  repeat' (first
    | with_reducible apply Frame.refl
    | with_reducible assumption
    | with_reducible apply Frame.ite
    | with_reducible apply Frame.then_ ?_ (State.readSpans_frame ..)
    | (with_reducible apply Frame.then_ ?_ (Frame.of_eq (State.readSpans_frame ..) (by assumption)))
    | with_reducible apply Frame.then_ ?_ (State.setBytes_frame ..)
    | decide
    | dsimp only
    | split)

theorem State.runPrologues_frame (s : State) (mask : Nat) :
Frame [.csr, .mem, .pwr, .haul, .sch, .gen, .wgt, .scr, .itk, .flt, .rrc, .obs, .sent, .fresh] s (State.runPrologues
      s mask) := by
  unfold State.runPrologues
  try dsimp only
  repeat' (first
    | with_reducible apply Frame.refl
    | with_reducible assumption
    | with_reducible apply Frame.ite
    | with_reducible apply Frame.then_ ?_ (State.restore_frame ..)
    | decide
    | with_reducible apply Frame.foldl_fst
    | with_reducible apply Frame.foldl
    | intro y a b c hy
    | intro y a hy
    | intro y hy
    | dsimp only
    | split)

theorem execReplayGapEnd_frame (slot : Fin 8) (ready : Bool) (s : State) :
Frames [.csr, .mem, .pwr, .haul, .sch, .gen, .wgt, .bench, .scr, .itk, .flt, .rrc, .obs, .sent, .fresh] s
      (execReplayGapEnd slot ready s) := by
  unfold execReplayGapEnd
  try dsimp only
  repeat' (first
    | with_reducible apply Frame.refl
    | with_reducible assumption
    | with_reducible apply Frames.next
    | with_reducible apply Frames.fault
    | with_reducible apply Frames.refused
    | with_reducible apply Frame.ite
    | with_reducible apply Frames.ite
    | with_reducible apply Frame.then_ ?_ (State.fetchEntries_frame ..)
    | with_reducible apply Frame.then_ ?_ (State.holdRequest_frame ..)
    | with_reducible apply Frame.then_ ?_ (State.runPrologues_frame ..)
    | with_reducible apply Frame.then_ ?_ (State.setJob_frame ..)
    | with_reducible apply Frame.then_ ?_ (State.substituteAll_frame ..)
    | decide
    | with_reducible apply Frame.foldl_fst
    | with_reducible apply Frame.foldl
    | intro y a b c hy
    | intro y a hy
    | intro y hy
    | dsimp only
    | split)

theorem execReplayRejoin_frame (slot : Fin 8) (s : State) :
    Frames [.csr, .pwr, .sch, .pln] s (execReplayRejoin slot s) := by
  unfold execReplayRejoin
  try dsimp only
  repeat' (first
    | with_reducible apply Frame.refl
    | with_reducible assumption
    | with_reducible apply Frames.next
    | with_reducible apply Frames.fault
    | with_reducible apply Frames.refused
    | with_reducible apply Frame.ite
    | with_reducible apply Frames.ite
    | with_reducible apply Frame.then_ ?_ (State.addHolds_frame ..)
    | with_reducible apply Frame.then_ ?_ (State.setJob_frame ..)
    | with_reducible apply Frame.then_ ?_ (State.showJob_frame ..)
    | with_reducible apply Frame.then_ ?_ (State.showStopEnd_frame ..)
    | decide
    | dsimp only
    | split
    | (fail_if_no_progress simp only [Frame.mk_eq]; refine Frame.upd ?_))

end Sys2Proof.Machine
end

