-- ==== Sys2Proof/Laws/FramePackets.lean ====
section
/-! SUPPORT. One frame lemma for every operation of Machine/Packets.lean: the parts of the state that it may change. -/

set_option Elab.async false
set_option linter.unusedTactic false
set_option linter.unreachableTactic false

namespace Sys2Proof.Machine

open Sys2Proof

theorem State.relayPkt_frame (s : State) (p : Nat) (vc : Nat) (q : Nat) (vc' : Nat) (n : Nat) (l : List Byte) :
    Frame [.csr, .haul, .sch, .sent] s (State.relayPkt s p vc q vc' n l) := by
  unfold State.relayPkt
  try dsimp only
  repeat' (first
    | with_reducible apply Frame.refl
    | with_reducible assumption
    | with_reducible apply Frame.ite
    | with_reducible apply Frame.then_ ?_ (State.queuePkt_frame ..)
    | decide
    | dsimp only
    | split)

theorem State.dropPkt_frame (s : State) (p : Nat) (vc : Nat) (n : Nat) :
    Frame [.haul] s (State.dropPkt s p vc n) := by
  unfold State.dropPkt
  try dsimp only
  repeat' (first
    | with_reducible apply Frame.refl
    | with_reducible assumption
    | with_reducible apply Frame.ite
    | with_reducible apply Frame.then_ ?_ (State.freeBuffers_frame ..)
    | with_reducible apply Frame.then_ ?_ (State.setPort_frame ..)
    | decide
    | dsimp only
    | split)

theorem State.takePkt_frame (s : State) (p : Nat) (vc : Nat) (n : Nat) (l : List Byte) :
    Frame [.csr, .haul, .sch, .fst, .sent] s (State.takePkt s p vc n l) := by
  unfold State.takePkt
  try dsimp only
  repeat' (first
    | with_reducible apply Frame.refl
    | with_reducible assumption
    | with_reducible apply Frame.ite
    | with_reducible apply Frame.then_ ?_ (State.discHere_frame ..)
    | with_reducible apply Frame.then_ ?_ (State.emit_frame ..)
    | with_reducible apply Frame.then_ ?_ (State.freeBuffers_frame ..)
    | with_reducible apply Frame.then_ ?_ (State.inc_frame ..)
    | with_reducible apply Frame.then_ ?_ (State.reservedDrop_frame ..)
    | decide
    | dsimp only
    | split)

theorem State.collect_frame (s : State) (p : Nat) (vc : Nat) (n : Nat) (l : List (List Byte)) :
    Frame [.csr, .haul, .sch, .fst, .sent] s (State.collect s p vc n l) := by
  unfold State.collect
  try dsimp only
  repeat' (first
    | with_reducible apply Frame.refl
    | with_reducible assumption
    | with_reducible apply Frame.ite
    | with_reducible apply Frame.then_ ?_ (State.setPort_frame ..)
    | with_reducible apply Frame.then_ ?_ (State.takePkt_frame ..)
    | decide
    | dsimp only
    | split)

theorem State.takeDisc_frame (s : State) (p : Nat) (vc : Nat) (n : Nat) (l : List Byte) :
    Frame [.csr, .haul, .sch, .fst, .sent] s (State.takeDisc s p vc n l) := by
  unfold State.takeDisc
  try dsimp only
  repeat' (first
    | with_reducible apply Frame.refl
    | with_reducible assumption
    | with_reducible apply Frame.ite
    | with_reducible apply Frame.then_ ?_ (State.collect_frame ..)
    | with_reducible apply Frame.then_ ?_ (State.dropPkt_frame ..)
    | with_reducible apply Frame.then_ ?_ (State.inc_frame ..)
    | with_reducible apply Frame.then_ ?_ (State.relayPkt_frame ..)
    | decide
    | dsimp only
    | split)

theorem State.takeFirst_frame (s : State) (p : Nat) (vc : Nat) (n : Nat) (l : List Byte) :
    Frame [.csr, .haul, .sch, .fst, .sent] s (State.takeFirst s p vc n l) := by
  unfold State.takeFirst
  try dsimp only
  repeat' (first
    | with_reducible apply Frame.refl
    | with_reducible assumption
    | with_reducible apply Frame.ite
    | with_reducible apply Frame.then_ ?_ (State.collect_frame ..)
    | with_reducible apply Frame.then_ ?_ (State.dropPkt_frame ..)
    | with_reducible apply Frame.then_ ?_ (State.inc_frame ..)
    | with_reducible apply Frame.then_ ?_ (State.relayPkt_frame ..)
    | with_reducible apply Frame.then_ ?_ (State.reservedDrop_frame ..)
    | with_reducible apply Frame.then_ ?_ (State.takeDisc_frame ..)
    | decide
    | dsimp only
    | split)

theorem State.takeSvc_frame (s : State) (p : Nat) (vc : Nat) (d : List Byte) :
    Frame [.csr, .haul, .sch, .fst, .sent] s (State.takeSvc s p vc d) := by
  unfold State.takeSvc
  try dsimp only
  repeat' (first
    | with_reducible apply Frame.refl
    | with_reducible assumption
    | with_reducible apply Frame.ite
    | with_reducible apply Frame.then_ ?_ (State.collect_frame ..)
    | with_reducible apply Frame.then_ ?_ (State.freeBuffers_frame ..)
    | with_reducible apply Frame.then_ ?_ (State.pump_frame ..)
    | with_reducible apply Frame.then_ ?_ (State.reservedDrop_frame ..)
    | with_reducible apply Frame.then_ ?_ (State.setPort_frame ..)
    | with_reducible apply Frame.then_ ?_ (State.takeFirst_frame ..)
    | decide
    | dsimp only
    | split
    | (fail_if_no_progress simp only [Frame.mk_eq]; refine Frame.upd ?_))

theorem execSvcBlockReceived_frame (port : Fin 16) (blk : WireBlock) (s : State) :
    Frames [.csr, .haul, .sch, .fst, .obs, .sent, .fresh] s (execSvcBlockReceived port blk s) := by
  unfold execSvcBlockReceived
  try dsimp only
  repeat' (first
    | with_reducible apply Frame.refl
    | with_reducible assumption
    | with_reducible apply Frames.next
    | with_reducible apply Frames.fault
    | with_reducible apply Frames.refused
    | with_reducible apply Frame.ite
    | with_reducible apply Frames.ite
    | with_reducible apply Frame.then_ ?_ (State.accept_frame ..)
    | (with_reducible apply Frame.then_ ?_ (Frame.of_eq (State.accept_frame ..) (by assumption)))
    | with_reducible apply Frame.then_ ?_ (State.takeSvc_frame ..)
    | decide
    | dsimp only
    | split)

theorem execServiceInjection_frame (kind : Fin 256) (dest : Fin 65536) (express : Bool) (payload : List Byte) (s :
      State) :
    Frames [.csr, .haul, .sch, .sent] s (execServiceInjection kind dest express payload s) := by
  unfold execServiceInjection
  try dsimp only
  repeat' (first
    | with_reducible apply Frame.refl
    | with_reducible assumption
    | with_reducible apply Frames.next
    | with_reducible apply Frames.fault
    | with_reducible apply Frames.refused
    | with_reducible apply Frame.ite
    | with_reducible apply Frames.ite
    | with_reducible apply Frame.then_ ?_ (State.sendService_frame ..)
    | decide
    | dsimp only
    | split)

theorem State.sampleDepth_frame (s : State) (p : Nat) (vc : Nat) :
    Frame [.sch] s (State.sampleDepth s p vc) := by
  unfold State.sampleDepth
  try dsimp only
  repeat' (first
    | with_reducible apply Frame.refl
    | with_reducible assumption
    | with_reducible apply Frame.ite
    | with_reducible apply Frame.then_ ?_ (State.onTelem_frame ..)
    | decide
    | dsimp only
    | split)

theorem State.pumpAll_frame (s : State) :
    Frame [.csr, .haul, .sch, .sent] s (State.pumpAll s) := by
  unfold State.pumpAll
  try dsimp only
  repeat' (first
    | with_reducible apply Frame.refl
    | with_reducible assumption
    | with_reducible apply Frame.ite
    | with_reducible apply Frame.then_ ?_ (State.pump_frame ..)
    | decide
    | with_reducible apply Frame.foldl_fst
    | with_reducible apply Frame.foldl
    | intro y a b c hy
    | intro y a hy
    | intro y hy
    | dsimp only
    | split)

theorem execThrottleSample_frame (s : State) :
    Frames [.csr, .haul, .sch, .sent] s (execThrottleSample s) := by
  unfold execThrottleSample
  extract_lets v0 v1 v2 v3
  clear_value v0
  clear_value v1
  have h_v2 : Frame [.csr, .haul, .sch, .sent] s v2 := by
    simp only [v2]
    repeat' (first
      | with_reducible apply Frame.refl
      | with_reducible assumption
      | with_reducible apply Frames.next
      | with_reducible apply Frames.fault
      | with_reducible apply Frames.refused
      | with_reducible apply Frame.ite
      | with_reducible apply Frames.ite
      | with_reducible apply Frame.then_ ?_ (State.inc_frame ..)
      | with_reducible apply Frame.then_ ?_ (State.pumpAll_frame ..)
      | with_reducible apply Frame.then_ ?_ (State.sampleDepth_frame ..)
      | with_reducible apply Frame.then_ ?_ (State.wr_frame ..)
      | decide
      | with_reducible apply Frame.foldl_fst
      | with_reducible apply Frame.foldl
      | intro y a b c hy
      | intro y a hy
      | intro y hy
      | dsimp only
      | split
      | (fail_if_no_progress simp only [Frame.mk_eq]; refine Frame.upd ?_))
  clear_value v2
  have h_v3 : Frame [.csr, .haul, .sch, .sent] s v3 := by
    simp only [v3]
    repeat' (first
      | with_reducible apply Frame.refl
      | with_reducible assumption
      | with_reducible apply Frames.next
      | with_reducible apply Frames.fault
      | with_reducible apply Frames.refused
      | with_reducible apply Frame.ite
      | with_reducible apply Frames.ite
      | with_reducible apply Frame.then_ ?_ (State.inc_frame ..)
      | with_reducible apply Frame.then_ ?_ (State.pumpAll_frame ..)
      | with_reducible apply Frame.then_ ?_ (State.sampleDepth_frame ..)
      | with_reducible apply Frame.then_ ?_ (State.wr_frame ..)
      | decide
      | with_reducible apply Frame.foldl_fst
      | with_reducible apply Frame.foldl
      | intro y a b c hy
      | intro y a hy
      | intro y hy
      | dsimp only
      | split
      | (fail_if_no_progress simp only [Frame.mk_eq]; refine Frame.upd ?_))
  clear_value v3
  repeat' (first
    | with_reducible apply Frame.refl
    | with_reducible assumption
    | with_reducible apply Frames.next
    | with_reducible apply Frames.fault
    | with_reducible apply Frames.refused
    | with_reducible apply Frame.ite
    | with_reducible apply Frames.ite
    | with_reducible apply Frame.then_ ?_ (State.inc_frame ..)
    | with_reducible apply Frame.then_ ?_ (State.pumpAll_frame ..)
    | with_reducible apply Frame.then_ ?_ (State.sampleDepth_frame ..)
    | with_reducible apply Frame.then_ ?_ (State.wr_frame ..)
    | decide
    | with_reducible apply Frame.foldl_fst
    | with_reducible apply Frame.foldl
    | intro y a b c hy
    | intro y a hy
    | intro y hy
    | dsimp only
    | split
    | (fail_if_no_progress simp only [Frame.mk_eq]; refine Frame.upd ?_))

theorem State.closeTelemetry_frame (s : State) :
    Frame [.csr, .haul, .sch, .sent] s (State.closeTelemetry s) := by
  unfold State.closeTelemetry
  try dsimp only
  repeat' (first
    | with_reducible apply Frame.refl
    | with_reducible assumption
    | with_reducible apply Frame.ite
    | with_reducible apply Frame.then_ ?_ (State.sendService_frame ..)
    | decide
    | dsimp only
    | split
    | (fail_if_no_progress simp only [Frame.mk_eq]; refine Frame.upd ?_))

theorem execTelemetryPeriod_frame (s : State) :
    Frames [.csr, .haul, .sch, .sent] s (execTelemetryPeriod s) := by
  unfold execTelemetryPeriod
  try dsimp only
  repeat' (first
    | with_reducible apply Frame.refl
    | with_reducible assumption
    | with_reducible apply Frames.next
    | with_reducible apply Frames.fault
    | with_reducible apply Frames.refused
    | with_reducible apply Frame.ite
    | with_reducible apply Frames.ite
    | with_reducible apply Frame.then_ ?_ (State.closeTelemetry_frame ..)
    | decide
    | dsimp only
    | split)

theorem execTelemNow_frame (s : State) :
    Frames [.csr, .haul, .sch, .sent] s (execTelemNow s) := by
  unfold execTelemNow
  try dsimp only
  repeat' (first
    | with_reducible apply Frame.refl
    | with_reducible assumption
    | with_reducible apply Frames.next
    | with_reducible apply Frames.fault
    | with_reducible apply Frames.refused
    | with_reducible apply Frame.ite
    | with_reducible apply Frames.ite
    | with_reducible apply Frame.then_ ?_ (State.closeTelemetry_frame ..)
    | decide
    | dsimp only
    | split)

theorem execClearFwd_frame (s : State) :
    Frames [.csr, .sch] s (execClearFwd s) := by
  unfold execClearFwd
  try dsimp only
  repeat' (first
    | with_reducible apply Frame.refl
    | with_reducible assumption
    | with_reducible apply Frames.next
    | with_reducible apply Frames.fault
    | with_reducible apply Frames.refused
    | with_reducible apply Frame.ite
    | with_reducible apply Frames.ite
    | with_reducible apply Frame.then_ ?_ (State.showEntries_frame ..)
    | decide
    | dsimp only
    | split
    | (fail_if_no_progress simp only [Frame.mk_eq]; refine Frame.upd ?_))

theorem execRestoreArm_frame (s : State) :
Frames [.csr, .pwr, .haul, .sch, .pln, .top, .olc, .gen, .wgt, .bench, .flt, .rrc, .obs, .sent, .fresh] s
      (execRestoreArm s) := by
  unfold execRestoreArm
  try dsimp only
  repeat' (first
    | with_reducible apply Frame.refl
    | with_reducible assumption
    | with_reducible apply Frames.next
    | with_reducible apply Frames.fault
    | with_reducible apply Frames.refused
    | with_reducible apply Frame.ite
    | with_reducible apply Frames.ite
    | (fail_if_no_progress (simp only [id_eq]))
    | with_reducible apply State.armChange_frame
    | with_reducible apply Frame.then_ ?_ (State.wr_frame ..)
    | decide
    | intro y a b c hy
    | intro y a hy
    | intro y hy
    | dsimp only
    | split
    | (fail_if_no_progress simp only [Frame.mk_eq]; refine Frame.upd ?_))

theorem execPortRestore_frame (s : State) :
    Frames [.csr, .sch, .olc] s (execPortRestore s) := by
  unfold execPortRestore
  try dsimp only
  repeat' (first
    | with_reducible apply Frame.refl
    | with_reducible assumption
    | with_reducible apply Frames.next
    | with_reducible apply Frames.fault
    | with_reducible apply Frames.refused
    | with_reducible apply Frame.ite
    | with_reducible apply Frames.ite
    | with_reducible apply Frame.then_ ?_ (State.bar_frame ..)
    | with_reducible apply Frame.then_ ?_ (State.changeApplied_frame ..)
    | with_reducible apply Frame.then_ ?_ (State.restorePort_frame ..)
    | decide
    | with_reducible apply Frame.foldl_fst
    | with_reducible apply Frame.foldl
    | intro y a b c hy
    | intro y a hy
    | intro y hy
    | dsimp only
    | split
    | (fail_if_no_progress simp only [Frame.mk_eq]; refine Frame.upd ?_))

end Sys2Proof.Machine
end

