-- ==== Sys2Proof/Laws/FramePower.lean ====
section
/-! SUPPORT. One frame lemma for every operation of Machine/Power.lean: the parts of the state that it may change. -/

set_option Elab.async false
set_option linter.unusedTactic false
set_option linter.unreachableTactic false

namespace Sys2Proof.Machine

open Sys2Proof

theorem execStandbyStart_frame (mv : Nat) (s : State) :
    Frames [.csr, .pwr] s (execStandbyStart mv s) := by
  unfold execStandbyStart
  try dsimp only
  repeat' (first
    | with_reducible apply Frame.refl
    | with_reducible assumption
    | with_reducible apply Frames.next
    | with_reducible apply Frames.fault
    | with_reducible apply Frames.refused
    | with_reducible apply Frame.ite
    | with_reducible apply Frames.ite
    | with_reducible apply Frame.then_ ?_ (State.wr_frame ..)
    | decide
    | dsimp only
    | split
    | (fail_if_no_progress simp only [Frame.mk_eq]; refine Frame.upd ?_))

theorem execPrecharge_frame (s : State) :
    Frames [.pwr] s (execPrecharge s) := by
  unfold execPrecharge
  try dsimp only
  repeat' (first
    | with_reducible apply Frame.refl
    | with_reducible assumption
    | with_reducible apply Frames.next
    | with_reducible apply Frames.fault
    | with_reducible apply Frames.refused
    | with_reducible apply Frame.ite
    | with_reducible apply Frames.ite
    | decide
    | dsimp only
    | split
    | (fail_if_no_progress simp only [Frame.mk_eq]; refine Frame.upd ?_))

theorem execPrechargeDone_frame (s : State) :
    Frames [.csr, .pwr] s (execPrechargeDone s) := by
  unfold execPrechargeDone
  try dsimp only
  repeat' (first
    | with_reducible apply Frame.refl
    | with_reducible assumption
    | with_reducible apply Frames.next
    | with_reducible apply Frames.fault
    | with_reducible apply Frames.refused
    | with_reducible apply Frame.ite
    | with_reducible apply Frames.ite
    | with_reducible apply Frame.then_ ?_ (State.wr_frame ..)
    | decide
    | dsimp only
    | split
    | (fail_if_no_progress simp only [Frame.mk_eq]; refine Frame.upd ?_))

theorem execForesterDomainStart_frame (mv : Nat) (holdupMj : Nat) (oscillatorSettled : Bool) (s : State) :
    Frames [.csr, .pwr, .rrc, .obs, .fresh] s (execForesterDomainStart mv holdupMj oscillatorSettled s) := by
  unfold execForesterDomainStart
  try dsimp only
  repeat' (first
    | with_reducible apply Frame.refl
    | with_reducible assumption
    | with_reducible apply Frames.next
    | with_reducible apply Frames.fault
    | with_reducible apply Frames.refused
    | with_reducible apply Frame.ite
    | with_reducible apply Frames.ite
    | with_reducible apply Frame.then_ ?_ (State.holdupTested_frame ..)
    | with_reducible apply Frame.then_ ?_ (State.sampleInput_frame ..)
    | with_reducible apply Frame.then_ ?_ (State.setBand_frame ..)
    | decide
    | dsimp only
    | split
    | (fail_if_no_progress simp only [Frame.mk_eq]; refine Frame.upd ?_))

theorem execPrechargeTimeout_frame (s : State) :
    Frames [.pwr] s (execPrechargeTimeout s) := by
  unfold execPrechargeTimeout
  try dsimp only
  repeat' (first
    | with_reducible apply Frame.refl
    | with_reducible assumption
    | with_reducible apply Frames.next
    | with_reducible apply Frames.fault
    | with_reducible apply Frames.refused
    | with_reducible apply Frame.ite
    | with_reducible apply Frames.ite
    | decide
    | dsimp only
    | split
    | (fail_if_no_progress simp only [Frame.mk_eq]; refine Frame.upd ?_))

theorem execPrechargeRetry_frame (s : State) :
    Frames [.pwr] s (execPrechargeRetry s) := by
  unfold execPrechargeRetry
  try dsimp only
  repeat' (first
    | with_reducible apply Frame.refl
    | with_reducible assumption
    | with_reducible apply Frames.next
    | with_reducible apply Frames.fault
    | with_reducible apply Frames.refused
    | with_reducible apply Frame.ite
    | with_reducible apply Frames.ite
    | decide
    | dsimp only
    | split
    | (fail_if_no_progress simp only [Frame.mk_eq]; refine Frame.upd ?_))

theorem execLowBandEntry_frame (mv : Nat) (s : State) :
    Frames [.csr, .pwr, .rrc, .obs, .fresh] s (execLowBandEntry mv s) := by
  unfold execLowBandEntry
  try dsimp only
  repeat' (first
    | with_reducible apply Frame.refl
    | with_reducible assumption
    | with_reducible apply Frames.next
    | with_reducible apply Frames.fault
    | with_reducible apply Frames.refused
    | with_reducible apply Frame.ite
    | with_reducible apply Frames.ite
    | with_reducible apply Frame.then_ ?_ (State.enterLow_frame ..)
    | with_reducible apply Frame.then_ ?_ (State.sampleInput_frame ..)
    | decide
    | dsimp only
    | split
    | (fail_if_no_progress simp only [Frame.mk_eq]; refine Frame.upd ?_))

theorem execWriteInhibitEntry_frame (mv : Nat) (s : State) :
    Frames [.csr, .pwr] s (execWriteInhibitEntry mv s) := by
  unfold execWriteInhibitEntry
  try dsimp only
  repeat' (first
    | with_reducible apply Frame.refl
    | with_reducible assumption
    | with_reducible apply Frames.next
    | with_reducible apply Frames.fault
    | with_reducible apply Frames.refused
    | with_reducible apply Frame.ite
    | with_reducible apply Frames.ite
    | with_reducible apply Frame.then_ ?_ (State.inc_frame ..)
    | with_reducible apply Frame.then_ ?_ (State.sampleInput_frame ..)
    | with_reducible apply Frame.then_ ?_ (State.setBand_frame ..)
    | with_reducible apply Frame.then_ ?_ (State.wr_frame ..)
    | decide
    | dsimp only
    | split
    | (fail_if_no_progress simp only [Frame.mk_eq]; refine Frame.upd ?_))

theorem execWriteInhibitExit_frame (mv : Nat) (s : State) :
    Frames [.csr, .pwr, .rrc, .obs, .fresh] s (execWriteInhibitExit mv s) := by
  unfold execWriteInhibitExit
  try dsimp only
  repeat' (first
    | with_reducible apply Frame.refl
    | with_reducible assumption
    | with_reducible apply Frames.next
    | with_reducible apply Frames.fault
    | with_reducible apply Frames.refused
    | with_reducible apply Frame.ite
    | with_reducible apply Frames.ite
    | with_reducible apply Frame.then_ ?_ (State.enterLow_frame ..)
    | with_reducible apply Frame.then_ ?_ (State.refreshInhibit_frame ..)
    | with_reducible apply Frame.then_ ?_ (State.sampleInput_frame ..)
    | with_reducible apply Frame.then_ ?_ (State.setBand_frame ..)
    | decide
    | dsimp only
    | split
    | (fail_if_no_progress simp only [Frame.mk_eq]; refine Frame.upd ?_))

theorem execSagBandEntry_frame (mv : Nat) (s : State) :
    Frames [.csr, .pwr] s (execSagBandEntry mv s) := by
  unfold execSagBandEntry
  try dsimp only
  repeat' (first
    | with_reducible apply Frame.refl
    | with_reducible assumption
    | with_reducible apply Frames.next
    | with_reducible apply Frames.fault
    | with_reducible apply Frames.refused
    | with_reducible apply Frame.ite
    | with_reducible apply Frames.ite
    | with_reducible apply Frame.then_ ?_ (State.sampleInput_frame ..)
    | with_reducible apply Frame.then_ ?_ (State.setBand_frame ..)
    | decide
    | dsimp only
    | split
    | (fail_if_no_progress simp only [Frame.mk_eq]; refine Frame.upd ?_))

theorem State.shutdownBy_frame (s : State) (event : Field) :
Frame [.csr, .staged, .mem, .pwr, .clk, .tal, .ptp, .haul, .sch, .pln, .top, .gen, .wgt, .bench, .frk, .scr, .itk,
      .clocks, .twn, .obs, .sent, .fresh] s (State.shutdownBy s event) := by
  unfold State.shutdownBy
  try dsimp only
  repeat' (first
    | with_reducible apply Frame.refl
    | with_reducible assumption
    | with_reducible apply Frame.ite
    | with_reducible apply Frame.then_ ?_ (State.orderlyShutdown_frame ..)
    | with_reducible apply Frame.then_ ?_ (State.wr_frame ..)
    | decide
    | dsimp only
    | split)

theorem execSagTimeout_frame (s : State) :
Frames [.csr, .staged, .mem, .pwr, .clk, .tal, .ptp, .haul, .sch, .pln, .top, .gen, .wgt, .bench, .frk, .scr, .itk,
      .clocks, .twn, .obs, .sent, .fresh] s (execSagTimeout s) := by
  unfold execSagTimeout
  try dsimp only
  repeat' (first
    | with_reducible apply Frame.refl
    | with_reducible assumption
    | with_reducible apply Frames.next
    | with_reducible apply Frames.fault
    | with_reducible apply Frames.refused
    | with_reducible apply Frame.ite
    | with_reducible apply Frames.ite
    | with_reducible apply Frame.then_ ?_ (State.shutdownBy_frame ..)
    | decide
    | dsimp only
    | split
    | (fail_if_no_progress simp only [Frame.mk_eq]; refine Frame.upd ?_))

theorem execOverVoltageTimeout_frame (mv : Nat) (s : State) :
Frames [.csr, .staged, .mem, .pwr, .clk, .tal, .ptp, .haul, .sch, .pln, .top, .gen, .wgt, .bench, .frk, .scr, .itk,
      .clocks, .twn, .obs, .sent, .fresh] s (execOverVoltageTimeout mv s) := by
  unfold execOverVoltageTimeout
  try dsimp only
  repeat' (first
    | with_reducible apply Frame.refl
    | with_reducible assumption
    | with_reducible apply Frames.next
    | with_reducible apply Frames.fault
    | with_reducible apply Frames.refused
    | with_reducible apply Frame.ite
    | with_reducible apply Frames.ite
    | with_reducible apply Frame.then_ ?_ (State.sampleInput_frame ..)
    | with_reducible apply Frame.then_ ?_ (State.setBand_frame ..)
    | with_reducible apply Frame.then_ ?_ (State.shutdownBy_frame ..)
    | with_reducible apply Frame.then_ ?_ (State.wr_frame ..)
    | decide
    | dsimp only
    | split
    | (fail_if_no_progress simp only [Frame.mk_eq]; refine Frame.upd ?_))

theorem execNormalBandEntry_frame (mv : Nat) (s : State) :
    Frames [.csr, .pwr] s (execNormalBandEntry mv s) := by
  unfold execNormalBandEntry
  try dsimp only
  repeat' (first
    | with_reducible apply Frame.refl
    | with_reducible assumption
    | with_reducible apply Frames.next
    | with_reducible apply Frames.fault
    | with_reducible apply Frames.refused
    | with_reducible apply Frame.ite
    | with_reducible apply Frames.ite
    | with_reducible apply Frame.then_ ?_ (State.sampleInput_frame ..)
    | with_reducible apply Frame.then_ ?_ (State.setBand_frame ..)
    | with_reducible apply Frame.then_ ?_ (State.wr_frame ..)
    | decide
    | dsimp only
    | split
    | (fail_if_no_progress simp only [Frame.mk_eq]; refine Frame.upd ?_))

theorem execInputPowerLoss_frame (s : State) :
Frames [.csr, .staged, .mem, .pwr, .clk, .tal, .ptp, .haul, .sch, .pln, .top, .olc, .gen, .wgt, .bench, .frk, .scr,
      .itk, .clocks, .twn, .fst, .flt, .rrc, .obs, .sent, .fresh] s (execInputPowerLoss s) := by
  unfold execInputPowerLoss
  try dsimp only
  repeat' (first
    | with_reducible apply Frame.refl
    | with_reducible assumption
    | with_reducible apply Frames.next
    | with_reducible apply Frames.fault
    | with_reducible apply Frames.refused
    | with_reducible apply Frame.ite
    | with_reducible apply Frames.ite
    | with_reducible apply Frame.then_ ?_ (State.onHoldup_frame ..)
    | with_reducible apply Frame.then_ ?_ (State.powerLost_frame ..)
    | decide
    | dsimp only
    | split)

theorem execForesterPowerOff_frame (s : State) :
Frames [.csr, .staged, .mem, .pwr, .clk, .tal, .ptp, .haul, .sch, .pln, .top, .olc, .gen, .wgt, .bench, .frk, .scr,
      .itk, .clocks, .twn, .fst, .flt, .rrc, .obs, .fresh] s (execForesterPowerOff s) := by
  unfold execForesterPowerOff
  try dsimp only
  repeat' (first
    | with_reducible apply Frame.refl
    | with_reducible assumption
    | with_reducible apply Frames.next
    | with_reducible apply Frames.fault
    | with_reducible apply Frames.refused
    | with_reducible apply Frame.ite
    | with_reducible apply Frames.ite
    | with_reducible apply Frame.then_ ?_ (State.foresterOff_frame ..)
    | with_reducible apply Frame.then_ ?_ (State.powerLost_frame ..)
    | decide
    | dsimp only
    | split)

theorem execAutoRestart_frame (s : State) :
Frames [.csr, .staged, .mem, .pwr, .clk, .tal, .ptp, .haul, .sch, .pln, .top, .olc, .gen, .wgt, .bench, .frk, .scr,
      .itk, .clocks, .twn, .fst, .flt, .rrc, .obs, .fresh] s (execAutoRestart s) := by
  unfold execAutoRestart
  try dsimp only
  repeat' (first
    | with_reducible apply Frame.refl
    | with_reducible assumption
    | with_reducible apply Frames.next
    | with_reducible apply Frames.fault
    | with_reducible apply Frames.refused
    | with_reducible apply Frame.ite
    | with_reducible apply Frames.ite
    | with_reducible apply Frame.then_ ?_ (State.moduleReset_frame ..)
    | decide
    | dsimp only
    | split)

theorem execCurrentThrottleAssert_frame (current : Nat) (s : State) :
    Frames [.csr] s (execCurrentThrottleAssert current s) := by
  unfold execCurrentThrottleAssert
  try dsimp only
  repeat' (first
    | with_reducible apply Frame.refl
    | with_reducible assumption
    | with_reducible apply Frames.next
    | with_reducible apply Frames.fault
    | with_reducible apply Frames.refused
    | with_reducible apply Frame.ite
    | with_reducible apply Frames.ite
    | with_reducible apply Frame.then_ ?_ (State.assertThrottle_frame ..)
    | with_reducible apply Frame.then_ ?_ (State.sampleCurrent_frame ..)
    | decide
    | dsimp only
    | split)

theorem execCurrentThrottleRelease_frame (current : Nat) (s : State) :
    Frames [.csr, .clk] s (execCurrentThrottleRelease current s) := by
  unfold execCurrentThrottleRelease
  try dsimp only
  repeat' (first
    | with_reducible apply Frame.refl
    | with_reducible assumption
    | with_reducible apply Frames.next
    | with_reducible apply Frames.fault
    | with_reducible apply Frames.refused
    | with_reducible apply Frame.ite
    | with_reducible apply Frames.ite
    | with_reducible apply Frame.then_ ?_ (State.releaseThrottle_frame ..)
    | with_reducible apply Frame.then_ ?_ (State.sampleCurrent_frame ..)
    | decide
    | dsimp only
    | split)

theorem execCoolantLeaveLimits_frame (temp : Nat) (flow : Nat) (current : Nat) (s : State) :
    Frames [.csr, .pwr, .rrc, .obs, .fresh] s (execCoolantLeaveLimits temp flow current s) := by
  unfold execCoolantLeaveLimits
  try dsimp only
  repeat' (first
    | with_reducible apply Frame.refl
    | with_reducible assumption
    | with_reducible apply Frames.next
    | with_reducible apply Frames.fault
    | with_reducible apply Frames.refused
    | with_reducible apply Frame.ite
    | with_reducible apply Frames.ite
    | with_reducible apply Frame.then_ ?_ (State.assertThrottle_frame ..)
    | with_reducible apply Frame.then_ ?_ (State.fault_frame ..)
    | with_reducible apply Frame.then_ ?_ (State.sampleCurrent_frame ..)
    | with_reducible apply Frame.then_ ?_ (State.wr_frame ..)
    | decide
    | dsimp only
    | split
    | (fail_if_no_progress simp only [Frame.mk_eq]; refine Frame.upd ?_))

theorem execCoolantShutdownTimeout_frame (s : State) :
Frames [.csr, .staged, .mem, .pwr, .clk, .tal, .ptp, .haul, .sch, .pln, .top, .gen, .wgt, .bench, .frk, .scr, .itk,
      .clocks, .twn, .obs, .sent, .fresh] s (execCoolantShutdownTimeout s) := by
  unfold execCoolantShutdownTimeout
  try dsimp only
  repeat' (first
    | with_reducible apply Frame.refl
    | with_reducible assumption
    | with_reducible apply Frames.next
    | with_reducible apply Frames.fault
    | with_reducible apply Frames.refused
    | with_reducible apply Frame.ite
    | with_reducible apply Frames.ite
    | with_reducible apply Frame.then_ ?_ (State.orderlyShutdown_frame ..)
    | decide
    | dsimp only
    | split)

theorem execCoolantReentry_frame (temp : Nat) (flow : Nat) (s : State) :
    Frames [.csr, .pwr, .clk] s (execCoolantReentry temp flow s) := by
  unfold execCoolantReentry
  try dsimp only
  repeat' (first
    | with_reducible apply Frame.refl
    | with_reducible assumption
    | with_reducible apply Frames.next
    | with_reducible apply Frames.fault
    | with_reducible apply Frames.refused
    | with_reducible apply Frame.ite
    | with_reducible apply Frames.ite
    | with_reducible apply Frame.then_ ?_ (State.releaseThrottle_frame ..)
    | decide
    | dsimp only
    | split
    | (fail_if_no_progress simp only [Frame.mk_eq]; refine Frame.upd ?_))

theorem execCoolantStartTimeout_frame (temp : Nat) (flow : Nat) (s : State) :
    Frames [.csr, .pwr, .rrc, .obs, .fresh] s (execCoolantStartTimeout temp flow s) := by
  unfold execCoolantStartTimeout
  try dsimp only
  repeat' (first
    | with_reducible apply Frame.refl
    | with_reducible assumption
    | with_reducible apply Frames.next
    | with_reducible apply Frames.fault
    | with_reducible apply Frames.refused
    | with_reducible apply Frame.ite
    | with_reducible apply Frames.ite
    | with_reducible apply Frame.then_ ?_ (State.fault_frame ..)
    | decide
    | dsimp only
    | split)

theorem execFillLimitExpiry_frame (s : State) :
    Frames [.csr, .pwr] s (execFillLimitExpiry s) := by
  unfold execFillLimitExpiry
  try dsimp only
  repeat' (first
    | with_reducible apply Frame.refl
    | with_reducible assumption
    | with_reducible apply Frames.next
    | with_reducible apply Frames.fault
    | with_reducible apply Frames.refused
    | with_reducible apply Frame.ite
    | with_reducible apply Frames.ite
    | with_reducible apply Frame.then_ ?_ (State.showFill_frame ..)
    | with_reducible apply Frame.then_ ?_ (State.startTaper_frame ..)
    | decide
    | dsimp only
    | split
    | (fail_if_no_progress simp only [Frame.mk_eq]; refine Frame.upd ?_))

theorem execTaperStep_frame (s : State) :
Frames [.csr, .staged, .mem, .pwr, .clk, .tal, .ptp, .haul, .sch, .pln, .top, .gen, .wgt, .bench, .frk, .scr, .itk,
      .clocks, .twn, .obs, .sent, .fresh] s (execTaperStep s) := by
  unfold execTaperStep
  try dsimp only
  repeat' (first
    | with_reducible apply Frame.refl
    | with_reducible assumption
    | with_reducible apply Frames.next
    | with_reducible apply Frames.fault
    | with_reducible apply Frames.refused
    | with_reducible apply Frame.ite
    | with_reducible apply Frames.ite
    | with_reducible apply Frame.then_ ?_ (State.stepTapers_frame ..)
    | with_reducible apply Frame.then_ ?_ (State.taperEnded_frame ..)
    | with_reducible apply Frame.then_ ?_ (State.wr_frame ..)
    | decide
    | dsimp only
    | split)

theorem execHoldupSwitchClose_frame (s : State) :
    Frames [.pwr] s (execHoldupSwitchClose s) := by
  unfold execHoldupSwitchClose
  try dsimp only
  repeat' (first
    | with_reducible apply Frame.refl
    | with_reducible assumption
    | with_reducible apply Frames.next
    | with_reducible apply Frames.fault
    | with_reducible apply Frames.refused
    | with_reducible apply Frame.ite
    | with_reducible apply Frames.ite
    | decide
    | dsimp only
    | split
    | (fail_if_no_progress simp only [Frame.mk_eq]; refine Frame.upd ?_))

theorem execWriteUnitRequest_frame (store : FlashStore) (s : State) :
    Frames [.csr, .pwr, .sent] s (execWriteUnitRequest store s) := by
  unfold execWriteUnitRequest
  try dsimp only
  repeat' (first
    | with_reducible apply Frame.refl
    | with_reducible assumption
    | with_reducible apply Frames.next
    | with_reducible apply Frames.fault
    | with_reducible apply Frames.refused
    | with_reducible apply Frame.ite
    | with_reducible apply Frames.ite
    | with_reducible apply Frame.then_ ?_ (State.requestUnits_frame ..)
    | decide
    | dsimp only
    | split)

theorem execWriteUnitCommit_frame (s : State) :
    Frames [.csr, .pwr, .haul, .sch, .rrc, .nv, .sent] s (execWriteUnitCommit s) := by
  unfold execWriteUnitCommit
  try dsimp only
  repeat' (first
    | with_reducible apply Frame.refl
    | with_reducible assumption
    | with_reducible apply Frames.next
    | with_reducible apply Frames.fault
    | with_reducible apply Frames.refused
    | with_reducible apply Frame.ite
    | with_reducible apply Frames.ite
    | with_reducible apply Frame.then_ ?_ (State.commitUnit_frame ..)
    | with_reducible apply Frame.then_ ?_ (State.requestUnits_frame ..)
    | decide
    | dsimp only
    | split
    | (fail_if_no_progress simp only [Frame.mk_eq]; refine Frame.upd ?_))

theorem execHoldupTestPeriodic_frame (mj : Nat) (s : State) :
    Frames [.csr, .pwr, .rrc, .obs, .fresh] s (execHoldupTestPeriodic mj s) := by
  unfold execHoldupTestPeriodic
  try dsimp only
  repeat' (first
    | with_reducible apply Frame.refl
    | with_reducible assumption
    | with_reducible apply Frames.next
    | with_reducible apply Frames.fault
    | with_reducible apply Frames.refused
    | with_reducible apply Frame.ite
    | with_reducible apply Frames.ite
    | with_reducible apply Frame.then_ ?_ (State.holdupTested_frame ..)
    | decide
    | dsimp only
    | split)

theorem execPwrHoldupTest_frame (mj : Nat) (s : State) :
    Frames [.csr, .pwr, .rrc, .obs, .fresh] s (execPwrHoldupTest mj s) := by
  unfold execPwrHoldupTest
  try dsimp only
  repeat' (first
    | with_reducible apply Frame.refl
    | with_reducible assumption
    | with_reducible apply Frames.next
    | with_reducible apply Frames.fault
    | with_reducible apply Frames.refused
    | with_reducible apply Frame.ite
    | with_reducible apply Frames.ite
    | with_reducible apply Frame.then_ ?_ (State.holdupTested_frame ..)
    | decide
    | dsimp only
    | split)

theorem execClearExtremes_frame (s : State) :
    Frames [.csr] s (execClearExtremes s) := by
  unfold execClearExtremes
  try dsimp only
  repeat' (first
    | with_reducible apply Frame.refl
    | with_reducible assumption
    | with_reducible apply Frames.next
    | with_reducible apply Frames.fault
    | with_reducible apply Frames.refused
    | with_reducible apply Frame.ite
    | with_reducible apply Frames.ite
    | with_reducible apply Frame.then_ ?_ (State.wr_frame ..)
    | decide
    | dsimp only
    | split)

theorem execPwrShutdown_frame (s : State) :
Frames [.csr, .staged, .mem, .pwr, .clk, .tal, .ptp, .haul, .sch, .pln, .top, .gen, .wgt, .bench, .frk, .scr, .itk,
      .clocks, .twn, .obs, .sent, .fresh] s (execPwrShutdown s) := by
  unfold execPwrShutdown
  try dsimp only
  repeat' (first
    | with_reducible apply Frame.refl
    | with_reducible assumption
    | with_reducible apply Frames.next
    | with_reducible apply Frames.fault
    | with_reducible apply Frames.refused
    | with_reducible apply Frame.ite
    | with_reducible apply Frames.ite
    | with_reducible apply Frame.then_ ?_ (State.orderlyShutdown_frame ..)
    | decide
    | dsimp only
    | split)

theorem execPwrNvInhibit_frame (inhibit : Bool) (s : State) :
    Frames [.csr, .pwr] s (execPwrNvInhibit inhibit s) := by
  unfold execPwrNvInhibit
  try dsimp only
  repeat' (first
    | with_reducible apply Frame.refl
    | with_reducible assumption
    | with_reducible apply Frames.next
    | with_reducible apply Frames.fault
    | with_reducible apply Frames.refused
    | with_reducible apply Frame.ite
    | with_reducible apply Frames.ite
    | with_reducible apply Frame.then_ ?_ (State.refreshInhibit_frame ..)
    | with_reducible apply Frame.then_ ?_ (State.wr_frame ..)
    | decide
    | dsimp only
    | split)

end Sys2Proof.Machine
end

