-- ==== Sys2Proof/Laws/FrameTwinPair.lean ====
section
/-! SUPPORT. One frame lemma for every operation of Machine/TwinPair.lean: the parts of the state that it may change. -/

set_option Elab.async false
set_option linter.unusedTactic false
set_option linter.unreachableTactic false

namespace Sys2Proof.Machine

open Sys2Proof

theorem State.lateItem_frame (s : State) :
    Frame [.csr] s (State.lateItem s) := by
  unfold State.lateItem
  try dsimp only
  repeat' (first
    | with_reducible apply Frame.refl
    | with_reducible assumption
    | with_reducible apply Frame.ite
    | with_reducible apply Frame.then_ ?_ (State.inc_frame ..)
    | decide
    | dsimp only
    | split)

theorem State.stageData_frame (s : State) (kind : Nat) (c : Nat) (w : Nat) (index : Nat) (data : List Byte) :
    Frame [.csr, .mem] s (State.stageData s kind c w index data) := by
  unfold State.stageData
  try dsimp only
  repeat' (first
    | with_reducible apply Frame.refl
    | with_reducible assumption
    | with_reducible apply Frame.ite
    | with_reducible apply Frame.then_ ?_ (State.putMem_frame ..)
    | decide
    | dsimp only
    | split)

theorem State.stageBlock_frame (s : State) (kind : Nat) (c : Nat) (w : Nat) (index : Nat) (count : Nat) (cells :
      List CellReading) (data : List Byte) :
    Frame [.csr, .mem, .twn] s (State.stageBlock s kind c w index count cells data) := by
  unfold State.stageBlock
  try dsimp only
  repeat' (first
    | with_reducible apply Frame.refl
    | with_reducible assumption
    | with_reducible apply Frame.ite
    | with_reducible apply Frame.then_ ?_ (State.stageData_frame ..)
    | decide
    | dsimp only
    | split
    | (fail_if_no_progress simp only [Frame.mk_eq]; refine Frame.upd ?_))

theorem State.takeItem_frame (s : State) (kind : Nat) (count : Nat) (cells : List CellReading) (l : List Byte) :
    Frame [.csr, .mem, .twn] s (State.takeItem s kind count cells l).1 := by
  unfold State.takeItem
  try dsimp only
  repeat' (first
    | with_reducible apply Frame.refl
    | with_reducible assumption
    | with_reducible apply Frame.ite
    | with_reducible apply Frame.then_ ?_ (State.lateItem_frame ..)
    | with_reducible apply Frame.then_ ?_ (State.stageBlock_frame ..)
    | decide
    | dsimp only
    | split)

theorem State.twinBlock_frame {P : List Part} {s0 : State} (s : State) (port : Nat) (blk : WireBlock) (kind count : Nat)
    (cells : List CellReading) (f : State → Nat → Nat → TwinItem → State) (hP : [.csr, .mem, .haul, .sch, .twn, .fst, .obs, .sent, .fresh] ⊆ P) (h0 : Frame P s0 s)
    (hf : ∀ x a b c, Frame P s0 x → Frame P s0 (f x a b c)) :
    Frame P s0 (s.twinBlock port blk kind count cells f) := by
  have sub : ∀ {Q : List Part}, Q ⊆ [.csr, .mem, .haul, .sch, .twn, .fst, .obs, .sent, .fresh] → Q ⊆ P := fun h x hx => hP (h hx)
  unfold State.twinBlock
  split
  · exact h0
  · split
    · rename_i e
      exact h0.then_ (Frame.of_eq (State.accept_frame ..) e) (sub (by decide))
    · rename_i e
      have h1 := h0.then_ (Frame.of_eq (State.accept_frame ..) e) (sub (by decide))
      split
      · exact h1
      · split
        · rename_i e2
          exact h1.then_ (Frame.of_eq (State.takeItem_frame ..) e2) (sub (by decide))
        · rename_i e2
          have h2 := h1.then_ (Frame.of_eq (State.takeItem_frame ..) e2) (sub (by decide))
          split
          · exact hf _ _ _ _ h2
          · exact h2

theorem State.takeSet_frame (s : State) (e : IntakeEntry) (r : IntakeRun) (w : WindowRec) (x : TwinItem) :
    Frame [.csr, .mem, .haul, .itk, .twn, .sent] s (State.takeSet s e r w x) := by
  unfold State.takeSet
  try dsimp only
  repeat' (first
    | with_reducible apply Frame.refl
    | with_reducible assumption
    | with_reducible apply Frame.ite
    | with_reducible apply Frame.then_ ?_ (State.dropItem_frame ..)
    | with_reducible apply Frame.then_ ?_ (State.setBytes_frame ..)
    | with_reducible apply Frame.then_ ?_ (State.setWindow_frame ..)
    | with_reducible apply Frame.then_ ?_ (State.shipTags_frame ..)
    | (with_reducible apply Frame.then_ ?_ (Frame.of_eq (State.shipTags_frame ..) (by assumption)))
    | decide
    | with_reducible apply Frame.foldl_fst
    | with_reducible apply Frame.foldl
    | intro y a b c hy
    | intro y a hy
    | intro y hy
    | dsimp only
    | split
    | (fail_if_no_progress simp only [Frame.mk_eq]; refine Frame.upd ?_))

theorem execTwinSetReceived_frame (port : Fin 16) (blk : WireBlock) (count : Nat) (cells : List CellReading) (s :
      State) :
Frames [.csr, .mem, .haul, .sch, .itk, .twn, .fst, .obs, .sent, .fresh] s (execTwinSetReceived port blk count cells
      s) := by
  unfold execTwinSetReceived
  try dsimp only
  repeat' (first
    | with_reducible apply Frame.refl
    | with_reducible assumption
    | with_reducible apply Frames.next
    | with_reducible apply Frames.fault
    | with_reducible apply Frames.refused
    | with_reducible apply Frame.ite
    | with_reducible apply Frames.ite
    | with_reducible apply Frame.then_ ?_ (State.takeSet_frame ..)
    | with_reducible apply State.twinBlock_frame
    | decide
    | intro y a b c hy
    | intro y a hy
    | intro y hy
    | dsimp only
    | split)

theorem execTwinIndexReceived_frame (port : Fin 16) (blk : WireBlock) (count : Nat) (s : State) :
    Frames [.csr, .mem, .haul, .sch, .twn, .fst, .obs, .sent, .fresh] s (execTwinIndexReceived port blk count s) := by
  unfold execTwinIndexReceived
  try dsimp only
  repeat' (first
    | with_reducible apply Frame.refl
    | with_reducible assumption
    | with_reducible apply Frames.next
    | with_reducible apply Frames.fault
    | with_reducible apply Frames.refused
    | with_reducible apply Frame.ite
    | with_reducible apply Frames.ite
    | with_reducible apply State.twinBlock_frame
    | decide
    | intro y a b c hy
    | intro y a hy
    | intro y hy
    | dsimp only
    | split)

theorem execTwinStateReceived_frame (port : Fin 16) (blk : WireBlock) (count : Nat) (s : State) :
    Frames [.csr, .mem, .haul, .sch, .twn, .fst, .obs, .sent, .fresh] s (execTwinStateReceived port blk count s) := by
  unfold execTwinStateReceived
  try dsimp only
  repeat' (first
    | with_reducible apply Frame.refl
    | with_reducible assumption
    | with_reducible apply Frames.next
    | with_reducible apply Frames.fault
    | with_reducible apply Frames.refused
    | with_reducible apply Frame.ite
    | with_reducible apply Frames.ite
    | with_reducible apply State.twinBlock_frame
    | decide
    | intro y a b c hy
    | intro y a hy
    | intro y hy
    | dsimp only
    | split)

theorem execTwinTagsReceived_frame (port : Fin 16) (blk : WireBlock) (count : Nat) (s : State) :
    Frames [.csr, .mem, .haul, .sch, .twn, .fst, .obs, .sent, .fresh] s (execTwinTagsReceived port blk count s) := by
  unfold execTwinTagsReceived
  try dsimp only
  repeat' (first
    | with_reducible apply Frame.refl
    | with_reducible assumption
    | with_reducible apply Frames.next
    | with_reducible apply Frames.fault
    | with_reducible apply Frames.refused
    | with_reducible apply Frame.ite
    | with_reducible apply Frames.ite
    | with_reducible apply State.twinBlock_frame
    | decide
    | intro y a b c hy
    | intro y a hy
    | intro y hy
    | dsimp only
    | split)

theorem execTwinAckReceived_frame (port : Fin 16) (blk : WireBlock) (s : State) :
    Frames [.csr, .mem, .haul, .sch, .twn, .fst, .obs, .sent, .fresh] s (execTwinAckReceived port blk s) := by
  unfold execTwinAckReceived
  try dsimp only
  repeat' (first
    | with_reducible apply Frame.refl
    | with_reducible assumption
    | with_reducible apply Frames.next
    | with_reducible apply Frames.fault
    | with_reducible apply Frames.refused
    | with_reducible apply Frame.ite
    | with_reducible apply Frames.ite
    | with_reducible apply Frame.then_ ?_ (State.dropItem_frame ..)
    | with_reducible apply State.twinBlock_frame
    | with_reducible apply Frame.then_ ?_ (State.wrAt_frame ..)
    | decide
    | intro y a b c hy
    | intro y a hy
    | intro y hy
    | dsimp only
    | split
    | (fail_if_no_progress simp only [Frame.mk_eq]; refine Frame.upd ?_))

theorem execReplicaSetShip_frame (ctx : Fin 16) (s : State) :
Frames [.csr, .mem, .pwr, .haul, .sch, .gen, .wgt, .scr, .itk, .twn, .flt, .rrc, .obs, .sent, .fresh] s
      (execReplicaSetShip ctx s) := by
  unfold execReplicaSetShip
  try dsimp only
  repeat' (first
    | with_reducible apply Frame.refl
    | with_reducible assumption
    | with_reducible apply Frames.next
    | with_reducible apply Frames.fault
    | with_reducible apply Frames.refused
    | with_reducible apply Frame.ite
    | with_reducible apply Frames.ite
    | with_reducible apply Frame.then_ ?_ (State.readSpans_frame ..)
    | (with_reducible apply Frame.then_ ?_ (Frame.of_eq (State.readSpans_frame ..) (by assumption)))
    | with_reducible apply Frame.then_ ?_ (State.setWindow_frame ..)
    | with_reducible apply Frame.then_ ?_ (State.shipItem_frame ..)
    | with_reducible apply Frame.then_ ?_ (State.shipTags_frame ..)
    | (with_reducible apply Frame.then_ ?_ (Frame.of_eq (State.shipTags_frame ..) (by assumption)))
    | decide
    | dsimp only
    | split)

theorem execReplicaSetCheck_frame (ctx : Fin 16) (s : State) :
    Frames [.csr, .mem, .haul, .sch, .itk, .twn, .sent] s (execReplicaSetCheck ctx s) := by
  unfold execReplicaSetCheck
  try dsimp only
  repeat' (first
    | with_reducible apply Frame.refl
    | with_reducible assumption
    | with_reducible apply Frames.next
    | with_reducible apply Frames.fault
    | with_reducible apply Frames.refused
    | with_reducible apply Frame.ite
    | with_reducible apply Frames.ite
    | with_reducible apply Frame.then_ ?_ (State.takeSet_frame ..)
    | with_reducible apply Frame.then_ ?_ (State.twinCheckFailed_frame ..)
    | decide
    | dsimp only
    | split)

theorem State.diverges_frame (s : State) (c : Nat) (w : Nat) (slot : Nat) :
    Frame [.csr, .pwr, .haul, .sch, .twn, .flt, .rrc, .obs, .sent, .fresh] s (State.diverges s c w slot) := by
  unfold State.diverges
  extract_lets v0 v1
  have h_v0 : Frame [.csr, .pwr, .haul, .sch, .twn, .flt, .rrc, .obs, .sent, .fresh] s v0 := by
    simp only [v0]
    repeat' (first
      | with_reducible apply Frame.refl
      | with_reducible assumption
      | with_reducible apply Frame.ite
      | with_reducible apply Frame.then_ ?_ (State.dropItem_frame ..)
      | with_reducible apply Frame.then_ ?_ (State.inc_frame ..)
      | with_reducible apply Frame.then_ ?_ (State.stepFatal_frame ..)
      | with_reducible apply Frame.then_ ?_ (State.wr_frame ..)
      | decide
      | dsimp only
      | split)
  clear_value v0
  have h_v1 : Frame [.csr, .pwr, .haul, .sch, .twn, .flt, .rrc, .obs, .sent, .fresh] s v1 := by
    simp only [v1]
    repeat' (first
      | with_reducible apply Frame.refl
      | with_reducible assumption
      | with_reducible apply Frame.ite
      | with_reducible apply Frame.then_ ?_ (State.dropItem_frame ..)
      | with_reducible apply Frame.then_ ?_ (State.inc_frame ..)
      | with_reducible apply Frame.then_ ?_ (State.stepFatal_frame ..)
      | with_reducible apply Frame.then_ ?_ (State.wr_frame ..)
      | decide
      | dsimp only
      | split)
  clear_value v1
  repeat' (first
    | with_reducible apply Frame.refl
    | with_reducible assumption
    | with_reducible apply Frame.ite
    | with_reducible apply Frame.then_ ?_ (State.dropItem_frame ..)
    | with_reducible apply Frame.then_ ?_ (State.inc_frame ..)
    | with_reducible apply Frame.then_ ?_ (State.stepFatal_frame ..)
    | with_reducible apply Frame.then_ ?_ (State.wr_frame ..)
    | decide
    | dsimp only
    | split)

theorem execReplicaCompare_frame (ctx : Fin 16) (s : State) :
    Frames [.csr, .pwr, .haul, .sch, .itk, .twn, .flt, .rrc, .obs, .sent, .fresh] s (execReplicaCompare ctx s) := by
  unfold execReplicaCompare
  try dsimp only
  repeat' (first
    | with_reducible apply Frame.refl
    | with_reducible assumption
    | with_reducible apply Frames.next
    | with_reducible apply Frames.fault
    | with_reducible apply Frames.refused
    | with_reducible apply Frame.ite
    | with_reducible apply Frames.ite
    | with_reducible apply Frame.then_ ?_ (State.diverges_frame ..)
    | with_reducible apply Frame.then_ ?_ (State.dropItem_frame ..)
    | with_reducible apply Frame.then_ ?_ (State.inc_frame ..)
    | with_reducible apply Frame.then_ ?_ (State.setWindow_frame ..)
    | with_reducible apply Frame.then_ ?_ (State.twinCheckFailed_frame ..)
    | with_reducible apply Frame.then_ ?_ (State.wrAt_frame ..)
    | decide
    | dsimp only
    | split)

theorem execTwnTakeover_frame (s : State) :
    Frames [.csr, .twn] s (execTwnTakeover s) := by
  unfold execTwnTakeover
  try dsimp only
  repeat' (first
    | with_reducible apply Frame.refl
    | with_reducible assumption
    | with_reducible apply Frames.next
    | with_reducible apply Frames.fault
    | with_reducible apply Frames.refused
    | with_reducible apply Frame.ite
    | with_reducible apply Frames.ite
    | with_reducible apply Frame.then_ ?_ (State.lateItem_frame ..)
    | with_reducible apply Frame.then_ ?_ (State.startTakeover_frame ..)
    | decide
    | dsimp only
    | split)

theorem execTwnSolo_frame (s : State) :
    Frames [.csr, .twn] s (execTwnSolo s) := by
  unfold execTwnSolo
  try dsimp only
  repeat' (first
    | with_reducible apply Frame.refl
    | with_reducible assumption
    | with_reducible apply Frames.next
    | with_reducible apply Frames.fault
    | with_reducible apply Frames.refused
    | with_reducible apply Frame.ite
    | with_reducible apply Frames.ite
    | with_reducible apply Frame.then_ ?_ (State.partnerLost_frame ..)
    | decide
    | dsimp only
    | split)

theorem execPartnerLost_frame (s : State) :
    Frames [.csr, .twn] s (execPartnerLost s) := by
  unfold execPartnerLost
  try dsimp only
  repeat' (first
    | with_reducible apply Frame.refl
    | with_reducible assumption
    | with_reducible apply Frames.next
    | with_reducible apply Frames.fault
    | with_reducible apply Frames.refused
    | with_reducible apply Frame.ite
    | with_reducible apply Frames.ite
    | with_reducible apply Frame.then_ ?_ (State.partnerLost_frame ..)
    | decide
    | dsimp only
    | split)

theorem execTakeoverEffect_frame (ctx : Fin 16) (s : State) :
    Frames [.csr, .pwr, .itk, .twn, .rrc, .obs, .fresh] s (execTakeoverEffect ctx s) := by
  unfold execTakeoverEffect
  try dsimp only
  repeat' (first
    | with_reducible apply Frame.refl
    | with_reducible assumption
    | with_reducible apply Frames.next
    | with_reducible apply Frames.fault
    | with_reducible apply Frames.refused
    | with_reducible apply Frame.ite
    | with_reducible apply Frames.ite
    | with_reducible apply Frame.then_ ?_ (State.notice_frame ..)
    | with_reducible apply Frame.then_ ?_ (State.setRun_frame ..)
    | with_reducible apply Frame.then_ ?_ (State.wr_frame ..)
    | decide
    | dsimp only
    | split
    | (fail_if_no_progress simp only [Frame.mk_eq]; refine Frame.upd ?_))

end Sys2Proof.Machine
end

