-- ==== Sys2Proof/Laws/FrameWeights.lean ====
section
/-! SUPPORT. One frame lemma for every operation of Machine/Weights.lean: the parts of the state that it may change. -/

set_option Elab.async false
set_option linter.unusedTactic false
set_option linter.unreachableTactic false

namespace Sys2Proof.Machine

open Sys2Proof

theorem State.loadAborts_frame (s : State) (c : Nat) (code : Nat) (source : Nat) (shard : Nat) :
    Frame [.csr, .pwr, .wgt, .scr, .rrc, .obs, .fresh] s (State.loadAborts s c code source shard) := by
  unfold State.loadAborts
  try dsimp only
  repeat' (first
    | with_reducible apply Frame.refl
    | with_reducible assumption
    | with_reducible apply Frame.ite
    | with_reducible apply Frame.then_ ?_ (State.dropCopies_frame ..)
    | with_reducible apply Frame.then_ ?_ (State.loadFailed_frame ..)
    | with_reducible apply Frame.then_ ?_ (State.setRoot_frame ..)
    | with_reducible apply Frame.then_ ?_ (State.setWctx_frame ..)
    | with_reducible apply Frame.then_ ?_ (State.wrAt_frame ..)
    | decide
    | dsimp only
    | split)

theorem State.startLoad_frame (s : State) (c : Nat) (x3 : Bool) :
    Frame [.csr, .pwr, .wgt, .rrc, .obs, .fresh] s (State.startLoad s c x3) := by
  unfold State.startLoad
  try dsimp only
  repeat' (first
    | with_reducible apply Frame.refl
    | with_reducible assumption
    | with_reducible apply Frame.ite
    | with_reducible apply Frame.then_ ?_ (State.loadFailed_frame ..)
    | with_reducible apply Frame.then_ ?_ (State.olicoLost_frame ..)
    | with_reducible apply Frame.then_ ?_ (State.setRoot_frame ..)
    | with_reducible apply Frame.then_ ?_ (State.setWctx_frame ..)
    | with_reducible apply Frame.then_ ?_ (State.wrAt_frame ..)
    | decide
    | dsimp only
    | split)

theorem execWgtLoadStart_frame (s : State) :
    Frames [.csr, .pwr, .wgt, .rrc, .obs, .fresh] s (execWgtLoadStart s) := by
  unfold execWgtLoadStart
  try dsimp only
  repeat' (first
    | with_reducible apply Frame.refl
    | with_reducible assumption
    | with_reducible apply Frames.next
    | with_reducible apply Frames.fault
    | with_reducible apply Frames.refused
    | with_reducible apply Frame.ite
    | with_reducible apply Frames.ite
    | with_reducible apply Frame.then_ ?_ (State.startLoad_frame ..)
    | decide
    | dsimp only
    | split)

theorem execX3Start_frame (s : State) :
    Frames [.csr, .pwr, .wgt, .rrc, .obs, .fresh] s (execX3Start s) := by
  unfold execX3Start
  try dsimp only
  repeat' (first
    | with_reducible apply Frame.refl
    | with_reducible assumption
    | with_reducible apply Frames.next
    | with_reducible apply Frames.fault
    | with_reducible apply Frames.refused
    | with_reducible apply Frame.ite
    | with_reducible apply Frames.ite
    | with_reducible apply Frame.then_ ?_ (State.startLoad_frame ..)
    | decide
    | with_reducible apply Frame.foldl_fst
    | with_reducible apply Frame.foldl
    | intro y a b c hy
    | intro y a hy
    | intro y hy
    | dsimp only
    | split)

theorem execWgtLoadAbort_frame (s : State) :
    Frames [.csr, .pwr, .wgt, .scr, .rrc, .obs, .fresh] s (execWgtLoadAbort s) := by
  unfold execWgtLoadAbort
  try dsimp only
  repeat' (first
    | with_reducible apply Frame.refl
    | with_reducible assumption
    | with_reducible apply Frames.next
    | with_reducible apply Frames.fault
    | with_reducible apply Frames.refused
    | with_reducible apply Frame.ite
    | with_reducible apply Frames.ite
    | with_reducible apply Frame.then_ ?_ (State.loadAborts_frame ..)
    | decide
    | dsimp only
    | split)

theorem State.hashed_frame (s : State) (n : Nat) :
    Frame [.csr] s (State.hashed s n) := by
  unfold State.hashed
  try dsimp only
  repeat' (first
    | with_reducible apply Frame.refl
    | with_reducible assumption
    | with_reducible apply Frame.ite
    | with_reducible apply Frame.then_ ?_ (State.count_frame ..)
    | with_reducible apply Frame.then_ ?_ (State.wr_frame ..)
    | decide
    | dsimp only
    | split)

theorem State.fetchShard_frame (s : State) (b : Binding) (x : Bound) (k : Nat) (i : Nat) (repair : Bool) (a : Option
      Nat) :
Frame [.csr, .mem, .pwr, .haul, .sch, .gen, .scr, .flt, .rrc, .obs, .sent, .fresh] s (State.fetchShard s b x k i
      repair a).1 := by
  unfold State.fetchShard
  try dsimp only
  repeat' (first
    | with_reducible apply Frame.refl
    | with_reducible assumption
    | with_reducible apply Frame.ite
    | with_reducible apply Frame.then_ ?_ (State.readService_frame ..)
    | (with_reducible apply Frame.then_ ?_ (Frame.of_eq (State.readService_frame ..) (by assumption)))
    | with_reducible apply Frame.then_ ?_ (State.startCopy_frame ..)
    | decide
    | dsimp only
    | split)

theorem State.checkShard_frame (s : State) (b : Binding) (x : Bound) (k : Nat) (i : Nat) :
    Frame [.csr] s (State.checkShard s b x k i).1 := by
  unfold State.checkShard
  try dsimp only
  repeat' (first
    | with_reducible apply Frame.refl
    | with_reducible assumption
    | with_reducible apply Frame.ite
    | with_reducible apply Frame.then_ ?_ (State.hashed_frame ..)
    | decide
    | dsimp only
    | split)

theorem State.bitmapRead_frame (s : State) (b : Binding) (x : Bound) (k : Nat) (a : List (Nat × Nat)) :
    Frame [.csr, .pwr, .haul, .sch, .gen, .scr, .flt, .rrc, .obs, .sent, .fresh] s (State.bitmapRead s b x k a).1 := by
  induction a generalizing s b x k with
  | nil =>
    first
      | exact Frame.refl _ _
      | (rw [State.bitmapRead]
         repeat' (first
           | with_reducible apply Frame.refl
           | with_reducible assumption
           | with_reducible apply Frame.ite
           | with_reducible apply Frame.then_ ?_ (State.olicoLost_frame ..)
           | with_reducible apply Frame.then_ ?_ (State.readService_frame ..)
           | (with_reducible apply Frame.then_ ?_ (Frame.of_eq (State.readService_frame ..) (by assumption)))
           | decide
           | dsimp only
           | split))
  | cons b l ih =>
    rw [State.bitmapRead]
    try dsimp only
    repeat' (first
      | with_reducible apply Frame.refl
      | with_reducible assumption
      | with_reducible apply Frame.ite
      | with_reducible apply Frame.then_ ?_ (ih ..)
      | (with_reducible apply Frame.then_ ?_ (Frame.of_eq (ih ..) (by assumption)))
      | with_reducible apply Frame.then_ ?_ (State.olicoLost_frame ..)
      | with_reducible apply Frame.then_ ?_ (State.readService_frame ..)
      | (with_reducible apply Frame.then_ ?_ (Frame.of_eq (State.readService_frame ..) (by assumption)))
      | decide
      | dsimp only
      | split)

theorem State.checkBitmaps_frame (s : State) (b : Binding) (x : Bound) (k : Nat) (a : List TensorBind) :
    Frame [.csr, .pwr, .haul, .sch, .gen, .scr, .flt, .rrc, .obs, .sent, .fresh] s (State.checkBitmaps s b x k a).1 := by
  induction a generalizing s b x k with
  | nil =>
    first
      | exact Frame.refl _ _
      | (rw [State.checkBitmaps]
         repeat' (first
           | with_reducible apply Frame.refl
           | with_reducible assumption
           | with_reducible apply Frame.ite
           | with_reducible apply Frame.then_ ?_ (State.bitmapRead_frame ..)
           | (with_reducible apply Frame.then_ ?_ (Frame.of_eq (State.bitmapRead_frame ..) (by assumption)))
           | with_reducible apply Frame.then_ ?_ (State.hashed_frame ..)
           | decide
           | dsimp only
           | split))
  | cons b l ih =>
    rw [State.checkBitmaps]
    try dsimp only
    repeat' (first
      | with_reducible apply Frame.refl
      | with_reducible assumption
      | with_reducible apply Frame.ite
      | with_reducible apply Frame.then_ ?_ (ih ..)
      | (with_reducible apply Frame.then_ ?_ (Frame.of_eq (ih ..) (by assumption)))
      | with_reducible apply Frame.then_ ?_ (State.bitmapRead_frame ..)
      | (with_reducible apply Frame.then_ ?_ (Frame.of_eq (State.bitmapRead_frame ..) (by assumption)))
      | with_reducible apply Frame.then_ ?_ (State.hashed_frame ..)
      | decide
      | dsimp only
      | split)

theorem State.loadDone_frame (s : State) (c : Nat) (b : Binding) (l : Load) :
    Frame [.csr, .wgt] s (State.loadDone s c b l) := by
  unfold State.loadDone
  extract_lets v0 v1 v2 v3 v4 v5 v6
  clear_value v0
  clear_value v1
  have h_v2 : Frame [.csr, .wgt] s v2 := by
    simp only [v2]
    repeat' (first
      | with_reducible apply Frame.refl
      | with_reducible assumption
      | with_reducible apply Frame.ite
      | with_reducible apply Frame.then_ ?_ (State.setRoot_frame ..)
      | with_reducible apply Frame.then_ ?_ (State.setWctx_frame ..)
      | with_reducible apply Frame.then_ ?_ (State.wrAt_frame ..)
      | decide
      | dsimp only
      | split
      | (fail_if_no_progress simp only [Frame.mk_eq]; refine Frame.upd ?_))
  clear_value v2
  have h_v3 : Frame [.csr, .wgt] s v3 := by
    simp only [v3]
    repeat' (first
      | with_reducible apply Frame.refl
      | with_reducible assumption
      | with_reducible apply Frame.ite
      | with_reducible apply Frame.then_ ?_ (State.setRoot_frame ..)
      | with_reducible apply Frame.then_ ?_ (State.setWctx_frame ..)
      | with_reducible apply Frame.then_ ?_ (State.wrAt_frame ..)
      | decide
      | dsimp only
      | split
      | (fail_if_no_progress simp only [Frame.mk_eq]; refine Frame.upd ?_))
  clear_value v3
  have h_v4 : Frame [.csr, .wgt] s v4 := by
    simp only [v4]
    repeat' (first
      | with_reducible apply Frame.refl
      | with_reducible assumption
      | with_reducible apply Frame.ite
      | with_reducible apply Frame.then_ ?_ (State.setRoot_frame ..)
      | with_reducible apply Frame.then_ ?_ (State.setWctx_frame ..)
      | with_reducible apply Frame.then_ ?_ (State.wrAt_frame ..)
      | decide
      | dsimp only
      | split
      | (fail_if_no_progress simp only [Frame.mk_eq]; refine Frame.upd ?_))
  clear_value v4
  clear_value v5
  have h_v6 : Frame [.csr, .wgt] s v6 := by
    simp only [v6]
    repeat' (first
      | with_reducible apply Frame.refl
      | with_reducible assumption
      | with_reducible apply Frame.ite
      | with_reducible apply Frame.then_ ?_ (State.setRoot_frame ..)
      | with_reducible apply Frame.then_ ?_ (State.setWctx_frame ..)
      | with_reducible apply Frame.then_ ?_ (State.wrAt_frame ..)
      | decide
      | dsimp only
      | split
      | (fail_if_no_progress simp only [Frame.mk_eq]; refine Frame.upd ?_))
  clear_value v6
  repeat' (first
    | with_reducible apply Frame.refl
    | with_reducible assumption
    | with_reducible apply Frame.ite
    | with_reducible apply Frame.then_ ?_ (State.setRoot_frame ..)
    | with_reducible apply Frame.then_ ?_ (State.setWctx_frame ..)
    | with_reducible apply Frame.then_ ?_ (State.wrAt_frame ..)
    | decide
    | dsimp only
    | split
    | (fail_if_no_progress simp only [Frame.mk_eq]; refine Frame.upd ?_))

theorem State.shardArrived_frame (s : State) (c : Nat) (b : Binding) (l : Load) (i : Nat) :
Frame [.csr, .pwr, .haul, .sch, .gen, .wgt, .scr, .flt, .rrc, .obs, .sent, .fresh] s (State.shardArrived s c b l i) := by
  unfold State.shardArrived
  try dsimp only
  repeat' (first
    | with_reducible apply Frame.refl
    | with_reducible assumption
    | with_reducible apply Frame.ite
    | with_reducible apply Frame.then_ ?_ (State.checkBitmaps_frame ..)
    | (with_reducible apply Frame.then_ ?_ (Frame.of_eq (State.checkBitmaps_frame ..) (by assumption)))
    | with_reducible apply Frame.then_ ?_ (State.loadAborts_frame ..)
    | with_reducible apply Frame.then_ ?_ (State.loadDone_frame ..)
    | with_reducible apply Frame.then_ ?_ (State.setWctx_frame ..)
    | with_reducible apply Frame.then_ ?_ (State.wrAt_frame ..)
    | decide
    | dsimp only
    | split)

theorem State.nextAttempt_frame (s : State) (c : Nat) (l : Load) (i : Nat) (code : Nat) :
    Frame [.csr, .pwr, .wgt, .scr, .rrc, .obs, .fresh] s (State.nextAttempt s c l i code) := by
  unfold State.nextAttempt
  extract_lets v0 v1 v2 v3
  have h_v0 : Frame [.csr, .pwr, .wgt, .scr, .rrc, .obs, .fresh] s v0 := by
    simp only [v0]
    repeat' (first
      | with_reducible apply Frame.refl
      | with_reducible assumption
      | with_reducible apply Frame.ite
      | with_reducible apply Frame.then_ ?_ (State.dropCopies_frame ..)
      | with_reducible apply Frame.then_ ?_ (State.inc_frame ..)
      | with_reducible apply Frame.then_ ?_ (State.loadAborts_frame ..)
      | with_reducible apply Frame.then_ ?_ (State.setWctx_frame ..)
      | with_reducible apply Frame.then_ ?_ (State.wr_frame ..)
      | decide
      | dsimp only
      | split)
  clear_value v0
  clear_value v1
  clear_value v2
  have h_v3 : Frame [.csr, .pwr, .wgt, .scr, .rrc, .obs, .fresh] s v3 := by
    simp only [v3]
    repeat' (first
      | with_reducible apply Frame.refl
      | with_reducible assumption
      | with_reducible apply Frame.ite
      | with_reducible apply Frame.then_ ?_ (State.dropCopies_frame ..)
      | with_reducible apply Frame.then_ ?_ (State.inc_frame ..)
      | with_reducible apply Frame.then_ ?_ (State.loadAborts_frame ..)
      | with_reducible apply Frame.then_ ?_ (State.setWctx_frame ..)
      | with_reducible apply Frame.then_ ?_ (State.wr_frame ..)
      | decide
      | dsimp only
      | split)
  clear_value v3
  repeat' (first
    | with_reducible apply Frame.refl
    | with_reducible assumption
    | with_reducible apply Frame.ite
    | with_reducible apply Frame.then_ ?_ (State.dropCopies_frame ..)
    | with_reducible apply Frame.then_ ?_ (State.inc_frame ..)
    | with_reducible apply Frame.then_ ?_ (State.loadAborts_frame ..)
    | with_reducible apply Frame.then_ ?_ (State.setWctx_frame ..)
    | with_reducible apply Frame.then_ ?_ (State.wr_frame ..)
    | decide
    | dsimp only
    | split)

theorem execShardAttemptDone_frame (ctx : Fin 16) (shard : Nat) (s : State) :
Frames [.csr, .mem, .pwr, .haul, .sch, .gen, .wgt, .scr, .flt, .rrc, .obs, .sent, .fresh] s (execShardAttemptDone
      ctx shard s) := by
  unfold execShardAttemptDone
  try dsimp only
  repeat' (first
    | with_reducible apply Frame.refl
    | with_reducible assumption
    | with_reducible apply Frames.next
    | with_reducible apply Frames.fault
    | with_reducible apply Frames.refused
    | with_reducible apply Frame.ite
    | with_reducible apply Frames.ite
    | with_reducible apply Frame.then_ ?_ (State.checkShard_frame ..)
    | (with_reducible apply Frame.then_ ?_ (Frame.of_eq (State.checkShard_frame ..) (by assumption)))
    | with_reducible apply Frame.then_ ?_ (State.dieReads_frame ..)
    | with_reducible apply Frame.then_ ?_ (State.dropCopies_frame ..)
    | with_reducible apply Frame.then_ ?_ (State.fetchShard_frame ..)
    | (with_reducible apply Frame.then_ ?_ (Frame.of_eq (State.fetchShard_frame ..) (by assumption)))
    | with_reducible apply Frame.then_ ?_ (State.inc_frame ..)
    | with_reducible apply Frame.then_ ?_ (State.nextAttempt_frame ..)
    | with_reducible apply Frame.then_ ?_ (State.olicoLost_frame ..)
    | with_reducible apply Frame.then_ ?_ (State.shardArrived_frame ..)
    | decide
    | dsimp only
    | split)

theorem execShardAttemptTimeout_frame (ctx : Fin 16) (shard : Nat) (s : State) :
    Frames [.csr, .pwr, .wgt, .scr, .rrc, .obs, .fresh] s (execShardAttemptTimeout ctx shard s) := by
  unfold execShardAttemptTimeout
  try dsimp only
  repeat' (first
    | with_reducible apply Frame.refl
    | with_reducible assumption
    | with_reducible apply Frames.next
    | with_reducible apply Frames.fault
    | with_reducible apply Frames.refused
    | with_reducible apply Frame.ite
    | with_reducible apply Frames.ite
    | with_reducible apply Frame.then_ ?_ (State.inc_frame ..)
    | with_reducible apply Frame.then_ ?_ (State.nextAttempt_frame ..)
    | decide
    | dsimp only
    | split)

theorem State.swapRefused_frame (s : State) :
    Frame [.csr] s (State.swapRefused s) := by
  unfold State.swapRefused
  try dsimp only
  repeat' (first
    | with_reducible apply Frame.refl
    | with_reducible assumption
    | with_reducible apply Frame.ite
    | with_reducible apply Frame.then_ ?_ (State.wr_frame ..)
    | decide
    | dsimp only
    | split)

theorem execSwapArm_frame (s : State) :
Frames [.csr, .pwr, .haul, .sch, .pln, .top, .olc, .gen, .wgt, .bench, .flt, .rrc, .obs, .sent, .fresh] s
      (execSwapArm s) := by
  unfold execSwapArm
  try dsimp only
  repeat' (first
    | with_reducible apply Frame.refl
    | with_reducible assumption
    | with_reducible apply Frames.next
    | with_reducible apply Frames.fault
    | with_reducible apply Frames.refused
    | with_reducible apply Frame.ite
    | with_reducible apply Frames.ite
    | with_reducible apply State.armChange_frame
    | with_reducible apply Frame.then_ ?_ (State.setWctx_frame ..)
    | with_reducible apply Frame.then_ ?_ (State.swapRefused_frame ..)
    | with_reducible apply Frame.then_ ?_ (State.wrAt_frame ..)
    | decide
    | intro y a b c hy
    | intro y a hy
    | intro y hy
    | dsimp only
    | split)

theorem execSwapDisarm_frame (s : State) :
    Frames [.csr, .olc] s (execSwapDisarm s) := by
  unfold execSwapDisarm
  try dsimp only
  repeat' (first
    | with_reducible apply Frame.refl
    | with_reducible assumption
    | with_reducible apply Frames.next
    | with_reducible apply Frames.fault
    | with_reducible apply Frames.refused
    | with_reducible apply Frame.ite
    | with_reducible apply Frames.ite
    | with_reducible apply Frame.then_ ?_ (State.dropChange_frame ..)
    | with_reducible apply Frame.then_ ?_ (State.swapRefused_frame ..)
    | with_reducible apply Frame.then_ ?_ (State.wrAt_frame ..)
    | decide
    | dsimp only
    | split)

theorem State.swapBanks_frame (s : State) (c : Nat) (b : Binding) :
    Frame [.csr, .wgt] s (State.swapBanks s c b) := by
  unfold State.swapBanks
  extract_lets v0 v1 v2 v3 v4 v5 v6 v7 v8 v9 v10 v11
  clear_value v0
  clear_value v1
  clear_value v2
  clear_value v3
  clear_value v4
  clear_value v5
  clear_value v6
  have h_v7 : Frame [.csr, .wgt] s v7 := by
    simp only [v7]
    repeat' (first
      | with_reducible apply Frame.refl
      | with_reducible assumption
      | with_reducible apply Frame.ite
      | with_reducible apply Frame.then_ ?_ (State.setRoot_frame ..)
      | with_reducible apply Frame.then_ ?_ (State.setWctx_frame ..)
      | with_reducible apply Frame.then_ ?_ (State.wrAt_frame ..)
      | decide
      | dsimp only
      | split
      | (fail_if_no_progress simp only [Frame.mk_eq]; refine Frame.upd ?_))
  clear_value v7
  have h_v8 : Frame [.csr, .wgt] s v8 := by
    simp only [v8]
    repeat' (first
      | with_reducible apply Frame.refl
      | with_reducible assumption
      | with_reducible apply Frame.ite
      | with_reducible apply Frame.then_ ?_ (State.setRoot_frame ..)
      | with_reducible apply Frame.then_ ?_ (State.setWctx_frame ..)
      | with_reducible apply Frame.then_ ?_ (State.wrAt_frame ..)
      | decide
      | dsimp only
      | split
      | (fail_if_no_progress simp only [Frame.mk_eq]; refine Frame.upd ?_))
  clear_value v8
  have h_v9 : Frame [.csr, .wgt] s v9 := by
    simp only [v9]
    repeat' (first
      | with_reducible apply Frame.refl
      | with_reducible assumption
      | with_reducible apply Frame.ite
      | with_reducible apply Frame.then_ ?_ (State.setRoot_frame ..)
      | with_reducible apply Frame.then_ ?_ (State.setWctx_frame ..)
      | with_reducible apply Frame.then_ ?_ (State.wrAt_frame ..)
      | decide
      | dsimp only
      | split
      | (fail_if_no_progress simp only [Frame.mk_eq]; refine Frame.upd ?_))
  clear_value v9
  have h_v10 : Frame [.csr, .wgt] s v10 := by
    simp only [v10]
    repeat' (first
      | with_reducible apply Frame.refl
      | with_reducible assumption
      | with_reducible apply Frame.ite
      | with_reducible apply Frame.then_ ?_ (State.setRoot_frame ..)
      | with_reducible apply Frame.then_ ?_ (State.setWctx_frame ..)
      | with_reducible apply Frame.then_ ?_ (State.wrAt_frame ..)
      | decide
      | dsimp only
      | split
      | (fail_if_no_progress simp only [Frame.mk_eq]; refine Frame.upd ?_))
  clear_value v10
  clear_value v11
  repeat' (first
    | with_reducible apply Frame.refl
    | with_reducible assumption
    | with_reducible apply Frame.ite
    | with_reducible apply Frame.then_ ?_ (State.setRoot_frame ..)
    | with_reducible apply Frame.then_ ?_ (State.setWctx_frame ..)
    | with_reducible apply Frame.then_ ?_ (State.wrAt_frame ..)
    | decide
    | dsimp only
    | split
    | (fail_if_no_progress simp only [Frame.mk_eq]; refine Frame.upd ?_))

theorem execSwapEffect_frame (ctx : Fin 16) (s : State) :
Frames [.csr, .pwr, .haul, .sch, .pln, .top, .olc, .gen, .wgt, .bench, .flt, .rrc, .obs, .sent, .fresh] s
      (execSwapEffect ctx s) := by
  unfold execSwapEffect
  try dsimp only
  repeat' (first
    | with_reducible apply Frame.refl
    | with_reducible assumption
    | with_reducible apply Frames.next
    | with_reducible apply Frames.fault
    | with_reducible apply Frames.refused
    | with_reducible apply Frame.ite
    | with_reducible apply Frames.ite
    | with_reducible apply Frame.then_ ?_ (State.cannotApply_frame ..)
    | with_reducible apply Frame.then_ ?_ (State.changeApplied_frame ..)
    | with_reducible apply Frame.then_ ?_ (State.markSpan_frame ..)
    | with_reducible apply Frame.then_ ?_ (State.swapBanks_frame ..)
    | with_reducible apply Frame.then_ ?_ (State.wr_frame ..)
    | with_reducible apply Frame.then_ ?_ (State.wrAt_frame ..)
    | decide
    | dsimp only
    | split)

theorem State.sweepBehind_frame (s : State) (c : Nat) (x : Sweep) :
    Frame [.csr, .pwr, .rrc, .obs, .fresh] s (State.sweepBehind s c x) := by
  unfold State.sweepBehind
  try dsimp only
  repeat' (first
    | with_reducible apply Frame.refl
    | with_reducible assumption
    | with_reducible apply Frame.ite
    | with_reducible apply Frame.then_ ?_ (State.notice_frame ..)
    | with_reducible apply Frame.then_ ?_ (State.wr_frame ..)
    | with_reducible apply Frame.then_ ?_ (State.wrAt_frame ..)
    | decide
    | dsimp only
    | split)

theorem State.sweepGood_frame (s : State) (c : Nat) (k : SweepKind) (b : Binding) (x : Sweep) :
    Frame [.csr, .pwr, .wgt, .rrc, .obs, .fresh] s (State.sweepGood s c k b x) := by
  unfold State.sweepGood
  extract_lets v0 v1 v2 v3 v4
  clear_value v0
  have h_v1 : Frame [.csr, .pwr, .wgt, .rrc, .obs, .fresh] s v1 := by
    simp only [v1]
    repeat' (first
      | with_reducible apply Frame.refl
      | with_reducible assumption
      | with_reducible apply Frame.ite
      | with_reducible apply Frame.then_ ?_ (State.epochsSettled_frame ..)
      | with_reducible apply Frame.then_ ?_ (State.incAt_frame ..)
      | with_reducible apply Frame.then_ ?_ (State.setWctx_frame ..)
      | with_reducible apply Frame.then_ ?_ (State.sweepBehind_frame ..)
      | with_reducible apply Frame.then_ ?_ (State.wrAt_frame ..)
      | decide
      | dsimp only
      | split)
  clear_value v1
  have h_v2 : Frame [.csr, .pwr, .wgt, .rrc, .obs, .fresh] s v2 := by
    simp only [v2]
    repeat' (first
      | with_reducible apply Frame.refl
      | with_reducible assumption
      | with_reducible apply Frame.ite
      | with_reducible apply Frame.then_ ?_ (State.epochsSettled_frame ..)
      | with_reducible apply Frame.then_ ?_ (State.incAt_frame ..)
      | with_reducible apply Frame.then_ ?_ (State.setWctx_frame ..)
      | with_reducible apply Frame.then_ ?_ (State.sweepBehind_frame ..)
      | with_reducible apply Frame.then_ ?_ (State.wrAt_frame ..)
      | decide
      | dsimp only
      | split)
  clear_value v2
  clear_value v3
  clear_value v4
  repeat' (first
    | with_reducible apply Frame.refl
    | with_reducible assumption
    | with_reducible apply Frame.ite
    | with_reducible apply Frame.then_ ?_ (State.epochsSettled_frame ..)
    | with_reducible apply Frame.then_ ?_ (State.incAt_frame ..)
    | with_reducible apply Frame.then_ ?_ (State.setWctx_frame ..)
    | with_reducible apply Frame.then_ ?_ (State.sweepBehind_frame ..)
    | with_reducible apply Frame.then_ ?_ (State.wrAt_frame ..)
    | decide
    | dsimp only
    | split)

theorem State.sweepBad_frame (s : State) (c : Nat) (shard : Nat) (k : SweepKind) (b : Binding) :
    Frame [.csr, .haul, .sch, .gen, .wgt, .scr, .itk, .fst, .sent] s (State.sweepBad s c shard k b) := by
  unfold State.sweepBad
  try dsimp only
  repeat' (first
    | with_reducible apply Frame.refl
    | with_reducible assumption
    | with_reducible apply Frame.ite
    | with_reducible apply Frame.then_ ?_ (State.activeMismatch_frame ..)
    | with_reducible apply Frame.then_ ?_ (State.closingMismatch_frame ..)
    | with_reducible apply Frame.then_ ?_ (State.emptyLanding_frame ..)
    | with_reducible apply Frame.then_ ?_ (State.setWctx_frame ..)
    | decide
    | dsimp only
    | split)

theorem State.sweepRead_frame (s : State) (b : Binding) (k : Nat) (i : Nat) (inactive : Bool) :
Frame [.csr, .pwr, .haul, .sch, .gen, .wgt, .scr, .fst, .flt, .rrc, .obs, .sent, .fresh] s (State.sweepRead s b k i
      inactive).1 := by
  unfold State.sweepRead
  try dsimp only
  repeat' (first
    | with_reducible apply Frame.refl
    | with_reducible assumption
    | with_reducible apply Frame.ite
    | with_reducible apply Frame.then_ ?_ (State.correctedIn_frame ..)
    | with_reducible apply Frame.then_ ?_ (State.uncorrSweep_frame ..)
    | decide
    | with_reducible apply Frame.foldl_fst
    | with_reducible apply Frame.foldl
    | intro y a b c hy
    | intro y a hy
    | intro y hy
    | dsimp only
    | split)

theorem execSweepShardChecked_frame (ctx : Fin 16) (sweep : SweepKind) (s : State) :
Frames [.csr, .pwr, .haul, .sch, .gen, .wgt, .scr, .itk, .fst, .flt, .rrc, .obs, .sent, .fresh] s
      (execSweepShardChecked ctx sweep s) := by
  unfold execSweepShardChecked
  try dsimp only
  repeat' (first
    | with_reducible apply Frame.refl
    | with_reducible assumption
    | with_reducible apply Frames.next
    | with_reducible apply Frames.fault
    | with_reducible apply Frames.refused
    | with_reducible apply Frame.ite
    | with_reducible apply Frames.ite
    | with_reducible apply Frame.then_ ?_ (State.checkShard_frame ..)
    | (with_reducible apply Frame.then_ ?_ (Frame.of_eq (State.checkShard_frame ..) (by assumption)))
    | with_reducible apply Frame.then_ ?_ (State.setWctx_frame ..)
    | with_reducible apply Frame.then_ ?_ (State.sweepBad_frame ..)
    | with_reducible apply Frame.then_ ?_ (State.sweepGood_frame ..)
    | with_reducible apply Frame.then_ ?_ (State.sweepRead_frame ..)
    | (with_reducible apply Frame.then_ ?_ (Frame.of_eq (State.sweepRead_frame ..) (by assumption)))
    | decide
    | dsimp only
    | split)

theorem execSweepOverrun_frame (ctx : Fin 16) (sweep : SweepKind) (s : State) :
    Frames [.csr, .pwr, .wgt, .rrc, .obs, .fresh] s (execSweepOverrun ctx sweep s) := by
  unfold execSweepOverrun
  try dsimp only
  repeat' (first
    | with_reducible apply Frame.refl
    | with_reducible assumption
    | with_reducible apply Frames.next
    | with_reducible apply Frames.fault
    | with_reducible apply Frames.refused
    | with_reducible apply Frame.ite
    | with_reducible apply Frames.ite
    | with_reducible apply Frame.then_ ?_ (State.setWctx_frame ..)
    | with_reducible apply Frame.then_ ?_ (State.sweepBehind_frame ..)
    | decide
    | dsimp only
    | split)

theorem execQuarantineNoticeReceived_frame (payload : List Byte) (s : State) :
    Frames [.csr, .haul, .sch, .gen, .wgt, .itk, .fst, .sent] s (execQuarantineNoticeReceived payload s) := by
  unfold execQuarantineNoticeReceived
  try dsimp only
  repeat' (first
    | with_reducible apply Frame.refl
    | with_reducible assumption
    | with_reducible apply Frames.next
    | with_reducible apply Frames.fault
    | with_reducible apply Frames.refused
    | with_reducible apply Frame.ite
    | with_reducible apply Frames.ite
    | with_reducible apply Frame.then_ ?_ (State.handItems_frame ..)
    | with_reducible apply Frame.then_ ?_ (State.quarantineCtx_frame ..)
    | decide
    | dsimp only
    | split)

theorem State.repairAgain_frame (s : State) (c : Nat) (shard : Nat) (a : Nat) :
    Frame [.csr, .haul, .sch, .gen, .wgt, .scr, .itk, .sent] s (State.repairAgain s c shard a) := by
  unfold State.repairAgain
  try dsimp only
  repeat' (first
    | with_reducible apply Frame.refl
    | with_reducible assumption
    | with_reducible apply Frame.ite
    | with_reducible apply Frame.then_ ?_ (State.dropCopies_frame ..)
    | with_reducible apply Frame.then_ ?_ (State.inc_frame ..)
    | with_reducible apply Frame.then_ ?_ (State.repairFailed_frame ..)
    | with_reducible apply Frame.then_ ?_ (State.setWctx_frame ..)
    | with_reducible apply Frame.then_ ?_ (State.wr_frame ..)
    | decide
    | dsimp only
    | split)

theorem execShardRepairDone_frame (ctx : Fin 16) (shard : Nat) (arrived : Bool) (s : State) :
Frames [.csr, .mem, .pwr, .haul, .sch, .gen, .wgt, .scr, .itk, .flt, .rrc, .obs, .sent, .fresh] s
      (execShardRepairDone ctx shard arrived s) := by
  unfold execShardRepairDone
  try dsimp only
  repeat' (first
    | with_reducible apply Frame.refl
    | with_reducible assumption
    | with_reducible apply Frames.next
    | with_reducible apply Frames.fault
    | with_reducible apply Frames.refused
    | with_reducible apply Frame.ite
    | with_reducible apply Frames.ite
    | with_reducible apply Frame.then_ ?_ (State.checkShard_frame ..)
    | (with_reducible apply Frame.then_ ?_ (Frame.of_eq (State.checkShard_frame ..) (by assumption)))
    | with_reducible apply Frame.then_ ?_ (State.dropCopies_frame ..)
    | with_reducible apply Frame.then_ ?_ (State.fetchShard_frame ..)
    | (with_reducible apply Frame.then_ ?_ (Frame.of_eq (State.fetchShard_frame ..) (by assumption)))
    | with_reducible apply Frame.then_ ?_ (State.inc_frame ..)
    | with_reducible apply Frame.then_ ?_ (State.olicoLost_frame ..)
    | with_reducible apply Frame.then_ ?_ (State.repairAgain_frame ..)
    | with_reducible apply Frame.then_ ?_ (State.setWctx_frame ..)
    | with_reducible apply Frame.then_ ?_ (State.wr_frame ..)
    | decide
    | dsimp only
    | split)

end Sys2Proof.Machine
end

