-- ==== Sys2Proof/Laws/FrameRegisters.lean ====
section
/-! SUPPORT. One frame lemma for every operation of Machine/Registers.lean: the parts of the state that it may change. -/

set_option Elab.async false
set_option linter.unusedTactic false
set_option linter.unreachableTactic false

namespace Sys2Proof.Machine

open Sys2Proof

/-- Every action of a list keeps to the whole-state frame. -/
def ActionsFit (l : List (Field × (State → Res))) : Prop := ∀ y ∈ l, ∀ s, Frames [.csr, .staged, .mem, .pwr, .clk, .tal, .ptp, .haul, .sch, .pln, .top, .olc, .gen, .wgt, .bench, .frk, .scr, .itk, .clocks, .twn, .fst, .flt, .rrc, .obs, .nv, .sent, .fresh] s (y.2 s)

theorem State.readCsr_frame (s : State) (off : Nat) :
    Frame [.csr] s (State.readCsr s off).1 := by
  unfold State.readCsr
  try dsimp only
  repeat' (first
    | with_reducible apply Frame.refl
    | with_reducible assumption
    | with_reducible apply Frame.ite
    | with_reducible apply Frame.then_ ?_ (State.badCsr_frame ..)
    | decide
    | dsimp only
    | split)

theorem State.takeEffect_frame (s : State) (f : Field) (i : Nat) (v : Nat) :
    Frame [.csr, .staged] s (State.takeEffect s f i v) := by
  unfold State.takeEffect
  try dsimp only
  repeat' (first
    | with_reducible apply Frame.refl
    | with_reducible assumption
    | with_reducible apply Frame.ite
    | with_reducible apply Frame.then_ ?_ (State.wrAt_frame ..)
    | decide
    | dsimp only
    | split
    | (fail_if_no_progress simp only [Frame.mk_eq]; refine Frame.upd ?_))

theorem State.writeField_frame (s : State) (run : Bool) (f : Field) (i : Nat) (x : Nat) :
    Frame [.csr, .staged] s (State.writeField s run f i x).1 := by
  unfold State.writeField
  try dsimp only
  repeat' (first
    | with_reducible apply Frame.refl
    | with_reducible assumption
    | with_reducible apply Frame.ite
    | with_reducible apply Frame.then_ ?_ (State.clearBits_frame ..)
    | with_reducible apply Frame.then_ ?_ (State.takeEffect_frame ..)
    | decide
    | dsimp only
    | split
    | (fail_if_no_progress simp only [Frame.mk_eq]; refine Frame.upd ?_))

theorem State.writeFields_frame (s : State) (run : Bool) (base : Nat) (a : List (Field × Nat)) :
    Frame [.csr, .staged] s (State.writeFields s run base a).1 := by
  induction a generalizing s run base with
  | nil =>
    first
      | exact Frame.refl _ _
      | (rw [State.writeFields]
         repeat' (first
           | with_reducible apply Frame.refl
           | with_reducible assumption
           | with_reducible apply Frame.ite
           | with_reducible apply Frame.then_ ?_ (State.writeField_frame ..)
           | (with_reducible apply Frame.then_ ?_ (Frame.of_eq (State.writeField_frame ..) (by assumption)))
           | decide
           | dsimp only
           | split))
  | cons b l ih =>
    rw [State.writeFields]
    try dsimp only
    repeat' (first
      | with_reducible apply Frame.refl
      | with_reducible assumption
      | with_reducible apply Frame.ite
      | with_reducible apply Frame.then_ ?_ (ih ..)
      | (with_reducible apply Frame.then_ ?_ (Frame.of_eq (ih ..) (by assumption)))
      | with_reducible apply Frame.then_ ?_ (State.writeField_frame ..)
      | (with_reducible apply Frame.then_ ?_ (Frame.of_eq (State.writeField_frame ..) (by assumption)))
      | decide
      | dsimp only
      | split)

theorem State.capped_frame (s : State) :
    Frame [.csr] s (State.capped s) := by
  unfold State.capped
  try dsimp only
  repeat' (first
    | with_reducible apply Frame.refl
    | with_reducible assumption
    | with_reducible apply Frame.ite
    | with_reducible apply Frame.then_ ?_ (State.wr_frame ..)
    | decide
    | dsimp only
    | split)

theorem settle_frame {P : List Part} {s0 : State} (s : State) (r : Res) (h0 : Frame P s0 s) (hr : Frames P s0 r) :
    Frame P s0 (settle s r) := by
  unfold settle
  split
  · exact hr.whenNext _ rfl
  · exact h0

theorem ActionsFit.nil : ActionsFit [] := fun _ h => absurd h List.not_mem_nil

theorem ActionsFit.cons {f : Field} {g : State → Res} {l : List (Field × (State → Res))}
    (h : ∀ s, Frames [.csr, .staged, .mem, .pwr, .clk, .tal, .ptp, .haul, .sch, .pln, .top, .olc, .gen, .wgt, .bench, .frk, .scr, .itk, .clocks, .twn, .fst, .flt, .rrc, .obs, .nv, .sent, .fresh] s (g s)) (hl : ActionsFit l) : ActionsFit ((f, g) :: l) := by
  intro y hy
  rcases List.mem_cons.1 hy with rfl | hy
  · exact h
  · exact hl y hy

theorem ActionsFit.append {l m : List (Field × (State → Res))} (h : ActionsFit l) (hm : ActionsFit m) :
    ActionsFit (l ++ m) := fun y hy => (List.mem_append.1 hy).elim (h y) (hm y)

theorem actionOf_frames {f : Field} {i : Nat} {inp : ActionInput} {g : State → Res} (h : actionOf f i inp = some g)
    (s : State) :
    Frames [.csr, .staged, .mem, .pwr, .clk, .tal, .ptp, .haul, .sch, .pln, .top, .olc, .gen, .wgt, .bench, .frk, .scr, .itk, .clocks, .twn, .fst, .flt, .rrc, .obs, .nv, .sent, .fresh] s (g s) := by
  have key : ∀ l : List (Field × (State → Res)), ActionsFit l →
      (match l.find? fun x => x.1 == f with | some x => some x.2 | none => none) = some g → Frames [.csr, .staged, .mem, .pwr, .clk, .tal, .ptp, .haul, .sch, .pln, .top, .olc, .gen, .wgt, .bench, .frk, .scr, .itk, .clocks, .twn, .fst, .flt, .rrc, .obs, .nv, .sent, .fresh] s (g s) := by
    intro l hl h
    split at h
    · rename_i x hx
      cases h
      exact hl x (List.mem_of_find?_eq_some hx) s
    · cases h
  refine key _ (ActionsFit.append ?_ ?_) h
  · repeat' (with_reducible apply ActionsFit.cons)
    · exact fun s => (execClearExtremes_frame ..).mono (by decide)
    · exact fun s => (execPwrShutdown_frame ..).mono (by decide)
    · exact fun s => (execPwrHoldupTest_frame ..).mono (by decide)
    · exact fun s => (execFchgArm_frame ..).mono (by decide)
    · exact fun s => (execFchgDisarm_frame ..).mono (by decide)
    · exact fun s => (execAlignNow_frame ..).mono (by decide)
    · exact fun s => (execTalCapture_frame ..).mono (by decide)
    · exact fun s => (execGenModeDisarm_frame ..).mono (by decide)
    · exact fun s => (execGenModeArm_frame ..).mono (by decide)
    · exact fun s => (execSealCloseNow_frame ..).mono (by decide)
    · exact fun s => (execPlnCtxRestart_frame ..).mono (by decide)
    · exact fun s => (execPlnAbort_frame ..).mono (by decide)
    · exact fun s => (execPlnStopArm_frame ..).mono (by decide)
    · exact fun s => (execPlnDisarm_frame ..).mono (by decide)
    · exact fun s => (execPlnArm_frame ..).mono (by decide)
    · exact fun s => (execPlnDiscard_frame ..).mono (by decide)
    · exact fun s => (execPlnVerify_frame ..).mono (by decide)
    · exact fun s => (execX3Start_frame ..).mono (by decide)
    · exact fun s => (execWgtLoadAbort_frame ..).mono (by decide)
    · exact fun s => (execWgtLoadStart_frame ..).mono (by decide)
    · exact fun s => (execSwapDisarm_frame ..).mono (by decide)
    · exact fun s => (execSwapArm_frame ..).mono (by decide)
    · exact fun s => (execItkRingReset_frame ..).mono (by decide)
    · exact fun s => (execForceRot_frame ..).mono (by decide)
    · exact fun s => (execHaulRetrain_frame ..).mono (by decide)
    · exact fun s => (execHaulPortReset_frame ..).mono (by decide)
    · exact .nil
  · repeat' (with_reducible apply ActionsFit.cons)
    · exact fun s => (execClearFwd_frame ..).mono (by decide)
    · exact fun s => (execRestoreArm_frame ..).mono (by decide)
    · exact fun s => (execTelemNow_frame ..).mono (by decide)
    · exact fun s => (execFwdUnloadArm_frame ..).mono (by decide)
    · exact fun s => (execFwdDisarm_frame ..).mono (by decide)
    · exact fun s => (execFwdArm_frame ..).mono (by decide)
    · exact fun s => (execFwdLoad_frame ..).mono (by decide)
    · exact fun s => (execTwnTakeover_frame ..).mono (by decide)
    · exact fun s => (execTwnSolo_frame ..).mono (by decide)
    · exact fun s => (execOlcDisarm_frame ..).mono (by decide)
    · exact fun s => (execOlcArm_frame ..).mono (by decide)
    · exact fun s => (execFltRelease_frame ..).mono (by decide)
    · exact fun s => (execFltAck_frame ..).mono (by decide)
    · exact fun s => (execRrcRelease_frame ..).mono (by decide)
    · exact fun s => (execRrcSpillNow_frame ..).mono (by decide)
    · exact fun s => (execCommitSvn_frame ..).mono (by decide)
    · exact fun s => (execStopNow_frame ..).mono (by decide)
    · exact fun s => (execTraceArm_frame ..).mono (by decide)
    · exact fun s => (execSnapNow_frame ..).mono (by decide)
    · exact fun s => (execSnapArm_frame ..).mono (by decide)
    · exact .nil

theorem State.actions_frame (s : State) (base : Nat) (inp : ActionInput) (a : List (Field × Nat)) :
    Frame [.csr, .staged, .mem, .pwr, .clk, .tal, .ptp, .haul, .sch, .pln, .top, .olc, .gen, .wgt, .bench, .frk, .scr, .itk, .clocks, .twn, .fst, .flt, .rrc, .obs, .nv, .sent, .fresh] s (State.actions s base inp a) :=
      by
  induction a generalizing s base inp with
  | nil => exact Frame.refl _ _
  | cons b l ih =>
    rw [State.actions]
    try dsimp only
    repeat' (first
    | with_reducible apply Frame.refl
    | with_reducible assumption
    | with_reducible apply Frames.next
    | with_reducible apply Frames.fault
    | with_reducible apply Frames.refused
    | with_reducible apply Frame.ite
    | with_reducible apply Frames.ite
    | ((with_reducible apply Frames.then_ ?_ (actionOf_frames ‹_› _) ?zsub); case zsub => decide)
    | with_reducible apply Frame.then_ ?_ (ih ..)
    | with_reducible apply settle_frame
    | with_reducible apply Frames.then_ ?_ (execClearExtremes_frame ..)
    | with_reducible apply Frames.then_ ?_ (execPwrShutdown_frame ..)
    | with_reducible apply Frames.then_ ?_ (execPwrHoldupTest_frame ..)
    | with_reducible apply Frames.then_ ?_ (execFchgArm_frame ..)
    | with_reducible apply Frames.then_ ?_ (execFchgDisarm_frame ..)
    | with_reducible apply Frames.then_ ?_ (execAlignNow_frame ..)
    | with_reducible apply Frames.then_ ?_ (execTalCapture_frame ..)
    | with_reducible apply Frames.then_ ?_ (execGenModeDisarm_frame ..)
    | with_reducible apply Frames.then_ ?_ (execGenModeArm_frame ..)
    | with_reducible apply Frames.then_ ?_ (execSealCloseNow_frame ..)
    | with_reducible apply Frames.then_ ?_ (execPlnCtxRestart_frame ..)
    | with_reducible apply Frames.then_ ?_ (execPlnAbort_frame ..)
    | with_reducible apply Frames.then_ ?_ (execPlnStopArm_frame ..)
    | with_reducible apply Frames.then_ ?_ (execPlnDisarm_frame ..)
    | with_reducible apply Frames.then_ ?_ (execPlnArm_frame ..)
    | with_reducible apply Frames.then_ ?_ (execPlnDiscard_frame ..)
    | with_reducible apply Frames.then_ ?_ (execPlnVerify_frame ..)
    | with_reducible apply Frames.then_ ?_ (execX3Start_frame ..)
    | with_reducible apply Frames.then_ ?_ (execWgtLoadAbort_frame ..)
    | with_reducible apply Frames.then_ ?_ (execWgtLoadStart_frame ..)
    | with_reducible apply Frames.then_ ?_ (execSwapDisarm_frame ..)
    | with_reducible apply Frames.then_ ?_ (execSwapArm_frame ..)
    | with_reducible apply Frames.then_ ?_ (execItkRingReset_frame ..)
    | with_reducible apply Frames.then_ ?_ (execForceRot_frame ..)
    | with_reducible apply Frames.then_ ?_ (execHaulRetrain_frame ..)
    | with_reducible apply Frames.then_ ?_ (execHaulPortReset_frame ..)
    | with_reducible apply Frames.then_ ?_ (execClearFwd_frame ..)
    | with_reducible apply Frames.then_ ?_ (execRestoreArm_frame ..)
    | with_reducible apply Frames.then_ ?_ (execTelemNow_frame ..)
    | with_reducible apply Frames.then_ ?_ (execFwdUnloadArm_frame ..)
    | with_reducible apply Frames.then_ ?_ (execFwdDisarm_frame ..)
    | with_reducible apply Frames.then_ ?_ (execFwdArm_frame ..)
    | with_reducible apply Frames.then_ ?_ (execFwdLoad_frame ..)
    | with_reducible apply Frames.then_ ?_ (execTwnTakeover_frame ..)
    | with_reducible apply Frames.then_ ?_ (execTwnSolo_frame ..)
    | with_reducible apply Frames.then_ ?_ (execOlcDisarm_frame ..)
    | with_reducible apply Frames.then_ ?_ (execOlcArm_frame ..)
    | with_reducible apply Frames.then_ ?_ (execFltRelease_frame ..)
    | with_reducible apply Frames.then_ ?_ (execFltAck_frame ..)
    | with_reducible apply Frames.then_ ?_ (execRrcRelease_frame ..)
    | with_reducible apply Frames.then_ ?_ (execRrcSpillNow_frame ..)
    | with_reducible apply Frames.then_ ?_ (execCommitSvn_frame ..)
    | with_reducible apply Frames.then_ ?_ (execStopNow_frame ..)
    | with_reducible apply Frames.then_ ?_ (execTraceArm_frame ..)
    | with_reducible apply Frames.then_ ?_ (execSnapNow_frame ..)
    | with_reducible apply Frames.then_ ?_ (execSnapArm_frame ..)
    | decide
    | dsimp only
    | split)

theorem State.followWrite_frame (s : State) (old : State) (off : Nat) :
    Frame [.csr, .pwr, .haul, .sch, .fst, .obs, .sent, .fresh] s (State.followWrite s old off) := by
  unfold State.followWrite
  try dsimp only
  repeat' (first
    | with_reducible apply Frame.refl
    | with_reducible assumption
    | with_reducible apply Frame.ite
    | with_reducible apply Frame.then_ ?_ (State.refreshInhibit_frame ..)
    | with_reducible apply Frame.then_ ?_ (State.refreshTaper_frame ..)
    | with_reducible apply Frame.then_ ?_ (State.setRole_frame ..)
    | with_reducible apply Frame.then_ ?_ (State.showExt_frame ..)
    | with_reducible apply Frame.then_ ?_ (State.showMismatch_frame ..)
    | with_reducible apply Frame.then_ ?_ (State.showPtpLocked_frame ..)
    | with_reducible apply Frame.then_ ?_ (State.wrAt_frame ..)
    | with_reducible apply Frames.then_ ?_ (execHaulPortEnable_frame ..)
    | with_reducible apply settle_frame
    | decide
    | intro y a b c hy
    | intro y a hy
    | intro y hy
    | dsimp only
    | split)

theorem ownWrite_frames {off v : Nat} {g : State → Res} (h : ownWrite off v = some g) (s : State) :
    Frames [.csr, .staged, .mem, .pwr, .clk, .tal, .ptp, .haul, .sch, .pln, .top, .olc, .gen, .wgt, .bench, .frk, .scr, .itk, .clocks, .twn, .fst, .flt, .rrc, .obs, .nv, .sent, .fresh] s (g s) := by
  unfold ownWrite at h
  dsimp only at h
  repeat' split at h
  · cases h; exact (execChangeNextWrite_frame ..).mono (by decide)
  · cases h; exact (execLeaseEnable_frame ..).mono (by decide)
  · cases h; exact (execLeaseWrite_frame ..).mono (by decide)
  · cases h; exact (execLeaseWrite_frame ..).mono (by decide)
  · cases h

theorem State.writeCsr_frame (s : State) (off : Nat) (value : Nat) (inp : ActionInput) :
    Frame [.csr, .staged, .mem, .pwr, .clk, .tal, .ptp, .haul, .sch, .pln, .top, .olc, .gen, .wgt, .bench, .frk, .scr, .itk, .clocks, .twn, .fst, .flt, .rrc, .obs, .nv, .sent, .fresh] s (State.writeCsr s off value inp)
      := by
  unfold State.writeCsr
  try dsimp only
  repeat' (first
    | with_reducible apply Frame.refl
    | with_reducible assumption
    | with_reducible apply Frames.next
    | with_reducible apply Frames.fault
    | with_reducible apply Frames.refused
    | with_reducible apply Frame.ite
    | with_reducible apply Frames.ite
    | ((with_reducible apply Frames.then_ ?_ (ownWrite_frames ‹_› _) ?zsub); case zsub => decide)
    | with_reducible apply Frame.then_ ?_ (State.badCsr_frame ..)
    | with_reducible apply Frame.then_ ?_ (State.ignoreWrite_frame ..)
    | with_reducible apply Frame.then_ ?_ (State.followWrite_frame ..)
    | with_reducible apply Frame.then_ ?_ (State.capped_frame ..)
    | with_reducible apply settle_frame
    | with_reducible apply Frame.then_ ?_ (State.actions_frame ..)
    | with_reducible apply Frame.then_ ?_ (State.writeFields_frame ..)
    | (with_reducible apply Frame.then_ ?_ (Frame.of_eq (State.writeFields_frame ..) (by assumption)))
    | with_reducible apply Frames.then_ ?_ (execChangeNextWrite_frame ..)
    | with_reducible apply Frames.then_ ?_ (execLeaseEnable_frame ..)
    | with_reducible apply Frames.then_ ?_ (execLeaseWrite_frame ..)
    | decide
    | dsimp only
    | split)

end Sys2Proof.Machine
end

