-- ==== Sys2Proof/Laws/FrameSecurity.lean ====
section
/-! SUPPORT. One frame lemma for every operation of Machine/Security.lean: the parts of the state that it may change. -/

set_option Elab.async false
set_option linter.unusedTactic false
set_option linter.unreachableTactic false

namespace Sys2Proof.Machine

open Sys2Proof

theorem State.securityRefusal_frame (s : State) (slot : Nat) (op : Nat) :
    Frame [.csr, .pwr, .rrc, .obs, .fresh] s (State.securityRefusal s slot op) := by
  unfold State.securityRefusal
  try dsimp only
  repeat' (first
    | with_reducible apply Frame.refl
    | with_reducible assumption
    | with_reducible apply Frame.ite
    | with_reducible apply Frame.then_ ?_ (State.critical_frame ..)
    | decide
    | dsimp only
    | split)

theorem State.setSlot_frame (s : State) (k : Nat) (x : KeySlot) (h : min (s.slot k).fuses 15 ≤ x.fuses) :
    Frame [.nv] s (s.setSlot k x) := by
  unfold State.setSlot
  simp only [Frame.mk_eq]
  exact Frame.upd (.refl _ s) (hn := Nv.risesTo_keys _ _ _ h)

theorem State.endSessions_frame (s : State) (a : Nat) :
    Frame [.fst] s (State.endSessions s a) := by
  unfold State.endSessions
  try dsimp only
  repeat' (first
    | with_reducible apply Frame.refl
    | with_reducible assumption
    | with_reducible apply Frame.ite
    | decide
    | dsimp only
    | split
    | (fail_if_no_progress simp only [Frame.mk_eq]; refine Frame.upd ?_))

theorem State.ownerActs_frame (s : State) (op : OwnerOp) (c : OwnerCmd) (h : s.nv.ownerSeq ≤ c.seq) :
    Frame [.csr, .pwr, .fst, .nv] s (s.ownerActs op c) := by
  unfold State.ownerActs
  have h0 : Frame [.csr, .pwr, .fst, .nv] s { s with nv := { s.nv with ownerSeq := c.seq } } := by
    simp only [Frame.mk_eq]
    exact Frame.upd (.refl _ s) (hn := ⟨id, le_refl _, h, fun _ => min_le_left _ _⟩)
  dsimp only
  refine Frame.then_ ?_ (State.showSecurity_frame ..) (by decide)
  cases op
  · exact h0.then_ (State.setSlot_frame _ _ _ (min_le_left _ _)) (by decide)
  · refine Frame.then_ (h0.then_ (State.setSlot_frame _ c.target _ ?_) (by decide)) (State.queueUnits_frame ..) (by decide)
    show min (s.slot c.target).fuses 15 ≤ min ((s.slot c.target).fuses + 1) 15
    omega
  · simp only [Frame.mk_eq]
    exact Frame.upd h0 (hn := ⟨id, le_refl _, le_refl _, fun _ => min_le_left _ _⟩)
  · refine Frame.then_ ?_ (State.endSessions_frame ..) (by decide)
    simp only [Frame.mk_eq]
    exact Frame.upd h0 (hn := ⟨id, le_refl _, le_refl _, fun _ => min_le_left _ _⟩)

theorem State.ownerCommand_frame (s : State) (op : OwnerOp) (c : OwnerCmd) :
    Frame [.csr, .pwr, .fst, .rrc, .obs, .nv, .fresh] s (State.ownerCommand s op c).1 := by
  unfold State.ownerCommand
  split
  · dsimp only
    repeat' (first
    | with_reducible apply Frame.refl
    | ((with_reducible apply Frame.then_ ?_ (State.securityRefusal_frame ..) ?zsub); case zsub => decide)
    | ((with_reducible apply Frame.then_ ?_ (State.inc_frame ..) ?zsub); case zsub => decide))
  · rename_i ho
    split
    · dsimp only
      repeat' (first
      | with_reducible apply Frame.refl
      | ((with_reducible apply Frame.then_ ?_ (State.writeRefused_frame ..) ?zsub); case zsub => decide))
    · have h : s.ownerOk op c = true := by simpa using ho
      have h2 : s.nv.ownerSeq < c.seq := by
        unfold State.ownerOk at h
        dsimp only at h
        rw [Bool.and_eq_true, Bool.and_eq_true] at h
        have := h.1.1
        simp only [Bool.and_eq_true, decide_eq_true_eq] at this
        omega
      dsimp only
      with_reducible apply Frame.then_ (Frame.refl _ s) (State.ownerActs_frame s op c h2.le) ?_
      decide

theorem State.ownerClaimed_frame (s : State) (c : OwnerClaim) :
    Frame [.csr, .pwr, .rrc, .obs, .nv, .fresh] s (State.ownerClaimed s c).1 := by
  unfold State.ownerClaimed
  dsimp only
  repeat' (first
    | with_reducible apply Frame.refl
    | ((with_reducible apply Frame.then_ ?_ (State.securityRefusal_frame ..) ?zsub); case zsub => decide)
    | ((with_reducible apply Frame.then_ ?_ (State.writeRefused_frame ..) ?zsub); case zsub => decide)
    | ((with_reducible apply Frame.then_ ?_ (State.showSecurity_frame ..) ?zsub); case zsub => decide)
    | dsimp only
    | split)
  have h0 : Frame [.nv] s (s.setSlot 0 ⟨some c.key0, (s.slot 0).fuses, true, (s.slot 0).fuses⟩) :=
    State.setSlot_frame s 0 _ (min_le_left _ _)
  refine Frame.then_ (Frame.refl _ s) (Q := [.nv]) ?_ (by decide)
  generalize s.setSlot 0 ⟨some c.key0, (s.slot 0).fuses, true, (s.slot 0).fuses⟩ = x at h0 ⊢
  simp only [Frame.mk_eq]
  exact Frame.upd h0 (hn := ⟨fun _ => rfl, le_refl _, le_refl _, fun _ => min_le_left _ _⟩)

theorem State.fwPut_frame (s : State) (image : Nat) (offset : Nat) (bytes : List Byte) :
    Frame [.csr, .pwr] s (State.fwPut s image offset bytes).1 := by
  unfold State.fwPut
  try dsimp only
  repeat' (first
    | with_reducible apply Frame.refl
    | with_reducible assumption
    | with_reducible apply Frame.ite
    | with_reducible apply Frame.then_ ?_ (State.queueUnits_frame ..)
    | with_reducible apply Frame.then_ ?_ (State.writeRefused_frame ..)
    | decide
    | dsimp only
    | split)

theorem State.fwActivate_frame (s : State) (image : Nat) (length : Nat) (check : ImageCheck) :
    Frame [.csr, .pwr, .rrc, .obs, .nv, .fresh] s (State.fwActivate s image length check).1 := by
  unfold State.fwActivate
  try dsimp only
  repeat' (first
    | with_reducible apply Frame.refl
    | with_reducible assumption
    | with_reducible apply Frame.ite
    | with_reducible apply Frame.then_ ?_ (State.inc_frame ..)
    | with_reducible apply Frame.then_ ?_ (State.securityRefusal_frame ..)
    | with_reducible apply Frame.then_ ?_ (State.showSecurity_frame ..)
    | with_reducible apply Frame.then_ ?_ (State.writeRefused_frame ..)
    | decide
    | dsimp only
    | split
    | (fail_if_no_progress simp only [Frame.mk_eq]; refine Frame.upd ?_))

end Sys2Proof.Machine
end

