-- ==== Sys2Proof/Laws/FrameFcp.lean ====
section
/-! SUPPORT. One frame lemma for every operation of Machine/Fcp.lean: the parts of the state that it may change. -/

set_option Elab.async false
set_option linter.unusedTactic false
set_option linter.unreachableTactic false

namespace Sys2Proof.Machine

open Sys2Proof

theorem execCsrAccessError_frame (offset : Nat) (width : Nat) (s : State) :
    Frames [.csr, .sent] s (execCsrAccessError offset width s) := by
  unfold execCsrAccessError
  try dsimp only
  repeat' (first
    | with_reducible apply Frame.refl
    | with_reducible assumption
    | with_reducible apply Frames.next
    | with_reducible apply Frames.fault
    | with_reducible apply Frames.refused
    | with_reducible apply Frame.ite
    | with_reducible apply Frames.ite
    | with_reducible apply Frame.then_ ?_ (State.badCsr_frame ..)
    | with_reducible apply Frame.then_ ?_ (State.emit_frame ..)
    | decide
    | dsimp only
    | split)

theorem execRegisterWrite_frame (offset : Nat) (value : Word) (inp : ActionInput) (s : State) :
Frames [.csr, .staged, .mem, .pwr, .clk, .tal, .ptp, .haul, .sch, .pln, .top, .olc, .gen, .wgt, .bench, .frk, .scr,
      .itk, .clocks, .twn, .fst, .flt, .rrc, .obs, .nv, .sent, .fresh] s (execRegisterWrite offset value inp s) := by
  unfold execRegisterWrite
  try dsimp only
  repeat' (first
    | with_reducible apply Frame.refl
    | with_reducible assumption
    | with_reducible apply Frames.next
    | with_reducible apply Frames.fault
    | with_reducible apply Frames.refused
    | with_reducible apply Frame.ite
    | with_reducible apply Frames.ite
    | with_reducible apply Frame.then_ ?_ (State.badCsr_frame ..)
    | with_reducible apply Frame.then_ ?_ (State.emit_frame ..)
    | with_reducible apply Frame.then_ ?_ (State.writeCsr_frame ..)
    | decide
    | dsimp only
    | split)

theorem State.answer_frame (s : State) (who : Nat) (op : Nat) (reqId : Nat) (status : Nat) :
    Frame [.csr, .haul, .sch, .sent] s (State.answer s who op reqId status) := by
  unfold State.answer
  try dsimp only
  repeat' (first
    | with_reducible apply Frame.refl
    | with_reducible assumption
    | with_reducible apply Frame.ite
    | with_reducible apply Frame.then_ ?_ (State.answerAll_frame ..)
    | decide
    | dsimp only
    | split)

theorem State.relay_frame (s : State) (who : Nat) (op : Nat) (reqId : Nat) (m : Nat) (l : List (List Nat × List
      Byte)) :
    Frame [.csr, .haul, .sch, .fst, .sent] s (State.relay s who op reqId m l) := by
  unfold State.relay
  try dsimp only
  repeat' (first
    | with_reducible apply Frame.refl
    | with_reducible assumption
    | with_reducible apply Frame.ite
    | with_reducible apply Frame.then_ ?_ (State.answer_frame ..)
    | with_reducible apply Frame.then_ ?_ (State.sendFcp_frame ..)
    | decide
    | with_reducible apply Frame.foldl_fst
    | with_reducible apply Frame.foldl
    | intro y a b c hy
    | intro y a hy
    | intro y hy
    | dsimp only
    | split
    | (fail_if_no_progress simp only [Frame.mk_eq]; refine Frame.upd ?_))

theorem State.readCsrs_frame (s : State) (off : Nat) (a : Nat) :
    Frame [.csr] s (State.readCsrs s off a).1 := by
  induction a generalizing s off with
  | zero =>
    first
      | exact Frame.refl _ _
      | (rw [State.readCsrs]
         repeat' (first
           | with_reducible apply Frame.refl
           | with_reducible assumption
           | with_reducible apply Frame.ite
           | with_reducible apply Frame.then_ ?_ (State.readCsr_frame ..)
           | (with_reducible apply Frame.then_ ?_ (Frame.of_eq (State.readCsr_frame ..) (by assumption)))
           | decide
           | dsimp only
           | split))
  | succ m ih =>
    rw [State.readCsrs]
    try dsimp only
    repeat' (first
      | with_reducible apply Frame.refl
      | with_reducible assumption
      | with_reducible apply Frame.ite
      | with_reducible apply Frame.then_ ?_ (ih ..)
      | (with_reducible apply Frame.then_ ?_ (Frame.of_eq (ih ..) (by assumption)))
      | with_reducible apply Frame.then_ ?_ (State.readCsr_frame ..)
      | (with_reducible apply Frame.then_ ?_ (Frame.of_eq (State.readCsr_frame ..) (by assumption)))
      | decide
      | dsimp only
      | split)

theorem State.writeCsrs_frame (s : State) (inp : ActionInput) (a : List (Nat × Nat)) :
Frame [.csr, .staged, .mem, .pwr, .clk, .tal, .ptp, .haul, .sch, .pln, .top, .olc, .gen, .wgt, .bench, .frk, .scr,
      .itk, .clocks, .twn, .fst, .flt, .rrc, .obs, .nv, .sent, .fresh] s (State.writeCsrs s inp a).1 := by
  induction a generalizing s inp with
  | nil =>
    first
      | exact Frame.refl _ _
      | (rw [State.writeCsrs]
         repeat' (first
           | with_reducible apply Frame.refl
           | with_reducible assumption
           | with_reducible apply Frame.ite
           | with_reducible apply Frame.then_ ?_ (State.badCsr_frame ..)
           | with_reducible apply Frame.then_ ?_ (State.writeCsr_frame ..)
           | decide
           | dsimp only
           | split))
  | cons b l ih =>
    rw [State.writeCsrs]
    try dsimp only
    repeat' (first
      | with_reducible apply Frame.refl
      | with_reducible assumption
      | with_reducible apply Frame.ite
      | with_reducible apply Frame.then_ ?_ (ih ..)
      | (with_reducible apply Frame.then_ ?_ (Frame.of_eq (ih ..) (by assumption)))
      | with_reducible apply Frame.then_ ?_ (State.badCsr_frame ..)
      | with_reducible apply Frame.then_ ?_ (State.writeCsr_frame ..)
      | decide
      | dsimp only
      | split)

theorem State.putShard_frame (s : State) (c : Nat) (entry : Nat) (shard : Nat) (bytes : List Byte) :
    Frame [.mem, .fst] s (State.putShard s c entry shard bytes).1 := by
  unfold State.putShard
  try dsimp only
  repeat' (first
    | with_reducible apply Frame.refl
    | with_reducible assumption
    | with_reducible apply Frame.ite
    | with_reducible apply Frame.then_ ?_ (State.setBytes_frame ..)
    | decide
    | dsimp only
    | split
    | (fail_if_no_progress simp only [Frame.mk_eq]; refine Frame.upd ?_))

theorem State.disc_frame (s : State) (who : Nat) (reqId : Nat) (op : Nat) (token : Nat) (epoch : Nat) (path : List
      Nat) (body : List Byte) :
    Frame [.csr, .haul, .sch, .top, .fst, .sent] s (State.disc s who reqId op token epoch path body) := by
  unfold State.disc
  try dsimp only
  repeat' (first
    | with_reducible apply Frame.refl
    | with_reducible assumption
    | with_reducible apply Frame.ite
    | with_reducible apply Frame.then_ ?_ (State.answer_frame ..)
    | with_reducible apply Frame.then_ ?_ (State.assigned_frame ..)
    | with_reducible apply Frame.then_ ?_ (State.inc_frame ..)
    | with_reducible apply Frame.then_ ?_ (State.probed_frame ..)
    | with_reducible apply Frame.then_ ?_ (State.routesReceived_frame ..)
    | with_reducible apply Frame.then_ ?_ (State.sendDisc_frame ..)
    | decide
    | dsimp only
    | split
    | (fail_if_no_progress simp only [Frame.mk_eq]; refine Frame.upd ?_))

theorem State.openExport_frame (s : State) (who : Nat) (reqId : Nat) :
    Frame [.csr, .haul, .sch, .fst, .sent] s (State.openExport s who reqId) := by
  unfold State.openExport
  extract_lets v0 v1 v2
  have h_v0 : Frame [.csr, .haul, .sch, .fst, .sent] s v0 := by
    simp only [v0]
    repeat' (first
      | with_reducible apply Frame.refl
      | with_reducible assumption
      | with_reducible apply Frame.ite
      | with_reducible apply Frame.then_ ?_ (State.exportTo_frame ..)
      | decide
      | with_reducible apply Frame.foldl_fst
      | with_reducible apply Frame.foldl
      | intro y a b c hy
      | intro y a hy
      | intro y hy
      | dsimp only
      | split
      | (fail_if_no_progress simp only [Frame.mk_eq]; refine Frame.upd ?_))
  clear_value v0
  have h_v1 : Frame [.csr, .haul, .sch, .fst, .sent] s v1 := by
    simp only [v1]
    repeat' (first
      | with_reducible apply Frame.refl
      | with_reducible assumption
      | with_reducible apply Frame.ite
      | with_reducible apply Frame.then_ ?_ (State.exportTo_frame ..)
      | decide
      | with_reducible apply Frame.foldl_fst
      | with_reducible apply Frame.foldl
      | intro y a b c hy
      | intro y a hy
      | intro y hy
      | dsimp only
      | split
      | (fail_if_no_progress simp only [Frame.mk_eq]; refine Frame.upd ?_))
  clear_value v1
  clear_value v2
  repeat' (first
    | with_reducible apply Frame.refl
    | with_reducible assumption
    | with_reducible apply Frame.ite
    | with_reducible apply Frame.then_ ?_ (State.exportTo_frame ..)
    | decide
    | with_reducible apply Frame.foldl_fst
    | with_reducible apply Frame.foldl
    | intro y a b c hy
    | intro y a hy
    | intro y hy
    | dsimp only
    | split
    | (fail_if_no_progress simp only [Frame.mk_eq]; refine Frame.upd ?_))

theorem State.acknowledged_frame (s : State) (who : Nat) (count : Nat) :
    Frame [.csr, .haul, .sch, .gen, .fst, .sent] s (State.acknowledged s who count) := by
  unfold State.acknowledged
  try dsimp only
  repeat' (first
    | with_reducible apply Frame.refl
    | with_reducible assumption
    | with_reducible apply Frame.ite
    | with_reducible apply Frame.then_ ?_ (State.drainItems_frame ..)
    | decide
    | dsimp only
    | split
    | (fail_if_no_progress simp only [Frame.mk_eq]; refine Frame.upd ?_))

theorem State.resetDomain_frame (s : State) (d : ResetDomain) :
Frame [.csr, .staged, .mem, .pwr, .clk, .tal, .ptp, .haul, .sch, .pln, .top, .olc, .gen, .wgt, .bench, .frk, .scr,
      .itk, .clocks, .twn, .fst, .flt, .rrc, .obs, .sent, .fresh] s (State.resetDomain s d) := by
  unfold State.resetDomain
  try dsimp only
  repeat' (first
    | with_reducible apply Frame.refl
    | with_reducible assumption
    | with_reducible apply Frame.ite
    | with_reducible apply Frames.then_ ?_ (execContextReset_frame ..)
    | with_reducible apply Frames.then_ ?_ (execDieCoreReset_frame ..)
    | with_reducible apply Frames.then_ ?_ (execForesterReset_frame ..)
    | with_reducible apply Frames.then_ ?_ (execHaulPlaneReset_frame ..)
    | with_reducible apply Frames.then_ ?_ (execHaulPortReset_frame ..)
    | with_reducible apply Frames.then_ ?_ (execModuleReset_frame ..)
    | with_reducible apply settle_frame
    | decide
    | intro y a b c hy
    | intro y a hy
    | intro y hy
    | dsimp only
    | split)

theorem State.atModule_frame {P : List Part} {s0 : State} (s : State) (who reqId op m : Nat) (l : List (List Nat × List Byte))
    (here : State → State) (hP : [.csr, .haul, .sch, .fst, .sent] ⊆ P) (h0 : Frame P s0 s)
    (hf : ∀ x, Frame P s0 x → Frame P s0 (here x)) : Frame P s0 (s.atModule who reqId op m l here) := by
  have sub : ∀ {Q : List Part}, Q ⊆ [.csr, .haul, .sch, .fst, .sent] → Q ⊆ P := fun h x hx => hP (h hx)
  unfold State.atModule
  repeat' split
  · exact hf _ h0
  · exact h0.then_ (State.answer_frame ..) (sub (by decide))
  · exact h0.then_ (State.relay_frame ..) (sub (by decide))

theorem State.finish_frame (who op reqId : Nat) (r : State × Nat) :
    Frame [.csr, .haul, .sch, .sent] r.1 (State.finish who op reqId r) := State.answer_frame ..

theorem State.serve_frame (s : State) (who : Nat) (reqId : Nat) (req : FcpReq) :
Frame [.csr, .staged, .mem, .pwr, .clk, .tal, .ptp, .haul, .sch, .pln, .top, .olc, .gen, .wgt, .bench, .frk, .scr,
      .itk, .clocks, .twn, .fst, .flt, .rrc, .obs, .nv, .sent, .fresh] s (State.serve s who reqId req) := by
  unfold State.serve
  try dsimp only
  repeat' (first
    | with_reducible apply Frame.refl
    | with_reducible assumption
    | with_reducible apply Frame.ite
    | with_reducible apply Frame.then_ ?_ (State.access_frame ..)
    | with_reducible apply Frame.then_ ?_ (State.acknowledged_frame ..)
    | with_reducible apply Frame.then_ ?_ (State.answer_frame ..)
    | with_reducible apply Frame.then_ ?_ (State.answerAll_frame ..)
    | with_reducible apply State.atModule_frame
    | with_reducible apply Frame.then_ ?_ (State.badCsr_frame ..)
    | with_reducible apply Frame.then_ ?_ (State.disc_frame ..)
    | with_reducible apply Frame.then_ ?_ (State.finish_frame ..)
    | with_reducible apply Frame.then_ ?_ (State.fwActivate_frame ..)
    | (with_reducible apply Frame.then_ ?_ (Frame.of_eq (State.fwActivate_frame ..) (by assumption)))
    | with_reducible apply Frame.then_ ?_ (State.fwPut_frame ..)
    | (with_reducible apply Frame.then_ ?_ (Frame.of_eq (State.fwPut_frame ..) (by assumption)))
    | with_reducible apply Frame.then_ ?_ (State.openExport_frame ..)
    | with_reducible apply Frame.then_ ?_ (State.ownerClaimed_frame ..)
    | (with_reducible apply Frame.then_ ?_ (Frame.of_eq (State.ownerClaimed_frame ..) (by assumption)))
    | with_reducible apply Frame.then_ ?_ (State.ownerCommand_frame ..)
    | (with_reducible apply Frame.then_ ?_ (Frame.of_eq (State.ownerCommand_frame ..) (by assumption)))
    | with_reducible apply Frame.then_ ?_ (State.putShard_frame ..)
    | (with_reducible apply Frame.then_ ?_ (Frame.of_eq (State.putShard_frame ..) (by assumption)))
    | with_reducible apply Frame.then_ ?_ (State.readCsrs_frame ..)
    | (with_reducible apply Frame.then_ ?_ (Frame.of_eq (State.readCsrs_frame ..) (by assumption)))
    | with_reducible apply Frame.then_ ?_ (State.resetDomain_frame ..)
    | with_reducible apply Frame.then_ ?_ (State.writeCsrs_frame ..)
    | (with_reducible apply Frame.then_ ?_ (Frame.of_eq (State.writeCsrs_frame ..) (by assumption)))
    | decide
    | intro y a b c hy
    | intro y a hy
    | intro y hy
    | dsimp only
    | split)

theorem State.request_frame (s : State) (who : Nat) (reqId : Nat) (req : FcpReq) :
Frame [.csr, .staged, .mem, .pwr, .clk, .tal, .ptp, .haul, .sch, .pln, .top, .olc, .gen, .wgt, .bench, .frk, .scr,
      .itk, .clocks, .twn, .fst, .flt, .rrc, .obs, .nv, .sent, .fresh] s (State.request s who reqId req) := by
  unfold State.request
  try dsimp only
  repeat' (first
    | with_reducible apply Frame.refl
    | with_reducible assumption
    | with_reducible apply Frame.ite
    | with_reducible apply Frame.then_ ?_ (State.answer_frame ..)
    | with_reducible apply Frame.then_ ?_ (State.serve_frame ..)
    | decide
    | dsimp only
    | split)

theorem State.onSession_frame (s : State) (session : Nat) (reqId : Nat) (req : FcpReq) :
Frame [.csr, .staged, .mem, .pwr, .clk, .tal, .ptp, .haul, .sch, .pln, .top, .olc, .gen, .wgt, .bench, .frk, .scr,
      .itk, .clocks, .twn, .fst, .flt, .rrc, .obs, .nv, .sent, .fresh] s (State.onSession s session reqId req) := by
  unfold State.onSession
  try dsimp only
  repeat' (first
    | with_reducible apply Frame.refl
    | with_reducible assumption
    | with_reducible apply Frame.ite
    | with_reducible apply Frame.then_ ?_ (State.request_frame ..)
    | decide
    | dsimp only
    | split)

theorem execFcpHandshake_frame (profile : Bool) (anchor : Option (Fin 4)) (s : State) :
    Frames [.csr, .pwr, .fst, .rrc, .obs, .sent, .fresh] s (execFcpHandshake profile anchor s) := by
  unfold execFcpHandshake
  try dsimp only
  repeat' (first
    | with_reducible apply Frame.refl
    | with_reducible assumption
    | with_reducible apply Frames.next
    | with_reducible apply Frames.fault
    | with_reducible apply Frames.refused
    | with_reducible apply Frame.ite
    | with_reducible apply Frames.ite
    | with_reducible apply Frame.then_ ?_ (State.emit_frame ..)
    | with_reducible apply Frame.then_ ?_ (State.inc_frame ..)
    | with_reducible apply Frame.then_ ?_ (State.notice_frame ..)
    | decide
    | dsimp only
    | split
    | (fail_if_no_progress simp only [Frame.mk_eq]; refine Frame.upd ?_))

theorem execHello_frame (session : Fin 8) (reqId : Nat) (s : State) :
Frames [.csr, .staged, .mem, .pwr, .clk, .tal, .ptp, .haul, .sch, .pln, .top, .olc, .gen, .wgt, .bench, .frk, .scr,
      .itk, .clocks, .twn, .fst, .flt, .rrc, .obs, .nv, .sent, .fresh] s (execHello session reqId s) := by
  unfold execHello
  try dsimp only
  repeat' (first
    | with_reducible apply Frame.refl
    | with_reducible assumption
    | with_reducible apply Frames.next
    | with_reducible apply Frames.fault
    | with_reducible apply Frames.refused
    | with_reducible apply Frame.ite
    | with_reducible apply Frames.ite
    | with_reducible apply Frame.then_ ?_ (State.onSession_frame ..)
    | decide
    | dsimp only
    | split)

theorem execCsrRead_frame (session : Fin 8) (reqId : Nat) (module : Nat) (offset : Nat) (count : Nat) (s : State) :
Frames [.csr, .staged, .mem, .pwr, .clk, .tal, .ptp, .haul, .sch, .pln, .top, .olc, .gen, .wgt, .bench, .frk, .scr,
      .itk, .clocks, .twn, .fst, .flt, .rrc, .obs, .nv, .sent, .fresh] s (execCsrRead session reqId module offset
      count s) := by
  unfold execCsrRead
  try dsimp only
  repeat' (first
    | with_reducible apply Frame.refl
    | with_reducible assumption
    | with_reducible apply Frames.next
    | with_reducible apply Frames.fault
    | with_reducible apply Frames.refused
    | with_reducible apply Frame.ite
    | with_reducible apply Frames.ite
    | with_reducible apply Frame.then_ ?_ (State.onSession_frame ..)
    | decide
    | dsimp only
    | split)

theorem execCsrWrite_frame (session : Fin 8) (reqId : Nat) (module : Nat) (pairs : List (Nat × Nat)) (inp :
      ActionInput) (s : State) :
Frames [.csr, .staged, .mem, .pwr, .clk, .tal, .ptp, .haul, .sch, .pln, .top, .olc, .gen, .wgt, .bench, .frk, .scr,
      .itk, .clocks, .twn, .fst, .flt, .rrc, .obs, .nv, .sent, .fresh] s (execCsrWrite session reqId module pairs
      inp s) := by
  unfold execCsrWrite
  try dsimp only
  repeat' (first
    | with_reducible apply Frame.refl
    | with_reducible assumption
    | with_reducible apply Frames.next
    | with_reducible apply Frames.fault
    | with_reducible apply Frames.refused
    | with_reducible apply Frame.ite
    | with_reducible apply Frames.ite
    | with_reducible apply Frame.then_ ?_ (State.onSession_frame ..)
    | decide
    | dsimp only
    | split)

theorem execMemRead_frame (session : Fin 8) (reqId : Nat) (addr : Nat) (length : Nat) (ecc : MemEcc) (s : State) :
Frames [.csr, .staged, .mem, .pwr, .clk, .tal, .ptp, .haul, .sch, .pln, .top, .olc, .gen, .wgt, .bench, .frk, .scr,
      .itk, .clocks, .twn, .fst, .flt, .rrc, .obs, .nv, .sent, .fresh] s (execMemRead session reqId addr length ecc
      s) := by
  unfold execMemRead
  try dsimp only
  repeat' (first
    | with_reducible apply Frame.refl
    | with_reducible assumption
    | with_reducible apply Frames.next
    | with_reducible apply Frames.fault
    | with_reducible apply Frames.refused
    | with_reducible apply Frame.ite
    | with_reducible apply Frames.ite
    | with_reducible apply Frame.then_ ?_ (State.onSession_frame ..)
    | decide
    | dsimp only
    | split)

theorem execMemWrite_frame (session : Fin 8) (reqId : Nat) (addr : Nat) (bytes : List Byte) (s : State) :
Frames [.csr, .staged, .mem, .pwr, .clk, .tal, .ptp, .haul, .sch, .pln, .top, .olc, .gen, .wgt, .bench, .frk, .scr,
      .itk, .clocks, .twn, .fst, .flt, .rrc, .obs, .nv, .sent, .fresh] s (execMemWrite session reqId addr bytes s) := by
  unfold execMemWrite
  try dsimp only
  repeat' (first
    | with_reducible apply Frame.refl
    | with_reducible assumption
    | with_reducible apply Frames.next
    | with_reducible apply Frames.fault
    | with_reducible apply Frames.refused
    | with_reducible apply Frame.ite
    | with_reducible apply Frames.ite
    | with_reducible apply Frame.then_ ?_ (State.onSession_frame ..)
    | decide
    | dsimp only
    | split)

theorem execShardPut_frame (session : Fin 8) (reqId : Nat) (ctx : Nat) (entry : Nat) (shard : Nat) (bytes : List
      Byte) (s : State) :
Frames [.csr, .staged, .mem, .pwr, .clk, .tal, .ptp, .haul, .sch, .pln, .top, .olc, .gen, .wgt, .bench, .frk, .scr,
      .itk, .clocks, .twn, .fst, .flt, .rrc, .obs, .nv, .sent, .fresh] s (execShardPut session reqId ctx entry shard
      bytes s) := by
  unfold execShardPut
  try dsimp only
  repeat' (first
    | with_reducible apply Frame.refl
    | with_reducible assumption
    | with_reducible apply Frames.next
    | with_reducible apply Frames.fault
    | with_reducible apply Frames.refused
    | with_reducible apply Frame.ite
    | with_reducible apply Frames.ite
    | with_reducible apply Frame.then_ ?_ (State.onSession_frame ..)
    | decide
    | dsimp only
    | split)

theorem execExport_frame (session : Fin 8) (reqId : Nat) (s : State) :
Frames [.csr, .staged, .mem, .pwr, .clk, .tal, .ptp, .haul, .sch, .pln, .top, .olc, .gen, .wgt, .bench, .frk, .scr,
      .itk, .clocks, .twn, .fst, .flt, .rrc, .obs, .nv, .sent, .fresh] s (execExport session reqId s) := by
  unfold execExport
  try dsimp only
  repeat' (first
    | with_reducible apply Frame.refl
    | with_reducible assumption
    | with_reducible apply Frames.next
    | with_reducible apply Frames.fault
    | with_reducible apply Frames.refused
    | with_reducible apply Frame.ite
    | with_reducible apply Frames.ite
    | with_reducible apply Frame.then_ ?_ (State.onSession_frame ..)
    | decide
    | dsimp only
    | split)

theorem execDiscSend_frame (session : Fin 8) (reqId : Nat) (op : Nat) (token : Nat) (epoch : Nat) (path : List Nat)
      (body : List Byte) (s : State) :
Frames [.csr, .staged, .mem, .pwr, .clk, .tal, .ptp, .haul, .sch, .pln, .top, .olc, .gen, .wgt, .bench, .frk, .scr,
      .itk, .clocks, .twn, .fst, .flt, .rrc, .obs, .nv, .sent, .fresh] s (execDiscSend session reqId op token epoch
      path body s) := by
  unfold execDiscSend
  try dsimp only
  repeat' (first
    | with_reducible apply Frame.refl
    | with_reducible assumption
    | with_reducible apply Frames.next
    | with_reducible apply Frames.fault
    | with_reducible apply Frames.refused
    | with_reducible apply Frame.ite
    | with_reducible apply Frames.ite
    | with_reducible apply Frame.then_ ?_ (State.onSession_frame ..)
    | decide
    | dsimp only
    | split)

theorem execFcpReset_frame (session : Fin 8) (reqId : Nat) (domain : ResetDomain) (s : State) :
Frames [.csr, .staged, .mem, .pwr, .clk, .tal, .ptp, .haul, .sch, .pln, .top, .olc, .gen, .wgt, .bench, .frk, .scr,
      .itk, .clocks, .twn, .fst, .flt, .rrc, .obs, .nv, .sent, .fresh] s (execFcpReset session reqId domain s) := by
  unfold execFcpReset
  try dsimp only
  repeat' (first
    | with_reducible apply Frame.refl
    | with_reducible assumption
    | with_reducible apply Frames.next
    | with_reducible apply Frames.fault
    | with_reducible apply Frames.refused
    | with_reducible apply Frame.ite
    | with_reducible apply Frames.ite
    | with_reducible apply Frame.then_ ?_ (State.onSession_frame ..)
    | decide
    | dsimp only
    | split)

theorem execCerts_frame (session : Fin 8) (reqId : Nat) (s : State) :
Frames [.csr, .staged, .mem, .pwr, .clk, .tal, .ptp, .haul, .sch, .pln, .top, .olc, .gen, .wgt, .bench, .frk, .scr,
      .itk, .clocks, .twn, .fst, .flt, .rrc, .obs, .nv, .sent, .fresh] s (execCerts session reqId s) := by
  unfold execCerts
  try dsimp only
  repeat' (first
    | with_reducible apply Frame.refl
    | with_reducible assumption
    | with_reducible apply Frames.next
    | with_reducible apply Frames.fault
    | with_reducible apply Frames.refused
    | with_reducible apply Frame.ite
    | with_reducible apply Frames.ite
    | with_reducible apply Frame.then_ ?_ (State.onSession_frame ..)
    | decide
    | dsimp only
    | split)

theorem execQuote_frame (session : Fin 8) (reqId : Nat) (challenge : List Byte) (s : State) :
Frames [.csr, .staged, .mem, .pwr, .clk, .tal, .ptp, .haul, .sch, .pln, .top, .olc, .gen, .wgt, .bench, .frk, .scr,
      .itk, .clocks, .twn, .fst, .flt, .rrc, .obs, .nv, .sent, .fresh] s (execQuote session reqId challenge s) := by
  unfold execQuote
  try dsimp only
  repeat' (first
    | with_reducible apply Frame.refl
    | with_reducible assumption
    | with_reducible apply Frames.next
    | with_reducible apply Frames.fault
    | with_reducible apply Frames.refused
    | with_reducible apply Frame.ite
    | with_reducible apply Frames.ite
    | with_reducible apply Frame.then_ ?_ (State.onSession_frame ..)
    | decide
    | dsimp only
    | split)

theorem execEnroll_frame (session : Fin 8) (reqId : Nat) (c : OwnerCmd) (s : State) :
Frames [.csr, .staged, .mem, .pwr, .clk, .tal, .ptp, .haul, .sch, .pln, .top, .olc, .gen, .wgt, .bench, .frk, .scr,
      .itk, .clocks, .twn, .fst, .flt, .rrc, .obs, .nv, .sent, .fresh] s (execEnroll session reqId c s) := by
  unfold execEnroll
  try dsimp only
  repeat' (first
    | with_reducible apply Frame.refl
    | with_reducible assumption
    | with_reducible apply Frames.next
    | with_reducible apply Frames.fault
    | with_reducible apply Frames.refused
    | with_reducible apply Frame.ite
    | with_reducible apply Frames.ite
    | with_reducible apply Frame.then_ ?_ (State.onSession_frame ..)
    | decide
    | dsimp only
    | split)

theorem execRevoke_frame (session : Fin 8) (reqId : Nat) (c : OwnerCmd) (s : State) :
Frames [.csr, .staged, .mem, .pwr, .clk, .tal, .ptp, .haul, .sch, .pln, .top, .olc, .gen, .wgt, .bench, .frk, .scr,
      .itk, .clocks, .twn, .fst, .flt, .rrc, .obs, .nv, .sent, .fresh] s (execRevoke session reqId c s) := by
  unfold execRevoke
  try dsimp only
  repeat' (first
    | with_reducible apply Frame.refl
    | with_reducible assumption
    | with_reducible apply Frames.next
    | with_reducible apply Frames.fault
    | with_reducible apply Frames.refused
    | with_reducible apply Frame.ite
    | with_reducible apply Frames.ite
    | with_reducible apply Frame.then_ ?_ (State.onSession_frame ..)
    | decide
    | dsimp only
    | split)

theorem execAnchorSet_frame (session : Fin 8) (reqId : Nat) (c : OwnerCmd) (s : State) :
Frames [.csr, .staged, .mem, .pwr, .clk, .tal, .ptp, .haul, .sch, .pln, .top, .olc, .gen, .wgt, .bench, .frk, .scr,
      .itk, .clocks, .twn, .fst, .flt, .rrc, .obs, .nv, .sent, .fresh] s (execAnchorSet session reqId c s) := by
  unfold execAnchorSet
  try dsimp only
  repeat' (first
    | with_reducible apply Frame.refl
    | with_reducible assumption
    | with_reducible apply Frames.next
    | with_reducible apply Frames.fault
    | with_reducible apply Frames.refused
    | with_reducible apply Frame.ite
    | with_reducible apply Frames.ite
    | with_reducible apply Frame.then_ ?_ (State.onSession_frame ..)
    | decide
    | dsimp only
    | split)

theorem execAnchorClear_frame (session : Fin 8) (reqId : Nat) (c : OwnerCmd) (s : State) :
Frames [.csr, .staged, .mem, .pwr, .clk, .tal, .ptp, .haul, .sch, .pln, .top, .olc, .gen, .wgt, .bench, .frk, .scr,
      .itk, .clocks, .twn, .fst, .flt, .rrc, .obs, .nv, .sent, .fresh] s (execAnchorClear session reqId c s) := by
  unfold execAnchorClear
  try dsimp only
  repeat' (first
    | with_reducible apply Frame.refl
    | with_reducible assumption
    | with_reducible apply Frames.next
    | with_reducible apply Frames.fault
    | with_reducible apply Frames.refused
    | with_reducible apply Frame.ite
    | with_reducible apply Frames.ite
    | with_reducible apply Frame.then_ ?_ (State.onSession_frame ..)
    | decide
    | dsimp only
    | split)

theorem execOwnerClaim_frame (session : Fin 8) (reqId : Nat) (c : OwnerClaim) (s : State) :
Frames [.csr, .staged, .mem, .pwr, .clk, .tal, .ptp, .haul, .sch, .pln, .top, .olc, .gen, .wgt, .bench, .frk, .scr,
      .itk, .clocks, .twn, .fst, .flt, .rrc, .obs, .nv, .sent, .fresh] s (execOwnerClaim session reqId c s) := by
  unfold execOwnerClaim
  try dsimp only
  repeat' (first
    | with_reducible apply Frame.refl
    | with_reducible assumption
    | with_reducible apply Frames.next
    | with_reducible apply Frames.fault
    | with_reducible apply Frames.refused
    | with_reducible apply Frame.ite
    | with_reducible apply Frames.ite
    | with_reducible apply Frame.then_ ?_ (State.onSession_frame ..)
    | decide
    | dsimp only
    | split)

theorem execFwPut_frame (session : Fin 8) (reqId : Nat) (image : Nat) (offset : Nat) (bytes : List Byte) (s : State)
      :
Frames [.csr, .staged, .mem, .pwr, .clk, .tal, .ptp, .haul, .sch, .pln, .top, .olc, .gen, .wgt, .bench, .frk, .scr,
      .itk, .clocks, .twn, .fst, .flt, .rrc, .obs, .nv, .sent, .fresh] s (execFwPut session reqId image offset bytes
      s) := by
  unfold execFwPut
  try dsimp only
  repeat' (first
    | with_reducible apply Frame.refl
    | with_reducible assumption
    | with_reducible apply Frames.next
    | with_reducible apply Frames.fault
    | with_reducible apply Frames.refused
    | with_reducible apply Frame.ite
    | with_reducible apply Frames.ite
    | with_reducible apply Frame.then_ ?_ (State.onSession_frame ..)
    | decide
    | dsimp only
    | split)

theorem execFwActivate_frame (session : Fin 8) (reqId : Nat) (image : Nat) (length : Nat) (check : ImageCheck) (s :
      State) :
Frames [.csr, .staged, .mem, .pwr, .clk, .tal, .ptp, .haul, .sch, .pln, .top, .olc, .gen, .wgt, .bench, .frk, .scr,
      .itk, .clocks, .twn, .fst, .flt, .rrc, .obs, .nv, .sent, .fresh] s (execFwActivate session reqId image length
      check s) := by
  unfold execFwActivate
  try dsimp only
  repeat' (first
    | with_reducible apply Frame.refl
    | with_reducible assumption
    | with_reducible apply Frames.next
    | with_reducible apply Frames.fault
    | with_reducible apply Frames.refused
    | with_reducible apply Frame.ite
    | with_reducible apply Frames.ite
    | with_reducible apply Frame.then_ ?_ (State.onSession_frame ..)
    | decide
    | dsimp only
    | split)

theorem execFcpServicePacket_frame (source : Fin 65536) (reqId : Nat) (req : FcpReq) (s : State) :
Frames [.csr, .staged, .mem, .pwr, .clk, .tal, .ptp, .haul, .sch, .pln, .top, .olc, .gen, .wgt, .bench, .frk, .scr,
      .itk, .clocks, .twn, .fst, .flt, .rrc, .obs, .nv, .sent, .fresh] s (execFcpServicePacket source reqId req s) := by
  unfold execFcpServicePacket
  try dsimp only
  repeat' (first
    | with_reducible apply Frame.refl
    | with_reducible assumption
    | with_reducible apply Frames.next
    | with_reducible apply Frames.fault
    | with_reducible apply Frames.refused
    | with_reducible apply Frame.ite
    | with_reducible apply Frames.ite
    | with_reducible apply Frame.then_ ?_ (State.answerAll_frame ..)
    | with_reducible apply Frame.then_ ?_ (State.request_frame ..)
    | decide
    | dsimp only
    | split
    | (fail_if_no_progress simp only [Frame.mk_eq]; refine Frame.upd ?_))

theorem execExportAcknowledged_frame (session : Fin 8) (count : Nat) (s : State) :
    Frames [.csr, .haul, .sch, .gen, .fst, .sent] s (execExportAcknowledged session count s) := by
  unfold execExportAcknowledged
  try dsimp only
  repeat' (first
    | with_reducible apply Frame.refl
    | with_reducible assumption
    | with_reducible apply Frames.next
    | with_reducible apply Frames.fault
    | with_reducible apply Frames.refused
    | with_reducible apply Frame.ite
    | with_reducible apply Frames.ite
    | with_reducible apply Frame.then_ ?_ (State.acknowledged_frame ..)
    | decide
    | dsimp only
    | split)

end Sys2Proof.Machine
end

