-- ==== Sys2Proof/Laws/FrameFlags.lean ====
section
/-! SUPPORT. One frame lemma for every operation of Machine/Flags.lean: the parts of the state that it may change. -/

set_option Elab.async false
set_option linter.unusedTactic false
set_option linter.unreachableTactic false

namespace Sys2Proof.Machine

open Sys2Proof

theorem State.countOf_frame (s : State) (b : Nat) (f : Field) (g : Field) (n : Nat) :
    Frame [.csr] s (State.countOf s b f g n) := by
  unfold State.countOf
  try dsimp only
  repeat' (first
    | with_reducible apply Frame.refl
    | with_reducible assumption
    | with_reducible apply Frame.ite
    | with_reducible apply Frame.then_ ?_ (State.addAt_frame ..)
    | with_reducible apply Frame.then_ ?_ (State.wrAt_frame ..)
    | decide
    | dsimp only
    | split)

theorem State.countNum_frame (s : State) (b : Nat) (l : List (Option NumEvent)) :
    Frame [.csr] s (State.countNum s b l) := by
  unfold State.countNum
  extract_lets v0 v1 v2
  have h_v0 : Frame [.csr] s v0 := by
    simp only [v0]
    repeat' (first
      | with_reducible apply Frame.refl
      | with_reducible assumption
      | with_reducible apply Frame.ite
      | with_reducible apply Frame.then_ ?_ (State.countOf_frame ..)
      | decide
      | dsimp only
      | split)
  clear_value v0
  have h_v1 : Frame [.csr] s v1 := by
    simp only [v1]
    repeat' (first
      | with_reducible apply Frame.refl
      | with_reducible assumption
      | with_reducible apply Frame.ite
      | with_reducible apply Frame.then_ ?_ (State.countOf_frame ..)
      | decide
      | dsimp only
      | split)
  clear_value v1
  have h_v2 : Frame [.csr] s v2 := by
    simp only [v2]
    repeat' (first
      | with_reducible apply Frame.refl
      | with_reducible assumption
      | with_reducible apply Frame.ite
      | with_reducible apply Frame.then_ ?_ (State.countOf_frame ..)
      | decide
      | dsimp only
      | split)
  clear_value v2
  repeat' (first
    | with_reducible apply Frame.refl
    | with_reducible assumption
    | with_reducible apply Frame.ite
    | with_reducible apply Frame.then_ ?_ (State.countOf_frame ..)
    | decide
    | dsimp only
    | split)

theorem State.countSr_frame (s : State) (b : Nat) (rm : Nat) (n : Nat) :
    Frame [.csr] s (State.countSr s b rm n) := by
  unfold State.countSr
  try dsimp only
  repeat' (first
    | with_reducible apply Frame.refl
    | with_reducible assumption
    | with_reducible apply Frame.ite
    | with_reducible apply Frame.then_ ?_ (State.addAt_frame ..)
    | decide
    | dsimp only
    | split)

end Sys2Proof.Machine
end

