-- ==== Sys2Proof/Laws/FrameLease.lean ====
section
/-! SUPPORT. One frame lemma for every operation of Machine/Lease.lean: the parts of the state that it may change. -/

set_option Elab.async false
set_option linter.unusedTactic false
set_option linter.unreachableTactic false

namespace Sys2Proof.Machine

open Sys2Proof

theorem State.useShare_frame (s : State) (j : Job) (p : Nat) :
    Frame [.sch] s (State.useShare s j p) := by
  unfold State.useShare
  try dsimp only
  repeat' (first
    | with_reducible apply Frame.refl
    | with_reducible assumption
    | with_reducible apply Frame.ite
    | decide
    | dsimp only
    | split
    | (fail_if_no_progress simp only [Frame.mk_eq]; refine Frame.upd ?_))

end Sys2Proof.Machine
end

