-- ==== Sys2Proof/Laws/FrameTransfer.lean ====
section
/-! SUPPORT. One frame lemma for every operation of Machine/Transfer.lean: the parts of the state that it may change. -/

set_option Elab.async false
set_option linter.unusedTactic false
set_option linter.unreachableTactic false

namespace Sys2Proof.Machine

open Sys2Proof

theorem State.departOn_frame (s : State) (p : Nat) (l : List (List Byte)) :
    Frame [.csr, .haul, .sent] s (State.departOn s p l) := by
  unfold State.departOn
  try dsimp only
  repeat' (first
    | with_reducible apply Frame.refl
    | with_reducible assumption
    | with_reducible apply Frame.ite
    | with_reducible apply Frame.then_ ?_ (State.sendSched_frame ..)
    | decide
    | dsimp only
    | split)

theorem State.departShared_frame (s : State) (j : Job) (p : Nat) (ctx : Nat) (l : List (List Byte)) :
    Frame [.csr, .haul, .sch, .sent] s (State.departShared s j p ctx l) := by
  unfold State.departShared
  try dsimp only
  repeat' (first
    | with_reducible apply Frame.refl
    | with_reducible assumption
    | with_reducible apply Frame.ite
    | with_reducible apply Frame.then_ ?_ (State.departOn_frame ..)
    | with_reducible apply Frame.then_ ?_ (State.inc_frame ..)
    | with_reducible apply Frame.then_ ?_ (State.useShare_frame ..)
    | decide
    | with_reducible apply Frame.foldl_fst
    | with_reducible apply Frame.foldl
    | intro y a b c hy
    | intro y a hy
    | intro y hy
    | dsimp only
    | split
    | (fail_if_no_progress simp only [Frame.mk_eq]; refine Frame.upd ?_))

theorem State.tickLeases_frame (s : State) :
    Frame [.csr, .haul, .sch, .sent] s (State.tickLeases s) := by
  unfold State.tickLeases
  try dsimp only
  repeat' (first
    | with_reducible apply Frame.refl
    | with_reducible assumption
    | with_reducible apply Frame.ite
    | with_reducible apply Frame.then_ ?_ (State.departOn_frame ..)
    | with_reducible apply Frame.then_ ?_ (State.useShare_frame ..)
    | decide
    | with_reducible apply Frame.foldl_fst
    | with_reducible apply Frame.foldl
    | intro y a b c hy
    | intro y a hy
    | intro y hy
    | dsimp only
    | split
    | (fail_if_no_progress simp only [Frame.mk_eq]; refine Frame.upd ?_))

theorem State.departEntry_frame (s : State) (j : Job) (key : Nat) (e : SchedEntry) :
    Frame [.csr, .haul, .sch, .obs, .sent, .fresh] s (State.departEntry s j key e) := by
  unfold State.departEntry
  try dsimp only
  repeat' (first
    | with_reducible apply Frame.refl
    | with_reducible assumption
    | with_reducible apply Frame.ite
    | with_reducible apply Frame.then_ ?_ (State.departShared_frame ..)
    | with_reducible apply Frame.then_ ?_ (State.inc_frame ..)
    | with_reducible apply Frame.then_ ?_ (State.noPath_frame ..)
    | with_reducible apply Frame.then_ ?_ (State.onTelem_frame ..)
    | with_reducible apply Frame.then_ ?_ (State.setSend_frame ..)
    | with_reducible apply Frame.then_ ?_ (State.trace_frame ..)
    | decide
    | dsimp only
    | split)

theorem State.tickSends_frame (s : State) :
    Frame [.csr, .haul, .sch, .obs, .sent, .fresh] s (State.tickSends s) := by
  unfold State.tickSends
  try dsimp only
  repeat' (first
    | with_reducible apply Frame.refl
    | with_reducible assumption
    | with_reducible apply Frame.ite
    | with_reducible apply Frame.then_ ?_ (State.departEntry_frame ..)
    | decide
    | with_reducible apply Frame.foldl_fst
    | with_reducible apply Frame.foldl
    | intro y a b c hy
    | intro y a hy
    | intro y hy
    | dsimp only
    | split)

theorem execSendDeparture_frame (port : Fin 16) (entry : Fin 32768) (s : State) :
    Frames [.csr, .clk, .haul, .sch, .obs, .sent, .fresh] s (execSendDeparture port entry s) := by
  unfold execSendDeparture
  try dsimp only
  repeat' (first
    | with_reducible apply Frame.refl
    | with_reducible assumption
    | with_reducible apply Frames.next
    | with_reducible apply Frames.fault
    | with_reducible apply Frames.refused
    | with_reducible apply Frame.ite
    | with_reducible apply Frames.ite
    | with_reducible apply Frame.then_ ?_ (State.count_frame ..)
    | with_reducible apply Frame.then_ ?_ (State.departEntry_frame ..)
    | with_reducible apply Frame.then_ ?_ (State.lateBench_frame ..)
    | with_reducible apply Frame.then_ ?_ (State.setSend_frame ..)
    | decide
    | dsimp only
    | split)

theorem execDetourDeparture_frame (port : Fin 16) (entry : Fin 32768) (s : State) :
    Frames [.csr, .haul, .sch, .sent] s (execDetourDeparture port entry s) := by
  unfold execDetourDeparture
  try dsimp only
  repeat' (first
    | with_reducible apply Frame.refl
    | with_reducible assumption
    | with_reducible apply Frames.next
    | with_reducible apply Frames.fault
    | with_reducible apply Frames.refused
    | with_reducible apply Frame.ite
    | with_reducible apply Frames.ite
    | with_reducible apply Frame.then_ ?_ (State.departOn_frame ..)
    | with_reducible apply Frame.then_ ?_ (State.setSend_frame ..)
    | decide
    | with_reducible apply Frame.foldl_fst
    | with_reducible apply Frame.foldl
    | intro y a b c hy
    | intro y a hy
    | intro y hy
    | dsimp only
    | split)

theorem execForkDecisionSend_frame (port : Fin 16) (entry : Fin 32768) (fork : Fin 4096) (s : State) :
    Frames [.csr, .haul, .sch, .frk, .obs, .sent, .fresh] s (execForkDecisionSend port entry fork s) := by
  unfold execForkDecisionSend
  try dsimp only
  repeat' (first
    | with_reducible apply Frame.refl
    | with_reducible assumption
    | with_reducible apply Frames.next
    | with_reducible apply Frames.fault
    | with_reducible apply Frames.refused
    | with_reducible apply Frame.ite
    | with_reducible apply Frames.ite
    | with_reducible apply Frame.then_ ?_ (State.departEntry_frame ..)
    | with_reducible apply Frame.then_ ?_ (State.setFork_frame ..)
    | with_reducible apply Frame.then_ ?_ (State.setSend_frame ..)
    | decide
    | dsimp only
    | split)

theorem State.noteBegun_frame (s : State) (k : Nat) (key : Nat) :
    Frame [.sch] s (State.noteBegun s k key) := by
  unfold State.noteBegun
  try dsimp only
  repeat' (first
    | with_reducible apply Frame.refl
    | with_reducible assumption
    | with_reducible apply Frame.ite
    | with_reducible apply Frame.then_ ?_ (State.setJob_frame ..)
    | decide
    | dsimp only
    | split)

theorem execForwardDeparture_frame (port : Fin 16) (entry : Fin 32768) (s : State) :
    Frames [.csr, .haul, .sch, .sent] s (execForwardDeparture port entry s) := by
  unfold execForwardDeparture
  try dsimp only
  repeat' (first
    | with_reducible apply Frame.refl
    | with_reducible assumption
    | with_reducible apply Frames.next
    | with_reducible apply Frames.fault
    | with_reducible apply Frames.refused
    | with_reducible apply Frame.ite
    | with_reducible apply Frames.ite
    | with_reducible apply Frame.then_ ?_ (State.count_frame ..)
    | with_reducible apply Frame.then_ ?_ (State.departOn_frame ..)
    | with_reducible apply Frame.then_ ?_ (State.inc_frame ..)
    | with_reducible apply Frame.then_ ?_ (State.noteBegun_frame ..)
    | with_reducible apply Frame.then_ ?_ (State.useShare_frame ..)
    | decide
    | dsimp only
    | split
    | (fail_if_no_progress simp only [Frame.mk_eq]; refine Frame.upd ?_))

theorem State.setRecv_frame (s : State) (key : Nat) (x : RecvState) :
    Frame [.sch] s (State.setRecv s key x) := by
  unfold State.setRecv
  try dsimp only
  repeat' (first
    | with_reducible apply Frame.refl
    | with_reducible assumption
    | with_reducible apply Frame.ite
    | decide
    | dsimp only
    | split
    | (fail_if_no_progress simp only [Frame.mk_eq]; refine Frame.upd ?_))

theorem State.holdBlock_frame (s : State) (j : Job) (b : HeldBlock) :
    Frame [.csr, .sch] s (State.holdBlock s j b) := by
  unfold State.holdBlock
  try dsimp only
  repeat' (first
    | with_reducible apply Frame.refl
    | with_reducible assumption
    | with_reducible apply Frame.ite
    | with_reducible apply Frame.then_ ?_ (State.inc_frame ..)
    | with_reducible apply Frame.then_ ?_ (State.wr_frame ..)
    | with_reducible apply Frame.then_ ?_ (State.wrAt_frame ..)
    | decide
    | dsimp only
    | split
    | (fail_if_no_progress simp only [Frame.mk_eq]; refine Frame.upd ?_))

theorem State.deliverHaul_frame (s : State) (p : Nat) (e : SchedEntry) (addr : Nat) (data : List Byte) (counter :
      Option Nat) :
    Frame [.csr, .mem, .clk, .bench, .scr] s (State.deliverHaul s p e addr data counter) := by
  unfold State.deliverHaul
  try dsimp only
  repeat' (first
    | with_reducible apply Frame.refl
    | with_reducible assumption
    | with_reducible apply Frame.ite
    | with_reducible apply Frame.then_ ?_ (State.enqueue_frame ..)
    | decide
    | dsimp only
    | split)

theorem State.recvDone_frame (s : State) (p : Nat) (e : SchedEntry) :
    Frame [.csr, .sch, .obs, .fresh] s (State.recvDone s p e) := by
  unfold State.recvDone
  try dsimp only
  repeat' (first
    | with_reducible apply Frame.refl
    | with_reducible assumption
    | with_reducible apply Frame.ite
    | with_reducible apply Frame.then_ ?_ (State.inc_frame ..)
    | with_reducible apply Frame.then_ ?_ (State.onTelem_frame ..)
    | with_reducible apply Frame.then_ ?_ (State.trace_frame ..)
    | decide
    | dsimp only
    | split)

theorem State.markVoid_frame (s : State) (a : Nat) (n : Nat) (void : Bool) :
    Frame [.bench] s (State.markVoid s a n void) := by
  unfold State.markVoid
  try dsimp only
  repeat' (first
    | with_reducible apply Frame.refl
    | with_reducible assumption
    | with_reducible apply Frame.ite
    | with_reducible apply Frame.then_ ?_ (State.setBench_frame ..)
    | decide
    | dsimp only
    | split)

theorem State.deliverBlock_frame (s : State) (p : Nat) (key : Nat) (e : SchedEntry) (b : HeldBlock) (j : Job) :
    Frame [.csr, .mem, .clk, .sch, .bench, .scr, .obs, .fresh] s (State.deliverBlock s p key e b j) := by
  unfold State.deliverBlock
  try dsimp only
  repeat' (first
    | with_reducible apply Frame.refl
    | with_reducible assumption
    | with_reducible apply Frame.ite
    | with_reducible apply Frame.then_ ?_ (State.count_frame ..)
    | with_reducible apply Frame.then_ ?_ (State.deliverHaul_frame ..)
    | with_reducible apply Frame.then_ ?_ (State.holdBlock_frame ..)
    | with_reducible apply Frame.then_ ?_ (State.inc_frame ..)
    | with_reducible apply Frame.then_ ?_ (State.markVoid_frame ..)
    | with_reducible apply Frame.then_ ?_ (State.recvDone_frame ..)
    | with_reducible apply Frame.then_ ?_ (State.setRecv_frame ..)
    | with_reducible apply Frame.then_ ?_ (State.staleHeader_frame ..)
    | decide
    | dsimp only
    | split)

theorem State.placeSched_frame (s : State) (p : Nat) (d : SchedData) :
    Frame [.csr, .mem, .clk, .sch, .bench, .scr, .obs, .fresh] s (State.placeSched s p d) := by
  unfold State.placeSched
  try dsimp only
  repeat' (first
    | with_reducible apply Frame.refl
    | with_reducible assumption
    | with_reducible apply Frame.ite
    | with_reducible apply Frame.then_ ?_ (State.deliverBlock_frame ..)
    | with_reducible apply Frame.then_ ?_ (State.holdBlock_frame ..)
    | with_reducible apply Frame.then_ ?_ (State.inc_frame ..)
    | with_reducible apply Frame.then_ ?_ (State.noPath_frame ..)
    | decide
    | dsimp only
    | split)

theorem execSchedBlockReceived_frame (port : Fin 16) (blk : WireBlock) (s : State) :
Frames [.csr, .mem, .clk, .haul, .sch, .bench, .scr, .fst, .obs, .sent, .fresh] s (execSchedBlockReceived port blk
      s) := by
  unfold execSchedBlockReceived
  try dsimp only
  repeat' (first
    | with_reducible apply Frame.refl
    | with_reducible assumption
    | with_reducible apply Frames.next
    | with_reducible apply Frames.fault
    | with_reducible apply Frames.refused
    | with_reducible apply Frame.ite
    | with_reducible apply Frames.ite
    | with_reducible apply Frame.then_ ?_ (State.accept_frame ..)
    | (with_reducible apply Frame.then_ ?_ (Frame.of_eq (State.accept_frame ..) (by assumption)))
    | with_reducible apply Frame.then_ ?_ (State.inc_frame ..)
    | with_reducible apply Frame.then_ ?_ (State.placeSched_frame ..)
    | with_reducible apply Frame.then_ ?_ (State.reservedDrop_frame ..)
    | decide
    | dsimp only
    | split)

theorem State.bindRecv_frame (s : State) (key : Nat) (addr : Nat) :
    Frame [.csr, .mem, .clk, .sch, .bench, .scr, .obs, .fresh] s (State.bindRecv s key addr) := by
  unfold State.bindRecv
  try dsimp only
  repeat' (first
    | with_reducible apply Frame.refl
    | with_reducible assumption
    | with_reducible apply Frame.ite
    | with_reducible apply Frame.then_ ?_ (State.deliverBlock_frame ..)
    | with_reducible apply Frame.then_ ?_ (State.markVoid_frame ..)
    | with_reducible apply Frame.then_ ?_ (State.setRecv_frame ..)
    | decide
    | with_reducible apply Frame.foldl_fst
    | with_reducible apply Frame.foldl
    | intro y a b c hy
    | intro y a hy
    | intro y hy
    | dsimp only
    | split
    | (fail_if_no_progress simp only [Frame.mk_eq]; refine Frame.upd ?_))

theorem State.deadlineFailed_frame (s : State) (j : Job) (key : Nat) (e : SchedEntry) :
    Frame [.csr, .pwr, .haul, .sch, .flt, .rrc, .obs, .sent, .fresh] s (State.deadlineFailed s j key e) := by
  unfold State.deadlineFailed
  extract_lets v0 v1 v2 v3
  clear_value v0
  clear_value v1
  have h_v2 : Frame [.csr, .pwr, .haul, .sch, .flt, .rrc, .obs, .sent, .fresh] s v2 := by
    simp only [v2]
    repeat' (first
      | with_reducible apply Frame.refl
      | with_reducible assumption
      | with_reducible apply Frame.ite
      | with_reducible apply Frame.then_ ?_ (State.holdRequest_frame ..)
      | with_reducible apply Frame.then_ ?_ (State.onTelem_frame ..)
      | with_reducible apply Frame.then_ ?_ (State.setRecv_frame ..)
      | with_reducible apply Frame.then_ ?_ (State.stepFatal_frame ..)
      | decide
      | dsimp only
      | split)
  clear_value v2
  have h_v3 : Frame [.csr, .pwr, .haul, .sch, .flt, .rrc, .obs, .sent, .fresh] s v3 := by
    simp only [v3]
    repeat' (first
      | with_reducible apply Frame.refl
      | with_reducible assumption
      | with_reducible apply Frame.ite
      | with_reducible apply Frame.then_ ?_ (State.holdRequest_frame ..)
      | with_reducible apply Frame.then_ ?_ (State.onTelem_frame ..)
      | with_reducible apply Frame.then_ ?_ (State.setRecv_frame ..)
      | with_reducible apply Frame.then_ ?_ (State.stepFatal_frame ..)
      | decide
      | dsimp only
      | split)
  clear_value v3
  repeat' (first
    | with_reducible apply Frame.refl
    | with_reducible assumption
    | with_reducible apply Frame.ite
    | with_reducible apply Frame.then_ ?_ (State.holdRequest_frame ..)
    | with_reducible apply Frame.then_ ?_ (State.onTelem_frame ..)
    | with_reducible apply Frame.then_ ?_ (State.setRecv_frame ..)
    | with_reducible apply Frame.then_ ?_ (State.stepFatal_frame ..)
    | decide
    | dsimp only
    | split)

theorem execRecvDeadlineCheck_frame (port : Fin 16) (entry : Fin 32768) (s : State) :
    Frames [.csr, .pwr, .haul, .sch, .flt, .rrc, .obs, .sent, .fresh] s (execRecvDeadlineCheck port entry s) := by
  unfold execRecvDeadlineCheck
  try dsimp only
  repeat' (first
    | with_reducible apply Frame.refl
    | with_reducible assumption
    | with_reducible apply Frames.next
    | with_reducible apply Frames.fault
    | with_reducible apply Frames.refused
    | with_reducible apply Frame.ite
    | with_reducible apply Frames.ite
    | with_reducible apply Frame.then_ ?_ (State.deadlineFailed_frame ..)
    | decide
    | dsimp only
    | split)

theorem execRepeatedDeadlineCheck_frame (port : Fin 16) (entry : Fin 32768) (s : State) :
    Frames [.csr, .pwr, .haul, .sch, .flt, .rrc, .obs, .sent, .fresh] s (execRepeatedDeadlineCheck port entry s) := by
  unfold execRepeatedDeadlineCheck
  try dsimp only
  repeat' (first
    | with_reducible apply Frame.refl
    | with_reducible assumption
    | with_reducible apply Frames.next
    | with_reducible apply Frames.fault
    | with_reducible apply Frames.refused
    | with_reducible apply Frame.ite
    | with_reducible apply Frames.ite
    | with_reducible apply Frame.then_ ?_ (State.deadlineFailed_frame ..)
    | with_reducible apply Frame.then_ ?_ (State.setRecv_frame ..)
    | decide
    | dsimp only
    | split)

theorem execPortDetourFast_frame (port : Fin 16) (s : State) :
    Frames [.csr, .haul, .sch, .sent] s (execPortDetourFast port s) := by
  unfold execPortDetourFast
  try dsimp only
  repeat' (first
    | with_reducible apply Frame.refl
    | with_reducible assumption
    | with_reducible apply Frames.next
    | with_reducible apply Frames.fault
    | with_reducible apply Frames.refused
    | with_reducible apply Frame.ite
    | with_reducible apply Frames.ite
    | with_reducible apply Frame.then_ ?_ (State.detourPort_frame ..)
    | decide
    | dsimp only
    | split)

theorem execRouteDownReceived_frame (n : RouteDown) (s : State) :
    Frames [.csr, .sch] s (execRouteDownReceived n s) := by
  unfold execRouteDownReceived
  try dsimp only
  repeat' (first
    | with_reducible apply Frame.refl
    | with_reducible assumption
    | with_reducible apply Frames.next
    | with_reducible apply Frames.fault
    | with_reducible apply Frames.refused
    | with_reducible apply Frame.ite
    | with_reducible apply Frames.ite
    | with_reducible apply Frame.then_ ?_ (State.foreign_frame ..)
    | with_reducible apply Frame.then_ ?_ (State.inc_frame ..)
    | with_reducible apply Frame.then_ ?_ (State.resendBroken_frame ..)
    | decide
    | dsimp only
    | split
    | (fail_if_no_progress simp only [Frame.mk_eq]; refine Frame.upd ?_))

end Sys2Proof.Machine
end

