-- ==== Sys2Proof/Laws/FrameHaulSlots.lean ====
section
/-! SUPPORT. One frame lemma for every operation of Machine/HaulSlots.lean: the parts of the state that it may change. -/

set_option Elab.async false
set_option linter.unusedTactic false
set_option linter.unreachableTactic false

namespace Sys2Proof.Machine

open Sys2Proof

theorem State.sendReady_frame (s : State) (b : Nat) (key : Nat) (payload : Option Nat) (void : Option (List Byte)) :
    Frame [.csr, .mem, .clk, .sch, .bench, .scr] s (State.sendReady s b key payload void) := by
  unfold State.sendReady
  try dsimp only
  repeat' (first
    | with_reducible apply Frame.refl
    | with_reducible assumption
    | with_reducible apply Frame.ite
    | with_reducible apply Frame.then_ ?_ (State.enqueue_frame ..)
    | with_reducible apply Frame.then_ ?_ (State.setSend_frame ..)
    | decide
    | dsimp only
    | split)

theorem State.countFilled_frame (s : State) (header : Nat) (overflow : Nat) :
    Frame [.csr, .frk] s (State.countFilled s header overflow) := by
  unfold State.countFilled
  try dsimp only
  repeat' (first
    | with_reducible apply Frame.refl
    | with_reducible assumption
    | with_reducible apply Frame.ite
    | with_reducible apply Frame.then_ ?_ (State.addAt_frame ..)
    | decide
    | dsimp only
    | split
    | (fail_if_no_progress simp only [Frame.mk_eq]; refine Frame.upd ?_))

theorem execHput_frame (i : Issue) (h : HaulSlot) (overflow : Nat) (ecc : Ecc) (s : State) :
Frames [.csr, .mem, .pwr, .clk, .haul, .sch, .gen, .bench, .frk, .scr, .flt, .rrc, .obs, .sent, .fresh] s (execHput
      i h overflow ecc s) := by
  unfold execHput
  try dsimp only
  repeat' (first
    | with_reducible apply Frame.refl
    | with_reducible assumption
    | with_reducible apply Frames.next
    | with_reducible apply Frames.fault
    | with_reducible apply Frames.refused
    | with_reducible apply Frame.ite
    | with_reducible apply Frames.ite
    | with_reducible apply Frame.then_ ?_ (State.countFilled_frame ..)
    | with_reducible apply State.operate_frame
    | with_reducible apply State.reading_frame
    | with_reducible apply Frame.then_ ?_ (State.sendReady_frame ..)
    | decide
    | intro y a b c hy
    | intro y a hy
    | intro y hy
    | dsimp only
    | split)

theorem execHget_frame (i : Issue) (h : HaulSlot) (s : State) :
Frames [.csr, .mem, .pwr, .clk, .haul, .sch, .gen, .bench, .scr, .flt, .rrc, .obs, .sent, .fresh] s (execHget i h s) := by
  unfold execHget
  try dsimp only
  repeat' (first
    | with_reducible apply Frame.refl
    | with_reducible assumption
    | with_reducible apply Frames.next
    | with_reducible apply Frames.fault
    | with_reducible apply Frames.refused
    | with_reducible apply Frame.ite
    | with_reducible apply Frames.ite
    | with_reducible apply Frame.then_ ?_ (State.bindRecv_frame ..)
    | with_reducible apply State.operate_frame
    | decide
    | intro y a b c hy
    | intro y a hy
    | intro y hy
    | dsimp only
    | split)

theorem execHvod_frame (i : Issue) (h : HaulSlot) (group : Fin 4096) (slot : Fin 65536) (s : State) :
Frames [.csr, .mem, .pwr, .clk, .haul, .sch, .gen, .bench, .scr, .flt, .rrc, .obs, .sent, .fresh] s (execHvod i h
      group slot s) := by
  unfold execHvod
  try dsimp only
  repeat' (first
    | with_reducible apply Frame.refl
    | with_reducible assumption
    | with_reducible apply Frames.next
    | with_reducible apply Frames.fault
    | with_reducible apply Frames.refused
    | with_reducible apply Frame.ite
    | with_reducible apply Frames.ite
    | with_reducible apply Frame.then_ ?_ (State.addAt_frame ..)
    | with_reducible apply State.operate_frame
    | with_reducible apply Frame.then_ ?_ (State.sendReady_frame ..)
    | decide
    | intro y a b c hy
    | intro y a hy
    | intro y hy
    | dsimp only
    | split)

end Sys2Proof.Machine
end

