-- ==== Sys2Proof/Laws/FrameVector.lean ====
section
/-! SUPPORT. One frame lemma for every operation of Machine/Vector.lean: the parts of the state that it may change. -/

set_option Elab.async false
set_option linter.unusedTactic false
set_option linter.unreachableTactic false

namespace Sys2Proof.Machine

open Sys2Proof

theorem State.putLanes_frame (s : State) (b : Nat) (r : Nat) (mask : Nat) (out : List (Nat × Option NumEvent)) :
    Frame [.csr, .bench] s (State.putLanes s b r mask out) := by
  unfold State.putLanes
  try dsimp only
  repeat' (first
    | with_reducible apply Frame.refl
    | with_reducible assumption
    | with_reducible apply Frame.ite
    | with_reducible apply Frame.then_ ?_ (State.countNum_frame ..)
    | with_reducible apply Frame.then_ ?_ (State.setBench_frame ..)
    | decide
    | dsimp only
    | split)

theorem State.freeLanes_frame (s : State) (b : Nat) (r : Nat) (mask : Nat) :
    Frame [.csr, .bench, .fresh] s (State.freeLanes s b r mask) := by
  unfold State.freeLanes
  try dsimp only
  repeat' (first
    | with_reducible apply Frame.refl
    | with_reducible assumption
    | with_reducible apply Frame.ite
    | with_reducible apply Frame.then_ ?_ (State.drawn_frame ..)
    | with_reducible apply Frame.then_ ?_ (State.putLanes_frame ..)
    | decide
    | dsimp only
    | split)

theorem State.freePair_frame (s : State) (b : Nat) (mask : Nat) :
    Frame [.csr, .bench, .fresh] s (State.freePair s b mask) := by
  unfold State.freePair
  try dsimp only
  repeat' (first
    | with_reducible apply Frame.refl
    | with_reducible assumption
    | with_reducible apply Frame.ite
    | with_reducible apply Frame.then_ ?_ (State.freeLanes_frame ..)
    | decide
    | dsimp only
    | split)

theorem State.laneReg_frame (q : State) (s : State) (b : Nat) (v : VecSlot) (k : Nat) (f : Nat → Nat → Nat → Nat ×
      Option NumEvent) :
    Frame [.csr, .bench] s (State.laneReg q s b v k f) := by
  unfold State.laneReg
  try dsimp only
  repeat' (first
    | with_reducible apply Frame.refl
    | with_reducible assumption
    | with_reducible apply Frame.ite
    | with_reducible apply Frame.then_ ?_ (State.putLanes_frame ..)
    | decide
    | dsimp only
    | split)

theorem State.singleOp_frame (i : Issue) (op : Nat) (v : VecSlot) (f : Nat → Nat → Nat → Nat × Option NumEvent) (s :
      State) :
    Frames [.csr, .pwr, .haul, .sch, .gen, .bench, .flt, .rrc, .obs, .sent, .fresh] s (State.singleOp i op v f s) := by
  unfold State.singleOp
  try dsimp only
  repeat' (first
    | with_reducible apply Frame.refl
    | with_reducible assumption
    | with_reducible apply Frames.next
    | with_reducible apply Frames.fault
    | with_reducible apply Frames.refused
    | with_reducible apply Frame.ite
    | with_reducible apply Frames.ite
    | with_reducible apply Frame.then_ ?_ (State.laneReg_frame ..)
    | with_reducible apply State.operate_frame
    | decide
    | intro y a b c hy
    | intro y a hy
    | intro y hy
    | dsimp only
    | split)

theorem State.pairOp_frame (i : Issue) (op : Nat) (v : VecSlot) (f : Nat → Nat → Nat → Nat × Option NumEvent) (s :
      State) :
    Frames [.csr, .pwr, .haul, .sch, .gen, .bench, .flt, .rrc, .obs, .sent, .fresh] s (State.pairOp i op v f s) := by
  unfold State.pairOp
  try dsimp only
  repeat' (first
    | with_reducible apply Frame.refl
    | with_reducible assumption
    | with_reducible apply Frames.next
    | with_reducible apply Frames.fault
    | with_reducible apply Frames.refused
    | with_reducible apply Frame.ite
    | with_reducible apply Frames.ite
    | with_reducible apply Frame.then_ ?_ (State.freePair_frame ..)
    | with_reducible apply Frame.then_ ?_ (State.laneReg_frame ..)
    | with_reducible apply State.operate_frame
    | decide
    | intro y a b c hy
    | intro y a hy
    | intro y hy
    | dsimp only
    | split)

theorem execVfma_frame (i : Issue) (v : VecSlot) (s : State) :
    Frames [.csr, .pwr, .haul, .sch, .gen, .bench, .flt, .rrc, .obs, .sent, .fresh] s (execVfma i v s) := by
  unfold execVfma
  try dsimp only
  repeat' (first
    | with_reducible apply Frame.refl
    | with_reducible assumption
    | with_reducible apply Frames.next
    | with_reducible apply Frames.fault
    | with_reducible apply Frames.refused
    | with_reducible apply Frame.ite
    | with_reducible apply Frames.ite
    | with_reducible apply Frames.then_ ?_ (State.pairOp_frame ..)
    | decide
    | dsimp only
    | split)

theorem execVadd_frame (i : Issue) (v : VecSlot) (s : State) :
    Frames [.csr, .pwr, .haul, .sch, .gen, .bench, .flt, .rrc, .obs, .sent, .fresh] s (execVadd i v s) := by
  unfold execVadd
  try dsimp only
  repeat' (first
    | with_reducible apply Frame.refl
    | with_reducible assumption
    | with_reducible apply Frames.next
    | with_reducible apply Frames.fault
    | with_reducible apply Frames.refused
    | with_reducible apply Frame.ite
    | with_reducible apply Frames.ite
    | with_reducible apply Frames.then_ ?_ (State.pairOp_frame ..)
    | decide
    | dsimp only
    | split)

theorem execVsub_frame (i : Issue) (v : VecSlot) (s : State) :
    Frames [.csr, .pwr, .haul, .sch, .gen, .bench, .flt, .rrc, .obs, .sent, .fresh] s (execVsub i v s) := by
  unfold execVsub
  try dsimp only
  repeat' (first
    | with_reducible apply Frame.refl
    | with_reducible assumption
    | with_reducible apply Frames.next
    | with_reducible apply Frames.fault
    | with_reducible apply Frames.refused
    | with_reducible apply Frame.ite
    | with_reducible apply Frames.ite
    | with_reducible apply Frames.then_ ?_ (State.pairOp_frame ..)
    | decide
    | dsimp only
    | split)

theorem execVmul_frame (i : Issue) (v : VecSlot) (s : State) :
    Frames [.csr, .pwr, .haul, .sch, .gen, .bench, .flt, .rrc, .obs, .sent, .fresh] s (execVmul i v s) := by
  unfold execVmul
  try dsimp only
  repeat' (first
    | with_reducible apply Frame.refl
    | with_reducible assumption
    | with_reducible apply Frames.next
    | with_reducible apply Frames.fault
    | with_reducible apply Frames.refused
    | with_reducible apply Frame.ite
    | with_reducible apply Frames.ite
    | with_reducible apply Frames.then_ ?_ (State.pairOp_frame ..)
    | decide
    | dsimp only
    | split)

theorem execVmin_frame (i : Issue) (v : VecSlot) (s : State) :
    Frames [.csr, .pwr, .haul, .sch, .gen, .bench, .flt, .rrc, .obs, .sent, .fresh] s (execVmin i v s) := by
  unfold execVmin
  try dsimp only
  repeat' (first
    | with_reducible apply Frame.refl
    | with_reducible assumption
    | with_reducible apply Frames.next
    | with_reducible apply Frames.fault
    | with_reducible apply Frames.refused
    | with_reducible apply Frame.ite
    | with_reducible apply Frames.ite
    | with_reducible apply Frames.then_ ?_ (State.pairOp_frame ..)
    | decide
    | dsimp only
    | split)

theorem execVmax_frame (i : Issue) (v : VecSlot) (s : State) :
    Frames [.csr, .pwr, .haul, .sch, .gen, .bench, .flt, .rrc, .obs, .sent, .fresh] s (execVmax i v s) := by
  unfold execVmax
  try dsimp only
  repeat' (first
    | with_reducible apply Frame.refl
    | with_reducible assumption
    | with_reducible apply Frames.next
    | with_reducible apply Frames.fault
    | with_reducible apply Frames.refused
    | with_reducible apply Frame.ite
    | with_reducible apply Frames.ite
    | with_reducible apply Frames.then_ ?_ (State.pairOp_frame ..)
    | decide
    | dsimp only
    | split)

theorem execVrcp_frame (i : Issue) (v : VecSlot) (s : State) :
    Frames [.csr, .pwr, .haul, .sch, .gen, .bench, .flt, .rrc, .obs, .sent, .fresh] s (execVrcp i v s) := by
  unfold execVrcp
  try dsimp only
  repeat' (first
    | with_reducible apply Frame.refl
    | with_reducible assumption
    | with_reducible apply Frames.next
    | with_reducible apply Frames.fault
    | with_reducible apply Frames.refused
    | with_reducible apply Frame.ite
    | with_reducible apply Frames.ite
    | with_reducible apply Frames.then_ ?_ (State.singleOp_frame ..)
    | decide
    | dsimp only
    | split)

theorem execVsqrt_frame (i : Issue) (v : VecSlot) (s : State) :
    Frames [.csr, .pwr, .haul, .sch, .gen, .bench, .flt, .rrc, .obs, .sent, .fresh] s (execVsqrt i v s) := by
  unfold execVsqrt
  try dsimp only
  repeat' (first
    | with_reducible apply Frame.refl
    | with_reducible assumption
    | with_reducible apply Frames.next
    | with_reducible apply Frames.fault
    | with_reducible apply Frames.refused
    | with_reducible apply Frame.ite
    | with_reducible apply Frames.ite
    | with_reducible apply Frames.then_ ?_ (State.singleOp_frame ..)
    | decide
    | dsimp only
    | split)

theorem execVrsq_frame (i : Issue) (v : VecSlot) (s : State) :
    Frames [.csr, .pwr, .haul, .sch, .gen, .bench, .flt, .rrc, .obs, .sent, .fresh] s (execVrsq i v s) := by
  unfold execVrsq
  try dsimp only
  repeat' (first
    | with_reducible apply Frame.refl
    | with_reducible assumption
    | with_reducible apply Frames.next
    | with_reducible apply Frames.fault
    | with_reducible apply Frames.refused
    | with_reducible apply Frame.ite
    | with_reducible apply Frames.ite
    | with_reducible apply Frames.then_ ?_ (State.singleOp_frame ..)
    | decide
    | dsimp only
    | split)

theorem execVdiv_frame (i : Issue) (v : VecSlot) (s : State) :
    Frames [.csr, .pwr, .haul, .sch, .gen, .bench, .flt, .rrc, .obs, .sent, .fresh] s (execVdiv i v s) := by
  unfold execVdiv
  try dsimp only
  repeat' (first
    | with_reducible apply Frame.refl
    | with_reducible assumption
    | with_reducible apply Frames.next
    | with_reducible apply Frames.fault
    | with_reducible apply Frames.refused
    | with_reducible apply Frame.ite
    | with_reducible apply Frames.ite
    | with_reducible apply Frames.then_ ?_ (State.singleOp_frame ..)
    | decide
    | dsimp only
    | split)

theorem execVex2_frame (i : Issue) (v : VecSlot) (s : State) :
    Frames [.csr, .pwr, .haul, .sch, .gen, .bench, .flt, .rrc, .obs, .sent, .fresh] s (execVex2 i v s) := by
  unfold execVex2
  try dsimp only
  repeat' (first
    | with_reducible apply Frame.refl
    | with_reducible assumption
    | with_reducible apply Frames.next
    | with_reducible apply Frames.fault
    | with_reducible apply Frames.refused
    | with_reducible apply Frame.ite
    | with_reducible apply Frames.ite
    | with_reducible apply Frames.then_ ?_ (State.singleOp_frame ..)
    | decide
    | dsimp only
    | split)

theorem execVlg2_frame (i : Issue) (v : VecSlot) (s : State) :
    Frames [.csr, .pwr, .haul, .sch, .gen, .bench, .flt, .rrc, .obs, .sent, .fresh] s (execVlg2 i v s) := by
  unfold execVlg2
  try dsimp only
  repeat' (first
    | with_reducible apply Frame.refl
    | with_reducible assumption
    | with_reducible apply Frames.next
    | with_reducible apply Frames.fault
    | with_reducible apply Frames.refused
    | with_reducible apply Frame.ite
    | with_reducible apply Frames.ite
    | with_reducible apply Frames.then_ ?_ (State.singleOp_frame ..)
    | decide
    | dsimp only
    | split)

theorem State.compareReg_frame (q : State) (s : State) (b : Nat) (v : VecSlot) (k : Nat) :
    Frame [.bench] s (State.compareReg q s b v k) := by
  unfold State.compareReg
  try dsimp only
  repeat' (first
    | with_reducible apply Frame.refl
    | with_reducible assumption
    | with_reducible apply Frame.ite
    | with_reducible apply Frame.then_ ?_ (State.setBench_frame ..)
    | decide
    | dsimp only
    | split)

theorem State.freePred_frame (s : State) (b : Nat) (p : Nat) (mask : Nat) :
    Frame [.bench, .fresh] s (State.freePred s b p mask) := by
  unfold State.freePred
  try dsimp only
  repeat' (first
    | with_reducible apply Frame.refl
    | with_reducible assumption
    | with_reducible apply Frame.ite
    | with_reducible apply Frame.then_ ?_ (State.drawn_frame ..)
    | with_reducible apply Frame.then_ ?_ (State.setBench_frame ..)
    | decide
    | dsimp only
    | split)

theorem execVcmp_frame (i : Issue) (v : VecSlot) (s : State) :
    Frames [.csr, .pwr, .haul, .sch, .gen, .bench, .flt, .rrc, .obs, .sent, .fresh] s (execVcmp i v s) := by
  unfold execVcmp
  try dsimp only
  repeat' (first
    | with_reducible apply Frame.refl
    | with_reducible assumption
    | with_reducible apply Frames.next
    | with_reducible apply Frames.fault
    | with_reducible apply Frames.refused
    | with_reducible apply Frame.ite
    | with_reducible apply Frames.ite
    | with_reducible apply Frame.then_ ?_ (State.compareReg_frame ..)
    | with_reducible apply Frame.then_ ?_ (State.freePred_frame ..)
    | with_reducible apply State.operate_frame
    | decide
    | intro y a b c hy
    | intro y a hy
    | intro y hy
    | dsimp only
    | split)

theorem execVsel_frame (i : Issue) (v : VecSlot) (s : State) :
    Frames [.csr, .pwr, .haul, .sch, .gen, .bench, .flt, .rrc, .obs, .sent, .fresh] s (execVsel i v s) := by
  unfold execVsel
  try dsimp only
  repeat' (first
    | with_reducible apply Frame.refl
    | with_reducible assumption
    | with_reducible apply Frames.next
    | with_reducible apply Frames.fault
    | with_reducible apply Frames.refused
    | with_reducible apply Frame.ite
    | with_reducible apply Frames.ite
    | with_reducible apply Frames.then_ ?_ (State.pairOp_frame ..)
    | decide
    | dsimp only
    | split)

theorem execIadd_frame (i : Issue) (v : VecSlot) (s : State) :
    Frames [.csr, .pwr, .haul, .sch, .gen, .bench, .flt, .rrc, .obs, .sent, .fresh] s (execIadd i v s) := by
  unfold execIadd
  try dsimp only
  repeat' (first
    | with_reducible apply Frame.refl
    | with_reducible assumption
    | with_reducible apply Frames.next
    | with_reducible apply Frames.fault
    | with_reducible apply Frames.refused
    | with_reducible apply Frame.ite
    | with_reducible apply Frames.ite
    | with_reducible apply Frames.then_ ?_ (State.pairOp_frame ..)
    | decide
    | dsimp only
    | split)

theorem execIsub_frame (i : Issue) (v : VecSlot) (s : State) :
    Frames [.csr, .pwr, .haul, .sch, .gen, .bench, .flt, .rrc, .obs, .sent, .fresh] s (execIsub i v s) := by
  unfold execIsub
  try dsimp only
  repeat' (first
    | with_reducible apply Frame.refl
    | with_reducible assumption
    | with_reducible apply Frames.next
    | with_reducible apply Frames.fault
    | with_reducible apply Frames.refused
    | with_reducible apply Frame.ite
    | with_reducible apply Frames.ite
    | with_reducible apply Frames.then_ ?_ (State.pairOp_frame ..)
    | decide
    | dsimp only
    | split)

theorem execIshf_frame (i : Issue) (v : VecSlot) (s : State) :
    Frames [.csr, .pwr, .haul, .sch, .gen, .bench, .flt, .rrc, .obs, .sent, .fresh] s (execIshf i v s) := by
  unfold execIshf
  try dsimp only
  repeat' (first
    | with_reducible apply Frame.refl
    | with_reducible assumption
    | with_reducible apply Frames.next
    | with_reducible apply Frames.fault
    | with_reducible apply Frames.refused
    | with_reducible apply Frame.ite
    | with_reducible apply Frames.ite
    | with_reducible apply Frame.then_ ?_ (State.freeLanes_frame ..)
    | with_reducible apply Frame.then_ ?_ (State.freePair_frame ..)
    | with_reducible apply Frame.then_ ?_ (State.laneReg_frame ..)
    | with_reducible apply State.operate_frame
    | decide
    | intro y a b c hy
    | intro y a hy
    | intro y hy
    | dsimp only
    | split)

theorem execIand_frame (i : Issue) (v : VecSlot) (s : State) :
    Frames [.csr, .pwr, .haul, .sch, .gen, .bench, .flt, .rrc, .obs, .sent, .fresh] s (execIand i v s) := by
  unfold execIand
  try dsimp only
  repeat' (first
    | with_reducible apply Frame.refl
    | with_reducible assumption
    | with_reducible apply Frames.next
    | with_reducible apply Frames.fault
    | with_reducible apply Frames.refused
    | with_reducible apply Frame.ite
    | with_reducible apply Frames.ite
    | with_reducible apply Frames.then_ ?_ (State.pairOp_frame ..)
    | decide
    | dsimp only
    | split)

theorem execIor_frame (i : Issue) (v : VecSlot) (s : State) :
    Frames [.csr, .pwr, .haul, .sch, .gen, .bench, .flt, .rrc, .obs, .sent, .fresh] s (execIor i v s) := by
  unfold execIor
  try dsimp only
  repeat' (first
    | with_reducible apply Frame.refl
    | with_reducible assumption
    | with_reducible apply Frames.next
    | with_reducible apply Frames.fault
    | with_reducible apply Frames.refused
    | with_reducible apply Frame.ite
    | with_reducible apply Frames.ite
    | with_reducible apply Frames.then_ ?_ (State.pairOp_frame ..)
    | decide
    | dsimp only
    | split)

theorem execIxor_frame (i : Issue) (v : VecSlot) (s : State) :
    Frames [.csr, .pwr, .haul, .sch, .gen, .bench, .flt, .rrc, .obs, .sent, .fresh] s (execIxor i v s) := by
  unfold execIxor
  try dsimp only
  repeat' (first
    | with_reducible apply Frame.refl
    | with_reducible assumption
    | with_reducible apply Frames.next
    | with_reducible apply Frames.fault
    | with_reducible apply Frames.refused
    | with_reducible apply Frame.ite
    | with_reducible apply Frames.ite
    | with_reducible apply Frames.then_ ?_ (State.pairOp_frame ..)
    | decide
    | dsimp only
    | split)

theorem execVcvt_frame (i : Issue) (v : VecSlot) (k : Coords) (s : State) :
    Frames [.csr, .pwr, .haul, .sch, .gen, .bench, .flt, .rrc, .obs, .sent, .fresh] s (execVcvt i v k s) := by
  unfold execVcvt
  try dsimp only
  repeat' (first
    | with_reducible apply Frame.refl
    | with_reducible assumption
    | with_reducible apply Frames.next
    | with_reducible apply Frames.fault
    | with_reducible apply Frames.refused
    | with_reducible apply Frame.ite
    | with_reducible apply Frames.ite
    | with_reducible apply Frame.then_ ?_ (State.countSr_frame ..)
    | with_reducible apply Frame.then_ ?_ (State.freeLanes_frame ..)
    | with_reducible apply State.operate_frame
    | with_reducible apply Frame.then_ ?_ (State.putLanes_frame ..)
    | decide
    | intro y a b c hy
    | intro y a hy
    | intro y hy
    | dsimp only
    | split)

theorem State.freeBlocks_frame (s : State) (b : Nat) (r : Nat) (mask : Nat) (at_ : Nat) :
    Frame [.csr, .mem, .bench, .fresh] s (State.freeBlocks s b r mask at_) := by
  unfold State.freeBlocks
  try dsimp only
  repeat' (first
    | with_reducible apply Frame.refl
    | with_reducible assumption
    | with_reducible apply Frame.ite
    | with_reducible apply Frame.then_ ?_ (State.freeLanes_frame ..)
    | with_reducible apply Frame.then_ ?_ (State.putStore_frame ..)
    | decide
    | dsimp only
    | split)

theorem execVcvb_frame (i : Issue) (v : VecSlot) (scaleOff : Nat) (k : Coords) (s : State) :
Frames [.csr, .mem, .pwr, .haul, .sch, .gen, .bench, .flt, .rrc, .obs, .sent, .fresh] s (execVcvb i v scaleOff k s) := by
  unfold execVcvb
  try dsimp only
  repeat' (first
    | with_reducible apply Frame.refl
    | with_reducible assumption
    | with_reducible apply Frames.next
    | with_reducible apply Frames.fault
    | with_reducible apply Frames.refused
    | with_reducible apply Frame.ite
    | with_reducible apply Frames.ite
    | with_reducible apply Frame.then_ ?_ (State.countSr_frame ..)
    | with_reducible apply Frame.then_ ?_ (State.freeBlocks_frame ..)
    | with_reducible apply State.operate_frame
    | with_reducible apply Frame.then_ ?_ (State.putLanes_frame ..)
    | with_reducible apply Frame.then_ ?_ (State.putStore_frame ..)
    | decide
    | intro y a b c hy
    | intro y a hy
    | intro y hy
    | dsimp only
    | split)

theorem execVtlv_frame (i : Issue) (v : VecSlot) (head : Nat) (tree : Fin 65536) (level : Fin 12) (ecc : Ecc) (s :
      State) :
Frames [.csr, .pwr, .haul, .sch, .gen, .bench, .flt, .rrc, .obs, .sent, .fresh] s (execVtlv i v head tree level ecc
      s) := by
  unfold execVtlv
  try dsimp only
  repeat' (first
    | with_reducible apply Frame.refl
    | with_reducible assumption
    | with_reducible apply Frames.next
    | with_reducible apply Frames.fault
    | with_reducible apply Frames.refused
    | with_reducible apply Frame.ite
    | with_reducible apply Frames.ite
    | with_reducible apply Frame.then_ ?_ (State.freeLanes_frame ..)
    | with_reducible apply State.operate_frame
    | with_reducible apply Frame.then_ ?_ (State.putLanes_frame ..)
    | with_reducible apply State.reading_frame
    | decide
    | intro y a b c hy
    | intro y a hy
    | intro y hy
    | dsimp only
    | split)

theorem State.freeGrains_frame (s : State) (b : Nat) (l : List (Nat × Nat)) :
    Frame [.bench, .fresh] s (State.freeGrains s b l) := by
  unfold State.freeGrains
  try dsimp only
  repeat' (first
    | with_reducible apply Frame.refl
    | with_reducible assumption
    | with_reducible apply Frame.ite
    | with_reducible apply Frame.then_ ?_ (State.drawn_frame ..)
    | with_reducible apply Frame.then_ ?_ (State.setBench_frame ..)
    | decide
    | with_reducible apply Frame.foldl_fst
    | with_reducible apply Frame.foldl
    | intro y a b c hy
    | intro y a hy
    | intro y hy
    | dsimp only
    | split)

theorem execVtlf_frame (i : Issue) (v : VecSlot) (head : Nat) (tree : Fin 65536) (ecc : Ecc) (s : State) :
    Frames [.csr, .pwr, .haul, .sch, .gen, .bench, .flt, .rrc, .obs, .sent, .fresh] s (execVtlf i v head tree ecc s) := by
  unfold execVtlf
  try dsimp only
  repeat' (first
    | with_reducible apply Frame.refl
    | with_reducible assumption
    | with_reducible apply Frames.next
    | with_reducible apply Frames.fault
    | with_reducible apply Frames.refused
    | with_reducible apply Frame.ite
    | with_reducible apply Frames.ite
    | with_reducible apply Frame.then_ ?_ (State.freeGrains_frame ..)
    | with_reducible apply Frame.then_ ?_ (State.freeLanes_frame ..)
    | with_reducible apply State.operate_frame
    | with_reducible apply Frame.then_ ?_ (State.putLanes_frame ..)
    | with_reducible apply State.reading_frame
    | with_reducible apply Frame.then_ ?_ (State.setBench_frame ..)
    | decide
    | intro y a b c hy
    | intro y a hy
    | intro y hy
    | dsimp only
    | split)

theorem State.putLeaf_frame (q : State) (s : State) (b : Nat) (v : VecSlot) (r : Reduction) (first : Nat) (g : Nat)
      :
    Frame [.csr, .bench] s (State.putLeaf q s b v r first g) := by
  unfold State.putLeaf
  try dsimp only
  repeat' (first
    | with_reducible apply Frame.refl
    | with_reducible assumption
    | with_reducible apply Frame.ite
    | with_reducible apply Frame.then_ ?_ (State.countNum_frame ..)
    | with_reducible apply Frame.then_ ?_ (State.setBench_frame ..)
    | decide
    | dsimp only
    | split)

theorem execVred_frame (i : Issue) (v : VecSlot) (first : Nat) (s : State) :
    Frames [.csr, .pwr, .haul, .sch, .gen, .bench, .flt, .rrc, .obs, .sent, .fresh] s (execVred i v first s) := by
  unfold execVred
  try dsimp only
  repeat' (first
    | with_reducible apply Frame.refl
    | with_reducible assumption
    | with_reducible apply Frames.next
    | with_reducible apply Frames.fault
    | with_reducible apply Frames.refused
    | with_reducible apply Frame.ite
    | with_reducible apply Frames.ite
    | with_reducible apply State.operate_frame
    | with_reducible apply Frame.then_ ?_ (State.putLeaf_frame ..)
    | decide
    | with_reducible apply Frame.foldl_fst
    | with_reducible apply Frame.foldl
    | intro y a b c hy
    | intro y a hy
    | intro y hy
    | dsimp only
    | split)

theorem execVkrf_frame (i : Issue) (v : VecSlot) (k : Coords) (s : State) :
    Frames [.csr, .pwr, .haul, .sch, .gen, .bench, .flt, .rrc, .obs, .sent, .fresh] s (execVkrf i v k s) := by
  unfold execVkrf
  try dsimp only
  repeat' (first
    | with_reducible apply Frame.refl
    | with_reducible assumption
    | with_reducible apply Frames.next
    | with_reducible apply Frames.fault
    | with_reducible apply Frames.refused
    | with_reducible apply Frame.ite
    | with_reducible apply Frames.ite
    | with_reducible apply State.operate_frame
    | with_reducible apply Frame.then_ ?_ (State.putLanes_frame ..)
    | decide
    | intro y a b c hy
    | intro y a hy
    | intro y hy
    | dsimp only
    | split)

end Sys2Proof.Machine
end

