-- ==== Sys2Proof/Laws/FrameMatrix.lean ====
section
/-! SUPPORT. One frame lemma for every operation of Machine/Matrix.lean: the parts of the state that it may change. -/

set_option Elab.async false
set_option linter.unusedTactic false
set_option linter.unreachableTactic false

namespace Sys2Proof.Machine

open Sys2Proof

theorem State.countGated_frame (s : State) (b : Nat) (n : Nat) :
    Frame [.csr] s (State.countGated s b n) := by
  unfold State.countGated
  try dsimp only
  repeat' (first
    | with_reducible apply Frame.refl
    | with_reducible assumption
    | with_reducible apply Frame.ite
    | with_reducible apply Frame.then_ ?_ (State.addAt_frame ..)
    | with_reducible apply Frame.then_ ?_ (State.count_frame ..)
    | decide
    | dsimp only
    | split)

theorem State.countMatrix_frame (s : State) (b : Nat) :
    Frame [.csr] s (State.countMatrix s b) := by
  unfold State.countMatrix
  try dsimp only
  repeat' (first
    | with_reducible apply Frame.refl
    | with_reducible assumption
    | with_reducible apply Frame.ite
    | with_reducible apply Frame.then_ ?_ (State.count_frame ..)
    | decide
    | dsimp only
    | split)

theorem State.metaErrors_frame (s : State) (b : Nat) (n : Nat) :
    Frame [.csr, .pwr, .frk, .flt, .rrc, .obs, .fresh] s (State.metaErrors s b n) := by
  unfold State.metaErrors
  try dsimp only
  repeat' (first
    | with_reducible apply Frame.refl
    | with_reducible assumption
    | with_reducible apply Frame.ite
    | with_reducible apply Frame.then_ ?_ (State.addAt_frame ..)
    | with_reducible apply Frame.then_ ?_ (State.contained_frame ..)
    | with_reducible apply Frame.then_ ?_ (State.wr_frame ..)
    | decide
    | dsimp only
    | split
    | (fail_if_no_progress simp only [Frame.mk_eq]; refine Frame.upd ?_))

theorem State.freeTile_frame (s : State) (b : Nat) (ecc : Ecc) :
    Frames [.csr, .pwr, .haul, .sch, .gen, .bench, .flt, .rrc, .obs, .sent, .fresh] s (State.freeTile s b ecc) := by
  unfold State.freeTile
  try dsimp only
  repeat' (first
    | with_reducible apply Frame.refl
    | with_reducible assumption
    | with_reducible apply Frames.next
    | with_reducible apply Frames.fault
    | with_reducible apply Frames.refused
    | with_reducible apply Frame.ite
    | with_reducible apply Frames.ite
    | with_reducible apply Frame.then_ ?_ (State.countMatrix_frame ..)
    | with_reducible apply Frame.then_ ?_ (State.freeGrains_frame ..)
    | with_reducible apply State.reading_frame
    | decide
    | intro y a b c hy
    | intro y a hy
    | intro y hy
    | dsimp only
    | split)

theorem State.freeOut_frame (s : State) (b : Nat) (d : Desc) (m : MatSlot) (l : TileLayout) (ecc : Ecc) :
Frames [.csr, .mem, .pwr, .haul, .sch, .gen, .bench, .flt, .rrc, .obs, .sent, .fresh] s (State.freeOut s b d m l
      ecc) := by
  unfold State.freeOut
  try dsimp only
  repeat' (first
    | with_reducible apply Frame.refl
    | with_reducible assumption
    | with_reducible apply Frames.next
    | with_reducible apply Frames.fault
    | with_reducible apply Frames.refused
    | with_reducible apply Frame.ite
    | with_reducible apply Frames.ite
    | with_reducible apply Frame.then_ ?_ (State.countMatrix_frame ..)
    | with_reducible apply Frame.then_ ?_ (State.drawn_frame ..)
    | with_reducible apply Frame.then_ ?_ (State.putStore_frame ..)
    | with_reducible apply State.reading_frame
    | decide
    | with_reducible apply Frame.foldl_fst
    | with_reducible apply Frame.foldl
    | intro y a b c hy
    | intro y a hy
    | intro y hy
    | dsimp only
    | split)

theorem execMgr_frame (i : Issue) (m : MatSlot) (l : TileLayout) (present : Fin 33) (ecc : Ecc) (s : State) :
Frames [.csr, .pwr, .haul, .sch, .gen, .bench, .frk, .flt, .rrc, .obs, .sent, .fresh] s (execMgr i m l present ecc
      s) := by
  unfold execMgr
  try dsimp only
  repeat' (first
    | with_reducible apply Frame.refl
    | with_reducible assumption
    | with_reducible apply Frames.next
    | with_reducible apply Frames.fault
    | with_reducible apply Frames.refused
    | with_reducible apply Frame.ite
    | with_reducible apply Frames.ite
    | with_reducible apply Frame.then_ ?_ (State.countGated_frame ..)
    | with_reducible apply Frame.then_ ?_ (State.countMatrix_frame ..)
    | with_reducible apply Frames.then_ ?_ (State.freeTile_frame ..)
    | with_reducible apply Frame.then_ ?_ (State.metaErrors_frame ..)
    | with_reducible apply State.operate_frame
    | with_reducible apply State.reading_frame
    | with_reducible apply Frame.then_ ?_ (State.setBench_frame ..)
    | decide
    | intro y a b c hy
    | intro y a hy
    | intro y hy
    | dsimp only
    | split)

theorem State.takeBlock_frame (s : State) (b : Nat) (t : Tile) (m : MatSlot) (axis : Nat) (all : List Nat) (i : Nat)
      (f : Feed) :
    Frame [.bench] s (State.takeBlock s b t m axis all i f) := by
  unfold State.takeBlock
  try dsimp only
  repeat' (first
    | with_reducible apply Frame.refl
    | with_reducible assumption
    | with_reducible apply Frame.ite
    | with_reducible apply Frame.then_ ?_ (State.setBench_frame ..)
    | decide
    | dsimp only
    | split)

theorem execMgb_frame (i : Issue) (m : MatSlot) (l : TileLayout) (axis : Nat) (ecc : Ecc) (s : State) :
    Frames [.csr, .pwr, .haul, .sch, .gen, .bench, .flt, .rrc, .obs, .sent, .fresh] s (execMgb i m l axis ecc s) := by
  unfold execMgb
  try dsimp only
  repeat' (first
    | with_reducible apply Frame.refl
    | with_reducible assumption
    | with_reducible apply Frames.next
    | with_reducible apply Frames.fault
    | with_reducible apply Frames.refused
    | with_reducible apply Frame.ite
    | with_reducible apply Frames.ite
    | with_reducible apply Frame.then_ ?_ (State.countGated_frame ..)
    | with_reducible apply Frame.then_ ?_ (State.countMatrix_frame ..)
    | with_reducible apply Frames.then_ ?_ (State.freeTile_frame ..)
    | with_reducible apply State.operate_frame
    | with_reducible apply State.reading_frame
    | with_reducible apply Frame.then_ ?_ (State.setBench_frame ..)
    | with_reducible apply Frame.then_ ?_ (State.takeBlock_frame ..)
    | decide
    | with_reducible apply Frame.foldl_fst
    | with_reducible apply Frame.foldl
    | intro y a b c hy
    | intro y a hy
    | intro y hy
    | dsimp only
    | split)

theorem execMpa_frame (i : Issue) (m : MatSlot) (l : TileLayout) (half : Fin 2) (ecc : Ecc) (s : State) :
    Frames [.csr, .pwr, .haul, .sch, .gen, .bench, .flt, .rrc, .obs, .sent, .fresh] s (execMpa i m l half ecc s) := by
  unfold execMpa
  try dsimp only
  repeat' (first
    | with_reducible apply Frame.refl
    | with_reducible assumption
    | with_reducible apply Frames.next
    | with_reducible apply Frames.fault
    | with_reducible apply Frames.refused
    | with_reducible apply Frame.ite
    | with_reducible apply Frames.ite
    | with_reducible apply Frame.then_ ?_ (State.countMatrix_frame ..)
    | with_reducible apply Frames.then_ ?_ (State.freeTile_frame ..)
    | with_reducible apply State.operate_frame
    | with_reducible apply State.reading_frame
    | with_reducible apply Frame.then_ ?_ (State.setBench_frame ..)
    | decide
    | intro y a b c hy
    | intro y a hy
    | intro y hy
    | dsimp only
    | split)

theorem execMxp_frame (i : Issue) (m : MatSlot) (l : TileLayout) (half : Fin 2) (s : State) :
    Frames [.csr, .mem, .pwr, .haul, .sch, .gen, .bench, .flt, .rrc, .obs, .sent, .fresh] s (execMxp i m l half s) := by
  unfold execMxp
  try dsimp only
  repeat' (first
    | with_reducible apply Frame.refl
    | with_reducible assumption
    | with_reducible apply Frames.next
    | with_reducible apply Frames.fault
    | with_reducible apply Frames.refused
    | with_reducible apply Frame.ite
    | with_reducible apply Frames.ite
    | with_reducible apply Frame.then_ ?_ (State.countMatrix_frame ..)
    | with_reducible apply Frames.then_ ?_ (State.freeOut_frame ..)
    | with_reducible apply State.operate_frame
    | with_reducible apply Frame.then_ ?_ (State.putStore_frame ..)
    | decide
    | with_reducible apply Frame.foldl_fst
    | with_reducible apply Frame.foldl
    | intro y a b c hy
    | intro y a hy
    | intro y hy
    | dsimp only
    | split)

theorem execMcv_frame (i : Issue) (m : MatSlot) (l : TileLayout) (half : Fin 2) (k : Coords) (ecc : Ecc) (s : State)
      :
Frames [.csr, .mem, .pwr, .haul, .sch, .gen, .bench, .flt, .rrc, .obs, .sent, .fresh] s (execMcv i m l half k ecc s) := by
  unfold execMcv
  try dsimp only
  repeat' (first
    | with_reducible apply Frame.refl
    | with_reducible assumption
    | with_reducible apply Frames.next
    | with_reducible apply Frames.fault
    | with_reducible apply Frames.refused
    | with_reducible apply Frame.ite
    | with_reducible apply Frames.ite
    | with_reducible apply Frame.then_ ?_ (State.countMatrix_frame ..)
    | with_reducible apply Frame.then_ ?_ (State.countNum_frame ..)
    | with_reducible apply Frame.then_ ?_ (State.countSr_frame ..)
    | with_reducible apply Frames.then_ ?_ (State.freeOut_frame ..)
    | with_reducible apply State.operate_frame
    | with_reducible apply Frame.then_ ?_ (State.putStore_frame ..)
    | with_reducible apply State.reading_frame
    | decide
    | with_reducible apply Frame.foldl_fst
    | with_reducible apply Frame.foldl
    | intro y a b c hy
    | intro y a hy
    | intro y hy
    | dsimp only
    | split)

end Sys2Proof.Machine
end

