-- ==== Sys2Proof/Laws/FrameMove.lean ====
section
/-! SUPPORT. One frame lemma for every operation of Machine/Move.lean: the parts of the state that it may change. -/

set_option Elab.async false
set_option linter.unusedTactic false
set_option linter.unreachableTactic false

namespace Sys2Proof.Machine

open Sys2Proof

theorem execVld_frame (i : Issue) (m : MovSlot) (ecc : Ecc) (s : State) :
    Frames [.csr, .pwr, .haul, .sch, .gen, .bench, .flt, .rrc, .obs, .sent, .fresh] s (execVld i m ecc s) := by
  unfold execVld
  try dsimp only
  repeat' (first
    | with_reducible apply Frame.refl
    | with_reducible assumption
    | with_reducible apply Frames.next
    | with_reducible apply Frames.fault
    | with_reducible apply Frames.refused
    | with_reducible apply Frame.ite
    | with_reducible apply Frames.ite
    | with_reducible apply State.operate_frame
    | with_reducible apply State.reading_frame
    | with_reducible apply Frame.then_ ?_ (State.setBench_frame ..)
    | decide
    | intro y a b c hy
    | intro y a hy
    | intro y hy
    | dsimp only
    | split)

theorem execVst_frame (i : Issue) (m : MovSlot) (s : State) :
    Frames [.csr, .mem, .pwr, .haul, .sch, .gen, .bench, .flt, .rrc, .obs, .sent, .fresh] s (execVst i m s) := by
  unfold execVst
  try dsimp only
  repeat' (first
    | with_reducible apply Frame.refl
    | with_reducible assumption
    | with_reducible apply Frames.next
    | with_reducible apply Frames.fault
    | with_reducible apply Frames.refused
    | with_reducible apply Frame.ite
    | with_reducible apply Frames.ite
    | with_reducible apply State.operate_frame
    | with_reducible apply Frame.then_ ?_ (State.putStore_frame ..)
    | decide
    | intro y a b c hy
    | intro y a hy
    | intro y hy
    | dsimp only
    | split)

theorem execCopy_frame (i : Issue) (m : MovSlot) (ecc : Ecc) (s : State) :
    Frames [.csr, .mem, .pwr, .haul, .sch, .gen, .bench, .flt, .rrc, .obs, .sent, .fresh] s (execCopy i m ecc s) := by
  unfold execCopy
  try dsimp only
  repeat' (first
    | with_reducible apply Frame.refl
    | with_reducible assumption
    | with_reducible apply Frames.next
    | with_reducible apply Frames.fault
    | with_reducible apply Frames.refused
    | with_reducible apply Frame.ite
    | with_reducible apply Frames.ite
    | with_reducible apply State.operate_frame
    | with_reducible apply Frame.then_ ?_ (State.putStore_frame ..)
    | with_reducible apply State.reading_frame
    | decide
    | intro y a b c hy
    | intro y a hy
    | intro y hy
    | dsimp only
    | split)

theorem execZfill_frame (i : Issue) (m : MovSlot) (s : State) :
    Frames [.csr, .mem, .pwr, .haul, .sch, .gen, .bench, .flt, .rrc, .obs, .sent, .fresh] s (execZfill i m s) := by
  unfold execZfill
  try dsimp only
  repeat' (first
    | with_reducible apply Frame.refl
    | with_reducible assumption
    | with_reducible apply Frames.next
    | with_reducible apply Frames.fault
    | with_reducible apply Frames.refused
    | with_reducible apply Frame.ite
    | with_reducible apply Frames.ite
    | with_reducible apply State.operate_frame
    | with_reducible apply Frame.then_ ?_ (State.putStore_frame ..)
    | decide
    | intro y a b c hy
    | intro y a hy
    | intro y hy
    | dsimp only
    | split)

theorem execMsnd_frame (i : Issue) (m : MovSlot) (ecc : Ecc) (s : State) :
    Frames [.csr, .pwr, .clk, .haul, .sch, .gen, .bench, .flt, .rrc, .obs, .sent, .fresh] s (execMsnd i m ecc s) := by
  unfold execMsnd
  try dsimp only
  repeat' (first
    | with_reducible apply Frame.refl
    | with_reducible assumption
    | with_reducible apply Frames.next
    | with_reducible apply Frames.fault
    | with_reducible apply Frames.refused
    | with_reducible apply Frame.ite
    | with_reducible apply Frames.ite
    | with_reducible apply State.operate_frame
    | with_reducible apply State.reading_frame
    | with_reducible apply Frame.then_ ?_ (State.setBench_frame ..)
    | decide
    | intro y a b c hy
    | intro y a hy
    | intro y hy
    | dsimp only
    | split
    | (fail_if_no_progress simp only [Frame.mk_eq]; refine Frame.upd ?_))

theorem execMrcv_frame (i : Issue) (m : MovSlot) (s : State) :
    Frames [.csr, .pwr, .haul, .sch, .gen, .bench, .flt, .rrc, .obs, .sent, .fresh] s (execMrcv i m s) := by
  unfold execMrcv
  try dsimp only
  repeat' (first
    | with_reducible apply Frame.refl
    | with_reducible assumption
    | with_reducible apply Frames.next
    | with_reducible apply Frames.fault
    | with_reducible apply Frames.refused
    | with_reducible apply Frame.ite
    | with_reducible apply Frames.ite
    | with_reducible apply State.operate_frame
    | with_reducible apply Frame.then_ ?_ (State.setBench_frame ..)
    | decide
    | intro y a b c hy
    | intro y a hy
    | intro y hy
    | dsimp only
    | split)

theorem execMeshTransferComplete_frame (bench : Fin 792) (route : Fin 256) (s : State) :
    Frames [.csr, .mem, .bench] s (execMeshTransferComplete bench route s) := by
  unfold execMeshTransferComplete
  try dsimp only
  repeat' (first
    | with_reducible apply Frame.refl
    | with_reducible assumption
    | with_reducible apply Frames.next
    | with_reducible apply Frames.fault
    | with_reducible apply Frames.refused
    | with_reducible apply Frame.ite
    | with_reducible apply Frames.ite
    | with_reducible apply Frame.then_ ?_ (State.bumpCounter_frame ..)
    | with_reducible apply Frame.then_ ?_ (State.setBench_frame ..)
    | with_reducible apply Frame.then_ ?_ (State.setStore_frame ..)
    | decide
    | dsimp only
    | split)

theorem State.lateGwin_frame (s : State) (b : Nat) (d : GatherDesc) (late : Nat) :
    Frame [.csr, .clk] s (State.lateGwin s b d late) := by
  unfold State.lateGwin
  try dsimp only
  repeat' (first
    | with_reducible apply Frame.refl
    | with_reducible assumption
    | with_reducible apply Frame.ite
    | with_reducible apply Frame.then_ ?_ (State.inc_frame ..)
    | with_reducible apply Frame.then_ ?_ (State.lateBench_frame ..)
    | with_reducible apply Frame.then_ ?_ (State.wr_frame ..)
    | decide
    | dsimp only
    | split)

theorem execGwin_frame (i : Issue) (m : MovSlot) (s : State) :
    Frames [.csr, .pwr, .clk, .haul, .sch, .gen, .bench, .scr, .flt, .rrc, .obs, .sent, .fresh] s (execGwin i m s) := by
  unfold execGwin
  try dsimp only
  repeat' (first
    | with_reducible apply Frame.refl
    | with_reducible assumption
    | with_reducible apply Frames.next
    | with_reducible apply Frames.fault
    | with_reducible apply Frames.refused
    | with_reducible apply Frame.ite
    | with_reducible apply Frames.ite
    | with_reducible apply Frame.then_ ?_ (State.lateGwin_frame ..)
    | with_reducible apply State.operate_frame
    | with_reducible apply Frame.then_ ?_ (State.setGather_frame ..)
    | decide
    | intro y a b c hy
    | intro y a hy
    | intro y hy
    | dsimp only
    | split
    | (fail_if_no_progress simp only [Frame.mk_eq]; refine Frame.upd ?_))

theorem State.setBusy_frame (s : State) (b : Nat) (page : Nat) (on : Bool) :
    Frame [.csr] s (State.setBusy s b page on) := by
  unfold State.setBusy
  try dsimp only
  repeat' (first
    | with_reducible apply Frame.refl
    | with_reducible assumption
    | with_reducible apply Frame.ite
    | with_reducible apply Frame.then_ ?_ (State.wrAt_frame ..)
    | decide
    | dsimp only
    | split)

theorem execBref_frame (i : Issue) (m : MovSlot) (ecc : Ecc) (s : State) :
    Frames [.csr, .pwr, .haul, .sch, .gen, .bench, .flt, .rrc, .obs, .sent, .fresh] s (execBref i m ecc s) := by
  unfold execBref
  try dsimp only
  repeat' (first
    | with_reducible apply Frame.refl
    | with_reducible assumption
    | with_reducible apply Frames.next
    | with_reducible apply Frames.fault
    | with_reducible apply Frames.refused
    | with_reducible apply Frame.ite
    | with_reducible apply Frames.ite
    | with_reducible apply Frame.then_ ?_ (State.incAt_frame ..)
    | with_reducible apply State.operate_frame
    | with_reducible apply State.reading_frame
    | with_reducible apply Frame.then_ ?_ (State.setBench_frame ..)
    | with_reducible apply Frame.then_ ?_ (State.setBusy_frame ..)
    | decide
    | intro y a b c hy
    | intro y a hy
    | intro y hy
    | dsimp only
    | split)

theorem execBrefDone_frame (bench : Fin 792) (page : Fin 16) (s : State) :
    Frames [.csr, .bench] s (execBrefDone bench page s) := by
  unfold execBrefDone
  try dsimp only
  repeat' (first
    | with_reducible apply Frame.refl
    | with_reducible assumption
    | with_reducible apply Frames.next
    | with_reducible apply Frames.fault
    | with_reducible apply Frames.refused
    | with_reducible apply Frame.ite
    | with_reducible apply Frames.ite
    | with_reducible apply Frame.then_ ?_ (State.setBench_frame ..)
    | with_reducible apply Frame.then_ ?_ (State.setBusy_frame ..)
    | decide
    | dsimp only
    | split)

theorem execBenchScrub_frame (bench : Fin 792) (ecc : Ecc) (s : State) :
    Frames [.csr, .pwr, .haul, .sch, .gen, .scr, .flt, .rrc, .obs, .sent, .fresh] s (execBenchScrub bench ecc s) := by
  unfold execBenchScrub
  try dsimp only
  repeat' (first
    | with_reducible apply Frame.refl
    | with_reducible assumption
    | with_reducible apply Frames.next
    | with_reducible apply Frames.fault
    | with_reducible apply Frames.refused
    | with_reducible apply Frame.ite
    | with_reducible apply Frames.ite
    | with_reducible apply Frame.then_ ?_ (State.incAt_frame ..)
    | with_reducible apply Frame.then_ ?_ (State.readStore_frame ..)
    | (with_reducible apply Frame.then_ ?_ (Frame.of_eq (State.readStore_frame ..) (by assumption)))
    | with_reducible apply Frame.then_ ?_ (State.scrubNext_frame ..)
    | (with_reducible apply Frame.then_ ?_ (Frame.of_eq (State.scrubNext_frame ..) (by assumption)))
    | with_reducible apply Frame.then_ ?_ (State.wrAt_frame ..)
    | decide
    | dsimp only
    | split)

end Sys2Proof.Machine
end

