-- ==== Sys2Proof/Laws/FramePtp.lean ====
section
/-! SUPPORT. One frame lemma for every operation of Machine/Ptp.lean: the parts of the state that it may change. -/

set_option Elab.async false
set_option linter.unusedTactic false
set_option linter.unreachableTactic false

namespace Sys2Proof.Machine

open Sys2Proof

theorem State.setClock_frame (s : State) (n : Nat) (c : PtpPort) :
    Frame [.clocks] s (State.setClock s n c) := by
  unfold State.setClock
  try dsimp only
  repeat' (first
    | with_reducible apply Frame.refl
    | with_reducible assumption
    | with_reducible apply Frame.ite
    | decide
    | dsimp only
    | split
    | (fail_if_no_progress simp only [Frame.mk_eq]; refine Frame.upd ?_))

theorem State.rootHoldover_frame (s : State) (locked : Bool) :
    Frame [.csr, .pwr, .rrc, .obs, .fresh] s (State.rootHoldover s locked) := by
  unfold State.rootHoldover
  try dsimp only
  repeat' (first
    | with_reducible apply Frame.refl
    | with_reducible assumption
    | with_reducible apply Frame.ite
    | with_reducible apply Frame.then_ ?_ (State.notice_frame ..)
    | with_reducible apply Frame.then_ ?_ (State.wr_frame ..)
    | decide
    | dsimp only
    | split)

theorem State.showPtp_frame (s : State) :
    Frame [.csr, .pwr, .ptp, .rrc, .obs, .fresh] s (State.showPtp s) := by
  unfold State.showPtp
  extract_lets v0 v1 v2 v3 v4
  clear_value v0
  clear_value v1
  have h_v2 : Frame [.csr, .pwr, .ptp, .rrc, .obs, .fresh] s v2 := by
    simp only [v2]
    repeat' (first
      | with_reducible apply Frame.refl
      | with_reducible assumption
      | with_reducible apply Frame.ite
      | with_reducible apply Frame.then_ ?_ (State.keepPtp_frame ..)
      | with_reducible apply Frame.then_ ?_ (State.notice_frame ..)
      | with_reducible apply Frame.then_ ?_ (State.rootHoldover_frame ..)
      | with_reducible apply Frame.then_ ?_ (State.showPtpLocked_frame ..)
      | with_reducible apply Frame.then_ ?_ (State.wr_frame ..)
      | decide
      | dsimp only
      | split)
  clear_value v2
  have h_v3 : Frame [.csr, .pwr, .ptp, .rrc, .obs, .fresh] s v3 := by
    simp only [v3]
    repeat' (first
      | with_reducible apply Frame.refl
      | with_reducible assumption
      | with_reducible apply Frame.ite
      | with_reducible apply Frame.then_ ?_ (State.keepPtp_frame ..)
      | with_reducible apply Frame.then_ ?_ (State.notice_frame ..)
      | with_reducible apply Frame.then_ ?_ (State.rootHoldover_frame ..)
      | with_reducible apply Frame.then_ ?_ (State.showPtpLocked_frame ..)
      | with_reducible apply Frame.then_ ?_ (State.wr_frame ..)
      | decide
      | dsimp only
      | split)
  clear_value v3
  have h_v4 : Frame [.csr, .pwr, .ptp, .rrc, .obs, .fresh] s v4 := by
    simp only [v4]
    repeat' (first
      | with_reducible apply Frame.refl
      | with_reducible assumption
      | with_reducible apply Frame.ite
      | with_reducible apply Frame.then_ ?_ (State.keepPtp_frame ..)
      | with_reducible apply Frame.then_ ?_ (State.notice_frame ..)
      | with_reducible apply Frame.then_ ?_ (State.rootHoldover_frame ..)
      | with_reducible apply Frame.then_ ?_ (State.showPtpLocked_frame ..)
      | with_reducible apply Frame.then_ ?_ (State.wr_frame ..)
      | decide
      | dsimp only
      | split)
  clear_value v4
  repeat' (first
    | with_reducible apply Frame.refl
    | with_reducible assumption
    | with_reducible apply Frame.ite
    | with_reducible apply Frame.then_ ?_ (State.keepPtp_frame ..)
    | with_reducible apply Frame.then_ ?_ (State.notice_frame ..)
    | with_reducible apply Frame.then_ ?_ (State.rootHoldover_frame ..)
    | with_reducible apply Frame.then_ ?_ (State.showPtpLocked_frame ..)
    | with_reducible apply Frame.then_ ?_ (State.wr_frame ..)
    | decide
    | dsimp only
    | split)

theorem State.unlock_frame (s : State) (n : Nat) (state : Nat) :
    Frame [.csr, .pwr, .ptp, .clocks, .rrc, .obs, .fresh] s (State.unlock s n state) := by
  unfold State.unlock
  try dsimp only
  repeat' (first
    | with_reducible apply Frame.refl
    | with_reducible assumption
    | with_reducible apply Frame.ite
    | with_reducible apply Frame.then_ ?_ (State.setClock_frame ..)
    | with_reducible apply Frame.then_ ?_ (State.showPtp_frame ..)
    | with_reducible apply Frame.then_ ?_ (State.wrAt_frame ..)
    | decide
    | dsimp only
    | split)

theorem State.ptpRate_frame (s : State) (off : Int) :
    Frame [.csr, .tal, .ptp, .fresh] s (State.ptpRate s off) := by
  unfold State.ptpRate
  try dsimp only
  repeat' (first
    | with_reducible apply Frame.refl
    | with_reducible assumption
    | with_reducible apply Frame.ite
    | with_reducible apply Frame.then_ ?_ (State.correctRate_frame ..)
    | with_reducible apply Frame.then_ ?_ (State.drawn_frame ..)
    | with_reducible apply Frame.then_ ?_ (State.keepPtp_frame ..)
    | with_reducible apply Frame.then_ ?_ (State.wr_frame ..)
    | decide
    | dsimp only
    | split)

theorem State.ptpStep_frame (s : State) (n : Nat) (off : Int) :
    Frame [.csr, .pwr, .ptp, .rrc, .obs, .fresh] s (State.ptpStep s n off) := by
  unfold State.ptpStep
  extract_lets v0 v1 v2
  have h_v0 : Frame [.csr, .pwr, .ptp, .rrc, .obs, .fresh] s v0 := by
    simp only [v0]
    repeat' (first
      | with_reducible apply Frame.refl
      | with_reducible assumption
      | with_reducible apply Frame.ite
      | with_reducible apply Frame.then_ ?_ (State.inc_frame ..)
      | with_reducible apply Frame.then_ ?_ (State.keepPtp_frame ..)
      | with_reducible apply Frame.then_ ?_ (State.notice_frame ..)
      | decide
      | dsimp only
      | split
      | (fail_if_no_progress simp only [Frame.mk_eq]; refine Frame.upd ?_))
  clear_value v0
  clear_value v1
  have h_v2 : Frame [.csr, .pwr, .ptp, .rrc, .obs, .fresh] s v2 := by
    simp only [v2]
    repeat' (first
      | with_reducible apply Frame.refl
      | with_reducible assumption
      | with_reducible apply Frame.ite
      | with_reducible apply Frame.then_ ?_ (State.inc_frame ..)
      | with_reducible apply Frame.then_ ?_ (State.keepPtp_frame ..)
      | with_reducible apply Frame.then_ ?_ (State.notice_frame ..)
      | decide
      | dsimp only
      | split
      | (fail_if_no_progress simp only [Frame.mk_eq]; refine Frame.upd ?_))
  clear_value v2
  repeat' (first
    | with_reducible apply Frame.refl
    | with_reducible assumption
    | with_reducible apply Frame.ite
    | with_reducible apply Frame.then_ ?_ (State.inc_frame ..)
    | with_reducible apply Frame.then_ ?_ (State.keepPtp_frame ..)
    | with_reducible apply Frame.then_ ?_ (State.notice_frame ..)
    | decide
    | dsimp only
    | split
    | (fail_if_no_progress simp only [Frame.mk_eq]; refine Frame.upd ?_))

theorem State.takeSync_frame (s : State) (n : Nat) (origin : Int) (corr : Int) (rx : Int) :
    Frame [.csr, .pwr, .tal, .ptp, .clocks, .rrc, .obs, .fresh] s (State.takeSync s n origin corr rx) := by
  unfold State.takeSync
  extract_lets v0 v1 v2 v3 v4 v5 v6 v7 v8
  clear_value v0
  clear_value v1
  clear_value v2
  clear_value v3
  have h_v4 : Frame [.csr, .pwr, .tal, .ptp, .clocks, .rrc, .obs, .fresh] s v4 := by
    simp only [v4]
    repeat' (first
      | with_reducible apply Frame.refl
      | with_reducible assumption
      | with_reducible apply Frame.ite
      | with_reducible apply Frame.then_ ?_ (State.ptpRate_frame ..)
      | with_reducible apply Frame.then_ ?_ (State.ptpStep_frame ..)
      | with_reducible apply Frame.then_ ?_ (State.setClock_frame ..)
      | with_reducible apply Frame.then_ ?_ (State.showPtp_frame ..)
      | with_reducible apply Frame.then_ ?_ (State.unlock_frame ..)
      | with_reducible apply Frame.then_ ?_ (State.wrAt_frame ..)
      | decide
      | dsimp only
      | split)
  clear_value v4
  clear_value v5
  have h_v6 : Frame [.csr, .pwr, .tal, .ptp, .clocks, .rrc, .obs, .fresh] s v6 := by
    simp only [v6]
    repeat' (first
      | with_reducible apply Frame.refl
      | with_reducible assumption
      | with_reducible apply Frame.ite
      | with_reducible apply Frame.then_ ?_ (State.ptpRate_frame ..)
      | with_reducible apply Frame.then_ ?_ (State.ptpStep_frame ..)
      | with_reducible apply Frame.then_ ?_ (State.setClock_frame ..)
      | with_reducible apply Frame.then_ ?_ (State.showPtp_frame ..)
      | with_reducible apply Frame.then_ ?_ (State.unlock_frame ..)
      | with_reducible apply Frame.then_ ?_ (State.wrAt_frame ..)
      | decide
      | dsimp only
      | split)
  clear_value v6
  have h_v7 : Frame [.csr, .pwr, .tal, .ptp, .clocks, .rrc, .obs, .fresh] s v7 := by
    simp only [v7]
    repeat' (first
      | with_reducible apply Frame.refl
      | with_reducible assumption
      | with_reducible apply Frame.ite
      | with_reducible apply Frame.then_ ?_ (State.ptpRate_frame ..)
      | with_reducible apply Frame.then_ ?_ (State.ptpStep_frame ..)
      | with_reducible apply Frame.then_ ?_ (State.setClock_frame ..)
      | with_reducible apply Frame.then_ ?_ (State.showPtp_frame ..)
      | with_reducible apply Frame.then_ ?_ (State.unlock_frame ..)
      | with_reducible apply Frame.then_ ?_ (State.wrAt_frame ..)
      | decide
      | dsimp only
      | split)
  clear_value v7
  clear_value v8
  repeat' (first
    | with_reducible apply Frame.refl
    | with_reducible assumption
    | with_reducible apply Frame.ite
    | with_reducible apply Frame.then_ ?_ (State.ptpRate_frame ..)
    | with_reducible apply Frame.then_ ?_ (State.ptpStep_frame ..)
    | with_reducible apply Frame.then_ ?_ (State.setClock_frame ..)
    | with_reducible apply Frame.then_ ?_ (State.showPtp_frame ..)
    | with_reducible apply Frame.then_ ?_ (State.unlock_frame ..)
    | with_reducible apply Frame.then_ ?_ (State.wrAt_frame ..)
    | decide
    | dsimp only
    | split)

theorem State.ptpDiscard_frame (s : State) (n : Nat) :
    Frame [.csr] s (State.ptpDiscard s n) := by
  unfold State.ptpDiscard
  try dsimp only
  repeat' (first
    | with_reducible apply Frame.refl
    | with_reducible assumption
    | with_reducible apply Frame.ite
    | with_reducible apply Frame.then_ ?_ (State.incAt_frame ..)
    | decide
    | dsimp only
    | split)

theorem State.ptpReceived_frame {P : List Part} {s0 : State} (s : State) (n : Nat) (types : List Nat) (b : List Byte)
    (f : PtpMsg → State) (hP : [.csr] ⊆ P) (h0 : Frame P s0 s) (hf : ∀ m, Frame P s0 (f m)) :
    Frames P s0 (s.ptpReceived n types b f) := by
  have drop := h0.then_ (State.ptpDiscard_frame s n) hP
  unfold State.ptpReceived
  repeat' split
  · exact .next h0
  · exact .next drop
  · exact .next (hf _)
  · exact .next drop

theorem State.sendPtp_frame (s : State) (n : Nat) (m : PtpMsg) :
    Frame [.sent] s (State.sendPtp s n m) := by
  unfold State.sendPtp
  try dsimp only
  repeat' (first
    | with_reducible apply Frame.refl
    | with_reducible assumption
    | with_reducible apply Frame.ite
    | with_reducible apply Frame.then_ ?_ (State.emit_frame ..)
    | decide
    | dsimp only
    | split)

theorem State.syncCame_frame (s : State) (n : Nat) (m : PtpMsg) (rx : Int) :
    Frame [.csr, .pwr, .tal, .ptp, .clocks, .rrc, .obs, .fresh] s (State.syncCame s n m rx) := by
  unfold State.syncCame
  try dsimp only
  repeat' (first
    | with_reducible apply Frame.refl
    | with_reducible assumption
    | with_reducible apply Frame.ite
    | with_reducible apply Frame.then_ ?_ (State.setClock_frame ..)
    | with_reducible apply Frame.then_ ?_ (State.takeSync_frame ..)
    | decide
    | dsimp only
    | split)

theorem State.followUpCame_frame (s : State) (n : Nat) (m : PtpMsg) :
    Frame [.csr, .pwr, .tal, .ptp, .clocks, .rrc, .obs, .fresh] s (State.followUpCame s n m) := by
  unfold State.followUpCame
  try dsimp only
  repeat' (first
    | with_reducible apply Frame.refl
    | with_reducible assumption
    | with_reducible apply Frame.ite
    | with_reducible apply Frame.then_ ?_ (State.setClock_frame ..)
    | with_reducible apply Frame.then_ ?_ (State.takeSync_frame ..)
    | decide
    | dsimp only
    | split)

theorem execPtpSyncReceived_frame (port : Fin 2) (bytes : List Byte) (sixteenth : Fin 16) (s : State) :
    Frames [.csr, .pwr, .tal, .ptp, .clocks, .rrc, .obs, .fresh] s (execPtpSyncReceived port bytes sixteenth s) := by
  unfold execPtpSyncReceived
  try dsimp only
  repeat' (first
    | with_reducible apply Frame.refl
    | with_reducible assumption
    | with_reducible apply Frames.next
    | with_reducible apply Frames.fault
    | with_reducible apply Frames.refused
    | with_reducible apply Frame.ite
    | with_reducible apply Frames.ite
    | with_reducible apply Frame.then_ ?_ (State.followUpCame_frame ..)
    | with_reducible apply Frame.then_ ?_ (State.incAt_frame ..)
    | with_reducible apply State.ptpReceived_frame
    | with_reducible apply Frame.then_ ?_ (State.syncCame_frame ..)
    | decide
    | intro y a b c hy
    | intro y a hy
    | intro y hy
    | intro m
    | dsimp only
    | split)

theorem State.selectMaster_frame (s : State) (n : Nat) (f : Foreign) :
    Frame [.csr, .pwr, .ptp, .clocks, .rrc, .obs, .fresh] s (State.selectMaster s n f) := by
  unfold State.selectMaster
  extract_lets v0 v1 v2
  have h_v0 : Frame [.csr, .pwr, .ptp, .clocks, .rrc, .obs, .fresh] s v0 := by
    simp only [v0]
    repeat' (first
      | with_reducible apply Frame.refl
      | with_reducible assumption
      | with_reducible apply Frame.ite
      | with_reducible apply Frame.then_ ?_ (State.setClock_frame ..)
      | with_reducible apply Frame.then_ ?_ (State.showPtp_frame ..)
      | with_reducible apply Frame.then_ ?_ (State.wrAt_frame ..)
      | decide
      | dsimp only
      | split)
  clear_value v0
  have h_v1 : Frame [.csr, .pwr, .ptp, .clocks, .rrc, .obs, .fresh] s v1 := by
    simp only [v1]
    repeat' (first
      | with_reducible apply Frame.refl
      | with_reducible assumption
      | with_reducible apply Frame.ite
      | with_reducible apply Frame.then_ ?_ (State.setClock_frame ..)
      | with_reducible apply Frame.then_ ?_ (State.showPtp_frame ..)
      | with_reducible apply Frame.then_ ?_ (State.wrAt_frame ..)
      | decide
      | dsimp only
      | split)
  clear_value v1
  clear_value v2
  repeat' (first
    | with_reducible apply Frame.refl
    | with_reducible assumption
    | with_reducible apply Frame.ite
    | with_reducible apply Frame.then_ ?_ (State.setClock_frame ..)
    | with_reducible apply Frame.then_ ?_ (State.showPtp_frame ..)
    | with_reducible apply Frame.then_ ?_ (State.wrAt_frame ..)
    | decide
    | dsimp only
    | split)

theorem execPtpAnnounceReceived_frame (port : Fin 2) (bytes : List Byte) (s : State) :
    Frames [.csr, .pwr, .ptp, .clocks, .rrc, .obs, .fresh] s (execPtpAnnounceReceived port bytes s) := by
  unfold execPtpAnnounceReceived
  try dsimp only
  repeat' (first
    | with_reducible apply Frame.refl
    | with_reducible assumption
    | with_reducible apply Frames.next
    | with_reducible apply Frames.fault
    | with_reducible apply Frames.refused
    | with_reducible apply Frame.ite
    | with_reducible apply Frames.ite
    | with_reducible apply Frame.then_ ?_ (State.incAt_frame ..)
    | with_reducible apply State.ptpReceived_frame
    | with_reducible apply Frame.then_ ?_ (State.selectMaster_frame ..)
    | with_reducible apply Frame.then_ ?_ (State.setClock_frame ..)
    | decide
    | intro y a b c hy
    | intro y a hy
    | intro y hy
    | intro m
    | dsimp only
    | split)

theorem execPtpDelayRespReceived_frame (port : Fin 2) (bytes : List Byte) (s : State) :
    Frames [.csr, .clocks] s (execPtpDelayRespReceived port bytes s) := by
  unfold execPtpDelayRespReceived
  try dsimp only
  repeat' (first
    | with_reducible apply Frame.refl
    | with_reducible assumption
    | with_reducible apply Frames.next
    | with_reducible apply Frames.fault
    | with_reducible apply Frames.refused
    | with_reducible apply Frame.ite
    | with_reducible apply Frames.ite
    | with_reducible apply State.ptpReceived_frame
    | with_reducible apply Frame.then_ ?_ (State.setClock_frame ..)
    | with_reducible apply Frame.then_ ?_ (State.wrAt_frame ..)
    | decide
    | intro y a b c hy
    | intro y a hy
    | intro y hy
    | intro m
    | dsimp only
    | split)

theorem execPtpPdelayReqReceived_frame (port : Fin 2) (bytes : List Byte) (turnaround : Int) (s : State) :
    Frames [.csr, .sent] s (execPtpPdelayReqReceived port bytes turnaround s) := by
  unfold execPtpPdelayReqReceived
  try dsimp only
  repeat' (first
    | with_reducible apply Frame.refl
    | with_reducible assumption
    | with_reducible apply Frames.next
    | with_reducible apply Frames.fault
    | with_reducible apply Frames.refused
    | with_reducible apply Frame.ite
    | with_reducible apply Frames.ite
    | with_reducible apply State.ptpReceived_frame
    | with_reducible apply Frame.then_ ?_ (State.sendPtp_frame ..)
    | decide
    | intro y a b c hy
    | intro y a hy
    | intro y hy
    | intro m
    | dsimp only
    | split)

theorem State.peerDelay_frame (s : State) (n : Nat) (rx : Int) (t1 : Int) (turnaround : Int) (corr : Int) :
    Frame [.csr, .clocks] s (State.peerDelay s n rx t1 turnaround corr) := by
  unfold State.peerDelay
  try dsimp only
  repeat' (first
    | with_reducible apply Frame.refl
    | with_reducible assumption
    | with_reducible apply Frame.ite
    | with_reducible apply Frame.then_ ?_ (State.setClock_frame ..)
    | with_reducible apply Frame.then_ ?_ (State.wrAt_frame ..)
    | decide
    | dsimp only
    | split)

theorem execPtpPdelayRespReceived_frame (port : Fin 2) (bytes : List Byte) (sixteenth : Fin 16) (s : State) :
    Frames [.csr, .clocks] s (execPtpPdelayRespReceived port bytes sixteenth s) := by
  unfold execPtpPdelayRespReceived
  try dsimp only
  repeat' (first
    | with_reducible apply Frame.refl
    | with_reducible assumption
    | with_reducible apply Frames.next
    | with_reducible apply Frames.fault
    | with_reducible apply Frames.refused
    | with_reducible apply Frame.ite
    | with_reducible apply Frames.ite
    | with_reducible apply Frame.then_ ?_ (State.peerDelay_frame ..)
    | with_reducible apply State.ptpReceived_frame
    | with_reducible apply Frame.then_ ?_ (State.setClock_frame ..)
    | decide
    | intro y a b c hy
    | intro y a hy
    | intro y hy
    | intro m
    | dsimp only
    | split)

theorem execPtpDelayReqSend_frame (port : Fin 2) (sixteenth : Fin 16) (s : State) :
    Frames [.csr, .clocks, .sent] s (execPtpDelayReqSend port sixteenth s) := by
  unfold execPtpDelayReqSend
  try dsimp only
  repeat' (first
    | with_reducible apply Frame.refl
    | with_reducible assumption
    | with_reducible apply Frames.next
    | with_reducible apply Frames.fault
    | with_reducible apply Frames.refused
    | with_reducible apply Frame.ite
    | with_reducible apply Frames.ite
    | with_reducible apply Frame.then_ ?_ (State.incAt_frame ..)
    | with_reducible apply Frame.then_ ?_ (State.sendPtp_frame ..)
    | with_reducible apply Frame.then_ ?_ (State.setClock_frame ..)
    | decide
    | dsimp only
    | split)

theorem execPtpAnnounceTimeout_frame (port : Fin 2) (s : State) :
    Frames [.csr, .pwr, .ptp, .clocks, .rrc, .obs, .fresh] s (execPtpAnnounceTimeout port s) := by
  unfold execPtpAnnounceTimeout
  try dsimp only
  repeat' (first
    | with_reducible apply Frame.refl
    | with_reducible assumption
    | with_reducible apply Frames.next
    | with_reducible apply Frames.fault
    | with_reducible apply Frames.refused
    | with_reducible apply Frame.ite
    | with_reducible apply Frames.ite
    | with_reducible apply Frame.then_ ?_ (State.setClock_frame ..)
    | with_reducible apply Frame.then_ ?_ (State.unlock_frame ..)
    | with_reducible apply Frame.then_ ?_ (State.wrAt_frame ..)
    | decide
    | dsimp only
    | split)

end Sys2Proof.Machine
end

