-- ==== Sys2Proof/Laws/FrameRelease.lean ====
section
/-! SUPPORT. One frame lemma for every operation of Machine/Release.lean: the parts of the state that it may change. -/

set_option Elab.async false
set_option linter.unusedTactic false
set_option linter.unreachableTactic false

namespace Sys2Proof.Machine

open Sys2Proof

theorem State.sendNext_frame (s : State) (e : IntakeEntry) (w : WindowRec) (port : Nat) :
    Frame [.csr, .itk, .sent] s (State.sendNext s e w port).1 := by
  unfold State.sendNext
  try dsimp only
  repeat' (first
    | with_reducible apply Frame.refl
    | with_reducible assumption
    | with_reducible apply Frame.ite
    | with_reducible apply Frame.then_ ?_ (State.count_frame ..)
    | with_reducible apply Frame.then_ ?_ (State.sendFrame_frame ..)
    | decide
    | dsimp only
    | split)

theorem State.release_frame (s : State) (e : IntakeEntry) (r : IntakeRun) (w : WindowRec) :
    Frame [.csr, .mem, .haul, .sch, .gen, .itk, .fst, .obs, .sent, .fresh] s (State.release s e r w) := by
  unfold State.release
  extract_lets v0 v1 v2 v3 v4 v5 v6 v7 v8 v9
  clear_value v0
  have h_v1 : Frame [.csr, .mem, .haul, .sch, .gen, .itk, .fst, .obs, .sent, .fresh] s v1 := by
    simp only [v1]
    repeat' (first
      | with_reducible apply Frame.refl
      | with_reducible assumption
      | with_reducible apply Frame.ite
      | with_reducible apply Frame.then_ ?_ (State.batchDone_frame ..)
      | with_reducible apply Frame.then_ ?_ (State.count_frame ..)
      | with_reducible apply Frame.then_ ?_ (State.putWindow_frame ..)
      | with_reducible apply Frame.then_ ?_ (State.ringReply_frame ..)
      | with_reducible apply Frame.then_ ?_ (State.sendNext_frame ..)
      | (with_reducible apply Frame.then_ ?_ (Frame.of_eq (State.sendNext_frame ..) (by assumption)))
      | with_reducible apply Frame.then_ ?_ (State.trace_frame ..)
      | decide
      | with_reducible apply Frame.foldl_fst
      | with_reducible apply Frame.foldl
      | intro y a b c hy
      | intro y a hy
      | intro y hy
      | dsimp only
      | split)
  clear_value v1
  clear_value v2
  clear_value v3
  clear_value v4
  clear_value v5
  clear_value v6
  have h_v7 : Frame [.csr, .mem, .haul, .sch, .gen, .itk, .fst, .obs, .sent, .fresh] s v7 := by
    simp only [v7]
    repeat' (first
      | with_reducible apply Frame.refl
      | with_reducible assumption
      | with_reducible apply Frame.ite
      | with_reducible apply Frame.then_ ?_ (State.batchDone_frame ..)
      | with_reducible apply Frame.then_ ?_ (State.count_frame ..)
      | with_reducible apply Frame.then_ ?_ (State.putWindow_frame ..)
      | with_reducible apply Frame.then_ ?_ (State.ringReply_frame ..)
      | with_reducible apply Frame.then_ ?_ (State.sendNext_frame ..)
      | (with_reducible apply Frame.then_ ?_ (Frame.of_eq (State.sendNext_frame ..) (by assumption)))
      | with_reducible apply Frame.then_ ?_ (State.trace_frame ..)
      | decide
      | with_reducible apply Frame.foldl_fst
      | with_reducible apply Frame.foldl
      | intro y a b c hy
      | intro y a hy
      | intro y hy
      | dsimp only
      | split)
  clear_value v7
  have h_v8 : Frame [.csr, .mem, .haul, .sch, .gen, .itk, .fst, .obs, .sent, .fresh] s v8 := by
    simp only [v8]
    repeat' (first
      | with_reducible apply Frame.refl
      | with_reducible assumption
      | with_reducible apply Frame.ite
      | with_reducible apply Frame.then_ ?_ (State.batchDone_frame ..)
      | with_reducible apply Frame.then_ ?_ (State.count_frame ..)
      | with_reducible apply Frame.then_ ?_ (State.putWindow_frame ..)
      | with_reducible apply Frame.then_ ?_ (State.ringReply_frame ..)
      | with_reducible apply Frame.then_ ?_ (State.sendNext_frame ..)
      | (with_reducible apply Frame.then_ ?_ (Frame.of_eq (State.sendNext_frame ..) (by assumption)))
      | with_reducible apply Frame.then_ ?_ (State.trace_frame ..)
      | decide
      | with_reducible apply Frame.foldl_fst
      | with_reducible apply Frame.foldl
      | intro y a b c hy
      | intro y a hy
      | intro y hy
      | dsimp only
      | split)
  clear_value v8
  have h_v9 : Frame [.csr, .mem, .haul, .sch, .gen, .itk, .fst, .obs, .sent, .fresh] s v9 := by
    simp only [v9]
    repeat' (first
      | with_reducible apply Frame.refl
      | with_reducible assumption
      | with_reducible apply Frame.ite
      | with_reducible apply Frame.then_ ?_ (State.batchDone_frame ..)
      | with_reducible apply Frame.then_ ?_ (State.count_frame ..)
      | with_reducible apply Frame.then_ ?_ (State.putWindow_frame ..)
      | with_reducible apply Frame.then_ ?_ (State.ringReply_frame ..)
      | with_reducible apply Frame.then_ ?_ (State.sendNext_frame ..)
      | (with_reducible apply Frame.then_ ?_ (Frame.of_eq (State.sendNext_frame ..) (by assumption)))
      | with_reducible apply Frame.then_ ?_ (State.trace_frame ..)
      | decide
      | with_reducible apply Frame.foldl_fst
      | with_reducible apply Frame.foldl
      | intro y a b c hy
      | intro y a hy
      | intro y hy
      | dsimp only
      | split)
  clear_value v9
  repeat' (first
    | with_reducible apply Frame.refl
    | with_reducible assumption
    | with_reducible apply Frame.ite
    | with_reducible apply Frame.then_ ?_ (State.batchDone_frame ..)
    | with_reducible apply Frame.then_ ?_ (State.count_frame ..)
    | with_reducible apply Frame.then_ ?_ (State.putWindow_frame ..)
    | with_reducible apply Frame.then_ ?_ (State.ringReply_frame ..)
    | with_reducible apply Frame.then_ ?_ (State.sendNext_frame ..)
    | (with_reducible apply Frame.then_ ?_ (Frame.of_eq (State.sendNext_frame ..) (by assumption)))
    | with_reducible apply Frame.then_ ?_ (State.trace_frame ..)
    | decide
    | with_reducible apply Frame.foldl_fst
    | with_reducible apply Frame.foldl
    | intro y a b c hy
    | intro y a hy
    | intro y hy
    | dsimp only
    | split)

theorem execTimedRelease_frame (ctx : Fin 16) (s : State) :
Frames [.csr, .mem, .pwr, .haul, .sch, .gen, .wgt, .scr, .itk, .twn, .fst, .flt, .rrc, .obs, .sent, .fresh] s
      (execTimedRelease ctx s) := by
  unfold execTimedRelease
  try dsimp only
  repeat' (first
    | with_reducible apply Frame.refl
    | with_reducible assumption
    | with_reducible apply Frames.next
    | with_reducible apply Frames.fault
    | with_reducible apply Frames.refused
    | with_reducible apply Frame.ite
    | with_reducible apply Frames.ite
    | with_reducible apply Frame.then_ ?_ (State.readSpans_frame ..)
    | (with_reducible apply Frame.then_ ?_ (Frame.of_eq (State.readSpans_frame ..) (by assumption)))
    | with_reducible apply Frame.then_ ?_ (State.release_frame ..)
    | with_reducible apply Frame.then_ ?_ (State.tagRoom_frame ..)
    | with_reducible apply Frame.then_ ?_ (State.twinCheckFailed_frame ..)
    | decide
    | dsimp only
    | split)

theorem execResponseFrameSend_frame (ctx : Fin 16) (port : Fin 2) (s : State) :
Frames [.csr, .mem, .pwr, .haul, .sch, .gen, .wgt, .scr, .itk, .flt, .rrc, .obs, .sent, .fresh] s
      (execResponseFrameSend ctx port s) := by
  unfold execResponseFrameSend
  try dsimp only
  repeat' (first
    | with_reducible apply Frame.refl
    | with_reducible assumption
    | with_reducible apply Frames.next
    | with_reducible apply Frames.fault
    | with_reducible apply Frames.refused
    | with_reducible apply Frame.ite
    | with_reducible apply Frames.ite
    | with_reducible apply Frame.then_ ?_ (State.putWindow_frame ..)
    | with_reducible apply Frame.then_ ?_ (State.readSpans_frame ..)
    | (with_reducible apply Frame.then_ ?_ (Frame.of_eq (State.readSpans_frame ..) (by assumption)))
    | with_reducible apply Frame.then_ ?_ (State.sendNext_frame ..)
    | (with_reducible apply Frame.then_ ?_ (Frame.of_eq (State.sendNext_frame ..) (by assumption)))
    | decide
    | dsimp only
    | split)

end Sys2Proof.Machine
end

