-- ==== Sys2Proof/Laws/FrameTick.lean ====
section
/-! SUPPORT. One frame lemma for every operation of Machine/Tick.lean: the parts of the state that it may change. -/

set_option Elab.async false
set_option linter.unusedTactic false
set_option linter.unreachableTactic false

namespace Sys2Proof.Machine

open Sys2Proof

theorem State.tickStarts_frame (s : State) :
    Frame [.csr, .olc] s (State.tickStarts s) := by
  unfold State.tickStarts
  try dsimp only
  repeat' (first
    | with_reducible apply Frame.refl
    | with_reducible assumption
    | with_reducible apply Frame.ite
    | decide
    | dsimp only
    | split
    | (fail_if_no_progress simp only [Frame.mk_eq]; refine Frame.upd ?_))

theorem State.oneTick_frame (s : State) :
    Frame [.csr, .mem, .pwr, .clk, .ptp, .haul, .sch, .olc, .bench, .scr, .obs, .sent, .fresh] s (State.oneTick s) := by
  unfold State.oneTick
  try dsimp only
  repeat' (first
    | with_reducible apply Frame.refl
    | with_reducible assumption
    | with_reducible apply Frame.ite
    | with_reducible apply Frame.then_ ?_ (State.tick_frame ..)
    | with_reducible apply Frame.then_ ?_ (State.tickLeases_frame ..)
    | with_reducible apply Frame.then_ ?_ (State.tickLinks_frame ..)
    | with_reducible apply Frame.then_ ?_ (State.tickMesh_frame ..)
    | with_reducible apply Frame.then_ ?_ (State.tickQueues_frame ..)
    | with_reducible apply Frame.then_ ?_ (State.tickSends_frame ..)
    | with_reducible apply Frame.then_ ?_ (State.tickStarts_frame ..)
    | decide
    | dsimp only
    | split)

end Sys2Proof.Machine
end

