-- ==== Sys2Proof/Laws/FrameTiers.lean ====
section
/-! SUPPORT. One frame lemma for every operation of Machine/Tiers.lean: the parts of the state that it may change. -/

set_option Elab.async false
set_option linter.unusedTactic false
set_option linter.unreachableTactic false

namespace Sys2Proof.Machine

open Sys2Proof

theorem execGatherWindowComplete_frame (index : Nat) (counter : Fin 64) (_ecc : MemEcc) (s : State) :
Frames [.csr, .mem, .haul, .bench, .scr, .itk, .twn, .obs, .sent, .fresh] s (execGatherWindowComplete index counter
      _ecc s) := by
  unfold execGatherWindowComplete
  try dsimp only
  repeat' (first
    | with_reducible apply Frame.refl
    | with_reducible assumption
    | with_reducible apply Frames.next
    | with_reducible apply Frames.fault
    | with_reducible apply Frames.refused
    | with_reducible apply Frame.ite
    | with_reducible apply Frames.ite
    | with_reducible apply Frame.then_ ?_ (State.bumpCounter_frame ..)
    | with_reducible apply Frame.then_ ?_ (State.endWindow_frame ..)
    | with_reducible apply Frame.then_ ?_ (State.inc_frame ..)
    | with_reducible apply Frame.then_ ?_ (State.setGather_frame ..)
    | with_reducible apply Frame.then_ ?_ (State.trace_frame ..)
    | decide
    | dsimp only
    | split)

theorem execGatherEarlyEnd_frame (index : Nat) (_ecc : MemEcc) (s : State) :
    Frames [.csr, .mem, .clk, .bench, .scr] s (execGatherEarlyEnd index _ecc s) := by
  unfold execGatherEarlyEnd
  try dsimp only
  repeat' (first
    | with_reducible apply Frame.refl
    | with_reducible assumption
    | with_reducible apply Frames.next
    | with_reducible apply Frames.fault
    | with_reducible apply Frames.refused
    | with_reducible apply Frame.ite
    | with_reducible apply Frames.ite
    | with_reducible apply Frame.then_ ?_ (State.choice_frame ..)
    | with_reducible apply Frame.then_ ?_ (State.earlyData_frame ..)
    | with_reducible apply Frame.then_ ?_ (State.setGather_frame ..)
    | decide
    | dsimp only
    | split)

theorem execServiceAccess_frame (write : Bool) (addr : Nat) (length : Nat) (data : List Byte) (ecc : MemEcc) (s :
      State) :
Frames [.csr, .mem, .pwr, .haul, .sch, .gen, .scr, .flt, .rrc, .obs, .sent, .fresh] s (execServiceAccess write addr
      length data ecc s) := by
  unfold execServiceAccess
  try dsimp only
  repeat' (first
    | with_reducible apply Frame.refl
    | with_reducible assumption
    | with_reducible apply Frames.next
    | with_reducible apply Frames.fault
    | with_reducible apply Frames.refused
    | with_reducible apply Frame.ite
    | with_reducible apply Frames.ite
    | with_reducible apply Frame.then_ ?_ (State.access_frame ..)
    | decide
    | dsimp only
    | split)

theorem execRefreshDue_frame (ddr : Bool) (unit : Fin 20) (s : State) :
    Frames [.scr] s (execRefreshDue ddr unit s) := by
  unfold execRefreshDue
  try dsimp only
  repeat' (first
    | with_reducible apply Frame.refl
    | with_reducible assumption
    | with_reducible apply Frames.next
    | with_reducible apply Frames.fault
    | with_reducible apply Frames.refused
    | with_reducible apply Frame.ite
    | with_reducible apply Frames.ite
    | with_reducible apply Frame.then_ ?_ (State.serveRefresh_frame ..)
    | decide
    | dsimp only
    | split)

theorem State.tempRules_frame (s : State) (source : Nat) (unit : Nat) (key : Nat) (celsius : Nat) (warn : Nat)
      (limit : Bool) (evWarn : Field) (evLimit : Field) :
Frame [.csr, .pwr, .scr, .rrc, .obs, .fresh] s (State.tempRules s source unit key celsius warn limit evWarn evLimit) := by
  unfold State.tempRules
  extract_lets v0 v1 v2 v3
  clear_value v0
  have h_v1 : Frame [.csr, .pwr, .scr, .rrc, .obs, .fresh] s v1 := by
    simp only [v1]
    repeat' (first
      | with_reducible apply Frame.refl
      | with_reducible assumption
      | with_reducible apply Frame.ite
      | with_reducible apply Frame.then_ ?_ (State.fault_frame ..)
      | with_reducible apply Frame.then_ ?_ (State.notice_frame ..)
      | with_reducible apply Frame.then_ ?_ (State.wr_frame ..)
      | decide
      | dsimp only
      | split
      | (fail_if_no_progress simp only [Frame.mk_eq]; refine Frame.upd ?_))
  clear_value v1
  clear_value v2
  have h_v3 : Frame [.csr, .pwr, .scr, .rrc, .obs, .fresh] s v3 := by
    simp only [v3]
    repeat' (first
      | with_reducible apply Frame.refl
      | with_reducible assumption
      | with_reducible apply Frame.ite
      | with_reducible apply Frame.then_ ?_ (State.fault_frame ..)
      | with_reducible apply Frame.then_ ?_ (State.notice_frame ..)
      | with_reducible apply Frame.then_ ?_ (State.wr_frame ..)
      | decide
      | dsimp only
      | split
      | (fail_if_no_progress simp only [Frame.mk_eq]; refine Frame.upd ?_))
  clear_value v3
  repeat' (first
    | with_reducible apply Frame.refl
    | with_reducible assumption
    | with_reducible apply Frame.ite
    | with_reducible apply Frame.then_ ?_ (State.fault_frame ..)
    | with_reducible apply Frame.then_ ?_ (State.notice_frame ..)
    | with_reducible apply Frame.then_ ?_ (State.wr_frame ..)
    | decide
    | dsimp only
    | split
    | (fail_if_no_progress simp only [Frame.mk_eq]; refine Frame.upd ?_))

theorem State.stackTemp_frame (s : State) (u : Nat) (t : Nat) :
    Frame [.csr, .pwr, .scr, .rrc, .obs, .fresh] s (State.stackTemp s u t) := by
  unfold State.stackTemp
  extract_lets v0 v1 v2 v3 v4 v5 v6
  clear_value v0
  clear_value v1
  have h_v2 : Frame [.csr, .pwr, .scr, .rrc, .obs, .fresh] s v2 := by
    simp only [v2]
    repeat' (first
      | with_reducible apply Frame.refl
      | with_reducible assumption
      | with_reducible apply Frame.ite
      | with_reducible apply Frame.then_ ?_ (State.choice_frame ..)
      | with_reducible apply Frame.then_ ?_ (State.tempRules_frame ..)
      | with_reducible apply Frame.then_ ?_ (State.wr_frame ..)
      | with_reducible apply Frame.then_ ?_ (State.wrAt_frame ..)
      | decide
      | dsimp only
      | split)
  clear_value v2
  have h_v3 : Frame [.csr, .pwr, .scr, .rrc, .obs, .fresh] s v3 := by
    simp only [v3]
    repeat' (first
      | with_reducible apply Frame.refl
      | with_reducible assumption
      | with_reducible apply Frame.ite
      | with_reducible apply Frame.then_ ?_ (State.choice_frame ..)
      | with_reducible apply Frame.then_ ?_ (State.tempRules_frame ..)
      | with_reducible apply Frame.then_ ?_ (State.wr_frame ..)
      | with_reducible apply Frame.then_ ?_ (State.wrAt_frame ..)
      | decide
      | dsimp only
      | split)
  clear_value v3
  have h_v4 : Frame [.csr, .pwr, .scr, .rrc, .obs, .fresh] s v4 := by
    simp only [v4]
    repeat' (first
      | with_reducible apply Frame.refl
      | with_reducible assumption
      | with_reducible apply Frame.ite
      | with_reducible apply Frame.then_ ?_ (State.choice_frame ..)
      | with_reducible apply Frame.then_ ?_ (State.tempRules_frame ..)
      | with_reducible apply Frame.then_ ?_ (State.wr_frame ..)
      | with_reducible apply Frame.then_ ?_ (State.wrAt_frame ..)
      | decide
      | dsimp only
      | split)
  clear_value v4
  clear_value v5
  have h_v6 : Frame [.csr, .pwr, .scr, .rrc, .obs, .fresh] s v6 := by
    simp only [v6]
    repeat' (first
      | with_reducible apply Frame.refl
      | with_reducible assumption
      | with_reducible apply Frame.ite
      | with_reducible apply Frame.then_ ?_ (State.choice_frame ..)
      | with_reducible apply Frame.then_ ?_ (State.tempRules_frame ..)
      | with_reducible apply Frame.then_ ?_ (State.wr_frame ..)
      | with_reducible apply Frame.then_ ?_ (State.wrAt_frame ..)
      | decide
      | dsimp only
      | split)
  clear_value v6
  repeat' (first
    | with_reducible apply Frame.refl
    | with_reducible assumption
    | with_reducible apply Frame.ite
    | with_reducible apply Frame.then_ ?_ (State.choice_frame ..)
    | with_reducible apply Frame.then_ ?_ (State.tempRules_frame ..)
    | with_reducible apply Frame.then_ ?_ (State.wr_frame ..)
    | with_reducible apply Frame.then_ ?_ (State.wrAt_frame ..)
    | decide
    | dsimp only
    | split)

theorem State.channelTemp_frame (s : State) (u : Nat) (t : Nat) :
    Frame [.csr, .pwr, .scr, .rrc, .obs, .fresh] s (State.channelTemp s u t) := by
  unfold State.channelTemp
  extract_lets v0 v1 v2 v3
  clear_value v0
  clear_value v1
  have h_v2 : Frame [.csr, .pwr, .scr, .rrc, .obs, .fresh] s v2 := by
    simp only [v2]
    repeat' (first
      | with_reducible apply Frame.refl
      | with_reducible assumption
      | with_reducible apply Frame.ite
      | with_reducible apply Frame.then_ ?_ (State.tempRules_frame ..)
      | with_reducible apply Frame.then_ ?_ (State.wrAt_frame ..)
      | decide
      | dsimp only
      | split)
  clear_value v2
  have h_v3 : Frame [.csr, .pwr, .scr, .rrc, .obs, .fresh] s v3 := by
    simp only [v3]
    repeat' (first
      | with_reducible apply Frame.refl
      | with_reducible assumption
      | with_reducible apply Frame.ite
      | with_reducible apply Frame.then_ ?_ (State.tempRules_frame ..)
      | with_reducible apply Frame.then_ ?_ (State.wrAt_frame ..)
      | decide
      | dsimp only
      | split)
  clear_value v3
  repeat' (first
    | with_reducible apply Frame.refl
    | with_reducible assumption
    | with_reducible apply Frame.ite
    | with_reducible apply Frame.then_ ?_ (State.tempRules_frame ..)
    | with_reducible apply Frame.then_ ?_ (State.wrAt_frame ..)
    | decide
    | dsimp only
    | split)

theorem execMemoryTempReadout_frame (ddr : Bool) (unit : Fin 20) (celsius : Fin 256) (s : State) :
    Frames [.csr, .pwr, .scr, .rrc, .obs, .fresh] s (execMemoryTempReadout ddr unit celsius s) := by
  unfold execMemoryTempReadout
  try dsimp only
  repeat' (first
    | with_reducible apply Frame.refl
    | with_reducible assumption
    | with_reducible apply Frames.next
    | with_reducible apply Frames.fault
    | with_reducible apply Frames.refused
    | with_reducible apply Frame.ite
    | with_reducible apply Frames.ite
    | with_reducible apply Frame.then_ ?_ (State.channelTemp_frame ..)
    | with_reducible apply Frame.then_ ?_ (State.stackTemp_frame ..)
    | decide
    | dsimp only
    | split)

theorem execTempLimitTimeout_frame (ddr : Bool) (unit : Fin 20) (s : State) :
Frames [.csr, .staged, .mem, .pwr, .clk, .tal, .ptp, .haul, .sch, .pln, .top, .olc, .gen, .wgt, .bench, .frk, .scr,
      .itk, .clocks, .twn, .fst, .flt, .rrc, .obs, .sent, .fresh] s (execTempLimitTimeout ddr unit s) := by
  unfold execTempLimitTimeout
  try dsimp only
  repeat' (first
    | with_reducible apply Frame.refl
    | with_reducible assumption
    | with_reducible apply Frames.next
    | with_reducible apply Frames.fault
    | with_reducible apply Frames.refused
    | with_reducible apply Frame.ite
    | with_reducible apply Frames.ite
    | with_reducible apply Frame.then_ ?_ (State.moduleFatal_frame ..)
    | decide
    | dsimp only
    | split)

theorem execPatrolScrubRead_frame (unit : Fin 21) (ecc : MemEcc) (s : State) :
Frames [.csr, .pwr, .haul, .sch, .gen, .wgt, .scr, .fst, .flt, .rrc, .obs, .sent, .fresh] s (execPatrolScrubRead
      unit ecc s) := by
  unfold execPatrolScrubRead
  try dsimp only
  repeat' (first
    | with_reducible apply Frame.refl
    | with_reducible assumption
    | with_reducible apply Frames.next
    | with_reducible apply Frames.fault
    | with_reducible apply Frames.refused
    | with_reducible apply Frame.ite
    | with_reducible apply Frames.ite
    | with_reducible apply Frame.then_ ?_ (State.inc_frame ..)
    | with_reducible apply Frame.then_ ?_ (State.memCorrected_frame ..)
    | with_reducible apply Frame.then_ ?_ (State.scrubNext_frame ..)
    | (with_reducible apply Frame.then_ ?_ (Frame.of_eq (State.scrubNext_frame ..) (by assumption)))
    | with_reducible apply Frame.then_ ?_ (State.takeUpkeep_frame ..)
    | with_reducible apply Frame.then_ ?_ (State.uncorrScrub_frame ..)
    | with_reducible apply Frame.then_ ?_ (State.wr_frame ..)
    | decide
    | with_reducible apply Frame.foldl_fst
    | with_reducible apply Frame.foldl
    | intro y a b c hy
    | intro y a hy
    | intro y hy
    | dsimp only
    | split)

theorem State.zeroMemory_frame (s : State) (p : Nat → Bool) :
    Frame [.mem] s (State.zeroMemory s p) := by
  unfold State.zeroMemory
  simp only [Frame.mk_eq]
  exact Frame.upd (.refl _ s) (hm := Tab.canon_filter _)

theorem execMemoryTrainingDone_frame (ddr : Bool) (unit : Fin 20) (attempts : Nat) (passed : Bool) (s : State) :
    Frames [.csr, .mem, .pwr, .rrc, .obs, .fresh] s (execMemoryTrainingDone ddr unit attempts passed s) := by
  unfold execMemoryTrainingDone
  try dsimp only
  repeat' (first
    | with_reducible apply Frame.refl
    | with_reducible assumption
    | with_reducible apply Frames.next
    | with_reducible apply Frames.fault
    | with_reducible apply Frames.refused
    | with_reducible apply Frame.ite
    | with_reducible apply Frames.ite
    | with_reducible apply Frame.then_ ?_ (State.fault_frame ..)
    | with_reducible apply Frame.then_ ?_ (State.wrAt_frame ..)
    | with_reducible apply Frame.then_ ?_ (State.zeroMemory_frame ..)
    | decide
    | dsimp only
    | split)

theorem execPlanStageWriteDone_frame (s : State) :
    Frames [.mem, .scr] s (execPlanStageWriteDone s) := by
  unfold execPlanStageWriteDone
  try dsimp only
  repeat' (first
    | with_reducible apply Frame.refl
    | with_reducible assumption
    | with_reducible apply Frames.next
    | with_reducible apply Frames.fault
    | with_reducible apply Frames.refused
    | with_reducible apply Frame.ite
    | with_reducible apply Frames.ite
    | with_reducible apply Frame.then_ ?_ (State.zeroMemory_frame ..)
    | decide
    | dsimp only
    | split
    | (fail_if_no_progress simp only [Frame.mk_eq]; refine Frame.upd ?_))

end Sys2Proof.Machine
end

