-- ==== Sys2Proof/Laws/Read.lean ====
section
/-! SUPPORT. Reading a numbered part of the state (a bench, a port, a context, an entry) after it is set, and the lanes and
predicates of a bench after a vector operation has placed its results. -/

namespace Sys2Proof.Machine

open Sys2Proof

variable {α : Type}

/-- The entry at a key after one key is set. -/
theorem Tab.find?_ins (k j : Nat) (v : α) (t : Tab α) :
    Tab.find? j (Tab.ins k v t) = if j = k then some v else Tab.find? j t := by
  unfold Tab.find?
  induction t with
  | nil => grind [Tab.ins]
  | cons e t ih =>
    obtain ⟨a, w⟩ := e
    unfold Tab.ins
    split
    · grind
    · split
      · grind
      · simp only [List.find?_cons]
        split <;> grind

/-- The entry at a key after one key is removed. -/
theorem Tab.find?_del (k j : Nat) (t : Tab α) : Tab.find? j (Tab.del k t) = if j = k then none else Tab.find? j t := by
  unfold Tab.find? Tab.del
  induction t with
  | nil => simp
  | cons e t ih =>
    obtain ⟨a, w⟩ := e
    simp only [List.filter_cons, List.find?_cons]
    by_cases h : a = k <;> by_cases g : a = j
    · simp_all
    · subst h
      have e : (a == j) = false := beq_false_of_ne g
      simp only [bne_self_eq_false, Bool.false_eq_true, if_false, e]
      exact ih
    · simp_all
    · have e : (a == j) = false := beq_false_of_ne g
      simp only [bne_iff_ne, ne_eq, h, not_false_eq_true, if_true, List.find?_cons, e]
      exact ih

variable (s : State)

@[simp] theorem State.benchOf_setBench (b : Nat) (x : Bench) : (s.setBench b x).benchOf b = x := by
  simp [State.benchOf, State.setBench, Tab.find?_ins]

theorem State.benchOf_setBench_ne {b c : Nat} (x : Bench) (h : c ≠ b) : (s.setBench b x).benchOf c = s.benchOf c := by
  simp [State.benchOf, State.setBench, Tab.find?_ins, h]

/-- A bench after an operation that changes no bench. -/
theorem State.benchOf_of_bench {s t : State} (h : t.bench = s.bench) (b : Nat) : t.benchOf b = s.benchOf b := by
  unfold State.benchOf
  rw [h]

@[simp] theorem State.job?_setJob (k : Nat) (j : Job) : (s.setJob k j).job? k = some j := by
  simp [State.job?, State.setJob, Tab.find?_ins]

@[simp] theorem State.ctx?_setCtx (c : Nat) (r : CtxRun) : (s.setCtx c r).ctx? c = some r := by
  simp [State.ctx?, State.setCtx, Tab.find?_ins]

@[simp] theorem State.forkRun_setFork (n : Nat) (r : ForkRun) : (s.setFork n r).forkRun n = r := by
  simp [State.forkRun, State.setFork, Tab.find?_ins]

@[simp] theorem State.sendState_setSend (k : Nat) (x : SendState) : (s.setSend k x).sendState k = x := by
  simp [State.sendState, State.setSend, Tab.find?_ins]

@[simp] theorem State.recvState_setRecv (k : Nat) (x : RecvState) : (s.setRecv k x).recvState k = x := by
  simp [State.recvState, State.setRecv, Tab.find?_ins]

@[simp] theorem State.wctx_setWctx (c : Nat) (w : WgtCtx) : (s.setWctx c w).wctx c = w := by
  unfold State.wctx State.setWctx Tab.put
  by_cases h : w = WgtCtx.reset
  · simp [h, Tab.find?_del]
  · simp [h, Tab.find?_ins]

/-- A port of the sixteen after it is set. -/
theorem State.port_setPort (p : Nat) (h : HaulPort) (hp : p < s.haul.length) : (s.setPort p h).port p = h := by
  simp [State.port, State.setPort, hp]

/-- One of the two PTP clocks after it is set. -/
theorem State.clock_setClock (n : Nat) (c : PtpPort) (hn : n < s.clocks.length) : (s.setClock n c).clock n = c := by
  simp [State.clock, State.setClock, hn]

/-! ## The lanes of a bench -/

@[simp] theorem Bench.vregs_note (x : Bench) (p : Prior) : (x.note p).vregs = x.vregs := by
  unfold Bench.note; split <;> rfl

@[simp] theorem Bench.preds_note (x : Bench) (p : Prior) : (x.note p).preds = x.preds := by
  unfold Bench.note; split <;> rfl

@[simp] theorem Bench.next_note (x : Bench) (p : Prior) : (x.note p).next = x.next := by
  unfold Bench.note; split <;> rfl

theorem Bench.lane_setLane (x : Bench) (r l v q m : Nat) (hl : l < 128) (hm : m < 128) :
    (x.setLane r l v).lane q m = if q % 64 = r % 64 ∧ m = l then v % 2 ^ 32 else x.lane q m := by
  unfold Bench.lane Bench.setLane
  dsimp only
  rw [Tab.get_put, Bench.vregs_note]
  congr 1
  simp only [eq_iff_iff]
  omega

@[simp] theorem Bench.preds_setLane (x : Bench) (r l v : Nat) : (x.setLane r l v).preds = x.preds := by
  simp [Bench.setLane]

@[simp] theorem Bench.preds_setLanes (r mask : Nat) (out : List Nat) (x : Bench) (l : Nat) :
    (x.setLanes r mask l out).preds = x.preds := by
  induction out generalizing x l with
  | nil => rfl
  | cons v t ih =>
    unfold Bench.setLanes
    rw [ih]
    split <;> simp

/-- A register after its lanes are placed under a predicate: the active lanes of it are written, every other lane is as
before. -/
theorem Bench.lane_setLanes (r mask : Nat) (out : List Nat) (x : Bench) (l q m : Nat) (h : l + out.length ≤ 128)
    (hm : m < 128) :
    (x.setLanes r mask l out).lane q m =
      if q % 64 = r % 64 ∧ l ≤ m ∧ m < l + out.length ∧ bit m mask = true then out.getD (m - l) 0 % 2 ^ 32
      else x.lane q m := by
  induction out generalizing x l with
  | nil =>
    rw [if_neg (by simp; omega)]
    rfl
  | cons v t ih =>
    simp only [List.length_cons] at h ⊢
    unfold Bench.setLanes
    rw [ih _ _ (by omega)]
    by_cases hml : m = l
    · subst hml
      rw [if_neg (by omega)]
      by_cases hb : bit m mask = true
      · rw [if_pos hb, Bench.lane_setLane _ _ _ _ _ _ (by omega) hm]
        simp only [hb, and_true, le_refl, true_and]
        by_cases hq : q % 64 = r % 64
        · rw [if_pos hq, if_pos ⟨hq, by omega⟩]; simp
        · rw [if_neg hq, if_neg (by tauto)]
      · rw [if_neg hb, if_neg (by tauto)]
    · have e : (if bit l mask = true then x.setLane r l v else x).lane q m = x.lane q m := by
        split
        · rw [Bench.lane_setLane _ _ _ _ _ _ (by omega) hm, if_neg (by tauto)]
        · rfl
      rw [e]
      by_cases hc : q % 64 = r % 64 ∧ l + 1 ≤ m ∧ m < l + 1 + t.length ∧ bit m mask = true
      · rw [if_pos hc, if_pos ⟨hc.1, by omega, by omega, hc.2.2.2⟩]
        have : m - l = (m - (l + 1)) + 1 := by omega
        rw [this]
        rfl
      · rw [if_neg hc, if_neg (fun g => hc ⟨g.1, by omega, by omega, g.2.2.2⟩)]

/-- The lanes of a bench after a vector operation has placed its 128 results in a register. -/
theorem State.lane_putLanes (b r mask : Nat) (out : List (Nat × Option NumEvent)) (h : out.length = 128) (q m : Nat) (hm : m < 128) :
    ((s.putLanes b r mask out).benchOf b).lane q m =
      if q % 64 = r % 64 ∧ bit m mask = true then (out.getD m (0, none)).1 % 2 ^ 32 else (s.benchOf b).lane q m := by
  unfold State.putLanes
  rw [State.benchOf_of_bench ((State.countNum_frame ..).same .bench (by decide)), State.benchOf_setBench,
    Bench.lane_setLanes _ _ _ _ _ _ _ (by simp [h]) hm]
  simp only [List.length_map, h, Nat.zero_le, Nat.zero_add, hm, true_and, Nat.sub_zero]
  split
  · rw [List.getD_eq_getElem?_getD, List.getD_eq_getElem?_getD, List.getElem?_map]
    rw [List.getElem?_eq_getElem (by omega)]
    rfl
  · rfl

theorem State.preds_putLanes (b r mask : Nat) (out : List (Nat × Option NumEvent)) :
    ((s.putLanes b r mask out).benchOf b).preds = (s.benchOf b).preds := by
  unfold State.putLanes
  rw [State.benchOf_of_bench ((State.countNum_frame ..).same .bench (by decide)), State.benchOf_setBench,
    Bench.preds_setLanes]

end Sys2Proof.Machine
end

