-- ==== Sys2Proof/Laws/Keep.lean ====
section
/-! SUPPORT. Small lemmas for proofs about single commands: what an operation on the state leaves as it was, part by part,
from its frame lemma; the parts of an `if` between two states; register fields that no record of an error writes. -/

set_option linter.all false

namespace Sys2Proof.Machine

open Sys2Proof

@[simp] theorem State.ite_staged (c : Prop) [Decidable c] (a b : State) :
    (if c then a else b).staged = if c then a.staged else b.staged :=
  by split <;> rfl
@[simp] theorem State.ite_pwr (c : Prop) [Decidable c] (a b : State) :
    (if c then a else b).pwr = if c then a.pwr else b.pwr :=
  by split <;> rfl
@[simp] theorem State.ite_clk (c : Prop) [Decidable c] (a b : State) :
    (if c then a else b).clk = if c then a.clk else b.clk :=
  by split <;> rfl
@[simp] theorem State.ite_tal (c : Prop) [Decidable c] (a b : State) :
    (if c then a else b).tal = if c then a.tal else b.tal :=
  by split <;> rfl
@[simp] theorem State.ite_ptp (c : Prop) [Decidable c] (a b : State) :
    (if c then a else b).ptp = if c then a.ptp else b.ptp :=
  by split <;> rfl
@[simp] theorem State.ite_haul (c : Prop) [Decidable c] (a b : State) :
    (if c then a else b).haul = if c then a.haul else b.haul :=
  by split <;> rfl
@[simp] theorem State.ite_sch (c : Prop) [Decidable c] (a b : State) :
    (if c then a else b).sch = if c then a.sch else b.sch :=
  by split <;> rfl
@[simp] theorem State.ite_pln (c : Prop) [Decidable c] (a b : State) :
    (if c then a else b).pln = if c then a.pln else b.pln :=
  by split <;> rfl
@[simp] theorem State.ite_top (c : Prop) [Decidable c] (a b : State) :
    (if c then a else b).top = if c then a.top else b.top :=
  by split <;> rfl
@[simp] theorem State.ite_olc (c : Prop) [Decidable c] (a b : State) :
    (if c then a else b).olc = if c then a.olc else b.olc :=
  by split <;> rfl
@[simp] theorem State.ite_wgt (c : Prop) [Decidable c] (a b : State) :
    (if c then a else b).wgt = if c then a.wgt else b.wgt :=
  by split <;> rfl
@[simp] theorem State.ite_bench (c : Prop) [Decidable c] (a b : State) :
    (if c then a else b).bench = if c then a.bench else b.bench :=
  by split <;> rfl
@[simp] theorem State.ite_frk (c : Prop) [Decidable c] (a b : State) :
    (if c then a else b).frk = if c then a.frk else b.frk :=
  by split <;> rfl
@[simp] theorem State.ite_scr (c : Prop) [Decidable c] (a b : State) :
    (if c then a else b).scr = if c then a.scr else b.scr :=
  by split <;> rfl
@[simp] theorem State.ite_clocks (c : Prop) [Decidable c] (a b : State) :
    (if c then a else b).clocks = if c then a.clocks else b.clocks :=
  by split <;> rfl
@[simp] theorem State.ite_twn (c : Prop) [Decidable c] (a b : State) :
    (if c then a else b).twn = if c then a.twn else b.twn :=
  by split <;> rfl
@[simp] theorem State.ite_fst (c : Prop) [Decidable c] (a b : State) :
    (if c then a else b).fst = if c then a.fst else b.fst :=
  by split <;> rfl
@[simp] theorem State.ite_flt (c : Prop) [Decidable c] (a b : State) :
    (if c then a else b).flt = if c then a.flt else b.flt :=
  by split <;> rfl
@[simp] theorem State.ite_rrc (c : Prop) [Decidable c] (a b : State) :
    (if c then a else b).rrc = if c then a.rrc else b.rrc :=
  by split <;> rfl
@[simp] theorem State.ite_obs (c : Prop) [Decidable c] (a b : State) :
    (if c then a else b).obs = if c then a.obs else b.obs :=
  by split <;> rfl
@[simp] theorem State.ite_nv (c : Prop) [Decidable c] (a b : State) : (if c then a else b).nv = if c then a.nv else b.nv :=
  by split <;> rfl
@[simp] theorem State.ite_fresh (c : Prop) [Decidable c] (a b : State) :
    (if c then a else b).fresh = if c then a.fresh else b.fresh :=
  by split <;> rfl
@[simp] theorem State.ite_pending (c : Prop) [Decidable c] (a b : State) :
    (if c then a else b).pending = if c then a.pending else b.pending :=
  by split <;> rfl
@[simp] theorem State.ite_rd (c : Prop) [Decidable c] (a b : State) (f : Field) :
    (if c then a else b).rd f = if c then a.rd f else b.rd f :=
  by split <;> rfl
@[simp] theorem State.ite_rdAt (c : Prop) [Decidable c] (a b : State) (f : Field) (i : Nat) :
    (if c then a else b).rdAt f i = if c then a.rdAt f i else b.rdAt f i :=
  by split <;> rfl
@[simp] theorem Pwr.ite_forester (c : Prop) [Decidable c] (a b : Pwr) :
    (if c then a else b).forester = if c then a.forester else b.forester :=
  by split <;> rfl
@[simp] theorem Pwr.ite_sagCount (c : Prop) [Decidable c] (a b : Pwr) :
    (if c then a else b).sagCount = if c then a.sagCount else b.sagCount :=
  by split <;> rfl
@[simp] theorem Pwr.ite_shutdown (c : Prop) [Decidable c] (a b : Pwr) :
    (if c then a else b).shutdown = if c then a.shutdown else b.shutdown :=
  by split <;> rfl
@[simp] theorem Pwr.ite_throttleAt (c : Prop) [Decidable c] (a b : Pwr) :
    (if c then a else b).throttleAt = if c then a.throttleAt else b.throttleAt :=
  by split <;> rfl
@[simp] theorem Pwr.ite_coolantOk (c : Prop) [Decidable c] (a b : Pwr) :
    (if c then a else b).coolantOk = if c then a.coolantOk else b.coolantOk :=
  by split <;> rfl
theorem foldl_keeps {α β γ : Type} (g : α → β) (f : α → γ → α) (h : ∀ u x, g (f u x) = g u) (l : List γ) (s : α) : g (l.foldl f s) = g s := by
  induction l generalizing s with
  | nil => rfl
  | cons a l ih => simp [ih, h]
@[simp] theorem State.notice_keeps_mem (s : State) (source : Nat) (code : Nat) (unit : Nat) (ctx : Nat) (value : Nat) :
    (State.notice s source code unit ctx value).mem = s.mem :=
  (State.notice_frame ..).same .mem (by decide)
@[simp] theorem State.notice_keeps_tal (s : State) (source : Nat) (code : Nat) (unit : Nat) (ctx : Nat) (value : Nat) :
    (State.notice s source code unit ctx value).tal = s.tal :=
  (State.notice_frame ..).same .tal (by decide)
@[simp] theorem State.setPort_keeps_csr (s : State) (p : Nat) (h : HaulPort) : (State.setPort s p h).csr = s.csr :=
  congrArg Prod.fst ((State.setPort_frame s p h).same .csr (by decide))
@[simp] theorem State.setPort_keeps_rdAt (fz : Field) (iz : Nat) (s : State) (p : Nat) (h : HaulPort) :
    (State.setPort s p h).rdAt fz iz = s.rdAt fz iz :=
  by unfold State.rdAt; rw [State.setPort_keeps_csr]
@[simp] theorem State.count_keeps_staged (s : State) (i : Nat) (n : Nat) : (State.count s i n).staged = s.staged :=
  (State.count_frame ..).same .staged (by decide)
@[simp] theorem State.count_keeps_mem (s : State) (i : Nat) (n : Nat) : (State.count s i n).mem = s.mem :=
  (State.count_frame ..).same .mem (by decide)
@[simp] theorem State.count_keeps_pwr (s : State) (i : Nat) (n : Nat) : (State.count s i n).pwr = s.pwr :=
  (State.count_frame ..).same .pwr (by decide)
@[simp] theorem State.count_keeps_clk (s : State) (i : Nat) (n : Nat) : (State.count s i n).clk = s.clk :=
  (State.count_frame ..).same .clk (by decide)
@[simp] theorem State.count_keeps_tal (s : State) (i : Nat) (n : Nat) : (State.count s i n).tal = s.tal :=
  (State.count_frame ..).same .tal (by decide)
@[simp] theorem State.count_keeps_ptp (s : State) (i : Nat) (n : Nat) : (State.count s i n).ptp = s.ptp :=
  (State.count_frame ..).same .ptp (by decide)
@[simp] theorem State.count_keeps_haul (s : State) (i : Nat) (n : Nat) : (State.count s i n).haul = s.haul :=
  (State.count_frame ..).same .haul (by decide)
@[simp] theorem State.count_keeps_sch (s : State) (i : Nat) (n : Nat) : (State.count s i n).sch = s.sch :=
  (State.count_frame ..).same .sch (by decide)
@[simp] theorem State.count_keeps_pln (s : State) (i : Nat) (n : Nat) : (State.count s i n).pln = s.pln :=
  (State.count_frame ..).same .pln (by decide)
@[simp] theorem State.count_keeps_top (s : State) (i : Nat) (n : Nat) : (State.count s i n).top = s.top :=
  (State.count_frame ..).same .top (by decide)
@[simp] theorem State.count_keeps_olc (s : State) (i : Nat) (n : Nat) : (State.count s i n).olc = s.olc :=
  (State.count_frame ..).same .olc (by decide)
@[simp] theorem State.count_keeps_gen (s : State) (i : Nat) (n : Nat) : (State.count s i n).gen = s.gen :=
  (State.count_frame ..).same .gen (by decide)
@[simp] theorem State.count_keeps_wgt (s : State) (i : Nat) (n : Nat) : (State.count s i n).wgt = s.wgt :=
  (State.count_frame ..).same .wgt (by decide)
@[simp] theorem State.count_keeps_bench (s : State) (i : Nat) (n : Nat) : (State.count s i n).bench = s.bench :=
  (State.count_frame ..).same .bench (by decide)
@[simp] theorem State.count_keeps_frk (s : State) (i : Nat) (n : Nat) : (State.count s i n).frk = s.frk :=
  (State.count_frame ..).same .frk (by decide)
@[simp] theorem State.count_keeps_scr (s : State) (i : Nat) (n : Nat) : (State.count s i n).scr = s.scr :=
  (State.count_frame ..).same .scr (by decide)
@[simp] theorem State.count_keeps_itk (s : State) (i : Nat) (n : Nat) : (State.count s i n).itk = s.itk :=
  (State.count_frame ..).same .itk (by decide)
@[simp] theorem State.count_keeps_clocks (s : State) (i : Nat) (n : Nat) : (State.count s i n).clocks = s.clocks :=
  (State.count_frame ..).same .clocks (by decide)
@[simp] theorem State.count_keeps_twn (s : State) (i : Nat) (n : Nat) : (State.count s i n).twn = s.twn :=
  (State.count_frame ..).same .twn (by decide)
@[simp] theorem State.count_keeps_fst (s : State) (i : Nat) (n : Nat) : (State.count s i n).fst = s.fst :=
  (State.count_frame ..).same .fst (by decide)
@[simp] theorem State.count_keeps_flt (s : State) (i : Nat) (n : Nat) : (State.count s i n).flt = s.flt :=
  (State.count_frame ..).same .flt (by decide)
@[simp] theorem State.count_keeps_rrc (s : State) (i : Nat) (n : Nat) : (State.count s i n).rrc = s.rrc :=
  (State.count_frame ..).same .rrc (by decide)
@[simp] theorem State.count_keeps_obs (s : State) (i : Nat) (n : Nat) : (State.count s i n).obs = s.obs :=
  (State.count_frame ..).same .obs (by decide)
@[simp] theorem State.count_keeps_nv (s : State) (i : Nat) (n : Nat) : (State.count s i n).nv = s.nv :=
  (State.count_frame ..).same .nv (by decide)
@[simp] theorem State.count_keeps_sent (s : State) (i : Nat) (n : Nat) : (State.count s i n).sent = s.sent :=
  (State.count_frame ..).same .sent (by decide)
@[simp] theorem State.count_keeps_fresh (s : State) (i : Nat) (n : Nat) : (State.count s i n).fresh = s.fresh :=
  (State.count_frame ..).same .fresh (by decide)
@[simp] theorem State.count_keeps_pending (s : State) (i : Nat) (n : Nat) : (State.count s i n).pending = s.pending :=
  (State.count_frame ..).pending
@[simp] theorem State.setWctx_keeps_mem (s : State) (c : Nat) (w : WgtCtx) : (State.setWctx s c w).mem = s.mem :=
  (State.setWctx_frame ..).same .mem (by decide)
@[simp] theorem State.setWctx_keeps_pln (s : State) (c : Nat) (w : WgtCtx) : (State.setWctx s c w).pln = s.pln :=
  (State.setWctx_frame ..).same .pln (by decide)
@[simp] theorem State.emptyLanding_keeps_pln (s : State) (c : Nat) (code : Nat) :
    (State.emptyLanding s c code).pln = s.pln :=
  (State.emptyLanding_frame ..).same .pln (by decide)
@[simp] theorem State.setBench_keeps_mem (s : State) (b : Nat) (x : Bench) : (State.setBench s b x).mem = s.mem :=
  (State.setBench_frame ..).same .mem (by decide)
@[simp] theorem State.closeSpans_keeps_staged (s : State) : (State.closeSpans s).staged = s.staged :=
  (State.closeSpans_frame ..).same .staged (by decide)
@[simp] theorem State.closeSpans_keeps_mem (s : State) : (State.closeSpans s).mem = s.mem :=
  (State.closeSpans_frame ..).same .mem (by decide)
@[simp] theorem State.closeSpans_keeps_pwr (s : State) : (State.closeSpans s).pwr = s.pwr :=
  (State.closeSpans_frame ..).same .pwr (by decide)
@[simp] theorem State.closeSpans_keeps_clk (s : State) : (State.closeSpans s).clk = s.clk :=
  (State.closeSpans_frame ..).same .clk (by decide)
@[simp] theorem State.closeSpans_keeps_tal (s : State) : (State.closeSpans s).tal = s.tal :=
  (State.closeSpans_frame ..).same .tal (by decide)
@[simp] theorem State.closeSpans_keeps_ptp (s : State) : (State.closeSpans s).ptp = s.ptp :=
  (State.closeSpans_frame ..).same .ptp (by decide)
@[simp] theorem State.closeSpans_keeps_haul (s : State) : (State.closeSpans s).haul = s.haul :=
  (State.closeSpans_frame ..).same .haul (by decide)
@[simp] theorem State.closeSpans_keeps_sch (s : State) : (State.closeSpans s).sch = s.sch :=
  (State.closeSpans_frame ..).same .sch (by decide)
@[simp] theorem State.closeSpans_keeps_pln (s : State) : (State.closeSpans s).pln = s.pln :=
  (State.closeSpans_frame ..).same .pln (by decide)
@[simp] theorem State.closeSpans_keeps_top (s : State) : (State.closeSpans s).top = s.top :=
  (State.closeSpans_frame ..).same .top (by decide)
@[simp] theorem State.closeSpans_keeps_olc (s : State) : (State.closeSpans s).olc = s.olc :=
  (State.closeSpans_frame ..).same .olc (by decide)
@[simp] theorem State.closeSpans_keeps_wgt (s : State) : (State.closeSpans s).wgt = s.wgt :=
  (State.closeSpans_frame ..).same .wgt (by decide)
@[simp] theorem State.closeSpans_keeps_bench (s : State) : (State.closeSpans s).bench = s.bench :=
  (State.closeSpans_frame ..).same .bench (by decide)
@[simp] theorem State.closeSpans_keeps_frk (s : State) : (State.closeSpans s).frk = s.frk :=
  (State.closeSpans_frame ..).same .frk (by decide)
@[simp] theorem State.closeSpans_keeps_scr (s : State) : (State.closeSpans s).scr = s.scr :=
  (State.closeSpans_frame ..).same .scr (by decide)
@[simp] theorem State.closeSpans_keeps_itk (s : State) : (State.closeSpans s).itk = s.itk :=
  (State.closeSpans_frame ..).same .itk (by decide)
@[simp] theorem State.closeSpans_keeps_clocks (s : State) : (State.closeSpans s).clocks = s.clocks :=
  (State.closeSpans_frame ..).same .clocks (by decide)
@[simp] theorem State.closeSpans_keeps_twn (s : State) : (State.closeSpans s).twn = s.twn :=
  (State.closeSpans_frame ..).same .twn (by decide)
@[simp] theorem State.closeSpans_keeps_fst (s : State) : (State.closeSpans s).fst = s.fst :=
  (State.closeSpans_frame ..).same .fst (by decide)
@[simp] theorem State.closeSpans_keeps_flt (s : State) : (State.closeSpans s).flt = s.flt :=
  (State.closeSpans_frame ..).same .flt (by decide)
@[simp] theorem State.closeSpans_keeps_rrc (s : State) : (State.closeSpans s).rrc = s.rrc :=
  (State.closeSpans_frame ..).same .rrc (by decide)
@[simp] theorem State.closeSpans_keeps_obs (s : State) : (State.closeSpans s).obs = s.obs :=
  (State.closeSpans_frame ..).same .obs (by decide)
@[simp] theorem State.closeSpans_keeps_nv (s : State) : (State.closeSpans s).nv = s.nv :=
  (State.closeSpans_frame ..).same .nv (by decide)
@[simp] theorem State.closeSpans_keeps_sent (s : State) : (State.closeSpans s).sent = s.sent :=
  (State.closeSpans_frame ..).same .sent (by decide)
@[simp] theorem State.closeSpans_keeps_fresh (s : State) : (State.closeSpans s).fresh = s.fresh :=
  (State.closeSpans_frame ..).same .fresh (by decide)
@[simp] theorem State.closeSpans_keeps_pending (s : State) : (State.closeSpans s).pending = s.pending :=
  (State.closeSpans_frame ..).pending
@[simp] theorem State.dropChange_keeps_clk (s : State) (kind : Nat) (ctx : Nat) :
    (State.dropChange s kind ctx).clk = s.clk :=
  (State.dropChange_frame ..).same .clk (by decide)
@[simp] theorem State.showBindings_keeps_mem (s : State) : (State.showBindings s).mem = s.mem :=
  (State.showBindings_frame ..).same .mem (by decide)
@[simp] theorem State.showBindings_keeps_pln (s : State) : (State.showBindings s).pln = s.pln :=
  (State.showBindings_frame ..).same .pln (by decide)
@[simp] theorem State.showEntries_keeps_pln (s : State) : (State.showEntries s).pln = s.pln :=
  (State.showEntries_frame ..).same .pln (by decide)
@[simp] theorem State.showAct_keeps_pln (s : State) : (State.showAct s).pln = s.pln :=
  (State.showAct_frame ..).same .pln (by decide)
@[simp] theorem State.showStretches_keeps_pwr (s : State) (a : Nat) : (State.showStretches s a).pwr = s.pwr :=
  (State.showStretches_frame ..).same .pwr (by decide)
@[simp] theorem State.setRun_keeps_pln (s : State) (c : Nat) (r : IntakeRun) : (State.setRun s c r).pln = s.pln :=
  (State.setRun_frame ..).same .pln (by decide)
@[simp] theorem State.fetchEntries_keeps_pln (s : State) (c : Nat) : (State.fetchEntries s c).pln = s.pln :=
  (State.fetchEntries_frame ..).same .pln (by decide)
@[simp] theorem State.changeApplied_keeps_clk (s : State) (kind : Nat) (ctx : Nat) (old : Nat) :
    (State.changeApplied s kind ctx old).clk = s.clk :=
  (State.changeApplied_frame ..).same .clk (by decide)
@[simp] theorem State.changeApplied_keeps_pln (s : State) (kind : Nat) (ctx : Nat) (old : Nat) :
    (State.changeApplied s kind ctx old).pln = s.pln :=
  (State.changeApplied_frame ..).same .pln (by decide)
@[simp] theorem State.changeApplied_keeps_gen (s : State) (kind : Nat) (ctx : Nat) (old : Nat) :
    (State.changeApplied s kind ctx old).gen = s.gen :=
  (State.changeApplied_frame ..).same .gen (by decide)
@[simp] theorem State.corrected_keeps_bench (s : State) (source : Nat) (code : Nat) (field : Nat) (ctx : Nat) (unit : Nat) (info : Nat) :
    (State.corrected s source code field ctx unit info).bench = s.bench :=
  (State.corrected_frame ..).same .bench (by decide)
@[simp] theorem State.showLevel_keeps_pln (s : State) : (State.showLevel s).pln = s.pln :=
  (State.showLevel_frame ..).same .pln (by decide)
@[simp] theorem State.showSecurity_keeps_mem (s : State) : (State.showSecurity s).mem = s.mem :=
  (State.showSecurity_frame ..).same .mem (by decide)
@[simp] theorem State.showSecurity_keeps_pwr (s : State) : (State.showSecurity s).pwr = s.pwr :=
  (State.showSecurity_frame ..).same .pwr (by decide)
@[simp] theorem State.showSecurity_keeps_nv (s : State) : (State.showSecurity s).nv = s.nv :=
  (State.showSecurity_frame ..).same .nv (by decide)
@[simp] theorem State.showSecurity_keeps_fresh (s : State) : (State.showSecurity s).fresh = s.fresh :=
  (State.showSecurity_frame ..).same .fresh (by decide)
@[simp] theorem State.resetRegs_keeps_pwr (s : State) (p : Nat → Bool) : (State.resetRegs s p).pwr = s.pwr :=
  (State.resetRegs_frame ..).same .pwr (by decide)
@[simp] theorem State.resetRegs_keeps_clk (s : State) (p : Nat → Bool) : (State.resetRegs s p).clk = s.clk :=
  (State.resetRegs_frame ..).same .clk (by decide)
@[simp] theorem State.resetRegs_keeps_tal (s : State) (p : Nat → Bool) : (State.resetRegs s p).tal = s.tal :=
  (State.resetRegs_frame ..).same .tal (by decide)
@[simp] theorem State.resetRegs_keeps_ptp (s : State) (p : Nat → Bool) : (State.resetRegs s p).ptp = s.ptp :=
  (State.resetRegs_frame ..).same .ptp (by decide)
@[simp] theorem State.resetRegs_keeps_haul (s : State) (p : Nat → Bool) : (State.resetRegs s p).haul = s.haul :=
  (State.resetRegs_frame ..).same .haul (by decide)
@[simp] theorem State.resetRegs_keeps_sch (s : State) (p : Nat → Bool) : (State.resetRegs s p).sch = s.sch :=
  (State.resetRegs_frame ..).same .sch (by decide)
@[simp] theorem State.resetRegs_keeps_pln (s : State) (p : Nat → Bool) : (State.resetRegs s p).pln = s.pln :=
  (State.resetRegs_frame ..).same .pln (by decide)
@[simp] theorem State.resetRegs_keeps_top (s : State) (p : Nat → Bool) : (State.resetRegs s p).top = s.top :=
  (State.resetRegs_frame ..).same .top (by decide)
@[simp] theorem State.resetRegs_keeps_wgt (s : State) (p : Nat → Bool) : (State.resetRegs s p).wgt = s.wgt :=
  (State.resetRegs_frame ..).same .wgt (by decide)
@[simp] theorem State.resetRegs_keeps_bench (s : State) (p : Nat → Bool) : (State.resetRegs s p).bench = s.bench :=
  (State.resetRegs_frame ..).same .bench (by decide)
@[simp] theorem State.resetRegs_keeps_frk (s : State) (p : Nat → Bool) : (State.resetRegs s p).frk = s.frk :=
  (State.resetRegs_frame ..).same .frk (by decide)
@[simp] theorem State.resetRegs_keeps_scr (s : State) (p : Nat → Bool) : (State.resetRegs s p).scr = s.scr :=
  (State.resetRegs_frame ..).same .scr (by decide)
@[simp] theorem State.resetRegs_keeps_itk (s : State) (p : Nat → Bool) : (State.resetRegs s p).itk = s.itk :=
  (State.resetRegs_frame ..).same .itk (by decide)
@[simp] theorem State.resetRegs_keeps_clocks (s : State) (p : Nat → Bool) : (State.resetRegs s p).clocks = s.clocks :=
  (State.resetRegs_frame ..).same .clocks (by decide)
@[simp] theorem State.resetRegs_keeps_twn (s : State) (p : Nat → Bool) : (State.resetRegs s p).twn = s.twn :=
  (State.resetRegs_frame ..).same .twn (by decide)
@[simp] theorem State.resetRegs_keeps_nv (s : State) (p : Nat → Bool) : (State.resetRegs s p).nv = s.nv :=
  (State.resetRegs_frame ..).same .nv (by decide)
@[simp] theorem State.resetRegs_keeps_sent (s : State) (p : Nat → Bool) : (State.resetRegs s p).sent = s.sent :=
  (State.resetRegs_frame ..).same .sent (by decide)
@[simp] theorem State.resetRegs_keeps_fresh (s : State) (p : Nat → Bool) : (State.resetRegs s p).fresh = s.fresh :=
  (State.resetRegs_frame ..).same .fresh (by decide)
@[simp] theorem State.resetRegs_keeps_pending (s : State) (p : Nat → Bool) : (State.resetRegs s p).pending = s.pending :=
  (State.resetRegs_frame ..).pending
@[simp] theorem State.closeIntakes_keeps_staged (s : State) : (State.closeIntakes s).staged = s.staged :=
  (State.closeIntakes_frame ..).same .staged (by decide)
@[simp] theorem State.closeIntakes_keeps_pwr (s : State) : (State.closeIntakes s).pwr = s.pwr :=
  (State.closeIntakes_frame ..).same .pwr (by decide)
@[simp] theorem State.closeIntakes_keeps_clk (s : State) : (State.closeIntakes s).clk = s.clk :=
  (State.closeIntakes_frame ..).same .clk (by decide)
@[simp] theorem State.closeIntakes_keeps_tal (s : State) : (State.closeIntakes s).tal = s.tal :=
  (State.closeIntakes_frame ..).same .tal (by decide)
@[simp] theorem State.closeIntakes_keeps_ptp (s : State) : (State.closeIntakes s).ptp = s.ptp :=
  (State.closeIntakes_frame ..).same .ptp (by decide)
@[simp] theorem State.closeIntakes_keeps_haul (s : State) : (State.closeIntakes s).haul = s.haul :=
  (State.closeIntakes_frame ..).same .haul (by decide)
@[simp] theorem State.closeIntakes_keeps_sch (s : State) : (State.closeIntakes s).sch = s.sch :=
  (State.closeIntakes_frame ..).same .sch (by decide)
@[simp] theorem State.closeIntakes_keeps_pln (s : State) : (State.closeIntakes s).pln = s.pln :=
  (State.closeIntakes_frame ..).same .pln (by decide)
@[simp] theorem State.closeIntakes_keeps_top (s : State) : (State.closeIntakes s).top = s.top :=
  (State.closeIntakes_frame ..).same .top (by decide)
@[simp] theorem State.closeIntakes_keeps_olc (s : State) : (State.closeIntakes s).olc = s.olc :=
  (State.closeIntakes_frame ..).same .olc (by decide)
@[simp] theorem State.closeIntakes_keeps_wgt (s : State) : (State.closeIntakes s).wgt = s.wgt :=
  (State.closeIntakes_frame ..).same .wgt (by decide)
@[simp] theorem State.closeIntakes_keeps_bench (s : State) : (State.closeIntakes s).bench = s.bench :=
  (State.closeIntakes_frame ..).same .bench (by decide)
@[simp] theorem State.closeIntakes_keeps_frk (s : State) : (State.closeIntakes s).frk = s.frk :=
  (State.closeIntakes_frame ..).same .frk (by decide)
@[simp] theorem State.closeIntakes_keeps_scr (s : State) : (State.closeIntakes s).scr = s.scr :=
  (State.closeIntakes_frame ..).same .scr (by decide)
@[simp] theorem State.closeIntakes_keeps_clocks (s : State) : (State.closeIntakes s).clocks = s.clocks :=
  (State.closeIntakes_frame ..).same .clocks (by decide)
@[simp] theorem State.closeIntakes_keeps_twn (s : State) : (State.closeIntakes s).twn = s.twn :=
  (State.closeIntakes_frame ..).same .twn (by decide)
@[simp] theorem State.closeIntakes_keeps_fst (s : State) : (State.closeIntakes s).fst = s.fst :=
  (State.closeIntakes_frame ..).same .fst (by decide)
@[simp] theorem State.closeIntakes_keeps_flt (s : State) : (State.closeIntakes s).flt = s.flt :=
  (State.closeIntakes_frame ..).same .flt (by decide)
@[simp] theorem State.closeIntakes_keeps_rrc (s : State) : (State.closeIntakes s).rrc = s.rrc :=
  (State.closeIntakes_frame ..).same .rrc (by decide)
@[simp] theorem State.closeIntakes_keeps_obs (s : State) : (State.closeIntakes s).obs = s.obs :=
  (State.closeIntakes_frame ..).same .obs (by decide)
@[simp] theorem State.closeIntakes_keeps_nv (s : State) : (State.closeIntakes s).nv = s.nv :=
  (State.closeIntakes_frame ..).same .nv (by decide)
@[simp] theorem State.closeIntakes_keeps_fresh (s : State) : (State.closeIntakes s).fresh = s.fresh :=
  (State.closeIntakes_frame ..).same .fresh (by decide)
@[simp] theorem State.closeIntakes_keeps_pending (s : State) : (State.closeIntakes s).pending = s.pending :=
  (State.closeIntakes_frame ..).pending
@[simp] theorem State.accept_keeps_staged (s : State) (p : Nat) (w : WireBlock) : (State.accept s p w).1.staged = s.staged :=
  (State.accept_frame ..).same .staged (by decide)
@[simp] theorem State.accept_keeps_mem (s : State) (p : Nat) (w : WireBlock) : (State.accept s p w).1.mem = s.mem :=
  (State.accept_frame ..).same .mem (by decide)
@[simp] theorem State.accept_keeps_pwr (s : State) (p : Nat) (w : WireBlock) : (State.accept s p w).1.pwr = s.pwr :=
  (State.accept_frame ..).same .pwr (by decide)
@[simp] theorem State.accept_keeps_clk (s : State) (p : Nat) (w : WireBlock) : (State.accept s p w).1.clk = s.clk :=
  (State.accept_frame ..).same .clk (by decide)
@[simp] theorem State.accept_keeps_tal (s : State) (p : Nat) (w : WireBlock) : (State.accept s p w).1.tal = s.tal :=
  (State.accept_frame ..).same .tal (by decide)
@[simp] theorem State.accept_keeps_ptp (s : State) (p : Nat) (w : WireBlock) : (State.accept s p w).1.ptp = s.ptp :=
  (State.accept_frame ..).same .ptp (by decide)
@[simp] theorem State.accept_keeps_pln (s : State) (p : Nat) (w : WireBlock) : (State.accept s p w).1.pln = s.pln :=
  (State.accept_frame ..).same .pln (by decide)
@[simp] theorem State.accept_keeps_top (s : State) (p : Nat) (w : WireBlock) : (State.accept s p w).1.top = s.top :=
  (State.accept_frame ..).same .top (by decide)
@[simp] theorem State.accept_keeps_olc (s : State) (p : Nat) (w : WireBlock) : (State.accept s p w).1.olc = s.olc :=
  (State.accept_frame ..).same .olc (by decide)
@[simp] theorem State.accept_keeps_gen (s : State) (p : Nat) (w : WireBlock) : (State.accept s p w).1.gen = s.gen :=
  (State.accept_frame ..).same .gen (by decide)
@[simp] theorem State.accept_keeps_wgt (s : State) (p : Nat) (w : WireBlock) : (State.accept s p w).1.wgt = s.wgt :=
  (State.accept_frame ..).same .wgt (by decide)
@[simp] theorem State.accept_keeps_bench (s : State) (p : Nat) (w : WireBlock) : (State.accept s p w).1.bench = s.bench :=
  (State.accept_frame ..).same .bench (by decide)
@[simp] theorem State.accept_keeps_frk (s : State) (p : Nat) (w : WireBlock) : (State.accept s p w).1.frk = s.frk :=
  (State.accept_frame ..).same .frk (by decide)
@[simp] theorem State.accept_keeps_scr (s : State) (p : Nat) (w : WireBlock) : (State.accept s p w).1.scr = s.scr :=
  (State.accept_frame ..).same .scr (by decide)
@[simp] theorem State.accept_keeps_itk (s : State) (p : Nat) (w : WireBlock) : (State.accept s p w).1.itk = s.itk :=
  (State.accept_frame ..).same .itk (by decide)
@[simp] theorem State.accept_keeps_clocks (s : State) (p : Nat) (w : WireBlock) : (State.accept s p w).1.clocks = s.clocks :=
  (State.accept_frame ..).same .clocks (by decide)
@[simp] theorem State.accept_keeps_twn (s : State) (p : Nat) (w : WireBlock) : (State.accept s p w).1.twn = s.twn :=
  (State.accept_frame ..).same .twn (by decide)
@[simp] theorem State.accept_keeps_flt (s : State) (p : Nat) (w : WireBlock) : (State.accept s p w).1.flt = s.flt :=
  (State.accept_frame ..).same .flt (by decide)
@[simp] theorem State.accept_keeps_rrc (s : State) (p : Nat) (w : WireBlock) : (State.accept s p w).1.rrc = s.rrc :=
  (State.accept_frame ..).same .rrc (by decide)
@[simp] theorem State.accept_keeps_nv (s : State) (p : Nat) (w : WireBlock) : (State.accept s p w).1.nv = s.nv :=
  (State.accept_frame ..).same .nv (by decide)
@[simp] theorem State.accept_keeps_pending (s : State) (p : Nat) (w : WireBlock) :
    (State.accept s p w).1.pending = s.pending :=
  (State.accept_frame ..).pending
@[simp] theorem State.setPoints_keeps_clk (s : State) (v : Nat) (a : Nat) : (State.setPoints s v a).clk = s.clk :=
  (State.setPoints_frame ..).same .clk (by decide)
@[simp] theorem State.issued_keeps_staged (s : State) (i : Issue) : (State.issued s i o).staged = s.staged :=
  (State.issued_frame ..).same .staged (by decide)
@[simp] theorem State.issued_keeps_mem (s : State) (i : Issue) : (State.issued s i o).mem = s.mem :=
  (State.issued_frame ..).same .mem (by decide)
@[simp] theorem State.issued_keeps_clk (s : State) (i : Issue) : (State.issued s i o).clk = s.clk :=
  (State.issued_frame ..).same .clk (by decide)
@[simp] theorem State.issued_keeps_tal (s : State) (i : Issue) : (State.issued s i o).tal = s.tal :=
  (State.issued_frame ..).same .tal (by decide)
@[simp] theorem State.issued_keeps_ptp (s : State) (i : Issue) : (State.issued s i o).ptp = s.ptp :=
  (State.issued_frame ..).same .ptp (by decide)
@[simp] theorem State.issued_keeps_haul (s : State) (i : Issue) : (State.issued s i o).haul = s.haul :=
  (State.issued_frame ..).same .haul (by decide)
@[simp] theorem State.issued_keeps_sch (s : State) (i : Issue) : (State.issued s i o).sch = s.sch :=
  (State.issued_frame ..).same .sch (by decide)
@[simp] theorem State.issued_keeps_pln (s : State) (i : Issue) : (State.issued s i o).pln = s.pln :=
  (State.issued_frame ..).same .pln (by decide)
@[simp] theorem State.issued_keeps_top (s : State) (i : Issue) : (State.issued s i o).top = s.top :=
  (State.issued_frame ..).same .top (by decide)
@[simp] theorem State.issued_keeps_olc (s : State) (i : Issue) : (State.issued s i o).olc = s.olc :=
  (State.issued_frame ..).same .olc (by decide)
@[simp] theorem State.issued_keeps_gen (s : State) (i : Issue) : (State.issued s i o).gen = s.gen :=
  (State.issued_frame ..).same .gen (by decide)
@[simp] theorem State.issued_keeps_wgt (s : State) (i : Issue) : (State.issued s i o).wgt = s.wgt :=
  (State.issued_frame ..).same .wgt (by decide)
@[simp] theorem State.issued_keeps_frk (s : State) (i : Issue) : (State.issued s i o).frk = s.frk :=
  (State.issued_frame ..).same .frk (by decide)
@[simp] theorem State.issued_keeps_scr (s : State) (i : Issue) : (State.issued s i o).scr = s.scr :=
  (State.issued_frame ..).same .scr (by decide)
@[simp] theorem State.issued_keeps_itk (s : State) (i : Issue) : (State.issued s i o).itk = s.itk :=
  (State.issued_frame ..).same .itk (by decide)
@[simp] theorem State.issued_keeps_clocks (s : State) (i : Issue) : (State.issued s i o).clocks = s.clocks :=
  (State.issued_frame ..).same .clocks (by decide)
@[simp] theorem State.issued_keeps_twn (s : State) (i : Issue) : (State.issued s i o).twn = s.twn :=
  (State.issued_frame ..).same .twn (by decide)
@[simp] theorem State.issued_keeps_fst (s : State) (i : Issue) : (State.issued s i o).fst = s.fst :=
  (State.issued_frame ..).same .fst (by decide)
@[simp] theorem State.issued_keeps_nv (s : State) (i : Issue) : (State.issued s i o).nv = s.nv :=
  (State.issued_frame ..).same .nv (by decide)
@[simp] theorem State.issued_keeps_sent (s : State) (i : Issue) : (State.issued s i o).sent = s.sent :=
  (State.issued_frame ..).same .sent (by decide)
@[simp] theorem State.issued_keeps_pending (s : State) (i : Issue) : (State.issued s i o).pending = s.pending :=
  (State.issued_frame ..).pending
@[simp] theorem State.startExit_keeps_pln (s : State) (stage : Nat) : (State.startExit s stage).pln = s.pln :=
  (State.startExit_frame ..).same .pln (by decide)
@[simp] theorem State.showFwd_keeps_mem (s : State) (k : Nat) (st : Nat) (code : Nat) :
    (State.showFwd s k st code).mem = s.mem :=
  (State.showFwd_frame ..).same .mem (by decide)
@[simp] theorem State.countBadSignature_keeps_staged (s : State) (code : Nat) :
    (State.countBadSignature s code).staged = s.staged :=
  (State.countBadSignature_frame ..).same .staged (by decide)
@[simp] theorem State.countBadSignature_keeps_mem (s : State) (code : Nat) : (State.countBadSignature s code).mem = s.mem :=
  (State.countBadSignature_frame ..).same .mem (by decide)
@[simp] theorem State.countBadSignature_keeps_pwr (s : State) (code : Nat) : (State.countBadSignature s code).pwr = s.pwr :=
  (State.countBadSignature_frame ..).same .pwr (by decide)
@[simp] theorem State.countBadSignature_keeps_clk (s : State) (code : Nat) : (State.countBadSignature s code).clk = s.clk :=
  (State.countBadSignature_frame ..).same .clk (by decide)
@[simp] theorem State.countBadSignature_keeps_tal (s : State) (code : Nat) : (State.countBadSignature s code).tal = s.tal :=
  (State.countBadSignature_frame ..).same .tal (by decide)
@[simp] theorem State.countBadSignature_keeps_ptp (s : State) (code : Nat) : (State.countBadSignature s code).ptp = s.ptp :=
  (State.countBadSignature_frame ..).same .ptp (by decide)
@[simp] theorem State.countBadSignature_keeps_haul (s : State) (code : Nat) :
    (State.countBadSignature s code).haul = s.haul :=
  (State.countBadSignature_frame ..).same .haul (by decide)
@[simp] theorem State.countBadSignature_keeps_sch (s : State) (code : Nat) : (State.countBadSignature s code).sch = s.sch :=
  (State.countBadSignature_frame ..).same .sch (by decide)
@[simp] theorem State.countBadSignature_keeps_pln (s : State) (code : Nat) : (State.countBadSignature s code).pln = s.pln :=
  (State.countBadSignature_frame ..).same .pln (by decide)
@[simp] theorem State.countBadSignature_keeps_top (s : State) (code : Nat) : (State.countBadSignature s code).top = s.top :=
  (State.countBadSignature_frame ..).same .top (by decide)
@[simp] theorem State.countBadSignature_keeps_olc (s : State) (code : Nat) : (State.countBadSignature s code).olc = s.olc :=
  (State.countBadSignature_frame ..).same .olc (by decide)
@[simp] theorem State.countBadSignature_keeps_gen (s : State) (code : Nat) : (State.countBadSignature s code).gen = s.gen :=
  (State.countBadSignature_frame ..).same .gen (by decide)
@[simp] theorem State.countBadSignature_keeps_wgt (s : State) (code : Nat) : (State.countBadSignature s code).wgt = s.wgt :=
  (State.countBadSignature_frame ..).same .wgt (by decide)
@[simp] theorem State.countBadSignature_keeps_bench (s : State) (code : Nat) :
    (State.countBadSignature s code).bench = s.bench :=
  (State.countBadSignature_frame ..).same .bench (by decide)
@[simp] theorem State.countBadSignature_keeps_frk (s : State) (code : Nat) : (State.countBadSignature s code).frk = s.frk :=
  (State.countBadSignature_frame ..).same .frk (by decide)
@[simp] theorem State.countBadSignature_keeps_scr (s : State) (code : Nat) : (State.countBadSignature s code).scr = s.scr :=
  (State.countBadSignature_frame ..).same .scr (by decide)
@[simp] theorem State.countBadSignature_keeps_itk (s : State) (code : Nat) : (State.countBadSignature s code).itk = s.itk :=
  (State.countBadSignature_frame ..).same .itk (by decide)
@[simp] theorem State.countBadSignature_keeps_clocks (s : State) (code : Nat) :
    (State.countBadSignature s code).clocks = s.clocks :=
  (State.countBadSignature_frame ..).same .clocks (by decide)
@[simp] theorem State.countBadSignature_keeps_twn (s : State) (code : Nat) : (State.countBadSignature s code).twn = s.twn :=
  (State.countBadSignature_frame ..).same .twn (by decide)
@[simp] theorem State.countBadSignature_keeps_fst (s : State) (code : Nat) : (State.countBadSignature s code).fst = s.fst :=
  (State.countBadSignature_frame ..).same .fst (by decide)
@[simp] theorem State.countBadSignature_keeps_flt (s : State) (code : Nat) : (State.countBadSignature s code).flt = s.flt :=
  (State.countBadSignature_frame ..).same .flt (by decide)
@[simp] theorem State.countBadSignature_keeps_rrc (s : State) (code : Nat) : (State.countBadSignature s code).rrc = s.rrc :=
  (State.countBadSignature_frame ..).same .rrc (by decide)
@[simp] theorem State.countBadSignature_keeps_obs (s : State) (code : Nat) : (State.countBadSignature s code).obs = s.obs :=
  (State.countBadSignature_frame ..).same .obs (by decide)
@[simp] theorem State.countBadSignature_keeps_nv (s : State) (code : Nat) : (State.countBadSignature s code).nv = s.nv :=
  (State.countBadSignature_frame ..).same .nv (by decide)
@[simp] theorem State.countBadSignature_keeps_sent (s : State) (code : Nat) :
    (State.countBadSignature s code).sent = s.sent :=
  (State.countBadSignature_frame ..).same .sent (by decide)
@[simp] theorem State.countBadSignature_keeps_fresh (s : State) (code : Nat) :
    (State.countBadSignature s code).fresh = s.fresh :=
  (State.countBadSignature_frame ..).same .fresh (by decide)
@[simp] theorem State.countBadSignature_keeps_pending (s : State) (code : Nat) :
    (State.countBadSignature s code).pending = s.pending :=
  (State.countBadSignature_frame ..).pending
@[simp] theorem State.showExt_keeps_pln (s : State) : (State.showExt s).pln = s.pln :=
  (State.showExt_frame ..).same .pln (by decide)
@[simp] theorem State.countGated_keeps_mem (s : State) (b : Nat) (n : Nat) : (State.countGated s b n).mem = s.mem :=
  (State.countGated_frame ..).same .mem (by decide)
@[simp] theorem State.countMatrix_keeps_mem (s : State) (b : Nat) : (State.countMatrix s b).mem = s.mem :=
  (State.countMatrix_frame ..).same .mem (by decide)
@[simp] theorem State.metaErrors_keeps_mem (s : State) (b : Nat) (n : Nat) : (State.metaErrors s b n).mem = s.mem :=
  (State.metaErrors_frame ..).same .mem (by decide)
@[simp] theorem State.setBusy_keeps_mem (s : State) (b : Nat) (page : Nat) (on : Bool) :
    (State.setBusy s b page on).mem = s.mem :=
  (State.setBusy_frame ..).same .mem (by decide)
@[simp] theorem State.loadBenches_keeps_pln (s : State) (p : Plan) : (State.loadBenches s p).pln = s.pln :=
  (State.loadBenches_frame ..).same .pln (by decide)
@[simp] theorem State.newDetours_keeps_pln (s : State) (p : Plan) : (State.newDetours s p).pln = s.pln :=
  (State.newDetours_frame ..).same .pln (by decide)
@[simp] theorem State.showCtx_keeps_pln (s : State) (p : Plan) (x : PlanCtx) : (State.showCtx s p x).pln = s.pln :=
  (State.showCtx_frame ..).same .pln (by decide)
@[simp] theorem State.showPlan_keeps_staged (s : State) (p : Plan) : (State.showPlan s p).staged = s.staged :=
  (State.showPlan_frame ..).same .staged (by decide)
@[simp] theorem State.showPlan_keeps_mem (s : State) (p : Plan) : (State.showPlan s p).mem = s.mem :=
  (State.showPlan_frame ..).same .mem (by decide)
@[simp] theorem State.showPlan_keeps_pwr (s : State) (p : Plan) : (State.showPlan s p).pwr = s.pwr :=
  (State.showPlan_frame ..).same .pwr (by decide)
@[simp] theorem State.showPlan_keeps_clk (s : State) (p : Plan) : (State.showPlan s p).clk = s.clk :=
  (State.showPlan_frame ..).same .clk (by decide)
@[simp] theorem State.showPlan_keeps_tal (s : State) (p : Plan) : (State.showPlan s p).tal = s.tal :=
  (State.showPlan_frame ..).same .tal (by decide)
@[simp] theorem State.showPlan_keeps_ptp (s : State) (p : Plan) : (State.showPlan s p).ptp = s.ptp :=
  (State.showPlan_frame ..).same .ptp (by decide)
@[simp] theorem State.showPlan_keeps_haul (s : State) (p : Plan) : (State.showPlan s p).haul = s.haul :=
  (State.showPlan_frame ..).same .haul (by decide)
@[simp] theorem State.showPlan_keeps_sch (s : State) (p : Plan) : (State.showPlan s p).sch = s.sch :=
  (State.showPlan_frame ..).same .sch (by decide)
@[simp] theorem State.showPlan_keeps_pln (s : State) (p : Plan) : (State.showPlan s p).pln = s.pln :=
  (State.showPlan_frame ..).same .pln (by decide)
@[simp] theorem State.showPlan_keeps_top (s : State) (p : Plan) : (State.showPlan s p).top = s.top :=
  (State.showPlan_frame ..).same .top (by decide)
@[simp] theorem State.showPlan_keeps_olc (s : State) (p : Plan) : (State.showPlan s p).olc = s.olc :=
  (State.showPlan_frame ..).same .olc (by decide)
@[simp] theorem State.showPlan_keeps_gen (s : State) (p : Plan) : (State.showPlan s p).gen = s.gen :=
  (State.showPlan_frame ..).same .gen (by decide)
@[simp] theorem State.showPlan_keeps_wgt (s : State) (p : Plan) : (State.showPlan s p).wgt = s.wgt :=
  (State.showPlan_frame ..).same .wgt (by decide)
@[simp] theorem State.showPlan_keeps_bench (s : State) (p : Plan) : (State.showPlan s p).bench = s.bench :=
  (State.showPlan_frame ..).same .bench (by decide)
@[simp] theorem State.showPlan_keeps_frk (s : State) (p : Plan) : (State.showPlan s p).frk = s.frk :=
  (State.showPlan_frame ..).same .frk (by decide)
@[simp] theorem State.showPlan_keeps_scr (s : State) (p : Plan) : (State.showPlan s p).scr = s.scr :=
  (State.showPlan_frame ..).same .scr (by decide)
@[simp] theorem State.showPlan_keeps_itk (s : State) (p : Plan) : (State.showPlan s p).itk = s.itk :=
  (State.showPlan_frame ..).same .itk (by decide)
@[simp] theorem State.showPlan_keeps_clocks (s : State) (p : Plan) : (State.showPlan s p).clocks = s.clocks :=
  (State.showPlan_frame ..).same .clocks (by decide)
@[simp] theorem State.showPlan_keeps_fst (s : State) (p : Plan) : (State.showPlan s p).fst = s.fst :=
  (State.showPlan_frame ..).same .fst (by decide)
@[simp] theorem State.showPlan_keeps_flt (s : State) (p : Plan) : (State.showPlan s p).flt = s.flt :=
  (State.showPlan_frame ..).same .flt (by decide)
@[simp] theorem State.showPlan_keeps_rrc (s : State) (p : Plan) : (State.showPlan s p).rrc = s.rrc :=
  (State.showPlan_frame ..).same .rrc (by decide)
@[simp] theorem State.showPlan_keeps_obs (s : State) (p : Plan) : (State.showPlan s p).obs = s.obs :=
  (State.showPlan_frame ..).same .obs (by decide)
@[simp] theorem State.showPlan_keeps_nv (s : State) (p : Plan) : (State.showPlan s p).nv = s.nv :=
  (State.showPlan_frame ..).same .nv (by decide)
@[simp] theorem State.showPlan_keeps_sent (s : State) (p : Plan) : (State.showPlan s p).sent = s.sent :=
  (State.showPlan_frame ..).same .sent (by decide)
@[simp] theorem State.showPlan_keeps_fresh (s : State) (p : Plan) : (State.showPlan s p).fresh = s.fresh :=
  (State.showPlan_frame ..).same .fresh (by decide)
@[simp] theorem State.showPlan_keeps_pending (s : State) (p : Plan) : (State.showPlan s p).pending = s.pending :=
  (State.showPlan_frame ..).pending
@[simp] theorem State.showJob_keeps_pln (s : State) : (State.showJob s).pln = s.pln :=
  (State.showJob_frame ..).same .pln (by decide)
@[simp] theorem State.setClock_keeps_csr (s : State) (n : Nat) (c : PtpPort) : (State.setClock s n c).csr = s.csr :=
  congrArg Prod.fst ((State.setClock_frame s n c).same .csr (by decide))
@[simp] theorem State.setClock_keeps_rdAt (fz : Field) (iz : Nat) (s : State) (n : Nat) (c : PtpPort) :
    (State.setClock s n c).rdAt fz iz = s.rdAt fz iz :=
  by unfold State.rdAt; rw [State.setClock_keeps_csr]
@[simp] theorem State.zeroMemory_keeps_bench (s : State) (p : Nat → Bool) : (State.zeroMemory s p).bench = s.bench :=
  (State.zeroMemory_frame ..).same .bench (by decide)
@[simp] theorem State.showBindings_keeps_stage (s : State) : s.showBindings.rd R.PLN_STATUS_STAGE = s.rd R.PLN_STATUS_STAGE := by
  unfold State.showBindings
  refine foldl_keeps (fun u : State => u.rd R.PLN_STATUS_STAGE) _ (fun u x => ?_) _ _
  dsimp only
  split <;> simp (disch := (simp only [Field.key, R.PLN_STATUS_STAGE, R.WGT_CTX_SWAP, R.WGT_CTX_WRITABLE]; omega)) only [State.rd_wrAt_ne]
@[simp] theorem State.showBindings_keeps_id (s : State) : s.showBindings.rd R.PLN_STAGED_ID_ID = s.rd R.PLN_STAGED_ID_ID := by
  unfold State.showBindings
  refine foldl_keeps (fun u : State => u.rd R.PLN_STAGED_ID_ID) _ (fun u x => ?_) _ _
  dsimp only
  split <;> simp (disch := (simp only [Field.key, R.PLN_STAGED_ID_ID, R.WGT_CTX_SWAP, R.WGT_CTX_WRITABLE]; omega)) only [State.rd_wrAt_ne]
theorem State.trace_rdAt_out (fz : Field) (iz : Nat) (s : State) (g f src u c : Nat) (h : fz.key iz ∉ recordKeys) : (s.trace g f src u c).rdAt fz iz = s.rdAt fz iz :=
  (State.trace_recorded s g f src u c).rd fz iz h
@[simp] theorem State.resumeSpill_keeps_forester (s : State) : (s.resumeSpill).pwr.forester = s.pwr.forester :=
  by obtain ⟨u, hu⟩ := (State.resumeSpill_recorded s ).pwr; rw [hu]
@[simp] theorem State.resumeSpill_keeps_bandInhibit (s : State) : (s.resumeSpill).pwr.bandInhibit = s.pwr.bandInhibit :=
  by obtain ⟨u, hu⟩ := (State.resumeSpill_recorded s ).pwr; rw [hu]
theorem State.resumeSpill_rd_out (fz : Field) (s : State) (h : fz.key 0 ∉ recordKeys) : (s.resumeSpill).rd fz = s.rd fz :=
  (State.resumeSpill_recorded s ).rd fz 0 h
@[simp] theorem State.notice_keeps_normalCount (s : State) (a b c d v : Nat) :
    (s.notice a b c d v).pwr.normalCount = s.pwr.normalCount :=
  by obtain ⟨u, hu⟩ := (State.notice_recorded s a b c d v).pwr; rw [hu]
theorem State.notice_rd_out (fz : Field) (s : State) (a b c d v : Nat) (h : fz.key 0 ∉ recordKeys) : (s.notice a b c d v).rd fz = s.rd fz :=
  (State.notice_recorded s a b c d v).rd fz 0 h
@[simp] theorem State.fault_keeps_forester (s : State) (a b c d v : Nat) :
    (s.fault a b c d v).pwr.forester = s.pwr.forester :=
  by obtain ⟨u, hu⟩ := (State.fault_recorded s a b c d v).pwr; rw [hu]
@[simp] theorem State.fault_keeps_throttleAt (s : State) (a b c d v : Nat) :
    (s.fault a b c d v).pwr.throttleAt = s.pwr.throttleAt :=
  by obtain ⟨u, hu⟩ := (State.fault_recorded s a b c d v).pwr; rw [hu]
@[simp] theorem State.fault_keeps_coolantOk (s : State) (a b c d v : Nat) :
    (s.fault a b c d v).pwr.coolantOk = s.pwr.coolantOk :=
  by obtain ⟨u, hu⟩ := (State.fault_recorded s a b c d v).pwr; rw [hu]
theorem State.fault_rd_out (fz : Field) (s : State) (a b c d v : Nat) (h : fz.key 0 ∉ recordKeys) : (s.fault a b c d v).rd fz = s.rd fz :=
  (State.fault_recorded s a b c d v).rd fz 0 h
@[simp] theorem State.corrected_keeps_benchOf (bz : Nat) (s : State) (source : Nat) (code : Nat) (field : Nat) (ctx : Nat) (unit : Nat) (info : Nat) :
    (State.corrected s source code field ctx unit info).benchOf bz = s.benchOf bz :=
  State.benchOf_of_bench ((State.corrected_frame ..).same .bench (by decide)) bz
@[simp] theorem State.countNum_keeps_benchOf (bz : Nat) (s : State) (b : Nat) (l : List (Option NumEvent)) :
    (State.countNum s b l).benchOf bz = s.benchOf bz :=
  State.benchOf_of_bench ((State.countNum_frame ..).same .bench (by decide)) bz
@[simp] theorem State.countGated_keeps_benchOf (bz : Nat) (s : State) (b : Nat) (n : Nat) :
    (State.countGated s b n).benchOf bz = s.benchOf bz :=
  State.benchOf_of_bench ((State.countGated_frame ..).same .bench (by decide)) bz
@[simp] theorem State.countMatrix_keeps_benchOf (bz : Nat) (s : State) (b : Nat) :
    (State.countMatrix s b).benchOf bz = s.benchOf bz :=
  State.benchOf_of_bench ((State.countMatrix_frame ..).same .bench (by decide)) bz
@[simp] theorem State.metaErrors_keeps_benchOf (bz : Nat) (s : State) (b : Nat) (n : Nat) :
    (State.metaErrors s b n).benchOf bz = s.benchOf bz :=
  State.benchOf_of_bench ((State.metaErrors_frame ..).same .bench (by decide)) bz
@[simp] theorem State.setStore_keeps_benchOf (bz : Nat) (s : State) (b : Nat) (o : Nat) (l : List Byte) :
    (State.setStore s b o l).benchOf bz = s.benchOf bz :=
  State.benchOf_of_bench ((State.setStore_frame ..).same .bench (by decide)) bz
@[simp] theorem State.setBusy_keeps_benchOf (bz : Nat) (s : State) (b : Nat) (page : Nat) (on : Bool) :
    (State.setBusy s b page on).benchOf bz = s.benchOf bz :=
  State.benchOf_of_bench ((State.setBusy_frame ..).same .bench (by decide)) bz
@[simp] theorem State.wrAt_keeps_benchOf (bz : Nat) (s : State) (f : Field) (i v : Nat) :
    (s.wrAt f i v).benchOf bz = s.benchOf bz :=
  State.benchOf_of_bench rfl bz
@[simp] theorem State.incAt_keeps_benchOf (bz : Nat) (s : State) (f : Field) (i : Nat) :
    (s.incAt f i).benchOf bz = s.benchOf bz :=
  State.benchOf_of_bench rfl bz
@[simp] theorem State.ite_benchOf (c : Prop) [Decidable c] (s t : State) (b : Nat) :
    (if c then s else t).benchOf b = if c then s.benchOf b else t.benchOf b :=
  by split <;> rfl
theorem wctx_of_wgt {s t : State} (h : t.wgt = s.wgt) (c : Nat) : t.wctx c = s.wctx c := by unfold State.wctx; rw [h]
@[simp] theorem State.showCtx_keeps_wctx (bz : Nat) (s : State) (p : Plan) (x : PlanCtx) :
    (State.showCtx s p x).wctx bz = s.wctx bz :=
  wctx_of_wgt ((State.showCtx_frame ..).same .wgt (by decide)) bz
@[simp] theorem State.wr_keeps_wctx (bz : Nat) (s : State) (f : Field) (v : Nat) : (s.wr f v).wctx bz = s.wctx bz :=
  wctx_of_wgt rfl bz
@[simp] theorem State.wrAt_keeps_wctx (bz : Nat) (s : State) (f : Field) (i v : Nat) : (s.wrAt f i v).wctx bz = s.wctx bz :=
  wctx_of_wgt rfl bz
@[simp] theorem State.inc_keeps_wctx (bz : Nat) (s : State) (f : Field) : (s.inc f).wctx bz = s.wctx bz := wctx_of_wgt rfl bz

end Sys2Proof.Machine
end

