-- ==== Sys2Proof/Laws/Runs.lean ====
section
/-! SUPPORT. What an issued bench operation does to its bench and to memory: the operation runs where the bench may issue, a lane operation writes its lanes, a store writes its own bytes only. -/

namespace Sys2Proof.Machine

open Sys2Proof

theorem State.operate_runs {s : State} {i : Issue} {o : SlotOp} (f : State → State → Res) (h : s.canIssue i o = true) :
    s.operate i o f = f ((s.issued i o).seen i.bench) (s.issued i o) := by
  simp [State.operate, h]

theorem State.reading_runs {s : State} {b : Nat} {l : List (Nat × Nat)} (f : State → Res) (h : spansFit l = true) :
    s.reading b .clean l f = f s := by
  simp [State.reading, h, State.readStore, Ecc.clean]

/-- The bench after one of its slots has issued: the slot is gone, with the first of a bundle the next one follows it, and beyond them
only its cycle and the results not yet visible change. -/
theorem State.issued_benchOf (s : State) (i : Issue) (o : SlotOp) :
    ∃ c l, (s.issued i o).benchOf i.bench = { s.benchOf i.bench with
      next := if (s.benchOf i.bench).slots = [] then (i.pc + 1) % 4096 else (s.benchOf i.bench).next
      slots := dropOne o.slot (s.slotsLeft i), cycle := c, flights := l } := by
  have h (l) : (s.fetchCorrected i l).benchOf i.bench = s.benchOf i.bench :=
    foldl_keeps (fun u : State => u.benchOf i.bench) _ (fun u x => State.corrected_keeps_benchOf ..) _ s
  unfold State.issued
  dsimp only
  split
  · rw [State.wrAt_keeps_benchOf, State.benchOf_setBench, h]
    exact ⟨_, _, rfl⟩
  · rw [State.benchOf_setBench]
    exact ⟨_, _, rfl⟩

theorem State.issued_lane (s : State) (i : Issue) (o : SlotOp) (q m : Nat) :
    ((s.issued i o).benchOf i.bench).lane q m = (s.benchOf i.bench).lane q m := by
  obtain ⟨c, l, h⟩ := s.issued_benchOf i o
  rw [h]; rfl

theorem Bench.setLanes_next (r mask : Nat) (out : List Nat) (x : Bench) (l : Nat) : (x.setLanes r mask l out).next = x.next := by
  induction out generalizing x l with
  | nil => rfl
  | cons v t ih => unfold Bench.setLanes; rw [ih]; split <;> simp [Bench.setLane]

/-- The lanes after a lane operation on one register, of the bench `q` as its bundle sees it. -/
theorem State.laneReg_lane (q s : State) (b : Nat) (v : VecSlot) (k : Nat) (f : Nat → Nat → Nat → Nat × Option NumEvent) (r m : Nat)
    (hm : m < 128) :
    ((q.laneReg s b v k f).benchOf b).lane r m =
      if r % 64 = (v.dst + k) % 64 ∧ bit m ((q.benchOf b).pred v.pred) = true
      then (f ((q.benchOf b).lane (v.s1 + k) m) ((q.benchOf b).lane (v.s2 + k) m) ((q.benchOf b).lane (v.s3 + k) m)).1 % 2 ^ 32
      else (s.benchOf b).lane r m := by
  unfold State.laneReg
  dsimp only
  rw [State.lane_putLanes _ _ _ _ _ (by simp) _ _ hm]
  simp [List.getD_eq_getElem?_getD, hm]

/-- A pair operation on even registers runs and writes its lanes (R168, R170). -/
theorem State.pairOp_lanes (s : State) (i : Issue) (op : Nat) (v : VecSlot) (f : Nat → Nat → Nat → Nat × Option NumEvent)
    (h : s.canIssue i (.vector op v) = true) (he : evenRegs v = true) :
    ∃ t, State.pairOp i op v f s = .next t ∧ ∀ k < 2, ∀ m < 128, (t.benchOf i.bench).lane (v.dst + k) m =
      let x := ((s.issued i (.vector op v)).seen i.bench).benchOf i.bench
      if bit m (x.pred v.pred) = true then (f (x.lane (v.s1 + k) m) (x.lane (v.s2 + k) m) (x.lane (v.s3 + k) m)).1 % 2 ^ 32
      else (s.benchOf i.bench).lane (v.dst + k) m := by
  unfold State.pairOp
  rw [State.operate_runs _ h]
  dsimp only
  rw [if_pos he]
  refine ⟨_, rfl, fun k hk m hm => ?_⟩
  rw [State.laneReg_lane _ _ _ _ _ _ _ _ hm]
  simp only [State.laneReg_lane _ _ _ _ _ _ _ _ hm, State.issued_lane]
  interval_cases k
  · rw [if_neg (by omega)]
    simp
  · simp only [add_zero, true_and]
    split
    · rfl
    · rw [if_neg (by omega)]

/-- A lane operation on one register runs and writes its lanes (R168, R170). -/
theorem State.singleOp_lanes (s : State) (i : Issue) (op : Nat) (v : VecSlot) (f : Nat → Nat → Nat → Nat × Option NumEvent)
    (h : s.canIssue i (.vector op v) = true) :
    ∃ t, State.singleOp i op v f s = .next t ∧ ∀ k < 1, ∀ m < 128, (t.benchOf i.bench).lane (v.dst + k) m =
      let x := ((s.issued i (.vector op v)).seen i.bench).benchOf i.bench
      if bit m (x.pred v.pred) = true then (f (x.lane (v.s1 + k) m) (x.lane (v.s2 + k) m) (x.lane (v.s3 + k) m)).1 % 2 ^ 32
      else (s.benchOf i.bench).lane (v.dst + k) m := by
  unfold State.singleOp
  rw [State.operate_runs _ h]
  refine ⟨_, rfl, fun k hk m hm => ?_⟩
  obtain rfl : k = 0 := by omega
  rw [State.laneReg_lane _ _ _ _ _ _ _ _ hm]
  simp only [State.issued_lane, add_zero, true_and]

theorem State.byte_setByte_ne (s : State) (a b : Nat) (v : Byte) (h : b ≠ a) : (s.setByte a v).byte b = s.byte b := by
  unfold State.byte State.setByte
  exact Tab.get_put_ne _ _ _ h _

theorem State.byte_setBytes_out (s : State) (a : Nat) (l : List Byte) (b : Nat) (h : b < a ∨ a + l.length ≤ b) :
    (s.setBytes a l).byte b = s.byte b := by
  induction l generalizing s a with
  | nil => rfl
  | cons v t ih =>
    simp only [List.length_cons] at h
    unfold State.setBytes
    rw [ih _ _ (by omega), State.byte_setByte_ne _ _ _ _ (by omega)]

theorem State.byte_of_mem {s t : State} (h : t.mem = s.mem) (a : Nat) : t.byte a = s.byte a := by
  unfold State.byte; rw [h]

theorem State.byte_setStore (s : State) (b o : Nat) (l : List Byte) (n a : Nat) (hn : l.length ≤ n)
    (h : a < benchBase b + o ∨ benchBase b + o + n ≤ a) : (s.setStore b o l).byte a = s.byte a := by
  unfold State.setStore
  exact State.byte_setBytes_out _ _ _ _ (by omega)

theorem State.desc_issued (s : State) (i : Issue) (o : SlotOp) (n : Nat) : (s.issued i o).desc i.bench n = s.desc i.bench n := by
  obtain ⟨c, l, h⟩ := s.issued_benchOf i o
  unfold State.desc; rw [h]

/-- A store by an operation changes its own bytes only. -/
theorem State.byte_putStore (s : State) (b o : Nat) (l : List Byte) (n a : Nat) (hn : l.length ≤ n)
    (h : a < benchBase b + o ∨ benchBase b + o + n ≤ a) : (s.putStore b o l).byte a = s.byte a := by
  unfold State.putStore
  dsimp only
  rw [State.byte_setStore _ _ _ _ n a hn h]
  exact State.byte_of_mem rfl a

theorem pack_length (f : Format) (l : List Nat) : (pack f l).length = packedLen f l.length := by
  have h : ∀ n v, (leBytes n v).length = n := by
    intro n; induction n with
    | zero => intro v; rfl
    | succ n ih => intro v; simp [leBytes, ih]
  simp [pack, h]

theorem packedLen_mono (f : Format) {m n : Nat} (h : m ≤ n) : packedLen f m ≤ packedLen f n := by
  unfold packedLen ceilDiv
  have : m * f.width ≤ n * f.width := Nat.mul_le_mul_right _ h
  omega

theorem flatten_length {α : Type} (l : List (List α)) (n : Nat) (h : ∀ x ∈ l, x.length = n) : l.flatten.length = n * l.length := by
  induction l with
  | nil => simp
  | cons a t ih =>
    simp only [List.flatten_cons, List.length_append, List.length_cons]
    rw [ih (fun x hx => h x (List.mem_cons_of_mem _ hx)), h a (List.mem_cons_self ..)]; ring

theorem State.bytes_length (s : State) (a n : Nat) : (s.bytes a n).length = n := by
  induction n generalizing a with
  | zero => rfl
  | succ n ih => simp [State.bytes, ih]

end Sys2Proof.Machine
end

