-- ==== Sys2Proof/Tests/Slice0.lean ====
section
/-! SUPPORT. Tests: for every clause of the statements that has hypotheses, a state and operands that meet them together
(`test_…_meets`); examples that the specification works out; ill-formed commands that WellFormed refuses. A witness of a
clause about a command is named after the command's constructor. -/

namespace Sys2Proof.Tests

open Sys2Proof Sys2Proof.Machine

/-! ## Small states and operands -/

/-- An RSA-4096 modulus and signatures made with its private key outside Lean. -/
def rsaModulus : Nat :=
  0xa7ef5de40273e5e3c8ce87faa9438e21da0517f4129c475e1d5e242504e24213b7fceb5a15bbcbc29991d1621f464704dd6b0ca5195821bc8e874c1e619b0e0eacb94995e2bc874de1f8ab187c43655c802f8306c8d079fdea47958527484c9654f81c360565797cf63323a2a91a5b36d93fde35bc5aa15ddbe1f05c5421476573bb30ef01ef307e31d7b986e157699f27e1f521877dc0f3b119dde845544745314bf7802e72433bfc3b8786f78898f02684e97fd15dfa4b84164d92f15e2389dca2399488b14cd37d8628e8dd8f4bdedc8ca3522a45e61c6146aeea2afe0777d6ec2c6a8d237d110e95eecaf5e884f0c57021c5ea76471f9c96af640dffbf46d14716c21aa9beb84a7e98f247214d536c587393838f8b4f4e7a175c674b9e9804b412186e049f4559352730952504d7493aff72a03d339d887528a352da24583ea547dd1b29de60a3497dbd650d8eff741656c76f2025adde8aca6efb0a25fb2b82b3d2afc9f275b3e55ac23e73f9a766a65c4e8483e4e9556f7f533a0c4b5833e731c50492fa801284f9ff9dece9287ab5a1c777ee678129c3869a496e50d476193d98ee8f955916aac132aefaef7218c114f348ec243690705efc56feff0678a34d1395f678a759e9455db06ae364a9d6a41dc50a04e55496cff4c31363c8ebf6e704d0d4925304e845809019fa1454044dfecb5c67fa2f45fa1c5f2ec553
def rsaEnroll : Nat :=
  0x229f23d058cd07a0a60a93bf5afb148dd56f14acaf793b3254c6eb2f618686174801a33cda5eeeeb39f35da885d0bc4983d8e1eb253b4ceda042ade2ecd27f81e299a3d7a3a7d522cdd806c2e6682a7b01ff8e8f8dfe2b0c78b94a4e0074e21e9193a93ba7dc371bcc0430861c4fdd48c78b89f5a16a91dfc731d78b1e1dc9357ea9945ec5b9702170069ee5b408ba48b89e2b6bb4adad45fcfa47f0dc2705b3a869d7c89ee2c22d9f391f9546085ef1820963596a0086c4243e790403f103d5e0a2420ac193f736ff30383d9552c5d849e150ebeaabe0d08389b0b21bf62f113f01688af739e81f8145c7aa536e68d50d389c739fb3e5ec8ebef64e2f56220e04a8bac338c0f0df283cd076ac1fbe04c5f88f38ff966fe72a4d8422ec5dc214f13bafccdd917c57d0f6f08c2e0c45b57145386afc4ae1855cec23b865ddad9ad27436dc0ae5a8164169fc19412b78924c38fefc42164e9518fde8522735dee10136ea185d1369a3585048e597b8f464df5b186a3f4cb7644c54df9ecf8ef5603fe1891ad6fa6516af4ca82575bc101a40bd77d6b86ac3d74626b9dc4432066099c034712d8cdbe7d68bcfeb6e4e51f9fa4bdc78286c37a87f807b42bb74e4962770aa378566a3ece7e17af27732fc7890ba532d016ed8ff2779506eb1f91039f88b1dd689fb01d44cbe0ab940deae6f62ccb924d881ca58d3f617ffc1a9a122
def rsaRevoke : Nat :=
  0x32b1d90b5205e125382e3bd120e325a97911dca7a04e3fe956a7f8b680091c0374504858d07867f8b701c6e3a882da77e03841403d9d3b31f58c1b4599cf550768ca707e3cefe8b2cd34fb35f5086802c006733794cf4dfede71de3fd851d07346775ca55d126181f3073cfd740e3228d3d7ad2270aa0e3a99e3b1b82db7a17a7c94ad416f26b64edb455a10a67033bf75557c143b9be7818d6d6f2d5d35e08ae75d6cabb20ec1c439ff5e459f99fb3ef7e1d07abc321975c86004f1984b7208fa85f9aef47f42b8c071943d16bb9e60ae8f7bfcf52740a3d4b774e42f6ba4d0596d53ea50873d3e498752ced76c9decfc86c82a3dc60136e2c83edc0bb4f91abf03fcccc672ee75f4c515c03dc9f0eec4cc612c8bd3f87c47f0cde381787fde3516145a340c8c704dcb4253182517da1e4aed2923db191cc69795601e16416a72c892ee5abc315afcda17a33a2ddc8b1913fe8e316a38e036ac94da56ad7162ad941d51471d61506b908d9bbee5c987ab56773341beda52d615b46670370fd3c4263f3ba38589f0f06254fe37664bcfabea5987d5dbee790a05e3f70068f5bf05068573393bfaafe18b89cc93e59b017f4a116ed172e39a8c55aa0d7d6f4dbd39114ccc009712ff0889604e22b6bcf9fed316883135b144165913978cf70de7e1252c489dc988148bb575ebab20a7f98d87a02df83a611d41ec47b2316d28e5
def rsaAnchorSet : Nat :=
  0x298409cf12274bcff4becff2a8c87dfa4a8e0aabcab7fb05120f1cfc290b68b333cd47af69479a5ecbdaf7506f2aeeedecc919736894f663eff60fc58116a6d0642029f67ddfa8375306063ef53d7d527402d90db6ba7175bdd16d789117a12344cc3d66a7cded903524dfec8c8e94622e311aedae764966f89b852fb946f54adceabf72215efaea37efdab1b5559c5ba9fa13e5f666534dc228c422f96e7d0777f416bbc6dc762e916a6875897d7f357d0eddfd7912e30f99766e29680467aace3fa26f79213ccb091a5b39dedb6b4f7b5db5e7c0135d553e3ef250089ad7f4dd64bf8ebeb68b6aecdd7e222e90fbe80b8cf1a687492f466b0bc2b439704a874655291f4204f0cac9f7a61e126ffb86d0dc3dfbaaecf4f6fc01ebfbe6e717dd04d038b71ac13b50454699c41d215014925b3c77a32ff6f688fe09ce6a1105194891f1c80d9a63470591a22fd8d5bf9931970925b0ff8ea59f2d285962ca043f72590a02a69f8a551c621a90e44300215312721ea942f19b70ffa0529770548eba86bad2d8de2f8d805e1ade622757917849470939bddd93d2f0d66ed7c2eca99478af470bce476acf8c064e058d51a19ea7d99f2da2b2d528c2a6eb2ec39f8fac5c799ab1d4cd9d48f71fa5456fde4e854adf23e89574f74934c842ec9c00030e4a42eb27e83ae00fdf60bae90b9e2099f491014f1fa55afc5a31a97ed66ec1
def rsaAnchorClear : Nat :=
  0x5b0df581331cd41ab34255dd620e6f4907adb8863a068162e9cc821ed9c88d892c3859f2a03ea6c2aef320afaa917fa1039097b26f4d710da245f5b7926a72265d214471ed761dd7584e449b80e0de591327ee046230e5fb7925ac4d29dca876bdb58c5627e62f2df64be19138f28d9377fac8a22f960f56e4b63e63a8c5839b444358568825d350f042cb1e8d7682b7ce6604555c49810a887deabb26ab7b2e63301f7ad794177191cb57a58259925f307dfd1a473d634185c42ecdd9a3ca01771819ad676463efd5d239f4088470c79cc6c80c548877561f0474ce3fe6c34b347ccf8923c4360970a9687fc1b435e0e1fe0f36492255ee98f48dd2fad429e114c4811c5746a9249e8e834647bd275c6dc8e963fd8620f4bf872cf625d3d8db0436c32b074d40c8355dc92a90cc3b45fc19a56c137b23badc4979d6fe3188c880059fac581e58249128b7535359129b36287a771c8407cd4bbef69230bce0c767d099bdcf4e414697953e00cf4e91568529b7a5effa3dec759669e110a8634dcb6120586351d3c4d5a5e82d161de021db6ce44ca025da25de4fc387b6dc16c22e6f5c05ae70961e34a33736070aec9d2df46d98d7421c80297820f593d9ba306bdf63cf7ed247447c876ff42d99320124889c3689f18a60e11cfcf2763735d5bdccba4d273f2b567e2bffedda2f5dd175c909d1cccb835963314b03580aa3f9
def rsaClaim : Nat :=
  0x4a33f833489b7b87f95c48e7fd0e22721ff6b477f318e3e10c8aeb169552a01fd766357aa6d201c92a9af8625ab47f9b1c0dc65722faff39009ec156afd04adf565235562228d0a960133b9206450d2ed5ae94fd264d858f1448d851aea0f4cbbf6d7a8aa9fc8ad10497eca50d0c83fb39cf3175db2508c75ed1d0bb0134d2448d95cff4fba3074337042eddb35317e364dcdbca5ccfc382d61602d608f30c1ed86ed3c53f9a00c15f98cea5e5a19563e81b39c25f6bc4a93adfb943007896f62ed45e83f7662a171d52f201d71d5ebe2bf7449527c87a87c312a3df53a05a74ba5c8e9a402d0d57202266d6bcf4e9a47a31413e529b9210e823ee61c887fd4ee82896fedf031dc9ca66818b635664c6d289136692a5ac36acfb75de9edda9d12e4b6660b35157b7f516f9206c8ed9baf62bc3afaddd63d9809a7761b407b14d3c6b953eb330cb474a5619dbd99b11a64b1bee71f73f703cba49b24703fa3a61f380b8714a1fbfa5b961d1632d96df2fbeaf672f02f51e9d78c7307a0306dec70a484b2e423696daf6824593c813fe2fa42d83e713ed67513f569a568133278b465b0fd88e96617a48171640401721f78a0b3cafa766eec0cdb85ad563093a99e1922e492d1b2e8185d920b50e7a74338253f7fc22b496d3b33d67f56145694d6b24b6100f7f3825aee449f9fcda8a60915ddd2297e831c113287ab3e8859698
def noSched : HaulSchedule := { holdParent := 0xFFFF, holdChildren := [], replayGap := 16, budgets := [], entries := [], routes := [] }
def onePlan : Plan :=
  { id := 1, root := [], level := 0, opPoints := 1, stepLen := 3200, q := 16, lead := 32, drainSteps := 0, mask := 1, ramp := 0
    role := 0, modules := [⟨0, 0, false⟩], forwardOnly := false, ports := [], ctxs := [], alloc := [], profiles := [], sched := noSched
    shape := 0, sealTicks := 0, intake := [], kerf := [], reductions := [], programs := [], restores := [], routes := [], forks := [], groups := [], memory := ⟨[], [], []⟩
    tagEngines := 0, bindings := [], latencies := [], uses := [] }
def sendEntry : SchedEntry :=
  { type := .send, ctx := 0, forkEn := false, fork := 0, variants := 0, route := 1, length := 64, slot := false, tick := 0
    counter := 0, bench := 0, d1 := none, d2 := none, peer := 1 }
def recvEntry : SchedEntry := { sendEntry with type := .recv }
def oneFork : ForkPoint :=
  { number := 0, ctx := 0, variants := 2, f := 0, d := 0, k := 0, j := 64, ends := [16, 32], deciderModule := 0, deciderBench := 0
    modules := 1, relays := 0 }
def oneRun : CtxRun := { step := 0, start := 0, holds := 0, running := true, extended := false, drain := none, attempt := 0
                         mark := ⟨0, true, 0⟩ }
def oneJob : Job :=
  { plan := 1, q := 16, lead := 32, stepLen := 3200, sched := noSched, modules := 1, step := 0, stepStart := 0, stepHolds := 0
    holds := 0, points := [], hold := none, holdEnd := 0, notice := none, replay := none, attempt := 0, begun := [] }
def oneIntake : IntakeEntry :=
  { ctx := 0, tsInput := false, respTag := false, ring := false, chainSpan := 0, carryMax := 0, windowTicks := 160
    releaseTicks := 0, slots := 4, carrySlots := 0, maxRequest := 64, resultLength := 16, frameSpacing := 0, perFrame := 1
    blockLog2 := 6, entries := 64, stash := 4, portMask := 1, buffers := 1, salt := [], indexRegion := [], stateRegion := 0, bench := 0
    bufAddr := 0, respAddr := 0, ringBase := 0, ringLog2 := 2, ringEntryLog2 := 6, ringReadMax := 1, ringPeriod := 1 }
def oneIntakeRun : IntakeRun :=
  { window := 0, openAt := 0, prevOpen := 0, open_ := true, closed := false, closeFrom := none, arrivals := [], carried := []
    windows := [], pins := [], openNominal := 0, standby := false, mark := ⟨0, true, 0⟩ }
def oneWindow : WindowRec :=
  { index := 0, openAt := 0, closeAt := 0, opened := ⟨0, true, 0⟩, closed := ⟨0, true, 0⟩, closeNominal := 0, root := [], epoch := 0, slots := [], refusals := [], frames := [0, 0]
    released := false, quarantined := false, setShipped := false, tagsSent := false, compared := false, checks := 0, recheck := none
    theirs := none, stateRead := false, stateWritten := false, indexed := false }
def oneBound : Bound := { root := [], length := 16, sources := [], digests := [(0, [])], binding := [] }
def oneBinding : Binding := { ctx := 0, swap := true, writable := false, imageLength := 16, recheckHbm := 0, recheckDdr := 0, tensors := [], extents := []
                              pairs := [], digest := [] }
def oneChange : Change :=
  { id := 1, kind := 1, ctx := 0, plan := 1, root := 0, neighbours := [], participants := 1, lead := 32, at_ := 64, effect := 64
    state := 1, reason := 0, votes := 0, refusals := 0, point := 0, old := 0, counted := false, undone := false }
/-- Reset with a plan of one module active. -/
def planned (p : Plan) : State := { State.reset with pln := { State.reset.pln with active := some p } }
/-- That with a job in slot 7 and one running context. -/
def running (p : Plan) (j : Job) : State :=
  { State.reset with pln := { State.reset.pln with active := some p, ctxs := [(0, oneRun)] }
                     sch := { State.reset.sch with jobs := [(7, j)] } }
/-- Bench 0 with a bundle at address 0. -/
def coded (w : Nat) : Bench := { Bench.reset with code := (List.range 32).map fun k => (k, BitVec.ofNat 8 (w / 256 ^ k)) }
/-- Bench 0 issuing, with the bundle `w` at hand. -/
def issuing (w : Nat) (s : State) : State := { s with bench := [(0, coded w)] }.wrAt R.BCH_SEQ_STATUS_STATE 0 1
def atIssue : Issue := ⟨0, 0, .clean⟩
/-- Bundles of one operation whose other fields are 0 (R168 to R173): OP at bits 255:250, 207:200, 143:138, 95:90 and 55:50. -/
def matrixOp (op : Nat) : Nat := op * 2 ^ 250
def vectorOp (op : Nat) : Nat := op * 2 ^ 200
def moveOp (op : Nat) : Nat := op * 2 ^ 138
def haulOp (op : Nat) : Nat := op * 2 ^ 90
def controlOp (op : Nat) : Nat := op * 2 ^ 50
def zeroMat : MatSlot := ⟨0, 0, 0, 0⟩
def zeroVec : VecSlot := ⟨0, 0, 0, 0, 0, 0, 0, 0⟩
def zeroMov : MovSlot := ⟨0, 0, 0, 0⟩
def zeroHaul : HaulSlot := ⟨0, 0, 0⟩
def zeroCtl : CtlSlot := ⟨0, 0, 0⟩
def zeroLayout : TileLayout := ⟨0, 0, 0, 0, 0, 0, 0, 0, 0⟩
def zeroCoords : Coords := ⟨0, 0, 0, 0, 0⟩
def fp4Tile : Tile := ⟨.fp4, .fp4, 32, true, false⟩
/-- A route from logical bench 0 to 1. -/
def oneRoute : MeshRoute := ⟨0, 0, 0, 1, 0, 0, 64, [], none, 0⟩
def noReading : PlanReading := ⟨[], [], [], [], [], ⟨[], [], [], [], [], [], [], [], [], [], [], [], []⟩, [], []⟩
def oneReduction : Reduction := ⟨0, 0, 0, 0, false, 128, 1, 0⟩
/-- A PTP message of domain 0 and sequence number 0, from the clock identity of port 0 of a module at reset. -/
def ptpMsg (type : Nat) (interval : Int) (body : List Byte) : PtpMsg := ⟨type, 0, false, 0, zeros 10, 0, interval, body⟩
/-- A link block as it arrives, with no uncorrectable symbol. -/
def wire (b : LinkBlock) : WireBlock := ⟨b.encode, []⟩
/-- A block of one type, in sequence from reset, that acknowledges nothing new. -/
def plainBlock (type : Nat) (data : List Byte) : LinkBlock := ⟨type, 0, 65535, 0, 0, data⟩
/-- Port 0 Up. -/
def upPort (s : State) : State := s.wrAt R.HAUL_PORT_STATUS_STATE 0 6
def oneMarker : Marker := ⟨0, 0, 0, 0, 1, 0⟩
def jobOf (l : List (Nat × SchedEntry)) (r : List RouteEntry) : Job := { oneJob with sched := { noSched with entries := l, routes := r } }
def loaded : SendState := ⟨some 0, none, none, false, false, false, 0, false, false⟩
def missed : RecvState := ⟨[], none, false, 1, some 0⟩
def forwards : Job := jobOf [(0, { sendEntry with type := .fwd })] [⟨1, false, 0, 0, 0⟩]
def transit : HeldBlock := ⟨1, 7, ⟨1, 0, 0, true, false, 0, 0, []⟩, false⟩
def decided (word : Nat) (committed : Bool) : State :=
  let f := if committed then { oneFork with ends := [0, 0], j := 0 } else oneFork
  let s := running { onePlan with forks := [f] } (jobOf [(0, sendEntry)] [])
  { s with frk := { s.frk with forks := [(0, ⟨some word, 0, none, committed, false, 0⟩)] } }
def oneSpan : SealSpan := ⟨0, 0, 1, 0, 0, [], 0, 0, 0, 0, 0, false, []⟩
/-- Strict mode armed, with no plan active. -/
def strictArmed : State :=
  { (State.reset.wr R.GEN_MODE_NEXT_STATE 1).wr R.GEN_MODE_STRICT 0 with gen := { State.reset.gen with modeStrict := true } }
/-- A plan of one module that may be armed at reset. -/
def readyToArm : State :=
  let s := ((State.reset.wr R.PLN_STATUS_STAGE 2).wr R.PLN_ACT_AT_AT 160000000)
  { s with pln := { s.pln with staged := some onePlan }, pwr := { s.pwr with coolantOk := true, dieReset := false } }
def lateWindow : GatherDesc := ⟨20, true, 0, 0, 0, 0, 0, 64, 0, 0, 0, none, 1⟩
def readWindow : GatherDesc := { lateWindow with write := false, length := 4 }
def openGather : Gather := ⟨0, 0, some [], [], true, [], false, 0, none⟩
/-- A window of a running context, at tick 32 of its step. -/
def gathered (write : Bool) : State :=
  let d := if write then lateWindow else readWindow
  let s := running { onePlan with memory := { onePlan.memory with windows := [d] } } oneJob
  let s := { s with scr := { s.scr with windows := [(0, openGather)] } }
  (s.wr R.TAL_NOW_TICKS 32).wr R.GEN_MODE_STRICT 0
def oneImage : Binding := { oneBinding with extents := [⟨0, 16, 0, none⟩] }
def oneDesc : LoadDesc :=
  { ctx := 0, target := 0, shards := 1, length := 16, held := [0], sources := [(2, 0x0C0000000000, 0x0C0000000000)]
    digests := [(0, zeros 64)], covers := [], root := Crypto.sha512 (0x00 :: zeros 64) }
/-- A load descriptor of one shard, from Forester memory, for a context whose binding is staged. -/
def loadable : State :=
  let a := 0x020000000000
  let s := (State.reset.wr R.PLN_STATUS_STAGE 2).wrAt R.WGT_DESC_ADDR 0 a
  let s := { s with pln := { s.pln with staged := some { onePlan with bindings := [oneImage] } } }
  let s := ((s.setBytes a (leBytes 4 0x57534844)).setBytes (a + 4) (leBytes 2 1)).setBytes (a + 8) (leBytes 8 1)
  let s := ((s.setBytes (a + 16) (leBytes 8 16)).setBytes (a + 0x18) (leBytes 2 1)).setBytes (a + 0x1A) (leBytes 2 1)
  let s := (s.setBytes (a + 0x20) oneDesc.root).setBytes (a + 136) (leBytes 8 1)
  ((s.setBytes (a + 144) [2]).setBytes (a + 152) (leBytes 8 0x0C0000000000)).setBytes (a + 160) (leBytes 8 0x0C0000000000)
def loadingLanding : State :=
  { State.reset with wgt := { State.reset.wgt with ctxs := [(0, { WgtCtx.reset with load := some ⟨1, oneBound, [], [], 0⟩ })] } }
/-- A load of one shard, held in DDR, to a target. -/
def shardLoad (target : Nat) : Load := ⟨target, { oneBound with digests := [(0, [])], sources := [(1, 0, 0)] }, [], [], 0⟩
/-- A load whose one shard waits. -/
def loadingShard (target : Nat) : State :=
  let s := planned { onePlan with bindings := [oneBinding] }
  { s with wgt := { s.wgt with ctxs := [(0, { WgtCtx.reset with load := some (shardLoad target) })] } }
/-- An intake frame of the least length between two ports whose MACs are 0. -/
def oneFrame : List Byte := zeros 12 ++ [0x88, 0xB5] ++ zeros 46
/-- A plan with an intake context that runs, whose intake is `r`. -/
def intaking (e : IntakeEntry) (r : IntakeRun) : State :=
  let s := running { onePlan with intake := [e] } oneJob
  { s with itk := { s.itk with runs := [(0, r)] } }
/-- A context whose swap binding and weight state are given. -/
def weighed (w : WgtCtx) : State :=
  let s := planned { onePlan with bindings := [oneBinding] }
  { s with wgt := { s.wgt with ctxs := [(0, w)] } }
def oneSweep : Sweep := ⟨[0], 0, 0, 0, false⟩
def swept : State := weighed { WgtCtx.reset with sweep := some oneSweep, active := some oneBound }
/-- A quarantine notice for context 0 of the plan with identifier 1. -/
def oneNotice : List Byte := leBytes 8 1 ++ [0, 1] ++ zeros 54
/-- PTP port 0 with a master of clock identity 0. -/
def mastered (c : PtpPort) : State := State.reset.setClock 0 c
def onePort : PtpPort := { PtpPort.reset with masters := [⟨0, 0, 0, 0, none⟩], chosen := true }
def oneCtx : PlanCtx := ⟨0, false, false, false, false, false, 0, 0, 0⟩
def oneRequest : Request := ⟨1, 2, 0, 0, [], 0, 0, 0, 0, 0, 0, 0, 0, false, false⟩
def answered : WindowRec := { oneWindow with released := true, refusals := [(oneRequest, 1)] }
/-- Port 0 in a training state. -/
def trainingPort (n : Nat) : State := State.reset.wrAt R.HAUL_PORT_STATUS_STATE 0 n
def oneAnnounce (kind : Nat) : Announce := ⟨1, kind, 0, 0, 1, 0x1FF, 7, 8192, 256, 256, 2000, 160, false⟩
def announceBlock (kind : Nat) (rest : List Byte) : LinkBlock := plainBlock 7 ((oneAnnounce kind).encode ++ rest)
/-- A lane message of the given kind for logical lane 0, from lane 0 to lane 8. -/
def laneBlock (kind op : Nat) : LinkBlock := plainBlock 8 (LaneMsg.encode ⟨kind, 0, 0, 8, op⟩)
/-- Port 0 Up with the given port state. -/
def portWith (h : HaulPort) : State := upPort (State.reset.setPort 0 h)
def oneLaneOp : LaneOp := ⟨0, 0, 8, false⟩
/-- Reset with a job in slot 7 and no plan. -/
def working (j : Job) : State := { State.reset with sch := { State.reset.sch with jobs := [(7, j)] } }
def onePoint : HoldPoint := ⟨0, 1, 1⟩
def oneHold : HoldRun := ⟨0, 0, 1, 1⟩
def oneGap : ReplayRun := { start := 0, mask := 1, attempt := 1, target := 0, gapEnd := 0, phase := .gap, rerunStart := 0, holds := 0 }
def oneHoldNotice : Notice := ⟨1, 64, 0, 0, 1, 1, 0, 0⟩
def oneDisc (op : Nat) (body : List Byte) : DiscPkt := ⟨op, 0, 0, 0, 0, [], [], body⟩
/-- Forwarding slot 0 holds a plan. -/
def forwarding0 (st : Nat) : State :=
  { State.reset.wrAt R.TOP_FWD_STATUS_STATE 0 st with top := { State.reset.top with loads := [(0, ⟨onePlan, 0, none⟩)] } }
/-- A paired module whose port 0 leads to its twin, with context 0 in a pairing mode. -/
def twinned (s : State) (mode role : Nat) : State :=
  ((((upPort s).wrAt R.TOP_PORT_USE 0 4).wr R.TWN_STATUS_STATE 1).wrAt R.TWN_CTX_MODE 0 mode).wr R.TWN_STATUS_ROLE_NOW role
/-- The one block of an item of context 0 and window 0. -/
def itemBlock (kind : Nat) (data : List Byte) : LinkBlock := plainBlock 1 (twinHeader kind 0 0 0 ++ data)
def oneItem (kind : Nat) (data : List Byte) : TwinItem := ⟨kind, 0, 0, 1, [(0, data)], []⟩
def windowed (w : WindowRec) : State := intaking oneIntake { oneIntakeRun with windows := [w] }
def withChange (c : Change) (s : State) : State := { s with olc := { s.olc with changes := [c] } }
/-- A module whose Forester runs and whose session 0 is an Operator's; it is owned, or not yet. -/
def served (owned : Bool) : State :=
  let s := { State.reset with pwr := { State.reset.pwr with forester := true } }
  let s := { s with fst := { s.fst with booted := true, mgmtUp := true, address := true, sessions := [(0, (false, 0))] } }
  (({ s with nv := { s.nv with owned := owned } }.wr R.PWR_STATUS_HOLDUP_OK 1).wr R.SEC_STATUS_RECOVERY 0).wr R.PWR_STATUS_NV_INHIBIT 0
/-- That with the key of the tests in slots 0 and 1. -/
def keyed : State :=
  let k : KeySlot := ⟨some rsaModulus, 0, true, 0⟩
  { served true with nv := { (served true).nv with serial := 0, ownerSeq := 0, keys := [k, k, ⟨none, 0, false, 0⟩, ⟨none, 0, false, 0⟩] } }
def ownerCmd (target key sig : Nat) : OwnerCmd := ⟨target, 0, 0, 0, 1, 0, key, beBytes 512 sig⟩
def oneClaim : OwnerClaim := ⟨zeros 16, rsaModulus, 5, beBytes 512 rsaClaim⟩
def claimable : State := { served false with nv := { (served false).nv with claimDigest := Crypto.sha512 (zeros 16) } }
def oneFault : ErrRec := ⟨0, 0, 0, .contained, 3, 0x20, 0, 0, 0, 0, 0, 1⟩
def faulted : State := { State.reset with flt := { State.reset.flt with primary := some oneFault, seq := 2 } }
/-- A module ready to power its die. -/
def serving0 : State :=
  let s := { State.reset with pwr := { State.reset.pwr with forester := true, shutdown := .none } }
  { s with fst := { s.fst with booted := true } }.wr R.SEC_STATUS_RECOVERY 0

def recvJob : Job := jobOf [(0, recvEntry)] []
/-- A context that runs under a job with one receive. -/
def receiving : State := running onePlan recvJob
/-- A plan of two modules, staged, that may be armed at reset. -/
def twoPlan : Plan := { onePlan with modules := [⟨0, 0, false⟩, ⟨1, 0, false⟩] }
def twoStaged : State := { readyToArm with pln := { readyToArm.pln with staged := some twoPlan } }
/-- Bench 0 issuing an MGR whose descriptor has FORM 2. -/
def blockSparse : State :=
  { issuing (matrixOp 1) State.reset with bench := [(0, { coded (matrixOp 1) with table := [(0, 2 * 2 ^ 242)] })] }
/-- Bench 0 issuing an FDEC with bit 13 of its immediate, in a plan with a fork point. -/
def forking : State := issuing (controlOp 8 + 2 ^ 13) (planned { onePlan with forks := [oneFork] })
/-- Bench 0 issuing a GWIN of a window that has not begun, or that has in this step. -/
def opening (begun : Bool) : State :=
  let s := issuing (moveOp 6) (planned { onePlan with memory := { onePlan.memory with windows := [readWindow] } })
  { s with scr := { s.scr with started := if begun then [windowKey readWindow] else [] } }
/-- Port 0 with lane 0 in calibration since count 0, or with lane 0 Failed, at count `n`. -/
def calibrating (n : Nat) : State := (portWith { HaulPort.reset with calib := some 0 }).wr R.TAL_NOW_TICKS n
def failedLane : State := ((upPort State.reset).wrAt R.HAUL_LANE_MAP_FAILED 0 1).wr R.TAL_NOW_TICKS 1000000000000

/-- Bench 0 issuing a FORK, with fork 0 committed to variant 0 by the word 5, or a TAGR with no room for a tag on the die. -/
def forkRunning : State :=
  let s := issuing (controlOp 9) (running { onePlan with forks := [oneFork] } oneJob)
  { s with frk := { s.frk with forks := [(0, ⟨some 5, 0, none, true, false, 0⟩)] } }
def tagging (l : List (List Byte)) : State :=
  let s := issuing (controlOp 11) (State.reset.wr R.GEN_PROV_EN 0xFFFF)
  { s with gen := { s.gen with stepTags := [(0, l)] } }
theorem tagging_full : (tagging (List.replicate 65536 [])).tagFits 1 = false := by
  have h (l : List (List Byte)) : (tagging l).tagFits 1 = (false || decide (0 + (l.length + 0) + 0 + 1 ≤ 65536)) := rfl
  rw [h, List.length_replicate]
  rfl
/-- Forwarding slot 0 armed for a count. -/
def armedFor (n : Nat) : State :=
  { State.reset.wrAt R.TOP_FWD_STATUS_STATE 0 2 with top := { State.reset.top with loads := [(0, ⟨onePlan, n, none⟩)] } }
def sweptRunning : State := { swept with pln := { swept.pln with ctxs := [(0, oneRun)] } }

/-! ## Witnesses for the clauses about single commands -/

set_option maxRecDepth 100000 in
theorem test_standbyStart_meets : ∃ (s : State) (mv : Nat),
    s.pwr.standby = false ∧ 18000 < mv ∧ mv < 65536 :=
  ⟨(State.reset : State), 18001, by decide⟩

set_option maxRecDepth 100000 in
theorem test_precharge_meets : ∃ (s : State),
    s.pwr.standby = true ∧ s.pwr.stage = .off ∧ s.pwr.retries = 0 ∧ s.pwr.shutdown = .none :=
  ⟨({ State.reset with pwr := { State.reset.pwr with standby := true } } : State), by decide⟩

set_option maxRecDepth 100000 in
theorem test_prechargeDone_meets : ∃ (s : State),
    s.pwr.stage = .precharging :=
  ⟨({ State.reset with pwr := { State.reset.pwr with stage := .precharging } } : State), by decide⟩

set_option maxRecDepth 100000 in
theorem test_prechargeTimeout_meets : ∃ (s : State),
    s.pwr.stage = .precharging :=
  ⟨({ State.reset with pwr := { State.reset.pwr with stage := .precharging } } : State), by decide⟩

set_option maxRecDepth 100000 in
theorem test_prechargeRetry_meets : ∃ (s : State),
    s.pwr.standby = true ∧ s.pwr.stage = .off ∧ 1 ≤ s.pwr.retries ∧ s.pwr.retries ≤ 3 :=
  ⟨({ State.reset with pwr := { State.reset.pwr with standby := true, retries := 3 } } : State), by decide⟩

set_option maxRecDepth 100000 in
theorem test_foresterDomainStart_meets : ∃ (s : State) (mv : Nat) (oscillatorSettled : Bool),
    s.pwr.stage = .closed ∧ s.pwr.forester = false ∧ s.pwr.shutdown = .none ∧ 44000 ≤ mv ∧ oscillatorSettled = true :=
  ⟨({ State.reset with pwr := { State.reset.pwr with stage := .closed } } : State), 44000, true, by decide⟩

set_option maxRecDepth 100000 in
theorem test_holdupSwitchClose_meets : ∃ (s : State),
    s.pwr.forester = true :=
  ⟨({ State.reset with pwr := { State.reset.pwr with forester := true } } : State), by decide⟩

set_option maxRecDepth 100000 in
theorem test_autoRestart_meets : ∃ (s : State),
    s.pwr.shutdown = .off ∧ s.on R.PWR_CTRL_AUTO_RESTART = true ∧ s.pwr.normalCount = true :=
  ⟨((({ State.reset with pwr := { State.reset.pwr with shutdown := .off, normalCount := true } }).wr R.PWR_CTRL_AUTO_RESTART 1) : State), by decide⟩

set_option maxRecDepth 100000 in
theorem test_lowBandEntry_meets : ∃ (s : State) (mv : Nat),
    s.pwr.standby = true ∧ s.pwr.shutdown = .none ∧ mv < 44000 ∧ s.rd R.PWR_STATUS_BAND = 0 :=
  ⟨({ State.reset with pwr := { State.reset.pwr with standby := true } } : State), 43999, by decide⟩

set_option maxRecDepth 100000 in
theorem test_writeInhibitEntry_meets : ∃ (s : State) (mv : Nat),
    s.pwr.standby = true ∧ s.pwr.shutdown = .none ∧ s.pwr.bandInhibit = false ∧ mv < 42000 :=
  ⟨({ State.reset with pwr := { State.reset.pwr with standby := true } } : State), 41999, by decide⟩

set_option maxRecDepth 100000 in
theorem test_writeInhibitExit_meets : ∃ (s : State) (mv : Nat),
    s.pwr.bandInhibit = true ∧ s.rd R.PWR_CTRL_NV_INHIBIT = 0 ∧ 43000 < mv :=
  ⟨({ State.reset with pwr := { State.reset.pwr with bandInhibit := true } } : State), 43001, by decide⟩

set_option maxRecDepth 100000 in
theorem test_sagTimeout_meets : ∃ (s : State),
    s.pwr.sagCount = true ∧ s.pwr.shutdown = .none ∧ s.pwr.forester = true ∧ s.pwr.dieOn = true :=
  ⟨({ State.reset with pwr := { State.reset.pwr with sagCount := true, forester := true, dieOn := true } } : State), by decide⟩

set_option maxRecDepth 100000 in
theorem test_overVoltageTimeout_meets : ∃ (s : State) (mv : Nat),
    s.pwr.standby = true ∧ 60000 < mv ∧ s.pwr.shutdown = .none ∧ s.pwr.forester = true ∧ s.pwr.dieOn = true :=
  ⟨({ State.reset with pwr := { State.reset.pwr with standby := true, forester := true, dieOn := true } } : State), 60001, by decide⟩

set_option maxRecDepth 100000 in
theorem test_sagBandEntry_meets : ∃ (s : State) (mv : Nat),
    s.pwr.standby = true ∧ mv < 40000 ∧ s.pwr.shutdown = .none :=
  ⟨({ State.reset with pwr := { State.reset.pwr with standby := true } } : State), 39999, by decide⟩

set_option maxRecDepth 100000 in
theorem test_normalBandEntry_meets : ∃ (s : State) (mv : Nat),
    s.pwr.standby = true ∧ 44000 ≤ mv ∧ mv ≤ 60000 ∧ s.pwr.shutdown = .none ∧ s.pwr.bandInhibit = false :=
  ⟨({ State.reset with pwr := { State.reset.pwr with standby := true } } : State), 60000, by decide⟩

set_option maxRecDepth 100000 in
theorem test_pwrShutdown_meets : ∃ (s : State),
    s.pwr.shutdown = .none ∧ s.pwr.forester = true ∧ s.pwr.dieOn = true :=
  ⟨({ State.reset with pwr := { State.reset.pwr with forester := true, dieOn := true } } : State), by decide⟩

set_option maxRecDepth 100000 in
theorem test_foresterPowerOff_meets : ∃ (s : State),
    s.pwr.shutdown = .holdUp ∧ s.pwr.units = [] ∧ s.gen.unsigned = [] ∧ s.pwr.inputGone = false :=
  ⟨({ State.reset with pwr := { State.reset.pwr with shutdown := .holdUp } } : State), by decide⟩

set_option maxRecDepth 100000 in
theorem test_currentThrottleAssert_meets : ∃ (s : State) (current : Nat),
    s.pwr.throttleAt ≤ current ∧ s.rd R.PWR_STATUS_THROTTLE = 0 :=
  ⟨(State.reset : State), 6800, by decide⟩

set_option maxRecDepth 100000 in
theorem test_currentThrottleRelease_meets : ∃ (s : State) (current : Nat),
    s.rd R.PWR_STATUS_THROTTLE = 1 ∧ current < 6600 ∧ (s.pwr.coolantOk = true ∨ s.pwr.dieOn = false) :=
  ⟨((State.reset.wr R.PWR_STATUS_THROTTLE 1) : State), 6599, by decide⟩

set_option maxRecDepth 100000 in
theorem test_coolantLeaveLimits_meets : ∃ (s : State) (temp : Nat),
    400 < temp ∧ s.pwr.coolantOk = true :=
  ⟨({ State.reset with pwr := { State.reset.pwr with coolantOk := true } } : State), 401, by decide⟩

set_option maxRecDepth 100000 in
theorem test_coolantShutdownTimeout_meets : ∃ (s : State),
    s.pwr.coolantOk = false ∧ s.pwr.dieOn = true ∧ s.pwr.shutdown = .none ∧ s.pwr.forester = true :=
  ⟨({ State.reset with pwr := { State.reset.pwr with forester := true, dieOn := true, coolantOk := false } } : State), by decide⟩

set_option maxRecDepth 100000 in
theorem test_coolantReentry_meets : ∃ (s : State) (temp : Nat) (flow : Nat),
    s.pwr.coolantOk = false ∧ 155 ≤ temp ∧ temp ≤ 390 ∧ 3200 ≤ flow ∧ flow ≤ 5800 :=
  ⟨({ State.reset with pwr := { State.reset.pwr with coolantOk := false } } : State), 155, 5800, by decide⟩

set_option maxRecDepth 100000 in
theorem test_coolantStartTimeout_meets : ∃ (s : State) (temp : Nat) (flow : Nat),
    s.pwr.forester = true ∧ s.pwr.dieOn = false ∧ temp < 150 ∧ 3000 ≤ flow ∧ flow ≤ 6000 :=
  ⟨({ State.reset with pwr := { State.reset.pwr with forester := true } } : State), 0, 3000, by decide⟩

set_option maxRecDepth 100000 in
theorem test_fillLimitExpiry_meets : ∃ (s : State) (x : FillRun),
    x ∈ s.pwr.fill ∧ x.tapered = false ∧ s.covered = false ∧ x.since + s.rd R.PWR_FILL_LIMIT < s.nominalTime :=
  ⟨({ State.reset with pwr := { State.reset.pwr with fill := [⟨0, 1, 0, false⟩] } }.wr R.TAL_NOW_TICKS 100000000 :
    State), ⟨0, 1, 0, false⟩, by decide⟩

set_option maxRecDepth 100000 in
theorem test_taperStep_meets : ∃ (s : State) (x : TaperRun),
    x ∈ s.pwr.tapers ∧ s.tal.running = true ∧ x.at_ ≤ s.now ∧ (∃ y ∈ s.pwr.tapers, 2 ≤ y.left) :=
  ⟨({ State.reset with pwr := { State.reset.pwr with tapers := [⟨2, 100, 0⟩] }, tal := { State.reset.tal with running := true } }
    : State), ⟨2, 100, 0⟩, by decide⟩

set_option maxRecDepth 100000 in
theorem test_writeUnitRequest_meets : ∃ s : State, s.pwr.forester = true ∧ (s.pwr.units ≠ [] ∨ s.writesAdmitted = true) :=
  ⟨((({ State.reset with pwr := { State.reset.pwr with forester := true } }).wr R.PWR_STATUS_HOLDUP_OK 1) : State), by decide⟩

set_option maxRecDepth 100000 in
theorem test_writeUnitRequest_meets2 : ∃ s : State, s.pwr.forester = true ∧ s.pwr.units = [] ∧ s.writesAdmitted = false :=
  ⟨{ State.reset with pwr := { State.reset.pwr with forester := true } }, by decide⟩

set_option maxRecDepth 100000 in
theorem test_writeUnitCommit_meets : ∃ (s : State) (u : UnitJob) (rest : List UnitJob),
    s.pwr.units = u :: rest :=
  ⟨({ State.reset with pwr := { State.reset.pwr with units := [.eraseSpill, .other .firmware] } } : State), .eraseSpill,
    [.other .firmware], by decide⟩

set_option maxRecDepth 100000 in
theorem test_writeUnitCommit_meets2 : ∃ (s : State) (store : FlashStore),
    s.pwr.units = [.other store] :=
  ⟨({ State.reset with pwr := { State.reset.pwr with units := [.other .firmware] } } : State), .firmware, by decide⟩

set_option maxRecDepth 100000 in
theorem test_holdupTestPeriodic_meets : ∃ (s : State) (mj : Nat),
    s.pwr.forester = true ∧ 1200 ≤ mj ∧ mj < 65536 :=
  ⟨({ State.reset with pwr := { State.reset.pwr with forester := true } } : State), 1200, by decide⟩

set_option maxRecDepth 100000 in
theorem test_pwrHoldupTest_meets : ∃ (s : State) (mj : Nat),
    s.pwr.forester = true ∧ s.pwr.units = [] ∧ mj < 1200 :=
  ⟨({ State.reset with pwr := { State.reset.pwr with forester := true } } : State), 1199, by decide⟩

set_option maxRecDepth 100000 in
theorem test_clearExtremes_meets : ∃ (s : State),
    s.rd R.PWR_VIN_NOW < 65536 :=
  ⟨(State.reset : State), by decide⟩

set_option maxRecDepth 100000 in
theorem test_ttCritTimeout_meets : ∃ (s : State) (region : Fin 39),
    s.onAt R.CLK_RGN_STATUS_TT_CRIT region = true :=
  ⟨(State.reset.wrAt R.CLK_RGN_STATUS_TT_CRIT 0 1 : State), 0, by decide⟩

set_option maxRecDepth 100000 in
theorem test_regionLockTimeout_meets : ∃ (s : State) (region : Fin 39),
    s.onAt R.CLK_RGN_STATUS_LOCK region = false ∧ Tab.get 0 region.val s.clk.relocks < 3 :=
  ⟨(State.reset : State), 0, by decide⟩

set_option maxRecDepth 100000 in
theorem test_fchgArm_meets : ∃ (s : State),
    s.rd R.CLK_FCHG_CTRL_STATE = 0 ∧ s.on R.CLK_FCHG_CTRL_KIND = true ∧ s.last R.CLK_FCHG_CTRL_REGION ≤ 38 ∧
    s.last R.CLK_FCHG_AT_AT % 16 = 0 ∧ s.planActive = false :=
  ⟨(((State.reset).wr R.CLK_FCHG_CTRL_KIND 1) : State), by decide⟩

set_option maxRecDepth 100000 in
theorem test_fchgDisarm_meets : ∃ (s : State),
    s.rd R.CLK_FCHG_CTRL_STATE = 1 ∧ (s.clk.fchgStop = true → s.now ≠ s.clk.fchgAt) ∧ (s.clk.fchgStop = false →
    s.clk.standbyLocked = true → s.clk.fchgAt ≤ s.now → s.atStepStart = false) ∧ (5, 0) ∉ s.olc.applied :=
  ⟨((State.reset).wr R.CLK_FCHG_CTRL_STATE 1 : State), by decide⟩

set_option maxRecDepth 100000 in
theorem test_fchgDisarm_meets2 : ∃ (s : State),
    s.rd R.CLK_FCHG_CTRL_STATE = 1 ∧ s.clk.fchgStop = true ∧ s.now = s.clk.fchgAt :=
  ⟨({ (State.reset).wr R.CLK_FCHG_CTRL_STATE 1 with clk := { State.reset.clk with fchgStop := true } } : State), by
    decide⟩

set_option maxRecDepth 100000 in
theorem test_regionStop_meets : ∃ (s : State),
    s.rd R.CLK_FCHG_CTRL_STATE = 1 ∧ s.clk.fchgStop = true ∧ s.now = s.clk.fchgAt ∧ s.clk.fchgRegion < 39 ∧ s.planActive =
    false :=
  ⟨((({ State.reset with clk := { State.reset.clk with fchgStop := true } }).wr R.CLK_FCHG_CTRL_STATE 1) : State), by
    decide⟩

set_option maxRecDepth 100000 in
theorem test_regionRestart_meets : ∃ (s : State),
    s.rd R.CLK_FCHG_CTRL_STATE = 2 ∧ s.clk.fchgStop = true ∧ s.clk.fchgRegion < 39 ∧ s.now % 16 = 0 ∧ s.now ≤ s.clk.fchgAt
    + 3563 :=
  ⟨((({ State.reset with clk := { State.reset.clk with fchgStop := true, fchgRegion := 38 } }).wr R.CLK_FCHG_CTRL_STATE
    2) : State), by decide⟩

set_option maxRecDepth 100000 in
theorem test_standbyLoopsLocked_meets : ∃ (s : State),
    s.rd R.CLK_FCHG_CTRL_STATE = 1 ∧ s.clk.fchgStop = false :=
  ⟨(((State.reset).wr R.CLK_FCHG_CTRL_STATE 1) : State), by decide⟩

set_option maxRecDepth 100000 in
theorem test_syncChangeSwitch_meets : ∃ (s : State),
    s.rd R.CLK_FCHG_CTRL_STATE = 1 ∧ s.clk.fchgStop = false ∧ s.clk.standbyLocked = true ∧ s.clk.fchgAt ≤ s.now ∧
    s.atStepStart = true :=
  ⟨({ (running onePlan oneJob).wr R.CLK_FCHG_CTRL_STATE 1 with clk := { State.reset.clk with standbyLocked := true } } : State), by decide⟩

set_option maxRecDepth 100000 in
theorem test_lateEntry_meets : ∃ (s : State) (reader : Fin 39) (writer : Fin 39),
    64 * writer.val + reader.val ∈ s.clk.stalled ∧ s.crossingFree (64 * writer + reader) = true :=
  ⟨({ State.reset with clk := { State.reset.clk with stalled := [1] } } : State), 1, 0, by decide⟩

set_option maxRecDepth 100000 in
theorem test_beatBoundary_meets : ∃ (s : State),
    s.tal.running = true ∧ s.now % 16 = 0 :=
  ⟨({ State.reset with tal := { State.reset.tal with running := true } } : State), by decide⟩

set_option maxRecDepth 100000 in
theorem test_holdoverEntry_meets : ∃ (s : State),
    s.rd R.TAL_STATUS_ROLE = 0 ∧ s.on R.TAL_STATUS_HOLDOVER = false ∧
    s.tal.lastMarker + usTicks (s.rd R.TAL_CTRL_LOSS_US) ≤ s.now :=
  ⟨((((State.reset).wr R.TAL_NOW_TICKS 10000000).wr R.TAL_STATUS_ROLE 0) : State), by decide⟩

set_option maxRecDepth 100000 in
theorem test_alignNow_meets : ∃ (s : State),
    s.planActive = false :=
  ⟨(State.reset : State), by decide⟩

set_option maxRecDepth 100000 in
theorem test_timeMapSend_meets : ∃ (s : State),
    s.rd R.TAL_STATUS_ROLE = 1 ∧ s.on R.TAL_CTRL_PTP_FOLLOW = true :=
  ⟨(((((State.reset).wr R.TAL_STATUS_ROLE 1)).wr R.TAL_CTRL_PTP_FOLLOW 1) : State), by decide⟩

set_option maxRecDepth 100000 in
theorem test_timeMapReceived_meets : ∃ (pkt : TimePkt),
    pkt.op = 1 ∧ pkt.tally < 2 ^ 64 ∧ pkt.ptpS < 2 ^ 48 :=
  ⟨⟨1, 0, 0, 0, 0, 0, 5, 6, 7⟩, by decide⟩

set_option maxRecDepth 100000 in
theorem test_timeQueryReceived_meets : ∃ (pkt : TimePkt),
    pkt.op = 2 :=
  ⟨⟨2, 0, 0, 0, 0, 0, 5, 6, 7⟩, by decide⟩

set_option maxRecDepth 100000 in
theorem test_markerReceived_meets : ∃ (s : State) (port : Fin 16) (blk : WireBlock) (b : LinkBlock) (m : Marker),
    (s.accept port blk).2 = some b ∧ b.type = 6 ∧ Marker.decode b.data = some m ∧ m.hops < 8 ∧
    (s.accept port blk).1.rd R.TAL_STATUS_ROLE = 0 ∧ (s.accept port blk).1.rd R.TAL_STATUS_UPSTREAM = port.val :=
  ⟨(upPort ((State.reset.wr R.TAL_STATUS_ROLE 0).wr R.TAL_STATUS_UPSTREAM 0) : State), 0, wire (plainBlock 6 oneMarker.encode), plainBlock 6 oneMarker.encode, oneMarker, by decide⟩

set_option maxRecDepth 100000 in
theorem test_vcmp_meets : ∃ (s : State) (u : State) (q : State) (i : Issue) (v : VecSlot),
    s.canIssue i (.vector 0x10 v) = true ∧ s.issued i (.vector 0x10 v) = u ∧ u.seen i.bench = q ∧ evenRegs v = true ∧
    v.imm.val % 8 < 4 :=
  ⟨(issuing (vectorOp 0x10) (State.reset) : State), _, _, atIssue, zeroVec, by decide, rfl, rfl, by decide, by decide⟩

set_option maxRecDepth 100000 in
theorem test_vcvt_meets : ∃ (s : State) (u : State) (x : Bench) (i : Issue) (v : VecSlot) (d : Desc) (g : Format) (f :
    Format),
    s.canIssue i (.vector 0x30 v) = true ∧ s.issued i (.vector 0x30 v) = u ∧ (u.seen i.bench).benchOf i.bench = x ∧ u.desc
    i.bench (v.imm % 256) = d ∧ formatOf d.aFmt = some g ∧ formatOf v.fmt = some f ∧ (roundingOf f v.rm 0).isSome =
    true :=
  ⟨(issuing (vectorOp 0x30 + 10 * 2 ^ 172) State.reset : State), _, _, atIssue, ⟨0, 0, 0, 0, 10, 0, 0, 0⟩, _,
    Format.fp4, Format.fp32, by decide, rfl, rfl, rfl, by decide, by decide, by decide⟩

set_option maxRecDepth 100000 in
theorem test_vcvb_meets : ∃ (s : State) (u : State) (x : Bench) (i : Issue) (v : VecSlot) (scaleOff : Nat) (d : Desc)
    (f : Format),
    s.canIssue i (.vector 0x31 v) = true ∧ s.issued i (.vector 0x31 v) = u ∧ (u.seen i.bench).benchOf i.bench = x ∧ u.desc
    i.bench (v.imm % 256) = d ∧ formatOf v.fmt = some f ∧ f.scalable = true ∧ (roundingOf f v.rm 0).isSome = true ∧
    spansFit [(128 * d.outScale + scaleOff, 4)] = true :=
  ⟨(issuing (vectorOp 0x31) (State.reset) : State), _, _, atIssue, zeroVec, 0, _, .fp4, by decide, rfl, rfl, rfl, by
    decide, by decide, by decide, by decide⟩

set_option maxRecDepth 100000 in
theorem test_vtlv_meets : ∃ (s : State) (u : State) (q : State) (x : Bench) (i : Issue) (v : VecSlot) (head : Nat)
    (tree : Fin 65536) (level : Fin 12) (ecc : Ecc) (e : Ensemble),
    s.canIssue i (.vector 0x40 v) = true ∧ s.issued i (.vector 0x40 v) = u ∧ u.seen i.bench = q ∧ q.benchOf i.bench = x ∧
    q.ensemble? i.bench head = some e ∧ head + 8 ≤ storeSize ∧ treeAt head e tree + 8 * level.val + 8 ≤ storeSize ∧
    ecc = .clean :=
  ⟨((issuing (vectorOp 0x40) State.reset).setStore 0 0 (leBytes 8 0x77001) : State), _, _, _, atIssue, zeroVec, 0, 0, 0,
    .clean, ⟨0, 7, 7, 1⟩, by decide, rfl, rfl, rfl, by decide, by decide, by decide, by decide⟩

set_option maxRecDepth 100000 in
theorem test_vtlf_meets : ∃ (s : State) (u : State) (q : State) (x : Bench) (i : Issue) (v : VecSlot) (head : Nat)
    (tree : Fin 65536) (ecc : Ecc) (e : Ensemble),
    s.canIssue i (.vector 0x41 v) = true ∧ s.issued i (.vector 0x41 v) = u ∧ u.seen i.bench = q ∧ q.benchOf i.bench = x ∧
    q.ensemble? i.bench head = some e ∧ head + 8 ≤ storeSize ∧ (∀ l < 128, treeAt head e tree + 8 * e.depth + 4 *
    (x.lane v.s1 l % 2 ^ e.depth) + 4 ≤ storeSize) ∧ ecc = .clean :=
  ⟨((issuing (vectorOp 0x41) State.reset).setStore 0 0 (leBytes 8 0x77001) : State), _, _, _, atIssue, zeroVec, 0, 0,
    .clean, ⟨0, 7, 7, 1⟩, by decide, rfl, rfl, rfl, by decide, by decide, by decide, by decide⟩

set_option maxRecDepth 100000 in
theorem test_vred_meets : ∃ (s : State) (u : State) (q : State) (i : Issue) (v : VecSlot) (r : Reduction),
    s.canIssue i (.vector 0x48 v) = true ∧ s.issued i (.vector 0x48 v) = u ∧ u.seen i.bench = q ∧ u.reduction? (u.issuer
    i.bench) (u.desc i.bench (v.imm % 256)).reduction = some r :=
  ⟨(issuing (vectorOp 0x48) (running { onePlan with reductions := [oneReduction] } oneJob) : State), _, _, atIssue,
    zeroVec, oneReduction, by decide, rfl, rfl, by decide⟩

set_option maxRecDepth 100000 in
theorem test_vkrf_meets : ∃ (s : State) (u : State) (x : Bench) (i : Issue) (v : VecSlot) (r : KerfStream),
    s.canIssue i (.vector 0x50 v) = true ∧ s.issued i (.vector 0x50 v) = u ∧ (u.seen i.bench).benchOf i.bench = x ∧
    u.stream (u.issuer i.bench) (u.desc i.bench (v.imm % 256)).stream = r :=
  ⟨(issuing (vectorOp 0x50) (State.reset) : State), _, _, atIssue, zeroVec, _, by decide, rfl, rfl, rfl⟩

set_option maxRecDepth 100000 in
theorem test_mgr_meets : ∃ (s : State) (u : State) (q : State) (i : Issue) (m : MatSlot) (l : TileLayout) (ecc : Ecc)
    (d : Desc) (tl : Tile),
    s.canIssue i (.matrix 1 m) = true ∧ s.issued i (.matrix 1 m) = u ∧ u.seen i.bench = q ∧ u.desc i.bench m.desc = d ∧
    tileOf d = some tl ∧ d.form ≠ 2 ∧ spansFit (denseSpans d tl m l) = true ∧ ecc = .clean :=
  ⟨(issuing (matrixOp 1) (State.reset) : State), _, _, atIssue, zeroMat, zeroLayout, .clean, _, fp4Tile, by decide, rfl,
    rfl, rfl, by decide, by decide, by decide, by decide⟩

set_option maxRecDepth 100000 in
theorem test_mgb_meets : ∃ (s : State) (u : State) (q : State) (i : Issue) (m : MatSlot) (l : TileLayout) (axis : Nat)
    (ecc : Ecc) (d : Desc) (tl : Tile) (all : List Nat) (blocks : List (Nat × Nat)),
    s.canIssue i (.matrix 2 m) = true ∧ s.issued i (.matrix 2 m) = u ∧ u.seen i.bench = q ∧ u.desc i.bench m.desc = d ∧
    tileOf d = some tl ∧ d.form = 2 ∧ q.presentBlocks i.bench d axis = all ∧ ((all.filter fun k => Tab.get 0 (64 *
    m.desc.val + m.acc.val) (u.benchOf i.bench).pass ≤ k).take 2).map (fun k => (k, (all.filter (· < k)).length)) =
    blocks ∧ spansFit ((128 * d.bitmap, 8 * ceilDiv axis 1024) :: (blocks.map fun x => blockSpans d tl m l x.1
    x.2).flatten) = true ∧ ecc = .clean :=
  ⟨({ issuing (matrixOp 2) State.reset with bench := [(0, { coded (matrixOp 2) with table := [(0, 2 * 2 ^ 242)] })] }.setStore
    0 0 [0x11] : State), _, _, atIssue, ⟨0, 0, 0, 0⟩, zeroLayout, 128, .clean, _, fp4Tile, [0, 4], [(0, 0), (4, 1)],
    by decide, rfl, rfl, rfl, by decide, by decide, by decide, by decide, by decide, by decide⟩

set_option maxRecDepth 100000 in
theorem test_mpa_meets : ∃ (s : State) (u : State) (q : State) (i : Issue) (m : MatSlot) (l : TileLayout) (ecc : Ecc)
    (d : Desc) (tl : Tile),
    s.canIssue i (.matrix 3 m) = true ∧ s.issued i (.matrix 3 m) = u ∧ u.seen i.bench = q ∧ u.desc i.bench m.desc = d ∧
    tileOf d = some tl ∧ tl.exact = true ∧ spansFit (tileSpans tl l m.a 256) = true ∧ ecc = .clean :=
  ⟨(issuing (matrixOp 3) (State.reset) : State), _, _, atIssue, zeroMat, zeroLayout, .clean, _, fp4Tile, by decide, rfl,
    rfl, rfl, by decide, by decide, by decide, by decide⟩

set_option maxRecDepth 100000 in
theorem test_mcv_meets : ∃ (s : State) (u : State) (q : State) (i : Issue) (m : MatSlot) (l : TileLayout) (half : Fin
    2) (k : Coords) (ecc : Ecc) (d : Desc) (tl : Tile) (f : Format),
    s.canIssue i (.matrix 4 m) = true ∧ s.issued i (.matrix 4 m) = u ∧ u.seen i.bench = q ∧ u.desc i.bench m.desc = d ∧
    tileOf d = some tl ∧ formatOf d.outFmt = some f ∧ (roundingOf f d.rm 0).isSome = true ∧ spansFit (((q.tileOut
    i.bench d tl m l f half k).writes.map fun x => (x.1, x.2.length)) ++ scaleSpans d tl l) = true ∧ ecc = .clean :=
  ⟨(issuing (matrixOp 4) (State.reset) : State), _, _, atIssue, zeroMat, zeroLayout, 0, zeroCoords, .clean, _, fp4Tile,
    .fp4, by decide, rfl, rfl, rfl, by decide, by decide, by decide, by decide, by decide⟩

set_option maxRecDepth 100000 in
theorem test_mxp_meets : ∃ (s : State) (u : State) (x : Bench) (i : Issue) (m : MatSlot) (l : TileLayout) (d : Desc)
    (tl : Tile),
    s.canIssue i (.matrix 5 m) = true ∧ s.issued i (.matrix 5 m) = u ∧ (u.seen i.bench).benchOf i.bench = x ∧ u.desc
    i.bench m.desc = d ∧ tileOf d = some tl ∧ tl.exact = true ∧ spansFit (tileSpans tl l m.b 256) = true :=
  ⟨(issuing (matrixOp 5) (State.reset) : State), _, _, atIssue, zeroMat, zeroLayout, _, fp4Tile, by decide, rfl, rfl,
    rfl, by decide, by decide, by decide⟩

set_option maxRecDepth 100000 in
theorem test_vld_meets : ∃ (s : State) (u : State) (q : State) (i : Issue) (m : MovSlot) (ecc : Ecc),
    s.canIssue i (.move 1 m) = true ∧ s.issued i (.move 1 m) = u ∧ u.seen i.bench = q ∧ 128 * m.addr.val + 512 ≤ storeSize
    ∧ ecc = .clean :=
  ⟨(issuing (moveOp 1) (State.reset) : State), _, _, atIssue, zeroMov, .clean, by decide, rfl, rfl, by decide, by
    decide⟩

set_option maxRecDepth 100000 in
theorem test_vst_meets : ∃ (s : State) (u : State) (q : State) (i : Issue) (m : MovSlot),
    s.canIssue i (.move 2 m) = true ∧ s.issued i (.move 2 m) = u ∧ u.seen i.bench = q ∧ 128 * m.addr.val + 512 ≤ storeSize
    :=
  ⟨(issuing (moveOp 2) (State.reset) : State), _, _, atIssue, zeroMov, by decide, rfl, rfl, by decide⟩

set_option maxRecDepth 100000 in
theorem test_copy_meets : ∃ (s : State) (u : State) (q : State) (i : Issue) (m : MovSlot) (ecc : Ecc),
    s.canIssue i (.move 3 m) = true ∧ s.issued i (.move 3 m) = u ∧ u.seen i.bench = q ∧ 128 * m.addr.val + 128 * (m.id.val
    + 1) ≤ storeSize ∧ 128 * m.addr2.val + 128 * (m.id.val + 1) ≤ storeSize ∧ ecc = .clean :=
  ⟨(issuing (moveOp 3) (State.reset) : State), _, _, atIssue, zeroMov, .clean, by decide, rfl, rfl, by decide, by
    decide, by decide⟩

set_option maxRecDepth 100000 in
theorem test_msnd_meets : ∃ (s : State) (u : State) (q : State) (i : Issue) (m : MovSlot) (ecc : Ecc) (r : MeshRoute),
    s.canIssue i (.move 4 m) = true ∧ s.issued i (.move 4 m) = u ∧ u.seen i.bench = q ∧ u.meshRoute? i.bench m.id = some r
    ∧ 128 * m.addr.val + r.length ≤ storeSize ∧ ecc = .clean :=
  ⟨(issuing (moveOp 4) (planned { onePlan with routes := [oneRoute] }) : State), _, _, atIssue, zeroMov, .clean,
    oneRoute, by decide, rfl, rfl, by decide, by decide, by decide⟩

set_option maxRecDepth 100000 in
theorem test_mrcv_meets : ∃ (s : State) (i : Issue) (m : MovSlot),
    s.canIssue i (.move 5 m) = true :=
  ⟨(issuing (moveOp 5) (State.reset) : State), atIssue, zeroMov, by decide⟩

set_option maxRecDepth 100000 in
theorem test_gwin_meets : ∃ (s : State) (u : State) (i : Issue) (m : MovSlot) (d : GatherDesc),
    s.canIssue i (.move 6 m) = true ∧ s.issued i (.move 6 m) = u ∧ u.windowOf? i.bench m.id = some d :=
  ⟨(issuing (moveOp 6) (planned { onePlan with memory := { onePlan.memory with windows := [readWindow] } }) : State), _,
    atIssue, zeroMov, readWindow, by decide, rfl, by decide⟩

set_option maxRecDepth 100000 in
theorem test_zfill_meets : ∃ (s : State) (u : State) (i : Issue) (m : MovSlot),
    s.canIssue i (.move 7 m) = true ∧ s.issued i (.move 7 m) = u ∧ 128 * m.addr.val + 128 * (m.id.val + 1) ≤ storeSize :=
  ⟨(issuing (moveOp 7) (State.reset) : State), _, atIssue, zeroMov, by decide, rfl, by decide⟩

set_option maxRecDepth 100000 in
theorem test_bref_meets : ∃ (s : State) (u : State) (q : State) (i : Issue) (m : MovSlot) (ecc : Ecc),
    s.canIssue i (.move 8 m) = true ∧ s.issued i (.move 8 m) = u ∧ u.seen i.bench = q ∧ 128 * m.addr.val + 8192 ≤
    storeSize ∧ ecc = .clean :=
  ⟨(issuing (moveOp 8) (State.reset) : State), _, _, atIssue, zeroMov, .clean, by decide, rfl, rfl, by decide, by
    decide⟩

set_option maxRecDepth 100000 in
theorem test_meshTransferComplete_meets : ∃ (s : State) (bench : Fin 792) (route : Fin 256) (r : MeshRoute) (data :
    List Byte) (a : Nat),
    s.meshRoute? bench route = some r ∧ Tab.find? route.val (s.benchOf bench).handed = some data ∧ Tab.find? r.bind
    (s.benchOf (s.physical r.dest)).bound = some a ∧ s.meshArrived bench route r = true :=
  ⟨({ planned { onePlan with routes := [oneRoute] } with bench := [(0, { Bench.reset with handed := [(0, [1])] }), (1, { Bench.reset with bound := [(0, 256)] })], clk := { State.reset.clk with flits := [(0, [1])] } }
    : State), 0, 0, oneRoute, [1], 256, by decide⟩

set_option maxRecDepth 100000 in
theorem test_beat_meets : ∃ (s : State) (u : State) (i : Issue) (c : CtlSlot),
    s.canIssue i (.control 1 c) = true ∧ s.issued i (.control 1 c) = u :=
  ⟨(issuing (controlOp 1) (State.reset) : State), _, atIssue, zeroCtl, by decide, rfl⟩

set_option maxRecDepth 100000 in
theorem test_step_meets : ∃ (s : State) (i : Issue) (c : CtlSlot),
    s.canIssue i (.control 2 c) = true :=
  ⟨(issuing (controlOp 2) (State.reset) : State), atIssue, zeroCtl, by decide⟩

set_option maxRecDepth 100000 in
theorem test_jump_meets : ∃ (s : State) (i : Issue) (c : CtlSlot),
    s.canIssue i (.control 3 c) = true :=
  ⟨(issuing (controlOp 3) (State.reset) : State), atIssue, zeroCtl, by decide⟩

set_option maxRecDepth 100000 in
theorem test_lset_meets : ∃ (s : State) (i : Issue) (c : CtlSlot),
    s.canIssue i (.control 4 c) = true :=
  ⟨(issuing (controlOp 4) (State.reset) : State), atIssue, zeroCtl, by decide⟩

set_option maxRecDepth 100000 in
theorem test_loop_meets : ∃ (s : State) (i : Issue) (c : CtlSlot) (n : Nat),
    s.canIssue i (.control 5 c) = true ∧ Tab.get 0 (c.arg.val % 16) ((s.issued i (.control 5 c)).benchOf i.bench).loops =
    n + 1 :=
  ⟨({ issuing (controlOp 5) State.reset with bench := [(0, { coded (controlOp 5) with loops := [(0, 2)] })] } : State),
    atIssue, zeroCtl, 1, by decide⟩

set_option maxRecDepth 100000 in
theorem test_cset_meets : ∃ (s : State) (i : Issue) (c : CtlSlot),
    s.canIssue i (.control 6 c) = true :=
  ⟨(issuing (controlOp 6) (State.reset) : State), atIssue, zeroCtl, by decide⟩

set_option maxRecDepth 100000 in
theorem test_waitc_meets : ∃ (s : State) (i : Issue) (c : CtlSlot),
    s.canIssue i (.control 7 c) = true :=
  ⟨(issuing (controlOp 7) (State.reset) : State), atIssue, zeroCtl, by decide⟩

set_option maxRecDepth 100000 in
theorem test_fdec_meets : ∃ (s : State) (u : State) (q : State) (i : Issue) (c : CtlSlot) (f : ForkPoint),
    s.canIssue i (.control 8 c) = true ∧ c.imm.val < 2 ^ 13 ∧ s.issued i (.control 8 c) = u ∧ u.seen i.bench = q ∧ u.fork?
    c.arg = some f :=
  ⟨(issuing (controlOp 8) (planned { onePlan with forks := [oneFork] }) : State), _, _, atIssue, zeroCtl, oneFork, by
    decide, by decide, rfl, rfl, by decide⟩

set_option maxRecDepth 100000 in
theorem test_brefDone_meets : ∃ (s : State) (bench : Fin 792) (page : Fin 16),
    Tab.get 0 page.val (s.benchOf bench).refills ≤ s.now :=
  ⟨(State.reset : State), 0, 0, by decide⟩

set_option maxRecDepth 100000 in
theorem test_fork_meets : ∃ (s : State) (i : Issue) (c : CtlSlot),
    s.canIssue i (.control 9 c) = true ∧ (∀ f, (s.issued i (.control 9 c)).fork? c.arg = some f → (s.issued i (.control 9
    c)).variantRuns f = false) :=
  ⟨(issuing (controlOp 9) (State.reset) : State), atIssue, zeroCtl, by decide, by
    intro f h; have h2 : none = some f := h; cases h2⟩

set_option maxRecDepth 100000 in
theorem test_fork_meets2 : ∃ (s : State) (u : State) (i : Issue) (c : CtlSlot) (f : ForkPoint) (w : Nat),
    s.canIssue i (.control 9 c) = true ∧ s.issued i (.control 9 c) = u ∧ u.fork? c.arg = some f ∧ (u.forkRun c.arg).word =
    some w ∧ u.variantRuns f = true :=
  ⟨(forkRunning : State), _, atIssue, zeroCtl, oneFork, 5, by decide, rfl, by decide, by decide, by decide⟩

set_option maxRecDepth 100000 in
theorem test_bkfl_meets : ∃ (s : State) (i : Issue) (c : CtlSlot),
    s.canIssue i (.control 10 c) = true ∧ (∀ f, (s.issued i (.control 10 c)).fork? c.arg = some f → ((s.issued i (.control
    10 c)).forkRun f.number).ended = false) :=
  ⟨(issuing (controlOp 10) (State.reset) : State), atIssue, zeroCtl, by decide, by
    intro f h; have h2 : none = some f := h; cases h2⟩

set_option maxRecDepth 100000 in
theorem test_tagr_meets : ∃ (s : State) (u : State) (q : State) (i : Issue) (c : CtlSlot) (t : TagInput) (ecc : Ecc)
    (x : Nat),
    s.canIssue i (.control 11 c) = true ∧ 128 * (c.imm.val % 16384) + 16 * c.arg.val ≤ storeSize ∧ ecc = .clean ∧ s.issued
    i (.control 11 c) = u ∧ u.seen i.bench = q ∧ u.rdAt R.BCH_SEQ_STATUS_CTX i.bench = x ∧ (bit (s.rdAt
    R.BCH_SEQ_STATUS_CTX i.bench) (s.rd R.GEN_PROV_EN) = true → s.tagFits 1 = true) ∧ bit x (u.rd R.GEN_PROV_EN) =
    true ∧ u.intake? x = none ∧ (u.readSpans x t.samples).2 = true :=
  ⟨(issuing (controlOp 11) (State.reset.wr R.GEN_PROV_EN 0xFFFF) : State), _, _, atIssue, zeroCtl, ⟨0, 0, 0, 0, []⟩,
    .clean, _, by decide, by decide, by decide, rfl, rfl, rfl, by decide, by decide, by decide, by decide⟩

set_option maxRecDepth 100000 in
theorem test_tagr_meets2 : ∃ (s : State) (i : Issue) (c : CtlSlot),
    s.canIssue i (.control 11 c) = true ∧ bit (s.rdAt R.BCH_SEQ_STATUS_CTX i.bench) (s.rd R.GEN_PROV_EN) = true ∧
    s.tagFits 1 = false :=
  ⟨(tagging (List.replicate 65536 []) : State), atIssue, zeroCtl, by decide, by decide, tagging_full⟩

set_option maxRecDepth 100000 in
theorem test_benchScrub_meets : ∃ (s : State) (bench : Fin 792) (ecc : Ecc) (n : Nat),
    ecc = .clean ∧ (s.scrubNext (32 + bench.val) (storeSize / 8)).2.2 = some n ∧ n < 2 ^ 32 :=
  ⟨({ State.reset with scr := { State.reset.scr with scrub := [(32, (storeSize / 8 - 1, 0))] } } : State), 0, .clean, 0,
    by decide⟩

set_option maxRecDepth 100000 in
theorem test_hput_meets : ∃ (s : State) (u : State) (q : State) (i : Issue) (h : HaulSlot) (ecc : Ecc) (e :
    SchedEntry),
    s.canIssue i (.haul 1 h) = true ∧ s.issued i (.haul 1 h) = u ∧ u.seen i.bench = q ∧ u.haulEntry? h = some e ∧ 128 *
    h.addr.val + e.length ≤ storeSize ∧ ecc = .clean :=
  ⟨(issuing (haulOp 1) (running onePlan (jobOf [(0, sendEntry)] [])) : State), _, _, atIssue, zeroHaul, .clean,
    sendEntry, by decide, rfl, rfl, by decide, by decide, by decide⟩

set_option maxRecDepth 100000 in
theorem test_hget_meets : ∃ (s : State) (i : Issue) (h : HaulSlot),
    s.canIssue i (.haul 2 h) = true :=
  ⟨(issuing (haulOp 2) (State.reset) : State), atIssue, zeroHaul, by decide⟩

set_option maxRecDepth 100000 in
theorem test_hvod_meets : ∃ (s : State) (u : State) (i : Issue) (h : HaulSlot) (e : SchedEntry),
    s.canIssue i (.haul 3 h) = true ∧ s.issued i (.haul 3 h) = u ∧ u.haulEntry? h = some e :=
  ⟨(issuing (haulOp 3) (running onePlan (jobOf [(0, sendEntry)] [])) : State), _, atIssue, zeroHaul, sendEntry, by
    decide, rfl, by decide⟩

set_option maxRecDepth 100000 in
theorem test_sendDeparture_meets : ∃ (s : State) (port : Fin 16) (entry : Fin 32768) (j : Job) (e : SchedEntry) (x :
    SendState),
    s.job? 7 = some j ∧ j.entry? (entryKey port entry) = some e ∧ e.type = .send ∧ s.ctxRunning e.ctx = true ∧ s.due e.ctx
    e.tick = true ∧ s.variantActive e.ctx (if e.forkEn then some e.fork else none) e.variants = true ∧ s.sendState
    (entryKey port entry) = x ∧ x.sent = false ∧ x.noPath = false ∧ x.late = false ∧ s.sendBefore j (entryKey port
    entry) e = false :=
  ⟨({ running onePlan (jobOf [(0, sendEntry)] []) with sch := { (running onePlan (jobOf [(0, sendEntry)] [])).sch with sends := [(0, loaded)] } }
    : State), 0, 0, jobOf [(0, sendEntry)] [], sendEntry, loaded, by decide⟩

set_option maxRecDepth 100000 in
theorem test_forwardDeparture_meets : ∃ (s : State) (port : Fin 16) (entry : Fin 32768) (b : HeldBlock) (j : Job),
    s.nextForward port entry = some (b, j) ∧ s.shareSpent j port = false :=
  ⟨({ running onePlan forwards with sch := { (running onePlan forwards).sch with held := [transit] } } : State), 0, 0,
    transit, forwards, by decide⟩

set_option maxRecDepth 100000 in
theorem test_detourDeparture_meets : ∃ (s : State) (port : Fin 16) (entry : Fin 32768) (j : Job) (e : SchedEntry),
    s.job? 7 = some j ∧ j.entry? (entryKey port entry) = some e ∧ s.due e.ctx e.tick = true :=
  ⟨(running onePlan (jobOf [(0, sendEntry)] []) : State), 0, 0, jobOf [(0, sendEntry)] [], sendEntry, by decide⟩

set_option maxRecDepth 100000 in
theorem test_recvDeadlineCheck_meets : ∃ (s : State) (port : Fin 16) (entry : Fin 32768) (j : Job) (e : SchedEntry),
    s.job? 7 = some j ∧ j.entry? (entryKey port entry) = some e ∧ e.type = .recv ∧ s.ctxRunning e.ctx = true ∧ s.due e.ctx
    e.tick = true ∧ s.variantActive e.ctx (if e.forkEn then some e.fork else none) e.variants = true ∧ (s.recvState
    (entryKey port entry)).fails = 0 ∧ (s.recvState (entryKey port entry)).done = false :=
  ⟨(running onePlan (jobOf [(0, recvEntry)] []) : State), 0, 0, jobOf [(0, recvEntry)] [], recvEntry, by decide⟩

set_option maxRecDepth 100000 in
theorem test_repeatedDeadlineCheck_meets : ∃ (s : State) (port : Fin 16) (entry : Fin 32768) (j : Job) (e : SchedEntry) (n : Nat),
    s.job? 7 = some j ∧ j.entry? (entryKey port entry) = some e ∧
    (s.recvState (entryKey port entry)).recheck = some n ∧ n ≤ s.now ∧ s.ctxRunning e.ctx = true ∧
    (s.recvState (entryKey port entry)).done = false :=
  ⟨({ running onePlan (jobOf [(0, recvEntry)] []) with sch := { (running onePlan (jobOf [(0, recvEntry)] [])).sch with recv := [(0, missed)] } } : State), 0, 0, jobOf [(0, recvEntry)] [], recvEntry, 0, by decide⟩

set_option maxRecDepth 100000 in
theorem test_forkDecisionSend_meets : ∃ (s : State) (port : Fin 16) (entry : Fin 32768) (fork : Fin 4096) (j : Job) (f
    : ForkPoint) (e : SchedEntry) (w : Nat) (path : Nat),
    s.job? 7 = some j ∧ s.fork? fork = some f ∧ j.entry? (entryKey port entry) = some e ∧ (s.forkRun fork).word = some w ∧
    e.type = .send ∧ s.ctxRunning e.ctx = true ∧ s.due e.ctx e.tick = true ∧ (s.sendState (entryKey port entry)).sent
    = false ∧ (s.sendState (entryKey port entry)).noPath = false ∧ (s.forkRun fork).sent < 64 ∧ s.openPath j (entryKey
    port entry) e = some path :=
  ⟨(decided 5 false : State), 0, 0, 0, jobOf [(0, sendEntry)] [], oneFork, sendEntry, 5, 0, by decide⟩

set_option maxRecDepth 100000 in
theorem test_forkDecisionReceived_meets : ∃ (s : State) (header : Nat) (f : ForkPoint),
    headerOk (beBytes 16 header) = true ∧ beAt 0 1 (beBytes 16 header) / 16 = 3 ∧
    s.fork? (beAt 0 2 (beBytes 16 header) % 4096) = some f ∧ s.ctxRunning f.ctx = true ∧
    beAt 4 4 (beBytes 16 header) = s.step32 f.ctx ∧ (s.forkRun f.number).word = none :=
  ⟨(running { onePlan with forks := [oneFork] } oneJob : State), beAt 0 16 (slotBytes 3 0 0 0 1), oneFork, by decide⟩

set_option maxRecDepth 100000 in
theorem test_forkDeadlineCheck_meets : ∃ (s : State) (fork : Fin 4096) (f : ForkPoint),
    s.fork? fork = some f ∧ s.forkDue f = true ∧ (s.forkRun fork).committed = false ∧ (s.forkRun fork).word = none ∧
    (s.forkRun fork).holds < s.rd R.FRK_CTRL_MAX_HOLDS :=
  ⟨((running { onePlan with forks := [oneFork] } oneJob).wr R.FRK_CTRL_MAX_HOLDS 1 : State), 0, oneFork, by decide⟩

set_option maxRecDepth 100000 in
theorem test_forkCommit_meets : ∃ (s : State) (fork : Fin 4096) (f : ForkPoint) (w : Nat),
    s.fork? fork = some f ∧ s.ctxRunning f.ctx = true ∧ s.due f.ctx f.k = true ∧ s.ctxPos f.ctx < f.j ∧
    (s.forkRun fork).committed = false ∧ (s.forkRun fork).word = some w :=
  ⟨(decided 1 false : State), 0, oneFork, 1, by decide⟩

set_option maxRecDepth 100000 in
theorem test_forkVariantEnd_meets : ∃ (s : State) (fork : Fin 4096) (f : ForkPoint) (w : Nat),
    s.fork? fork = some f ∧ (s.forkRun fork).word = some w ∧ (s.forkRun fork).committed = true ∧ (s.forkRun fork).ended =
    false ∧ s.due f.ctx (f.ends.getD (variantOf f w) f.j) = true :=
  ⟨(decided 1 true : State), 0, { oneFork with ends := [0, 0], j := 0 }, 1, by decide⟩

set_option maxRecDepth 100000 in
theorem test_forkRejoin_meets : ∃ (s : State) (fork : Fin 4096) (f : ForkPoint),
    s.fork? fork = some f ∧ (s.forkRun fork).committed = true ∧ s.due f.ctx f.j = true :=
  ⟨(decided 1 true : State), 0, { oneFork with ends := [0, 0], j := 0 }, by decide⟩

set_option maxRecDepth 100000 in
theorem test_genModeArm_meets : ∃ (s : State),
    s.planActive = false ∧ s.last R.GEN_MODE_AT_AT % 16 = 0 ∧ s.now < s.last R.GEN_MODE_AT_AT ∧
    s.last R.GEN_MODE_NEXT_STRICT = 1 :=
  ⟨((State.reset.wr R.GEN_MODE_AT_AT 64).wr R.GEN_MODE_NEXT_STRICT 1 : State), by decide⟩

set_option maxRecDepth 100000 in
theorem test_genModeDisarm_meets : ∃ (s : State),
    s.rd R.GEN_MODE_NEXT_STATE = 1 ∧ s.modeReady = false ∧ (4, 0) ∉ s.olc.applied :=
  ⟨({ State.reset.wr R.GEN_MODE_NEXT_STATE 1 with gen := { State.reset.gen with modeAt := 16 } } : State), by decide⟩

set_option maxRecDepth 100000 in
theorem test_genModeDisarm_meets2 : ∃ (s : State),
    s.rd R.GEN_MODE_NEXT_STATE = 1 ∧ s.modeReady = true :=
  ⟨(State.reset.wr R.GEN_MODE_NEXT_STATE 1 : State), by decide⟩

set_option maxRecDepth 100000 in
theorem test_modeChangeEffect_meets : ∃ (s : State),
    s.rd R.GEN_MODE_NEXT_STATE = 1 ∧ s.planActive = false ∧ s.gen.modeAt ≤ s.now ∧ s.gen.modeStrict = true ∧
    s.rd R.GEN_MODE_STRICT = 0 :=
  ⟨(strictArmed : State), by decide⟩

set_option maxRecDepth 100000 in
theorem test_sealSigned_meets : ∃ (s : State) (b : List Byte) (rest : List (List Byte)),
    s.gen.unsigned = b :: rest ∧ s.pwr.dieOn = true :=
  ⟨({ State.reset with gen := { State.reset.gen with unsigned := [[1]] }, pwr := { State.reset.pwr with dieOn := true } }
    : State), [1], [], by decide⟩

set_option maxRecDepth 100000 in
theorem test_sealCloseNow_meets : ∃ (s : State),
    ((Tab.find? (s.rd R.GEN_SEAL_CTRL_CONTEXT) s.gen.spans).isSome = true ∨ s.ctxRunning (s.rd R.GEN_SEAL_CTRL_CONTEXT) =
    true) :=
  ⟨({ State.reset with gen := { State.reset.gen with spans := [(0, oneSpan)] } } : State), by decide⟩

set_option maxRecDepth 100000 in
theorem test_plnVerify_meets : ∃ (s : State),
    s.pln.armed = false ∧ s.scr.stageReady = true :=
  ⟨({ State.reset with scr := { State.reset.scr with stageReady := true } } : State), by decide⟩

set_option maxRecDepth 100000 in
theorem test_verifyComplete_meets : ∃ (s : State) (reading : PlanReading) (l : List Section) (p : Plan),
    s.rd R.PLN_STATUS_STAGE = 1 ∧ s.stagedSections = l ∧ s.stagedPlan l reading = p :=
  ⟨(State.reset.wr R.PLN_STATUS_STAGE 1 : State), noReading, _, _, by decide, rfl, rfl⟩

set_option maxRecDepth 100000 in
theorem test_plnDiscard_meets : ∃ (s : State),
    s.pln.armed = false :=
  ⟨(State.reset : State), by decide⟩

set_option maxRecDepth 100000 in
theorem test_plnArm_meets : ∃ (s : State) (twinFault : Bool) (p : Plan),
    s.pln.staged = some p ∧ p.count ≤ 1 ∧ s.pln.loading = false ∧ s.armCode (s.last R.PLN_ACT_AT_AT) twinFault = 0 :=
  ⟨(readyToArm : State), false, onePlan, by decide⟩

set_option maxRecDepth 100000 in
theorem test_plnDisarm_meets : ∃ (s : State),
    s.pln.armed = true ∧ s.pln.loading = false ∧ (1, 0) ∉ s.olc.applied ∧ (2, 0) ∉ s.olc.applied ∧ (s.pln.stopArmed = true
    → s.pln.draining = false → s.now < s.pln.stopAt) :=
  ⟨({ State.reset with pln := { (State.reset).pln with armed := true } } : State), by decide⟩

set_option maxRecDepth 100000 in
theorem test_plnDisarm_meets2 : ∃ (s : State),
    ((1, 0) ∈ s.olc.applied ∨ (2, 0) ∈ s.olc.applied) :=
  ⟨({ State.reset with olc := { State.reset.olc with applied := [(2, 0)] } } : State), by decide⟩

set_option maxRecDepth 100000 in
theorem test_loadPhaseStart_meets : ∃ (s : State) (p : Plan),
    s.pln.staged = some p ∧ s.pln.armed = true ∧ s.pln.loading = false ∧ s.planActive = false ∧ s.now + 16 ≤ s.pln.actAt ∧
    s.pwr.dieReset = false :=
  ⟨({ State.reset with pln := { (State.reset).pln with staged := some onePlan, armed := true, actAt := 16 }, pwr := { State.reset.pwr with dieReset := false } }
    : State), onePlan, by decide⟩

set_option maxRecDepth 100000 in
theorem test_activation_meets : ∃ (s : State) (p : Plan),
    s.pln.staged = some p ∧ s.pln.armed = true ∧ s.pln.loading = true ∧ s.planActive = false ∧ s.now = s.pln.actAt ∧
    s.pwr.shutdown = .none ∧ s.pwr.dieReset = false :=
  ⟨({ State.reset with pln := { (State.reset).pln with staged := some onePlan, armed := true, loading := true }, pwr := { State.reset.pwr with dieReset := false } }
    : State), onePlan, by decide⟩

set_option maxRecDepth 100000 in
theorem test_activationFailed_meets : ∃ (s : State) (u : State),
    s.pln.armed = true ∧ s.pln.actAt ≤ s.now + 16 ∧ s.armedChange? 1 0 = none ∧ s.unload = u :=
  ⟨({ State.reset with pln := { (State.reset).pln with armed := true } } : State), _, by decide, by decide, by decide,
    rfl⟩

set_option maxRecDepth 100000 in
theorem test_plnStopArm_meets : ∃ (s : State) (p : Plan),
    s.pln.active = some p ∧ p.count ≤ 1 ∧ s.pln.draining = false ∧ s.last R.PLN_STOP_AT_AT % 16 = 0 ∧
    s.now < s.last R.PLN_STOP_AT_AT :=
  ⟨((planned onePlan).wr R.PLN_STOP_AT_AT 64 : State), onePlan, by decide⟩

set_option maxRecDepth 100000 in
theorem test_drainEnd_meets : ∃ (s : State) (u : State),
    s.pln.draining = true ∧ s.pln.rampDown = none ∧ s.planActive = true ∧ s.planCtxs.all (fun x => !s.ctxRunning x.ctx) =
    true ∧ s.closeSpans = u :=
  ⟨({ planned onePlan with pln := { (planned onePlan).pln with draining := true } } : State), _, by decide, by decide,
    by decide, by decide, rfl⟩

set_option maxRecDepth 100000 in
theorem test_rampDownEnd_meets : ∃ (s : State) (n : Nat),
    s.pln.rampDown = some n ∧ s.timeDue (n + match s.profile with | some f => lastPosition f.down | none => 0) = true :=
  ⟨({ planned onePlan with pln := { (planned onePlan).pln with rampDown := some 0 } } : State), 0, by decide⟩

set_option maxRecDepth 100000 in
theorem test_plnAbort_meets : ∃ (s : State),
    s.planActive = true :=
  ⟨(planned onePlan : State), by decide⟩

set_option maxRecDepth 100000 in
theorem test_plnCtxRestart_meets : ∃ (s : State) (p : Plan),
    s.pln.active = some p ∧ p.count ≤ 1 ∧ s.last R.PLN_ACT_AT_AT % 16 = 0 ∧ s.now + armLead ≤ s.last R.PLN_ACT_AT_AT ∧
    s.ctxRunning (s.rd R.PLN_CTRL_CTX) = false ∧ (s.ctx? (s.rd R.PLN_CTRL_CTX)).isSome = true ∧
    s.pln.draining = false ∧ s.ctxReady p (s.rd R.PLN_CTRL_CTX) = true :=
  ⟨({ (planned onePlan).wr R.PLN_ACT_AT_AT 160000000 with pln := { ((planned onePlan).wr R.PLN_ACT_AT_AT 160000000).pln with ctxs := [(0, { oneRun with running := false })] } } : State), onePlan, by decide⟩

set_option maxRecDepth 100000 in
theorem test_contextResume_meets : ∃ (s : State) (ctx : Fin 16) (p : Plan) (r : CtxRun) (n : Nat),
    s.pln.active = some p ∧ s.ctx? ctx = some r ∧ Tab.find? ctx.val s.pln.restarts = some n ∧ n ≤ s.now ∧ r.start = s.now
    ∧ r.running = false ∧ s.pwr.shutdown = .none :=
  ⟨({ planned onePlan with pln := { (planned onePlan).pln with ctxs := [(0, { oneRun with running := false })], restarts := [(0, 0)] } }
    : State), 0, onePlan, { oneRun with running := false }, 0, by decide⟩

set_option maxRecDepth 100000 in
theorem test_contextReset_meets : ∃ (s : State) (ctx : Fin 16),
    s.planActive = true ∧ (s.ctx? ctx).isSome = true :=
  ⟨((running onePlan oneJob).wr R.TAL_NOW_TICKS 5 : State), 0, by decide⟩

set_option maxRecDepth 100000 in
theorem test_gatherWindowComplete_meets : ∃ (s : State) (index : Nat) (d : GatherDesc) (g : Gather),
    s.memPlan.windows[index]? = some d ∧ Tab.find? (windowKey d) s.scr.windows = some g ∧ g.moved = true ∧ s.ctxRunning
    d.ctx = true ∧ s.due d.ctx (s.windowEnd d g) = true ∧ (g.early = true ∨ s.windowPassed d g = true) :=
  ⟨(gathered true : State), 0, lateWindow, openGather, by decide⟩

set_option maxRecDepth 100000 in
theorem test_gatherEarlyEnd_meets : ∃ (s : State) (index : Nat) (d : GatherDesc) (g : Gather),
    s.memPlan.windows[index]? = some d ∧ Tab.find? (windowKey d) s.scr.windows = some g ∧ s.mayChoose R.GEN_MODE_EN_GATHER
    = true ∧ d.write = false ∧ g.moved = true ∧ g.early = false ∧ s.beatRuns d.ctx = true ∧ 16 * (d.start + g.late +
    2) ≤ s.ctxPos d.ctx + g.shift ∧ s.ctxPos d.ctx < s.windowEnd d g :=
  ⟨(gathered false : State), 0, readWindow, openGather, by decide⟩

set_option maxRecDepth 100000 in
theorem test_serviceAccess_meets : ∃ (write : Bool),
    write = false :=
  ⟨false, by decide⟩

set_option maxRecDepth 100000 in
theorem test_memoryTempReadout_meets : ∃ (ddr : Bool),
    ddr = false :=
  ⟨false, by decide⟩

set_option maxRecDepth 100000 in
theorem test_tempLimitTimeout_meets : ∃ (s : State) (ddr : Bool) (unit : Fin 20),
    ddr = false ∧ s.onAt R.HBM_STACK_OVER_LIMIT unit = true :=
  ⟨(State.reset.wrAt R.HBM_STACK_OVER_LIMIT 0 1 : State), false, 0, by decide⟩

set_option maxRecDepth 100000 in
theorem test_patrolScrubRead_meets : ∃ (s : State) (unit : Fin 21) (u : State) (ch : Nat) (k : Nat) (pass : Option
    Nat),
    (if unit.val < 20 then s.on R.HBM_CFG_SCRUB_EN else s.on R.DTR_CFG_SCRUB_EN) = true ∧ channelAt (burstAt unit (match
    Tab.find? unit.val s.scr.scrub with | some x => x.1 | none => 0)).1 = ch ∧ s.upkeepWaits unit = false ∧
    s.upkeepFree ch = true ∧ (s.takeUpkeep ch).scrubNext unit (burstsOf unit) = (u, k, pass) :=
  ⟨(State.reset.wr R.HBM_CFG_SCRUB_EN 1 : State), 0, _, _, _, _, by decide, rfl, by decide, by decide, rfl⟩

set_option maxRecDepth 100000 in
theorem test_memoryTrainingDone_meets : ∃ (s : State),
    3 ≤ s.pwr.railsUp :=
  ⟨({ State.reset with pwr := { State.reset.pwr with railsUp := 3 } } : State), by decide⟩

set_option maxRecDepth 100000 in
theorem test_planStageWriteDone_meets : ∃ (s : State),
    s.pwr.railsUp = 3 ∧ s.scr.stageReady = false :=
  ⟨({ State.reset with pwr := { State.reset.pwr with railsUp := 3 } } : State), by decide⟩

set_option maxRecDepth 100000 in
theorem test_wgtLoadStart_meets : ∃ (s : State) (d : LoadDesc) (b : Binding),
    s.descriptorLost (s.rd R.WGT_LOAD_CTRL_CONTEXT) = false ∧ s.startCode (s.rd R.WGT_LOAD_CTRL_CONTEXT) false = (0, some
    d) ∧ s.binding? (s.rd R.WGT_LOAD_CTRL_CONTEXT) = some b :=
  ⟨(loadable : State), oneDesc, oneImage, by decide⟩

set_option maxRecDepth 100000 in
theorem test_wgtLoadAbort_meets : ∃ (s : State) (u : State) (l : Load),
    (s.wctx (s.rd R.WGT_LOAD_CTRL_CONTEXT)).load = some l ∧ l.target = 1 ∧ s.dropCopies (s.rd R.WGT_LOAD_CTRL_CONTEXT)
    false (fun _ => true) = u :=
  ⟨(loadingLanding : State), _, ⟨1, oneBound, [], [], 0⟩, by decide, by decide, rfl⟩

set_option maxRecDepth 100000 in
theorem test_shardAttemptDone_meets : ∃ (s : State) (ctx : Fin 16) (shard : Nat) (l : Load) (b : Binding) (e : Nat ×
    Nat × Nat),
    s.attempt? ctx shard = some (l, b) ∧ l.target ≠ 2 ∧ sourceOf l.bound (l.attempt shard).1 = some e ∧ s.inPlace e shard
    = true ∧ s.olicoUp = true :=
  ⟨((loadingShard 1).wr R.OLC_STATUS_STATE 2 : State), 0, 0, shardLoad 1, oneBinding, (1, 0, 0), by decide⟩

set_option maxRecDepth 100000 in
theorem test_shardAttemptDone_meets2 : ∃ (s : State) (v : State) (w : State) (ctx : Fin 16) (shard : Nat) (l : Load)
    (b : Binding) (held : Bool),
    s.attempt? ctx shard = some (l, b) ∧ l.target = 2 ∧ (l.attempt shard).2 + hashTicks (shardLen b.imageLength shard) ≤
    s.now ∧ s.fetchShard b l.bound (s.loadBank b 2) shard false none = (v, true) ∧ (l.attempt shard).2 + hashTicks
    (shardLen b.imageLength shard) ≤ v.now ∧ (v.dropCopies ctx false (· == shard)).checkShard b l.bound (s.loadBank b
    2) shard = (w, held) :=
  ⟨((loadingShard 2).wr R.TAL_NOW_TICKS 100000000 : State), _, _, 0, 0, shardLoad 2, oneBinding, _, by decide, by
    decide, by decide, Prod.ext rfl (by decide), by decide, rfl⟩

set_option maxRecDepth 100000 in
theorem test_shardAttemptTimeout_meets : ∃ (s : State) (ctx : Fin 16) (shard : Nat) (l : Load) (b : Binding),
    s.attempt? ctx shard = some (l, b) ∧ s.timedOut (l.attempt shard).2 = true :=
  ⟨(((loadingShard 2).wr R.OLC_STATUS_STATE 2).wr R.TAL_NOW_TICKS 100000000 : State), 0, 0, shardLoad 2, oneBinding, by
    decide⟩

set_option maxRecDepth 100000 in
theorem test_swapArm_meets : ∃ (s : State) (p : Plan),
    s.pln.active = some p ∧ p.count ≤ 1 ∧ s.rdAt R.WGT_CTX_LANDING (s.rd R.WGT_SWAP_CTRL_CONTEXT) = 3 ∧
    s.nextBatch (s.rd R.WGT_SWAP_CTRL_CONTEXT) ≤ s.lastAt R.WGT_SWAP_BATCH_BATCH (s.rd R.WGT_SWAP_CTRL_CONTEXT) ∧
    s.onAt R.WGT_CTX_SWAP_ARMED (s.rd R.WGT_SWAP_CTRL_CONTEXT) = false :=
  ⟨(((planned onePlan).wrAt R.WGT_CTX_LANDING 0 3) : State), onePlan, by decide⟩

set_option maxRecDepth 100000 in
theorem test_swapDisarm_meets : ∃ (s : State),
    s.onAt R.WGT_CTX_SWAP_ARMED (s.rd R.WGT_SWAP_CTRL_CONTEXT) = true ∧ (6, s.rd R.WGT_SWAP_CTRL_CONTEXT) ∉ s.olc.applied
    ∧ (s.planActive = true → s.passBegins (s.rd R.WGT_SWAP_CTRL_CONTEXT) (s.wctx (s.rd
    R.WGT_SWAP_CTRL_CONTEXT)).swapAt = false) :=
  ⟨(State.reset.wrAt R.WGT_CTX_SWAP_ARMED 0 1 : State), by decide⟩

set_option maxRecDepth 100000 in
theorem test_swapDisarm_meets2 : ∃ (s : State),
    (6, s.rd R.WGT_SWAP_CTRL_CONTEXT) ∈ s.olc.applied :=
  ⟨({ State.reset with olc := { State.reset.olc with applied := [(6, 0)] } } : State), by decide⟩

set_option maxRecDepth 100000 in
theorem test_swapEffect_meets : ∃ (s : State) (u : State) (ctx : Fin 16) (b : Binding),
    s.binding? ctx = some b ∧ s.onAt R.WGT_CTX_SWAP_ARMED ctx = true ∧ s.planActive = true ∧ s.passBegins ctx (s.wctx
    ctx).swapAt = true ∧ s.rdAt R.WGT_CTX_LANDING ctx = 3 ∧ (s.swapBanks ctx b).changeApplied 6 ctx 0 = u :=
  ⟨(((running { onePlan with bindings := [oneBinding] } oneJob).wrAt R.WGT_CTX_SWAP_ARMED 0 1).wrAt R.WGT_CTX_LANDING 0
    3 : State), _, 0, oneBinding, by decide, by decide, by decide, by decide, by decide, rfl⟩

set_option maxRecDepth 100000 in
theorem test_sweepShardChecked_meets : ∃ (s : State) (ctx : Fin 16) (sweep : SweepKind) (x : Sweep) (b : Binding) (i :
    Nat) (rest : List Nat) (k : Nat) (bound : Bound),
    (s.wctx ctx).sweepOf sweep = some x ∧ s.binding? ctx = some b ∧ x.left = i :: rest ∧ s.sweepBank b sweep = (k, some
    bound) ∧ (sweep = .active → Tab.find? i (s.wctx ctx).repairs = none ∧ s.ctxRunning ctx = true) ∧ x.shardAt +
    hashTicks (shardLen bound.length i) ≤ s.now :=
  ⟨(sweptRunning.wr R.TAL_NOW_TICKS 100000000 : State), 0, .active, oneSweep, oneBinding, 0, [], 0, oneBound, by decide⟩

set_option maxRecDepth 100000 in
theorem test_sweepOverrun_meets : ∃ (s : State) (ctx : Fin 16) (sweep : SweepKind) (x : Sweep),
    (s.wctx ctx).sweepOf sweep = some x ∧ x.began + s.rd R.WGT_CFG_RECHECK_S * msTicks 1000 < s.now ∧ x.behind = false ∧
    (sweep = .active → s.ctxRunning ctx = true) :=
  ⟨((sweptRunning.wr R.TAL_NOW_TICKS 1).wr R.WGT_CFG_RECHECK_S 0 : State), 0, .active, oneSweep, by decide⟩

set_option maxRecDepth 100000 in
theorem test_quarantineNoticeReceived_meets : ∃ (s : State) (payload : List Byte) (p : Plan),
    payload.length = 64 ∧ s.pln.active = some p ∧ p.id8 = leAt 0 8 payload ∧ p.ctxs.any (fun x => x.ctx == beAt 8 1
    payload) = true ∧ (beAt 9 1 payload = 1 ∨ beAt 9 1 payload = 2) ∧ Tab.find? (beAt 8 1 payload) s.wgt.quarantine =
    none :=
  ⟨(planned { onePlan with ctxs := [oneCtx] } : State), oneNotice, { onePlan with ctxs := [oneCtx] }, by decide⟩

set_option maxRecDepth 100000 in
theorem test_shardRepairDone_meets : ∃ (s : State) (ctx : Fin 16) (shard : Nat) (a : Nat) (began : Nat) (x : Bound) (b
    : Binding),
    Tab.find? shard (s.wctx ctx).repairs = some (a, began) ∧ (s.wctx ctx).active = some x ∧ s.binding? ctx = some b ∧
    s.olicoUp = true :=
  ⟨(((weighed { WgtCtx.reset with repairs := [(0, (1, 0))], active := some oneBound }).wr R.WGT_CFG_RETRIES 3).wr
    R.OLC_STATUS_STATE 2 : State), 0, 0, 1, 0, oneBound, oneBinding, by decide⟩

set_option maxRecDepth 100000 in
theorem test_intakeFrameReceived_meets : ∃ (s : State) (port : Fin 2) (frame : List Byte) (fcsOk : Bool),
    s.intakeStill = false ∧ 64 ≤ frame.length ∧ frame.length ≤ 9216 ∧ fcsOk = true ∧ fcsHolds frame = true ∧ beAt 12 2
    frame = 0x88B5 ∧ beAt 0 6 frame = s.rdAt R.ITK_PORT_MAC_MAC port ∧ beAt 6 6 frame = s.rdAt R.ITK_PORT_PEER_MAC
    port :=
  ⟨(State.reset : State), 0, withFcs oneFrame, true, by decide⟩

set_option maxRecDepth 100000 in
theorem test_ingestLinkUp_meets : ∃ (s : State),
    s.pwr.railsUp = 4 :=
  ⟨({ State.reset with pwr := { State.reset.pwr with railsUp := 4 } } : State), by decide⟩

set_option maxRecDepth 100000 in
theorem test_intakeWindowClose_meets : ∃ (s : State) (ctx : Fin 16) (e : IntakeEntry) (r : IntakeRun),
    s.intake? ctx = some e ∧ s.run? ctx = some r ∧ r.open_ = true ∧ r.standby = false ∧
    s.timeDue (r.openNominal + s.windowLen e r.window) = true :=
  ⟨(intaking { oneIntake with windowTicks := 0 } oneIntakeRun : State), 0, { oneIntake with windowTicks := 0 }, oneIntakeRun, by decide⟩

set_option maxRecDepth 100000 in
theorem test_intakeBeatRingRead_meets : ∃ (s : State) (u : State) (ctx : Fin 16) (e : IntakeEntry) (r : IntakeRun)
    (cons : Nat) (n : Nat) (k : Nat),
    s.intake? ctx = some e ∧ s.run? ctx = some r ∧ e.ring = true ∧ r.closed = false ∧ (∀ x, r.closeFrom = some x → s.now <
    x) ∧ s.onAt R.ITK_RING_FAULT ctx = false ∧ s.ctxPaused ctx = false ∧ s.ctxPos ctx % (16 * e.ringPeriod) = 0 ∧
    s.olicoUp = true ∧ s.dieReads 1 = u ∧ u.rdAt R.ITK_RING_CONSUMER ctx = cons ∧ (u.le e.ringBase 4 + 2 ^ 32 - cons)
    % 2 ^ 32 = n ∧ min n e.ringReadMax = k :=
  ⟨((intaking { oneIntake with ring := true } oneIntakeRun).wr R.OLC_STATUS_STATE 2 : State), _, 0, { oneIntake with ring := true },
    oneIntakeRun, _, _, _, by decide, by decide, by decide, by decide, (by intro x hx; cases hx), by decide, by
    decide, by decide, by decide, rfl, rfl, rfl, rfl⟩

set_option maxRecDepth 100000 in
theorem test_itkRingReset_meets : ∃ (s : State) (ctx : Fin 16) (e : IntakeEntry),
    s.intake? ctx = some e :=
  ⟨(intaking oneIntake oneIntakeRun : State), 0, oneIntake, by decide⟩

set_option maxRecDepth 100000 in
theorem test_timedRelease_meets : ∃ (s : State) (u : State) (ctx : Fin 16) (e : IntakeEntry) (r : IntakeRun) (w :
    WindowRec) (ok : Bool),
    s.intake? ctx = some e ∧ s.run? ctx = some r ∧ r.windows.find? (fun w => !w.released) = some w ∧ s.releaseDue ctx
    (w.closeNominal + e.releaseTicks) = true ∧ s.withheldNow ctx = false ∧ s.compareWaits ctx w = false ∧ w.recheck =
    none ∧ s.gateShut ctx w.index = false ∧ s.tagFits (s.untagged ctx w) = true ∧ s.readSpans ctx (s.cellsRead e w
    w.slots.zipIdx) = (u, ok) :=
  ⟨(intaking oneIntake { oneIntakeRun with windows := [oneWindow] } : State), _, 0, oneIntake, { oneIntakeRun with windows := [oneWindow] },
    oneWindow, _, by decide, by decide, by decide, by decide, by decide, by decide, by decide, by decide, by decide,
    rfl⟩

set_option maxRecDepth 100000 in
theorem test_responseFrameSend_meets : ∃ (s : State) (u : State) (ctx : Fin 16) (port : Fin 2) (e : IntakeEntry) (r :
    IntakeRun) (w : WindowRec) (ok : Bool),
    s.intake? ctx = some e ∧ s.run? ctx = some r ∧ r.windows.find? (fun w => w.released && frameOf e (w.frames.getD port
    0) (s.windowRecords e w port) != []) = some w ∧ s.releaseDue ctx (w.closeNominal + e.releaseTicks + e.frameSpacing
    * w.frames.getD port 0) = true ∧ s.pwr.shutdown = .none ∧ s.withheldNow ctx = false ∧ s.readSpans ctx (s.cellsRead
    e w (((w.slots.zipIdx.filter fun x => x.1.req.port == port.val).drop (w.frames.getD port 0 * e.perFrame)).take
    e.perFrame)) = (u, ok) :=
  ⟨(intaking oneIntake { oneIntakeRun with windows := [answered] } : State), _, 0, 0, oneIntake, { oneIntakeRun with windows := [answered] },
    answered, _, by decide, by decide, by decide, by decide, by decide, by decide, rfl⟩

set_option maxRecDepth 100000 in
theorem test_ptpSyncReceived_meets : ∃ (s : State) (port : Fin 2) (bytes : List Byte) (m : PtpMsg),
    s.intakeStill = false ∧ PtpMsg.decode bytes = some m ∧ m.domain = s.rd R.PTP_CFG_DOMAIN ∧ m.intervalOk = true ∧
    (s.clock port).chosen = true :=
  ⟨(mastered onePort : State), 0, (ptpMsg 0 0 (zeros 10)).encode, ptpMsg 0 0 (zeros 10), by decide⟩

set_option maxRecDepth 100000 in
theorem test_ptpAnnounceReceived_meets : ∃ (s : State) (u : State) (port : Fin 2) (bytes : List Byte) (m : PtpMsg),
    s.intakeStill = false ∧ PtpMsg.decode bytes = some m ∧ m.domain = s.rd R.PTP_CFG_DOMAIN ∧ m.type = 11 ∧ m.intervalOk =
    true ∧ m.steps < 255 ∧ (s.clock port).chosen = false ∧ s.incAt R.PTP_COUNT_ANNOUNCE port = u :=
  ⟨(State.reset : State), _, 0, (ptpMsg 11 3 (zeros 30)).encode, ptpMsg 11 3 (zeros 30), by decide, by decide, by
    decide, by decide, by decide, by decide, by decide, rfl⟩

set_option maxRecDepth 100000 in
theorem test_ptpDelayRespReceived_meets : ∃ (s : State) (port : Fin 2) (bytes : List Byte) (m : PtpMsg) (t1 : Int) (t2
    : Int) (t3 : Int),
    s.intakeStill = false ∧ PtpMsg.decode bytes = some m ∧ m.domain = s.rd R.PTP_CFG_DOMAIN ∧ m.type = 9 ∧ m.intervalOk =
    true ∧ s.on R.PTP_CFG_DELAY = false ∧ (s.clock port).reqAt = some (m.seq, t3) ∧ slice 10 10 m.body =
    s.clockIdentity port ∧ (s.clock port).lastSync = some (t1, t2) :=
  ⟨(mastered { onePort with reqAt := some (0, 5), lastSync := some (1, 2) } : State), 0, (ptpMsg 9 0 (zeros 10 ++
    State.reset.clockIdentity 0)).encode, ptpMsg 9 0 (zeros 10 ++ State.reset.clockIdentity 0), 1, 2, 5, by decide⟩

set_option maxRecDepth 100000 in
theorem test_ptpPdelayReqReceived_meets : ∃ (s : State) (bytes : List Byte) (m : PtpMsg),
    s.intakeStill = false ∧ PtpMsg.decode bytes = some m ∧ m.domain = s.rd R.PTP_CFG_DOMAIN ∧ m.type = 2 ∧ m.intervalOk =
    true ∧ s.on R.PTP_CFG_DELAY = true :=
  ⟨(State.reset.wr R.PTP_CFG_DELAY 1 : State), (ptpMsg 2 0 (zeros 20)).encode, ptpMsg 2 0 (zeros 20), by decide⟩

set_option maxRecDepth 100000 in
theorem test_ptpPdelayRespReceived_meets : ∃ (s : State) (port : Fin 2) (bytes : List Byte) (m : PtpMsg) (t1 : Int),
    s.intakeStill = false ∧ PtpMsg.decode bytes = some m ∧ m.domain = s.rd R.PTP_CFG_DOMAIN ∧ m.intervalOk = true ∧ s.on
    R.PTP_CFG_DELAY = true ∧ (s.clock port).reqAt = some (m.seq, t1) ∧ slice 10 10 m.body = s.clockIdentity port :=
  ⟨((mastered { onePort with reqAt := some (0, 5) }).wr R.PTP_CFG_DELAY 1 : State), 0, (ptpMsg 3 0 (zeros 10 ++
    State.reset.clockIdentity 0)).encode, ptpMsg 3 0 (zeros 10 ++ State.reset.clockIdentity 0), 5, by decide⟩

set_option maxRecDepth 100000 in
theorem test_ptpDelayReqSend_meets : ∃ (s : State) (port : Fin 2),
    s.onAt R.ITK_PORT_LINK_UP port = true ∧ s.intakeStill = false ∧ (s.on R.PTP_CFG_DELAY = true ∨ (s.clock port).chosen =
    true) ∧ (∀ t, (s.clock port).sentAt = some t → t + s.delayTicks ≤ s.now) :=
  ⟨((State.reset.wrAt R.ITK_PORT_LINK_UP 0 1).wr R.PTP_CFG_DELAY 1 : State), 0, by decide⟩

set_option maxRecDepth 100000 in
theorem test_ptpAnnounceTimeout_meets : ∃ (s : State) (port : Fin 2),
    (s.clock port).chosen = true ∧ (s.clock port).announced.1 + 44531250 * 2 ^ (s.clock port).announced.2 ≤ s.now :=
  ⟨((mastered onePort).wr R.TAL_NOW_TICKS 44531250 : State), 0, by decide⟩

set_option maxRecDepth 100000 in
theorem test_signalPresent_meets : ∃ (s : State) (port : Fin 16) (lanes : List (Fin 9)),
    s.train port = 1 ∧ 8 ≤ lanes.eraseDups.length :=
  ⟨(trainingPort 1 : State), 0, [0, 1, 2, 3, 4, 5, 6, 7], by decide⟩

set_option maxRecDepth 100000 in
theorem test_signalLock_meets : ∃ (s : State) (port : Fin 16) (lanes : List (Fin 9)),
    s.train port = 2 ∧ 8 ≤ lanes.eraseDups.length :=
  ⟨(trainingPort 2 : State), 0, [0, 1, 2, 3, 4, 5, 6, 7], by decide⟩

set_option maxRecDepth 100000 in
theorem test_laneMarkLock_meets : ∃ (s : State) (port : Fin 16) (skewPs : Nat),
    s.train port = 3 ∧ skewPs ≤ 60000 :=
  ⟨(trainingPort 3 : State), 0, 0, by decide⟩

set_option maxRecDepth 100000 in
theorem test_trainStateTimeout_meets : ∃ (s : State) (port : Fin 16),
    2 ≤ s.train port ∧ s.train port ≤ 5 ∧ (s.port port).timers.state + trainLimit (s.train port) ≤ s.now :=
  ⟨((trainingPort 2).wr R.TAL_NOW_TICKS 100000000000 : State), 0, by decide⟩

set_option maxRecDepth 100000 in
theorem test_backoffExpiry_meets : ∃ (s : State) (port : Fin 16),
    s.train port = 7 ∧ (s.port port).timers.state + s.backoffTicks port ≤ s.now :=
  ⟨((trainingPort 7).wr R.TAL_NOW_TICKS 100000000000 : State), 0, by decide⟩

set_option maxRecDepth 100000 in
theorem test_announceReceived_meets : ∃ (s : State) (port : Fin 16) (blk : WireBlock) (b : LinkBlock) (a : Announce),
    s.train port = 4 ∧ (s.checkBlock port blk).2 = some b ∧ b.type = 7 ∧ Announce.decode b.data = some a ∧
    a.kind = 0 ∧ (s.checkBlock port blk).1.train port = 4 :=
  ⟨(trainingPort 4 : State), 0, wire (announceBlock 0 []), announceBlock 0 [], oneAnnounce 0, by decide⟩

set_option maxRecDepth 100000 in
theorem test_echoReqSend_meets : ∃ (s : State) (port : Fin 16),
    s.train port = 5 ∧ (s.port port).echoSent < 64 ∧ ((s.port port).echoSent = 0 ∨ (s.port port).timers.echo + nsTicks 128
    ≤ s.now) :=
  ⟨(trainingPort 5 : State), 0, by decide⟩

set_option maxRecDepth 100000 in
theorem test_echoReqReceived_meets : ∃ (s : State) (u : State) (port : Fin 16) (blk : WireBlock) (b : LinkBlock) (a :
    Announce),
    s.train port = 5 ∧ s.checkBlock port blk = (u, some b) ∧ b.type = 7 ∧ Announce.decode b.data = some a ∧ a.kind = 1 ∧
    u.train port = 5 :=
  ⟨(trainingPort 5 : State), _, 0, wire (announceBlock 1 (zeros 16)), announceBlock 1 (zeros 16), oneAnnounce 1, by
    decide, Prod.ext rfl (by decide), by decide, by decide, by decide, by decide⟩

set_option maxRecDepth 100000 in
theorem test_echoRespReceived_meets : ∃ (s : State) (u : State) (port : Fin 16) (blk : WireBlock) (b : LinkBlock) (a :
    Announce),
    s.train port = 5 ∧ s.checkBlock port blk = (u, some b) ∧ b.type = 7 ∧ Announce.decode b.data = some a ∧ a.kind = 2 ∧
    u.train port = 5 ∧ (u.port port).samples.length < 63 :=
  ⟨(trainingPort 5 : State), _, 0, wire (announceBlock 2 (zeros 40)), announceBlock 2 (zeros 40), oneAnnounce 2, by
    decide, Prod.ext rfl (by decide), by decide, by decide, by decide, by decide, by decide⟩

set_option maxRecDepth 100000 in
theorem test_schedBlockReceived_meets : ∃ (s : State) (port : Fin 16) (blk : WireBlock) (b : LinkBlock),
    (s.accept port blk).2 = some b ∧ (s.accept port blk).1.rdAt R.TOP_PORT_USE port ≠ 4 ∧ b.type = 1 ∧
    8 ≤ b.data.length ∧ beAt 6 1 b.data < 64 ∧ bits 3 2 (beAt 6 1 b.data) ≠ 3 ∧ beAt 7 1 b.data = 0 :=
  ⟨(upPort State.reset : State), 0, wire (plainBlock 1 (zeros 8)), plainBlock 1 (zeros 8), by decide⟩

set_option maxRecDepth 100000 in
theorem test_svcBlockReceived_meets : ∃ (s : State) (u : State) (port : Fin 16) (blk : WireBlock) (b : LinkBlock) (vc : Nat),
    (s.accept port blk).2 = some b ∧ (b.type = 2 ∨ b.type = 3) ∧ (s.accept port blk).1 = u ∧ b.type - 2 = vc :=
  ⟨(upPort State.reset : State), _, 0, wire (plainBlock 2 (0 :: 1 :: zeros 14)), plainBlock 2 (0 :: 1 :: zeros 14), _,
    by decide, by decide, rfl, rfl⟩

set_option maxRecDepth 100000 in
theorem test_nakReceived_meets : ∃ (s : State) (u : State) (port : Fin 16) (blk : WireBlock) (b : LinkBlock),
    s.accept port blk = (u, some b) ∧ b.type = 5 ∧ (u.port port).nakActed = none :=
  ⟨(upPort State.reset : State), _, 0, wire (plainBlock 5 []), plainBlock 5 [], Prod.ext rfl (by decide), by decide, by
    decide⟩

set_option maxRecDepth 100000 in
theorem test_ackDue_meets : ∃ (s : State) (port : Fin 16),
    s.portUp port = true ∧ (s.port port).timers.ack + nsTicks 128 ≤ s.now :=
  ⟨((upPort State.reset).wr R.TAL_NOW_TICKS 100000000 : State), 0, by decide⟩

set_option maxRecDepth 100000 in
theorem test_nakTimerExpiry_meets : ∃ (s : State) (port : Fin 16),
    s.portUp port = true ∧ (s.port port).nakOpen = true ∧ (s.port port).timers.nak + s.nakSpan port ≤ s.now :=
  ⟨((portWith { HaulPort.reset with nakOpen := true }).wr R.TAL_NOW_TICKS 100000000 : State), 0, by decide⟩

set_option maxRecDepth 100000 in
theorem test_replayTimerExpiry_meets : ∃ (s : State) (port : Fin 16),
    s.portUp port = true ∧ 0 < s.rdAt R.HAUL_SEQ_OUTSTANDING port ∧ (s.port port).replaying = false ∧ (s.port
    port).timers.replay + s.nakSpan port * 2 ^ (s.port port).doubling ≤ s.now :=
  ⟨(((upPort State.reset).wrAt R.HAUL_SEQ_OUTSTANDING 0 1).wr R.TAL_NOW_TICKS 100000000 : State), 0, by decide⟩

set_option maxRecDepth 100000 in
theorem test_markerDue_meets : ∃ (s : State) (port : Fin 16) (k : Nat),
    s.portUp port = true ∧ s.now / s.rdAt R.HAUL_CFG_MARKER_TICKS port = k ∧ (s.port port).timers.marker ≠ k :=
  ⟨((upPort State.reset).wr R.TAL_NOW_TICKS 100000000 : State), 0, _, by decide, rfl, by decide⟩

set_option maxRecDepth 100000 in
theorem test_linkReplayEnd_meets : ∃ (s : State) (port : Fin 16),
    (s.port port).replaying = true :=
  ⟨(portWith { HaulPort.reset with replaying := true } : State), 0, by decide⟩

set_option maxRecDepth 100000 in
theorem test_laneFail_meets : ∃ (s : State) (port : Fin 16) (lane : Fin 9) (t : Nat) (l : Nat) (y : Nat),
    s.portUp port = true ∧ Tab.find? lane.val (s.port port).lost = some t ∧ t + nsTicks (s.rdAt R.HAUL_CFG_LANE_FAIL_NS
    port) ≤ s.now ∧ (s.port port).rot = none ∧ (s.port port).calib = none ∧ (s.port port).swap = none ∧ s.logicalOf
    port lane = some l ∧ s.spare port = some y :=
  ⟨(((portWith { HaulPort.reset with lost := [(0, 0)] }).wrAt R.HAUL_LANE_MAP_SPARE 0 8).wr R.TAL_NOW_TICKS 100000000 :
    State), 0, 0, 0, 0, 8, by decide⟩

set_option maxRecDepth 100000 in
theorem test_laneFail_meets2 : ∃ (s : State) (port : Fin 16) (lane : Fin 9) (t : Nat) (r : LaneOp),
    s.portUp port = true ∧ Tab.find? lane.val (s.port port).lost = some t ∧ t + nsTicks (s.rdAt R.HAUL_CFG_LANE_FAIL_NS
    port) ≤ s.now ∧ (s.port port).rot = some r :=
  ⟨((portWith { HaulPort.reset with lost := [(0, 0)], rot := some oneLaneOp }).wr R.TAL_NOW_TICKS 100000000 : State), 0,
    0, 0, oneLaneOp, by decide⟩

set_option maxRecDepth 100000 in
theorem test_swapReqResend_meets : ∃ (s : State) (port : Fin 16) (o : LaneOp),
    (s.port port).swap = some o ∧ o.ready = false ∧ (s.port port).timers.swapReq + nsTicks 256 ≤ s.now :=
  ⟨((portWith { HaulPort.reset with swap := some oneLaneOp }).wr R.TAL_NOW_TICKS 100000000 : State), 0, oneLaneOp, by
    decide⟩

set_option maxRecDepth 100000 in
theorem test_swapReqReceived_meets : ∃ (s : State) (u : State) (port : Fin 16) (blk : WireBlock) (m : LaneMsg),
    s.laneMsg port blk = (u, some m) ∧ m.kind = 1 ∧ freshOp (u.port port).opSeen m.opId = true :=
  ⟨(upPort State.reset : State), _, 0, wire (laneBlock 1 1), ⟨1, 0, 0, 8, 1⟩, Prod.ext rfl (by decide), by decide, by
    decide⟩

set_option maxRecDepth 100000 in
theorem test_swapDoneReceived_meets : ∃ (s : State) (port : Fin 16) (blk : WireBlock) (m : LaneMsg),
    (s.laneMsg port blk).2 = some m ∧ m.kind = 2 ∧ m.opId = ((s.laneMsg port blk).1.port port).opId :=
  ⟨(upPort State.reset : State), 0, wire (laneBlock 2 0), ⟨2, 0, 0, 8, 0⟩, by decide⟩

set_option maxRecDepth 100000 in
theorem test_swapRemap_meets : ∃ (s : State) (port : Fin 16) (o : LaneOp),
    (s.port port).swap = some o :=
  ⟨(portWith { HaulPort.reset with swap := some oneLaneOp } : State), 0, oneLaneOp, by decide⟩

set_option maxRecDepth 100000 in
theorem test_swapTimeout_meets : ∃ (s : State) (port : Fin 16),
    (s.port port).swap.isSome = true ∧ (s.port port).timers.swap + nsTicks 10000 ≤ s.now :=
  ⟨((portWith { HaulPort.reset with swap := some oneLaneOp }).wr R.TAL_NOW_TICKS 100000000 : State), 0, by decide⟩

set_option maxRecDepth 100000 in
theorem test_laneDegrade_meets : ∃ (s : State) (u : State) (port : Fin 16) (lane : Fin 9) (symbols : Nat),
    s.portUp port = true ∧ (s.addAt R.HAUL_LANE_STAT_CORR_SYM (8192 * port.val + lane.val) symbols).count (5792 + 16 *
    port.val + 6) symbols = u :=
  ⟨(upPort State.reset : State), _, 0, 0, 0, by decide, rfl⟩

set_option maxRecDepth 100000 in
theorem test_laneLockLost_meets : ∃ (s : State) (port : Fin 16) (lane : Fin 9),
    s.portUp port = true ∧ Tab.find? lane.val (s.port port).lost = none :=
  ⟨(upPort State.reset : State), 0, 0, by decide⟩

set_option maxRecDepth 100000 in
theorem test_laneLockRegained_meets : ∃ (s : State) (port : Fin 16),
    s.portUp port = true :=
  ⟨(upPort State.reset : State), 0, by decide⟩

set_option maxRecDepth 100000 in
theorem test_rotationTimer_meets : ∃ (s : State) (port : Fin 16),
    s.onAt R.HAUL_PORT_CTRL_ROT_EN port = true ∧ (s.port port).timers.rot + msTicks (s.rdAt R.HAUL_LANE_CFG_ROT_MS port) ≤
    s.now :=
  ⟨((State.reset.wrAt R.HAUL_PORT_CTRL_ROT_EN 0 1).wr R.TAL_NOW_TICKS 1000000000000 : State), 0, by decide⟩

set_option maxRecDepth 100000 in
theorem test_rotStartReceived_meets : ∃ (s : State) (u : State) (port : Fin 16) (blk : WireBlock) (m : LaneMsg),
    s.laneMsg port blk = (u, some m) ∧ m.kind = 3 ∧ freshOp (u.port port).opSeen m.opId = true :=
  ⟨(upPort State.reset : State), _, 0, wire (laneBlock 3 1), ⟨3, 0, 0, 8, 1⟩, Prod.ext rfl (by decide), by decide, by
    decide⟩

set_option maxRecDepth 100000 in
theorem test_rotReadyReceived_meets : ∃ (s : State) (u : State) (port : Fin 16) (blk : WireBlock) (m : LaneMsg) (r :
    LaneOp),
    s.laneMsg port blk = (u, some m) ∧ (u.port port).rot = some r ∧ m.kind = 4 ∧ m.opId = (u.port port).opId :=
  ⟨(portWith { HaulPort.reset with rot := some oneLaneOp } : State), _, 0, wire (laneBlock 4 0), ⟨4, 0, 0, 8, 0⟩,
    oneLaneOp, Prod.ext rfl (by decide), by decide, by decide, by decide⟩

set_option maxRecDepth 100000 in
theorem test_rotDoneReceived_meets : ∃ (s : State) (u : State) (port : Fin 16) (blk : WireBlock) (m : LaneMsg),
    s.laneMsg port blk = (u, some m) ∧ m.kind = 5 ∧ (u.port port).opSeen = some m.opId ∧ (u.port port).copyTx.isSome =
    true :=
  ⟨(portWith { HaulPort.reset with copyTx := some oneLaneOp, opSeen := some 0 } : State), _, 0, wire (laneBlock 5 0),
    ⟨5, 0, 0, 8, 0⟩, Prod.ext rfl (by decide), by decide, by decide, by decide⟩

set_option maxRecDepth 100000 in
theorem test_calibrationEnd_meets : ∃ (s : State) (u : State) (port : Fin 16) (x : Nat),
    (s.port port).calib = some x ∧ (s.port port).timers.calib + msTicks 1 ≤ s.now ∧ (((s.setPort port { s.port port with calib := none }).wrAt
    R.HAUL_PORT_STATUS_ROTATING port 0).incAt R.HAUL_LANE_COUNT_ROTATIONS port).trace 7 (occField 12 port) 12 port 0 =
    u :=
  ⟨((portWith { HaulPort.reset with calib := some 0 }).wr R.TAL_NOW_TICKS 1000000000000 : State), _, 0, 0, by decide, by
    decide, rfl⟩

set_option maxRecDepth 100000 in
theorem test_failedLaneRetest_meets : ∃ (s : State) (u : State) (port : Fin 16) (lane : Fin 9),
    s.portUp port = true ∧ bit lane (s.rdAt R.HAUL_LANE_MAP_FAILED port) = true ∧ Tab.get 0 lane.val (s.port
    port).timers.retest + msTicks 1000 ≤ s.now ∧ (s.onTimers port fun t => { t with retest := Tab.ins lane s.now t.retest })
    = u :=
  ⟨(((upPort State.reset).wrAt R.HAUL_LANE_MAP_FAILED 0 1).wr R.TAL_NOW_TICKS 1000000000000 : State), _, 0, 0, by
    decide, by decide, by decide, rfl⟩

set_option maxRecDepth 100000 in
theorem test_linkDownTimeout_meets : ∃ (s : State) (port : Fin 16),
    s.portUp port = true :=
  ⟨((upPort State.reset).wrAt R.HAUL_PORT_STATUS_LOCK_LOST 0 1 : State), 0, by decide⟩

set_option maxRecDepth 100000 in
theorem test_haulPortReset_meets : ∃ (s : State) (port : Fin 16),
    s.portUp port = false :=
  ⟨(State.reset : State), 0, by decide⟩

set_option maxRecDepth 100000 in
theorem test_haulRetrain_meets : ∃ (s : State) (port : Fin 16),
    s.portUp port = true :=
  ⟨(upPort State.reset : State), 0, by decide⟩

set_option maxRecDepth 100000 in
theorem test_haulPortEnable_meets : ∃ (s : State) (port : Fin 16) (enable : Bool),
    enable = true ∧ s.train port = 0 ∧ 2 ≤ s.pwr.railsUp :=
  ⟨({ trainingPort 0 with pwr := { State.reset.pwr with railsUp := 2 } } : State), 0, true, by decide⟩

set_option maxRecDepth 100000 in
theorem test_portDetourFast_meets : ∃ (s : State) (port : Fin 16),
    s.portUp port = true ∧ s.onAt R.HAUL_PORT_STATUS_LOCK_LOST port = true ∧ (s.port port).lostAt + usTicks (s.rd
    R.SCH_CFG_FAST_US) ≤ s.now :=
  ⟨(((portWith { HaulPort.reset with lost := [(0, 0)] }).wrAt R.HAUL_PORT_STATUS_LOCK_LOST 0 1).wr R.TAL_NOW_TICKS
    10000000 : State), 0, by decide⟩

set_option maxRecDepth 100000 in
theorem test_portRestore_meets : ∃ (s : State) (n : Nat) (p : Plan),
    s.sch.restoreAt = some n ∧ s.pln.active = some p ∧ n ≤ s.now ∧ s.atStepStart = true :=
  ⟨({ running onePlan oneJob with sch := { (running onePlan oneJob).sch with restoreAt := some 0 } } : State), 0, onePlan, by decide⟩

set_option maxRecDepth 100000 in
theorem test_restoreArm_meets : ∃ (s : State) (p : Plan),
    s.pln.active = some p ∧ p.count ≤ 1 ∧ s.last R.SCH_RESTORE_AT_AT % 16 = 0 ∧ s.now < s.last R.SCH_RESTORE_AT_AT :=
  ⟨((planned onePlan).wr R.SCH_RESTORE_AT_AT 64 : State), onePlan, by decide⟩

set_option maxRecDepth 100000 in
theorem test_clearFwd_meets : ∃ (s : State),
    s.planActive = false :=
  ⟨(State.reset : State), by decide⟩

set_option maxRecDepth 100000 in
theorem test_routeDownReceived_meets : ∃ (s : State) (n : RouteDown) (k : Nat),
    s.slotOf n.plan = some k :=
  ⟨(working oneJob : State), ⟨1, 0, 0, 1, 0, 1⟩, 7, by decide⟩

set_option maxRecDepth 100000 in
theorem test_holdNoticeReceived_meets : ∃ (s : State) (source : Fin 65536) (n : Notice) (k : Nat) (j : Job),
    s.slotOf n.plan = some k ∧ s.job? k = some j ∧ (s.relayNotice j source 1 n).now < n.point :=
  ⟨(working oneJob : State), 0, oneHoldNotice, 7, oneJob, by decide⟩

set_option maxRecDepth 100000 in
theorem test_holdPoint_meets : ∃ (s : State) (slot : Fin 8) (j : Job) (p : HoldPoint),
    s.job? slot = some j ∧ j.hold = none ∧ j.duePoint s.now = some p ∧ j.abandonsAt p.point = false :=
  ⟨(working { oneJob with points := [onePoint] } : State), 7, { oneJob with points := [onePoint] }, onePoint, by decide⟩

set_option maxRecDepth 100000 in
theorem test_holdEnd_meets : ∃ (s : State) (slot : Fin 8) (j : Job) (h : HoldRun),
    s.job? slot = some j ∧ j.hold = some h ∧ h.stop ≤ s.now :=
  ⟨(working { oneJob with hold := some oneHold } : State), 7, { oneJob with hold := some oneHold }, oneHold, by decide⟩

set_option maxRecDepth 100000 in
theorem test_replayNoticeReceived_meets : ∃ (s : State) (source : Fin 65536) (n : Notice) (k : Nat) (j : Job),
    s.slotOf n.plan = some k ∧ s.job? k = some j ∧ (s.relayNotice j source 2 n).now < n.point ∧ j.replay = none :=
  ⟨(working oneJob : State), 0, oneHoldNotice, 7, oneJob, by decide⟩

set_option maxRecDepth 100000 in
theorem test_abandonPoint_meets : ∃ (s : State) (u : State) (slot : Fin 8) (j : Job) (n : ReplayNotice) (run :
    ReplayRun),
    s.job? slot = some j ∧ j.notice = some n ∧ n.point ≤ s.now ∧ s.undoSplit slot = u ∧ (u.job? slot).isSome = true ∧
    n.attempt ≤ u.rd R.SCH_CFG_MAX_REPLAYS ∧ u.spanOf slot j n = run :=
  ⟨({ State.reset.wr R.SCH_CFG_MAX_REPLAYS 3 with sch := { State.reset.sch with jobs := [(0, { oneJob with notice := some ⟨0, 1, 1, 0, 1⟩ })] } }
    : State), _, 0, { oneJob with notice := some ⟨0, 1, 1, 0, 1⟩ }, ⟨0, 1, 1, 0, 1⟩, _, by decide, by decide, by
    decide, rfl, by decide, by decide, rfl⟩

set_option maxRecDepth 100000 in
theorem test_replayGapEnd_meets : ∃ (s : State) (slot : Fin 8) (j : Job) (r : ReplayRun),
    s.job? slot = some j ∧ j.replay = some r ∧ r.phase = .gap ∧ j.holdFrom s.now = none ∧ r.gapEnd ≤ s.now :=
  ⟨(working { oneJob with replay := some oneGap } : State), 7, { oneJob with replay := some oneGap }, oneGap, by decide⟩

set_option maxRecDepth 100000 in
theorem test_replayRejoin_meets : ∃ (s : State) (slot : Fin 8) (j : Job) (r : ReplayRun),
    s.job? slot = some j ∧ j.replay = some r ∧ r.phase = .rerun ∧ j.holdFrom s.now = none ∧ r.target ≤ s.now -
    r.rerunStart - r.holds :=
  ⟨(working { oneJob with replay := some { oneGap with phase := .rerun } } : State), 7, { oneJob with replay := some { oneGap with phase := .rerun } },
    { oneGap with phase := .rerun }, by decide⟩

set_option maxRecDepth 100000 in
theorem test_serviceInjection_meets : ∃ (kind : Fin 256) (payload : List Byte),
    1 ≤ kind.val ∧ kind.val ≤ 9 ∧ payload.length ≤ 3888 :=
  ⟨1, [], by decide⟩

set_option maxRecDepth 100000 in
theorem test_throttleSample_meets : ∃ (s : State) (n : Nat),
    (s.sch.waiting.map fun w => w.data.length).sum = n :=
  ⟨(State.reset : State), 0, by decide⟩

set_option maxRecDepth 100000 in
theorem test_telemetryPeriod_meets : ∃ (s : State),
    s.on R.SCH_TELEM_EN = true ∧ s.sch.telemFrom + msTicks (s.rd R.SCH_TELEM_PERIOD_MS) ≤ s.now :=
  ⟨(((State.reset.wr R.SCH_TELEM_EN 1).wr R.SCH_TELEM_PERIOD_MS 0) : State), by decide⟩

set_option maxRecDepth 100000 in
theorem test_probeReceived_meets : ∃ (d : DiscPkt),
    discEnds d 1 = true :=
  ⟨oneDisc 1 [], by decide⟩

set_option maxRecDepth 100000 in
theorem test_assignReceived_meets : ∃ (d : DiscPkt),
    discEnds d 3 = true ∧ d.body.length = 12 ∧ beAt 0 2 d.body < 4096 ∧ bits 3 2 (beAt 2 1 d.body) = 0 ∧ bits 1 0 (beAt 2
    1 d.body) ≠ 3 ∧ beAt 3 1 d.body = 0 :=
  ⟨oneDisc 3 (zeros 12), by decide⟩

set_option maxRecDepth 100000 in
theorem test_routesReceived_meets : ∃ (d : DiscPkt),
    discEnds d 5 = true ∧ routesOk d.body = true :=
  ⟨oneDisc 5 (beBytes 2 0 ++ beBytes 2 1 ++ zeros 17), by decide⟩

set_option maxRecDepth 100000 in
theorem test_neighbourReceived_meets : ∃ (s : State) (port : Fin 16) (d : DiscPkt),
    discEnds d 6 = true ∧ d.len = 0 ∧ d.body.length = 12 ∧ beAt 3 1 d.body = 0 ∧ numberOk (beAt 0 2 d.body) = true ∧
    s.rdAt R.TOP_PORT_PARTNER port = beAt 0 2 d.body ∧ s.rdAt R.TOP_PORT_PARTNER_PORT port = beAt 2 1 d.body ∧ s.rdAt
    R.TOP_PORT_USE port ≠ 4 :=
  ⟨((State.reset.wrAt R.TOP_PORT_PARTNER 0 0).wrAt R.TOP_PORT_PARTNER_PORT 0 0 : State), 0, oneDisc 6 (zeros 12), by
    decide⟩

set_option maxRecDepth 100000 in
theorem test_leaseWrite_meets : ∃ (s : State) (lease : Fin 8) (plan : Bool) (value : Nat),
    s.leaseRuns lease = false ∧ plan = true ∧ value < 2 ^ 64 :=
  ⟨(State.reset : State), 0, true, 0, by decide⟩

set_option maxRecDepth 100000 in
theorem test_leaseEnable_meets : ∃ (s : State),
    s.running .top R.TOP_LEASE_CTRL_EN.addr = false :=
  ⟨(State.reset : State), by decide⟩

set_option maxRecDepth 100000 in
theorem test_fwdLoad_meets : ∃ (s : State) (slot : Fin 8) (base : Nat) (l : List Section) (p : Plan),
    slot.val ≠ 7 ∧ (s.rdAt R.TOP_FWD_STATUS_STATE slot < 2 ∨ 4 < s.rdAt R.TOP_FWD_STATUS_STATE slot) ∧ s.rd
    R.TOP_FWD_SRC_ADDR / 4096 * 4096 = base ∧ s.fwdSections base = l ∧ s.fwdPlan base l = p :=
  ⟨(State.reset.wrAt R.TOP_FWD_STATUS_STATE 0 0 : State), 0, _, _, _, by decide, by decide, rfl, rfl, rfl⟩

set_option maxRecDepth 100000 in
theorem test_fwdArm_meets : ∃ (s : State) (slot : Fin 8) (l : FwdLoad),
    Tab.find? slot.val s.top.loads = some l ∧ s.rdAt R.TOP_FWD_STATUS_STATE slot = 1 ∧ l.plan.count ≤ 1 ∧
    s.loadLeased l = true ∧ s.fwdCountOk = true :=
  ⟨((forwarding0 1).wr R.TOP_FWD_AT_AT 64 : State), 0, ⟨onePlan, 0, none⟩, by decide⟩

set_option maxRecDepth 100000 in
theorem test_fwdUnloadArm_meets : ∃ (s : State) (slot : Fin 8) (l : FwdLoad),
    Tab.find? slot.val s.top.loads = some l ∧ s.rdAt R.TOP_FWD_STATUS_STATE slot = 3 ∧ l.plan.count ≤ 1 ∧
    s.fwdCountOk = true :=
  ⟨((forwarding0 3).wr R.TOP_FWD_AT_AT 64 : State), 0, ⟨onePlan, 0, none⟩, by decide⟩

set_option maxRecDepth 100000 in
theorem test_fwdDisarm_meets : ∃ (s : State) (slot : Fin 8),
    s.rdAt R.TOP_FWD_STATUS_STATE slot = 2 ∧ (∀ l, Tab.find? slot.val s.top.loads = some l → s.now < l.armedAt) ∧ (9,
    slot.val) ∉ s.olc.applied ∧ (10, slot.val) ∉ s.olc.applied :=
  ⟨(armedFor 16 : State), 0, by decide, (by
    intro l h; have h2 : some ⟨onePlan, 16, none⟩ = some l := h; cases h2; decide), by decide, by decide⟩

set_option maxRecDepth 100000 in
theorem test_fwdDisarm_meets2 : ∃ (s : State) (slot : Fin 8) (l : FwdLoad),
    s.rdAt R.TOP_FWD_STATUS_STATE slot = 2 ∧ Tab.find? slot.val s.top.loads = some l ∧ l.armedAt ≤ s.now :=
  ⟨(armedFor 0 : State), 0, ⟨onePlan, 0, none⟩, by decide⟩

set_option maxRecDepth 100000 in
theorem test_fwdLoadEffect_meets : ∃ (s : State) (slot : Fin 7) (l : FwdLoad),
    Tab.find? slot.val s.top.loads = some l ∧ l.armedAt ≤ s.now ∧ s.rdAt R.TOP_FWD_STATUS_STATE slot = 2 :=
  ⟨(forwarding0 2 : State), 0, ⟨onePlan, 0, none⟩, by decide⟩

set_option maxRecDepth 100000 in
theorem test_twinSetReceived_meets : ∃ (s : State) (port : Fin 16) (blk : WireBlock) (count : Nat) (cells : List CellReading) (b : LinkBlock) (u : State) (c : Nat) (w : Nat) (x : TwinItem) (e : IntakeEntry) (r : IntakeRun) (v : WindowRec),
    s.rdAt R.TOP_PORT_USE port = 4 ∧ (s.accept port blk).2 = some b ∧ b.type = 1 ∧ beAt 0 1 b.data = 1 ∧
    (s.accept port blk).1.takeItem 1 count cells b.data = (u, some (c, w)) ∧ u.wholeItem 1 c w = some x ∧
    u.intake? c = some e ∧ u.run? c = some r ∧ r.windows.find? (fun v => v.index == w) = some v :=
  ⟨(twinned (windowed oneWindow) 2 1 : State), 0, wire (itemBlock 1 ([])), 1, [], itemBlock 1 ([]), (((twinned (windowed oneWindow) 2 1).accept 0 (wire (itemBlock 1 ([])))).1.takeItem 1 1 [] (itemBlock 1 ([])).data).1, 0, 0, oneItem 1 ([]), oneIntake, { oneIntakeRun with windows := [oneWindow] }, oneWindow, by decide⟩

set_option maxRecDepth 100000 in
theorem test_twinIndexReceived_meets : ∃ (s : State) (port : Fin 16) (blk : WireBlock) (count : Nat) (b : LinkBlock) (u : State) (c : Nat) (w : Nat) (x : TwinItem),
    s.rdAt R.TOP_PORT_USE port = 4 ∧ (s.accept port blk).2 = some b ∧ b.type = 1 ∧ beAt 0 1 b.data = 2 ∧
    (s.accept port blk).1.takeItem 2 count [] b.data = (u, some (c, w)) ∧ u.wholeItem 2 c w = some x :=
  ⟨(twinned (State.reset) 1 1 : State), 0, wire (itemBlock 2 ([])), 1, itemBlock 2 ([]), (((twinned (State.reset) 1 1).accept 0 (wire (itemBlock 2 ([])))).1.takeItem 2 1 [] (itemBlock 2 ([])).data).1, 0, 0, oneItem 2 ([]), by decide⟩

set_option maxRecDepth 100000 in
theorem test_twinStateReceived_meets : ∃ (s : State) (port : Fin 16) (blk : WireBlock) (count : Nat) (b : LinkBlock) (u : State) (c : Nat) (w : Nat) (x : TwinItem),
    s.rdAt R.TOP_PORT_USE port = 4 ∧ (s.accept port blk).2 = some b ∧ b.type = 1 ∧ beAt 0 1 b.data = 3 ∧
    (s.accept port blk).1.takeItem 3 count [] b.data = (u, some (c, w)) ∧ u.wholeItem 3 c w = some x :=
  ⟨(twinned (State.reset) 1 1 : State), 0, wire (itemBlock 3 ([])), 1, itemBlock 3 ([]), (((twinned (State.reset) 1 1).accept 0 (wire (itemBlock 3 ([])))).1.takeItem 3 1 [] (itemBlock 3 ([])).data).1, 0, 0, oneItem 3 ([]), by decide⟩

set_option maxRecDepth 100000 in
theorem test_twinTagsReceived_meets : ∃ (s : State) (port : Fin 16) (blk : WireBlock) (count : Nat) (b : LinkBlock) (u : State) (c : Nat) (w : Nat) (x : TwinItem),
    s.rdAt R.TOP_PORT_USE port = 4 ∧ (s.accept port blk).2 = some b ∧ b.type = 1 ∧ beAt 0 1 b.data = 4 ∧
    (s.accept port blk).1.takeItem 4 count [] b.data = (u, some (c, w)) ∧ u.wholeItem 4 c w = some x :=
  ⟨(twinned (windowed oneWindow) 2 0 : State), 0, wire (itemBlock 4 ([])), 1, itemBlock 4 ([]), (((twinned (windowed oneWindow) 2 0).accept 0 (wire (itemBlock 4 ([])))).1.takeItem 4 1 [] (itemBlock 4 ([])).data).1, 0, 0, oneItem 4 ([]), by decide⟩

set_option maxRecDepth 100000 in
theorem test_twinAckReceived_meets : ∃ (s : State) (port : Fin 16) (blk : WireBlock) (b : LinkBlock) (u : State) (c : Nat) (w : Nat) (x : TwinItem),
    s.rdAt R.TOP_PORT_USE port = 4 ∧ (s.accept port blk).2 = some b ∧ b.type = 1 ∧ beAt 0 1 b.data = 5 ∧
    (s.accept port blk).1.takeItem 5 1 [] b.data = (u, some (c, w)) ∧ u.wholeItem 5 c w = some x :=
  ⟨(twinned (State.reset) 1 0 : State), 0, wire (itemBlock 5 (zeros 8)), itemBlock 5 (zeros 8), (((twinned (State.reset) 1 0).accept 0 (wire (itemBlock 5 (zeros 8)))).1.takeItem 5 1 [] (itemBlock 5 (zeros 8)).data).1, 0, 0, oneItem 5 (zeros 8), by decide⟩

set_option maxRecDepth 100000 in
theorem test_replicaSetShip_meets : ∃ (s : State) (ctx : Fin 16) (e : IntakeEntry) (r : IntakeRun) (w : WindowRec),
    s.intake? ctx = some e ∧ s.run? ctx = some r ∧ r.windows.find? (fun w => !w.setShipped) = some w ∧
    s.replicates ctx = true ∧ s.on R.TWN_STATUS_ROLE_NOW = false ∧ s.timeDue (w.closeNominal + 128) = true :=
  ⟨((twinned (windowed oneWindow) 2 0).wr R.TAL_NOW_TICKS 128 : State), 0, oneIntake, { oneIntakeRun with windows := [oneWindow] }, oneWindow, by decide⟩

set_option maxRecDepth 100000 in
theorem test_replicaSetCheck_meets : ∃ (s : State) (ctx : Fin 16) (e : IntakeEntry) (r : IntakeRun) (w : WindowRec) (x : TwinItem),
    s.intake? ctx = some e ∧ s.run? ctx = some r ∧ r.windows.find? (fun w => !w.setShipped) = some w ∧
    s.replicates ctx = true ∧ s.on R.TWN_STATUS_ROLE_NOW = true ∧ s.checkDue w (s.rd R.ITK_CFG_SEAL_TICKS) = true ∧
    s.wholeItem 1 ctx w.index = some x :=
  ⟨({ twinned (windowed oneWindow) 2 1 with twn := { State.reset.twn with items := [oneItem 1 []] } } : State), 0, oneIntake, { oneIntakeRun with windows := [oneWindow] }, oneWindow, oneItem 1 [], by decide⟩

set_option maxRecDepth 100000 in
theorem test_replicaCompare_meets : ∃ (s : State) (ctx : Fin 16) (e : IntakeEntry) (r : IntakeRun) (w : WindowRec) (x
    : TwinItem),
    s.intake? ctx = some e ∧ s.run? ctx = some r ∧ r.windows.find? (fun w => !w.compared) = some w ∧ s.replicates ctx =
    true ∧ s.checkDue w (s.rdAt R.TWN_CTX_COMPARE_TICKS ctx) = true ∧ w.quarantined = false ∧ w.tagsSent = true ∧
    s.wholeItem 4 ctx w.index = some x ∧ ((itemBytes x).take e.slots).contains 1 = false ∧ firstDiffering e.slots
    (tagsItem e w) (itemBytes x) = none :=
  ⟨({ twinned (windowed { oneWindow with tagsSent := true }) 2 0 with twn := { State.reset.twn with items := [oneItem 4 (zeros 4)] } }
    : State), 0, oneIntake, { oneIntakeRun with windows := [{ oneWindow with tagsSent := true }] }, { oneWindow with tagsSent := true },
    oneItem 4 (zeros 4), by decide⟩

set_option maxRecDepth 100000 in
theorem test_twnTakeover_meets : ∃ (s : State),
    s.on R.TWN_STATUS_ROLE_NOW = true ∧ s.rd R.TWN_STATUS_STATE = 1 ∧ s.twn.takeoverAt = none :=
  ⟨(twinned State.reset 1 1 : State), by decide⟩

set_option maxRecDepth 100000 in
theorem test_twnSolo_meets : ∃ (s : State),
    s.rd R.TWN_STATUS_STATE = 1 ∧ s.twn.lost = false ∧ s.on R.TWN_STATUS_ROLE_NOW = false :=
  ⟨(twinned State.reset 1 0 : State), by decide⟩

set_option maxRecDepth 100000 in
theorem test_takeoverEffect_meets : ∃ (s : State) (ctx : Fin 16) (n : Nat) (r : IntakeRun),
    s.twn.takeoverAt = some n ∧ s.run? ctx = some r ∧ n ≤ s.now ∧ r.standby = true ∧ r.openAt = s.now :=
  ⟨({ intaking oneIntake { oneIntakeRun with standby := true } with twn := { State.reset.twn with takeoverAt := some 0 } }
    : State), 0, 0, { oneIntakeRun with standby := true }, by decide⟩

set_option maxRecDepth 100000 in
theorem test_partnerLost_meets : ∃ (s : State),
    s.twinPorts = [] ∧ s.rd R.TWN_STATUS_STATE = 1 ∧ s.twn.lost = false ∧ s.on R.TWN_STATUS_ROLE_NOW = false :=
  ⟨(State.reset.wr R.TWN_STATUS_STATE 1 : State), by decide⟩

set_option maxRecDepth 100000 in
theorem test_olicoFlitRetry_meets : ∃ (s : State),
    s.olicoUp = true :=
  ⟨(State.reset.wr R.OLC_STATUS_STATE 2 : State), by decide⟩

set_option maxRecDepth 100000 in
theorem test_olicoLaneFail_meets : ∃ (s : State) (tx : Bool) (lanes : List (Fin 32)) (new : List Nat),
    tx = true ∧ (lanes.map Fin.val).foldl (fun l x => addOnce x l) s.olc.failedTx = new ∧
    s.olc.failedTx.length < new.length ∧ s.rd R.OLC_STATUS_STATE ≠ 0 ∧ halvesLost new = false :=
  ⟨(State.reset.wr R.OLC_STATUS_STATE 2 : State), true, [0], [0], by decide⟩

set_option maxRecDepth 100000 in
theorem test_olicoLaneFail_meets2 : ∃ (s : State) (tx : Bool) (lanes : List (Fin 32)) (old : List Nat) (new : List
    Nat),
    old = (if tx then s.olc.failedTx else s.olc.failedRx) ∧ (lanes.map Fin.val).foldl (fun l x => addOnce x l) old = new ∧
    old.length < new.length ∧ s.rd R.OLC_STATUS_STATE ≠ 0 :=
  ⟨({ State.reset.wr R.OLC_STATUS_STATE 2 with olc := { State.reset.olc with failedRx := [0] } } : State), false, [16],
    [0], [0, 16], by decide⟩

set_option maxRecDepth 100000 in
theorem test_olicoNoProgress_meets : ∃ (s : State),
    s.olicoUp = true :=
  ⟨(State.reset.wr R.OLC_STATUS_STATE 2 : State), by decide⟩

set_option maxRecDepth 100000 in
theorem test_olicoRetrainDone_meets : ∃ (s : State) (badTx : List (Fin 32)) (badRx : List (Fin 32)),
    s.rd R.OLC_STATUS_STATE = 1 ∧ s.fst.booted = true ∧ badTx = [] ∧ badRx = [] :=
  ⟨({ State.reset.wr R.OLC_STATUS_STATE 1 with fst := { State.reset.fst with booted := true } } : State), [], [], by
    decide⟩

set_option maxRecDepth 100000 in
theorem test_olicoRetrainDone_meets2 : ∃ (s : State) (badTx : List (Fin 32)) (badRx : List (Fin 32)) (tx : List Nat)
    (rx : List Nat),
    s.rd R.OLC_STATUS_STATE = 1 ∧ s.fst.booted = true ∧ badTx.map Fin.val = tx ∧ badRx.map Fin.val = rx ∧ halvesLost tx =
    false ∧ halvesLost rx = false :=
  ⟨({ State.reset.wr R.OLC_STATUS_STATE 1 with fst := { State.reset.fst with booted := true } } : State), [0], [31],
    [0], [31], by decide⟩

set_option maxRecDepth 100000 in
theorem test_csrAccessError_meets : ∃ (offset : Nat) (width : Nat),
    width ≠ 64 ∨ offset % 8 ≠ 0 :=
  ⟨0, 32, by decide⟩

set_option maxRecDepth 100000 in
theorem test_registerWrite_meets : ∃ (offset : Nat),
    offset % 8 = 0 :=
  ⟨0, by decide⟩

set_option maxRecDepth 100000 in
theorem test_changeNextWrite_meets : ∃ (value : Nat),
    value < 2 ^ 40 :=
  ⟨0, by decide⟩

set_option maxRecDepth 100000 in
theorem test_olcArm_meets : ∃ (s : State) (p : Plan),
    s.pln.active = some p ∧ p.count ≤ 1 ∧ (s.ctx? (s.rd R.OLC_CHANGE_NEXT_CONTEXT)).isSome = true ∧
    s.last R.OLC_CHANGE_AT_AT % 16 = 0 ∧ s.now < s.last R.OLC_CHANGE_AT_AT ∧
    Tab.find? (s.rd R.OLC_CHANGE_NEXT_CONTEXT) s.olc.extArmed = none :=
  ⟨((running onePlan oneJob).wr R.OLC_CHANGE_AT_AT 64 : State), onePlan, by decide⟩

set_option maxRecDepth 100000 in
theorem test_olcDisarm_meets : ∃ (s : State),
    s.armedChange? 7 (s.rd R.OLC_CHANGE_NEXT_CONTEXT) = none ∧ (7, s.rd R.OLC_CHANGE_NEXT_CONTEXT) ∉ s.olc.applied ∧ (∀ n
    r, Tab.find? (s.rd R.OLC_CHANGE_NEXT_CONTEXT) s.olc.extArmed = some n → s.ctx? (s.rd R.OLC_CHANGE_NEXT_CONTEXT) =
    some r → n ≤ s.now → r.start ≠ s.now) :=
  ⟨(State.reset : State), by decide, by decide, by
    intro n r h; have h2 : none = some n := h; cases h2⟩

set_option maxRecDepth 100000 in
theorem test_olcDisarm_meets2 : ∃ (s : State),
    (7, s.rd R.OLC_CHANGE_NEXT_CONTEXT) ∈ s.olc.applied :=
  ⟨({ State.reset with olc := { State.reset.olc with applied := [(7, 0)] } } : State), by decide⟩

set_option maxRecDepth 100000 in
theorem test_voteCount_meets : ∃ (s : State) (change : Nat) (c : Change),
    s.change? change = some c ∧ c.root = s.number ∧ c.counted = false ∧
    c.effect + s.rd R.OLC_2PC_VOTE_TICKS ≤ s.now + s.rd R.OLC_2PC_LEAD_TICKS ∧ c.participants ≤ c.votes :=
  ⟨(withChange { oneChange with votes := 1, effect := 0, root := 0xFFFF } ((State.reset.wr R.OLC_2PC_VOTE_TICKS 0)) : State), 1, { oneChange with votes := 1, effect := 0, root := 0xFFFF }, by decide⟩

set_option maxRecDepth 100000 in
theorem test_armedReceived_meets : ∃ (s : State) (pkt : ControlPkt) (c : Change),
    pkt.op = 1 ∧ pkt.kindOk = true ∧ s.change? pkt.id = some c :=
  ⟨(withChange oneChange State.reset : State), ⟨1, 1, 0, 1, 1, 64, 0, 0⟩, oneChange, by decide⟩

set_option maxRecDepth 100000 in
theorem test_refusedReceived_meets : ∃ (pkt : ControlPkt),
    pkt.op = 2 ∧ pkt.kindOk = true :=
  ⟨⟨2, 1, 0, 1, 1, 64, 0, 0⟩, by decide⟩

set_option maxRecDepth 100000 in
theorem test_splitReceived_meets : ∃ (s : State) (pkt : ControlPkt) (c : Change),
    pkt.op = 3 ∧ pkt.kindOk = true ∧ s.change? pkt.id = some c ∧ c.state = 1 :=
  ⟨(withChange oneChange State.reset : State), ⟨3, 1, 0, 1, 1, 64, 64, 1⟩, oneChange, by decide⟩

set_option maxRecDepth 100000 in
theorem test_spareExtensionEffect_meets : ∃ (s : State) (ctx : Fin 16) (p : Plan) (r : CtxRun) (n : Nat),
    s.pln.active = some p ∧ s.ctx? ctx = some r ∧ Tab.find? ctx.val s.olc.extArmed = some n ∧ n ≤ s.now ∧
    r.start = s.now ∧ s.gen.retime.contains ctx.val = false :=
  ⟨({ running onePlan oneJob with olc := { State.reset.olc with extArmed := [(0, 0)] } } : State), 0, onePlan, oneRun, 0, by decide⟩

set_option maxRecDepth 100000 in
theorem test_changeFailedAtEffect_meets : ∃ (s : State) (kind : Fin 16) (ctx : Fin 16) (n : Nat) (c : Change),
    s.effectOf kind ctx = some n ∧ n ≤ s.now ∧ s.armedChange? kind ctx = some c :=
  ⟨(withChange { oneChange with kind := 8 } { State.reset with sch := { State.reset.sch with restoreAt := some 0 } } : State), 8, 0, 0, { oneChange with kind := 8 }, by decide⟩

set_option maxRecDepth 100000 in
theorem test_fcpHandshake_meets : ∃ (s : State) (profile : Bool) (n : Nat),
    s.fcpUp = true ∧ profile = true ∧ s.nv.owned = false ∧
    (List.range 8).find? (fun k => (Tab.find? k s.fst.sessions).isNone) = some n :=
  ⟨(served false : State), true, 1, by decide⟩

set_option maxRecDepth 100000 in
theorem test_hello_meets : ∃ (s : State) (session : Fin 8),
    s.fcpUp = true ∧ (Tab.find? session.val s.fst.sessions).isSome = true ∧ s.serves session 0x01 = true :=
  ⟨(served true : State), 0, by decide⟩

set_option maxRecDepth 100000 in
theorem test_csrRead_meets : ∃ (s : State) (session : Fin 8) (module : Nat) (offset : Nat) (count : Nat),
    s.fcpUp = true ∧ (Tab.find? session.val s.fst.sessions).isSome = true ∧ s.serves session 0x10 = true ∧ 1 ≤ count ∧
    count ≤ 512 ∧ module = s.number ∧ offset % 8 = 0 :=
  ⟨(served true : State), 0, 0xFFFF, 0, 1, by decide⟩

set_option maxRecDepth 100000 in
theorem test_csrWrite_meets : ∃ (s : State) (session : Fin 8) (module : Nat) (pairs : List (Nat × Nat)),
    s.fcpUp = true ∧ (Tab.find? session.val s.fst.sessions).isSome = true ∧ s.serves session 0x11 = true ∧
    pairs ≠ [] ∧ pairs.length ≤ 512 ∧ module = s.number :=
  ⟨(served true : State), 0, 0xFFFF, [(0, 0)], by decide⟩

set_option maxRecDepth 100000 in
theorem test_memRead_meets : ∃ (s : State) (session : Fin 8) (addr : Nat) (length : Nat) (st : Nat),
    s.fcpUp = true ∧ (Tab.find? session.val s.fst.sessions).isSome = true ∧ s.serves session 0x20 = true ∧ 1 ≤ length ∧
    length ≤ 2 ^ 20 ∧ globalModule addr = s.number ∧ s.number < 4096 ∧ s.serviceStatus (localPart addr) length = st :=
  ⟨(((served true).wr R.TOP_MODULE_ASSIGNED 1).wr R.TOP_MODULE_NUMBER 0 : State), 0, 0, 1, _, by decide, by decide, by
    decide, by decide, by decide, by decide, by decide, rfl⟩

set_option maxRecDepth 100000 in
theorem test_memWrite_meets : ∃ (s : State) (session : Fin 8) (addr : Nat) (st : Nat) (bytes : List Byte),
    s.fcpUp = true ∧ (Tab.find? session.val s.fst.sessions).isSome = true ∧ s.serves session 0x21 = true ∧ bytes ≠ [] ∧
    bytes.length ≤ 2 ^ 20 ∧ globalModule addr = s.number ∧ s.number < 4096 ∧ s.serviceStatus (localPart addr)
    bytes.length = st :=
  ⟨(((served true).wr R.TOP_MODULE_ASSIGNED 1).wr R.TOP_MODULE_NUMBER 0 : State), 0, 0, _, [1], by decide, by decide, by
    decide, by decide, by decide, by decide, by decide, rfl⟩

set_option maxRecDepth 100000 in
theorem test_shardPut_meets : ∃ (s : State) (session : Fin 8) (ctx : Nat) (entry : Nat) (bytes : List Byte),
    s.fcpUp = true ∧ (Tab.find? session.val s.fst.sessions).isSome = true ∧ s.serves session 0x30 = true ∧ ctx < 16 ∧
    entry < 4 ∧ bytes.length ≤ 2 ^ 20 :=
  ⟨(served true : State), 0, 0, 0, [], by decide⟩

set_option maxRecDepth 100000 in
theorem test_export_meets : ∃ (s : State) (session : Fin 8),
    s.fcpUp = true ∧ (Tab.find? session.val s.fst.sessions).isSome = true ∧ s.serves session 0x40 = true :=
  ⟨(served true : State), 0, by decide⟩

set_option maxRecDepth 100000 in
theorem test_discSend_meets : ∃ (s : State) (session : Fin 8) (op : Nat) (path : List Nat) (body : List Byte),
    s.fcpUp = true ∧ (Tab.find? session.val s.fst.sessions).isSome = true ∧ s.serves session 0x50 = true ∧ op = 1 ∧
    body = [] ∧ path = [] :=
  ⟨(served true : State), 0, 1, [], [], by decide⟩

set_option maxRecDepth 100000 in
theorem test_fcpReset_meets : ∃ (s : State) (session : Fin 8),
    s.fcpUp = true ∧ (Tab.find? session.val s.fst.sessions).isSome = true ∧ s.serves session 0x60 = true :=
  ⟨(served true : State), 0, by decide⟩

set_option maxRecDepth 100000 in
theorem test_fcpServicePacket_meets : ∃ (s : State) (source : Fin 65536) (reqId : Nat) (req : FcpReq) (status : Nat) (fields : List Nat) (bytes : List Byte) (a : Awaited),
    s.pwr.forester = true ∧ s.fst.booted = true ∧ req = .answer status fields bytes ∧
    s.fst.awaited.find? (fun a => a.module == some source.val && a.key == reqId) = some a :=
  ⟨({ served true with fst := { (served true).fst with awaited := [⟨some 0, 0, 0, 5, 0x10⟩] } } : State), 0, 0, .answer 0 [] [], 0, [], [], ⟨some 0, 0, 0, 5, 0x10⟩, by decide⟩

set_option maxRecDepth 100000 in
theorem test_exportAcknowledged_meets : ∃ (s : State) (session : Fin 8),
    (Tab.find? session.val s.fst.exporting).isSome = true :=
  ⟨({ served true with fst := { (served true).fst with exporting := [(0, 0)] } } : State), 0, by decide⟩

set_option maxRecDepth 100000 in
theorem test_managementPortLinkUp_meets : ∃ (s : State),
    s.pwr.forester = true :=
  ⟨(served true : State), by decide⟩

set_option maxRecDepth 100000 in
theorem test_certs_meets : ∃ (s : State) (session : Fin 8),
    s.fcpUp = true ∧ (Tab.find? session.val s.fst.sessions).isSome = true ∧ s.serves session 0x70 = true :=
  ⟨(served true : State), 0, by decide⟩

set_option maxRecDepth 100000 in
theorem test_quote_meets : ∃ (s : State) (session : Fin 8) (challenge : List Byte),
    s.fcpUp = true ∧ (Tab.find? session.val s.fst.sessions).isSome = true ∧ s.serves session 0x71 = true ∧
    challenge.length = 32 :=
  ⟨(served true : State), 0, zeros 32, by decide⟩

set_option maxRecDepth 100000 in
theorem test_enroll_meets : ∃ (s : State) (session : Fin 8) (c : OwnerCmd),
    s.fcpUp = true ∧ (Tab.find? session.val s.fst.sessions).isSome = true ∧ s.serves session 0x72 = true ∧
    s.ownerOk .enroll c = true ∧ s.writesAdmitted = true :=
  ⟨(keyed : State), 0, ownerCmd 1 5 rsaEnroll, by decide⟩

set_option maxRecDepth 100000 in
theorem test_revoke_meets : ∃ (s : State) (session : Fin 8) (c : OwnerCmd),
    s.fcpUp = true ∧ (Tab.find? session.val s.fst.sessions).isSome = true ∧ s.serves session 0x72 = true ∧
    s.ownerOk .revoke c = true ∧ s.writesAdmitted = true :=
  ⟨(keyed : State), 0, ownerCmd 1 0 rsaRevoke, by decide⟩

set_option maxRecDepth 100000 in
theorem test_anchorSet_meets : ∃ (s : State) (session : Fin 8) (c : OwnerCmd),
    s.fcpUp = true ∧ (Tab.find? session.val s.fst.sessions).isSome = true ∧ s.serves session 0x72 = true ∧
    s.ownerOk .anchorSet c = true ∧ s.writesAdmitted = true :=
  ⟨(keyed : State), 0, ownerCmd 0 5 rsaAnchorSet, by decide⟩

set_option maxRecDepth 100000 in
theorem test_anchorClear_meets : ∃ (s : State) (session : Fin 8) (c : OwnerCmd),
    s.fcpUp = true ∧ (Tab.find? session.val s.fst.sessions).isSome = true ∧ s.serves session 0x72 = true ∧
    s.ownerOk .anchorClear c = true ∧ s.writesAdmitted = true :=
  ⟨(keyed : State), 0, ownerCmd 0 0 rsaAnchorClear, by decide⟩

set_option maxRecDepth 100000 in
theorem test_ownerClaim_meets : ∃ (s : State) (session : Fin 8) (c : OwnerClaim),
    s.fcpUp = true ∧ (Tab.find? session.val s.fst.sessions).isSome = true ∧ s.serves session 0x73 = true ∧
    Crypto.sha512 (fit 16 c.code) = s.nv.claimDigest ∧ Crypto.pssVerify c.key0 (claimBytes c) c.sig = true ∧
    s.writesAdmitted = true :=
  ⟨(claimable : State), 0, oneClaim, by decide⟩

set_option maxRecDepth 100000 in
theorem test_fwPut_meets : ∃ (s : State) (session : Fin 8) (image : Nat) (offset : Nat) (bytes : List Byte),
    s.fcpUp = true ∧ (Tab.find? session.val s.fst.sessions).isSome = true ∧ s.serves session 0x74 = true ∧ image < 2 ∧
    offset % 65536 = 0 ∧ bytes ≠ [] ∧ bytes.length ≤ 2 ^ 20 ∧ s.runningImage image = false ∧ s.writesAdmitted = true :=
  ⟨(served true : State), 0, 1, 0, [1], by decide⟩

set_option maxRecDepth 100000 in
theorem test_fwActivate_meets : ∃ (s : State) (session : Fin 8) (image : Nat) (check : ImageCheck) (img : Image),
    s.fcpUp = true ∧ (Tab.find? session.val s.fst.sessions).isSome = true ∧ s.serves session 0x75 = true ∧ image < 2 ∧
    s.runningImage image = false ∧ check.verifies = true ∧ s.nv.rollback ≤ check.svn ∧ s.writesAdmitted = true ∧
    s.nv.images.getD image ⟨[], 0⟩ = img :=
  ⟨(served true : State), 0, 1, ⟨true, 63⟩, (served true).nv.images.getD 1 ⟨[], 0⟩, by decide⟩

set_option maxRecDepth 100000 in
theorem test_commitSvn_meets : ∃ (s : State),
    s.writesAdmitted = true :=
  ⟨(served true : State), by decide⟩

set_option maxRecDepth 100000 in
theorem test_secureBoot_meets : ∃ (s : State) (a : ImageCheck) (u : State),
    s.pwr.forester = true ∧ s.fst.booted = false ∧ s.on R.SEC_STATUS_SCAN_FUSED = true ∧ s.nv.nextImage % 2 = 0 ∧
    { s with nv := { s.nv with keys := s.nv.keys.map KeySlot.booted } }.showSecurity = u ∧ u.boots a = true :=
  ⟨({ State.reset with pwr := { State.reset.pwr with forester := true } } : State), ⟨true, 63⟩, { State.reset with pwr := { State.reset.pwr with forester := true }, nv := { State.reset.nv with keys := State.reset.nv.keys.map KeySlot.booted } }.showSecurity, by decide⟩

set_option maxRecDepth 100000 in
theorem test_fltAck_meets : ∃ (s : State) (u : State) (seq : Fin 65536),
    s.wr R.FLT_CTRL_ACK_SEQ seq = u :=
  ⟨(faulted : State), _, 1, rfl⟩

set_option maxRecDepth 100000 in
theorem test_fltRelease_meets : ∃ (s : State),
    s.fatalQueued = false :=
  ⟨(State.reset : State), by decide⟩

set_option maxRecDepth 100000 in
theorem test_rrcSpillTimer_meets : ∃ (s : State),
    s.pwr.forester = true :=
  ⟨({ State.reset with pwr := { State.reset.pwr with forester := true } } : State), by decide⟩

set_option maxRecDepth 100000 in
theorem test_dieRailOutOfRegulation_meets : ∃ (s : State),
    s.pwr.dieOn = true :=
  ⟨({ State.reset with pwr := { State.reset.pwr with dieOn := true } } : State), by decide⟩

set_option maxRecDepth 100000 in
theorem test_tallyParityError_meets : ∃ (s : State),
    s.tal.running = true :=
  ⟨({ State.reset with tal := { State.reset.tal with running := true } } : State), by decide⟩

set_option maxRecDepth 100000 in
theorem test_csrSpineUncorrectable_meets : ∃ (s : State),
    s.pwr.dieOn = true :=
  ⟨({ State.reset with pwr := { State.reset.pwr with dieOn := true } } : State), by decide⟩

set_option maxRecDepth 100000 in
theorem test_traceStart_meets : ∃ (s : State),
    s.rd R.OBS_TRACE_STATUS_STATE = 1 ∧ s.obs.traceAt ≤ s.now :=
  ⟨(State.reset.wr R.OBS_TRACE_STATUS_STATE 1 : State), by decide⟩

set_option maxRecDepth 100000 in
theorem test_traceStop_meets : ∃ (s : State),
    s.rd R.OBS_TRACE_STATUS_STATE = 2 ∧ s.rd R.OBS_TRACE_STOP_AT ≠ 0 ∧ s.rd R.OBS_TRACE_STOP_AT ≤ s.now :=
  ⟨(((State.reset.wr R.OBS_TRACE_STATUS_STATE 2).wr R.OBS_TRACE_STOP_AT 1).wr R.TAL_NOW_TICKS 1 : State), by decide⟩

set_option maxRecDepth 100000 in
theorem test_stopNow_meets : ∃ (s : State),
    s.rd R.OBS_TRACE_STATUS_STATE = 2 :=
  ⟨(State.reset.wr R.OBS_TRACE_STATUS_STATE 2 : State), by decide⟩

set_option maxRecDepth 100000 in
theorem test_snapArm_meets : ∃ (s : State),
    s.last R.OBS_SNAP_AT_AT % 16 = 0 :=
  ⟨(State.reset : State), by decide⟩

set_option maxRecDepth 100000 in
theorem test_snapshot_meets : ∃ (s : State) (n : Nat),
    s.obs.snapAt = some n ∧ n = s.now :=
  ⟨({ State.reset with obs := { State.reset.obs with snapAt := some 0 } } : State), 0, by decide⟩

set_option maxRecDepth 100000 in
theorem test_diePowerStart_meets : ∃ (s : State) (temp : Nat) (flow : Nat),
    s.serving = true ∧ s.fst.booted = true ∧ s.on R.SEC_STATUS_RECOVERY = false ∧ s.pwr.dieOn = false ∧
    coolantOut temp flow = false :=
  ⟨(serving0 : State), 200, 4000, by decide⟩

set_option maxRecDepth 100000 in
theorem test_railGroupRegulation_meets : ∃ (s : State),
    s.pwr.dieOn = true ∧ s.pwr.railRamp = true ∧ s.pwr.railsUp = 1 :=
  ⟨({ State.reset with pwr := { State.reset.pwr with dieOn := true, railRamp := true, railsUp := 1 } } : State), by decide⟩

set_option maxRecDepth 100000 in
theorem test_railTimeout_meets : ∃ (s : State),
    s.pwr.railRamp = true :=
  ⟨({ State.reset with pwr := { State.reset.pwr with railRamp := true } } : State), by decide⟩

set_option maxRecDepth 100000 in
theorem test_foremanRunning_meets : ∃ (s : State) (foreman : Fin 6) (measures : Bool),
    s.rdAt R.OLC_FOREMAN_STATE foreman = 1 ∧ measures = true :=
  ⟨(State.reset.wrAt R.OLC_FOREMAN_STATE 0 1 : State), 0, true, by decide⟩

set_option maxRecDepth 100000 in
theorem test_foremanTimeout_meets : ∃ (s : State) (foreman : Fin 6),
    s.rdAt R.OLC_FOREMAN_STATE foreman = 1 :=
  ⟨(State.reset.wrAt R.OLC_FOREMAN_STATE 0 1 : State), 0, by decide⟩

set_option maxRecDepth 100000 in
theorem test_foremanFaulted_meets : ∃ (s : State) (foreman : Fin 6),
    s.rdAt R.OLC_FOREMAN_STATE foreman = 2 :=
  ⟨(State.reset.wrAt R.OLC_FOREMAN_STATE 0 2 : State), 0, by decide⟩

set_option maxRecDepth 100000 in
theorem test_foresterReset_meets : ∃ (s : State),
    s.pwr.forester = true :=
  ⟨({ State.reset with pwr := { State.reset.pwr with forester := true } } : State), by decide⟩

set_option maxRecDepth 100000 in
theorem test_dieCoreReset_meets : ∃ (s : State),
    s.pwr.dieOn = true :=
  ⟨({ State.reset with pwr := { State.reset.pwr with dieOn := true } } : State), by decide⟩

set_option maxRecDepth 100000 in
theorem test_dieCoreResetEnd_meets : ∃ (s : State),
    s.pwr.dieOn = true ∧ s.pwr.railsUp = 4 ∧ s.pwr.dieReset = true ∧ s.on R.FLT_STATUS_DIE_HELD = false :=
  ⟨({ State.reset with pwr := { State.reset.pwr with dieOn := true, railsUp := 4, dieReset := true } } : State), by decide⟩

set_option maxRecDepth 100000 in
theorem test_haulPlaneReset_meets : ∃ (s : State),
    s.pwr.dieOn = true :=
  ⟨({ State.reset with pwr := { State.reset.pwr with dieOn := true } } : State), by decide⟩

/-! ## Witnesses for the other statements -/

set_option maxRecDepth 100000 in
/-- `Obligations.PairOpsRun` and `Obligations.SingleOpsRun`: bench 0 may issue a pair operation, ISHF of kind 0 too. -/
theorem test_PairOpsRun_meets : ∃ (s : State) (i : Issue) (v : VecSlot),
    evenRegs v = true ∧ v.imm % 4 ≠ 3 ∧ s.canIssue i (.vector 0x22 v) = true :=
  ⟨issuing (vectorOp 0x22) State.reset, atIssue, zeroVec, by decide⟩

set_option maxRecDepth 100000 in
/-- The hypotheses of `Obligations.PairOpsRun` and `Obligations.SingleOpsRun` for every other opcode. -/
theorem test_lane_ops_issue : ∀ op ∈ [0x01, 0x02, 0x03, 0x04, 0x11, 0x12, 0x13, 0x20, 0x21, 0x23, 0x24, 0x25, 0x38, 0x39, 0x3A,
    0x3B, 0x3C, 0x3D], (issuing (vectorOp op) State.reset).canIssue atIssue (.vector op zeroVec) = true := by decide

/-- `Obligations.StepRunsFront`: a queue with a command at its front. -/
theorem test_StepRunsFront_meets : ∃ (s : State) (c : Instr) (rest : List Instr), s.pending = c :: rest :=
  ⟨{ State.reset with pending := [.plnAbort] }, .plnAbort, [], rfl⟩

/-- `Obligations.IdleTicks`: an empty queue with the Tally stopped, and with it running and the PTP clock stopped. -/
theorem test_IdleTicks_meets :
    (∃ s : State, s.pending = [] ∧ s.tal.running = false) ∧
    ∃ s : State, s.pending = [] ∧ s.tal.running = true ∧ s.ptp.running = false :=
  ⟨⟨State.reset, rfl, rfl⟩, ⟨{ State.reset with tal := { State.reset.tal with running := true } }, rfl, rfl, rfl⟩⟩

/-- `Obligations.StepKeepsSound`: a sound state with a step. -/
theorem test_StepKeepsSound_meets : ∃ s t : State, s.Sound ∧ step s = .next t :=
  ⟨State.reset, State.reset, by unfold State.Sound; decide, rfl⟩

/-- `Obligations.NonvolatileRises`: an owned module with a step. -/
theorem test_NonvolatileRises_meets : ∃ s t : State, step s = .next t ∧ s.nv.owned = true :=
  ⟨{ State.reset with nv := { State.reset.nv with owned := true } }, _, rfl, rfl⟩

/-- `Obligations.FrameOfCommands`: a command that runs, a part it does not name, and memory not named. -/
theorem test_FrameOfCommands_meets : ∃ (c : Instr) (s t : State), exec c s = .next t ∧ .csr ∉ touches c ∧ .mem ∉ touches c :=
  ⟨.precharge, State.reset, State.reset, rfl, by decide, by decide⟩

set_option maxRecDepth 100000 in
/-- `Obligations.WrittenRegisters`: a listed command that runs and a field outside its list. -/
theorem test_WrittenRegisters_meets : ∃ (c : Instr) (s t : State) (l : List Nat) (f : Field) (j : Nat),
    writtenKeys c = some l ∧ exec c s = .next t ∧ f.key j ∉ l :=
  ⟨.prechargeDone, { State.reset with pwr := { State.reset.pwr with stage := .precharging } }, _, _, R.PWR_VIN_NOW, 0,
    rfl, rfl, by decide⟩

set_option maxRecDepth 100000 in
/-- Its clause about a late entry: a field that is none of those it writes. -/
theorem test_WrittenRegisters_late_meets : ∃ (s t : State) (f : Field) (j : Nat), exec (.lateEntry 1 0 3) s = .next t ∧
    f.key j ≠ R.CLK_RGN_COUNT_LATE.key 0 ∧ f.key j ≠ R.CLK_RGN_COUNT_LATE.key 1 ∧ f.key j ≠ R.CLK_EVENT_LATE_ENTRY.key 0 ∧
    ∀ b, f.key j ≠ R.BCH_SEQ_STATUS_STATE.key b :=
  ⟨{ State.reset with clk := { State.reset.clk with stalled := [1] } }, _, R.PWR_VIN_NOW, 0, rfl, by decide, by decide, by decide,
    by intro b; simp only [Field.key, R.PWR_VIN_NOW, R.BCH_SEQ_STATUS_STATE]; omega⟩

set_option maxRecDepth 100000 in
/-- `Obligations.BlockRoundTrip`: a block with every field at its largest value. -/
theorem test_BlockRoundTrip_meets : ∃ b : LinkBlock, b.type < 16 ∧ b.seq < 65536 ∧ b.ack < 65536 ∧ b.freed0 < 1024 ∧
    b.freed1 < 1024 ∧ b.data.length ≤ 244 :=
  ⟨⟨15, 65535, 65535, 1023, 1023, zeros 244⟩, by decide⟩

set_option maxRecDepth 100000 in
/-- `Obligations.PacketsRoundTrip`: for each layout a value with its fields at their largest. -/
theorem test_PacketsRoundTrip_meets :
    (∃ p : SvcPkt, p.kind < 256 ∧ p.dest < 65536 ∧ p.source < 65536 ∧ p.hops < 256 ∧ p.seq < 2 ^ 32 ∧
      p.payload.length < 65536) ∧
    (∃ d : SchedData, d.route < 65536 ∧ d.step16 < 65536 ∧ d.index < 65536 ∧ d.path < 4 ∧ d.attempt < 4) ∧
    (∃ m : LaneMsg, 1 ≤ m.kind ∧ m.kind ≤ 5 ∧ m.logical < 256 ∧ m.src < 256 ∧ m.dst < 256 ∧ m.opId < 65536) ∧
    (∃ m : Marker, m.tDep < 2 ^ 96 ∧ m.root < 65536 ∧ m.hops < 256 ∧ m.flags < 256 ∧ m.sender < 65536 ∧ m.port < 256) ∧
    (∃ n : Notice, n.plan < 2 ^ 64 ∧ n.point < 2 ^ 64 ∧ n.step < 2 ^ 64 ∧ n.requester < 65536 ∧ n.arg < 65536 ∧ n.code < 256 ∧
      n.attempt < 256 ∧ n.origin < 2 ^ 64) ∧
    (∃ r : RouteDown, r.plan < 2 ^ 64 ∧ r.lossAt < 2 ^ 64 ∧ r.step < 2 ^ 64 ∧ r.route < 65536 ∧ r.port < 256 ∧ r.cause < 256) ∧
    (∀ kind < 3, ∃ (a : Announce) (rest : List Byte), a.kind = kind ∧
      ((a.kind = 0 ∧ rest.length = 0) ∨ (a.kind = 1 ∧ rest.length = 16) ∨ (a.kind = 2 ∧ rest.length = 40)) ∧
      a.version < 256 ∧ a.partnerType < 256 ∧ a.port < 256 ∧ a.module < 65536 ∧ a.rxLanes < 65536 ∧ a.serial < 2 ^ 64 ∧
      a.replayBlocks < 65536 ∧ a.credits0 < 65536 ∧ a.credits1 < 65536 ∧ a.alignPs < 65536 ∧ a.markerTicks < 65536) ∧
    (∃ d : DiscPkt, 1 ≤ d.op ∧ d.op ≤ 6 ∧ d.len ≤ 32 ∧ d.pos ≤ d.len ∧ (d.op = 6 → d.len = 0) ∧ d.token < 2 ^ 32 ∧
      d.epoch < 2 ^ 32 ∧ d.path.length = 32 ∧ d.ret.length = 32 ∧ (∀ x ∈ d.path, x < 256) ∧ (∀ x ∈ d.ret, x < 256)) := by
  refine ⟨⟨⟨255, 65535, 65535, 255, true, 2 ^ 32 - 1, zeros 3⟩, by decide⟩, ⟨⟨65535, 65535, 65535, true, true, 3, 3, []⟩, by decide⟩,
    ⟨⟨5, 255, 255, 255, 65535⟩, by decide⟩, ⟨⟨2 ^ 96 - 1, 65535, 255, 255, 65535, 255⟩, by decide⟩,
    ⟨⟨2 ^ 64 - 1, 2 ^ 64 - 1, 2 ^ 64 - 1, 65535, 65535, 255, 255, 2 ^ 64 - 1⟩, by decide⟩,
    ⟨⟨2 ^ 64 - 1, 2 ^ 64 - 1, 2 ^ 64 - 1, 65535, 255, 255⟩, by decide⟩, fun kind hk => ?_,
    ⟨⟨5, 32, 32, 2 ^ 32 - 1, 2 ^ 32 - 1, List.replicate 32 255, List.replicate 32 255, []⟩, by decide⟩⟩
  obtain rfl | rfl | rfl : kind = 0 ∨ kind = 1 ∨ kind = 2 := by omega
  · exact ⟨oneAnnounce 0, [], by decide⟩
  · exact ⟨oneAnnounce 1, zeros 16, by decide⟩
  · exact ⟨oneAnnounce 2, zeros 40, by decide⟩

set_option maxRecDepth 100000 in
/-- `Obligations.ReservedEncodings`: for each clause a bench that may issue a slot at the edge of its range: odd registers
(DST 1), ISHF kind 3, VCMP kind 4, FMT 12 in VCVT, an ensemble header of zeros, MGR of a block-sparse descriptor, and FDEC with bit
13 of its immediate. -/
theorem test_ReservedEncodings_meets :
    (∀ op ∈ [0x01, 0x02, 0x03, 0x04, 0x10, 0x11, 0x12, 0x13, 0x20, 0x21, 0x22, 0x23, 0x24, 0x25], evenRegs ⟨1, 0, 0, 0, 0, 0, 0, 0⟩ = false ∧
      (issuing (vectorOp op + 2 ^ 194) State.reset).canIssue atIssue (.vector op ⟨1, 0, 0, 0, 0, 0, 0, 0⟩) = true) ∧
    (issuing (vectorOp 0x22 + 3 * 2 ^ 144) State.reset).canIssue atIssue (.vector 0x22 ⟨0, 0, 0, 0, 0, 0, 0, 3⟩) = true ∧
    (issuing (vectorOp 0x10 + 4 * 2 ^ 144) State.reset).canIssue atIssue (.vector 0x10 ⟨0, 0, 0, 0, 0, 0, 0, 4⟩) = true ∧
    ((issuing (vectorOp 0x30 + 12 * 2 ^ 172) State.reset).canIssue atIssue (.vector 0x30 ⟨0, 0, 0, 0, 12, 0, 0, 0⟩) = true ∧
      formatOf 12 = none) ∧
    (issuing (vectorOp 0x40) State.reset).canIssue atIssue (.vector 0x40 zeroVec) = true ∧
    (((issuing (vectorOp 0x40) State.reset).issued atIssue (.vector 0x40 zeroVec)).seen 0).ensemble? 0 0 = none ∧
    (issuing (vectorOp 0x41) State.reset).canIssue atIssue (.vector 0x41 zeroVec) = true ∧
    (((issuing (vectorOp 0x41) State.reset).issued atIssue (.vector 0x41 zeroVec)).seen 0).ensemble? 0 0 = none ∧
    (blockSparse.canIssue atIssue (.matrix 1 zeroMat) = true ∧ ((blockSparse.issued atIssue (.matrix 1 zeroMat)).desc 0 0).form = 2) ∧
    (forking.canIssue atIssue (.control 8 ⟨0, 0, 2 ^ 13⟩) = true ∧
      (forking.issued atIssue (.control 8 ⟨0, 0, 2 ^ 13⟩)).fork? 0 = some oneFork) := by decide

set_option maxRecDepth 100000 in
/-- `Obligations.StoringForms`: VST on bench 0 at address 0 answers a next state; the byte after its span lies outside. -/
theorem test_StoringForms_meets : ∃ (c : Instr) (s t : State) (i : Issue) (l : List (Nat × Nat)) (a : Nat),
    storedSpans s c = some (i, l) ∧ exec c s = .next t ∧
      (∀ x ∈ l, a < benchBase i.bench + x.1 ∨ benchBase i.bench + x.1 + x.2 ≤ a) ∧ s.canIssue i (.move 2 zeroMov) = true :=
  ⟨.vst atIssue zeroMov, issuing (moveOp 2) State.reset, _, atIssue, [(0, 512)], benchBase 0 + 512, rfl,
    by unfold exec execVst; rfl, by decide, by decide⟩

set_option maxRecDepth 100000 in
/-- `Obligations.LaneOpFrame`: a lane operation of a bench that may issue, its bundle fetched clean. -/
theorem test_LaneOpFrame_meets : ∃ (c : Instr) (s t : State) (i : Issue) (v : VecSlot) (op n : Nat), laneOp c = some (i, v, op, n) ∧
    s.canIssue i (.vector op v) = true ∧ i.fetch.corr = [] ∧ exec c s = .next t :=
  ⟨.vrcp atIssue zeroVec, issuing (vectorOp 0x38) State.reset, _, atIssue, zeroVec, 0x38, 1, rfl, by decide, rfl,
    by unfold exec execVrcp; rfl⟩

set_option maxRecDepth 100000 in
/-- `Obligations.GrainFlags`: elements that meet each of its clauses: a NaN and a NaN scale, infinity times zero either way,
infinity times infinity and times a finite value, a finite value times infinity, two finite values. -/
theorem test_GrainFlags_meets :
    elementVal .fp8e5m2 true 0xFF 0 = .nan ∧ elementVal .fp8e5m2 false 0 0x7F = .nan ∧
    (∃ e p, elementVal .fp8e5m2 false 0 0 = .fin false 0 e ∧ elementVal .fp8e5m2 false 0 0x7C = .inf p) ∧
    (∃ m e, elementVal .fp8e5m2 false 0 0xFC = .inf true ∧ elementVal .fp8e5m2 false 0 0x3C = .fin false m e ∧ m ≠ 0) :=
  ⟨by decide, by decide, ⟨-16, false, by decide⟩, ⟨4, -2, by decide⟩⟩

/-- `Obligations.ExactGrainsSplit`: two orders of two products, and an accumulator with a present element. -/
theorem test_ExactGrainsSplit_meets : (∃ l m : List (Val × Val), l ≠ m ∧ l.Perm m) ∧
    ∃ g : Grain, g.bits < 2 ^ 96 ∧ g.present = true :=
  ⟨⟨[(.nan, .nan), (.inf true, .nan)], [(.inf true, .nan), (.nan, .nan)], by decide, by decide⟩,
    ⟨{ Grain.empty with bits := 2 ^ 96 - 1, present := true }, by decide, rfl⟩⟩

/-- `Obligations.IdenticalErrors`: an error identical to the primary record, and one identical to the one queued. -/
theorem test_IdenticalErrors_meets :
    (∃ (s : State) (e : Err) (p : ErrRec), e.cls ≠ .corrected ∧ s.fltTick.errs = [] ∧ s.flt.primary = some p ∧ p.source = e.source ∧
      p.code = e.code ∧ p.unit = e.unit ∧ p.context = e.ctx) ∧
    ∃ (s : State) (e : Err) (q : ErrRec), e.cls ≠ .corrected ∧ s.fltTick.errs = [] ∧ s.flt.primary = none ∧ s.flt.queue = [] ++ q :: [] ∧
      q.source = e.source ∧ q.code = e.code ∧ q.unit = e.unit ∧ q.context = e.ctx :=
  ⟨⟨faulted, ⟨.contained, 3, 0x20, 0, 0, 0, 0⟩, oneFault, by decide, rfl, rfl, by decide, by decide, by decide, by decide⟩,
    ⟨{ State.reset with flt := { State.reset.flt with queue := [oneFault] } }, ⟨.contained, 3, 0x20, 0, 0, 0, 0⟩, oneFault,
      by decide, rfl, rfl, rfl, by decide, by decide, by decide, by decide⟩⟩

/-- `Obligations.BurstPlaces`: the last byte of HBM and the last byte of the DDR tier, and the last 2 KiB of each. -/
theorem test_BurstPlaces_meets :
    burstPlace (20 * 0xC00000000 - 1) = some ⟨1279, 31, 31, 15, 3, 12287⟩ ∧
    burstPlace (0x020000000000 + 0x01FFFFFFFFFF) = some ⟨1311, 63, 63, 31, 0, 524287⟩ ∧
    (∃ st k, st < 20 ∧ 2048 * k < 0xC00000000) ∧ ∃ k, 2048 * k < 0x020000000000 :=
  ⟨by decide, by decide, ⟨19, 25165823, by decide⟩, ⟨1073741823, by decide⟩⟩

/-- `Obligations.HoldupTests`: its clauses at 1,199 and 1,200 mJ, at the start and later, and with HOLDUP_OK clear. -/
theorem test_HoldupTests_meets :
    (∃ (s : State) (mj : Nat), s.pwr.forester = true ∧ mj < 1200) ∧
    (∃ (s : State) (mv mj : Nat), s.pwr.stage = .closed ∧ s.pwr.forester = false ∧ s.pwr.shutdown = .none ∧ 44000 ≤ mv ∧
      mj < 1200) ∧
    (∃ (s : State) (mj : Nat), s.pwr.forester = true ∧ 1200 ≤ mj) ∧
    ∃ s : State, s.pwr.forester = true ∧ s.pwr.units = [] ∧ s.rd R.PWR_STATUS_HOLDUP_OK = 0 :=
  ⟨⟨{ State.reset with pwr := { State.reset.pwr with forester := true } }, 1199, by decide⟩,
    ⟨{ State.reset with pwr := { State.reset.pwr with stage := .closed } }, 44000, 1199, by decide⟩,
    ⟨{ State.reset with pwr := { State.reset.pwr with forester := true } }, 1200, by decide⟩,
    ⟨{ State.reset with pwr := { State.reset.pwr with forester := true } }, by decide⟩⟩

set_option maxRecDepth 100000 in
/-- `Obligations.KerfBlocksDistinct`: two equal counters with every word at its largest. -/
theorem test_KerfBlocksDistinct_meets : ∃ v w : KerfWords, v.x0 < 2 ^ 32 ∧ v.x1 < 2 ^ 32 ∧ v.x2 < 2 ^ 32 ∧ v.x3 < 2 ^ 32 ∧
    w.x0 < 2 ^ 32 ∧ w.x1 < 2 ^ 32 ∧ w.x2 < 2 ^ 32 ∧ w.x3 < 2 ^ 32 ∧ v.k0 < 2 ^ 32 ∧ v.k1 < 2 ^ 32 ∧ w.k0 = v.k0 ∧ w.k1 = v.k1 ∧
    v.block = w.block :=
  let m : Nat := 2 ^ 32 - 1
  ⟨⟨m, m, m, m, m, m⟩, ⟨m, m, m, m, m, m⟩, by decide, by decide, by decide, by decide, by decide, by decide, by decide,
    by decide, by decide, by decide, rfl, rfl, rfl⟩

/-- `Obligations.RegisterAccess`: a field of every access code, and one of every class of RW fields. -/
theorem test_RegisterAccess_meets : (∃ f : Field, f.access = .ro) ∧ (∃ f : Field, f.access = .wo) ∧
    (∃ (s : State) (f : Field) (i : Nat), f.access = .w1c ∧ f.key i ∉ s.fired ∧ s.rdAt f i < 2 ^ f.width) ∧
    (∃ (s : State) (f : Field) (i : Nat), f.access = .w1c ∧ f.key i ∈ s.fired) ∧
    (∃ f : Field, f.access = .rw ∧ f.cls = .live) ∧ (∃ f : Field, f.access = .rw ∧ f.cls = .static) ∧
    ∃ f : Field, f.access = .rw ∧ f.cls = .staged :=
  ⟨⟨R.PWR_VIN_NOW, rfl⟩, ⟨R.PLN_CTRL_ARM, rfl⟩, ⟨State.reset, R.PWR_EVENT_INHIBIT_SEEN, 0, rfl, by decide, by decide⟩,
    ⟨State.reset.wr R.PWR_EVENT_INHIBIT_SEEN 1, R.PWR_EVENT_INHIBIT_SEEN, 0, rfl, by decide⟩,
    ⟨R.FRK_CTRL_WATCH_GROUP, rfl, rfl⟩, ⟨R.FRK_CTRL_MAX_HOLDS, rfl, rfl⟩, ⟨R.PLN_ACT_AT_AT, rfl, rfl⟩⟩

set_option maxRecDepth 100000 in
/-- `Obligations.RecvDeadlines`: a receive of the active plan that is done, one that misses its first check with one hold
allowed and with two, and one whose repeated check comes with no hold left. -/
theorem test_RecvDeadlines_meets :
    (∃ s : State, s.job? 7 = some recvJob ∧ recvJob.entry? (entryKey 0 0) = some recvEntry ∧
      (s.recvState (entryKey 0 0)).done = true) ∧
    (∀ n, n = 1 ∨ n = 2 → ∃ s : State, s.job? 7 = some recvJob ∧ recvEntry.type = .recv ∧ s.ctxRunning recvEntry.ctx = true ∧
      s.due recvEntry.ctx recvEntry.tick = true ∧ s.variantActive recvEntry.ctx none recvEntry.variants = true ∧
      (s.recvState (entryKey 0 0)).fails = 0 ∧ (s.recvState (entryKey 0 0)).done = false ∧
      s.rd R.SCH_CFG_MAX_HOLDS = n) ∧
    ∃ (s : State) (n : Nat), s.job? 7 = some recvJob ∧ (s.recvState (entryKey 0 0)).recheck = some n ∧ n ≤ s.now ∧
      s.ctxRunning recvEntry.ctx = true ∧ (s.recvState (entryKey 0 0)).done = false ∧
      s.rd R.SCH_CFG_MAX_HOLDS ≤ (s.recvState (entryKey 0 0)).fails + 1 := by
  refine ⟨⟨receiving.setRecv (entryKey 0 0) { missed with done := true }, by decide⟩, fun n hn => ?_,
    ⟨(receiving.wr R.SCH_CFG_MAX_HOLDS 2).setRecv (entryKey 0 0) missed, 0, by decide⟩⟩
  obtain rfl | rfl := hn
  · exact ⟨receiving.wr R.SCH_CFG_MAX_HOLDS 1, by decide⟩
  · exact ⟨receiving.wr R.SCH_CFG_MAX_HOLDS 2, by decide⟩

set_option maxRecDepth 100000 in
/-- `Obligations.TwoPhaseArming`: a staged plan of two modules, with no fresh change, and with one of kind 1 and a count
that may be armed. -/
theorem test_TwoPhaseArming_meets :
    (∃ (s : State) (p : Plan), s.pln.staged = some p ∧ 1 < p.count ∧ s.pln.loading = false ∧
      s.rd R.OLC_CHANGE_NEXT_FRESH = 0) ∧
    ∃ (s : State) (twinFault : Bool) (p : Plan), s.pln.staged = some p ∧ 1 < p.count ∧ s.pln.loading = false ∧
      s.rd R.OLC_CHANGE_NEXT_FRESH = 1 ∧ s.rd R.OLC_CHANGE_NEXT_KIND = 1 ∧ s.armCode (s.last R.PLN_ACT_AT_AT) twinFault = 0 ∧
      s.leadOk p = true ∧ s.now + s.rd R.OLC_2PC_LEAD_TICKS ≤ s.last R.PLN_ACT_AT_AT :=
  ⟨⟨twoStaged, twoPlan, by decide⟩,
    ⟨(twoStaged.wr R.OLC_CHANGE_NEXT_FRESH 1).wr R.OLC_CHANGE_NEXT_KIND 1, false, twoPlan, by decide⟩⟩

/-! ## Witnesses for the cases of clauses that have several -/

set_option maxRecDepth 100000 in
/-- GWIN of a window that has not begun, and of one that has. -/
theorem test_gwin_cases : ∀ begun : Bool, (opening begun).canIssue atIssue (.move 6 zeroMov) = true ∧
    ((opening begun).issued atIssue (.move 6 zeroMov)).windowOf? 0 0 = some readWindow ∧
    ((opening begun).issued atIssue (.move 6 zeroMov)).scr.started.contains (windowKey readWindow) = begun := by decide

set_option maxRecDepth 100000 in
/-- An Announce of the one foreign master heard, inside its four intervals, on a port that has not selected one. -/
theorem test_ptpAnnounceReceived_second : ∃ s : State, (s.clock 0).chosen = false ∧
    (s.clock 0).masters = [⟨0, 0, 0, 0, none⟩] ∧ s.now < 0 + 4 * announceTicks 0 :=
  ⟨mastered { onePort with chosen := false }, by decide⟩

set_option maxRecDepth 100000 in
/-- A Sync and a Follow_Up of the selected master, whose clock identity is 0. -/
theorem test_ptpSyncReceived_cases : ∀ type ∈ [0, 8], PtpMsg.decode (ptpMsg type 0 (zeros 10)).encode = some (ptpMsg type 0 (zeros 10)) ∧
    (ptpMsg type 0 (zeros 10)).clock = (mastered onePort).rdAt R.PTP_MASTER_CLOCK_ID 0 := by decide

set_option maxRecDepth 100000 in
/-- A peer's answer in one message and in two, and its Follow_Up. -/
theorem test_ptpPdelayRespReceived_cases : ∀ m ∈ [ptpMsg 3 0 (zeros 20), { ptpMsg 3 0 (zeros 20) with twoStep := true },
    ptpMsg 10 0 (zeros 20)], PtpMsg.decode m.encode = some m := by decide

set_option maxRecDepth 100000 in
/-- An ACK due on a port that replays. -/
theorem test_ackDue_replaying : ∃ s : State, s.portUp 0 = true ∧ (s.port 0).timers.ack + nsTicks 128 ≤ s.now ∧
    (s.port 0).replaying = true :=
  ⟨(portWith { HaulPort.reset with replaying := true }).wr R.TAL_NOW_TICKS 100000000, by decide⟩

set_option maxRecDepth 100000 in
/-- Marks that agree for a rotation that the partner is ready for. -/
theorem test_swapRemap_rotation : ∃ (s : State) (o : LaneOp), (s.port 0).swap = none ∧ (s.port 0).rot = some o ∧ o.ready = true :=
  ⟨portWith { HaulPort.reset with rot := some { oneLaneOp with ready := true } }, { oneLaneOp with ready := true }, by decide⟩

set_option maxRecDepth 100000 in
/-- A calibration that ends in its time with no symbol corrected, and one that ends after it. -/
theorem test_calibrationEnd_cases :
    (∃ s : State, (s.port 0).calib = some 0 ∧ (s.port 0).timers.calib + msTicks 1 ≤ s.now ∧
      s.now ≤ (s.port 0).timers.calib + msTicks (s.rdAt R.HAUL_LANE_CFG_CAL_MS 0 + 1)) ∧
    ∃ s : State, (s.port 0).calib = some 0 ∧ (s.port 0).timers.calib + msTicks (s.rdAt R.HAUL_LANE_CFG_CAL_MS 0 + 1) < s.now :=
  ⟨⟨calibrating (msTicks 1), by decide⟩, ⟨calibrating 1000000000000, by decide⟩⟩

set_option maxRecDepth 100000 in
/-- A retest of a Failed lane that passes and one that does not. -/
theorem test_failedLaneRetest_cases : bit 0 (failedLane.rdAt R.HAUL_LANE_MAP_FAILED 0) = true ∧
    failedLane.lanePasses 0 0 = true ∧ failedLane.lanePasses 0 (2 ^ 40) = false := by decide

set_option maxRecDepth 100000 in
/-- A hold that ends outside a replay span, in its gap and in its re-run. -/
theorem test_holdEnd_cases : ∀ r ∈ [none, some oneGap, some { oneGap with phase := .rerun }],
    (working { oneJob with hold := some oneHold, replay := r }).job? 7 = some { oneJob with hold := some oneHold, replay := r } := by
  decide

set_option maxRecDepth 100000 in
/-- MODULE_RESET with a shutdown under way and without. -/
theorem test_moduleReset_cases : State.reset.pwr.shutdown = .none ∧
    ∃ s : State, s.pwr.shutdown ≠ .none :=
  ⟨rfl, { State.reset with pwr := { State.reset.pwr with shutdown := .tapering } }, by decide⟩

/-- A service block that is discarded, of a packet in transit, the first of a packet, and one of a packet that is collected here. -/
def svcBlock : WireBlock := wire (plainBlock 2 (0 :: 1 :: zeros 14))
def svcOpen : WaitingPkt := ⟨1, 0, true, some (0, 0), false, 2, [], 2, true⟩

set_option maxRecDepth 100000 in
theorem test_svcBlockReceived_cases :
    (∃ s : State, (s.accept 0 svcBlock).2.isSome = true ∧ 0 < ((s.accept 0 svcBlock).1.port 0).skip 0) ∧
    (∃ s : State, (s.accept 0 svcBlock).2.isSome = true ∧ ((s.accept 0 svcBlock).1.port 0).skip 0 = 0 ∧
      ((s.accept 0 svcBlock).1.openPkt 0 0).isSome = true) ∧
    (∃ s : State, (s.accept 0 svcBlock).2.isSome = true ∧ ((s.accept 0 svcBlock).1.port 0).skip 0 = 0 ∧
      (s.accept 0 svcBlock).1.openPkt 0 0 = none ∧ ((s.accept 0 svcBlock).1.port 0).rx 0 = []) ∧
    ∃ s : State, (s.accept 0 svcBlock).2.isSome = true ∧ ((s.accept 0 svcBlock).1.port 0).skip 0 = 0 ∧
      (s.accept 0 svcBlock).1.openPkt 0 0 = none ∧ ((s.accept 0 svcBlock).1.port 0).rx 0 ≠ [] :=
  ⟨⟨portWith (HaulPort.reset.setSkip 0 1), by decide⟩,
    ⟨{ upPort State.reset with sch := { State.reset.sch with waiting := [svcOpen] } }, by decide⟩,
    ⟨upPort State.reset, by decide⟩, ⟨portWith (HaulPort.reset.setRx 0 [[0, 2]]), by decide⟩⟩

set_option maxRecDepth 100000 in
theorem test_routeDownReceived_cases : (working oneJob).slotOf 1 = some 7 ∧ (1 : Nat) ∉ (working oneJob).sch.broken ∧
    1 ∈ ({ working oneJob with sch := { (working oneJob).sch with broken := [1] } } : State).sch.broken := by decide

set_option maxRecDepth 100000 in
theorem test_itkRingReset_cases : ∀ n ∈ [0, 2], ((intaking oneIntake oneIntakeRun).wr R.OLC_STATUS_STATE n).intake? 0 = some oneIntake ∧
    ((intaking oneIntake oneIntakeRun).wr R.OLC_STATUS_STATE n).olicoUp = (n == 2) := by decide

/-- An Olico link that is Up or not; a lane that leaves half of its direction or takes the last; and accesses of each kind. -/
theorem test_olicoFlitRetry_cases : ∀ n ∈ [0, 2], (State.reset.wr R.OLC_STATUS_STATE n).olicoUp = (n == 2) := by decide
theorem test_olicoLaneFail_cases : halvesLost (addOnce 15 [0]) = false ∧ halvesLost (addOnce 16 [0]) = true := by decide
set_option maxRecDepth 100000 in
theorem test_csrAccessError_cases : regAt 0x1FFFFF8 = none ∧ 0x1FFFFF8 % 8 = 0 := by decide
theorem test_registerWrite_cases : 0 % 8 = 0 ∧ 4 % 8 ≠ 0 := by decide

/-! ## Examples that the specification works out -/

set_option maxRecDepth 100000 in
/-- The grain of the example after R87: four products give 0xFFFF_FFFF_FEC8_0040_0000_0000. -/
theorem test_worked_grain : (Grain.empty.addAll (([(0x7E, 0x7E), (0x01, 0x01), (0xFE, 0x7E), (0x3C, 0xB5)] : List (Nat × Nat)).map
    fun x => (Format.fp8e4m3.decode x.1, Format.fp8e4m3.decode x.2))).bits = 0xFFFFFFFFFEC8004000000000 := by decide

set_option maxRecDepth 100000 in
/-- Its result with the scales 0x7C and 0x80 is 0xBE9B_FFE0 (the example after R87). -/
theorem test_worked_grain_result :
    ({ Grain.empty with bits := 0xFFFFFFFFFEC8004000000000, present := true }.exactResult 0x7C 0x80).1 = 0xBE9BFFE0 := by decide

set_option maxRecDepth 100000 in
/-- The five leaves of the example after R127 give 0x4080_0000. -/
theorem test_worked_tree : treeRoot nodeAdd 3
    [some 0x4B800000, some 0x3F800000, some 0x3F800000, some 0xCB800000, some 0x40400000, none, none, none]
      = some 0x40800000 := by decide

/-- Logical bench 767 is physical bench 790 (R163). -/
theorem test_worked_bench : State.reset.physical 767 = 790 := by decide

/-- The header of the void slot 3 in window B of the example before R120. -/
theorem test_worked_void_header :
    slotHeader 1 0x2A 3 91251 0xFFFFFFFF = beBytes 12 0x102A000300016473FFFFFFFF := by decide

/-- The NAK at moment 4 of the example after R278 is good: A is 0xEFFF, ACK 0x07FF and the next SEQ 0x1000. -/
theorem test_worked_ack :
    ((State.reset.wrAt R.HAUL_SEQ_ACKED 0 0xEFFF).wrAt R.HAUL_SEQ_NEXT_TX 0 0x1000).ackOk 0 0x07FF = true := by decide

/-- The repeated checks of the example after R327: 3,104 + 128 - 48 = 3,184. -/
theorem test_worked_recheck : ({ oneJob with q := 128, lead := 48 }.recheckAt 3056 1) = 3184 := by decide

set_option maxRecDepth 100000 in
/-- Two errors of one tick, a Contained one from source 3 and a Step-fatal one from source 4: the Step-fatal one is primary
whichever comes first (R388). -/
theorem test_same_tick_errors :
    let s : State := { State.reset with tal := { State.reset.tal with running := true } }
    let a : Err := ⟨.contained, 3, 0x20, 0, 0, 0, 0⟩
    let b : Err := ⟨.stepFatal, 4, 0x01, 7, 0, 0, 0⟩
    ∀ t ∈ [(s.raiseErr a).raiseErr b, (s.raiseErr b).raiseErr a],
      t.flt.primary.map (fun r => (r.source, r.seq)) = some (4, 1) ∧ t.flt.queue.map (fun r => (r.source, r.seq)) = [(3, 2)] := by
  decide

set_option maxRecDepth 100000 in
/-- A bundle word written out from R168 and R170: IADD with DST 4, S1 6, S2 8, S3 0, PRED 2 and IMM 5 in the vector slot. -/
theorem test_bundle_iadd :
    let w : Nat := 0x20 * 2 ^ 200 + 4 * 2 ^ 194 + 6 * 2 ^ 188 + 8 * 2 ^ 182 + 2 * 2 ^ 166 + 5 * 2 ^ 144
    holdsOp w (.vector 0x20 ⟨4, 6, 8, 0, 0, 0, 2, 5⟩) = true ∧ slotsOf w = [1] := by decide

/-- No row of the command table gives bits: no word spells a command. -/
theorem test_decode_none (nbits w : Nat) : decodeTableWord nbits w = none := rfl

/-! ## Ill-formed commands that the checks of WellFormed refuse -/

theorem test_wf_block_length : WireBlock.wf ⟨[], []⟩ = false := by decide
set_option maxRecDepth 10000 in
theorem test_wf_block_lane : WireBlock.wf ⟨zeros 256, [⟨9, 0⟩]⟩ = false := by decide
set_option maxRecDepth 10000 in
theorem test_wf_block_twice : WireBlock.wf ⟨zeros 256, [⟨1, 0⟩, ⟨1, 1⟩]⟩ = false := by decide
theorem test_wf_ecc_corrected : Ecc.wf ⟨[0x200000], []⟩ = false := by decide
theorem test_wf_ecc_uncorrectable : Ecc.wf ⟨[], [0x200000]⟩ = false := by decide
theorem test_wf_fetch : Instr.wf (.vadd ⟨0, 0, ⟨[0x200000], []⟩⟩ zeroVec) = false := by decide
theorem test_wf_stamp : Instr.wf (.markerDue 0 (2 ^ 96)) = false := by decide
theorem test_wf_channel : Instr.wf (.refreshDue true 16) = false := by decide
theorem test_wf_path : Instr.wf (.probeReceived 0 (oneDisc 1 [])) = false := by decide
theorem test_wf_offset : Instr.wf (.registerWrite 4 0 ⟨0, false, []⟩) = false := by decide
theorem test_wf_offset_end : Instr.wf (.registerWrite 0x2000000 0 ⟨0, false, []⟩) = false := by decide
theorem test_wf_disc_op : Instr.wf (.discSend 0 0 2 0 0 [] []) = false := by decide
theorem test_wf_disc_path : Instr.wf (.discSend 0 0 1 0 0 (List.replicate 33 0) []) = false := by decide
theorem test_wf_axis : Instr.wf (.mgb atIssue zeroMat zeroLayout 0 .clean) = false := by decide
theorem test_wf_coords : Instr.wf (.vkrf atIssue zeroVec { zeroCoords with counter := 2 ^ 32 }) = false := by decide
theorem test_wf_coords_base : Instr.wf (.vkrf atIssue zeroVec { zeroCoords with base := 2 ^ 64 }) = false := by decide
theorem test_wf_lanes : Instr.wf (.signalLock 0 [0, 0]) = false := by decide
theorem test_wf_olico_lanes : Instr.wf (.olicoLaneFail true [0, 0]) = false := by decide
theorem test_wf_retrain_lanes : Instr.wf (.olicoRetrainDone [] [0, 0]) = false := by decide

end Sys2Proof.Tests
end

section
/-! Proof of `Obligations.GrainFlags` (R72): what the exact product of two values is, case by case; which flag of a grain
each product sets; the three clauses from these. -/

namespace Sys2Proof.Machine

/-! ## The exact product, by the kinds of its operands -/

@[simp] theorem Val.nan_mul (b : Val) : Val.nan.mul b = .nan := rfl

@[simp] theorem Val.mul_nan (a : Val) : a.mul .nan = .nan := by cases a <;> rfl

theorem Val.inf_mul_inf (p q : Bool) : (Val.inf p).mul (.inf q) = .inf (p != q) := rfl

@[simp] theorem Val.inf_mul_zero (p n : Bool) (e : Int) : (Val.inf p).mul (.fin n 0 e) = .nan := rfl

@[simp] theorem Val.zero_mul_inf (p n : Bool) (e : Int) : (Val.fin n 0 e).mul (.inf p) = .nan := rfl

theorem Val.inf_mul_fin (p q : Bool) {m : Nat} (e : Int) (hm : m ≠ 0) : (Val.inf p).mul (.fin q m e) = .inf (p != q) :=
  if_neg hm

theorem Val.fin_mul_inf (p q : Bool) {m : Nat} (e : Int) (hm : m ≠ 0) : (Val.fin q m e).mul (.inf p) = .inf (q != p) :=
  if_neg hm

theorem Val.fin_mul_fin (p q : Bool) (m n : Nat) (e f : Int) :
    (Val.fin p m e).mul (.fin q n f) = .fin (p != q) (m * n) (e + f) := rfl

/-! ## The flag that a product sets -/

theorem Grain.addProduct_of_mul_nan (g : Grain) {a b : Val} (h : a.mul b = .nan) :
    g.addProduct a b = { g with nan := true } := by
  simp [Grain.addProduct, h]

/-- The sign of an infinite product is the exclusive-or of the operand signs (R72). -/
theorem Grain.addProduct_of_mul_inf (g : Grain) {a b : Val} {p q : Bool} (h : a.mul b = .inf (p != q)) :
    g.addProduct a b = if p = q then { g with pinf := true } else { g with ninf := true } := by
  by_cases hpq : p = q
  · simp [Grain.addProduct, h, hpq]
  · have hsign : (p != q) = true := bne_iff_ne.mpr hpq
    simp [Grain.addProduct, h, hsign, hpq]

theorem Grain.addProduct_of_mul_fin (g : Grain) {a b : Val} {n : Bool} {m : Nat} {e : Int} (h : a.mul b = .fin n m e) :
    g.addProduct a b = g.addBits (signedAt (-56) n m e) := by
  simp [Grain.addProduct, h]

/-- A block scale of 0xFF makes every element of its block NaN (R72). -/
theorem elementVal_nanScale (f : Format) (v : Nat) : elementVal f true 0xFF v = .nan := by
  simp [elementVal]

/-- Settles O52, by the kinds of the two operands: the product decides the flag. -/
theorem grainFlags : Obligations.GrainFlags := by
  intro g fa fb da db sa sb x y a b
  refine ⟨?scaleA, ?scaleB, ?nan, ?infLeft, ?infRight, ?finite⟩
  case scaleA =>
    rintro rfl rfl
    exact elementVal_nanScale fa x
  case scaleB =>
    rintro rfl rfl
    exact elementVal_nanScale fb y
  case nan =>
    intro h
    apply g.addProduct_of_mul_nan
    obtain ha | hb | ⟨n, e, p, ha, hb⟩ | ⟨n, e, p, ha, hb⟩ := h
    · rw [ha, Val.nan_mul]
    · rw [hb, Val.mul_nan]
    · rw [ha, hb, Val.zero_mul_inf]
    · rw [ha, hb, Val.inf_mul_zero]
  case infLeft =>
    intro p q ha hb
    apply g.addProduct_of_mul_inf
    obtain hb | ⟨m, e, hb, hm⟩ := hb
    · rw [ha, hb, Val.inf_mul_inf]
    · rw [ha, hb, Val.inf_mul_fin p q e hm]
  case infRight =>
    intro p q m e ha hm hb
    apply g.addProduct_of_mul_inf
    rw [ha, hb, Val.fin_mul_inf p q e hm]
  case finite =>
    intro p q m n e f ha hb
    have hmul : a.mul b = .fin (p != q) (m * n) (e + f) := by rw [ha, hb, Val.fin_mul_fin]
    rw [g.addProduct_of_mul_fin hmul]
    rfl

end Sys2Proof.Machine
end

section
/-! Proof of `Obligations.BurstPlaces` (R185, R186): how many bursts of a range leave a given rest, for one byte and for a whole
rotation; the decode of an address of each tier; the bursts of a range within one stack and within the DDR tier; from these the four
clauses. -/

namespace Sys2Proof.Machine

/-! ## Bursts of a given rest -/

/-- Of the one number `lo`, only its own rest counts. -/
theorem countIn_succ (lo : Nat) {m r : Nat} (hr : r < m) : countIn lo (lo + 1) m r = if lo % m = r then 1 else 0 := by
  have hdvd : m ∣ lo + m - 1 - r + 1 ↔ lo % m = r := by
    have hsub : lo + m - 1 - r + 1 = lo + m - r := by omega
    rw [hsub, ← Nat.modEq_iff_dvd' (by omega), Nat.ModEq, Nat.mod_eq_of_lt hr, Nat.add_mod_right, eq_comm]
  have hnext : lo + 1 + m - 1 - r = lo + m - 1 - r + 1 := by omega
  rw [countIn, hnext, Nat.succ_div, Nat.add_sub_cancel_left]
  simp only [hdvd]

/-- Among `m` numbers in a row every rest modulo `m` occurs once. -/
theorem countIn_add_modulus (lo : Nat) {m r : Nat} (hr : r < m) : countIn lo (lo + m) m r = 1 := by
  have hnext : lo + m + m - 1 - r = lo + m - 1 - r + m := by omega
  rw [countIn, hnext, Nat.add_div_right _ (by omega), Nat.add_sub_cancel_left]

theorem ceilDiv_succ (a : Nat) {w : Nat} (hw : 0 < w) : ceilDiv (a + 1) w = a / w + 1 := by
  rw [ceilDiv, Nat.add_right_comm, Nat.add_sub_cancel, Nat.add_div_right _ hw]

theorem ceilDiv_mul (k : Nat) {w : Nat} (hw : 0 < w) : ceilDiv (w * k) w = k := by
  rw [ceilDiv, Nat.add_sub_assoc hw, Nat.mul_add_div hw, Nat.div_eq_of_lt (by omega), Nat.add_zero]

/-- The one burst of one byte, by its rest among `m` rotating channels. -/
theorem countIn_byte (a : Nat) {w m r : Nat} (hw : 0 < w) (hr : r < m) :
    countIn (a / w) (ceilDiv (a + 1) w) m r = if a / w % m = r then 1 else 0 := by
  rw [ceilDiv_succ a hw, countIn_succ _ hr]

/-- A rotation of `m` bursts from the first byte of one uses every channel once. -/
theorem countIn_rotation (k : Nat) {w m r : Nat} (hw : 0 < w) (hr : r < m) :
    countIn (w * k / w) (ceilDiv (w * k + w * m) w) m r = 1 := by
  rw [← Nat.mul_add, ceilDiv_mul _ hw, Nat.mul_div_cancel_left _ hw, countIn_add_modulus _ hr]

/-! ## The decode of an address -/

theorem isHbm_of_lt {a : Nat} (ha : a < 20 * 0xC00000000) : isHbm a = true := decide_eq_true ha

theorem isHbm_tier (d : Nat) : isHbm (0x020000000000 + d) = false := decide_eq_false (by omega)

/-- The decode table of R185. -/
theorem burstPlace_hbm {a : Nat} (ha : a < 20 * 0xC00000000) : burstPlace a =
    some ⟨64 * (a / 0xC00000000) + a % 0xC00000000 / 2 ^ 5 % 64, a % 0xC00000000 % 2 ^ 5, a % 0xC00000000 / 2 ^ 11 % 32,
      a % 0xC00000000 / 2 ^ 16 % 16, a % 0xC00000000 / 2 ^ 20 % 4, a % 0xC00000000 / 2 ^ 22⟩ := by
  simp [burstPlace, isHbm_of_lt ha, bits]

/-- The decode table of R186. -/
theorem burstPlace_tier {d : Nat} (hd : d < 0x020000000000) : burstPlace (0x020000000000 + d) =
    some ⟨1280 + 2 * (d / 2 ^ 7 % 16) + d / 2 ^ 6 % 2, d % 2 ^ 6, d / 2 ^ 11 % 64, d / 2 ^ 17 % 32, 0, d / 2 ^ 22⟩ := by
  have hend : 0x020000000000 + d < 0x040000000000 := by omega
  simp [burstPlace, isHbm_tier, hend, bits]

/-! ## The bursts of a range -/

/-- The bursts of a range within stack `st` rotate over the 64 pseudo-channels of that stack and fall on no other channel. -/
theorem burstsOn_stack {a n st : Nat} (ch : Nat) (hn : 0 < n) (hst : st < 20) (hlo : st * 0xC00000000 ≤ a)
    (hhi : a + n ≤ (st + 1) * 0xC00000000) :
    burstsOn a n ch = if ch / 64 = st then countIn (a / 32) (ceilDiv (a + n) 32) 64 (ch % 64) else 0 := by
  have ha : a < 20 * 0xC00000000 := by omega
  simp only [burstsOn, hn.ne', burstPlace_hbm ha, isHbm_of_lt ha, channelDdr, Option.isNone_some, Bool.false_eq_true, or_self,
    if_false, if_true, decide_eq_true_eq]
  by_cases hddr : 1280 ≤ ch
  · have hother : ch / 64 ≠ st := by omega
    rw [if_pos hddr, if_neg hother]
  · rw [if_neg hddr]
    by_cases hown : ch / 64 = st
    · have hmeet : a < a + n := by omega
      rw [if_pos hown, hown, max_eq_left hlo, min_eq_left hhi, if_pos hmeet]
    · have hapart : ¬ max a (ch / 64 * 0xC00000000) < min (a + n) ((ch / 64 + 1) * 0xC00000000) := by omega
      rw [if_neg hown, if_neg hapart]

/-- The bursts of a range that begins in the DDR tier rotate over its 32 subchannels and fall on no pseudo-channel of HBM. -/
theorem burstsOn_tier {d n : Nat} (ch : Nat) (hn : 0 < n) (hd : d < 0x020000000000) :
    burstsOn (0x020000000000 + d) n ch = if 1280 ≤ ch then countIn (d / 64) (ceilDiv (d + n) 64) 32 (ch - 1280) else 0 := by
  simp [burstsOn, hn.ne', burstPlace_tier hd, isHbm_tier, channelDdr]

/-- One byte of HBM is one burst on its pseudo-channel. -/
theorem burstsOn_byte_hbm {a : Nat} (ch : Nat) (ha : a < 20 * 0xC00000000) :
    burstsOn a 1 ch = if ch = 64 * (a / 0xC00000000) + a % 0xC00000000 / 2 ^ 5 % 64 then 1 else 0 := by
  have hchannel : ch = 64 * (a / 0xC00000000) + a % 0xC00000000 / 2 ^ 5 % 64 ↔
      ch / 64 = a / 0xC00000000 ∧ a / 32 % 64 = ch % 64 := by omega
  rw [burstsOn_stack (st := a / 0xC00000000) ch one_pos (by omega) (by omega) (by omega),
    countIn_byte a (by decide) (Nat.mod_lt ch (by decide)), ← ite_and]
  simp only [hchannel]

/-- One byte of the DDR tier is one burst on its subchannel. -/
theorem burstsOn_byte_tier {d ch : Nat} (hch : ch < channels) (hd : d < 0x020000000000) :
    burstsOn (0x020000000000 + d) 1 ch = if ch = 1280 + 2 * (d / 2 ^ 7 % 16) + d / 2 ^ 6 % 2 then 1 else 0 := by
  have hend : ch < 1312 := hch
  have hchannel : ch = 1280 + 2 * (d / 2 ^ 7 % 16) + d / 2 ^ 6 % 2 ↔ 1280 ≤ ch ∧ d / 64 % 32 = ch - 1280 := by omega
  rw [burstsOn_tier ch one_pos hd, countIn_byte d (by decide) (by omega), ← ite_and]
  simp only [hchannel]

/-- 2 KiB at a multiple of 2 KiB cover the pseudo-channels of their stack once (R185). -/
theorem burstsOn_twoKiB_hbm {st k : Nat} (ch : Nat) (hst : st < 20) (hk : 2048 * k < 0xC00000000) :
    burstsOn (st * 0xC00000000 + 2048 * k) 2048 ch = if ch / 64 = st then 1 else 0 := by
  have hunits : st * 0xC00000000 + 2048 * k = 32 * (st * 0x60000000 + 64 * k) := by omega
  rw [burstsOn_stack (st := st) ch (by decide) hst (by omega) (by omega), hunits,
    countIn_rotation (w := 32) (m := 64) _ (by decide) (Nat.mod_lt ch (by decide))]

/-- 2 KiB at a multiple of 2 KiB cover the subchannels of the tier once (R186). -/
theorem burstsOn_twoKiB_tier {k ch : Nat} (hch : ch < channels) (hk : 2048 * k < 0x020000000000) :
    burstsOn (0x020000000000 + 2048 * k) 2048 ch = if 1280 ≤ ch then 1 else 0 := by
  have hend : ch < 1312 := hch
  have hunits : 2048 * k = 64 * (32 * k) := by omega
  rw [burstsOn_tier ch (by decide) hk, hunits, countIn_rotation (w := 64) (m := 32) _ (by decide) (by omega)]

/-- Settles O55, tier by tier: the decode, one byte, and 2 KiB as one rotation of bursts. -/
theorem burstPlaces : Obligations.BurstPlaces := by
  refine ⟨?hbm, ?tier, ?hbmRotation, ?tierRotation⟩
  case hbm =>
    intro a ha o
    have hrow : o / 2 ^ 22 < 12288 := by omega
    exact ⟨burstPlace_hbm ha, hrow, fun ch _ => burstsOn_byte_hbm ch ha⟩
  case tier =>
    intro d hd
    have hrow : d / 2 ^ 22 < 524288 := by omega
    exact ⟨burstPlace_tier hd, hrow, fun ch hch => burstsOn_byte_tier hch hd⟩
  case hbmRotation =>
    intro st k hst hk ch _
    have hstack : ch / 64 = st ∧ ch < 1280 ↔ ch / 64 = st := by omega
    simp only [burstsOn_twoKiB_hbm ch hst hk, hstack]
  case tierRotation =>
    intro k hk ch hch
    exact burstsOn_twoKiB_tier hch hk

end Sys2Proof.Machine
end

section
/-! Proof of `Obligations.IdenticalErrors` (R387): the count and the occurrence of an error leave the FLT block, so the first error of a
tick does to it what placing its record on the block does; a record identical to the primary, or to one of the queue, is merged there. -/

namespace Sys2Proof.Machine

/-! ## Identical records -/

/-- The record of an error is identical to a record that holds its four names (R387). -/
theorem ErrRec.identical_errRec {p : ErrRec} (s : State) {e : Err} (hsource : p.source = e.source) (hcode : p.code = e.code)
    (hunit : p.unit = e.unit) (hctx : p.context = e.ctx) : p.identical (s.errRec e) = true := by
  simp [ErrRec.identical, State.errRec, hsource, hcode, hunit, hctx]

/-- What merging a record does to each record of the queue. -/
def mergeInto (r a : ErrRec) : ErrRec := if a.identical r then a.merged else a

theorem map_mergeInto_of_apart {l : List ErrRec} {r : ErrRec} (h : ∀ a ∈ l, a.identical r = false) : l.map (mergeInto r) = l :=
  (List.map_congr_left fun a ha => by simp [mergeInto, h a ha]).trans l.map_id

/-- Where one record of a queue alone is identical, merging changes that record alone. -/
theorem map_mergeInto_of_one {l m : List ErrRec} {q r : ErrRec} (hother : ∀ a ∈ l ++ m, a.identical r = false)
    (hq : q.identical r = true) : (l ++ q :: m).map (mergeInto r) = l ++ q.merged :: m := by
  have hl : l.map (mergeInto r) = l := map_mergeInto_of_apart fun a ha => hother a (List.mem_append_left m ha)
  have hm : m.map (mergeInto r) = m := map_mergeInto_of_apart fun a ha => hother a (List.mem_append_right l ha)
  simp [hl, hm, mergeInto, hq]

/-! ## Placing an identical record -/

/-- A record identical to the primary is merged into it. -/
theorem State.placeOrMerge_flt_of_primary {s : State} {p r : ErrRec} (hp : s.flt.primary = some p) (hr : p.identical r = true) :
    (s.placeOrMerge r).flt = { s.flt with primary := some p.merged } := by
  simp [State.placeOrMerge, hp, hr]

/-- A record identical to one of the queue, and not to the primary, is merged there. -/
theorem State.placeOrMerge_flt_of_queued {s : State} {q r : ErrRec} (hp : ∀ p, s.flt.primary = some p → p.identical r = false)
    (hq : q ∈ s.flt.queue) (hr : q.identical r = true) :
    (s.placeOrMerge r).flt = { s.flt with queue := s.flt.queue.map (mergeInto r) } := by
  have hany : s.flt.queue.any (·.identical r) = true := List.any_eq_true.mpr ⟨q, hq, hr⟩
  cases hprimary : s.flt.primary with
  | none => simp [State.placeOrMerge, hprimary, hany, mergeInto]
  | some p => simp [State.placeOrMerge, hprimary, hp p hprimary, hany, mergeInto]

/-! ## The first error of a tick -/

@[simp] theorem State.countError_flt (s : State) (c : ErrClass) : (s.countError c).flt = s.flt :=
  (s.countError_frame c).same .flt (by decide)

@[simp] theorem State.countError_tal (s : State) (c : ErrClass) : (s.countError c).tal = s.tal :=
  (s.countError_frame c).same .tal (by decide)

@[simp] theorem State.occurIn_flt (s : State) (field source code unit ctx severity value : Nat) :
    (s.occurIn field source code unit ctx severity value).flt = s.flt :=
  (s.occurIn_frame field source code unit ctx severity value).same .flt (by decide)

/-- No count of a class is the Tally. -/
@[simp] theorem State.countError_now (s : State) (c : ErrClass) : (s.countError c).now = s.now := by
  cases c <;> exact s.rd_inc_ne (by decide)

/-- Counting an error leaves the errors of its tick. -/
theorem State.countError_fltTick_errs (s : State) (c : ErrClass) : (s.countError c).fltTick.errs = s.fltTick.errs := by
  simp only [State.fltTick, State.countError_flt, State.countError_tal, State.countError_now]
  cases s.flt.arrived with
  | none => rfl
  | some t => dsimp only; split <;> rfl

/-- An error above the class Corrected does to the FLT block what queueing its record does. -/
theorem State.raiseErr_flt (s : State) {e : Err} (hcls : e.cls ≠ .corrected) :
    (s.raiseErr e).flt = ((s.countError e.cls).queueRecord ((s.countError e.cls).errRec e)).flt := by
  unfold State.raiseErr
  cases h : e.cls with
  | corrected => exact absurd h hcls
  | contained => exact State.occurIn_flt ..
  | stepFatal => exact State.occurIn_flt ..
  | moduleFatal => exact State.occurIn_flt ..

/-- The record of the first error of its tick is placed on the FLT block as it stands, with the error noted for the tick. -/
theorem State.raiseErr_flt_of_first {s : State} {e : Err} (hcls : e.cls ≠ .corrected) (hfirst : s.fltTick.errs = []) :
    ∃ (u : State) (t : TickErrs),
      u.flt = { s.flt with arrived := some t } ∧ (s.raiseErr e).flt = (u.placeOrMerge (u.errRec e)).flt := by
  have hcount : (s.countError e.cls).fltTick.errs = [] := (s.countError_fltTick_errs e.cls).trans hfirst
  let c := s.countError e.cls
  let t := { c.fltTick with errs := [c.errRec e] }
  refine ⟨{ c with flt := { c.flt with arrived := some t } }, t, by simp [c], ?_⟩
  rw [s.raiseErr_flt hcls, State.queueRecord, if_pos hcount]
  rfl

/-- Settles O54: the record is placed on the FLT block as it stands, which merges it. -/
theorem identicalErrors : Obligations.IdenticalErrors := by
  intro s e hcls hfirst
  obtain ⟨u, t, hu, hraise⟩ := State.raiseErr_flt_of_first hcls hfirst
  refine ⟨?primary, ?queued⟩
  case primary =>
    intro p hp hsource hcode hunit hctx
    have hup : u.flt.primary = some p := by rw [hu]; exact hp
    have hmerged := State.placeOrMerge_flt_of_primary hup (ErrRec.identical_errRec u hsource hcode hunit hctx)
    rw [hraise, hmerged, hu]
    rfl
  case queued =>
    intro l m q hprimary hqueue hother hsource hcode hunit hctx
    have hq := ErrRec.identical_errRec u hsource hcode hunit hctx
    have hup : ∀ p, u.flt.primary = some p → p.identical (u.errRec e) = false := by rw [hu]; exact hprimary
    have huq : q ∈ u.flt.queue := by simp [hu, hqueue]
    have hmerged := State.placeOrMerge_flt_of_queued hup huq hq
    have hmap : s.flt.queue.map (mergeInto (u.errRec e)) = l ++ q.merged :: m := by
      rw [hqueue]
      exact map_mergeInto_of_one hother hq
    rw [hraise, hmerged, hu]
    simp only [hmap]
    rfl

end Sys2Proof.Machine
end

section
/-! Proofs of `Obligations.FrameOfCommands`, `Obligations.StepKeepsSound` and `Obligations.NonvolatileRises`: the frame lemma of
every command, gathered into one lemma about `exec` and one about `step`; the three statements are parts of it. -/

namespace Sys2Proof.Machine

open Sys2Proof

/-- No command changes a part of the state that `touches` does not name for it, and each keeps the canonical forms and lets the fuses
only rise. -/
theorem exec_frames (c : Instr) (s : State) : Frames (touches c) s (exec c s) := by
  cases c with
  | standbyStart => exact execStandbyStart_frame ..
  | precharge => exact execPrecharge_frame ..
  | prechargeDone => exact execPrechargeDone_frame ..
  | foresterDomainStart => exact execForesterDomainStart_frame ..
  | prechargeTimeout => exact execPrechargeTimeout_frame ..
  | prechargeRetry => exact execPrechargeRetry_frame ..
  | lowBandEntry => exact execLowBandEntry_frame ..
  | writeInhibitEntry => exact execWriteInhibitEntry_frame ..
  | writeInhibitExit => exact execWriteInhibitExit_frame ..
  | sagTimeout => exact execSagTimeout_frame ..
  | overVoltageTimeout => exact execOverVoltageTimeout_frame ..
  | foresterPowerOff => exact execForesterPowerOff_frame ..
  | autoRestart => exact execAutoRestart_frame ..
  | currentThrottleAssert => exact execCurrentThrottleAssert_frame ..
  | currentThrottleRelease => exact execCurrentThrottleRelease_frame ..
  | coolantLeaveLimits => exact execCoolantLeaveLimits_frame ..
  | coolantShutdownTimeout => exact execCoolantShutdownTimeout_frame ..
  | coolantReentry => exact execCoolantReentry_frame ..
  | coolantStartTimeout => exact execCoolantStartTimeout_frame ..
  | fillLimitExpiry => exact execFillLimitExpiry_frame ..
  | taperStep => exact execTaperStep_frame ..
  | holdupSwitchClose => exact execHoldupSwitchClose_frame ..
  | writeUnitRequest => exact execWriteUnitRequest_frame ..
  | writeUnitCommit => exact execWriteUnitCommit_frame ..
  | holdupTestPeriodic => exact execHoldupTestPeriodic_frame ..
  | pwrHoldupTest => exact execPwrHoldupTest_frame ..
  | clearExtremes => exact execClearExtremes_frame ..
  | pwrShutdown => exact execPwrShutdown_frame ..
  | pwrNvInhibit => exact execPwrNvInhibit_frame ..
  | lateEntry => exact execLateEntry_frame ..
  | droopStretchStart => exact execDroopStretchStart_frame ..
  | droopStretchEnd => exact execDroopStretchEnd_frame ..
  | beatBoundary => exact execBeatBoundary_frame ..
  | ttCritTimeout => exact execTtCritTimeout_frame ..
  | fchgArm => exact execFchgArm_frame ..
  | fchgDisarm => exact execFchgDisarm_frame ..
  | regionStop => exact execRegionStop_frame ..
  | regionRestart => exact execRegionRestart_frame ..
  | standbyLoopsLocked => exact execStandbyLoopsLocked_frame ..
  | syncChangeSwitch => exact execSyncChangeSwitch_frame ..
  | pllLockLost => exact execPllLockLost_frame ..
  | regionLockTimeout => exact execRegionLockTimeout_frame ..
  | stepBoundary => exact execStepBoundary_frame ..
  | markerReceived => exact execMarkerReceived_frame ..
  | holdoverEntry => exact execHoldoverEntry_frame ..
  | alignNow => exact execAlignNow_frame ..
  | timeMapSend => exact execTimeMapSend_frame ..
  | timeMapReceived => exact execTimeMapReceived_frame ..
  | timeQueryReceived => exact execTimeQueryReceived_frame ..
  | talCapture => exact execTalCapture_frame ..
  | mgr => exact execMgr_frame ..
  | mgb => exact execMgb_frame ..
  | mpa => exact execMpa_frame ..
  | mcv => exact execMcv_frame ..
  | mxp => exact execMxp_frame ..
  | vfma => exact execVfma_frame ..
  | vadd => exact execVadd_frame ..
  | vsub => exact execVsub_frame ..
  | vmul => exact execVmul_frame ..
  | vcmp => exact execVcmp_frame ..
  | vsel => exact execVsel_frame ..
  | vmin => exact execVmin_frame ..
  | vmax => exact execVmax_frame ..
  | iadd => exact execIadd_frame ..
  | isub => exact execIsub_frame ..
  | ishf => exact execIshf_frame ..
  | iand => exact execIand_frame ..
  | ior => exact execIor_frame ..
  | ixor => exact execIxor_frame ..
  | vcvt => exact execVcvt_frame ..
  | vcvb => exact execVcvb_frame ..
  | vrcp => exact execVrcp_frame ..
  | vsqrt => exact execVsqrt_frame ..
  | vrsq => exact execVrsq_frame ..
  | vdiv => exact execVdiv_frame ..
  | vex2 => exact execVex2_frame ..
  | vlg2 => exact execVlg2_frame ..
  | vtlv => exact execVtlv_frame ..
  | vtlf => exact execVtlf_frame ..
  | vred => exact execVred_frame ..
  | vkrf => exact execVkrf_frame ..
  | vld => exact execVld_frame ..
  | vst => exact execVst_frame ..
  | copy => exact execCopy_frame ..
  | msnd => exact execMsnd_frame ..
  | mrcv => exact execMrcv_frame ..
  | gwin => exact execGwin_frame ..
  | zfill => exact execZfill_frame ..
  | bref => exact execBref_frame ..
  | brefDone => exact execBrefDone_frame ..
  | hput => exact execHput_frame ..
  | hget => exact execHget_frame ..
  | hvod => exact execHvod_frame ..
  | beat => exact execBeat_frame ..
  | step => exact execStep_frame ..
  | jump => exact execJump_frame ..
  | lset => exact execLset_frame ..
  | loop => exact execLoop_frame ..
  | cset => exact execCset_frame ..
  | waitc => exact execWaitc_frame ..
  | fdec => exact execFdec_frame ..
  | fork => exact execFork_frame ..
  | bkfl => exact execBkfl_frame ..
  | tagr => exact execTagr_frame ..
  | benchScrub => exact execBenchScrub_frame ..
  | forkDecisionSend => exact execForkDecisionSend_frame ..
  | forkDecisionReceived => exact execForkDecisionReceived_frame ..
  | forkDeadlineCheck => exact execForkDeadlineCheck_frame ..
  | forkCommit => exact execForkCommit_frame ..
  | forkVariantEnd => exact execForkVariantEnd_frame ..
  | forkRejoin => exact execForkRejoin_frame ..
  | genModeArm => exact execGenModeArm_frame ..
  | genModeDisarm => exact execGenModeDisarm_frame ..
  | modeChangeEffect => exact execModeChangeEffect_frame ..
  | sealSigned => exact execSealSigned_frame ..
  | sealCloseNow => exact execSealCloseNow_frame ..
  | plnVerify => exact execPlnVerify_frame ..
  | verifyComplete => exact execVerifyComplete_frame ..
  | plnDiscard => exact execPlnDiscard_frame ..
  | plnArm => exact execPlnArm_frame ..
  | plnDisarm => exact execPlnDisarm_frame ..
  | loadPhaseStart => exact execLoadPhaseStart_frame ..
  | activation => exact execActivation_frame ..
  | activationFailed => exact execActivationFailed_frame ..
  | plnStopArm => exact execPlnStopArm_frame ..
  | drainEnd => exact execDrainEnd_frame ..
  | rampDownEnd => exact execRampDownEnd_frame ..
  | plnAbort => exact execPlnAbort_frame ..
  | plnCtxRestart => exact execPlnCtxRestart_frame ..
  | contextResume => exact execContextResume_frame ..
  | contextReset => exact execContextReset_frame ..
  | gatherWindowComplete _ _ ecc => exact execGatherWindowComplete_frame (_ecc := ecc) ..
  | gatherEarlyEnd _ ecc => exact execGatherEarlyEnd_frame (_ecc := ecc) ..
  | serviceAccess => exact execServiceAccess_frame ..
  | refreshDue => exact execRefreshDue_frame ..
  | memoryTempReadout => exact execMemoryTempReadout_frame ..
  | tempLimitTimeout => exact execTempLimitTimeout_frame ..
  | patrolScrubRead => exact execPatrolScrubRead_frame ..
  | memoryTrainingDone => exact execMemoryTrainingDone_frame ..
  | planStageWriteDone => exact execPlanStageWriteDone_frame ..
  | wgtLoadStart => exact execWgtLoadStart_frame ..
  | wgtLoadAbort => exact execWgtLoadAbort_frame ..
  | x3Start => exact execX3Start_frame ..
  | shardAttemptDone => exact execShardAttemptDone_frame ..
  | shardAttemptTimeout => exact execShardAttemptTimeout_frame ..
  | swapArm => exact execSwapArm_frame ..
  | swapDisarm => exact execSwapDisarm_frame ..
  | swapEffect => exact execSwapEffect_frame ..
  | sweepShardChecked => exact execSweepShardChecked_frame ..
  | sweepOverrun => exact execSweepOverrun_frame ..
  | quarantineNoticeReceived => exact execQuarantineNoticeReceived_frame ..
  | shardRepairDone => exact execShardRepairDone_frame ..
  | intakeFrameReceived => exact execIntakeFrameReceived_frame ..
  | ingestLinkUp => exact execIngestLinkUp_frame ..
  | ingestLinkDown => exact execIngestLinkDown_frame ..
  | ptpSyncReceived => exact execPtpSyncReceived_frame ..
  | ptpAnnounceReceived => exact execPtpAnnounceReceived_frame ..
  | ptpDelayRespReceived => exact execPtpDelayRespReceived_frame ..
  | ptpPdelayReqReceived => exact execPtpPdelayReqReceived_frame ..
  | ptpPdelayRespReceived => exact execPtpPdelayRespReceived_frame ..
  | ptpDelayReqSend => exact execPtpDelayReqSend_frame ..
  | ptpAnnounceTimeout => exact execPtpAnnounceTimeout_frame ..
  | intakeWindowClose => exact execIntakeWindowClose_frame ..
  | intakeBeatRingRead => exact execIntakeBeatRingRead_frame ..
  | itkRingReset => exact execItkRingReset_frame ..
  | timedRelease => exact execTimedRelease_frame ..
  | responseFrameSend => exact execResponseFrameSend_frame ..
  | signalPresent => exact execSignalPresent_frame ..
  | signalLock => exact execSignalLock_frame ..
  | laneMarkLock => exact execLaneMarkLock_frame ..
  | trainStateTimeout => exact execTrainStateTimeout_frame ..
  | backoffExpiry => exact execBackoffExpiry_frame ..
  | announceReceived => exact execAnnounceReceived_frame ..
  | echoReqSend => exact execEchoReqSend_frame ..
  | echoReqReceived => exact execEchoReqReceived_frame ..
  | echoRespReceived => exact execEchoRespReceived_frame ..
  | schedBlockReceived => exact execSchedBlockReceived_frame ..
  | svcBlockReceived => exact execSvcBlockReceived_frame ..
  | fillReceived => exact execFillReceived_frame ..
  | ackReceived => exact execAckReceived_frame ..
  | nakReceived => exact execNakReceived_frame ..
  | ackDue => exact execAckDue_frame ..
  | nakTimerExpiry => exact execNakTimerExpiry_frame ..
  | replayTimerExpiry => exact execReplayTimerExpiry_frame ..
  | markerDue => exact execMarkerDue_frame ..
  | laneFail => exact execLaneFail_frame ..
  | swapReqResend => exact execSwapReqResend_frame ..
  | swapReqReceived => exact execSwapReqReceived_frame ..
  | swapDoneReceived => exact execSwapDoneReceived_frame ..
  | swapRemap => exact execSwapRemap_frame ..
  | swapTimeout => exact execSwapTimeout_frame ..
  | laneDegrade => exact execLaneDegrade_frame ..
  | rotationTimer => exact execRotationTimer_frame ..
  | rotStartReceived => exact execRotStartReceived_frame ..
  | rotReadyReceived => exact execRotReadyReceived_frame ..
  | rotDoneReceived => exact execRotDoneReceived_frame ..
  | calibrationEnd => exact execCalibrationEnd_frame ..
  | failedLaneRetest => exact execFailedLaneRetest_frame ..
  | linkDownTimeout => exact execLinkDownTimeout_frame ..
  | haulPortReset => exact execHaulPortReset_frame ..
  | haulRetrain => exact execHaulRetrain_frame ..
  | forceRot => exact execForceRot_frame ..
  | haulPortEnable => exact execHaulPortEnable_frame ..
  | sendDeparture => exact execSendDeparture_frame ..
  | forwardDeparture => exact execForwardDeparture_frame ..
  | detourDeparture => exact execDetourDeparture_frame ..
  | recvDeadlineCheck => exact execRecvDeadlineCheck_frame ..
  | repeatedDeadlineCheck => exact execRepeatedDeadlineCheck_frame ..
  | portDetourFast => exact execPortDetourFast_frame ..
  | routeDownReceived => exact execRouteDownReceived_frame ..
  | holdNoticeReceived => exact execHoldNoticeReceived_frame ..
  | holdPoint => exact execHoldPoint_frame ..
  | holdEnd => exact execHoldEnd_frame ..
  | replayNoticeReceived => exact execReplayNoticeReceived_frame ..
  | abandonPoint => exact execAbandonPoint_frame ..
  | replayGapEnd => exact execReplayGapEnd_frame ..
  | replayRejoin => exact execReplayRejoin_frame ..
  | serviceInjection => exact execServiceInjection_frame ..
  | throttleSample => exact execThrottleSample_frame ..
  | telemetryPeriod => exact execTelemetryPeriod_frame ..
  | telemNow => exact execTelemNow_frame ..
  | clearFwd => exact execClearFwd_frame ..
  | restoreArm => exact execRestoreArm_frame ..
  | portRestore => exact execPortRestore_frame ..
  | probeReceived => exact execProbeReceived_frame ..
  | assignReceived => exact execAssignReceived_frame ..
  | routesReceived => exact execRoutesReceived_frame ..
  | neighbourReceived => exact execNeighbourReceived_frame ..
  | leaseWrite => exact execLeaseWrite_frame ..
  | leaseEnable => exact execLeaseEnable_frame ..
  | fwdLoad => exact execFwdLoad_frame ..
  | fwdArm => exact execFwdArm_frame ..
  | fwdUnloadArm => exact execFwdUnloadArm_frame ..
  | fwdDisarm => exact execFwdDisarm_frame ..
  | fwdLoadEffect => exact execFwdLoadEffect_frame ..
  | twinSetReceived => exact execTwinSetReceived_frame ..
  | twinIndexReceived => exact execTwinIndexReceived_frame ..
  | twinStateReceived => exact execTwinStateReceived_frame ..
  | twinTagsReceived => exact execTwinTagsReceived_frame ..
  | twinAckReceived => exact execTwinAckReceived_frame ..
  | replicaSetShip => exact execReplicaSetShip_frame ..
  | replicaCompare => exact execReplicaCompare_frame ..
  | twnTakeover => exact execTwnTakeover_frame ..
  | twnSolo => exact execTwnSolo_frame ..
  | takeoverEffect => exact execTakeoverEffect_frame ..
  | partnerLost => exact execPartnerLost_frame ..
  | olicoFlitRetry => exact execOlicoFlitRetry_frame ..
  | olicoLaneFail => exact execOlicoLaneFail_frame ..
  | olicoNoProgress => exact execOlicoNoProgress_frame ..
  | olicoRetrainDone => exact execOlicoRetrainDone_frame ..
  | csrAccessError => exact execCsrAccessError_frame ..
  | registerWrite => exact execRegisterWrite_frame ..
  | changeNextWrite => exact execChangeNextWrite_frame ..
  | olcArm => exact execOlcArm_frame ..
  | olcDisarm => exact execOlcDisarm_frame ..
  | armDeadline change => exact execArmDeadline_frame (_change := change) ..
  | voteCount => exact execVoteCount_frame ..
  | armedReceived => exact execArmedReceived_frame ..
  | refusedReceived => exact execRefusedReceived_frame ..
  | splitReceived => exact execSplitReceived_frame ..
  | spareExtensionEffect => exact execSpareExtensionEffect_frame ..
  | changeFailedAtEffect => exact execChangeFailedAtEffect_frame ..
  | fcpHandshake => exact execFcpHandshake_frame ..
  | hello => exact execHello_frame ..
  | csrRead => exact execCsrRead_frame ..
  | csrWrite => exact execCsrWrite_frame ..
  | memRead => exact execMemRead_frame ..
  | memWrite => exact execMemWrite_frame ..
  | shardPut => exact execShardPut_frame ..
  | export_ => exact execExport_frame ..
  | discSend => exact execDiscSend_frame ..
  | fcpReset => exact execFcpReset_frame ..
  | fcpServicePacket => exact execFcpServicePacket_frame ..
  | certs => exact execCerts_frame ..
  | quote => exact execQuote_frame ..
  | enroll => exact execEnroll_frame ..
  | revoke => exact execRevoke_frame ..
  | anchorSet => exact execAnchorSet_frame ..
  | anchorClear => exact execAnchorClear_frame ..
  | ownerClaim => exact execOwnerClaim_frame ..
  | fwPut => exact execFwPut_frame ..
  | fwActivate => exact execFwActivate_frame ..
  | commitSvn => exact execCommitSvn_frame ..
  | secureBoot => exact execSecureBoot_frame ..
  | fltAck => exact execFltAck_frame ..
  | fltRelease => exact execFltRelease_frame ..
  | rrcSpillTimer => exact execRrcSpillTimer_frame ..
  | rrcSpillNow => exact execRrcSpillNow_frame ..
  | rrcRelease => exact execRrcRelease_frame ..
  | traceArm => exact execTraceArm_frame ..
  | traceStart => exact execTraceStart_frame ..
  | traceStop => exact execTraceStop_frame ..
  | stopNow => exact execStopNow_frame ..
  | snapArm => exact execSnapArm_frame ..
  | snapNow => exact execSnapNow_frame ..
  | snapshot => exact execSnapshot_frame ..
  | diePowerStart => exact execDiePowerStart_frame ..
  | railGroupRegulation => exact execRailGroupRegulation_frame ..
  | railTimeout => exact execRailTimeout_frame ..
  | foremanRunning => exact execForemanRunning_frame ..
  | foremanTimeout => exact execForemanTimeout_frame ..
  | moduleReset => exact execModuleReset_frame ..
  | foresterReset => exact execForesterReset_frame ..
  | dieCoreReset => exact execDieCoreReset_frame ..
  | dieCoreResetEnd => exact execDieCoreResetEnd_frame ..
  | haulPlaneReset => exact execHaulPlaneReset_frame ..
  | sagBandEntry => exact execSagBandEntry_frame ..
  | normalBandEntry => exact execNormalBandEntry_frame ..
  | inputPowerLoss => exact execInputPowerLoss_frame ..
  | laneLockLost => exact execLaneLockLost_frame ..
  | laneLockRegained => exact execLaneLockRegained_frame ..
  | meshTransferComplete => exact execMeshTransferComplete_frame ..
  | linkReplayEnd => exact execLinkReplayEnd_frame ..
  | replicaSetCheck => exact execReplicaSetCheck_frame ..
  | exportAcknowledged => exact execExportAcknowledged_frame ..
  | managementPortLinkUp => exact execManagementPortLinkUp_frame ..
  | foremanFaulted => exact execForemanFaulted_frame ..
  | dieRailOutOfRegulation => exact execDieRailOutOfRegulation_frame ..
  | tallyParityError => exact execTallyParityError_frame ..
  | csrSpineUncorrectable => exact execCsrSpineUncorrectable_frame ..

/-- Every part stands in `everyPart`, so the frame of any command lies within it. -/
theorem mem_everyPart (p : Part) : p ∈ everyPart := by cases p <;> decide

/-- A step, of the command at the front of the queue or of an idle tick, from `s` with the rest of its queue. -/
theorem step_frames (s : State) : Frames everyPart { s with pending := s.pending.tail } (step s) := by
  unfold step
  split
  case h_1 hempty =>
    have hqueue : { s with pending := s.pending.tail } = s := by rw [hempty, List.tail_nil, ← hempty]
    rw [hqueue]
    exact (Frames.next s.oneTick_frame).mono fun p _ => mem_everyPart p
  case h_2 c rest hqueue =>
    have htail : s.pending.tail = rest := by simp [hqueue]
    rw [htail]
    exact (exec_frames c _).mono fun p _ => mem_everyPart p

/-- Settles O43: a step keeps each of the four forms. -/
theorem stepKeepsSound : Obligations.StepKeepsSound := by
  intro s t hsound hstep
  obtain ⟨hmem, hcsr, hhaul, hclocks⟩ := hsound
  have hframe := (step_frames s).whenNext t hstep
  exact ⟨hframe.mem hmem, hframe.csr hcsr, hframe.haul hhaul, hframe.clocks hclocks⟩

/-- Settles O46: what `Nv.risesTo` says of the non-volatile memory before and after a step. -/
theorem nonvolatileRises : Obligations.NonvolatileRises := by
  intro s t hstep
  exact ((step_frames s).whenNext t hstep).nv

/-- Settles O44, by the frame lemma of every command. -/
theorem frameOfCommands : Obligations.FrameOfCommands := by
  intro c s t hexec
  have hframe := (exec_frames c s).whenNext t hexec
  exact ⟨hframe.same, fun hmem a => State.byte_of_mem (hframe.same .mem hmem) a, hframe.pending⟩

/-- Settles O39, by the definition of `step`. -/
theorem stepRunsFront : Obligations.StepRunsFront := by
  intro s c rest hqueue
  simp [step, hqueue]

end Sys2Proof.Machine
end

section
/-! Proof of `Obligations.BlockRoundTrip` (R269, R270): the CRC register keeps to 32 bits, so that its four bytes read back; the header
reads back field by field; the data are the LEN bytes behind it. `Obligations.PacketsRoundTrip` fails at the reserved flags of a marker. -/

namespace Sys2Proof.Machine

open Sys2Proof

/-! ## The CRC register -/

theorem crcShift_lt (n : Nat) {c : Nat} (hc : c < 2 ^ 32) : crcShift n c < 2 ^ 32 := by
  induction n generalizing c with
  | zero => exact hc
  | succ n ih =>
    have hhalf : c / 2 < 2 ^ 32 := by omega
    apply ih
    split
    · exact Nat.xor_lt_two_pow hhalf (by decide)
    · exact hhalf

theorem crcFold_lt (l : List Byte) {c : Nat} (hc : c < 2 ^ 32) : crcFold c l < 2 ^ 32 := by
  induction l generalizing c with
  | nil => exact hc
  | cons b l ih =>
    have hbyte : b.toNat < 2 ^ 32 := b.isLt.trans (by decide)
    exact ih (crcShift_lt 8 (Nat.xor_lt_two_pow hc hbyte))

theorem crc32c_lt (l : List Byte) : crc32c l < 2 ^ 32 :=
  Nat.xor_lt_two_pow (crcFold_lt l (by decide)) (by decide)

/-! ## A block and its fields -/

theorem LinkBlock.body_length {b : LinkBlock} (hlen : b.data.length ≤ 244) : b.body.length = 252 := by
  simp [LinkBlock.body]
  omega

theorem LinkBlock.encode_length {b : LinkBlock} (hlen : b.data.length ≤ 244) : b.encode.length = 256 := by
  simp [LinkBlock.encode, body_length hlen]

/-- The first 252 bytes are those that the CRC covers. -/
theorem LinkBlock.take_encode {b : LinkBlock} (hlen : b.data.length ≤ 244) : b.encode.take 252 = b.body :=
  List.take_left' (body_length hlen)

/-- The last four bytes are the CRC. -/
theorem LinkBlock.beAt_encode_crc {b : LinkBlock} (hlen : b.data.length ≤ 244) : beAt 252 4 b.encode = crc32c b.body := by
  rw [LinkBlock.encode, beAt_skip _ _ _ _ (body_length hlen).le, body_length hlen, beAt_whole,
    Nat.mod_eq_of_lt ((crc32c_lt b.body).trans_le (by decide))]

theorem LinkBlock.header_lt (b : LinkBlock) : b.header < 256 ^ 8 := by
  unfold LinkBlock.header
  omega

/-- The first eight bytes are the header. -/
theorem LinkBlock.beAt_encode_header (b : LinkBlock) : beAt 0 8 b.encode = b.header := by
  rw [LinkBlock.encode, LinkBlock.body, List.append_assoc, beAt_take, Nat.mod_eq_of_lt (LinkBlock.header_lt b)]

/-- The data follow the header. -/
theorem LinkBlock.slice_encode_data (b : LinkBlock) : slice 8 b.data.length b.encode = b.data := by
  rw [LinkBlock.encode, LinkBlock.body, List.append_assoc, slice_skip _ _ _ _ (by simp), beBytes_length, Nat.sub_self,
    List.append_assoc, slice_take _ _ _ rfl]

/-- Settles O47: the CRC of the bytes before it holds, and each field of the header lies in its own bits. -/
theorem blockRoundTrip : Obligations.BlockRoundTrip := by
  intro b htype hseq hack hfreed0 hfreed1 hlen
  have hdata : b.header % 256 = b.data.length := by unfold LinkBlock.header; omega
  have hfields : bits 63 60 b.header = b.type ∧ bits 59 44 b.header = b.seq ∧ bits 43 28 b.header = b.ack ∧
      bits 27 18 b.header = b.freed0 ∧ bits 17 8 b.header = b.freed1 := by
    unfold bits LinkBlock.header
    omega
  obtain ⟨htypeBits, hseqBits, hackBits, hfreed0Bits, hfreed1Bits⟩ := hfields
  rw [LinkBlock.decode, LinkBlock.encode_length hlen, LinkBlock.take_encode hlen, LinkBlock.beAt_encode_crc hlen,
    LinkBlock.beAt_encode_header, if_pos ⟨rfl, rfl⟩]
  simp only [hdata, if_pos hlen, htypeBits, hseqBits, hackBits, hfreed0Bits, hfreed1Bits, LinkBlock.slice_encode_data]

/-- A marker whose FLAGS set bit 4, which R285 reserves. -/
def reservedFlagMarker : Marker := { tDep := 0, root := 0, hops := 0, flags := 16, sender := 0, port := 0 }

/-- Refutes O48: the flags of a marker are stated for a whole byte, and a marker whose flags set one of the four reserved bits does not
read back (R285, R14; log entry 111). -/
theorem not_packetsRoundTrip : ¬ Obligations.PacketsRoundTrip := by
  intro h
  obtain ⟨_, _, _, hmarker, _⟩ := h
  have hread := hmarker reservedFlagMarker (by decide) (by decide) (by decide) (by decide) (by decide) (by decide)
  exact absurd hread (by decide)

end Sys2Proof.Machine
end

section
/-! Proof of `Obligations.ExactGrainsSplit` (R71, R73): additions to an accumulator commute, so that any order of the products leaves
the same grain; and a product added before a partial is combined is a product added after it. -/

namespace Sys2Proof.Machine

open Sys2Proof

/-! ## Accumulator bits -/

theorem toField_lt (w : Nat) (x : Int) : toField w x < 2 ^ w := by
  have hpos : (0 : Int) < 2 ^ w := by positivity
  have hlt := Int.emod_lt_of_pos x hpos
  have hnonneg := Int.emod_nonneg x hpos.ne'
  unfold toField
  zify
  rwa [Int.toNat_of_nonneg hnonneg]

/-- A field holds its number modulo 2ʷ. -/
theorem toField_coe (w : Nat) (x : Int) : (toField w x : Int) = x % 2 ^ w :=
  Int.toNat_of_nonneg (Int.emod_nonneg x (by positivity))

theorem toField_add (w : Nat) (x y : Int) : toField w ((toField w x : Int) + y) = toField w (x + y) := by
  rw [toField_coe, toField, toField, Int.emod_add_emod]

theorem toField_add_right (w : Nat) (x y : Int) : toField w (x + (toField w y : Int)) = toField w (x + y) := by
  rw [add_comm, toField_add, add_comm]

theorem toField_of_lt {w n : Nat} (hn : n < 2 ^ w) : toField w (n : Int) = n := by
  have hlt : (n : Int) < 2 ^ w := by exact_mod_cast hn
  rw [toField, Int.emod_eq_of_lt (by positivity) hlt, Int.toNat_natCast]

/-! ## Order -/

theorem Grain.addBits_comm (g : Grain) (v w : Int) : (g.addBits v).addBits w = (g.addBits w).addBits v := by
  simp only [Grain.addBits, toField_add, add_right_comm]

theorem Grain.addProduct_comm (g : Grain) (a b c d : Val) :
    (g.addProduct a b).addProduct c d = (g.addProduct c d).addProduct a b := by
  unfold Grain.addProduct
  split
  case h_4 =>
    split
    case h_4 => exact Grain.addBits_comm ..
    all_goals rfl
  all_goals split <;> rfl

theorem Grain.addAll_perm {l m : List (Val × Val)} (h : l.Perm m) (g : Grain) : g.addAll l = g.addAll m := by
  induction h generalizing g with
  | nil => rfl
  | cons x _ ih => exact ih _
  | swap x y l => exact congrArg (·.addAll l) (g.addProduct_comm ..)
  | trans _ _ ih₁ ih₂ => exact (ih₁ g).trans (ih₂ g)

theorem Grain.addAll_append (g : Grain) (l m : List (Val × Val)) : g.addAll (l ++ m) = (g.addAll l).addAll m := by
  induction l generalizing g with
  | nil => rfl
  | cons x l ih => exact ih _

/-! ## Splitting -/

/-- A partial holds the accumulator in its low 96 bits and a flag in each of the three above (R73). -/
theorem Grain.partialBits_fields {p : Grain} (hp : p.bits < 2 ^ 96) : p.partialBits % 2 ^ 96 = p.bits ∧
    bit 96 p.partialBits = p.nan ∧ bit 97 p.partialBits = p.pinf ∧ bit 98 p.partialBits = p.ninf := by
  obtain ⟨_, bits, nan, pinf, ninf, _, _⟩ := p
  dsimp only at hp
  cases nan <;> cases pinf <;> cases ninf <;> simp only [Grain.partialBits, bit, flag] <;> norm_num <;> omega

/-- Combining the partial of a grain adds its accumulator and its flags. -/
theorem Grain.addPartial_partialBits (g : Grain) {p : Grain} (hp : p.bits < 2 ^ 96) : g.addPartial p.partialBits =
    { g with bits := toField 96 (g.bits + p.bits), present := true, nan := g.nan || p.nan, pinf := g.pinf || p.pinf,
             ninf := g.ninf || p.ninf } := by
  obtain ⟨hbits, hnan, hpinf, hninf⟩ := Grain.partialBits_fields hp
  simp only [Grain.addPartial, Grain.addBits, hbits, hnan, hpinf, hninf]

theorem Grain.addProduct_bits_lt {g : Grain} (a b : Val) (hg : g.bits < 2 ^ 96) : (g.addProduct a b).bits < 2 ^ 96 := by
  unfold Grain.addProduct
  split
  case h_4 => exact toField_lt 96 _
  all_goals exact hg

theorem Grain.addProduct_present (g : Grain) (a b : Val) : (g.addProduct a b).present = g.present := by
  unfold Grain.addProduct
  split <;> rfl

theorem Grain.addAll_bits_lt {g : Grain} (l : List (Val × Val)) (hg : g.bits < 2 ^ 96) : (g.addAll l).bits < 2 ^ 96 := by
  induction l generalizing g with
  | nil => exact hg
  | cons x l ih => exact ih (Grain.addProduct_bits_lt _ _ hg)

theorem Grain.addAll_present (g : Grain) (l : List (Val × Val)) : (g.addAll l).present = g.present := by
  induction l generalizing g with
  | nil => rfl
  | cons x l ih => exact (ih _).trans (g.addProduct_present _ _)

/-- A product added after a partial is combined, or added to the partial before. -/
theorem Grain.addPartial_addProduct (g : Grain) {p : Grain} (a b : Val) (hp : p.bits < 2 ^ 96) :
    (g.addPartial p.partialBits).addProduct a b = g.addPartial (p.addProduct a b).partialBits := by
  rw [g.addPartial_partialBits hp, g.addPartial_partialBits (Grain.addProduct_bits_lt a b hp)]
  unfold Grain.addProduct
  split
  case h_4 => simp only [Grain.addBits, toField_add, toField_add_right, add_assoc]
  all_goals simp

theorem Grain.addPartial_addAll (g : Grain) {p : Grain} (m : List (Val × Val)) (hp : p.bits < 2 ^ 96) :
    (g.addPartial p.partialBits).addAll m = g.addPartial (p.addAll m).partialBits := by
  induction m generalizing p with
  | nil => rfl
  | cons x m ih =>
    rw [Grain.addAll, g.addPartial_addProduct _ _ hp]
    exact ih (Grain.addProduct_bits_lt _ _ hp)

/-- The partial of no elements adds nothing to a present grain. -/
theorem Grain.addPartial_empty {g : Grain} (hbits : g.bits < 2 ^ 96) (hpresent : g.present = true) :
    g.addPartial Grain.empty.partialBits = g := by
  rw [g.addPartial_partialBits (by decide)]
  simp [Grain.empty, toField_of_lt hbits, ← hpresent]

/-- Settles O53: products commute, and each product of the second list may be added to the partial instead. -/
theorem exactGrainsSplit : Obligations.ExactGrainsSplit := by
  refine ⟨fun g l m hperm => Grain.addAll_perm hperm g, fun g l m hbits hpresent => ?_⟩
  have hsum : (g.addAll l).addPartial Grain.empty.partialBits = g.addAll l :=
    Grain.addPartial_empty (Grain.addAll_bits_lt l hbits) ((g.addAll_present l).trans hpresent)
  calc g.addAll (l ++ m) = (g.addAll l).addAll m := g.addAll_append l m
    _ = ((g.addAll l).addPartial Grain.empty.partialBits).addAll m := by rw [hsum]
    _ = (g.addAll l).addPartial (Grain.empty.addAll m).partialBits := (g.addAll l).addPartial_addAll m (by decide)

end Sys2Proof.Machine
end

section
/-! Proof of `Obligations.KerfBlocksDistinct` (R131): a round keeps words of 32 bits, and can be undone, because each of its two products
has an odd factor and every other operation is an exclusive-or or a sum with words that the output shows. -/

namespace Sys2Proof.Machine

open Sys2Proof

/-- Every word has 32 bits. -/
def KerfWords.Fits (w : KerfWords) : Prop :=
  w.x0 < 2 ^ 32 ∧ w.x1 < 2 ^ 32 ∧ w.x2 < 2 ^ 32 ∧ w.x3 < 2 ^ 32 ∧ w.k0 < 2 ^ 32 ∧ w.k1 < 2 ^ 32

theorem KerfWords.round_fits {w : KerfWords} (hw : w.Fits) : w.round.Fits := by
  obtain ⟨_, _, _, _, hk0, hk1⟩ := hw
  have ht1 : w.round.x0 < 2 ^ 32 := Nat.xor_lt_two_pow (Nat.mod_lt _ (by decide)) hk0
  have ht3 : w.round.x2 < 2 ^ 32 := Nat.xor_lt_two_pow (Nat.mod_lt _ (by decide)) hk1
  exact ⟨ht1, Nat.xor_lt_two_pow (Nat.mod_lt _ (by decide)) ((Nat.div_le_self ..).trans_lt ht1), ht3,
    Nat.xor_lt_two_pow (Nat.mod_lt _ (by decide)) ((Nat.div_le_self ..).trans_lt ht3),
    Nat.mod_lt _ (by decide), Nat.mod_lt _ (by decide)⟩

/-- An odd factor loses nothing modulo 2³². -/
theorem eq_of_mul_odd {x y m : Nat} (hm : Nat.Coprime (2 ^ 32) m) (hx : x < 2 ^ 32) (hy : y < 2 ^ 32)
    (h : x * m % 2 ^ 32 = y * m % 2 ^ 32) : x = y := by
  have hmod : x ≡ y [MOD 2 ^ 32] := Nat.ModEq.cancel_right_of_coprime hm h
  rwa [Nat.ModEq, Nat.mod_eq_of_lt hx, Nat.mod_eq_of_lt hy] at hmod

/-- Adding one word loses nothing modulo 2³². -/
theorem eq_of_add_mod {x y c : Nat} (hx : x < 2 ^ 32) (hy : y < 2 ^ 32) (h : (x + c) % 2 ^ 32 = (y + c) % 2 ^ 32) : x = y := by
  have hmod : x ≡ y [MOD 2 ^ 32] := Nat.ModEq.add_right_cancel' c h
  rwa [Nat.ModEq, Nat.mod_eq_of_lt hx, Nat.mod_eq_of_lt hy] at hmod

/-- With one key a round can be undone: its words 0 and 2 give back the products, and these the words they were made of. -/
theorem KerfWords.round_injective {v w : KerfWords} (hv : v.Fits) (hw : w.Fits) (hk0 : v.k0 = w.k0) (hk1 : v.k1 = w.k1)
    (h : v.round = w.round) : v = w := by
  obtain ⟨hv0, hv1, hv2, hv3, _, _⟩ := hv
  obtain ⟨hw0, hw1, hw2, hw3, _, _⟩ := hw
  obtain ⟨v0, v1, v2, v3, vk0, vk1⟩ := v
  obtain ⟨w0, w1, w2, w3, wk0, wk1⟩ := w
  dsimp only at *
  subst hk0 hk1
  simp only [KerfWords.round, KerfWords.mk.injEq, and_true] at h
  obtain ⟨ht1, hp, ht3, hq⟩ := h
  rw [ht1, Nat.xor_left_inj] at hp
  rw [ht3, Nat.xor_left_inj] at hq
  obtain rfl := eq_of_mul_odd (by decide) hv0 hw0 hp
  obtain rfl := eq_of_mul_odd (by decide) hv2 hw2 hq
  obtain rfl := eq_of_add_mod hv1 hw1 (Nat.xor_left_inj.mp ht1)
  obtain rfl := eq_of_add_mod hv3 hw3 (Nat.xor_left_inj.mp ht3)
  rfl

theorem KerfWords.rounds_injective (n : Nat) {v w : KerfWords} (hv : v.Fits) (hw : w.Fits) (hk0 : v.k0 = w.k0)
    (hk1 : v.k1 = w.k1) (h : v.rounds n = w.rounds n) : v = w := by
  induction n generalizing v w with
  | zero => exact h
  | succ n ih =>
    have hk0' : v.round.k0 = w.round.k0 := by simp only [KerfWords.round, hk0]
    have hk1' : v.round.k1 = w.round.k1 := by simp only [KerfWords.round, hk1]
    exact KerfWords.round_injective hv hw hk0 hk1 (ih (round_fits hv) (round_fits hw) hk0' hk1' h)

/-- Settles O57, by undoing the ten rounds. -/
theorem kerfBlocksDistinct : Obligations.KerfBlocksDistinct := by
  intro v w hv0 hv1 hv2 hv3 hw0 hw1 hw2 hw3 hvk0 hvk1 hk0 hk1 h
  have hv : v.Fits := ⟨hv0, hv1, hv2, hv3, hvk0, hvk1⟩
  have hw : w.Fits := ⟨hw0, hw1, hw2, hw3, hk0 ▸ hvk0, hk1 ▸ hvk1⟩
  exact KerfWords.rounds_injective 10 hv hw hk0.symm hk1.symm h

end Sys2Proof.Machine
end

section
/-! Proofs of `Obligations.PairOpsRun` and `Obligations.SingleOpsRun` (R77 to R84, R170): every row of the two lists is a pair operation
or an operation on one register of its lane function, and both write their registers lane by lane. Proof of
`Obligations.ReservedEncodings` (log entry 20). -/

namespace Sys2Proof.Machine

open Sys2Proof

section

variable {s : State} {i : Issue} {v : VecSlot} {c : Instr} {op : Nat} {f : Nat → Nat → Nat → Nat × Option NumEvent}
  {g : Nat → Nat → Nat → Nat}

/-- A command that is a pair operation of `f` writes both registers with any `g` that agrees with `f` on 32 bits. -/
theorem LanesRun.of_pairOp (hexec : exec c s = s.pairOp i op v f) (hlanes : ∀ x y z, (f x y z).1 % 2 ^ 32 = g x y z % 2 ^ 32)
    (heven : evenRegs v = true) (hissue : s.canIssue i (.vector op v) = true) : LanesRun c s i v op 2 g := by
  obtain ⟨t, ht, hread⟩ := s.pairOp_lanes i op v f hissue heven
  refine ⟨t, hexec.trans ht, fun k hk m hm => ?_⟩
  rw [hread k hk m hm]
  simp only [hlanes]

/-- A command that is an operation on one register of `f` writes that register with any `g` that agrees with `f` on 32 bits. -/
theorem LanesRun.of_singleOp (hexec : exec c s = s.singleOp i op v f)
    (hlanes : ∀ x y z, (f x y z).1 % 2 ^ 32 = g x y z % 2 ^ 32) (hissue : s.canIssue i (.vector op v) = true) :
    LanesRun c s i v op 1 g := by
  obtain ⟨t, ht, hread⟩ := s.singleOp_lanes i op v f hissue
  refine ⟨t, hexec.trans ht, fun k hk m hm => ?_⟩
  rw [hread k hk m hm]
  simp only [hlanes]

end

/-- Under a shift kind that R170 lists ISHF is a pair operation. -/
theorem execIshf_eq_pairOp (s : State) (i : Issue) {v : VecSlot} (hkind : v.imm.val % 4 ≠ 3) :
    execIshf i v s = s.pairOp i 0x22 v fun a b _ => silentLane (shiftLane (v.imm % 4) a b) := by
  simp only [execIshf, State.pairOp, if_neg hkind]
  congr 2
  funext q u
  cases evenRegs v <;> rfl

/-- Settles O37, operation by operation. -/
theorem pairOpsRun : Obligations.PairOpsRun := by
  intro s i v heven
  refine ⟨?vfma, ?vadd, ?vsub, ?vmul, ?vsel, ?vmin, ?vmax, ?iadd, ?isub, ?iand, ?ior, ?ixor, ?ishf⟩
  case iadd => exact LanesRun.of_pairOp rfl (fun _ _ _ => Nat.mod_mod ..) heven
  case isub => exact LanesRun.of_pairOp rfl (fun _ _ _ => Nat.mod_mod ..) heven
  case ishf => exact fun hkind => LanesRun.of_pairOp (execIshf_eq_pairOp s i hkind) (fun _ _ _ => rfl) heven
  all_goals exact LanesRun.of_pairOp rfl (fun _ _ _ => rfl) heven

/-- Settles O38, operation by operation. -/
theorem singleOpsRun : Obligations.SingleOpsRun := by
  intro s i v
  refine ⟨?vrcp, ?vsqrt, ?vrsq, ?vdiv, ?vex2, ?vlg2⟩
  all_goals exact LanesRun.of_singleOp rfl fun _ _ _ => rfl

/-! ## Reserved encodings -/

/-- A pair operation on odd registers leaves free lanes in two registers that no field names. -/
theorem State.pairOp_odd {s : State} {i : Issue} {op : Nat} {v : VecSlot} (f : Nat → Nat → Nat → Nat × Option NumEvent)
    (hodd : evenRegs v = false) (hissue : s.canIssue i (.vector op v) = true) :
    s.pairOp i op v f = .next ((s.issued i (.vector op v)).freePair i.bench
      ((((s.issued i (.vector op v)).seen i.bench).benchOf i.bench).pred v.pred)) := by
  simp [State.pairOp, State.operate_runs _ hissue, hodd]

/-- A read of bench store under a clean code runs on the state as it is. -/
theorem State.reading_one {s : State} {b o n : Nat} (f : State → Res) (hfit : o + n ≤ storeSize) :
    s.reading b .clean [(o, n)] f = f s :=
  State.reading_runs f (by simp [spansFit, hfit])

/-- ISHF on odd registers is a pair operation on odd registers. -/
theorem execIshf_odd {s : State} {i : Issue} {v : VecSlot} (hodd : evenRegs v = false)
    (hissue : s.canIssue i (.vector 0x22 v) = true) :
    execIshf i v s = .next ((s.issued i (.vector 0x22 v)).freePair i.bench
      ((((s.issued i (.vector 0x22 v)).seen i.bench).benchOf i.bench).pred v.pred)) := by
  simp [execIshf, State.operate_runs _ hissue, hodd]

/-- Under a clean code a matrix operation with a reserved tile leaves every accumulator free. -/
theorem State.freeTile_clean (s : State) (b : Nat) : s.freeTile b .clean =
    .next ((s.freeGrains b ((List.range 1024).map fun k => (k / 2, k % 2))).countMatrix b) :=
  State.reading_runs _ rfl

/-- Settles O49, encoding by encoding: the operation issues, and its meaning takes the branch of the reserved field. -/
theorem reservedEncodings : Obligations.ReservedEncodings := by
  intro s i
  refine ⟨?odd, ?ishf, ?vcmp, ?vcvt, ?vtlv, ?vtlf, ?mgr, ?fdec⟩
  case odd =>
    intro v op c hmem hodd hissue
    simp only [List.mem_cons, Prod.mk.injEq, List.not_mem_nil, or_false] at hmem
    rcases hmem with ⟨rfl, rfl⟩ | ⟨rfl, rfl⟩ | ⟨rfl, rfl⟩ | ⟨rfl, rfl⟩ | ⟨rfl, rfl⟩ | ⟨rfl, rfl⟩ | ⟨rfl, rfl⟩ | ⟨rfl, rfl⟩ |
      ⟨rfl, rfl⟩ | ⟨rfl, rfl⟩ | ⟨rfl, rfl⟩ | ⟨rfl, rfl⟩ | ⟨rfl, rfl⟩
    pick_goal 10
    · exact execIshf_odd hodd hissue
    all_goals exact State.pairOp_odd _ hodd hissue
  case ishf =>
    rintro v u mask rfl rfl hissue heven hkind
    change execIshf i v s = _
    simp only [execIshf, State.operate_runs _ hissue, heven, if_pos hkind]
    rfl
  case vcmp =>
    rintro v u mask rfl rfl hissue
    refine ⟨fun heven hkind => ?_, fun hodd => ?_⟩
    · change execVcmp i v s = _
      simp only [execVcmp, State.operate_runs _ hissue, heven, if_neg (Nat.not_lt.mpr hkind)]
      rfl
    · change execVcmp i v s = _
      simp only [execVcmp, State.operate_runs _ hissue, hodd]
      rfl
  case vcvt =>
    rintro v k u x d rfl rfl rfl hissue hreserved
    change execVcvt i v k s = _
    simp only [execVcvt, State.operate_runs _ hissue]
    split
    case h_1 g f hg hf =>
      obtain h | h | ⟨f', hf', hround⟩ := hreserved
      · exact absurd hg (h ▸ nofun)
      · exact absurd hf (h ▸ nofun)
      · obtain rfl : f' = f := Option.some.inj (hf'.symm.trans hf)
        simp [hround]
    case h_2 => rfl
  case vtlv =>
    rintro v head tree level u x rfl rfl hissue hfit hnone
    change execVtlv i v head tree level .clean s = _
    simp only [execVtlv, State.operate_runs _ hissue, hnone, State.reading_one _ hfit]
  case vtlf =>
    rintro v head tree u x rfl rfl hissue hfit hnone
    change execVtlf i v head tree .clean s = _
    simp only [execVtlf, State.operate_runs _ hissue, hnone, State.reading_one _ hfit]
  case mgr =>
    rintro m l present u rfl hissue hreserved
    change execMgr i m l present .clean s = _
    simp only [execMgr, State.operate_runs _ hissue]
    split
    case h_1 => exact State.freeTile_clean ..
    case h_2 t htile =>
      obtain h | hform := hreserved
      · exact absurd htile (h ▸ nofun)
      · rw [if_pos hform]
        exact State.freeTile_clean ..
  case fdec =>
    rintro c u f rfl hissue himm hfork
    change execFdec i c s = _
    simp only [execFdec, State.operate_runs _ hissue, hfork, if_neg (Nat.not_lt.mpr himm)]

end Sys2Proof.Machine
end

section
/-! Proof of `Obligations.StoringForms` (R168 to R171): an operation changes memory by its meaning alone, a read of bench store changes
none, and a run of stores changes no byte outside the spans that it stores to; then each storing form by its own spans. -/

namespace Sys2Proof.Machine

open Sys2Proof

/-- A byte of memory lies outside each of the spans, which are offsets in the store of bench `b`. -/
def Outside (b a : Nat) (l : List (Nat × Nat)) : Prop := ∀ x ∈ l, a < benchBase b + x.1 ∨ benchBase b + x.1 + x.2 ≤ a

/-! ## Issue and reads -/

theorem State.byte_issued (s : State) (i : Issue) (o : SlotOp) (a : Nat) : (s.issued i o).byte a = s.byte a :=
  State.byte_of_mem ((s.issued_frame i o).same .mem (by decide)) a

/-- An operation that does not issue, or whose bundle cannot be fetched, changes no memory. -/
theorem State.byte_operate {s t : State} {i : Issue} {o : SlotOp} {f : State → State → Res} {a : Nat}
    (hf : f ((s.issued i o).seen i.bench) (s.issued i o) = .next t → t.byte a = (s.issued i o).byte a)
    (h : s.operate i o f = .next t) : t.byte a = s.byte a := by
  unfold State.operate at h
  split at h
  · exact (hf h).trans (s.byte_issued i o a)
  · split at h
    · split at h
      · obtain rfl := Host.Outcome.next.inj h
        exact State.byte_of_mem ((s.fetchFails_frame ..).same .mem (by decide)) a
      · obtain rfl := Host.Outcome.next.inj h
        rfl
    · obtain rfl := Host.Outcome.next.inj h
      rfl

/-- What the code says of the words read changes no memory. -/
theorem State.byte_reading {s t : State} {b : Nat} {ecc : Ecc} {l : List (Nat × Nat)} {f : State → Res} {a : Nat}
    (hf : ∀ u, f u = .next t → t.byte a = u.byte a) (h : s.reading b ecc l f = .next t) : t.byte a = s.byte a := by
  have hread : (s.readStore b ecc).1.byte a = s.byte a :=
    State.byte_of_mem ((s.readStore_frame b ecc).same .mem (by decide)) a
  unfold State.reading at h
  split at h
  · split at h
    · rename_i u hu
      rw [hu] at hread
      exact (hf u h).trans hread
    · rename_i u hu
      rw [hu] at hread
      obtain rfl := Host.Outcome.next.inj h
      exact hread
  · exact absurd h nofun

/-! ## Stores -/

/-- One store within a span that a byte lies outside of. -/
theorem State.byte_putStore_outside {b o n a : Nat} (s : State) {l : List Byte} (hlen : l.length ≤ n) (h : Outside b a [(o, n)]) :
    (s.putStore b o l).byte a = s.byte a :=
  s.byte_putStore b o l n a hlen (h _ (List.mem_singleton_self _))

/-- A run of stores changes no byte outside the span of each. -/
theorem State.byte_foldl_putStore {α : Type} {b a : Nat} (place : α → Nat) (data : α → List Byte) (l : List α) (s : State)
    (h : ∀ x ∈ l, Outside b a [(place x, (data x).length)]) :
    (l.foldl (fun u x => u.putStore b (place x) (data x)) s).byte a = s.byte a := by
  induction l generalizing s with
  | nil => rfl
  | cons x l ih =>
    rw [List.foldl_cons, ih _ fun y hy => h y (List.mem_cons_of_mem x hy)]
    exact s.byte_putStore_outside le_rfl (h x List.mem_cons_self)

theorem Outside.of_mem {b a o n : Nat} {l : List (Nat × Nat)} (h : Outside b a l) (hmem : (o, n) ∈ l) : Outside b a [(o, n)] := by
  rintro x hx
  obtain rfl := List.mem_singleton.mp hx
  exact h _ hmem

/-! ## The storing forms -/

/-- The bytes of a register. -/
theorem Bench.laneBytes_length (x : Bench) (r : Nat) : ((x.lanes r).map (leBytes 4)).flatten.length = 512 := by
  rw [flatten_length _ 4 (by simp [leBytes_length]), List.length_map, Bench.lanes, List.length_map, List.length_range]

/-- The bytes of a row of sixteen exact partials. -/
theorem partialBytes_length (g : Nat → Grain) :
    ((List.range 16).map fun c => leBytes 16 (g c).partialBits).flatten.length = 256 := by
  rw [flatten_length _ 16 (by simp [leBytes_length]), List.length_map, List.length_range]

section

variable {s t : State} {i : Issue} {a : Nat}

theorem byte_execVst {m : MovSlot} (hout : Outside i.bench a [(128 * m.addr.val, 512)]) (h : execVst i m s = .next t) :
    t.byte a = s.byte a := by
  unfold execVst at h
  dsimp only at h
  refine State.byte_operate (fun h => ?_) h
  split at h
  · obtain rfl := Host.Outcome.next.inj h
    exact State.byte_putStore_outside _ (Bench.laneBytes_length _ _).le hout
  · exact absurd h nofun

theorem byte_execCopy {m : MovSlot} {ecc : Ecc} (hout : Outside i.bench a [(128 * m.addr2.val, 128 * (m.id.val + 1))])
    (h : execCopy i m ecc s = .next t) : t.byte a = s.byte a := by
  unfold execCopy at h
  dsimp only at h
  refine State.byte_operate (fun h => ?_) h
  refine State.byte_reading (fun u h => ?_) h
  obtain rfl := Host.Outcome.next.inj h
  exact State.byte_putStore_outside _ (by simp [State.store, State.bytes_length]) hout

theorem byte_execZfill {m : MovSlot} (hout : Outside i.bench a [(128 * m.addr.val, 128 * (m.id.val + 1))])
    (h : execZfill i m s = .next t) : t.byte a = s.byte a := by
  unfold execZfill at h
  dsimp only at h
  refine State.byte_operate (fun h => ?_) h
  split at h
  · obtain rfl := Host.Outcome.next.inj h
    exact State.byte_putStore_outside _ (by simp) hout
  · exact absurd h nofun

theorem State.byte_countSr (s : State) (b rm n a : Nat) : (s.countSr b rm n).byte a = s.byte a :=
  State.byte_of_mem ((s.countSr_frame b rm n).same .mem (by decide)) a

theorem State.byte_countNum (s : State) (b : Nat) (l : List (Option NumEvent)) (a : Nat) : (s.countNum b l).byte a = s.byte a :=
  State.byte_of_mem ((s.countNum_frame b l).same .mem (by decide)) a

theorem State.byte_countMatrix (s : State) (b a : Nat) : (s.countMatrix b).byte a = s.byte a :=
  State.byte_of_mem ((s.countMatrix_frame b).same .mem (by decide)) a

theorem State.byte_putLanes (s : State) (b r mask : Nat) (out : List (Nat × Option NumEvent)) (a : Nat) :
    (s.putLanes b r mask out).byte a = s.byte a :=
  State.byte_of_mem ((s.putLanes_frame b r mask out).same .mem (by decide)) a

/-- Under a reserved format VCVB stores four scales and nothing else. -/
theorem State.byte_freeBlocks {b o a : Nat} (s : State) (r mask : Nat) (hout : Outside b a [(o, 4)]) :
    (s.freeBlocks b r mask o).byte a = s.byte a := by
  have hlanes : ∀ u : State, (u.freeLanes b r mask).byte a = u.byte a :=
    fun u => State.byte_of_mem ((u.freeLanes_frame b r mask).same .mem (by decide)) a
  exact (hlanes _).trans (s.byte_putStore_outside (by simp) hout)

theorem byte_execVcvb {v : VecSlot} {off : Nat} {k : Coords}
    (hout : Outside i.bench a [(128 * (s.desc i.bench (v.imm % 256)).outScale + off, 4)]) (h : execVcvb i v off k s = .next t) :
    t.byte a = s.byte a := by
  unfold execVcvb at h
  dsimp only at h
  refine State.byte_operate (fun h => ?_) h
  rw [← s.desc_issued i (.vector 0x31 v)] at hout
  split at h
  · split at h
    · split at h
      · obtain rfl := Host.Outcome.next.inj h
        rw [State.byte_putStore_outside _ (by simp) hout, State.byte_countSr, State.byte_putLanes]
      · obtain rfl := Host.Outcome.next.inj h
        rw [State.byte_countSr, State.byte_freeBlocks _ _ _ hout]
    · obtain rfl := Host.Outcome.next.inj h
      rw [State.byte_countSr, State.byte_freeBlocks _ _ _ hout]
  · exact absurd h nofun

/-- Under a reserved descriptor a matrix operation stores within the spans of 64 result rows and their scales. -/
theorem State.byte_freeOut {d : Desc} {m : MatSlot} {l : TileLayout} {ecc : Ecc} {b : Nat} (hout : Outside b a (freeSpans d m l))
    (h : s.freeOut b d m l ecc = .next t) : t.byte a = s.byte a := by
  refine State.byte_reading (fun u h => ?_) h
  obtain rfl := Host.Outcome.next.inj h
  rw [State.byte_countMatrix]
  refine State.byte_foldl_putStore Prod.fst Prod.snd _ u fun x hx => hout.of_mem ?_
  obtain ⟨hx, _⟩ := List.mem_filter.mp hx
  obtain ⟨row, hrow, hx⟩ := List.mem_flatten.mp hx
  obtain ⟨r, hr, rfl⟩ := List.mem_map.mp hrow
  have hr64 : r < 64 := by
    have := List.mem_range.mp hr
    have := Nat.mod_lt (Config.reserved u.fresh 0) (show 0 < 65 by decide)
    omega
  refine List.mem_flatten.mpr ⟨_, List.mem_map.mpr ⟨r, List.mem_range.mpr hr64, rfl⟩, ?_⟩
  rcases List.mem_cons.mp hx with rfl | hx
  · simp
  · by_cases hscaled : d.scaledOut = true
    · rw [if_pos hscaled] at hx ⊢
      obtain rfl := List.mem_singleton.mp hx
      exact List.mem_cons_of_mem _ List.mem_cons_self
    · rw [if_neg hscaled] at hx
      exact absurd hx nofun

theorem byte_execMxp {m : MatSlot} {l : TileLayout} {half : Fin 2} {spans : List (Nat × Nat)}
    (hspans : storedSpans s (.mxp i m l half) = some (i, spans)) (hout : Outside i.bench a spans)
    (h : execMxp i m l half s = .next t) : t.byte a = s.byte a := by
  unfold execMxp at h
  dsimp only at h
  refine State.byte_operate (fun h => ?_) h
  simp only [storedSpans, Option.some.injEq, Prod.mk.injEq, true_and] at hspans
  subst hspans
  split at h
  · rename_i htile
    simp only [htile] at hout
    exact State.byte_freeOut hout h
  · rename_i tile htile
    simp only [htile] at hout
    split at h
    case isTrue hexact =>
      have hexact : tile.exact = false := by simpa using hexact
      rw [if_neg (by simp [hexact])] at hout
      exact State.byte_freeOut hout h
    case isFalse hexact =>
      have hexact : tile.exact = true := by simpa using hexact
      rw [if_pos hexact] at hout
      split at h
      · obtain rfl := Host.Outcome.next.inj h
        rw [State.byte_countMatrix]
        refine State.byte_foldl_putStore (fun r => 128 * m.b + r * l.outRow) _ _ _ fun r hr => ?_
        refine hout.of_mem ?_
        rw [partialBytes_length]
        exact List.mem_map.mpr ⟨r, hr, rfl⟩
      · exact absurd h nofun

theorem byte_execMcv {m : MatSlot} {l : TileLayout} {half : Fin 2} {k : Coords} {ecc : Ecc} {spans : List (Nat × Nat)}
    (hspans : storedSpans s (.mcv i m l half k ecc) = some (i, spans)) (hout : Outside i.bench a spans)
    (h : execMcv i m l half k ecc s = .next t) : t.byte a = s.byte a := by
  unfold execMcv at h
  dsimp only at h
  refine State.byte_operate (fun h => ?_) h
  simp only [storedSpans, Option.some.injEq, Prod.mk.injEq, true_and] at hspans
  subst hspans
  split at h
  case h_1 tile f htile hfmt =>
    simp only [htile, hfmt] at hout
    split at h
    case isTrue hround =>
      rw [if_pos hround] at hout
      exact State.byte_freeOut hout h
    case isFalse hround =>
      rw [if_neg hround] at hout
      refine State.byte_reading (fun u h => ?_) h
      obtain rfl := Host.Outcome.next.inj h
      rw [State.byte_countMatrix, State.byte_countSr, State.byte_countNum]
      exact State.byte_foldl_putStore Prod.fst Prod.snd _ u fun x hx => hout.of_mem (List.mem_map.mpr ⟨x, hx, rfl⟩)
  case h_2 hnone =>
    refine State.byte_freeOut ?_ h
    split at hout
    case h_1 tile f htile hfmt => exact absurd hfmt (hnone tile f htile)
    case h_2 => exact hout

end

/-- Settles O50, form by form. -/
theorem storingForms : Obligations.StoringForms := by
  intro c s t i l a hspans hexec hout
  cases c with
  | vst iss m =>
    obtain ⟨rfl, rfl⟩ := Prod.mk.inj (Option.some.inj hspans)
    exact byte_execVst hout hexec
  | copy iss m ecc =>
    obtain ⟨rfl, rfl⟩ := Prod.mk.inj (Option.some.inj hspans)
    exact byte_execCopy hout hexec
  | zfill iss m =>
    obtain ⟨rfl, rfl⟩ := Prod.mk.inj (Option.some.inj hspans)
    exact byte_execZfill hout hexec
  | vcvb iss v off k =>
    obtain ⟨rfl, rfl⟩ := Prod.mk.inj (Option.some.inj hspans)
    exact byte_execVcvb hout hexec
  | mxp iss m layout half =>
    obtain rfl : iss = i := (Prod.mk.inj (Option.some.inj hspans)).1
    exact byte_execMxp hspans hout hexec
  | mcv iss m layout half k ecc =>
    obtain rfl : iss = i := (Prod.mk.inj (Option.some.inj hspans)).1
    exact byte_execMcv hspans hout hexec
  | _ => exact absurd hspans nofun

end Sys2Proof.Machine
end

section
/-! Refutation of `Obligations.LaneOpFrame`: a lane operation whose result is NaN sets a sticky event, and the set is noted for the tick
(R369), which the statement's list of changed parts leaves out. -/

namespace Sys2Proof.Machine

open Sys2Proof

/-- VDIV of register 0 by itself into register 0, under predicate 0, and its place: address 0 of bench 0. -/
def zeroSlot : VecSlot := ⟨0, 0, 0, 0, 0, 0, 0, 0⟩
def zeroPlace : Issue := ⟨0, 0, .clean⟩

/-- Bench 0 from reset, issuing, with lane 0 alone active and that VDIV in its bundle at address 0. -/
def dividingByZero : State :=
  { State.reset with bench := [(0, { Bench.reset with code := [(25, 0x3B)], preds := [(0, 1)] })] }.wrAt R.BCH_SEQ_STATUS_STATE 0 1

/-- That bench once the VDIV has run. -/
def dividedByZero : State :=
  let u := dividingByZero.issued zeroPlace (.vector 0x3B zeroSlot)
  (u.seen 0).laneReg u 0 zeroSlot 0 fun a b _ => counted (fdiv a b)

set_option maxRecDepth 100000 in
theorem dividingByZero_issues : dividingByZero.canIssue zeroPlace (.vector 0x3B zeroSlot) = true := by decide

theorem exec_dividingByZero : exec (.vdiv zeroPlace zeroSlot) dividingByZero = .next dividedByZero := by
  change execVdiv zeroPlace zeroSlot dividingByZero = _
  rw [execVdiv, State.singleOp, State.operate_runs _ dividingByZero_issues]
  rfl

set_option maxRecDepth 100000 in
/-- 0 ÷ 0 is NaN, so that the event is set in this tick; before the VDIV none was. -/
theorem dividedByZero_fired : dividedByZero.fired = [R.BCH_NUM_EVENT_NAN_OUT.key 0] := by decide

/-- Refutes O51: VDIV of 0 by 0 notes its sticky event among the bits set in this tick (R369), a part of the state outside `csr`,
`bench` and `fresh`. -/
theorem not_laneOpFrame : ¬ Obligations.LaneOpFrame := by
  intro h
  obtain ⟨hframe, _⟩ := h _ _ _ _ _ _ _ rfl dividingByZero_issues rfl exec_dividingByZero
  have hfired : dividedByZero.fired = dividingByZero.fired := by rw [hframe]
  exact absurd (dividedByZero_fired.symm.trans hfired) nofun

end Sys2Proof.Machine
end

section
/-! Proof of `Obligations.RegisterAccess` (R15, R367 to R369): what a write of a field does by its access code and class, and the three
commands of register access. -/

namespace Sys2Proof.Machine

open Sys2Proof

/-! ## Fields -/

theorem bits_lt (hi lo v : Nat) : bits hi lo v < 2 ^ (hi + 1 - lo) := Nat.mod_lt _ (Nat.two_pow_pos _)

/-- A sticky field that the module does not set in this tick keeps the bits that are not written as 1. -/
theorem State.rdAt_clearBits_same {s : State} {f : Field} {i : Nat} (x : Nat) (hfired : f.key i ∉ s.fired) :
    (s.clearBits f i x).rdAt f i = s.rdAt f i - (s.rdAt f i &&& x) := by
  simp [State.clearBits, hfired, State.rdAt, Tab.get_put]

theorem State.rdAt_clearBits_ne {s : State} {f g : Field} {i j : Nat} (x : Nat) (h : g.key j ≠ f.key i) :
    (s.clearBits f i x).rdAt g j = s.rdAt g j := by
  unfold State.clearBits
  split
  · rfl
  · exact Tab.get_put_ne _ _ _ h _

theorem State.rdAt_takeEffect (s : State) (f : Field) (i v : Nat) : (s.takeEffect f i v).rdAt f i = v % 2 ^ f.width :=
  s.rdAt_wrAt_same f i v

/-- What is written to a Staged field while it waits is what a later read of the last value returns. -/
theorem State.lastAt_staged (s : State) (f : Field) (i v : Nat) :
    State.lastAt { s with staged := Tab.ins (f.key i) v s.staged } f i = v := by
  simp [State.lastAt, Tab.find?_ins]

theorem State.writeField_ro {s : State} {run : Bool} {f : Field} {i x : Nat} (h : f.access = .ro) :
    s.writeField run f i x = (s, false) := by
  simp [State.writeField, h]

theorem State.writeField_wo {s : State} {run : Bool} {f : Field} {i x : Nat} (h : f.access = .wo) :
    s.writeField run f i x = (s, false) := by
  simp [State.writeField, h]

theorem State.writeField_w1c {s : State} {run : Bool} {f : Field} {i x : Nat} (h : f.access = .w1c) :
    s.writeField run f i x = (s.clearBits f i x, false) := by
  simp [State.writeField, h]

/-- A write that is neither ignored nor held for the next load takes effect. -/
theorem State.writeField_rw {s : State} {run : Bool} {f : Field} {i x : Nat} (h : f.access = .rw) (hcls : f.cls = .live ∨ run = false) :
    s.writeField run f i x = (s.takeEffect f i (storedAs f x % 2 ^ f.width), false) := by
  obtain hlive | rfl := hcls
  · simp [State.writeField, h, hlive]
  · simp [State.writeField, h]

theorem State.writeField_static {s : State} {f : Field} {i x : Nat} (h : f.access = .rw) (hcls : f.cls = .static) :
    s.writeField true f i x = (s, storedAs f x % 2 ^ f.width != s.rdAt f i) := by
  simp [State.writeField, h, hcls]

theorem State.writeField_staged {s : State} {f : Field} {i x : Nat} (h : f.access = .rw) (hcls : f.cls = .staged) :
    s.writeField true f i x = ({ s with staged := Tab.ins (f.key i) (storedAs f x % 2 ^ f.width) s.staged }, false) := by
  simp [State.writeField, h, hcls]

/-! ## The commands of register access -/

theorem State.badCsr_event (s : State) : s.badCsr.rd R.OLC_EVENT_BAD_CSR = 1 := by
  rw [State.badCsr, State.rd_wr_same]
  rfl

theorem State.badCsr_count (s : State) :
    s.badCsr.rd R.OLC_ERR_BAD_CSR = min (s.rd R.OLC_ERR_BAD_CSR + 1) R.OLC_ERR_BAD_CSR.max := by
  rw [State.badCsr, State.rd_wr_ne _ _ (by decide), State.rd_inc_same]

theorem execCsrAccessError_bad {s : State} {offset width : Nat} (h : width ≠ 64 ∨ offset % 8 ≠ 0) :
    execCsrAccessError offset width s = .next (s.badCsr.emit (.register false 0)) := if_pos h

theorem execCsrAccessError_hole {s : State} {offset width : Nat} (hwidth : width = 64) (haligned : offset % 8 = 0)
    (hhole : regAt offset = none) : execCsrAccessError offset width s = .next (s.badCsr.emit (.register true 0)) := by
  simp [execCsrAccessError, hwidth, haligned, hhole]

theorem execRegisterWrite_aligned {s : State} {offset : Nat} (value : Word) (inp : ActionInput) (h : offset % 8 = 0) :
    execRegisterWrite offset value inp s = .next ((s.writeCsr offset value.toNat inp).emit (.register true 0)) :=
  if_neg (not_not.mpr h)

theorem execRegisterWrite_misaligned {s : State} {offset : Nat} (value : Word) (inp : ActionInput) (h : offset % 8 ≠ 0) :
    execRegisterWrite offset value inp s = .next (s.badCsr.emit (.register false 0)) := if_pos h

/-- OLC_CHANGE_NEXT after a write of it: three fields of the value, FRESH, and every other field as before. -/
def State.changeNext (s : State) (value : Nat) : State :=
  (((s.wr R.OLC_CHANGE_NEXT_ID (bits 31 0 value)).wr R.OLC_CHANGE_NEXT_KIND (bits 35 32 value)).wr R.OLC_CHANGE_NEXT_CONTEXT
    (bits 39 36 value)).wr R.OLC_CHANGE_NEXT_FRESH 1

theorem exec_changeNextWrite (s : State) (value : Nat) : exec (.changeNextWrite value) s = .next (s.changeNext value) := rfl

theorem State.changeNext_id (s : State) (value : Nat) : (s.changeNext value).rd R.OLC_CHANGE_NEXT_ID = bits 31 0 value := by
  simp (disch := decide) only [State.changeNext, State.rd_wr_ne, State.rd_wr_same]
  exact Nat.mod_eq_of_lt (bits_lt 31 0 value)

theorem State.changeNext_kind (s : State) (value : Nat) : (s.changeNext value).rd R.OLC_CHANGE_NEXT_KIND = bits 35 32 value := by
  simp (disch := decide) only [State.changeNext, State.rd_wr_ne, State.rd_wr_same]
  exact Nat.mod_eq_of_lt (bits_lt 35 32 value)

theorem State.changeNext_context (s : State) (value : Nat) :
    (s.changeNext value).rd R.OLC_CHANGE_NEXT_CONTEXT = bits 39 36 value := by
  simp (disch := decide) only [State.changeNext, State.rd_wr_ne, State.rd_wr_same]
  exact Nat.mod_eq_of_lt (bits_lt 39 36 value)

theorem State.changeNext_fresh (s : State) (value : Nat) : (s.changeNext value).rd R.OLC_CHANGE_NEXT_FRESH = 1 :=
  State.rd_wr_same _ _ 1

theorem State.changeNext_other {s : State} {value : Nat} {g : Field} {j : Nat} (hid : g.key j ≠ R.OLC_CHANGE_NEXT_ID.key 0)
    (hkind : g.key j ≠ R.OLC_CHANGE_NEXT_KIND.key 0) (hcontext : g.key j ≠ R.OLC_CHANGE_NEXT_CONTEXT.key 0)
    (hfresh : g.key j ≠ R.OLC_CHANGE_NEXT_FRESH.key 0) : (s.changeNext value).rdAt g j = s.rdAt g j := by
  rw [State.changeNext, State.rdAt_wr_ne _ _ hfresh, State.rdAt_wr_ne _ _ hcontext, State.rdAt_wr_ne _ _ hkind,
    State.rdAt_wr_ne _ _ hid]

/-- Settles O58: the three commands, then the field write by access code and class. -/
theorem registerAccess : Obligations.RegisterAccess := by
  refine ⟨?access, ?write, ?changeNext, ?field⟩
  case access =>
    intro s offset width
    exact ⟨execCsrAccessError_bad, execCsrAccessError_hole, s.badCsr_event, s.badCsr_count⟩
  case write =>
    intro s offset value inp
    exact ⟨execRegisterWrite_aligned value inp, execRegisterWrite_misaligned value inp⟩
  case changeNext =>
    intro s value
    exact ⟨s.changeNext value, exec_changeNextWrite s value, s.changeNext_id value, s.changeNext_kind value,
      s.changeNext_context value, s.changeNext_fresh value, fun _ _ => State.changeNext_other⟩
  case field =>
    intro s run f i x
    refine ⟨State.writeField_ro, fun hwo => ⟨if_pos hwo, State.writeField_wo hwo⟩, ?fired, ?sticky, ?live, ?still, ?static, ?staged⟩
    case fired =>
      intro hw1c hfired
      rw [State.writeField_w1c hw1c, State.clearBits_fired _ _ _ _ (List.contains_iff_mem.mpr hfired)]
    case sticky =>
      intro hw1c hfired _
      rw [State.writeField_w1c hw1c]
      refine ⟨fun b => ?_, fun g j hne => State.rdAt_clearBits_ne x hne⟩
      rw [State.rdAt_clearBits_same x hfired]
      simp only [bit_eq, sub_and_testBit]
    case live =>
      intro hrw hlive
      rw [State.writeField_rw hrw (.inl hlive), State.rdAt_takeEffect, Nat.mod_mod]
    case still =>
      intro hrw hstill
      rw [State.writeField_rw hrw (.inr hstill), State.rdAt_takeEffect, Nat.mod_mod]
    case static =>
      rintro hrw hstatic rfl
      exact State.writeField_static hrw hstatic
    case staged =>
      rintro hrw hstaged rfl
      rw [State.writeField_staged hrw hstaged]
      exact ⟨rfl, s.lastAt_staged f i _⟩

end Sys2Proof.Machine
end

section
/-! Proof of `Obligations.WrittenRegisters`: which register fields an operation may write, as one relation with the rules for composing
it; the shared operations; then each command that `writtenKeys` lists. -/

namespace Sys2Proof.Machine

open Sys2Proof

/-- From `s` to `t` no register field changes whose key is outside `K`. -/
def Writes (K : List Nat) (s t : State) : Prop := ∀ (f : Field) (j : Nat), f.key j ∉ K → t.rdAt f j = s.rdAt f j

/-- What a command answers, when it answers a next state, changes no register field whose key is outside `K`. -/
def AnswerWrites (K : List Nat) (s : State) (r : Res) : Prop := ∀ t, r = .next t → Writes K s t

namespace Writes

variable {K L : List Nat} {s x y : State} {f : Field} {i v : Nat}

theorem of_csr (h : y.csr = s.csr) : Writes K s y := fun f j _ => by unfold State.rdAt; rw [h]

theorem refl (K : List Nat) (s : State) : Writes K s s := of_csr rfl

/-- An operation that leaves the register file as it is. -/
theorem of_frame {P : List Part} (h : Frame P s y) (hcsr : Part.csr ∉ P) : Writes K s y :=
  of_csr (congrArg Prod.fst (h.same .csr hcsr))

theorem then_ (h : Writes K s x) (g : Writes L x y) (hsub : L ⊆ K) : Writes K s y :=
  fun f j hkey => (g f j fun hmem => hkey (hsub hmem)).trans (h f j hkey)

theorem wrAt (h : Writes K s x) (hkey : f.key i ∈ K) : Writes K s (x.wrAt f i v) :=
  by
  intro g j hne
  have hother : g.key j ≠ f.key i := fun he => hne (he ▸ hkey)
  exact (x.rdAt_wrAt_ne v hother).trans (h g j hne)

theorem wr (h : Writes K s x) (hkey : f.key 0 ∈ K) : Writes K s (x.wr f v) := h.wrAt hkey

theorem addAt (h : Writes K s x) (hkey : f.key i ∈ K) : Writes K s (x.addAt f i v) := h.wrAt hkey

theorem inc (h : Writes K s x) (hkey : f.key 0 ∈ K) : Writes K s (x.inc f) := h.wrAt hkey

theorem ite {c : Prop} [Decidable c] (h : Writes K s x) (g : Writes K s y) : Writes K s (if c then x else y) := by
  split
  · exact h
  · exact g

end Writes

namespace AnswerWrites

variable {K : List Nat} {s x : State} {r r' : Res}

theorem next (h : Writes K s x) : AnswerWrites K s (.next x) := by
  rintro t ⟨⟩
  exact h

/-- A command that does nothing where it is not its turn. -/
theorem ite_same {c : Prop} [Decidable c] (h : AnswerWrites K s r) : AnswerWrites K s (if c then r else .next s) := by
  split
  · exact h
  · exact next (.refl K s)

end AnswerWrites

/-! ## Shared operations -/

section

variable (s : State)

theorem State.sampleInput_writes (mv : Nat) : Writes inputKeys s (s.sampleInput mv) := by
  have hnow : Writes inputKeys s (s.wr R.PWR_VIN_NOW mv) := (Writes.refl _ s).wr (by decide)
  have hmin := Writes.ite (c := mv < (s.wr R.PWR_VIN_NOW mv).rd R.PWR_VIN_MIN)
    (hnow.wr (f := R.PWR_VIN_MIN) (v := mv) (by decide)) hnow
  exact Writes.ite (hmin.wr (by decide)) hmin

theorem Writes.sampleInput {K : List Nat} {x : State} {mv : Nat} (h : Writes K s x) (hsub : inputKeys ⊆ K) :
    Writes K s (x.sampleInput mv) := h.then_ (x.sampleInput_writes mv) hsub

theorem Writes.setBand {K : List Nat} {x : State} {b : Nat} (h : Writes K s x) (hkey : R.PWR_STATUS_BAND.key 0 ∈ K) :
    Writes K s (x.setBand b) := (h.wr hkey).ite (h.wr hkey)

theorem State.sampleCurrent_writes (current : Nat) : Writes currentKeys s (s.sampleCurrent current) :=
  ((((Writes.refl _ s).wr (by decide)).wr (by decide)).wr (by decide)).wr (by decide)

theorem State.assertThrottle_writes :
    Writes [R.PWR_STATUS_THROTTLE.key 0, R.PWR_EVENT_THROTTLE_SEEN.key 0, R.PWR_COUNT_THROTTLE.key 0] s s.assertThrottle :=
  (((Writes.refl _ s).wr (by decide)).wr (by decide)).inc (by decide)

theorem State.showStretch_writes (r : Nat) : Writes [R.CLK_RGN_STATUS_STRETCHING.key r] s (s.showStretch r) :=
  Writes.wrAt (.of_csr rfl) (List.mem_singleton_self _)

theorem State.showStretches_writes {n : Nat} (hn : n ≤ 24) : Writes stretchKeys s (s.showStretches n) := by
  induction n with
  | zero => exact .refl _ s
  | succ n ih =>
    have hmem : R.CLK_RGN_STATUS_STRETCHING.key n ∈ stretchKeys := List.mem_map_of_mem (List.mem_range.mpr hn)
    exact (ih (by omega)).then_ (State.showStretch_writes _ n) (by simpa using hmem)

theorem State.releaseThrottle_writes : Writes (stretchKeys ++ [R.PWR_STATUS_THROTTLE.key 0]) s s.releaseThrottle := by
  have hclear : Writes (stretchKeys ++ [R.PWR_STATUS_THROTTLE.key 0]) s
      ({ s with clk := { s.clk with throttle := false } }.wr R.PWR_STATUS_THROTTLE 0) := Writes.wr (.of_csr rfl) (by decide)
  exact hclear.then_ (State.showStretches_writes _ le_rfl) (List.subset_append_left ..)

theorem State.startTaper_writes (w : Nat) :
    Writes [R.PWR_STATUS_TAPER.key 0, R.PWR_EVENT_TAPER_SEEN.key 0, R.PWR_COUNT_TAPER.key 0] s (s.startTaper w) := by
  refine ((Writes.wr ?_ (by decide)).wr (by decide)).inc (by decide)
  exact .of_csr rfl

theorem State.dieReads_writes (n : Nat) :
    Writes [R.OLC_CACHE_HITS.key 0, R.OLC_CACHE_MISSES.key 0, R.OBS_CNT_COUNT.key 6100] s (s.dieReads n) := by
  refine Writes.then_ (L := []) (Writes.wrAt (Writes.addAt (Writes.addAt (.refl _ s) ?_) ?_) ?_) (.of_csr rfl) (List.nil_subset _)
  all_goals decide

/-- Benches that wait at a crossing go on: the state of the sequencer of each, and no other field. -/
theorem State.rdAt_resumeAt {f : Field} {j : Nat} (key : Nat) (hne : ∀ b, f.key j ≠ R.BCH_SEQ_STATUS_STATE.key b) :
    (s.resumeAt key).rdAt f j = s.rdAt f j := by
  have hresume (u : State) (b : Nat) : (u.resume b).rdAt f j = u.rdAt f j := by
    unfold State.resume
    split
    · rfl
    · rw [State.rdAt_wrAt_ne _ _ (hne b)]
      rfl
  unfold State.resumeAt
  refine foldl_keeps (fun u : State => u.rdAt f j) _ (fun u e => ?_) _ s
  split
  · exact hresume u _
  · rfl

end

/-! ## The commands -/

section

variable (s : State)

theorem execStandbyStart_writes (mv : Nat) : AnswerWrites inputKeys s (execStandbyStart mv s) := by
  refine .ite_same (.next (Writes.wr (Writes.wr (Writes.wr (.of_csr rfl) ?_) ?_) ?_))
  all_goals decide

theorem execPrechargeDone_writes : AnswerWrites [R.PWR_STATUS_PRECHARGE_DONE.key 0] s (execPrechargeDone s) :=
  .ite_same (.next (Writes.wr (.of_csr rfl) (by decide)))

theorem execWriteInhibitEntry_writes (mv : Nat) :
    AnswerWrites (inputKeys ++ [R.PWR_EVENT_INHIBIT_SEEN.key 0, R.PWR_COUNT_INHIBIT.key 0, R.PWR_STATUS_NV_INHIBIT.key 0,
      R.PWR_STATUS_BAND.key 0]) s (execWriteInhibitEntry mv s) := by
  refine .ite_same (.next (Writes.wr (Writes.inc (Writes.wr (Writes.setBand _ (Writes.sampleInput _ (.of_csr rfl) ?_) ?_)
    ?_) ?_) ?_))
  all_goals decide

theorem execSagBandEntry_writes (mv : Nat) :
    AnswerWrites (R.PWR_STATUS_BAND.key 0 :: inputKeys) s (execSagBandEntry mv s) := by
  have hband (u : State) (b : Nat) (hcsr : u.csr = s.csr) :
      Writes (R.PWR_STATUS_BAND.key 0 :: inputKeys) s ((u.sampleInput mv).setBand b) :=
    ((Writes.of_csr hcsr).sampleInput s (by decide)).setBand s (by decide)
  unfold execSagBandEntry
  split
  · exact .next (hband _ _ rfl)
  · exact .ite_same (.next (hband _ _ rfl))

theorem execNormalBandEntry_writes (mv : Nat) :
    AnswerWrites (R.PWR_STATUS_OV.key 0 :: R.PWR_STATUS_BAND.key 0 :: inputKeys) s (execNormalBandEntry mv s) := by
  refine .ite_same (.next (Writes.setBand _ (Writes.wr (Writes.sampleInput _ (.of_csr rfl) ?_) ?_) ?_))
  all_goals decide

theorem execCurrentThrottleAssert_writes (current : Nat) :
    AnswerWrites (currentKeys ++ [R.PWR_STATUS_THROTTLE.key 0, R.PWR_EVENT_THROTTLE_SEEN.key 0, R.PWR_COUNT_THROTTLE.key 0]) s
      (execCurrentThrottleAssert current s) := by
  refine .ite_same (.next (Writes.then_ (Writes.then_ (.refl _ s) (State.sampleCurrent_writes s current) ?_)
    (State.assertThrottle_writes _) ?_))
  all_goals decide

theorem execCurrentThrottleRelease_writes (current : Nat) :
    AnswerWrites (stretchKeys ++ R.PWR_STATUS_THROTTLE.key 0 :: currentKeys) s (execCurrentThrottleRelease current s) := by
  refine .ite_same (.next (Writes.then_ (Writes.then_ (.refl _ s) (State.sampleCurrent_writes s current) ?_)
    (State.releaseThrottle_writes _) ?_))
  all_goals decide

theorem execCoolantReentry_writes (temp flow : Nat) :
    AnswerWrites (stretchKeys ++ [R.PWR_STATUS_THROTTLE.key 0]) s (execCoolantReentry temp flow s) := by
  refine .ite_same (.next (Writes.ite (Writes.then_ ?_ (State.releaseThrottle_writes _) (List.Subset.refl _)) ?_))
  all_goals exact .of_csr rfl

theorem execFillLimitExpiry_writes :
    AnswerWrites [R.PWR_STATUS_FILL.key 0, R.PWR_STATUS_TAPER.key 0, R.PWR_EVENT_TAPER_SEEN.key 0, R.PWR_COUNT_TAPER.key 0] s
      (execFillLimitExpiry s) := by
  refine .ite_same (.next (Writes.then_ (Writes.wr (.of_csr rfl) ?_) (State.startTaper_writes _ _) ?_))
  all_goals decide

theorem execClearExtremes_writes :
    AnswerWrites [R.PWR_VIN_MIN.key 0, R.PWR_VIN_MAX.key 0, R.PWR_IIN_PEAK.key 0, R.PWR_IIN_SLEW_MAX.key 0] s
      (execClearExtremes s) := by
  refine .next (Writes.wr (Writes.wr (Writes.wr (Writes.wr (.refl _ s) ?_) ?_) ?_) ?_)
  all_goals decide

theorem execDroopStretchStart_writes (region : Fin 39) :
    AnswerWrites [R.CLK_RGN_STATUS_STRETCHING.key region] s (execDroopStretchStart region s) :=
  .next (Writes.then_ (.of_csr rfl) (State.showStretch_writes _ region) (List.Subset.refl _))

theorem execDroopStretchEnd_writes (region : Fin 39) :
    AnswerWrites [R.CLK_RGN_STATUS_STRETCHING.key region] s (execDroopStretchEnd region s) :=
  .next (Writes.then_ (.of_csr rfl) (State.showStretch_writes _ region) (List.Subset.refl _))

theorem execPllLockLost_writes (region : Fin 39) :
    AnswerWrites [R.CLK_RGN_STATUS_LOCK.key region, R.CLK_EVENT_LOCK_LOST.key 0] s (execPllLockLost region s) :=
  .next (Writes.wr (Writes.wrAt (.refl _ s) (by simp)) (by simp))

theorem execTimeMapReceived_writes (pkt : TimePkt) :
    AnswerWrites [R.TAL_MAP_TALLY_TICKS.key 0, R.TAL_MAP_S_ROOT.key 0, R.TAL_MAP_S_SECONDS.key 0, R.TAL_MAP_NS_FLAGS.key 0,
      R.TAL_MAP_NS_NS.key 0] s (execTimeMapReceived pkt s) := by
  unfold execTimeMapReceived
  split
  · refine .next (Writes.wr (Writes.wr (Writes.wr (Writes.wr (Writes.wr (.refl _ s) ?_) ?_) ?_) ?_) ?_)
    all_goals decide
  · exact .next (.of_frame (State.timeOther_frame s pkt) (by decide))

theorem execTalCapture_writes :
    AnswerWrites [R.TAL_CAPTURE_VAL_TICKS.key 0, R.PTP_CAPTURE_S_SECONDS.key 0, R.PTP_CAPTURE_NS_NS.key 0] s
      (execTalCapture s) := by
  refine .next (Writes.wr (Writes.wr (Writes.wr (.refl _ s) ?_) ?_) ?_)
  all_goals decide

theorem execIngestLinkUp_writes (port : Fin 2) :
    AnswerWrites [R.ITK_PORT_LINK_UP.key port, R.PTP_PORT_STATE.key port] s (execIngestLinkUp port s) := by
  have hup : Writes [R.ITK_PORT_LINK_UP.key port, R.PTP_PORT_STATE.key port] s (s.wrAt R.ITK_PORT_LINK_UP port 1) :=
    Writes.wrAt (.refl _ s) (by simp)
  exact .ite_same (.next (.ite (hup.wrAt (by simp)) hup))

theorem execIngestLinkDown_writes (port : Fin 2) :
    AnswerWrites [R.ITK_PORT_LINK_UP.key port] s (execIngestLinkDown port s) := .next (Writes.wrAt (.refl _ s) (by simp))

/-- The keys of `ITK_RING_RESET` in `writtenKeys`. -/
def ringResetKeys (ctx : Nat) : List Nat := [R.ITK_RING_FAULT.key ctx, R.ITK_RING_CONSUMER.key ctx, R.OLC_CACHE_HITS.key 0,
  R.OLC_CACHE_MISSES.key 0, R.OBS_CNT_COUNT.key 6100, R.OLC_ERR_LOST.key 0]

theorem execItkRingReset_writes (ctx : Fin 16) : AnswerWrites (ringResetKeys ctx) s (execItkRingReset ctx s) := by
  have hfault : R.ITK_RING_FAULT.key ctx ∈ ringResetKeys ctx := by simp [ringResetKeys]
  have hread : Writes (ringResetKeys ctx) s (s.dieReads 1) :=
    (Writes.refl _ s).then_ (s.dieReads_writes 1) (by simp [ringResetKeys])
  have hlost : Writes (ringResetKeys ctx) s s.olicoLost := (Writes.refl _ s).inc (by simp [ringResetKeys])
  unfold execItkRingReset
  split
  · exact .next (((hread.ite hlost).wrAt hfault).wrAt (by simp [ringResetKeys]))
  · exact .next ((Writes.refl _ s).wrAt hfault)

theorem State.sendMarker_writes (p : Nat) (depart : Stamp) :
    Writes [R.HAUL_MARKER_COUNT_TX.key p] s (s.sendMarker p depart) := by
  refine Writes.wrAt (Writes.of_frame (P := [.haul, .sent]) (Frame.then_ ?_ (State.sendPlain_frame ..) ?_) ?_) (by simp)
  · exact (Frame.refl _ s).then_ (s.setPort_frame ..) (by decide)
  · decide
  · decide

theorem execMarkerDue_writes (port : Fin 16) (depart : Stamp) :
    AnswerWrites [R.HAUL_MARKER_COUNT_TX.key port] s (execMarkerDue port depart s) :=
  .ite_same (.next (.ite (.of_csr rfl) (Writes.then_ (.of_csr rfl) (State.sendMarker_writes _ port depart) (List.Subset.refl _))))

theorem execOlicoNoProgress_writes :
    AnswerWrites [R.OLC_STATUS_STATE.key 0, R.OLC_ERR_DOWNS.key 0, R.OLC_EVENT_DOWN.key 0] s (execOlicoNoProgress s) := by
  refine .ite_same (.next (Writes.wr (Writes.inc (Writes.wr (.refl _ s) ?_) ?_) ?_))
  all_goals decide

theorem execCsrAccessError_writes (offset width : Nat) :
    AnswerWrites [R.OLC_ERR_BAD_CSR.key 0, R.OLC_EVENT_BAD_CSR.key 0] s (execCsrAccessError offset width s) := by
  have hbad : Writes [R.OLC_ERR_BAD_CSR.key 0, R.OLC_EVENT_BAD_CSR.key 0] s s.badCsr :=
    ((Writes.refl _ s).inc (by decide)).wr (by decide)
  have hemit (e : Emission) : Writes [R.OLC_ERR_BAD_CSR.key 0, R.OLC_EVENT_BAD_CSR.key 0] s (s.badCsr.emit e) :=
    hbad.then_ (L := []) (.of_csr rfl) (List.nil_subset _)
  unfold execCsrAccessError
  split
  · exact .next (hemit _)
  · split
    · exact .next (hemit _)
    · exact .next (.refl _ s)

theorem execChangeNextWrite_writes (value : Nat) :
    AnswerWrites [R.OLC_CHANGE_NEXT_ID.key 0, R.OLC_CHANGE_NEXT_KIND.key 0, R.OLC_CHANGE_NEXT_CONTEXT.key 0,
      R.OLC_CHANGE_NEXT_FRESH.key 0] s (execChangeNextWrite value s) := by
  refine .next (Writes.wr (Writes.wr (Writes.wr (Writes.wr (.refl _ s) ?_) ?_) ?_) ?_)
  all_goals decide

theorem execFltRelease_writes : AnswerWrites [R.FLT_STATUS_DIE_HELD.key 0] s (execFltRelease s) := by
  unfold execFltRelease
  split
  · exact .next (.refl _ s)
  · exact .next ((Writes.refl _ s).wr (by decide))

theorem execRrcRelease_writes : AnswerWrites [R.RRC_STATUS_USED.key 0] s (execRrcRelease s) :=
  .next (Writes.wr (.of_csr rfl) (by decide))

theorem execTraceArm_writes : AnswerWrites [R.OBS_TRACE_STATUS_STATE.key 0] s (execTraceArm s) :=
  .next (Writes.wr (.of_csr rfl) (by decide))

theorem execTraceStop_writes : AnswerWrites [R.OBS_TRACE_STATUS_STATE.key 0] s (execTraceStop s) :=
  .ite_same (.next ((Writes.refl _ s).wr (by decide)))

theorem execStopNow_writes : AnswerWrites [R.OBS_TRACE_STATUS_STATE.key 0] s (execStopNow s) :=
  .ite_same (.next ((Writes.refl _ s).wr (by decide)))

theorem execTraceStart_writes :
    AnswerWrites [R.OBS_TRACE_STATUS_NEXT.key 0, R.OBS_TRACE_STATUS_WRAPPED.key 0, R.OBS_TRACE_STATUS_STATE.key 0] s
      (execTraceStart s) := by
  refine .ite_same (.next (Writes.wr (Writes.wr (Writes.wr (.of_csr rfl) ?_) ?_) ?_))
  all_goals decide

/-- A late entry writes the counts of its two regions and the event; the benches it wakes change their sequencer states. -/
theorem execLateEntry_rdAt {reader writer : Fin 39} {cycles : Nat} {t : State} {f : Field} {j : Nat}
    (hnext : execLateEntry reader writer cycles s = .next t) (hwriter : f.key j ≠ R.CLK_RGN_COUNT_LATE.key writer)
    (hreader : f.key j ≠ R.CLK_RGN_COUNT_LATE.key reader) (hevent : f.key j ≠ R.CLK_EVENT_LATE_ENTRY.key 0)
    (hbench : ∀ b, f.key j ≠ R.BCH_SEQ_STATUS_STATE.key b) : t.rdAt f j = s.rdAt f j := by
  unfold execLateEntry at hnext
  extract_lets key at hnext
  split at hnext
  · cases hnext
    rw [State.rdAt_resumeAt _ _ hbench, State.rdAt_wr_ne _ _ hevent]
    exact (State.rdAt_wrAt_ne _ _ hwriter).trans (State.rdAt_wrAt_ne _ _ hreader)
  · cases hnext
    rfl

end

/-- Every command that `writtenKeys` lists writes the fields of its list only. -/
theorem exec_writes {c : Instr} {l : List Nat} (hlist : writtenKeys c = some l) (s : State) : AnswerWrites l s (exec c s) := by
  cases c with
  | standbyStart mv => cases hlist; exact execStandbyStart_writes s mv
  | prechargeDone => cases hlist; exact execPrechargeDone_writes s
  | writeInhibitEntry mv => cases hlist; exact execWriteInhibitEntry_writes s mv
  | sagBandEntry mv => cases hlist; exact execSagBandEntry_writes s mv
  | normalBandEntry mv => cases hlist; exact execNormalBandEntry_writes s mv
  | currentThrottleAssert current => cases hlist; exact execCurrentThrottleAssert_writes s current
  | currentThrottleRelease current => cases hlist; exact execCurrentThrottleRelease_writes s current
  | coolantReentry temp flow => cases hlist; exact execCoolantReentry_writes s temp flow
  | fillLimitExpiry => cases hlist; exact execFillLimitExpiry_writes s
  | clearExtremes => cases hlist; exact execClearExtremes_writes s
  | droopStretchStart region => cases hlist; exact execDroopStretchStart_writes s region
  | droopStretchEnd region => cases hlist; exact execDroopStretchEnd_writes s region
  | pllLockLost region => cases hlist; exact execPllLockLost_writes s region
  | timeMapReceived pkt => cases hlist; exact execTimeMapReceived_writes s pkt
  | talCapture => cases hlist; exact execTalCapture_writes s
  | ingestLinkUp port => cases hlist; exact execIngestLinkUp_writes s port
  | ingestLinkDown port => cases hlist; exact execIngestLinkDown_writes s port
  | itkRingReset ctx => cases hlist; exact execItkRingReset_writes s ctx
  | markerDue port depart => cases hlist; exact execMarkerDue_writes s port depart
  | olicoNoProgress => cases hlist; exact execOlicoNoProgress_writes s
  | csrAccessError offset width => cases hlist; exact execCsrAccessError_writes s offset width
  | changeNextWrite value => cases hlist; exact execChangeNextWrite_writes s value
  | fltRelease => cases hlist; exact execFltRelease_writes s
  | rrcRelease => cases hlist; exact execRrcRelease_writes s
  | traceArm => cases hlist; exact execTraceArm_writes s
  | traceStop => cases hlist; exact execTraceStop_writes s
  | stopNow => cases hlist; exact execStopNow_writes s
  | traceStart => cases hlist; exact execTraceStart_writes s
  | _ => exact absurd hlist nofun

/-- Settles O45: each listed command by `exec_writes`, the late entry by the fields it writes and the benches it wakes. -/
theorem writtenRegisters : Obligations.WrittenRegisters := by
  unfold Obligations.WrittenRegisters
  constructor
  · intro c s t l f j hlist hnext hkey
    exact exec_writes hlist s t hnext f j hkey
  · intro reader writer cycles s t f j hnext hwriter hreader hevent hbench
    exact execLateEntry_rdAt s hnext hwriter hreader hevent hbench

end Sys2Proof.Machine
end

section
/-! Proof of `Obligations.RecvDeadlines`: the two deadline checks of a receive, in terms of `State.deadlineFailed`. -/

namespace Sys2Proof.Machine

open Sys2Proof

theorem entryKey_port (port : Fin 16) (entry : Fin 32768) : entryKey port entry / 32768 = port.val := by
  unfold entryKey
  omega

section

variable {s : State} {j : Job} {e : SchedEntry}

/-- The failed check at the limit of holds (R313). -/
theorem State.deadlineFailed_last {key : Nat} (hlimit : s.rd R.SCH_CFG_MAX_HOLDS ≤ (s.recvState key).fails + 1) :
    s.deadlineFailed j key e =
      ((s.onTelem (key / 32768) fun t => { t with misses := min (t.misses + 1) 65535 }).setRecv key
        { s.recvState key with fails := (s.recvState key).fails + 1, recheck := none }).stepFatal 13 0x07 7 (key / 32768) e.route
          (2 ^ e.ctx) := if_pos hlimit

/-- The failed check that asks for one more hold (R313). -/
theorem State.deadlineFailed_hold {key : Nat} (hlimit : (s.recvState key).fails + 1 < s.rd R.SCH_CFG_MAX_HOLDS) :
    s.deadlineFailed j key e =
      (((s.onTelem (key / 32768) fun t => { t with misses := min (t.misses + 1) 65535 }).setRecv key
        { s.recvState key with fails := (s.recvState key).fails + 1, recheck := some (j.recheckAt s.now 1) }).holdRequest 1 1).onTelem
          (key / 32768) fun t => { t with holds := min (t.holds + 1) 65535 } := if_neg (Nat.not_le.mpr hlimit)

variable {port : Fin 16} {entry : Fin 32768} (hjob : s.job? 7 = some j) (hentry : j.entry? (entryKey port entry) = some e)

include hjob hentry

theorem execRecvDeadlineCheck_done (hdone : (s.recvState (entryKey port entry)).done = true) :
    execRecvDeadlineCheck port entry s = .next s := by
  simp [execRecvDeadlineCheck, hjob, hentry, hdone]

theorem execRecvDeadlineCheck_missed (htype : e.type = .recv) (hrun : s.ctxRunning e.ctx = true)
    (hdue : s.due e.ctx e.tick = true)
    (hactive : s.variantActive e.ctx (if e.forkEn then some e.fork else none) e.variants = true)
    (hfails : (s.recvState (entryKey port entry)).fails = 0) (hdone : (s.recvState (entryKey port entry)).done = false) :
    execRecvDeadlineCheck port entry s = .next (s.deadlineFailed j (entryKey port entry) e) := by
  simp [execRecvDeadlineCheck, hjob, hentry, htype, hrun, hdue, hactive, hfails, hdone]

theorem execRepeatedDeadlineCheck_missed {n : Nat} (hrecheck : (s.recvState (entryKey port entry)).recheck = some n)
    (hcount : n ≤ s.now) (hrun : s.ctxRunning e.ctx = true) (hdone : (s.recvState (entryKey port entry)).done = false) :
    execRepeatedDeadlineCheck port entry s = .next (s.deadlineFailed j (entryKey port entry) e) := by
  simp [execRepeatedDeadlineCheck, hjob, hentry, hrecheck, hcount, hrun, hdone]

end

/-- Settles O59: the checks that fail are `State.deadlineFailed`, at the limit of holds or before it. -/
theorem recvDeadlines : Obligations.RecvDeadlines := by
  unfold Obligations.RecvDeadlines
  intro s port entry j e hjob hentry
  dsimp only
  rw [entryKey_port]
  refine ⟨execRecvDeadlineCheck_done hjob hentry, fun htype hrun hdue hactive hfails hdone => ?_,
    fun n hrecheck hcount hrun hdone hlimit => ?_⟩
  · have hmissed := execRecvDeadlineCheck_missed hjob hentry htype hrun hdue hactive hfails hdone
    refine ⟨fun hlimit => hmissed.trans ?_, fun hlimit => hmissed.trans ?_⟩
    · rw [State.deadlineFailed_last (by omega), hfails, entryKey_port]
    · rw [State.deadlineFailed_hold (by omega), hfails, entryKey_port]
  · refine (execRepeatedDeadlineCheck_missed hjob hentry hrecheck hcount hrun hdone).trans ?_
    rw [State.deadlineFailed_last hlimit, entryKey_port]

end Sys2Proof.Machine
end

section
/-! Proof of `Obligations.TwoPhaseArming`: the two outcomes of `State.armChange` that the statement speaks of, for any owning block, and
`PLN_ARM` as one of them. -/

namespace Sys2Proof.Machine

open Sys2Proof

section

variable {s : State} {kind ctx shown effect : Nat} {ok : Bool} {accept refuse : State → State} {p : Plan}

/-- No fresh change of the kind: the arming is refused (R371). -/
theorem State.armChange_unbound (hplan : s.changePlan kind ctx = some p) (hcount : 1 < p.count)
    (hstale : s.rd R.OLC_CHANGE_NEXT_FRESH = 0 ∨ s.rd R.OLC_CHANGE_NEXT_KIND ≠ kind) :
    s.armChange kind ctx shown effect ok accept refuse = (refuse s).wr R.OLC_EVENT_ARM_REFUSED 1 := by
  have hbind : (s.on R.OLC_CHANGE_NEXT_FRESH && s.rd R.OLC_CHANGE_NEXT_KIND == kind) = false := by
    rcases hstale with hfresh | hkind
    · simp [State.on, hfresh]
    · simp [hkind]
  simp [State.armChange, hplan, Nat.not_le.mpr hcount, hbind]

/-- The change that an arming opens, with the votes that came before it. -/
def State.openChange (s : State) (c : Change) : Change :=
  { c with votes := (if c.root = s.number then 1 else 0) +
      (match s.olc.changes.find? fun x => x.id == c.id && x.state == 0 with | some x => x.votes | none => 0) }

/-- The record of changes with the opened one in front. -/
def State.openChanges (s : State) (c : Change) : List Change :=
  s.openChange c :: s.olc.changes.filter fun x => !(x.id == c.id && x.state == 0)

/-- The state in which the owning block has accepted an arming and the change is recorded. -/
def State.armedWith (s : State) (c : Change) (accept : State → State) : State :=
  (accept (s.wr R.OLC_CHANGE_NEXT_FRESH 0)).setChanges ((s.wr R.OLC_CHANGE_NEXT_FRESH 0).openChanges c)

/-- A fresh change of the kind that the owning block accepts in time is armed (R371, R372). -/
theorem State.armChange_bound (hplan : s.changePlan kind ctx = some p) (hcount : 1 < p.count)
    (hfresh : s.rd R.OLC_CHANGE_NEXT_FRESH = 1) (hkind : s.rd R.OLC_CHANGE_NEXT_KIND = kind) (hlead : s.leadOk p = true)
    (htime : s.now + s.rd R.OLC_2PC_LEAD_TICKS ≤ effect) :
    let c := s.newChange p kind ctx shown effect
    let t := s.armedWith c accept
    s.armChange kind ctx shown effect true accept refuse =
      if c.root = s.number then t else t.sendService 8 c.root false (t.controlPkt 1 c).encode := by
  have hbind : ¬ (!(s.on R.OLC_CHANGE_NEXT_FRESH && s.rd R.OLC_CHANGE_NEXT_KIND == kind)) = true := by
    simp [State.on, hfresh, hkind]
  have hnumber : (s.wr R.OLC_CHANGE_NEXT_FRESH 0).number = s.number := by
    unfold State.number State.on
    rw [State.rd_wr_ne _ _ (by decide), State.rd_wr_ne _ _ (by decide)]
  have hlead' : (s.wr R.OLC_CHANGE_NEXT_FRESH 0).leadOk p = true := by
    simpa (disch := decide) only [State.leadOk, State.rd_wr_ne] using hlead
  have hlate : ¬ effect < (s.wr R.OLC_CHANGE_NEXT_FRESH 0).now + (s.wr R.OLC_CHANGE_NEXT_FRESH 0).rd R.OLC_2PC_LEAD_TICKS := by
    simpa (disch := decide) only [State.now, State.rd_wr_ne, Nat.not_lt] using htime
  intro c t
  unfold State.armChange
  rw [hplan]
  dsimp only
  rw [if_neg (Nat.not_le.mpr hcount), if_neg hbind, if_pos (by simpa [hlead'] using hlate), hnumber]
  by_cases hroot : c.root = s.number
  · rw [if_pos hroot, if_pos rfl]
    simp only [t, State.armedWith, State.openChanges, State.openChange, hnumber, if_pos hroot]
    rfl
  · rw [if_neg hroot, if_neg Nat.zero_ne_one]
    simp only [t, State.armedWith, State.openChanges, State.openChange, hnumber, if_neg hroot]
    rfl

end

section

variable (s : State)

/-- Showing the changes writes no word of OLC_CHANGE_NEXT. -/
theorem State.setChanges_rd_fresh (l : List Change) :
    (s.setChanges l).rd R.OLC_CHANGE_NEXT_FRESH = s.rd R.OLC_CHANGE_NEXT_FRESH := by
  refine foldl_keeps (fun u : State => u.rd R.OLC_CHANGE_NEXT_FRESH) _ (fun u e => ?_) _ _
  unfold State.showChange
  simp (disch := (simp only [Field.key, R.OLC_CHANGE_NEXT_FRESH, R.OLC_CHANGE_ID, R.OLC_CHANGE_KIND, R.OLC_CHANGE_STATE,
    R.OLC_CHANGE_REASON, R.OLC_CHANGE_VOTES, R.OLC_CHANGE_AT]; omega)) only [State.rd_wrAt_ne]

theorem State.showChange_olc (i : Nat) (c : Change) : (s.showChange i c).olc = s.olc :=
  (s.showChange_frame i c).same .olc (by decide)

theorem State.setChanges_mem (c : Change) (l : List Change) : c ∈ (s.setChanges (c :: l)).olc.changes := by
  have holc := foldl_keeps State.olc (fun u (e : Change × Nat) => u.showChange e.2 e.1) fun u e => u.showChange_olc e.2 e.1
  unfold State.setChanges
  rw [holc]
  simp

end

/-! ## `PLN_ARM` -/

/-- PLN_ARM accepts: the plan stage is armed at the count (R159). -/
def State.planArmed (s : State) (a : Nat) : State := { s with pln := { s.pln with armed := true, actAt := a } }.showAct

/-- PLN_ARM is refused; outside a load phase that ends stage 15 (R159, R413). -/
def State.planArmRefused (s : State) (code : Nat) : State :=
  let t := s.planRefusedWith (if code = 0 then 0x0D else code)
  if s.pln.loading then t else t.startExit 15

section

variable (s : State)

theorem State.planRefusedWith_rd_event (code : Nat) : (s.planRefusedWith code).rd R.PLN_EVENT_REFUSED = 1 := by
  simp (disch := decide) only [State.planRefusedWith, State.planRefused, State.rd_wr_ne, State.rd_wr_same]
  rfl

theorem State.planArmRefused_pln (code : Nat) : (s.planArmRefused code).pln = s.pln := by
  unfold State.planArmRefused
  extract_lets t
  split
  · rfl
  · rw [State.startExit_keeps_pln]
    rfl

theorem State.planArmRefused_rd_event (code : Nat) : (s.planArmRefused code).rd R.PLN_EVENT_REFUSED = 1 := by
  unfold State.planArmRefused
  extract_lets t
  split
  · exact s.planRefusedWith_rd_event _
  · exact ((State.startExit_recorded _ 15).rd R.PLN_EVENT_REFUSED 0 (by decide)).trans (s.planRefusedWith_rd_event _)

theorem State.planArmed_pln (a : Nat) : (s.planArmed a).pln = { s.pln with armed := true, actAt := a } := by
  simp [State.planArmed]

theorem State.planArmed_rd_fresh (a : Nat) : (s.planArmed a).rd R.OLC_CHANGE_NEXT_FRESH = s.rd R.OLC_CHANGE_NEXT_FRESH :=
  State.rd_wr_ne _ _ (by decide)

theorem State.armedWith_planArmed_pln (c : Change) (a : Nat) :
    (s.armedWith c (State.planArmed · a)).pln = { s.pln with armed := true, actAt := a } := by
  unfold State.armedWith
  rw [(State.setChanges_frame ..).same .pln (by decide), State.planArmed_pln]
  rfl

theorem State.armedWith_planArmed_fresh (c : Change) (a : Nat) :
    (s.armedWith c (State.planArmed · a)).rd R.OLC_CHANGE_NEXT_FRESH = 0 := by
  unfold State.armedWith
  rw [State.setChanges_rd_fresh, State.planArmed_rd_fresh, State.rd_wr_same]
  rfl

theorem State.openChange_mem_armedWith (c : Change) (accept : State → State) :
    (s.wr R.OLC_CHANGE_NEXT_FRESH 0).openChange c ∈ (s.armedWith c accept).olc.changes := State.setChanges_mem _ _ _

variable {s}

/-- Outside a load phase PLN_ARM is the change of KIND 1 with `State.planArmed` and `State.planArmRefused`. -/
theorem execPlnArm_armChange (twinFault : Bool) (hload : s.pln.loading = false) :
    execPlnArm twinFault s = .next (s.armChange 1 0 (s.last R.PLN_ACT_AT_AT) (s.last R.PLN_ACT_AT_AT)
      (s.armCode (s.last R.PLN_ACT_AT_AT) twinFault == 0) (State.planArmed · (s.last R.PLN_ACT_AT_AT))
      (State.planArmRefused · (s.armCode (s.last R.PLN_ACT_AT_AT) twinFault))) := by
  unfold execPlnArm
  dsimp only
  rw [if_neg (by simp [hload])]
  rfl

end

/-- Settles O60: PLN_ARM is a two-phase arming, refused without a fresh change and recorded with one. -/
theorem twoPhaseArming : Obligations.TwoPhaseArming := by
  unfold Obligations.TwoPhaseArming
  intro s twinFault p hplan hcount hload a
  have hchange : s.changePlan 1 0 = some p := hplan
  have harm : exec (.plnArm twinFault) s = _ := execPlnArm_armChange twinFault hload
  refine ⟨fun hstale => ⟨_, harm, ?_⟩, fun hfresh hkind hcode hlead htime => ?_⟩
  · rw [State.armChange_unbound hchange hcount hstale]
    refine ⟨State.planArmRefused_pln s _, ?_, State.rd_wr_same _ _ _⟩
    exact (State.rd_wr_ne _ _ (by decide)).trans (State.planArmRefused_rd_event s _)
  · have hopen := s.openChange_mem_armedWith (s.newChange p 1 0 a a) (State.planArmed · a)
    rw [hcode, beq_self_eq_true, State.armChange_bound hchange hcount hfresh hkind hlead htime] at harm
    refine ⟨_, harm, ?_⟩
    by_cases hroot : (s.newChange p 1 0 a a).root = s.number
    · rw [if_pos hroot]
      exact ⟨s.armedWith_planArmed_pln _ a, ⟨_, hopen, rfl, rfl, rfl, rfl⟩, fun _ => s.armedWith_planArmed_fresh _ a⟩
    · rw [if_neg hroot, (State.sendService_frame ..).same .pln (by decide), (State.sendService_frame ..).same .olc (by decide)]
      exact ⟨s.armedWith_planArmed_pln _ a, ⟨_, hopen, rfl, rfl, rfl, rfl⟩, fun hself => absurd hself hroot⟩

end Sys2Proof.Machine
end

section
/-! Proof of `Obligations.ResetSound` and `Obligations.ResetValues`: the state after reset. -/

namespace Sys2Proof.Machine

open Sys2Proof

/-- Settles O42: empty memory and register file, and the lists at their lengths. -/
theorem resetSound : Obligations.ResetSound := ⟨rfl, rfl, List.length_replicate, List.length_replicate⟩

/-- No field has been written after reset. -/
theorem State.reset_rdAt (f : Field) (i : Nat) : State.reset.rdAt f i = f.reset := rfl

/-- Settles O41: every store is empty, so each read answers its default. -/
theorem resetValues : Obligations.ResetValues := by
  refine ⟨State.reset_rdAt, fun _ => rfl, rfl, fun _ _ _ => rfl, ?_, ?_, ?_, fun p => State.reset_rdAt _ p, ?_⟩
  · exact State.reset_rdAt R.GEN_MODE_STRICT 0
  · exact State.reset_rdAt R.TAL_STATUS_ROLE 0
  · exact State.reset_rdAt R.TAL_NOW_TICKS 0
  · exact ⟨State.reset_rdAt R.PWR_CTRL_AUTO_RESTART 0, State.reset_rdAt R.PWR_RAMP_BUDGET_W_PER_MS 0,
      State.reset_rdAt R.SCH_CFG_MAX_HOLDS 0, State.reset_rdAt R.OLC_2PC_LEAD_TICKS 0, State.reset_rdAt R.OLC_2PC_VOTE_TICKS 0,
      State.reset_rdAt R.TOP_MODULE_NUMBER 0, State.reset_rdAt R.FLT_STATUS_DEPTH 0⟩

end Sys2Proof.Machine
end

section
/-! Proof of `Obligations.IdleTicks`. The parts of a tick that run after the Tally has counted write no field at or below TAL_NOW, so
its count stands (`_now`); and bytes of memory change only where data come out of the queue of a crossing (`Spared`). -/

namespace Sys2Proof.Machine

open Sys2Proof

/-! ## The count of the Tally -/

section

variable (s : State)

theorem State.now_of_csr {s t : State} (h : t.csr = s.csr) : t.now = s.now := by unfold State.now State.rd State.rdAt; rw [h]

/-- An operation that leaves the register file as it is. -/
theorem State.now_of_frame {s t : State} {P : List Part} (h : Frame P s t) (hcsr : Part.csr ∉ P) : t.now = s.now :=
  State.now_of_csr (congrArg Prod.fst (h.same .csr hcsr))

/-- The fields of the blocks above TAL_NOW. -/
theorem State.wrAt_now {f : Field} (i v : Nat) (h : R.TAL_NOW_TICKS.addr < f.addr) : (s.wrAt f i v).now = s.now := by
  refine State.rd_wrAt_ne s v ?_
  unfold Field.key
  simp only [R.TAL_NOW_TICKS] at h ⊢
  have hstride := Nat.zero_le (i * f.stride)
  omega

theorem State.trace_now (g f source u c : Nat) : (s.trace g f source u c).now = s.now :=
  s.trace_rdAt_out _ 0 g f source u c (by decide)

theorem State.stallAt_now (key b : Nat) : (s.stallAt key b).now = s.now := by
  unfold State.stallAt
  extract_lets t
  split
  · exact State.wrAt_now _ _ _ (by decide)
  · rfl

theorem State.enterCrossing_now (k : Nat) (r : MeshRoute) (pos : Nat) (x : Crossing) (i : Nat) :
    (s.enterCrossing k r pos x i).now = s.now := by
  unfold State.enterCrossing
  extract_lets
  split
  · exact State.stallAt_now _ _ _
  · rfl

theorem State.moveFlits_now (r : MeshRoute) : (s.moveFlits r).now = s.now := by
  unfold State.moveFlits
  extract_lets k pos l t
  have hstall : t.now = s.now := by
    unfold t
    split
    · exact State.stallAt_now _ _ _
    · rfl
  split
  · exact hstall
  · have hleave (u : State) : (match l.getLast? with | some (x, i) => u.leaveCrossing k r pos x i | none => u).now = u.now := by
      split
      · exact State.now_of_frame (State.leaveCrossing_frame ..) (by decide)
      · rfl
    refine (foldl_keeps State.now _ (fun u e => ?_) _ _).trans ((hleave t).trans hstall)
    exact u.enterCrossing_now k r pos e.1 e.2

theorem State.tickMesh_now : s.tickMesh.now = s.now := by
  refine foldl_keeps State.now _ (fun u r => ?_) _ _
  exact u.moveFlits_now r

theorem State.fill_now (d : Delivery) : (s.fill d).1.now = s.now := by
  unfold State.fill
  split
  · rfl
  · extract_lets room got t full u
    change u.now = s.now
    unfold u
    split
    · exact State.stallAt_now _ _ _
    · rfl
    · rfl

theorem State.enter_now (i : Nat) : (s.enter i).now = s.now := by
  unfold State.enter
  split
  · rfl
  · split
    · rfl
    · exact s.fill_now _

theorem State.resume_now (b : Nat) : (s.resume b).now = s.now := by
  unfold State.resume
  split
  · rfl
  · exact State.wrAt_now _ _ _ (by decide)

theorem State.spanEnds_now (b : Nat) : (s.spanEnds b).now = s.now := by
  unfold State.spanEnds
  extract_lets x
  split
  · rfl
  · extract_lets wait t u
    split
    · exact State.wrAt_now _ _ _ (by decide)
    · exact (State.wrAt_now _ _ _ (by decide)).trans (State.wrAt_now _ _ _ (by decide))

theorem State.bumpCounter_now (b i : Nat) : (s.bumpCounter b i).now = s.now := by
  unfold State.bumpCounter
  extract_lets n t u
  have hspan : u.now = s.now := by
    unfold u
    split
    · split
      · exact t.spanEnds_now b
      · rfl
    · rfl
  split
  · split
    · exact (u.resume_now b).trans hspan
    · exact hspan
  · exact hspan

theorem State.setBytes_now (a : Nat) (l : List Byte) : (s.setBytes a l).now = s.now :=
  State.now_of_frame (s.setBytes_frame a l) (by decide)

theorem State.deliver_now (d : Delivery) : (s.deliver d).now = s.now := by
  unfold State.deliver
  extract_lets t u
  have hcount : u.now = s.now := by
    unfold u
    split
    · exact (State.bumpCounter_now _ _ _).trans (s.setBytes_now _ _)
    · exact s.setBytes_now _ _
  split
  · exact hcount
  · split
    · exact hcount
    · exact hcount

theorem State.tickQueues_now : s.tickQueues.now = s.now := by
  unfold State.tickQueues
  extract_lets _ t u done l _ v w
  have henter : u.now = s.now := foldl_keeps State.now State.enter State.enter_now _ _
  have hdeliver : w.now = s.now := (foldl_keeps State.now State.deliver State.deliver_now _ _).trans henter
  refine (foldl_keeps State.now _ (fun u x => ?_) _ _).trans hdeliver
  split
  · exact u.stallAt_now _ _
  · rfl

theorem State.sendSeq_now (p type : Nat) (data : List Byte) : (s.sendSeq p type data).now = s.now := by
  unfold State.sendSeq
  extract_lets h n b t u v
  refine (State.wrAt_now _ _ _ (by decide)).trans ?_
  refine (State.wrAt_now _ _ _ (by decide)).trans ((State.wrAt_now _ _ _ (by decide)).trans ?_)
  exact (State.now_of_frame (State.putBlock_frame ..) (by decide)).trans rfl

theorem State.sendSched_now (p : Nat) (l : List (List Byte)) : (s.sendSched p l).now = s.now := by
  induction l generalizing s with
  | nil => rfl
  | cons d t ih =>
    unfold State.sendSched
    split
    · exact (ih _).trans (s.sendSeq_now p 1 d)
    · rfl

theorem State.useShare_now (j : Job) (p : Nat) : (s.useShare j p).now = s.now := by
  unfold State.useShare
  split
  · rfl
  · rfl

theorem State.tickLeases_now : s.tickLeases.now = s.now := by
  unfold State.tickLeases
  split
  · rfl
  · refine foldl_keeps State.now _ (fun u b => ?_) _ _
    split
    · rfl
    · exact (State.sendSched_now _ _ _).trans (State.useShare_now _ _ _)

theorem State.departShared_now (j : Job) (p ctx : Nat) (l : List (List Byte)) : (s.departShared j p ctx l).now = s.now := by
  unfold State.departShared
  split
  · exact s.sendSched_now p _
  · refine foldl_keeps State.now _ (fun u d => ?_) _ _
    split
    · exact State.rd_wr_ne _ _ (by decide)
    · exact (State.sendSched_now _ _ _).trans (State.useShare_now _ _ _)

theorem State.departEntry_now (j : Job) (key : Nat) (e : SchedEntry) : (s.departEntry j key e).now = s.now := by
  unfold State.departEntry
  extract_lets x
  split
  · exact (State.wrAt_now _ _ _ (by decide)).trans (State.wrAt_now _ _ _ (by decide))
  · exact (State.departShared_now _ _ _ _ _).trans (s.trace_now _ _ _ _ _)
  · exact State.wrAt_now _ _ _ (by decide)

theorem State.tickSends_now : s.tickSends.now = s.now := by
  unfold State.tickSends
  split
  · rfl
  · refine foldl_keeps State.now _ (fun u x => ?_) _ _
    split
    · exact u.departEntry_now _ _ _
    · rfl

theorem State.sendPlain_now (p type : Nat) (data : List Byte) : (s.sendPlain p type data).now = s.now :=
  State.now_of_frame (State.sendPlain_frame ..) (by decide)

theorem State.sendLane_now (p : Nat) (m : LaneMsg) (n : Nat) : (s.sendLane p m n).now = s.now := by
  induction n generalizing s with
  | zero => rfl
  | succ n ih => exact (ih _).trans (s.sendPlain_now p 8 _)

theorem State.setTrain_now (p n : Nat) : (s.setTrain p n).now = s.now := by
  unfold State.setTrain
  extract_lets t
  have htrain : t.now = s.now := (State.trace_now _ _ _ _ _ _).trans (State.wrAt_now _ _ _ (by decide))
  split
  · exact htrain
  · exact htrain

theorem State.enterEcho_now (p : Nat) (a : Announce) : (s.enterEcho p a).now = s.now := by
  unfold State.enterEcho
  extract_lets t u v w _ x
  have ht : t.now = s.now := by
    simp (disch := decide) only [t, State.wrAt_now]
  have hu : u.now = t.now := by
    simp (disch := decide) only [u, State.wrAt_now]
  have hv : v.now = u.now := u.wrAt_now _ _ (by decide)
  have hw : w.now = v.now := v.wrAt_now _ _ (by decide)
  have hx : x.now = w.now := State.now_of_csr (w.setPort_keeps_csr p _)
  exact (x.setTrain_now p 5).trans (hx.trans (hw.trans (hv.trans (hu.trans ht))))

theorem State.exchangeEnd_now (p : Nat) : (s.exchangeEnd p).now = s.now := by
  unfold State.exchangeEnd
  extract_lets h
  split
  · split
    · exact s.enterEcho_now p _
    · rfl
  · rfl

theorem State.sendAnnounce_now (p : Nat) : (s.sendAnnounce p).now = s.now := by
  unfold State.sendAnnounce
  extract_lets a t
  have hsend : t.now = s.now := s.sendPlain_now p 7 _
  split
  · exact hsend
  · exact hsend

theorem State.repeatDone_now (p : Nat) : (s.repeatDone p).now = s.now := by
  unfold State.repeatDone
  extract_lets h
  split
  · rfl
  · split
    · rfl
    · split
      · exact State.sendLane_now _ _ _ _
      · rfl

theorem State.tickLink_now (p : Nat) : (s.tickLink p).now = s.now := by
  unfold State.tickLink
  extract_lets t
  have hport : t.now = s.now := by
    unfold t
    split
    · exact (State.exchangeEnd_now _ p).trans (s.sendAnnounce_now p)
    · exact s.repeatDone_now p
  split
  · exact (t.sendPlain_now p 0 []).trans hport
  · exact hport

theorem State.tickLinks_now : s.tickLinks.now = s.now := foldl_keeps State.now State.tickLink State.tickLink_now _ _

theorem State.takeEnergy_now : s.takeEnergy.now = s.now := State.rd_wr_ne _ _ (by decide)

/-- While the Tally runs a tick counts once (R52). -/
theorem State.tick_now (hrun : s.tal.running = true) : s.tick.now = (s.now + 1) % 2 ^ 64 := by
  unfold State.tick
  rw [if_pos hrun]
  extract_lets t _ u v
  have hcount : t.now = (s.now + 1) % 2 ^ 64 := (State.takeEnergy_now _).trans (State.rd_wr_same _ _ _)
  have hptp : u.now = t.now := by
    unfold u
    split
    · rfl
    · rfl
  have hstep : v.now = u.now := by
    unfold v
    split
    · exact State.wrAt_now _ _ _ (by decide)
    · rfl
  refine (foldl_keeps State.now _ (fun w e => ?_) _ _).trans (hstep.trans (hptp.trans hcount))
  exact w.wrAt_now (f := R.PLN_CTX_STEP_POS) _ _ (by decide)

end

/-! ## Bytes of memory -/

/-- None of the data in the queues of crossings goes to the address. -/
def State.Spared (s : State) (a : Nat) : Prop := ∀ d ∈ s.scr.queue, a < d.addr ∨ d.addr + d.bytes.length ≤ a

section

variable {s : State} {a : Nat}

theorem State.ageData_place (s : State) (d : Delivery) : (s.ageData d).addr = d.addr ∧ (s.ageData d).bytes = d.bytes := by
  unfold State.ageData
  split
  · exact ⟨rfl, rfl⟩
  · extract_lets e
    split
    · exact ⟨rfl, rfl⟩
    · split
      · exact ⟨rfl, rfl⟩
      · exact ⟨rfl, rfl⟩

theorem State.fill_place (s : State) (d : Delivery) : (s.fill d).2.addr = d.addr ∧ (s.fill d).2.bytes = d.bytes := by
  unfold State.fill
  split
  · exact ⟨rfl, rfl⟩
  · exact ⟨rfl, rfl⟩

theorem State.stallAt_mem (s : State) (key b : Nat) : (s.stallAt key b).mem = s.mem :=
  (State.stallAt_frame s key b).same .mem (by decide)

theorem State.enter_mem (s : State) (i : Nat) : (s.enter i).mem = s.mem := (State.enter_frame s i).same .mem (by decide)

theorem State.Spared.enter (h : s.Spared a) (i : Nat) : (s.enter i).Spared a := by
  unfold State.enter
  split
  · exact h
  · next d hd =>
    split
    · exact h
    · obtain ⟨haddr, hbytes⟩ := s.fill_place d
      intro e he
      rcases List.mem_or_eq_of_mem_set he with hold | rfl
      · rw [(s.fill_frame d).same .scr (by decide)] at hold
        exact h e hold
      · rw [haddr, hbytes]
        exact h d (List.mem_of_getElem? hd)

theorem State.Spared.enters (h : s.Spared a) (l : List Nat) : (l.foldl State.enter s).Spared a := by
  induction l generalizing s with
  | nil => exact h
  | cons i l ih => exact ih (h.enter i)

theorem State.deliver_byte (d : Delivery) (h : a < d.addr ∨ d.addr + d.bytes.length ≤ a) : (s.deliver d).byte a = s.byte a := by
  unfold State.deliver
  extract_lets t u
  have hcount : u.mem = t.mem := by
    unfold u
    split
    · exact (State.bumpCounter_frame ..).same .mem (by decide)
    · rfl
  have hbyte : u.byte a = s.byte a := (State.byte_of_mem hcount a).trans (s.byte_setBytes_out _ _ _ h)
  split
  · exact hbyte
  · split
    · exact hbyte
    · exact hbyte

theorem State.delivers_byte (l : List Delivery) (h : ∀ d ∈ l, a < d.addr ∨ d.addr + d.bytes.length ≤ a) :
    (l.foldl State.deliver s).byte a = s.byte a := by
  induction l generalizing s with
  | nil => rfl
  | cons d l ih =>
    have hrest := ih (s := s.deliver d) fun e he => h e (List.mem_cons_of_mem d he)
    exact hrest.trans (State.deliver_byte d (h d List.mem_cons_self))

theorem State.tickQueues_byte (h : s.Spared a) : s.tickQueues.byte a = s.byte a := by
  unfold State.tickQueues
  extract_lets _ t u done l _ v w
  have haged : t.Spared a := by
    intro d hd
    obtain ⟨e, he, rfl⟩ := List.mem_map.mp hd
    obtain ⟨haddr, hbytes⟩ := s.ageData_place e
    rw [haddr, hbytes]
    exact h e he
  have hspared : u.Spared a := haged.enters _
  have henter : u.mem = s.mem := foldl_keeps State.mem State.enter State.enter_mem _ t
  have hdeliver : w.byte a = s.byte a := by
    refine (State.delivers_byte _ fun d hd => hspared d (List.mem_of_mem_filter hd)).trans ?_
    exact State.byte_of_mem (s := s) (t := v) henter a
  refine (State.byte_of_mem ?_ a).trans hdeliver
  refine foldl_keeps State.mem _ (fun u x => ?_) _ _
  split
  · exact u.stallAt_mem _ _
  · rfl

end

/-! ## The tick -/

section

variable {s : State}

theorem State.oneTick_running (h : s.tal.running = true) :
    s.oneTick = s.tickStarts.tick.tickMesh.tickQueues.tickSends.tickLeases.tickLinks := if_pos h

theorem State.oneTick_now (h : s.tal.running = true) : s.oneTick.now = (s.now + 1) % 2 ^ 64 := by
  rw [State.oneTick_running h, State.tickLinks_now, State.tickLeases_now, State.tickSends_now, State.tickQueues_now,
    State.tickMesh_now]
  exact s.tickStarts.tick_now h

theorem State.tick_ptp (h : s.ptp.running = false) : s.tick.ptp = s.ptp := by
  unfold State.tick
  split
  · extract_lets t _ u v
    have hptp : u.ptp = s.ptp := by
      unfold u
      rw [if_neg (by simp [t, State.takeEnergy, State.setNow, h])]
      rfl
    have hstep : v.ptp = u.ptp := by
      unfold v
      split
      · rfl
      · rfl
    refine (foldl_keeps State.ptp _ (fun w e => ?_) _ _).trans (hstep.trans hptp)
    rfl
  · rfl

theorem State.oneTick_ptp (hrun : s.tal.running = true) (h : s.ptp.running = false) : s.oneTick.ptp = s.ptp := by
  rw [State.oneTick_running hrun, (State.tickLinks_frame _).same .ptp (by decide), (State.tickLeases_frame _).same .ptp (by decide),
    (State.tickSends_frame _).same .ptp (by decide), (State.tickQueues_frame _).same .ptp (by decide),
    (State.tickMesh_frame _).same .ptp (by decide)]
  exact State.tick_ptp (s := s.tickStarts) h

theorem State.oneTick_byte {a : Nat} (hrun : s.tal.running = true) (h : s.Spared a) : s.oneTick.byte a = s.byte a := by
  have hscr : s.tickStarts.tick.tickMesh.scr = s.scr :=
    ((State.tickMesh_frame _).same .scr (by decide)).trans ((State.tick_frame _).same .scr (by decide))
  have hmem : s.tickStarts.tick.tickMesh.mem = s.mem :=
    ((State.tickMesh_frame _).same .mem (by decide)).trans ((State.tick_frame _).same .mem (by decide))
  have hspared : s.tickStarts.tick.tickMesh.Spared a := by
    unfold State.Spared
    rwa [hscr]
  rw [State.oneTick_running hrun, State.byte_of_mem ((State.tickLinks_frame _).same .mem (by decide)),
    State.byte_of_mem ((State.tickLeases_frame _).same .mem (by decide)),
    State.byte_of_mem ((State.tickSends_frame _).same .mem (by decide)), State.tickQueues_byte hspared]
  exact State.byte_of_mem hmem a

theorem step_idle (h : s.pending = []) : step s = .next s.oneTick := by
  unfold step
  rw [h]

end

/-- Settles O40: without a Tally nothing happens, and with one the tick counts it once and moves the data in the queues. -/
theorem idleTicks : Obligations.IdleTicks := by
  unfold Obligations.IdleTicks
  intro s hpending
  rw [step_idle hpending]
  refine ⟨fun hstop => ?_, fun hrun => ⟨_, rfl, State.oneTick_now hrun, ?_, ?_, State.oneTick_ptp hrun, fun a h =>
    State.oneTick_byte hrun h⟩⟩
  · simp [State.oneTick, hstop]
  · exact s.oneTick_frame.pending.trans hpending
  · exact s.oneTick_frame.same .tal (by decide)

end Sys2Proof.Machine
end

section
/-! Proof of `Obligations.PowerUpRuns`. -/

namespace Sys2Proof.Machine

open Sys2Proof

section

variable {s : State}

theorem execStandbyStart_runs {mv : Nat} (hstandby : s.pwr.standby = false) (hlow : 18000 < mv) (hwidth : mv < 65536) :
    ∃ t, exec (.standbyStart mv) s = .next t ∧ t.pwr = { s.pwr with standby := true } ∧ t.rd R.PWR_VIN_NOW = mv ∧
      t.rd R.PWR_VIN_MIN = mv ∧ t.rd R.PWR_VIN_MAX = mv := by
  refine ⟨_, if_pos (by simp [hstandby, hlow]), rfl, ?_, ?_, ?_⟩
  all_goals simp (disch := decide) only [State.rd_wr_ne, State.rd_wr_same]
  all_goals exact Nat.mod_eq_of_lt hwidth

theorem State.holdupTested_forester (mj : Nat) : (s.holdupTested mj).pwr.forester = s.pwr.forester := by
  unfold State.holdupTested
  extract_lets t
  split
  · simp [t]
  · simp [t]

theorem State.moduleReset_shutdown : s.moduleReset.pwr.shutdown = .none := by
  simp [State.moduleReset, State.drawNonce]
  rfl

theorem State.moduleReset_nv : s.moduleReset.nv = s.nv := by
  simp [State.moduleReset, State.drawNonce]

theorem State.moduleReset_mem : s.moduleReset.mem = [] := by
  simp [State.moduleReset, State.drawNonce]
  rfl

theorem State.moduleReset_fresh : s.moduleReset.fresh = s.fresh + 1 := by
  simp [State.moduleReset, State.drawNonce]

end

/-- Settles O1. -/
theorem powerUpRuns : Obligations.PowerUpRuns := by
  refine ⟨fun s mv => execStandbyStart_runs, fun s hstandby hstage hretries hshutdown => ?_, fun s hstage => ?_, fun s hstage => ?_,
    fun s hstandby hstage hfirst hlast => ?_, fun s mv mj settled hstage hoff hshutdown hmv hsettled => ?_, fun s hforester => ?_,
    fun s hshutdown hauto hnormal => ?_⟩
  · exact if_pos ⟨hstandby, hstage, hretries, hshutdown⟩
  · exact ⟨_, if_pos hstage, rfl, State.rd_wr_same _ _ _⟩
  · exact ⟨_, if_pos hstage, rfl, Nat.le_max_right _ 1, rfl⟩
  · exact if_pos ⟨hstandby, hstage, hfirst, hlast⟩
  · refine ⟨_, if_pos ⟨hstage, by simp [hoff], hshutdown, hmv, hsettled⟩, ?_⟩
    simp [State.holdupTested_forester, State.sampleInput, State.setBand]
  · exact if_pos hforester
  · exact ⟨_, if_pos ⟨hshutdown, hauto, hnormal⟩, State.moduleReset_shutdown, State.moduleReset_nv, State.moduleReset_mem,
      State.moduleReset_fresh⟩

end Sys2Proof.Machine
end

section
/-! Register fields below an address that an operation leaves alone, as one relation with the rules for composing it. -/

namespace Sys2Proof.Machine

open Sys2Proof

/-- The single register fields below an address read the same. -/
def SameBelow (a : Nat) (s t : State) : Prop := ∀ g : Field, g.addr < a → g.lo < 128 → t.rd g = s.rd g

namespace SameBelow

variable {a : Nat} {s x y : State}

theorem of_csr (h : y.csr = s.csr) : SameBelow a s y := fun g _ _ => by unfold State.rd State.rdAt; rw [h]

theorem refl (s : State) : SameBelow a s s := of_csr rfl

theorem trans (h : SameBelow a s x) (g : SameBelow a x y) : SameBelow a s y :=
  fun f ha hlo => (g f ha hlo).trans (h f ha hlo)

theorem of_frame {P : List Part} (h : Frame P s y) (hcsr : Part.csr ∉ P) : SameBelow a s y :=
  of_csr (congrArg Prod.fst (h.same .csr hcsr))

theorem wrAt (h : SameBelow a s x) {f : Field} {i v : Nat} (hf : a ≤ f.addr) : SameBelow a s (x.wrAt f i v) := by
  intro g ha hlo
  refine (State.rd_wrAt_ne x v ?_).trans (h g ha hlo)
  unfold Field.key
  have hstride := Nat.zero_le (i * f.stride)
  omega

theorem wr (h : SameBelow a s x) {f : Field} {v : Nat} (hf : a ≤ f.addr) : SameBelow a s (x.wr f v) := h.wrAt hf

theorem ite {c : Prop} [Decidable c] (h : SameBelow a s x) (g : SameBelow a s y) : SameBelow a s (if c then x else y) := by
  split
  · exact h
  · exact g

theorem foldl {α : Type} {f : State → α → State} (hf : ∀ u e, SameBelow a u (f u e)) (l : List α) (h : SameBelow a s x) :
    SameBelow a s (l.foldl f x) := by
  induction l generalizing x with
  | nil => exact h
  | cons e l ih => exact ih (h.trans (hf x e))

end SameBelow

section

variable (s : State)

theorem State.spanEnds_sameBelow (b : Nat) : SameBelow 0x400000 s (s.spanEnds b) := by
  unfold State.spanEnds
  extract_lets x
  split
  · exact .refl s
  · extract_lets wait _ t u
    have hctx : SameBelow 0x400000 s u := by
      unfold u
      exact SameBelow.wrAt (.of_csr rfl) (by decide)
    split
    · exact hctx
    · exact hctx.wrAt (by decide)

theorem State.stopBenches_sameBelow (c : Nat) : SameBelow 0x400000 s (s.stopBenches c) := by
  unfold State.stopBenches
  extract_lets guest t
  have hspans : SameBelow 0x400000 s t := SameBelow.foldl State.spanEnds_sameBelow guest (.refl s)
  refine SameBelow.foldl (fun u b => ?_) _ hspans
  exact .ite (.refl u) ((SameBelow.refl u).wrAt (by decide))

theorem State.stopContexts_sameBelow : SameBelow 0x400000 s s.stopContexts := by
  unfold State.stopContexts
  refine SameBelow.foldl (fun u e => ?_) _ (.refl s)
  have hrunning (x : State) (hx : x.csr = u.csr) : SameBelow 0x400000 u ((x.wrAt R.PLN_CTX_CFG_RUNNING e.1 0).powerStops e.1) :=
    (SameBelow.wrAt (f := R.PLN_CTX_CFG_RUNNING) (i := e.1) (v := 0) (.of_csr hx) (by decide)).trans (.of_csr rfl)
  exact (hrunning (u.setCtx e.1 { e.2 with running := false }) rfl).trans (State.stopBenches_sameBelow _ e.1)

/-- The stop of the contexts changes the power profiles only. -/
theorem State.stopContexts_pwr : ∃ (l : List Nat) (t : Tab Nat), s.stopContexts.pwr = { s.pwr with stoppedPower := l, ramps := t } := by
  unfold State.stopContexts
  induction s.pln.ctxs generalizing s with
  | nil => exact ⟨_, _, rfl⟩
  | cons e l ih =>
    have hstop (x : State) (c : Nat) : (x.stopBenches c).pwr = x.pwr := (x.stopBenches_frame c).same .pwr (by decide)
    rw [List.foldl_cons]
    obtain ⟨m, t, h⟩ := ih _
    rw [hstop] at h
    exact ⟨m, t, h⟩

end

end Sys2Proof.Machine
end

section
/-! Proof of `Obligations.InputBandsRun`: what orderly shutdown shows at once, and the bands. -/

namespace Sys2Proof.Machine

open Sys2Proof

section

variable {s : State}

/-! ## Orderly shutdown -/

theorem State.stopContexts_shutdown (s : State) : s.stopContexts.pwr.shutdown = s.pwr.shutdown := by
  obtain ⟨l, t, h⟩ := s.stopContexts_pwr
  rw [h]

theorem State.stopContexts_sagCount (s : State) : s.stopContexts.pwr.sagCount = s.pwr.sagCount := by
  obtain ⟨l, t, h⟩ := s.stopContexts_pwr
  rw [h]

theorem State.stopContexts_dieOn (s : State) : s.stopContexts.pwr.dieOn = s.pwr.dieOn := by
  obtain ⟨l, t, h⟩ := s.stopContexts_pwr
  rw [h]

/-- What the start of orderly shutdown of a running die shows (R37). -/
theorem State.orderlyShutdown_taper (hnone : s.pwr.shutdown = .none) (hforester : s.pwr.forester = true) (hdie : s.pwr.dieOn = true) :
    s.orderlyShutdown.pwr.shutdown = .tapering ∧ s.orderlyShutdown.pwr.sagCount = s.pwr.sagCount ∧
      s.orderlyShutdown.rd R.PWR_STATUS_BAND = 5 := by
  unfold State.orderlyShutdown
  rw [if_neg (not_not.mpr hnone), if_neg (by simp [hforester])]
  extract_lets u w _ t
  have hu : u.pwr = s.pwr := by simp [u]
  clear_value u
  have husag : u.pwr.sagCount = s.pwr.sagCount := congrArg Pwr.sagCount hu
  have hudie : u.pwr.dieOn = true := (congrArg Pwr.dieOn hu).trans hdie
  have htaper : t.pwr.shutdown = .tapering := State.stopContexts_shutdown _
  have hsag : t.pwr.sagCount = s.pwr.sagCount := (State.stopContexts_sagCount _).trans husag
  have hdie' : t.pwr.dieOn = true := (State.stopContexts_dieOn _).trans hudie
  have hband : t.rd R.PWR_STATUS_BAND = 5 :=
    (State.stopContexts_sameBelow _ R.PWR_STATUS_BAND (by decide) (by decide)).trans (State.rd_wr_same _ _ _)
  rw [if_pos hdie']
  have hfill : t.endFill.rd R.PWR_STATUS_BAND = t.rd R.PWR_STATUS_BAND := State.rd_wr_ne _ _ (by decide)
  exact ⟨htaper, hsag, (State.startTaper_writes _ _ R.PWR_STATUS_BAND 0 (by decide)).trans (hfill.trans hband)⟩

theorem State.shutdownBy_taper {event : Field} (hnone : s.pwr.shutdown = .none) (hforester : s.pwr.forester = true)
    (hdie : s.pwr.dieOn = true) :
    (s.shutdownBy event).pwr.shutdown = .tapering ∧ (s.shutdownBy event).pwr.sagCount = s.pwr.sagCount ∧
      (s.shutdownBy event).rd R.PWR_STATUS_BAND = 5 := by
  unfold State.shutdownBy
  rw [if_pos hnone]
  exact State.orderlyShutdown_taper (s := s.wr event 1) hnone hforester hdie

/-! ## Samples and bands -/

/-- A sample changes the register file only. -/
theorem State.sampleInput_pwr (mv : Nat) : (s.sampleInput mv).pwr = s.pwr := (s.sampleInput_frame mv).same .pwr (by decide)

theorem State.sampleInput_rd_now {mv : Nat} (hwidth : mv < 65536) : (s.sampleInput mv).rd R.PWR_VIN_NOW = mv := by
  unfold State.sampleInput
  simp (disch := decide) only [State.ite_rd, State.rd_wr_ne, State.rd_wr_same]
  have hfits : mv % 2 ^ R.PWR_VIN_NOW.width = mv := Nat.mod_eq_of_lt hwidth
  simp [hfits]

theorem State.setBand_pwr (b : Nat) : (s.setBand b).pwr = s.pwr := (s.setBand_frame b).same .pwr (by decide)

theorem State.setBand_rd_now (b : Nat) : (s.setBand b).rd R.PWR_VIN_NOW = s.rd R.PWR_VIN_NOW := by
  unfold State.setBand
  simp (disch := decide) only [State.ite_rd, State.rd_wr_ne]
  simp

theorem State.setBand_rd_band {b : Nat} (hshutdown : s.pwr.shutdown = .none) (hb : b < 8) : (s.setBand b).rd R.PWR_STATUS_BAND = b := by
  unfold State.setBand
  rw [if_neg (by simp [hshutdown]), State.rd_wr_same]
  exact Nat.mod_eq_of_lt hb

/-- A field that neither a sample of the input nor the band writes. -/
theorem State.sampleInput_rd {mv : Nat} (f : Field) (hf : f.key 0 ∉ inputKeys) : (s.sampleInput mv).rd f = s.rd f :=
  s.sampleInput_writes mv f 0 hf

theorem State.setBand_rd {b : Nat} (f : Field) (hf : f.key 0 ≠ R.PWR_STATUS_BAND.key 0) : (s.setBand b).rd f = s.rd f := by
  unfold State.setBand
  split
  · exact State.rd_wr_ne _ _ hf
  · exact State.rd_wr_ne _ _ hf

theorem State.enterLow_recorded (mv : Nat) : Recorded (s.setBand 1) (s.enterLow mv) := by
  unfold State.enterLow
  extract_lets t
  split
  · exact t.notice_recorded _ _ _ _ _
  · exact .refl t

theorem Recorded.rd_single {s t : State} (h : Recorded s t) (f : Field) (hf : f.key 0 ∉ recordKeys) : t.rd f = s.rd f := h.rd f 0 hf

theorem Recorded.bandInhibit {s t : State} (h : Recorded s t) : t.pwr.bandInhibit = s.pwr.bandInhibit := by
  obtain ⟨u, hu⟩ := h.pwr
  rw [hu]

theorem Recorded.normalCount {s t : State} (h : Recorded s t) : t.pwr.normalCount = s.pwr.normalCount := by
  obtain ⟨u, hu⟩ := h.pwr
  rw [hu]

theorem flag_mod_two (b : Bool) : flag b % 2 = flag b := by cases b <;> rfl

theorem State.refreshInhibit_rd_inhibit : s.refreshInhibit.rd R.PWR_STATUS_NV_INHIBIT =
    flag (s.pwr.bandInhibit || s.on R.PWR_CTRL_NV_INHIBIT) :=
  (State.resumeSpill_rd_out _ _ (by decide)).trans ((State.rd_wr_same _ _ _).trans (flag_mod_two _))

theorem State.refreshInhibit_bandInhibit : s.refreshInhibit.pwr.bandInhibit = s.pwr.bandInhibit :=
  (State.resumeSpill_recorded _).bandInhibit

/-- With the band out of write-inhibit and firmware not asking for it, the flag clears (R35). -/
theorem State.refreshInhibit_clear (hband : s.pwr.bandInhibit = false) (hctrl : s.rd R.PWR_CTRL_NV_INHIBIT = 0) :
    s.refreshInhibit.rd R.PWR_STATUS_NV_INHIBIT = 0 ∧ s.refreshInhibit.pwr.bandInhibit = false := by
  refine ⟨?_, State.refreshInhibit_bandInhibit.trans hband⟩
  rw [State.refreshInhibit_rd_inhibit, hband]
  simp [State.on, hctrl, flag]

/-- The band that the input enters as write-inhibit ends. -/
theorem State.exitBand_keeps (mv b : Nat) :
    (if mv < 44000 then s.enterLow mv else s.setBand b).pwr.bandInhibit = s.pwr.bandInhibit ∧
    (if mv < 44000 then s.enterLow mv else s.setBand b).rd R.PWR_CTRL_NV_INHIBIT = s.rd R.PWR_CTRL_NV_INHIBIT := by
  split
  · exact ⟨(s.enterLow_recorded mv).bandInhibit.trans (congrArg Pwr.bandInhibit (State.setBand_pwr 1)),
      ((s.enterLow_recorded mv).rd_single _ (by decide)).trans (State.setBand_rd _ (by decide))⟩
  · exact ⟨congrArg Pwr.bandInhibit (State.setBand_pwr b), State.setBand_rd _ (by decide)⟩

theorem State.foresterOff_spec : s.foresterOff.pwr.forester = false ∧ s.foresterOff.pwr.shutdown = .off ∧ s.foresterOff.mem = [] ∧
    s.foresterOff.rrc = State.reset.rrc ∧ s.foresterOff.nv = s.nv := by
  simp [State.foresterOff]

end

/-! ## The commands -/

section

variable {s : State} {mv : Nat}

theorem execLowBandEntry_runs (hstandby : s.pwr.standby = true) (hshutdown : s.pwr.shutdown = .none) (hmv : mv < 44000)
    (hband : s.rd R.PWR_STATUS_BAND = 0) :
    ∃ t, exec (.lowBandEntry mv) s = .next t ∧ t.rd R.PWR_STATUS_BAND = 1 ∧ t.rd R.PWR_VIN_NOW = mv ∧
      t.pwr.normalCount = false := by
  refine ⟨_, if_pos ⟨hstandby, hmv⟩, ?_⟩
  rw [if_pos hband]
  have hlow := State.enterLow_recorded (s := ({ s with pwr := { s.pwr with normalCount := false } } : State).sampleInput mv) mv
  refine ⟨(hlow.rd_single _ (by decide)).trans (State.setBand_rd_band ?_ (by decide)), ?_, hlow.normalCount.trans ?_⟩
  · rwa [State.sampleInput_pwr]
  · exact (hlow.rd_single _ (by decide)).trans ((State.setBand_rd_now 1).trans (State.sampleInput_rd_now (by omega)))
  · rw [State.setBand_pwr, State.sampleInput_pwr]

theorem execWriteInhibitEntry_runs (hstandby : s.pwr.standby = true) (hshutdown : s.pwr.shutdown = .none)
    (hinhibit : s.pwr.bandInhibit = false) (hmv : mv < 42000) :
    ∃ t, exec (.writeInhibitEntry mv) s = .next t ∧ t.rd R.PWR_STATUS_BAND = (if mv < 40000 then 3 else 2) ∧
      t.rd R.PWR_STATUS_NV_INHIBIT = 1 ∧ t.rd R.PWR_EVENT_INHIBIT_SEEN = 1 ∧ t.pwr.bandInhibit = true := by
  refine ⟨_, if_pos ⟨hstandby, hmv, by simp [hinhibit]⟩, ?_, State.rd_wr_same _ _ _, ?_, ?_⟩
  · simp (disch := decide) only [State.inc, State.addAt, State.rd_wr_ne, State.rd_wrAt_ne]
    refine State.setBand_rd_band ?_ (by split <;> decide)
    rwa [State.sampleInput_pwr]
  · simp (disch := decide) only [State.inc, State.addAt, State.rd_wr_ne, State.rd_wrAt_ne, State.rd_wr_same]
    rfl
  · simp [State.setBand_pwr, State.sampleInput_pwr]

theorem execWriteInhibitExit_runs (hinhibit : s.pwr.bandInhibit = true) (hctrl : s.rd R.PWR_CTRL_NV_INHIBIT = 0) (hmv : 43000 < mv) :
    ∃ t, exec (.writeInhibitExit mv) s = .next t ∧ t.rd R.PWR_STATUS_NV_INHIBIT = 0 ∧ t.pwr.bandInhibit = false := by
  refine ⟨_, if_pos ⟨hinhibit, hmv⟩, State.refreshInhibit_clear ?_ ?_⟩
  · rw [(State.exitBand_keeps mv _).1, State.sampleInput_pwr]
  · rw [(State.exitBand_keeps mv _).2]
    exact (State.sampleInput_rd _ (by decide)).trans hctrl

theorem execOverVoltageTimeout_runs (hstandby : s.pwr.standby = true) (hmv : 60000 < mv) (hshutdown : s.pwr.shutdown = .none)
    (hforester : s.pwr.forester = true) (hdie : s.pwr.dieOn = true) :
    ∃ t, exec (.overVoltageTimeout mv) s = .next t ∧ t.pwr.shutdown = .tapering ∧ t.rd R.PWR_STATUS_BAND = 5 := by
  refine ⟨_, if_pos ⟨hstandby, hmv⟩, ?_⟩
  obtain ⟨htaper, -, hband⟩ := State.shutdownBy_taper (event := R.PWR_EVENT_SHUTDOWN_OV)
    (s := ((({ s with pwr := { s.pwr with normalCount := false } } : State).sampleInput mv).wr R.PWR_STATUS_OV 1).setBand 4)
    (by simpa [State.setBand_pwr, State.sampleInput_pwr] using hshutdown)
    (by simpa [State.setBand_pwr, State.sampleInput_pwr] using hforester)
    (by simpa [State.setBand_pwr, State.sampleInput_pwr] using hdie)
  exact ⟨htaper, hband⟩

theorem execSagBandEntry_runs (hstandby : s.pwr.standby = true) (hmv : mv < 40000) (hshutdown : s.pwr.shutdown = .none) :
    ∃ t, exec (.sagBandEntry mv) s = .next t ∧ t.pwr.sagCount = true ∧ t.pwr.normalCount = false ∧ t.rd R.PWR_STATUS_BAND = 3 ∧
      t.rd R.PWR_VIN_NOW = mv := by
  refine ⟨_, if_pos ⟨hstandby, hmv⟩, ?_, ?_, State.setBand_rd_band ?_ (by decide), ?_⟩
  · simp [State.setBand_pwr, State.sampleInput_pwr]
  · simp [State.setBand_pwr, State.sampleInput_pwr]
  · rwa [State.sampleInput_pwr]
  · exact (State.setBand_rd_now 3).trans (State.sampleInput_rd_now (by omega))

theorem execNormalBandEntry_runs (hstandby : s.pwr.standby = true) (hlow : 44000 ≤ mv) (hhigh : mv ≤ 60000)
    (hshutdown : s.pwr.shutdown = .none) (hinhibit : s.pwr.bandInhibit = false) :
    ∃ t, exec (.normalBandEntry mv) s = .next t ∧ t.pwr.normalCount = true ∧ t.pwr.sagCount = false ∧
      t.rd R.PWR_STATUS_BAND = 0 ∧ t.rd R.PWR_VIN_NOW = mv := by
  refine ⟨_, if_pos ⟨hstandby, hlow, hhigh⟩, ?_, ?_, ?_, ?_⟩
  · simp [State.setBand_pwr, State.sampleInput_pwr]
  · simp [State.setBand_pwr, State.sampleInput_pwr]
  · dsimp only
    rw [if_neg (by simp [hinhibit])]
    refine State.setBand_rd_band ?_ (by decide)
    simpa [State.sampleInput_pwr] using hshutdown
  · exact (State.setBand_rd_now _).trans ((State.rd_wr_ne _ _ (by decide)).trans (State.sampleInput_rd_now (by omega)))

theorem execPwrNvInhibit_runs (inhibit : Bool) :
    ∃ t, exec (.pwrNvInhibit inhibit) s = .next t ∧ t.rd R.PWR_CTRL_NV_INHIBIT = flag inhibit ∧
      t.rd R.PWR_STATUS_NV_INHIBIT = flag (s.pwr.bandInhibit || inhibit) := by
  have hctrl : (s.wr R.PWR_CTRL_NV_INHIBIT (flag inhibit)).rd R.PWR_CTRL_NV_INHIBIT = flag inhibit :=
    (State.rd_wr_same _ _ _).trans (flag_mod_two inhibit)
  refine ⟨_, rfl, ?_, State.refreshInhibit_rd_inhibit.trans ?_⟩
  · exact (State.resumeSpill_rd_out _ _ (by decide)).trans ((State.rd_wr_ne _ _ (by decide)).trans hctrl)
  · unfold State.on
    rw [hctrl]
    cases inhibit <;> rfl

end

/-- Settles O2: the bands by what a sample and the band write, the shutdowns by `State.orderlyShutdown_taper`. -/
theorem inputBandsRun : Obligations.InputBandsRun := by
  refine ⟨fun s mv => execLowBandEntry_runs, fun s mv => execWriteInhibitEntry_runs, fun s mv => execWriteInhibitExit_runs,
    fun s hsag hshutdown hforester hdie => ⟨_, if_pos hsag, State.shutdownBy_taper hshutdown hforester hdie⟩,
    fun s mv => execOverVoltageTimeout_runs, fun s mv => execSagBandEntry_runs, fun s mv => execNormalBandEntry_runs,
    fun s hshutdown hforester hdie => ?_, fun s => execPwrNvInhibit_runs, fun s hshutdown hunits hseals hgone => ?_⟩
  · obtain ⟨htaper, -, hband⟩ := State.orderlyShutdown_taper hshutdown hforester hdie
    exact ⟨_, rfl, htaper, hband⟩
  · refine ⟨_, if_pos ⟨hshutdown, hunits, by simp [State.sealsSigned, hseals]⟩, ?_⟩
    rw [if_neg (by simp [hgone])]
    exact State.foresterOff_spec

end Sys2Proof.Machine
end

section
/-! Proofs of `Obligations.CurrentAndCoolantRun` and `Obligations.WriteUnitsAndHoldUpRun`. -/

namespace Sys2Proof.Machine

open Sys2Proof

section

variable {s : State}

/-! ## Throttle and coolant -/

theorem State.releaseThrottle_throttle : s.releaseThrottle.clk.throttle = false := by
  have hstretch (t : State) (n : Nat) : (t.showStretches n).clk.throttle = t.clk.throttle := by
    induction n with
    | zero => rfl
    | succ n ih => exact ih
  exact hstretch _ 24

theorem State.assertThrottle_pwr : s.assertThrottle.pwr = s.pwr := rfl

theorem execCurrentThrottleAssert_runs {current : Nat} (hcurrent : s.pwr.throttleAt ≤ current) (hoff : s.rd R.PWR_STATUS_THROTTLE = 0) :
    ∃ t, exec (.currentThrottleAssert current) s = .next t ∧ t.rd R.PWR_STATUS_THROTTLE = 1 ∧ t.rd R.PWR_EVENT_THROTTLE_SEEN = 1 ∧
      t.rd R.PWR_COUNT_THROTTLE = min (s.rd R.PWR_COUNT_THROTTLE + 1) R.PWR_COUNT_THROTTLE.max := by
  have hcount : (s.sampleCurrent current).rd R.PWR_COUNT_THROTTLE = s.rd R.PWR_COUNT_THROTTLE :=
    s.sampleCurrent_writes current R.PWR_COUNT_THROTTLE 0 (by decide)
  refine ⟨_, if_pos ⟨hcurrent, by simp [State.on, hoff]⟩, ?_, ?_, (State.rd_inc_same _ _).trans ?_⟩
  · exact (State.rd_wrAt_ne _ _ (by decide)).trans ((State.rd_wr_ne _ _ (by decide)).trans (State.rd_wr_same _ _ _))
  · exact (State.rd_wrAt_ne _ _ (by decide)).trans (State.rd_wr_same _ _ _)
  · rw [State.rd_wr_ne _ _ (by decide), State.rd_wr_ne _ _ (by decide), hcount]

theorem execCoolantLeaveLimits_runs {temp flow current : Nat} (htemp : 400 < temp) (hok : s.pwr.coolantOk = true) :
    ∃ t, exec (.coolantLeaveLimits temp flow current) s = .next t ∧ t.pwr.coolantOk = false ∧
      t.pwr.throttleAt = min s.pwr.throttleAt current := by
  refine ⟨_, if_pos ⟨by simp [coolantOut, htemp], hok⟩, ?_⟩
  have hpwr (u : State) : (if u.on R.PWR_STATUS_THROTTLE then u else u.assertThrottle).pwr = u.pwr := by
    split
    · rfl
    · exact u.assertThrottle_pwr
  dsimp only
  rw [hpwr]
  constructor
  · simp
  · have hsample : (s.sampleCurrent current).pwr = s.pwr := (s.sampleCurrent_frame current).same .pwr (by decide)
    simp [hsample]

theorem execCoolantStartTimeout_cold {temp flow : Nat} (hforester : s.pwr.forester = true) (hdie : s.pwr.dieOn = false)
    (htemp : temp < 150) (hlow : 3000 ≤ flow) (hhigh : flow ≤ 6000) :
    exec (.coolantStartTimeout temp flow) s = .next (s.fault 1 0x83 0 0 temp) := by
  refine (if_pos ⟨hforester, by simp [hdie], by simp [coolantOut, htemp]⟩).trans ?_
  rw [if_pos (Or.inl htemp), if_neg (by omega)]

/-! ## Fill and taper -/

theorem State.startTaper_tapers (w : Nat) :
    (s.startTaper w).pwr.tapers = s.pwr.tapers ++ [⟨32, w, s.now + s.rd R.PWR_TAPER_EFF_STEP⟩] := rfl

theorem State.showFill_now : s.showFill.now = s.now := State.rd_wr_ne _ _ (by decide)

theorem State.showFill_rd_step : s.showFill.rd R.PWR_TAPER_EFF_STEP = s.rd R.PWR_TAPER_EFF_STEP := State.rd_wr_ne _ _ (by decide)

theorem execFillLimitExpiry_runs {x : FillRun} (hmem : x ∈ s.pwr.fill) (htapered : x.tapered = false) (hcovered : s.covered = false)
    (hover : x.since + s.rd R.PWR_FILL_LIMIT < s.nominalTime) :
    ∃ t, exec .fillLimitExpiry s = .next t ∧
      t.pwr.tapers = s.pwr.tapers ++ [⟨32, s.benchPower, s.now + s.rd R.PWR_TAPER_EFF_STEP⟩] ∧ t.rd R.PWR_STATUS_TAPER = 1 ∧
      t.rd R.PWR_EVENT_TAPER_SEEN = 1 := by
  have hany : s.pwr.fill.any s.fillOver = true := List.any_eq_true.mpr ⟨x, hmem, by simp [State.fillOver, htapered, hover]⟩
  refine ⟨_, if_pos ⟨by simp [hcovered], hany⟩, ?_, ?_, ?_⟩
  · rw [State.startTaper_tapers, State.showFill_now, State.showFill_rd_step]
    rfl
  · exact (State.rd_wrAt_ne _ _ (by decide)).trans ((State.rd_wr_ne _ _ (by decide)).trans (State.rd_wr_same _ _ _))
  · exact (State.rd_wrAt_ne _ _ (by decide)).trans (State.rd_wr_same _ _ _)

theorem execTaperStep_runs {x : TaperRun} (hmem : x ∈ s.pwr.tapers) (hrun : s.tal.running = true) (hdue : x.at_ ≤ s.now)
    (hmore : ∃ y ∈ s.pwr.tapers, 2 ≤ y.left) :
    ∃ t, exec .taperStep s = .next t ∧ t.csr = s.csr ∧
      t.pwr.tapers = (s.pwr.tapers.map fun y =>
        if y.at_ ≤ s.now then ⟨y.left - 1, y.start, y.at_ + s.rd R.PWR_TAPER_EFF_STEP⟩ else y).filter fun y => y.left != 0 := by
  have hany : s.pwr.tapers.any s.taperDue = true := List.any_eq_true.mpr ⟨x, hmem, by simp [State.taperDue, hrun, hdue]⟩
  have hstep : s.stepTapers.pwr.tapers = (s.pwr.tapers.map fun y =>
      if y.at_ ≤ s.now then ⟨y.left - 1, y.start, y.at_ + s.rd R.PWR_TAPER_EFF_STEP⟩ else y).filter fun y => y.left != 0 := by
    simp [State.stepTapers, State.taperDue, hrun]
  have hleft : s.stepTapers.pwr.tapers ≠ [] := by
    obtain ⟨y, hy, htwo⟩ := hmore
    rw [hstep]
    refine List.ne_nil_of_mem (List.mem_filter.mpr ⟨List.mem_map_of_mem hy, ?_⟩)
    split
    · simp; omega
    · simp; omega
  refine ⟨_, if_pos hany, ?_⟩
  rw [if_neg hleft]
  exact ⟨rfl, hstep⟩

end

/-- Settles O3. -/
theorem currentAndCoolantRun : Obligations.CurrentAndCoolantRun := by
  refine ⟨fun s current => execCurrentThrottleAssert_runs, fun s current hon hlow hcool => ?_,
    fun s temp flow current => execCoolantLeaveLimits_runs, fun s hcool hdie hshutdown hforester => ?_,
    fun s temp flow hcool h1 h2 h3 h4 => ?_, fun s temp flow => execCoolantStartTimeout_cold, fun s x => execFillLimitExpiry_runs,
    fun s x => execTaperStep_runs⟩
  · exact ⟨_, if_pos ⟨by simp [State.on, hon], hlow, by simpa using hcool⟩, State.releaseThrottle_throttle⟩
  · obtain ⟨htaper, -, hband⟩ := State.orderlyShutdown_taper hshutdown hforester hdie
    exact ⟨_, if_pos ⟨by simp [hcool], hdie⟩, htaper, hband⟩
  · have hrelease (u : State) : (if u.rd R.PWR_IIN_NOW < 6600 then u.releaseThrottle else u).pwr = u.pwr := by
      split
      · exact u.releaseThrottle_frame.same .pwr (by decide)
      · rfl
    refine ⟨_, if_pos ⟨h1, h2, h3, h4, by simp [hcool]⟩, ?_⟩
    dsimp only
    rw [hrelease]
    exact ⟨rfl, rfl⟩

section

variable {s : State}

theorem State.holdupTested_ok {mj : Nat} (hmj : 1200 ≤ mj) (hwidth : mj < 65536) :
    (s.holdupTested mj).rd R.PWR_HOLDUP_MJ = mj ∧ (s.holdupTested mj).rd R.PWR_STATUS_HOLDUP_OK = 1 := by
  unfold State.holdupTested
  rw [if_neg (Nat.not_lt.mpr hmj)]
  constructor
  · refine (State.resumeSpill_rd_out _ _ (by decide)).trans ((State.rd_wr_ne _ _ (by decide)).trans ?_)
    exact (State.rd_wr_same _ _ _).trans (Nat.mod_eq_of_lt hwidth)
  · exact (State.resumeSpill_rd_out _ _ (by decide)).trans (State.rd_wr_same _ _ _)

theorem State.holdupTested_low {mj : Nat} (hmj : mj < 1200) :
    (s.holdupTested mj).rd R.PWR_HOLDUP_MJ = mj ∧ (s.holdupTested mj).rd R.PWR_STATUS_HOLDUP_OK = 0 ∧
      (s.holdupTested mj).rd R.PWR_EVENT_HOLDUP_FAULT = 1 := by
  unfold State.holdupTested
  rw [if_pos hmj]
  refine ⟨?_, ?_, (State.fault_rd_out _ _ _ _ _ _ _ (by decide)).trans (State.rd_wr_same _ _ _)⟩
  · refine (State.fault_rd_out _ _ _ _ _ _ _ (by decide)).trans ((State.rd_wr_ne _ _ (by decide)).trans ?_)
    refine (State.rd_wr_ne _ _ (by decide)).trans ((State.rd_wr_same _ _ _).trans (Nat.mod_eq_of_lt ?_))
    exact hmj.trans (by decide)
  · refine (State.fault_rd_out _ _ _ _ _ _ _ (by decide)).trans ((State.rd_wr_ne _ _ (by decide)).trans ?_)
    exact State.rd_wr_same _ _ _

end

/-- Settles O4. -/
theorem writeUnitsAndHoldUpRun : Obligations.WriteUnitsAndHoldUpRun := by
  refine ⟨fun s store hforester => ⟨fun hadmit => ?_, fun hunits hadmit => ?_⟩, fun s u rest hunits => ?_, fun s store hunits => ?_,
    fun s mj hforester hmj hwidth => ?_, fun s mj hforester hunits hmj => ?_, fun s hwidth => ?_⟩
  · refine (if_pos hforester).trans (congrArg _ (if_neg ?_))
    rintro ⟨hunits, hrefused⟩
    simp [hunits] at hadmit
    simp [hadmit] at hrefused
  · exact (if_pos hforester).trans (congrArg _ (if_pos ⟨hunits, by simp [hadmit]⟩))
  · change execWriteUnitCommit s = _
    unfold execWriteUnitCommit
    rw [hunits]
  · change execWriteUnitCommit s = _
    unfold execWriteUnitCommit
    rw [hunits]
    dsimp only
    refine congrArg _ ?_
    unfold State.requestUnits
    split
    · rfl
    · rfl
  · exact ⟨_, if_pos hforester, State.holdupTested_ok hmj hwidth⟩
  · exact ⟨_, if_pos ⟨hforester, hunits⟩, State.holdupTested_low hmj⟩
  · have hfits : s.rd R.PWR_VIN_NOW % 2 ^ 16 = s.rd R.PWR_VIN_NOW := Nat.mod_eq_of_lt hwidth
    refine ⟨_, rfl, ?_, ?_, State.rd_wr_same _ _ _⟩
    · simp (disch := decide) only [State.rd_wr_ne, State.rd_wr_same]
      exact hfits
    · simp (disch := decide) only [State.rd_wr_ne, State.rd_wr_same]
      exact hfits

end Sys2Proof.Machine
end

section
/-! Proofs of `Obligations.ClockEventsRun` and `Obligations.FrequencyChangeRuns`. -/

namespace Sys2Proof.Machine

open Sys2Proof

section

variable {s : State}

theorem State.onAt_wrAt (f : Field) (i : Nat) (b : Bool) (hwidth : f.width = 1) : (s.wrAt f i (flag b)).onAt f i = b := by
  unfold State.onAt
  rw [State.rdAt_wrAt_same, hwidth]
  cases b <;> rfl

/-! ## Stretching -/

/-- Whether a region stretches its clock (R45). -/
def State.stretches (s : State) (r : Nat) : Bool :=
  s.clk.droop.contains r || (s.clk.throttle && decide (r < 24)) || s.onAt R.CLK_RGN_STATUS_TT_CRIT r

theorem State.showStretch_onAt (r : Nat) : (s.showStretch r).onAt R.CLK_RGN_STATUS_STRETCHING r = s.stretches r :=
  State.onAt_wrAt (s := { s with clk := { s.clk with stretchSeen := _ } }) R.CLK_RGN_STATUS_STRETCHING r _ rfl

theorem State.showStretch_clk {r : Nat} (h : s.stretches r = true) :
    (s.showStretch r).clk = { s.clk with stretchSeen := addOnce r s.clk.stretchSeen } := by
  have hseen : (if s.stretches r = true then addOnce r s.clk.stretchSeen else s.clk.stretchSeen) = addOnce r s.clk.stretchSeen :=
    if_pos h
  exact congrArg (fun l => { s.clk with stretchSeen := l }) hseen

theorem execLateEntry_runs {reader writer : Fin 39} {cycles : Nat} (hstalled : 64 * writer.val + reader.val ∈ s.clk.stalled)
    (hfree : s.crossingFree (64 * writer + reader) = true) :
    ∃ t, exec (.lateEntry reader writer cycles) s = .next t ∧ t.rd R.CLK_EVENT_LATE_ENTRY = 1 ∧ t.clk.droop = s.clk.droop ∧
      t.clk.stalled = dropOne (64 * writer + reader) s.clk.stalled := by
  have hclk (u : State) (key : Nat) : (u.resumeAt key).clk = u.clk := (u.resumeAt_frame key).same .clk (by decide)
  refine ⟨_, if_pos ⟨hstalled, hfree⟩, ?_, ?_, ?_⟩
  · refine (State.rdAt_resumeAt _ _ fun b => ?_).trans (State.rd_wr_same _ _ _)
    simp only [Field.key, R.CLK_EVENT_LATE_ENTRY, R.BCH_SEQ_STATUS_STATE]
    omega
  · rw [hclk]
    rfl
  · rw [hclk]
    rfl

theorem execDroopStretchStart_runs (region : Fin 39) :
    ∃ t, exec (.droopStretchStart region) s = .next t ∧
      t.clk = { s.clk with droop := addOnce region s.clk.droop, stretchSeen := addOnce region s.clk.stretchSeen } ∧
      t.onAt R.CLK_RGN_STATUS_STRETCHING region = true := by
  have hon : ({ s with clk := { s.clk with droop := addOnce region s.clk.droop } } : State).stretches region = true := by
    have hdroop : region.val ∈ addOnce region.val s.clk.droop := by
      unfold addOnce
      split <;> simp_all
    simp [State.stretches, hdroop]
  exact ⟨_, rfl, State.showStretch_clk hon, (State.showStretch_onAt _).trans hon⟩

theorem execDroopStretchEnd_runs (region : Fin 39) :
    ∃ t, exec (.droopStretchEnd region) s = .next t ∧ t.clk.droop = dropOne region s.clk.droop ∧
      (region.val ∉ dropOne region.val s.clk.droop → (s.clk.throttle = false ∨ 24 ≤ region.val) →
        s.onAt R.CLK_RGN_STATUS_TT_CRIT region = false → t.onAt R.CLK_RGN_STATUS_STRETCHING region = false) := by
  refine ⟨_, rfl, rfl, fun hdroop hthrottle hcrit => (State.showStretch_onAt _).trans ?_⟩
  have hcrit' : ({ s with clk := { s.clk with droop := dropOne region s.clk.droop } } : State).onAt R.CLK_RGN_STATUS_TT_CRIT region =
      false := hcrit
  unfold State.stretches
  rw [hcrit']
  rcases hthrottle with hthrottle | hthrottle
  · simp [hdroop, hthrottle]
  · simp [hdroop, hthrottle]

theorem execPllLockLost_runs (region : Fin 39) :
    ∃ t, exec (.pllLockLost region) s = .next t ∧ t.onAt R.CLK_RGN_STATUS_LOCK region = false ∧ t.rd R.CLK_EVENT_LOCK_LOST = 1 := by
  have hlock : (s.wrAt R.CLK_RGN_STATUS_LOCK region 0).onAt R.CLK_RGN_STATUS_LOCK region = false := State.onAt_wrAt _ _ false rfl
  refine ⟨_, rfl, ?_, State.rd_wr_same _ _ _⟩
  unfold State.onAt at hlock ⊢
  rwa [State.rdAt_wr_ne]
  simp only [Field.key, R.CLK_RGN_STATUS_LOCK, R.CLK_EVENT_LOCK_LOST]
  omega

theorem execRegionLockTimeout_retry {region : Fin 39} (hlock : s.onAt R.CLK_RGN_STATUS_LOCK region = false)
    (htried : Tab.get 0 region.val s.clk.relocks < 3) :
    ∃ t, exec (.regionLockTimeout region) s = .next t ∧
      Tab.get 0 region.val t.clk.relocks = Tab.get 0 region.val s.clk.relocks + 1 ∧ t.csr = s.csr :=
  ⟨_, (if_neg (by simp [hlock])).trans (if_pos htried), by simp [Tab.get_put], rfl⟩

end

/-- Settles O5. -/
theorem clockEventsRun : Obligations.ClockEventsRun :=
  ⟨fun _ _ _ _ => execLateEntry_runs, fun _ => execDroopStretchStart_runs, fun _ => execDroopStretchEnd_runs,
    fun _ _ hcrit => if_pos hcrit, fun _ => execPllLockLost_runs, fun _ _ => execRegionLockTimeout_retry⟩

/-! ## Frequency changes -/

section

variable {s : State}

theorem execFchgArm_stop (hstate : s.rd R.CLK_FCHG_CTRL_STATE = 0) (hkind : s.on R.CLK_FCHG_CTRL_KIND = true)
    (hregion : s.last R.CLK_FCHG_CTRL_REGION ≤ 38) (hat : s.last R.CLK_FCHG_AT_AT % 16 = 0) (hplan : s.planActive = false) :
    exec .fchgArm s = .next s.armFchg := by
  refine (if_pos hkind).trans ((if_neg ?_).trans ((if_neg ?_).trans (if_neg ?_)))
  · simp [hstate]
  · simp [hat, hregion]
  · simp [hplan]

theorem execFchgDisarm_armed (hstate : s.rd R.CLK_FCHG_CTRL_STATE = 1) (hstop : s.clk.fchgStop = true → s.now ≠ s.clk.fchgAt)
    (hsync : s.clk.fchgStop = false → s.clk.standbyLocked = true → s.clk.fchgAt ≤ s.now → s.atStepStart = false)
    (happlied : (5, 0) ∉ s.olc.applied) : exec .fchgDisarm s = .next ((s.dropChange 5 0).wr R.CLK_FCHG_CTRL_STATE 0) := by
  refine (if_neg ?_).trans (if_pos ?_)
  · cases hkind : s.clk.fchgStop with
    | true => simp [hstate, happlied, hstop hkind]
    | false =>
      simp only [hstate, happlied, List.contains_eq_mem]
      simpa using hsync hkind
  · simp [hstate]

theorem execFchgDisarm_due (hstate : s.rd R.CLK_FCHG_CTRL_STATE = 1) (hkind : s.clk.fchgStop = true) (hnow : s.now = s.clk.fchgAt) :
    exec .fchgDisarm s = .next (s.wr R.CLK_EVENT_FCHG_REFUSED 1) :=
  if_pos (Or.inl (by simp [hstate, hkind, hnow]))

/-- The two status bits of a region are fields of their own. -/
theorem State.onAt_stopped_wrAt_lock (r v : Nat) :
    (s.wrAt R.CLK_RGN_STATUS_LOCK r v).onAt R.CLK_RGN_STATUS_STOPPED r = s.onAt R.CLK_RGN_STATUS_STOPPED r := by
  unfold State.onAt
  rw [State.rdAt_wrAt_ne]
  simp only [Field.key, R.CLK_RGN_STATUS_LOCK, R.CLK_RGN_STATUS_STOPPED]
  omega

theorem execRegionStop_runs (hstate : s.rd R.CLK_FCHG_CTRL_STATE = 1) (hkind : s.clk.fchgStop = true) (hnow : s.now = s.clk.fchgAt)
    (hregion : s.clk.fchgRegion < 39) (hplan : s.planActive = false) :
    ∃ t, exec .regionStop s = .next t ∧ t.rd R.CLK_FCHG_CTRL_STATE = 2 ∧
      t.onAt R.CLK_RGN_STATUS_STOPPED s.clk.fchgRegion = true ∧ t.onAt R.CLK_RGN_STATUS_LOCK s.clk.fchgRegion = false := by
  refine ⟨_, (if_pos ⟨hstate, hkind, hnow⟩).trans (if_neg ?_), ?_, ?_, State.onAt_wrAt _ _ false rfl⟩
  · rintro ⟨hactive, -⟩
    exact absurd (hplan.symm.trans hactive) Bool.false_ne_true
  · rw [State.rd_wrAt_ne, State.rd_wrAt_ne, State.rd_wr_same]
    · rfl
    · simp only [Field.key, R.CLK_FCHG_CTRL_STATE, R.CLK_RGN_STATUS_STOPPED]
      omega
    · simp only [Field.key, R.CLK_FCHG_CTRL_STATE, R.CLK_RGN_STATUS_LOCK]
      omega
  · exact (State.onAt_stopped_wrAt_lock _ _).trans (State.onAt_wrAt _ _ true rfl)

/-- The region at which a frequency change stands runs again (R50). -/
def State.regionRuns (s : State) : State :=
  ((s.wr R.CLK_FCHG_CTRL_STATE 0).wrAt R.CLK_RGN_STATUS_STOPPED s.clk.fchgRegion 0).wrAt R.CLK_RGN_STATUS_LOCK s.clk.fchgRegion 1

theorem State.regionRuns_rd_state (hregion : s.clk.fchgRegion < 39) : s.regionRuns.rd R.CLK_FCHG_CTRL_STATE = 0 := by
  unfold State.regionRuns
  rw [State.rd_wrAt_ne, State.rd_wrAt_ne, State.rd_wr_same]
  · rfl
  · simp only [Field.key, R.CLK_FCHG_CTRL_STATE, R.CLK_RGN_STATUS_STOPPED]
    omega
  · simp only [Field.key, R.CLK_FCHG_CTRL_STATE, R.CLK_RGN_STATUS_LOCK]
    omega

/-- What a region restarted after `s` shows. -/
def State.RegionShows (s t : State) : Prop := t.rd R.CLK_FCHG_CTRL_STATE = 0 ∧
  t.onAt R.CLK_RGN_STATUS_STOPPED s.clk.fchgRegion = false ∧ t.onAt R.CLK_RGN_STATUS_LOCK s.clk.fchgRegion = true ∧
  (s.clk.fchgRegion < 24 → s.clk.fchgPoint < 4 → t.rdAt R.CLK_RGN_STATUS_OP_POINT s.clk.fchgRegion = s.clk.fchgPoint)

/-- The other status fields of a region beside its operating point. -/
theorem State.onAt_wrAt_point {f : Field} {r v : Nat} (haddr : f.addr = R.CLK_RGN_STATUS_OP_POINT.addr)
    (hstride : f.stride = R.CLK_RGN_STATUS_OP_POINT.stride) (hlo : f.lo ≠ R.CLK_RGN_STATUS_OP_POINT.lo) :
    (s.wrAt R.CLK_RGN_STATUS_OP_POINT r v).onAt f r = s.onAt f r := by
  unfold State.onAt
  rw [State.rdAt_wrAt_ne]
  unfold Field.key
  rw [haddr, hstride]
  omega

theorem execRegionRestart_runs (hstate : s.rd R.CLK_FCHG_CTRL_STATE = 2) (hkind : s.clk.fchgStop = true)
    (hregion : s.clk.fchgRegion < 39) (hbeat : s.now % 16 = 0) (hnow : s.now ≤ s.clk.fchgAt + 3563) :
    ∃ t, exec .regionRestart s = .next t ∧ t.rd R.CLK_FCHG_CTRL_STATE = 0 ∧
      t.onAt R.CLK_RGN_STATUS_STOPPED s.clk.fchgRegion = false ∧ t.onAt R.CLK_RGN_STATUS_LOCK s.clk.fchgRegion = true ∧
      (s.clk.fchgRegion < 24 → s.clk.fchgPoint < 4 → t.rdAt R.CLK_RGN_STATUS_OP_POINT s.clk.fchgRegion = s.clk.fchgPoint) := by
  have hstopped : s.regionRuns.onAt R.CLK_RGN_STATUS_STOPPED s.clk.fchgRegion = false :=
    (State.onAt_stopped_wrAt_lock _ _).trans (State.onAt_wrAt _ _ false rfl)
  have hlock : s.regionRuns.onAt R.CLK_RGN_STATUS_LOCK s.clk.fchgRegion = true := State.onAt_wrAt _ _ true rfl
  refine ⟨_, if_pos ⟨hstate, hkind, hbeat, hnow⟩, ?_⟩
  change State.RegionShows s (if s.clk.fchgRegion < 24 then s.regionRuns.wrAt R.CLK_RGN_STATUS_OP_POINT s.clk.fchgRegion s.clk.fchgPoint
    else s.regionRuns)
  split
  · refine ⟨?_, ?_, ?_, fun _ hpoint => (State.rdAt_wrAt_same _ _ _ _).trans (Nat.mod_eq_of_lt hpoint)⟩
    · refine (State.rd_wrAt_ne _ _ ?_).trans (State.regionRuns_rd_state hregion)
      simp only [Field.key, R.CLK_FCHG_CTRL_STATE, R.CLK_RGN_STATUS_OP_POINT]
      omega
    · exact (State.onAt_wrAt_point (by decide) (by decide) (by decide)).trans hstopped
    · exact (State.onAt_wrAt_point (by decide) (by decide) (by decide)).trans hlock
  · next hbench => exact ⟨State.regionRuns_rd_state hregion, hstopped, hlock, fun h => absurd h hbench⟩

theorem execSyncChangeSwitch_runs (hstate : s.rd R.CLK_FCHG_CTRL_STATE = 1) (hkind : s.clk.fchgStop = false)
    (hlocked : s.clk.standbyLocked = true) (hat : s.clk.fchgAt ≤ s.now) (hstep : s.atStepStart = true) :
    ∃ t, exec .syncChangeSwitch s = .next t ∧ t.clk = { s.clk with standbyLocked := false, switchBeat := true } ∧
      t.pwr = { s.pwr with switchStage := s.lastStage } := by
  refine ⟨_, if_pos ⟨hstate, by simp [hkind], hlocked, hat, hstep⟩, ?_⟩
  have hfetch (u : State) (c : Nat) (run : Bool) : (if run then (u.fetchEntries c).holdEntries c else u).clk = u.clk ∧
      (if run then (u.fetchEntries c).holdEntries c else u).pwr = u.pwr := by
    split
    · exact ⟨((State.holdEntries_frame _ c).same .clk (by decide)).trans ((u.fetchEntries_frame c).same .clk (by decide)),
        ((State.holdEntries_frame _ c).same .pwr (by decide)).trans ((u.fetchEntries_frame c).same .pwr (by decide))⟩
    · exact ⟨rfl, rfl⟩
  have hpoints (u : State) (n : Nat) : ((u.setPoints n 24).wr R.CLK_FCHG_CTRL_STATE 2).clk = u.clk ∧
      ((u.setPoints n 24).wr R.CLK_FCHG_CTRL_STATE 2).pwr = u.pwr := by
    rw [State.wr_clk, State.wr_pwr]
    exact ⟨(u.setPoints_frame n 24).same .clk (by decide), (u.setPoints_frame n 24).same .pwr (by decide)⟩
  constructor
  · rw [(State.showLevel_frame _).same .clk (by decide), (State.changeApplied_frame ..).same .clk (by decide)]
    refine (foldl_keeps State.clk _ (fun u x => ?_) _ _).trans (hpoints _ _).1
    exact (hfetch u _ _).1
  · rw [(State.showLevel_frame _).same .pwr (by decide), (State.changeApplied_frame ..).same .pwr (by decide)]
    refine (foldl_keeps State.pwr _ (fun u x => ?_) _ _).trans (hpoints _ _).2
    exact (hfetch u _ _).2

end

/-- Settles O6. -/
theorem frequencyChangeRuns : Obligations.FrequencyChangeRuns := by
  refine ⟨fun s hstate hkind hregion hat hplan => ⟨_, execFchgArm_stop hstate hkind hregion hat hplan, ?_⟩,
    fun s hstate hstop hsync happlied => ⟨_, execFchgDisarm_armed hstate hstop hsync happlied, ?_⟩,
    fun s => execFchgDisarm_due, fun s => execRegionStop_runs, fun s => execRegionRestart_runs,
    fun s hstate hkind => if_pos ⟨hstate, by simp [hkind]⟩, fun s => execSyncChangeSwitch_runs⟩
  · exact ⟨State.rd_wr_same _ _ _, rfl, rfl, hkind⟩
  · exact ⟨State.rd_wr_same _ _ _, s.dropChange_keeps_clk 5 0⟩

end Sys2Proof.Machine
end

section
/-! Proof of `Obligations.TallyRuns`. -/

namespace Sys2Proof.Machine

open Sys2Proof

section

variable {s : State}

theorem execHoldoverEntry_runs (hrole : s.rd R.TAL_STATUS_ROLE = 0) (hoff : s.on R.TAL_STATUS_HOLDOVER = false)
    (hloss : s.tal.lastMarker + usTicks (s.rd R.TAL_CTRL_LOSS_US) ≤ s.now) :
    ∃ t, exec .holdoverEntry s = .next t ∧ t.rd R.TAL_STATUS_HOLDOVER = 1 ∧ t.tal = s.tal :=
  ⟨_, if_pos ⟨hrole, by simp [hoff], hloss⟩, (State.notice_rd_out _ _ _ _ _ _ _ (by decide)).trans (State.rd_wr_same _ _ _),
    (State.notice_recorded _ _ _ _ _ _).tal⟩

theorem execTimeMapReceived_runs {pkt : TimePkt} (hop : pkt.op = 1) (htally : pkt.tally < 2 ^ 64) (hsec : pkt.ptpS < 2 ^ 48) :
    ∃ t, exec (.timeMapReceived pkt) s = .next t ∧ t.rd R.TAL_MAP_TALLY_TICKS = pkt.tally ∧ t.rd R.TAL_MAP_S_SECONDS = pkt.ptpS := by
  refine ⟨_, if_pos hop, ?_, ?_⟩
  · simp (disch := decide) only [State.rd_wr_ne, State.rd_wr_same]
    exact Nat.mod_eq_of_lt htally
  · simp (disch := decide) only [State.rd_wr_ne, State.rd_wr_same]
    exact Nat.mod_eq_of_lt hsec

theorem execTalCapture_runs :
    ∃ t, exec .talCapture s = .next t ∧ t.rd R.TAL_CAPTURE_VAL_TICKS = s.now % 2 ^ 64 ∧ t.rd R.PTP_CAPTURE_NS_NS = s.ptpNs % 2 ^ 30 := by
  refine ⟨_, rfl, ?_, State.rd_wr_same _ _ _⟩
  simp (disch := decide) only [State.rd_wr_ne, State.rd_wr_same]
  rfl

/-- The Tally's record of a valid marker from upstream. -/
def State.noteMarker (s : State) (m : Marker) : State :=
  { s with tal := { s.tal with lastMarker := s.now, root := m.root, hops := m.hops + 1, rootPtp := bit 3 m.flags } }

/-- A valid marker from upstream, once its block has been accepted (R53, R285). -/
theorem execMarkerReceived_upstream {port : Fin 16} {blk : WireBlock} {arrival : Stamp} {b : LinkBlock} {m : Marker}
    (haccept : (s.accept port blk).2 = some b) (htype : b.type = 6) (hdecode : Marker.decode b.data = some m) (hhops : m.hops < 8)
    (hrole : (s.accept port blk).1.rd R.TAL_STATUS_ROLE = 0)
    (hup : (s.accept port blk).1.rd R.TAL_STATUS_UPSTREAM = port.val) :
    execMarkerReceived port blk arrival s = .next (
      let u := ((s.accept port blk).1.incAt R.HAUL_MARKER_COUNT_RX port).noteMarker m
      u.takeMarker (u.markerOffset port m.tDep (u.arrives port arrival))) := by
  obtain ⟨t, o, ht⟩ : ∃ t o, s.accept port blk = (t, o) := ⟨_, _, rfl⟩
  rw [ht] at haccept hrole hup ⊢
  obtain rfl : o = some b := haccept
  unfold execMarkerReceived
  rw [ht]
  dsimp only at hrole hup ⊢
  have hrole' : (t.incAt R.HAUL_MARKER_COUNT_RX port).rd R.TAL_STATUS_ROLE = 0 :=
    (State.rd_incAt_ne t (by simp only [Field.key, R.TAL_STATUS_ROLE, R.HAUL_MARKER_COUNT_RX]; omega)).trans hrole
  have hup' : (t.incAt R.HAUL_MARKER_COUNT_RX port).rd R.TAL_STATUS_UPSTREAM = port.val :=
    (State.rd_incAt_ne t (by simp only [Field.key, R.TAL_STATUS_UPSTREAM, R.HAUL_MARKER_COUNT_RX]; omega)).trans hup
  rw [if_pos htype, hdecode]
  dsimp only
  rw [if_pos hhops, if_pos ⟨hrole', hup'⟩]
  rfl

end

/-- Settles O7. -/
theorem tallyRuns : Obligations.TallyRuns := by
  refine ⟨fun s reports benches ecc prefetch volts amps hrun hbeat => if_pos ⟨hrun, hbeat⟩, fun s => rfl,
    fun s => execHoldoverEntry_runs, fun s hplan => if_neg (by simp [hplan]), fun s hrole hfollow => if_pos ⟨hrole, hfollow⟩,
    fun s pkt => execTimeMapReceived_runs, fun s source pkt hop => if_pos hop, fun s => execTalCapture_runs, ?_⟩
  intro s port blk arrival b m haccept htype hdecode hhops hrole hup
  exact execMarkerReceived_upstream haccept htype hdecode hhops hrole hup

end Sys2Proof.Machine
end

section
/-! Proofs of `Obligations.VectorFormsRun` and `Obligations.MatrixOpsRun`: the operation issues (`State.operate_runs`), what it reads fits
(`State.reading_runs`), and its meaning takes the branch of the clause. -/

namespace Sys2Proof.Machine

open Sys2Proof

/-! ## Spans of bench store -/

theorem spansFit_cons (x : Nat × Nat) (l : List (Nat × Nat)) : spansFit (x :: l) = true ↔ x.1 + x.2 ≤ storeSize ∧ spansFit l = true := by
  simp [spansFit]

theorem spansFit_map {α : Type} (l : List α) (f : α → Nat × Nat) : spansFit (l.map f) = true ↔ ∀ x ∈ l, (f x).1 + (f x).2 ≤ storeSize := by
  simp [spansFit]

/-- Settles O8, operation by operation. -/
theorem vectorFormsRun : Obligations.VectorFormsRun := by
  refine ⟨?vcmp, ?vcvt, ?vcvb, ?vtlv, ?vtlf, ?vred, ?vkrf⟩
  case vcmp =>
    rintro s u q i v hissue rfl rfl heven hkind
    change execVcmp i v s = _
    simp only [execVcmp, State.operate_runs _ hissue, heven, if_pos hkind]
    rfl
  case vcvt =>
    rintro s u x i v k d g f hissue rfl rfl rfl hsource htarget hround
    change execVcvt i v k s = _
    simp only [execVcvt, State.operate_runs _ hissue, hsource, htarget, if_pos hround]
  case vcvb =>
    rintro s u x i v scaleOff k d f hissue rfl rfl rfl htarget hscalable hround hfit
    change execVcvb i v scaleOff k s = _
    simp only [execVcvb, State.operate_runs _ hissue, htarget, hscalable, hround, if_pos hfit]
    rfl
  case vtlv =>
    rintro s u q x i v head tree level ecc e hissue rfl rfl rfl hensemble hhead hlevel rfl
    have hfit : spansFit [(head, 8), (treeAt head e tree + 8 * level.val, 8)] = true :=
      (spansFit_cons _ _).mpr ⟨hhead, (spansFit_cons _ _).mpr ⟨hlevel, rfl⟩⟩
    change execVtlv i v head tree level .clean s = _
    simp only [execVtlv, State.operate_runs _ hissue, hensemble, State.reading_runs _ hfit]
  case vtlf =>
    rintro s u q x i v head tree ecc e hissue rfl rfl rfl hensemble hhead hleaves rfl
    have hfit := (spansFit_cons (head, 8) ((List.range 128).map fun l =>
      (treeAt head e tree + 8 * e.depth + 4 * ((((s.issued i (.vector 0x41 v)).seen i.bench).benchOf i.bench).lane v.s1 l % 2 ^ e.depth),
        4))).mpr ⟨hhead, (spansFit_map _ _).mpr fun l hl => hleaves l (List.mem_range.mp hl)⟩
    change execVtlf i v head tree .clean s = _
    simp only [execVtlf, State.operate_runs _ hissue, hensemble, State.reading_runs _ hfit]
    split
    · rfl
    · rfl
  case vred =>
    rintro s u q i v first r hissue rfl rfl hreduction
    change execVred i v first s = _
    simp only [execVred, State.operate_runs _ hissue, hreduction]
  case vkrf =>
    rintro s u x i v k r hissue rfl rfl rfl
    change execVkrf i v k s = _
    simp only [execVkrf, State.operate_runs _ hissue]

/-- Settles O9, operation by operation. -/
theorem matrixOpsRun : Obligations.MatrixOpsRun := by
  refine ⟨?mgr, ?mgb, ?mpa, ?mcv, ?mxp⟩
  case mgr =>
    rintro s u q i m l present ecc d tl hissue rfl rfl rfl htile hform hfit rfl
    change ∃ t, execMgr i m l present .clean s = .next t ∧ _
    simp only [execMgr, State.operate_runs _ hissue, htile, if_neg hform, State.reading_runs _ hfit]
    refine ⟨_, rfl, ?_, ?_⟩
    · simp
    · simp
  case mgb =>
    rintro s u q i m l axis ecc d tl all blocks hissue rfl rfl rfl htile hform rfl rfl hfit rfl
    obtain ⟨hbitmap, -⟩ := (spansFit_cons _ _).mp hfit
    have hmap : ¬ (!spansFit [(128 * ((s.issued i (.matrix 2 m)).desc i.bench m.desc).bitmap, 8 * ceilDiv axis 1024)]) = true := by
      simpa [spansFit] using hbitmap
    change ∃ t, execMgb i m l axis .clean s = .next t ∧ _
    simp only [execMgb, State.operate_runs _ hissue, htile, hform, if_neg hmap]
    simp only [ne_eq, not_true_eq_false, if_false, State.reading_runs _ hfit]
    refine ⟨_, rfl, ?_, ?_⟩
    · rw [State.countGated_keeps_mem, State.countMatrix_keeps_mem]
      refine foldl_keeps State.mem _ (fun v x => ?_) _ _
      exact (State.takeBlock_frame ..).same .mem (by decide)
    · simp
  case mpa =>
    rintro s u q i m l half ecc d tl hissue rfl rfl rfl htile hexact hfit rfl
    change ∃ t, execMpa i m l half .clean s = .next t ∧ _
    simp only [execMpa, State.operate_runs _ hissue, htile, hexact, State.reading_runs _ hfit]
    refine ⟨_, rfl, ?_, ?_⟩
    · simp
    · simp
  case mcv =>
    rintro s u q i m l half k ecc d tl f hissue rfl rfl rfl htile hformat hround hfit rfl
    have hsome : ¬ (roundingOf f ((s.issued i (.matrix 4 m)).desc i.bench m.desc).rm 0).isNone = true := by
      simp [Option.isSome_iff_ne_none.mp hround]
    change execMcv i m l half k .clean s = _
    simp only [execMcv, State.operate_runs _ hissue, htile, hformat, if_neg hsome, State.reading_runs _ hfit]
  case mxp =>
    rintro s u x i m l half d tl hissue rfl rfl rfl htile hexact hfit
    change execMxp i m l half s = _
    simp only [execMxp, State.operate_runs _ hissue, htile, hexact, if_pos hfit]
    rfl

end Sys2Proof.Machine
end

section
/-! Proof of `Obligations.MoveOpsRun`. -/

namespace Sys2Proof.Machine

open Sys2Proof

/-- Settles O10, operation by operation. -/
theorem moveOpsRun : Obligations.MoveOpsRun := by
  refine ⟨?vld, ?vst, ?copy, ?msnd, ?mrcv, ?gwin, ?zfill, ?bref, ?brefDone, ?mesh⟩
  case vld =>
    rintro s u q i m ecc hissue rfl rfl hfit rfl
    change execVld i m .clean s = _
    simp only [execVld, State.operate_runs _ hissue, State.reading_one _ hfit]
  case vst =>
    rintro s u q i m hissue rfl rfl hfit
    have hspan : spansFit [(128 * m.addr.val, 512)] = true := (spansFit_cons _ _).mpr ⟨hfit, rfl⟩
    change execVst i m s = _
    simp only [execVst, State.operate_runs _ hissue, if_pos hspan]
  case copy =>
    rintro s u q i m ecc hissue rfl rfl hfrom hto rfl
    have hspans : spansFit [(128 * m.addr.val, 128 * (m.id.val + 1)), (128 * m.addr2.val, 128 * (m.id.val + 1))] = true :=
      (spansFit_cons _ _).mpr ⟨hfrom, (spansFit_cons _ _).mpr ⟨hto, rfl⟩⟩
    change execCopy i m .clean s = _
    simp only [execCopy, State.operate_runs _ hissue, State.reading_runs _ hspans]
  case msnd =>
    rintro s u q i m ecc r hissue rfl rfl hroute hfit rfl
    have hroute' (x : Bench) : ((s.issued i (.move 4 m)).setBench i.bench x).meshRoute? i.bench m.id = some r := hroute
    change ∃ t, execMsnd i m .clean s = .next t ∧ _
    simp only [execMsnd, State.operate_runs _ hissue, hroute, hroute', State.reading_one _ hfit]
    refine ⟨_, rfl, rfl, ?_, (Tab.find?_ins ..).trans (if_pos rfl)⟩
    refine (congrArg (fun x : Bench => Tab.find? m.id.val x.handed) (State.benchOf_setBench ..)).trans ?_
    exact (Tab.find?_ins ..).trans (if_pos rfl)
  case mrcv =>
    intro s i m hissue
    change ∃ t, execMrcv i m s = .next t ∧ _
    simp only [execMrcv, State.operate_runs _ hissue]
    refine ⟨_, rfl, ?_, ?_⟩
    · simp
    · simp [Tab.find?_ins]
  case gwin =>
    rintro s u i m d hissue rfl hwindow
    constructor
    · intro hstarted hlist
      change execGwin i m s = _
      simp only [execGwin, State.operate_runs _ hissue, hwindow]
      rw [if_neg]
      rintro (h | h)
      · exact absurd (hstarted.symm.trans h) Bool.false_ne_true
      · split at h
        · next g hg => simp [hlist g hg] at h
        · exact Bool.false_ne_true h
    · intro hstarted
      change execGwin i m s = _
      simp only [execGwin, State.operate_runs _ hissue, hwindow]
      rw [if_pos (Or.inl hstarted)]
  case zfill =>
    rintro s u i m hissue rfl hfit
    have hspan : spansFit [(128 * m.addr.val, 128 * (m.id.val + 1))] = true := (spansFit_cons _ _).mpr ⟨hfit, rfl⟩
    change execZfill i m s = _
    simp only [execZfill, State.operate_runs _ hissue, if_pos hspan]
  case bref =>
    rintro s u q i m ecc hissue rfl rfl hfit rfl
    change ∃ t, execBref i m .clean s = .next t ∧ _
    simp only [execBref, State.operate_runs _ hissue, State.reading_one _ hfit]
    refine ⟨_, rfl, ?_, ?_⟩
    · simp
    · simp
  case brefDone =>
    intro s bench page hdone
    exact if_neg (Nat.not_lt.mpr hdone)
  case mesh =>
    intro s bench route r data a hroute hhanded hbound harrived
    change execMeshTransferComplete bench route s = _
    simp only [execMeshTransferComplete, hroute, hhanded, hbound, harrived, if_true]

end Sys2Proof.Machine
end

section
/-! Proof of `Obligations.ControlSlotsRun`. -/

namespace Sys2Proof.Machine

open Sys2Proof

section

variable {s : State}

theorem State.scrubNext_csr (key n : Nat) : (s.scrubNext key n).1.csr = s.csr :=
  congrArg Prod.fst ((s.scrubNext_frame key n).same .csr (by decide))

theorem State.scrubNext_mem (key n : Nat) : (s.scrubNext key n).1.mem = s.mem := (s.scrubNext_frame key n).same .mem (by decide)

end

/-- Settles O11, slot by slot. -/
theorem controlSlotsRun : Obligations.ControlSlotsRun := by
  refine ⟨?beat, ?step, ?jump, ?lset, ?loop, ?cset, ?waitc, ?fdec, ?forkWaits, ?forkTaken, ?bkfl, ?tagr, ?tagrWaits, ?scrub⟩
  case beat =>
    rintro s u i c hissue rfl
    change execBeat i c s = _
    simp only [execBeat, State.operate_runs _ hissue]
    split
    · rfl
    · rfl
  case step =>
    intro s i c hissue
    change execStep i c s = _
    rw [execStep, State.operate_runs _ hissue]
  case jump =>
    intro s i c hissue
    change ∃ t, execJump i c s = .next t ∧ _
    simp only [execJump, State.operate_runs _ hissue]
    refine ⟨_, rfl, ?_, ?_⟩
    · simp [State.goTo, Bench.goTo, Nat.mod_eq_of_lt c.target.isLt]
    · simp [State.goTo]
  case lset =>
    intro s i c hissue
    change ∃ t, execLset i c s = .next t ∧ _
    simp only [execLset, State.operate_runs _ hissue]
    refine ⟨_, rfl, ?_⟩
    simp [Tab.get_put]
  case loop =>
    intro s i c n hissue hcount
    change ∃ t, execLoop i c s = .next t ∧ _
    simp only [execLoop, State.operate_runs _ hissue, hcount]
    refine ⟨_, rfl, ?_, ?_⟩
    · simp [State.goTo, Bench.goTo, Tab.get_put]
    · simp [State.goTo, Bench.goTo, Nat.mod_eq_of_lt c.target.isLt]
  case cset =>
    intro s i c hissue
    change ∃ t, execCset i c s = .next t ∧ _
    simp only [execCset, State.operate_runs _ hissue]
    refine ⟨_, rfl, ?_⟩
    simp [State.counter, State.setCounter, Tab.get_put]
  case waitc =>
    intro s i c hissue
    change execWaitc i c s = _
    simp only [execWaitc, State.operate_runs _ hissue]
    split
    · rfl
    · rfl
  case fdec =>
    rintro s u q i c f hissue himm rfl rfl hfork
    change execFdec i c s = _
    simp only [execFdec, State.operate_runs _ hissue, hfork, if_pos himm]
  case forkWaits =>
    intro s i c hissue hidle
    change execFork i c s = _
    simp only [execFork, State.operate_runs _ hissue]
    split
    · next f w hfork hword =>
      rw [hidle f hfork]
      rfl
    · rfl
  case forkTaken =>
    rintro s u i c f w hissue rfl hfork hword hruns
    change execFork i c s = _
    simp only [execFork, State.operate_runs _ hissue, hfork, hword, hruns, if_true]
  case bkfl =>
    intro s i c hissue hended
    change ∃ t, execBkfl i c s = .next t ∧ _
    simp only [execBkfl, State.operate_runs _ hissue]
    split
    · refine ⟨_, rfl, ?_⟩
      simp [State.waits]
    · next f hfork =>
      have hopen : ((s.issued i (.control 10 c)).forkRun f.number).ended = false := hended f hfork
      rw [if_neg, if_neg]
      · refine ⟨_, rfl, ?_⟩
        simp [State.waits]
      · exact fun h => Bool.false_ne_true (hopen.symm.trans h)
      · exact fun h => Bool.false_ne_true (hopen.symm.trans h.1)
  case tagr =>
    rintro s u q i c t ecc x hissue hfit rfl rfl rfl rfl hroom hprov hintake hread
    have hwait : ¬ (s.canIssue i (.control 11 c) && bit (s.rdAt R.BCH_SEQ_STATUS_CTX i.bench) (s.rd R.GEN_PROV_EN) &&
        !s.tagFits 1) = true := by
      simpa [hissue] using hroom
    refine (if_neg hwait).trans ?_
    simp only [State.operate_runs _ hissue, State.reading_one _ hfit, hprov, hintake]
    obtain ⟨v, ok, hspans⟩ : ∃ v ok, (s.issued i (.control 11 c)).readSpans
      ((s.issued i (.control 11 c)).rdAt R.BCH_SEQ_STATUS_CTX i.bench) t.samples = (v, ok) := ⟨_, _, rfl⟩
    rw [hspans] at hread ⊢
    obtain rfl : ok = true := hread
    rfl
  case tagrWaits =>
    intro s i c t ecc hissue hprov hroom
    exact if_pos (by simp [hissue, hprov, hroom])
  case scrub =>
    rintro s bench ecc n rfl hpass hlast
    obtain ⟨u, k, p, hscrub⟩ : ∃ u k p, s.scrubNext (32 + bench.val) (storeSize / 8) = (u, k, p) := ⟨_, _, _, rfl⟩
    change ∃ t, execBenchScrub bench .clean s = .next t ∧ _
    unfold execBenchScrub
    have hcsr : u.csr = s.csr := by simpa [hscrub] using s.scrubNext_csr (32 + bench.val) (storeSize / 8)
    have hmem : u.mem = s.mem := by simpa [hscrub] using s.scrubNext_mem (32 + bench.val) (storeSize / 8)
    rw [hscrub] at hpass ⊢
    obtain rfl : p = some n := hpass
    refine ⟨_, rfl, ?_, ?_, ?_⟩
    · refine (State.rdAt_wrAt_same ..).trans ?_
      rw [Nat.min_eq_left (by omega)]
      exact Nat.mod_eq_of_lt hlast
    · refine (State.rdAt_wrAt_ne _ _ (by simp only [Field.key, R.BCH_SCRUB_PASSES, R.BCH_SCRUB_LAST_PASS]; omega)).trans ?_
      refine (State.rdAt_incAt_same ..).trans ?_
      have hcount : u.rdAt R.BCH_SCRUB_PASSES bench = s.rdAt R.BCH_SCRUB_PASSES bench := by unfold State.rdAt; rw [hcsr]
      exact congrArg (fun k => min (k + 1) R.BCH_SCRUB_PASSES.max) hcount
    · exact hmem

end Sys2Proof.Machine
end

section
/-! # Proofs: haul slots, scheduled transfers and forks

What a command of the haul schedule does is read off its definition at the job's slot 7 and the entry; what a fork does, off the
fork point that its number finds, which carries that number. -/
namespace Sys2Proof.Machine
open Sys2Proof

/-- Settles O12, command by command; the two deadline checks are those of O59. -/
theorem haulSlotsAndScheduleRun : Obligations.HaulSlotsAndScheduleRun := by
  refine ⟨?hput, ?hget, ?hvod, ?send, ?forward, ?detour, ?recv, ?repeated⟩
  case hput =>
    rintro s u q i h overflow ecc e hissue rfl rfl hentry hfit rfl
    change execHput i h overflow .clean s = _
    simp only [execHput, State.operate_runs _ hissue, hentry, State.reading_one _ hfit]
  case hget =>
    intro s i h hissue
    change execHget i h s = _
    simp only [execHget, State.operate_runs _ hissue]
  case hvod =>
    rintro s u i h group slot e hissue rfl hentry
    change execHvod i h group slot s = _
    simp only [execHvod, State.operate_runs _ hissue, hentry]
  case send =>
    rintro s port entry j e x hjob hentry htype hrun hdue hactive rfl hsent hpath hlate hbefore
    change execSendDeparture port entry s = _
    simp only [execSendDeparture, hjob, hentry]
    rw [if_pos ⟨htype, hrun, hdue, hactive, by simp [hsent], by simp [hpath], by simp [hlate], by simp [hbefore]⟩]
    split <;> rfl
  case forward =>
    intro s port entry b j hnext hshare
    change execForwardDeparture port entry s = _
    unfold execForwardDeparture
    rw [hnext]
    exact if_neg (by simp [hshare])
  case detour =>
    intro s port entry j e hjob hentry hdue
    change execDetourDeparture port entry s = _
    unfold execDetourDeparture
    simp only [hjob, hentry]
    exact if_pos hdue
  case recv =>
    exact fun s port entry j e hjob hentry htype hrun hdue hactive hfails hdone =>
      execRecvDeadlineCheck_missed hjob hentry htype hrun hdue hactive hfails hdone
  case repeated =>
    exact fun s port entry j e n hjob hentry hrecheck hcount hrun hdone =>
      execRepeatedDeadlineCheck_missed hjob hentry hrecheck hcount hrun hdone

/-- The fork point that a number finds carries that number. -/
theorem State.fork?_number {s : State} {n : Nat} {f : ForkPoint} (h : s.fork? n = some f) : f.number = n := by
  unfold State.fork? at h
  split at h
  · simpa using List.find?_some h
  · cases h

/-- Settles O13, command by command. -/
theorem forkRulesRun : Obligations.ForkRulesRun := by
  refine ⟨?send, ?received, ?deadline, ?commit, ?variantEnd, ?rejoin⟩
  case send =>
    intro s port entry fork j f e w path hjob hfork hentry hword htype hrun hdue hsent hpath hcopies hopen
    change execForkDecisionSend port entry fork s = _
    simp only [execForkDecisionSend, hjob, hfork, hentry, hword, hopen, Option.isSome_some, if_true]
    exact if_pos ⟨htype, hrun, hdue, by simp [hsent], by simp [hpath], hcopies⟩
  case received =>
    intro s header f hok hkind hfork hrun hstep hword
    change execForkDecisionReceived header s = _
    simp only [execForkDecisionReceived]
    rw [if_pos ⟨hok, hkind⟩, hfork]
    dsimp only
    rw [if_pos ⟨hrun, hstep⟩, hword]
  case deadline =>
    intro s fork f hfork hdue hcommitted hword hholds
    change execForkDeadlineCheck fork s = _
    simp only [execForkDeadlineCheck, hfork]
    rw [if_pos ⟨hdue, by simp [hcommitted]⟩, if_neg (by simp [hword])]
    refine if_neg (Nat.not_le.mpr ?_)
    rwa [State.rd_wrAt_ne _ _ (by simp only [Field.key, R.FRK_CTRL_MAX_HOLDS, R.FRK_FORK_STATUS_LATE]; omega),
      State.rd_wr_ne _ _ (by decide), State.rd_inc_ne _ (by decide)]
  case commit =>
    intro s fork f w hfork hrun hdue hpos hcommitted hword
    have hnumber : f.number = fork.val := State.fork?_number hfork
    change execForkCommit fork s = _
    simp only [execForkCommit, hfork, hword]
    rw [if_pos (by simp [State.commitDue, hrun, hdue, hpos, hnumber, hcommitted])]
    simp only [State.commitFork, hnumber, hword]
  case variantEnd =>
    intro s fork f w hfork hword hcommitted hended hdue
    have hnumber : f.number = fork.val := State.fork?_number hfork
    change execForkVariantEnd fork s = _
    simp only [execForkVariantEnd, hfork, State.endVariant, hnumber, hword]
    rw [if_pos ⟨hcommitted, by simp [hended], hdue⟩]
  case rejoin =>
    intro s fork f hfork hcommitted hdue
    have hnumber : f.number = fork.val := State.fork?_number hfork
    change execForkRejoin fork s = _
    simp only [execForkRejoin, hfork, State.rejoinFork, hnumber]
    rw [if_pos ⟨hcommitted, hdue⟩]

end Sys2Proof.Machine
end

section
/-! # Proofs: modes, seals, and a plan from its stage to its end

A change of a plan of one module, or of no plan, is the block's own: what arming it does is what the block accepts. -/
namespace Sys2Proof.Machine
open Sys2Proof

section

variable {s : State}

/-- A change that no plan of several modules names is armed here alone (R371). -/
theorem State.armChange_alone {kind ctx a e : Nat} (accept refuse : State → State)
    (h : ∀ p, s.changePlan kind ctx = some p → p.count ≤ 1) : s.armChange kind ctx a e true accept refuse = accept s := by
  unfold State.armChange
  split
  · rfl
  · next p hp => exact if_pos (h p hp)

end

/-- Settles O14, command by command. -/
theorem modesAndSealsRun : Obligations.ModesAndSealsRun := by
  refine ⟨?arm, ?disarm, ?disarmLoses, ?effect, ?signed, ?close⟩
  case arm =>
    intro s hidle haligned hlater hstrict
    have hactive : s.pln.active = none := by simpa [State.planActive] using hidle
    change execGenModeArm s = _
    unfold execGenModeArm
    dsimp only
    rw [hidle, haligned, hstrict, decide_eq_true hlater]
    exact congrArg Host.Outcome.next (State.armChange_alone _ _ fun p hp => by simp [State.changePlan, hactive] at hp)
  case disarm =>
    intro s harmed hready happlied
    change execGenModeDisarm s = _
    unfold execGenModeDisarm
    simp only [harmed, hready, List.contains_eq_mem, happlied]
    exact if_neg (by simp)
  case disarmLoses =>
    intro s harmed hready
    exact if_pos (.inl ⟨by simp [harmed], hready⟩)
  case effect =>
    intro s harmed hidle hcount hstrict hrelaxed
    have hready : s.modeReady = true := by simp [State.modeReady, hidle, hcount]
    change execModeChangeEffect s = _
    unfold execModeChangeEffect
    rw [if_pos ⟨harmed, hready⟩]
    have hafter : ((s.wr R.GEN_MODE_NEXT_STATE 0).changeApplied 4 0 0).gen.modeStrict = true := by simp [hstrict]
    simp only [hstrict, hrelaxed, hafter]
    rfl
  case signed =>
    intro s b rest hunsigned hdie
    change execSealSigned s = _
    simp only [execSealSigned, hunsigned, hdie]
    rfl
  case close => exact fun s h => if_pos h

section

variable {s : State}

theorem State.showBindings_keeps_code : s.showBindings.rd R.PLN_VERIFY_CODE = s.rd R.PLN_VERIFY_CODE := by
  unfold State.showBindings
  refine foldl_keeps (fun u : State => u.rd R.PLN_VERIFY_CODE) _ (fun u c => ?_) _ _
  dsimp only
  refine (State.rd_wrAt_ne _ _ ?_).trans (State.rd_wrAt_ne _ _ ?_)
  · simp only [Field.key, R.PLN_VERIFY_CODE, R.WGT_CTX_WRITABLE]; omega
  · simp only [Field.key, R.PLN_VERIFY_CODE, R.WGT_CTX_SWAP]; omega

/-- What the plan stage says of the activation. -/
def Pln.activation (x : Pln) : Option Plan × Bool × Bool := (x.active, x.armed, x.loading)

theorem State.startCtx_activation (p : Plan) (x : PlanCtx) : (s.startCtx p x).pln.activation = s.pln.activation := by
  unfold State.startCtx
  extract_lets c ext u e v w y standby
  have hy : y.pln.activation = s.pln.activation := by
    unfold y
    split
    · simp [v, u, State.setCtx, Pln.activation]
    · extract_lets keep w' t
      have ht : t.pln.activation = s.pln.activation := by simp [t, v, u, State.setCtx, Pln.activation]
      split
      · exact ht
      · exact ht
  split
  · simpa using hy
  · exact hy

/-- The load phase leaves the schedule as it is once the job stands in it. -/
theorem State.loadPhase_sch {α : Type} (p : Plan) (f : State → α → State) (hf : ∀ u e, (f u e).sch = u.sch) (l : List α) :
    (l.foldl f (s.showEntries.loadBenches p)).showAct.sch = s.sch :=
  ((State.showAct_frame _).same .sch (by decide)).trans ((foldl_keeps State.sch f hf l _).trans
    (((State.loadBenches_frame ..).same .sch (by decide)).trans ((State.showEntries_frame s).same .sch (by decide))))

theorem State.loadPhase_pln {α : Type} (p : Plan) (f : State → α → State) (hf : ∀ u e, (f u e).pln = u.pln) (l : List α) :
    (l.foldl f (s.showEntries.loadBenches p)).showAct.pln = s.pln :=
  ((State.showAct_frame _).same .pln (by decide)).trans ((foldl_keeps State.pln f hf l _).trans
    (((State.loadBenches_frame ..).same .pln (by decide)).trans ((State.showEntries_frame s).same .pln (by decide))))

theorem State.beforeStart_activation (p : Plan) :
    ((((((s.restartCounts.showPlan p).pairUp p).newDetours p).rampFloor 16).keepLandings p).pln).activation = s.pln.activation := by
  rw [(State.keepLandings_frame ..).same .pln (by decide), (State.rampFloor_frame ..).same .pln (by decide), State.newDetours_keeps_pln,
    (State.pairUp_frame ..).same .pln (by decide), State.showPlan_keeps_pln, (State.restartCounts_frame ..).same .pln (by decide)]

theorem State.startAll_activation (p : Plan) (l : List PlanCtx) :
    (l.foldl (fun s x => s.fetchEntries x.ctx) (l.foldl (fun s x => s.startCtx p x) s)).pln.activation = s.pln.activation := by
  rw [foldl_keeps State.pln (fun s (x : PlanCtx) => s.fetchEntries x.ctx) (fun u x => u.fetchEntries_keeps_pln x.ctx) l _]
  exact foldl_keeps (fun u : State => u.pln.activation) _ (fun u x => u.startCtx_activation p x) l s

theorem Pln.of_activation {x : Pln} {p : Plan} (h : x.activation = (some p, false, false)) :
    x.active = some p ∧ x.armed = false ∧ x.loading = false :=
  ⟨congrArg Prod.fst h, congrArg (fun y => y.2.1) h, congrArg (fun y => y.2.2) h⟩

end

/-- Settles O15, command by command. -/
theorem planStagingRun : Obligations.PlanStagingRun := by
  refine ⟨?verify, ?complete, ?discard, ?arm, ?disarm, ?disarmLoses, ?load, ?activation, ?fails⟩
  case verify =>
    intro s harmed hready
    refine ⟨_, if_neg (by simp [State.activationArmed, harmed, hready]), ?_, ?_, ?_⟩
    · rw [State.showBindings_keeps_stage, State.rd_wr_ne _ _ (by decide), State.rd_wr_same]
      rfl
    · simp
    · simp
  case complete =>
    rintro s reading verdict sect offset l p hstage rfl rfl
    change ∃ t, execVerifyComplete reading verdict sect offset s = .next t ∧ _
    unfold execVerifyComplete
    rw [if_pos hstage]
    dsimp only
    generalize s.verifyFailure _ _ _ _ _ _ = failure
    rcases failure with _ | ⟨code, i, o⟩
    · refine ⟨_, rfl, ?_, ?_, ?_, ?_⟩
      · simp
      · simp
      · rw [State.showBindings_keeps_stage, State.rd_wr_same]
        rfl
      · rw [State.showBindings_keeps_code]
        simp (disch := decide) only [State.rd_wr_ne, State.rd_wr_same]
        rfl
    · refine ⟨_, rfl, ?_, ?_, ?_, ?_, ?_, ?_⟩
      · simp
      · exact ((State.notice_frame ..).same .pln (by decide)).trans (s.countBadSignature_keeps_pln code)
      · rw [State.notice_rd_out _ _ _ _ _ _ _ (by decide), State.rd_wr_ne _ _ (by decide), State.rd_wr_same]
        rfl
      · rw [State.notice_rd_out _ _ _ _ _ _ _ (by decide), State.rd_wr_same]
        rfl
      · rw [State.notice_rd_out _ _ _ _ _ _ _ (by decide)]
        simp (disch := decide) only [State.rd_wr_ne, State.rd_wr_same]
      · rw [State.notice_rd_out _ _ _ _ _ _ _ (by decide)]
        simp (disch := decide) only [State.rd_wr_ne, State.rd_wr_same]
        exact Nat.mod_eq_of_lt (Nat.lt_succ_of_le (Nat.min_le_right i 255))
  case discard =>
    intro s harmed
    refine ⟨_, if_neg (by simp [State.activationArmed, harmed]), ?_, ?_, ?_, ?_⟩
    · rw [State.showBindings_keeps_stage, State.rd_wr_ne _ _ (by decide), State.rd_wr_same]
      rfl
    · rw [State.showBindings_keeps_id, State.rd_wr_same]
      rfl
    · simp
    · simp
  case arm =>
    intro s twinFault p hstaged hcount hload hcode
    have hchange : ∀ q, s.changePlan 1 0 = some q → q.count ≤ 1 := by
      intro q hq
      obtain rfl : p = q := Option.some.inj (hstaged.symm.trans hq)
      exact hcount
    refine (execPlnArm_armChange twinFault hload).trans ?_
    rw [hcode, beq_self_eq_true, State.armChange_alone _ _ hchange]
    rfl
  case disarm =>
    intro s harmed hload hactivation hstop hlater
    change execPlnDisarm s = _
    unfold execPlnDisarm
    dsimp only
    rw [if_neg, if_pos harmed, if_neg (by simp [hload])]
    simp only [List.contains_eq_mem, decide_eq_true_eq, Bool.and_eq_true, Bool.not_eq_true', not_or, not_and, Nat.not_le]
    exact ⟨hactivation, hstop, fun h => hlater h.1 h.2⟩
  case disarmLoses =>
    intro s happlied
    refine if_pos ?_
    simp only [List.contains_eq_mem, decide_eq_true_eq]
    exact happlied.elim .inl fun h => .inr (.inl h)
  case load =>
    intro s p hstaged harmed hload hidle hlead hreset
    change ∃ t, execLoadPhaseStart s = .next t ∧ _
    unfold execLoadPhaseStart
    rw [hstaged]
    dsimp only
    rw [if_pos ⟨harmed, by simp [hload], by simp [hidle], hlead, by simp [hreset]⟩]
    refine ⟨_, rfl, ?_, ?_, ?_, ?_⟩
    · refine State.loadPhase_pln p _ (fun _ _ => ?_) _
      rfl
    · refine (congrArg (fun x : Sch => Tab.find? 7 x.jobs) (State.loadPhase_sch p _ (fun _ _ => ?_) _)).trans ?_
      · rfl
      · exact (Tab.find?_ins ..).trans (if_pos rfl)
    · refine congrArg Sch.recv (State.loadPhase_sch p _ (fun _ _ => ?_) _)
      rfl
    · refine congrArg Sch.sends (State.loadPhase_sch p _ (fun _ _ => ?_) _)
      rfl
  case activation =>
    intro s p hstaged harmed hload hidle hnow hshutdown hreset
    change ∃ t, execActivation s = .next t ∧ _
    unfold execActivation
    rw [hstaged]
    dsimp only
    rw [if_pos ⟨harmed, hload, by simp [hidle], hnow, hshutdown, by simp [hreset]⟩]
    refine ⟨_, rfl, Pln.of_activation ?_⟩
    simp only [State.showLevel_keeps_pln, State.showJob_keeps_pln, State.showAct_keeps_pln, State.showExt_keeps_pln,
      State.showBindings_keeps_pln, State.changeApplied_keeps_pln]
    exact (State.startAll_activation p _).trans (State.beforeStart_activation p)
  case fails =>
    rintro s u harmed hlate hchange rfl
    change execActivationFailed s = _
    unfold execActivationFailed
    rw [if_pos ⟨harmed, hlate⟩, hchange]
    rfl

/-- Settles O16, command by command. -/
theorem planEndRuns : Obligations.PlanEndRuns := by
  refine ⟨?stopArm, ?drain, ?ramp, ?abort, ?restart, ?resume, ?reset⟩
  case stopArm =>
    intro s p hactive hcount hdrain haligned hlater
    have hchange : ∀ q, s.changePlan 2 0 = some q → q.count ≤ 1 := by
      intro q hq
      obtain rfl : p = q := Option.some.inj (hactive.symm.trans hq)
      exact hcount
    change execPlnStopArm s = _
    unfold execPlnStopArm
    dsimp only
    rw [if_neg (by simp [State.planActive, hactive, hdrain]), if_neg (by omega)]
    exact congrArg Host.Outcome.next (State.armChange_alone _ _ hchange)
  case drain =>
    rintro s u hdrain hramp hactive hctxs rfl
    exact if_pos ⟨hdrain, by simp [hramp], hactive, hctxs⟩
  case ramp =>
    intro s n hramp hdue
    change execRampDownEnd s = _
    unfold execRampDownEnd
    rw [hramp]
    exact if_pos hdue
  case abort => exact fun s hactive => if_pos hactive
  case restart =>
    intro s p hactive hcount haligned hlead hstopped hctx hdrain hready
    have hchange : ∀ q, s.changePlan 3 (s.rd R.PLN_CTRL_CTX) = some q → q.count ≤ 1 := by
      intro q hq
      obtain rfl : p = q := Option.some.inj (hactive.symm.trans hq)
      exact hcount
    change execPlnCtxRestart s = _
    unfold execPlnCtxRestart
    rw [hactive]
    dsimp only
    rw [if_neg (by omega), if_neg (by simp [hstopped, hdrain, hready, Option.isSome_iff_ne_none.mp hctx])]
    exact congrArg Host.Outcome.next (State.armChange_alone _ _ hchange)
  case resume =>
    intro s ctx p r n hactive hctx hfind hcount hstart hstopped hshutdown
    change execContextResume ctx s = _
    simp only [execContextResume, hactive, hctx, hfind]
    exact if_pos ⟨hcount, hstart, by simp [hstopped], hshutdown⟩
  case reset =>
    intro s ctx hactive hctx
    change execContextReset ctx s = _
    unfold execContextReset
    rw [if_pos ⟨hactive, hctx⟩]
    split <;> rfl

end Sys2Proof.Machine
end

section
/-! # Proofs: the memory, and the loads, swaps, sweeps and repairs of weights -/
namespace Sys2Proof.Machine
open Sys2Proof

/-- Settles O17, command by command. -/
theorem memoryRuns : Obligations.MemoryRuns := by
  refine ⟨?window, ?early, ?service, ?refresh, ?readout, ?timeout, ?patrol, ?training, ?stage⟩
  case window =>
    intro s index counter ecc d g hdesc hgather hmoved hrun hdue hpassed
    change execGatherWindowComplete index counter ecc s = _
    simp only [execGatherWindowComplete, hdesc, hgather]
    exact if_pos ⟨hmoved, hrun, hdue, hpassed⟩
  case early =>
    intro s index ecc d g hdesc hgather hchoice hread hmoved hearly hbeat hbegun hend
    change execGatherEarlyEnd index ecc s = _
    simp only [execGatherEarlyEnd, hdesc, hgather]
    exact if_pos ⟨hchoice, by simp [hread], hmoved, by simp [hearly], hbeat, hbegun, hend⟩
  case service =>
    intro s addr length data ecc
    refine ⟨fun herror => ?_, fun herror => ?_, fun hok hbarred => ?_, fun hok => ?_, fun hok hbarred => ?_⟩
    · exact congrArg Host.Outcome.next (if_pos herror)
    · exact congrArg Host.Outcome.next (if_pos herror)
    · exact congrArg Host.Outcome.next ((if_neg (not_not.mpr hok)).trans (if_pos ⟨rfl, hbarred⟩))
    · exact congrArg Host.Outcome.next ((if_neg (not_not.mpr hok)).trans (if_neg (by simp [JobKind.writes])))
    · exact congrArg Host.Outcome.next ((if_neg (not_not.mpr hok)).trans (if_neg (by simp [hbarred])))
  case refresh => exact fun s unit => ⟨rfl, fun hunit => if_neg fun h => absurd h.2 (Nat.not_le.mpr hunit)⟩
  case readout => exact fun s unit celsius => ⟨rfl, fun hunit => if_pos hunit⟩
  case timeout => exact fun s unit => ⟨fun hover => if_pos hover, fun hunit hover => if_pos ⟨hunit, hover⟩⟩
  case patrol =>
    intro s unit ecc u ch k pass henabled hchannel hwaits hfree hscrub
    change execPatrolScrubRead unit ecc s = _
    unfold execPatrolScrubRead
    dsimp only
    generalize hat : channelAt _ = channel
    obtain rfl : ch = channel := hchannel.symm.trans hat
    rw [if_pos ⟨henabled, by rw [hwaits]; rfl, hfree⟩, hscrub]
    cases pass with
    | none => rfl
    | some t =>
      by_cases hunit : unit.val < 20
      · exact (if_pos hunit).trans (congrArg Host.Outcome.next (if_pos hunit).symm)
      · exact (if_neg hunit).trans (congrArg Host.Outcome.next (if_neg hunit).symm)
  case training =>
    intro s unit attempts hrails
    refine ⟨fun huntrained => ?_, fun hunit huntrained => ?_⟩
    · exact (if_neg (by simp [huntrained, hrails])).trans rfl
    · exact (if_neg (by simp [huntrained, hrails, hunit])).trans rfl
  case stage => exact fun s hrails hready => if_neg (by simp [hrails, hready])

section

variable {s : State}

theorem State.setRoot_rdAt {f g : Field} {c i : Nat} {l : List Byte} (h : ∀ k < 8, f.key i ≠ g.key (8 * c + k)) :
    (s.setRoot g c l).rdAt f i = s.rdAt f i := by
  unfold State.setRoot
  have hl : ∀ k ∈ List.range 8, f.key i ≠ g.key (8 * c + k) := fun k hk => h k (List.mem_range.mp hk)
  clear h
  generalize List.range 8 = ks at hl ⊢
  induction ks generalizing s with
  | nil => rfl
  | cons k ks ih =>
    rw [List.foldl_cons, ih (hl := fun j hj => hl j (List.mem_cons_of_mem _ hj))]
    exact State.rdAt_wrAt_ne _ _ (hl k List.mem_cons_self)

end

/-- Settles O18, command by command. -/
theorem weightsAndSweepsRun : Obligations.WeightsAndSweepsRun := by
  refine ⟨?start, ?abort, ?x3, ?attempt, ?attemptMem, ?attemptTimeout, ?swapArm, ?swapDisarm, ?swapDisarmLoses, ?swapEffect, ?sweep,
    ?overrun, ?quarantine, ?repair⟩
  case start =>
    intro s d b hdesc hcode hbinding
    have hstart : s.startLoad (s.rd R.WGT_LOAD_CTRL_CONTEXT) false = _ := if_neg (by simp [hdesc])
    rw [hcode, hbinding] at hstart
    change ∃ t, Host.Outcome.next (s.startLoad (s.rd R.WGT_LOAD_CTRL_CONTEXT) false) = .next t ∧ _
    rw [hstart]
    generalize s.rd R.WGT_LOAD_CTRL_CONTEXT = c
    dsimp only
    split
    · refine ⟨_, rfl, ?_, ?_, ?_⟩
      · simp only [State.wrAt_keeps_wctx]
        rw [wctx_of_wgt ((State.setRoot_frame ..).same .wgt (by decide))]
        simp
      · have hkey : ∀ k < 8, R.WGT_CTX_LANDING.key c ≠ R.WGT_ROOT_LANDING_ROOT.key (8 * c + k) := by
          intro k hk
          simp only [Field.key, R.WGT_CTX_LANDING, R.WGT_ROOT_LANDING_ROOT]; omega
        rw [State.rdAt_wrAt_ne _ _ (by simp only [Field.key, R.WGT_CTX_LANDING, R.WGT_PROG_HELD]; omega),
          State.rdAt_wrAt_ne _ _ (by simp only [Field.key, R.WGT_CTX_LANDING, R.WGT_PROG_DONE]; omega),
          State.setRoot_rdAt hkey, State.rdAt_wrAt_same]
        rfl
      · rw [State.wrAt_mem, State.wrAt_mem, (State.setRoot_frame ..).same .mem (by decide)]
        rfl
    · refine ⟨_, rfl, ?_, ?_, ?_⟩
      · simp
      · rw [State.rdAt_wrAt_ne _ _ (by simp only [Field.key, R.WGT_CTX_STATE, R.WGT_PROG_HELD]; omega),
          State.rdAt_wrAt_ne _ _ (by simp only [Field.key, R.WGT_CTX_STATE, R.WGT_PROG_DONE]; omega), State.rdAt_wrAt_same]
        rfl
      · rfl
  case abort =>
    rintro s u l hload htarget rfl
    change Host.Outcome.next (s.loadAborts _ 9 0 0) = _
    simp only [State.loadAborts, hload, if_pos htarget]
  case x3 => exact fun s => rfl
  case attempt =>
    intro s v u w ctx shard l b e held hattempt htarget hsource hplace holico
    obtain ⟨a, began, hbegan⟩ : ∃ a began, l.attempt shard = (a, began) := ⟨_, _, rfl⟩
    rw [hbegan] at hsource ⊢
    dsimp only at hsource ⊢
    refine ⟨fun hfetch => ?_, fun hfetch hhash hdrop hcheck => ?_⟩
    · change execShardAttemptDone ctx shard s = _
      simp only [execShardAttemptDone, hattempt, hbegan, hsource, hplace, holico, if_neg htarget, hfetch]
      rw [if_neg (by simp), if_neg (by simp [htarget])]
    · change execShardAttemptDone ctx shard s = _
      simp only [execShardAttemptDone, hattempt, hbegan, hsource, hplace, holico, if_neg htarget, hfetch]
      rw [if_neg (by simp), if_neg (by simp [htarget])]
      rw [if_neg (Nat.not_lt.mpr hhash)]
      have hsame : (if (l.target != 2 && e.1 == 2) = true then v.dieReads (ceilDiv (shardLen b.imageLength shard) 128) else v) =
          if e.1 = 2 then v.dieReads (ceilDiv (shardLen b.imageLength shard) 128) else v := by
        simp [htarget]
      rw [hsame, hdrop, hcheck]
      cases held
      · rfl
      · rfl
  case attemptMem =>
    intro s v w ctx shard l b held hattempt htarget htime hfetch hhash hcheck
    change execShardAttemptDone ctx shard s = _
    simp only [execShardAttemptDone, hattempt, htarget]
    rw [if_neg (by simp), if_neg (by simpa using htime), if_pos trivial, hfetch]
    dsimp only
    rw [if_neg (Nat.not_lt.mpr hhash), if_neg (by simp), hcheck]
    cases held
    · rfl
    · rfl
  case attemptTimeout =>
    intro s ctx shard l b hattempt htime
    change execShardAttemptTimeout ctx shard s = _
    unfold execShardAttemptTimeout
    rw [hattempt]
    exact if_pos htime
  case swapArm =>
    intro s p hactive hcount hlanding hbatch harmed
    have hchange : ∀ q, s.changePlan 6 (s.rd R.WGT_SWAP_CTRL_CONTEXT) = some q → q.count ≤ 1 := by
      intro q hq
      obtain rfl : p = q := Option.some.inj (hactive.symm.trans hq)
      exact hcount
    change ∃ t, execSwapArm s = .next t ∧ _
    unfold execSwapArm
    dsimp only
    rw [show s.planActive = true by simp [State.planActive, hactive], hlanding, decide_eq_true hbatch, harmed]
    refine ⟨_, congrArg Host.Outcome.next (State.armChange_alone _ _ hchange), ?_, ?_, ?_⟩
    · exact State.rdAt_wrAt_same ..
    · simp
    · rfl
  case swapDisarm =>
    intro s harmed happlied hbegins
    change execSwapDisarm s = _
    unfold execSwapDisarm
    dsimp only
    rw [if_neg, if_pos harmed]
    simp only [List.contains_eq_mem, decide_eq_true_eq, not_or, not_and]
    exact ⟨fun _ hactive => by simp [hbegins hactive], happlied⟩
  case swapDisarmLoses =>
    intro s happlied
    refine if_pos (.inr ?_)
    simpa only [List.contains_eq_mem, decide_eq_true_eq] using happlied
  case swapEffect =>
    rintro s u ctx b hbinding harmed hactive hbegins hready rfl
    change execSwapEffect ctx s = _
    unfold execSwapEffect
    dsimp only
    rw [hbinding]
    dsimp only
    rw [if_pos ⟨harmed, hactive, hbegins⟩, if_pos hready]
  case sweep =>
    intro s v w ctx sweep x b i rest k bound hsweep hbinding hleft hbank hactive htime
    have hruns : ¬ ((sweep = .active ∧ ((Tab.find? i (s.wctx ctx).repairs).isSome ∨ !s.ctxRunning ctx)) ∨
        s.now < x.shardAt + hashTicks (shardLen bound.length i)) := by
      rintro (⟨hsweep', hrest⟩ | hearly)
      · obtain ⟨hrepair, hrun⟩ := hactive hsweep'
        simp [hrepair, hrun] at hrest
      · omega
    have hexec : exec (.sweepShardChecked ctx sweep) s = execSweepShardChecked ctx sweep s := rfl
    simp only [execSweepShardChecked, hsweep, hbinding, hleft, hbank, if_neg hruns] at hexec
    refine ⟨fun hread => ?_, fun hread => ⟨fun hcheck => ?_, fun hcheck => ?_⟩⟩
    · rw [hexec, hread]
    · rw [hexec, hread]
      dsimp only
      rw [hcheck]
    · rw [hexec, hread]
      dsimp only
      rw [hcheck]
  case overrun =>
    intro s ctx sweep x hsweep hlate hbehind hruns
    change execSweepOverrun ctx sweep s = _
    unfold execSweepOverrun
    rw [hsweep]
    dsimp only
    have hswept : sweep ≠ .active ∨ s.ctxRunning ctx = true := by
      by_cases h : sweep = .active
      · exact .inr (hruns h)
      · exact .inl h
    rw [if_pos ⟨decide_eq_true hlate, hswept⟩]
    simp [State.sweepBehind, hbehind]
  case quarantine =>
    intro s payload p hlength hactive hid hctx hcause hnone
    change execQuarantineNoticeReceived payload s = _
    unfold execQuarantineNoticeReceived
    rw [hactive]
    dsimp only
    exact if_pos ⟨hlength, by simp [hid, hctx], hcause, by simp [hnone]⟩
  case repair =>
    intro s v w ctx shard a began x b e hrepair hactive hbinding holico
    refine ⟨fun hsource hplace hfetch hhash => ?_, fun htime => ?_⟩
    · have hexec : exec (.shardRepairDone ctx shard true) s = execShardRepairDone ctx shard true s := rfl
      simp only [execShardRepairDone, hrepair, hactive, hbinding, hsource, hplace, holico] at hexec
      rw [if_neg (by simp), if_pos trivial, if_neg (by simp), hfetch] at hexec
      dsimp only at hexec
      rw [if_neg (Nat.not_lt.mpr hhash)] at hexec
      refine ⟨fun hcheck => ?_, fun hcheck => ?_⟩
      · rw [hexec, hcheck]
      · rw [hexec, hcheck]
    · change execShardRepairDone ctx shard false s = _
      simp only [execShardRepairDone, hrepair, hactive, hbinding, holico, htime]
      rfl

end Sys2Proof.Machine
end

section
/-! # Proofs: the intake and the PTP messages -/
namespace Sys2Proof.Machine
open Sys2Proof

/-- Settles O19, command by command. -/
theorem intakeRuns : Obligations.IntakeRuns := by
  refine ⟨?frame, ?up, ?down, ?close, ?ring, ?reset, ?release, ?response⟩
  case frame =>
    intro s port frame fcsOk tally sixteenth hstill hlong hshort hfcs hholds htype hdest hpeer
    change execIntakeFrameReceived port frame fcsOk tally sixteenth s = _
    unfold execIntakeFrameReceived
    simp only [htype, hdest, hpeer, hfcs, hholds, hstill]
    rw [if_neg (by simp), if_neg (by omega)]
    simp
  case up =>
    intro s port hrails
    refine ⟨_, if_pos hrails, ?_⟩
    have hkeys : R.ITK_PORT_LINK_UP.key port ≠ R.PTP_PORT_STATE.key port := by
      simp only [Field.key, R.ITK_PORT_LINK_UP, R.PTP_PORT_STATE]; omega
    have hstate : (s.wrAt R.ITK_PORT_LINK_UP port 1).rdAt R.PTP_PORT_STATE port = s.rdAt R.PTP_PORT_STATE port :=
      State.rdAt_wrAt_ne _ _ hkeys.symm
    rw [hstate]
    split
    · refine ⟨?_, State.rdAt_wrAt_same ..⟩
      rw [State.onAt, State.rdAt_wrAt_ne _ _ hkeys, State.rdAt_wrAt_same]
      rfl
    · exact ⟨State.onAt_wrAt _ _ true rfl, hstate⟩
  case down => exact fun s port => ⟨_, rfl, State.onAt_wrAt _ _ false rfl⟩
  case close =>
    intro s ctx e r hintake hrun hopen hstandby hdue
    change execIntakeWindowClose ctx s = _
    simp only [execIntakeWindowClose, hintake, hrun]
    exact if_pos ⟨hopen, by simp [hstandby], hdue⟩
  case ring =>
    rintro s u ctx e r cons n k hintake hrun hring hclosed hfrom hfault hpaused hbeat holico rfl rfl rfl rfl
    have hexec : exec (.intakeBeatRingRead ctx) s = execIntakeBeatRingRead ctx s := rfl
    simp only [execIntakeBeatRingRead, hintake, hrun] at hexec
    have hopen : ∀ x, r.closeFrom = some x → decide (x ≤ s.now) = false := fun x hx => decide_eq_false (Nat.not_le.mpr (hfrom x hx))
    rw [if_pos ⟨hring, by simp [hclosed], by
        split
        · next x hx => simp [hopen x hx]
        · rfl, by simp [hfault], by simp [hpaused], hbeat⟩, if_neg (by simp [holico])] at hexec
    exact ⟨fun hfits => hexec.trans (if_neg (Nat.not_lt.mpr hfits)), fun hover => hexec.trans (if_pos hover)⟩
  case reset =>
    intro s ctx e hintake
    have hexec : exec (.itkRingReset ctx) s = execItkRingReset ctx s := rfl
    simp only [execItkRingReset, hintake] at hexec
    refine ⟨fun hup => ?_, fun hdown => ?_⟩
    · rw [hexec, if_pos hup, if_pos hup]
    · rw [hexec, hdown]
      rfl
  case release =>
    intro s u ctx e r w ok hintake hrun hfind hdue hwithheld hcompare hrecheck hgate hroom hread
    change execTimedRelease ctx s = _
    simp only [execTimedRelease, hintake, hrun, hfind, hrecheck, hgate, hroom, hread]
    rw [if_pos ⟨hdue, by simp [hwithheld], by simp [hcompare], trivial⟩]
    cases ok
    · rfl
    · rfl
  case response =>
    intro s u ctx port e r w ok hintake hrun hfind hdue hshutdown hwithheld hread
    change execResponseFrameSend ctx port s = _
    simp only [execResponseFrameSend, hintake, hrun, hfind]
    rw [if_pos ⟨hdue, hshutdown, by simp [hwithheld]⟩, hread]
    cases ok
    · rfl
    · rfl

/-- A message of a type asked for, of the module's domain, is handled (R243). -/
theorem State.ptpReceived_handled {s : State} {n : Nat} {types : List Nat} {b : List Byte} {m : PtpMsg} (f : PtpMsg → State)
    (hstill : s.intakeStill = false) (hdecode : PtpMsg.decode b = some m) (hdomain : m.domain = s.rd R.PTP_CFG_DOMAIN)
    (htype : types.contains m.type = true) (hinterval : m.intervalOk = true) : s.ptpReceived n types b f = .next (f m) := by
  unfold State.ptpReceived
  rw [if_neg (by simp [hstill]), hdecode]
  exact if_pos ⟨hdomain, htype, hinterval⟩

/-- Settles O20, message by message. -/
theorem ptpRuns : Obligations.PtpRuns := by
  refine ⟨?sync, ?announce, ?delayResp, ?pdelayReq, ?pdelayResp, ?delayReq, ?timeout⟩
  case sync =>
    intro s port bytes sixteenth m hstill hdecode hdomain hinterval hchosen
    refine ⟨fun htype hmaster => ?_, fun htype hmaster => ?_⟩
    · refine (State.ptpReceived_handled _ hstill hdecode hdomain (by simp [htype]) hinterval).trans (congrArg Host.Outcome.next ?_)
      have hchosen' : ((s.incAt R.PTP_COUNT_SYNC port).clock port).chosen = true := hchosen
      simp only [htype]
      exact (if_neg (by simp [hchosen', hmaster])).trans (if_neg (by simp))
    · refine (State.ptpReceived_handled _ hstill hdecode hdomain (by simp [htype]) hinterval).trans (congrArg Host.Outcome.next ?_)
      simp only [htype, if_true]
      exact if_neg (by simp [hchosen, hmaster])
  case announce =>
    rintro s u port bytes m hstill hdecode hdomain htype hinterval hsteps hchosen rfl
    have hnow : (s.incAt R.PTP_COUNT_ANNOUNCE port).now = s.now :=
      State.rd_incAt_ne _ (by simp only [Field.key, R.TAL_NOW_TICKS, R.PTP_COUNT_ANNOUNCE]; omega)
    have hclock : (s.incAt R.PTP_COUNT_ANNOUNCE port).clock port = s.clock port := rfl
    have hnow' (c : PtpPort) : ((s.incAt R.PTP_COUNT_ANNOUNCE port).setClock port c).now = s.now := hnow
    refine ⟨fun hnone => ?_, fun f hone hsame hnear => ?_⟩
    · refine (State.ptpReceived_handled _ hstill hdecode hdomain (by simp [htype]) hinterval).trans (congrArg Host.Outcome.next ?_)
      refine (if_neg (Nat.not_le.mpr hsteps)).trans ?_
      simp [hnow, hclock, hnone, hchosen, bestMaster, Foreign.qualified]
    · refine (State.ptpReceived_handled _ hstill hdecode hdomain (by simp [htype]) hinterval).trans (congrArg Host.Outcome.next ?_)
      refine (if_neg (Nat.not_le.mpr hsteps)).trans ?_
      simp [hnow, hnow', hclock, hone, hchosen, bestMaster, Foreign.qualified, hsame, hnear]
  case delayResp =>
    intro s port bytes m t1 t2 t3 hstill hdecode hdomain htype hinterval hmode hreq hident hsync
    refine (State.ptpReceived_handled _ hstill hdecode hdomain (by simp [htype, hmode]) hinterval).trans (congrArg Host.Outcome.next ?_)
    simp only [hreq, hsync]
    exact if_pos ⟨trivial, hident⟩
  case pdelayReq =>
    intro s port bytes turnaround m hstill hdecode hdomain htype hinterval hmode
    exact State.ptpReceived_handled _ hstill hdecode hdomain (by simp [htype, hmode]) hinterval
  case pdelayResp =>
    intro s port bytes sixteenth m t1 hstill hdecode hdomain hinterval hmode hreq hident
    refine ⟨fun htype hone => ?_, fun htype htwo => ?_, fun n rx corr htype hpeer => ?_⟩
    · refine (State.ptpReceived_handled _ hstill hdecode hdomain (by simp [htype, hmode]) hinterval).trans (congrArg Host.Outcome.next ?_)
      simp [hreq, hident, htype, hone]
    · refine (State.ptpReceived_handled _ hstill hdecode hdomain (by simp [htype, hmode]) hinterval).trans (congrArg Host.Outcome.next ?_)
      simp [hreq, hident, htype, htwo]
    · refine (State.ptpReceived_handled _ hstill hdecode hdomain (by simp [htype, hmode]) hinterval).trans (congrArg Host.Outcome.next ?_)
      simp [hreq, hident, htype, hpeer]
  case delayReq =>
    intro s port sixteenth hup hstill hmode hinterval
    refine if_pos ⟨hup, by simp [hstill], ?_, hmode⟩
    split
    · next t ht => exact decide_eq_true (hinterval t ht)
    · rfl
  case timeout =>
    intro s port hchosen hlate
    refine if_neg ?_
    simp only [hchosen, announceTicks, Bool.not_true, Bool.false_eq_true, false_or, Nat.not_lt]
    calc (s.clock port).announced.1 + 3 * (14843750 * 2 ^ (s.clock port).announced.2)
        = (s.clock port).announced.1 + 44531250 * 2 ^ (s.clock port).announced.2 := by omega
      _ ≤ s.now := hlate

end Sys2Proof.Machine
end

section
/-! # Proofs: the training of a haul port and its link layer -/
namespace Sys2Proof.Machine
open Sys2Proof

/-- Settles O21, command by command. -/
theorem trainingRuns : Obligations.TrainingRuns := by
  refine ⟨?present, ?lock, ?mark, ?timeout, ?backoff, ?announce, ?echoSend, ?echoReq, ?echoResp⟩
  case present => exact fun s port lanes hdark hlanes => if_pos ⟨hdark, hlanes⟩
  case lock => exact fun s port lanes hsignal hlanes => if_pos ⟨hsignal, hlanes⟩
  case mark => exact fun s port skewPs hlock hskew => if_pos ⟨hlock, hskew⟩
  case timeout => exact fun s port hfrom hto htime => if_pos ⟨hfrom, hto, htime⟩
  case backoff => exact fun s port hbackoff htime => if_pos ⟨hbackoff, htime⟩
  case announce =>
    intro s port blk b a hexchange hblock htype hdecode hkind hstays
    obtain ⟨u, o, hcheck⟩ : ∃ u o, s.checkBlock port blk = (u, o) := ⟨_, _, rfl⟩
    rw [hcheck] at hblock hstays ⊢
    obtain rfl : o = some b := hblock
    change execAnnounceReceived port blk s = _
    unfold execAnnounceReceived
    rw [if_pos (.inl hexchange), hcheck]
    dsimp only at hstays ⊢
    rw [if_neg (not_not.mpr htype), hdecode]
    dsimp only
    rw [if_neg (by omega), if_pos hkind]
  case echoSend => exact fun s port depart hecho hcount htime => if_pos ⟨hecho, hcount, htime⟩
  case echoReq =>
    intro s u port blk arrival depart b a hecho hcheck htype hdecode hkind hstays
    change execEchoReqReceived port blk arrival depart s = _
    unfold execEchoReqReceived
    rw [if_pos (.inl hecho), hcheck]
    dsimp only
    rw [if_neg (not_not.mpr htype), hdecode]
    dsimp only
    rw [if_neg (by omega), if_pos hkind]
  case echoResp =>
    intro s u port blk arrival b a hecho hcheck htype hdecode hkind hstays hcount
    change execEchoRespReceived port blk arrival s = _
    unfold execEchoRespReceived
    rw [if_pos (.inl hecho), hcheck]
    dsimp only
    rw [if_neg (not_not.mpr htype), hdecode]
    dsimp only
    rw [if_neg (by omega), if_pos hkind, if_pos (by simp; omega)]

section

variable {s : State}

/-- What a service block on a channel does, of the four cases of R320 to R322. -/
theorem execSvcBlockReceived_accepted {u : State} {port : Fin 16} {blk : WireBlock} {b : LinkBlock}
    (hblock : (s.accept port blk).2 = some b) (htype : b.type = 2 ∨ b.type = 3) (hstate : (s.accept port blk).1 = u) :
    execSvcBlockReceived port blk s = .next (u.takeSvc port (b.type - 2) b.data) := by
  obtain ⟨x, o, haccept⟩ : ∃ x o, s.accept port blk = (x, o) := ⟨_, _, rfl⟩
  rw [haccept] at hblock hstate
  obtain rfl : o = some b := hblock
  obtain rfl : x = u := hstate
  unfold execSvcBlockReceived
  rw [haccept]
  exact if_pos htype

end

/-- Settles O22, command by command. -/
theorem linkRuns : Obligations.LinkRuns := by
  refine ⟨?sched, ?svc, ?fill, ?ack, ?nak, ?ackDue, ?nakTimer, ?replayTimer, ?marker, ?replayEnd⟩
  case sched =>
    intro s port blk b hblock huse htype hlong hflags hreserved hzero
    obtain ⟨u, o, haccept⟩ : ∃ u o, s.accept port blk = (u, o) := ⟨_, _, rfl⟩
    rw [haccept] at hblock huse ⊢
    obtain rfl : o = some b := hblock
    change execSchedBlockReceived port blk s = _
    unfold execSchedBlockReceived
    rw [haccept]
    dsimp only at huse ⊢
    rw [if_neg huse, if_pos htype, if_neg (by omega)]
  case svc =>
    rintro s u port blk b vc hblock htype hstate rfl
    have hexec : exec (.svcBlockReceived port blk) s = _ := execSvcBlockReceived_accepted hblock htype hstate
    rw [hexec]
    unfold State.takeSvc
    refine ⟨fun hskip => ?_, fun w hskip hopen => ?_, fun n hskip hopen hrx hn hpos hmax => ?_, fun l n hskip hopen hrx hl hn => ?_⟩
    · dsimp only
      rw [if_pos hskip]
    · dsimp only
      rw [if_neg (by omega), hopen]
    · have hhead : beAt 1 1 ((u.port port).rx (b.type - 2) ++ [b.data]).flatten = n := by rw [hrx, List.nil_append]; simpa using hn
      dsimp only
      rw [if_neg (by omega), hopen, hhead]
      dsimp only
      rw [if_neg (by simp [hrx]), if_neg (by omega)]
    · have hlong : 1 < (l ++ [b.data]).length := by
        have hpos := List.length_pos_iff.mpr hl
        simp; omega
      dsimp only
      rw [if_neg (by omega), hopen, hrx, hn]
      dsimp only
      rw [if_pos hlong]
  case fill => exact fun s port blk => rfl
  case ack => exact fun s port blk => rfl
  case nak =>
    intro s u port blk b haccept htype hacted
    change execNakReceived port blk s = _
    unfold execNakReceived
    rw [haccept]
    dsimp only
    rw [if_pos htype, hacted]
    exact if_neg (by simp)
  case ackDue =>
    intro s port hup hdue
    have hexec : exec (.ackDue port) s = .next (s.answerDup port) := if_pos ⟨hup, decide_eq_true hdue⟩
    exact ⟨fun hidle => hexec.trans (congrArg Host.Outcome.next (if_neg (by simp [hidle]))),
      fun hreplay => hexec.trans (congrArg Host.Outcome.next (if_pos hreplay))⟩
  case nakTimer => exact fun s port hup hopen hdue => if_pos ⟨hup, hopen, hdue⟩
  case replayTimer => exact fun s port hup hout hidle hdue => if_pos ⟨hup, hout, by simp [hidle], hdue⟩
  case marker =>
    rintro s port depart k hup rfl hnew
    exact if_pos ⟨hup, hnew⟩
  case replayEnd => exact fun s port hreplay => if_pos hreplay

end Sys2Proof.Machine
end

section
/-! # Proofs: the lanes of a haul port, and their rotation -/
namespace Sys2Proof.Machine
open Sys2Proof

section

variable {s : State} {port : Fin 16}

theorem State.spare_wrAt_degraded (v : Nat) : (s.wrAt R.HAUL_EVENT_DEGRADED port v).spare port = s.spare port := by
  unfold State.spare
  rw [State.rdAt_wrAt_ne _ _ (by simp only [Field.key, R.HAUL_LANE_MAP_SPARE, R.HAUL_EVENT_DEGRADED]; omega)]

theorem State.logicalOf_wrAt_degraded (v x : Nat) : (s.wrAt R.HAUL_EVENT_DEGRADED port v).logicalOf port x = s.logicalOf port x := by
  unfold State.logicalOf
  rw [State.rdAt_wrAt_ne _ _ (by simp only [Field.key, R.HAUL_LANE_MAP_LOGICAL, R.HAUL_EVENT_DEGRADED]; omega)]

end

/-- Settles O23, command by command. -/
theorem laneRulesRun : Obligations.LaneRulesRun := by
  refine ⟨?fail, ?failRotating, ?resend, ?swapReq, ?swapDone, ?remap, ?timeout, ?degrade, ?lockLost, ?lockRegained⟩
  case fail =>
    intro s port lane t l y hup hlost htime hrot hcalib hswap hlogical hspare
    change execLaneFail port lane s = _
    unfold execLaneFail
    simp only [hlost, hrot, hcalib, hswap]
    rw [if_pos ⟨hup, decide_eq_true htime⟩]
    simp only [Option.isSome_none, Bool.false_eq_true, if_false, hlogical, hspare]
  case failRotating =>
    intro s port lane t r hup hlost htime hrot
    have hexec : exec (.laneFail port lane) s = execLaneFail port lane s := rfl
    unfold execLaneFail at hexec
    simp only [hlost, hrot] at hexec
    rw [if_pos ⟨hup, decide_eq_true htime⟩] at hexec
    exact ⟨fun hsrc => hexec.trans (if_pos hsrc), fun hsrc hdst => hexec.trans ((if_neg hsrc).trans (if_pos hdst))⟩
  case resend =>
    intro s port o hswap hready htime
    change execSwapReqResend port s = _
    unfold execSwapReqResend
    simp only [hswap, hready]
    exact if_neg (by simp; omega)
  case swapReq =>
    intro s u port blk m hmsg hkind hfresh
    change execSwapReqReceived port blk s = _
    unfold execSwapReqReceived
    rw [hmsg]
    exact if_pos ⟨hkind, hfresh⟩
  case swapDone =>
    intro s port blk m hmsg hkind hop
    obtain ⟨u, o, hlane⟩ : ∃ u o, s.laneMsg port blk = (u, o) := ⟨_, _, rfl⟩
    rw [hlane] at hmsg hop ⊢
    obtain rfl : o = some m := hmsg
    change execSwapDoneReceived port blk s = _
    unfold execSwapDoneReceived
    rw [hlane]
    exact if_pos ⟨hkind, hop⟩
  case remap =>
    intro s port o
    refine ⟨fun hswap => ?_, fun hswap hrot hready => ?_⟩
    · change execSwapRemap port s = _
      unfold execSwapRemap
      simp only [hswap]
    · change execSwapRemap port s = _
      unfold execSwapRemap
      simp only [hswap, hrot, hready, if_true]
  case timeout => exact fun s port hswap htime => if_pos ⟨hswap, htime⟩
  case degrade =>
    rintro s u port lane symbols y l hup rfl
    have hexec : exec (.laneDegrade port lane symbols) s = _ := if_pos hup
    rw [hexec]
    generalize (s.addAt R.HAUL_LANE_STAT_CORR_SYM (8192 * port.val + lane.val) symbols).count (5792 + 16 * port.val + 6) symbols = u
    refine ⟨fun hmany hspare hlogical hidle => ?_, fun hmany hspare => ?_, fun hfew => if_neg (Nat.not_lt.mpr hfew)⟩
    · have hidle' : ((u.wrAt R.HAUL_EVENT_DEGRADED port 1).port port).idle = true := hidle
      refine (if_pos hmany).trans ?_
      simp only [State.spare_wrAt_degraded, State.logicalOf_wrAt_degraded, hspare, hlogical]
      exact if_pos hidle'
    · refine (if_pos hmany).trans ?_
      simp only [State.spare_wrAt_degraded, hspare]
  case lockLost =>
    intro s port lane hup hlost
    change execLaneLockLost port lane s = _
    unfold execLaneLockLost
    rw [if_pos hup]
    simp only [hlost]
    rfl
  case lockRegained => exact fun s port lane hup => if_pos hup

/-- Settles O24, command by command. -/
theorem rotationRuns : Obligations.RotationRuns := by
  refine ⟨?timer, ?start, ?ready, ?done, ?calibration, ?retest, ?force⟩
  case timer => exact fun s port henabled htime => if_pos ⟨henabled, htime⟩
  case start =>
    intro s u port blk m hmsg hkind hfresh
    change execRotStartReceived port blk s = _
    unfold execRotStartReceived
    rw [hmsg]
    exact if_pos ⟨hkind, hfresh⟩
  case ready =>
    intro s u port blk m r hmsg hrot hkind hop
    refine ⟨?_, ?_⟩
    · change execRotReadyReceived port blk true s = _
      unfold execRotReadyReceived
      rw [hmsg]
      simp only [hrot]
      exact if_pos ⟨hkind, hop⟩
    · change execRotReadyReceived port blk false s = _
      unfold execRotReadyReceived
      rw [hmsg]
      simp only [hrot]
      exact if_pos ⟨hkind, hop⟩
  case done =>
    intro s u port blk m hmsg hkind hseen hcopy
    change execRotDoneReceived port blk s = _
    unfold execRotDoneReceived
    rw [hmsg]
    exact if_pos ⟨hkind, hseen, hcopy⟩
  case calibration =>
    rintro s u port symbols x hcalib htest rfl
    have hexec : exec (.calibrationEnd port symbols) s = execCalibrationEnd port symbols s := rfl
    unfold execCalibrationEnd at hexec
    simp only [hcalib] at hexec
    rw [if_neg (Nat.not_lt.mpr htest)] at hexec
    refine ⟨fun hpasses htime => ?_, fun hfails => ?_⟩
    · exact hexec.trans (if_pos (by simp [hpasses, htime]))
    · refine hexec.trans (if_neg ?_)
      rcases hfails with hfails | hlate
      · simp [hfails]
      · simp [Nat.not_le.mpr hlate]
  case retest =>
    rintro s u port lane symbols hup hfailed htime rfl
    have hexec : exec (.failedLaneRetest port lane symbols) s = _ := if_pos ⟨hup, hfailed, htime⟩
    refine ⟨fun hpasses => ?_, fun hfails => ?_⟩
    · exact hexec.trans (if_neg (by simp [hpasses]))
    · exact hexec.trans (if_pos (by simp [hfails]))
  case force => exact fun s port => rfl

end Sys2Proof.Machine
end

section
/-! # Proofs: the rules of a port, and the holds, replays and service packets of the fabric -/
namespace Sys2Proof.Machine
open Sys2Proof

theorem State.restorePort_sch (s : State) (p : Nat) : (s.restorePort p).sch = s.sch := (s.restorePort_frame p).same .sch (by decide)

theorem State.wrAt_enable_train (s : State) (port : Fin 16) (v : Nat) : (s.wrAt R.HAUL_PORT_CTRL_ENABLE port v).train port = s.train port :=
  State.rdAt_wrAt_ne _ _ (by simp only [Field.key, R.HAUL_PORT_CTRL_ENABLE, R.HAUL_PORT_STATUS_STATE]; omega)

/-- Settles O25, command by command. -/
theorem portRulesRun : Obligations.PortRulesRun := by
  refine ⟨?down, ?reset, ?retrain, ?enable, ?fast, ?restore, ?arm, ?clear, ?route⟩
  case down =>
    intro s port hup
    have hexec : exec (.linkDownTimeout port) s = _ := if_pos hup
    rw [hexec]
    exact ⟨fun hlost htime => if_pos ⟨hlost, htime⟩, fun hlocked hout htime => (if_neg (by simp [hlocked])).trans (if_pos ⟨hout, htime⟩)⟩
  case reset =>
    intro s port hdown
    change execHaulPortReset port s = _
    unfold execHaulPortReset
    rw [hdown]
    rfl
  case retrain => exact fun s port hup => if_pos hup
  case enable =>
    rintro s port enable rfl hdisabled hrails
    have htrain : (s.wrAt R.HAUL_PORT_CTRL_ENABLE port 1).train port = 0 := (s.wrAt_enable_train port 1).trans hdisabled
    exact congrArg Host.Outcome.next (if_pos ⟨htrain, hrails⟩)
  case fast => exact fun s port hup hlost htime => if_pos ⟨hup, hlost, htime⟩
  case restore =>
    intro s n p hcount hactive htime hstart
    change execPortRestore s = _
    unfold execPortRestore
    rw [hcount, hactive]
    dsimp only
    rw [if_pos ⟨htime, hstart⟩, foldl_keeps State.sch State.restorePort State.restorePort_sch]
  case arm =>
    intro s p hactive hcount haligned hlater
    have hchange : ∀ q, s.changePlan 8 0 = some q → q.count ≤ 1 := by
      intro q hq
      obtain rfl : p = q := Option.some.inj (hactive.symm.trans hq)
      exact hcount
    change execRestoreArm s = _
    unfold execRestoreArm
    dsimp only
    rw [show s.planActive = true by simp [State.planActive, hactive], haligned, decide_eq_true hlater]
    exact congrArg Host.Outcome.next (State.armChange_alone _ _ hchange)
  case clear => exact fun s hidle => if_neg (by simp [hidle])
  case route =>
    intro s n k hslot
    have hexec : exec (.routeDownReceived n) s = execRouteDownReceived n s := rfl
    unfold execRouteDownReceived at hexec
    rw [hslot] at hexec
    exact ⟨fun hknown => hexec.trans (if_pos (by simpa using hknown)), fun hnew => hexec.trans (if_neg (by simpa using hnew))⟩

/-- Settles O26, command by command. -/
theorem holdsAndServiceRun : Obligations.HoldsAndServiceRun := by
  refine ⟨?notice, ?point, ?holdEnd, ?replay, ?abandon, ?gap, ?rejoin, ?inject, ?throttle, ?telemetry, ?now⟩
  case notice =>
    intro s source n k j hslot hjob hlater
    change execHoldNoticeReceived source n s = _
    unfold execHoldNoticeReceived
    simp only [hslot, hjob]
    exact if_neg (Nat.not_le.mpr hlater)
  case point =>
    intro s slot j p hjob hhold hdue habandon
    change execHoldPoint slot s = _
    unfold execHoldPoint
    simp only [hjob, hhold, Option.isNone_none, if_true, hdue, habandon, Bool.false_eq_true, if_false]
    split <;> rfl
  case holdEnd =>
    intro s slot j h u hjob hhold hstop
    have hexec : exec (.holdEnd slot) s = execHoldEnd slot s := rfl
    unfold execHoldEnd at hexec
    simp only [hjob, hhold] at hexec
    rw [if_pos hstop] at hexec
    refine ⟨fun hreplay hu => ?_, fun r hreplay hu => ?_⟩
    · rw [hreplay] at hu
      rw [hexec, hreplay]
      dsimp only
      rw [hu]
      split <;> rfl
    · rw [hexec, hreplay]
      dsimp only
      rw [hu]
      split <;> rfl
  case replay =>
    intro s source n k j hslot hjob hlater hreplay
    change execReplayNoticeReceived source n s = _
    unfold execReplayNoticeReceived
    simp only [hslot, hjob, hreplay]
    exact if_neg (Nat.not_le.mpr hlater)
  case abandon =>
    rintro s u slot j n run hjob hnotice htime rfl hstays hattempt rfl
    change execAbandonPoint slot s = _
    unfold execAbandonPoint
    simp only [hjob, hnotice]
    rw [if_neg (Nat.not_lt.mpr htime), if_neg (by simpa [Option.isSome_iff_ne_none] using hstays), if_neg (Nat.not_lt.mpr hattempt)]
    split <;> rfl
  case gap =>
    intro s slot ready j r hjob hreplay hphase hhold hend
    change execReplayGapEnd slot ready s = _
    unfold execReplayGapEnd
    simp only [hjob, hreplay]
    rw [if_pos ⟨hphase, by simp [hhold], hend⟩]
    split <;> rfl
  case rejoin =>
    intro s slot j r hjob hreplay hphase hhold htarget
    change execReplayRejoin slot s = _
    unfold execReplayRejoin
    simp only [hjob, hreplay]
    rw [if_pos ⟨hphase, by simp [hhold], htarget⟩]
    split <;> rfl
  case inject => exact fun s kind dest express payload hlow hhigh hlength => if_pos ⟨hlow, hhigh, hlength⟩
  case throttle =>
    rintro s n rfl
    change execThrottleSample s = _
    unfold execThrottleSample State.svcBlocks
    by_cases hover : s.rd R.SCH_SVC_CFG_THROTTLE_HI < (s.sch.waiting.map fun w => w.data.length).sum ∧ s.sch.throttled = false
    · rw [if_pos hover]
      dsimp only
      rw [if_pos (by simpa using hover)]
    · rw [if_neg hover]
      dsimp only
      rw [if_neg (by simpa using hover)]
  case telemetry => exact fun s henabled htime => if_pos ⟨henabled, htime⟩
  case now => exact fun s => rfl

end Sys2Proof.Machine
end

section
/-! # Proofs: discovery, leases and forwarding loads -/
namespace Sys2Proof.Machine
open Sys2Proof

section

variable {s : State} {slot : Fin 8}

theorem State.showFwd_rdAt_state (k st code : Nat) : (s.showFwd k st code).rdAt R.TOP_FWD_STATUS_STATE k = st % 8 :=
  (State.rdAt_wrAt_ne _ _ (by simp only [Field.key, R.TOP_FWD_STATUS_STATE, R.TOP_FWD_STATUS_CODE]; omega)).trans
    (State.rdAt_wrAt_same ..)

/-- A change of the plan in a forwarding slot, of one module, is armed here alone. -/
theorem State.armChange_forward {kind k a e : Nat} {l : FwdLoad} (accept refuse : State → State) (hkind : kind = 9 ∨ kind = 10)
    (hload : Tab.find? k s.top.loads = some l) (hcount : l.plan.count ≤ 1) : s.armChange kind k a e true accept refuse = accept s := by
  refine State.armChange_alone _ _ fun p hp => ?_
  unfold State.changePlan at hp
  rw [if_neg (by omega), if_pos hkind, hload] at hp
  obtain rfl : l.plan = p := Option.some.inj hp
  exact hcount

end

/-- Settles O27, command by command. -/
theorem discoveryAndForwardingRun : Obligations.DiscoveryAndForwardingRun := by
  refine ⟨?probe, ?assign, ?routes, ?neighbour, ?lease, ?enable, ?load, ?arm, ?unload, ?disarm, ?disarmLoses, ?effect⟩
  case probe => exact fun s port d hends => if_pos hends
  case assign =>
    intro s port d hends hlength hmodule hrole hrole' hzero
    exact if_pos ⟨hends, hlength, by simp [assignBodyOk, hmodule, hzero, hrole, hrole']⟩
  case routes => exact fun s port d hends hok => if_pos ⟨hends, hok⟩
  case neighbour =>
    intro s port d hends hlen hlength hzero hnumber hpartner hport huse
    change execNeighbourReceived port d s = _
    unfold execNeighbourReceived
    rw [if_pos ⟨hends, hlen, hlength, by simp [discBodyOk, hzero, hnumber]⟩]
    have huse' : ¬ (((s.wrAt R.TOP_PORT_PARTNER port (beAt 0 2 d.body)).wrAt R.TOP_PORT_PARTNER_PORT port (beAt 2 1 d.body)).rdAt
        R.TOP_PORT_USE port = 4) := by
      rwa [State.rdAt_wrAt_ne _ _ (by simp only [Field.key, R.TOP_PORT_USE, R.TOP_PORT_PARTNER_PORT]; omega),
        State.rdAt_wrAt_ne _ _ (by simp only [Field.key, R.TOP_PORT_USE, R.TOP_PORT_PARTNER]; omega)]
    dsimp only
    rw [if_neg huse', if_neg (by simp [hpartner, hport])]
  case lease =>
    rintro s lease plan value hstill rfl hvalue
    refine ⟨_, (if_neg (by simp [hstill])).trans (if_pos rfl), ?_, rfl⟩
    rw [State.rdAt_wrAt_same]
    exact (Nat.mod_mod _ _).trans (Nat.mod_eq_of_lt hvalue)
  case enable => exact fun s en hstill => if_neg (by simp [hstill])
  case load =>
    rintro s slot arrivals base l p hslot hstate rfl rfl rfl
    change ∃ t, execFwdLoad slot arrivals s = .next t ∧ _
    unfold execFwdLoad
    dsimp only
    rw [if_neg (by omega)]
    generalize firstFailure _ = verdict
    cases verdict
    case none =>
      refine ⟨_, rfl, ?_, ?_, ?_, ?_⟩
      · simp [State.showFwd]
      · simp [State.showFwd, Tab.find?_ins]
      · rw [State.rdAt_wrAt_ne _ _ (by simp only [Field.key, R.TOP_FWD_STATUS_STATE, R.TOP_FWD_STATUS_PLAN]; omega),
          State.rdAt_wrAt_ne _ _ (by simp only [Field.key, R.TOP_FWD_STATUS_STATE, R.TOP_FWD_STATUS_LEASE]; omega),
          State.showFwd_rdAt_state]
      · rw [State.rdAt_wrAt_ne _ _ (by simp only [Field.key, R.TOP_FWD_STATUS_CODE, R.TOP_FWD_STATUS_PLAN]; omega),
          State.rdAt_wrAt_ne _ _ (by simp only [Field.key, R.TOP_FWD_STATUS_CODE, R.TOP_FWD_STATUS_LEASE]; omega)]
        exact State.rdAt_wrAt_same ..
    case some failure =>
      refine ⟨_, rfl, ?_, ?_, ?_, ?_⟩
      · simp [State.showFwd]
      · simp [State.showFwd, Tab.find?_del]
      · rw [State.rdAt_wr_ne _ _ (by simp only [Field.key, R.TOP_FWD_STATUS_STATE, R.TOP_EVENT_FWD_FAILED]; omega),
          State.rdAt_wrAt_ne _ _ (by simp only [Field.key, R.TOP_FWD_STATUS_STATE, R.TOP_FWD_STATUS_PLAN]; omega),
          State.showFwd_rdAt_state]
      · exact State.rd_wr_same ..
  case arm =>
    intro s slot l hload hidle hcount hleased hok
    change execFwdArm slot s = _
    unfold execFwdArm
    simp only [hload, hidle, hleased, hok]
    exact congrArg Host.Outcome.next (State.armChange_forward _ _ (.inl rfl) hload hcount)
  case unload =>
    intro s slot l hload hruns hcount hok
    change execFwdUnloadArm slot s = _
    unfold execFwdUnloadArm
    simp only [hload, hruns, hok]
    exact congrArg Host.Outcome.next (State.armChange_forward _ _ (.inr rfl) hload hcount)
  case disarm =>
    intro s slot hstate hlater hload hunload
    change execFwdDisarm slot s = _
    unfold execFwdDisarm
    dsimp only
    rw [if_neg, if_pos hstate]
    simp only [List.contains_eq_mem, decide_eq_true_eq, not_or]
    refine ⟨?_, hload, hunload⟩
    split
    · next l hl => simp [Nat.not_le.mpr (hlater l hl)]
    · simp
  case disarmLoses =>
    intro s slot l hstate hload hdue
    refine if_pos (.inl ?_)
    simp [hstate, hload, hdue]
  case effect =>
    intro s slot l hload hdue hstate
    change execFwdLoadEffect slot s = _
    unfold execFwdLoadEffect
    simp only [hload]
    exact if_pos ⟨hdue, hstate⟩

end Sys2Proof.Machine
end

section
/-! # Proofs: the items of a twin pair and its rules -/
namespace Sys2Proof.Machine
open Sys2Proof

section

variable {s : State} {port : Fin 16} {blk : WireBlock}

/-- The last block of an item on a twin port does what the whole item does. -/
theorem State.twinBlock_whole {kind count : Nat} {cells : List CellReading} {b : LinkBlock} {u : State} {c w : Nat} {x : TwinItem}
    (f : State → Nat → Nat → TwinItem → State) (huse : s.rdAt R.TOP_PORT_USE port = 4) (hblock : (s.accept port blk).2 = some b)
    (htype : b.type = 1) (hkind : beAt 0 1 b.data = kind)
    (htake : (s.accept port blk).1.takeItem kind count cells b.data = (u, some (c, w))) (hwhole : u.wholeItem kind c w = some x) :
    s.twinBlock port blk kind count cells f = f u c w x := by
  obtain ⟨t, o, haccept⟩ : ∃ t o, s.accept port blk = (t, o) := ⟨_, _, rfl⟩
  rw [haccept] at hblock htake
  obtain rfl : o = some b := hblock
  unfold State.twinBlock
  rw [if_neg (not_not.mpr huse), haccept]
  dsimp only at htake ⊢
  rw [if_neg (by simp [htype, hkind]), htake]
  dsimp only
  rw [hwhole]

/-- The loss of the partner on a primary (R359). -/
theorem State.partnerLost_primary (hstate : s.rd R.TWN_STATUS_STATE = 1) (hlost : s.twn.lost = false)
    (hrole : s.on R.TWN_STATUS_ROLE_NOW = false) :
    s.partnerLost.rd R.TWN_STATUS_STATE = 2 ∧ s.partnerLost.rd R.TWN_EVENT_LOST = 1 ∧ s.partnerLost.twn.lost = true := by
  unfold State.partnerLost
  rw [if_neg (by simp [hstate, hlost])]
  have hrole' : (({ s with twn := { s.twn with lost := true } }.wr R.TWN_STATUS_STATE 2).wr R.TWN_EVENT_LOST 1).on R.TWN_STATUS_ROLE_NOW = false := by
    unfold State.on at hrole ⊢
    rw [State.rd_wr_ne _ _ (by decide), State.rd_wr_ne _ _ (by decide)]
    exact hrole
  dsimp only
  rw [if_neg (by simp [hrole'])]
  refine ⟨?_, State.rd_wr_same .., rfl⟩
  rw [State.rd_wr_ne _ _ (by decide), State.rd_wr_same]
  rfl

end

/-- Settles O28, item by item. -/
theorem twinItemsRun : Obligations.TwinItemsRun := by
  refine ⟨?set, ?index, ?state, ?tags, ?ack⟩
  case set =>
    intro s port blk count cells b u c w x e r v huse hblock htype hkind htake hwhole hintake hrun hwindow
    refine congrArg Host.Outcome.next ((State.twinBlock_whole _ huse hblock htype hkind htake hwhole).trans ?_)
    simp only [hintake, hrun, hwindow]
  case index =>
    exact fun s port blk count b u c w x huse hblock htype hkind htake hwhole =>
      congrArg Host.Outcome.next (State.twinBlock_whole _ huse hblock htype hkind htake hwhole)
  case state =>
    exact fun s port blk count b u c w x huse hblock htype hkind htake hwhole =>
      congrArg Host.Outcome.next (State.twinBlock_whole _ huse hblock htype hkind htake hwhole)
  case tags =>
    exact fun s port blk count b u c w x huse hblock htype hkind htake hwhole =>
      congrArg Host.Outcome.next (State.twinBlock_whole _ huse hblock htype hkind htake hwhole)
  case ack =>
    exact fun s port blk b u c w x huse hblock htype hkind htake hwhole =>
      congrArg Host.Outcome.next (State.twinBlock_whole _ huse hblock htype hkind htake hwhole)

/-- Settles O29, command by command. -/
theorem twinRulesRun : Obligations.TwinRulesRun := by
  refine ⟨?ship, ?check, ?compare, ?takeover, ?solo, ?effect, ?lost⟩
  case ship =>
    intro s u ctx e r w hintake hrun hfind hreplicates hprimary htime
    have hexec : exec (.replicaSetShip ctx) s = execReplicaSetShip ctx s := rfl
    simp only [execReplicaSetShip, hintake, hrun, hfind] at hexec
    rw [if_pos ⟨hreplicates, by simp [hprimary], htime⟩] at hexec
    refine ⟨fun hread => ?_, fun hread => ?_⟩
    · rw [hexec, hread]
    · rw [hexec, hread]
  case check =>
    intro s ctx e r w x hintake hrun hfind hreplicates hsecondary hdue hwhole
    change execReplicaSetCheck ctx s = _
    simp only [execReplicaSetCheck, hintake, hrun, hfind, hwhole]
    exact if_pos ⟨hreplicates, hsecondary, hdue⟩
  case compare =>
    intro s ctx e r w x hintake hrun hfind hreplicates hdue hquarantine htags hwhole hskip hsame
    change execReplicaCompare ctx s = _
    simp only [execReplicaCompare, hintake, hrun, hfind]
    rw [if_pos ⟨hreplicates, hdue⟩, if_neg (by simp [hquarantine]), if_pos htags, hwhole]
    dsimp only
    rw [if_neg (by simpa using hskip), hsame]
  case takeover =>
    intro s hsecondary hstate hnone
    refine ⟨_, (if_pos ⟨hsecondary, .inl hstate⟩).trans (congrArg Host.Outcome.next (if_neg (by simp [hnone]))), rfl, rfl⟩
  case solo => exact fun s hstate hlost hrole => ⟨_, rfl, State.partnerLost_primary hstate hlost hrole⟩
  case effect =>
    intro s ctx n r htakeover hrun htime hstandby hopen
    change execTakeoverEffect ctx s = _
    simp only [execTakeoverEffect, htakeover, hrun]
    exact if_pos ⟨htime, hstandby, hopen⟩
  case lost => exact fun s hports hstate hlost hrole => ⟨_, if_pos (.inl hports), State.partnerLost_primary hstate hlost hrole⟩

end Sys2Proof.Machine
end

section
/-! # Proofs: the Olico link, register access and two-phase changes -/
namespace Sys2Proof.Machine
open Sys2Proof

theorem State.olicoDown_shown (s : State) : s.olicoDown.rd R.OLC_STATUS_STATE = 1 ∧ s.olicoDown.rd R.OLC_EVENT_DOWN = 1 := by
  unfold State.olicoDown
  refine ⟨?_, State.rd_wr_same ..⟩
  rw [State.rd_wr_ne _ _ (by decide), State.rd_inc_ne _ (by decide), State.rd_wr_same]
  rfl

/-- Settles O30, command by command. -/
theorem olicoAndRegistersRun : Obligations.OlicoAndRegistersRun := by
  refine ⟨?retry, ?laneFail, ?noProgress, ?retrained, ?access, ?write, ?change⟩
  case retry =>
    intro s hup
    refine ⟨_, if_pos hup, rfl, ?_, ?_⟩
    · exact ((State.corrected_recorded ..).rd_single R.OLC_ERR_RETRIES (by decide)).trans (State.rd_inc_same ..)
    · exact (State.corrected_frame ..).same .mem (by decide)
  case laneFail =>
    rintro s tx lanes new rfl rfl hmore hlink hhalves
    change execOlicoLaneFail true lanes s = _
    unfold execOlicoLaneFail
    dsimp only
    rw [if_neg (by simp only [if_true]; omega), if_neg (by simp [hhalves])]
    rfl
  case noProgress => exact fun s hup => ⟨_, if_pos hup, s.olicoDown_shown.1, s.olicoDown_shown.2, rfl⟩
  case retrained =>
    rintro s badTx badRx hdown hbooted rfl rfl
    exact if_neg (by simp [hdown, hbooted, halvesLost])
  case access =>
    exact fun s offset width hbad => ⟨_, execCsrAccessError_bad hbad, s.badCsr_event, rfl, rfl⟩
  case write => exact fun s offset value inp haligned => execRegisterWrite_aligned value inp haligned
  case change =>
    intro s value hvalue
    refine ⟨_, rfl, ?_, State.rd_wr_same .., rfl⟩
    simp (disch := decide) only [State.rd_wr_ne, State.rd_wr_same]
    simp [bits, R.OLC_CHANGE_NEXT_ID]

/-- Settles O31, command by command. -/
theorem twoPhaseChangesRun : Obligations.TwoPhaseChangesRun := by
  refine ⟨?arm, ?disarm, ?disarmLoses, ?deadline, ?votes, ?armed, ?refused, ?split, ?extension, ?failed⟩
  case arm =>
    intro s p hactive hcount hctx haligned hlater hnone
    have hchange : ∀ q, s.changePlan 7 (s.rd R.OLC_CHANGE_NEXT_CONTEXT) = some q → q.count ≤ 1 := by
      intro q hq
      obtain rfl : p = q := Option.some.inj (hactive.symm.trans hq)
      exact hcount
    change execOlcArm s = _
    unfold execOlcArm
    dsimp only
    rw [hctx, haligned, decide_eq_true hlater, hnone]
    exact congrArg Host.Outcome.next (State.armChange_alone _ _ hchange)
  case disarm =>
    intro s hunarmed happlied hlater
    change execOlcDisarm s = _
    unfold execOlcDisarm
    dsimp only
    rw [hunarmed, if_neg]
    · rfl
    · simp only [List.contains_eq_mem, decide_eq_true_eq, not_or]
      refine ⟨?_, happlied⟩
      split
      · next n r hn hr => simpa using hlater n r hn hr
      · simp
  case disarmLoses =>
    intro s happlied
    refine if_pos (.inr ?_)
    simpa only [List.contains_eq_mem, decide_eq_true_eq] using happlied
  case deadline => exact fun s change => rfl
  case votes =>
    intro s change c hchange hroot hcounted htime hvotes
    change execVoteCount change s = _
    unfold execVoteCount
    rw [hchange]
    dsimp only
    rw [if_pos ⟨hroot, by simp [hcounted], htime⟩, if_neg (by omega)]
  case armed =>
    intro s pkt c hop hkind hchange
    change execArmedReceived pkt s = _
    unfold execArmedReceived
    rw [if_neg (by simp [hop, hkind]), hchange]
  case refused => exact fun s pkt hop hkind => if_neg (by simp [hop, hkind])
  case split =>
    intro s source pkt c hop hkind hchange hstate
    change execSplitReceived source pkt s = _
    unfold execSplitReceived
    rw [if_neg (by simp [hop, hkind]), hchange]
    dsimp only
    rw [if_neg (by simp [Change.isSplit, hstate])]
    rfl
  case extension =>
    intro s ctx p r n hactive hctx harmed htime hstart hretime
    change execSpareExtensionEffect ctx s = _
    simp only [execSpareExtensionEffect, hactive, hctx, harmed]
    rw [if_pos ⟨htime, hstart⟩]
    exact congrArg Host.Outcome.next (congrArg (fun x => State.showExt (State.changeApplied x 7 ctx 0)) (if_neg fun h => Bool.false_ne_true (hretime.symm.trans h)))
  case failed =>
    intro s kind ctx n c heffect htime harmed
    change execChangeFailedAtEffect kind ctx s = _
    unfold execChangeFailedAtEffect
    rw [heffect]
    dsimp only
    rw [if_pos htime, harmed]

end Sys2Proof.Machine
end

section
/-! # Proofs: management sessions, their requests, and the commands of security -/
namespace Sys2Proof.Machine
open Sys2Proof

section

variable {s : State} {session : Fin 8}

/-- A request of an open session that the module serves is served (R377). -/
theorem State.onSession_served {reqId : Nat} (req : FcpReq) (hup : s.fcpUp = true)
    (hopen : (Tab.find? session.val s.fst.sessions).isSome = true) (hserves : s.serves session (fcpOp req) = true) :
    s.onSession session reqId req = s.serve session reqId req :=
  (if_pos ⟨hup, session.isLt, hopen⟩).trans (if_pos hserves)

theorem State.answerAll_session (op reqId status : Nat) (fields : List Nat) (bytes : List Byte) :
    s.answerAll session op reqId status fields bytes = s.emit (fcpAnswer session op reqId status fields bytes) := if_pos session.isLt

theorem State.atModule_here {who reqId op m : Nat} {l : List (List Nat × List Byte)} {here : State → State} (hm : m = s.number)
    (hlocal : m < 4096 ∨ op < 0x20) : s.atModule who reqId op m l here = here s := if_pos ⟨hm, hlocal⟩

/-- An operation that ends with a status alone answers it on its session. -/
theorem State.finish_session (op reqId : Nat) (r : State × Nat) :
    State.finish session op reqId r = r.1.emit (fcpAnswer session op reqId r.2 [] []) := if_pos session.isLt

/-- An access of a session is answered at once where it is in error or barred, and queued otherwise (R187, R196). -/
theorem State.access_session (kind : JobKind) (a n reqId : Nat) (ecc : MemEcc) :
    s.access kind a n ecc (some (session.val, reqId)) =
      if s.serviceStatus a n ≠ 0 then s.emit (fcpAnswer session (if kind.writes then 0x21 else 0x20) reqId (s.serviceStatus a n) [] [])
      else if kind.writes ∧ s.writeBarred a n then (s.serviceRefused a).emit (fcpAnswer session 0x21 reqId 4 [] [])
      else State.serveJobs { s with scr := { s.scr with jobs := s.scr.jobs ++ [⟨kind, a, n, ecc, 0, [], false, some (session.val, reqId)⟩] } } := by
  unfold State.access State.answerAccess
  simp only [State.answerAll_session, if_true]

end

/-- Settles O32, request by request. -/
theorem sessionsRun : Obligations.SessionsRun := by
  refine ⟨?handshake, ?hello, ?csrRead, ?csrWrite, ?memRead, ?memWrite, ?shardPut, ?exportStream, ?discSend, ?reset, ?packet, ?acknowledged, ?linkUp⟩
  case handshake =>
    rintro s profile anchor n hup rfl howned hfree
    change execFcpHandshake true anchor s = _
    unfold execFcpHandshake
    rw [if_neg (by simp [hup]), hfree, howned]
    rfl
  case hello =>
    intro s session reqId hup hopen hserves
    refine congrArg Host.Outcome.next ((State.onSession_served .hello hup hopen hserves).trans ?_)
    exact State.answerAll_session ..
  case csrRead =>
    intro s session reqId module offset count hup hopen hserves hpos hmax hmodule haligned
    refine congrArg Host.Outcome.next ((State.onSession_served (.csrRead module offset count) hup hopen hserves).trans ?_)
    refine (if_neg (by omega)).trans ((State.atModule_here hmodule (.inr (show 0x10 < 0x20 by decide))).trans ?_)
    exact (if_neg (not_not.mpr haligned)).trans (State.answerAll_session ..)
  case csrWrite =>
    intro s session reqId module pairs inp hup hopen hserves hsome hmax hmodule
    refine congrArg Host.Outcome.next ((State.onSession_served (.csrWrite module pairs inp) hup hopen hserves).trans ?_)
    refine (if_neg (by simp [hsome, hmax])).trans ((State.atModule_here hmodule (.inr (show 0x11 < 0x20 by decide))).trans ?_)
    exact State.finish_session ..
  case memRead =>
    rintro s session reqId addr length st ecc hup hopen hserves hpos hmax hmodule hnumber rfl
    refine congrArg Host.Outcome.next ((State.onSession_served (.memRead addr length ecc) hup hopen hserves).trans ?_)
    refine (if_neg (by omega)).trans ((State.atModule_here hmodule (.inl (hmodule ▸ hnumber))).trans ?_)
    refine (State.access_session ..).trans ?_
    simp only [JobKind.writes, Bool.false_eq_true, false_and, if_false]
  case memWrite =>
    rintro s session reqId addr st bytes hup hopen hserves hsome hmax hmodule hnumber rfl
    refine congrArg Host.Outcome.next ((State.onSession_served (.memWrite addr bytes) hup hopen hserves).trans ?_)
    refine (if_neg (by simp only [hsome, or_false]; omega)).trans ((State.atModule_here hmodule (.inl (hmodule ▸ hnumber))).trans ?_)
    refine (State.access_session ..).trans ?_
    simp only [JobKind.writes, true_and, if_true]
  case shardPut =>
    intro s session reqId ctx entry shard bytes hup hopen hserves hctx hentry hmax
    refine congrArg Host.Outcome.next ((State.onSession_served (.shardPut ctx entry shard bytes) hup hopen hserves).trans ?_)
    exact (if_neg (by omega)).trans (State.finish_session ..)
  case exportStream =>
    intro s session reqId hup hopen hserves
    refine congrArg Host.Outcome.next ((State.onSession_served .export_ hup hopen hserves).trans ?_)
    exact congrArg (fun x => State.openExport x session reqId) (State.answerAll_session ..)
  case discSend =>
    rintro s session reqId op token epoch path body hup hopen hserves rfl rfl rfl
    exact congrArg Host.Outcome.next ((State.onSession_served (.discSend 1 token epoch [] []) hup hopen hserves).trans rfl)
  case reset =>
    intro s session reqId domain hup hopen hserves
    refine congrArg Host.Outcome.next ((State.onSession_served (.reset domain) hup hopen hserves).trans ?_)
    exact congrArg (fun x => State.resetDomain x domain) (State.answerAll_session ..)
  case packet =>
    rintro s source reqId req status fields bytes a hpower hbooted rfl hawaited
    change execFcpServicePacket source reqId (.answer status fields bytes) s = _
    unfold execFcpServicePacket
    rw [if_neg (by simp [hpower, hbooted])]
    dsimp only
    rw [hawaited]
  case acknowledged => exact fun s session count hexporting => congrArg Host.Outcome.next (if_pos hexporting)
  case linkUp => exact fun s address hpower => if_pos hpower

end Sys2Proof.Machine
end

section
/-! # Proofs: certificates, quotes, owner commands, firmware and secure boot -/
namespace Sys2Proof.Machine
open Sys2Proof

section

variable {s : State} {session : Fin 8} {reqId : Nat}

/-- An owner command that the checks accept acts and is answered with status 0 (R396). -/
theorem State.onSession_ownerCmd {op : OwnerOp} {c : OwnerCmd} (hup : s.fcpUp = true)
    (hopen : (Tab.find? session.val s.fst.sessions).isSome = true) (hserves : s.serves session 0x72 = true)
    (hok : s.ownerOk op c = true) (hadmitted : s.writesAdmitted = true) :
    s.onSession session reqId (.ownerCmd op c) = (s.ownerActs op c).emit (fcpAnswer session 0x72 reqId 0 [] []) := by
  have hcommand : s.ownerCommand op c = (s.ownerActs op c, 0) := (if_neg (by simp [hok])).trans (if_neg (by simp [hadmitted]))
  refine (State.onSession_served (.ownerCmd op c) hup hopen hserves).trans ((State.finish_session ..).trans ?_)
  rw [hcommand]
  rfl

end

/-- Settles O33, command by command. -/
theorem securityCommandsRun : Obligations.SecurityCommandsRun := by
  refine ⟨?certs, ?quote, ?enroll, ?revoke, ?anchorSet, ?anchorClear, ?claim, ?put, ?activate, ?commit, ?boot⟩
  case certs =>
    intro s session reqId hup hopen hserves
    refine congrArg Host.Outcome.next ((State.onSession_served .certs hup hopen hserves).trans ?_)
    exact State.answerAll_session ..
  case quote =>
    intro s session reqId challenge hup hopen hserves hlength
    refine congrArg Host.Outcome.next ((State.onSession_served (.quote challenge) hup hopen hserves).trans ?_)
    exact (if_pos hlength).trans (State.answerAll_session ..)
  case enroll =>
    exact fun s session reqId c hup hopen hserves hok hadmitted =>
      congrArg Host.Outcome.next (State.onSession_ownerCmd hup hopen hserves hok hadmitted)
  case revoke =>
    exact fun s session reqId c hup hopen hserves hok hadmitted =>
      congrArg Host.Outcome.next (State.onSession_ownerCmd hup hopen hserves hok hadmitted)
  case anchorSet =>
    exact fun s session reqId c hup hopen hserves hok hadmitted =>
      congrArg Host.Outcome.next (State.onSession_ownerCmd hup hopen hserves hok hadmitted)
  case anchorClear =>
    exact fun s session reqId c hup hopen hserves hok hadmitted =>
      congrArg Host.Outcome.next (State.onSession_ownerCmd hup hopen hserves hok hadmitted)
  case claim =>
    intro s session reqId c hup hopen hserves hcode hsig hadmitted
    have hclaimed : s.ownerClaimed c = _ := (if_neg (by simp [hcode, hsig])).trans (if_neg (by simp [hadmitted]))
    refine congrArg Host.Outcome.next ((State.onSession_served (.ownerClaim c) hup hopen hserves).trans ((State.finish_session ..).trans ?_))
    rw [hclaimed]
    rfl
  case put =>
    intro s session reqId image offset bytes hup hopen hserves himage haligned hsome hmax hidle hadmitted
    have hput : s.fwPut image offset bytes = (s.queueUnits (imageUnits image offset bytes), 0) :=
      (if_neg (by
        simp only [not_or, not_not, Nat.not_le, Nat.not_lt]
        exact ⟨himage, haligned, hsome, hmax⟩)).trans ((if_neg (by simp [hidle])).trans (if_neg (by simp [hadmitted])))
    refine congrArg Host.Outcome.next ((State.onSession_served (.fwPut image offset bytes) hup hopen hserves).trans
      ((State.finish_session ..).trans ?_))
    rw [hput]
    rfl
  case activate =>
    rintro s session reqId image length check img hup hopen hserves himage hidle hverifies hsvn hadmitted rfl
    have hactivate : s.fwActivate image length check = _ := (if_neg (Nat.not_le.mpr himage)).trans ((if_neg (by simp [hidle])).trans
      ((if_neg (by simp [hverifies])).trans ((if_neg (Nat.not_lt.mpr hsvn)).trans (if_neg (by simp [hadmitted])))))
    refine congrArg Host.Outcome.next ((State.onSession_served (.fwActivate image length check) hup hopen hserves).trans
      ((State.finish_session ..).trans ?_))
    rw [hactivate]
    rfl
  case commit => exact fun s hadmitted => if_pos hadmitted
  case boot =>
    rintro s a b u hpower hdown hfused himage rfl hboots
    have hnext : ({ s with nv := { s.nv with keys := s.nv.keys.map KeySlot.booted } } : State).showSecurity.nv.nextImage % 2 = 0 := by
      rw [(State.showSecurity_frame _).same .nv (by decide)]
      exact himage
    change execSecureBoot a b s = _
    unfold execSecureBoot
    rw [if_neg (by simp [hpower, hdown, hfused])]
    dsimp only
    rw [hnext, if_pos rfl]
    exact if_pos hboots

end Sys2Proof.Machine
end

section
/-! # Proofs: faults, the Ring Recorder, traces, snapshots, bring-up and resets -/
namespace Sys2Proof.Machine
open Sys2Proof

/-- Settles O34, command by command. -/
theorem faultsAndFatalsRun : Obligations.FaultsAndFatalsRun := by
  refine ⟨?ack, ?release, ?timer, ?spillNow, ?free, ?rail, ?parity, ?spine, ?loss⟩
  case ack =>
    rintro s u seq rfl
    refine ⟨fun p hfirst hprimary hseq => ?_, fun herrs => if_neg herrs⟩
    have hack : (s.wr R.FLT_CTRL_ACK_SEQ seq).ackRecord seq = (s.wr R.FLT_CTRL_ACK_SEQ seq).promote := by
      unfold State.ackRecord
      rw [hprimary]
      exact if_pos hseq
    exact (if_pos hfirst).trans (congrArg Host.Outcome.next hack)
  case release => exact fun s hnone => ⟨_, if_neg (by simp [hnone]), State.rd_wr_same .., rfl, rfl⟩
  case timer => exact fun s hpower => if_pos hpower
  case spillNow => exact fun s => rfl
  case free => exact fun s => ⟨_, rfl, rfl, rfl, rfl⟩
  case rail => exact fun s hdie => if_pos hdie
  case parity => exact fun s hrun => if_pos hrun
  case spine => exact fun s source hdie => if_pos hdie
  case loss =>
    intro s
    change execInputPowerLoss s = _
    unfold execInputPowerLoss
    by_cases hholdup : s.pwr.forester = true ∧ s.pwr.holdupSwitch = true ∧ s.pwr.inputGone = false
    · rw [if_pos hholdup, if_pos (by simpa using hholdup)]
    · rw [if_neg hholdup, if_neg (by simpa using hholdup)]

/-- Settles O35, command by command. -/
theorem traceAndSnapshotRun : Obligations.TraceAndSnapshotRun := by
  refine ⟨?arm, ?start, ?stop, ?stopNow, ?snapArm, ?snapNow, ?snapshot⟩
  case arm => exact fun s => ⟨_, rfl, State.rd_wr_same .., rfl, rfl⟩
  case start =>
    intro s harmed hcount
    refine ⟨_, if_pos ⟨harmed, hcount⟩, State.rd_wr_same .., ?_, rfl, rfl⟩
    rw [State.rd_wr_ne _ _ (by decide), State.rd_wr_ne _ _ (by decide), State.rd_wr_same]
    rfl
  case stop => exact fun s hruns hsome hcount => ⟨_, if_pos ⟨hruns, hsome, hcount⟩, State.rd_wr_same .., rfl⟩
  case stopNow => exact fun s hruns => ⟨_, if_pos hruns, State.rd_wr_same .., rfl⟩
  case snapArm => exact fun s haligned => ⟨_, if_pos haligned, rfl, rfl⟩
  case snapNow => exact fun s => rfl
  case snapshot =>
    intro s n harmed hcount
    change execSnapshot s = _
    unfold execSnapshot
    rw [harmed]
    exact if_pos hcount

/-- Settles O36, command by command. -/
theorem bringUpAndResetsRun : Obligations.BringUpAndResetsRun := by
  refine ⟨?power, ?rail, ?railTimeout, ?running, ?timeout, ?faulted, ?moduleReset, ?forester, ?dieCore, ?dieCoreEnd, ?haulPlane, ?retry,
    ?laneFail, ?noProgress, ?retrained⟩
  case power =>
    exact fun s temp flow hserving hbooted hfirmware hoff hcoolant =>
      ⟨_, if_pos ⟨hserving, hbooted, by simp [hfirmware], by simp [hoff], by simp [hcoolant]⟩, rfl, rfl, rfl, rfl, rfl⟩
  case rail =>
    intro s hdie hramp hgroup
    change execRailGroupRegulation s = _
    unfold execRailGroupRegulation
    rw [if_pos ⟨hdie, hramp⟩, hgroup]
    exact if_neg fun h => absurd h.1 (by decide)
  case railTimeout => exact fun s hramp => if_pos hramp
  case running =>
    intro s foreman digest measures hloading hmeasures
    exact ⟨_, (if_pos hloading).trans (if_pos hmeasures), State.rdAt_wrAt_same .., rfl⟩
  case timeout => exact fun s foreman hloading => if_pos hloading
  case faulted => exact fun s foreman hruns => ⟨_, if_pos hruns, State.rdAt_wrAt_same ..⟩
  case moduleReset => exact fun s => ⟨fun hnone => congrArg Host.Outcome.next (if_pos hnone), fun hsome => congrArg Host.Outcome.next (if_neg hsome)⟩
  case forester => exact fun s hpower => if_pos hpower
  case dieCore => exact fun s hdie => if_pos hdie
  case dieCoreEnd => exact fun s hdie hrails hreset hfree => if_pos ⟨hdie, hrails, hreset, by simp [hfree]⟩
  case haulPlane => exact fun s hdie => if_pos hdie
  case retry => exact fun s => ⟨fun hup => if_pos hup, fun hdown => if_neg (by simp [hdown])⟩
  case laneFail =>
    rintro s tx lanes old new rfl rfl hmore hlink
    have hexec : exec (.olicoLaneFail tx lanes) s = _ := if_neg (by simp only [hlink, or_false]; omega)
    exact ⟨fun hhalf => hexec.trans (if_neg (by simp [hhalf])), fun hlost => hexec.trans (if_pos hlost)⟩
  case noProgress =>
    intro s hup
    refine ⟨if_pos hup, s.olicoDown_shown.1, s.olicoDown_shown.2, ?_⟩
    unfold State.olicoDown
    rw [State.rd_wr_ne _ _ (by decide), State.rd_inc_same, State.rd_wr_ne _ _ (by decide)]
  case retrained =>
    rintro s badTx badRx tx rx hdown hbooted rfl rfl htx hrx
    exact if_neg (by simp [hdown, hbooted, htx, hrx])

end Sys2Proof.Machine
end
